-- ==== Sys2Proof/Word.lean ====
section
/-! DEFINITION. The words of the device: bytes, 32-bit and 64-bit words, 128-bit flits (R7, R8, R140). -/

namespace Sys2Proof

/-- A byte. -/
abbrev Byte := BitVec 8

/-- A half word. -/
abbrev Half := BitVec 16

/-- A 32-bit word: the width of a register unless its map states 64 (R8). -/
abbrev Word := BitVec 32

/-- A 64-bit word. -/
abbrev DWord := BitVec 64

/-- A sparse map from numbers to data: strictly rising keys, and no entry equal to the default, so that equal maps are
equal lists. -/
abbrev AMap (α : Type) := List (Nat × α)

end Sys2Proof
end

