-- ==== Sys2Proof/Syntax.lean ====
section
/-! DEFINITION. The commands of the block, one constructor per row of the command table, and what their operands name. The conditions and
times of a command that the machine cannot see (a cycle counter's value, an error a memory holds, whether a rail is ready) are operands. -/

namespace Sys2Proof

/-- A requester of a register access (R13): a gate port (its trays, admin slot), an engine by cluster and core slot
(R19: 0 to 15 neuron cores, 16, 17 vector cores, 18 the matrix core), a steward, or the resident configuration. -/
inductive Requester where
  | port (n : Fin 8)
  | engine (c : Fin 96) (slot : Fin 19)
  | steward (east : Bool)
  | resident
  deriving DecidableEq, Repr

/-- What a phase of a start finds or observes (R500, R501, R503, R439, R375): a condition of the board, the dice or the links. -/
inductive BootFact where
  /-- phase 2: the flash presents no JESD216 tables or cannot be read -/
  | flashBad
  /-- phase 3: a fuse word fails its check -/
  | fuseBad
  /-- phase 5: an engine fails, by cluster and core slot -/
  | engine (c : Fin 96) (slot : Fin 19)
  /-- phase 5: banks, message unit or other shared logic of a cluster fails -/
  | shared (c : Fin 96)
  /-- phase 5: a router, switch or control node fails -/
  | node (c : Fin 96)
  /-- phase 5: a port's staging fails -/
  | staging (n : Fin 8)
  /-- phase 5: an LPDDR controller or PHY fails -/
  | channel (n : Fin 24)
  /-- phase 5: the west half backbone fails -/
  | westBackbone
  /-- phase 6: a channel reports a device of a density (DM_CH_STATUS.DENS) and trains, or fails with a code -/
  | dram (n : Fin 24) (dens : Fin 5) (code : BitVec 16)
  /-- phase 6: good lanes of one direction of a link; `again`: the warm check failed and the direction was trained again -/
  | link (n : Fin 4) (east : Bool) (good : Fin 73) (again : Bool)
  /-- phase 7: the most resend rounds used by any image -/
  | rounds (n : Fin 4)
  deriving DecidableEq, Repr

/-- An engine, by cluster and core slot, or a gate port's event source (R19, R65, R153). -/
inductive EngineAt where
  | engine (c : Fin 96) (slot : Fin 19)
  | port (n : Fin 8)
  deriving DecidableEq, Repr

/-- A bind entry (R218): of a matrix core, of a vector core, of a gate port. -/
inductive BindAt where
  | mx (c : Fin 96) (n : Fin 8)
  | vx (c : Fin 96) (v : Fin 2) (n : Fin 8)
  | port (n : Fin 8) (b : Fin 8)
  deriving DecidableEq, Repr

/-- A target of messages (R328): a channel or combining queue of a cluster, or a host channel of a port. -/
inductive TargetAt where
  | channel (c : Fin 96) (n : Fin 32)
  | queue (c : Fin 96) (q : Fin 8)
  | host (n : Fin 8) (ch : Fin 16)
  deriving DecidableEq, Repr

/-- An arbiter (R384): of a channel's queue, a port's staging, a bank, a keep-store bank. -/
inductive ArbAt where
  | memory (n : Fin 24)
  | staging (n : Fin 8)
  | bank (c : Fin 96) (b : Fin 8)
  | keep (c : Fin 96)
  deriving DecidableEq, Repr

/-- A trellis transfer: its requester endpoint (R296) and its tag (R306). -/
structure XferAt where
  ep : Fin 800
  tag : Fin 32
  deriving DecidableEq, Repr

/-- The bits an error has changed in the flit at an input of a router (0 N, 1 E, 2 S, 3 W) (R125, R278). -/
structure FlitErr where
  c : Fin 96
  port : Fin 4
  err : BitVec 128
  deriving DecidableEq, Repr

/-- Errors on a link of the control network (R319). Link 5c + d of cluster c's node goes to its north, east, south or west neighbour
(d = 0 to 3) or up to its row node (4); link 480 + 6H + Y goes from a row node to the steward. `n`: 0, a word with a single-bit error; 1 to
8, a word with an uncorrectable error that passes at that resend; 9, one that 8 resends do not bring across. -/
structure LinkErr where
  link : Fin 492
  n : Fin 10
  deriving DecidableEq, Repr

/-- A mode register of a gate port that a host reads (R396). -/
inductive ModeReg where
  | density | width | masks | linkProtection | onDieEcc | refreshRate | temperature | manufacturer | revision
  deriving DecidableEq, Repr

/-- What a message meets on its way and where it acts (R180, R195, R319, R371): link errors, and the places that read uncorrectable there:
store addresses of the select words of a FLIP, device addresses of the lines of a WRITE. -/
structure FlipErr where
  links : List LinkErr
  bad : List Nat
  deriving DecidableEq, Repr

/-- What happens to a seam cell (R319, R438): whether it arrives with a correct CRC; whether the sender, which has not heard of a cell that
was lost, sends a later one, which arrives out of order; and, for the messages of a control cell as they act in the far half, link errors
and device addresses of words that read uncorrectable. -/
structure CellFate where
  good : Bool
  ahead : Bool := false
  links : List LinkErr := []
  bad : List Nat := []
  deriving DecidableEq, Repr

/-- What lines of LPDDR meet as a transfer that no beat shows reads them (R373, R374, R383), by device address: words corrected, errors that a
second read clears, lines that stay uncorrectable, and whether with those the channel fails in service. -/
structure LineFate where
  corr : List Nat := []
  link : List Nat := []
  bad : List Nat := []
  failing : Bool := false
  deriving DecidableEq, Repr

/-- Of some addresses, those in a range of n bytes. -/
def inRange (a n : Nat) (l : List Nat) : List Nat := l.filter fun x => decide (a ≤ x) && decide (x < a + n)

/-- Does a range of n bytes hold an uncorrectable line? -/
def LineFate.badIn (m : LineFate) (a n : Nat) : Bool := inRange a n m.bad != []

/-- The target whose compost is drained, and what its entry meets as it is read back (R349, R374). -/
structure DrainAt where
  target : TargetAt
  meets : LineFate := {}
  deriving DecidableEq, Repr

/-- The host channel whose compost is drained, and what its entry meets as it is read back (R421, R374). -/
structure HostDrainAt where
  ch : Fin 16
  meets : LineFate := {}
  deriving DecidableEq, Repr

/-- What a sink addition meets at its bank (R360, R371, R384): bank-space offsets that read uncorrectable, and whether bank-port beats leave
the line's sub-bank no free cycle. -/
structure SinkMeet where
  bad : List Nat
  busy : Bool := false
  deriving DecidableEq, Repr

/-- What the standard service program takes for a stage (R225, R238): core cycles and instructions. -/
structure SvcTook where
  cycles : Nat
  instrs : Nat
  deriving DecidableEq, Repr

/-- What a host has done on its port's link since the last scan (R396, R401, R432): the aperture offsets of its read bursts, its mode
register reads, refresh commands, and link-protection errors. -/
structure LinkUse where
  reads : List (BitVec 34)
  modes : List ModeReg
  refreshes : Nat
  errors : Nat
  deriving DecidableEq, Repr

/-- The width of a register access in bytes (R8). -/
inductive Width where
  | w8 | w16 | w32 | w64
  deriving DecidableEq, Repr

/-- An error a data beat meets (R311, R370, R371, R374, R383). -/
inductive BeatErr where
  /-- none -/
  | ok
  /-- a single-bit error of the beat, corrected where it is received -/
  | single
  /-- an uncorrectable beat -/
  | multi
  /-- single-bit errors in n + 1 words of the stored line, corrected before it leaves -/
  | lineSingle (n : Fin 8)
  /-- an uncorrectable stored line -/
  | lineMulti
  /-- a write beat that leaves: an uncorrectable word of the requester's own store -/
  | source
  /-- at an LPDDR channel: a read that was clean only the second time, or a write issued again n + 1 times -/
  | link (n : Fin 4)
  /-- an LPDDR read uncorrectable twice -/
  | cells
  /-- the same, and the 16th within one second at the channel -/
  | failing
  deriving DecidableEq, Repr

/-- The commands of the block: one constructor per row of the command table, in the table's order but for
those without operands, which come last. -/
inductive Instr where
  /-- REGISTER_WRITE (R9): A write to a register field that has no row of its own stores, sets or clears the field according to its access
  code. A write of some width at a device address. -/
  | registerWrite (req : Requester) (w : Width) (a : BitVec 48) (v : DWord)
  /-- REG64_LOWER_READ (R13): A read of the lower word of a 64-bit register latches the upper word for that requester. A read of some width
  at a device address: of a lower word, it latches the upper one. -/
  | reg64LowerRead (req : Requester) (w : Width) (a : BitVec 48)
  /-- REG_READ_CLEAR (R9): A read of an RC field returns its value and then clears the field. A read of some width at a device address: of
  an RC field, it clears the field. -/
  | regReadClear (req : Requester) (w : Width) (a : BitVec 48)
  /-- REG64_UPPER_WRITE (R13): A write to the upper word of a 64-bit register commits it together with the held or present lower word. A
  write of some width at a device address: of an upper word, it commits both. -/
  | reg64UpperWrite (req : Requester) (w : Width) (a : BitVec 48) (v : DWord)
  /-- TBI_EDGE_ACCEPT (R52): An A or B level change that has held for FILT+1 samples is accepted and counted under the channel's MODE. The
  new filtered levels of A and B. -/
  | tbiEdgeAccept (m : Fin 8) (a : Bool) (b : Bool)
  /-- TBI_Z_EDGE_ACCEPT (R56): An accepted rising Z edge latches P into TB_ZLATCH and, with ZMODE 2, realigns P and N to the step boundary.
  The new filtered level of Z. -/
  | tbiZEdgeAccept (m : Fin 8) (z : Bool)
  /-- TB_PERIOD_EXPIRY (R57): A periodic timebase increments its target every TB_PERIOD timebase-input cycles. -/
  | tbPeriodExpiry (n : Fin 64)
  /-- TB_TARGET_WRITE (R59): A host-target timebase takes a written target above its present one, and counts a lower write in TB_TGTDROP. -/
  | tbTargetWrite (req : Requester) (n : Fin 64) (v : DWord)
  /-- TB_ENABLE (R60): Writing TB_CFG.EN = 1 runs the consistency check and zeroes the target, N, P, TB_REVERSE and phase. The other bits of
  TB_CFG come with the write. -/
  | tbEnable (req : Requester) (n : Fin 64) (v : Word)
  /-- TB_DISABLE (R60): Writing TB_CFG.EN = 0 freezes the target, and the bound groups finish their open steps and then wait. -/
  | tbDisable (req : Requester) (n : Fin 64) (v : Word)
  /-- TB_IN_CFG_WRITE (R581): A write to TB_IN_CFG of a channel that no enabled timebase reads restarts its filters from the present pin
  levels. pins: the levels of A, B and Z at the write. -/
  | tbInCfgWrite (req : Requester) (m : Fin 8) (v : Word) (pins : Fin 8)
  /-- WG_ENABLE (R61): Writing WG_CFG.EN = 1 runs the consistency check and, on acceptance, records the origin, sets WG_STEP to 0 and loads
  the group tables. -/
  | wgEnable (req : Requester) (g : Fin 256) (v : Word)
  /-- WG_DISABLE (R49): Writing WG_CFG.EN = 0 disables a waiting or halted group at once, or lets an open step or swap finish first. -/
  | wgDisable (req : Requester) (g : Fin 256) (v : Word)
  /-- WG_STEP_OPEN (R61): The device opens step s+1 of a group once all six open conditions hold, and broadcasts OPEN. -/
  | wgStepOpen (g : Fin 256)
  /-- WG_INSEQ_WRITE (R73): A write of WG_INSEQ releases the input fence for the steps it covers. -/
  | wgInseqWrite (req : Requester) (g : Fin 256) (v : DWord)
  /-- WG_HALT (R87): The WG_CTRL.HALT command halts the group at its next harvest with reason 0x0180. -/
  | wgHalt (req : Requester) (g : Fin 256)
  /-- WG_RESUME (R81): The WG_CTRL.RESUME command makes a halted group leave HALTED and apply the overrun policy at its first opening. -/
  | wgResume (req : Requester) (g : Fin 256)
  /-- WG_RESUME_REALIGN (R81): RESUME with REALIGN makes the group's step jump as a skip to L = 1, adding the jump to WG_SKIPPED. -/
  | wgResumeRealign (req : Requester) (g : Fin 256)
  /-- HARVEST_ROUND (R66): After emit-done from every engine, the tree sums injected minus accepted minus absorbed, and the step closes on a
  zero sum. `h`: the half whose steward runs the round, in the split state. -/
  | harvestRound (g : Fin 256) (h : Fin 2)
  /-- SWAP_WRITE_OUT_DONE (R76): When the write-out completes, the read-in of the next cohort from its home starts. -/
  | swapWriteOutDone (g : Fin 256)
  /-- COHORT_READ_IN_DONE (R80): Completion of a cohort read-in, at a swap or at enable, rebuilds the bitmaps and returns the group to
  waiting, or halts it on an error. `meets`: what the lines of the cohort's home meet. -/
  | cohortReadInDone (g : Fin 256) (meets : LineFate)
  /-- NC_ENABLE (R95): Writing NC_CFG.EN = 1 starts the fill of the three power tables. -/
  | ncEnable (req : Requester) (c : Fin 96) (n : Fin 16) (v : Word)
  /-- POWER_TABLE_FILL_DONE (R95): After 3,072 cycles the power tables are filled and the core reads IDLE. -/
  | powerTableFillDone (c : Fin 96) (n : Fin 16)
  /-- CN_OPEN (R102): An OPEN message reaching an engine opens the step there; a neuron core starts its integration scan. `bad`: addresses
  of words with an uncorrectable error, here and below; `errs`: errors on the control links it passes. -/
  | cnOpen (g : Fin 256) (e : EngineAt) (bad : List Nat) (errs : List LinkErr)
  /-- FANOUT_WALK (R133): The fan-out unit walks an event's chain and forms one flit per destination word into the injection queue. -/
  | fanoutWalk (c : Fin 96) (n : Fin 16) (bad : List Nat)
  /-- ENGINE_EMIT_DONE (R65): An engine reports emit-done once it will inject nothing more for the step and its injection-queue flits have
  left. -/
  | engineEmitDone (g : Fin 256) (e : EngineAt)
  /-- CORE_FLIT_ENQUEUE (R98): An ejected flit enters a neuron core's input queue, is counted as accepted, and is absorbed if its stamp,
  world or neuron fails. The first flit of the delivery stage for the core. -/
  | coreFlitEnqueue (c : Fin 96) (n : Fin 16)
  /-- LANE_DELIVERY (R97): Once the step is open and the scan has started, the lane unit weights a flit's fan-in entries or kernel targets
  into their delay slots. held: the cycles its additions have waited; conf, aconf: its bank-conflict cycles, of slots and
  accumulators. -/
  | laneDelivery (c : Fin 96) (n : Fin 16) (bad : List Nat) (held conf aconf : Nat)
  /-- MODULATOR_FLIT (R167): A KIND 2 flit at a neuron core promotes a due NEXT to CUR and then adds its value into the pending NEXT. The
  first KIND 2 flit of the delivery stage for the core. -/
  | modulatorFlit (c : Fin 96) (n : Fin 16)
  /-- CORE_SLEEP (R113): A core idle for NC_SLEEPDLY cycles gates the clocks of its scan and lane units. -/
  | coreSleep (c : Fin 96) (n : Fin 16)
  /-- CORE_WAKE (R114): A flit, step open, access, settle or swap wakes a sleeping core, which restarts its lanes or scan 24 cycles later.
  The source (WAKESRC) and the gated cycles. -/
  | coreWake (c : Fin 96) (n : Fin 16) (src : Fin 16) (cycles : Nat)
  /-- EMIT_RECORD (R147): An emit port takes an emit record and forms a flit or walks the fan-out directory, or drops the record. Engine 0
  is VC0, 1 VC1 and 2 MX, here and below. -/
  | emitRecord (c : Fin 96) (e : Fin 3) (bad : List Nat)
  /-- SINK_ADD (R148): A sink adds a KIND 0 or 1 flit into its double-buffered tensor, or absorbs it. The first flit of the delivery stage
  for the sink, or a waiting one. -/
  | sinkAdd (c : Fin 96) (e : Fin 3) (meets : SinkMeet)
  /-- INBAND_QUEUE_ENTER (R150): A KIND 2 or 3 flit enters the in-band queue of VC0, VC1 or MX and is counted as accepted. -/
  | inbandQueueEnter (c : Fin 96) (e : Fin 3)
  /-- LR_SET_ENABLE (R175): Writing LR_SET_CFG.EN = 1 runs the check and zeroes accumulators, prune counts, candidate counts and modulator
  tables. -/
  | lrSetEnable (req : Requester) (c : Fin 96) (k : Fin 16) (v : Word)
  /-- LR_SET_WG_WRITE (R197): Writing LR_SET_WGn marks writer groups across every block of the set and checks each newly set enabled group.
  -/
  | lrSetWgWrite (req : Requester) (c : Fin 96) (k : Fin 16) (j : Fin 8) (v : Word)
  /-- LR_SET_COMMIT (R186): Writing LR_SET_CTRL.COMMIT requests one commit of the set, as KS_CMD OP 1 does. -/
  | lrSetCommit (req : Requester) (c : Fin 96) (k : Fin 16)
  /-- EPOCH_END_START (R163): Once every enabled writer group has finished the epoch, the epoch end begins and the update stage is
  signalled. -/
  | epochEndStart (k : Fin 16)
  /-- SERVICE_STAGE_SIGNAL (R225): A stage signal from the steward starts context 1 of a vector core at its service entry. Of a context that
  runs the standard program, the command stands for that program's run to its SYS 0; `took`: what it takes. -/
  | serviceStageSignal (c : Fin 96) (v : Fin 2) (k : Fin 16) (took : SvcTook) (bad : List Nat)
  /-- CN_FLIP (R180): A FLIP message makes each core invert the select bit of every block of its learning range. -/
  | cnFlip (c : Fin 96) (n : Fin 16) (errs : FlipErr)
  /-- FLIP_COMPLETE (R180): When every core has reported the flip, LR_SET_EPOCH increments and the writers may open the next epoch. -/
  | flipComplete (k : Fin 16)
  /-- KS_CMD_NONE (R199): A KS_CMD write with OP 0 has no effect and runs no check. -/
  | ksCmdNone (req : Requester) (c : Fin 96) (k : Fin 16)
  /-- KS_COMMIT (R186): A KS_CMD write with OP 1 runs the check and queues a commit of the set. -/
  | ksCommit (req : Requester) (c : Fin 96) (k : Fin 16)
  /-- KS_RESTORE (R192): A KS_CMD write with OP 2 restores a disabled set's weights, LIVE bits and candidates from the committed generation.
  -/
  | ksRestore (req : Requester) (c : Fin 96) (k : Fin 16)
  /-- RESTORE_COMPLETE (R192): A restore finishes and sets LR_SET_EPOCH to the stored epoch. -/
  | restoreComplete (p : Fin 8)
  /-- COMMIT_PHASE_DONE (R187): A commit phase completes (capture, compare and program, or root), starting the next phase or committing the
  generation. `bad`: pages whose programming fails. -/
  | commitPhaseDone (bad : List Nat)
  /-- MX_DQ_TAIL_WRITE (R210): A write of MX_DQ_TAIL makes descriptors visible, binds step-bound ones and wakes an unpowered subdomain. -/
  | mxDqTailWrite (req : Requester) (c : Fin 96) (v : Word)
  /-- MX_FENCE (R214): A FENCE descriptor starts only when every earlier descriptor has completed and written its output. The matrix core
  starts its head descriptor, if it has this operation. -/
  | mxFence (c : Fin 96) (bad : List Nat)
  /-- MX_MATMUL (R214): A MATMUL descriptor multiplies A by W in tiles. The matrix core starts its head descriptor, if it has this
  operation; `stopped`: the cycles of its stopped runs. -/
  | mxMatmul (c : Fin 96) (stopped : Nat) (bad : List Nat)
  /-- MX_CONV (R215): A CONV descriptor runs a two-dimensional convolution as an equivalent multiply. The matrix core starts its head
  descriptor, if it has this operation; `stopped`: the cycles of its stopped runs. -/
  | mxConv (c : Fin 96) (stopped : Nat) (bad : List Nat)
  /-- MX_EW (R214): An EW descriptor applies the element-wise operation that SUB selects, in FP32. The matrix core starts its head
  descriptor, if it has this operation. -/
  | mxEw (c : Fin 96) (bad : List Nat)
  /-- MX_REDUCE (R214): A REDUCE descriptor sums, maximises, minimises or averages along rows or columns. The matrix core starts its head
  descriptor, if it has this operation. -/
  | mxReduce (c : Fin 96) (bad : List Nat)
  /-- MX_ENCODE (R216): An ENCODE descriptor turns tensor elements into emit records under THRESH, GRADED, RATE or DELTA. The matrix core
  starts its head descriptor, if it has this operation. -/
  | mxEncode (c : Fin 96) (bad : List Nat)
  /-- MX_GATHER (R217): A GATHER descriptor reads spike counts from neuron records into a tensor, optionally clearing SCNT. The matrix core
  starts its head descriptor, if it has this operation. -/
  | mxGather (c : Fin 96) (bad : List Nat)
  /-- MX_DESCRIPTOR_COMPLETE (R213): A finished descriptor writes its completion record, increments MX_DONE and rewrites any static scale
  table. The cycles it ran and those the counters take. -/
  | mxDescriptorComplete (c : Fin 96) (cycles : Nat) (busy : Nat) (wait : Nat)
  /-- MX_ABORT (R221): Writing MX_CTRL.ABORT cancels the running and queued descriptors, and their groups halt with 0x0582. `cycles`: what
  the running descriptor has run for. -/
  | mxAbort (req : Requester) (c : Fin 96) (cycles : Nat)
  /-- VX_ENABLE (R224): Writing VX_CFG.EN from 0 to 1 starts context 0 at VX_PC0. -/
  | vxEnable (req : Requester) (c : Fin 96) (v : Fin 2) (w : Word)
  /-- VX_DISABLE (R240): Writing VX_CFG.EN from 1 to 0 stops context 0 at the next instruction boundary. -/
  | vxDisable (req : Requester) (c : Fin 96) (v : Fin 2) (w : Word)
  /-- SADD (R227): Scalar add. The core executes the instruction at its running context's pc, if it is this one; `took`: core cycles since
  its last. -/
  | sadd (c : Fin 96) (v : Fin 2) (took : Nat) (bad : List Nat)
  /-- SSUB (R227): Scalar subtract. The core executes the instruction at its running context's pc, if it is this one; `took`: core cycles
  since its last. -/
  | ssub (c : Fin 96) (v : Fin 2) (took : Nat) (bad : List Nat)
  /-- SMUL (R227): Scalar multiply, low or high word. The core executes the instruction at its running context's pc, if it is this one;
  `took`: core cycles since its last. -/
  | smul (c : Fin 96) (v : Fin 2) (took : Nat) (bad : List Nat)
  /-- SLOG (R227): Scalar logical operation. The core executes the instruction at its running context's pc, if it is this one; `took`: core
  cycles since its last. -/
  | slog (c : Fin 96) (v : Fin 2) (took : Nat) (bad : List Nat)
  /-- SSHF (R227): Scalar shift. The core executes the instruction at its running context's pc, if it is this one; `took`: core cycles since
  its last. -/
  | sshf (c : Fin 96) (v : Fin 2) (took : Nat) (bad : List Nat)
  /-- SCMP (R227): Scalar compare into a register. The core executes the instruction at its running context's pc, if it is this one; `took`:
  core cycles since its last. -/
  | scmp (c : Fin 96) (v : Fin 2) (took : Nat) (bad : List Nat)
  /-- SADDI (R227): Scalar add of a sign-extended immediate. The core executes the instruction at its running context's pc, if it is this
  one; `took`: core cycles since its last. -/
  | saddi (c : Fin 96) (v : Fin 2) (took : Nat) (bad : List Nat)
  /-- SLUI (R227): Load of an upper immediate. The core executes the instruction at its running context's pc, if it is this one; `took`:
  core cycles since its last. -/
  | slui (c : Fin 96) (v : Fin 2) (took : Nat) (bad : List Nat)
  /-- BC (R227): Conditional branch. The core executes the instruction at its running context's pc, if it is this one; `took`: core cycles
  since its last. -/
  | bc (c : Fin 96) (v : Fin 2) (took : Nat) (bad : List Nat)
  /-- JMP (R227): Relative jump. The core executes the instruction at its running context's pc, if it is this one; `took`: core cycles since
  its last. -/
  | jmp (c : Fin 96) (v : Fin 2) (took : Nat) (bad : List Nat)
  /-- JR (R227): Jump to a register, linking the return address. The core executes the instruction at its running context's pc, if it is
  this one; `took`: core cycles since its last. -/
  | jr (c : Fin 96) (v : Fin 2) (took : Nat) (bad : List Nat)
  /-- LOOP (R227): Runs the next IMM instructions s[a] times with no overhead. The core executes the instruction at its running context's
  pc, if it is this one; `took`: core cycles since its last. -/
  | loop (c : Fin 96) (v : Fin 2) (took : Nat) (bad : List Nat)
  /-- SYS_HALT (R235): SYS 0 stops the context; a stopped context 0 counts as done and its groups halt with 0x0581. The core executes the
  instruction at its running context's pc, if it is this one; `took`: core cycles since its last. -/
  | sysHalt (c : Fin 96) (v : Fin 2) (took : Nat) (bad : List Nat)
  /-- SYS_FENCE (R227): SYS 1 waits until all earlier transfers and EMITs have been accepted. The core executes the instruction at its
  running context's pc, if it is this one; `took`: core cycles since its last. -/
  | sysFence (c : Fin 96) (v : Fin 2) (took : Nat) (bad : List Nat)
  /-- SYS_BREAK (R235): SYS 2 faults the context with 0x0524. The core executes the instruction at its running context's pc, if it is this
  one; `took`: core cycles since its last. -/
  | sysBreak (c : Fin 96) (v : Fin 2) (took : Nat) (bad : List Nat)
  /-- SLD (R227): Scalar load from the local store. The core executes the instruction at its running context's pc, if it is this one;
  `took`: core cycles since its last. -/
  | sld (c : Fin 96) (v : Fin 2) (took : Nat) (bad : List Nat)
  /-- SST (R227): Scalar store to the local store. The core executes the instruction at its running context's pc, if it is this one; `took`:
  core cycles since its last. -/
  | sst (c : Fin 96) (v : Fin 2) (took : Nat) (bad : List Nat)
  /-- VLD (R227): Vector load from the local store. The core executes the instruction at its running context's pc, if it is this one;
  `took`: core cycles since its last. -/
  | vld (c : Fin 96) (v : Fin 2) (took : Nat) (bad : List Nat)
  /-- VST (R227): Vector store to the local store. The core executes the instruction at its running context's pc, if it is this one; `took`:
  core cycles since its last. -/
  | vst (c : Fin 96) (v : Fin 2) (took : Nat) (bad : List Nat)
  /-- XLD (R231): Issues a transfer from a device address to the local store. The core executes the instruction at its running context's pc,
  if it is this one; `took`: core cycles since its last. -/
  | xld (c : Fin 96) (v : Fin 2) (took : Nat) (bad : List Nat)
  /-- XST (R231): Issues a transfer from the local store to a device address, including a send window. The core executes the instruction at
  its running context's pc, if it is this one; `took`: core cycles since its last. -/
  | xst (c : Fin 96) (v : Fin 2) (took : Nat) (bad : List Nat)
  /-- XWAIT (R227): Waits until at most IMM transfers are outstanding. The core executes the instruction at its running context's pc, if it
  is this one; `took`: core cycles since its last. -/
  | xwait (c : Fin 96) (v : Fin 2) (took : Nat) (bad : List Nat)
  /-- VX_TRANSFER_COMPLETE (R232): An outstanding XLD or XST is accepted and its slot frees. -/
  | vxTransferComplete (x : XferAt) (bad : List Nat)
  /-- VADD (R227): Vector add of the selected type. The core executes the instruction at its running context's pc, if it is this one;
  `took`: core cycles since its last. -/
  | vadd (c : Fin 96) (v : Fin 2) (took : Nat) (bad : List Nat)
  /-- VSUB (R227): Vector subtract. The core executes the instruction at its running context's pc, if it is this one; `took`: core cycles
  since its last. -/
  | vsub (c : Fin 96) (v : Fin 2) (took : Nat) (bad : List Nat)
  /-- VMUL (R227): Vector multiply. The core executes the instruction at its running context's pc, if it is this one; `took`: core cycles
  since its last. -/
  | vmul (c : Fin 96) (v : Fin 2) (took : Nat) (bad : List Nat)
  /-- VMAC (R227): Vector multiply-accumulate. The core executes the instruction at its running context's pc, if it is this one; `took`:
  core cycles since its last. -/
  | vmac (c : Fin 96) (v : Fin 2) (took : Nat) (bad : List Nat)
  /-- VMNX (R227): Vector minimum or maximum. The core executes the instruction at its running context's pc, if it is this one; `took`: core
  cycles since its last. -/
  | vmnx (c : Fin 96) (v : Fin 2) (took : Nat) (bad : List Nat)
  /-- VLOG (R227): Vector logical operation. The core executes the instruction at its running context's pc, if it is this one; `took`: core
  cycles since its last. -/
  | vlog (c : Fin 96) (v : Fin 2) (took : Nat) (bad : List Nat)
  /-- VSHF (R227): Vector shift. The core executes the instruction at its running context's pc, if it is this one; `took`: core cycles since
  its last. -/
  | vshf (c : Fin 96) (v : Fin 2) (took : Nat) (bad : List Nat)
  /-- VCMP (R227): Vector compare into a mask register. The core executes the instruction at its running context's pc, if it is this one;
  `took`: core cycles since its last. -/
  | vcmp (c : Fin 96) (v : Fin 2) (took : Nat) (bad : List Nat)
  /-- VSEL (R227): Vector select under a mask. The core executes the instruction at its running context's pc, if it is this one; `took`:
  core cycles since its last. -/
  | vsel (c : Fin 96) (v : Fin 2) (took : Nat) (bad : List Nat)
  /-- VCVT (R228): Vector format conversion of one group. The core executes the instruction at its running context's pc, if it is this one;
  `took`: core cycles since its last. -/
  | vcvt (c : Fin 96) (v : Fin 2) (took : Nat) (bad : List Nat)
  /-- VRED (R227): Vector reduction into a scalar. The core executes the instruction at its running context's pc, if it is this one; `took`:
  core cycles since its last. -/
  | vred (c : Fin 96) (v : Fin 2) (took : Nat) (bad : List Nat)
  /-- VMOV (R227): Vector, scalar and mask moves. The core executes the instruction at its running context's pc, if it is this one; `took`:
  core cycles since its last. -/
  | vmov (c : Fin 96) (v : Fin 2) (took : Nat) (bad : List Nat)
  /-- EMIT (R233): Hands one or up to 16 emit records to the emit port. The core executes the instruction at its running context's pc, if it
  is this one; `took`: core cycles since its last. -/
  | emit (c : Fin 96) (v : Fin 2) (took : Nat) (bad : List Nat)
  /-- IBPOP (R227): Pops up to four flits from the in-band queue into a vector register. The core executes the instruction at its running
  context's pc, if it is this one; `took`: core cycles since its last. -/
  | ibpop (c : Fin 96) (v : Fin 2) (took : Nat) (bad : List Nat)
  /-- SWAIT (R227): Blocks until a group has a later step open, or until a step is harvested. The core executes the instruction at its
  running context's pc, if it is this one; `took`: core cycles since its last. -/
  | swait (c : Fin 96) (v : Fin 2) (took : Nat) (bad : List Nat)
  /-- SDONE (R234): Completes this core's work for the open step of a group. The core executes the instruction at its running context's pc,
  if it is this one; `took`: core cycles since its last. -/
  | sdone (c : Fin 96) (v : Fin 2) (took : Nat) (bad : List Nat)
  /-- WUPD (R229): Weight update of 16 synapses. The core executes the instruction at its running context's pc, if it is this one; `took`:
  core cycles since its last. -/
  | wupd (c : Fin 96) (v : Fin 2) (took : Nat) (bad : List Nat)
  /-- VRAND (R227): Per-lane random bits from the LFSR procedure. The core executes the instruction at its running context's pc, if it is
  this one; `took`: core cycles since its last. -/
  | vrand (c : Fin 96) (v : Fin 2) (took : Nat) (bad : List Nat)
  /-- CSRR (R230): Reads a CSR. The instruction at pc, if it is this one; `cycles`: what CYCLE holds. -/
  | csrr (c : Fin 96) (v : Fin 2) (took : Nat) (bad : List Nat) (cycles : Nat)
  /-- CSRW (R230): Writes a CSR. The core executes the instruction at its running context's pc, if it is this one; `took`: core cycles since
  its last. -/
  | csrw (c : Fin 96) (v : Fin 2) (took : Nat) (bad : List Nat)
  /-- FLIT_INJECT (R274): The router injects up to two flits from the head of the injection queue onto free productive ports, or loops them
  locally. -/
  | flitInject (c : Fin 96)
  /-- FLIT_ROUTE (R271): A flit at a router input is ejected, forwarded on its productive port or deflected in the next cycle. One fabric
  cycle of a half; `errs`: bits that faults have flipped in the flits at inputs. -/
  | flitRoute (h : Fin 2) (errs : List FlitErr)
  /-- SPILL_RELEASE (R282): The spill releases up to two flits into queues that have room, or re-enters flits for other clusters. -/
  | spillRelease (c : Fin 96)
  /-- GOLDEN_SCAN (R275): Every 256 cycles the steward ORs the old-source vectors and may start a golden period for the next marked cluster.
  -/
  | goldenScan (h : Fin 2)
  /-- GOLDEN_PERIOD_END (R275): A golden period ends after 256 × PERIOD cycles, and injection at the golden cluster resumes. -/
  | goldenPeriodEnd (h : Fin 2)
  /-- EF_FENCE_WRITE (R283): A steward write of EF_FENCE fences engines; any other writer's write is dropped with 0x0704. -/
  | efFenceWrite (req : Requester) (c : Fin 96) (v : Word)
  /-- REMAP_ENABLE (R285): Writing EF_REMAPn.EN = 1 runs the remap check and enables redirection of a fenced coordinate. -/
  | remapEnable (req : Requester) (n : Fin 16) (v : Word)
  /-- REMAP_DISABLE (R293): Writing EF_REMAPn.EN = 0 disables the entry at once. -/
  | remapDisable (req : Requester) (n : Fin 16) (v : Word)
  /-- FRESET (R286): A steward write of EF_CTRL.FRESET starts a fabric reset by marking the node as a hole. -/
  | freset (req : Requester) (c : Fin 96)
  /-- ROUTER_TABLE_ECC_ERROR (R286): An uncorrectable error in a router table starts a fabric reset automatically. -/
  | routerTableEccError (c : Fin 96)
  /-- FABRIC_RESET_DRAIN_END (R286): After two cycles of draining, the router and switch reset and run their self-check. -/
  | fabricResetDrainEnd (c : Fin 96)
  /-- FABRIC_RESET_SELFCHECK_DONE (R289): The self-check ends; on a pass the tables are reloaded, and on a failure the node becomes a
  permanent hole. -/
  | fabricResetSelfcheckDone (c : Fin 96) (pass : Bool)
  /-- HOLE_CLEAR (R286): After the tables are reloaded, the neighbours clear the hole and the suspended schedules resume. -/
  | holeClear (c : Fin 96)
  /-- FRAME_BOUNDARY (R295): Slot 0 of a half's frame applies pending table swaps, suspensions and resumptions. -/
  | frameBoundary (h : Fin 2)
  /-- SCHEDULE_ENABLE (R313): Writing TL_SCFG.EN = 1 runs the check and starts loading the schedule into the inactive tables. -/
  | scheduleEnable (req : Requester) (n : Fin 64) (v : Word)
  /-- SCHEDULE_DISABLE (R315): Writing TL_SCFG.EN = 0 puts the schedule into DRAINING, and its endpoints stop at the next frame boundary. -/
  | scheduleDisable (req : Requester) (n : Fin 64) (v : Word)
  /-- SCHEDULE_DRAIN_COMPLETE (R315): The steward removes the drained schedule's fields, and transfers not yet accepted fail with 0x0811. -/
  | scheduleDrainComplete (n : Fin 64)
  /-- QUIESCE (R316): TL_CTRL.QUIESCE stops every endpoint of the half at the next frame boundary. -/
  | quiesce (h : Fin 2)
  /-- RESUME (R316): TL_CTRL.RESUME restarts the half's endpoints at a frame boundary. -/
  | resume (h : Fin 2)
  /-- TRELLIS_PIECE_ISSUE (R308): A requester issues the next piece of a transfer when fewer than eight are outstanding. `slot`: the slot of
  its half in which the beat is sent, or in which it leaves the far bridge, here and below. -/
  | trellisPieceIssue (x : XferAt) (slot : Fin 1024)
  /-- TRELLIS_REQUEST (R307): A request beat reaches its target, which refuses it or starts the read or write. `k`: the piece among the
  outstanding ones; `err`: the error the beat meets, here and below. -/
  | trellisRequest (x : XferAt) (k : Fin 8) (slot : Fin 1024) (err : BeatErr)
  /-- TRELLIS_DATA_BEAT (R310): A data beat is checked and taken by its endpoint in the slot in which it arrives. -/
  | trellisDataBeat (x : XferAt) (k : Fin 8) (slot : Fin 1024) (err : BeatErr)
  /-- TRELLIS_LAST (R308): A KIND 2 beat ends a read piece or acknowledges a write piece. -/
  | trellisLast (x : XferAt) (k : Fin 8) (slot : Fin 1024) (err : BeatErr)
  /-- TRELLIS_REFUSAL (R312): A refusal beat ends a piece with its code, or makes the requester back off. -/
  | trellisRefusal (x : XferAt) (k : Fin 8) (slot : Fin 1024) (err : BeatErr)
  /-- CN_WRITE (R321): A control-network WRITE message writes its data words at its address. `addr`: a word address; at most 14 data words;
  `errs`: errors on the links it passes, here and below, and lines that read uncorrectable. -/
  | cnWrite (dest : Fin 128) (addr : BitVec 26) (ws : List Word) (errs : FlipErr)
  /-- CN_READ (R321): A READ message reads words and returns them in a RESP. -/
  | cnRead (dest : Fin 128) (count : BitVec 15) (from_ : Fin 98) (addr : BitVec 26) (bad : List Nat) (errs : List LinkErr)
  /-- CN_RESP (R321): A RESP message delivers read data to the requester. -/
  | cnResp (errs : List LinkErr)
  /-- CN_DONE (R321): A DONE message carries an engine's emit-done toward the root. -/
  | cnDone (g : Fin 256) (e : EngineAt) (errs : List LinkErr)
  /-- CN_REDUCE (R322): A REDUCE message combines the participants' operands at each node on its way up the tree. The operand of one
  participant, a cluster node. -/
  | cnReduce (c : Fin 96) (op : Fin 5) (tag : BitVec 8) (ws : List Word) (errs : List LinkErr)
  /-- CN_RESULT (R322): A RESULT message carries a reduction result down the tree. -/
  | cnResult (tag : BitVec 8) (errs : List LinkErr)
  /-- CN_BCAST (R502): A BCAST segment is checked by each target and written if its CRC is good. A segment of 14 words and its CRC-32C. -/
  | cnBcast (dest : Fin 128) (kind : Fin 5) (seg : BitVec 15) (ws : List Word) (crc : Word) (errs : List LinkErr)
  /-- CN_FENCE (R321): A FENCE message fences the engine in the core slot it names, in every cluster DEST names. -/
  | cnFence (dest : Fin 128) (slot : Fin 19) (errs : List LinkErr)
  /-- CN_RESET (R321): A RESET message resets the scope it names, at every cluster DEST names. -/
  | cnReset (dest : Fin 128) (scope : Fin 4) (slot : Fin 19) (errs : List LinkErr)
  /-- CN_STATUS (R321): A STATUS message from a node reports a cause, a missing segment or counters to its steward. -/
  | cnStatus (c : Fin 96) (cause : BitVec 15) (ws : List Word) (errs : List LinkErr)
  /-- CN_TLOAD (R321): A TLOAD message writes one slot-table field or send-map entry. The next field of the schedule that loads. -/
  | cnTload (n : Fin 64) (errs : List LinkErr)
  /-- MQ_CHANNEL_ENABLE (R331): Enabling a channel or queue runs the check, zeroes its control lines and sets EN. Channels 0 to 31, then
  combining queues 0 to 7. -/
  | mqChannelEnable (req : Requester) (c : Fin 96) (n : Fin 40) (v : Word)
  /-- MQ_CHANNEL_DISABLE (R353): Disabling a channel or queue refuses pending requests with 0x0911 and frees its compost slots. -/
  | mqChannelDisable (req : Requester) (c : Fin 96) (n : Fin 40) (v : Word)
  /-- MQ_HANDLE_ENABLE (R336): Writing MQ_SH_CFG.EN = 1 checks the handle's target and the handle limit. -/
  | mqHandleEnable (req : Requester) (c : Fin 96) (n : Fin 64) (v : Word)
  /-- MQ_REQUEST_RECEIVE (R338): A message unit takes an OP 2 or OP 3 request into its pending list, or refuses it. -/
  | mqRequestReceive (x : XferAt) (slot : Fin 1024) (err : BeatErr)
  /-- MQ_PLACEMENT_GRANT (R333): When ring space or the round allows, the unit grants a pending request, writing a skip marker if needed. -/
  | mqPlacementGrant (t : TargetAt)
  /-- MQ_PUBLISH (R334): Once a reservation and every earlier one are written, WR advances and the send is acknowledged. -/
  | mqPublish (x : XferAt)
  /-- QUEUE_CONTRIBUTION_ADD (R343): A granted contribution's elements are rounded to fixed point and added exactly into the accumulators.
  -/
  | queueContributionAdd (x : XferAt)
  /-- MQ_RD_WRITE (R331): A receiver's write of RD releases ring space, or is ignored and counted. -/
  | mqRdWrite (t : TargetAt) (v : Word)
  /-- MQ_CDONE_WRITE (R350): A write of CDONE frees the oldest compost slot of a spilled channel. -/
  | mqCdoneWrite (t : TargetAt) (v : Word)
  /-- MQ_RELEASED_WRITE (R345): A write of RELEASED frees a round's buffer and zeroes its accumulators. -/
  | mqReleasedWrite (t : TargetAt) (v : Word)
  /-- QUEUE_COMPOST_DRAIN (R351): A spilled contribution whose round now fits is read back from compost and added. -/
  | queueCompostDrain (t : DrainAt)
  /-- WAIT_EDGE_REGISTER (R346): A request ungranted for WAITDLY microseconds registers a wait edge with the steward. -/
  | waitEdgeRegister (x : XferAt)
  /-- WAIT_CYCLE_SCAN (R347): Every 16 µs the steward scans its wait edges and confirms cycles that are stable over two scans. -/
  | waitCycleScan (h : Fin 2)
  /-- BK_OWN_WRITE (R364): A write of BK_OWNn starts a handover to the new ownership setting. -/
  | bkOwnWrite (req : Requester) (c : Fin 96) (b : Fin 8) (v : Word)
  /-- BK_HANDOVER_END (R364): The handover ends when the accesses accepted before the write have completed. -/
  | bkHandoverEnd (c : Fin 96) (b : Fin 8)
  /-- BANK_RETENTION_ENTER (R367): Writing 1 to a BK_RET bit places the bank in retention after its accepted accesses have completed. The
  whole register is written. -/
  | bankRetentionEnter (req : Requester) (c : Fin 96) (v : Word)
  /-- BANK_WAKE (R368): Writing 0 to a BK_RET bit starts the bank's wake. The whole register is written. -/
  | bankWake (req : Requester) (c : Fin 96) (v : Word)
  /-- BANK_WAKE_DONE (R368): Two microseconds after the wake write, the bank accepts accesses again. -/
  | bankWakeDone (c : Fin 96) (b : Fin 8)
  /-- ARBITER_GRANT (R388): An arbiter grants a queue entry, line or page operation, giving every NGRANT-th grant to the oldest waiter.
  `lost`: the requests for page operations that a keep-store arbiter has refused since its last grant. -/
  | arbiterGrant (k : ArbAt) (bad : List Nat) (lost : Nat)
  /-- BACKOFF_EXPIRY (R386): A refused requester sends its piece again when its back-off count expires. -/
  | backoffExpiry (x : XferAt) (k : Fin 8) (slot : Fin 1024)
  /-- GRANT_REVOKE (R389): The steward revokes a grant, and the piece restarts after back-off. `e`: the endpoint whose grant is revoked. -/
  | grantRevoke (k : ArbAt) (e : Fin 800)
  /-- DM_TRACKING_PAUSE (R377): Every 32 ms each channel pauses for timing tracking. `fail`: the tracking pass fails. -/
  | dmTrackingPause (n : Fin 24) (fail : Bool)
  /-- DM_REFRESH (R372): A channel issues refresh at the interval its memory indicates. -/
  | dmRefresh (n : Fin 24)
  /-- HOST_LINE_WRITE (R401): A host write burst to the aperture stores, drops or counts the line by region. A 64-byte line; `err`: what the
  port finds wrong with the burst. -/
  | hostLineWrite (n : Fin 8) (off : BitVec 34) (line : BitVec 512) (err : Fin 4)
  /-- HC_CRD_WRITE (R404): A host write of HC_CRD[t] records completions consumed. -/
  | hcCrdWrite (n : Fin 8) (t : Fin 16) (v : Word)
  /-- HC_EVIN_WR_WRITE (R404): A host write of HC_EVIN_WR publishes event-in records. -/
  | hcEvinWrWrite (n : Fin 8) (v : Word)
  /-- HC_RD_WRITE (R404): A host write of HC_RD[c] releases host-channel ring space. -/
  | hcRdWrite (n : Fin 8) (ch : Fin 16) (v : Word)
  /-- HC_EVDONE_WRITE (R419): A host write of HC_EVDONE[b] declares the event-in records of a step published. -/
  | hcEvdoneWrite (n : Fin 8) (b : Fin 8) (v : Word)
  /-- HOST_TRAINING_STEP (R400): The host runs a training step; repeated or abandoned failures disable the port. Command bus, write
  levelling, read, write. -/
  | hostTrainingStep (n : Fin 8) (kind : Fin 4) (pass : Bool)
  /-- HOST_MODE_REGISTER_WRITE (R396): A host mode-register write sets link parameters and can bring the port into SERVICE. -/
  | hostModeRegisterWrite (n : Fin 8) (rate : Nat) (supported : Bool) (service : Bool)
  /-- HOST_SELF_REFRESH (R399): The host enters or leaves self refresh without affecting the device. -/
  | hostSelfRefresh (n : Fin 8) (enter : Bool)
  /-- HOST_CLOCK_TIMEOUT (R400): No host clock within 1 s of WAIT_HOST disables the port with 0x0C20. -/
  | hostClockTimeout (n : Fin 8)
  /-- GP_RETRY (R400): An administrative write of GP_PCTRL.RETRY returns a disabled port to WAIT_HOST. -/
  | gpRetry (req : Requester) (n : Fin 8)
  /-- TRAYEN_WRITE (R407): Setting a TRAYEN bit from 0 to 1 zeroes the tray's slots and completions and resets its count. -/
  | trayenWrite (req : Requester) (n : Fin 8) (v : Word)
  /-- TRAY_SCAN (R408): Every SCAN × 100 ns the port takes up to eight valid commands from each tray and the admin slot. use: what the
  host has done on the link since the last scan. -/
  | trayScan (n : Fin 8) (use : LinkUse)
  /-- NOP (R411): Completes. The next command of a tray, or of the admin slot (16), if it is this one and may start. -/
  | nop (n : Fin 8) (t : Fin 17)
  /-- REGRD (R414): Reads a register within the port's reach into RESULT. -/
  | regrd (n : Fin 8) (t : Fin 17)
  /-- REGWR (R414): Writes DATA to a register within the port's reach. -/
  | regwr (n : Fin 8) (t : Fin 17)
  /-- COPY_IN (R413): Copies bulk staging to a device address over the service circuits. -/
  | copyIn (n : Fin 8) (t : Fin 17)
  /-- COPY_OUT (R413): Copies a device address range into bulk staging. -/
  | copyOut (n : Fin 8) (t : Fin 17)
  /-- SEND (R422): Sends the staged message on a host send handle. -/
  | send (n : Fin 8) (t : Fin 17)
  /-- FENCE_ENG (R283): Asks the steward to fence the engine at the given coordinate. -/
  | fenceEng (n : Fin 8) (t : Fin 17)
  /-- COMMAND_COMPLETE (R410): A finished tray command writes its completion record. -/
  | commandComplete (n : Fin 8) (t : Fin 17)
  /-- EVENT_IN_INJECT (R417): The port consumes the head event-in record and injects it as a flit, or drops it, or waits. -/
  | eventInInject (n : Fin 8)
  /-- HOST_COMPOST_DRAIN (R421): The port moves a spilled message from its compost area into the host ring when room appears. -/
  | hostCompostDrain (n : Fin 8) (ch : HostDrainAt)
  /-- MIRROR_UPDATE (R406): The device writes changed status-mirror records once per scan period. -/
  | mirrorUpdate (n : Fin 8)
  /-- PARTITION_ENABLE (R423): Writing GP_PART_CFG.EN = 1 checks the partition and binds its ports. -/
  | partitionEnable (req : Requester) (p : Fin 8) (v : Word)
  /-- PARTITION_RELEASE (R425): Writing GP_PART_CFG.EN = 0 disables the partition's groups and units, unbinds its ports and starts the wipe.
  -/
  | partitionRelease (req : Requester) (p : Fin 8) (v : Word)
  /-- PARTITION_RELEASE_COMPLETE (R425): When the wipe ends, the partition leaves RELEASING. -/
  | partitionReleaseComplete (p : Fin 8)
  /-- GP_MAP_ENABLE (R424): Writing GP_MAP.EN = 1 binds a port to an enabled partition. -/
  | gpMapEnable (req : Requester) (n : Fin 8) (v : Word)
  /-- GP_MAP_DISABLE (R424): Writing GP_MAP.EN = 0 unbinds the port unless it is the partition's last port. -/
  | gpMapDisable (req : Requester) (n : Fin 8) (v : Word)
  /-- GP_EVSRC_ENABLE (R418): Writing GP_EVSRC.EN = 1 checks the source and lets the port consume event-in records. -/
  | gpEvsrcEnable (req : Requester) (n : Fin 8) (v : Word)
  /-- BIND_ENTRY_ENABLE (R218): Enabling an MX, VX or event-in bind entry binds the engine to a group's harvest. -/
  | bindEntryEnable (req : Requester) (at_ : BindAt) (v : Word)
  /-- HOST_CHANNEL_ENABLE (R420): Enabling a host channel checks it and opens its ring in staging. -/
  | hostChannelEnable (req : Requester) (n : Fin 8) (ch : Fin 16) (v : Word)
  /-- SEAM_DATA_CELL (R438): A received event, trellis or control cell is accepted in sequence, or discarded with a replay request.
  Direction (0 west to east), link and virtual lane; `fate`: what happens to the cell. -/
  | seamDataCell (d : Fin 2) (l : Fin 4) (vl : Fin 3) (fate : CellFate)
  /-- SEAM_CREDIT_CELL (R445): A credit cell returns event and trellis credits to the far send side. -/
  | seamCreditCell (d : Fin 2)
  /-- SEAM_REPLAY_REQUEST (R438): A replay request makes the sender resend from ACK + 1. -/
  | seamReplayRequest (d : Fin 2) (l : Fin 4)
  /-- SEAM_IDLE_CELL (R437): An idle cell carries its ACK and frees replay-buffer entries. -/
  | seamIdleCell (d : Fin 2) (l : Fin 4)
  /-- SEAM_EVENT_DELIVER (R445): The receive side delivers a buffered flit into an edge router that can take it, and returns its credit. -/
  | seamEventDeliver (d : Fin 2)
  /-- SEAM_HOLD_RELEASE (R447): A beat waiting in the hold buffer crosses when a trellis credit arrives. -/
  | seamHoldRelease (d : Fin 2)
  /-- SEAM_RX_TIMEOUT (R451): A direction that receives no valid cell for 256 cell times fails. -/
  | seamRxTimeout (d : Fin 2) (l : Fin 4)
  /-- PW_REQ_WRITE (R467): A write of PW_REQn requests a domain state, which stays pending while holds apply. -/
  | pwReqWrite (req : Requester) (n : Fin 229) (v : Word)
  /-- DOMAIN_TRANSITION (R466): Once no hold applies, a domain leaves or returns to ON in the stated order, wiping on return from OFF. -/
  | domainTransition (n : Fin 229)
  /-- DOMAIN_WAKE (R469): A tail write, LPDDR piece, reset or BIST start wakes a domain that is not ON and records its source. -/
  | domainWake (n : Fin 229) (src : Fin 16)
  /-- CK_CORE_WRITE (R473): A write of CK_COREc.REQ changes a cluster's requested clock, with voltage raised first. -/
  | ckCoreWrite (req : Requester) (c : Fin 96) (v : Word)
  /-- CORE_CLOCK_RELOCK_DONE (R477): The cluster PLL relocks and the core clock resumes at its new effective value. -/
  | coreClockRelockDone (c : Fin 96)
  /-- CK_FAB_WRITE (R478): An administrative write of CK_FABh.REQ checks the change and quiesces the half's trellis. -/
  | ckFabWrite (req : Requester) (h : Fin 2) (v : Word)
  /-- FABRIC_CLOCK_RELOCK_DONE (R478): The half's fabric PLL relocks, and the clocks, seam tables and trellis resume. -/
  | fabricClockRelockDone (h : Fin 2)
  /-- VID_RAIL_CHECK (R476): A rail not within ±3 % 100 µs after a code change clears OK, posts 0x0E09 and abandons the raise. -/
  | vidRailCheck (h : Fin 2) (ok : Bool)
  /-- DROOP_TRIGGER (R479): A rail falling below threshold stretches the cluster's or the half's clocks to half frequency. A cluster's
  detector, or (96, 97) a half backbone's. -/
  | droopTrigger (c : Fin 98)
  /-- DROOP_STRETCH_END (R479): The stretch ends 16 cycles after recovery, or passes to the half after 48 cycles. -/
  | droopStretchEnd (c : Fin 98) (cycles : Nat) (pass : Bool)
  /-- SENSOR_SAMPLE (R480): Every 10 µs each thermal sensor is read. In units of 0.25 °C. -/
  | sensorSample (j : Fin 196) (v : Half)
  /-- THERMAL_CAP_STEP (R481): Every 100 µs a hot cluster's thermal cap falls by 100 MHz, or rises every 1 ms once cooled. -/
  | thermalCapStep (c : Fin 96) (cooled : Bool)
  /-- THERMAL_FABRIC_STEP (R482): The steward lowers or restores a half's fabric clock by 100 MHz for temperature. -/
  | thermalFabricStep (h : Fin 2) (held : Bool)
  /-- POWER_ESTIMATE (R485): Every 100 µs the steward estimates each half's power. In W, of the west and the east half. -/
  | powerEstimate (w : Nat) (e : Nat)
  /-- POWER_CAP_STEP (R486): Every 1 ms above PW_PCAP the power cap falls by 100 MHz, and it rises every 10 ms once the average is low. -/
  | powerCapStep (h : Fin 2) (rise : Bool)
  /-- I3C_OFFSET_WRITE (R489): A one-byte private write sets the telemetry read offset. -/
  | i3cOffsetWrite (b : Byte)
  /-- I3C_READ (R489): A read transfer latches and returns the telemetry page from the offset. -/
  | i3cRead (n : Nat)
  /-- PORST_RELEASE (R499): The rise of PORST_N starts a cold start at phase 1. RCV_REQ in bit 0, I3CADR in bits 2 and 1. -/
  | porstRelease (straps : BitVec 3)
  /-- BOOT_PHASE_DONE (R499): A start phase completes, and the next phase starts, or the device becomes READY. The duration of the phase in
  µs, and what it found. -/
  | bootPhaseDone (us : Nat) (facts : List BootFact)
  /-- KNOWN_ANSWER_RESULT (R505): An engine's known-answer result is compared, and a mismatch fences the engine. -/
  | knownAnswerResult (c : Fin 96) (slot : Fin 19) (ok : Bool)
  /-- RESET_CORE (R510): A BU_RST write with SCOPE 0 resets one engine. -/
  | resetCore (req : Requester) (v : Word)
  /-- RESET_CLUSTER (R510): A BU_RST write with SCOPE 1 resets one cluster. -/
  | resetCluster (req : Requester) (v : Word)
  /-- RESET_PARTITION (R510): A BU_RST write with SCOPE 2 disables the partition's units and wipes its clusters, region and staging. -/
  | resetPartition (req : Requester) (v : Word)
  /-- RESET_DEVICE (R508): A BU_RST write with SCOPE 3 resets the device on the warm or cold path. -/
  | resetDevice (req : Requester) (v : Word)
  /-- RUNTIME_BIST_REQUEST (R513): A BU_BIST_CTRL write requests runtime BIST of a cluster after checking its preconditions. -/
  | runtimeBistRequest (req : Requester) (v : Word)
  /-- BIST_STEP_DONE (R514): A runtime BIST step ends (rail ready or timeout, save, test, restore), starting the next, or passing, or
  failing. -/
  | bistStepDone (c : Fin 96) (ok : Bool)
  /-- RCV_INFO (R516): Returns the recovery entry code and the flash size. -/
  | rcvInfo (n : Fin 8) (t : Fin 17)
  /-- RCV_STAGE (R516): Copies staging data into the recovery buffer. -/
  | rcvStage (n : Fin 8) (t : Fin 17)
  /-- RCV_BOOT (R516): Verifies the buffered bundle and continues the cold start from it. -/
  | rcvBoot (n : Fin 8) (t : Fin 17)
  /-- FLASH_READ (R516): Copies flash contents to staging. -/
  | flashRead (n : Fin 8) (t : Fin 17)
  /-- FLASH_ERASE (R516): Erases a flash range. -/
  | flashErase (n : Fin 8) (t : Fin 17)
  /-- FLASH_PROGRAM (R516): Programs staging data into flash. -/
  | flashProgram (n : Fin 8) (t : Fin 17)
  /-- SC_INFO (R529): Returns the life-cycle state, floor, count and identity flag. -/
  | scInfo (n : Fin 8) (t : Fin 17)
  /-- GET_PUBKEY (R529): Writes the identity public key to staging. -/
  | getPubkey (n : Fin 8) (t : Fin 17)
  /-- GET_CERT (R527): Writes the certificate chain if it matches CERTHASH. -/
  | getCert (n : Fin 8) (t : Fin 17)
  /-- ATTEST (R528): Writes a signed attestation report over the supplied nonce. -/
  | attest (n : Fin 8) (t : Fin 17)
  /-- LC_CHALLENGE (R536): Writes a fresh one-use life-cycle challenge. -/
  | lcChallenge (n : Fin 8) (t : Fin 17)
  /-- LC_TOKEN (R537): Verifies a life-cycle token and, if accepted, erases roots, programs fuses and cold-resets. -/
  | lcToken (n : Fin 8) (t : Fin 17)
  /-- SET_FLOOR (R525): Raises the security-version floor within the running version. -/
  | setFloor (n : Fin 8) (t : Fin 17)
  /-- KEYGEN (R526): Generates, wraps and fuses the identity seed once, in MANUFACTURE. -/
  | keygen (n : Fin 8) (t : Fin 17)
  /-- PC_WIN_WRITE (R546): A permitted write of PC_WIN sets the window length from the next window end. -/
  | pcWinWrite (req : Requester) (v : Word)
  /-- RAKE_GO (R554): A write of PC_RAKE.GO, or a start-up or BIST point, starts a rake pass. -/
  | rakeGo (req : Requester)
  /-- RAKE_PASS_DONE (R553): A rake pass finishes writing the rake image. Clusters whose block the pass could not read. -/
  | rakePassDone (lost : List (Fin 96))
  /-- TRACE_ENABLE (R561): Writing PC_TRCFGp.EN = 1 checks and enables tracing of a partition. -/
  | traceEnable (req : Requester) (p : Fin 8) (v : Word)
  /-- TRACE_RING_ENABLE (R561): Writing PC_TRRING.EN = 1 checks the ring and restarts PC_TRWR. -/
  | traceRingEnable (req : Requester) (c : Fin 96) (v : Word)
  /-- I3C_DYNAMIC_ADDRESS (R575): A SETDASA or ENTDAA from the I3C controller assigns the target a dynamic address, which it uses until the
  next device reset. -/
  | i3cDynamicAddress (a : BitVec 7)
  /-- DOMAIN_TRANSITION_COMPLETE (R466): A domain finishes its transition within the return time of R465, including any wipe, and PW_STATn
  leaves the in-transition state, so the domain accepts accesses again. -/
  | domainTransitionComplete (n : Fin 229)
  /-- ARBITER_RESERVATION_EXPIRY (R388): When 1,024 cycles pass without the reserved requester's retry, the arbiter passes the reservation
  to the next oldest requester. -/
  | arbiterReservationExpiry (k : ArbAt)
  /-- COMMIT_CAPTURE_START (R187): The commit's capture into the staging area starts when its flip completes or its writers stop. -/
  | commitCaptureStart
  /-- CONSISTENCY_CHECK_COMPLETE (R427): A serialised consistency check ends and sets the enable bit or posts the refusal code. -/
  | consistencyCheckComplete
  /-- SEAM_THROTTLE (R453): At the second frame boundary after a failover, an overloaded direction is throttled with 0x0D06. Each direction
  that is due is throttled. -/
  | seamThrottle
  /-- PEAK_STRETCH_END (R487): The peak stretch ends after 100 µs. -/
  | peakStretchEnd
  /-- PORST_ASSERT (R569): PORST_N low overrides every other reset and makes the next start cold. -/
  | porstAssert
  /-- SYSRST_ASSERT (R569): SYSRST_N held low for at least 1 µs requests a device reset. -/
  | sysrstAssert
  /-- STEWARD_WATCHDOG (R509): Expiry of the steward watchdog causes a device reset. -/
  | stewardWatchdog
  /-- AON_SUPPLY_FAULT (R569): VDD_AON leaving its range holds the device in reset and makes the next start cold. -/
  | aonSupplyFault
  /-- KEEP_SUPPLY_DROP (R569): VDD_KEEP leaving its range during a program phase stops keep-store programming. -/
  | keepSupplyDrop
  /-- KEEP_SUPPLY_RETURN (R569): VDD_KEEP returning to range resumes keep-store programming. -/
  | keepSupplyReturn
  /-- RESET_COMPLETE (R509): A core, cluster or partition reset completes and posts 0x0F30. -/
  | resetComplete
  /-- RANDOM_HEALTH_FAIL (R540): A failing random-bit health test makes commands and commits that need random bits fail with 0x1009. -/
  | randomHealthFail
  /-- WINDOW_END (R547): At each window end the counters are latched, derived records are written and a full mirror write starts or is
  skipped. -/
  | windowEnd
  /-- COUNTER_MIRROR_WRITE_DONE (R549): A full counter-mirror write completes. -/
  | counterMirrorWriteDone
  /-- SYSRST_RELEASE (R569): The rise of SYSRST_N, after it has been held low through a start, lets phase 1 proceed. -/
  | sysrstRelease
  deriving DecidableEq, Repr

end Sys2Proof
end

