-- ==== Sys2Proof/Config.lean ====
section
/-! DEFINITION. The free values: what the spec leaves open and the machine still produces. Each is a constant without a
body, so that no proof can see a value (log entry 1). -/

namespace Sys2Proof.Config

/-- The n-th fresh value the machine draws: random bits (R521, R540), values the spec does not state (log entry 1). -/
opaque freeValue : Nat → BitVec 64

/-- Which of the FP32 codes within 2 ULP of the exact value SIGMOID, TANH and EXP give for an operand (R214). -/
opaque sigmoid : BitVec 32 → Nat
opaque tanh : BitVec 32 → Nat
opaque exp : BitVec 32 → Nat

/-- What the spec leaves open of the maximum and minimum of two FP32 values (R246): with one NaN operand, is the result the NaN or the other
operand; of two zeros of different sign, is it the negative one. -/
opaque maxOpen : BitVec 32 → BitVec 32 → Bool
opaque minOpen : BitVec 32 → BitVec 32 → Bool

/-- A byte of a matrix core's tile or accumulator buffers after a load: load number, cluster, offset. The spec does not say where in them the
elements lie (R204, R249). -/
opaque tileByte : Nat → Nat → Nat → BitVec 8

/-- Which of n equal elements an index of the maximum or minimum names, modulo n (R214). -/
opaque tieIndex : Nat → Nat

/-- The 8 SECDED check bits of a 64-bit word of a trellis beat (R306): the code is not stated. -/
opaque secded : BitVec 64 → BitVec 8

/-- CRC-24 of a seam cell (R437): the polynomial is not stated. -/
opaque crc24 : List (BitVec 8) → BitVec 24

/-- A byte of the boot flash that has been erased and not programmed since (R516). -/
opaque erasedByte : Nat → BitVec 8

/-- The public keys in ROM (R522): 0 manufacturing, 1 release, 2 return, 3 firmware, 4 life cycle. -/
opaque romKey : Nat → List (BitVec 8)

/-- The boot flash on the board (R516): its size in MiB, and its erase and program sizes in bytes. -/
opaque flashSize : Nat
opaque flashErase : Nat
opaque flashProgram : Nat

end Sys2Proof.Config
end

