-- ==== Sys2Proof/Machine/Operands.lean ====
section
/-! DEFINITION. The operand formats of spec/07 (R242 to R246, R583) and the little-endian packing of R7: decoding a code
to an exact value, converting an exact value to a code, and FP32 arithmetic. -/

namespace Sys2Proof.Machine

/-- An exact value as the operand formats hold it: not a number, an infinity, or sign, magnitude and power of two
(R242). A zero keeps its sign only where R583 says so. -/
inductive Num where
  | nan
  | inf (neg : Bool)
  | fin (neg : Bool) (m : Nat) (e : Int)
  deriving DecidableEq, Repr

/-- The eleven operand formats of R242 with the two fixed-point ones of R203 (codes 11 and 12). -/
inductive Fmt where
  | fp32 | fp16 | bf16 | e4m3 | e5m2 | e3m2 | e2m1 | int16 | int8 | int4 | ql3 | s1616 | int32
  deriving DecidableEq, Repr

/-- The format a code names (R203, R242). -/
def Fmt.ofCode : Nat → Option Fmt
  | 0 => some .fp32
  | 1 => some .fp16
  | 2 => some .bf16
  | 3 => some .e4m3
  | 4 => some .e5m2
  | 5 => some .e3m2
  | 6 => some .e2m1
  | 7 => some .int16
  | 8 => some .int8
  | 9 => some .int4
  | 10 => some .ql3
  | 11 => some .s1616
  | 12 => some .int32
  | _ => none

/-- The code of a format (R203). -/
def Fmt.code : Fmt → Nat
  | .fp32 => 0 | .fp16 => 1 | .bf16 => 2 | .e4m3 => 3 | .e5m2 => 4 | .e3m2 => 5 | .e2m1 => 6
  | .int16 => 7 | .int8 => 8 | .int4 => 9 | .ql3 => 10 | .s1616 => 11 | .int32 => 12

/-- The width in bits of an element of a format in memory (R203: the 4-bit formats pack two to a byte). -/
def Fmt.width : Fmt → Nat
  | .fp32 | .s1616 | .int32 => 32
  | .fp16 | .bf16 | .int16 => 16
  | .e4m3 | .e5m2 | .e3m2 | .int8 => 8
  | .e2m1 | .int4 | .ql3 => 4

/-- The formats that may be blocked (R247). -/
def Fmt.blockable : Fmt → Bool
  | .int4 | .int8 | .int16 | .e2m1 | .e3m2 | .e4m3 | .e5m2 | .ql3 => true
  | _ => false

/-- The integer-class formats (R255, R201). -/
def Fmt.isInt : Fmt → Bool
  | .int4 | .int8 | .int16 => true
  | _ => false

/-- Exponent bits, fraction bits and bias of a floating format (R242). -/
def Fmt.shape : Fmt → Option (Nat × Nat × Nat)
  | .fp32 => some (8, 23, 127)
  | .fp16 => some (5, 10, 15)
  | .bf16 => some (8, 7, 127)
  | .e4m3 => some (4, 3, 7)
  | .e5m2 => some (5, 2, 15)
  | .e3m2 => some (3, 2, 3)
  | .e2m1 => some (2, 1, 1)
  | _ => none

/-- Does the format have infinities (R242)? -/
def Fmt.hasInf : Fmt → Bool
  | .fp32 | .fp16 | .bf16 | .e5m2 => true
  | _ => false

/-- The canonical NaN of a format that has one (R245 rule 5). -/
def Fmt.nanCode : Fmt → Option Nat
  | .fp32 => some 0x7FC00000
  | .fp16 => some 0x7E00
  | .bf16 => some 0x7FC0
  | .e5m2 => some 0x7E
  | .e4m3 => some 0x7F
  | _ => none

/-- The code, without its sign, of the largest finite value of a floating format (R242). -/
def Fmt.maxCode : Fmt → Nat
  | .fp32 => 0x7F7FFFFF
  | .fp16 => 0x7BFF
  | .bf16 => 0x7F7F
  | .e4m3 => 0x7E
  | .e5m2 => 0x7B
  | .e3m2 => 0x1F
  | .e2m1 => 0x7
  | _ => 0

/-- A two's-complement number of `w` bits read from a code. -/
def sext (w n : Nat) : Int :=
  let k := n % 2 ^ w
  if k < 2 ^ (w - 1) then (k : Int) else (k : Int) - (2 ^ w : Nat)

/-- The code of `w` bits of a two's-complement number, wrapped. -/
def wrapInt (w : Nat) (x : Int) : Nat := (x % ((2 ^ w : Nat) : Int)).toNat

/-- Clamp a number to a range. -/
def clampInt (lo hi x : Int) : Int := if x < lo then lo else if hi < x then hi else x

/-- The exact value of an integer. -/
def Num.ofInt (x : Int) : Num := .fin (decide (x < 0)) x.natAbs 0

/-- The exact value x × 2^e. -/
def Num.ofScaled (x : Int) (e : Int) : Num := .fin (decide (x < 0)) x.natAbs e

/-- Decoding of a code (R242, R243). -/
def decodeFmt (f : Fmt) (c : Nat) : Num :=
  match f with
  | .int16 => .ofInt (sext 16 c)
  | .int8 => .ofInt (sext 8 c)
  | .int4 => .ofInt (sext 4 c)
  | .int32 => .ofInt (sext 32 c)
  | .s1616 => .ofScaled (sext 32 c) (-16)
  | .ql3 =>
    let e := c % 4
    if e = 0 then .fin false 0 0 else .fin (c.testBit 2) (2 ^ (e - 1)) 0
  | _ =>
    match f.shape with
    | none => .nan
    | some (eb, mb, bias) =>
      let neg := c.testBit (eb + mb)
      let e := (c >>> mb) % 2 ^ eb
      let m := c % 2 ^ mb
      if e = 2 ^ eb - 1 ∧ f.hasInf then (if m = 0 then .inf neg else .nan)
      else if f = .e4m3 ∧ c % 128 = 127 then .nan
      else if e = 0 then .fin neg m (1 - (bias : Int) - mb)
      else .fin neg (2 ^ mb + m) ((e : Int) - bias - mb)

/-- Round num ÷ den to an integer, ties to even (R245 rule 2). -/
def roundHalfEven (num den : Nat) : Nat :=
  let q := num / den
  let r := num % den
  if 2 * r > den ∨ (2 * r = den ∧ q % 2 = 1) then q + 1 else q

/-- num ÷ den × 2^(−e) rounded to an integer, ties to even. -/
def roundScaled (num den : Nat) (e : Int) : Nat :=
  if e ≥ 0 then roundHalfEven num (den * 2 ^ e.toNat) else roundHalfEven (num * 2 ^ (-e).toNat) den

/-- The exponent of the leading bit of num ÷ den, or one below it. -/
def ilog (num den : Nat) : Int := (Nat.log2 num : Int) - Nat.log2 den - 1

/-- The code without sign of the rounding of num ÷ den to a floating format of this shape, not yet limited to the
largest finite value: the exponent field and the fraction carry into one another as the encoding makes them (R242, R245). -/
def floatCode (mb bias num den : Nat) : Nat :=
  if num = 0 then 0 else
  let e0 := ilog num den
  let e := if num * 2 ^ (-(e0 + 1)).toNat ≥ den * 2 ^ (e0 + 1).toNat then e0 + 1 else e0
  let qmin : Int := 1 - (bias : Int) - mb
  let q := if e - mb < qmin then qmin else e - mb
  ((q - qmin).toNat <<< mb) + roundScaled num den q

/-- Integer targets: round half to even and saturate (R245 rules 2, 3, 7). -/
def intCode (w : Nat) (neg : Bool) (num den : Nat) : Nat :=
  let r : Int := roundHalfEven num den
  wrapInt w (clampInt (-(2 ^ (w - 1) : Nat)) ((2 ^ (w - 1) : Nat) - 1) (if neg then -r else r))

/-- QL3 (R244): the nearest of 0, 1, 2 and 4, with the ties 0.5, 1.5 and 3 to 0, 2 and 2; saturating; zero is 000. -/
def ql3Code (neg : Bool) (num den : Nat) : Nat :=
  let e := if 2 * num ≤ den then 0 else if 2 * num < 3 * den then 1 else if num ≤ 3 * den then 2 else 3
  if e = 0 then 0 else e + (if neg then 4 else 0)

/-- Conversion of the finite value ± num ÷ den (den not zero) to a format (R245 rules 1, 2, 3, 6, 7; R583). -/
def encodeRat (f : Fmt) (neg : Bool) (num den : Nat) : Nat :=
  match f with
  | .int16 => intCode 16 neg num den
  | .int8 => intCode 8 neg num den
  | .int4 => intCode 4 neg num den
  | .int32 => intCode 32 neg num den
  | .s1616 => intCode 32 neg (num * 65536) den
  | .ql3 => ql3Code neg num den
  | _ =>
    match f.shape with
    | none => 0
    | some (eb, mb, bias) =>
      min (floatCode mb bias num den) f.maxCode + (if neg then 2 ^ (eb + mb) else 0)

/-- Conversion of an infinity (R245 rules 4 and 7). -/
def encodeInf (f : Fmt) (neg : Bool) : Nat :=
  match f.shape with
  | some (eb, mb, _) =>
    (if f.hasInf then (2 ^ eb - 1) * 2 ^ mb else f.maxCode) + (if neg then 2 ^ (eb + mb) else 0)
  | none =>
    match f with
    | .ql3 => if neg then 7 else 3
    | _ => let w := f.width
      if neg then 2 ^ (w - 1) else 2 ^ (w - 1) - 1

/-- Conversion of an exact value to a format (R245). -/
def encodeFmt (f : Fmt) : Num → Nat
  | .nan => f.nanCode.getD 0
  | .inf neg => encodeInf f neg
  | .fin neg m e =>
    if e ≥ 0 then encodeRat f neg (m * 2 ^ e.toNat) 1 else encodeRat f neg m (2 ^ (-e).toNat)

/-- Does converting this value lose a NaN (R245 rule 5, counted in QF_NAN by the matrix core)? -/
def losesNaN (f : Fmt) (x : Num) : Bool := (x == .nan) && f.nanCode.isNone

/-- Is the value finite? -/
def Num.isFin : Num → Bool
  | .fin .. => true
  | _ => false

/-- Is the value zero? -/
def Num.isZero : Num → Bool
  | .fin _ m _ => m == 0
  | _ => false

/-- Negation: the sign changes, whatever the value. -/
def Num.neg : Num → Num
  | .nan => .nan
  | .inf s => .inf (!s)
  | .fin s m e => .fin (!s) m e

/-- Magnitude. -/
def Num.abs : Num → Num
  | .nan => .nan
  | .inf _ => .inf false
  | .fin _ m e => .fin false m e

/-- The signed mantissa of a finite value. -/
def sgn (neg : Bool) (m : Nat) : Int := if neg then -(m : Int) else m

/-- Exact sum of two finite values given as signed mantissa and exponent. -/
def addScaled (a : Int) (ea : Int) (b : Int) (eb : Int) : Int × Int :=
  if ea ≤ eb then (a + b * (2 ^ (eb - ea).toNat : Nat), ea) else (a * (2 ^ (ea - eb).toNat : Nat) + b, eb)

/-- Exact addition with the special values and signs of zero of IEEE 754 round to nearest (R246). -/
def Num.add : Num → Num → Num
  | .nan, _ => .nan
  | _, .nan => .nan
  | .inf s, .inf t => if s = t then .inf s else .nan
  | .inf s, _ => .inf s
  | _, .inf t => .inf t
  | .fin s m e, .fin t n f =>
    let r := addScaled (sgn s m) e (sgn t n) f
    if r.1 = 0 then .fin (s && t && m == 0 && n == 0) 0 0 else .fin (decide (r.1 < 0)) r.1.natAbs r.2

/-- Exact subtraction. -/
def Num.sub (a b : Num) : Num := Num.add a b.neg

/-- Exact multiplication (R246). -/
def Num.mul : Num → Num → Num
  | .nan, _ => .nan
  | _, .nan => .nan
  | .inf s, .inf t => .inf (s != t)
  | .inf s, .fin t n _ => if n = 0 then .nan else .inf (s != t)
  | .fin s m _, .inf t => if m = 0 then .nan else .inf (s != t)
  | .fin s m e, .fin t n f => .fin (s != t) (m * n) (e + f)

/-- The value as a signed integer when scaled by 2^k, truncated towards minus infinity; zero for special values. -/
def Num.floorScaled (k : Nat) : Num → Int
  | .fin s m e =>
    let v := sgn s m
    let e' := e + k
    if e' ≥ 0 then v * (2 ^ e'.toNat : Nat) else v / ((2 ^ (-e').toNat : Nat) : Int)
  | _ => 0

/-- Less than, on values: zeros are equal (R583); false with a NaN. -/
def Num.lt : Num → Num → Bool
  | .nan, _ => false
  | _, .nan => false
  | .inf s, .inf t => s && !t
  | .inf s, _ => s
  | _, .inf t => !t
  | .fin s m e, .fin t n f =>
    let r := addScaled (sgn s m) e (-(sgn t n)) f
    decide (r.1 < 0)

/-- Equality on values: zeros are equal; false with a NaN. -/
def Num.eq : Num → Num → Bool
  | .nan, _ => false
  | _, .nan => false
  | .inf s, .inf t => s == t
  | .inf _, _ => false
  | _, .inf _ => false
  | .fin s m e, .fin t n f => (addScaled (sgn s m) e (-(sgn t n)) f).1 == 0

/-- Rounding of an exact value to FP32 as arithmetic does it: to nearest, ties to even, with subnormals; an overflow is an
infinity and a NaN is 0x7FC0_0000 (R246). -/
def roundF32 : Num → Nat
  | .nan => 0x7FC00000
  | .inf neg => if neg then 0xFF800000 else 0x7F800000
  | .fin neg m e =>
    let c := if e ≥ 0 then floatCode 23 127 (m * 2 ^ e.toNat) 1 else floatCode 23 127 m (2 ^ (-e).toNat)
    min c 0x7F800000 + (if neg then 0x80000000 else 0)

/-- Rounding of ± num ÷ den to FP32 as arithmetic does it (R246). -/
def roundF32Rat (neg : Bool) (num den : Nat) : Nat :=
  min (floatCode 23 127 num den) 0x7F800000 + (if neg then 0x80000000 else 0)

/-- FP32 addition, multiplication and subtraction on codes (R246). -/
def f32Add (a b : Nat) : Nat := roundF32 (Num.add (decodeFmt .fp32 a) (decodeFmt .fp32 b))
def f32Sub (a b : Nat) : Nat := roundF32 (Num.sub (decodeFmt .fp32 a) (decodeFmt .fp32 b))
def f32Mul (a b : Nat) : Nat := roundF32 (Num.mul (decodeFmt .fp32 a) (decodeFmt .fp32 b))

/-- FP32 division (R246). -/
def f32Div (a b : Nat) : Nat :=
  match decodeFmt .fp32 a, decodeFmt .fp32 b with
  | .nan, _ => 0x7FC00000
  | _, .nan => 0x7FC00000
  | .inf _, .inf _ => 0x7FC00000
  | .inf s, .fin t _ _ => roundF32 (.inf (s != t))
  | .fin s _ _, .inf t => roundF32 (.fin (s != t) 0 0)
  | .fin s m e, .fin t n f =>
    if n = 0 then (if m = 0 then 0x7FC00000 else roundF32 (.inf (s != t)))
    else if e ≥ f then roundF32Rat (s != t) (m * 2 ^ (e - f).toNat) n
    else roundF32Rat (s != t) m (n * 2 ^ (f - e).toNat)

/-- FP32 negation: the sign bit changes. -/
def f32Neg (a : Nat) : Nat := a ^^^ 0x80000000

/-- The number a list of bytes holds, lowest byte first (R7). -/
def leNat : List Byte → Nat
  | [] => 0
  | b :: t => b.toNat + 256 * leNat t

/-- The `n` low bytes of a number, lowest first (R7). -/
def leBytes : Nat → Nat → List Byte
  | 0, _ => []
  | n + 1, x => BitVec.ofNat 8 x :: leBytes n (x / 256)

/-- Bits [lo + w − 1 : lo] of a number. -/
def bitsOf (x lo w : Nat) : Nat := (x >>> lo) % 2 ^ w

/-- Element k of a packed row of bytes: 4-bit elements two to a byte, the even one in bits [3:0] (R141, R203, R247). -/
def packedElem (f : Fmt) (bytes : List Byte) (k : Nat) : Nat :=
  match f.width with
  | 4 => bitsOf (bytes.getD (k / 2) 0).toNat (4 * (k % 2)) 4
  | 8 => (bytes.getD k 0).toNat
  | 16 => leNat ((bytes.drop (2 * k)).take 2)
  | _ => leNat ((bytes.drop (4 * k)).take 4)

/-- Bytes that `n` packed elements of a format take (the last byte of a 4-bit row is filled up with zero). -/
def packedLen (f : Fmt) (n : Nat) : Nat := (n * f.width + 7) / 8

/-- Two 4-bit codes to a byte, the first in bits [3:0]. -/
def packNibbles : List Nat → List Byte
  | [] => []
  | [a] => [BitVec.ofNat 8 (a % 16)]
  | a :: b :: t => BitVec.ofNat 8 (a % 16 + 16 * (b % 16)) :: packNibbles t

/-- Codes packed into bytes. -/
def packElems (f : Fmt) (cs : List Nat) : List Byte :=
  if f.width = 4 then packNibbles cs else cs.flatMap (leBytes (f.width / 8))

end Sys2Proof.Machine
end

