-- ==== Sys2Proof/Machine/RegMap.lean ====
section
/-! DEFINITION. The register map: every register of the register tables of spec/02 to spec/17, with its device
address (R43 and the block map of its chapter), its instances, its width, its fields, their access codes (R9) and
their reset values (R12). A register that shares nothing with another has one address here; State holds its value. -/

namespace Sys2Proof.Machine

/-- The access codes of R9. -/
inductive Acc where
  | rw | ro | wo | w1s | w1c | rc
  deriving DecidableEq, Repr

/-- A field of a register: its bits [hi:lo]. -/
structure Fld where
  hi : Nat
  lo : Nat
  deriving DecidableEq, Repr

/-- What a register table says of one register: the device address of its first instance, the instances (how many,
how far apart, outermost first), whether it is 64 bits wide, whether it is a region of bytes and how long, and its
fields with access code and reset value. -/
structure RegDesc where
  base   : Nat
  dims   : List (Nat × Nat)
  bytes  : Nat
  fields : List (Fld × Acc × Nat)
  deriving DecidableEq, Repr

/-- The registers, named as the register tables name them (an index letter at the end of a name is dropped). -/
inductive Reg where
  | TB_CFG | TB_DIV | TB_PERIOD | TB_STATUS | TB_TARGET | TB_POS | TB_ZLATCH | TB_REVERSE | TB_TGTDROP
  | TB_IN_CFG | TB_IN_STATUS | TB_IN_COUNT | WG_CFG | WG_WORLDS | WG_LAGMAX | WG_ROT | WG_ROTBASE | WG_CTRL
  | WG_STATUS | WG_STEP | WG_INSEQ | WG_SKIPPED | WG_OVERRUN | WG_HROUNDS | WG_COHORT | WG_TALLY | WG_WSTEP
  | NC_CFG | NC_SIZE | NC_REC_BASE | NC_SLOT_BASE | NC_TOUCH_BASE | NC_NOISE_SEED | NC_SLEEPDLY | NC_STATUS
  | NC_ERRADDR | NC_WDROP | NC_GMAP_A | NC_GMAP_B | NC_INTEG | NC_SPIKES | NC_OVERDRIVE | NC_SYNOPS | NC_ABSORB
  | NC_DCLIP | NC_HSTALL | NC_LCONF | NC_SLEEPCYC | NC_WAKES | SY_NET | SY_FO_BASE | SY_FO_COUNT | SY_FI_BASE
  | SY_FI_COUNT | SY_WPS_BASE | SY_KERN | SY_FLITS | SY_FOCUT | SY_AXMISS | SY_NBAD | SY_KOPS | SY_MODIN
  | SY_IBABS | SY_EMIT_CFG | SY_EMIT_BASE | SY_SINK_CFG | SY_SINK_BASE | SY_SINK_SHAPE | SY_SINK_WBASE
  | SY_IBQ_STATUS | SY_EFLITS | SY_EDROP | SY_SINKADD | SY_SINKABS | SY_IBQIN | LR_CORE_CFG | LR_ENT
  | LR_NENT | LR_ACC_BASE | LR_SHD_BASE | LR_SEL_BASE | LR_PCNT_BASE | LR_CAND_BASE | LR_CAND_CFG | LR_MOD_BASE
  | LR_MOD_CFG | LR_PAIRS | LR_COIN | LR_ACONF | LR_CANDCHK | LR_MODABS | LR_PRUNED | LR_GRAFTED | LR_GFULL
  | LR_GSKIP | LR_SET_CFG | LR_SET_EPLEN | LR_SET_COEF_A | LR_SET_COEF_B | LR_SET_RATE | LR_SET_BOUND
  | LR_SET_STRUCT | LR_SET_GRAFT | LR_SET_SEED | LR_SET_COMMIT | LR_SET_CTRL | LR_SET_STATUS | LR_SET_WG
  | LR_SET_EPOCH | LR_SET_SKIPLOST | LR_SET_LOCKWAIT | KS_CMD | KS_STAGE | KS_STATUS | KS_GEN | KS_GEPOCH
  | KS_SEQ | KS_PAGES | KS_FREE | KS_DISCARD | KS_WEARMAX | KS_COMMITS | KS_PGWRITE | KS_PGSKIP | KS_PGBAD
  | KS_RESTORES | MX_CFG | MX_DQ_TAIL | MX_DQ_HEAD | MX_CTRL | MX_STATUS | MX_SEED | MX_BIND | MX_DONE
  | MX_MACS | MX_BUSY | MX_OPWAIT | MX_DERR | MX_RERUN | MX_GREC | MX_EREC | VX_CFG | VX_PC0 | VX_SVC
  | VX_STATUS | VX_FPC | VX_BIND | VX_INSTR | VX_XBYTES | VX_XSTALL | VX_EMITS | VX_ELATE | VX_SVCCYC
  | VX_FAULTS | QF_PCFG | QF_PTOL | QF_PTBL | QF_SAT | QF_UND | QF_FLAT | QF_NAN | QF_ACCSAT | QF_RERUNS
  | QF_RRCYC | QF_FAILA | QF_FAILB | EF_FENCE | EF_CTRL | EF_STATUS | EF_LASTABS | EF_GOLD | EF_GOLDSTAT
  | EF_REMAPST | EF_REMAP | EF_FWD | EF_DEFL | EF_INJ | EF_LOCAL | EF_EJ | EF_EJDEFL | EF_SPILL | EF_OVFL
  | EF_SEAMBUSY | EF_CHKCOR | EF_GOLDCYC | EF_REMAPPED | EF_ABS_CHK | EF_ABS_RSV | EF_ABS_GRP | EF_ABS_PART
  | EF_ABS_FENCE | EF_ABS_OFF | EF_ABS_DST | EF_ABS_HOLE | EF_FSRC | TL_CTRL | TL_STATUS | TL_FRAME | TL_LASTERR
  | TL_SCFG | TL_SSTAT | TL_SIMG | TL_SWBEATS | TL_EPTX | TL_EPRX | TL_CORR | TL_UNCORR | TL_REFUSED
  | TL_EPDISC | TL_CNMSG | TL_CNRETRY | TL_CNREROUTE | TL_TABLE_ACT | TL_TABLE_INACT | TL_SMAP | MQ_CFG
  | MQ_STATUS | MQ_COMPOST | MQ_COMPN | MQ_LASTBRK | MQ_CH_CFG | MQ_CH_RING | MQ_CH_CCB | MQ_CH_STAT
  | MQ_Q_CFG | MQ_Q_EXPECT | MQ_Q_ACC | MQ_Q_OUT | MQ_Q_CCB | MQ_Q_STAT | MQ_SH_CFG | MQ_SH_SEQ | MQ_SH_ADDR
  | MQ_SENT | MQ_PLACED | MQ_SKIPS | MQ_WAITREG | MQ_BREAKS | MQ_COMPOSTED | MQ_QCONTRIB | MQ_QROUNDS
  | MQ_QLATE | MQ_QSAT | MQ_QNAN | MQ_QOVF | MQ_BADRD | MQ_SEND | BK_OWN | BK_RET | BK_STATUS | BK_ARB
  | BK_ERRADDR | BK_RD | BK_WR | BK_ALIAS | BK_DENY | BK_CORR | BK_UNCORR | BK_LOSS | BK_REVOKE | BK_WAKES
  | DM_CFG | DM_STATUS | DM_CAPACITY | DM_EBASE | DM_ARB | DM_ERRADDR | DM_HOLD | DM_GPLOSS | DM_KSLOSS
  | DM_CH_STATUS | DM_RDB | DM_WRB | DM_CORR | DM_UNCORR | DM_LINKERR | DM_REFRESH | DM_RETRAIN | DM_LOSS
  | DM_REVOKE | GP_PART_CFG | GP_PART_STATUS | GP_PART_CL0 | GP_PART_CL1 | GP_PART_CL2 | GP_PART_BASE
  | GP_PART_SIZE | GP_PART_KSHARE | GP_MAP | GP_PCFG | GP_PSTATUS | GP_PCTRL | GP_EVSRC | GP_EVBIND | GP_COMPOST
  | GP_COMPN | GP_HC_CFG | GP_SH_ADDR | GP_ADMIN | GP_HRD | GP_HWR | GP_OOR | GP_WDROP | GP_BADCW | GP_TORN
  | GP_CMDS | GP_CMDFAIL | GP_SCANS | GP_EVINJ | GP_EVDROP | GP_HCMSG | GP_WCORR | GP_WUNCORR | GP_LINKERR
  | GP_REFCMD | SM_STATUS | SM_CAPW2E | SM_CAPE2W | SM_LOADW2E | SM_LOADE2W | SM_LINK | SM_LREASON | SM_HOLDMAX
  | SM_EVX | SM_EVWAIT | SM_TBEATS | SM_HOLD | SM_ABS_SPLIT | SM_RESTRIPE | SM_CELLS | SM_CRCERR | SM_REPLAY
  | PW_REQ | PW_STAT | PW_WAKES | PW_STATUS | PW_PCAP | PW_THERM | PW_PKSTR | PW_TEMP | PW_DROOP | PW_DSTR
  | CK_CORE | CK_FAB | CK_VID | CK_DROOP | CK_STATUS | BU_STATUS | BU_RST | BU_RSTSTAT | BU_BIST_CTRL
  | BU_BIST_SAVE | BU_BISTSTAT | BU_BCSEG | BU_BCRESEND | BU_KATRUN | BU_KATFAIL | BU_BISTRUN | BU_BISTFAIL
  | BU_RSTCORE | BU_RSTCLUS | BU_RSTPART | BU_READY | SC_STATUS | SC_OWNSLOT | SC_LC | SC_DEVID | SC_CERTHASH
  | SC_ATTESTS | SC_TOKACC | SC_TOKREF | SC_SIGFAIL | SC_RNGFAIL | PC_WIN | PC_STATUS | PC_RAKE | PC_SNAP
  | PC_WINNO | PC_TT | PC_TRSEED | PC_TRCFG | PC_SKIP | PC_RAKES | PC_RAKEIMG | PC_TRRING | PC_TRWR | PC_TRTAG
  | PC_TRENT | PC_TRDROP | PC_STRAY
  deriving DecidableEq, Repr

/-- The register tables: R82 to R87 (TB_, WG_), R117 to R121 (NC_), R153 to R156 (SY_), R196 to R198 (LR_, KS_), the tables of
chapter 6 (MX_, VX_), R262 and after (QF_), chapter 8 (EF_), R324 (TL_), R354, R356 (MQ_), R392, R393 (BK_, DM_), R432, R434 (GP_), R462, R463
(SM_), R491, R493 (PW_, CK_), R518, R519 (BU_), R541, R542 (SC_), R560, R562 (PC_). A field the tables mark Fused resets to the
value of unburned fuses (log entry 3); one without a Reset column resets to 0 (log entry 2). -/
def Reg.desc : Reg → RegDesc
  | .TB_CFG => ⟨0xFE08000000, [(64, 0x40)], 4, [(⟨10, 8⟩, .rw, 0), (⟨7, 6⟩, .rw, 0), (⟨5, 3⟩, .rw, 0), (⟨2, 1⟩, .rw, 0), (⟨0, 0⟩, .rw, 0)]⟩
  | .TB_DIV => ⟨0xFE08000004, [(64, 0x40)], 4, [(⟨15, 0⟩, .rw, 0)]⟩
  | .TB_PERIOD => ⟨0xFE08000008, [(64, 0x40)], 4, [(⟨31, 0⟩, .rw, 0)]⟩
  | .TB_STATUS => ⟨0xFE0800000C, [(64, 0x40)], 4, [(⟨2, 2⟩, .w1c, 0), (⟨1, 1⟩, .ro, 0), (⟨0, 0⟩, .ro, 0)]⟩
  | .TB_TARGET => ⟨0xFE08000010, [(64, 0x40)], 8, [(⟨63, 0⟩, .rw, 0)]⟩
  | .TB_POS => ⟨0xFE08000018, [(64, 0x40)], 8, [(⟨63, 0⟩, .ro, 0)]⟩
  | .TB_ZLATCH => ⟨0xFE08000020, [(64, 0x40)], 8, [(⟨63, 0⟩, .ro, 0)]⟩
  | .TB_REVERSE => ⟨0xFE08000028, [(64, 0x40)], 4, [(⟨31, 0⟩, .ro, 0)]⟩
  | .TB_TGTDROP => ⟨0xFE0800002C, [(64, 0x40)], 4, [(⟨31, 0⟩, .rc, 0)]⟩
  | .TB_IN_CFG => ⟨0xFE08002000, [(8, 0x10)], 4, [(⟨8, 8⟩, .rw, 0), (⟨7, 7⟩, .rw, 0), (⟨6, 6⟩, .rw, 0), (⟨5, 5⟩, .rw, 0), (⟨4, 2⟩, .rw, 0), (⟨1, 0⟩, .rw, 0)]⟩
  | .TB_IN_STATUS => ⟨0xFE08002004, [(8, 0x10)], 4, [(⟨31, 16⟩, .rc, 0), (⟨2, 2⟩, .ro, 0), (⟨1, 1⟩, .ro, 0), (⟨0, 0⟩, .ro, 0)]⟩
  | .TB_IN_COUNT => ⟨0xFE08002008, [(8, 0x10)], 8, [(⟨63, 0⟩, .ro, 0)]⟩
  | .WG_CFG => ⟨0xFE09000000, [(256, 0x80)], 4, [(⟨21, 16⟩, .rw, 0), (⟨13, 13⟩, .rw, 0), (⟨12, 12⟩, .rw, 0), (⟨11, 10⟩, .rw, 0), (⟨9, 7⟩, .rw, 0), (⟨6, 1⟩, .rw, 0), (⟨0, 0⟩, .rw, 0)]⟩
  | .WG_WORLDS => ⟨0xFE09000004, [(256, 0x80)], 4, [(⟨29, 16⟩, .rw, 0), (⟨13, 0⟩, .rw, 0)]⟩
  | .WG_LAGMAX => ⟨0xFE09000008, [(256, 0x80)], 4, [(⟨15, 0⟩, .rw, 1)]⟩
  | .WG_ROT => ⟨0xFE0900000C, [(256, 0x80)], 4, [(⟨31, 16⟩, .rw, 1), (⟨13, 0⟩, .rw, 0)]⟩
  | .WG_ROTBASE => ⟨0xFE09000010, [(256, 0x80)], 8, [(⟨63, 12⟩, .rw, 0)]⟩
  | .WG_CTRL => ⟨0xFE09000018, [(256, 0x80)], 4, [(⟨2, 2⟩, .wo, 0), (⟨1, 1⟩, .wo, 0), (⟨0, 0⟩, .wo, 0)]⟩
  | .WG_STATUS => ⟨0xFE0900001C, [(256, 0x80)], 4, [(⟨31, 16⟩, .ro, 0), (⟨5, 5⟩, .ro, 0), (⟨4, 4⟩, .ro, 0), (⟨3, 3⟩, .ro, 0), (⟨2, 0⟩, .ro, 0)]⟩
  | .WG_STEP => ⟨0xFE09000020, [(256, 0x80)], 8, [(⟨63, 0⟩, .ro, 0)]⟩
  | .WG_INSEQ => ⟨0xFE09000028, [(256, 0x80)], 8, [(⟨63, 0⟩, .rw, 0)]⟩
  | .WG_SKIPPED => ⟨0xFE09000030, [(256, 0x80)], 8, [(⟨63, 0⟩, .ro, 0)]⟩
  | .WG_OVERRUN => ⟨0xFE09000038, [(256, 0x80)], 4, [(⟨31, 0⟩, .ro, 0)]⟩
  | .WG_HROUNDS => ⟨0xFE0900003C, [(256, 0x80)], 4, [(⟨31, 16⟩, .ro, 0), (⟨15, 0⟩, .ro, 0)]⟩
  | .WG_COHORT => ⟨0xFE09000040, [(256, 0x80)], 4, [(⟨13, 0⟩, .ro, 0)]⟩
  | .WG_TALLY => ⟨0xFE09000044, [(256, 0x80)], 4, [(⟨31, 0⟩, .ro, 0)]⟩
  | .WG_WSTEP => ⟨0xFE09000048, [(256, 0x80)], 8, [(⟨63, 0⟩, .ro, 0)]⟩
  | .NC_CFG => ⟨0xF00F000000, [(96, 0x10000000), (16, 0x1000)], 4, [(⟨13, 8⟩, .rw, 3), (⟨1, 1⟩, .rw, 1), (⟨0, 0⟩, .rw, 0)]⟩
  | .NC_SIZE => ⟨0xF00F000004, [(96, 0x10000000), (16, 0x1000)], 4, [(⟨16, 0⟩, .rw, 0)]⟩
  | .NC_REC_BASE => ⟨0xF00F000008, [(96, 0x10000000), (16, 0x1000)], 4, [(⟨19, 8⟩, .rw, 0)]⟩
  | .NC_SLOT_BASE => ⟨0xF00F00000C, [(96, 0x10000000), (16, 0x1000)], 4, [(⟨19, 8⟩, .rw, 0)]⟩
  | .NC_TOUCH_BASE => ⟨0xF00F000010, [(96, 0x10000000), (16, 0x1000)], 4, [(⟨19, 8⟩, .rw, 0)]⟩
  | .NC_NOISE_SEED => ⟨0xF00F000014, [(96, 0x10000000), (16, 0x1000)], 4, [(⟨31, 0⟩, .rw, 0)]⟩
  | .NC_SLEEPDLY => ⟨0xF00F000018, [(96, 0x10000000), (16, 0x1000)], 4, [(⟨15, 0⟩, .rw, 0x100)]⟩
  | .NC_STATUS => ⟨0xF00F00001C, [(96, 0x10000000), (16, 0x1000)], 4, [(⟨11, 8⟩, .ro, 0), (⟨3, 3⟩, .w1c, 0), (⟨2, 0⟩, .ro, 0)]⟩
  | .NC_ERRADDR => ⟨0xF00F000020, [(96, 0x10000000), (16, 0x1000)], 4, [(⟨19, 0⟩, .ro, 0)]⟩
  | .NC_WDROP => ⟨0xF00F000024, [(96, 0x10000000), (16, 0x1000)], 4, [(⟨31, 0⟩, .rc, 0)]⟩
  | .NC_GMAP_A => ⟨0xF00F000080, [(96, 0x10000000), (16, 0x1000), (16, 0x8)], 4, [(⟨14, 9⟩, .rw, 0), (⟨8, 1⟩, .rw, 0), (⟨0, 0⟩, .rw, 0)]⟩
  | .NC_GMAP_B => ⟨0xF00F000084, [(96, 0x10000000), (16, 0x1000), (16, 0x8)], 4, [(⟨30, 16⟩, .rw, 0), (⟨14, 0⟩, .rw, 0)]⟩
  | .NC_INTEG => ⟨0xF00F000100, [(96, 0x10000000), (16, 0x1000)], 8, [(⟨63, 0⟩, .ro, 0)]⟩
  | .NC_SPIKES => ⟨0xF00F000108, [(96, 0x10000000), (16, 0x1000)], 8, [(⟨63, 0⟩, .ro, 0)]⟩
  | .NC_OVERDRIVE => ⟨0xF00F000110, [(96, 0x10000000), (16, 0x1000)], 8, [(⟨63, 0⟩, .ro, 0)]⟩
  | .NC_SYNOPS => ⟨0xF00F000118, [(96, 0x10000000), (16, 0x1000)], 8, [(⟨63, 0⟩, .ro, 0)]⟩
  | .NC_ABSORB => ⟨0xF00F000120, [(96, 0x10000000), (16, 0x1000)], 8, [(⟨63, 0⟩, .ro, 0)]⟩
  | .NC_DCLIP => ⟨0xF00F000128, [(96, 0x10000000), (16, 0x1000)], 8, [(⟨63, 0⟩, .ro, 0)]⟩
  | .NC_HSTALL => ⟨0xF00F000130, [(96, 0x10000000), (16, 0x1000)], 8, [(⟨63, 0⟩, .ro, 0)]⟩
  | .NC_LCONF => ⟨0xF00F000138, [(96, 0x10000000), (16, 0x1000)], 8, [(⟨63, 0⟩, .ro, 0)]⟩
  | .NC_SLEEPCYC => ⟨0xF00F000140, [(96, 0x10000000), (16, 0x1000)], 8, [(⟨63, 0⟩, .ro, 0)]⟩
  | .NC_WAKES => ⟨0xF00F000148, [(96, 0x10000000), (16, 0x1000)], 8, [(⟨63, 0⟩, .ro, 0)]⟩
  | .SY_NET => ⟨0xF00F100000, [(96, 0x10000000), (16, 0x1000), (8, 0x20)], 4, [(⟨6, 1⟩, .rw, 0), (⟨0, 0⟩, .rw, 0)]⟩
  | .SY_FO_BASE => ⟨0xF00F100004, [(96, 0x10000000), (16, 0x1000), (8, 0x20)], 4, [(⟨19, 8⟩, .rw, 0)]⟩
  | .SY_FO_COUNT => ⟨0xF00F100008, [(96, 0x10000000), (16, 0x1000), (8, 0x20)], 4, [(⟨16, 0⟩, .rw, 0)]⟩
  | .SY_FI_BASE => ⟨0xF00F10000C, [(96, 0x10000000), (16, 0x1000), (8, 0x20)], 4, [(⟨19, 8⟩, .rw, 0)]⟩
  | .SY_FI_COUNT => ⟨0xF00F100010, [(96, 0x10000000), (16, 0x1000), (8, 0x20)], 4, [(⟨16, 0⟩, .rw, 0)]⟩
  | .SY_WPS_BASE => ⟨0xF00F100014, [(96, 0x10000000), (16, 0x1000), (8, 0x20)], 4, [(⟨19, 8⟩, .rw, 0)]⟩
  | .SY_KERN => ⟨0xF00F100018, [(96, 0x10000000), (16, 0x1000), (8, 0x20)], 4, [(⟨19, 8⟩, .rw, 0), (⟨3, 0⟩, .rw, 0)]⟩
  | .SY_FLITS => ⟨0xF00F100200, [(96, 0x10000000), (16, 0x1000)], 8, [(⟨63, 0⟩, .ro, 0)]⟩
  | .SY_FOCUT => ⟨0xF00F100208, [(96, 0x10000000), (16, 0x1000)], 8, [(⟨63, 0⟩, .ro, 0)]⟩
  | .SY_AXMISS => ⟨0xF00F100210, [(96, 0x10000000), (16, 0x1000)], 8, [(⟨63, 0⟩, .ro, 0)]⟩
  | .SY_NBAD => ⟨0xF00F100218, [(96, 0x10000000), (16, 0x1000)], 8, [(⟨63, 0⟩, .ro, 0)]⟩
  | .SY_KOPS => ⟨0xF00F100220, [(96, 0x10000000), (16, 0x1000)], 8, [(⟨63, 0⟩, .ro, 0)]⟩
  | .SY_MODIN => ⟨0xF00F100228, [(96, 0x10000000), (16, 0x1000)], 8, [(⟨63, 0⟩, .ro, 0)]⟩
  | .SY_IBABS => ⟨0xF00F100230, [(96, 0x10000000), (16, 0x1000)], 8, [(⟨63, 0⟩, .ro, 0)]⟩
  | .SY_EMIT_CFG => ⟨0xF00F110000, [(96, 0x10000000), (3, 0x1000)], 4, [(⟨17, 1⟩, .rw, 0), (⟨0, 0⟩, .rw, 0)]⟩
  | .SY_EMIT_BASE => ⟨0xF00F110004, [(96, 0x10000000), (3, 0x1000)], 4, [(⟨21, 12⟩, .rw, 0)]⟩
  | .SY_SINK_CFG => ⟨0xF00F110008, [(96, 0x10000000), (3, 0x1000)], 4, [(⟨31, 24⟩, .rw, 0), (⟨6, 4⟩, .rw, 0), (⟨0, 0⟩, .rw, 0)]⟩
  | .SY_SINK_BASE => ⟨0xF00F11000C, [(96, 0x10000000), (3, 0x1000)], 4, [(⟨21, 8⟩, .rw, 0)]⟩
  | .SY_SINK_SHAPE => ⟨0xF00F110010, [(96, 0x10000000), (3, 0x1000)], 4, [(⟨31, 16⟩, .rw, 0), (⟨13, 0⟩, .rw, 0)]⟩
  | .SY_SINK_WBASE => ⟨0xF00F110014, [(96, 0x10000000), (3, 0x1000)], 4, [(⟨13, 0⟩, .rw, 0)]⟩
  | .SY_IBQ_STATUS => ⟨0xF00F110018, [(96, 0x10000000), (3, 0x1000)], 4, [(⟨5, 0⟩, .ro, 0)]⟩
  | .SY_EFLITS => ⟨0xF00F110200, [(96, 0x10000000), (3, 0x1000)], 8, [(⟨63, 0⟩, .ro, 0)]⟩
  | .SY_EDROP => ⟨0xF00F110208, [(96, 0x10000000), (3, 0x1000)], 8, [(⟨63, 0⟩, .ro, 0)]⟩
  | .SY_SINKADD => ⟨0xF00F110210, [(96, 0x10000000), (3, 0x1000)], 8, [(⟨63, 0⟩, .ro, 0)]⟩
  | .SY_SINKABS => ⟨0xF00F110218, [(96, 0x10000000), (3, 0x1000)], 8, [(⟨63, 0⟩, .ro, 0)]⟩
  | .SY_IBQIN => ⟨0xF00F110220, [(96, 0x10000000), (3, 0x1000)], 8, [(⟨63, 0⟩, .ro, 0)]⟩
  | .LR_CORE_CFG => ⟨0xF00F200000, [(96, 0x10000000), (16, 0x1000)], 4, [(⟨7, 4⟩, .rw, 0), (⟨3, 1⟩, .rw, 0), (⟨0, 0⟩, .rw, 0)]⟩
  | .LR_ENT => ⟨0xF00F200004, [(96, 0x10000000), (16, 0x1000)], 4, [(⟨17, 0⟩, .rw, 0)]⟩
  | .LR_NENT => ⟨0xF00F200008, [(96, 0x10000000), (16, 0x1000)], 4, [(⟨16, 0⟩, .rw, 0)]⟩
  | .LR_ACC_BASE => ⟨0xF00F20000C, [(96, 0x10000000), (16, 0x1000)], 4, [(⟨19, 8⟩, .rw, 0)]⟩
  | .LR_SHD_BASE => ⟨0xF00F200010, [(96, 0x10000000), (16, 0x1000)], 4, [(⟨19, 8⟩, .rw, 0)]⟩
  | .LR_SEL_BASE => ⟨0xF00F200014, [(96, 0x10000000), (16, 0x1000)], 4, [(⟨19, 8⟩, .rw, 0)]⟩
  | .LR_PCNT_BASE => ⟨0xF00F200018, [(96, 0x10000000), (16, 0x1000)], 4, [(⟨19, 8⟩, .rw, 0)]⟩
  | .LR_CAND_BASE => ⟨0xF00F20001C, [(96, 0x10000000), (16, 0x1000)], 4, [(⟨19, 8⟩, .rw, 0)]⟩
  | .LR_CAND_CFG => ⟨0xF00F200020, [(96, 0x10000000), (16, 0x1000)], 4, [(⟨10, 0⟩, .rw, 0)]⟩
  | .LR_MOD_BASE => ⟨0xF00F200024, [(96, 0x10000000), (16, 0x1000)], 4, [(⟨19, 8⟩, .rw, 0)]⟩
  | .LR_MOD_CFG => ⟨0xF00F200028, [(96, 0x10000000), (16, 0x1000)], 4, [(⟨5, 4⟩, .rw, 0), (⟨3, 0⟩, .rw, 0)]⟩
  | .LR_PAIRS => ⟨0xF00F200100, [(96, 0x10000000), (16, 0x1000)], 8, [(⟨63, 0⟩, .ro, 0)]⟩
  | .LR_COIN => ⟨0xF00F200108, [(96, 0x10000000), (16, 0x1000)], 8, [(⟨63, 0⟩, .ro, 0)]⟩
  | .LR_ACONF => ⟨0xF00F200110, [(96, 0x10000000), (16, 0x1000)], 8, [(⟨63, 0⟩, .ro, 0)]⟩
  | .LR_CANDCHK => ⟨0xF00F200118, [(96, 0x10000000), (16, 0x1000)], 8, [(⟨63, 0⟩, .ro, 0)]⟩
  | .LR_MODABS => ⟨0xF00F200120, [(96, 0x10000000), (16, 0x1000)], 8, [(⟨63, 0⟩, .ro, 0)]⟩
  | .LR_PRUNED => ⟨0xF00F200128, [(96, 0x10000000), (16, 0x1000)], 8, [(⟨63, 0⟩, .ro, 0)]⟩
  | .LR_GRAFTED => ⟨0xF00F200130, [(96, 0x10000000), (16, 0x1000)], 8, [(⟨63, 0⟩, .ro, 0)]⟩
  | .LR_GFULL => ⟨0xF00F200138, [(96, 0x10000000), (16, 0x1000)], 8, [(⟨63, 0⟩, .ro, 0)]⟩
  | .LR_GSKIP => ⟨0xF00F200140, [(96, 0x10000000), (16, 0x1000)], 8, [(⟨63, 0⟩, .ro, 0)]⟩
  | .LR_SET_CFG => ⟨0xF00F210000, [(96, 0x10000000), (16, 0x100)], 4, [(⟨28, 24⟩, .rw, 0), (⟨23, 20⟩, .rw, 0), (⟨19, 17⟩, .rw, 0), (⟨15, 14⟩, .rw, 0), (⟨13, 8⟩, .rw, 0), (⟨1, 1⟩, .rw, 0), (⟨0, 0⟩, .rw, 0)]⟩
  | .LR_SET_EPLEN => ⟨0xF00F210004, [(96, 0x10000000), (16, 0x100)], 4, [(⟨15, 0⟩, .rw, 0)]⟩
  | .LR_SET_COEF_A => ⟨0xF00F210008, [(96, 0x10000000), (16, 0x100)], 4, [(⟨31, 16⟩, .rw, 0), (⟨15, 0⟩, .rw, 0)]⟩
  | .LR_SET_COEF_B => ⟨0xF00F21000C, [(96, 0x10000000), (16, 0x100)], 4, [(⟨31, 16⟩, .rw, 0), (⟨15, 8⟩, .rw, 0), (⟨5, 0⟩, .rw, 0)]⟩
  | .LR_SET_RATE => ⟨0xF00F210010, [(96, 0x10000000), (16, 0x100)], 4, [(⟨20, 16⟩, .rw, 0), (⟨15, 0⟩, .rw, 0)]⟩
  | .LR_SET_BOUND => ⟨0xF00F210014, [(96, 0x10000000), (16, 0x100)], 4, [(⟨31, 16⟩, .rw, 0), (⟨15, 0⟩, .rw, 0)]⟩
  | .LR_SET_STRUCT => ⟨0xF00F210018, [(96, 0x10000000), (16, 0x100)], 4, [(⟨31, 28⟩, .rw, 0), (⟨27, 16⟩, .rw, 0), (⟨15, 0⟩, .rw, 0)]⟩
  | .LR_SET_GRAFT => ⟨0xF00F21001C, [(96, 0x10000000), (16, 0x100)], 4, [(⟨15, 8⟩, .rw, 0), (⟨7, 0⟩, .rw, 0)]⟩
  | .LR_SET_SEED => ⟨0xF00F210020, [(96, 0x10000000), (16, 0x100)], 4, [(⟨31, 0⟩, .rw, 0)]⟩
  | .LR_SET_COMMIT => ⟨0xF00F210024, [(96, 0x10000000), (16, 0x100)], 4, [(⟨15, 0⟩, .rw, 0)]⟩
  | .LR_SET_CTRL => ⟨0xF00F210028, [(96, 0x10000000), (16, 0x100)], 4, [(⟨0, 0⟩, .wo, 0)]⟩
  | .LR_SET_STATUS => ⟨0xF00F21002C, [(96, 0x10000000), (16, 0x100)], 4, [(⟨31, 16⟩, .ro, 0), (⟨15, 8⟩, .ro, 0), (⟨7, 4⟩, .ro, 0), (⟨3, 3⟩, .ro, 0), (⟨2, 0⟩, .ro, 0)]⟩
  | .LR_SET_WG => ⟨0xF00F210030, [(96, 0x10000000), (16, 0x100), (8, 0x4)], 4, [(⟨31, 0⟩, .rw, 0)]⟩
  | .LR_SET_EPOCH => ⟨0xF00F210050, [(96, 0x10000000), (16, 0x100)], 8, [(⟨63, 0⟩, .ro, 0)]⟩
  | .LR_SET_SKIPLOST => ⟨0xF00F210058, [(96, 0x10000000), (16, 0x100)], 4, [(⟨31, 0⟩, .ro, 0)]⟩
  | .LR_SET_LOCKWAIT => ⟨0xF00F21005C, [(96, 0x10000000), (16, 0x100)], 4, [(⟨31, 0⟩, .ro, 0)]⟩
  | .KS_CMD => ⟨0xF00F300000, [(96, 0x10000000)], 4, [(⟨7, 4⟩, .wo, 0), (⟨3, 0⟩, .wo, 0)]⟩
  | .KS_STAGE => ⟨0xF00F300008, [(96, 0x10000000)], 8, [(⟨63, 12⟩, .rw, 0)]⟩
  | .KS_STATUS => ⟨0xF00F300010, [(96, 0x10000000)], 4, [(⟨31, 16⟩, .ro, 0), (⟨5, 5⟩, .ro, 0), (⟨4, 4⟩, .ro, 0), (⟨3, 3⟩, .ro, 0), (⟨2, 0⟩, .ro, 0)]⟩
  | .KS_GEN => ⟨0xF00F300018, [(96, 0x10000000)], 8, [(⟨63, 0⟩, .ro, 0)]⟩
  | .KS_GEPOCH => ⟨0xF00F300020, [(96, 0x10000000)], 8, [(⟨63, 0⟩, .ro, 0)]⟩
  | .KS_SEQ => ⟨0xF00F300028, [(96, 0x10000000)], 8, [(⟨63, 0⟩, .ro, 0)]⟩
  | .KS_PAGES => ⟨0xF00F300030, [(96, 0x10000000)], 4, [(⟨15, 0⟩, .ro, 0)]⟩
  | .KS_FREE => ⟨0xF00F300034, [(96, 0x10000000)], 4, [(⟨31, 16⟩, .ro, 0), (⟨15, 0⟩, .ro, 0)]⟩
  | .KS_DISCARD => ⟨0xF00F300038, [(96, 0x10000000)], 4, [(⟨31, 16⟩, .ro, 0), (⟨15, 0⟩, .ro, 0)]⟩
  | .KS_WEARMAX => ⟨0xF00F30003C, [(96, 0x10000000)], 4, [(⟨31, 0⟩, .ro, 0)]⟩
  | .KS_COMMITS => ⟨0xF00F300100, [(96, 0x10000000)], 8, [(⟨63, 0⟩, .ro, 0)]⟩
  | .KS_PGWRITE => ⟨0xF00F300108, [(96, 0x10000000)], 8, [(⟨63, 0⟩, .ro, 0)]⟩
  | .KS_PGSKIP => ⟨0xF00F300110, [(96, 0x10000000)], 8, [(⟨63, 0⟩, .ro, 0)]⟩
  | .KS_PGBAD => ⟨0xF00F300118, [(96, 0x10000000)], 8, [(⟨63, 0⟩, .ro, 0)]⟩
  | .KS_RESTORES => ⟨0xF00F300120, [(96, 0x10000000)], 8, [(⟨63, 0⟩, .ro, 0)]⟩
  | .MX_CFG => ⟨0xF00F400000, [(96, 0x10000000)], 4, [(⟨1, 1⟩, .rw, 1), (⟨0, 0⟩, .rw, 0)]⟩
  | .MX_DQ_TAIL => ⟨0xF00F400004, [(96, 0x10000000)], 4, [(⟨15, 0⟩, .rw, 0)]⟩
  | .MX_DQ_HEAD => ⟨0xF00F400008, [(96, 0x10000000)], 4, [(⟨15, 0⟩, .ro, 0)]⟩
  | .MX_CTRL => ⟨0xF00F40000C, [(96, 0x10000000)], 4, [(⟨0, 0⟩, .wo, 0)]⟩
  | .MX_STATUS => ⟨0xF00F400010, [(96, 0x10000000)], 4, [(⟨31, 16⟩, .ro, 0), (⟨4, 4⟩, .w1c, 0), (⟨3, 3⟩, .ro, 0), (⟨2, 0⟩, .ro, 0)]⟩
  | .MX_SEED => ⟨0xF00F400014, [(96, 0x10000000)], 4, [(⟨31, 0⟩, .rw, 0)]⟩
  | .MX_BIND => ⟨0xF00F400040, [(96, 0x10000000), (8, 0x4)], 4, [(⟨8, 1⟩, .rw, 0), (⟨0, 0⟩, .rw, 0)]⟩
  | .MX_DONE => ⟨0xF00F400100, [(96, 0x10000000)], 8, [(⟨63, 0⟩, .ro, 0)]⟩
  | .MX_MACS => ⟨0xF00F400108, [(96, 0x10000000)], 8, [(⟨63, 0⟩, .ro, 0)]⟩
  | .MX_BUSY => ⟨0xF00F400110, [(96, 0x10000000)], 8, [(⟨63, 0⟩, .ro, 0)]⟩
  | .MX_OPWAIT => ⟨0xF00F400118, [(96, 0x10000000)], 8, [(⟨63, 0⟩, .ro, 0)]⟩
  | .MX_DERR => ⟨0xF00F400120, [(96, 0x10000000)], 8, [(⟨63, 0⟩, .ro, 0)]⟩
  | .MX_RERUN => ⟨0xF00F400128, [(96, 0x10000000)], 8, [(⟨63, 0⟩, .ro, 0)]⟩
  | .MX_GREC => ⟨0xF00F400130, [(96, 0x10000000)], 8, [(⟨63, 0⟩, .ro, 0)]⟩
  | .MX_EREC => ⟨0xF00F400138, [(96, 0x10000000)], 8, [(⟨63, 0⟩, .ro, 0)]⟩
  | .VX_CFG => ⟨0xF00F500000, [(96, 0x10000000), (2, 0x1000)], 4, [(⟨1, 1⟩, .rw, 1), (⟨0, 0⟩, .rw, 0)]⟩
  | .VX_PC0 => ⟨0xF00F500004, [(96, 0x10000000), (2, 0x1000)], 4, [(⟨16, 2⟩, .rw, 0)]⟩
  | .VX_SVC => ⟨0xF00F500008, [(96, 0x10000000), (2, 0x1000)], 4, [(⟨16, 2⟩, .rw, 0)]⟩
  | .VX_STATUS => ⟨0xF00F50000C, [(96, 0x10000000), (2, 0x1000)], 4, [(⟨31, 16⟩, .ro, 0), (⟨3, 3⟩, .ro, 0), (⟨2, 0⟩, .ro, 0)]⟩
  | .VX_FPC => ⟨0xF00F500010, [(96, 0x10000000), (2, 0x1000)], 4, [(⟨16, 2⟩, .ro, 0), (⟨0, 0⟩, .ro, 0)]⟩
  | .VX_BIND => ⟨0xF00F500040, [(96, 0x10000000), (2, 0x1000), (8, 0x4)], 4, [(⟨8, 1⟩, .rw, 0), (⟨0, 0⟩, .rw, 0)]⟩
  | .VX_INSTR => ⟨0xF00F500100, [(96, 0x10000000), (2, 0x1000)], 8, [(⟨63, 0⟩, .ro, 0)]⟩
  | .VX_XBYTES => ⟨0xF00F500108, [(96, 0x10000000), (2, 0x1000)], 8, [(⟨63, 0⟩, .ro, 0)]⟩
  | .VX_XSTALL => ⟨0xF00F500110, [(96, 0x10000000), (2, 0x1000)], 8, [(⟨63, 0⟩, .ro, 0)]⟩
  | .VX_EMITS => ⟨0xF00F500118, [(96, 0x10000000), (2, 0x1000)], 8, [(⟨63, 0⟩, .ro, 0)]⟩
  | .VX_ELATE => ⟨0xF00F500120, [(96, 0x10000000), (2, 0x1000)], 8, [(⟨63, 0⟩, .ro, 0)]⟩
  | .VX_SVCCYC => ⟨0xF00F500128, [(96, 0x10000000), (2, 0x1000)], 8, [(⟨63, 0⟩, .ro, 0)]⟩
  | .VX_FAULTS => ⟨0xF00F500130, [(96, 0x10000000), (2, 0x1000)], 8, [(⟨63, 0⟩, .ro, 0)]⟩
  | .QF_PCFG => ⟨0xF00F600000, [(96, 0x10000000), (16, 0x40)], 4, [(⟨17, 16⟩, .rw, 3), (⟨15, 14⟩, .rw, 3), (⟨13, 13⟩, .rw, 1), (⟨12, 12⟩, .rw, 0), (⟨11, 10⟩, .rw, 0), (⟨7, 4⟩, .rw, 0), (⟨0, 0⟩, .rw, 0)]⟩
  | .QF_PTOL => ⟨0xF00F600004, [(96, 0x10000000), (16, 0x40)], 4, [(⟨15, 8⟩, .rw, 0xff), (⟨7, 0⟩, .rw, 0xff)]⟩
  | .QF_PTBL => ⟨0xF00F600008, [(96, 0x10000000), (16, 0x40)], 8, [(⟨47, 6⟩, .rw, 0)]⟩
  | .QF_SAT => ⟨0xF00F600800, [(96, 0x10000000)], 8, [(⟨63, 0⟩, .ro, 0)]⟩
  | .QF_UND => ⟨0xF00F600808, [(96, 0x10000000)], 8, [(⟨63, 0⟩, .ro, 0)]⟩
  | .QF_FLAT => ⟨0xF00F600810, [(96, 0x10000000)], 8, [(⟨63, 0⟩, .ro, 0)]⟩
  | .QF_NAN => ⟨0xF00F600818, [(96, 0x10000000)], 8, [(⟨63, 0⟩, .ro, 0)]⟩
  | .QF_ACCSAT => ⟨0xF00F600820, [(96, 0x10000000)], 8, [(⟨63, 0⟩, .ro, 0)]⟩
  | .QF_RERUNS => ⟨0xF00F600828, [(96, 0x10000000)], 8, [(⟨63, 0⟩, .ro, 0)]⟩
  | .QF_RRCYC => ⟨0xF00F600830, [(96, 0x10000000)], 8, [(⟨63, 0⟩, .ro, 0)]⟩
  | .QF_FAILA => ⟨0xF00F600840, [(96, 0x10000000)], 4, [(⟨31, 16⟩, .ro, 0), (⟨15, 12⟩, .ro, 0), (⟨11, 8⟩, .ro, 0), (⟨0, 0⟩, .ro, 0)]⟩
  | .QF_FAILB => ⟨0xF00F600844, [(96, 0x10000000)], 4, [(⟨31, 16⟩, .ro, 0), (⟨15, 0⟩, .ro, 0)]⟩
  | .EF_FENCE => ⟨0xF00F700000, [(96, 0x10000000)], 4, [(⟨18, 0⟩, .w1s, 0)]⟩
  | .EF_CTRL => ⟨0xF00F700004, [(96, 0x10000000)], 4, [(⟨0, 0⟩, .wo, 0)]⟩
  | .EF_STATUS => ⟨0xF00F700008, [(96, 0x10000000)], 4, [(⟨22, 14⟩, .ro, 0), (⟨13, 8⟩, .ro, 0), (⟨7, 7⟩, .ro, 0), (⟨5, 2⟩, .ro, 0), (⟨1, 0⟩, .ro, 0)]⟩
  | .EF_LASTABS => ⟨0xF00F70000C, [(96, 0x10000000)], 4, [(⟨31, 28⟩, .ro, 0), (⟨11, 0⟩, .ro, 0)]⟩
  | .EF_GOLD => ⟨0xF00F700010, [(96, 0x10000000)], 4, [(⟨15, 8⟩, .rw, 0x20), (⟨7, 2⟩, .rw, 0x20), (⟨0, 0⟩, .rw, 1)]⟩
  | .EF_GOLDSTAT => ⟨0xF00F700014, [(96, 0x10000000)], 4, [(⟨7, 7⟩, .ro, 0), (⟨6, 0⟩, .ro, 0)]⟩
  | .EF_REMAPST => ⟨0xF00F700018, [(96, 0x10000000)], 4, [(⟨31, 16⟩, .ro, 0), (⟨3, 0⟩, .ro, 0)]⟩
  | .EF_REMAP => ⟨0xF00F700040, [(96, 0x10000000), (16, 0x4)], 4, [(⟨31, 31⟩, .rw, 0), (⟨30, 28⟩, .rw, 0), (⟨23, 12⟩, .rw, 0), (⟨11, 0⟩, .rw, 0)]⟩
  | .EF_FWD => ⟨0xF00F700100, [(96, 0x10000000)], 8, [(⟨63, 0⟩, .ro, 0)]⟩
  | .EF_DEFL => ⟨0xF00F700108, [(96, 0x10000000)], 8, [(⟨63, 0⟩, .ro, 0)]⟩
  | .EF_INJ => ⟨0xF00F700110, [(96, 0x10000000)], 8, [(⟨63, 0⟩, .ro, 0)]⟩
  | .EF_LOCAL => ⟨0xF00F700118, [(96, 0x10000000)], 8, [(⟨63, 0⟩, .ro, 0)]⟩
  | .EF_EJ => ⟨0xF00F700120, [(96, 0x10000000)], 8, [(⟨63, 0⟩, .ro, 0)]⟩
  | .EF_EJDEFL => ⟨0xF00F700128, [(96, 0x10000000)], 8, [(⟨63, 0⟩, .ro, 0)]⟩
  | .EF_SPILL => ⟨0xF00F700130, [(96, 0x10000000)], 8, [(⟨63, 0⟩, .ro, 0)]⟩
  | .EF_OVFL => ⟨0xF00F700138, [(96, 0x10000000)], 8, [(⟨63, 0⟩, .ro, 0)]⟩
  | .EF_SEAMBUSY => ⟨0xF00F700140, [(96, 0x10000000)], 8, [(⟨63, 0⟩, .ro, 0)]⟩
  | .EF_CHKCOR => ⟨0xF00F700148, [(96, 0x10000000)], 8, [(⟨63, 0⟩, .ro, 0)]⟩
  | .EF_GOLDCYC => ⟨0xF00F700150, [(96, 0x10000000)], 8, [(⟨63, 0⟩, .ro, 0)]⟩
  | .EF_REMAPPED => ⟨0xF00F700158, [(96, 0x10000000)], 8, [(⟨63, 0⟩, .ro, 0)]⟩
  | .EF_ABS_CHK => ⟨0xF00F700160, [(96, 0x10000000)], 8, [(⟨63, 0⟩, .ro, 0)]⟩
  | .EF_ABS_RSV => ⟨0xF00F700168, [(96, 0x10000000)], 8, [(⟨63, 0⟩, .ro, 0)]⟩
  | .EF_ABS_GRP => ⟨0xF00F700170, [(96, 0x10000000)], 8, [(⟨63, 0⟩, .ro, 0)]⟩
  | .EF_ABS_PART => ⟨0xF00F700178, [(96, 0x10000000)], 8, [(⟨63, 0⟩, .ro, 0)]⟩
  | .EF_ABS_FENCE => ⟨0xF00F700180, [(96, 0x10000000)], 8, [(⟨63, 0⟩, .ro, 0)]⟩
  | .EF_ABS_OFF => ⟨0xF00F700188, [(96, 0x10000000)], 8, [(⟨63, 0⟩, .ro, 0)]⟩
  | .EF_ABS_DST => ⟨0xF00F700190, [(96, 0x10000000)], 8, [(⟨63, 0⟩, .ro, 0)]⟩
  | .EF_ABS_HOLE => ⟨0xF00F700198, [(96, 0x10000000)], 8, [(⟨63, 0⟩, .ro, 0)]⟩
  | .EF_FSRC => ⟨0xF00F700400, [(96, 0x10000000), (96, 0x4)], 4, [(⟨31, 0⟩, .rc, 0)]⟩
  | .TL_CTRL => ⟨0xF00F800000, [(96, 0x10000000)], 4, [(⟨1, 1⟩, .wo, 0), (⟨0, 0⟩, .wo, 0)]⟩
  | .TL_STATUS => ⟨0xF00F800004, [(96, 0x10000000)], 4, [(⟨2, 2⟩, .ro, 0), (⟨1, 1⟩, .ro, 0), (⟨0, 0⟩, .ro, 0)]⟩
  | .TL_FRAME => ⟨0xF00F800008, [(96, 0x10000000)], 8, [(⟨63, 0⟩, .ro, 0)]⟩
  | .TL_LASTERR => ⟨0xF00F800010, [(96, 0x10000000)], 8, [(⟨63, 48⟩, .ro, 0), (⟨47, 0⟩, .ro, 0)]⟩
  | .TL_SCFG => ⟨0xF00F800100, [(96, 0x10000000), (64, 0x10)], 4, [(⟨25, 13⟩, .rw, 0), (⟨4, 2⟩, .rw, 0), (⟨1, 1⟩, .rw, 0), (⟨0, 0⟩, .rw, 0)]⟩
  | .TL_SSTAT => ⟨0xF00F800104, [(96, 0x10000000), (64, 0x10)], 4, [(⟨31, 16⟩, .ro, 0), (⟨2, 0⟩, .ro, 0)]⟩
  | .TL_SIMG => ⟨0xF00F800108, [(96, 0x10000000), (64, 0x10)], 8, [(⟨63, 6⟩, .rw, 0)]⟩
  | .TL_SWBEATS => ⟨0xF00F800800, [(96, 0x10000000)], 8, [(⟨63, 0⟩, .ro, 0)]⟩
  | .TL_EPTX => ⟨0xF00F800808, [(96, 0x10000000)], 8, [(⟨63, 0⟩, .ro, 0)]⟩
  | .TL_EPRX => ⟨0xF00F800810, [(96, 0x10000000)], 8, [(⟨63, 0⟩, .ro, 0)]⟩
  | .TL_CORR => ⟨0xF00F800818, [(96, 0x10000000)], 8, [(⟨63, 0⟩, .ro, 0)]⟩
  | .TL_UNCORR => ⟨0xF00F800820, [(96, 0x10000000)], 8, [(⟨63, 0⟩, .ro, 0)]⟩
  | .TL_REFUSED => ⟨0xF00F800828, [(96, 0x10000000)], 8, [(⟨63, 0⟩, .ro, 0)]⟩
  | .TL_EPDISC => ⟨0xF00F800830, [(96, 0x10000000)], 8, [(⟨63, 0⟩, .ro, 0)]⟩
  | .TL_CNMSG => ⟨0xF00F800838, [(96, 0x10000000)], 8, [(⟨63, 0⟩, .ro, 0)]⟩
  | .TL_CNRETRY => ⟨0xF00F800840, [(96, 0x10000000)], 8, [(⟨63, 0⟩, .ro, 0)]⟩
  | .TL_CNREROUTE => ⟨0xF00F800848, [(96, 0x10000000)], 8, [(⟨63, 0⟩, .ro, 0)]⟩
  | .TL_TABLE_ACT => ⟨0xF00F810000, [(96, 0x10000000)], 16384, []⟩
  | .TL_TABLE_INACT => ⟨0xF00F814000, [(96, 0x10000000)], 16384, []⟩
  | .TL_SMAP => ⟨0xF00F820000, [(96, 0x10000000), (6, 0x800)], 2048, []⟩
  | .MQ_CFG => ⟨0xF00F900000, [(96, 0x10000000)], 4, [(⟨3, 0⟩, .rw, 7)]⟩
  | .MQ_STATUS => ⟨0xF00F900004, [(96, 0x10000000)], 4, [(⟨31, 16⟩, .ro, 0), (⟨0, 0⟩, .ro, 0)]⟩
  | .MQ_COMPOST => ⟨0xF00F900008, [(96, 0x10000000)], 8, [(⟨63, 12⟩, .rw, 0)]⟩
  | .MQ_COMPN => ⟨0xF00F900010, [(96, 0x10000000)], 4, [(⟨31, 16⟩, .ro, 0), (⟨15, 0⟩, .rw, 0)]⟩
  | .MQ_LASTBRK => ⟨0xF00F900018, [(96, 0x10000000)], 8, [(⟨63, 48⟩, .ro, 0), (⟨32, 20⟩, .ro, 0), (⟨6, 0⟩, .ro, 0)]⟩
  | .MQ_CH_CFG => ⟨0xF00F900100, [(96, 0x10000000), (32, 0x20)], 4, [(⟨12, 8⟩, .rw, 8), (⟨5, 1⟩, .rw, 0x10), (⟨0, 0⟩, .rw, 0)]⟩
  | .MQ_CH_RING => ⟨0xF00F900104, [(96, 0x10000000), (32, 0x20)], 4, [(⟨25, 8⟩, .rw, 0)]⟩
  | .MQ_CH_CCB => ⟨0xF00F900108, [(96, 0x10000000), (32, 0x20)], 4, [(⟨25, 7⟩, .rw, 0)]⟩
  | .MQ_CH_STAT => ⟨0xF00F90010C, [(96, 0x10000000), (32, 0x20)], 4, [(⟨31, 16⟩, .ro, 0), (⟨15, 8⟩, .ro, 0), (⟨1, 1⟩, .ro, 0), (⟨0, 0⟩, .ro, 0)]⟩
  | .MQ_Q_CFG => ⟨0xF00F900600, [(96, 0x10000000), (8, 0x20)], 4, [(⟨27, 16⟩, .rw, 0), (⟨15, 10⟩, .rw, 0), (⟨9, 8⟩, .rw, 0), (⟨7, 7⟩, .rw, 0), (⟨6, 2⟩, .rw, 0x10), (⟨0, 0⟩, .rw, 0)]⟩
  | .MQ_Q_EXPECT => ⟨0xF00F900604, [(96, 0x10000000), (8, 0x20)], 4, [(⟨15, 0⟩, .rw, 0)]⟩
  | .MQ_Q_ACC => ⟨0xF00F900608, [(96, 0x10000000), (8, 0x20)], 4, [(⟨25, 8⟩, .rw, 0)]⟩
  | .MQ_Q_OUT => ⟨0xF00F90060C, [(96, 0x10000000), (8, 0x20)], 4, [(⟨25, 8⟩, .rw, 0)]⟩
  | .MQ_Q_CCB => ⟨0xF00F900610, [(96, 0x10000000), (8, 0x20)], 4, [(⟨25, 7⟩, .rw, 0)]⟩
  | .MQ_Q_STAT => ⟨0xF00F900614, [(96, 0x10000000), (8, 0x20)], 4, [(⟨31, 16⟩, .ro, 0), (⟨15, 8⟩, .ro, 0), (⟨1, 1⟩, .ro, 0), (⟨0, 0⟩, .ro, 0)]⟩
  | .MQ_SH_CFG => ⟨0xF00F900800, [(96, 0x10000000), (64, 0x10)], 4, [(⟨0, 0⟩, .rw, 0)]⟩
  | .MQ_SH_SEQ => ⟨0xF00F900804, [(96, 0x10000000), (64, 0x10)], 4, [(⟨15, 0⟩, .ro, 0)]⟩
  | .MQ_SH_ADDR => ⟨0xF00F900808, [(96, 0x10000000), (64, 0x10)], 8, [(⟨47, 7⟩, .rw, 0)]⟩
  | .MQ_SENT => ⟨0xF00F900C00, [(96, 0x10000000)], 8, [(⟨63, 0⟩, .ro, 0)]⟩
  | .MQ_PLACED => ⟨0xF00F900C08, [(96, 0x10000000)], 8, [(⟨63, 0⟩, .ro, 0)]⟩
  | .MQ_SKIPS => ⟨0xF00F900C10, [(96, 0x10000000)], 8, [(⟨63, 0⟩, .ro, 0)]⟩
  | .MQ_WAITREG => ⟨0xF00F900C18, [(96, 0x10000000)], 8, [(⟨63, 0⟩, .ro, 0)]⟩
  | .MQ_BREAKS => ⟨0xF00F900C20, [(96, 0x10000000)], 8, [(⟨63, 0⟩, .ro, 0)]⟩
  | .MQ_COMPOSTED => ⟨0xF00F900C28, [(96, 0x10000000)], 8, [(⟨63, 0⟩, .ro, 0)]⟩
  | .MQ_QCONTRIB => ⟨0xF00F900C30, [(96, 0x10000000)], 8, [(⟨63, 0⟩, .ro, 0)]⟩
  | .MQ_QROUNDS => ⟨0xF00F900C38, [(96, 0x10000000)], 8, [(⟨63, 0⟩, .ro, 0)]⟩
  | .MQ_QLATE => ⟨0xF00F900C40, [(96, 0x10000000)], 8, [(⟨63, 0⟩, .ro, 0)]⟩
  | .MQ_QSAT => ⟨0xF00F900C48, [(96, 0x10000000)], 8, [(⟨63, 0⟩, .ro, 0)]⟩
  | .MQ_QNAN => ⟨0xF00F900C50, [(96, 0x10000000)], 8, [(⟨63, 0⟩, .ro, 0)]⟩
  | .MQ_QOVF => ⟨0xF00F900C58, [(96, 0x10000000)], 8, [(⟨63, 0⟩, .ro, 0)]⟩
  | .MQ_BADRD => ⟨0xF00F900C60, [(96, 0x10000000)], 8, [(⟨63, 0⟩, .ro, 0)]⟩
  | .MQ_SEND => ⟨0xF00F980000, [(96, 0x10000000), (64, 0x1000)], 4096, []⟩
  | .BK_OWN => ⟨0xF00FA00000, [(96, 0x10000000), (8, 0x4)], 4, [(⟨11, 10⟩, .rw, 0), (⟨9, 0⟩, .rw, 0)]⟩
  | .BK_RET => ⟨0xF00FA00020, [(96, 0x10000000)], 4, [(⟨7, 0⟩, .rw, 0)]⟩
  | .BK_STATUS => ⟨0xF00FA00024, [(96, 0x10000000)], 4, [(⟨31, 16⟩, .ro, 0), (⟨15, 8⟩, .ro, 0xff), (⟨7, 0⟩, .ro, 0)]⟩
  | .BK_ARB => ⟨0xF00FA00028, [(96, 0x10000000)], 4, [(⟨14, 8⟩, .rw, 0x10), (⟨2, 0⟩, .rw, 0)]⟩
  | .BK_ERRADDR => ⟨0xF00FA00030, [(96, 0x10000000)], 4, [(⟨21, 0⟩, .ro, 0)]⟩
  | .BK_RD => ⟨0xF00FA00100, [(96, 0x10000000)], 8, [(⟨63, 0⟩, .ro, 0)]⟩
  | .BK_WR => ⟨0xF00FA00108, [(96, 0x10000000)], 8, [(⟨63, 0⟩, .ro, 0)]⟩
  | .BK_ALIAS => ⟨0xF00FA00110, [(96, 0x10000000)], 8, [(⟨63, 0⟩, .ro, 0)]⟩
  | .BK_DENY => ⟨0xF00FA00118, [(96, 0x10000000)], 8, [(⟨63, 0⟩, .ro, 0)]⟩
  | .BK_CORR => ⟨0xF00FA00120, [(96, 0x10000000)], 8, [(⟨63, 0⟩, .ro, 0)]⟩
  | .BK_UNCORR => ⟨0xF00FA00128, [(96, 0x10000000)], 8, [(⟨63, 0⟩, .ro, 0)]⟩
  | .BK_LOSS => ⟨0xF00FA00130, [(96, 0x10000000)], 8, [(⟨63, 0⟩, .ro, 0)]⟩
  | .BK_REVOKE => ⟨0xF00FA00138, [(96, 0x10000000)], 8, [(⟨63, 0⟩, .ro, 0)]⟩
  | .BK_WAKES => ⟨0xF00FA00140, [(96, 0x10000000)], 8, [(⟨63, 0⟩, .ro, 0)]⟩
  | .DM_CFG => ⟨0xFE02000000, [], 4, [(⟨3, 1⟩, .ro, 0), (⟨0, 0⟩, .ro, 0)]⟩
  | .DM_STATUS => ⟨0xFE02000004, [], 4, [(⟨31, 24⟩, .ro, 0), (⟨23, 16⟩, .ro, 0), (⟨0, 0⟩, .ro, 0)]⟩
  | .DM_CAPACITY => ⟨0xFE02000008, [], 8, [(⟨63, 0⟩, .ro, 0)]⟩
  | .DM_EBASE => ⟨0xFE02000010, [], 8, [(⟨63, 0⟩, .ro, 0)]⟩
  | .DM_ARB => ⟨0xFE02000018, [], 4, [(⟨6, 0⟩, .rw, 0x10)]⟩
  | .DM_ERRADDR => ⟨0xFE02000020, [], 8, [(⟨47, 0⟩, .ro, 0)]⟩
  | .DM_HOLD => ⟨0xFE02000040, [(32, 0x4)], 4, [(⟨31, 0⟩, .rw, 0)]⟩
  | .DM_GPLOSS => ⟨0xFE020000C0, [(8, 0x8)], 8, [(⟨63, 0⟩, .ro, 0)]⟩
  | .DM_KSLOSS => ⟨0xFE02000100, [], 8, [(⟨63, 0⟩, .ro, 0)]⟩
  | .DM_CH_STATUS => ⟨0xFE02001000, [(24, 0x100)], 4, [(⟨31, 16⟩, .ro, 0), (⟨15, 12⟩, .ro, 0), (⟨3, 2⟩, .ro, 0), (⟨1, 0⟩, .ro, 0)]⟩
  | .DM_RDB => ⟨0xFE02001008, [(24, 0x100)], 8, [(⟨63, 0⟩, .ro, 0)]⟩
  | .DM_WRB => ⟨0xFE02001010, [(24, 0x100)], 8, [(⟨63, 0⟩, .ro, 0)]⟩
  | .DM_CORR => ⟨0xFE02001018, [(24, 0x100)], 8, [(⟨63, 0⟩, .ro, 0)]⟩
  | .DM_UNCORR => ⟨0xFE02001020, [(24, 0x100)], 8, [(⟨63, 0⟩, .ro, 0)]⟩
  | .DM_LINKERR => ⟨0xFE02001028, [(24, 0x100)], 8, [(⟨63, 0⟩, .ro, 0)]⟩
  | .DM_REFRESH => ⟨0xFE02001030, [(24, 0x100)], 8, [(⟨63, 0⟩, .ro, 0)]⟩
  | .DM_RETRAIN => ⟨0xFE02001038, [(24, 0x100)], 8, [(⟨63, 0⟩, .ro, 0)]⟩
  | .DM_LOSS => ⟨0xFE02001040, [(24, 0x100)], 8, [(⟨63, 0⟩, .ro, 0)]⟩
  | .DM_REVOKE => ⟨0xFE02001048, [(24, 0x100)], 8, [(⟨63, 0⟩, .ro, 0)]⟩
  | .GP_PART_CFG => ⟨0xFE03000000, [(8, 0x100)], 4, [(⟨15, 8⟩, .rw, 0), (⟨0, 0⟩, .rw, 0)]⟩
  | .GP_PART_STATUS => ⟨0xFE03000004, [(8, 0x100)], 4, [(⟨31, 16⟩, .ro, 0), (⟨1, 0⟩, .ro, 0)]⟩
  | .GP_PART_CL0 => ⟨0xFE03000008, [(8, 0x100)], 4, [(⟨31, 0⟩, .rw, 0)]⟩
  | .GP_PART_CL1 => ⟨0xFE0300000C, [(8, 0x100)], 4, [(⟨31, 0⟩, .rw, 0)]⟩
  | .GP_PART_CL2 => ⟨0xFE03000010, [(8, 0x100)], 4, [(⟨31, 0⟩, .rw, 0)]⟩
  | .GP_PART_BASE => ⟨0xFE03000018, [(8, 0x100)], 8, [(⟨47, 30⟩, .rw, 0)]⟩
  | .GP_PART_SIZE => ⟨0xFE03000020, [(8, 0x100)], 4, [(⟨8, 0⟩, .rw, 0)]⟩
  | .GP_PART_KSHARE => ⟨0xFE03000024, [(8, 0x100)], 4, [(⟨7, 0⟩, .rw, 0)]⟩
  | .GP_MAP => ⟨0xFE03001000, [(8, 0x200)], 4, [(⟨3, 1⟩, .rw, 0), (⟨0, 0⟩, .rw, 0)]⟩
  | .GP_PCFG => ⟨0xFE03001004, [(8, 0x200)], 4, [(⟨31, 16⟩, .rw, 0), (⟨12, 12⟩, .rw, 0), (⟨11, 11⟩, .rw, 0), (⟨9, 0⟩, .rw, 0xa)]⟩
  | .GP_PSTATUS => ⟨0xFE03001008, [(8, 0x200)], 4, [(⟨31, 16⟩, .ro, 0), (⟨15, 12⟩, .ro, 0), (⟨2, 0⟩, .ro, 0)]⟩
  | .GP_PCTRL => ⟨0xFE0300100C, [(8, 0x200)], 4, [(⟨0, 0⟩, .wo, 0)]⟩
  | .GP_EVSRC => ⟨0xFE03001010, [(8, 0x200)], 4, [(⟨31, 31⟩, .rw, 0), (⟨11, 0⟩, .rw, 0)]⟩
  | .GP_EVBIND => ⟨0xFE03001020, [(8, 0x200), (8, 0x4)], 4, [(⟨8, 1⟩, .rw, 0), (⟨0, 0⟩, .rw, 0)]⟩
  | .GP_COMPOST => ⟨0xFE03001040, [(8, 0x200)], 8, [(⟨63, 12⟩, .rw, 0)]⟩
  | .GP_COMPN => ⟨0xFE03001048, [(8, 0x200)], 4, [(⟨31, 16⟩, .ro, 0), (⟨15, 0⟩, .rw, 0)]⟩
  | .GP_HC_CFG => ⟨0xFE03001080, [(8, 0x200), (16, 0x4)], 4, [(⟨12, 8⟩, .rw, 8), (⟨0, 0⟩, .rw, 0)]⟩
  | .GP_SH_ADDR => ⟨0xFE03001100, [(8, 0x200), (16, 0x8)], 8, [(⟨47, 7⟩, .rw, 0), (⟨0, 0⟩, .rw, 0)]⟩
  | .GP_ADMIN => ⟨0xFE03006000, [], 4, [(⟨7, 0⟩, .ro, 0)]⟩
  | .GP_HRD => ⟨0xFE03004000, [(8, 0x100)], 8, [(⟨63, 0⟩, .ro, 0)]⟩
  | .GP_HWR => ⟨0xFE03004008, [(8, 0x100)], 8, [(⟨63, 0⟩, .ro, 0)]⟩
  | .GP_OOR => ⟨0xFE03004010, [(8, 0x100)], 8, [(⟨63, 0⟩, .ro, 0)]⟩
  | .GP_WDROP => ⟨0xFE03004018, [(8, 0x100)], 8, [(⟨63, 0⟩, .ro, 0)]⟩
  | .GP_BADCW => ⟨0xFE03004020, [(8, 0x100)], 8, [(⟨63, 0⟩, .ro, 0)]⟩
  | .GP_TORN => ⟨0xFE03004028, [(8, 0x100)], 8, [(⟨63, 0⟩, .ro, 0)]⟩
  | .GP_CMDS => ⟨0xFE03004030, [(8, 0x100)], 8, [(⟨63, 0⟩, .ro, 0)]⟩
  | .GP_CMDFAIL => ⟨0xFE03004038, [(8, 0x100)], 8, [(⟨63, 0⟩, .ro, 0)]⟩
  | .GP_SCANS => ⟨0xFE03004040, [(8, 0x100)], 8, [(⟨63, 0⟩, .ro, 0)]⟩
  | .GP_EVINJ => ⟨0xFE03004048, [(8, 0x100)], 8, [(⟨63, 0⟩, .ro, 0)]⟩
  | .GP_EVDROP => ⟨0xFE03004050, [(8, 0x100)], 8, [(⟨63, 0⟩, .ro, 0)]⟩
  | .GP_HCMSG => ⟨0xFE03004058, [(8, 0x100)], 8, [(⟨63, 0⟩, .ro, 0)]⟩
  | .GP_WCORR => ⟨0xFE03004060, [(8, 0x100)], 8, [(⟨63, 0⟩, .ro, 0)]⟩
  | .GP_WUNCORR => ⟨0xFE03004068, [(8, 0x100)], 8, [(⟨63, 0⟩, .ro, 0)]⟩
  | .GP_LINKERR => ⟨0xFE03004070, [(8, 0x100)], 8, [(⟨63, 0⟩, .ro, 0)]⟩
  | .GP_REFCMD => ⟨0xFE03004078, [(8, 0x100)], 8, [(⟨63, 0⟩, .ro, 0)]⟩
  | .SM_STATUS => ⟨0xFE01000000, [], 4, [(⟨31, 16⟩, .ro, 0), (⟨15, 12⟩, .ro, 0), (⟨2, 2⟩, .ro, 0), (⟨1, 0⟩, .ro, 0)]⟩
  | .SM_CAPW2E => ⟨0xFE01000004, [], 4, [(⟨31, 16⟩, .ro, 0), (⟨7, 0⟩, .ro, 0)]⟩
  | .SM_CAPE2W => ⟨0xFE01000008, [], 4, [(⟨31, 16⟩, .ro, 0), (⟨7, 0⟩, .ro, 0)]⟩
  | .SM_LOADW2E => ⟨0xFE0100000C, [], 4, [(⟨12, 0⟩, .ro, 0)]⟩
  | .SM_LOADE2W => ⟨0xFE01000010, [], 4, [(⟨12, 0⟩, .ro, 0)]⟩
  | .SM_LINK => ⟨0xFE01000020, [(4, 0x4)], 4, [(⟨31, 24⟩, .ro, 0), (⟨23, 16⟩, .ro, 0), (⟨4, 4⟩, .ro, 0), (⟨3, 2⟩, .ro, 0), (⟨1, 0⟩, .ro, 0)]⟩
  | .SM_LREASON => ⟨0xFE01000040, [(4, 0x4)], 4, [(⟨31, 16⟩, .ro, 0), (⟨15, 0⟩, .ro, 0)]⟩
  | .SM_HOLDMAX => ⟨0xFE01000060, [], 4, [(⟨14, 0⟩, .ro, 0)]⟩
  | .SM_EVX => ⟨0xFE01000100, [(2, 0x100)], 8, [(⟨63, 0⟩, .ro, 0)]⟩
  | .SM_EVWAIT => ⟨0xFE01000108, [(2, 0x100)], 8, [(⟨63, 0⟩, .ro, 0)]⟩
  | .SM_TBEATS => ⟨0xFE01000110, [(2, 0x100)], 8, [(⟨63, 0⟩, .ro, 0)]⟩
  | .SM_HOLD => ⟨0xFE01000118, [(2, 0x100)], 8, [(⟨63, 0⟩, .ro, 0)]⟩
  | .SM_ABS_SPLIT => ⟨0xFE01000120, [(2, 0x100)], 8, [(⟨63, 0⟩, .ro, 0)]⟩
  | .SM_RESTRIPE => ⟨0xFE01000128, [(2, 0x100)], 8, [(⟨63, 0⟩, .ro, 0)]⟩
  | .SM_CELLS => ⟨0xFE01000400, [(4, 0x20)], 8, [(⟨63, 0⟩, .ro, 0)]⟩
  | .SM_CRCERR => ⟨0xFE01000408, [(4, 0x20)], 8, [(⟨63, 0⟩, .ro, 0)]⟩
  | .SM_REPLAY => ⟨0xFE01000410, [(4, 0x20)], 8, [(⟨63, 0⟩, .ro, 0)]⟩
  | .PW_REQ => ⟨0xFE04000000, [(229, 0x10)], 4, [(⟨1, 0⟩, .rw, 0)]⟩
  | .PW_STAT => ⟨0xFE04000004, [(229, 0x10)], 4, [(⟨31, 16⟩, .ro, 0), (⟨15, 12⟩, .ro, 0), (⟨11, 5⟩, .ro, 0), (⟨4, 4⟩, .ro, 0), (⟨1, 0⟩, .ro, 0)]⟩
  | .PW_WAKES => ⟨0xFE04000008, [(229, 0x10)], 8, [(⟨63, 0⟩, .ro, 0)]⟩
  | .PW_STATUS => ⟨0xFE04001000, [], 4, [(⟨25, 16⟩, .ro, 0), (⟨15, 8⟩, .ro, 0), (⟨3, 3⟩, .ro, 0), (⟨2, 2⟩, .ro, 0), (⟨1, 1⟩, .ro, 0), (⟨0, 0⟩, .ro, 0)]⟩
  | .PW_PCAP => ⟨0xFE04001004, [], 4, [(⟨9, 0⟩, .rw, 0x280)]⟩
  | .PW_THERM => ⟨0xFE04001008, [], 4, [(⟨7, 0⟩, .rw, 0x64)]⟩
  | .PW_PKSTR => ⟨0xFE04001010, [], 8, [(⟨63, 0⟩, .ro, 0)]⟩
  | .PW_TEMP => ⟨0xFE04001100, [(196, 0x4)], 4, [(⟨15, 0⟩, .ro, 0)]⟩
  | .PW_DROOP => ⟨0xFE04001800, [(98, 0x10)], 8, [(⟨63, 0⟩, .ro, 0)]⟩
  | .PW_DSTR => ⟨0xFE04001808, [(98, 0x10)], 8, [(⟨63, 0⟩, .ro, 0)]⟩
  | .CK_CORE => ⟨0xFE05000000, [(96, 0x4)], 4, [(⟨19, 17⟩, .ro, 0), (⟨12, 8⟩, .ro, 0x16), (⟨4, 0⟩, .rw, 0x16)]⟩
  | .CK_FAB => ⟨0xFE05000200, [(2, 0x4)], 4, [(⟨12, 8⟩, .ro, 0x10), (⟨7, 7⟩, .ro, 0), (⟨4, 0⟩, .rw, 0x10)]⟩
  | .CK_VID => ⟨0xFE05000208, [(2, 0x4)], 4, [(⟨20, 16⟩, .ro, 0), (⟨15, 15⟩, .ro, 1), (⟨6, 0⟩, .ro, 0x32)]⟩
  | .CK_DROOP => ⟨0xFE05000210, [], 4, [(⟨3, 0⟩, .rw, 4)]⟩
  | .CK_STATUS => ⟨0xFE05000214, [], 4, [(⟨31, 16⟩, .ro, 0)]⟩
  | .BU_STATUS => ⟨0xFE00000000, [], 4, [(⟨31, 16⟩, .ro, 0), (⟨7, 4⟩, .ro, 0), (⟨3, 2⟩, .ro, 0), (⟨1, 0⟩, .ro, 0)]⟩
  | .BU_RST => ⟨0xFE00000004, [], 4, [(⟨23, 12⟩, .wo, 0), (⟨2, 2⟩, .wo, 0), (⟨1, 0⟩, .wo, 0)]⟩
  | .BU_RSTSTAT => ⟨0xFE00000008, [], 4, [(⟨31, 16⟩, .ro, 0), (⟨2, 2⟩, .ro, 0), (⟨1, 0⟩, .ro, 0)]⟩
  | .BU_BIST_CTRL => ⟨0xFE0000000C, [], 4, [(⟨6, 0⟩, .wo, 0)]⟩
  | .BU_BIST_SAVE => ⟨0xFE00000200, [(96, 0x8)], 8, [(⟨47, 12⟩, .rw, 0)]⟩
  | .BU_BISTSTAT => ⟨0xFE00000600, [(96, 0x4)], 4, [(⟨31, 16⟩, .ro, 0), (⟨2, 0⟩, .ro, 0)]⟩
  | .BU_BCSEG => ⟨0xFE00000800, [], 8, [(⟨63, 0⟩, .ro, 0)]⟩
  | .BU_BCRESEND => ⟨0xFE00000808, [], 8, [(⟨63, 0⟩, .ro, 0)]⟩
  | .BU_KATRUN => ⟨0xFE00000810, [], 8, [(⟨63, 0⟩, .ro, 0)]⟩
  | .BU_KATFAIL => ⟨0xFE00000818, [], 8, [(⟨63, 0⟩, .ro, 0)]⟩
  | .BU_BISTRUN => ⟨0xFE00000820, [], 8, [(⟨63, 0⟩, .ro, 0)]⟩
  | .BU_BISTFAIL => ⟨0xFE00000828, [], 8, [(⟨63, 0⟩, .ro, 0)]⟩
  | .BU_RSTCORE => ⟨0xFE00000830, [], 8, [(⟨63, 0⟩, .ro, 0)]⟩
  | .BU_RSTCLUS => ⟨0xFE00000838, [], 8, [(⟨63, 0⟩, .ro, 0)]⟩
  | .BU_RSTPART => ⟨0xFE00000840, [], 8, [(⟨63, 0⟩, .ro, 0)]⟩
  | .BU_READY => ⟨0xFE00001000, [], 1024, []⟩
  | .SC_STATUS => ⟨0xFE06000000, [], 4, [(⟨31, 16⟩, .ro, 0), (⟨15, 8⟩, .ro, 0), (⟨7, 5⟩, .ro, 0), (⟨4, 4⟩, .ro, 0), (⟨3, 3⟩, .ro, 1), (⟨2, 2⟩, .ro, 0)]⟩
  | .SC_OWNSLOT => ⟨0xFE06000004, [], 4, [(⟨15, 8⟩, .ro, 0), (⟨7, 0⟩, .ro, 0)]⟩
  | .SC_LC => ⟨0xFE06000008, [], 4, [(⟨5, 0⟩, .ro, 0)]⟩
  | .SC_DEVID => ⟨0xFE06000040, [], 64, []⟩
  | .SC_CERTHASH => ⟨0xFE06000080, [], 64, []⟩
  | .SC_ATTESTS => ⟨0xFE06000100, [], 8, [(⟨63, 0⟩, .ro, 0)]⟩
  | .SC_TOKACC => ⟨0xFE06000108, [], 8, [(⟨63, 0⟩, .ro, 0)]⟩
  | .SC_TOKREF => ⟨0xFE06000110, [], 8, [(⟨63, 0⟩, .ro, 0)]⟩
  | .SC_SIGFAIL => ⟨0xFE06000118, [], 8, [(⟨63, 0⟩, .ro, 0)]⟩
  | .SC_RNGFAIL => ⟨0xFE06000120, [], 8, [(⟨63, 0⟩, .ro, 0)]⟩
  | .PC_WIN => ⟨0xFE07000000, [], 4, [(⟨19, 0⟩, .rw, 0x3e8)]⟩
  | .PC_STATUS => ⟨0xFE07000004, [], 4, [(⟨31, 16⟩, .ro, 0), (⟨1, 1⟩, .ro, 0), (⟨0, 0⟩, .ro, 0)]⟩
  | .PC_RAKE => ⟨0xFE07000008, [], 4, [(⟨0, 0⟩, .wo, 0)]⟩
  | .PC_SNAP => ⟨0xFE0700000C, [], 4, [(⟨31, 0⟩, .wo, 0)]⟩
  | .PC_WINNO => ⟨0xFE07000010, [], 8, [(⟨63, 0⟩, .ro, 0)]⟩
  | .PC_TT => ⟨0xFE07000018, [], 8, [(⟨63, 0⟩, .ro, 0)]⟩
  | .PC_TRSEED => ⟨0xFE07000020, [], 4, [(⟨31, 0⟩, .rw, 0)]⟩
  | .PC_TRCFG => ⟨0xFE07000040, [(8, 0x4)], 4, [(⟨16, 9⟩, .rw, 0), (⟨8, 8⟩, .rw, 1), (⟨7, 3⟩, .rw, 0x10), (⟨0, 0⟩, .rw, 0)]⟩
  | .PC_SKIP => ⟨0xFE07000100, [], 8, [(⟨63, 0⟩, .ro, 0)]⟩
  | .PC_RAKES => ⟨0xFE07000108, [], 8, [(⟨63, 0⟩, .ro, 0)]⟩
  | .PC_RAKEIMG => ⟨0xFE07100000, [], 1048576, []⟩
  | .PC_TRRING => ⟨0xF00FB00000, [(96, 0x10000000)], 4, [(⟨21, 12⟩, .rw, 0), (⟨7, 4⟩, .rw, 0xc), (⟨0, 0⟩, .rw, 0)]⟩
  | .PC_TRWR => ⟨0xF00FB00008, [(96, 0x10000000)], 8, [(⟨63, 0⟩, .ro, 0)]⟩
  | .PC_TRTAG => ⟨0xF00FB00100, [(96, 0x10000000)], 8, [(⟨63, 0⟩, .ro, 0)]⟩
  | .PC_TRENT => ⟨0xF00FB00108, [(96, 0x10000000)], 8, [(⟨63, 0⟩, .ro, 0)]⟩
  | .PC_TRDROP => ⟨0xF00FB00110, [(96, 0x10000000)], 8, [(⟨63, 0⟩, .ro, 0)]⟩
  | .PC_STRAY => ⟨0xF00FB00118, [(96, 0x10000000)], 8, [(⟨63, 0⟩, .ro, 0)]⟩

/-- Registers 0 and after of the map. -/
def Reg.part0 : List Reg :=
  [.TB_CFG, .TB_DIV, .TB_PERIOD, .TB_STATUS, .TB_TARGET, .TB_POS, .TB_ZLATCH, .TB_REVERSE,
   .TB_TGTDROP, .TB_IN_CFG, .TB_IN_STATUS, .TB_IN_COUNT, .WG_CFG, .WG_WORLDS, .WG_LAGMAX, .WG_ROT,
   .WG_ROTBASE, .WG_CTRL, .WG_STATUS, .WG_STEP, .WG_INSEQ, .WG_SKIPPED, .WG_OVERRUN, .WG_HROUNDS,
   .WG_COHORT, .WG_TALLY, .WG_WSTEP, .NC_CFG, .NC_SIZE, .NC_REC_BASE, .NC_SLOT_BASE, .NC_TOUCH_BASE,
   .NC_NOISE_SEED, .NC_SLEEPDLY, .NC_STATUS, .NC_ERRADDR, .NC_WDROP, .NC_GMAP_A, .NC_GMAP_B, .NC_INTEG]

/-- Registers 40 and after of the map. -/
def Reg.part1 : List Reg :=
  [.NC_SPIKES, .NC_OVERDRIVE, .NC_SYNOPS, .NC_ABSORB, .NC_DCLIP, .NC_HSTALL, .NC_LCONF, .NC_SLEEPCYC,
   .NC_WAKES, .SY_NET, .SY_FO_BASE, .SY_FO_COUNT, .SY_FI_BASE, .SY_FI_COUNT, .SY_WPS_BASE, .SY_KERN,
   .SY_FLITS, .SY_FOCUT, .SY_AXMISS, .SY_NBAD, .SY_KOPS, .SY_MODIN, .SY_IBABS, .SY_EMIT_CFG,
   .SY_EMIT_BASE, .SY_SINK_CFG, .SY_SINK_BASE, .SY_SINK_SHAPE, .SY_SINK_WBASE, .SY_IBQ_STATUS, .SY_EFLITS, .SY_EDROP,
   .SY_SINKADD, .SY_SINKABS, .SY_IBQIN, .LR_CORE_CFG, .LR_ENT, .LR_NENT, .LR_ACC_BASE, .LR_SHD_BASE]

/-- Registers 80 and after of the map. -/
def Reg.part2 : List Reg :=
  [.LR_SEL_BASE, .LR_PCNT_BASE, .LR_CAND_BASE, .LR_CAND_CFG, .LR_MOD_BASE, .LR_MOD_CFG, .LR_PAIRS, .LR_COIN,
   .LR_ACONF, .LR_CANDCHK, .LR_MODABS, .LR_PRUNED, .LR_GRAFTED, .LR_GFULL, .LR_GSKIP, .LR_SET_CFG,
   .LR_SET_EPLEN, .LR_SET_COEF_A, .LR_SET_COEF_B, .LR_SET_RATE, .LR_SET_BOUND, .LR_SET_STRUCT, .LR_SET_GRAFT, .LR_SET_SEED,
   .LR_SET_COMMIT, .LR_SET_CTRL, .LR_SET_STATUS, .LR_SET_WG, .LR_SET_EPOCH, .LR_SET_SKIPLOST, .LR_SET_LOCKWAIT, .KS_CMD,
   .KS_STAGE, .KS_STATUS, .KS_GEN, .KS_GEPOCH, .KS_SEQ, .KS_PAGES, .KS_FREE, .KS_DISCARD]

/-- Registers 120 and after of the map. -/
def Reg.part3 : List Reg :=
  [.KS_WEARMAX, .KS_COMMITS, .KS_PGWRITE, .KS_PGSKIP, .KS_PGBAD, .KS_RESTORES, .MX_CFG, .MX_DQ_TAIL,
   .MX_DQ_HEAD, .MX_CTRL, .MX_STATUS, .MX_SEED, .MX_BIND, .MX_DONE, .MX_MACS, .MX_BUSY,
   .MX_OPWAIT, .MX_DERR, .MX_RERUN, .MX_GREC, .MX_EREC, .VX_CFG, .VX_PC0, .VX_SVC,
   .VX_STATUS, .VX_FPC, .VX_BIND, .VX_INSTR, .VX_XBYTES, .VX_XSTALL, .VX_EMITS, .VX_ELATE,
   .VX_SVCCYC, .VX_FAULTS, .QF_PCFG, .QF_PTOL, .QF_PTBL, .QF_SAT, .QF_UND, .QF_FLAT]

/-- Registers 160 and after of the map. -/
def Reg.part4 : List Reg :=
  [.QF_NAN, .QF_ACCSAT, .QF_RERUNS, .QF_RRCYC, .QF_FAILA, .QF_FAILB, .EF_FENCE, .EF_CTRL,
   .EF_STATUS, .EF_LASTABS, .EF_GOLD, .EF_GOLDSTAT, .EF_REMAPST, .EF_REMAP, .EF_FWD, .EF_DEFL,
   .EF_INJ, .EF_LOCAL, .EF_EJ, .EF_EJDEFL, .EF_SPILL, .EF_OVFL, .EF_SEAMBUSY, .EF_CHKCOR,
   .EF_GOLDCYC, .EF_REMAPPED, .EF_ABS_CHK, .EF_ABS_RSV, .EF_ABS_GRP, .EF_ABS_PART, .EF_ABS_FENCE, .EF_ABS_OFF,
   .EF_ABS_DST, .EF_ABS_HOLE, .EF_FSRC, .TL_CTRL, .TL_STATUS, .TL_FRAME, .TL_LASTERR, .TL_SCFG]

/-- Registers 200 and after of the map. -/
def Reg.part5 : List Reg :=
  [.TL_SSTAT, .TL_SIMG, .TL_SWBEATS, .TL_EPTX, .TL_EPRX, .TL_CORR, .TL_UNCORR, .TL_REFUSED,
   .TL_EPDISC, .TL_CNMSG, .TL_CNRETRY, .TL_CNREROUTE, .TL_TABLE_ACT, .TL_TABLE_INACT, .TL_SMAP, .MQ_CFG,
   .MQ_STATUS, .MQ_COMPOST, .MQ_COMPN, .MQ_LASTBRK, .MQ_CH_CFG, .MQ_CH_RING, .MQ_CH_CCB, .MQ_CH_STAT,
   .MQ_Q_CFG, .MQ_Q_EXPECT, .MQ_Q_ACC, .MQ_Q_OUT, .MQ_Q_CCB, .MQ_Q_STAT, .MQ_SH_CFG, .MQ_SH_SEQ,
   .MQ_SH_ADDR, .MQ_SENT, .MQ_PLACED, .MQ_SKIPS, .MQ_WAITREG, .MQ_BREAKS, .MQ_COMPOSTED, .MQ_QCONTRIB]

/-- Registers 240 and after of the map. -/
def Reg.part6 : List Reg :=
  [.MQ_QROUNDS, .MQ_QLATE, .MQ_QSAT, .MQ_QNAN, .MQ_QOVF, .MQ_BADRD, .MQ_SEND, .BK_OWN,
   .BK_RET, .BK_STATUS, .BK_ARB, .BK_ERRADDR, .BK_RD, .BK_WR, .BK_ALIAS, .BK_DENY,
   .BK_CORR, .BK_UNCORR, .BK_LOSS, .BK_REVOKE, .BK_WAKES, .DM_CFG, .DM_STATUS, .DM_CAPACITY,
   .DM_EBASE, .DM_ARB, .DM_ERRADDR, .DM_HOLD, .DM_GPLOSS, .DM_KSLOSS, .DM_CH_STATUS, .DM_RDB,
   .DM_WRB, .DM_CORR, .DM_UNCORR, .DM_LINKERR, .DM_REFRESH, .DM_RETRAIN, .DM_LOSS, .DM_REVOKE]

/-- Registers 280 and after of the map. -/
def Reg.part7 : List Reg :=
  [.GP_PART_CFG, .GP_PART_STATUS, .GP_PART_CL0, .GP_PART_CL1, .GP_PART_CL2, .GP_PART_BASE, .GP_PART_SIZE, .GP_PART_KSHARE,
   .GP_MAP, .GP_PCFG, .GP_PSTATUS, .GP_PCTRL, .GP_EVSRC, .GP_EVBIND, .GP_COMPOST, .GP_COMPN,
   .GP_HC_CFG, .GP_SH_ADDR, .GP_ADMIN, .GP_HRD, .GP_HWR, .GP_OOR, .GP_WDROP, .GP_BADCW,
   .GP_TORN, .GP_CMDS, .GP_CMDFAIL, .GP_SCANS, .GP_EVINJ, .GP_EVDROP, .GP_HCMSG, .GP_WCORR,
   .GP_WUNCORR, .GP_LINKERR, .GP_REFCMD, .SM_STATUS, .SM_CAPW2E, .SM_CAPE2W, .SM_LOADW2E, .SM_LOADE2W]

/-- Registers 320 and after of the map. -/
def Reg.part8 : List Reg :=
  [.SM_LINK, .SM_LREASON, .SM_HOLDMAX, .SM_EVX, .SM_EVWAIT, .SM_TBEATS, .SM_HOLD, .SM_ABS_SPLIT,
   .SM_RESTRIPE, .SM_CELLS, .SM_CRCERR, .SM_REPLAY, .PW_REQ, .PW_STAT, .PW_WAKES, .PW_STATUS,
   .PW_PCAP, .PW_THERM, .PW_PKSTR, .PW_TEMP, .PW_DROOP, .PW_DSTR, .CK_CORE, .CK_FAB,
   .CK_VID, .CK_DROOP, .CK_STATUS, .BU_STATUS, .BU_RST, .BU_RSTSTAT, .BU_BIST_CTRL, .BU_BIST_SAVE,
   .BU_BISTSTAT, .BU_BCSEG, .BU_BCRESEND, .BU_KATRUN, .BU_KATFAIL, .BU_BISTRUN, .BU_BISTFAIL, .BU_RSTCORE]

/-- Registers 360 and after of the map. -/
def Reg.part9 : List Reg :=
  [.BU_RSTCLUS, .BU_RSTPART, .BU_READY, .SC_STATUS, .SC_OWNSLOT, .SC_LC, .SC_DEVID, .SC_CERTHASH,
   .SC_ATTESTS, .SC_TOKACC, .SC_TOKREF, .SC_SIGFAIL, .SC_RNGFAIL, .PC_WIN, .PC_STATUS, .PC_RAKE,
   .PC_SNAP, .PC_WINNO, .PC_TT, .PC_TRSEED, .PC_TRCFG, .PC_SKIP, .PC_RAKES, .PC_RAKEIMG,
   .PC_TRRING, .PC_TRWR, .PC_TRTAG, .PC_TRENT, .PC_TRDROP, .PC_STRAY]

/-- Every register of the map. -/
def Reg.all : List Reg :=
  Reg.part0 ++ Reg.part1 ++ Reg.part2 ++ Reg.part3 ++ Reg.part4 ++ Reg.part5 ++ Reg.part6 ++ Reg.part7 ++ Reg.part8 ++ Reg.part9

/-- TB_CFG.PART (R83): Owning partition, 0–7 -/
def TB_CFG_PART : Fld := ⟨10, 8⟩
/-- TB_CFG.ZMODE (R83): 0: ignore Z; 1: latch; 2: latch and realign; 3: reserved -/
def TB_CFG_ZMODE : Fld := ⟨7, 6⟩
/-- TB_CFG.INPUT (R83): Input channel TBI0–TBI7 for SRC 0 -/
def TB_CFG_INPUT : Fld := ⟨5, 3⟩
/-- TB_CFG.SRC (R83): 0: input channel; 1: periodic; 2: host target; 3: reserved -/
def TB_CFG_SRC : Fld := ⟨2, 1⟩
/-- TB_CFG.EN (R83): 0: disabled; 1: enabled -/
def TB_CFG_EN : Fld := ⟨0, 0⟩
/-- TB_DIV.DIV_M1 (R84): Counts per step, minus one -/
def TB_DIV_DIV_M1 : Fld := ⟨15, 0⟩
/-- TB_STATUS.INERR (R84): 1: illegal input transition since last cleared -/
def TB_STATUS_INERR : Fld := ⟨2, 2⟩
/-- TB_STATUS.BACK (R84): 1: net count below P -/
def TB_STATUS_BACK : Fld := ⟨1, 1⟩
/-- TB_STATUS.RUN (R84): 1: enabled, whether or not the target is advancing at present; 0: disabled -/
def TB_STATUS_RUN : Fld := ⟨0, 0⟩
/-- TB_IN_CFG.DIRSWAP (R84): 1: quadrature direction reversed -/
def TB_IN_CFG_DIRSWAP : Fld := ⟨8, 8⟩
/-- TB_IN_CFG.POL_Z (R84): 1: Z active low -/
def TB_IN_CFG_POL_Z : Fld := ⟨7, 7⟩
/-- TB_IN_CFG.POL_B (R84): 1: B inverted -/
def TB_IN_CFG_POL_B : Fld := ⟨6, 6⟩
/-- TB_IN_CFG.POL_A (R84): 1: A inverted -/
def TB_IN_CFG_POL_A : Fld := ⟨5, 5⟩
/-- TB_IN_CFG.FILT (R84): Filter length, FILT + 1 samples -/
def TB_IN_CFG_FILT : Fld := ⟨4, 2⟩
/-- TB_IN_CFG.MODE (R84): 0: off; 1: quadrature; 2: step and direction; 3: pulse -/
def TB_IN_CFG_MODE : Fld := ⟨1, 0⟩
/-- TB_IN_STATUS.ERRCNT (R85): Illegal transitions, saturating -/
def TB_IN_STATUS_ERRCNT : Fld := ⟨31, 16⟩
/-- TB_IN_STATUS.Z (R85): Filtered Z level -/
def TB_IN_STATUS_Z : Fld := ⟨2, 2⟩
/-- TB_IN_STATUS.B (R85): Filtered B level -/
def TB_IN_STATUS_B : Fld := ⟨1, 1⟩
/-- TB_IN_STATUS.A (R85): Filtered A level -/
def TB_IN_STATUS_A : Fld := ⟨0, 0⟩
/-- WG_CFG.NET (R86): Network number, 0–63 -/
def WG_CFG_NET : Fld := ⟨21, 16⟩
/-- WG_CFG.INFENCE (R86): 1: input fence on -/
def WG_CFG_INFENCE : Fld := ⟨13, 13⟩
/-- WG_CFG.ROT (R86): 1: rotation on -/
def WG_CFG_ROT : Fld := ⟨12, 12⟩
/-- WG_CFG.OVR (R86): 0: catch up; 1: skip; 2: halt; 3: reserved -/
def WG_CFG_OVR : Fld := ⟨11, 10⟩
/-- WG_CFG.PART (R86): Owning partition, 0–7 -/
def WG_CFG_PART : Fld := ⟨9, 7⟩
/-- WG_CFG.TB (R86): Timebase, 0–63 -/
def WG_CFG_TB : Fld := ⟨6, 1⟩
/-- WG_CFG.EN (R86): 0: disabled; 1: enabled -/
def WG_CFG_EN : Fld := ⟨0, 0⟩
/-- WG_WORLDS.COUNT_M1 (R86): World count, minus one -/
def WG_WORLDS_COUNT_M1 : Fld := ⟨29, 16⟩
/-- WG_WORLDS.BASE (R86): First world number -/
def WG_WORLDS_BASE : Fld := ⟨13, 0⟩
/-- WG_ROT.RUN (R87): Steps per residency, 1–65,535; 0 is reserved, and the check refuses it with 0x0104 when ROT = 1 -/
def WG_ROT_RUN : Fld := ⟨31, 16⟩
/-- WG_ROT.RESIDENT_M1 (R87): Resident worlds, minus one -/
def WG_ROT_RESIDENT_M1 : Fld := ⟨13, 0⟩
/-- WG_CTRL.REALIGN (R87): 1 with RESUME: jump to L = 1 -/
def WG_CTRL_REALIGN : Fld := ⟨2, 2⟩
/-- WG_CTRL.RESUME (R87): 1: leave HALTED -/
def WG_CTRL_RESUME : Fld := ⟨1, 1⟩
/-- WG_CTRL.HALT (R87): 1: halt at the next harvest; reason 0x0180 -/
def WG_CTRL_HALT : Fld := ⟨0, 0⟩
/-- WG_STATUS.REASON (R87): Halt reason while HALTED. In DISABLED, it reads 0x0185 or 0x0F82 when a release or a partition reset disabled the group, and 0 otherwise. It reads 0 in every other state -/
def WG_STATUS_REASON : Fld := ⟨31, 16⟩
/-- WG_STATUS.OVR (R87): 1: L > WG_LAGMAX now -/
def WG_STATUS_OVR : Fld := ⟨5, 5⟩
/-- WG_STATUS.WAIT_IN (R87): 1: waiting on the input fence -/
def WG_STATUS_WAIT_IN : Fld := ⟨4, 4⟩
/-- WG_STATUS.WAIT_TB (R87): 1: waiting on the timebase, L = 0 -/
def WG_STATUS_WAIT_TB : Fld := ⟨3, 3⟩
/-- WG_STATUS.STATE (R87): 0: DISABLED; 1: WAITING; 2: STEPPING; 3: HARVESTING; 4: SWAPPING; 5: EPOCH; 6: HALTED; 7: reserved -/
def WG_STATUS_STATE : Fld := ⟨2, 0⟩
/-- WG_HROUNDS.MOST (R82): most rounds in one step -/
def WG_HROUNDS_MOST : Fld := ⟨31, 16⟩
/-- WG_HROUNDS.LAST (R82): rounds in the last closed step -/
def WG_HROUNDS_LAST : Fld := ⟨15, 0⟩
/-- NC_CFG.DEPTH_M1 (R119): Ring depth D, minus one -/
def NC_CFG_DEPTH_M1 : Fld := ⟨13, 8⟩
/-- NC_CFG.SLEEP (R119): 1: sleep permitted -/
def NC_CFG_SLEEP : Fld := ⟨1, 1⟩
/-- NC_CFG.EN (R119): 0: disabled; 1: enabled, power tables filled -/
def NC_CFG_EN : Fld := ⟨0, 0⟩
/-- NC_SIZE.NINST (R119): Instances allocated, 0–32,768 -/
def NC_SIZE_NINST : Fld := ⟨16, 0⟩
/-- NC_REC_BASE.BASE (R119): Region base, store address bits [19:8] -/
def NC_REC_BASE_BASE : Fld := ⟨19, 8⟩
/-- NC_SLOT_BASE.BASE (R119): Region base, store address bits [19:8] -/
def NC_SLOT_BASE_BASE : Fld := ⟨19, 8⟩
/-- NC_TOUCH_BASE.BASE (R119): Region base, store address bits [19:8] -/
def NC_TOUCH_BASE_BASE : Fld := ⟨19, 8⟩
/-- NC_SLEEPDLY.CYCLES (R120): Idle core cycles before sleep -/
def NC_SLEEPDLY_CYCLES : Fld := ⟨15, 0⟩
/-- NC_STATUS.WAKESRC (R120): Last wake: 0: none; 1: flit; 2: step open; 3: store or register access; 4: settle or swap; 5–15: reserved -/
def NC_STATUS_WAKESRC : Fld := ⟨11, 8⟩
/-- NC_STATUS.ECCERR (R120): 1: uncorrectable error under R115 -/
def NC_STATUS_ECCERR : Fld := ⟨3, 3⟩
/-- NC_STATUS.STATE (R120): 0: DISABLED; 1: IDLE; 2: INTEGRATING; 3: DELIVERING; 4: SLEEP; 5: SETTLING; 6: SWAPPING; 7: FILLING power tables -/
def NC_STATUS_STATE : Fld := ⟨2, 0⟩
/-- NC_GMAP_A.NET (R121): Network, 0–63 -/
def NC_GMAP_A_NET : Fld := ⟨14, 9⟩
/-- NC_GMAP_A.WG (R121): World group, 0–255 -/
def NC_GMAP_A_WG : Fld := ⟨8, 1⟩
/-- NC_GMAP_A.EN (R121): 1: entry in use -/
def NC_GMAP_A_EN : Fld := ⟨0, 0⟩
/-- NC_GMAP_B.NPW_M1 (R121): Neurons of the network on this core per world, minus one -/
def NC_GMAP_B_NPW_M1 : Fld := ⟨30, 16⟩
/-- NC_GMAP_B.IBASE (R121): First instance index of the group -/
def NC_GMAP_B_IBASE : Fld := ⟨14, 0⟩
/-- SY_NET.NET (R155): Network, 0–63 -/
def SY_NET_NET : Fld := ⟨6, 1⟩
/-- SY_NET.EN (R155): 0: slot unused; 1: enabled -/
def SY_NET_EN : Fld := ⟨0, 0⟩
/-- SY_FO_BASE.BASE (R155): Region base, store address bits [19:8] -/
def SY_FO_BASE_BASE : Fld := ⟨19, 8⟩
/-- SY_FO_COUNT.NSRC (R155): Directory words, 0–32,768 -/
def SY_FO_COUNT_NSRC : Fld := ⟨16, 0⟩
/-- SY_FI_BASE.BASE (R155): Region base, store address bits [19:8] -/
def SY_FI_BASE_BASE : Fld := ⟨19, 8⟩
/-- SY_FI_COUNT.NAXON (R155): Axons, 0–65,536 -/
def SY_FI_COUNT_NAXON : Fld := ⟨16, 0⟩
/-- SY_WPS_BASE.BASE (R155): Region base, store address bits [19:8] -/
def SY_WPS_BASE_BASE : Fld := ⟨19, 8⟩
/-- SY_KERN.BASE (R155): Descriptor base, store address bits [19:8] -/
def SY_KERN_BASE : Fld := ⟨19, 8⟩
/-- SY_KERN.NKERN (R155): Descriptors, 0–8 -/
def SY_KERN_NKERN : Fld := ⟨3, 0⟩
/-- SY_EMIT_CFG.NSRC (R156): Directory words, 0–65,536 -/
def SY_EMIT_CFG_NSRC : Fld := ⟨17, 1⟩
/-- SY_EMIT_CFG.EN (R156): 1: emit port enabled -/
def SY_EMIT_CFG_EN : Fld := ⟨0, 0⟩
/-- SY_EMIT_BASE.BASE (R156): Bank-space offset bits [21:12] of the table space -/
def SY_EMIT_BASE_BASE : Fld := ⟨21, 12⟩
/-- SY_SINK_CFG.PZP (R156): Payload zero point, signed -/
def SY_SINK_CFG_PZP : Fld := ⟨31, 24⟩
/-- SY_SINK_CFG.PFMT (R156): Payload format, encoded as in R94 -/
def SY_SINK_CFG_PFMT : Fld := ⟨6, 4⟩
/-- SY_SINK_CFG.EN (R156): 1: sink enabled -/
def SY_SINK_CFG_EN : Fld := ⟨0, 0⟩
/-- SY_SINK_BASE.BASE (R156): Bank-space offset bits [21:8] -/
def SY_SINK_BASE_BASE : Fld := ⟨21, 8⟩
/-- SY_SINK_SHAPE.NELEM_M1 (R156): Elements per world, minus one -/
def SY_SINK_SHAPE_NELEM_M1 : Fld := ⟨31, 16⟩
/-- SY_SINK_SHAPE.NWORLD_M1 (R156): Worlds, minus one -/
def SY_SINK_SHAPE_NWORLD_M1 : Fld := ⟨13, 0⟩
/-- LR_CORE_CFG.SET (R198): Learning set, 0–15 -/
def LR_CORE_CFG_SET : Fld := ⟨7, 4⟩
/-- LR_CORE_CFG.SLOT (R198): Network slot, 0–7 -/
def LR_CORE_CFG_SLOT : Fld := ⟨3, 1⟩
/-- LR_CORE_CFG.EN (R198): 1: the core holds the set -/
def LR_CORE_CFG_EN : Fld := ⟨0, 0⟩
/-- LR_ENT.LO (R196): LO, first entry word address -/
def LR_ENT_LO : Fld := ⟨17, 0⟩
/-- LR_NENT.NENT (R196): NENT, 0–65,536 -/
def LR_NENT_NENT : Fld := ⟨16, 0⟩
/-- LR_ACC_BASE.BASE (R196): Region base, as NC_REC_BASE -/
def LR_ACC_BASE_BASE : Fld := ⟨19, 8⟩
/-- LR_SHD_BASE.BASE (R196): Region base, as NC_REC_BASE -/
def LR_SHD_BASE_BASE : Fld := ⟨19, 8⟩
/-- LR_SEL_BASE.BASE (R196): Region base, as NC_REC_BASE -/
def LR_SEL_BASE_BASE : Fld := ⟨19, 8⟩
/-- LR_PCNT_BASE.BASE (R196): Region base, as NC_REC_BASE -/
def LR_PCNT_BASE_BASE : Fld := ⟨19, 8⟩
/-- LR_CAND_BASE.BASE (R196): Region base, as NC_REC_BASE -/
def LR_CAND_BASE_BASE : Fld := ⟨19, 8⟩
/-- LR_CAND_CFG.NCAND (R196): NCAND -/
def LR_CAND_CFG_NCAND : Fld := ⟨10, 0⟩
/-- LR_MOD_BASE.BASE (R196): Region base, as NC_REC_BASE -/
def LR_MOD_BASE_BASE : Fld := ⟨19, 8⟩
/-- LR_MOD_CFG.NMOD_M1 (R198): Modulators, minus one -/
def LR_MOD_CFG_NMOD_M1 : Fld := ⟨5, 4⟩
/-- LR_MOD_CFG.NWLOG (R198): World entries 2^NWLOG; 0–14; 15: reserved -/
def LR_MOD_CFG_NWLOG : Fld := ⟨3, 0⟩
/-- LR_SET_CFG.CLIP (R198): Contribution bound 2^CLIP − 1; 0–24; 25–31: reserved -/
def LR_SET_CFG_CLIP : Fld := ⟨28, 24⟩
/-- LR_SET_CFG.MAXD_M1 (R198): Deliveries per synapse per world step, minus one -/
def LR_SET_CFG_MAXD_M1 : Fld := ⟨23, 20⟩
/-- LR_SET_CFG.PART (R198): Partition, 0–7 -/
def LR_SET_CFG_PART : Fld := ⟨19, 17⟩
/-- LR_SET_CFG.MIDX (R198): Modulator used by pairing -/
def LR_SET_CFG_MIDX : Fld := ⟨15, 14⟩
/-- LR_SET_CFG.NET (R198): Network, 0–63 -/
def LR_SET_CFG_NET : Fld := ⟨13, 8⟩
/-- LR_SET_CFG.LOCK (R198): 1: epoch lock -/
def LR_SET_CFG_LOCK : Fld := ⟨1, 1⟩
/-- LR_SET_CFG.EN (R198): 1: enabled -/
def LR_SET_CFG_EN : Fld := ⟨0, 0⟩
/-- LR_SET_EPLEN.EPLEN (R196): EPLEN, 1–65,535 -/
def LR_SET_EPLEN_EPLEN : Fld := ⟨15, 0⟩
/-- LR_SET_COEF_A.CD (R196): CD -/
def LR_SET_COEF_A_CD : Fld := ⟨31, 16⟩
/-- LR_SET_COEF_A.CP (R196): CP -/
def LR_SET_COEF_A_CP : Fld := ⟨15, 0⟩
/-- LR_SET_COEF_B.CC (R196): CC, S1.14 -/
def LR_SET_COEF_B_CC : Fld := ⟨31, 16⟩
/-- LR_SET_COEF_B.MG (R196): MG, U4.4 -/
def LR_SET_COEF_B_MG : Fld := ⟨15, 8⟩
/-- LR_SET_COEF_B.SH (R196): SH -/
def LR_SET_COEF_B_SH : Fld := ⟨5, 0⟩
/-- LR_SET_RATE.LRE (R196): LRE -/
def LR_SET_RATE_LRE : Fld := ⟨20, 16⟩
/-- LR_SET_RATE.LRM (R196): LRM, U0.16 -/
def LR_SET_RATE_LRM : Fld := ⟨15, 0⟩
/-- LR_SET_BOUND.WHI (R196): WHI -/
def LR_SET_BOUND_WHI : Fld := ⟨31, 16⟩
/-- LR_SET_BOUND.WLO (R196): WLO -/
def LR_SET_BOUND_WLO : Fld := ⟨15, 0⟩
/-- LR_SET_STRUCT.PK (R196): PK, 0: off -/
def LR_SET_STRUCT_PK : Fld := ⟨31, 28⟩
/-- LR_SET_STRUCT.GTH (R196): GTH, 0: off -/
def LR_SET_STRUCT_GTH : Fld := ⟨27, 16⟩
/-- LR_SET_STRUCT.PTH (R196): PTH, U10.6 -/
def LR_SET_STRUCT_PTH : Fld := ⟨15, 0⟩
/-- LR_SET_GRAFT.GMAX (R196): GMAX -/
def LR_SET_GRAFT_GMAX : Fld := ⟨15, 8⟩
/-- LR_SET_GRAFT.GW0 (R196): GW0, weight code -/
def LR_SET_GRAFT_GW0 : Fld := ⟨7, 0⟩
/-- LR_SET_COMMIT.EVERY (R196): EVERY, 0: no automatic commit -/
def LR_SET_COMMIT_EVERY : Fld := ⟨15, 0⟩
/-- LR_SET_CTRL.COMMIT (R196): COMMIT: same as KS_CMD OP 1 for this set -/
def LR_SET_CTRL_COMMIT : Fld := ⟨0, 0⟩
/-- LR_SET_STATUS.REASON (R198): Last halt or failure code; 0: none -/
def LR_SET_STATUS_REASON : Fld := ⟨31, 16⟩
/-- LR_SET_STATUS.WAITWG (R198): Group holding the epoch end -/
def LR_SET_STATUS_WAITWG : Fld := ⟨15, 8⟩
/-- LR_SET_STATUS.FENCED (R198): Fenced cores left out, saturating at 15 -/
def LR_SET_STATUS_FENCED : Fld := ⟨7, 4⟩
/-- LR_SET_STATUS.WAIT (R198): 1: waiting for writer groups -/
def LR_SET_STATUS_WAIT : Fld := ⟨3, 3⟩
/-- LR_SET_STATUS.STAGE (R198): 0: DISABLED; 1: RUNNING; 2: UPDATE; 3: STRUCTURE; 4: FLIP; 5: SUSPENDED, the structural stage is done and the flip waits for a capture under R187; 6: HALTED; 7: reserved -/
def LR_SET_STATUS_STAGE : Fld := ⟨2, 0⟩
/-- KS_CMD.SET (R199): Learning set -/
def KS_CMD_SET : Fld := ⟨7, 4⟩
/-- KS_CMD.OP (R199): 0: none, the write has no effect and runs no check; 1: commit; 2: restore; 3–15: reserved, refused with 0x0418 -/
def KS_CMD_OP : Fld := ⟨3, 0⟩
/-- KS_STATUS.REASON (R199): Last refusal or failure code of this partition; 0: none -/
def KS_STATUS_REASON : Fld := ⟨31, 16⟩
/-- KS_STATUS.UNREACH (R199): 1: the committed generation references pages in banks of a half that is not in service, under R191 -/
def KS_STATUS_UNREACH : Fld := ⟨5, 5⟩
/-- KS_STATUS.WAITING (R199): 1: this partition has a commit queued -/
def KS_STATUS_WAITING : Fld := ⟨4, 4⟩
/-- KS_STATUS.SPLIT (R199): 1: split state; commits refused -/
def KS_STATUS_SPLIT : Fld := ⟨3, 3⟩
/-- KS_STATUS.STATE (R199): 0: IDLE; 1: CAPTURE; 2: COMPARE AND PROGRAM; 3: ROOT; 4: RESTORE; 5–7: reserved -/
def KS_STATUS_STATE : Fld := ⟨2, 0⟩
/-- KS_FREE.SPARE (R196): spare pages left -/
def KS_FREE_SPARE : Fld := ⟨31, 16⟩
/-- KS_FREE.FREE (R196): free pages -/
def KS_FREE_FREE : Fld := ⟨15, 0⟩
/-- KS_DISCARD.SLOT (R196): slot of the winning root -/
def KS_DISCARD_SLOT : Fld := ⟨31, 16⟩
/-- KS_DISCARD.FREED (R196): pages freed at the last start -/
def KS_DISCARD_FREED : Fld := ⟨15, 0⟩
/-- MX_CFG.PREF (R240): 1: prefetch under R209 -/
def MX_CFG_PREF : Fld := ⟨1, 1⟩
/-- MX_CFG.EN (R240): 1: enabled -/
def MX_CFG_EN : Fld := ⟨0, 0⟩
/-- MX_CTRL.ABORT (R238): ABORT -/
def MX_CTRL_ABORT : Fld := ⟨0, 0⟩
/-- MX_STATUS.REASON (R240): Last failure code; 0: none -/
def MX_STATUS_REASON : Fld := ⟨31, 16⟩
/-- MX_STATUS.TDROP (R240): 1: a tail write was ignored -/
def MX_STATUS_TDROP : Fld := ⟨4, 4⟩
/-- MX_STATUS.RESV (R240): 1: the resident region holds a weight tensor -/
def MX_STATUS_RESV : Fld := ⟨3, 3⟩
/-- MX_STATUS.STATE (R240): 0: DISABLED; 1: IDLE; 2: LOADING; 3: RUNNING; 4: WAIT_STEP; 5: OFF; 6: ABORTING; 7: reserved -/
def MX_STATUS_STATE : Fld := ⟨2, 0⟩
/-- MX_BIND.WG (R240): World group -/
def MX_BIND_WG : Fld := ⟨8, 1⟩
/-- MX_BIND.EN (R240): 1: bound -/
def MX_BIND_EN : Fld := ⟨0, 0⟩
/-- VX_CFG.STDSVC (R240): 1: standard service program -/
def VX_CFG_STDSVC : Fld := ⟨1, 1⟩
/-- VX_CFG.EN (R240): 0 to 1: context 0 starts; 1 to 0: stops at the next boundary -/
def VX_CFG_EN : Fld := ⟨0, 0⟩
/-- VX_PC0.ADDR (R240): Word address -/
def VX_PC0_ADDR : Fld := ⟨16, 2⟩
/-- VX_SVC.ADDR (R240): Word address -/
def VX_SVC_ADDR : Fld := ⟨16, 2⟩
/-- VX_STATUS.REASON (R240): Last fault code; 0: none -/
def VX_STATUS_REASON : Fld := ⟨31, 16⟩
/-- VX_STATUS.SVC (R240): 1: context 1 running -/
def VX_STATUS_SVC : Fld := ⟨3, 3⟩
/-- VX_STATUS.STATE (R240): Context 0: 0: DISABLED; 1: RUNNING; 2: WAITING; 3: HALTED; 4: FAULT; 5–7: reserved -/
def VX_STATUS_STATE : Fld := ⟨2, 0⟩
/-- VX_FPC.ADDR (R240): Word address of the fault -/
def VX_FPC_ADDR : Fld := ⟨16, 2⟩
/-- VX_FPC.CTX (R240): Context of the fault -/
def VX_FPC_CTX : Fld := ⟨0, 0⟩
/-- VX_BIND.WG (R240): World group -/
def VX_BIND_WG : Fld := ⟨8, 1⟩
/-- VX_BIND.EN (R240): 1: bound -/
def VX_BIND_EN : Fld := ⟨0, 0⟩
/-- QF_PCFG.RSTEPS (R266): Wider re-runs permitted per descriptor, 0–3; 0: none -/
def QF_PCFG_RSTEPS : Fld := ⟨17, 16⟩
/-- QF_PCFG.AMODE (R266): 0: blocked; 1: quantised on load with scales computed on the fly; 2: quantised on load with the static table; 3: plain -/
def QF_PCFG_AMODE : Fld := ⟨15, 14⟩
/-- QF_PCFG.WMODE (R266): 0: blocked, transposed; 1: plain -/
def QF_PCFG_WMODE : Fld := ⟨13, 13⟩
/-- QF_PCFG.OMODE (R266): 0: plain; 1: blocked -/
def QF_PCFG_OMODE : Fld := ⟨12, 12⟩
/-- QF_PCFG.GSIZE (R266): 0: 32; 1: 64; 2: 128; 3: reserved -/
def QF_PCFG_GSIZE : Fld := ⟨11, 10⟩
/-- QF_PCFG.ASRC (R266): Format code of A in memory: 0: FP32; 1: FP16; 2: BF16; 11: S16.16; others reserved -/
def QF_PCFG_ASRC : Fld := ⟨7, 4⟩
/-- QF_PCFG.EN (R266): 1: profile enabled -/
def QF_PCFG_EN : Fld := ⟨0, 0⟩
/-- QF_PTOL.TUND (R266): Underflows tolerated per group; 255: never fails -/
def QF_PTOL_TUND : Fld := ⟨15, 8⟩
/-- QF_PTOL.TSAT (R266): Saturations tolerated per group; 255: never fails -/
def QF_PTOL_TSAT : Fld := ⟨7, 0⟩
/-- QF_PTBL.BASE (R266): Device address bits [47:6] of the table -/
def QF_PTBL_BASE : Fld := ⟨47, 6⟩
/-- QF_FAILA.TAG (R266): TAG of the descriptor -/
def QF_FAILA_TAG : Fld := ⟨31, 16⟩
/-- QF_FAILA.FROM (R266): Format code of the run that failed first -/
def QF_FAILA_FROM : Fld := ⟨15, 12⟩
/-- QF_FAILA.TO (R266): Format code in which the descriptor completed; 0xF: it failed -/
def QF_FAILA_TO : Fld := ⟨11, 8⟩
/-- QF_FAILA.CAUSE (R266): 0: underflows; 1: saturations, or both -/
def QF_FAILA_CAUSE : Fld := ⟨0, 0⟩
/-- QF_FAILB.ROW (R266): Row of A; for CONV, the row of the equivalent multiply under R215 -/
def QF_FAILB_ROW : Fld := ⟨31, 16⟩
/-- QF_FAILB.KGROUP (R266): K-group index -/
def QF_FAILB_KGROUP : Fld := ⟨15, 0⟩
/-- EF_FENCE.FENCE (R292): Bit c: engine in core slot c fenced -/
def EF_FENCE_FENCE : Fld := ⟨18, 0⟩
/-- EF_CTRL.FRESET (R291): FRESET, steward only -/
def EF_CTRL_FRESET : Fld := ⟨0, 0⟩
/-- EF_STATUS.SPILL (R292): Spill level, 0–256 -/
def EF_STATUS_SPILL : Fld := ⟨22, 14⟩
/-- EF_STATUS.AGEMAX (R292): Highest AGE ejected since the cluster reset -/
def EF_STATUS_AGEMAX : Fld := ⟨13, 8⟩
/-- EF_STATUS.GOLDEN (R292): 1: this cluster is golden -/
def EF_STATUS_GOLDEN : Fld := ⟨7, 7⟩
/-- EF_STATUS.HOLES (R292): Bit per neighbour, N, E, S, W from [5]: 1: that neighbour is a hole -/
def EF_STATUS_HOLES : Fld := ⟨5, 2⟩
/-- EF_STATUS.STATE (R292): 0: FORWARDING; 1: HOLE; 2: PERMANENT HOLE; 3: reserved -/
def EF_STATUS_STATE : Fld := ⟨1, 0⟩
/-- EF_LASTABS.CAUSE (R292): Check of R278, 1–7; 8: DY 6 or 7, or, in the split state, DH naming the other half under R455; 9: permanent hole; 0: none -/
def EF_LASTABS_CAUSE : Fld := ⟨31, 28⟩
/-- EF_LASTABS.SRC (R292): SRC of the flit, H, X, Y, C -/
def EF_LASTABS_SRC : Fld := ⟨11, 0⟩
/-- EF_GOLD.PERIOD (R292): Period in units of 256 fabric cycles; values 0–8 act as 9 -/
def EF_GOLD_PERIOD : Fld := ⟨15, 8⟩
/-- EF_GOLD.OLDAGE (R292): Age that marks a source, 1–62; 0 and 63 act as 32 -/
def EF_GOLD_OLDAGE : Fld := ⟨7, 2⟩
/-- EF_GOLD.EN (R292): 1: rotation on; 0: off, and R277 does not hold -/
def EF_GOLD_EN : Fld := ⟨0, 0⟩
/-- EF_GOLDSTAT.ACTIVE (R291): ACTIVE -/
def EF_GOLDSTAT_ACTIVE : Fld := ⟨7, 7⟩
/-- EF_GOLDSTAT.ID (R291): golden cluster_id -/
def EF_GOLDSTAT_ID : Fld := ⟨6, 0⟩
/-- EF_REMAPST.REASON (R291): last refusal code -/
def EF_REMAPST_REASON : Fld := ⟨31, 16⟩
/-- EF_REMAPST.ENTRY (R291): entry -/
def EF_REMAPST_ENTRY : Fld := ⟨3, 0⟩
/-- EF_REMAP.EN (R292): 1: entry enabled, after the check of R285 -/
def EF_REMAP_EN : Fld := ⟨31, 31⟩
/-- EF_REMAP.PART (R292): Partition, 0–7 -/
def EF_REMAP_PART : Fld := ⟨30, 28⟩
/-- EF_REMAP.FROM (R292): Fenced coordinate, H, X, Y, C -/
def EF_REMAP_FROM : Fld := ⟨23, 12⟩
/-- EF_REMAP.TO (R292): Spare coordinate, H, X, Y, C -/
def EF_REMAP_TO : Fld := ⟨11, 0⟩
/-- TL_CTRL.RESUME (R324): RESUME -/
def TL_CTRL_RESUME : Fld := ⟨1, 1⟩
/-- TL_CTRL.QUIESCE (R324): QUIESCE -/
def TL_CTRL_QUIESCE : Fld := ⟨0, 0⟩
/-- TL_STATUS.QUIET (R326): 1: the half is quiesced -/
def TL_STATUS_QUIET : Fld := ⟨2, 2⟩
/-- TL_STATUS.ACT (R326): Copy in force, TL_ACTIVE -/
def TL_STATUS_ACT : Fld := ⟨1, 1⟩
/-- TL_STATUS.SUSP (R326): 1: a schedule with a field here is suspended -/
def TL_STATUS_SUSP : Fld := ⟨0, 0⟩
/-- TL_LASTERR.CODE (R326): Reason code; 0: none -/
def TL_LASTERR_CODE : Fld := ⟨63, 48⟩
/-- TL_LASTERR.ADDR (R326): Device address of the failed piece -/
def TL_LASTERR_ADDR : Fld := ⟨47, 0⟩
/-- TL_SCFG.NREC (R326): Records, 1–4,096 -/
def TL_SCFG_NREC : Fld := ⟨25, 13⟩
/-- TL_SCFG.PART (R326): Owning partition -/
def TL_SCFG_PART : Fld := ⟨4, 2⟩
/-- TL_SCFG.SVC (R326): 1: service schedule -/
def TL_SCFG_SVC : Fld := ⟨1, 1⟩
/-- TL_SCFG.EN (R326): 1: enabled -/
def TL_SCFG_EN : Fld := ⟨0, 0⟩
/-- TL_SSTAT.REASON (R326): Last refusal or failure; 0: none -/
def TL_SSTAT_REASON : Fld := ⟨31, 16⟩
/-- TL_SSTAT.STATE (R326): 0: DISABLED; 1: LOADING; 2: ACTIVE; 3: SUSPENDED; 4: DRAINING; 5: BROKEN; 6–7: reserved -/
def TL_SSTAT_STATE : Fld := ⟨2, 0⟩
/-- MQ_CFG.WAITDLY_M1 (R356): Wait delay, µs, minus one -/
def MQ_CFG_WAITDLY_M1 : Fld := ⟨3, 0⟩
/-- MQ_STATUS.REASON (R356): Last code posted; 0: none -/
def MQ_STATUS_REASON : Fld := ⟨31, 16⟩
/-- MQ_STATUS.CMPFULL (R356): 1: a break found no free slot -/
def MQ_STATUS_CMPFULL : Fld := ⟨0, 0⟩
/-- MQ_COMPN.FREE (R356): Free slots -/
def MQ_COMPN_FREE : Fld := ⟨31, 16⟩
/-- MQ_COMPN.NSLOT (R356): Slots, 0–65,535 -/
def MQ_COMPN_NSLOT : Fld := ⟨15, 0⟩
/-- MQ_LASTBRK.CODE (R356): 0x0980, 0x0981 or 0x0982 -/
def MQ_LASTBRK_CODE : Fld := ⟨63, 48⟩
/-- MQ_LASTBRK.SENDER (R356): Coordinate under R348 -/
def MQ_LASTBRK_SENDER : Fld := ⟨32, 20⟩
/-- MQ_LASTBRK.TARGET (R356): As the TARGET field of the slot header -/
def MQ_LASTBRK_TARGET : Fld := ⟨6, 0⟩
/-- MQ_CH_CFG.LOG2SIZE (R356): Ring size 2^LOG2SIZE, 8–18 -/
def MQ_CH_CFG_LOG2SIZE : Fld := ⟨12, 8⟩
/-- MQ_CH_CFG.RCV (R356): Receiver core slot, 16 or 17 -/
def MQ_CH_CFG_RCV : Fld := ⟨5, 1⟩
/-- MQ_CH_CFG.EN (R356): 1: enabled -/
def MQ_CH_CFG_EN : Fld := ⟨0, 0⟩
/-- MQ_CH_RING.BASE (R356): Cluster-window offset bits [25:8] -/
def MQ_CH_RING_BASE : Fld := ⟨25, 8⟩
/-- MQ_CH_CCB.BASE (R356): Cluster-window offset bits [25:7] -/
def MQ_CH_CCB_BASE : Fld := ⟨25, 7⟩
/-- MQ_CH_STAT.REASON (R356): Last refusal, failure or report; 0: none -/
def MQ_CH_STAT_REASON : Fld := ⟨31, 16⟩
/-- MQ_CH_STAT.PEND (R356): Pending requests -/
def MQ_CH_STAT_PEND : Fld := ⟨15, 8⟩
/-- MQ_CH_STAT.OVF (R356): Queue: OVF of the last closed round; channel: 0 -/
def MQ_CH_STAT_OVF : Fld := ⟨1, 1⟩
/-- MQ_CH_STAT.SPILLED (R356): 1: compost entries waiting -/
def MQ_CH_STAT_SPILLED : Fld := ⟨0, 0⟩
/-- MQ_Q_CFG.NELEM_M1 (R356): Elements, minus one, 0–4,095 -/
def MQ_Q_CFG_NELEM_M1 : Fld := ⟨27, 16⟩
/-- MQ_Q_CFG.FRAC (R356): Fraction bits, 0–47; 48–63: reserved -/
def MQ_Q_CFG_FRAC : Fld := ⟨15, 10⟩
/-- MQ_Q_CFG.IN (R356): 0: FP32; 1: BF16; 2: INT32; 3: S16.16 -/
def MQ_Q_CFG_IN : Fld := ⟨9, 8⟩
/-- MQ_Q_CFG.OFMT (R356): 0: FP32; 1: raw 64-bit -/
def MQ_Q_CFG_OFMT : Fld := ⟨7, 7⟩
/-- MQ_Q_CFG.RCV (R356): Receiver core slot, 16 or 17 -/
def MQ_Q_CFG_RCV : Fld := ⟨6, 2⟩
/-- MQ_Q_CFG.EN (R356): 1: enabled; rounds count from 0 -/
def MQ_Q_CFG_EN : Fld := ⟨0, 0⟩
/-- MQ_Q_EXPECT.EXPECT (R354): EXPECT, 1–65,535 -/
def MQ_Q_EXPECT_EXPECT : Fld := ⟨15, 0⟩
/-- MQ_Q_ACC.BASE (R356): Cluster-window offset bits [25:8] -/
def MQ_Q_ACC_BASE : Fld := ⟨25, 8⟩
/-- MQ_Q_OUT.BASE (R356): Cluster-window offset bits [25:8] -/
def MQ_Q_OUT_BASE : Fld := ⟨25, 8⟩
/-- MQ_Q_CCB.BASE (R356): Cluster-window offset bits [25:7] -/
def MQ_Q_CCB_BASE : Fld := ⟨25, 7⟩
/-- MQ_Q_STAT.REASON (R356): Last refusal, failure or report; 0: none -/
def MQ_Q_STAT_REASON : Fld := ⟨31, 16⟩
/-- MQ_Q_STAT.PEND (R356): Pending requests -/
def MQ_Q_STAT_PEND : Fld := ⟨15, 8⟩
/-- MQ_Q_STAT.OVF (R356): Queue: OVF of the last closed round; channel: 0 -/
def MQ_Q_STAT_OVF : Fld := ⟨1, 1⟩
/-- MQ_Q_STAT.SPILLED (R356): 1: compost entries waiting -/
def MQ_Q_STAT_SPILLED : Fld := ⟨0, 0⟩
/-- MQ_SH_CFG.EN (R354): EN -/
def MQ_SH_CFG_EN : Fld := ⟨0, 0⟩
/-- BK_OWN.MODE (R393): 0: OPEN; 1: OWNED; 2: EXCLUSIVE; 3: reserved -/
def BK_OWN_MODE : Fld := ⟨11, 10⟩
/-- BK_OWN.OWNER (R393): Owner endpoint -/
def BK_OWN_OWNER : Fld := ⟨9, 0⟩
/-- BK_STATUS.REASON (R393): Last code posted; 0: none -/
def BK_STATUS_REASON : Fld := ⟨31, 16⟩
/-- BK_STATUS.AWAKE (R393): Bit n: bank n accepts accesses -/
def BK_STATUS_AWAKE : Fld := ⟨15, 8⟩
/-- BK_STATUS.HANDOVER (R393): Bit n: handover of bank n in progress -/
def BK_STATUS_HANDOVER : Fld := ⟨7, 0⟩
/-- BK_ARB.NGRANT (R393): Grants per longest-waiter grant, 4–64 -/
def BK_ARB_NGRANT : Fld := ⟨14, 8⟩
/-- BK_ARB.HOLD (R393): Bit 0: VC0 sink; bit 1: VC1 sink; bit 2: MX sink in hold mode -/
def BK_ARB_HOLD : Fld := ⟨2, 0⟩
/-- DM_CFG.RATE (R393): 0: 8.533; 1: 9.6; 2: 10.667; 3: 12.8 Gb/s; 4–7: reserved -/
def DM_CFG_RATE : Fld := ⟨3, 1⟩
/-- DM_CFG.XHALF (R393): 1: one interleave over both halves -/
def DM_CFG_XHALF : Fld := ⟨0, 0⟩
/-- DM_STATUS.NEAST (R393): Trained east channels -/
def DM_STATUS_NEAST : Fld := ⟨31, 24⟩
/-- DM_STATUS.NWEST (R393): Trained west channels -/
def DM_STATUS_NWEST : Fld := ⟨23, 16⟩
/-- DM_STATUS.DMIX (R393): 1: channels reported different densities -/
def DM_STATUS_DMIX : Fld := ⟨0, 0⟩
/-- DM_ARB.NGRANT (R392): NGRANT, 4–64 -/
def DM_ARB_NGRANT : Fld := ⟨6, 0⟩
/-- DM_CH_STATUS.REASON (R393): Training or failure code; 0: none -/
def DM_CH_STATUS_REASON : Fld := ⟨31, 16⟩
/-- DM_CH_STATUS.DENS (R393): Reported density: 0: none; 1: 4 GiB; 2: 8 GiB; 3: 12 GiB; 4: 16 GiB; 5–15: reserved -/
def DM_CH_STATUS_DENS : Fld := ⟨15, 12⟩
/-- DM_CH_STATUS.PWR (R393): 0: on; 1: self refresh; 2: off; 3: reserved -/
def DM_CH_STATUS_PWR : Fld := ⟨3, 2⟩
/-- DM_CH_STATUS.STATE (R393): 0: ABSENT; 1: TRAINED; 2: FENCED; 3: FAILED -/
def DM_CH_STATUS_STATE : Fld := ⟨1, 0⟩
/-- GP_PART_CFG.PORTS (R434): Bit n: bind GPn at enable -/
def GP_PART_CFG_PORTS : Fld := ⟨15, 8⟩
/-- GP_PART_CFG.EN (R434): 1: enabled -/
def GP_PART_CFG_EN : Fld := ⟨0, 0⟩
/-- GP_PART_STATUS.REASON (R434): Last code; 0: none -/
def GP_PART_STATUS_REASON : Fld := ⟨31, 16⟩
/-- GP_PART_STATUS.STATE (R434): 0: DISABLED; 1: ENABLED; 2: RELEASING; 3: reserved -/
def GP_PART_STATUS_STATE : Fld := ⟨1, 0⟩
/-- GP_MAP.PART (R434): Partition, 0–7 -/
def GP_MAP_PART : Fld := ⟨3, 1⟩
/-- GP_MAP.EN (R434): 1: bound -/
def GP_MAP_EN : Fld := ⟨0, 0⟩
/-- GP_PCFG.TRAYEN (R434): Bit t: tray t scanned -/
def GP_PCFG_TRAYEN : Fld := ⟨31, 16⟩
/-- GP_PCFG.CMIR (R434): 1: counter mirror in the top 1 MiB of bulk staging, 0x00F0_0000–0x00FF_FFFF -/
def GP_PCFG_CMIR : Fld := ⟨12, 12⟩
/-- GP_PCFG.WCHK (R434): 1: check non-payload bits on write -/
def GP_PCFG_WCHK : Fld := ⟨11, 11⟩
/-- GP_PCFG.SCAN (R434): Scan period in units of 100 ns -/
def GP_PCFG_SCAN : Fld := ⟨9, 0⟩
/-- GP_PSTATUS.REASON (R434): Link code; 0: none -/
def GP_PSTATUS_REASON : Fld := ⟨31, 16⟩
/-- GP_PSTATUS.RATE (R434): 0: none; 1: 8.533; 2: 9.6; 3: 10.667 Gb/s; 4–15: reserved -/
def GP_PSTATUS_RATE : Fld := ⟨15, 12⟩
/-- GP_PSTATUS.STATE (R434): 0: OFF; 1: WAIT_HOST; 2: TRAINING; 3: SERVICE; 4: SELF_REFRESH; 5: DISABLED; 6–7: reserved -/
def GP_PSTATUS_STATE : Fld := ⟨2, 0⟩
/-- GP_PCTRL.RETRY (R432): RETRY, administrative ports only -/
def GP_PCTRL_RETRY : Fld := ⟨0, 0⟩
/-- GP_EVSRC.EN (R434): 1: event-in enabled -/
def GP_EVSRC_EN : Fld := ⟨31, 31⟩
/-- GP_EVSRC.SRC (R434): Source coordinate, H, X, Y, C -/
def GP_EVSRC_SRC : Fld := ⟨11, 0⟩
/-- GP_EVBIND.WG (R432):  -/
def GP_EVBIND_WG : Fld := ⟨8, 1⟩
/-- GP_EVBIND.EN (R432):  -/
def GP_EVBIND_EN : Fld := ⟨0, 0⟩
/-- GP_COMPN.FREE (R432):  -/
def GP_COMPN_FREE : Fld := ⟨31, 16⟩
/-- GP_COMPN.NSLOT (R432):  -/
def GP_COMPN_NSLOT : Fld := ⟨15, 0⟩
/-- GP_HC_CFG.LOG2SIZE (R434): Ring size 2^LOG2SIZE, 8–18 -/
def GP_HC_CFG_LOG2SIZE : Fld := ⟨12, 8⟩
/-- GP_HC_CFG.EN (R434): 1: enabled -/
def GP_HC_CFG_EN : Fld := ⟨0, 0⟩
/-- GP_SH_ADDR.ADDR (R434): Target producer line, bits [47:7] -/
def GP_SH_ADDR_ADDR : Fld := ⟨47, 7⟩
/-- GP_SH_ADDR.EN (R434): 1: enabled, after the check of R336 -/
def GP_SH_ADDR_EN : Fld := ⟨0, 0⟩
/-- SM_STATUS.REASON (R463): Last code posted; 0: none -/
def SM_STATUS_REASON : Fld := ⟨31, 16⟩
/-- SM_STATUS.INSVC (R463): Bit n: link n in service -/
def SM_STATUS_INSVC : Fld := ⟨15, 12⟩
/-- SM_STATUS.THROTTLE (R463): 1: a throttle under R453 is in force -/
def SM_STATUS_THROTTLE : Fld := ⟨2, 2⟩
/-- SM_STATUS.STATE (R463): 0: NORMAL; 1: DEGRADED, a link below full width or out of service; 2: SPLIT; 3: reserved -/
def SM_STATUS_STATE : Fld := ⟨1, 0⟩
/-- SM_CAPW2E.TSLOTS (R463): Crossing slots per frame, 0–6,144 -/
def SM_CAPW2E_TSLOTS : Fld := ⟨31, 16⟩
/-- SM_CAPW2E.CELLS (R463): C in units of 0.1 G cells/s, 0–128 -/
def SM_CAPW2E_CELLS : Fld := ⟨7, 0⟩
/-- SM_CAPE2W.TSLOTS (R463): Crossing slots per frame, 0–6,144 -/
def SM_CAPE2W_TSLOTS : Fld := ⟨31, 16⟩
/-- SM_CAPE2W.CELLS (R463): C in units of 0.1 G cells/s, 0–128 -/
def SM_CAPE2W_CELLS : Fld := ⟨7, 0⟩
/-- SM_LOADE2W.SLOTS (R462):  -/
def SM_LOADE2W_SLOTS : Fld := ⟨12, 0⟩
/-- SM_LINK.GOODW (R463): Good lanes W→E, 0–72 -/
def SM_LINK_GOODW : Fld := ⟨31, 24⟩
/-- SM_LINK.GOODE (R463): Good lanes E→W, 0–72 -/
def SM_LINK_GOODE : Fld := ⟨23, 16⟩
/-- SM_LINK.CTL (R463): 1: carries the control lane -/
def SM_LINK_CTL : Fld := ⟨4, 4⟩
/-- SM_LINK.STATEW (R463): W→E: 0: DISABLED; 1: HALF; 2: FULL; 3: FAILED -/
def SM_LINK_STATEW : Fld := ⟨3, 2⟩
/-- SM_LINK.STATEE (R463): E→W, encoded as STATEW -/
def SM_LINK_STATEE : Fld := ⟨1, 0⟩
/-- SM_LREASON.W2E (R462): W→E code -/
def SM_LREASON_W2E : Fld := ⟨31, 16⟩
/-- SM_LREASON.E2W (R462): E→W code -/
def SM_LREASON_E2W : Fld := ⟨15, 0⟩
/-- PW_REQ.TARGET (R493): 0: ON; 1: RETENTION; 2: OFF; 3: reserved -/
def PW_REQ_TARGET : Fld := ⟨1, 0⟩
/-- PW_STAT.REASON (R493): Last code; 0: none -/
def PW_STAT_REASON : Fld := ⟨31, 16⟩
/-- PW_STAT.WAKESRC (R493): Under R469 -/
def PW_STAT_WAKESRC : Fld := ⟨15, 12⟩
/-- PW_STAT.HOLD (R493): Under R467 -/
def PW_STAT_HOLD : Fld := ⟨11, 5⟩
/-- PW_STAT.PEND (R493): 1: request pending -/
def PW_STAT_PEND : Fld := ⟨4, 4⟩
/-- PW_STAT.STATE (R493): 0: ON; 1: RETENTION; 2: OFF; 3: in transition -/
def PW_STAT_STATE : Fld := ⟨1, 0⟩
/-- PW_STATUS.POWER (R493): Device power, W -/
def PW_STATUS_POWER : Fld := ⟨25, 16⟩
/-- PW_STATUS.TJMAX (R493): Hottest junction, °C -/
def PW_STATUS_TJMAX : Fld := ⟨15, 8⟩
/-- PW_STATUS.TRIPLAST (R493): 1: the last start followed a trip -/
def PW_STATUS_TRIPLAST : Fld := ⟨3, 3⟩
/-- PW_STATUS.PKSTR (R493): 1: stretched under R487 in the last 100 µs -/
def PW_STATUS_PKSTR : Fld := ⟨2, 2⟩
/-- PW_STATUS.PCAP (R493): 1: power cap engaged -/
def PW_STATUS_PCAP : Fld := ⟨1, 1⟩
/-- PW_STATUS.THROT (R493): 1: a thermal cap or fabric lowering in force -/
def PW_STATUS_THROT : Fld := ⟨0, 0⟩
/-- PW_THERM.THROT (R491): THROT, °C, 85–100 -/
def PW_THERM_THROT : Fld := ⟨7, 0⟩
/-- CK_CORE.CAPSRC (R493): [19] BIST; [18] power; [17] thermal -/
def CK_CORE_CAPSRC : Fld := ⟨19, 17⟩
/-- CK_CORE.EFF (R493): Effective clock, 100 MHz units -/
def CK_CORE_EFF : Fld := ⟨12, 8⟩
/-- CK_CORE.REQ (R493): Requested clock, 100 MHz units, 8–22 -/
def CK_CORE_REQ : Fld := ⟨4, 0⟩
/-- CK_FAB.EFF (R493): Effective clock, 100 MHz units -/
def CK_FAB_EFF : Fld := ⟨12, 8⟩
/-- CK_FAB.BUSY (R493): 1: change under R478 in progress -/
def CK_FAB_BUSY : Fld := ⟨7, 7⟩
/-- CK_FAB.REQ (R493): Requested clock, 100 MHz units, 8–16 -/
def CK_FAB_REQ : Fld := ⟨4, 0⟩
/-- CK_VID.OFFSET (R493): Offset in 5 mV units, 0–20 -/
def CK_VID_OFFSET : Fld := ⟨20, 16⟩
/-- CK_VID.OK (R493): 1: rail within ±3 % of the code -/
def CK_VID_OK : Fld := ⟨15, 15⟩
/-- CK_VID.CODE (R493): VID code driven -/
def CK_VID_CODE : Fld := ⟨6, 0⟩
/-- CK_DROOP.TH (R493): Threshold, 10 mV units, 2–8 -/
def CK_DROOP_TH : Fld := ⟨3, 0⟩
/-- CK_STATUS.REASON (R491): REASON, last refusal -/
def CK_STATUS_REASON : Fld := ⟨31, 16⟩
/-- BU_STATUS.REASON (R519): First code of the start; 0: none -/
def BU_STATUS_REASON : Fld := ⟨31, 16⟩
/-- BU_STATUS.PHASE (R519): Phase of R499 in progress, 1–9; 0: none -/
def BU_STATUS_PHASE : Fld := ⟨7, 4⟩
/-- BU_STATUS.PATH (R519): 0: cold; 1: warm; 2: recovery image; 3: reserved -/
def BU_STATUS_PATH : Fld := ⟨3, 2⟩
/-- BU_STATUS.STATE (R519): As the device record: 0: BOOTING; 1: READY; 2: SPLIT; 3: RECOVERY -/
def BU_STATUS_STATE : Fld := ⟨1, 0⟩
/-- BU_RST.TARGET (R519): Core: H, X, Y, C. Cluster: cluster_id in [18:12]. Partition: [14:12]. Device: zero -/
def BU_RST_TARGET : Fld := ⟨23, 12⟩
/-- BU_RST.COLD (R519): Device scope only: 1: cold path -/
def BU_RST_COLD : Fld := ⟨2, 2⟩
/-- BU_RST.SCOPE (R519): 0: core; 1: cluster; 2: partition; 3: device -/
def BU_RST_SCOPE : Fld := ⟨1, 0⟩
/-- BU_RSTSTAT.REASON (R519): Last code; 0: none -/
def BU_RSTSTAT_REASON : Fld := ⟨31, 16⟩
/-- BU_RSTSTAT.BUSY (R519): 1: a reset is running -/
def BU_RSTSTAT_BUSY : Fld := ⟨2, 2⟩
/-- BU_RSTSTAT.SCOPE (R519): Scope of the last reset -/
def BU_RSTSTAT_SCOPE : Fld := ⟨1, 0⟩
/-- BU_BISTSTAT.REASON (R519): Last code; 0: none -/
def BU_BISTSTAT_REASON : Fld := ⟨31, 16⟩
/-- BU_BISTSTAT.STATE (R519): 0: IDLE; 1: WAITING; 2: SAVING; 3: TESTING; 4: RESTORING; 5: PASSED; 6: FAILED; 7: reserved -/
def BU_BISTSTAT_STATE : Fld := ⟨2, 0⟩
/-- SC_STATUS.REASON (R542): Last code posted; 0: none -/
def SC_STATUS_REASON : Fld := ⟨31, 16⟩
/-- SC_STATUS.FLOOR (R542): Security-version floor, 0–255 -/
def SC_STATUS_FLOOR : Fld := ⟨15, 8⟩
/-- SC_STATUS.LCS (R542): Under R534 -/
def SC_STATUS_LCS : Fld := ⟨7, 5⟩
/-- SC_STATUS.IDENT (R542): 1: identity present -/
def SC_STATUS_IDENT : Fld := ⟨4, 4⟩
/-- SC_STATUS.RNGOK (R542): 0: health test failing -/
def SC_STATUS_RNGOK : Fld := ⟨3, 3⟩
/-- SC_STATUS.TESTFULL (R542): 1: full test access under R538 -/
def SC_STATUS_TESTFULL : Fld := ⟨2, 2⟩
/-- SC_OWNSLOT.REVOKED (R542): Bit k: slot k + 1 revoked or failing its check -/
def SC_OWNSLOT_REVOKED : Fld := ⟨15, 8⟩
/-- SC_OWNSLOT.PROG (R542): Bit k: slot k + 1 programmed -/
def SC_OWNSLOT_PROG : Fld := ⟨7, 0⟩
/-- PC_WIN.WINUS (R560): WINUS, 1–1,000,000 -/
def PC_WIN_WINUS : Fld := ⟨19, 0⟩
/-- PC_STATUS.REASON (R560): REASON -/
def PC_STATUS_REASON : Fld := ⟨31, 16⟩
/-- PC_STATUS.RAKING (R560): RAKING -/
def PC_STATUS_RAKING : Fld := ⟨1, 1⟩
/-- PC_STATUS.MIRBUSY (R560): MIRBUSY -/
def PC_STATUS_MIRBUSY : Fld := ⟨0, 0⟩
/-- PC_RAKE.GO (R560): GO -/
def PC_RAKE_GO : Fld := ⟨0, 0⟩
/-- PC_TRCFG.WG (R562): World group traced when ALLWG = 0 -/
def PC_TRCFG_WG : Fld := ⟨16, 9⟩
/-- PC_TRCFG.ALLWG (R562): 1: every group of the partition -/
def PC_TRCFG_ALLWG : Fld := ⟨8, 8⟩
/-- PC_TRCFG.K (R562): Tag rate 1 in 2^K, 4–24 -/
def PC_TRCFG_K : Fld := ⟨7, 3⟩
/-- PC_TRCFG.EN (R562): 1: tracing enabled -/
def PC_TRCFG_EN : Fld := ⟨0, 0⟩
/-- PC_TRRING.BASE (R562): Bank-space offset bits [21:12] -/
def PC_TRRING_BASE : Fld := ⟨21, 12⟩
/-- PC_TRRING.LOG2 (R562): Ring of 2^LOG2 entries, 8–15 -/
def PC_TRRING_LOG2 : Fld := ⟨7, 4⟩
/-- PC_TRRING.EN (R562): 1: enabled; PC_TRWR restarts at 0 -/
def PC_TRRING_EN : Fld := ⟨0, 0⟩

end Sys2Proof.Machine
end

