-- ==== Sys2Proof/Machine/State.lean ====
section
/-! DEFINITION. The state of the block as plain data: every register, memory, queue, mode and pin the spec gives it, and
the queue of waiting commands. Every record below is at reset with all its fields zero, empty, false or absent; what each
field means, and the rule that names it, stands in its docstring. -/

namespace Sys2Proof.Machine

/-- Why a command stops the machine. -/
inductive Fault where
  /-- Raised by step for a command whose operand lists have a length the spec does not give them (WellFormed): no such
  command exists on the hardware. Safe: the machine stops where the hardware has no behaviour. -/
  | illFormed
  deriving DecidableEq, Repr

/-- Why a command has no meaning. -/
inductive Refusal where
  /-- Raised by exec's arm of a command that has no meaning yet. Safe: nothing is claimed of it. -/
  | notModelled (mnemonic : String)
  deriving DecidableEq, Repr

/-- The harvest counts of a group in one half, modulo 2^32 (R64, R66, R456): injected, accepted, absorbed, and flits that
left for and came from the other half. -/
structure Tally where
  inj : Word := 0
  acc : Word := 0
  abs : Word := 0
  exp : Word := 0
  imp : Word := 0
  deriving DecidableEq, Repr, Inhabited

/-- A timebase beside its registers (R55): the net count N. -/
structure Tb where
  net : Int := 0
  deriving DecidableEq, Repr, Inhabited

/-- The pin levels of an input channel, and its filtered levels (R51, R52, R581), A, B and Z in bits 0, 1, 2. -/
structure Tbi where
  pins : Nat := 0
  deriving DecidableEq, Repr, Inhabited

/-- A world group beside its registers. -/
structure Wg where
  /-- the target of its timebase at enable (R61) -/
  origin : Nat := 0
  /-- EN has been written to 0 and the group is finishing (R49) -/
  disabling : Bool := false
  /-- the code of a halt that takes effect at the next harvest, 0: none (R87, R115, R152) -/
  haltCode : Nat := 0
  /-- the last harvested group step (R62) -/
  last : Nat := 0
  /-- left HALTED by RESUME: the overrun policy applies at the next opening (R81) -/
  resumed : Bool := false
  /-- left HALTED by RESUME with REALIGN (R81) -/
  realign : Bool := false
  /-- the L a skip was calculated with at a harvest, 0: no skip pending (R70, R81) -/
  skipL : Nat := 0
  /-- skipped steps of a pending skip that the epoch position already holds (R72, R163) -/
  skipCounted : Nat := 0
  /-- steps the resident cohort has run in this residency (R76) -/
  runs : Nat := 0
  /-- the world step of each cohort (R79) -/
  wsteps : List (Nat × Nat) := []
  /-- a swap is due but the group halted at the same harvest (log entry 12) -/
  swapDue : Bool := false
  /-- 0: no swap; 1: write-out; 2: read-in; 3: read-in to be repeated after a failure (R76, R80) -/
  swap : Nat := 0
  /-- the step gap of the open step (R71) -/
  gap : Nat := 0
  /-- engines that have received the open of the open step (R102) -/
  opened : List Nat := []
  /-- engines that have reported emit-done for it (R65) -/
  done : List Nat := []
  /-- harvest rounds of the open step (R66) -/
  rounds : Nat := 0
  tallyW : Tally := {}
  tallyE : Tally := {}
  /-- the half has been closed by its steward in the split state (R456) -/
  closedW : Bool := false
  closedE : Bool := false
  /-- epoch position as a writer group (R163) -/
  epPos : Nat := 0
  /-- target of the timebase at the harvest that finished the epoch (R161) -/
  epTarget : Nat := 0
  /-- the excess of a skip past the epoch end, carried into the next epoch (R164) -/
  epCarry : Nat := 0
  /-- the group has finished its epoch and stands at the barrier (R44) -/
  epWait : Bool := false
  deriving DecidableEq, Repr, Inhabited

/-- An event that a neuron core has emitted and its fan-out unit has not walked yet (R131, R133). -/
structure Ev where
  wg : Nat := 0
  net : Nat := 0
  neuron : Nat := 0
  inst : Nat := 0
  world : Nat := 0
  kind : Nat := 0
  payload : Nat := 0
  stamp : Nat := 0
  trace : Bool := false
  deriving DecidableEq, Repr, Inhabited

/-- A pending INTEG trace entry (R556): the step and instance it waits for, its KEY and AGE. -/
structure IntegWait where
  key : Nat := 0
  age : Nat := 0
  inst : Nat := 0
  step : Nat := 0
  wg : Nat := 0
  flags : Nat := 0
  deriving DecidableEq, Repr, Inhabited

/-- A neuron core beside its registers and its store. -/
structure Nc where
  /-- input queue, head first, at most 64 flits (R111) -/
  inq : List (BitVec 128) := []
  /-- the world step open for each group (R98) -/
  opens : List (Nat × Nat) := []
  /-- events waiting for the fan-out unit (R133) -/
  fan : List Ev := []
  /-- flits formed and not yet in the injection queue (R133) -/
  outq : List (BitVec 128) := []
  /-- the parameter sets that met the conditions of 0x0202 when a group was enabled, bit k for set k (R105) -/
  psetOk : Nat := 0
  /-- pending INTEG trace entries (R556) -/
  integs : List IntegWait := []
  /-- its store or its NC_ registers have been accessed while it sleeps (R114) -/
  hit : Bool := false
  deriving DecidableEq, Repr, Inhabited

/-- The event units of a vector or matrix core: emit port, sink and in-band queue (R146 to R150). -/
structure Eng where
  /-- emit records waiting at the port, at most 16 (R233) -/
  emitq : List DWord := []
  outq : List (BitVec 128) := []
  ibq : List (BitVec 128) := []
  /-- flits a sink holds for the next open (R149) -/
  sinkq : List (BitVec 128) := []
  opens : List (Nat × Nat) := []
  /-- groups for which SDONE has run in the open step (R234) -/
  sdone : List Nat := []
  /-- back-off count of the sink's refused addition (R386) -/
  back : Nat := 0
  deriving DecidableEq, Repr, Inhabited

/-- A bank beside its registers: the setting in force before a handover (R364, R365). -/
structure Bk where
  prev : Nat := 0
  /-- writes of the ownership setting so far: an accepted piece belongs to the count of its moment (R364, R365) -/
  gen : Nat := 0
  /-- 2 µs wake under way (R368) -/
  waking : Bool := false
  deriving DecidableEq, Repr, Inhabited

/-- A learning set beside its registers (R158 to R180). -/
structure Ls where
  /-- enabled (R159: for the whole set) -/
  on : Bool := false
  /-- the cluster whose block the set's registers are read from -/
  home : Nat := 0
  /-- cores that have finished the present stage, or reported the flip (R180) -/
  reports : List Nat := []
  /-- synapses marked for pruning, core eid and synapse index (R176) -/
  marks : List (Nat × Nat) := []
  /-- flips since the set was enabled (R186) -/
  flips : Nat := 0
  deriving DecidableEq, Repr, Inhabited

/-- A commit of a learning set, or a restore (R186, R187, R192). -/
structure Commit where
  set : Nat := 0
  part : Nat := 0
  /-- asked for automatically at a flip (R187) -/
  auto : Bool := false
  /-- 0: waiting; 1: capture; 2: compare and program; 3: root, west copy; 4: root, east copy; 5: restore -/
  phase : Nat := 0
  /-- bytes of the captured image, and where the capture put it (R187) -/
  len : Nat := 0
  stage : Nat := 0
  /-- the set's epoch at capture -/
  epoch : Nat := 0
  /-- the new generation's data pages by logical number -/
  pages : List Nat := []
  /-- physical pages of the new tables, and the directory -/
  tables : List Nat := []
  dir : Nat := 0
  /-- the root slot written (R189) -/
  slot : Nat := 0
  /-- a flip that completes starts the capture (R187) -/
  waitFlip : Bool := false
  deriving DecidableEq, Repr, Inhabited

/-- A keep-store page outside the root area: its content as one encrypted unit, with the key number and tweak it was
encrypted under (R183), its use and its program count (R182, R193). -/
structure Page where
  used : Bool := false
  retired : Bool := false
  progs : Nat := 0
  key : Nat := 0
  genw : Nat := 0
  lpn : Nat := 0
  bytes : List Byte := []
  deriving DecidableEq, Repr, Inhabited

/-- A root slot (R189, R531): its bytes, none when it holds no whole record, and its program count. -/
structure Root where
  bytes : List Byte := []
  progs : Nat := 0
  deriving DecidableEq, Repr, Inhabited

/-- The keep-store unit (R182 to R193). -/
structure Ks where
  pages : List (Nat × Page) := []
  roots : List (Nat × Root) := []
  /-- the winning root: its slot, and whether there is one (R190) -/
  winner : Option Nat := none
  queue : List Commit := []
  /-- the commit that runs -/
  cur : Option Commit := none
  /-- restores in progress, one a partition -/
  restores : List Commit := []
  /-- the number of each partition's key, 0: none (R531, R532) -/
  keys : List (Nat × Nat) := []
  /-- programming stopped by a supply drop (R569) -/
  stopped : Bool := false
  deriving DecidableEq, Repr, Inhabited

/-- A step-bound descriptor that the tail write has made visible (R219): its index, its group, the step once it is known, and
whether its group has been disabled since (R237). -/
structure MBind where
  n : Nat := 0
  wg : Nat := 0
  step : Option Nat := none
  cancelled : Bool := false
  deriving DecidableEq, Repr, Inhabited

/-- A descriptor that runs (R213, R261): status, reason, re-runs, and the group it was bound to (plus one). -/
structure MRun where
  /-- its index in the ring and its TAG (R210, R213), and its 64 bytes -/
  n : Nat := 0
  tag : Nat := 0
  word : Nat := 0
  /-- its operands are in and it has been carried out; until then it loads (R240) -/
  ran : Bool := false
  status : Nat := 0
  reason : Nat := 0
  rerun : Nat := 0
  wg : Nat := 0
  deriving DecidableEq, Repr, Inhabited

/-- An operand access of a matrix core that waits for a tag (R208, R306): the descriptor's index, the endpoint that takes the data, the
direction, the device address and the length. -/
structure MAcc where
  n : Nat := 0
  ret : Nat := 0
  write : Bool := false
  a : Nat := 0
  len : Nat := 0
  /-- of a result: which of the rows that go out -/
  row : Nat := 0
  deriving DecidableEq, Repr, Inhabited

/-- A matrix core beside its registers and operand buffers (R209 to R222). -/
structure Mx where
  binds : List MBind := []
  run : Option MRun := none
  /-- a descriptor whose operands are loaded ahead (R209) -/
  next : Option MRun := none
  /-- accesses not yet started, the operand bytes that have come in, by device address, and the result rows that go out (R208) -/
  todo : List MAcc := []
  opnd : List Host.Cell := []
  outs : List (List Byte) := []
  /-- the tensor in the resident region: WBASE, K, N and WFMT (R209) -/
  res : Option (List Nat) := none
  /-- descriptors that have loaded the tile buffers, and what was written into those since the last: offset and length (R204) -/
  tiles : Nat := 0
  fixed : List (Nat × Nat) := []
  /-- emit records of the running ENCODE that the full emit port has not taken (R216) -/
  recs : List DWord := []
  deriving DecidableEq, Repr, Inhabited

/-- A vector-core context (R223): program counter, scalar, vector and mask registers, and the loops it is in, innermost first
(address of the body, address after it, runs left). -/
structure Vctx where
  pc : Nat := 0
  s : List (Nat × Word) := []
  v : List (Nat × BitVec 512) := []
  m : List (Nat × Half) := []
  loops : List (Nat × Nat × Nat) := []
  /-- the instruction at pc is an EMIT that has handed over this many of its records (R233) -/
  emitted : Nat := 0
  deriving DecidableEq, Repr, Inhabited

/-- A vector core beside its registers and local store (R223 to R235). -/
structure Vx where
  c0 : Vctx := {}
  c1 : Vctx := {}
  /-- CSRs (R230) -/
  seed : Word := 0
  lrate : Word := 0
  wbound : Word := 0
  pth : Word := 0
  cycleh : Word := 0
  /-- the group of the last SWAIT, plus one (R230: WSTEP) -/
  swg : Nat := 0
  /-- stage and set of context 1 (R225) -/
  stage : Nat := 0
  set : Nat := 0
  /-- EN has been written to 0: context 0 stops at the next instruction boundary (R240) -/
  stopping : Bool := false
  /-- tags of the outstanding transfers (R231) -/
  out : List Nat := []
  /-- transfers that were outstanding when SDONE was executed: group and tag (R234) -/
  before : List (Nat × Nat) := []
  deriving DecidableEq, Repr, Inhabited

/-- A flit in the mesh, and whether a remap entry has rewritten it (R284). -/
structure MFlit where
  f : BitVec 128 := 0
  rw : Bool := false
  deriving DecidableEq, Repr, Inhabited

/-- A router beside its registers (R268 to R289): the flit at each input, its injection queue, its spill, the flits the ejection stage has
handed to the delivery stage, its old-source vector, and the step of a fabric reset (R286, R316: 0 none, 1 asked for and its schedules
being suspended, 2 hole marked, 3 in reset and self-check, 4 tables being reloaded). -/
structure Rt where
  inN : Option MFlit := none
  inE : Option MFlit := none
  inS : Option MFlit := none
  inW : Option MFlit := none
  injq : List MFlit := []
  spill : List MFlit := []
  dlv : List MFlit := []
  /-- transit overflow (R288), and the engine the injection queue takes from first (R274) -/
  ovf : List MFlit := []
  rr : Nat := 0
  /-- what the present fabric cycle has used (R271, R274, R282): mesh ports, ejection slots, and whether injection and spill release
  have had their turn; and whether a flit has found the seam port busy in it (R273) -/
  used : List Nat := []
  ej : Nat := 0
  injDone : Bool := false
  relDone : Bool := false
  busy : Bool := false
  old : Nat := 0
  reset : Nat := 0
  /-- the node is a permanent hole (R289) -/
  hole : Bool := false
  deriving DecidableEq, Repr, Inhabited

/-- A trellis beat (R306): KIND (0 data, 1 request, 2 last, 3 refusal), TAG, its 512 data bits, and 8 check bits for each 64-bit word.
`bad`: the check bits are those of a stored line with an uncorrectable error (R370). -/
structure Beat where
  kind : Nat := 0
  tag : Nat := 0
  data : List Byte := []
  check : List Byte := []
  bad : Bool := false
  deriving DecidableEq, Repr, Inhabited

/-- A beat in the seam (R446, R447): its crossing index, and the transfer and piece it belongs to. -/
structure SBeat where
  cross : Nat := 0
  key : Nat := 0
  piece : Nat := 0
  beat : Beat := {}
  deriving DecidableEq, Repr, Inhabited

/-- What a seam cell carries (R437): event flits, a trellis beat, or control words. -/
inductive Cargo where
  | event (fs : List MFlit)
  | beat (b : SBeat)
  | ctl (ws : List Word)
  deriving DecidableEq, Repr

/-- One direction of a seam link (R438): next SEQ to send, next SEQ expected, the replay buffer of cells not yet covered by an ACK,
replays of one cell in a row that failed (R451), and whether the receiver owes a replay request. -/
structure SLane where
  next : Nat := 0
  exp : Nat := 0
  buf : List (Nat × Cargo) := []
  fails : Nat := 0
  nak : Bool := false
  deriving DecidableEq, Repr, Inhabited

/-- One direction of the seam (R444 to R447, R452): the send side with the row of each flit, the receive side, event credits in use
and waiting to be returned, trellis beats waiting for credit (the hold buffer), beats waiting for a cell, beats in the far bridge,
trellis credits in use and waiting to be returned, cells moved from a failed link, and, of the control lane (R450), the messages that
wait and those that have arrived. -/
structure Sdir where
  send : List (Nat × MFlit) := []
  recv : List MFlit := []
  evUsed : Nat := 0
  evRet : Nat := 0
  hold : List SBeat := []
  tq : List SBeat := []
  fifo : List SBeat := []
  tUsed : Nat := 0
  tRet : Nat := 0
  moved : List Cargo := []
  msgs : List (List Word) := []
  got : List (List Word) := []
  /-- frame boundaries left until a throttle takes effect, plus one; 0: none is due (R453) -/
  thr : Nat := 0
  deriving DecidableEq, Repr, Inhabited

/-- The owner of a trellis transfer (R308): a vector core's context, a tray command of a port (tray 16: the admin slot), or a matrix core's
descriptor with the endpoint that takes the data (R208, R309). -/
inductive XOwn where
  | none
  | vx (c v ctx : Nat)
  | tray (n t : Nat)
  | mx (c n ret : Nat)
  deriving DecidableEq, Repr, Inhabited

/-- A piece of a transfer (R307, R308): its range, the target endpoint its request went to, RET and RV, where its request, acknowledgement
or refusal beat is (0 received, 1 in the seam, 2 lost or discarded), the bytes moved, its progress (0 requested, 1 started, 2 refused,
3 backing off, 4 waiting at an arbiter in hold mode, 5 a message granted, the grant on its way, 6 a message acknowledged, likewise), the
code of its refusal, and its back-off count. -/
structure Piece where
  a : Nat := 0
  n : Nat := 0
  tgt : Nat := 0
  ret : Nat := 0
  rv : Bool := false
  fly : Nat := 0
  moved : Nat := 0
  /-- bytes that have entered the seam, where the circuit crosses it (R447) -/
  sent : Nat := 0
  st : Nat := 0
  code : Nat := 0
  back : Nat := 0
  /-- the bank's count of ownership writes when it accepted the piece (R364) -/
  gen : Nat := 0
  deriving DecidableEq, Repr, Inhabited

/-- A trellis transfer (R308): its owner, partition, requester endpoint, direction, device address, local place, length, bytes issued,
pieces outstanding, and how it ended (0: not ended; 1: accepted; 2: failed with a code). For a message or contribution (R338): the
send handle (plus one), the target's key (plus one), the footprint, and its sequence number. -/
structure Xfer where
  own : XOwn := .none
  part : Nat := 0
  ep : Nat := 0
  write : Bool := false
  dev : Nat := 0
  loc : Nat := 0
  len : Nat := 0
  issued : Nat := 0
  pieces : List Piece := []
  fin : Nat := 0
  code : Nat := 0
  handle : Nat := 0
  target : Nat := 0
  seq : Nat := 0
  deriving DecidableEq, Repr, Inhabited

/-- A request at a message unit or port (R338, R339, R342): the sending transfer, the footprint, the SENDER field, the sending engine's
coordinate, and its progress (0: pending; 1: granted at an offset of the ring or for a round; 2: granted a compost slot; 3: granted to
be discarded; 4: written in its compost slot), the offset or slot, the bytes that have arrived, and whether its wait edge is registered, with its serial number. -/
structure Req where
  key : Nat := 0
  foot : Nat := 0
  sender : Nat := 0
  coord : Nat := 0
  st : Nat := 0
  at_ : Nat := 0
  data : List Byte := []
  edge : Bool := false
  deriving DecidableEq, Repr, Inhabited

/-- A reservation in a ring (R333, R334): offset and length, and whether it is a skip marker's or has been written in full. -/
structure Resv where
  pos : Nat := 0
  len : Nat := 0
  skip : Bool := false
  done : Bool := false
  deriving DecidableEq, Repr, Inhabited

/-- A channel, combining queue or host channel beside its registers and lines (R330 to R345): WR' and the reservations not yet
published, the RD or RELEASED in force, the CDONE in force, the requests it holds, the contributions added to each of the two rounds,
the rounds closed, its compost slots in order with the footprint and SENDER of each, and the serial number that follows RD (R346). -/
structure Chan where
  wrp : Nat := 0
  /-- the values of the producer line (R330, R345): WR, MSGS, SKIPS, and OVF of a queue -/
  wr : Nat := 0
  msgs : Nat := 0
  skips : Nat := 0
  ovf : Nat := 0
  resv : List Resv := []
  rd : Nat := 0
  cdone : Nat := 0
  reqs : List Req := []
  cnt0 : Nat := 0
  cnt1 : Nat := 0
  closed : Nat := 0
  comp : List (Nat × Nat × Nat) := []
  serial : Nat := 0
  deriving DecidableEq, Repr, Inhabited

/-- A wait edge a steward holds (R346, R347): sending transfer, sender and receiver coordinates, target key and serial number. -/
structure Edge where
  key : Nat := 0
  src : Nat := 0
  dst : Nat := 0
  target : Nat := 0
  serial : Nat := 0
  deriving DecidableEq, Repr, Inhabited

/-- An arbiter (R384 to R390): grants made, entries held, requests refused and waiting, oldest first (requester endpoint, whether it
waits in a hold slot), and the requester an entry is reserved for (plus one). Of an LPDDR channel also: tracking passes in a row that have
failed (R383). -/
structure Arb where
  grants : Nat := 0
  held : List Nat := []
  wait : List (Nat × Bool) := []
  resv : Nat := 0
  track : Nat := 0
  deriving DecidableEq, Repr, Inhabited

/-- A field of a slot table or an entry of a send map that a schedule owns (R299, R305): a switch's output in a slot with its SEL, or an
endpoint's slot with its DST. -/
inductive TField where
  | out (c t o sel : Nat)
  | map (e t dst : Nat)
  deriving DecidableEq, Repr

/-- A crossing record (R442, R446 to R448): its direction, COUNT, source and destination endpoint, FIRST, stride, FIRST2, the row and
crossing index, and the link it crosses on. -/
structure XRec where
  dir : Nat := 0
  count : Nat := 0
  src : Nat := 0
  dst : Nat := 0
  first : Nat := 0
  stride : Nat := 0
  first2 : Nat := 0
  row : Nat := 0
  index : Nat := 0
  link : Nat := 0
  deriving DecidableEq, Repr, Inhabited

/-- A schedule beside its registers (R313 to R317): the fields still to be written while it loads, the fields it owns, the halves that
have swapped, the records that cross the seam, and what suspends it: a node under fabric reset, or 1,000 + a half that is quiesced. -/
structure Sch where
  todo : List TField := []
  mine : List TField := []
  swapW : Bool := false
  swapE : Bool := false
  cross : List XRec := []
  /-- source, destination and the clusters whose switches each circuit passes (R303) -/
  paths : List (Nat × Nat × List Nat) := []
  /-- 1: loaded, the swap waits; 2: swapped, ACTIVE at the next boundary; 3: a boundary has passed since EN = 0 -/
  mark : Nat := 0
  susp : List Nat := []
  /-- each throttled direction: TSLOTS and the load as the throttle found them (R453) -/
  thr : List (Nat × Nat × Nat) := []
  deriving DecidableEq, Repr, Inhabited

/-- A half's trellis and clock sequence (R316, R478): quiesce asked for, resume asked for, the step of a fabric-clock change, and the
clock it goes to. -/
structure Hf where
  quiesce : Bool := false
  resume : Bool := false
  /-- the golden cluster of the half's routers, plus one, 0: none (R275, R457) -/
  gold : Nat := 0
  fab : Nat := 0
  fabTo : Nat := 0
  deriving DecidableEq, Repr, Inhabited

/-- A switched domain in transition (R466): the state it goes to (plus one, 0: in no transition), the state it left, and whether the
wake is for a reset, after which it returns to PW_REQn (R469, R470). -/
structure Dom where
  goal : Nat := 0
  was : Nat := 0
  back : Bool := false
  deriving DecidableEq, Repr, Inhabited

/-- The unit a consistency check or an enable bit belongs to (R427). -/
inductive UnitRef where
  | tb (n : Nat) | wg (g : Nat) | part (p : Nat) | map (n : Nat) | evsrc (n : Nat) | evbind (n b : Nat)
  | hchan (n c : Nat) | hsend (n h : Nat) | sched (n : Nat) | chan (c n : Nat) | queue (c n : Nat)
  | send (c h : Nat) | set (k : Nat) (c : Nat) | mxbind (c n : Nat) | vxbind (c v n : Nat) | remap (n : Nat)
  | kscmd (p : Nat) | trcfg (p : Nat) | trring (c : Nat) | setwg (k c g : Nat)
  deriving DecidableEq, Repr

/-- A consistency check waiting at the west steward (R427, R428): the unit, the value written, who wrote it, and the tray
command to complete (port, tray; tray 16 is the admin slot). -/
structure Check where
  unit : UnitRef
  value : Nat
  cmd : Option (Nat × Nat)
  deriving DecidableEq, Repr

/-- A posting that waits for the next mirror update (R430): code, unit kind, unit index, cluster, west frame count. -/
structure Post where
  code : Nat := 0
  kind : Nat := 0
  unit : Nat := 0
  cluster : Nat := 0xFFFF
  frame : Nat := 0
  deriving DecidableEq, Repr, Inhabited

/-- A command a port has taken from a tray, or from the admin slot (tray 16) (R409 to R413): its fields, its progress (0 waiting,
1 under way, 2 ended), how it ended, and the transfer it runs (plus one). -/
structure Cmd where
  tray : Nat := 0
  count : Nat := 0
  seq : Nat := 0
  op : Nat := 0
  flags : Nat := 0
  tag : Nat := 0
  adr : Nat := 0
  data : Nat := 0
  soff : Nat := 0
  len : Nat := 0
  handle : Nat := 0
  st : Nat := 0
  code : Nat := 0
  result : Nat := 0
  moved : Nat := 0
  key : Nat := 0
  /-- its number among the commands the port has taken, and whether its tray has been opened anew since (R407, R431) -/
  id : Nat := 0
  old : Bool := false
  deriving DecidableEq, Repr, Inhabited

/-- A gate port beside its registers and staging (R396 to R422). -/
structure Gp where
  /-- postings not yet in the reason log, oldest first, and how many have been (R430) -/
  posts : List Post := []
  logn : Nat := 0
  /-- next SEQ of each send handle (R339, R422) -/
  seqs : List (Nat × Nat) := []
  /-- the training step under way (plus one), how often it has run without passing, and whether its last result failed (R400) -/
  step : Nat := 0
  reps : Nat := 0
  failed : Bool := false
  /-- command counts, completed counts and HC_CRD of the trays (R404, R407, R408) -/
  count : List (Nat × Nat) := []
  done : List (Nat × Nat) := []
  crd : List (Nat × Nat) := []
  cmds : List Cmd := []
  /-- the admin slot as written, and the SEQ of the last admin command (R403, R416) -/
  admin : List Byte := []
  adminSeq : Nat := 0
  /-- bytes published and consumed in the event-in window; HC_EVDONE of each bind entry, and the bytes published before its last
  write (R404, R417, R419) -/
  evWr : Nat := 0
  evRd : Nat := 0
  evDone : List (Nat × Nat) := []
  evSnap : List (Nat × Nat) := []
  /-- flits formed and not yet in the injection queue (R418) -/
  outq : List (BitVec 128) := []
  /-- update count of each mirror record, by offset (R405) -/
  upd : List (Nat × Nat) := []
  /-- commands taken since ready (R408) -/
  taken : Nat := 0
  /-- the state self refresh was entered from (R399) -/
  srFrom : Nat := 0
  /-- what the last host read burst returned, with its non-payload bits, and what the last mode register read returned (R396, R401) -/
  hostData : List Byte := []
  hostCheck : List Byte := []
  hostMode : Nat := 0
  deriving DecidableEq, Repr, Inhabited

/-- A cluster's clock beside CK_COREc (R473 to R477, R479, R481, R486): the thermal, power and BIST caps in 100 MHz units (0: none),
the clock its PLL goes to (0: none), whether that waits for the rail, and a droop stretch of its core clock (index 96 and 97: of a half
backbone). -/
structure Clk where
  therm : Nat := 0
  pow : Nat := 0
  bist : Nat := 0
  goal : Nat := 0
  rail : Bool := false
  stretch : Bool := false
  deriving DecidableEq, Repr, Inhabited

/-- Device power (R483 to R489): tripped; the sensors whose last sample was 110 °C or above; the stretch of the peak limiter; the last
100 estimates of the west and east half, newest first; and the offset, dynamic address, page and bytes of the last read of the I3C target. -/
structure Pw where
  tripped : Bool := false
  hot : List Nat := []
  peak : Bool := false
  est : List (Nat × Nat) := []
  off : Nat := 0
  dyn : Option Nat := none
  page : List Byte := []
  out : List Byte := []
  deriving DecidableEq, Repr, Inhabited

/-- Runtime BIST and reset of a cluster (R500, R513 to R515): its domain was OFF at the start of the test, it is held in cluster reset,
and the registers saved. -/
structure Bist where
  off : Bool := false
  held : Bool := false
  saved : List (Nat × DWord) := []
  deriving DecidableEq, Repr, Inhabited

/-- The start of the device (R499 to R509, R516, R569): the levels of PORST_N and SYSRST_N, VDD_AON has left its range, the next start is
cold, VDD_AON has held since a start that completed phase 6, the cause of the start, the device resets since power-on, the straps, the
recovery entry code and the bundle in the recovery buffer, the running bundle's VERSION, manifest digest and certificate chain, its
section for the settings, the durations of the phases, and what the ready report counts. -/
structure Boot where
  porst : Bool := false
  sysrstLow : Bool := false
  aonFault : Bool := false
  cold : Bool := false
  aonGood : Bool := false
  tripped : Bool := false
  /-- THERMTRIP_N is asserted: from a trip until PORST_N goes low (R483, R569) -/
  thermtrip : Bool := false
  cause : Nat := 0
  resets : Nat := 0
  straps : Nat := 0
  entry : Nat := 0
  buf : List Host.Cell := []
  version : Nat := 0
  manifest : List Byte := []
  chain : List Byte := []
  /-- the standard service program (R224, R497), and what the gate ports' manufacturer and revision mode registers return (R396) -/
  svc : List Byte := []
  gpmfr : Nat := 0
  gprev : Nat := 0
  tboot : Nat := 0
  tbist : Nat := 0
  ttrain : Nat := 0
  twipe : Nat := 0
  rounds : Nat := 0
  resent : Nat := 0
  resFail : Nat := 0
  resApplied : Nat := 0
  /-- the cause of the first fence of a cluster (R507) -/
  fcause : List (Nat × Nat) := []
  deriving DecidableEq, Repr, Inhabited

/-- A BU_RST request (R509): scope, target, and the partition whose logs report it (plus one). -/
structure Rst where
  scope : Nat := 0
  target : Nat := 0
  part : Nat := 0
  deriving DecidableEq, Repr, Inhabited

/-- The fuses and the security engine (R522 to R538, R540): the 32 life-cycle bits, the floor, the owner key hashes by slot, the revoke
bits, the HUK, the identity seed (its fuses hold it wrapped; nothing outside the engine sees it), CERTHASH, DEBUG, the challenge, and a failing random-bit health test. -/
structure Sec where
  lc : Nat := 0
  floor : Nat := 0
  slots : List (Nat × List Byte) := []
  revoked : Nat := 0
  huk : List Byte := []
  seed : List Byte := []
  certhash : List Byte := []
  debug : Bool := false
  /-- the VID OFFSET in units of 5 mV (R474) -/
  offset : Nat := 0
  challenge : Option (List Byte) := none
  rngBad : Bool := false
  deriving DecidableEq, Repr, Inhabited

/-- Counters (R546 to R554): the window length in force (0: the one at reset), the counters latched at the last window end and at the one
before it, the full mirror write under way with its window number and length, frame count and counters, and the rake passes to be made (cause, and
the one cluster to read plus one, 0: all), the running one first. -/
structure Pcs where
  win : Nat := 0
  snap : List (Nat × DWord) := []
  prev : List (Nat × DWord) := []
  busy : Bool := false
  mwin : Nat := 0
  mus : Nat := 0
  mframe : Nat := 0
  msnap : List (Nat × DWord) := []
  rakes : List (Nat × Nat) := []
  deriving DecidableEq, Repr, Inhabited

/-- The control network (R318 to R322): responses on their way (node they come from, requester node, words), the words of the last response,
result or status a node or steward received; of each reduction, by group or tag: the participants that have contributed to it, the mask of
those it waits for; the operands combined at a node and a root's last result, by tag × 16 + node (0 to 11: row node 6H + Y; 12 + H: the root of
a half; 97 among the participants: the east root's operand has come to the west root); and the links that have failed. -/
structure Cnet where
  resps : List (Nat × Nat × List Word) := []
  got : List (Nat × List Word) := []
  red : List (Nat × List Word) := []
  from_ : List (Nat × List Nat) := []
  mask : List (Nat × List Nat) := []
  res : List (Nat × List Word) := []
  failed : List Nat := []
  deriving DecidableEq, Repr, Inhabited

/-- An engine's image (R502 to R504): the bitmap of the segments it holds, and, for an engine whose image store has no device address,
the bytes. -/
structure Bc where
  have_ : Nat := 0
  bytes : List Host.Cell := []
  deriving DecidableEq, Repr, Inhabited

/-- The machine. -/
structure State where
  pending : List Instr := []
  /-- the registers, each as its exclusive-or with its reset value, by device address; one not listed is at reset -/
  regs : List (Nat × DWord) := []
  /-- latched upper words and held lower words of 64-bit registers, per requester (R13) -/
  latches : List (Nat × Option Word) := []
  helds : List (Nat × Option Word) := []
  /-- bytes of the device address space: stores, buffers, banks, tables and LPDDR (R38, R40) -/
  mem : List Host.Cell := []
  tb : List (Nat × Tb) := []
  tbi : List (Nat × Tbi) := []
  wg : List (Nat × Wg) := []
  nc : List (Nat × Nc) := []
  eng : List (Nat × Eng) := []
  mx : List (Nat × Mx) := []
  vx : List (Nat × Vx) := []
  ls : List (Nat × Ls) := []
  ks : Ks := {}
  bk : List (Nat × Bk) := []
  rt : List (Nat × Rt) := []
  sdir : List (Nat × Sdir) := []
  lane : List (Nat × SLane) := []
  xfer : List (Nat × Xfer) := []
  chan : List (Nat × Chan) := []
  /-- compost slots in use, by cluster, or 256 + port (R349) -/
  comp : List (Nat × List Nat) := []
  edges : List Edge := []
  /-- the edges a steward found at its last scan (R347), by its half -/
  oldEdges : List (Nat × List Edge) := []
  arb : List (Nat × Arb) := []
  dom : List (Nat × Dom) := []
  sch : List (Nat × Sch) := []
  half : List (Nat × Hf) := []
  /-- slot tables, active and inactive copies, by cluster × 1,024 + slot (R299), and send maps by endpoint × 1,024 + slot with the
  owning schedule in bits [21:16] (R305) -/
  slotA : List (Nat × Nat) := []
  slotB : List (Nat × Nat) := []
  smapA : List (Nat × Nat) := []
  smapB : List (Nat × Nat) := []
  /-- bytes of the gate ports' staging SRAM, by port × 2^28 + offset (R401) -/
  staging : List Host.Cell := []
  gp : List (Nat × Gp) := []
  checks : List Check := []
  clk : List (Nat × Clk) := []
  pw : Pw := {}
  bist : List (Nat × Bist) := []
  /-- resets asked for, the running one first (R509) -/
  rsts : List Rst := []
  boot : Boot := {}
  sec : Sec := {}
  pcs : Pcs := {}
  cn : Cnet := {}
  /-- images broadcast to engines, by cluster × 32 + core slot -/
  bc : List (Nat × Bc) := []
  /-- what the last register read returned (R8, R13) -/
  rdata : DWord := 0
  /-- bytes of the boot flash, each plus one, by flash address; 0: erased and not programmed since (R495, R516, log entry 5) -/
  flash : List (Nat × Nat) := []
  /-- free values drawn so far (log entry 1) -/
  fresh : Nat := 0
  deriving DecidableEq, Repr

/-- The machine before the first rise of PORST_N, with nothing commanded: every register at its reset value (a register is held as its
exclusive-or with that value), memories and queues empty, pins low (log entries 2 to 6). -/
def State.reset : State := {}

end Sys2Proof.Machine
end

