-- ==== Sys2Proof/Machine/Ops.lean ====
section
/-! DEFINITION. The named operations over the state: sparse maps, bit fields, registers, memory, places (clusters, engines,
address ranges), postings, halts and tallies. -/

namespace Sys2Proof.Machine

/-! ## Sparse maps -/

/-- The entry of a key; an unlisted key reads as the default. -/
def mget {α : Type} [Inhabited α] : List (Nat × α) → Nat → α
  | [], _ => default
  | (k, v) :: t, a => if a = k then v else mget t a

/-- All entries but a key's. -/
def mdel {α : Type} : List (Nat × α) → Nat → List (Nat × α)
  | [], _ => []
  | (k, v) :: t, a => if a = k then mdel t a else (k, v) :: mdel t a

/-- An entry put in order before the first greater key. -/
def mins {α : Type} : List (Nat × α) → Nat → α → List (Nat × α)
  | [], a, x => [(a, x)]
  | (k, v) :: t, a, x => if a < k then (a, x) :: (k, v) :: t else (k, v) :: mins t a x

/-- Writing a key: the default is not listed. -/
def mput {α : Type} [Inhabited α] [DecidableEq α] (m : List (Nat × α)) (a : Nat) (x : α) : List (Nat × α) :=
  if x = default then mdel m a else mins (mdel m a) a x

/-- Changing the entry of a key. -/
def mmod {α : Type} [Inhabited α] [DecidableEq α] (m : List (Nat × α)) (a : Nat) (f : α → α) : List (Nat × α) :=
  mput m a (f (mget m a))

/-- The keys of a range [lo, lo + n) dropped: they read as the default again. -/
def mclear {α : Type} (m : List (Nat × α)) (lo n : Nat) : List (Nat × α) :=
  m.filter fun e => e.1 < lo || lo + n ≤ e.1

/-- Strictly rising keys and no entry equal to the default. -/
def mwf {α : Type} [Inhabited α] [DecidableEq α] : List (Nat × α) → Bool
  | [] => true
  | [(_, v)] => decide (v ≠ default)
  | (k, v) :: (k', v') :: t => decide (k < k') && decide (v ≠ default) && mwf ((k', v') :: t)

/-- The canonical form of a memory: addresses strictly rising, and no byte listed that reads as an unlisted one does (log entry 5). -/
def Memory.wf (m : List Host.Cell) : Bool := mwf m

/-! ## Bit fields -/

/-- The value of a field of a register word. -/
def Fld.get (f : Fld) (w : DWord) : Nat := (w.toNat >>> f.lo) % 2 ^ (f.hi + 1 - f.lo)

/-- A register word with a field replaced (the value taken modulo the field's range). -/
def Fld.set (f : Fld) (w : DWord) (n : Nat) : DWord :=
  BitVec.ofNat 64 (w.toNat % 2 ^ f.lo + (n % 2 ^ (f.hi + 1 - f.lo)) * 2 ^ f.lo + (w.toNat >>> (f.hi + 1)) * 2 ^ (f.hi + 1))

/-- Bits [lo + w − 1 : lo] of a number replaced. -/
def setBits (x lo w n : Nat) : Nat := x % 2 ^ lo + (n % 2 ^ w) * 2 ^ lo + (x >>> (lo + w)) * 2 ^ (lo + w)

/-- A number above its limit is reserved, and acts as the reset value 0 (R14). -/
def orReset (lim x : Nat) : Nat := if x ≤ lim then x else 0

/-! ## Registers -/

/-- The address offset of an instance: the sum of index × stride. -/
def dotIdx : List (Nat × Nat) → List Nat → Nat
  | (_, st) :: ds, i :: is => i * st + dotIdx ds is
  | _, _ => 0

/-- The registers that have one value for the whole device although every cluster's block shows them: they are held at
cluster 0's address (R275 and R285: EF_GOLD, EF_REMAP; R324: TL_SCFG and the send images; R196: KS_ device-wide fields; and
what the steward keeps of a learning set, R159). -/
def Reg.shared : Reg → Bool
  | .EF_GOLD | .EF_GOLDSTAT | .EF_REMAP | .EF_REMAPST | .TL_SCFG | .TL_SSTAT | .TL_SIMG
  | .KS_SEQ | .KS_FREE | .KS_DISCARD | .KS_WEARMAX
  | .LR_SET_STATUS | .LR_SET_EPOCH | .LR_SET_SKIPLOST | .LR_SET_LOCKWAIT => true
  | _ => false

/-- The device address an instance of a register is held at. -/
def Reg.addr (r : Reg) (idx : List Nat) : Nat :=
  r.desc.base + (if r.shared then dotIdx r.desc.dims (0 :: idx.tail) else dotIdx r.desc.dims idx)

/-- The reset value of a register, from its fields (R12). -/
def Reg.reset (r : Reg) : DWord :=
  BitVec.ofNat 64 ((r.desc.fields.map fun f => f.2.2 * 2 ^ f.1.lo).sum)

/-- The value of an instance of a register. -/
def State.rd (s : State) (r : Reg) (idx : List Nat) : DWord := mget s.regs (r.addr idx) ^^^ r.reset

/-- An instance of a register set to a value. -/
def State.wr (s : State) (r : Reg) (idx : List Nat) (v : DWord) : State :=
  { s with regs := mput s.regs (r.addr idx) (v ^^^ r.reset) }

/-- The value of a field. -/
def State.fld (s : State) (r : Reg) (idx : List Nat) (f : Fld) : Nat := f.get (s.rd r idx)

/-- A field set to a value. -/
def State.setFld (s : State) (r : Reg) (idx : List Nat) (f : Fld) (n : Nat) : State := s.wr r idx (f.set (s.rd r idx) n)

/-- Is a one-bit field 1? -/
def State.bit (s : State) (r : Reg) (idx : List Nat) (f : Fld) : Bool := s.fld r idx f == 1

/-- The whole value of a register as a number. -/
def State.val (s : State) (r : Reg) (idx : List Nat) : Nat := (s.rd r idx).toNat

/-- A register set to a number. -/
def State.setVal (s : State) (r : Reg) (idx : List Nat) (n : Nat) : State := s.wr r idx (BitVec.ofNat 64 n)

/-- A counter raised by n, saturating at the width of its register (R545, R560 and the counter tables). -/
def State.bump (s : State) (r : Reg) (idx : List Nat) (n : Nat := 1) : State :=
  s.setVal r idx (min (s.val r idx + n) (2 ^ (8 * r.desc.bytes) - 1))

/-- A counting field raised by n, saturating. -/
def State.bumpFld (s : State) (r : Reg) (idx : List Nat) (f : Fld) (n : Nat := 1) : State :=
  s.setFld r idx f (min (s.fld r idx f + n) (2 ^ (f.hi + 1 - f.lo) - 1))

/-- The instance an offset from a register's base names: indices and the rest. -/
def idxOf : List (Nat × Nat) → Nat → Option (List Nat × Nat)
  | [], off => some ([], off)
  | (n, st) :: ds, off =>
    if off / st < n then (idxOf ds (off % st)).map fun r => (off / st :: r.1, r.2) else none

/-- The register whose bytes hold a device address: the register, its instance and the byte within it. -/
def Reg.at? (a : Nat) (r : Reg) : Option (Reg × List Nat × Nat) :=
  if a < r.desc.base then none else
  match idxOf r.desc.dims (a - r.desc.base) with
  | some (idx, off) => if off < r.desc.bytes then some (r, idx, off) else none
  | none => none

/-- The register that holds a device address (the register maps list no other offset: R39). -/
def findReg (a : Nat) : Option (Reg × List Nat × Nat) := Reg.all.findSome? (Reg.at? a)

/-! ## Places -/

/-- The half of a cluster: 0 west, 1 east (R6, R17). -/
def halfOf (c : Nat) : Nat := c / 48
def xOf (c : Nat) : Nat := c % 8
def yOf (c : Nat) : Nat := (c % 48) / 8

/-- cluster_id = H × 48 + Y × 8 + X (R6). -/
def clusterOf (h x y : Nat) : Nat := h * 48 + y * 8 + x

/-- The 12-bit coordinate of an engine in H, X, Y, C order (R6, R123). -/
def coordOf (c slot : Nat) : Nat := halfOf c * 2 ^ 11 + xOf c * 2 ^ 8 + yOf c * 2 ^ 5 + slot

/-- Cluster and core slot of a coordinate; rows Y 6 and 7 name no cluster (R17). -/
def coordCluster (n : Nat) : Option Nat :=
  let y := bitsOf n 5 3
  if y < 6 then some (clusterOf (bitsOf n 11 1) (bitsOf n 8 3) y) else none

def coordSlot (n : Nat) : Nat := n % 32

/-- The number of an engine: cluster × 32 + core slot (R19); of a gate port: 0x1000 + n. -/
def eidOf (c slot : Nat) : Nat := c * 32 + slot
def eidPort (n : Nat) : Nat := 0x1000 + n

/-- The number of a neuron core, and of a vector or matrix core's event units (R153: VC0, VC1, MX). -/
def ncKey (c n : Nat) : Nat := c * 16 + n
def engKey (c e : Nat) : Nat := c * 3 + e

/-- The requester's number (R13). -/
def ridOf : Requester → Nat
  | .port n => 0x1000 + n.val
  | .engine c slot => c.val * 32 + slot.val
  | .steward e => 0x1100 + (if e then 1 else 0)
  | .resident => 0x1102

/-- Base of a cluster window (R38). -/
def winBase (c : Nat) : Nat := 0xF000000000 + c * 0x10000000

/-- Device address of a byte of a core store, local store, operand buffer and bank space (R40). -/
def coreAddr (c n a : Nat) : Nat := winBase c + n * 0x100000 + a
def vcAddr (c v a : Nat) : Nat := winBase c + 0x1000000 + v * 0x100000 + a
def mxAddr (c a : Nat) : Nat := winBase c + 0x1200000 + a
def bankAddr (c a : Nat) : Nat := winBase c + 0x2000000 + a

/-- What a device address names (R38, R40). -/
inductive Loc where
  | lpddr (a : Nat)
  | core (c n a : Nat)
  | local (c v a : Nat)
  | mxbuf (c a : Nat)
  | bank (c a : Nat)
  | setAlias (c a : Nat)
  | clrAlias (c a : Nat)
  | creg (c : Nat)
  | dreg
  | keep (p a : Nat)
  | reserved
  deriving DecidableEq, Repr

/-- The address map within a cluster window (R40). -/
def locCluster (c o : Nat) : Loc :=
  if o < 0x1000000 then (if o % 0x100000 < 0xC0000 then .core c (o / 0x100000) (o % 0x100000) else .reserved)
  else if o < 0x1020000 then .local c 0 (o - 0x1000000)
  else if o < 0x1100000 then .reserved
  else if o < 0x1120000 then .local c 1 (o - 0x1100000)
  else if o < 0x1200000 then .reserved
  else if o < 0x127E800 then .mxbuf c (o - 0x1200000)
  else if o < 0x2000000 then .reserved
  else if o < 0x2400000 then .bank c (o - 0x2000000)
  else if o < 0x6000000 then .reserved
  else if o < 0x6400000 then .setAlias c (o - 0x6000000)
  else if o < 0xA000000 then .reserved
  else if o < 0xA400000 then .clrAlias c (o - 0xA000000)
  else if o < 0xF000000 then .reserved
  else if o < 0xFC00000 then .creg c
  else .reserved

/-- The device address map (R38). -/
def locate (a : Nat) : Loc :=
  if a < 0x6000000000 then .lpddr a
  else if a < 0xF000000000 then .reserved
  else if a < 0xF600000000 then locCluster ((a - 0xF000000000) / 0x10000000) ((a - 0xF000000000) % 0x10000000)
  else if a < 0xFE00000000 then .reserved
  else if a < 0xFE0A000000 then .dreg
  else if a < 0xFF00000000 then .reserved
  else if a < 0xFF80000000 then .keep ((a - 0xFF00000000) / 0x10000000) (a % 0x10000000)
  else .reserved

/-! ## Memory -/

/-- One byte of the device address space; a byte that nothing has written reads zero (R539, log entry 5). -/
def State.peek (s : State) (a : Nat) : Byte := mget s.mem a

/-- n bytes from an address on, as stored. -/
def State.peekN (s : State) (a n : Nat) : List Byte := (List.range n).map fun i => s.peek (a + i)

/-- A little-endian number of n bytes (R7). -/
def State.peekLE (s : State) (a n : Nat) : Nat := leNat (s.peekN a n)

/-- Bytes written from an address on, into a memory. -/
def pokeMem (m : List Host.Cell) (a : Nat) : List Byte → List Host.Cell
  | [] => m
  | b :: t => pokeMem (mput m a b) (a + 1) t

def State.poke (s : State) (a : Nat) (bs : List Byte) : State := { s with mem := pokeMem s.mem a bs }

/-- A little-endian number of n bytes written (R7). -/
def State.pokeLE (s : State) (a n x : Nat) : State := s.poke a (leBytes n x)

/-- A range of memory wiped: it reads zero (R539). -/
def State.wipe (s : State) (a n : Nat) : State := { s with mem := mclear s.mem a n }

/-! ## Unit records -/

def State.modTb (s : State) (n : Nat) (f : Tb → Tb) : State := { s with tb := mmod s.tb n f }
def State.modWg (s : State) (g : Nat) (f : Wg → Wg) : State := { s with wg := mmod s.wg g f }
def State.modNc (s : State) (c n : Nat) (f : Nc → Nc) : State := { s with nc := mmod s.nc (ncKey c n) f }
def State.modEng (s : State) (c e : Nat) (f : Eng → Eng) : State := { s with eng := mmod s.eng (engKey c e) f }
def State.modLs (s : State) (k : Nat) (f : Ls → Ls) : State := { s with ls := mmod s.ls k f }
def State.modGp (s : State) (n : Nat) (f : Gp → Gp) : State := { s with gp := mmod s.gp n f }
def State.modMx (s : State) (c : Nat) (f : Mx → Mx) : State := { s with mx := mmod s.mx c f }
def State.modVx (s : State) (c v : Nat) (f : Vx → Vx) : State := { s with vx := mmod s.vx (c * 2 + v) f }
def State.getMx (s : State) (c : Nat) : Mx := mget s.mx c
def State.getVx (s : State) (c v : Nat) : Vx := mget s.vx (c * 2 + v)
def State.modRt (s : State) (c : Nat) (f : Rt → Rt) : State := { s with rt := mmod s.rt c f }
def State.modSdir (s : State) (d : Nat) (f : Sdir → Sdir) : State := { s with sdir := mmod s.sdir d f }
def State.modLane (s : State) (d l : Nat) (f : SLane → SLane) : State := { s with lane := mmod s.lane (d * 4 + l) f }
def State.modXfer (s : State) (k : Nat) (f : Xfer → Xfer) : State := { s with xfer := mmod s.xfer k f }
def State.modChan (s : State) (k : Nat) (f : Chan → Chan) : State := { s with chan := mmod s.chan k f }
def State.modArb (s : State) (k : Nat) (f : Arb → Arb) : State := { s with arb := mmod s.arb k f }
def State.modSch (s : State) (k : Nat) (f : Sch → Sch) : State := { s with sch := mmod s.sch k f }
def State.modHf (s : State) (k : Nat) (f : Hf → Hf) : State := { s with half := mmod s.half k f }
def State.modDom (s : State) (k : Nat) (f : Dom → Dom) : State := { s with dom := mmod s.dom k f }
def State.modClk (s : State) (k : Nat) (f : Clk → Clk) : State := { s with clk := mmod s.clk k f }
def State.getClk (s : State) (k : Nat) : Clk := mget s.clk k
def State.modBist (s : State) (c : Nat) (f : Bist → Bist) : State := { s with bist := mmod s.bist c f }
def State.getBist (s : State) (c : Nat) : Bist := mget s.bist c
def State.modPw (s : State) (f : Pw → Pw) : State := { s with pw := f s.pw }
def State.modBoot (s : State) (f : Boot → Boot) : State := { s with boot := f s.boot }
def State.modSec (s : State) (f : Sec → Sec) : State := { s with sec := f s.sec }
def State.modCn (s : State) (f : Cnet → Cnet) : State := { s with cn := f s.cn }
def State.modBc (s : State) (k : Nat) (f : Bc → Bc) : State := { s with bc := mmod s.bc k f }
def State.modPcs (s : State) (f : Pcs → Pcs) : State := { s with pcs := f s.pcs }
def State.getDom (s : State) (k : Nat) : Dom := mget s.dom k
def State.getRt (s : State) (c : Nat) : Rt := mget s.rt c
def State.getSdir (s : State) (d : Nat) : Sdir := mget s.sdir d
def State.getLane (s : State) (d l : Nat) : SLane := mget s.lane (d * 4 + l)
def State.getXfer (s : State) (k : Nat) : Xfer := mget s.xfer k
def State.getChan (s : State) (k : Nat) : Chan := mget s.chan k
def State.getArb (s : State) (k : Nat) : Arb := mget s.arb k
def State.getSch (s : State) (k : Nat) : Sch := mget s.sch k
def State.getHf (s : State) (k : Nat) : Hf := mget s.half k
def State.getTb (s : State) (n : Nat) : Tb := mget s.tb n
def State.getWg (s : State) (g : Nat) : Wg := mget s.wg g
def State.getNc (s : State) (c n : Nat) : Nc := mget s.nc (ncKey c n)
def State.getEng (s : State) (c e : Nat) : Eng := mget s.eng (engKey c e)
def State.getLs (s : State) (k : Nat) : Ls := mget s.ls k
def State.getGp (s : State) (n : Nat) : Gp := mget s.gp n

def State.modBk (s : State) (c b : Nat) (f : Bk → Bk) : State := { s with bk := mmod s.bk (c * 8 + b) f }
def State.getBk (s : State) (c b : Nat) : Bk := mget s.bk (c * 8 + b)

/-- A free value drawn (log entry 1). -/
def State.draw (s : State) : DWord × State := (Config.freeValue s.fresh, { s with fresh := s.fresh + 1 })

/-- A fold of state changes over a list. -/
def State.each {α : Type} (s : State) (l : List α) (f : State → α → State) : State := l.foldl f s

/-- A change made only where a condition holds. -/
def State.when (s : State) (c : Bool) (f : State → State) : State := if c then f s else s

/-! ## Partitions and postings -/

/-- The partition a cluster belongs to (R30, R423): one enabled, or being released, that names it. -/
def State.partOfCluster (s : State) (c : Nat) : Option Nat :=
  (List.range 8).find? fun p =>
    (s.bit .GP_PART_CFG [p] GP_PART_CFG_EN || s.fld .GP_PART_STATUS [p] GP_PART_STATUS_STATE == 2) &&
    ((if c < 32 then s.val .GP_PART_CL0 [p] >>> c
      else if c < 64 then s.val .GP_PART_CL1 [p] >>> (c - 32)
      else s.val .GP_PART_CL2 [p] >>> (c - 64)) % 2 == 1)

/-- The partition a port is bound to (R424). -/
def State.partOfPort (s : State) (n : Nat) : Option Nat :=
  if s.bit .GP_MAP [n] GP_MAP_EN then some (s.fld .GP_MAP [n] GP_MAP_PART) else none

/-- Is a port administrative (R432: GP_ADMIN)? -/
def State.isAdmin (s : State) (n : Nat) : Bool := (s.val .GP_ADMIN []).testBit n

/-- The ports whose reason logs a posting for a partition, or for none, goes to (R430). -/
def State.logPorts (s : State) (part : Option Nat) : List Nat :=
  (List.range 8).filter fun n =>
    match part with
    | some p => s.partOfPort n == some p
    | none => s.isAdmin n

/-- A code posted in the reason logs (R430): the unit kind, unit index and cluster with it. -/
def State.post (s : State) (part : Option Nat) (kind unit cluster code : Nat) : State :=
  s.each (s.logPorts part) fun s n => s.modGp n fun g =>
    { g with posts := g.posts ++ [{ code := code, kind := kind, unit := unit, cluster := cluster,
                                    frame := s.val .TL_FRAME [0] }] }

/-! ## World groups -/

/-- States of WG_STATUS.STATE (R87). -/
def wsDisabled : Nat := 0
def wsWaiting : Nat := 1
def wsStepping : Nat := 2
def wsHarvesting : Nat := 3
def wsSwapping : Nat := 4
def wsEpoch : Nat := 5
def wsHalted : Nat := 6

def State.wgState (s : State) (g : Nat) : Nat := s.fld .WG_STATUS [g] WG_STATUS_STATE
def State.setWgState (s : State) (g n : Nat) : State := s.setFld .WG_STATUS [g] WG_STATUS_STATE n
def State.wgPart (s : State) (g : Nat) : Nat := s.fld .WG_CFG [g] WG_CFG_PART
def State.wgNet (s : State) (g : Nat) : Nat := s.fld .WG_CFG [g] WG_CFG_NET
def State.wgTb (s : State) (g : Nat) : Nat := s.fld .WG_CFG [g] WG_CFG_TB
def State.wgBase (s : State) (g : Nat) : Nat := s.fld .WG_WORLDS [g] WG_WORLDS_BASE
def State.wgCount (s : State) (g : Nat) : Nat := s.fld .WG_WORLDS [g] WG_WORLDS_COUNT_M1 + 1

/-- An enabled group: EN is 1, or it has not yet entered DISABLED (R49). -/
def State.wgOn (s : State) (g : Nat) : Bool := s.wgState g != wsDisabled

/-- Has the group a step open? -/
def State.wgOpen (s : State) (g : Nat) : Bool := s.wgState g == wsStepping || s.wgState g == wsHarvesting

/-- The worlds of a group that are resident (R75). -/
def State.wgResident (s : State) (g : Nat) : Nat :=
  if s.bit .WG_CFG [g] WG_CFG_ROT then s.fld .WG_ROT [g] WG_ROT_RESIDENT_M1 + 1 else s.wgCount g

/-- The resident cohort (R75): 0 without rotation. -/
def State.wgCohort (s : State) (g : Nat) : Nat :=
  if s.bit .WG_CFG [g] WG_CFG_ROT then s.val .WG_COHORT [g] else 0

/-- The first resident world (R75, R121). -/
def State.wgFirst (s : State) (g : Nat) : Nat := s.wgBase g + s.wgCohort g * s.wgResident g

/-- The world step of the resident cohort: WG_WSTEP under rotation, WG_STEP otherwise (R63, R79). -/
def State.wgWStep (s : State) (g : Nat) : Nat :=
  if s.bit .WG_CFG [g] WG_CFG_ROT then s.val .WG_WSTEP [g] else s.val .WG_STEP [g]

/-- The enabled group whose world range holds a world (R46, R64). -/
def State.groupOf (s : State) (w : Nat) : Option Nat :=
  (List.range 256).find? fun g => s.wgOn g && decide (s.wgBase g ≤ w) && decide (w < s.wgBase g + s.wgCount g)

/-- A halt that takes effect at the group's next harvest; the first code stands (log entry 13). -/
def State.haltAtHarvest (s : State) (g code : Nat) : State :=
  s.modWg g fun w => if w.haltCode = 0 then { w with haltCode := code } else w

/-- A group halted at once: STATE HALTED, the code in REASON and in the logs (R70, R87, R430). -/
def State.haltNow (s : State) (g code : Nat) : State :=
  ((s.setWgState g wsHalted).setFld .WG_STATUS [g] WG_STATUS_REASON code).post (some (s.wgPart g)) 1 g 0xFFFF code

/-- The tally of a half. -/
def Wg.tally (w : Wg) (h : Nat) : Tally := if h = 0 then w.tallyW else w.tallyE
def Wg.setTally (w : Wg) (h : Nat) (t : Tally) : Wg := if h = 0 then { w with tallyW := t } else { w with tallyE := t }

/-- Counting of flits for harvest (R64), in the half that counts them. -/
def State.tallyInj (s : State) (g h : Nat) : State :=
  s.modWg g fun w => let t := w.tally h; w.setTally h { t with inj := t.inj + 1 }
def State.tallyAcc (s : State) (g h : Nat) : State :=
  s.modWg g fun w => let t := w.tally h; w.setTally h { t with acc := t.acc + 1 }
def State.tallyAbs (s : State) (g h : Nat) : State :=
  s.modWg g fun w => let t := w.tally h; w.setTally h { t with abs := t.abs + 1 }

/-- The counting of a flit of a world, for the world's group if it has one. -/
def State.acceptWorld (s : State) (w h : Nat) : State :=
  match s.groupOf w with
  | some g => s.tallyAcc g h
  | none => s
def State.absorbWorld (s : State) (w h : Nat) : State :=
  match s.groupOf w with
  | some g => s.tallyAbs g h
  | none => s

/-- Sum of injected − accepted − absorbed, with exports and imports of a half when it closes alone, modulo 2^32 (R66, R456). -/
def Tally.sum (t : Tally) : Word := t.inj - t.acc - t.abs
def Tally.halfSum (t : Tally) : Word := t.inj + t.imp - t.acc - t.abs - t.exp

/-! ## Group maps and engines of a group -/

/-- The group-map entries of a core that are in use for a group (R121). -/
def State.gmapOf (s : State) (c n g : Nat) : Option Nat :=
  (List.range 16).find? fun e =>
    s.bit .NC_GMAP_A [c, n, e] NC_GMAP_A_EN && s.fld .NC_GMAP_A [c, n, e] NC_GMAP_A_WG == g

/-- All cores, as pairs. -/
def allCores : List (Nat × Nat) := (List.range 96).flatMap fun c => (List.range 16).map fun n => (c, n)

/-- Which block a listed register belongs to: used to visit only what has left its reset value. -/
def State.listed (s : State) (r : Reg) : List (List Nat) :=
  s.regs.filterMap fun e =>
    match Reg.at? e.1 r with
    | some (_, idx, 0) => some idx
    | _ => none

/-- The neuron cores with an enabled group-map entry for a group (R77, R122): the core and the entry. -/
def State.coresOf (s : State) (g : Nat) : List (Nat × Nat × Nat) :=
  (s.listed .NC_GMAP_A).filterMap fun idx =>
    match idx with
    | [c, n, e] =>
      if s.bit .NC_GMAP_A [c, n, e] NC_GMAP_A_EN && s.fld .NC_GMAP_A [c, n, e] NC_GMAP_A_WG == g
      then some (c, n, e) else none
    | _ => none

/-- The engines bound to a group by an enabled bind entry (R218): matrix cores, vector cores and event-in ports. -/
def State.boundOf (s : State) (g : Nat) : List Nat :=
  ((s.listed .MX_BIND).filterMap fun idx =>
    match idx with
    | [c, n] => if s.bit .MX_BIND [c, n] MX_BIND_EN && s.fld .MX_BIND [c, n] MX_BIND_WG == g then some (eidOf c 18) else none
    | _ => none) ++
  ((s.listed .VX_BIND).filterMap fun idx =>
    match idx with
    | [c, v, n] =>
      if s.bit .VX_BIND [c, v, n] VX_BIND_EN && s.fld .VX_BIND [c, v, n] VX_BIND_WG == g then some (eidOf c (16 + v)) else none
    | _ => none) ++
  ((s.listed .GP_EVBIND).filterMap fun idx =>
    match idx with
    | [n, b] =>
      if s.bit .GP_EVBIND [n, b] GP_EVBIND_EN && s.fld .GP_EVBIND [n, b] GP_EVBIND_WG == g then some (eidPort n) else none
    | _ => none)

/-- A list without repeats. -/
def nodups (l : List Nat) : List Nat := l.foldl (fun acc x => if acc.contains x then acc else acc ++ [x]) []

/-- Every engine of a group whose emit-done its harvest waits for (R65, R218). -/
def State.enginesOf (s : State) (g : Nat) : List Nat :=
  nodups ((s.coresOf g).map (fun e => eidOf e.1 e.2.1) ++ s.boundOf g)

/-- Does an address range touch a 64-bit word that holds any of these unreadable addresses (R26: check bits cover 64 data bits)? -/
def badIn (bad : List Nat) (a n : Nat) : Bool := bad.any fun b => decide (a / 8 * 8 ≤ b) && decide (b < (a + n + 7) / 8 * 8)

/-- The address of the first unreadable 64-bit word that a range touches; the range's own where there is none (R26, R115, R152, R195: an error
is recorded with the store address of its word; log entry 158). -/
def badWord (bad : List Nat) (a n : Nat) : Nat :=
  (((List.range ((a % 8 + n + 7) / 8)).map fun i => a / 8 * 8 + 8 * i).find? fun w => badIn bad w 8).getD a

/-- CRC-32C (Castagnoli, reflected; R183, R500, R556: the spec names the code and not its polynomial, log entry 20). -/
def crc32cByte (c : Nat) : Nat → Nat
  | 0 => c
  | k + 1 => crc32cByte (if c % 2 = 1 then (c / 2) ^^^ 0x82F63B78 else c / 2) k

def crc32c (bs : List Byte) : Nat :=
  (bs.foldl (fun c b => crc32cByte (c ^^^ b.toNat) 8) 0xFFFFFFFF) ^^^ 0xFFFFFFFF

/-! ## LPDDR channels -/

/-- The trained channels of a range of DM numbers, in ascending order; a channel that failed in service stays in the list (R380, R383). -/
def State.dmList (s : State) (lo hi : Nat) : List Nat :=
  ((List.range 24).filter fun n => decide (lo ≤ n) && decide (n < hi)).filter fun n =>
    s.fld .DM_CH_STATUS [n] DM_CH_STATUS_STATE == 1 || s.fld .DM_CH_STATUS [n] DM_CH_STATUS_STATE == 3

/-- The channel and channel address of a device address below DM_CAPACITY (R380). -/
def State.dmMap (s : State) (a : Nat) : Option (Nat × Nat) :=
  if a ≥ s.val .DM_CAPACITY [] then none else
  let eb := s.val .DM_EBASE []
  let x := s.bit .DM_CFG [] DM_CFG_XHALF
  let list := if x then s.dmList 0 24 else if a < eb then s.dmList 0 12 else s.dmList 12 24
  let b := if x || a < eb then a else a - eb
  let n := list.length
  if n = 0 then none
  else
    let u := b / 4096
    some (list.getD (u % n) 0, u / n * 4096 + b % 4096)

end Sys2Proof.Machine
end

