-- ==== Sys2Proof/Machine/Banks.lean ====
section
/-! DEFINITION. The cluster banks (R358 to R371): ownership, handover, retention, aliases and errors. -/

namespace Sys2Proof.Machine

/-- The bank of a bank-space offset (R358). -/
def bankOf (o : Nat) : Nat := o / 0x80000

/-- The endpoint number of a cluster's engine or bank port (R298, R363). -/
def endpointOf (c p : Nat) : Nat := c * 8 + p

/-- Does an ownership setting permit an access by an endpoint (R363)? A reserved MODE acts as OPEN, the reset value (R14). -/
def ownPermits (setting ep : Nat) (write : Bool) : Bool :=
  match bitsOf setting 10 2 with
  | 1 => !write || bitsOf setting 0 10 == ep
  | 2 => bitsOf setting 0 10 == ep
  | _ => true

/-- Is an engine fenced (R283)? -/
def State.fencedEng (s : State) (c slot : Nat) : Bool := (s.val .EF_FENCE [c]).testBit slot

/-- Is a bank awake: does it accept accesses (R367, R368, R393)? -/
def State.bankAwake (s : State) (c b : Nat) : Bool := (s.fld .BK_STATUS [c] BK_STATUS_AWAKE).testBit b

def State.inHandover (s : State) (c b : Nat) : Bool := (s.fld .BK_STATUS [c] BK_STATUS_HANDOVER).testBit b

/-- Does the bank's ownership permit the access: while a handover runs, both settings must (R364)? -/
def State.bankPermits (s : State) (c b ep : Nat) (write : Bool) : Bool :=
  ownPermits (s.val .BK_OWN [c, b]) ep write && (!s.inHandover c b || ownPermits (s.getBk c b).prev ep write)

/-- May the sink of an engine (0: VC0, 1: VC1, 2: MX) add into a bank: awake, MODE 1 or 2, the owner its engine, in both settings
during a handover (R363, R364, R367)? -/
def State.sinkOwns (s : State) (c b e : Nat) : Bool :=
  let ok (v : Nat) : Bool := (bitsOf v 10 2 == 1 || bitsOf v 10 2 == 2) && bitsOf v 0 10 == endpointOf c (3 + e)
  s.bankAwake c b && ok (s.val .BK_OWN [c, b]) && (!s.inHandover c b || ok (s.getBk c b).prev)

/-- A one-bit change in a status field of BK_STATUS. -/
def State.setBkBit (s : State) (c b : Nat) (f : Fld) (x : Bool) : State :=
  s.setFld .BK_STATUS [c] f (setBits (s.fld .BK_STATUS [c] f) b 1 (if x then 1 else 0))

/-- A write of BK_OWNn (R364, R365): the handover starts, or its new setting is replaced. -/
def State.bkOwnWrite (s : State) (c b v : Nat) : State :=
  let s := if s.inHandover c b then s
    else (s.modBk c b fun k => { k with prev := s.val .BK_OWN [c, b] }).setBkBit c b BK_STATUS_HANDOVER true
  (s.modBk c b fun k => { k with gen := k.gen + 1 }).setVal .BK_OWN [c, b] (v % 2 ^ 12)


/-- A code posted in BK_STATUS.REASON and in the logs (R395, R430). -/
def State.bkPost (s : State) (c code : Nat) : State :=
  (s.setFld .BK_STATUS [c] BK_STATUS_REASON code).post (s.partOfCluster c) 9 c c code

/-- Does a range of bank space reach into a bank? -/
def inBank (b lo n : Nat) : Bool := decide (lo < (b + 1) * 0x80000) && decide (b * 0x80000 < lo + n)

/-- The word ranges of a fan-out chain from an entry on (R132); the first argument bounds the entries. -/
def chainWords (rd : Nat → Nat) : Nat → Nat → List (Nat × Nat)
  | 0, _ => []
  | k + 1, a =>
    let h := rd a
    (a, bitsOf h 4 4 + 2) :: (if bitsOf h 14 18 = 0x3FFFF then [] else chainWords rd k (bitsOf h 14 18))

/-- The table space of an emit port in bank space (R131, R132, R147): the directory, and the fan-out entries that its words lead to, 64 in a
chain at the most. -/
def State.emitRanges (s : State) (c e : Nat) : List (Nat × Nat) :=
  let base := s.val .SY_EMIT_BASE [c, e]
  let rd (a : Nat) : Nat := if base + 4 * a < 0x400000 then s.peekLE (bankAddr c (base + 4 * a)) 4 else 0
  let n := orReset 65536 (s.fld .SY_EMIT_CFG [c, e] SY_EMIT_CFG_NSRC)
  (base, 4 * n) :: (List.range n).flatMap fun i =>
    if (rd i).testBit 31 then (chainWords rd 64 (bitsOf (rd i) 0 18)).map fun x => (base + 4 * x.1, 4 * x.2) else []

/-- Does the bank hold a ring, control block or buffer of an enabled channel or queue, the buffers of an enabled sink, the table
space of an enabled emit port, or an enabled trace ring (R369, R557)? -/
def State.bankHeld (s : State) (c b : Nat) : Bool :=
  ((List.range 32).any fun n => s.bit .MQ_CH_CFG [c, n] MQ_CH_CFG_EN &&
    (inBank b (s.val .MQ_CH_RING [c, n] - 0x2000000) (2 ^ s.fld .MQ_CH_CFG [c, n] MQ_CH_CFG_LOG2SIZE) || inBank b (s.val .MQ_CH_CCB [c, n] - 0x2000000) 128)) ||
  ((List.range 8).any fun n => s.bit .MQ_Q_CFG [c, n] MQ_Q_CFG_EN &&
    (let ne := s.fld .MQ_Q_CFG [c, n] MQ_Q_CFG_NELEM_M1 + 1
     inBank b (s.val .MQ_Q_ACC [c, n] - 0x2000000) (16 * ne) ||
     inBank b (s.val .MQ_Q_OUT [c, n] - 0x2000000) (if s.bit .MQ_Q_CFG [c, n] MQ_Q_CFG_OFMT then 16 * ne else 8 * ne) ||
     inBank b (s.val .MQ_Q_CCB [c, n] - 0x2000000) 128)) ||
  ((List.range 3).any fun e => s.bit .SY_SINK_CFG [c, e] SY_SINK_CFG_EN &&
    inBank b (s.val .SY_SINK_BASE [c, e])
      (8 * (s.fld .SY_SINK_SHAPE [c, e] SY_SINK_SHAPE_NWORLD_M1 + 1) * (s.fld .SY_SINK_SHAPE [c, e] SY_SINK_SHAPE_NELEM_M1 + 1))) ||
  ((List.range 3).any fun e => s.bit .SY_EMIT_CFG [c, e] SY_EMIT_CFG_EN && (s.emitRanges c e).any fun r => inBank b r.1 r.2) ||
  (s.bit .PC_TRRING [c] PC_TRRING_EN &&
    inBank b (s.fld .PC_TRRING [c] PC_TRRING_BASE * 0x1000) (16 * 2 ^ s.fld .PC_TRRING [c] PC_TRRING_LOG2))

/-- One bank's bit of a write of BK_RET (R367 to R369): into retention unless it is held, or the start of a wake. -/
def State.bkRetBit (s : State) (c b : Nat) (x : Bool) : State :=
  let was := (s.val .BK_RET [c]).testBit b
  if x && !was then
    if s.bankHeld c b then s.bkPost c 0x0A04
    else ((s.setVal .BK_RET [c] (setBits (s.val .BK_RET [c]) b 1 1)).setBkBit c b BK_STATUS_AWAKE false).modBk c b
      fun k => { k with waking := false }
  else if !x && was then
    (s.setVal .BK_RET [c] (setBits (s.val .BK_RET [c]) b 1 0)).modBk c b fun k => { k with waking := true }
  else s

def State.bkRetWrite (s : State) (c v : Nat) : State :=
  s.each (List.range 8) fun s b => s.bkRetBit c b (v.testBit b)

/-- 2 µs after the wake write the bank accepts accesses again (R368). -/
def State.bkWakeDone (s : State) (c b : Nat) : State :=
  if (s.getBk c b).waking then
    ((s.setBkBit c b BK_STATUS_AWAKE true).bump .BK_WAKES [c]).modBk c b fun k => { k with waking := false }
  else s

/-- A line of a bank changed by an alias write or a sink addition that meets an uncorrectable line (R371): the line stays, the
error is counted and its offset recorded. -/
def State.bankLineBad (s : State) (c o : Nat) : State :=
  (s.bump .BK_UNCORR [c]).setVal .BK_ERRADDR [c] (o % 2 ^ 22)

end Sys2Proof.Machine
end

