-- ==== Sys2Proof/Machine/Reach.lean ====
section
/-! DEFINITION. What a device address reaches: domain states (R465), the LPDDR interleave (R380), partition bounds (R37, R530), and the
refusal code of an access (R309, R312, R363, R367, R383, R458). -/

namespace Sys2Proof.Machine

/-! ## Domains -/

/-- Is a switched domain ON (R465, R493)? -/
def State.domOn (s : State) (n : Nat) : Bool := s.fld .PW_STAT [n] PW_STAT_STATE == 0

/-- Is a cluster in reset (R36, R425, R500, R509, R511, R514, R515): it belongs to no partition or to one being released, it is held, in a
running reset of its own or of its partition, or under runtime BIST past its waiting step? -/
def State.inReset (s : State) (c : Nat) : Bool :=
  (match s.partOfCluster c with | some p => s.fld .GP_PART_STATUS [p] GP_PART_STATUS_STATE == 2 | none => true) || (s.getBist c).held ||
  (let b := s.fld .BU_BISTSTAT [c] BU_BISTSTAT_STATE; b == 2 || b == 3 || b == 4) ||
  (match s.rsts with
   | r :: _ => (r.scope == 1 && r.target == c) || (r.scope == 2 && s.partOfCluster c == some r.target)
   | [] => false)

/-- Is an engine in a running core reset (R509)? -/
def State.engReset (s : State) (c slot : Nat) : Bool :=
  match s.rsts with
  | r :: _ => r.scope == 0 && r.target == coordOf c slot
  | [] => false

/-- A cluster serves: its domain is ON and it is not in reset (R278, R312, R511). -/
def State.clusterOn (s : State) (c : Nat) : Bool := s.domOn c && !s.inReset c
/-- The matrix core of a cluster serves: its subdomain and the cluster domain are ON (R21), and it is not in reset. -/
def State.mxOn (s : State) (c : Nat) : Bool := s.clusterOn c && s.domOn (96 + c) && !s.engReset c 18
def State.chanOn (s : State) (n : Nat) : Bool := s.domOn (196 + n)

/-- Is a memory channel off, or on its way to or from there: a piece does not wake it, and it has no contents (R312, R378, R465)? -/
def State.chanLost (s : State) (n : Nat) : Bool :=
  let d := s.getDom (196 + n)
  match s.fld .PW_STAT [196 + n] PW_STAT_STATE with
  | 2 => true
  | 3 => d.goal == 3 || (d.goal == 1 && d.was == 2)
  | _ => false
def State.portOn (s : State) (n : Nat) : Bool := s.domOn (220 + n)
def State.tbOn (s : State) : Bool := s.domOn 228

/-- A domain that is not ON starts to return to ON (R222, R378, R469): the source is recorded, and ON is written into PW_REQn unless the
wake is for a reset. A domain already in transition to ON stays as it is. -/
def State.wakeDomain (s : State) (n src : Nat) : State :=
  let st := s.fld .PW_STAT [n] PW_STAT_STATE
  if st = 0 ∨ (s.getDom n).goal = 1 then s
  else
    let s := (s.setFld .PW_STAT [n] PW_STAT_STATE 3).setFld .PW_STAT [n] PW_STAT_WAKESRC src
    let s := s.modDom n fun d => { goal := 1, was := if st = 3 then d.was else st, back := src == 5 }
    if src = 5 then s else s.setFld .PW_REQ [n] PW_REQ_TARGET 0

/-- The split state (R454, R463). -/
def State.isSplit (s : State) : Bool := s.fld .SM_STATUS [] SM_STATUS_STATE == 2

/-! ## LPDDR -/

/-- The half of a channel (R297). -/
def dmHalf (n : Nat) : Nat := n / 12

/-- The half of a gate port: 0 to 3 west, 4 to 7 east (R297). -/
def gpHalf (n : Nat) : Nat := n / 4

/-- The half of an endpoint (R298). -/
def epHalf (e : Nat) : Nat := if e < 768 then halfOf (e / 8) else if e < 792 then dmHalf (e - 768) else gpHalf (e - 792)

/-- Does a partition's LPDDR region hold a range (R32)? -/
def State.inRegion (s : State) (p a n : Nat) : Bool :=
  let b := s.val .GP_PART_BASE [p]
  decide (b ≤ a) && decide (a + n ≤ b + s.val .GP_PART_SIZE [p] * 2 ^ 30)

/-- The channels that a partition's region maps a unit to (R379, R383). -/
def State.regionUses (s : State) (p ch : Nat) : Bool :=
  let b := s.val .GP_PART_BASE [p]
  let n := s.val .GP_PART_SIZE [p] * 2 ^ 30
  let eb := s.val .DM_EBASE []
  if s.bit .DM_CFG [] DM_CFG_XHALF then (s.dmList 0 24).contains ch && n != 0
  else if ch < 12 then (s.dmList 0 12).contains ch && decide (b < eb) && n != 0
  else (s.dmList 12 24).contains ch && decide (eb < b + n) && n != 0

/-! ## Endpoints and targets -/

/-- The core slot of a cluster endpoint's engine, for the fence vector (R19, R298); a bank or store port belongs to none. -/
def epSlot (e : Nat) : Option Nat :=
  if e < 768 then (match e % 8 with | 3 => some 16 | 4 => some 17 | 5 => some 18 | 6 => some 18 | _ => none) else none

/-- The target endpoint of a device address: the bank port that reads a bank is chosen by the requester's circuit, BKA here (R296). -/
def State.targetOf (s : State) (a : Nat) : Option Nat :=
  match locate a with
  | .lpddr a => (s.dmMap a).map fun x => 768 + x.1
  | .core c _ _ => some (c * 8 + 2)
  | .local c v _ => some (c * 8 + 3 + v)
  | .mxbuf c _ => some (c * 8 + 5)
  | .bank c _ => some (c * 8)
  | .setAlias c _ => some (c * 8)
  | .clrAlias c _ => some (c * 8)
  -- the producer lines of host channels (R420)
  | .dreg => if 0xFE03800000 ≤ a ∧ a < 0xFE03808000 then some (792 + (a - 0xFE03800000) / 0x1000) else none
  | _ => none

/-- Is a fence set for the engine that holds a target (R312)? -/
def State.targetFenced (s : State) (a : Nat) : Bool :=
  match locate a with
  | .core c n _ => (s.val .EF_FENCE [c]).testBit n || s.engReset c n
  | .local c v _ => (s.val .EF_FENCE [c]).testBit (16 + v) || s.engReset c (16 + v)
  | .mxbuf c _ => (s.val .EF_FENCE [c]).testBit 18
  | _ => false

/-- Does an address lie within a partition's own clusters' windows, region or keep-store window (R37)? -/
def State.inPart (s : State) (p a n : Nat) : Bool :=
  match locate a with
  | .lpddr _ => s.inRegion p a n
  | .core c _ _ => s.partOfCluster c == some p
  | .local c _ _ => s.partOfCluster c == some p
  | .mxbuf c _ => s.partOfCluster c == some p
  | .bank c _ => s.partOfCluster c == some p
  | .setAlias c _ => s.partOfCluster c == some p
  | .clrAlias c _ => s.partOfCluster c == some p
  | .keep q _ => q == p
  | _ => false

/-- The half an address's memory lies in. -/
def State.addrHalf (s : State) (a : Nat) : Nat :=
  match s.targetOf a with
  | some e => epHalf e
  | none => 0

/-- The refusal code of a bank (R363, R364, R367). -/
def State.bankCode (s : State) (c o ep : Nat) (write : Bool) : Nat :=
  let b := bankOf o
  if !s.bankAwake c b then 0x0A12 else if !s.bankPermits c b ep write then 0x0A11 else 0

/-- The refusal code of an access by an endpoint of a partition to a range that lies at one target (0: accepted): the split state
(R458), the partition's bounds and presence, the target's fence and its domain (R312), then the bank's retention and ownership
(R363, R367) or the channel's failure (R383). -/
def State.reachCode (s : State) (part : Option Nat) (ep a n : Nat) (write : Bool) : Nat :=
  if !(match part with | some p => s.inPart p a n | none => false) then 0x0812
  else if s.isSplit && (s.targetOf a).isSome && s.addrHalf a != epHalf ep then 0x0D12
  else
    match locate a with
    | .lpddr x =>
      (match s.dmMap x with
       | none => 0x0812
       | some (ch, _) => if s.fld .DM_CH_STATUS [ch] DM_CH_STATUS_STATE == 3 then 0x0B13 else if s.chanLost ch then 0x0812 else 0)
    | .core c _ _ => if s.targetFenced a || !s.clusterOn c then 0x0812 else 0
    | .local c _ _ => if s.targetFenced a || !s.clusterOn c then 0x0812 else 0
    | .mxbuf c o => if o + n > 0x7E800 || s.targetFenced a || !s.mxOn c then 0x0812 else 0
    | .bank c o => if !s.clusterOn c then 0x0812 else s.bankCode c o ep write
    | .setAlias c o => if !s.clusterOn c then 0x0812 else s.bankCode c o ep write
    | .clrAlias c o => if !s.clusterOn c then 0x0812 else s.bankCode c o ep write
    | .keep q o => if o + n ≤ s.val .GP_PART_KSHARE [q] * 2 ^ 20 then 0 else 0x0812
    | _ => 0x0812

/-- The first refusal code over the 4 KiB units of a range (each unit lies at one target: R308, R380). -/
def State.reachRange (s : State) (part : Option Nat) (ep a n : Nat) (write : Bool) : Nat :=
  ((List.range ((a % 4096 + n + 4095) / 4096)).map fun i =>
    let lo := max a ((a / 4096 + i) * 4096)
    let hi := min (a + n) ((a / 4096 + i + 1) * 4096)
    s.reachCode part ep lo (hi - lo) write).find? (· != 0) |>.getD 0

/-- The neuron core whose store or NC_ registers a device address lies in (R38, R40, R93). -/
def coreOfAddr (a : Nat) : Option (Nat × Nat) :=
  match locate a with
  | .core c n _ => some (c, n)
  | .creg c => let o := a - winBase c; if 0xF000000 ≤ o ∧ o < 0xF010000 then some (c, (o - 0xF000000) / 0x1000) else none
  | _ => none

/-- An access at a device address: a sleeping neuron core whose store or NC_ registers it reaches is due to wake (R114). -/
def State.coreTouch (s : State) (a : Nat) : State :=
  match coreOfAddr a with
  | some (c, n) => if s.fld .NC_STATUS [c, n] NC_STATUS_STATE = 4 then s.modNc c n fun u => { u with hit := true } else s
  | none => s

/-- Is a register one of a neuron core's NC_ block (R119)? -/
def Reg.ofCore (r : Reg) : Bool := decide (0xF00F000000 ≤ r.desc.base) && decide (r.desc.base < 0xF00F100000)

/-- The 64-byte lines that a range touches. -/
def linesOf (a n : Nat) : Nat := if n = 0 then 0 else (a % 64 + n + 63) / 64

/-- The plain bank-space address behind an alias; the others stay (R40). -/
def plainAddr (a : Nat) : Nat :=
  match locate a with
  | .setAlias c o => bankAddr c o
  | .clrAlias c o => bankAddr c o
  | _ => a

/-- Bytes stored in a matrix core's operand buffers; those of the tile and accumulator buffers stand until the next load (R204). -/
def State.bufPoke (s : State) (c o : Nat) (bs : List Byte) : State :=
  (s.poke (mxAddr c o) bs).modMx c fun x => if x.tiles = 0 then x else { x with fixed := (o, bs.length) :: x.fixed }

/-- A byte of the operand buffers as it reads: what a load has put into the tile and accumulator buffers is free (R204, R249). -/
def State.bufByte (s : State) (c o : Nat) : Byte :=
  let x := s.getMx c
  if o < 0x50000 ∧ x.tiles ≠ 0 ∧ !x.fixed.any (fun r => decide (r.1 ≤ o) && decide (o < r.1 + r.2)) then Config.tileByte x.tiles c o
  else s.peek (mxAddr c o)

/-- A write of bytes within one line, requested from a cluster: through the set alias they OR, through the clear alias they clear (R366), a
core store drops what R91 says, and counts it (log entry 69), the tile and accumulator buffers of an enabled matrix core drop it, counted
against the requesting cluster (R39, R205); any other place stores. -/
def State.lineWrite (s : State) (by_ a : Nat) (bs : List Byte) : State :=
  let p := plainAddr a
  match locate a with
  | .setAlias c _ =>
    (s.poke p ((bs.zip (s.peekN p bs.length)).map fun x => x.1 ||| x.2)).bump .BK_ALIAS [c]
  | .clrAlias c _ =>
    (s.poke p ((bs.zip (s.peekN p bs.length)).map fun x => x.2 &&& ~~~x.1)).bump .BK_ALIAS [c]
  | .bank c _ => (s.poke p bs).bump .BK_WR [c]
  | .mxbuf c o =>
    if s.bit .MX_CFG [c] MX_CFG_EN && decide (o < 0x50000) then s.bump .PC_STRAY [by_] else s.bufPoke c o bs
  | .lpddr x =>
    match s.dmMap x with
    | some (ch, _) => (s.poke p bs).bump .DM_WRB [ch]
    | none => s
  | .local c v o =>
    -- R224: outside writes to the standard service program are dropped
    if s.bit .VX_CFG [c, v] VX_CFG_STDSVC && decide (o ≥ 0x1C000) then s else s.poke p bs
  | .core c n o =>
    -- R91: the power tables and the active bitmap are the core's; the parameter sets stand while NC_CFG.EN = 1
    if (decide (0x1000 ≤ o) && decide (o < 0x5000)) || (decide (o < 0x1000) && s.bit .NC_CFG [c, n] NC_CFG_EN) then
      s.bump .NC_WDROP [c, n]
    else s.poke p bs
  | _ => s

end Sys2Proof.Machine
end

