-- ==== Sys2Proof/Machine/Arbiters.lean ====
section
/-! DEFINITION. The arbiters (R384 to R390): asking, losing, waiting, reserving, and the sideband. Arbiters are numbered: 0 to 23 the LPDDR
channels, 24 to 31 the staging SRAMs, 32 + cluster × 8 + bank the banks, 800 + cluster the keep-store banks. -/

namespace Sys2Proof.Machine

/-- The arbiter of a bank. -/
def bankArb (c b : Nat) : Nat := 32 + c * 8 + b

/-- NGRANT of an arbiter (R388, R394): a value outside 4 to 64 acts as 16. -/
def actNgrant (n : Nat) : Nat := if 4 ≤ n ∧ n ≤ 64 then n else 16
def State.ngrant (s : State) (k : Nat) : Nat :=
  if k < 32 ∨ k ≥ 800 then actNgrant (s.val .DM_ARB []) else actNgrant (s.fld .BK_ARB [(k - 32) / 8] BK_ARB_NGRANT)

/-- Is an endpoint in hold mode (R387)? A sink is set by its cluster's BK_ARB.HOLD, VC0, VC1 and MX in order. -/
def State.holdMode (s : State) (k e : Nat) : Bool :=
  if 32 ≤ k ∧ k < 800 then (s.fld .BK_ARB [(k - 32) / 8] BK_ARB_HOLD).testBit (e % 8 - 3)
  else (s.val .DM_HOLD [e / 32]).testBit (e % 32)

/-- Does the sideband mark a requester: its domain is in reset, retention or off (R390)? -/
def State.arbMarked (s : State) (e : Nat) : Bool :=
  if e < 768 then (if e % 8 = 5 ∨ e % 8 = 6 then !s.mxOn (e / 8) else !s.clusterOn (e / 8))
  else if e < 792 then false else !s.portOn (e - 792)

/-- The back-off count after a refusal (R386). -/
def nextBack (b : Nat) : Nat := if b = 0 then 8 else min 1024 (2 * b)

/-- A refusal counted (R386, R392). -/
def State.arbLoss (s : State) (k : Nat) (n : Nat := 1) : State :=
  if k < 24 then s.bump .DM_LOSS [k] n else if k < 32 then s.bump .DM_GPLOSS [k - 24] n
  else if k < 800 then s.bump .BK_LOSS [(k - 32) / 8] n else s.bump .DM_KSLOSS [] n

/-- Is the next grant of an arbiter the oldest waiter's (R388)? -/
def State.arbTurn (s : State) (k : Nat) : Bool := ((s.getArb k).grants + 1) % s.ngrant k == 0

/-- A request meets an arbiter (R384 to R388): granted when an entry is free, the requester holds none, no other requester has the
reservation, and the grant is not the oldest waiter's; refused otherwise, counted, and noted among the waiters. -/
def State.arbAsk (s : State) (k cap e : Nat) : Bool × State :=
  let a := s.getArb k
  let oldest := a.wait.head?.map (·.1)
  let reserve := s.arbTurn k && a.resv == 0 && oldest.isSome && oldest != some e
  if a.held.length < cap && !a.held.contains e && (a.resv == 0 || a.resv == e + 1) && !reserve then
    (true, s.modArb k fun a => { a with grants := a.grants + 1, held := a.held ++ [e], wait := a.wait.filter (·.1 != e),
                                        resv := if a.resv = e + 1 then 0 else a.resv })
  else
    let s := s.modArb k fun a =>
      { a with wait := if a.wait.any (·.1 == e) then a.wait else a.wait ++ [(e, s.holdMode k e)],
               resv := if reserve && !(a.wait.headD (0, false)).2 then (a.wait.headD (0, false)).1 + 1 else a.resv }
    (false, s.arbLoss k)

/-- A grant is over (R385). -/
def State.arbFree (s : State) (k e : Nat) : State := s.modArb k fun a => { a with held := a.held.erase e }

/-- A line or page operation that is granted and made in one command: the steward's at a bank or a channel, the keep-store unit's
(R384; log entry 166). -/
def State.arbOnce (s : State) (k : Nat) (n : Nat := 1) : State := s.modArb k fun a => { a with grants := a.grants + n }

/-- The waiter in a hold slot that an arbiter with a free entry grants next (R387, R388): the oldest, unless the grant belongs to a requester
that backs off. -/
def State.arbHeld (s : State) (k : Nat) : Option Nat :=
  let a := s.getArb k
  if s.arbTurn k && a.resv == 0 && (match a.wait.head? with | some w => !w.2 | none => false) then none
  else ((a.wait.filter fun w => w.2 && (a.resv == 0 || a.resv == w.1 + 1) && !a.held.contains w.1).head?).map (·.1)

/-- The next free entry is kept for the oldest waiter, when the grant is its (R388). -/
def State.arbReserve (s : State) (k : Nat) : State :=
  if s.arbTurn k then
    s.modArb k fun a =>
      match a.resv, a.wait.head? with
      | 0, some (e, false) => { a with resv := e + 1 }
      | _, _ => a
  else s

/-- A waiter in a hold slot is granted (R387). -/
def State.arbGrantHeld (s : State) (k e : Nat) : State :=
  s.modArb k fun a => { a with grants := a.grants + 1, held := a.held ++ [e], wait := a.wait.filter (·.1 != e), resv := 0 }

/-- A requester leaves an arbiter's waiters. -/
def State.arbLeave (s : State) (k e : Nat) : State :=
  s.modArb k fun a => { a with wait := a.wait.filter (·.1 != e), resv := if a.resv = e + 1 then 0 else a.resv }

/-- Does a requester wait at an arbiter? -/
def State.arbWaits (s : State) (k e : Nat) : Bool := (s.getArb k).wait.any fun w => w.1 == e

/-! ## Handovers -/

/-- Is a requester fenced, or in a domain that does not serve: what it had at a bank ends at once (R391)? -/
def State.reqDown (s : State) (e : Nat) : Bool :=
  s.arbMarked e || (match epSlot e with | some k => s.fencedEng (e / 8) k | none => false)

/-- Does an access that a target accepted still run there (R364, R466): a read until its last data beat has been transmitted, a write until
its last line is written? -/
def Piece.runs (write : Bool) (p : Piece) : Bool := p.st == 1 && decide ((if write then p.moved else p.sent) < p.n)

/-- The cluster whose memory holds a place, if one does. -/
def placeCluster (a : Nat) : Option Nat :=
  match locate a with
  | .mxbuf c _ => some c
  | .core c _ _ => some c
  | .local c _ _ => some c
  | .bank c _ => some c
  | .setAlias c _ => some c
  | .clrAlias c _ => some c
  | _ => none

/-- The accesses accepted in a switched domain that still run (R466): those in a cluster's memory, in its operand buffers, or in a port's
staging. A channel drains its queue of its own (R378). -/
def State.domAccepted (s : State) (n : Nat) : Bool :=
  s.xfer.any fun x => !s.reqDown x.2.ep && x.2.pieces.any fun p =>
    p.runs x.2.write && (if n < 96 then placeCluster p.a == some n
      else if n < 192 then (match locate p.a with | .mxbuf c _ => c == n - 96 | _ => false)
      else decide (220 ≤ n) && decide (n < 228) && p.tgt == 792 + (n - 220))

/-- Does a piece that the bank accepted before the last write of its ownership still run (R364, R365, R391)? -/
def State.bankBusy (s : State) (c b : Nat) : Bool :=
  s.xfer.any fun x => !s.reqDown x.2.ep && x.2.pieces.any fun p =>
    p.runs x.2.write && decide (p.gen < (s.getBk c b).gen) &&
    (match locate p.a with
     | .bank k o => k == c && bankOf o == b
     | .setAlias k o => k == c && bankOf o == b
     | .clrAlias k o => k == c && bankOf o == b
     | _ => false)

/-- The handover ends once the accesses accepted before the write have completed (R364). -/
def State.bkHandoverEnd (s : State) (c b : Nat) : State :=
  if s.inHandover c b && !s.bankBusy c b then
    (s.setBkBit c b BK_STATUS_HANDOVER false).modBk c b fun k => { k with prev := 0 }
  else s

/-! ## Reservations -/

/-- The reservation passes to the next oldest requester that backs off (R388). -/
def State.resvExpire (s : State) (k : Nat) : State :=
  s.modArb k fun a =>
    if a.resv = 0 then a
    else
      match ((a.wait.dropWhile fun w => w.1 + 1 != a.resv).drop 1).find? fun w => !w.2 with
      | some w => { a with resv := w.1 + 1 }
      | none => { a with resv := 0 }

end Sys2Proof.Machine
end

