-- ==== Sys2Proof/Machine/Time.lean ====
section
/-! DEFINITION. Timebases and their input channels (R50 to R60, R581): edges, counts, targets, enable and disable. -/

namespace Sys2Proof.Machine

/-! ## Input channels -/

/-- The filtered levels of a channel, A, B, Z in bits 0, 1, 2, as TB_IN_STATUS shows them (R85). -/
def State.tbiLevels (s : State) (m : Nat) : Nat := s.val .TB_IN_STATUS [m] % 8

/-- The levels of the pins seen through the polarities (R84, R581). -/
def State.tbiSeen (s : State) (m pins : Nat) : Nat :=
  pins ^^^ ((s.fld .TB_IN_CFG [m] TB_IN_CFG_POL_A) + 2 * (s.fld .TB_IN_CFG [m] TB_IN_CFG_POL_B)
            + 4 * (s.fld .TB_IN_CFG [m] TB_IN_CFG_POL_Z))

def State.setLevels (s : State) (m n : Nat) : State :=
  ((s.setFld .TB_IN_STATUS [m] TB_IN_STATUS_A n).setFld .TB_IN_STATUS [m] TB_IN_STATUS_B (n / 2)).setFld
    .TB_IN_STATUS [m] TB_IN_STATUS_Z (n / 4)

/-- The enabled timebases that take a channel (R55, R581). -/
def State.tbsOf (s : State) (m : Nat) : List Nat :=
  (List.range 64).filter fun n =>
    s.bit .TB_CFG [n] TB_CFG_EN && s.fld .TB_CFG [n] TB_CFG_SRC == 0 && s.fld .TB_CFG [n] TB_CFG_INPUT == m

/-- The count of a change of the filtered levels A and B under a MODE: how many, and whether it is an illegal transition
(R51, R53). -/
def edgeCount (mode : Nat) (swap a b a' b' : Bool) : Int × Bool :=
  match mode with
  | 1 =>
    if a != a' && b != b' then (0, true)
    else if a != a' then
      -- A rises with B low or falls with B high: A leads B
      let c : Int := if a' != b then 1 else -1
      (if swap then -c else c, false)
    else if b != b' then
      -- B rises with A high or falls with A low: A leads B
      let c : Int := if b' == a then 1 else -1
      (if swap then -c else c, false)
    else (0, false)
  | 2 => if !a && a' then (if b then 1 else -1, false) else (0, false)
  | 3 => if !a && a' then (1, false) else (0, false)
  | _ => (0, false)

/-- One count of a channel as a timebase takes it (R55): N moves; above P, P follows and the target becomes
floor(P ÷ (DIV_M1 + 1)); a count that takes N below P goes to TB_REVERSE. -/
def State.tbCount (s : State) (n : Nat) (c : Int) : State :=
  let net := (s.getTb n).net + c
  let p : Int := s.val .TB_POS [n]
  let s := s.modTb n fun t => { t with net := net }
  let s :=
    if net > p then
      (s.setVal .TB_POS [n] net.toNat).setVal .TB_TARGET [n] (net.toNat / (s.fld .TB_DIV [n] TB_DIV_DIV_M1 + 1))
    else if c < 0 ∧ net < p then s.bump .TB_REVERSE [n]
    else s
  s.setFld .TB_STATUS [n] TB_STATUS_BACK (if net < (s.val .TB_POS [n] : Int) then 1 else 0)

/-- An accepted change of A or B (R51 to R53): the levels, the count, the illegal transition. -/
def State.tbiEdge (s : State) (m : Nat) (a b : Bool) : State :=
  let old := s.tbiLevels m
  let pins := (mget s.tbi m).pins / 4 * 4 + (if b then 2 else 0) + (if a then 1 else 0)
  let new := s.tbiSeen m pins
  let mode := s.fld .TB_IN_CFG [m] TB_IN_CFG_MODE
  let r := edgeCount mode (s.bit .TB_IN_CFG [m] TB_IN_CFG_DIRSWAP) (old.testBit 0) (old.testBit 1) (new.testBit 0) (new.testBit 1)
  let s := ({ s with tbi := mmod s.tbi m fun t => { t with pins := pins } } : State).setLevels m (old / 4 * 4 + new % 4)
  if r.2 then
    (s.bumpFld .TB_IN_STATUS [m] TB_IN_STATUS_ERRCNT).each (s.tbsOf m) fun s n => s.setFld .TB_STATUS [n] TB_STATUS_INERR 1
  else if r.1 = 0 then s
  else
    (s.wr .TB_IN_COUNT [m] (s.rd .TB_IN_COUNT [m] + BitVec.ofInt 64 r.1)).each (s.tbsOf m) fun s n => s.tbCount n r.1

/-- An accepted change of Z (R56): the level; a rising edge latches P into TB_ZLATCH of each enabled timebase of the
channel, and under ZMODE 2 discards the residual counts from P and N. -/
def State.tbiZEdge (s : State) (m : Nat) (z : Bool) : State :=
  let old := s.tbiLevels m
  let pins := (mget s.tbi m).pins % 4 + (if z then 4 else 0)
  let new := s.tbiSeen m pins
  let s := ({ s with tbi := mmod s.tbi m fun t => { t with pins := pins } } : State).setLevels m (old % 4 + new / 4 % 2 * 4)
  if !old.testBit 2 && new.testBit 2 then
    s.each (s.tbsOf m) fun s n =>
      let mode := s.fld .TB_CFG [n] TB_CFG_ZMODE
      if mode = 1 ∨ mode = 2 then
        let p := s.val .TB_POS [n]
        let s := s.setVal .TB_ZLATCH [n] p
        if mode = 2 then
          let r := p - s.val .TB_TARGET [n] * (s.fld .TB_DIV [n] TB_DIV_DIV_M1 + 1)
          (s.setVal .TB_POS [n] (p - r)).modTb n fun t => { t with net := t.net - r }
        else s
      else s
  else s

/-- The pin levels A, B and Z that a channel sees at a moment (R581; log entry 87). -/
def State.tbiPins (s : State) (m pins : Nat) : State := { s with tbi := mmod s.tbi m fun t => { t with pins := pins } }

/-- A write of TB_IN_CFG (R581): ignored while an enabled timebase takes the channel; otherwise it restarts the filters at
the present pin levels seen through the new polarities, and TB_IN_COUNT restarts when MODE leaves 0. -/
def State.tbInCfgWrite (s : State) (m v : Nat) : State :=
  if s.tbsOf m ≠ [] then s else
  let was := s.fld .TB_IN_CFG [m] TB_IN_CFG_MODE
  let s := s.setVal .TB_IN_CFG [m] (v % 2 ^ 9)
  let s := s.setLevels m (s.tbiSeen m (mget s.tbi m).pins)
  if was = 0 ∧ s.fld .TB_IN_CFG [m] TB_IN_CFG_MODE ≠ 0 then s.setVal .TB_IN_COUNT [m] 0 else s

/-! ## Timebases -/

/-- Does the timebase run free (R58)? -/
def State.tbFree (s : State) (n : Nat) : Bool :=
  s.bit .TB_CFG [n] TB_CFG_EN && s.fld .TB_CFG [n] TB_CFG_SRC == 1 && s.val .TB_PERIOD [n] == 0

/-- TB_PERIOD cycles have elapsed: a periodic timebase increments its target (R57). -/
def State.tbExpire (s : State) (n : Nat) : State :=
  if s.bit .TB_CFG [n] TB_CFG_EN && s.fld .TB_CFG [n] TB_CFG_SRC == 1 && s.val .TB_PERIOD [n] != 0
  then s.setVal .TB_TARGET [n] (s.val .TB_TARGET [n] + 1) else s

/-- A write of TB_TARGET (R59): ignored while disabled or for another source; a value at or below the target is counted in
TB_TGTDROP. -/
def State.tbTargetWrite (s : State) (n v : Nat) : State :=
  if s.bit .TB_CFG [n] TB_CFG_EN && s.fld .TB_CFG [n] TB_CFG_SRC == 2 then
    if v > s.val .TB_TARGET [n] then s.setVal .TB_TARGET [n] v else s.bump .TB_TGTDROP [n]
  else s

/-- The refusal code of a timebase at enable (R89), 0: accepted. -/
def State.tbCheck (s : State) (n : Nat) : Nat :=
  let src := s.fld .TB_CFG [n] TB_CFG_SRC
  if src = 3 ∨ s.fld .TB_CFG [n] TB_CFG_ZMODE = 3 then 0x0104
  else if src = 0 ∧ s.fld .TB_IN_CFG [s.fld .TB_CFG [n] TB_CFG_INPUT] TB_IN_CFG_MODE = 0 then 0x0109
  else 0

/-- A timebase enabled (R60): target, N, P, TB_REVERSE and the phase start at zero. -/
def State.tbStart (s : State) (n : Nat) : State :=
  let s := s.modTb n fun t => { t with net := 0 }
  let s := ((s.setVal .TB_TARGET [n] 0).setVal .TB_POS [n] 0).setVal .TB_REVERSE [n] 0
  let s := (s.setFld .TB_STATUS [n] TB_STATUS_RUN 1).setFld .TB_STATUS [n] TB_STATUS_BACK 0
  s.setFld .TB_CFG [n] TB_CFG_EN 1

/-- A timebase disabled (R60): the target freezes. -/
def State.tbStop (s : State) (n : Nat) : State :=
  (s.setFld .TB_CFG [n] TB_CFG_EN 0).setFld .TB_STATUS [n] TB_STATUS_RUN 0

end Sys2Proof.Machine
end

