-- ==== Sys2Proof/Machine/Worlds.lean ====
section
/-! DEFINITION. World groups: lag, opening a step, halts, epoch positions and swaps (R45 to R81, R163, R164). -/

namespace Sys2Proof.Machine

/-- The lag of a group whose last harvested step is s: (target − O) − s (R62). -/
def State.lag (s : State) (g : Nat) : Int :=
  (s.val .TB_TARGET [s.wgTb g] : Int) - (s.getWg g).origin - (s.getWg g).last

/-- The lag limit (R70, R82). -/
def State.lagMax (s : State) (g : Nat) : Nat := s.val .WG_LAGMAX [g]

/-- Does the overrun policy apply now: a lag above the limit on a timebase that does not run free (R58, R70)? -/
def State.overrun (s : State) (g : Nat) : Bool :=
  !s.tbFree (s.wgTb g) && decide (s.lag g > (s.lagMax g : Int))

/-! ## Learning sets as a group sees them -/

/-- A configuration register of an enabled learning set, read from its home block (R159). -/
def State.lsVal (s : State) (k : Nat) (r : Reg) : Nat := s.val r [(s.getLs k).home, k]
def State.lsFld (s : State) (k : Nat) (r : Reg) (f : Fld) : Nat := s.fld r [(s.getLs k).home, k] f

/-- Does the check of a group newly marked as a writer of a set still run (R197, R427)? -/
def State.markChecked (s : State) (k g : Nat) : Bool :=
  s.checks.any fun x => match x.unit with | .setwg k' _ g' => k' == k && g' == g | _ => false

/-- Is a group marked as a writer of a set (R160)? It becomes one when the check of its mark accepts it (R197). -/
def State.lsMarks (s : State) (k g : Nat) : Bool :=
  (s.val .LR_SET_WG [(s.getLs k).home, k, g / 32]).testBit (g % 32) && !s.markChecked k g

/-- The enabled set that a group is a writer of (R159, R160). -/
def State.writerSet (s : State) (g : Nat) : Option Nat :=
  (List.range 16).find? fun k => (s.getLs k).on && s.lsMarks k g && s.wgOn g

/-- EPLEN of a set (R163). -/
def State.eplen (s : State) (k : Nat) : Nat := s.lsVal k .LR_SET_EPLEN

/-- A group's epoch position raised by n; at LR_SET_EPLEN it has finished the epoch, and the excess, capped at EPLEN − 1,
is carried into the next one (R163, R164). -/
def State.epochAdvance (s : State) (g n : Nat) : State :=
  match s.writerSet g with
  | none => s
  | some k =>
    let e := s.eplen k
    let w := s.getWg g
    if w.epWait then s else
    let pos := w.epPos + n
    if pos < e then s.modWg g fun w => { w with epPos := pos }
    else
      let carry := min (pos - e) (e - 1)
      let s := s.bump .LR_SET_SKIPLOST [0, k] (pos - e - carry)
      s.modWg g fun w => { w with epPos := e, epWait := true, epCarry := carry,
                                  epTarget := s.val .TB_TARGET [s.wgTb g] }

/-! ## Opening a step -/

/-- Does the input fence hold step n back (R73)? -/
def State.fenced (s : State) (g n : Nat) : Bool :=
  s.bit .WG_CFG [g] WG_CFG_INFENCE && decide (s.val .WG_INSEQ [g] < n)

/-- May the group open a step at all now: WAITING, not disabling, its cohort resident, and the epoch barrier clear
(R61 conditions 1, 3, 5, 6; R44)? -/
def State.mayOpen (s : State) (g : Nat) : Bool :=
  let w := s.getWg g
  s.wgState g == wsWaiting && s.bit .WG_CFG [g] WG_CFG_EN && !w.disabling && w.swap == 0 && !w.swapDue && !w.epWait

/-- The step gap with which the group would open now, 0 when its timebase does not permit a step (R61 condition 2, R70, R81): a
pending skip opens step s + L with the L it was calculated with, or with the L of the moment under an input fence. -/
def State.openGap (s : State) (g : Nat) : Nat :=
  let w := s.getWg g
  let tb := s.wgTb g
  let l := (s.lag g).toNat
  if s.tbFree tb then 1
  else if w.skipL ≠ 0 then (if s.bit .WG_CFG [g] WG_CFG_INFENCE then max l w.skipL else w.skipL)
  else if !s.bit .TB_CFG [tb] TB_CFG_EN then 0
  else if l = 0 then 0
  else if w.resumed && s.overrun g && s.fld .WG_CFG [g] WG_CFG_OVR == 1 then l
  else 1

/-- Descriptors bound to the next step of a group take it when it opens, at the matrix cores that the group does not engage; at the others the
OPEN brings it (R219). -/
def State.mxStepTake (s : State) (g t : Nat) : State :=
  let bound := s.boundOf g
  { s with mx := s.mx.map fun x => if bound.contains (eidOf x.1 18) then x else
      (x.1, { x.2 with binds := x.2.binds.map fun b => if b.wg = g ∧ b.step = none then { b with step := some t } else b }) }

/-- Step s + k opens (R61, R63, R71, R79): WG_STEP and the resident cohort's world step advance by k, the k − 1 steps passed
over are counted, and the harvest counts start at zero. -/
def State.openStep (s : State) (g k : Nat) : State :=
  let s := s.mxStepTake g ((s.getWg g).last + k)
  let w := s.getWg g
  let cohort := s.wgCohort g
  let ws := mget w.wsteps cohort + k
  let s := s.setVal .WG_STEP [g] (w.last + k)
  let s := s.setVal .WG_WSTEP [g] ws
  let s := if k > 1 then s.bump .WG_SKIPPED [g] (k - 1) else s
  let s := s.modWg g fun w =>
    { w with wsteps := mput w.wsteps cohort ws, gap := k, opened := [], done := [], rounds := 0,
             tallyW := {}, tallyE := {}, closedW := false, closedE := false,
             resumed := false, realign := false, skipL := 0, skipCounted := 0 }
  s.setWgState g (if s.enginesOf g = [] then wsHarvesting else wsStepping)

/-- The opening of the next step when everything of R61 holds; a group that left HALTED first applies the overrun policy with
the lag of this moment (R81), and a skip past an epoch boundary first waits for the epoch end (R72). -/
def State.tryOpen (s : State) (g : Nat) : State :=
  let w := s.getWg g
  let k := s.openGap g
  if !s.mayOpen g || k == 0 || s.fenced g (w.last + k) then s
  else
    let late := w.resumed && s.overrun g
    let s := if late then s.bump .WG_OVERRUN [g] else s
    if late && s.fld .WG_CFG [g] WG_CFG_OVR == 2 then
      (s.modWg g fun w => { w with resumed := false }).haltNow g 0x0181
    else
      let s := if k - 1 > w.skipCounted then s.epochAdvance g (k - 1 - w.skipCounted) else s
      if (s.getWg g).epWait then
        (s.modWg g fun w => { w with skipL := k, skipCounted := k - 1, resumed := false }).setWgState g wsEpoch
      else s.openStep g k

/-! ## Entering DISABLED, HALTED, SWAPPING -/

/-- A group is disabled: the descriptors bound to it end with STATUS 2 (R237). -/
def State.mxGroupOff (s : State) (g : Nat) : State :=
  { s with mx := s.mx.map fun x => (x.1, { x.2 with binds := x.2.binds.map fun b => if b.wg = g then { b with cancelled := true } else b }) }

/-- The group enters DISABLED (R49), with the reason a release or a partition reset leaves (R87). -/
def State.enterDisabled (s : State) (g reason : Nat) : State :=
  let s := (s.setWgState g wsDisabled).setFld .WG_STATUS [g] WG_STATUS_REASON reason
  let s := s.setFld .WG_CFG [g] WG_CFG_EN 0
  (s.mxGroupOff g).modWg g fun _ => {}

/-- A write of EN = 0 (R49): a group with a step open or in SWAPPING finishes it first; one that waits or is halted enters
DISABLED at once. EN reads 0 from the write. -/
def State.wgStop (s : State) (g : Nat) : State :=
  let st := s.wgState g
  let s := s.setFld .WG_CFG [g] WG_CFG_EN 0
  if st = wsDisabled then s
  else if st = wsStepping ∨ st = wsHarvesting ∨ st = wsSwapping then s.modWg g fun w => { w with disabling := true }
  else s.enterDisabled g 0

/-- The state a group goes to when nothing holds it: EPOCH at the barrier, WAITING otherwise. -/
def State.settleState (s : State) (g : Nat) : State :=
  s.setWgState g (if (s.getWg g).epWait then wsEpoch else wsWaiting)

/-- SWAPPING starts with the write-out of the resident state (R76). -/
def State.swapStart (s : State) (g : Nat) : State :=
  (s.modWg g fun w => { w with swap := 1, swapDue := false, runs := 0 }).setWgState g wsSwapping

/-- The overrun policy at a harvest (R70): it counts; catch up does no more, skip remembers the L it was calculated with, unless the
timebase is disabled, whose groups then wait (R60), and halt halts. `goes`: the group neither halts nor is disabled at this harvest. -/
def State.overrunPolicy (s : State) (g : Nat) (goes : Bool) : State :=
  if !s.overrun g then s else
  let s := s.bump .WG_OVERRUN [g]
  if !goes then s
  else
    match s.fld .WG_CFG [g] WG_CFG_OVR with
    | 1 =>
      let l := (s.lag g).toNat
      if s.bit .TB_CFG [s.wgTb g] TB_CFG_EN then s.modWg g fun w => { w with skipL := l } else s
    | 2 => s.haltAtHarvest g 0x0181
    | _ => s

/-- What follows the harvest of a group's open step (R49, R61, R70, R72, R76): the counts, the epoch position, then DISABLED
for a disabling group, HALTED for one with a pending halt, SWAPPING after the last step of a residency, EPOCH at the barrier,
WAITING otherwise. -/
def State.closeStep (s : State) (g : Nat) : State :=
  let w := s.getWg g
  let s := s.setFld .WG_HROUNDS [g] WG_HROUNDS_LAST (min w.rounds 0xFFFF)
  let s := s.setFld .WG_HROUNDS [g] WG_HROUNDS_MOST (max (s.fld .WG_HROUNDS [g] WG_HROUNDS_MOST) (min w.rounds 0xFFFF))
  let s := s.modWg g fun w => { w with last := s.val .WG_STEP [g], runs := w.runs + 1, opened := [], done := [] }
  let s := s.overrunPolicy g (w.haltCode == 0 && !w.disabling)
  if w.disabling then (s.epochAdvance g 1).enterDisabled g 0
  else
    let skip := (s.getWg g).skipL
    let fence := s.bit .WG_CFG [g] WG_CFG_INFENCE
    let s := s.epochAdvance g (1 + (if fence then 0 else skip - 1))
    let s := if fence then s else s.modWg g fun w => { w with skipCounted := skip - 1 }
    let swap := s.bit .WG_CFG [g] WG_CFG_ROT && decide ((s.getWg g).runs ≥ s.fld .WG_ROT [g] WG_ROT_RUN)
    let code := (s.getWg g).haltCode
    if code ≠ 0 then
      (s.modWg g fun w => { w with haltCode := 0, swapDue := swap }).haltNow g code
    else if swap then s.swapStart g
    else s.settleState g

/-! ## WG_CTRL -/

/-- HALT (R87): at the next harvest, reason 0x0180; of a group already halted too, whose next harvest comes after a RESUME (log entry 21). -/
def State.wgHalt (s : State) (g : Nat) : State :=
  if s.wgOn g then s.haltAtHarvest g 0x0180 else s

/-- RESUME (R81, R88): a halted group waits again, its read-in is repeated after a failed swap (R80), and its overrun policy
applies when it can next open; with REALIGN its step jumps to L = 1 as a skip, which opens as calculated on a disabled timebase too (log
entry 22). Skipped steps that the epoch position already holds stay counted once (R72). -/
def State.wgResume (s : State) (g : Nat) (realign : Bool) : State :=
  if s.wgState g != wsHalted then s else
  let l := (s.lag g).toNat
  let s := s.setFld .WG_STATUS [g] WG_STATUS_REASON 0
  let s := s.modWg g fun w =>
    { w with resumed := !realign, realign := realign,
             skipL := if realign && !s.tbFree (s.wgTb g) && l > 1 then l else 0 }
  let w := s.getWg g
  if w.swap = 3 then (s.modWg g fun w => { w with swap := 2 }).setWgState g wsSwapping
  else if w.swapDue then s.swapStart g
  else s.settleState g

/-- A write of WG_CTRL (R87, R88): HALT takes effect before RESUME. -/
def State.wgCtrlWrite (s : State) (g v : Nat) : State :=
  if v.testBit 0 then s.wgHalt g
  else if v.testBit 1 then s.wgResume g (v.testBit 2)
  else s

/-- WG_STATUS as it reads (R87): OVR, WAIT_IN and WAIT_TB (L = 0) follow the present lag and fence. -/
def State.wgStatusView (s : State) (g : Nat) : DWord :=
  let v := s.rd .WG_STATUS [g]
  let waiting := s.wgState g == wsWaiting
  let k := s.openGap g
  let idle := waiting && !s.tbFree (s.wgTb g) && s.lag g == 0
  let v := WG_STATUS_OVR.set v (if s.wgOn g && s.overrun g then 1 else 0)
  let v := WG_STATUS_WAIT_IN.set v (if waiting && s.fenced g ((s.getWg g).last + max k 1) then 1 else 0)
  WG_STATUS_WAIT_TB.set v (if idle then 1 else 0)

end Sys2Proof.Machine
end

