-- ==== Sys2Proof/Machine/Neuron.lean ====
section
/-! DEFINITION. The neuron core (R90 to R122): records, parameter sets, power tables, the integration scan, settle passes,
slot merges, swaps, and what enabling a group does to a core's store. -/

namespace Sys2Proof.Machine

/-! ## Places in the core store -/

/-- Ring depth D (R90), instances allocated (R90). -/
def State.ncDepth (s : State) (c n : Nat) : Nat := s.fld .NC_CFG [c, n] NC_CFG_DEPTH_M1 + 1
def State.ncNinst (s : State) (c n : Nat) : Nat := s.val .NC_SIZE [c, n]

/-- Store addresses of a record, of a slot, of the byte of a touched bit and of an active bit (R90, R92, R96, R98). -/
def State.recAddr (s : State) (c n i : Nat) : Nat := s.val .NC_REC_BASE [c, n] + 12 * i
def State.slotAddr (s : State) (c n i j : Nat) : Nat := s.val .NC_SLOT_BASE [c, n] + 4 * (s.ncDepth c n * i + j)
def State.touchAddr (s : State) (c n i j : Nat) : Nat :=
  s.val .NC_TOUCH_BASE [c, n] + j * (((s.ncNinst c n + 255) / 256) * 32) + i / 8
def activeAddr (i : Nat) : Nat := 0x4000 + i / 8

/-- A byte, word or number in a core's store. -/
def State.cpeek (s : State) (c n a k : Nat) : Nat := s.peekLE (coreAddr c n a) k
def State.cpoke (s : State) (c n a k x : Nat) : State := s.pokeLE (coreAddr c n a) k x

/-- A word-addressed table word of a core store (R131); one past the end of the store, which only a table rewritten after the check names,
reads zero, as a reserved offset does (R39; log entry 159). -/
def State.cword (s : State) (c n wa : Nat) : Nat := if wa < 0x30000 then s.cpeek c n (4 * wa) 4 else 0

/-- One bit of a bitmap in the core store. -/
def State.cbit (s : State) (c n a i : Nat) : Bool := (s.cpeek c n a 1).testBit (i % 8)
def State.setCbit (s : State) (c n a i : Nat) (b : Bool) : State :=
  s.cpoke c n a 1 (setBits (s.cpeek c n a 1) (i % 8) 1 (if b then 1 else 0))

def State.touched (s : State) (c n i j : Nat) : Bool := s.cbit c n (s.touchAddr c n i j) i
def State.setTouched (s : State) (c n i j : Nat) (b : Bool) : State := s.setCbit c n (s.touchAddr c n i j) i b
def State.active (s : State) (c n i : Nat) : Bool := s.cbit c n (activeAddr i) i
def State.setActive (s : State) (c n i : Nat) (b : Bool) : State := s.setCbit c n (activeAddr i) i b

/-- The group-map entry's instances per world and first instance (R121). -/
def State.gmNpw (s : State) (c n e : Nat) : Nat := s.fld .NC_GMAP_B [c, n, e] NC_GMAP_B_NPW_M1 + 1
def State.gmBase (s : State) (c n e : Nat) : Nat := s.fld .NC_GMAP_B [c, n, e] NC_GMAP_B_IBASE

/-- Instances of a group on a core: the resident worlds times the neurons per world (R77, R121). -/
def State.gmCount (s : State) (c n e g : Nat) : Nat := s.gmNpw c n e * s.wgResident g

/-- The instances of a group on a core, in ascending order. -/
def State.gmInsts (s : State) (c n e g : Nat) : List Nat :=
  (List.range (s.gmCount c n e g)).map fun j => s.gmBase c n e + j

/-! ## Records and parameter sets -/

/-- A neuron record (R92). -/
structure Rec where
  v : Int := 0
  a : Nat := 0
  last : Nat := 0
  trc : Nat := 0
  scnt : Nat := 0
  pset : Nat := 0
  refr : Nat := 0
  q : Bool := false
  f : Bool := false
  deriving DecidableEq, Repr

def recOf (x : Nat) : Rec :=
  { v := sext 24 (bitsOf x 72 24), a := bitsOf x 56 16, last := bitsOf x 40 16, trc := bitsOf x 24 16,
    scnt := bitsOf x 16 8, pset := bitsOf x 10 6, refr := bitsOf x 6 4, q := x.testBit 5, f := x.testBit 4 }

def recBits (r : Rec) : Nat :=
  wrapInt 24 r.v * 2 ^ 72 + (r.a % 2 ^ 16) * 2 ^ 56 + (r.last % 2 ^ 16) * 2 ^ 40 + (r.trc % 2 ^ 16) * 2 ^ 24
    + (r.scnt % 2 ^ 8) * 2 ^ 16 + (r.pset % 64) * 2 ^ 10 + (r.refr % 16) * 2 ^ 6
    + (if r.q then 2 ^ 5 else 0) + (if r.f then 2 ^ 4 else 0)

def State.getRec (s : State) (c n i : Nat) : Rec := recOf (s.cpeek c n (s.recAddr c n i) 12)
def State.putRec (s : State) (c n i : Nat) (r : Rec) : State := s.cpoke c n (s.recAddr c n i) 12 (recBits r)

/-- A parameter set (R94). -/
structure PSet where
  theta : Int
  rin : Bool
  mfmode : Nat
  rmode : Bool
  refr : Nat
  vmin : Int
  pfmt : Nat
  noise : Nat
  bias : Int
  dv : Nat
  da : Nat
  ainc : Nat
  qtolv : Nat
  qtola : Nat
  trdec : Nat
  trinc : Nat
  deriving DecidableEq, Repr

def psetOf (x : Nat) : PSet :=
  { theta := sext 24 (bitsOf x 0 24), rin := x.testBit 31, mfmode := bitsOf x 29 2, rmode := x.testBit 28,
    refr := bitsOf x 24 4, vmin := sext 24 (bitsOf x 32 24), pfmt := bitsOf x 61 3, noise := bitsOf x 56 5,
    bias := sext 24 (bitsOf x 64 24), dv := bitsOf x 96 16, da := bitsOf x 112 16, ainc := bitsOf x 128 16,
    qtolv := bitsOf x 144 16, qtola := bitsOf x 160 16, trdec := bitsOf x 176 16, trinc := bitsOf x 192 16 }

def State.psetBits (s : State) (c n p : Nat) : Nat := s.cpeek c n (64 * p) 64
def State.getPset (s : State) (c n p : Nat) : PSet := psetOf (s.psetBits c n p)

/-- Does a parameter set meet the conditions of 0x0202: THETA above zero, no reserved MFMODE, PFMT or NOISE, reserved bytes
zero (R122)? -/
def psetGood (x : Nat) : Bool :=
  let p := psetOf x
  decide (p.theta > 0) && p.mfmode != 3 && decide (p.pfmt < 5) && decide (p.noise < 24) &&
  bitsOf x 88 8 == 0 && bitsOf x 208 304 == 0

/-! ## Power tables and leak -/

/-- The 16 words of one set's power table from its decay code: T_0 = DEC + 1, T_k = (T_(k−1)² + 2^15) >> 16 (R95). -/
def powers : Nat → Nat → List Nat
  | 0, _ => []
  | k + 1, t => t :: powers k ((t * t + 2 ^ 15) >>> 16)

/-- The three power tables filled from the parameter sets (R95). -/
def State.fillTables (s : State) (c n : Nat) : State :=
  s.each (List.range 64) fun s p =>
    let ps := s.getPset c n p
    let fill (s : State) (base dec : Nat) : State :=
      s.poke (coreAddr c n (base + 64 * p)) ((powers 16 (dec + 1)).flatMap (leBytes 4))
    fill (fill (fill s 0x1000 ps.dv) 0x2000 ps.da) 0x3000 ps.trdec

/-- Leak over the set bits of a gap, from bit k on, with the table's words (R106): round half up at each factor. -/
def leakFrom : List Nat → Nat → Int → Int
  | [], _, x => x
  | t :: ts, g, x => leakFrom ts (g / 2) (if g % 2 = 1 then (x * t + 2 ^ 15) / 2 ^ 16 else x)

/-- leak(x, table, g) of R106 with the table at a store address. -/
def State.leak (s : State) (c n tab p : Nat) (x : Int) (g : Nat) : Int :=
  leakFrom ((List.range 16).map fun k => (s.cpeek c n (tab + 64 * p + 4 * k) 4) % 2 ^ 17) g x

/-- Leak of a record's V, A and TRC over a gap (R103, R106). -/
def State.leakRec (s : State) (c n : Nat) (r : Rec) (g : Nat) : Rec :=
  { r with v := s.leak c n 0x1000 r.pset r.v g, a := (s.leak c n 0x2000 r.pset r.a g).toNat,
           trc := (s.leak c n 0x3000 r.pset r.trc g).toNat }

/-! ## Noise -/

/-- One clock of the Galois LFSR of R109. -/
def lfsr (x : Nat) : Nat := if x % 2 = 1 then (x / 2) ^^^ 0x80200003 else x / 2

def lfsrN : Nat → Nat → Nat
  | 0, x => x
  | k + 1, x => lfsrN k (lfsr x)

/-- Steps 1 to 3 of R109: the clocked register for a seed, world, 15-bit index and step. -/
def noiseX (seed w i t : Nat) : Nat :=
  let x := seed ^^^ ((w % 2 ^ 14) * 2 ^ 18 + i % 2 ^ 15)
  let x := x ^^^ ((t % 2 ^ 16) * 2 ^ 16 + t % 2 ^ 16)
  lfsrN 32 (if x = 0 then 1 else x)

/-- The noise of an instance (R109). -/
def noiseOf (seed e w i t : Nat) : Int := (sext 16 (noiseX seed w i t) * (2 ^ e : Nat)) / 2 ^ 16

/-! ## Integration -/

/-- The largest value a graded format represents that does not exceed n (R108, R243). -/
def gradedM (pfmt n : Nat) : Nat :=
  match pfmt with
  | 0 => min n 1
  | 1 => min n 7
  | 2 => min n 127
  | 3 => if n ≥ 6 then 6 else min n 4
  | _ => if n ≥ 4 then 4 else if n ≥ 2 then 2 else min n 1

/-- The PAYLOAD code of a graded count (R108, R143). -/
def gradedCode (pfmt m : Nat) : Nat :=
  match pfmt with
  | 0 => 0x01
  | 1 => m % 16
  | 2 => m
  | 3 => encodeFmt .e2m1 (.ofInt m)
  | _ => encodeFmt .ql3 (.ofInt m)

/-- What an integration leaves: the record, whether it fired, whether overdriven, the event's kind and payload. -/
structure Fired where
  r : Rec
  fired : Bool
  od : Bool
  kind : Nat
  payload : Nat
  deriving DecidableEq, Repr

/-- The membrane after a firing and the event it emits (R107, R108). -/
def fireOut (p : PSet) (v th : Int) (od : Bool) (n : Nat) : Int × Nat × Nat :=
  let reset : Int := if p.rmode then v - th else 0
  match p.mfmode with
  | 1 => (if od then v - th else reset, 0, 0x01)
  | 2 =>
    let m := gradedM p.pfmt n
    (if p.rmode then v - m * th else 0, 1, gradedCode p.pfmt m)
  | _ => (if od then 0 else reset, 0, 0x01)

/-- integrate(i, t, in) of R106 on a record whose leak has been applied over the gap g, with its slot input and noise. -/
def integrateRec (p : PSet) (r : Rec) (g t : Nat) (inp nz : Int) : Fired :=
  let vmax : Int := 0x7FFFFF
  if r.refr ≠ 0 ∧ r.refr ≥ g then
    let refr := r.refr - g
    let u := if p.rin then r.v + inp + p.bias + nz else r.v
    let v := clampInt p.vmin vmax u
    let q := refr == 0 && decide (v.natAbs ≤ p.qtolv) && decide (r.a ≤ p.qtola) && p.bias == 0 && p.noise == 0
    { r := { r with v := v, refr := refr, f := false, last := t % 2 ^ 16, q := q },
      fired := false, od := false, kind := 0, payload := 0 }
  else
    let u := r.v + inp + p.bias + nz
    let v := clampInt p.vmin vmax u
    let th : Int := min (p.theta + (r.a : Int) * 256) vmax
    if v ≥ th then
      let od : Bool := decide (v ≥ 2 * th)
      let n := min (v / th).toNat 255
      let out := fireOut p v th od n
      let v := max out.1 p.vmin
      let a := min (r.a + p.ainc) 0xFFFF
      let trc := min (r.trc + p.trinc) 0xFFFF
      let q := p.refr == 0 && decide (v.natAbs ≤ p.qtolv) && decide (a ≤ p.qtola) && p.bias == 0 && p.noise == 0
      { r := { r with v := v, a := a, trc := trc, refr := p.refr, scnt := min (r.scnt + 1) 255, f := true,
                      last := t % 2 ^ 16, q := q },
        fired := true, od := od, kind := out.2.1, payload := out.2.2 }
    else
      let q := decide (v.natAbs ≤ p.qtolv) && decide (r.a ≤ p.qtola) && p.bias == 0 && p.noise == 0
      { r := { r with v := v, refr := 0, f := false, last := t % 2 ^ 16, q := q },
        fired := false, od := false, kind := 0, payload := 0 }

/-- The ring slots an opening of step t after a gap k reads: those of steps t − k + 1 to t that the ring still holds, in
ascending step order (R100). -/
def State.slotsRead (s : State) (c n t k : Nat) : List Nat :=
  let d := s.ncDepth c n
  (List.range (min k d)).map fun j => (t - k + 1 + j) % d

/-- The slot input of an instance: its slot for the step, or under a skip the touched slots added in ascending step order with
saturation at each addition (R100, R106). -/
def State.slotInput (s : State) (c n i t k : Nat) : Int :=
  if k = 1 then sext 32 (s.cpeek c n (s.slotAddr c n i (t % s.ncDepth c n)) 4)
  else
    (s.slotsRead c n t k).foldl
      (fun acc j => if s.touched c n i j
        then clampInt (-2 ^ 31) (2 ^ 31 - 1) (acc + sext 32 (s.cpeek c n (s.slotAddr c n i j) 4)) else acc) 0

/-- Is the instance integrated at this opening: active, or touched for a slot the opening reads (R102)? -/
def State.scanned (s : State) (c n i t k : Nat) : Bool :=
  s.active c n i || (s.slotsRead c n t k).any fun j => s.touched c n i j

/-- The slots an opening reads are cleared with their touched bits, and the slot of the step itself always (R100, R106). -/
def State.clearSlots (s : State) (c n i t k : Nat) : State :=
  s.each (s.slotsRead c n t k) fun s j =>
    if j = t % s.ncDepth c n ∨ s.touched c n i j then (s.cpoke c n (s.slotAddr c n i j) 4 0).setTouched c n i j false else s

/-- An uncorrectable word of a record or slot (R115): the owning group halts at its harvest, the address is recorded. -/
def State.coreEcc (s : State) (c n a g code : Nat) : State :=
  ((s.setVal .NC_ERRADDR [c, n] (a % 2 ^ 20)).setFld .NC_STATUS [c, n] NC_STATUS_ECCERR 1).haltAtHarvest g code

/-- The address of the first unreadable word of an instance's record, or of the slots the scan reads, at an opening (R106, R115). -/
def State.instBad (s : State) (bad : List Nat) (c n i t k : Nat) : Option Nat :=
  if badIn bad (s.recAddr c n i) 12 then some (badWord bad (s.recAddr c n i) 12)
  else ((((s.slotsRead c n t k).filter fun j => k == 1 || s.touched c n i j).map fun j => s.slotAddr c n i j).find? fun a => badIn bad a 4).map
    fun a => badWord bad a 4

/-- Is an event of a world traced (R555): tracing enabled for the partition and group, and the low K bits of the clocked
register zero? -/
def State.traced (s : State) (part g w i t : Nat) : Bool :=
  s.bit .PC_TRCFG [part] PC_TRCFG_EN &&
  (s.bit .PC_TRCFG [part] PC_TRCFG_ALLWG || s.fld .PC_TRCFG [part] PC_TRCFG_WG == g) &&
  (noiseX (s.val .PC_TRSEED []) w i t) % 2 ^ (s.fld .PC_TRCFG [part] PC_TRCFG_K) == 0

/-- One instance integrated at the open of world step t after a gap k (R102, R106, R107): its record, the counters, its event
handed to the fan-out unit, its slots cleared. -/
def State.integrate (s : State) (bad : List Nat) (c n e g t k i : Nat) : State :=
  match s.instBad bad c n i t k with
  | some a => s.coreEcc c n a g 0x0280
  | none =>
    let r0 := s.getRec c n i
    let p := s.getPset c n r0.pset
    let npw := s.gmNpw c n e
    let j := i - s.gmBase c n e
    let w := s.wgFirst g + j / npw
    let gap := (t + 2 ^ 16 - r0.last) % 2 ^ 16
    let nz := if p.noise = 0 then 0 else noiseOf (s.val .NC_NOISE_SEED [c, n]) p.noise w i t
    let inp := s.slotInput c n i t k
    let o := integrateRec p (s.leakRec c n r0 gap) gap t inp nz
    let s := (s.putRec c n i o.r).clearSlots c n i t k
    let s := (s.setActive c n i (!o.r.q)).bump .NC_INTEG [c, n]
    let s := if o.od then s.bump .NC_OVERDRIVE [c, n] else s
    if o.fired then
      let tr := s.traced (s.wgPart g) g w (j % npw) t
      let s := if tr then s.bump .PC_TRTAG [c] else s
      (s.bump .NC_SPIKES [c, n]).modNc c n fun u =>
        { u with fan := u.fan ++ [{ wg := g, net := s.fld .NC_GMAP_A [c, n, e] NC_GMAP_A_NET, neuron := j % npw, inst := i,
                                    world := w, kind := o.kind, payload := o.payload, stamp := t % 2 ^ 16, trace := tr }] }
    else s

/-! ## Settle passes -/

/-- Leak applied over a gap, LAST at the step, every other field as it was (R103); before a long skip REFR goes to 0 (R104). An unreadable
record is left unchanged and halts its group (R115: the settle pass reads it as the scan does; log entry 160). -/
def State.settleInst (s : State) (bad : List Nat) (c n g i t gap : Nat) (long : Bool) : State :=
  if badIn bad (s.recAddr c n i) 12 then s.coreEcc c n (badWord bad (s.recAddr c n i) 12) g 0x0280
  else
    let r := s.leakRec c n (s.getRec c n i) gap
    s.putRec c n i { r with last := t % 2 ^ 16, refr := if long then 0 else r.refr }

/-- An uncorrectable word of learning state (R195): the set's writer groups halt at their next harvest with 0x0481. -/
def State.learnEcc (s : State) (c n set a : Nat) : State :=
  let s := s.setVal .NC_ERRADDR [c, n] (a % 2 ^ 20)
  let s := s.setFld .LR_SET_STATUS [0, set] LR_SET_STATUS_REASON 0x0481
  s.each (List.range 256) fun s g => if s.writerSet g == some set then s.haltAtHarvest g 0x0481 else s

/-- The modulator promotions a settle pass carries out for the group's resident worlds (R168, step 1 of R167). -/
def State.promoteMod (s : State) (c n a t : Nat) : State :=
  let x := s.cpeek c n a 8
  let pend := x.testBit 48
  let nstep := bitsOf x 32 16
  if pend && decide ((t + 2 ^ 16 - nstep) % 2 ^ 16 < 2 ^ 15) then
    let cur := wrapInt 8 (clampInt (-128) 127 (sext 16 (bitsOf x 16 16)))
    s.cpoke c n a 8 (setBits (setBits x 0 8 cur) 48 1 0)
  else s

/-- Store address of modulator k of a world (R166). -/
def State.modAddr (s : State) (c n w k : Nat) : Nat :=
  s.val .LR_MOD_BASE [c, n] +
    8 * ((s.fld .LR_MOD_CFG [c, n] LR_MOD_CFG_NMOD_M1 + 1) * (w % 2 ^ s.fld .LR_MOD_CFG [c, n] LR_MOD_CFG_NWLOG) + k)

/-- Does the core hold an enabled learning set (R158, R173)? -/
def State.coreSet (s : State) (c n : Nat) : Option Nat :=
  if s.bit .LR_CORE_CFG [c, n] LR_CORE_CFG_EN then
    let k := s.fld .LR_CORE_CFG [c, n] LR_CORE_CFG_SET
    if (s.getLs k).on then some k else none
  else none

/-- Every modulator entry of the group's resident worlds on a core changed, on a core that holds an enabled set (R168): the set and the
entry's address. -/
def State.eachMod (s : State) (c n g : Nat) (f : State → Nat → Nat → State) : State :=
  match s.coreSet c n with
  | none => s
  | some set =>
    s.each ((List.range (s.wgResident g)).map fun j => s.wgFirst g + j) fun s w =>
      s.each (List.range (s.fld .LR_MOD_CFG [c, n] LR_MOD_CFG_NMOD_M1 + 1)) fun s k => f s set (s.modAddr c n w k)

/-- The promotions of a settle pass (R168); an unreadable entry is left as it is and halts the set's writers (R195). -/
def State.settleMods (s : State) (bad : List Nat) (c n g t : Nat) : State :=
  s.eachMod c n g fun s set a => if badIn bad a 8 then s.learnEcc c n set (badWord bad a 8) else s.promoteMod c n a t

/-- Does an opening of step t after a gap k bring a settle pass (R103, R104)? -/
def settles (t k : Nat) : Bool := decide (k ≥ 16384) || t % 2 ^ 14 == 0

/-- The settle pass before an opening (R103, R104, R116): every instance before a skip of 16,384 or more, every quiet one at a
step whose low 14 bits are zero. `bad`: unreadable store addresses. -/
def State.settlePass (s : State) (bad : List Nat) (c n e g t k : Nat) : State :=
  if k ≥ 16384 then
    let s := s.each (s.gmInsts c n e g) fun s i =>
      let last := (s.getRec c n i).last
      s.settleInst bad c n g i t (min ((t - k + 2 ^ 16 - last) % 2 ^ 16 + k) 65535) true
    s.settleMods bad c n g t
  else if t % 2 ^ 14 = 0 then
    let s := s.each (s.gmInsts c n e g) fun s i =>
      let r := s.getRec c n i
      if r.q then s.settleInst bad c n g i t ((t + 2 ^ 16 - r.last) % 2 ^ 16) false else s
    s.settleMods bad c n g t
  else s

/-! ## The open of a step at a core -/

/-- A pending INTEG trace entry comes due (R556): its instance has been integrated at its step. -/
def IntegWait.due (x : IntegWait) (g t : Nat) : Bool := x.wg == g && x.step == t % 2 ^ 16

/-- A step opens at a neuron core (R100 to R107): the settle pass, then the scan through the instance indices. -/
def State.openCore (s : State) (bad : List Nat) (c n e g : Nat) : State :=
  let t := s.wgWStep g
  let k := (s.getWg g).gap
  let s := s.settlePass bad c n e g t k
  let s := s.each (s.gmInsts c n e g) fun s i =>
    if s.scanned c n i t k then s.integrate bad c n e g t k i else s
  s.modNc c n fun u => { u with opens := mput u.opens g t }

/-! ## Enabling a group; swaps -/

/-- The mask of a core's parameter sets that meet the conditions of 0x0202 (R105). -/
def State.goodSets (s : State) (c n : Nat) : Nat :=
  ((List.range 64).map fun p => if psetGood (s.psetBits c n p) then 2 ^ p else 0).sum

/-- What enabling a group does to a core's share of it (R105): the parameter sets recorded; without rotation the slots and
touched bits cleared and the active bits set from the records' Q bits. -/
def State.groupStartCore (s : State) (c n e g : Nat) : State :=
  let good := s.goodSets c n
  let s := s.modNc c n fun u => { u with psetOk := good, opens := mput u.opens g 0 }
  if s.bit .WG_CFG [g] WG_CFG_ROT then s
  else
    s.each (s.gmInsts c n e g) fun s i =>
      let s := s.each (List.range (s.ncDepth c n)) fun s j =>
        (s.cpoke c n (s.slotAddr c n i j) 4 0).setTouched c n i j false
      s.setActive c n i (!(s.getRec c n i).q)

/-- Bytes of an instance in a home: its record and its D slots (R77, R78). -/
def State.homeStride (s : State) (c n : Nat) : Nat := 12 + 4 * s.ncDepth c n

/-- Bytes of a core's segment, padded to 64 (R77, R78). -/
def State.segBytes (s : State) (c n e g : Nat) : Nat := (s.gmCount c n e g * s.homeStride c n + 63) / 64 * 64

/-- The cores of a group in ascending cluster_id and core number (R78), one entry each. -/
def State.coresSorted (s : State) (g : Nat) : List (Nat × Nat × Nat) := s.coresOf g

/-- H: the bytes of one cohort's home (R77). -/
def State.homeBytes (s : State) (g : Nat) : Nat :=
  ((s.coresSorted g).map fun x => s.segBytes x.1 x.2.1 x.2.2 g).sum

/-- The base of a cohort's home (R77). -/
def State.homeBase (s : State) (g k : Nat) : Nat := s.val .WG_ROTBASE [g] + k * s.homeBytes g

/-- The resident state written out to a cohort's home (R76, R78). -/
def State.swapOut (s : State) (g k : Nat) : State :=
  ((s.coresSorted g).foldl (fun (acc : State × Nat) x =>
    let (c, n, e) := x
    let st := acc.1.homeStride c n
    let seg := acc.1.segBytes c n e g
    let body := (acc.1.gmInsts c n e g).flatMap fun i =>
      acc.1.peekN (coreAddr c n (acc.1.recAddr c n i)) 12 ++
      acc.1.peekN (coreAddr c n (acc.1.slotAddr c n i 0)) (st - 12)
    (acc.1.poke acc.2 (body ++ List.replicate (seg - body.length) 0), acc.2 + seg))
    (s, s.homeBase g k)).1

/-- A cohort's records and slots read from its home, with the bitmaps rebuilt and the modulator entries of its worlds zeroed
(R76, R105, R168). -/
def State.swapIn (s : State) (g k : Nat) : State :=
  ((s.coresSorted g).foldl (fun (acc : State × Nat) x =>
    let (c, n, e) := x
    let st := acc.1.homeStride c n
    let seg := acc.1.segBytes c n e g
    let s1 := acc.1.each ((acc.1.gmInsts c n e g).zip (List.range (acc.1.gmCount c n e g))) fun s ij =>
      let a := acc.2 + ij.2 * st
      let s := s.poke (coreAddr c n (s.recAddr c n ij.1)) (s.peekN a 12)
      let s := s.poke (coreAddr c n (s.slotAddr c n ij.1 0)) (s.peekN (a + 12) (st - 12))
      let s := s.each (List.range (s.ncDepth c n)) fun s j =>
        s.setTouched c n ij.1 j (s.cpeek c n (s.slotAddr c n ij.1 j) 4 != 0)
      s.setActive c n ij.1 (!(s.getRec c n ij.1).q)
    let s1 := s1.eachMod c n g fun s _ a => s.cpoke c n a 8 0
    (s1, acc.2 + seg)) (s, s.homeBase g k)).1

/-- Does every record just read name a parameter set that passed at enable (R105)? -/
def State.swapGood (s : State) (g : Nat) : Bool :=
  (s.coresSorted g).all fun x =>
    (s.gmInsts x.1 x.2.1 x.2.2 g).all fun i => (s.getNc x.1 x.2.1).psetOk.testBit (s.getRec x.1 x.2.1 i).pset

/-- The resident cohort's world step taken over by the cores when it becomes resident (R79, R98; log entry 14). -/
def State.adoptOpens (s : State) (g : Nat) : State :=
  let ws := mget (s.getWg g).wsteps (s.wgCohort g)
  s.each (s.coresOf g) fun s x => s.modNc x.1 x.2.1 fun u => { u with opens := mput u.opens g ws }


/-- A group enabled (R61, R77, R105): its origin, its counters, its cores; a rotating group reads cohort 0 first. -/
def State.wgStart (s : State) (g : Nat) : State :=
  let s := s.setFld .WG_CFG [g] WG_CFG_EN 1
  let s := ((s.setVal .WG_STEP [g] 0).setVal .WG_WSTEP [g] 0).setVal .WG_SKIPPED [g] 0
  let s := (s.setVal .WG_COHORT [g] 0).setFld .WG_STATUS [g] WG_STATUS_REASON 0
  let rot := s.bit .WG_CFG [g] WG_CFG_ROT
  let s := s.modWg g fun _ => { origin := s.val .TB_TARGET [s.wgTb g], swap := if rot then 2 else 0 }
  let s := s.setWgState g (if rot then wsSwapping else wsWaiting)
  -- R322: the participation mask goes into the nodes
  let s := s.modCn fun x =>
    { x with mask := mput x.mask g (nodups (((s.enginesOf g).filter (· < 0x1000)).map (· / 32))), red := x.red.filter (·.1 / 16 != g), from_ := mput x.from_ g [] }
  s.each (s.coresOf g) fun s x => s.groupStartCore x.1 x.2.1 x.2.2 g

/-! ## Core registers -/

/-- States of NC_STATUS.STATE (R120). -/
def ncDisabled : Nat := 0
def ncIdle : Nat := 1
def ncDelivering : Nat := 3
def ncSleep : Nat := 4
def ncSwapping : Nat := 6
def ncFilling : Nat := 7

def State.ncState (s : State) (c n : Nat) : Nat := s.fld .NC_STATUS [c, n] NC_STATUS_STATE
def State.setNcState (s : State) (c n x : Nat) : State := s.setFld .NC_STATUS [c, n] NC_STATUS_STATE x

/-- Is a core held by an enabled group through an enabled entry of its group map (R118)? -/
def State.ncHeld (s : State) (c n : Nat) : Bool :=
  (List.range 16).any fun e =>
    s.bit .NC_GMAP_A [c, n, e] NC_GMAP_A_EN && s.wgOn (s.fld .NC_GMAP_A [c, n, e] NC_GMAP_A_WG)

/-- A write of NC_CFG (R95, R118): while EN is 1 only SLEEP is stored, and EN = 0 is ignored while an enabled group holds the core;
EN written to 1 starts the fill of the power tables. -/
def State.ncCfgWrite (s : State) (c n v : Nat) : State :=
  let en := v.testBit 0
  let sl := bitsOf v 1 1
  if s.bit .NC_CFG [c, n] NC_CFG_EN then
    let s := s.setFld .NC_CFG [c, n] NC_CFG_SLEEP sl
    if !en && !s.ncHeld c n then (s.setFld .NC_CFG [c, n] NC_CFG_EN 0).setNcState c n ncDisabled else s
  else
    let s := (s.setFld .NC_CFG [c, n] NC_CFG_DEPTH_M1 (bitsOf v 8 6)).setFld .NC_CFG [c, n] NC_CFG_SLEEP sl
    if en then (s.setFld .NC_CFG [c, n] NC_CFG_EN 1).setNcState c n ncFilling else s

/-- The fill of the power tables ends (R95). -/
def State.ncFillDone (s : State) (c n : Nat) : State :=
  if s.ncState c n = ncFilling then (s.fillTables c n).setNcState c n ncIdle else s

/-- Is a group with an enabled entry on the core in SWAPPING (R76, R120)? -/
def State.ncSwaps (s : State) (c n : Nat) : Bool :=
  (List.range 16).any fun e =>
    s.bit .NC_GMAP_A [c, n, e] NC_GMAP_A_EN && s.wgState (s.fld .NC_GMAP_A [c, n, e] NC_GMAP_A_WG) == wsSwapping

/-- NC_STATUS as it reads (R120): an idle core is swapping while a group of its is, and delivering with flits in its input queue. The scan
and the settle pass of an open are one command, so no read meets INTEGRATING or SETTLING. -/
def State.ncStatusView (s : State) (c n : Nat) : DWord :=
  let v := s.rd .NC_STATUS [c, n]
  if s.ncState c n = ncIdle ∧ s.ncSwaps c n then NC_STATUS_STATE.set v ncSwapping
  else if s.ncState c n = ncIdle ∧ (s.getNc c n).inq ≠ [] then NC_STATUS_STATE.set v ncDelivering else v

/-- A core gates its clocks (R113): permitted, and idle: no scan or settle pass, its input queue and fan-out unit empty. -/
def State.ncSleepNow (s : State) (c n : Nat) : State :=
  let u := s.getNc c n
  if s.bit .NC_CFG [c, n] NC_CFG_SLEEP && s.ncState c n == ncIdle && u.inq == [] && u.fan == [] && u.outq == []
  then (s.setNcState c n ncSleep).modNc c n fun u => { u with hit := false } else s

/-- The groups whose open step a core has yet to receive (R102). -/
def State.ncOpensDue (s : State) (c n : Nat) : List Nat :=
  ((List.range 16).filter fun e => s.bit .NC_GMAP_A [c, n, e] NC_GMAP_A_EN).map (fun e => s.fld .NC_GMAP_A [c, n, e] NC_GMAP_A_WG) |>.filter
    fun g => s.wgState g == wsStepping && !(s.getWg g).opened.contains (eidOf c n)

/-- Has the wake source of a code come (R114, R120): a flit in the input queue, a step opened that the core has not, an access to its store or
its NC_ registers, or a swap, or a step opened that brings a settle pass? -/
def State.ncWakeDue (s : State) (c n src : Nat) : Bool :=
  match src with
  | 1 => (s.getNc c n).inq != []
  | 2 => s.ncOpensDue c n != []
  | 3 => (s.getNc c n).hit
  | 4 => s.ncSwaps c n || (s.ncOpensDue c n).any fun g => settles (s.wgWStep g) (s.getWg g).gap
  | _ => false

/-- A sleeping core wakes (R114): the source and the wake are recorded, and the gated cycles counted. -/
def State.ncWakeNow (s : State) (c n src cycles : Nat) : State :=
  if s.ncState c n = ncSleep ∧ s.ncWakeDue c n src then
    ((((s.setNcState c n ncIdle).setFld .NC_STATUS [c, n] NC_STATUS_WAKESRC src).bump .NC_WAKES [c, n]).bump
      .NC_SLEEPCYC [c, n] cycles).modNc c n fun u => { u with hit := false }
  else s

end Sys2Proof.Machine
end

