-- ==== Sys2Proof/Machine/Rings.lean ====
section
/-! DEFINITION. Channels, combining queues and host channels (R328 to R332, R345, R349, R420): where their lines lie, what the message
unit takes from a consumer line, and the requests they hold. A target is numbered cluster × 64 + n for channel n, cluster × 64 + 32 + q
for queue q, and 0x10000 + port × 16 + c for a host channel. -/

namespace Sys2Proof.Machine

/-! ## Targets -/

def tkHost (t : Nat) : Bool := decide (t ≥ 0x10000)
def tkQueue (t : Nat) : Bool := decide (t < 0x10000) && decide (t % 64 ≥ 32)
def tkCluster (t : Nat) : Nat := t / 64
def tkPort (t : Nat) : Nat := (t - 0x10000) / 16

/-- The index of a target within its unit. -/
def tkIndex (t : Nat) : Nat := if t ≥ 0x10000 then t % 16 else if t % 64 ≥ 32 then t % 64 - 32 else t % 64

/-- The unit index of a target in a reason log (R430): a channel, a queue after the cluster's channels, a host channel by its port
(log entry 71). -/
def tkUnit (t : Nat) : Nat := if t ≥ 0x10000 then t - 0x10000 else t % 64

/-- The cluster that goes with it; a port has none. -/
def tkUnitCluster (t : Nat) : Nat := if tkHost t then 0xFFFF else tkCluster t

/-- Is a target enabled? -/
def State.tkOn (s : State) (t : Nat) : Bool :=
  if tkHost t then s.bit .GP_HC_CFG [tkPort t, tkIndex t] GP_HC_CFG_EN
  else if tkQueue t then s.bit .MQ_Q_CFG [tkCluster t, tkIndex t] MQ_Q_CFG_EN
  else s.bit .MQ_CH_CFG [tkCluster t, tkIndex t] MQ_CH_CFG_EN

/-- Address of a target's producer line (R329, R354, R420); its consumer line follows. -/
def State.tkLine (s : State) (t : Nat) : Nat :=
  if tkHost t then 0xFE03800000 + tkPort t * 0x1000 + tkIndex t * 0x80
  else if tkQueue t then winBase (tkCluster t) + s.val .MQ_Q_CCB [tkCluster t, tkIndex t]
  else winBase (tkCluster t) + s.val .MQ_CH_CCB [tkCluster t, tkIndex t]

/-- The enabled target whose producer line lies at an address (R336). -/
def State.tkAt (s : State) (a : Nat) : Option Nat :=
  match locate a with
  | .bank c _ => ((List.range 40).map (c * 64 + ·)).find? fun t => s.tkOn t && s.tkLine t == a
  | .dreg =>
    if 0xFE03800000 ≤ a ∧ a < 0xFE03808000 ∧ a % 0x1000 < 0x800 ∧ a % 0x80 = 0 then
      let t := 0x10000 + (a - 0xFE03800000) / 0x1000 * 16 + a % 0x1000 / 0x80
      if s.tkOn t then some t else none
    else none
  | _ => none

/-- Size of a channel's ring (R329, R420). -/
def State.tkSize (s : State) (t : Nat) : Nat :=
  2 ^ (if tkHost t then s.fld .GP_HC_CFG [tkPort t, tkIndex t] GP_HC_CFG_LOG2SIZE
       else s.fld .MQ_CH_CFG [tkCluster t, tkIndex t] MQ_CH_CFG_LOG2SIZE)

/-- Elements, element width, output width and expected contributions of a queue (R341, R342, R344). -/
def State.qElems (s : State) (t : Nat) : Nat := s.fld .MQ_Q_CFG [tkCluster t, tkIndex t] MQ_Q_CFG_NELEM_M1 + 1
def State.qIn (s : State) (t : Nat) : Nat := s.fld .MQ_Q_CFG [tkCluster t, tkIndex t] MQ_Q_CFG_IN
def State.qWidth (s : State) (t : Nat) : Nat := if s.qIn t = 1 then 2 else 4
def State.qOut (s : State) (t : Nat) : Nat := if s.bit .MQ_Q_CFG [tkCluster t, tkIndex t] MQ_Q_CFG_OFMT then 8 else 4
def State.qExpect (s : State) (t : Nat) : Nat := s.fld .MQ_Q_EXPECT [tkCluster t, tkIndex t] MQ_Q_EXPECT_EXPECT
def State.qAccAt (s : State) (t r j : Nat) : Nat :=
  winBase (tkCluster t) + s.val .MQ_Q_ACC [tkCluster t, tkIndex t] + (r % 2 * s.qElems t + j) * 8
def State.qOutAt (s : State) (t r : Nat) : Nat :=
  winBase (tkCluster t) + s.val .MQ_Q_OUT [tkCluster t, tkIndex t] + r % 2 * s.qElems t * s.qOut t

/-- Bank lines that the message unit writes or reads for a target of a cluster, counted (R330, R392). -/
def State.unitWrites (s : State) (t a n : Nat) : State := if tkHost t then s else s.bump .BK_WR [tkCluster t] (linesOf a n)
def State.unitReads (s : State) (t a n : Nat) : State := if tkHost t then s else s.bump .BK_RD [tkCluster t] (linesOf a n)

/-- Does the bank behind an address of a target's rings and lines accept the message unit's writes (R330, R367; log entry 171)? -/
def State.unitAwake (s : State) (t a : Nat) : Bool := tkHost t || (match locate a with | .bank c o => s.bankAwake c (bankOf o) | _ => true)

/-- n bytes of a target's producer line, at an offset in it. -/
def State.unitPoke (s : State) (t a o n x : Nat) : State := if s.unitAwake t a then s.pokeLE (a + o) n x else s

/-- Bytes written into a channel's ring: the cluster's banks, or the port's staging (R329, R420). -/
def State.ringPoke (s : State) (t off : Nat) (bs : List Byte) : State :=
  if tkHost t then { s with staging := pokeMem s.staging (tkPort t * 2 ^ 28 + 0x510000 + tkIndex t * 0x40000 + off) bs }
  else
    let a := winBase (tkCluster t) + s.val .MQ_CH_RING [tkCluster t, tkIndex t] + off
    if s.unitAwake t a then (s.poke a bs).unitWrites t off bs.length else s

/-- The receiving engine of a target: its core slot, or none for a port. -/
def State.tkRcv (s : State) (t : Nat) : Option Nat :=
  if tkHost t then none
  else if tkQueue t then some (s.fld .MQ_Q_CFG [tkCluster t, tkIndex t] MQ_Q_CFG_RCV)
  else some (s.fld .MQ_CH_CFG [tkCluster t, tkIndex t] MQ_CH_CFG_RCV)

/-- The coordinate of a target's receiver; a port counts as 0x1000 + n (R348). -/
def State.tkCoord (s : State) (t : Nat) : Nat :=
  match s.tkRcv t with
  | some k => coordOf (tkCluster t) k
  | none => 0x1000 + tkPort t

def tkHalf (t : Nat) : Nat := if tkHost t then gpHalf (tkPort t) else halfOf (tkCluster t)

/-- The partition a target belongs to. -/
def State.tkPart (s : State) (t : Nat) : Option Nat := if tkHost t then s.partOfPort (tkPort t) else s.partOfCluster (tkCluster t)

/-! ## Producer lines -/

/-- The producer line of a target, as the message unit writes it, with the state fields of its STAT register (R330, R345, R356). -/
def State.noteLine (s : State) (t : Nat) : State :=
  let x := s.getChan t
  let on := if s.tkOn t then 1 else 0
  let sp := if x.comp = [] then 0 else 1
  let a := s.tkLine t
  let pend := (x.reqs.filter fun r => r.st == 0).length
  if tkQueue t then
    let s := s.unitPoke t a 0 4 x.closed |>.unitPoke t a 8 1 (x.ovf + 2 * sp + 4 * on)
    let i := [tkCluster t, tkIndex t]
    ((s.setFld .MQ_Q_STAT i MQ_Q_STAT_PEND pend).setFld .MQ_Q_STAT i MQ_Q_STAT_OVF x.ovf).setFld .MQ_Q_STAT i MQ_Q_STAT_SPILLED sp
  else
    let s := s.unitPoke t a 0 4 x.wr |>.unitPoke t a 4 4 x.msgs |>.unitPoke t a 8 2 x.comp.length
    let s := s.unitPoke t a 10 2 (x.comp.headD (0xFFFF, 0, 0)).1 |>.unitPoke t a 12 1 (sp + 2 * on) |>.unitPoke t a 16 4 x.skips
    if tkHost t then s
    else
      let i := [tkCluster t, tkIndex t]
      (s.setFld .MQ_CH_STAT i MQ_CH_STAT_PEND pend).setFld .MQ_CH_STAT i MQ_CH_STAT_SPILLED sp

/-- A change of a target's state, shown in its producer line; a line that changes is written (R392). -/
def State.modTk (s : State) (t : Nat) (f : Chan → Chan) : State :=
  let u := (s.modChan t f).noteLine t
  if u.peekN (u.tkLine t) 64 = s.peekN (s.tkLine t) 64 then u else u.unitWrites t 0 64

/-- REASON of a target's STAT register (R356, R357); a host channel has none. -/
def State.tkReason (s : State) (t code : Nat) : State :=
  if tkHost t then s
  else if tkQueue t then s.setFld .MQ_Q_STAT [tkCluster t, tkIndex t] MQ_Q_STAT_REASON code
  else s.setFld .MQ_CH_STAT [tkCluster t, tkIndex t] MQ_CH_STAT_REASON code

/-- A message-unit counter of a target's cluster; a port has none of them. -/
def State.mqBump (s : State) (r : Reg) (t : Nat) (n : Nat := 1) : State := if tkHost t then s else s.bump r [tkCluster t] n

/-! ## Compost slots -/

/-- Key of a target's compost area, its base, and its slots (R349, R421). -/
def compKey (t : Nat) : Nat := if tkHost t then 256 + tkPort t else tkCluster t
def State.compBase (s : State) (t : Nat) : Nat :=
  if tkHost t then s.val .GP_COMPOST [tkPort t] else s.val .MQ_COMPOST [tkCluster t]
def State.compSlots (s : State) (t : Nat) : Nat :=
  if tkHost t then s.fld .GP_COMPN [tkPort t] GP_COMPN_NSLOT else s.fld .MQ_COMPN [tkCluster t] MQ_COMPN_NSLOT

/-- COMPN.FREE follows the slots in use (R356). -/
def State.noteFree (s : State) (k : Nat) : State :=
  let used := (mget s.comp k).length
  if k ≥ 256 then s.setFld .GP_COMPN [k - 256] GP_COMPN_FREE (s.fld .GP_COMPN [k - 256] GP_COMPN_NSLOT - used)
  else s.setFld .MQ_COMPN [k] MQ_COMPN_FREE (s.fld .MQ_COMPN [k] MQ_COMPN_NSLOT - used)

/-- A free slot taken, the lowest one. -/
def State.takeSlot (s : State) (t : Nat) : Option (Nat × State) :=
  let used := mget s.comp (compKey t)
  ((List.range (s.compSlots t)).find? fun i => !used.contains i).map fun i =>
    (i, { s with comp := mput s.comp (compKey t) (used ++ [i]) }.noteFree (compKey t))

def State.freeSlot (s : State) (t i : Nat) : State :=
  { s with comp := mput s.comp (compKey t) ((mget s.comp (compKey t)).erase i) }.noteFree (compKey t)

/-- The oldest n compost entries of a target freed. -/
def State.dropComp (s : State) (t n : Nat) : State :=
  let s := s.each ((s.getChan t).comp.take n) fun s e => s.freeSlot t e.1
  s.modTk t fun x => { x with comp := x.comp.drop n }

/-! ## Consumer lines -/

/-- A value of RD, RELEASED or CDONE that the unit ignores (R331, R345, R350). -/
def State.badRd (s : State) (t : Nat) : State := s.mqBump .MQ_BADRD t

/-- A new RD of a channel (R331): a multiple of 64, not backwards, not past WR. -/
def State.takeRd (s : State) (t v : Nat) : State :=
  let x := s.getChan t
  let d := (v + 2 ^ 32 - x.rd) % 2 ^ 32
  if d = 0 then s
  else if v % 64 ≠ 0 ∨ d > (x.wr + 2 ^ 32 - x.rd) % 2 ^ 32 then s.badRd t
  else s.modChan t fun x => { x with rd := v, serial := x.serial + 1 }

/-- A new CDONE of a channel (R350). -/
def State.takeCdone (s : State) (t v : Nat) : State :=
  let x := s.getChan t
  let d := (v + 2 ^ 32 - x.cdone) % 2 ^ 32
  if d = 0 then s
  else if d > x.comp.length then s.badRd t
  else (s.modChan t fun x => { x with cdone := v }).dropComp t d

/-- Rounds between RELEASED and CLOSED (R345). -/
def Chan.unreleased (x : Chan) : Nat := (x.closed + 2 ^ 32 - x.rd) % 2 ^ 32

/-- The count of contributions of a round's buffer. -/
def Chan.cnt (x : Chan) (r : Nat) : Nat := if r % 2 = 0 then x.cnt0 else x.cnt1
def Chan.setCnt (x : Chan) (r n : Nat) : Chan := if r % 2 = 0 then { x with cnt0 := n } else { x with cnt1 := n }

/-- The accumulators of a round's buffer zeroed (R345). -/
def State.zeroAcc (s : State) (t r : Nat) : State :=
  ((s.wipe (s.qAccAt t r 0) (8 * s.qElems t)).unitWrites t (s.qAccAt t r 0) (8 * s.qElems t)).modChan t fun x => x.setCnt r 0

/-- A new RELEASED of a queue (R345): not backwards, not above CLOSED; the buffers it frees are zeroed. -/
def State.takeReleased (s : State) (t v : Nat) : State :=
  let x := s.getChan t
  let d := (v + 2 ^ 32 - x.rd) % 2 ^ 32
  if d = 0 then s
  else if d > x.unreleased then s.badRd t
  else
    let s := s.each (List.range (min d 2)) fun s i => s.zeroAcc t (x.rd + i)
    s.modChan t fun x => { x with rd := v, serial := x.serial + 1 }

/-- The message unit observes a write to a line (R330): where it is the consumer line of an enabled target, the new values are taken. -/
def State.observe (s : State) (a : Nat) : State :=
  match locate a with
  | .bank c _ =>
    match ((List.range 40).map (c * 64 + ·)).find? fun t => s.tkOn t && s.tkLine t + 64 == a / 64 * 64 with
    | none => s
    | some t =>
      let l := a / 64 * 64
      if tkQueue t then s.takeReleased t (s.peekLE l 4)
      else (s.takeRd t (s.peekLE l 4)).takeCdone t (s.peekLE (l + 4) 4)
  | _ => s

/-! ## Requests -/

/-- A transfer's request withdrawn from the target that holds it, with its wait edge and a compost slot that has not been written yet (R346,
R353). -/
def State.dropReq (s : State) (key : Nat) : State :=
  let x := s.getXfer key
  let s := { s with edges := s.edges.filter fun e => e.key != key }
  if x.target = 0 then s
  else
    let t := x.target - 1
    let s := s.each ((s.getChan t).reqs.filter fun r => r.key == key && r.st == 2) fun s r => s.freeSlot t r.at_
    s.modTk t fun ch => { ch with reqs := ch.reqs.filter fun r => r.key != key }

end Sys2Proof.Machine
end

