-- ==== Sys2Proof/Machine/Flits.lean ====
section
/-! DEFINITION. The event flit (R123 to R127), its check code, fan-out chains (R131 to R134) and trace entries (R556, R557). -/

namespace Sys2Proof.Machine

/-- A 128-bit event flit. -/
abbrev Flit := BitVec 128

def Flit.fld (f : Flit) (lo w : Nat) : Nat := bitsOf f.toNat lo w
def fKind (f : Flit) : Nat := bitsOf f.toNat 118 2
def fAge (f : Flit) : Nat := bitsOf f.toNat 112 6
def fDest (f : Flit) : Nat := bitsOf f.toNat 100 12
def fDC (f : Flit) : Nat := bitsOf f.toNat 100 5
def fAxon (f : Flit) : Nat := bitsOf f.toNat 84 16
def fWorld (f : Flit) : Nat := bitsOf f.toNat 70 14
def fDelay (f : Flit) : Nat := bitsOf f.toNat 64 6
def fStamp (f : Flit) : Nat := bitsOf f.toNat 48 16
def fPayload (f : Flit) : Nat := bitsOf f.toNat 40 8
def fTb (f : Flit) : Nat := bitsOf f.toNat 34 6
def fTrace (f : Flit) : Bool := f.toNat.testBit 33
def fSrc (f : Flit) : Nat := bitsOf f.toNat 21 12

/-- The code position of a data bit: the positions 3 to 127 that are not powers of two, in order (R125). -/
def chkPos (i : Nat) : Nat :=
  if i < 1 then 3 else if i < 4 then i + 4 else if i < 11 then i + 5 else if i < 26 then i + 6
  else if i < 57 then i + 7 else i + 8

/-- CHK[6:0]: the exclusive-or of the positions of the data bits that are 1 (R125). -/
def chkLow : Nat → Nat → Nat
  | 0, _ => 0
  | n + 1, x => chkLow n x ^^^ (if x.testBit n then chkPos n else 0)

/-- The parity of the low n bits. -/
def parity : Nat → Nat → Nat
  | 0, _ => 0
  | n + 1, x => (parity n x + (if x.testBit n then 1 else 0)) % 2

/-- CHK over the data bits [119:0] (R125). -/
def chkOf (x : Nat) : Nat :=
  let lo := chkLow 120 (x % 2 ^ 120)
  lo + 128 * ((parity 120 (x % 2 ^ 120) + parity 7 lo) % 2)

/-- A flit with CHK computed over its other bits (R126). -/
def sealFlit (x : Nat) : Flit := BitVec.ofNat 128 (x % 2 ^ 120 + chkOf x * 2 ^ 120)

/-- A flit as the injecting engine forms it: AGE 0, reserved bits 0 (R126). -/
def mkFlit (kind dest axon world delay stamp payload tb : Nat) (trace : Bool) (src : Nat) : Flit :=
  sealFlit ((kind % 4) * 2 ^ 118 + (dest % 2 ^ 12) * 2 ^ 100 + (axon % 2 ^ 16) * 2 ^ 84 + (world % 2 ^ 14) * 2 ^ 70
    + (delay % 64) * 2 ^ 64 + (stamp % 2 ^ 16) * 2 ^ 48 + (payload % 256) * 2 ^ 40 + (tb % 64) * 2 ^ 34
    + (if trace then 2 ^ 33 else 0) + (src % 2 ^ 12) * 2 ^ 21)

/-- A flit with bits [lo + w − 1 : lo] replaced and CHK changed by the difference, so that an error the flit carries stays in its
code (R272, R284). -/
def Flit.put (f : Flit) (lo w n : Nat) : Flit :=
  let d := f.toNat % 2 ^ 120
  let d' := setBits d lo w n % 2 ^ 120
  BitVec.ofNat 128 (d' + (f.toNat / 2 ^ 120 ^^^ chkOf d ^^^ chkOf d') * 2 ^ 120)

/-- What the ejection check finds (R125, R278): the flit corrected, whether a single bit was corrected, and whether the error
is uncorrectable. -/
structure Checked where
  flit : Flit
  corrected : Bool
  bad : Bool
  deriving DecidableEq, Repr

/-- The data bit at a code position, if any. -/
def chkBit (pos : Nat) : Option Nat := (List.range 120).find? fun i => chkPos i == pos

/-- Check and correction of a flit (R125): an odd number of wrong bits is one bit, at the syndrome's position; an even number with
a syndrome is uncorrectable. -/
def checkFlit (f : Flit) : Checked :=
  let x := f.toNat
  let d := x % 2 ^ 120
  let chk := x / 2 ^ 120
  let syn := chkLow 120 d ^^^ (chk % 128)
  let odd := (parity 120 d + parity 7 (chk % 128) + chk / 128) % 2
  if odd = 0 then (if syn = 0 then ⟨f, false, false⟩ else ⟨f, false, true⟩)
  else
    match chkBit syn with
    | some i => ⟨sealFlit (d ^^^ 2 ^ i), true, false⟩
    | none => if syn = 0 ∨ [1, 2, 4, 8, 16, 32, 64].contains syn then ⟨sealFlit d, true, false⟩ else ⟨f, false, true⟩

/-! ## Trace entries -/

/-- KEY of a flit: CRC-32C of bits [111:21] as 12 bytes (R556). -/
def flitKey (f : Flit) : Nat := crc32c (leBytes 12 (bitsOf f.toNat 21 91))

/-- A trace entry written into a cluster's ring (R556, R557): only while the ring is enabled, the cluster belongs to the partition of
the world's group and the ring's bank is awake; otherwise it is counted in PC_TRDROP. -/
def State.traceKey (s : State) (c key age world stage flags whr data : Nat) : State :=
  let part := (s.groupOf world).map fun g => s.wgPart g
  let base := s.fld .PC_TRRING [c] PC_TRRING_BASE * 0x1000
  let n := s.val .PC_TRWR [c]
  let off := base + 16 * (n % 2 ^ s.fld .PC_TRRING [c] PC_TRRING_LOG2)
  if s.bit .PC_TRRING [c] PC_TRRING_EN && part.isSome && s.partOfCluster c == part && s.bankAwake c (bankOf off) then
    let e := key + (s.val .PC_TT [] % 2 ^ 32) * 2 ^ 32 + (stage % 16) * 2 ^ 64 + (age % 64 + flags * 64) * 2 ^ 72
      + (whr % 2 ^ 12) * 2 ^ 80 + (data % 2 ^ 32) * 2 ^ 96
    ((((s.pokeLE (bankAddr c off) 16 e).bump .BK_WR [c]).observe (bankAddr c off)).bump .PC_TRWR [c]).bump .PC_TRENT [c]
  else s.bump .PC_TRDROP [c]

/-- A stage entry of a flit, if it is tagged (R556). -/
def State.trace (s : State) (c : Nat) (f : Flit) (stage whr data : Nat) : State :=
  if fTrace f then s.traceKey c (flitKey f) (fAge f) (fWorld f) stage 0 whr data else s

/-! ## Fan-out chains -/

/-- A destination word with the DELAY of its entry (R132). -/
structure Dest where
  word : Nat
  delay : Nat
  deriving DecidableEq, Repr

/-- How a walk ended (R133, R152): at its end, cut, or at an unreadable word. -/
inductive WalkEnd where
  | fin
  | cut
  | bad (a : Nat)
  deriving DecidableEq, Repr

/-- Destination words of one entry up to an unreadable one. -/
def entryDests (rd : Nat → Nat) (bad : Nat → Bool) (delay : Nat) : Nat → Nat → List Dest × WalkEnd
  | 0, _ => ([], .fin)
  | k + 1, a =>
    if bad a then ([], .bad a)
    else
      let r := entryDests rd bad delay k (a + 1)
      ({ word := rd a, delay := delay } :: r.1, r.2)

/-- The walk of a chain (R132, R133): at most 64 entries; each entry must lie wholly within the table space of `lim` words before it
contributes a flit; NEXT 0x3_FFFF ends the chain. -/
def walkChain (rd : Nat → Nat) (bad : Nat → Bool) (lim : Nat) : Nat → Nat → List Dest × WalkEnd
  | 0, _ => ([], .cut)
  | fuel + 1, a =>
    if a ≥ lim then ([], .cut)
    else if bad a then ([], .bad a)
    else
      let h := rd a
      let cnt := bitsOf h 4 4 + 1
      if a + cnt ≥ lim then ([], .cut)
      else
        let r := entryDests rd bad (bitsOf h 8 6) cnt (a + 1)
        match r.2 with
        | .fin =>
          let next := bitsOf h 14 18
          if next = 0x3FFFF then r
          else
            let t := walkChain rd bad lim fuel next
            (r.1 ++ t.1, t.2)
        | e => (r.1, e)

/-- The walk from a directory word (R131): a word with V = 0 has no fan-out. -/
def walkDir (rd : Nat → Nat) (bad : Nat → Bool) (lim dir : Nat) : List Dest × WalkEnd :=
  if bad dir then ([], .bad dir)
  else
    let w := rd dir
    if w.testBit 31 then walkChain rd bad lim 64 (bitsOf w 0 18) else ([], .fin)

/-- The flit of a destination word (R126, R132, R133). -/
def destFlit (kind payload world stamp tb : Nat) (trace : Bool) (src : Nat) (d : Dest) : Flit :=
  mkFlit kind (bitsOf d.word 20 12) (bitsOf d.word 4 16) world d.delay stamp payload tb trace src

end Sys2Proof.Machine
end

