-- ==== Sys2Proof/Machine/Synapse.lean ====
section
/-! DEFINITION. Synapses at a neuron core (R128 to R145, R152, R158 to R172): network slots, fan-out of an event, the input queue,
weighting at delivery, pairing for learning and modulators. -/

namespace Sys2Proof.Machine

/-! ## Network slots -/

/-- The enabled slot of a core that names a network (R128, R129). -/
def State.slotOf (s : State) (c n net : Nat) : Option Nat :=
  (List.range 8).find? fun k => s.bit .SY_NET [c, n, k] SY_NET_EN && s.fld .SY_NET [c, n, k] SY_NET_NET == net

/-- The enabled group-map entry of a core that holds a world: the entry and its group (R98, R121, R129). -/
def State.entryOf (s : State) (c n w : Nat) : Option (Nat × Nat) :=
  (List.range 16).findSome? fun e =>
    if s.bit .NC_GMAP_A [c, n, e] NC_GMAP_A_EN then
      let g := s.fld .NC_GMAP_A [c, n, e] NC_GMAP_A_WG
      if s.wgOn g && decide (s.wgFirst g ≤ w) && decide (w < s.wgFirst g + s.wgResident g) then some (e, g) else none
    else none

/-- The table space of a neuron core in words (R133). -/
def coreWords : Nat := 0x30000

/-- An uncorrectable table word (R152): the address is recorded, and every group whose entry names the network halts with 0x0380
at its next harvest. -/
def State.tableEcc (s : State) (c n net a : Nat) : State :=
  let s := (s.setVal .NC_ERRADDR [c, n] (a % 2 ^ 20)).setFld .NC_STATUS [c, n] NC_STATUS_ECCERR 1
  s.each (List.range 16) fun s e =>
    if s.bit .NC_GMAP_A [c, n, e] NC_GMAP_A_EN && s.fld .NC_GMAP_A [c, n, e] NC_GMAP_A_NET == net &&
       s.wgOn (s.fld .NC_GMAP_A [c, n, e] NC_GMAP_A_WG)
    then s.haltAtHarvest (s.fld .NC_GMAP_A [c, n, e] NC_GMAP_A_WG) 0x0380 else s

/-! ## Fan-out of a neuron core's event -/

/-- The fan-out unit walks the head event's chain (R131 to R134, R152): one flit per destination word, handed on for injection. An event
whose network no enabled slot holds any more forms none, and is counted nowhere (log entry 92). -/
def State.fanoutWalk (s : State) (bad : List Nat) (c n : Nat) : State :=
  match (s.getNc c n).fan with
  | [] => s
  | ev :: rest =>
    let s := s.modNc c n fun u => { u with fan := rest }
    match s.slotOf c n ev.net with
    | none => s
    | some k =>
      let dir := s.val .SY_FO_BASE [c, n, k] / 4 + ev.neuron
      let r := walkDir (s.cword c n) (fun a => badIn bad (4 * a) 4) coreWords dir
      let flits := r.1.map (destFlit ev.kind ev.payload ev.world ev.stamp (s.wgTb ev.wg) ev.trace (coordOf c n))
      let s := (s.modNc c n fun u => { u with outq := u.outq ++ flits }).bump .SY_FLITS [c, n] flits.length
      match r.2 with
      | .fin => s
      | .cut => s.bump .SY_FOCUT [c, n]
      | .bad a => s.tableEcc c n ev.net (badWord bad (4 * a) 4)

/-! ## The input queue -/

/-- The axon header of a slot: START, LEN, WPS, MAXN (R135). -/
structure AxHdr where
  start : Nat
  len : Nat
  wps : Nat
  maxn : Nat
  deriving DecidableEq, Repr

def axHdrOf (x : Nat) : AxHdr :=
  { start := bitsOf x 14 18, len := bitsOf x 0 14, wps := bitsOf x 58 6, maxn := bitsOf x 43 15 }

def State.axHdrAddr (s : State) (c n k a : Nat) : Nat := s.val .SY_FI_BASE [c, n, k] + 8 * a
def State.axHdr (s : State) (c n k a : Nat) : AxHdr := axHdrOf (s.cpeek c n (s.axHdrAddr c n k a) 8)

/-- A kernel descriptor (R139). -/
structure Kern where
  axbase : Nat
  obase : Nat
  iw : Nat
  ih : Nat
  ow : Nat
  oh : Nat
  cin : Nat
  cout : Nat
  kw : Nat
  kh : Nat
  stride : Nat
  delay : Nat
  px : Nat
  py : Nat
  wps : Nat
  wbase : Nat
  deriving DecidableEq, Repr

/-- The stride of an SD code (R139); the reserved one, which the check refuses with 0x0305 and which only a later write of the table memory
can bring, acts as 4 (log entry 91). -/
def strideOf (sd : Nat) : Nat := match sd with | 0 => 1 | 1 => 2 | _ => 4

def kernOf (x : Nat) : Kern :=
  { axbase := bitsOf x 0 16, obase := bitsOf x 16 15, iw := bitsOf x 32 8 + 1, ih := bitsOf x 40 8 + 1,
    ow := bitsOf x 48 8 + 1, oh := bitsOf x 56 8 + 1, cin := bitsOf x 64 8 + 1, cout := bitsOf x 72 8 + 1,
    kw := bitsOf x 84 4 + 1, kh := bitsOf x 80 4 + 1, stride := strideOf (bitsOf x 94 2), delay := bitsOf x 88 6,
    px := bitsOf x 100 4, py := bitsOf x 96 4, wps := bitsOf x 104 6, wbase := bitsOf x 128 18 }

def State.kernAddr (s : State) (c n k j : Nat) : Nat := s.fld .SY_KERN [c, n, k] SY_KERN_BASE * 256 + 32 * j
def State.kern (s : State) (c n k j : Nat) : Kern := kernOf (s.cpeek c n (s.kernAddr c n k j) 32)

/-- Axons of a kernel's range (R139). -/
def Kern.axons (d : Kern) : Nat := d.cin * d.ih * d.iw

/-- NSRC, NAXON and NKERN of a slot (R155). -/
def State.foCount (s : State) (c n k : Nat) : Nat := orReset 32768 (s.val .SY_FO_COUNT [c, n, k])
def State.fiCount (s : State) (c n k : Nat) : Nat := orReset 65536 (s.val .SY_FI_COUNT [c, n, k])
def State.kernCount (s : State) (c n k : Nat) : Nat := orReset 8 (s.fld .SY_KERN [c, n, k] SY_KERN_NKERN)

/-- The first kernel of a slot whose range holds an axon (R139, R140), or whose descriptor cannot be read (R152). -/
def State.kernAt (s : State) (bad : List Nat) (c n k a : Nat) : Option Nat :=
  (List.range (s.kernCount c n k)).find? fun j =>
    let d := s.kern c n k j
    badIn bad (s.kernAddr c n k j) 32 || (decide (d.axbase ≤ a) && decide (a < d.axbase + d.axons))

/-- What a neuron core makes of a KIND 0 or KIND 1 flit (R98, R137, R138): it is for the step open there, or waits for the next
one, or is absorbed under R98, or its axon lies nowhere. -/
inductive Fate where
  | now (e g k : Nat)
  | wait
  | absorb
  | axmiss
  deriving DecidableEq, Repr

/-- Whether a flit's step is open at the core (true), follows the open one (false), or neither, so that it is absorbed (R71, R98): the next
number, or the step a skip has opened elsewhere. -/
def State.stampFate (s : State) (c n g : Nat) (f : Flit) : Option Bool :=
  let t := mget (s.getNc c n).opens g
  if fStamp f = t % 2 ^ 16 then some true
  else if fStamp f = (t + 1) % 2 ^ 16 ∨ (s.wgOpen g ∧ fStamp f = s.wgWStep g % 2 ^ 16) then some false
  else none

def State.fate (s : State) (bad : List Nat) (c n : Nat) (f : Flit) : Fate :=
  match s.entryOf c n (fWorld f) with
  | none => .absorb
  | some (e, g) =>
    match s.stampFate c n g f with
    | none => .absorb
    | some false => .wait
    | some true =>
      match s.slotOf c n (s.fld .NC_GMAP_A [c, n, e] NC_GMAP_A_NET) with
      | none => .absorb                                     -- no enabled slot holds the entry's network (log entry 92)
      | some k =>
        let a := fAxon f
        if a < s.fiCount c n k then
          (if !badIn bad (s.axHdrAddr c n k a) 8 && decide ((s.axHdr c n k a).maxn ≥ s.gmNpw c n e) then .absorb else .now e g k)
        else if (s.kernAt bad c n k a).isSome then .now e g k
        else .axmiss

/-- A KIND 0 or KIND 1 flit is counted as accepted, and enters the input queue, or is absorbed for its world or step (R98); its axon is looked
up when the lanes take it, where an unreadable table word shows (R138, R152). A KIND 3 flit is absorbed and counted in SY_IBABS (R127). -/
def State.coreEnqueue (s : State) (c n : Nat) (f : Flit) : State :=
  let s := s.acceptWorld (fWorld f) (halfOf c)
  if fKind f = 3 then s.bump .SY_IBABS [c, n]
  else
    match s.entryOf c n (fWorld f) with
    | none => s.bump .NC_ABSORB [c, n]
    | some (_, g) =>
      match s.stampFate c n g f with
      | none => s.bump .NC_ABSORB [c, n]
      | some _ => s.modNc c n fun u => { u with inq := u.inq ++ [f] }

/-! ## Weights -/

/-- A weight parameter set (R142). -/
structure Wps where
  fmt : Nat
  pfmt : Nat
  sm : Nat
  se : Int
  wzp : Int
  pzp : Int
  deriving DecidableEq, Repr

def wpsOf (x : Nat) : Wps :=
  { fmt := bitsOf x 5 3, pfmt := bitsOf x 2 3, sm := bitsOf x 8 8, se := sext 8 (bitsOf x 16 8), wzp := sext 8 (bitsOf x 24 8),
    pzp := sext 8 (bitsOf x 32 8) }

/-- The weight format of a WFMT code (R142). -/
def wfmtOf : Nat → Fmt
  | 0 => .int4
  | 1 => .int8
  | 2 => .e4m3
  | 3 => .e2m1
  | _ => .ql3

/-- The conditions of 0x0304 (R157). -/
def wpsGood (x : Nat) : Bool :=
  let p := wpsOf x
  decide (p.fmt ≤ 4) && decide (p.pfmt ≤ 4) && decide (p.sm ≥ 0x80) && decide (-32 ≤ p.se) && decide (p.se ≤ 7) &&
  (if p.fmt = 0 then decide (-8 ≤ p.wzp) && decide (p.wzp ≤ 7) else p.fmt == 1 || p.wzp == 0) &&
  (if p.pfmt = 1 then decide (-8 ≤ p.pzp) && decide (p.pzp ≤ 7) else p.pfmt == 2 || p.pzp == 0) &&
  bitsOf x 40 24 == 0

/-- A decoded code in units of 2^−9; a NaN code reads as zero (R144). -/
def units9 (f : Fmt) (c : Nat) : Int := (decodeFmt f c).floorScaled 9

/-- The payload value of a PFMT code in units of 2^−9 (R94, R143): binary is 1. -/
def payUnits (pfmt c : Nat) : Int :=
  match pfmt with
  | 0 => 512
  | 1 => units9 .int4 c
  | 2 => units9 .int8 c
  | 3 => units9 .e2m1 c
  | _ => units9 .ql3 c

/-- The pre value of a flit (R144): 2^9 for a plain spike, else the decoded payload less its zero point. -/
def preValue (p : Wps) (kind payload : Nat) : Int :=
  if kind = 0 then 512 else payUnits p.pfmt payload - p.pzp * 512

/-- The contribution of one synapse in S16.16 (R144): exact product, one rounding half to even, clamped. -/
def contribution (p : Wps) (wraw : Nat) (pv : Int) : Int :=
  let wv := units9 (wfmtOf p.fmt) wraw - p.wzp * 512
  let x : Int := wv * pv * p.sm * (2 ^ (p.se + 39).toNat : Nat)
  let q := x / 2 ^ 48
  let rm := x % 2 ^ 48
  let q := if rm > 2 ^ 47 ∨ (rm = 2 ^ 47 ∧ q % 2 = 1) then q + 1 else q
  clampInt (-2 ^ 31) (2 ^ 31 - 1) q

/-! ## Learning ranges -/

/-- The synapse index of a fan-in entry's word address on a core that holds a set for this slot (R158, R173). -/
def State.synIndex (s : State) (c n k wa : Nat) : Option Nat :=
  if s.bit .LR_CORE_CFG [c, n] LR_CORE_CFG_EN && s.fld .LR_CORE_CFG [c, n] LR_CORE_CFG_SLOT == k then
    let lo := s.val .LR_ENT [c, n]
    if lo ≤ wa ∧ wa < lo + s.val .LR_NENT [c, n] then some (wa - lo) else none
  else none

def State.accAddr (s : State) (c n j : Nat) : Nat := s.val .LR_ACC_BASE [c, n] + 4 * j
def State.shdAddr (s : State) (c n j : Nat) : Nat := s.val .LR_SHD_BASE [c, n] + j
def State.selAddr (s : State) (c n j : Nat) : Nat := s.val .LR_SEL_BASE [c, n] + j / 64 / 8

/-- Which copy of block j >> 6 is live (R173): the entry's W field, or the shadow byte. -/
def State.selBit (s : State) (c n j : Nat) : Bool := (s.cpeek c n (s.selAddr c n j) 1).testBit (j / 64 % 8)

/-- The live weight code of an entry (R165, R181). -/
def State.liveWeight (s : State) (c n k wa entry : Nat) : Nat :=
  match s.synIndex c n k wa with
  | some j => if s.selBit c n j then s.cpeek c n (s.shdAddr c n j) 1 else bitsOf entry 0 8
  | none => bitsOf entry 0 8


/-! ## Pairing (R166 to R172) -/

/-- The modulator in force for a world at a step (R168). -/
def State.modulator (s : State) (c n w k t : Nat) : Int :=
  let x := s.cpeek c n (s.modAddr c n w k) 8
  if x.testBit 48 && decide ((t + 2 ^ 16 - bitsOf x 32 16) % 2 ^ 16 < 2 ^ 15)
  then clampInt (-128) 127 (sext 16 (bitsOf x 16 16)) else sext 8 (bitsOf x 0 8)

/-- Is the instance coincident at step t: fired at its integration for that step (R110)? -/
def coincident (r : Rec) (t : Nat) : Bool := r.f && r.last == t % 2 ^ 16

/-- rand(w, j, s) of R170. -/
def pairRand (seed w j t : Nat) : Nat :=
  let x := seed ^^^ ((w % 2 ^ 14) * 2 ^ 18 + j % 2 ^ 17)
  let x := x ^^^ ((t % 2 ^ 16) * 2 ^ 16 + t % 2 ^ 16)
  lfsrN 32 (if x = 0 then 1 else x) % 2 ^ 24

/-- The exact part of pair() of R169: the contribution, stochastically rounded, in its 40-bit q, and clamped. -/
def pairQ (cp cd cc : Int) (mg sh clip : Nat) (y : Nat) (coin : Bool) (pv m : Int) (r : Nat) : Int :=
  let e : Int := cp * y - cd * 2 ^ 16 + (if coin then cc * 2 ^ 16 else 0)
  let x := e * pv * m * mg
  let d : Int := (2 ^ sh : Nat)
  let q := sext 40 (wrapInt 40 (x / d))
  let f := (x % d).toNat
  let f := if sh ≥ 24 then f >>> (sh - 24) else f <<< (24 - sh)
  let q := if r < f then sext 40 (wrapInt 40 (q + 1)) else q
  let lim : Int := (2 ^ clip : Nat) - 1
  clampInt (-lim) lim q

/-- One pairing (R169): the contribution added into the synapse's accumulator; an unreadable record halts its group (R115). -/
def State.pair (s : State) (bad : List Nat) (c n g set j i w t : Nat) (pv : Int) : State :=
  let a := s.accAddr c n j
  let ma := s.modAddr c n w (s.lsFld set .LR_SET_CFG LR_SET_CFG_MIDX)
  if badIn bad (s.recAddr c n i) 12 then s.coreEcc c n (badWord bad (s.recAddr c n i) 12) g 0x0280
  else if badIn bad a 4 then s.learnEcc c n set (badWord bad a 4)
  else if badIn bad ma 8 then s.learnEcc c n set (badWord bad ma 8)
  else
    let r := s.getRec c n i
    let coin := coincident r t
    let y := if r.last = t % 2 ^ 16 then r.trc
      else (s.leak c n 0x3000 r.pset r.trc ((t + 2 ^ 16 - r.last) % 2 ^ 16)).toNat
    let coefA := s.lsVal set .LR_SET_COEF_A
    let coefB := s.lsVal set .LR_SET_COEF_B
    let q := pairQ (sext 16 (bitsOf coefA 0 16)) (sext 16 (bitsOf coefA 16 16)) (sext 16 (bitsOf coefB 16 16))
      (bitsOf coefB 8 8) (bitsOf coefB 0 6) (s.lsFld set .LR_SET_CFG LR_SET_CFG_CLIP) y coin pv
      (s.modulator c n w (s.lsFld set .LR_SET_CFG LR_SET_CFG_MIDX) t)
      (pairRand (s.lsVal set .LR_SET_SEED) w j t)
    let s := s.cpoke c n a 4 (wrapInt 32 (sext 32 (s.cpeek c n a 4) + q))
    (s.bump .LR_PAIRS [c, n]).bump .LR_COIN [c, n] (if coin then 1 else 0)

/-- The store address of candidate i (R173, R174). -/
def State.candAddr (s : State) (c n i : Nat) : Nat := s.val .LR_CAND_BASE [c, n] + 8 * i

/-- The candidate check of a delivery (R172, R174): every entry of the axon's bucket. -/
def State.candCheck (s : State) (bad : List Nat) (c n e g set axon w t : Nat) : State :=
  let nc := s.val .LR_CAND_CFG [c, n]
  if nc < 4 then s
  else
    s.each ((List.range 4).map fun i => 4 * (axon % (nc / 4)) + i) fun s i =>
      let a := s.candAddr c n i
      let s := s.bump .LR_CANDCHK [c, n]
      if badIn bad a 8 then s.learnEcc c n set (badWord bad a 8)
      else
        let x := s.cpeek c n a 8
        let inst := s.gmBase c n e + (w - s.wgFirst g) * s.gmNpw c n e + bitsOf x 33 15
        if bitsOf x 48 16 = axon ∧ !x.testBit 26 ∧ badIn bad (s.recAddr c n inst) 12 then
          s.coreEcc c n (badWord bad (s.recAddr c n inst) 12) g 0x0280
        else if bitsOf x 48 16 = axon ∧ !x.testBit 26 ∧ coincident (s.getRec c n inst) t
        then s.cpoke c n a 8 (setBits x 0 12 (min (bitsOf x 0 12 + 1) 4095)) else s

/-! ## Delivery -/

/-- What one delivery has gathered for its trace entries: lane additions, the epoch of the first learning block read, whether one
was read, the first target step and instance. -/
structure Lane where
  adds : Nat := 0
  learn : Bool := false
  first : Option (Nat × Nat) := none
  deriving DecidableEq, Repr

/-- One lane addition (R96, R97, R111, R144, R145): the contribution into the slot of step t + d, d limited to 1 … D, and the slot's touched
bit; an unreadable slot halts its group (R115), and the addition is counted all the same. -/
def State.laneAdd (s : State) (bad : List Nat) (c n g i t d : Nat) (x : Int) : State :=
  let depth := s.ncDepth c n
  let s := if d > depth then s.bump .NC_DCLIP [c, n] else s
  let d := max 1 (min d depth)
  let j := (t + d) % depth
  let a := s.slotAddr c n i j
  let s := s.bump .NC_SYNOPS [c, n]
  if badIn bad a 4 then s.coreEcc c n (badWord bad a 4) g 0x0280
  else (s.cpoke c n a 4 (wrapInt 32 (sext 32 (s.cpeek c n a 4) + x))).setTouched c n i j true

/-- The delay a lane addition takes effect with (R97). -/
def State.laneStep (s : State) (c n t d : Nat) : Nat := t + max 1 (min d (s.ncDepth c n))

/-- One fan-in entry weighted (R136 to R138, R144, R145, R169): skipped when pruned, unreadable or above MAXN, or past the end of the store,
where a word reads as pruned (log entry 159). -/
def State.fanEntry (s : State) (bad : List Nat) (c n e g k : Nat) (f : Flit) (t : Nat) (h : AxHdr) (wx : Nat) (writer : Bool)
    (l : Lane) (wa : Nat) : State × Lane :=
  if badIn bad (4 * wa) 4 then (s.tableEcc c n (s.fld .NC_GMAP_A [c, n, e] NC_GMAP_A_NET) (badWord bad (4 * wa) 4), l)
  else
    let x := s.cword c n wa
    if !x.testBit 10 then (s, l)
    else if bitsOf x 17 15 > h.maxn then (s.bump .SY_NBAD [c, n], l)
    else
      let i := s.gmBase c n e + (fWorld f - s.wgFirst g) * s.gmNpw c n e + bitsOf x 17 15
      let d := fDelay f + bitsOf x 11 6
      let syn := s.synIndex c n k wa
      let ecc := match syn with
        | some j => if badIn bad (s.selAddr c n j) 1 then some (badWord bad (s.selAddr c n j) 1)
          else if s.selBit c n j && badIn bad (s.shdAddr c n j) 1 then some (badWord bad (s.shdAddr c n j) 1) else none
        | none => none
      match ecc with
      | some a =>
        (match s.coreSet c n with
         | some set => s.learnEcc c n set a
         | none => s.tableEcc c n (s.fld .NC_GMAP_A [c, n, e] NC_GMAP_A_NET) a, l)
      | none =>
        let p := wpsOf wx
        let pv := preValue p (fKind f) (fPayload f)
        let good := wpsGood wx
        let v := if good then contribution p (s.liveWeight c n k wa x) pv else 0
        let target := s.laneStep c n t d
        let s := s.laneAdd bad c n g i t d v
        let s := if good then s else s.bump .SY_NBAD [c, n]
        let s := match s.coreSet c n, syn with
          | some set, some j => if writer then s.pair bad c n g set j i (fWorld f) t pv else s
          | _, _ => s
        (s, { adds := l.adds + 1, learn := l.learn || (syn.isSome && (s.coreSet c n).isSome),
              first := match l.first with | some q => some q | none => some (target, i) })

/-- Weight k of a kernel (R141); one past the end of the store, which only a descriptor rewritten after the check names, reads zero (R39; log
entry 159). -/
def State.kernWeight (s : State) (c n wbase : Nat) (f : Fmt) (k : Nat) : Nat :=
  let a := 4 * wbase + (if f.width = 8 then k else k / 2)
  let x := if a < 0xC0000 then s.cpeek c n a 1 else 0
  if f.width = 8 then x else bitsOf x (4 * (k % 2)) 4

/-- The targets of an axon in a kernel, in loop order: weight index and output neuron (R140). -/
def Kern.targets (d : Kern) (a : Nat) : List (Nat × Nat) :=
  let r := a - d.axbase
  let x := r % d.iw
  let y := r / d.iw % d.ih
  let ci := r / (d.iw * d.ih)
  (List.range d.cout).flatMap fun (co : Nat) =>
    (List.range d.kh).flatMap fun (ky : Nat) =>
      (List.range d.kw).filterMap fun (kx : Nat) =>
        let tx : Int := (x : Int) + d.px - kx
        let ty : Int := (y : Int) + d.py - ky
        if tx ≥ 0 ∧ ty ≥ 0 ∧ tx % d.stride = 0 ∧ ty % d.stride = 0 then
          let ox := (tx / d.stride).toNat
          let oy := (ty / d.stride).toNat
          if ox < d.ow ∧ oy < d.oh then
            some (((co * d.cin + ci) * d.kh + ky) * d.kw + kx, d.obase + (co * d.oh + oy) * d.ow + ox)
          else none
        else none

/-- One kernel target weighted (R140, R141, R144). -/
def State.kernTarget (s : State) (bad : List Nat) (c n e g : Nat) (f : Flit) (t : Nat) (d : Kern) (wx : Nat) (l : Lane)
    (ko : Nat × Nat) : State × Lane :=
  let p := wpsOf wx
  let fm := wfmtOf p.fmt
  let wa := 4 * d.wbase + (if fm.width = 8 then ko.1 else ko.1 / 2)
  if badIn bad (wa / 4 * 4) 4 then (s.tableEcc c n (s.fld .NC_GMAP_A [c, n, e] NC_GMAP_A_NET) (badWord bad wa 1), l)
  else
    let i := s.gmBase c n e + (fWorld f - s.wgFirst g) * s.gmNpw c n e + ko.2
    let dl := fDelay f + d.delay
    let good := wpsGood wx
    let v := if good then contribution p (s.kernWeight c n d.wbase fm ko.1) (preValue p (fKind f) (fPayload f)) else 0
    let target := s.laneStep c n t dl
    let s := (s.laneAdd bad c n g i t dl v).bump .SY_KOPS [c, n]
    let s := if good then s else s.bump .SY_NBAD [c, n]
    (s, { l with adds := l.adds + 1, first := match l.first with | some q => some q | none => some (target, i) })

/-- A fold that carries the delivery's record. -/
def State.lanes {α : Type} (s : State) (l : Lane) (xs : List α) (f : State → Lane → α → State × Lane) : State × Lane :=
  xs.foldl (fun acc x => f acc.1 acc.2 x) (s, l)

/-- A flit for the open step weighted through its axon's list or kernel (R135 to R145, R152). -/
def State.weigh (s : State) (bad : List Nat) (c n e g k t : Nat) (writer : Bool) (f : Flit) : State × Lane :=
  let net := s.fld .NC_GMAP_A [c, n, e] NC_GMAP_A_NET
  let a := fAxon f
  let wpsAddr (i : Nat) := s.val .SY_WPS_BASE [c, n, k] + 8 * i
  if a < s.fiCount c n k then
    if badIn bad (s.axHdrAddr c n k a) 8 then (s.tableEcc c n net (badWord bad (s.axHdrAddr c n k a) 8), {})
    else
      let h := s.axHdr c n k a
      if badIn bad (wpsAddr h.wps) 8 then (s.tableEcc c n net (badWord bad (wpsAddr h.wps) 8), {})
      else
        let wx := s.cpeek c n (wpsAddr h.wps) 8
        s.lanes {} ((List.range h.len).map fun i => h.start + i) fun s l wa =>
          s.fanEntry bad c n e g k f t h wx writer l wa
  else
    match s.kernAt bad c n k a with
    | none => (s, {})
    | some j =>
      if badIn bad (s.kernAddr c n k j) 32 then (s.tableEcc c n net (badWord bad (s.kernAddr c n k j) 32), {})
      else
        let d := s.kern c n k j
        if badIn bad (wpsAddr d.wps) 8 then (s.tableEcc c n net (badWord bad (wpsAddr d.wps) 8), {})
        else
          let wx := s.cpeek c n (wpsAddr d.wps) 8
          s.lanes {} (d.targets a) fun s l ko => s.kernTarget bad c n e g f t d wx l ko

/-- A delivery (R135 to R145, R172): the flit weighted, and, in a world of a writer group, the candidate check of its axon. -/
def State.deliver (s : State) (bad : List Nat) (c n e g k : Nat) (f : Flit) : State × Lane :=
  let t := mget (s.getNc c n).opens g
  match s.coreSet c n with
  | none => s.weigh bad c n e g k t false f
  | some set =>
    let writer := s.writerSet g == some set && s.fld .LR_CORE_CFG [c, n] LR_CORE_CFG_SLOT == k
    let r := s.weigh bad c n e g k t writer f
    if writer then (r.1.candCheck bad c n e g set (fAxon f) (fWorld f) t, r.2) else r

/-- The trace entries of a delivery (R556): FANIN, SLOT, and a pending INTEG entry for the first target. -/
def State.traceDelivery (s : State) (c n g : Nat) (f : Flit) (l : Lane) : State :=
  if !fTrace f then s
  else
    let epoch := match s.coreSet c n with
      | some set => (s.val .LR_SET_EPOCH [0, set] +
          (if s.fld .LR_SET_STATUS [0, set] LR_SET_STATUS_STAGE == 4 && (s.getLs set).reports.contains (eidOf c n) then 1 else 0)) % 2 ^ 16
      | none => 0
    let flags := if l.learn then 1 else 0
    let s := s.traceKey c (flitKey f) (fAge f) (fWorld f) 4 flags (coordOf c n)
      (l.adds % 2 ^ 16 + (if l.learn then epoch else 0) * 2 ^ 16)
    match l.first with
    | none => s
    | some (t, i) =>
      let s := s.traceKey c (flitKey f) (fAge f) (fWorld f) 5 flags (coordOf c n) (t % 2 ^ 16)
      if (s.getNc c n).integs.length ≥ 16 then s.bump .PC_TRDROP [c]
      else s.modNc c n fun u =>
        { u with integs := u.integs ++ [{ key := flitKey f, age := fAge f, inst := i, step := t % 2 ^ 16, wg := g, flags := flags }] }

/-- The lane unit takes the flit at the head of the input queue (R97, R98, R582): once its step is open there; a flit of the step
after it waits; one that no longer passes the tests is absorbed. `held`: the cycles its additions have waited (R99, R582); `conf`: the
cycles its bank conflicts take (R111), `aconf`: those of the accumulators (R169). -/
def State.laneDelivery (s : State) (bad : List Nat) (c n held conf aconf : Nat) : State :=
  if s.ncState c n == ncSleep then s else
  match (s.getNc c n).inq with
  | [] => s
  | f :: rest =>
    let pop (s : State) : State := s.modNc c n fun u => { u with inq := rest }
    match s.fate bad c n f with
    | .wait => s.bump .NC_HSTALL [c, n] held
    | .absorb => (pop s).bump .NC_ABSORB [c, n]
    | .axmiss => (pop s).bump .SY_AXMISS [c, n]
    | .now e g k =>
      let s := ((s.bump .NC_HSTALL [c, n] held).bump .NC_LCONF [c, n] conf).bump .LR_ACONF [c, n] aconf
      let r := (pop s).deliver bad c n e g k f
      r.1.traceDelivery c n g f r.2

/-- A KIND 2 flit at a neuron core (R167): a due NEXT is promoted to CUR, then the value is added into the pending NEXT; absorbed when
the core has no enabled learning entry, the modulator index is out of range or the world belongs to no writer group. -/
def State.modFlit (s : State) (c n : Nat) (f : Flit) : State :=
  let s := (s.acceptWorld (fWorld f) (halfOf c)).bump .SY_MODIN [c, n]
  match s.coreSet c n, s.groupOf (fWorld f) with
  | some set, some g =>
    if s.writerSet g == some set && decide (fAxon f < s.fld .LR_MOD_CFG [c, n] LR_MOD_CFG_NMOD_M1 + 1) then
      let a := s.modAddr c n (fWorld f) (fAxon f)
      let s := s.promoteMod c n a (fStamp f)
      let x := s.cpeek c n a 8
      let v := sext 8 (fPayload f)
      if x.testBit 48 then s.cpoke c n a 8 (setBits x 16 16 (wrapInt 16 (sext 16 (bitsOf x 16 16) + v)))
      else s.cpoke c n a 8 (setBits (setBits (setBits x 16 16 (wrapInt 16 v)) 32 16 (fStamp f + 1)) 48 1 1)
    else s.bump .LR_MODABS [c, n]
  | _, _ => s.bump .LR_MODABS [c, n]

/-- The pending INTEG entries of a scan that are due are written (R556, stage 6). -/
def State.integTraces (s : State) (c n g t : Nat) : State :=
  let due := (s.getNc c n).integs.filter fun x => x.due g t
  let s := s.modNc c n fun u => { u with integs := u.integs.filter fun x => !x.due g t }
  s.each due fun s x =>
    let r := s.getRec c n x.inst
    s.traceKey c x.key x.age (s.wgFirst g) 6 x.flags (coordOf c n)
      (x.inst % 2 ^ 15 + (if r.f then 2 ^ 15 else 0) + x.step * 2 ^ 16)

end Sys2Proof.Machine
end

