-- ==== Sys2Proof/Machine/Events.lean ====
section
/-! DEFINITION. The event units of the vector and matrix cores (R146 to R150): emit ports, sinks and in-band queues. Engine 0 is VC0,
1 VC1 and 2 MX (R153), in core slots 16, 17 and 18. -/

namespace Sys2Proof.Machine

/-- The core slot of an engine (R19). -/
def engSlot (e : Nat) : Nat := 16 + e

/-- An emit record dropped (R147)? A reserved NSRC acts as the reset value 0 (R14). -/
def State.emitDrops (s : State) (c e : Nat) (r : Nat) : Bool :=
  !s.bit .SY_EMIT_CFG [c, e] SY_EMIT_CFG_EN ||
  (!r.testBit 61 && decide (bitsOf r 17 16 ≥ orReset 65536 (s.fld .SY_EMIT_CFG [c, e] SY_EMIT_CFG_NSRC))) ||
  (match s.groupOf (bitsOf r 41 14) with
   | none => true
   | some g => s.partOfCluster c != some (s.wgPart g) || s.wgState g != wsStepping)

/-- The emit port takes the record at the head of its queue (R146, R147, R555): it forms one flit, or walks the engine's directory in
its bank space, or drops the record. The table space ends with the bank space: a directory word past it reads as one without fan-out, and a
walk cut there or at the 65th entry is counted nowhere (log entry 93). -/
def State.emitRecord (s : State) (bad : List Nat) (c e : Nat) : State :=
  match (s.getEng c e).emitq with
  | [] => s
  | rec :: rest =>
    let s := s.modEng c e fun u => { u with emitq := rest }
    let r := rec.toNat
    if s.emitDrops c e r then s.bump .SY_EDROP [c, e]
    else
      let w := bitsOf r 41 14
      match s.groupOf w with
      | none => s.bump .SY_EDROP [c, e]
      | some g =>
        let idx := bitsOf r 17 16
        let t := s.wgWStep g
        let tr := s.traced (s.wgPart g) g w (idx % 2 ^ 15) (t % 2 ^ 16)
        let s := if tr then s.bump .PC_TRTAG [c] else s
        let src := coordOf c (engSlot e)
        let kind := bitsOf r 62 2
        let pay := bitsOf r 33 8
        if r.testBit 61 then
          let f := mkFlit kind (bitsOf r 5 12) idx w (bitsOf r 55 6) t pay (s.wgTb g) tr src
          (s.modEng c e fun u => { u with outq := u.outq ++ [f] }).bump .SY_EFLITS [c, e]
        else
          let base := s.val .SY_EMIT_BASE [c, e]
          let x := walkDir (fun a => if base + 4 * a < 0x400000 then s.peekLE (bankAddr c (base + 4 * a)) 4 else 0) (fun a => badIn bad (base + 4 * a) 4)
            ((0x400000 - base) / 4) idx
          let fl := x.1.map (destFlit kind pay w (t % 2 ^ 16) (s.wgTb g) tr src)
          let s := (s.modEng c e fun u => { u with outq := u.outq ++ fl }).bump .SY_EFLITS [c, e] fl.length
          match x.2 with
          | .bad a => s.bankLineBad c (base + 4 * a)
          | _ => s

/-! ## Sinks -/

/-- The payload format of a sink; a reserved code acts as the reset value (R14, R156). -/
def State.sinkFmt (s : State) (c e : Nat) : Nat :=
  let p := s.fld .SY_SINK_CFG [c, e] SY_SINK_CFG_PFMT
  if p ≤ 4 then p else 0

/-- The value a sink adds for a flit, S16.16 (R148). -/
def State.sinkValue (s : State) (c e : Nat) (f : Flit) : Int :=
  if fKind f = 0 then 65536
  else
    let p := s.sinkFmt c e
    let zp : Int := if p = 1 ∨ p = 2 then sext 8 (s.fld .SY_SINK_CFG [c, e] SY_SINK_CFG_PZP) else 0
    payUnits p (fPayload f) * 128 - zp * 65536

/-- The bank-space offset of the element a flit adds into, if it lies in the sink's shape (R148, R149). -/
def State.sinkOffset (s : State) (c e : Nat) (f : Flit) : Option Nat :=
  let nw := s.fld .SY_SINK_SHAPE [c, e] SY_SINK_SHAPE_NWORLD_M1 + 1
  let ne := s.fld .SY_SINK_SHAPE [c, e] SY_SINK_SHAPE_NELEM_M1 + 1
  let wb := s.val .SY_SINK_WBASE [c, e]
  if fWorld f < wb ∨ fWorld f - wb ≥ nw ∨ fAxon f ≥ ne then none
  else
    let o := s.val .SY_SINK_BASE [c, e] + (fStamp f % 2) * nw * ne * 4 + 4 * ((fWorld f - wb) * ne + fAxon f)
    if o > 0x3FFFFF then none else some o

/-- The world step that a sink's engine has open for a group: the last open it received; an engine that is not bound to the group
receives none, and the group's own step counts (log entry 67). -/
def State.sinkStep (s : State) (c e g : Nat) : Nat :=
  if (s.boundOf g).contains (eidOf c (engSlot e)) then mget (s.getEng c e).opens g else s.wgWStep g

/-- What a sink makes of a flit (R149): add it now, hold it for the next open, or absorb it. -/
inductive SinkFate where
  | add (o : Nat)
  | wait
  | absorb
  deriving DecidableEq, Repr

/-- What becomes of a flit at a sink (R149). After a skip the step that follows the engine's open one is the step the skip has opened, and a
flit of it waits as one of the next number does (log entry 161). -/
def State.sinkFate (s : State) (c e : Nat) (f : Flit) : SinkFate :=
  if !s.bit .SY_SINK_CFG [c, e] SY_SINK_CFG_EN then .absorb
  else
    match s.sinkOffset c e f, s.groupOf (fWorld f) with
    | some o, some g =>
      let t := s.sinkStep c e g
      if !s.sinkOwns c (bankOf o) e then .absorb
      else if fStamp f = t % 2 ^ 16 then .add o
      else if fStamp f = (t + 1) % 2 ^ 16 ∨ (s.wgOpen g ∧ fStamp f = s.wgWStep g % 2 ^ 16) then .wait
      else .absorb
    | _, _ => .absorb

/-- The addition at the bank, modulo 2^32 (R148), one read and one write of its line (R392), seen by the message unit (R330); an uncorrectable
line loses it and halts the groups the sink's engine is bound to (R371). -/
def State.sinkAdd (s : State) (bad : List Nat) (c e : Nat) (f : Flit) (o : Nat) : State :=
  let s := s.bump .BK_RD [c]
  if badIn bad (o / 64 * 64) 64 then
    (s.bankLineBad c (o / 64 * 64)).each (List.range 256) fun s g =>
      if s.wgOn g && (s.boundOf g).contains (eidOf c (engSlot e)) then s.haltAtHarvest g 0x0A80 else s
  else
    let v := wrapInt 32 (sext 32 (s.peekLE (bankAddr c o) 4) + s.sinkValue c e f)
    let s := ((s.pokeLE (bankAddr c o) 4 v).bump .BK_WR [c]).observe (bankAddr c o)
    (s.bump .SY_SINKADD [c, e]).trace c f 7 (coordOf c (engSlot e)) (fAxon f)

/-- A sink asks its bank's arbiter for an addition (R360, R384 to R388): granted, the addition is made at once (log entry 166); refused, it
waits in the sink, in a hold slot or under its back-off count. The first component says whether it was granted. -/
def State.sinkAsk (s : State) (m : SinkMeet) (c e : Nat) (f : Flit) (o : Nat) : Bool × State :=
  let k := bankArb c (bankOf o)
  let ep := endpointOf c (3 + e)
  let r := s.arbAsk k (if m.busy then 0 else 1) ep
  if r.1 then (true, ((r.2.arbFree k ep).modEng c e fun u => { u with back := 0 }).sinkAdd m.bad c e f o)
  else (false, if s.holdMode k ep then r.2 else r.2.modEng c e fun u => { u with back := nextBack u.back })

/-- A sink receives a KIND 0 or 1 flit (R148, R149); it is counted as accepted whatever becomes of it. While an earlier addition waits for the
bank, this one waits behind it. -/
def State.sinkTake (s : State) (m : SinkMeet) (c e : Nat) (f : Flit) : State :=
  let s := s.acceptWorld (fWorld f) (halfOf c)
  let wait (s : State) : State := s.modEng c e fun u => { u with sinkq := u.sinkq ++ [f] }
  match s.sinkFate c e f with
  | .add o =>
    if s.arbWaits (bankArb c (bankOf o)) (endpointOf c (3 + e)) then wait s
    else
      let r := s.sinkAsk m c e f o
      if r.1 then r.2 else wait r.2
  | .wait => wait s
  | .absorb => s.bump .SY_SINKABS [c, e]

/-- The first waiting flit of a sink that is due is added when the bank grants it, or absorbed (R149, R386, R582). One that lies in a hold slot
is granted from there and not asked for again (R387). -/
def State.sinkHeld (s : State) (m : SinkMeet) (c e : Nat) : State :=
  match (s.getEng c e).sinkq.find? fun f => s.sinkFate c e f != .wait with
  | none => s
  | some f =>
    let out (s : State) : State := s.modEng c e fun u => { u with sinkq := u.sinkq.erase f }
    match s.sinkFate c e f with
    | .add o =>
      let k := bankArb c (bankOf o)
      let ep := endpointOf c (3 + e)
      if s.holdMode k ep && s.arbWaits k ep then s
      else
        let r := s.sinkAsk m c e f o
        if r.1 then out r.2 else r.2
    | _ => (out s).bump .SY_SINKABS [c, e]

/-- A bank's arbiter serves a hold slot (R387): the sink's first due addition to the bank is made. A sink with none any more leaves. -/
def State.sinkGranted (s : State) (bad : List Nat) (c b ep : Nat) : State :=
  let e := ep % 8 - 3
  match (s.getEng c e).sinkq.findSome? fun f => match s.sinkFate c e f with
      | .add o => if bankOf o = b then some (f, o) else none
      | _ => none with
  | none => s.arbLeave (bankArb c b) ep
  | some (f, o) =>
    let s := (s.arbGrantHeld (bankArb c b) ep).arbFree (bankArb c b) ep
    (s.modEng c e fun u => { u with sinkq := u.sinkq.erase f, back := 0 }).sinkAdd bad c e f o

/-! ## In-band queues -/

/-- A KIND 2 or 3 flit enters an engine's in-band queue (R150). -/
def State.ibqTake (s : State) (c e : Nat) (f : Flit) : State :=
  let s := (s.acceptWorld (fWorld f) (halfOf c)).modEng c e fun u => { u with ibq := u.ibq ++ [f] }
  let s := (s.setVal .SY_IBQ_STATUS [c, e] (s.getEng c e).ibq.length).bump .SY_IBQIN [c, e]
  s.trace c f 7 (coordOf c (engSlot e)) (fAxon f)

/-- A step opens at a vector or matrix core (R149, R219, R234). -/
def State.openEngine (s : State) (c e g : Nat) : State :=
  s.modEng c e fun u => { u with opens := mput u.opens g (s.wgWStep g), sdone := u.sdone.filter (· != g) }

/-! ## Registers of the event units and of network slots -/

/-- A write of SY_NET (R128, R130): one of EN = 0 is ignored while an enabled group has an entry naming the slot's network. -/
def State.syNetWrite (s : State) (c n k v : Nat) : State :=
  let net := s.fld .SY_NET [c, n, k] SY_NET_NET
  let held := (List.range 16).any fun e =>
    s.bit .NC_GMAP_A [c, n, e] NC_GMAP_A_EN && s.fld .NC_GMAP_A [c, n, e] NC_GMAP_A_NET == net &&
    s.wgOn (s.fld .NC_GMAP_A [c, n, e] NC_GMAP_A_WG)
  if s.bit .SY_NET [c, n, k] SY_NET_EN && !v.testBit 0 && held then s else s.setVal .SY_NET [c, n, k] (v % 2 ^ 7)

end Sys2Proof.Machine
end

