-- ==== Sys2Proof/Machine/Learning.lean ====
section
/-! DEFINITION. Learning sets (R158 to R181): their cores, enable and disable, the epoch end's update and structural stages, the flip,
and the barrier of R44. -/

namespace Sys2Proof.Machine

/-- Stages of LR_SET_STATUS.STAGE (R198). -/
def lsRunning : Nat := 1
def lsUpdate : Nat := 2
def lsStructure : Nat := 3
def lsFlip : Nat := 4
def lsSuspended : Nat := 5
def lsHalted : Nat := 6

def State.lsStage (s : State) (k : Nat) : Nat := s.fld .LR_SET_STATUS [0, k] LR_SET_STATUS_STAGE
def State.setStage (s : State) (k x : Nat) : State := s.setFld .LR_SET_STATUS [0, k] LR_SET_STATUS_STAGE x

/-- The cores that hold a set: an enabled LR_CORE_CFG that names it (R158, R173). -/
def State.setCores (s : State) (k : Nat) : List (Nat × Nat) :=
  (s.listed .LR_CORE_CFG).filterMap fun idx =>
    match idx with
    | [c, n] => if s.bit .LR_CORE_CFG [c, n] LR_CORE_CFG_EN && s.fld .LR_CORE_CFG [c, n] LR_CORE_CFG_SET == k then some (c, n) else none
    | _ => none

/-- The clusters whose blocks show a set's registers (R159). -/
def State.setBlocks (s : State) (k : Nat) : List Nat := nodups ((s.setCores k).map (·.1) ++ [(s.getLs k).home])

/-- The cluster whose block gives a set's registers: that of the write which enabled it, or, of a disabled set, the lowest cluster that holds
a core of it (R159). -/
def State.setHome (s : State) (k c : Nat) : Nat :=
  if (s.getLs k).on then (s.getLs k).home
  else match s.setCores k with | x :: _ => x.1 | [] => c

/-- The cores of a set that take part in its stages: a fenced core does not (R181). -/
def State.setActive2 (s : State) (k : Nat) : List (Nat × Nat) := (s.setCores k).filter fun x => !s.fencedEng x.1 x.2

/-- The enabled writer groups of a set (R160). -/
def State.writers (s : State) (k : Nat) : List Nat := (List.range 256).filter fun g => s.wgOn g && s.lsMarks k g

/-- The lists of a slot's axons: first word, length and the WFMT of the weight parameter set the axon names (R142, R176). -/
def State.axonFmts (s : State) (c n k : Nat) : List (Nat × Nat × Fmt) :=
  (List.range (s.fiCount c n k)).map fun a =>
    let h := s.axHdr c n k a
    (h.start, h.len, wfmtOf (wpsOf (s.cpeek c n (s.val .SY_WPS_BASE [c, n, k] + 8 * h.wps) 8)).fmt)

/-- The WFMT of a synapse's entry word: that of the first axon whose list holds it (R176; log entry 15). -/
def fmtOfWord (l : List (Nat × Nat × Fmt)) (w : Nat) : Fmt :=
  match l.find? fun x => decide (x.1 ≤ w) && decide (w < x.1 + x.2.1) with
  | some x => x.2.2
  | none => .int8

/-! ## Enable and disable -/

/-- What enabling a set does to each of its cores (R175): accumulators, prune counts, candidate COUNTs and the modulator table zeroed. -/
def State.setStartCore (s : State) (c n : Nat) : State :=
  let nent := s.val .LR_NENT [c, n]
  let s := s.wipe (coreAddr c n (s.accAddr c n 0)) (4 * nent)
  let s := s.wipe (coreAddr c n (s.val .LR_PCNT_BASE [c, n])) ((nent + 1) / 2)
  let s := s.wipe (coreAddr c n (s.val .LR_MOD_BASE [c, n]))
    (8 * (s.fld .LR_MOD_CFG [c, n] LR_MOD_CFG_NMOD_M1 + 1) * 2 ^ s.fld .LR_MOD_CFG [c, n] LR_MOD_CFG_NWLOG)
  s.each (List.range (s.val .LR_CAND_CFG [c, n])) fun s i =>
    s.cpoke c n (s.candAddr c n i) 8 (setBits (s.cpeek c n (s.candAddr c n i) 8) 0 12 0)

/-- A set enabled (R159, R162, R163, R175): EN in every block, epoch 0, its writers at position 0; REASON and FENCED of its status, the lock
waits and the skips lost start anew (log entry 162). -/
def State.lsStart (s : State) (k c : Nat) : State :=
  let s := s.modLs k fun _ => { on := true, home := c }
  let s := s.each (s.setBlocks k) fun s b => s.setFld .LR_SET_CFG [b, k] LR_SET_CFG_EN 1
  let s := (s.setVal .LR_SET_EPOCH [0, k] 0).setVal .LR_SET_STATUS [0, k] lsRunning
  let s := (s.setVal .LR_SET_SKIPLOST [0, k] 0).setVal .LR_SET_LOCKWAIT [0, k] 0
  let s := s.each (s.writers k) fun s g => s.modWg g fun w => { w with epPos := 0, epCarry := 0 }
  let s := s.each (s.setCores k) fun s x => s.setStartCore x.1 x.2
  -- the standard service program is in place before the set is enabled (R224)
  if s.boot.svc = [] then s
  else s.each ((s.setCores k).filter fun x => s.bit .VX_CFG [x.1, x.2 / 8] VX_CFG_STDSVC) fun s x =>
    s.poke (vcAddr x.1 (x.2 / 8) 0x1C000) s.boot.svc

/-- A group at the barrier goes on, into the next epoch (R44, R164). -/
def State.barrierOpen (s : State) (g : Nat) : State :=
  if (s.getWg g).epWait then
    let s := s.modWg g fun w => { w with epWait := false, epPos := w.epCarry, epCarry := 0 }
    if s.wgState g = wsEpoch then s.setWgState g wsWaiting else s
  else s

/-- The writers of a set let go from the barrier. -/
def State.releaseBarrier (s : State) (k : Nat) : State := s.each (s.writers k) fun s g => s.barrierOpen g

/-- A group is no longer marked as a writer: it leaves the barrier and has no epoch position (R44, R160, R163). -/
def State.barrierLeave (s : State) (g : Nat) : State := (s.barrierOpen g).modWg g fun w => { w with epPos := 0 }

/-- A set disabled: EN 0 in every block; groups at its barrier go on (log entry 16). -/
def State.lsStop (s : State) (k : Nat) : State :=
  if !(s.getLs k).on then s else
  let s := s.releaseBarrier k
  let s := s.each (s.setBlocks k) fun s b => s.setFld .LR_SET_CFG [b, k] LR_SET_CFG_EN 0
  (s.modLs k fun l => { l with on := false, reports := [], marks := [] }).setStage k 0

/-! ## The epoch end -/

/-- Does an enabled writer group hold the epoch end back: it has not finished the epoch, or it is halted (R163, R195)? -/
def State.holdsEpoch (s : State) (g : Nat) : Bool := !(s.getWg g).epWait || s.wgState g == wsHalted

/-- Does a set span the seam in the split state, so that no epoch end starts (R195)? -/
def State.setSplit (s : State) (k : Nat) : Bool := s.isSplit && decide ((nodups ((s.setCores k).map fun x => halfOf x.1)).length > 1)

/-- Is the set's capture running, so that its next flip waits (R187)? -/
def State.capturing (s : State) (k : Nat) : Bool :=
  match s.ks.cur with
  | some x => x.phase == 1 && x.set == k
  | none => false

/-- LR_SET_STATUS.FENCED: the fenced cores of a set that an epoch end leaves out (R181, R198). -/
def State.countFenced (s : State) (k : Nat) : State :=
  s.setFld .LR_SET_STATUS [0, k] LR_SET_STATUS_FENCED (min ((s.setCores k).filter fun x => s.fencedEng x.1 x.2).length 15)

/-- The next stage starts when every core that takes part has reported the present one (R180). -/
def State.stageNext (s : State) (k : Nat) : State :=
  if (s.setActive2 k).all (fun x => (s.getLs k).reports.contains (eidOf x.1 x.2)) then
    if s.lsStage k = lsUpdate then (s.modLs k fun l => { l with reports := [] }).setStage k lsStructure
    else if s.lsStage k = lsStructure then
      (s.modLs k fun l => { l with reports := [], marks := [] }).setStage k (if s.capturing k then lsSuspended else lsFlip)
    else s
  else s

/-- The two stages before the flip pass at once where no core takes part. -/
def State.stagesPass (s : State) (k : Nat) : State := (s.stageNext k).stageNext k

/-- A core is fenced in an epoch end of its set: it is left out and counted, and the stage goes on without it (R181, R195, R198). -/
def State.fenceCore (s : State) (c n : Nat) : State :=
  match s.coreSet c n with
  | some k => if 2 ≤ s.lsStage k ∧ s.lsStage k ≤ 5 then (s.countFenced k).stagesPass k else s
  | none => s

/-- The epoch end of a set begins once every enabled writer group has finished, and there is one (R163). -/
def State.epochEnd (s : State) (k : Nat) : State :=
  let ws := s.writers k
  if (s.getLs k).on && s.lsStage k == lsRunning && ws != [] && !ws.any s.holdsEpoch && !s.setSplit k then
    (((s.countFenced k).modLs k fun l => { l with reports := [], marks := [] }).setStage k lsUpdate).stagesPass k
  else s

/-- A prune count (R173). -/
def State.pcnt (s : State) (c n j : Nat) : Nat := bitsOf (s.cpeek c n (s.val .LR_PCNT_BASE [c, n] + j / 2) 1) (4 * (j % 2)) 4
def State.setPcnt (s : State) (c n j x : Nat) : State :=
  let a := s.val .LR_PCNT_BASE [c, n] + j / 2
  s.cpoke c n a 1 (setBits (s.cpeek c n a 1) (4 * (j % 2)) 4 x)

/-- The updated weight of a code and accumulator (R176): decode + acc × LRM × 2^−(16 + LRE), clamped to the S10.6 bounds, encoded. -/
def updateCode (f : Fmt) (w : Nat) (acc : Int) (lrm lre : Nat) (wlo whi : Int) : Nat :=
  let e := 16 + lre
  let v : Int := units9 f w * (2 ^ (e - 9) : Nat) + acc * lrm
  let v := clampInt (wlo * (2 ^ (e - 6) : Nat)) (whi * (2 ^ (e - 6) : Nat)) v
  encodeFmt f (Num.ofScaled v (-(e : Int)))

/-- update(j) of R176 for one synapse of a core: the non-live copy, the accumulator, the prune count and mark. -/
def State.updateSyn (s : State) (bad : List Nat) (k c n : Nat) (f : Fmt) (j : Nat) : State :=
  let wa := s.val .LR_ENT [c, n] + j
  let ent := s.cword c n wa
  let live := s.selBit c n j
  let shd := s.shdAddr c n j
  let w := if live then s.cpeek c n shd 1 else bitsOf ent 0 8
  let put (s : State) (x : Nat) : State :=
    if live then s.cpoke c n (4 * wa) 4 (setBits ent 0 8 x) else s.cpoke c n shd 1 x
  if badIn bad (s.accAddr c n j) 4 then s.learnEcc c n k (badWord bad (s.accAddr c n j) 4)
  else if badIn bad shd 1 then s.learnEcc c n k (badWord bad shd 1)
  else if badIn bad (s.selAddr c n j) 1 then s.learnEcc c n k (badWord bad (s.selAddr c n j) 1)
  else if !ent.testBit 10 then put s w
  else
    let rate := s.lsVal k .LR_SET_RATE
    let bound := s.lsVal k .LR_SET_BOUND
    let st := s.lsVal k .LR_SET_STRUCT
    let acc := sext 32 (s.cpeek c n (s.accAddr c n j) 4)
    let wn := updateCode f w acc (bitsOf rate 0 16) (bitsOf rate 16 5) (sext 16 (bitsOf bound 0 16)) (sext 16 (bitsOf bound 16 16))
    let s := (put s wn).cpoke c n (s.accAddr c n j) 4 0
    let pk := bitsOf st 28 4
    if pk = 0 then s
    else
      let small : Bool := decide ((units9 f wn).natAbs < bitsOf st 0 16 * 8)
      let cnt := if small then min (s.pcnt c n j + 1) 15 else 0
      let s := s.setPcnt c n j cnt
      if cnt ≥ pk then s.modLs k fun l => { l with marks := l.marks ++ [(eidOf c n, j)] } else s

/-- The update stage of one core (R176). -/
def State.updateCore (s : State) (bad : List Nat) (k c n : Nat) : State :=
  let l := s.axonFmts c n (s.fld .LR_CORE_CFG [c, n] LR_CORE_CFG_SLOT)
  let base := s.val .LR_ENT [c, n]
  s.each (List.range (s.val .LR_NENT [c, n])) fun s j => s.updateSyn bad k c n (fmtOfWord l (base + j)) j

/-- Pruning of a marked synapse (R177 step 1). -/
def State.pruneSyn (s : State) (c n j : Nat) : State :=
  let a := 4 * (s.val .LR_ENT [c, n] + j)
  let s := s.cpoke c n a 4 (setBits (s.cpeek c n a 4) 10 1 0)
  ((s.cpoke c n (s.accAddr c n j) 4 0).setPcnt c n j 0).bump .LR_PRUNED [c, n]

/-- An insertion of a candidate in descending COUNT, ties to the lower index (R177). -/
def insertCand (x : Nat × Nat) : List (Nat × Nat) → List (Nat × Nat)
  | [] => [x]
  | y :: t => if x.2 > y.2 then x :: y :: t else y :: insertCand x t

/-- The candidates to attempt, in order (R177 step 2): USED = 0 and COUNT ≥ GTH. -/
def State.candOrder (s : State) (c n gth : Nat) : List Nat :=
  let xs := (List.range (s.val .LR_CAND_CFG [c, n])).filterMap fun i =>
    let x := s.cpeek c n (s.candAddr c n i) 8
    if !x.testBit 26 ∧ bitsOf x 0 12 ≥ gth then some (i, bitsOf x 0 12) else none
  (xs.foldl (fun acc x => insertCand x acc) []).map (·.1)

/-- One graft attempt (R178): whether the candidate was grafted. -/
def State.graft (s : State) (k c n i : Nat) : State × Bool :=
  let x := s.cpeek c n (s.candAddr c n i) 8
  let slot := s.fld .LR_CORE_CFG [c, n] LR_CORE_CFG_SLOT
  let axon := bitsOf x 48 16
  let h := s.axHdr c n slot axon
  let len := if axon < s.fiCount c n slot then h.len else 0
  let free := (List.range len).find? fun p =>
    !(s.cword c n (h.start + p)).testBit 10 && (s.synIndex c n slot (h.start + p)).isSome
  match free with
  | none => (s.bump .LR_GFULL [c, n], false)
  | some p =>
    if bitsOf x 33 15 > h.maxn then (s.bump .LR_GSKIP [c, n], false)
    else
      let wa := h.start + p
      let j := wa - s.val .LR_ENT [c, n]
      let gw0 := bitsOf (s.lsVal k .LR_SET_GRAFT) 0 8
      let s := s.cpoke c n (4 * wa) 4 (bitsOf x 33 15 * 2 ^ 17 + bitsOf x 27 6 * 2 ^ 11 + 2 ^ 10 + gw0)
      let s := (s.cpoke c n (s.shdAddr c n j) 1 gw0).cpoke c n (s.accAddr c n j) 4 0
      let s := s.setPcnt c n j 0
      let nc := s.val .LR_CAND_CFG [c, n]
      let s := s.each ((List.range 4).map fun q => 4 * (axon % (nc / 4)) + q) fun s q =>
        let y := s.cpeek c n (s.candAddr c n q) 8
        if q ≠ i ∧ bitsOf y 48 16 = axon ∧ bitsOf y 12 14 = p then s.cpoke c n (s.candAddr c n q) 8 (setBits y 26 1 0) else s
      (((s.cpoke c n (s.candAddr c n i) 8 (setBits (setBits x 26 1 1) 12 14 p)).bump .LR_GRAFTED [c, n]), true)

/-- Grafts attempted in order until GMAX have been made (R177). -/
def State.graftAll (s : State) (k c n : Nat) : Nat → List Nat → State
  | _, [] => s
  | 0, _ => s
  | left + 1, i :: t =>
    let r := s.graft k c n i
    if r.2 then r.1.graftAll k c n left t else r.1.graftAll k c n (left + 1) t

/-- The structural stage of one core (R177). -/
def State.structCore (s : State) (bad : List Nat) (k c n : Nat) : State :=
  let st := s.lsVal k .LR_SET_STRUCT
  let gth := bitsOf st 16 12
  let s := s.each (((s.getLs k).marks.filter fun m => m.1 == eidOf c n).map (·.2)) fun s j => s.pruneSyn c n j
  let cands := List.range (s.val .LR_CAND_CFG [c, n])
  match (cands.map fun i => s.candAddr c n i).find? fun a => badIn bad a 8 with
  | some a => s.learnEcc c n k (badWord bad a 8)
  | none =>
    let s := if gth = 0 then s else s.graftAll k c n (bitsOf (s.lsVal k .LR_SET_GRAFT) 8 8) (s.candOrder c n gth)
    s.each cands fun s i => s.cpoke c n (s.candAddr c n i) 8 (setBits (s.cpeek c n (s.candAddr c n i) 8) 0 12 0)

/-- A core reports the present stage (R180); when every core that takes part has, the next stage starts. -/
def State.stageReport (s : State) (k eid : Nat) : State :=
  (s.modLs k fun l => { l with reports := if l.reports.contains eid then l.reports else l.reports ++ [eid] }).stageNext k

/-- The standard epoch program on a vector core (R176, R177): the present stage on those of its eight neuron cores that hold the set
and have not reported; a sleeping core takes part once it has woken (R114, R195). -/
def State.stdService (s : State) (bad : List Nat) (c v k : Nat) : State :=
  let mine := (s.setActive2 k).filter fun x => x.1 == c && x.2 / 8 == v && s.ncState x.1 x.2 != ncSleep && !(s.getLs k).reports.contains (eidOf x.1 x.2)
  let stage := s.lsStage k
  let s := s.each mine fun s x =>
    if stage = lsUpdate then s.updateCore bad k x.1 x.2
    else if stage = lsStructure then s.structCore bad k x.1 x.2 else s
  if stage = lsUpdate ∨ stage = lsStructure then s.each mine fun s x => if s.lsStage k = stage then s.stageReport k (eidOf x.1 x.2) else s
  else s

/-! ## The flip -/

/-- A core inverts the select bit of every block of its learning range (R180); an unreadable select word stays as it is and halts the set's
writers (R195). -/
def State.flipCore (s : State) (bad : List Nat) (k c n : Nat) : State :=
  let nent := s.val .LR_NENT [c, n]
  s.each (List.range ((nent + 63) / 64)) fun s b =>
    let a := s.selAddr c n (64 * b)
    if badIn bad a 1 then s.learnEcc c n k (badWord bad a 1)
    else s.cpoke c n a 1 ((s.cpeek c n a 1) ^^^ 2 ^ (b % 8))

/-- A FLIP message reaches a core of a set (R180), which is awake (R195). -/
def State.cnFlip (s : State) (bad : List Nat) (c n : Nat) : State :=
  match s.coreSet c n with
  | none => s
  | some k =>
    let id := eidOf c n
    if s.lsStage k == lsFlip && !s.fencedEng c n && s.ncState c n != ncSleep && !(s.getLs k).reports.contains id then
      (s.flipCore bad k c n).modLs k fun l => { l with reports := l.reports ++ [id] }
    else s

/-- The steps a writer group has lost at the barrier (R161). -/
def State.lockLost (s : State) (g : Nat) : Nat :=
  if s.tbFree (s.wgTb g) then 0 else s.val .TB_TARGET [s.wgTb g] - (s.getWg g).epTarget

/-- A reset whose scope holds a core of an enabled set (R194): the set is disabled, after a FLIP that has been broadcast completes on its cores
outside the scope; its writer groups that remain enabled halt with 0x0480. -/
def State.lsResetCore (s : State) (hit : Nat × Nat → Bool) (k : Nat) : State :=
  if !(s.getLs k).on then s else
  let ws := s.writers k
  let s := if s.lsStage k = lsFlip then
      (s.each ((s.setActive2 k).filter fun x => !hit x && !(s.getLs k).reports.contains (eidOf x.1 x.2)) fun s x => s.flipCore [] k x.1 x.2).bump
        .LR_SET_EPOCH [0, k]
    else s
  let s := s.lsStop k
  let s := s.setFld .LR_SET_STATUS [0, k] LR_SET_STATUS_REASON 0x0480
  s.each ws fun s g => if s.wgOpen g then s.haltAtHarvest g 0x0480 else if s.wgState g != wsDisabled then s.haltNow g 0x0480 else s

/-- LR_SET_STATUS as it reads (R163, R198): while the set steps, WAIT and WAITWG name the lowest-numbered writer group that still holds
the epoch end back. -/
def State.lsStatusView (s : State) (k : Nat) : DWord :=
  let v := s.rd .LR_SET_STATUS [0, k]
  match (s.writers k).find? s.holdsEpoch with
  | some g =>
    if (s.getLs k).on && s.lsStage k == lsRunning then LR_SET_STATUS_WAIT.set (LR_SET_STATUS_WAITWG.set v g) 1 else v
  | none => v

end Sys2Proof.Machine
end

