-- ==== Sys2Proof/Machine/Mesh.lean ====
section
/-! DEFINITION. The event mesh (R268 to R294): routing, injection, ejection, the spill, golden periods, fences, remaps and fabric
resets. FLIT_ROUTE is one fabric cycle of a half's routers, all of which take the flits at their inputs together, so that no flit waits at
an input (R23); FLIT_INJECT and SPILL_RELEASE are a router's step 5 and spill in that cycle, with the ports and ejection slots it has left
(log entry 30). -/

namespace Sys2Proof.Machine

/-! ## The grid -/

/-- The ports of a router (R271: in this order). -/
def pN : Nat := 0
def pE : Nat := 1
def pS : Nat := 2
def pW : Nat := 3

/-- The neighbour behind a port, within the half (R17, R268). -/
def neighbour (c p : Nat) : Option Nat :=
  let h := halfOf c
  let x := xOf c
  let y := yOf c
  match p with
  | 0 => if y = 0 then none else some (clusterOf h x (y - 1))
  | 1 => if x = 7 then none else some (clusterOf h (x + 1) y)
  | 2 => if y = 5 then none else some (clusterOf h x (y + 1))
  | _ => if x = 0 then none else some (clusterOf h (x - 1) y)

/-- The port toward the seam of an edge router: east in column W7, west in column E0 (R268, R271). -/
def seamPort (c : Nat) : Option Nat :=
  if halfOf c = 0 ∧ xOf c = 7 then some pE else if halfOf c = 1 ∧ xOf c = 0 then some pW else none

/-- Is a node a hole, permanent or under reset (R286, R289)? -/
def State.isHole (s : State) (c : Nat) : Bool := (s.getRt c).hole || decide ((s.getRt c).reset ≥ 2)

/-- Event credits an edge router holds toward its bridge: 16 less the flits of its row still unpacked (R444). -/
def State.seamCredit (s : State) (c : Nat) : Bool :=
  decide (((s.getSdir (halfOf c)).send.filter fun x => x.1 == yOf c).length < 16)

/-- May a mesh port be used: it has a neighbour that is no hole, or it is the seam port with a credit outside the split state
(R271, R273, R286, R455)? -/
def State.portFree (s : State) (c p : Nat) : Bool :=
  match neighbour c p with
  | some n => !s.isHole n
  | none => seamPort c == some p && !s.isSplit && s.seamCredit c

/-- The port by which a flit sent through port p arrives. -/
def arrives (p : Nat) : Nat := (p + 2) % 4

def Rt.input (r : Rt) (p : Nat) : Option MFlit := match p with | 0 => r.inN | 1 => r.inE | 2 => r.inS | _ => r.inW
def Rt.setInput (r : Rt) (p : Nat) (x : Option MFlit) : Rt :=
  match p with | 0 => { r with inN := x } | 1 => { r with inE := x } | 2 => { r with inS := x } | _ => { r with inW := x }

/-- A flit leaves a router through a port (R268, R273), which it takes for this fabric cycle. -/
def State.sendPort (s : State) (c p : Nat) (m : MFlit) : State :=
  let s := s.modRt c fun r => { r with used := p :: r.used }
  match neighbour c p with
  | some n => s.modRt n fun r => r.setInput (arrives p) (some m)
  | none => s.modSdir (halfOf c) fun d => { d with send := d.send ++ [(yOf c, m)] }

/-- Is a port free in this fabric cycle (R271)? -/
def State.portOpen (s : State) (c p : Nat) : Bool := s.portFree c p && !(s.getRt c).used.contains p

/-- The fields of a destination coordinate (R6, R123). -/
def fDH (f : Flit) : Nat := bitsOf (fDest f) 11 1
def fDX (f : Flit) : Nat := bitsOf (fDest f) 8 3
def fDY (f : Flit) : Nat := bitsOf (fDest f) 5 3

/-- Is the router's own cluster the flit's destination (R268)? -/
def atDest (c : Nat) (f : Flit) : Bool := coordCluster (fDest f) == some c

/-- The productive ports of a flit, the one that changes X first (R268, R269). -/
def productive (c : Nat) (f : Flit) : List Nat :=
  let xp := if fDH f = halfOf c then (if fDX f > xOf c then [pE] else if fDX f < xOf c then [pW] else [])
    else (if halfOf c = 0 then [pE] else [pW])
  let yp := if fDY f > yOf c then [pS] else if fDY f < yOf c then [pN] else []
  xp ++ yp

/-! ## Golden flits -/

/-- EF_GOLD's OLDAGE and PERIOD with their acting values (R292). -/
def State.oldAge (s : State) : Nat :=
  let a := s.fld .EF_GOLD [0] EF_GOLD_OLDAGE
  if a = 0 ∨ a = 63 then 32 else a

/-- The golden cluster of a half, if a period runs (R275, R276, R457). -/
def State.golden (s : State) (h : Nat) : Option Nat :=
  let g := (s.getHf h).gold
  if g = 0 then none else some (g - 1)

def State.isGolden (s : State) (h : Nat) (f : Flit) : Bool :=
  match s.golden h with
  | some g => coordCluster (fSrc f) == some g
  | none => false

/-- The rank of a flit at an input (R271, R276): golden flits first by bits [111:48], the others by AGE, ties to the lower port. -/
def State.rankKey (s : State) (h : Nat) (x : Nat × MFlit) : Nat :=
  let k := if s.isGolden h x.2.f then 2 ^ 70 + bitsOf x.2.f.toNat 48 64 else fAge x.2.f
  k * 4 + (3 - x.1)

def insertBy {α : Type} (k : α → Nat) (x : α) : List α → List α
  | [] => [x]
  | y :: t => if k x ≥ k y then x :: y :: t else y :: insertBy k x t

def sortDown {α : Type} (k : α → Nat) (l : List α) : List α := l.foldr (insertBy k) []

/-- A router that forwards or deflects an old flit marks its source cluster (R275). -/
def State.markOld (s : State) (c : Nat) (f : Flit) : State :=
  match coordCluster (fSrc f) with
  | some k => if fAge f ≥ s.oldAge then s.modRt c fun r => { r with old := setBits r.old k 1 1 } else s
  | none => s

/-- A cycle in which a flit wanted the seam port and found it busy, counted once (R273). -/
def State.noteBusy (s : State) (c : Nat) (ports : List Nat) : State :=
  if !(s.getRt c).busy && ports.any fun p => seamPort c == some p && !s.portFree c p then
    (s.modRt c fun r => { r with busy := true }).bump .EF_SEAMBUSY [c]
  else s

/-- A flit sent on a productive port (R269, R291): counted, marked if it is old, and stamped at the hop (R275, R270, R556). -/
def State.sendProd (s : State) (c p : Nat) (m : MFlit) : State :=
  (((s.markOld c m.f).bump .EF_FWD [c]).trace c m.f 1 (coordOf c 0) p).sendPort c p m

/-! ## Absorption and delivery -/

/-- An absorption: counted for harvest, recorded and traced (R64, R278, R556). -/
def State.absorb (s : State) (c : Nat) (f : Flit) (cause : Nat) (r : Reg) : State :=
  ((s.absorbWorld (fWorld f) (halfOf c)).bump r [c]).setVal .EF_LASTABS [c] (cause * 2 ^ 28 + fSrc f)

/-- An enabled remap entry whose FROM is a coordinate (R284). -/
def State.remapOf (s : State) (d : Nat) : Option Nat :=
  ((List.range 16).find? fun n => s.bit .EF_REMAP [0, n] EF_REMAP_EN && s.fld .EF_REMAP [0, n] EF_REMAP_FROM == d).map
    fun n => s.fld .EF_REMAP [0, n] EF_REMAP_TO

/-- A flit rewritten by a remap entry (R284, R556). -/
def State.rewrite (s : State) (c : Nat) (m : MFlit) (dst : Nat) : MFlit × State :=
  let f' := Flit.put m.f 100 12 dst
  ({ f := f', rw := true }, (s.trace c m.f 3 (coordOf c 0) (flitKey f')).bump .EF_REMAPPED [c])

/-- The partition check (R278 check 4). -/
def State.partBad (s : State) (c : Nat) (f : Flit) : Bool :=
  let p := s.partOfCluster c
  let src := match coordCluster (fSrc f) with | some k => s.partOfCluster k | none => none
  let wp := (s.groupOf (fWorld f)).map fun g => s.wgPart g
  src != p || wp != p || p.isNone

/-- Is the target engine's domain not on (R278 check 7)? -/
def State.engineOff (s : State) (c slot : Nat) : Bool := s.engReset c slot || (if slot = 18 then !s.mxOn c else !s.clusterOn c)

/-- The outcome of the ejection checks (R278): 0 delivered, else the check. -/
def State.ejectCheck (s : State) (c : Nat) (m : MFlit) : Nat :=
  let f := m.f
  if (checkFlit f).bad then 1
  else if fDC f ≥ 19 then 2
  else if (s.groupOf (fWorld f)).isNone then 3
  else if s.partBad c f then 4
  else if s.fencedEng c (fDC f) then (if !m.rw && (s.remapOf (fDest f)).isSome then 5 else 6)
  else if s.engineOff c (fDC f) then 7
  else 0

/-- Does the target's queue have room, the flits of the delivery stage counted (R111, R150, R282)? A modulator flit and a sink's flit
need none. -/
def State.queueRoom (s : State) (c : Nat) (f : Flit) : Bool :=
  let d := fDC f
  let ahead := ((s.getRt c).dlv.filter fun m => fDC m.f == d && (fKind m.f ≥ 2) == (fKind f ≥ 2)).length
  if d < 16 then (if fKind f = 2 then true else decide ((s.getNc c d).inq.length + ahead < 64))
  else if fKind f ≥ 2 then decide ((s.getEng c (d - 16)).ibq.length + ahead < 32)
  else true

/-- The spill level (R281, R292). -/
def Rt.level (r : Rt) : Nat := r.spill.length + r.ovf.length
def State.noteSpill (s : State) (c : Nat) : State := s.setFld .EF_STATUS [c] EF_STATUS_SPILL (s.getRt c).level

/-- May a flit enter the spill (R281): an ordinary one while 17 entries are free, a golden one while an entry is that is not kept for
transit overflow? -/
def State.spillRoom (s : State) (c : Nat) (f : Flit) : Bool :=
  let r := s.getRt c
  let free := 256 - r.level
  if s.isGolden (halfOf c) f then decide (free > 8 - min 8 r.ovf.length) else decide (free ≥ 17)

def State.spillPut (s : State) (c : Nat) (m : MFlit) : State :=
  ((s.modRt c fun r => { r with spill := r.spill ++ [m] }).bump .EF_SPILL [c]).noteSpill c

/-- A flit at its destination is absorbed at check 6 (R278): counted against the engine's fence and its source (R283). -/
def State.absorbFenced (s : State) (c : Nat) (f : Flit) : State :=
  let s := (s.trace c f 2 (coordOf c (fDC f)) 6).absorb c f 6 .EF_ABS_FENCE
  match coordCluster (fSrc f) with
  | some k => s.setVal .EF_FSRC [c, k] (min (s.val .EF_FSRC [c, k] + 1) (2 ^ 32 - 1))
  | none => s

/-- A flit takes an ejection slot (R278, R280, R282): absorbed, rewritten into the spill, handed to the delivery stage or put into the
spill; none where the delivery stage has no room for it. -/
def State.eject (s : State) (c : Nat) (m : MFlit) : Option State :=
  let k := checkFlit m.f
  let m' : MFlit := { m with f := k.flit }
  let s' := if k.corrected then s.bump .EF_CHKCOR [c] else s
  let s' := s'.setFld .EF_STATUS [c] EF_STATUS_AGEMAX (max (s'.fld .EF_STATUS [c] EF_STATUS_AGEMAX) (fAge k.flit))
  let tr (s : State) (d : Nat) : State := s.trace c m'.f 2 (coordOf c (fDC m'.f)) d
  match s.ejectCheck c m' with
  | 0 =>
    if s.queueRoom c m'.f then
      some (((tr s' 0).modRt c fun r => { r with dlv := r.dlv ++ [m'] }).bump .EF_EJ [c])
    else if s.spillRoom c m'.f then some (((tr s' 16).spillPut c m').bump .EF_EJ [c])
    else none
  | 5 =>
    if s.spillRoom c m'.f then
      match s.remapOf (fDest m'.f) with
      | some d => let r := s'.rewrite c m' d; some (r.2.spillPut c r.1)
      | none => none
    else none
  | 1 =>
    -- R279: every enabled group with an open step halts at its next harvest
    some (((tr s' 1).absorb c m.f 1 .EF_ABS_CHK).each (List.range 256) fun s g => if s.wgOpen g then s.haltAtHarvest g 0x0780 else s)
  | 2 => some ((tr s' 2).absorb c m'.f 2 .EF_ABS_RSV)
  | 3 => some ((tr s' 3).absorb c m'.f 3 .EF_ABS_GRP)
  | 4 => some ((tr s' 4).absorb c m'.f 4 .EF_ABS_PART)
  | 6 =>
    some (s'.absorbFenced c m'.f)
  | _ => some ((tr s' 7).absorb c m'.f 7 .EF_ABS_OFF)

/-! ## The router cycle -/

/-- Absorption in transit: next to a permanent hole that is the destination (R289), or at an edge router in the split state (R455). -/
def State.transitAbsorb (s : State) (c : Nat) (f : Flit) : Option State :=
  let dst := coordCluster (fDest f)
  if ((List.range 4).any fun p => match neighbour c p with
      | some n => dst == some n && (s.getRt n).hole
      | none => false) then
    some (s.absorb c f 9 .EF_ABS_HOLE)
  else if s.isSplit && (seamPort c).isSome && fDH f != halfOf c then
    some ((s.absorb c f 8 .EF_ABS_DST).bump .SM_ABS_SPLIT [halfOf c])
  else none

/-- Step 2 of R271 for one flit: absorbed in transit, ejected, or left for the later steps; `fail`: it found no ejection slot (R272, R280). -/
structure Left where
  port : Nat
  m : MFlit
  fail : Bool

/-- Step 2 (R271, R280): the flits at their destination, in rank order, take the ejection slots. -/
def State.routeEject (s : State) (c : Nat) : List (Nat × MFlit) → State × List Left
  | [] => (s, [])
  | (p, m) :: t =>
    match s.transitAbsorb c m.f with
    | some s' => s'.routeEject c t
    | none =>
      if !atDest c m.f then
        let r := s.routeEject c t
        (r.1, { port := p, m := m, fail := false } :: r.2)
      else if (s.getRt c).ej ≥ 2 then
        let r := s.routeEject c t
        (r.1, { port := p, m := m, fail := true } :: r.2)
      else
        match s.eject c m with
        | some s' => (s'.modRt c fun r => { r with ej := r.ej + 1 }).routeEject c t
        | none =>
          let r := (s.bump .EF_EJDEFL [c]).routeEject c t
          (r.1, { port := p, m := m, fail := true } :: r.2)

/-- Step 3 (R269, R271, R273): every other flit, in rank order, takes its productive port if that is free. -/
def State.routeForward (s : State) (c : Nat) : List Left → State × List Left
  | [] => (s, [])
  | x :: t =>
    let s := s.noteBusy c (productive c x.m.f)
    match (productive c x.m.f).find? (s.portOpen c) with
    | some p => (s.sendProd c p x.m).routeForward c t
    | none =>
      let r := s.routeForward c t
      (r.1, x :: r.2)

/-- Is a neighbour of a router a hole that still drains (R286 step 2, R288)? -/
def State.besideDrain (s : State) (c : Nat) : Bool :=
  (List.range 4).any fun p => match neighbour c p with | some n => (s.getRt n).reset == 2 | none => false

/-- Step 4 (R271, R272, R288): a flit still unplaced is deflected, its AGE one more; a surplus one goes to the transit overflow, which R288
gives to the neighbours of a draining node; R273 and R455 leave no surplus elsewhere. -/
def State.routeDeflect (s : State) (c : Nat) (x : Left) : State :=
  let m : MFlit := { x.m with f := Flit.put x.m.f 112 6 (min 63 (fAge x.m.f + 1)) }
  match (List.range 4).find? (s.portOpen c) with
  | some q => (((s.markOld c x.m.f).bump .EF_DEFL [c]).trace c m.f 1 (coordOf c 0) (q + 4)).sendPort c q m
  | none =>
    let m := if x.fail then m else x.m
    ((s.modRt c fun r => { r with ovf := r.ovf ++ [m] }).when (s.besideDrain c) fun s => s.bump .EF_OVFL [c]).noteSpill c

/-- The allocation of one router (R271 steps 1 to 4) over the flits that were at its inputs. -/
def State.routeOne (s : State) (c : Nat) (heads : List (Nat × MFlit)) : State :=
  let r := s.routeEject c (sortDown (s.rankKey (halfOf c)) heads)
  let r := r.1.routeForward c r.2
  r.1.each r.2 fun s x => s.routeDeflect c x

/-- The routers of a half. -/
def halfClusters' (h : Nat) : List Nat := (List.range 48).map fun i => h * 48 + i

/-- The flits at a router's inputs, with what errors have changed in them. -/
def State.heads (s : State) (errs : List FlitErr) (c : Nat) : List (Nat × MFlit) :=
  (List.range 4).filterMap fun p => ((s.getRt c).input p).map fun m =>
    (p, { m with f := (errs.filter fun e => e.c.val == c && e.port.val == p).foldl (fun f e => f ^^^ e.err) m.f })

/-- FLIT_ROUTE: one fabric cycle of a half (R23, R271): every router takes the flits at its inputs and allocates its outputs; a router in
reset and self-check, or a permanent hole, holds none (R286, R289). -/
def State.flitRoute (s : State) (h : Nat) (errs : List FlitErr) : State :=
  let work := (halfClusters' h).map fun c => (c, s.heads errs c)
  let s := s.each (halfClusters' h) fun s c => s.modRt c fun r =>
    { r with inN := none, inE := none, inS := none, inW := none, used := [], ej := 0, injDone := false, relDone := false, busy := false }
  s.each work fun s x => if (s.getRt x.1).hole || decide ((s.getRt x.1).reset ≥ 3) then s else s.routeOne x.1 x.2

/-! ## Injection -/

/-- The cluster a gate port injects at (R418), and the port that injects at a cluster. -/
def attachOf (n : Nat) : Nat := if n % 4 < 2 then clusterOf (n / 4) (6 + n % 4) 0 else clusterOf (n / 4) (4 + n % 4) 5
def portAt (c : Nat) : Option Nat := (List.range 8).find? fun n => attachOf n == c

/-- The flits an engine has formed (R274), taken from it; a gate port counts as slot 19 of its attachment cluster (R418). -/
def State.engineOut (s : State) (c slot : Nat) : List (BitVec 128) :=
  if slot = 19 then (match portAt c with | some n => (s.getGp n).outq | none => [])
  else if slot < 16 then (s.getNc c slot).outq else (s.getEng c (slot - 16)).outq
def State.dropOut (s : State) (c slot : Nat) : State :=
  if slot = 19 then (match portAt c with | some n => s.modGp n fun g => { g with outq := g.outq.tail } | none => s)
  else if slot < 16 then s.modNc c slot fun n => { n with outq := n.outq.tail }
  else s.modEng c (slot - 16) fun e => { e with outq := e.outq.tail }

/-- The injection queue takes one flit from each engine in round-robin order while it has room for 32 (R274); a fenced engine hands over
nothing (R283). -/
def State.fillInj (s : State) (c : Nat) : State :=
  let first := (s.getRt c).rr
  s.each (List.range 20) fun s i =>
    let k := (first + i) % 20
    if k < 19 && s.fencedEng c k then s
    else
      match s.engineOut c k with
      | f :: _ =>
        if (s.getRt c).injq.length < 32 then
          (s.dropOut c k).modRt c fun r => { r with injq := r.injq ++ [{ f := f }], rr := (k + 1) % 20 }
        else s
      | [] => s

/-- A flit leaves the injection queue: counted as injected and traced (R64, R274, R556). -/
def State.injected (s : State) (c : Nat) (f : Flit) : State :=
  let s := match s.groupOf (fWorld f) with
    | some g => s.tallyInj g (halfOf c)
    | none => s
  s.trace c f 0 (fSrc f) (fWorld f + fKind f * 2 ^ 14 + fStamp f * 2 ^ 16)

/-- Where the head of the injection queue goes: its flit after any remap, and the entry's TO (R284). -/
def State.injRemap (s : State) (m : MFlit) : Option Nat := if m.rw then none else s.remapOf (fDest m.f)
def State.injFlit (s : State) (m : MFlit) : MFlit :=
  match s.injRemap m with | some d => { f := Flit.put m.f 100 12 d, rw := true } | none => m

/-- The head of the injection queue (R274, R276, R284): absorbed, looped locally through an ejection slot, or sent on a free productive
port; none where it must wait. -/
def State.injectHead (s : State) (c : Nat) : Option State :=
  match (s.getRt c).injq with
  | [] => none
  | m0 :: rest =>
    let go (s : State) : State := (s.modRt c fun r => { r with injq := rest }).injected c m0.f
    if fDY m0.f ≥ 6 then some ((go s).absorb c m0.f 8 .EF_ABS_DST)
    else
      let m1 := s.injFlit m0
      let fin (s : State) : State := match s.injRemap m0 with | some d => ((go s).rewrite c m0 d).2 | none => go s
      match s.transitAbsorb c m1.f with
      | some _ => (fin s).transitAbsorb c m1.f
      | none =>
        if atDest c m1.f then
          if (s.getRt c).ej ≥ 2 then none
          else ((fin s).eject c m1).map fun s => (s.bump .EF_LOCAL [c]).modRt c fun r => { r with ej := r.ej + 1 }
        else if s.golden (halfOf c) == some c then none
        else
          match (productive c m1.f).find? (s.portOpen c) with
          | some p => some (((fin s).bump .EF_INJ [c]).sendProd c p m1)
          | none => none

/-- Does a flit want to leave for the mesh: it is neither absorbed nor for this cluster (R271, R278)? -/
def State.meshBound (s : State) (c : Nat) (f : Flit) : Bool := decide (fDY f < 6) && !atDest c f && (s.transitAbsorb c f).isNone

/-- A cycle counted in which a waiting flit wants a busy seam port (R273). -/
def State.noteWant (s : State) (c : Nat) (f : Flit) : State := if s.meshBound c f then s.noteBusy c (productive c f) else s

/-- Does golden suspension hold back the head of the queue (R276)? -/
def State.goldHeld (s : State) (c : Nat) : Bool :=
  s.golden (halfOf c) == some c && (match (s.getRt c).injq with | m :: _ => s.meshBound c (s.injFlit m).f | [] => false)

/-- Up to n flits injected from the head of the queue (R274); a cycle in which the head wants a busy seam port is counted (R273), and one
in which it is suspended (R276). -/
def State.injectN (s : State) (c : Nat) : Nat → State
  | 0 => s
  | n + 1 =>
    if s.goldHeld c then s.bump .EF_GOLDCYC [c] else
    let s := match (s.getRt c).injq with
      | m :: _ => s.noteWant c (s.injFlit m).f
      | [] => s
    match s.injectHead c with
    | some s => s.injectN c n
    | none => s

/-- A spill or overflow flit for another cluster re-enters at step 5 of R271 on a free productive port; one for this cluster that waits in
the overflow takes a free ejection slot (R276, R282, R288, R289, R455). None where it must wait. -/
def State.reenter (s : State) (c : Nat) (m : MFlit) (drop : State → State) : Option State :=
  match s.transitAbsorb c m.f with
  | some s' => some (drop s')
  | none =>
    if atDest c m.f then
      if (s.getRt c).ej ≥ 2 then none
      else ((drop s).eject c m).map fun s => s.modRt c fun r => { r with ej := r.ej + 1 }
    else
      match (productive c m.f).find? (s.portOpen c) with
      | some p => some ((drop s).sendProd c p m)
      | none => none

/-- The re-entries of a cycle, in order of arrival: the spill's flits for other clusters, then the transit overflow (R282, R288). -/
def State.reenterAll (s : State) (c : Nat) : State :=
  let r := s.getRt c
  let s := s.each (r.spill.filter fun m => !atDest c m.f) fun s m =>
    let s := s.noteWant c m.f
    (s.reenter c m fun s => (s.modRt c fun r => { r with spill := r.spill.erase m }).noteSpill c).getD s
  s.each r.ovf fun s m =>
    let s := s.noteWant c m.f
    (s.reenter c m fun s => (s.modRt c fun r => { r with ovf := r.ovf.erase m }).noteSpill c).getD s

/-- FLIT_INJECT (R271 step 5, R274, R276, R282, R286): once in a fabric cycle, the queue is filled, the spill's re-entries take free ports
first, and up to two flits leave from the queue's head; a node that is a hole injects nothing, and its spill waits. -/
def State.flitInject (s : State) (c : Nat) : State :=
  if (s.getRt c).injDone then s
  else
    let s := (s.fillInj c).modRt c fun r => { r with injDone := true }
    if s.isHole c then s
    else
      (s.reenterAll c).injectN c 2

/-! ## The spill -/

/-- One release of the spill (R282, R283): the first flit, in order of arrival, whose target's queue has room goes to the delivery stage.
One for an engine fenced meanwhile meets checks 5 and 6 of R278: rewritten, it waits to re-enter; otherwise it is absorbed. -/
def State.spillOne (s : State) (c : Nat) : Option State :=
  let fenced (m : MFlit) : Bool := s.fencedEng c (fDC m.f)
  match (s.getRt c).spill.find? fun m => atDest c m.f && (fenced m || s.queueRoom c m.f) with
  | none => none
  | some m =>
    let out (s : State) : State := (s.modRt c fun r => { r with spill := r.spill.erase m }).noteSpill c
    if !fenced m then some ((out s).modRt c fun r => { r with dlv := r.dlv ++ [m] })
    else
      match (if m.rw then none else s.remapOf (fDest m.f)) with
      | some d =>
        let r := s.rewrite c m d
        some (r.2.modRt c fun x => { x with spill := x.spill.map fun y => if y = m then r.1 else y })
      | none => some ((out s).absorbFenced c m.f)

/-- SPILL_RELEASE (R282): up to two flits in a fabric cycle. -/
def State.spillRelease (s : State) (c : Nat) : State :=
  if (s.getRt c).relDone then s
  else
    let s := s.modRt c fun r => { r with relDone := true }
    match s.spillOne c with
    | none => s
    | some s => (s.spillOne c).getD s

/-! ## Delivery -/

/-- The first flit of the delivery stage for an engine and class of KIND, taken out (R282). -/
def State.takeDlv (s : State) (c : Nat) (want : Flit → Bool) : Option (MFlit × State) :=
  match (s.getRt c).dlv.find? fun m => want m.f with
  | none => none
  | some m => some (m, s.modRt c fun r => { r with dlv := r.dlv.erase m })

/-! ## Golden rotation -/

/-- The first cluster with its bit set that follows the last golden cluster (R275). -/
def nextGolden (v last lo n : Nat) : Option Nat :=
  ((List.range n).map fun i => lo + (last + 1 - lo + i) % n).find? fun k => v.testBit k

/-- GOLDEN_SCAN (R275, R457): outside a golden period the old-source vectors are ORed and cleared, and a period starts for the next
marked cluster; in the split state each steward scans its own half. -/
def State.goldenScan (s : State) (h : Nat) : State :=
  if !s.bit .EF_GOLD [0] EF_GOLD_EN || (s.golden h).isSome then s
  else
    let mine (c : Nat) : Bool := !s.isSplit || halfOf c == h
    let v := (List.range 96).foldl (fun v c => if mine c then v ||| (s.getRt c).old else v) 0
    let s := s.each (List.range 96) fun s c => if mine c then s.modRt c fun r => { r with old := 0 } else s
    let last := s.fld .EF_GOLDSTAT [0] EF_GOLDSTAT_ID
    let pick := if s.isSplit then nextGolden v (if halfOf last = h then last else h * 48 + 47) (h * 48) 48 else nextGolden v last 0 96
    match pick with
    | none => s
    | some g =>
      let s := s.each (if s.isSplit then [h] else [0, 1]) fun s k => s.modHf k fun x => { x with gold := g + 1 }
      ((s.setFld .EF_GOLDSTAT [0] EF_GOLDSTAT_ID g).setFld .EF_GOLDSTAT [0] EF_GOLDSTAT_ACTIVE 1).setFld
        .EF_STATUS [g] EF_STATUS_GOLDEN 1

/-- GOLDEN_PERIOD_END (R275, R276). -/
def State.goldenEnd (s : State) (h : Nat) : State :=
  match s.golden h with
  | none => s
  | some g =>
    let s := s.each (if s.isSplit then [h] else [0, 1]) fun s k => s.modHf k fun x => { x with gold := 0 }
    (s.setFld .EF_GOLDSTAT [0] EF_GOLDSTAT_ACTIVE (if (s.golden 0).isSome || (s.golden 1).isSome then 1 else 0)).setFld
      .EF_STATUS [g] EF_STATUS_GOLDEN 0

/-! ## Fences -/

/-- The groups with instances or bound engines in a cluster (R289, R319). -/
def State.groupsIn (s : State) (c : Nat) : List Nat :=
  (List.range 256).filter fun g => s.wgOn g && (s.enginesOf g).any fun e => e / 32 == c && decide (e < 0x1000)

/-- An engine is fenced (R69, R283): its flits waiting to be injected are discarded and its queues emptied. -/
def State.fenceEngine (s : State) (c slot : Nat) : State :=
  let s := s.setVal .EF_FENCE [c] (setBits (s.val .EF_FENCE [c]) slot 1 1)
  let s := s.modRt c fun r => { r with injq := r.injq.filter fun m => fSrc m.f != coordOf c slot }
  if slot < 16 then (s.modNc c slot fun n => { n with inq := [], outq := [], fan := [], integs := [] }).fenceCore c slot
  else
    let s := if slot = 18 then s.modMx c fun x => { x with recs := [] } else s
    (s.modEng c (slot - 16) fun e => { e with emitq := [], outq := [], ibq := [], sinkq := [] }).setVal .SY_IBQ_STATUS [c, slot - 16] 0

/-- Every engine of a cluster fenced (R289, R319). -/
def State.fenceCluster (s : State) (c : Nat) : State := s.each (List.range 19) fun s k => s.fenceEngine c k

/-- The check of a remap entry (R285, R294). -/
def State.remapCheck (s : State) (n : Nat) : Nat :=
  let f := s.fld .EF_REMAP [0, n] EF_REMAP_FROM
  let t := s.fld .EF_REMAP [0, n] EF_REMAP_TO
  let p := s.fld .EF_REMAP [0, n] EF_REMAP_PART
  let kind (d : Nat) : Nat := if coordSlot d < 16 then 0 else if coordSlot d < 18 then 1 else if coordSlot d = 18 then 2 else 3
  let fenced (d : Nat) : Bool := match coordCluster d with | some c => s.fencedEng c (coordSlot d) | none => false
  let inP (d : Nat) : Bool := match coordCluster d with | some c => s.partOfCluster c == some p | none => false
  if kind f = 3 ∨ kind t = 3 ∨ kind f ≠ kind t ∨ !fenced f ∨ fenced t then 0x0701
  else if !inP f || !inP t || ((List.range 16).any fun m => m != n && s.bit .EF_REMAP [0, m] EF_REMAP_EN &&
      (let a := s.fld .EF_REMAP [0, m] EF_REMAP_FROM
       let b := s.fld .EF_REMAP [0, m] EF_REMAP_TO
       a == f || a == t || b == f || b == t)) then 0x0702
  else 0

/-! ## Fabric resets -/

/-- The neighbours of a node see it as a hole, or no longer (R286, R292: HOLES). -/
def State.noteHole (s : State) (c : Nat) (x : Bool) : State :=
  s.each (List.range 4) fun s p =>
    match neighbour c p with
    | some n =>
      let bit := 3 - arrives p
      s.setFld .EF_STATUS [n] EF_STATUS_HOLES (setBits (s.fld .EF_STATUS [n] EF_STATUS_HOLES) bit 1 (if x then 1 else 0))
    | none => s

/-- Does a schedule own a field at a node (R316, R317)? -/
def Sch.hasNode (x : Sch) (c : Nat) : Bool :=
  x.mine.any fun f => match f with | .out k _ _ _ => k == c | .map e _ _ => decide (e < 768) && e / 8 == c

/-- FRESET, or an uncorrectable error in a router table (R286, R316): the steward suspends the schedules of the node from the next frame
boundary. -/
def State.freset (s : State) (c : Nat) : State :=
  if (s.getRt c).hole || (s.getRt c).reset != 0 then s
  else
    let s := s.modRt c fun r => { r with reset := 1 }
    s.each (List.range 64) fun s n =>
      if (s.getSch n).hasNode c then s.modSch n fun x => { x with susp := x.susp ++ [c] } else s

/-- Step 1 of R286, at slot 32 of the frame in which the schedules are suspended (R316): the hole is marked. -/
def State.fresetMark (s : State) (c : Nat) : State :=
  if (s.getRt c).reset ≠ 1 then s
  else ((s.modRt c fun r => { r with reset := 2 }).setFld .EF_STATUS [c] EF_STATUS_STATE 1).noteHole c true

/-- The node has forwarded the flits it held (R286 steps 2 and 3): its router and switch reset. -/
def State.fresetDrained (s : State) (c : Nat) : State :=
  let r := s.getRt c
  if r.reset = 2 ∧ r.inN = none ∧ r.inE = none ∧ r.inS = none ∧ r.inW = none then s.modRt c fun r => { r with reset := 3, old := 0 } else s

/-- A node becomes a permanent hole (R289, R317); a schedule that drains already goes on to DISABLED (log entry 169). -/
def State.permanentHole (s : State) (c : Nat) : State :=
  let s := ((s.modRt c fun r => { r with reset := 0, hole := true }).setFld .EF_STATUS [c] EF_STATUS_STATE 2).fenceCluster c
  let s := s.each (s.groupsIn c) fun s g => s.haltAtHarvest g 0x0781
  s.each (List.range 64) fun s n =>
    if (s.getSch n).hasNode c && s.fld .TL_SSTAT [0, n] TL_SSTAT_STATE != 4 then
      ((s.setFld .TL_SSTAT [0, n] TL_SSTAT_STATE 5).setFld .TL_SSTAT [0, n] TL_SSTAT_REASON 0x0813).modSch n fun x =>
        { x with susp := x.susp.filter (· != c) }
    else s

/-- The self-check ends (R286 step 3, R289). -/
def State.fresetCheck (s : State) (c : Nat) (pass : Bool) : State :=
  if (s.getRt c).reset ≠ 3 then s
  else if pass then s.modRt c fun r => { r with reset := 4 } else s.permanentHole c

/-- The tables are reloaded and the neighbours clear the hole (R286 step 4, R316). -/
def State.holeClear (s : State) (c : Nat) : State :=
  if (s.getRt c).reset ≠ 4 then s
  else
    let s := ((s.modRt c fun r => { r with reset := 0 }).setFld .EF_STATUS [c] EF_STATUS_STATE 0).noteHole c false
    s.each (List.range 64) fun s n => s.modSch n fun x => { x with susp := x.susp.filter (· != c) }

end Sys2Proof.Machine
end

