-- ==== Sys2Proof/Machine/Circuits.lean ====
section
/-! DEFINITION. Trellis endpoints, beats and circuits (R295 to R309): what a beat is, in which slots an endpoint may send it, and the way the
active slot tables give it through the switches. -/

namespace Sys2Proof.Machine

/-! ## Endpoints -/

/-- The cluster whose switch a backbone endpoint attaches to, and whether by its south port (R297). -/
def backHome (e : Nat) : Nat × Bool :=
  if e < 792 then
    let n := e - 768
    let h := n / 12
    let k := n % 12
    if k < 6 then (clusterOf h k 0, false) else (clusterOf h (k - 6) 5, true)
  else
    let n := e - 792
    let h := n / 4
    let k := n % 4
    if k < 2 then (clusterOf h (6 + k) 0, false) else (clusterOf h (4 + k) 5, true)

/-- The cluster whose switch an endpoint attaches to, and in whose TL_ block it reports. -/
def epHome (e : Nat) : Nat := if e < 768 then e / 8 else (backHome e).1

/-- SEL of the input an endpoint sends into, if it may send; the output it receives from, if it may receive (R296, R298, R299). -/
def epSel (e : Nat) : Option Nat :=
  if e < 768 then (if e % 8 < 6 then some (5 + e % 8) else none)
  else if e < 800 then some (if (backHome e).2 then 3 else 1) else none
def epOut (e : Nat) : Option Nat :=
  if e < 768 then (if e % 8 < 7 then some (4 + e % 8) else none)
  else if e < 800 then some (if (backHome e).2 then 2 else 0) else none

/-- The backbone endpoint at an outer port of a switch (R297). -/
def outerEp (c o : Nat) : Option Nat :=
  (List.range 32).map (768 + ·) |>.find? fun e => (backHome e).1 == c && (if (backHome e).2 then 2 else 0) == o

/-- The keep-store window is served by the access logic of the banks' clusters (R22, R42); the spec gives it no endpoint number, and this
one, above every endpoint, stands for it (log entry 81). -/
def keepEnd : Nat := 1023

/-! ## Beats (R306, R307) -/

/-- A beat with its check bits. -/
def mkBeat (kind tag : Nat) (data : List Byte) : Beat :=
  { kind := kind, tag := tag, data := data,
    check := (List.range 8).map fun i => Config.secded (BitVec.ofNat 64 (leNat ((data.drop (8 * i)).take 8))) }


/-- The data bytes of a request beat, and of a refusal beat. -/
def requestBytes (a req len op ret : Nat) (rv : Bool) : List Byte :=
  leBytes 6 a ++ leBytes 2 req ++ leBytes 4 len ++ leBytes 1 op ++ [0] ++ leBytes 2 (ret + (if rv then 2 ^ 15 else 0)) ++ List.replicate 48 0
def refusalBytes (code : Nat) : List Byte := leBytes 2 code ++ List.replicate 62 0

/-- May a request name an endpoint in RET: the requester itself, or MXW for MXA of the same engine (R309)? -/
def retValid (e ret : Nat) : Bool := ret == e || (decide (e < 768) && e % 8 == 5 && ret == e + 1)

/-- Where a target sends what answers a request: to RET where RV is 1 and RET is valid, else to the requester (R308, R309). -/
def answerEnd (e ret : Nat) (rv : Bool) : Nat := if rv && retValid e ret then ret else e

/-- The length of the next piece (R308): up to the next boundary between targets, 4 KiB units of LPDDR or 64 KiB. -/
def pieceLen (a rem : Nat) : Nat :=
  let b := match locate a with | .lpddr _ => 4096 | _ => 65536
  min rem (b - a % b)

/-! ## Who may send, and when -/

def State.isQuiet (s : State) (h : Nat) : Bool := s.bit .TL_STATUS [h * 48] TL_STATUS_QUIET
def State.schState (s : State) (n : Nat) : Nat := s.fld .TL_SSTAT [0, n] TL_SSTAT_STATE

/-- Does an endpoint take and send beats: its engine is not fenced, and its domain is ON and not in reset (R323)? -/
def State.epUp (s : State) (e : Nat) : Bool :=
  if e < 768 then
    s.clusterOn (e / 8) && (match epSlot e with | some k => !s.fencedEng (e / 8) k && (k != 18 || s.mxOn (e / 8)) | none => true)
  else if e < 792 then true else s.portOn (e - 792)

/-- May an endpoint send: it is up and its half is not quiesced (R316, R323)? -/
def State.epSends (s : State) (e : Nat) : Bool := !s.isQuiet (epHalf e) && s.epUp e

/-- What a schedule does for the beats of an endpoint (R313, R315 to R317): 1 carries them, 2 holds them back, 3 is broken. A draining one
carries them to the next frame boundary of the endpoint's half. -/
def State.schCarries (s : State) (n e : Nat) : Nat :=
  match s.schState n with
  | 2 => 1
  | 5 => 3
  | 4 => if (if epHalf e = 0 then (s.getSch n).swapW else (s.getSch n).swapE) then 2 else 1
  | _ => 2

/-- The send-map entry of an endpoint in a slot (R305): valid, and naming a target. -/
def State.smapTo (s : State) (e slot t : Nat) : Bool :=
  let x := mget s.smapA (e * 1024 + slot)
  x.testBit 15 && x % 1024 == t

/-- Is a schedule one that a transfer may use: the device's own transfers for a partition use that partition's service schedules only (R301;
`svc`: the partition, of such a transfer)? -/
def State.schServes (s : State) (svc : Option Nat) (n : Nat) : Bool :=
  match svc with
  | none => true
  | some p => s.bit .TL_SCFG [0, n] TL_SCFG_SVC && s.fld .TL_SCFG [0, n] TL_SCFG_PART == p

/-- The circuits from an endpoint to a target (R305): 0 none, 1 ready, 2 waiting, 3 broken. -/
def State.circuit (s : State) (svc : Option Nat) (e t : Nat) : Nat :=
  let st := (s.smapA.filter fun x => x.1 / 1024 == e && x.2.testBit 15 && x.2 % 1024 == t && s.schServes svc (x.2 / 2 ^ 16)).map fun x =>
    s.schCarries (x.2 / 2 ^ 16) e
  if st.contains 1 then 1 else if st.contains 2 then 2 else if st.contains 3 then 3 else 0

/-- The best circuit to any of some targets. -/
def State.circuitTo (s : State) (svc : Option Nat) (e : Nat) (ts : List Nat) : Nat :=
  let st := ts.map (s.circuit svc e)
  if st.contains 1 then 1 else if st.contains 2 then 2 else if st.contains 3 then 3 else 0

/-- May an endpoint send a beat for a target in a slot (R305)? -/
def State.slotTo (s : State) (svc : Option Nat) (e slot t : Nat) : Bool :=
  let n := mget s.smapA (e * 1024 + slot) / 2 ^ 16
  s.smapTo e slot t && s.schServes svc n && s.schCarries n e == 1 && s.epSends e

/-- The endpoints that reach a device address: either bank port for a bank (R296). -/
def State.targets (s : State) (a : Nat) : List Nat :=
  match locate a with
  | .keep _ _ => [keepEnd]
  | _ => match s.targetOf a with
    | some t => if t < 768 ∧ t % 8 = 0 then [t, t + 1] else [t]
    | none => []

/-! ## The way of a beat -/

/-- The outputs of a switch that send, in a slot, what an input presents (R299, R300). -/
def State.swOuts (s : State) (c slot sel : Nat) : List Nat :=
  (List.range 11).filter fun o => bitsOf (mget s.slotA (c * 1024 + slot)) (10 * o) 4 == sel

/-- The way of a beat from an input of a switch, in a slot (R300): each switch output that sends it, and where it leaves the switches: at an
endpoint, or (1,024) at the seam bridge. The first argument bounds the switches. -/
def State.beatWalk (s : State) : Nat → Nat → Nat → Nat → List (Nat × Option Nat)
  | 0, _, _, _ => []
  | n + 1, c, sel, slot => (s.swOuts c slot sel).flatMap fun o =>
    if o ≥ 4 then [(c, some (c * 8 + (o - 4)))]
    else
      match neighbour c o with
      | some c' => (c, none) :: s.beatWalk n c' (arrives o + 1) ((slot + 1) % 1024)
      | none => if seamPort c = some o then [(c, some 1024)] else [(c, outerEp c o)]

/-- Its beats counted at every switch (R324: TL_SWBEATS). -/
def State.countHops (s : State) (w : List (Nat × Option Nat)) : State := s.each w fun s x => s.bump .TL_SWBEATS [x.1]

/-- The first slot in which an endpoint's active send map names a target (R305). -/
def State.firstSlot (s : State) (e t : Nat) : Option Nat := (List.range 1024).find? fun k => s.smapTo e k t

/-- Beats that pass whole from one endpoint to another in the circuit's slots: counted where they are sent, switched in both halves, and
received (R324), and at the seam (R462). -/
def State.passBeats (s : State) (e t n : Nat) : State :=
  let near := match s.firstSlot e t, epSel e with | some k, some sel => s.beatWalk 26 (epHome e) sel k | _, _ => []
  let far := match (List.range 64).findSome? fun k => (s.getSch k).cross.find? fun y => y.src == e && y.dst == t with
    | some y => s.beatWalk 26 (clusterOf (1 - y.dir) (if y.dir = 0 then 0 else 7) y.row) ((if y.dir = 0 then 3 else 1) + 1) y.first2
    | none => []
  let s := (s.bump .TL_EPTX [epHome e] n).bump .TL_EPRX [epHome t] n
  let s := s.each (near ++ far) fun s x => s.bump .TL_SWBEATS [x.1] n
  if epHalf e = epHalf t then s else s.bump .SM_TBEATS [epHalf e] n

/-! ## The device's own transfers (R301, R391) -/

/-- The channels that a range of LPDDR lies in, by its 4 KiB units (R380): the channel and the lines of each unit. -/
def State.dmUnits (s : State) (a n : Nat) : List (Nat × Nat) :=
  if n = 0 then [] else
  (List.range ((a % 4096 + n + 4095) / 4096)).filterMap fun i =>
    let lo := max a ((a / 4096 + i) * 4096)
    let hi := min (a + n) ((a / 4096 + i + 1) * 4096)
    (s.dmMap lo).map fun x => (x.1, linesOf lo (hi - lo))

/-- Are there ready service circuits of a partition from an endpoint to every channel of a range and back (R301)? -/
def State.svcReady (s : State) (p e a n : Nat) : Bool :=
  (s.dmUnits a n).all fun x => s.circuit (some p) e (768 + x.1) == 1 && s.circuit (some p) (768 + x.1) e == 1

/-- The channels of a range that do not serve start to wake (R378, R391). -/
def State.dmWake (s : State) (a n : Nat) : State := s.each (s.dmUnits a n) fun s x => s.wakeDomain (196 + x.1) 4
def State.dmReady (s : State) (a n : Nat) : Bool := (s.dmUnits a n).all fun x => s.chanOn x.1

/-- One of the device's own transfers between an endpoint and a range of LPDDR: each unit is a piece, granted a queue entry, with a request, its
data and, of a write, an acknowledgement (R308, R324, R384; log entry 166). -/
def State.svcBeats (s : State) (e a n : Nat) (write : Bool) : State :=
  s.each (s.dmUnits a n) fun s x =>
    let t := 768 + x.1
    let s := s.arbOnce x.1
    if write then (s.passBeats e t (1 + x.2)).passBeats t e 1 else (s.passBeats e t 1).passBeats t e x.2

/-- The lines of a range of LPDDR written or read, counted at their channels (R392). -/
def State.dmLines (s : State) (a n : Nat) (write : Bool) : State :=
  s.each (s.dmUnits a n) fun s x => s.bump (if write then .DM_WRB else .DM_RDB) [x.1] x.2

/-- A channel in service fails (R383): every enabled group whose partition's region maps a unit to it halts with 0x0B80. -/
def State.chanFail (s : State) (ch : Nat) : State :=
  if s.fld .DM_CH_STATUS [ch] DM_CH_STATUS_STATE ≠ 1 then s else
  let s := (s.setFld .DM_CH_STATUS [ch] DM_CH_STATUS_STATE 3).setFld .DM_CH_STATUS [ch] DM_CH_STATUS_REASON 0x0B27
  let s := s.post none 9 ch 0xFFFF 0x0B27
  s.each (List.range 256) fun s g => if s.wgOn g && s.regionUses (s.wgPart g) ch then s.haltAtHarvest g 0x0B80 else s

/-- Words or repetitions counted at the channel of an LPDDR offset. -/
def State.dmCount (s : State) (r : Reg) (y : Nat) (k : Nat := 1) : State :=
  match s.dmMap y with | some (ch, _) => s.bump r [ch] k | none => s

/-- A line of LPDDR stays uncorrectable (R374, R383): counted, its address recorded; `fails`: the channel fails in service with it. -/
def State.dmBad (s : State) (a : Nat) (fails : Bool) : State :=
  match s.dmMap a with
  | some (ch, _) => ((s.bump .DM_UNCORR [ch]).setVal .DM_ERRADDR [] a).when fails fun s => s.chanFail ch
  | none => s

/-- What the lines of a range meet as they are read (R373, R374). -/
def State.dmMeets (s : State) (a n : Nat) (m : LineFate) : State :=
  let s := s.each (inRange a n m.corr) fun s y => s.dmCount .DM_CORR y
  let s := s.each (inRange a n m.link) fun s y => s.dmCount .DM_LINKERR y
  s.each (inRange a n m.bad) fun s y => s.dmBad y m.failing

/-- A refused piece counted (R312, R324): TL_REFUSED counts the refusals of R312. -/
def State.countRefused (s : State) (c code : Nat) : State := if code = 0x0811 ∨ code = 0x0812 then s.bump .TL_REFUSED [c] else s

/-- Does the memory of a place serve: its cluster's domain, or its matrix subdomain, is ON (R41)? -/
def State.memUp (s : State) (a : Nat) : Bool :=
  match locate a with
  | .mxbuf c _ => s.domOn c && s.domOn (96 + c)
  | .core c _ _ => s.domOn c
  | .local c _ _ => s.domOn c
  | .bank c _ => s.domOn c
  | .setAlias c _ => s.domOn c
  | .clrAlias c _ => s.domOn c
  | _ => false

/-- Is a place refused for a fence or a reset of its engine alone: it is in the partition, and its memory serves? -/
def State.fenceOnly (s : State) (part : Option Nat) (a : Nat) : Bool :=
  s.targetFenced a && s.memUp a && (match part with | some p => s.inPart p a 1 | none => false)

/-- An access refused because it is outside the partition or not present, or lies in a domain that does not serve, is counted against
the requesting cluster (R39, R41, R530); a fence is not among R39's cases. -/
def State.countStray (s : State) (part : Option Nat) (c a code : Nat) : State :=
  if code = 0x0812 && !s.fenceOnly part a then s.bump .PC_STRAY [c] else s

/-- A bank's own refusal counted at the bank (R363, R367). -/
def State.countDeny (s : State) (a code : Nat) : State :=
  if code = 0x0A11 ∨ code = 0x0A12 then
    match locate a with
    | .bank c _ => s.bump .BK_DENY [c]
    | .setAlias c _ => s.bump .BK_DENY [c]
    | .clrAlias c _ => s.bump .BK_DENY [c]
    | _ => s
  else s

/-- A line read for a beat, counted at its memory (R392). -/
def State.countRead (s : State) (a : Nat) : State :=
  match locate a with
  | .bank c _ => s.bump .BK_RD [c]
  | .setAlias c _ => s.bump .BK_RD [c]
  | .clrAlias c _ => s.bump .BK_RD [c]
  | .lpddr x => match s.dmMap x with | some (ch, _) => s.bump .DM_RDB [ch] | none => s
  | _ => s

end Sys2Proof.Machine
end

