-- ==== Sys2Proof/Machine/Crypto.lean ====
section
/-! DEFINITION. The functions the spec names by their standards (R183, R189, R497, R521, R531): SHA3-512, AES-256, its XTS mode and its key
wrap. Their tables and steps are taken from FIPS 202, FIPS 197, IEEE 1619 and RFC 3394 (log entry 174). -/

namespace Sys2Proof.Machine

/-- The bytewise exclusive or of two lists. -/
def xorBytes (a b : List Byte) : List Byte := (a.zip b).map fun x => x.1 ^^^ x.2

/-- A list in parts of n elements; the first argument bounds their number. -/
def parts {α : Type} : Nat → Nat → List α → List (List α)
  | 0, _, _ => []
  | k + 1, n, l => l.take n :: parts k n (l.drop n)

/-! ## SHA3-512, and the SHAKE functions that ML-DSA uses -/

/-- Round constants. -/
def keccakRC : List (BitVec 64) :=
  [0x1, 0x8082, 0x800000000000808A, 0x8000000080008000, 0x808B, 0x80000001, 0x8000000080008081, 0x8000000000008009, 0x8A, 0x88, 0x80008009,
   0x8000000A, 0x8000808B, 0x800000000000008B, 0x8000000000008089, 0x8000000000008003, 0x8000000000008002, 0x8000000000000080, 0x800A,
   0x800000008000000A, 0x8000000080008081, 0x8000000000008080, 0x80000001, 0x8000000080008008]

/-- Rotations of the lanes, lane x + 5y at its number. -/
def keccakRot : List Nat := [0, 1, 62, 28, 27, 36, 44, 6, 55, 20, 3, 10, 43, 25, 39, 41, 45, 15, 21, 8, 18, 2, 61, 56, 14]

/-- One round of the permutation: theta; rho and pi; chi; iota. -/
def keccakRound (a : List (BitVec 64)) (rc : BitVec 64) : List (BitVec 64) :=
  let g (l : List (BitVec 64)) (i : Nat) := l.getD i 0
  let c := (List.range 5).map fun x => g a x ^^^ g a (x + 5) ^^^ g a (x + 10) ^^^ g a (x + 15) ^^^ g a (x + 20)
  let d := (List.range 5).map fun x => g c ((x + 4) % 5) ^^^ (g c ((x + 1) % 5)).rotateLeft 1
  let e := (List.range 25).map fun i => (g a i ^^^ g d (i % 5)).rotateLeft (keccakRot.getD i 0)
  let b := (List.range 25).map fun j => g e ((j % 5 + 3 * (j / 5)) % 5 + 5 * (j % 5))
  (List.range 25).map fun j =>
    let y := j - j % 5
    let v := g b j ^^^ (~~~(g b (y + (j + 1) % 5)) &&& g b (y + (j + 2) % 5))
    if j = 0 then v ^^^ rc else v

def keccakF (a : List (BitVec 64)) : List (BitVec 64) := keccakRC.foldl keccakRound a

/-- A block absorbed. -/
def keccakAbsorb (a : List (BitVec 64)) (block : List Byte) : List (BitVec 64) :=
  let m := (parts (block.length / 8) 8 block).map fun w => BitVec.ofNat 64 (leNat w)
  keccakF ((List.range 25).map fun i => a.getD i 0 ^^^ m.getD i 0)

/-- Blocks squeezed out, as many as the first argument says. -/
def keccakSqueeze (rate : Nat) : Nat → List (BitVec 64) → List Byte
  | 0, _ => []
  | k + 1, a => (a.flatMap fun x => leBytes 8 x.toNat).take rate ++ keccakSqueeze rate k (keccakF a)

/-- The sponge: blocks of `rate` bytes, a suffix that tells its functions apart, and n bytes out. -/
def keccak (rate : Nat) (suffix : Byte) (m : List Byte) (n : Nat) : List Byte :=
  let k := rate - m.length % rate
  let pad := if k = 1 then [suffix ||| 0x80] else suffix :: List.replicate (k - 2) 0 ++ [0x80]
  let a := (parts ((m.length + k) / rate) rate (m ++ pad)).foldl keccakAbsorb (List.replicate 25 0)
  (keccakSqueeze rate (n / rate + 1) a).take n

def sha3 (m : List Byte) : List Byte := keccak 72 0x06 m 64
def shake128 (m : List Byte) (n : Nat) : List Byte := keccak 168 0x1F m n
def shake256 (m : List Byte) (n : Nat) : List Byte := keccak 136 0x1F m n

/-! ## AES-256 -/

/-- Twice an element of the field, reduced by x^8 + x^4 + x^3 + x + 1. -/
def gfTwice (x : Byte) : Byte := (x <<< 1) ^^^ (if x.msb then 0x1B else 0)

/-- The product of two elements. -/
def gfMul (a b : Byte) : Byte :=
  ((List.range 8).foldl (fun (x : Byte × Byte) i => (gfTwice x.1, if b.getLsbD i then x.2 ^^^ x.1 else x.2)) (a, 0)).2

/-- The substitution of a byte: its inverse, its 254th power, and the affine step. -/
def aesSub (x : Byte) : Byte :=
  let p := (List.range 6).foldl (fun (y : Byte × Byte) _ => (gfMul y.1 y.1, gfMul y.2 (gfMul y.1 y.1))) (gfMul x x, gfMul x x)
  let i := p.2
  i ^^^ i.rotateLeft 1 ^^^ i.rotateLeft 2 ^^^ i.rotateLeft 3 ^^^ i.rotateLeft 4 ^^^ 0x63

/-- The 15 round keys of a 32-byte key, 16 bytes each. -/
def aesKeys (key : List Byte) : List (List Byte) :=
  let w := (List.range 52).foldl (fun (w : List (List Byte)) j =>
    let t := w.getD (j + 7) []
    let t := if j % 8 = 0 then xorBytes ((t.drop 1 ++ t.take 1).map aesSub) [BitVec.ofNat 8 (2 ^ (j / 8)), 0, 0, 0]
      else if j % 8 = 4 then t.map aesSub else t
    w ++ [xorBytes (w.getD j []) t]) (parts 8 4 key)
  parts 15 16 w.flatten

/-- One round without its key: substitution, row shift and, but for the last round, column mixing. -/
def aesRound (last : Bool) (b : List Byte) : List Byte :=
  let t := (List.range 16).map fun i => aesSub (b.getD ((i + 4 * (i % 4)) % 16) 0)
  if last then t
  else (List.range 16).map fun i =>
    let g (k : Nat) := t.getD (i / 4 * 4 + (i + k) % 4) 0
    gfTwice (g 0) ^^^ gfTwice (g 1) ^^^ g 1 ^^^ g 2 ^^^ g 3

/-- A block of 16 bytes enciphered under round keys. -/
def aesBlock (ks : List (List Byte)) (b : List Byte) : List Byte :=
  match ks with
  | [] => b
  | k :: rest => (rest.zip (List.range rest.length)).foldl (fun x r => xorBytes (aesRound (r.2 == 13) x) r.1) (xorBytes b k)

/-- AES-256-XTS of a data unit of whole blocks under a 64-byte key: its halves for the data and for the tweak. -/
def xts (key : List Byte) (tweak : Nat) (bs : List Byte) : List Byte :=
  let k1 := aesKeys (key.take 32)
  let t0 := leNat (aesBlock (aesKeys (key.drop 32)) (leBytes 16 tweak))
  ((parts (bs.length / 16) 16 bs).foldl (fun (x : List Byte × Nat) b =>
    let t := leBytes 16 x.2
    (x.1 ++ xorBytes (aesBlock k1 (xorBytes b t)) t, 2 * x.2 % 2 ^ 128 ^^^ (if x.2.testBit 127 then 0x87 else 0))) ([], t0)).1

/-- AES-256 key wrap of whole 8-byte words: six passes over them. -/
def keyWrap (kek key : List Byte) : List Byte :=
  let ks := aesKeys kek
  let n := key.length / 8
  let r := (List.range (6 * n)).foldl (fun (x : List Byte × List (List Byte)) t =>
    let b := aesBlock ks (x.1 ++ x.2.getD (t % n) [])
    (xorBytes (b.take 8) (leBytes 8 (t + 1)).reverse, x.2.set (t % n) (b.drop 8))) (List.replicate 8 0xA6, parts n 8 key)
  r.1 ++ r.2.flatten

end Sys2Proof.Machine
end

