-- ==== Sys2Proof/Machine/KeepStore.lean ====
section
/-! DEFINITION. The keep store (R182 to R193, R531, R532): pages, images, commits, root records and restores. The registers of a
partition (KS_STAGE, KS_STATUS, KS_GEN, KS_GEPOCH, KS_PAGES) are held under the partition's number as instance. -/

namespace Sys2Proof.Machine

/-- A list of bytes cut or filled up with zero to a length. -/
def fit (n : Nat) (bs : List Byte) : List Byte := (bs ++ List.replicate (n - bs.length) 0).take n

/-- n bytes of a list from an offset on, zero beyond its end. -/
def slice (bs : List Byte) (o n : Nat) : List Byte := fit n (bs.drop o)

/-- States of KS_STATUS.STATE (R199). -/
def ksIdle : Nat := 0
def ksCapture : Nat := 1
def ksProgram : Nat := 2
def ksRoot : Nat := 3
def ksRestore : Nat := 4

def State.ksState (s : State) (p x : Nat) : State := s.setFld .KS_STATUS [p] KS_STATUS_STATE x

/-- STATE of a partition (R199): the phase of its running commit, else RESTORE while it has one, else IDLE. -/
def State.ksShow (s : State) (p : Nat) : State :=
  let rest := if s.ks.restores.any fun x => x.part == p then ksRestore else ksIdle
  s.ksState p (match s.ks.cur with
    | some x => if x.part = p then (match x.phase with | 0 => rest | 1 => ksCapture | 2 => ksProgram | _ => ksRoot) else rest
    | none => rest)

/-- A code of the keep store posted for a partition (R199, R430). -/
def State.ksPost (s : State) (p code : Nat) : State :=
  (s.setFld .KS_STATUS [p] KS_STATUS_REASON code).post (some p) 7 p 0xFFFF code

def State.modKs (s : State) (f : Ks → Ks) : State := { s with ks := f s.ks }

/-- A counter of the keep store raised: every cluster's block counts what the device's keep store does since that cluster's reset (R12, R196;
log entry 19). -/
def State.ksBump (s : State) (r : Reg) : State := s.each (List.range 96) fun s c => s.bump r [c]

/-! ## Pages -/

/-- Pages 0 to 63 and 24,576 to 24,639 are the root area (R182; log entry 17); pages below 24,576 lie in west banks. -/
def rootPage (p : Nat) : Bool := decide (p < 64) || (decide (24576 ≤ p) && decide (p < 24640))

def State.page (s : State) (p : Nat) : Page := mget s.ks.pages p
def State.setPage (s : State) (p : Nat) (f : Page → Page) : State := s.modKs fun k => { k with pages := mmod k.pages p f }

/-- Pages in use and pages retired. -/
def State.pagesUsed (s : State) : Nat := (s.ks.pages.filter fun e => e.2.used).length
def State.pagesBad (s : State) : Nat := (s.ks.pages.filter fun e => e.2.retired).length

/-- Spare pages left, and free pages beside them (R182, R196): 49,024 pages lie outside the root area. -/
def State.pagesSpare (s : State) : Nat := 128 - s.pagesBad
def State.pagesFree (s : State) : Nat := 49024 - s.pagesBad - s.pagesSpare - s.pagesUsed

/-- The free page with the lowest program count, the lowest-numbered of several (R193; log entry 94). The spares are a count, not places: an
ordinary program finds none when only as many free pages are left as there are spares (R182). -/
def State.freePage (s : State) : Option Nat :=
  if s.pagesFree = 0 then none else
  (List.range 49152).foldl (fun best p =>
    let g := s.page p
    if rootPage p || g.used || g.retired then best
    else match best with
      | none => some p
      | some q => if g.progs < (s.page q).progs then some p else best) none

/-- KS_FREE and KS_WEARMAX brought up to date (R182, R193, R196). -/
def State.ksCounts (s : State) : State :=
  let s := s.setFld .KS_FREE [0] KS_FREE_SPARE s.pagesSpare
  let s := s.setFld .KS_FREE [0] KS_FREE_FREE s.pagesFree
  let w := (s.ks.pages.map (·.2.progs) ++ s.ks.roots.map (·.2.progs)).foldl max 0
  s.setVal .KS_WEARMAX [0] w

/-- The arbiter of the keep-store bank that holds a page (R182, R384): 512 pages to a cluster's bank. -/
def pageArb (p : Nat) : Nat := 800 + p / 512

/-- Page operations of some pages, each granted once (R384; log entry 166). -/
def State.pageOps (s : State) (ps : List Nat) : State := s.each ps fun s p => s.arbOnce (pageArb p)

/-- One page programmed (R187, R193): encrypted under the partition's key and a tweak of generation and logical number. One that fails
read-back is retired and counted, and replaced from the spares, as often as it takes. `bad` holds the positions, in the order of programming,
whose read-back fails, from the `cnt`-th on. The first argument bounds the replacements. Answers the page, the position after it, and a code. -/
def State.programPage (s : State) (fuel : Nat) (bad : List Nat) (cnt key genw lpn : Nat) (bs : List Byte) : State × Option Nat × Nat × Nat :=
  match fuel with
  | 0 => (s, none, cnt, 0x0482)
  | fuel + 1 =>
    match s.freePage with
    | none => (s, none, cnt, 0x0483)
    | some p =>
      let s := s.pageOps [p]
      if bad.contains cnt then
        let spares := s.pagesSpare
        let s := (s.setPage p fun g => { g with retired := true, progs := g.progs + 1 }).ksBump .KS_PGBAD
        if spares = 0 then (s, none, cnt + 1, 0x0482) else s.programPage fuel bad (cnt + 1) key genw lpn bs
      else
        ((s.setPage p fun g => { g with used := true, progs := g.progs + 1, key := key, genw := genw, lpn := lpn, bytes := bs }).ksBump .KS_PGWRITE,
         some p, cnt + 1, 0)

/-- A partition's key by its number (R532): the 512 bits drawn from there on; 0 is no key. -/
def ksKey (key : Nat) : List Byte := (List.range 8).flatMap fun i => leBytes 8 (Config.freeValue (key - 1 + i)).toNat

/-- The page as stored (R183): its bytes encrypted as one data unit under its partition's key and the tweak GENW × 2^32 + LPN. State holds the
bytes, key number and tweak that it follows from. -/
def Page.stored (g : Page) : List Byte := xts (ksKey g.key) (g.genw * 2 ^ 32 + g.lpn) g.bytes

/-- The CRC-32C of a page as stored (R184). -/
def Page.crc (g : Page) : Nat := crc32c g.stored

/-- A directory or table entry of a page (R184). -/
def State.ksEntry (s : State) (p : Nat) : List Byte :=
  leBytes 16 (p + ((s.page p).genw % 2 ^ 32) * 2 ^ 32 + ((s.page p).crc % 2 ^ 32) * 2 ^ 96)

/-- The physical page an entry names, when its CRC agrees with the page as stored (R184, R190). -/
def State.entryPage (s : State) (e : List Byte) : Option Nat :=
  let x := leNat e
  let p := bitsOf x 0 16
  if x ≠ 0 ∧ (s.page p).used ∧ bitsOf x 96 32 = (s.page p).crc % 2 ^ 32 then some p else none

/-! ## Root records -/

/-- GEN, DIR, NPAGES, EPOCH and SETS of a partition in a root (R189). -/
structure GenRec where
  gen : Nat := 0
  dir : Nat := 0
  npages : Nat := 0
  epoch : Nat := 0
  sets : Nat := 0
  deriving DecidableEq, Repr, Inhabited

def genOf (root : List Byte) (p : Nat) : GenRec :=
  let at' (o n : Nat) := leNat (slice root (16 + 32 * p + o) n)
  { gen := at' 0 8, dir := at' 8 2, npages := at' 12 4, epoch := at' 16 8, sets := at' 24 2 }

def genBytes (g : GenRec) : List Byte :=
  leBytes 8 g.gen ++ leBytes 2 g.dir ++ leBytes 2 0 ++ leBytes 4 g.npages ++ leBytes 8 g.epoch ++ leBytes 2 g.sets ++ leBytes 6 0

/-- The ASCII bytes of a word. -/
def ascii (s : String) : List Byte := s.toList.map fun c => BitVec.ofNat 8 c.toNat

/-- KEK_KS (R522). -/
def State.kekKs (s : State) : List Byte := (sha3 (s.sec.huk ++ ascii "BLWN-KS")).take 32

/-- The key block's entry of a partition: its key wrapped, or zero (R531). -/
def keyEntry (kek : List Byte) (key : Nat) : List Byte :=
  if key = 0 then List.replicate 80 0
  else fit 72 (keyWrap kek (ksKey key)) ++ List.replicate 8 0

/-- A root page (R189, R531): the record with CHECK, the key block with KCHECK. -/
def rootBytes (kek : List Byte) (seq : Nat) (gens : List GenRec) (keys : List Nat) : List Byte :=
  let body := fit 448 (leBytes 8 seq ++ List.replicate 8 0 ++ gens.flatMap genBytes)
  let record := body ++ fit 64 (sha3 body)
  let block := record ++ fit 640 (keys.flatMap (keyEntry kek))
  block ++ fit 64 (sha3 block)

/-- Is a root slot valid: CHECK and KCHECK verify (R190, R531)? -/
def rootValid (bs : List Byte) : Bool :=
  bs != [] && fit 64 (sha3 (bs.take 448)) == slice bs 448 64 && fit 64 (sha3 (bs.take 1152)) == slice bs 1152 64

def rootSeq (bs : List Byte) : Nat := leNat (slice bs 0 8)

/-- The bytes of the winning root; none before the first commit. -/
def State.rootNow (s : State) : List Byte :=
  match s.ks.winner with
  | some i => (mget s.ks.roots i).bytes
  | none => []

/-- A partition's generation in the winning root. -/
def State.genNow (s : State) (p : Nat) : GenRec :=
  match s.ks.winner with
  | some _ => genOf s.rootNow p
  | none => {}

/-- The table pages and data pages of a partition's generation, with the half they must lie in, walked from its directory (R184,
R190, R191). -/
def State.walkGen (s : State) (p : Nat) : List Nat × List Nat :=
  let g := s.genNow p
  if g.gen = 0 then ([], [])
  else
    let dir := (s.page g.dir).bytes
    let tabs := (List.range 256).filterMap fun i => s.entryPage (slice dir (16 * i) 16)
    let datas := tabs.flatMap fun t =>
      (List.range 256).filterMap fun i => s.entryPage (slice (s.page t).bytes (16 * i) 16)
    (tabs, datas)

/-- Every page a partition's generation references. -/
def State.genPages (s : State) (p : Nat) : List Nat :=
  let g := s.genNow p
  if g.gen = 0 then [] else let w := s.walkGen p; g.dir :: w.1 ++ w.2

/-- Bytes of the keep-store window of a partition (R42): its committed generation from offset 0, zero beyond it. -/
def State.keepRead (s : State) (p o n : Nat) : List Byte :=
  let datas := (s.walkGen p).2
  (List.range n).map fun i =>
    match datas[(o + i) / 4096]? with
    | some q => (s.page q).bytes.getD ((o + i) % 4096) 0
    | none => 0

/-- The bytes of a place as a read returns them (R42, R185, R204, R366): a range of the keep-store window, of operand buffers, or of the memory
behind an alias. -/
def State.readBytes (s : State) (a n : Nat) : List Byte :=
  match locate a with
  | .keep p o => s.keepRead p o n
  | .mxbuf c o => (List.range n).map fun i => s.bufByte c (o + i)
  | _ => s.peekN (plainAddr a) n

/-- The physical pages of a range of a partition's window (R42). -/
def State.keepPages (s : State) (p o n : Nat) : List Nat := ((s.walkGen p).2.drop (o / 4096)).take ((o % 4096 + n + 4095) / 4096)

/-- The halves whose banks hold them (R182, R191). -/
def State.keepHalves (s : State) (p o n : Nat) : List Nat := nodups ((s.keepPages p o n).map fun q => if q < 24576 then 0 else 1)

/-- The page reads of an access to the window (R384). -/
def State.keepOps (s : State) (a n : Nat) : State :=
  match locate a with
  | .keep p o => s.pageOps (s.keepPages p o n)
  | _ => s

/-- KS_GEN, KS_GEPOCH, KS_SEQ and KS_PAGES report the winning root (R190). -/
def State.ksReport (s : State) : State :=
  let s := s.setVal .KS_SEQ [0] (match s.ks.winner with | some _ => rootSeq s.rootNow | none => 0)
  s.each (List.range 8) fun s p =>
    let g := s.genNow p
    ((s.setVal .KS_GEN [p] g.gen).setVal .KS_GEPOCH [p] g.epoch).setVal .KS_PAGES [p] (g.npages % 2 ^ 16)

/-- The root scan of a start (R190, R191): the valid slot with the highest SEQ wins; pages it does not reference are freed, unless the
west half starts alone; a generation that reaches east pages is then marked unreachable. -/
def State.rootScan (s : State) (westOnly : Bool) : State :=
  let slots := (List.range (if westOnly then 64 else 128)).filter fun i => rootValid (mget s.ks.roots i).bytes
  let win := slots.foldl (fun best i =>
    match best with
    | none => some i
    | some j => if rootSeq (mget s.ks.roots i).bytes > rootSeq (mget s.ks.roots j).bytes then some i else best) none
  let s := s.modKs fun k => { k with winner := win, queue := [], cur := none, restores := [] }
  let keep := (List.range 8).flatMap fun p => s.genPages p
  let drop := if westOnly then [] else (s.ks.pages.filter fun e => e.2.used && !keep.contains e.1).map (·.1)
  let s := s.each drop fun s p => s.setPage p fun g => { g with used := false, bytes := [], key := 0, genw := 0, lpn := 0 }
  let s := s.setFld .KS_DISCARD [0] KS_DISCARD_FREED drop.length
  let s := s.setFld .KS_DISCARD [0] KS_DISCARD_SLOT (win.getD 0)
  let s := s.each (List.range 8) fun s p =>
    s.setFld .KS_STATUS [p] KS_STATUS_UNREACH (if westOnly && (s.genPages p).any (fun q => decide (q ≥ 24576)) then 1 else 0)
  s.ksReport.ksCounts

/-- The slot index the next root takes in each area (R187, R193): the one after the winner's. -/
def State.nextRoot (s : State) : Nat :=
  match s.ks.winner with
  | some i => (i % 64 + 1) % 64
  | none => 0

/-- A root record written to a slot (R187): slots 0 to 63 are the first pages of the west half, 64 to 127 of the east (R182; log entry 17). -/
def State.writeRoot (s : State) (slot : Nat) (bs : List Byte) : State :=
  (s.pageOps [slot % 64 + slot / 64 * 24576]).modKs fun k =>
    { k with roots := mmod k.roots slot fun r => { bytes := bs, progs := r.progs + 1 } }

/-- The keys of the eight partitions. -/
def State.ksKeys (s : State) : List Nat := (List.range 8).map fun p => mget s.ks.keys p

/-- The generations of the winning root with one partition's replaced. -/
def State.gensWith (s : State) (p : Nat) (g : GenRec) : List GenRec :=
  (List.range 8).map fun q => if q = p then g else s.genNow q

/-! ## The image -/

/-- The section of a core (R185): live weight bytes, LIVE mask, candidate table. -/
def State.section (s : State) (c n : Nat) : List Byte :=
  let nent := s.val .LR_NENT [c, n]
  let lo := s.val .LR_ENT [c, n]
  let slot := s.fld .LR_CORE_CFG [c, n] LR_CORE_CFG_SLOT
  let ws := (List.range nent).map fun j => BitVec.ofNat 8 (s.liveWeight c n slot (lo + j) (s.cword c n (lo + j)))
  let mask := (List.range ((nent + 7) / 8)).map fun b =>
    BitVec.ofNat 8 (((List.range 8).map fun i =>
      if 8 * b + i < nent ∧ (s.cword c n (lo + 8 * b + i)).testBit 10 then 2 ^ i else 0).sum)
  ws ++ mask ++ s.peekN (coreAddr c n (s.candAddr c n 0)) (8 * s.val .LR_CAND_CFG [c, n])

/-- The length of a core's section. -/
def State.sectionLen (s : State) (c n : Nat) : Nat :=
  s.val .LR_NENT [c, n] + (s.val .LR_NENT [c, n] + 7) / 8 + 8 * s.val .LR_CAND_CFG [c, n]

/-- Index pages of an image (R185). -/
def State.indexPages (s : State) (k : Nat) : Nat := ((s.setCores k).length + 255) / 256

/-- The bytes of a set's image (R185): index pages, then the sections. -/
def State.image (s : State) (k : Nat) : List Byte :=
  let cores := s.setCores k
  let head := 4096 * s.indexPages k
  let r := cores.foldl (fun (acc : List Byte × Nat) x =>
    let (c, n) := x
    let d := leBytes 16 (c + 128 + n * 2 ^ 8 + k * 2 ^ 12 + s.val .LR_NENT [c, n] * 2 ^ 16 + s.val .LR_CAND_CFG [c, n] * 2 ^ 40
      + acc.2 * 2 ^ 64 + (s.val .LR_SET_EPOCH [0, k] % 2 ^ 32) * 2 ^ 96)
    (acc.1 ++ d, acc.2 + s.sectionLen c n)) ([], head)
  fit head r.1 ++ cores.flatMap fun x => s.section x.1 x.2

def State.imageLen (s : State) (k : Nat) : Nat :=
  4096 * s.indexPages k + ((s.setCores k).map fun x => s.sectionLen x.1 x.2).sum

/-- Data pages of an image, and table pages. -/
def dataPages (len : Nat) : Nat := (len + 4095) / 4096
def tablePages (len : Nat) : Nat := (dataPages len + 255) / 256

/-! ## Commits -/

/-- Has an enabled set a writer group that runs: neither halted nor disabled (R187)? -/
def State.writersRun (s : State) (k : Nat) : Bool :=
  (s.getLs k).on && (s.writers k).any fun g => s.wgState g != wsHalted

/-- Has a partition an active service schedule (R188, R301)? -/
def State.serviceRuns (s : State) (p : Nat) : Bool :=
  (List.range 64).any fun n => s.schState n == 2 && s.bit .TL_SCFG [0, n] TL_SCFG_SVC && s.fld .TL_SCFG [0, n] TL_SCFG_PART == p

/-- Is a commit of a partition waiting (R186)? -/
def State.commitWaits (s : State) (p : Nat) : Bool := s.ks.queue.any fun x => x.part == p

/-- A commit queued (R186, R187). -/
def State.queueCommit (s : State) (k p : Nat) (auto : Bool) : State :=
  (s.modKs fun q => { q with queue := q.queue ++ [{ set := k, part := p, auto := auto, waitFlip := !auto && s.writersRun k }] }).setFld
    .KS_STATUS [p] KS_STATUS_WAITING 1

/-- The automatic request of a flip (R186): dropped with a report while a commit of the partition waits, and in the split state. The check of
R186 runs at a write of KS_CMD only, so the staging area is not tested here (log entry 163). -/
def State.autoCommit (s : State) (k : Nat) : State :=
  let every := s.lsVal k .LR_SET_COMMIT
  let p := s.lsFld k .LR_SET_CFG LR_SET_CFG_PART
  if every = 0 ∨ (s.getLs k).flips % every ≠ 0 then s
  else if s.commitWaits p then s.ksPost p 0x0416
  else if s.bit .KS_STATUS [p] KS_STATUS_SPLIT then s.ksPost p 0x0413
  else s.queueCommit k p true

/-- Every core has reported the flip (R161, R163, R164, R180, R186): the epoch number rises, the writers leave the barrier, steps lost
there are counted, a waiting commit's flip has come and an automatic one may be asked for. -/
def State.flipComplete (s : State) (k : Nat) : State :=
  if s.lsStage k == lsFlip && (s.setActive2 k).all (fun x => (s.getLs k).reports.contains (eidOf x.1 x.2)) then
    let s := s.bump .LR_SET_EPOCH [0, k]
    let s := s.each (s.writers k) fun s g =>
      if (s.getWg g).epWait then s.bump .LR_SET_LOCKWAIT [0, k] (s.lockLost g) else s
    let s := s.releaseBarrier k
    let s := (s.modLs k fun l => { l with reports := [], flips := l.flips + 1 }).setStage k lsRunning
    let s := s.modKs fun q => { q with queue := q.queue.map fun x => if x.set = k then { x with waitFlip := false } else x }
    s.autoCommit k
  else s

/-- Has a flip of a set begun on some core and not completed (R180, R187)? -/
def State.midFlip (s : State) (k : Nat) : Bool := s.lsStage k == lsFlip && (s.getLs k).reports != []

/-- The sections of a set's cores in an image at a place (R185): cluster, address, bytes. -/
def State.sectionSpans (s : State) (k at' : Nat) : List (Nat × Nat × Nat) :=
  ((s.setCores k).foldl (fun (acc : List (Nat × Nat × Nat) × Nat) x =>
    (acc.1 ++ [(x.1, acc.2, s.sectionLen x.1 x.2)], acc.2 + s.sectionLen x.1 x.2)) ([], at' + 4096 * s.indexPages k)).1

/-- May the commit at the front start its capture (R187)? Not in the midst of a flip, and only while each core of the set has the partition's
service circuits to its section of the staging area and back (R188, R301). -/
def State.captureReady (s : State) (x : Commit) : Bool :=
  (x.auto || !x.waitFlip || !s.writersRun x.set) && !s.midFlip x.set && s.serviceRuns x.part &&
  (s.sectionSpans x.set (s.val .KS_STAGE [x.part])).all fun y => s.svcReady x.part (y.1 * 8 + 2) y.2.1 y.2.2

/-- The image goes to the partition's staging area in LPDDR (R187, R188): each section by its core's circuits, the index pages by the keep-store
unit; beats and lines are counted (R324, R392). -/
def State.captureBytes (s : State) (k at' : Nat) (img : List Byte) : State :=
  let s := s.each (s.sectionSpans k at') fun s y => s.svcBeats (y.1 * 8 + 2) y.2.1 y.2.2 true
  (s.dmLines at' img.length true).poke at' img

/-- The capture of the commit at the front starts (R186, R187), once the channels of the staging area serve (R378); a flip asked for and not
begun waits, SUSPENDED. -/
def State.captureStart (s : State) : State :=
  match s.ks.cur, s.ks.queue with
  | none, x :: rest =>
    if !s.captureReady x then s
    else if !s.dmReady (s.val .KS_STAGE [x.part]) (s.imageLen x.set) then s.dmWake (s.val .KS_STAGE [x.part]) (s.imageLen x.set)
    else
      let img := s.image x.set
      let stage := s.val .KS_STAGE [x.part]
      let s := s.captureBytes x.set stage img
      let x := { x with phase := 1, len := img.length, stage := stage, epoch := s.val .LR_SET_EPOCH [0, x.set] }
      let s := s.modKs fun k => { k with queue := rest, cur := some x }
      let s := if s.lsStage x.set = lsFlip then s.setStage x.set lsSuspended else s
      (s.setFld .KS_STATUS [x.part] KS_STATUS_WAITING 0).ksShow x.part
  | _, _ => s

/-- A commit ends without a new generation (R187, R194): the previous generation stays, its new pages return to the pool; the code goes
to the set and to the partition (R200). -/
def State.commitFail (s : State) (x : Commit) (code : Nat) : State :=
  let keep := (List.range 8).flatMap fun p => s.genPages p
  let drop := (x.pages ++ x.tables ++ [x.dir]).filter fun p => !keep.contains p && !rootPage p
  let s := s.each drop fun s p => s.setPage p fun g => { g with used := false, bytes := [], key := 0, genw := 0, lpn := 0 }
  let s := s.modKs fun k => { k with cur := none }
  let s := if s.lsStage x.set = lsSuspended then s.setStage x.set lsFlip else s
  let s := s.setFld .LR_SET_STATUS [0, x.set] LR_SET_STATUS_REASON code
  ((s.ksShow x.part).ksPost x.part code).ksCounts

/-- What programming some pages has come to: the pages by position, the position of the next program, and a code, 0 while all goes well. -/
structure Prog where
  pages : List Nat := []
  cnt : Nat := 0
  code : Nat := 0

/-- A page of the new generation (R187): one equal to the old is kept and counted; another is programmed. -/
def State.putPage (s : State) (bad : List Nat) (key gen lpn : Nat) (old : Option Nat) (bs : List Byte) (x : Prog) : State × Prog :=
  let s := s.pageOps old.toList
  match old.filter fun q => (s.page q).bytes == bs with
  | some q => (s.ksBump .KS_PGSKIP, { x with pages := x.pages ++ [q] })
  | none =>
    let r := s.programPage 49152 bad x.cnt key gen lpn bs
    (r.1, { pages := x.pages ++ r.2.1.toList, cnt := r.2.2.1, code := r.2.2.2 })

/-- The data pages of a capture compared and programmed (R187): read from the staging area, each unit granted at its channel (R384, R392). -/
def State.programData (s : State) (bad : List Nat) (x : Commit) (gen key : Nat) : State × Prog :=
  let base := x.stage
  let old := (s.walkGen x.part).2
  let s := (s.each (s.dmUnits base x.len) fun s y => s.arbOnce y.1).dmLines base x.len false
  (List.range (dataPages x.len)).foldl (fun acc i =>
    if acc.2.code ≠ 0 then acc
    else acc.1.putPage bad key gen i old[i]? (fit 4096 (acc.1.peekN (base + 4096 * i) (min 4096 (x.len - 4096 * i)))) acc.2) (s, {})

/-- The table pages (R184, R187): one whose 256 entries all stay as they are is kept. The spec gives table pages and the directory page no
logical number; they take 2^24 + t and 2^25 (log entry 95). -/
def State.programTables (s : State) (bad : List Nat) (x : Commit) (gen key cnt : Nat) (pages : List Nat) : State × Prog :=
  let old := (s.walkGen x.part).1
  (List.range (tablePages x.len)).foldl (fun acc t =>
    if acc.2.code ≠ 0 then acc
    else acc.1.putPage bad key gen (2 ^ 24 + t) old[t]? (fit 4096 (((pages.drop (256 * t)).take 256).flatMap acc.1.ksEntry)) acc.2)
    (s, { cnt := cnt })

/-- A new key drawn from the DRBG (R532), again while its halves are equal; the first argument bounds the draws (log entry 174). -/
def State.drawKey : Nat → State → State × Nat
  | 0, s => ({ s with fresh := s.fresh + 8 }, s.fresh + 1)
  | n + 1, s =>
    if (ksKey (s.fresh + 1)).take 32 = (ksKey (s.fresh + 1)).drop 32 then State.drawKey n { s with fresh := s.fresh + 8 }
    else ({ s with fresh := s.fresh + 8 }, s.fresh + 1)

/-- A partition's key number, drawn at its first commit (R532). -/
def State.takeKey (s : State) (p : Nat) : State × Nat :=
  if mget s.ks.keys p ≠ 0 then (s, mget s.ks.keys p)
  else
    let d := s.drawKey 16
    (d.1.modKs fun k => { k with keys := mput k.keys p d.2 }, d.2)

/-- The root record a commit writes (R187, R189). -/
def State.commitRoot (s : State) (x : Commit) : List Byte :=
  let seq := (match s.ks.winner with | some _ => rootSeq s.rootNow | none => 0) + 1
  let n := x.pages.length + x.tables.length + 1
  let g : GenRec := { gen := (s.genNow x.part).gen + 1, dir := x.dir, npages := n, epoch := x.epoch, sets := 2 ^ x.set }
  rootBytes s.kekKs seq (s.gensWith x.part g) s.ksKeys

/-- Pages that no generation references any longer return to the pool (R187), but for those of the commit that runs. -/
def State.freeUnreferenced (s : State) : State :=
  let keep := ((List.range 8).flatMap fun p => s.genPages p) ++ (match s.ks.cur with | some x => x.pages ++ x.tables ++ [x.dir] | none => [])
  let drop := (s.ks.pages.filter fun e => e.2.used && !keep.contains e.1).map (·.1)
  s.each drop fun s p => s.setPage p fun g => { g with used := false, bytes := [], key := 0, genw := 0, lpn := 0 }

/-- The east root copy is written, and the generation is committed (R187). -/
def State.commitEast (s : State) (x : Commit) : State :=
  let s := s.writeRoot (64 + x.slot) (mget s.ks.roots x.slot).bytes
  let s := s.modKs fun k => { k with winner := some x.slot, cur := none }
  ((s.freeUnreferenced.ksShow x.part).ksBump .KS_COMMITS).ksReport.ksCounts

/-- Words of a set's learning state that a capture has read uncorrectable (R195): the set's writers halt, and the core records the address.
The image holds the bytes as they stand (log entry 164). `bad`: device addresses. -/
def State.captureErrs (s : State) (k : Nat) (bad : List Nat) : State :=
  s.each bad fun s a =>
    match locate a with
    | .core c n o => if (s.setCores k).contains (c, n) then s.learnEcc c n k (o / 8 * 8) else s
    | _ => s

/-- A phase of the running commit completes (R187, R190): capture, with the device addresses it has read uncorrectable; compare and program,
with the read-backs that fail; the west root copy; the east root copy, with which the generation is committed. -/
def State.commitPhase (s : State) (bad : List Nat) : State :=
  match s.ks.cur with
  | none => s
  | some x =>
    if s.ks.stopped && x.phase != 1 then s
    else if x.phase = 1 then
      let s := (s.captureErrs x.set bad).modKs fun k => { k with cur := some { x with phase := 2 } }
      let s := if s.lsStage x.set = lsSuspended then s.setStage x.set lsFlip else s
      s.ksShow x.part
    else if x.phase = 2 then
      let gen := (s.genNow x.part).gen + 1
      if mget s.ks.keys x.part = 0 ∧ s.sec.rngBad then s.commitFail x 0x1009
      else
      let kk := s.takeKey x.part
      let d := kk.1.programData bad x gen kk.2
      if d.2.code ≠ 0 then d.1.commitFail { x with pages := d.2.pages } d.2.code
      else
        let t := d.1.programTables bad x gen kk.2 d.2.cnt d.2.pages
        if t.2.code ≠ 0 then t.1.commitFail { x with pages := d.2.pages, tables := t.2.pages } t.2.code
        else
          -- the directory page is never kept
          let r := t.1.putPage bad kk.2 gen (2 ^ 25) none (fit 4096 (t.2.pages.flatMap t.1.ksEntry)) { cnt := t.2.cnt }
          match r.2.pages with
          | [] => r.1.commitFail { x with pages := d.2.pages, tables := t.2.pages } r.2.code
          | dir :: _ =>
            let s := r.1.modKs fun k => { k with cur := some { x with phase := 3, pages := d.2.pages, tables := t.2.pages, dir := dir } }
            (s.ksShow x.part).ksCounts
    else if x.phase = 3 then
      let slot := s.nextRoot
      let bs := s.commitRoot x
      ((s.writeRoot slot bs).modKs fun k => { k with cur := some { x with phase := 4, slot := slot } }).ksCounts
    else s.commitEast x

/-- A commit abandoned by a reset, a release, a life-cycle change or the split (R194, R195, R540): before its west root copy is
complete the previous generation stays; after it the new one stands (R190). -/
def State.commitAbandon (s : State) (code : Nat) : State :=
  match s.ks.cur with
  | none => s
  | some x =>
    if x.phase = 4 then
      let s := s.modKs fun k => { k with winner := some x.slot, cur := none }
      (s.freeUnreferenced.ksShow x.part).ksReport.ksCounts
    else s.commitFail x code

/-- The waiting commits of some partitions are abandoned, with a code (R186, R200). -/
def State.queueAbandon (s : State) (hit : Nat → Bool) (code : Nat) : State :=
  let s := s.each (s.ks.queue.filter fun x => hit x.part) fun s x =>
    ((s.setFld .KS_STATUS [x.part] KS_STATUS_WAITING 0).setFld .LR_SET_STATUS [0, x.set] LR_SET_STATUS_REASON code).ksPost x.part code
  s.modKs fun k => { k with queue := k.queue.filter fun x => !hit x.part }

/-- The split abandons a commit in progress and those that wait (R195; log entry 70). -/
def State.commitsSplit (s : State) : State := (s.commitAbandon 0x0485).queueAbandon (fun _ => true) 0x0485

/-! ## Restores -/

/-- The committed image of a partition. -/
def State.committed (s : State) (p : Nat) : List Byte := (s.walkGen p).2.flatMap fun q => fit 4096 (s.page q).bytes

/-- The descriptors of a committed image for a set, in order (R185): cluster, core, NENT, NCAND, OFFSET, EPOCH. The index pages end where the
first section starts, which its OFFSET gives. -/
def imageIndex (img : List Byte) (k : Nat) : List (Nat × Nat × Nat × Nat × Nat × Nat) :=
  let pages := min 6 (bitsOf (leNat (slice img 0 16)) 64 32 / 4096)
  ((List.range (256 * pages)).map fun i => leNat (slice img (16 * i) 16)).takeWhile (fun d => d.testBit 7) |>.filterMap fun d =>
    if bitsOf d 12 4 = k then some (bitsOf d 0 7, bitsOf d 8 4, bitsOf d 16 24, bitsOf d 40 16, bitsOf d 64 32, bitsOf d 96 32)
    else none

/-- Do the image's cores, NENT and NCAND agree with the set (0x0415)? An image with no section of the set does not. -/
def State.imageFits (s : State) (p k : Nat) : Bool :=
  imageIndex (s.committed p) k != [] && (imageIndex (s.committed p) k).map (fun d => (d.1, d.2.1, d.2.2.1, d.2.2.2.1)) ==
    (s.setCores k).map fun x => (x.1, x.2, s.val .LR_NENT [x.1, x.2], s.val .LR_CAND_CFG [x.1, x.2])

/-- One core's section laid over its tables (R192). -/
def State.restoreCore (s : State) (img : List Byte) (d : Nat × Nat × Nat × Nat × Nat × Nat) : State :=
  let (c, n, nent, ncand, off, _) := d
  let lo := s.val .LR_ENT [c, n]
  let slot := s.fld .LR_CORE_CFG [c, n] LR_CORE_CFG_SLOT
  let s := s.each (List.range nent) fun s j =>
    let w := (img.getD (off + j) 0).toNat
    let live := (img.getD (off + nent + j / 8) 0).toNat.testBit (j % 8)
    let e := s.cword c n (lo + j)
    let s := s.cpoke c n (4 * (lo + j)) 4 (setBits (setBits e 0 8 w) 10 1 (if live then 1 else 0))
    s.cpoke c n (s.shdAddr c n j) 1 w
  let candOff := off + nent + (nent + 7) / 8
  let s := s.each (List.range ncand) fun s i =>
    let x := setBits (leNat (slice img (candOff + 8 * i) 8)) 0 12 0
    let s := s.cpoke c n (s.candAddr c n i) 8 x
    if x.testBit 26 then
      let wa := (s.axHdr c n slot (bitsOf x 48 16)).start + bitsOf x 12 14
      let e := s.cword c n wa
      s.cpoke c n (4 * wa) 4 (setBits (setBits e 17 15 (bitsOf x 33 15)) 11 6 (bitsOf x 27 6))
    else s
  s.wipe (coreAddr c n (s.selAddr c n 0)) (4 * ((nent + 2047) / 2048))

/-- The oldest restore of a partition finishes (R192): the sections are laid over the tables, the select bits cleared, and LR_SET_EPOCH
set. -/
def State.restoreDone (s : State) (p : Nat) : State :=
  match s.ks.restores.find? fun x => x.part == p with
  | none => s
  | some x =>
    if !s.serviceRuns p then s else
    let img := s.committed p
    let idx := imageIndex img x.set
    let s := s.pageOps (s.walkGen p).2
    let s := s.each idx fun s d => s.restoreCore img d
    let s := s.setVal .LR_SET_EPOCH [0, x.set] (s.genNow p).epoch
    let s := s.modKs fun k => { k with restores := k.restores.erase x }
    (s.ksShow p).ksBump .KS_RESTORES

/-- A restore abandoned (R192): by a reset of a core of its set, or the release of its partition. -/
def State.restoreAbandon (s : State) (x : Commit) : State :=
  let s := s.setFld .LR_SET_STATUS [0, x.set] LR_SET_STATUS_REASON 0x0484
  ((s.modKs fun k => { k with restores := k.restores.erase x }).ksShow x.part).ksPost x.part 0x0484

/-- Every restore of a partition abandoned. -/
def State.restoresAbandon (s : State) (p : Nat) : State := s.each (s.ks.restores.filter fun x => x.part == p) fun s x => s.restoreAbandon x

/-! ## Release -/

/-- The keep-store side of a partition's release (R42, R532): its commits abandoned, a root with its GEN 0 and its key entry empty, its
pages returned. Another partition's commit whose west root is written completes first (log entry 165). -/
def State.ksRelease (s : State) (p : Nat) : State :=
  let s := match s.ks.cur with
    | some x => if x.part = p then s.commitAbandon 0x0484 else if x.phase = 4 then s.commitEast x else s
    | none => s
  let s := (s.queueAbandon (· == p) 0x0484).restoresAbandon p
  if (s.genNow p).gen = 0 ∧ mget s.ks.keys p = 0 then s
  else
    let s := s.modKs fun k => { k with keys := mdel k.keys p }
    let seq := (match s.ks.winner with | some _ => rootSeq s.rootNow | none => 0) + 1
    let bs := rootBytes s.kekKs seq (s.gensWith p {}) s.ksKeys
    let slot := s.nextRoot
    let s := ((s.writeRoot slot bs).writeRoot (64 + slot) bs).modKs fun k => { k with winner := some slot }
    (s.freeUnreferenced.setFld .KS_STATUS [p] KS_STATUS_UNREACH 0).ksReport.ksCounts

/-- Every root slot erased at a life-cycle change (R42, R537). -/
def State.ksErase (s : State) : State :=
  let s := (s.commitAbandon 0x0484).modKs fun k =>
    { k with roots := k.roots.filterMap fun r => if r.2.progs = 0 then none else some (r.1, { r.2 with bytes := [] }),
             winner := none, queue := [], restores := [], keys := [] }
  let s := s.each (List.range 8) fun s p => (s.setFld .KS_STATUS [p] KS_STATUS_UNREACH 0).ksShow p
  s.freeUnreferenced.ksReport.ksCounts

end Sys2Proof.Machine
end

