-- ==== Sys2Proof/Machine/Seam.lean ====
section
/-! DEFINITION. The seam in service (R436 to R450): cells, sequence numbers and replay, credits, capacity, delivery into the far half.
Direction 0 is W→E and 1 is E→W; a direction's send side lies in the half of its number. -/

namespace Sys2Proof.Machine

/-! ## Links and capacity -/

def State.inSvc (s : State) (l : Nat) : Bool := (s.fld .SM_STATUS [] SM_STATUS_INSVC).testBit l

/-- State of a direction of a link (R439, R463). -/
def State.linkState (s : State) (d l : Nat) : Nat := s.fld .SM_LINK [l] (if d = 0 then SM_LINK_STATEW else SM_LINK_STATEE)

/-- Cell rate of a direction of a link in service, in 0.1 G cells/s (R436, R441). -/
def State.linkRate (s : State) (d l : Nat) : Nat :=
  if !s.inSvc l then 0 else match s.linkState d l with | 2 => 32 | 1 => 16 | _ => 0

/-- C of a direction in 0.1 G cells/s (R441). -/
def State.seamC (s : State) (d : Nat) : Nat := ((List.range 4).map (s.linkRate d)).sum

/-- The slower half's fabric clock in 0.1 GHz (R441). -/
def State.fSlow (s : State) : Nat := min (s.fld .CK_FAB [0] CK_FAB_EFF) (s.fld .CK_FAB [1] CK_FAB_EFF)

/-- TSLOTS of a capacity C at a slow fabric clock (R441): T = C − min(C ÷ 4, 2.4 G). -/
def tslots (cells fslow : Nat) : Nat := if fslow = 0 then 0 else min ((4 * cells - min cells 96) * 1024 / (4 * fslow)) 6144

def capReg (d : Nat) : Reg := if d = 0 then .SM_CAPW2E else .SM_CAPE2W
def loadReg (d : Nat) : Reg := if d = 0 then .SM_LOADW2E else .SM_LOADE2W

/-- The slots that a throttle leaves a crossing of COUNT slots, before the clocks reduce them (R453). -/
def Sch.throttled (x : Sch) (d count : Nat) : Nat :=
  match x.thr.find? fun y => y.1 == d with
  | some y => if y.2.1 < y.2.2 then count * y.2.1 / y.2.2 else count
  | none => count

/-- A direction's load with its throttled crossings at their kept slots (R453). -/
def State.throttledLoad (s : State) (d : Nat) : Nat :=
  ((List.range 64).map fun n => (((s.getSch n).cross.filter fun y => y.dir == d).map fun y => (s.getSch n).throttled d y.count).sum).sum

/-- The published capacities after a change of links or clocks (R441, R449). -/
def State.updateCaps (s : State) : State :=
  s.each [0, 1] fun s d => s.setVal (capReg d) [] (tslots (s.seamC d) s.fSlow * 2 ^ 16 + s.seamC d)

/-- Does a link remain in service in a direction (R454)? -/
def State.dirAlive (s : State) (d : Nat) : Bool := (List.range 4).any fun l => s.linkRate d l != 0

/-! ## Crossings (R446) -/

/-- The crossing records of a direction, over every schedule. -/
def State.crossings (s : State) (d : Nat) : List XRec :=
  (List.range 64).flatMap fun n => (s.getSch n).cross.filter fun y => y.dir == d

/-- The link that a new crossing goes to: the one in service with the fewest crossing slots, the lowest of equals (log entry 72). -/
def State.pickLink (s : State) (d : Nat) : Nat :=
  let load (l : Nat) : Nat := (((s.crossings d).filter fun y => y.link == l).map fun y => y.count).sum
  let ls := (List.range 4).filter fun l => s.linkRate d l != 0
  (ls.find? fun l => ls.all fun k => decide (load l ≤ load k)).getD 0

/-- The lowest crossing index of a direction that no record has. -/
def State.freeCross (s : State) (d : Nat) : Nat :=
  ((List.range 1024).find? fun i => !((s.crossings d).any fun y => y.index == i)).getD 0

/-- A record entered in a schedule with its index and link. -/
def State.addCross (s : State) (n : Nat) (y : XRec) : State :=
  let y := { y with index := s.freeCross y.dir, link := s.pickLink y.dir }
  s.modSch n fun x => { x with cross := x.cross ++ [y] }

/-- The crossings of a link that has failed move to the remaining links (R452). -/
def State.moveCross (s : State) (l : Nat) : State :=
  s.each (List.range 64) fun s n =>
    s.each ((s.getSch n).cross.filter fun y => y.link == l) fun s y =>
      let k := (s.modSch n fun x => { x with cross := x.cross.filter (· != y) }).pickLink y.dir
      s.modSch n fun x => { x with cross := x.cross.map fun z => if z = y then { z with link := k } else z }

/-- The link a beat of a crossing goes out on; a crossing whose schedule has gone has none, and its beat takes the lowest in service. -/
def State.crossLink (s : State) (d i : Nat) : Nat :=
  match (s.crossings d).find? fun y => y.index == i with
  | some y => y.link
  | none => ((List.range 4).find? fun l => s.linkRate d l != 0).getD 0

/-! ## Cells -/

def Cargo.vl : Cargo → Nat
  | .event _ => 0
  | .beat _ => 1
  | .ctl _ => 2

/-- Is a cell of a virtual lane waiting for a link (R443, R446, R450)? -/
def State.cellWaits (s : State) (d l vl : Nat) : Bool :=
  let x := s.getSdir d
  let mine (c : Cargo) : Bool := match c with
    | .event _ => true
    | .beat b => s.crossLink d b.cross == l
    | .ctl _ => s.bit .SM_LINK [l] SM_LINK_CTL
  x.moved.any (fun c => c.vl == vl && mine c) ||
  (match vl with
   | 0 => x.send != [] && decide (x.evUsed < 256)
   | 1 => x.tq.any fun b => s.crossLink d b.cross == l
   | _ => x.msgs != [] && s.bit .SM_LINK [l] SM_LINK_CTL)

/-- The flits of a cell counted in a half as exported (R456). -/
def State.exported (s : State) (h : Nat) (fs : List MFlit) : State :=
  s.each fs fun s m => match s.groupOf (fWorld m.f) with
    | some g => s.modWg g fun w => let t := w.tally h; w.setTally h { t with exp := t.exp + 1 }
    | none => s
def State.imported (s : State) (h : Nat) (fs : List MFlit) : State :=
  s.each fs fun s m => match s.groupOf (fWorld m.f) with
    | some g => s.modWg g fun w => let t := w.tally h; w.setTally h { t with imp := t.imp + 1 }
    | none => s

/-- Has the receiver accepted a cell of a lane: its SEQ lies before the one expected (R438)? -/
def SLane.accepted (x : SLane) (seq : Nat) : Bool := (x.exp + 1024 - seq) % 1024 != 0 && decide ((x.exp + 1024 - seq) % 1024 ≤ 256)

/-- An ACK frees the cells of a lane that the receiver has accepted (R438), and counts their flits as exported (R456). -/
def State.ackFree (s : State) (d l : Nat) : State :=
  let x := s.getLane d l
  let s := s.each (x.buf.filter fun b => x.accepted b.1) fun s b => match b.2 with | .event fs => s.exported d fs | _ => s
  s.modLane d l fun x => { x with buf := x.buf.filter fun b => !x.accepted b.1 }

/-- What the send side would put into the next cell of a virtual lane on a link (R443, R444, R446, R447, R450, R452), and the send side
without it: cells moved from a failed link go first, and golden flits ahead of the others. -/
def State.pack (s : State) (d l vl : Nat) : Option (Cargo × Sdir) :=
  let x := s.getSdir d
  let mine (c : Cargo) : Bool := c.vl == vl && (match c with
    | .event _ => true
    | .beat b => s.crossLink d b.cross == l
    | .ctl _ => s.bit .SM_LINK [l] SM_LINK_CTL)
  match x.moved.find? mine with
  | some c => some (c, { x with moved := x.moved.erase c })
  | none =>
    match vl with
    | 0 =>
      let ord := (x.send.filter fun y => s.isGolden d y.2.f) ++ (x.send.filter fun y => !s.isGolden d y.2.f)
      let take := ord.take (min 4 (256 - x.evUsed))
      if take = [] then none
      else some (.event (take.map (·.2)), { x with send := take.foldl (fun l y => l.erase y) x.send, evUsed := x.evUsed + take.length })
    | 1 =>
      match x.tq.find? fun b => s.crossLink d b.cross == l with
      | none => none
      | some b => some (.beat b, { x with tq := x.tq.erase b })
    | _ =>
      match x.msgs with
      | [] => none
      | m :: t => if s.bit .SM_LINK [l] SM_LINK_CTL then some (.ctl m, { x with msgs := t }) else none

/-- The contents of an accepted cell reach the far side (R445, R447); a beat of a transfer that has ended is dropped (log entry 84). -/
def State.landCell (s : State) (d : Nat) : Cargo → State
  | .event fs => ((s.modSdir d fun x => { x with recv := x.recv ++ fs }).bump .SM_EVX [d] fs.length).imported (1 - d) fs
  | .beat b =>
    let live := (s.getXfer b.key).own != .none && (s.getXfer b.key).fin == 0
    (s.modSdir d fun x => if live then { x with fifo := x.fifo ++ [b] } else { x with tRet := x.tRet + 1 }).bump .SM_TBEATS [d]
  | .ctl ws => s.modSdir d fun x => { x with got := x.got ++ [ws] }

/-- A new cell of a virtual lane, which takes the next SEQ and a place of the replay buffer (R438). -/
def State.newCell (s : State) (d l vl : Nat) : Option (Cargo × State) :=
  if (s.getLane d l).buf.length ≥ 256 then none
  else (s.pack d l vl).map fun r =>
    (r.1, (s.modSdir d fun _ => r.2).modLane d l fun x => { x with next := (x.next + 1) % 1024, buf := x.buf ++ [(x.next, r.1)] })

/-- The cell that a lane's receiver expects next: one sent before and not accepted, or a new one (R438). -/
def State.nextCell (s : State) (d l vl : Nat) : Option (Cargo × Bool × State) :=
  let x := s.getLane d l
  match x.buf.find? fun b => b.1 == x.exp with
  | some b => some (b.2, true, s)
  | none => (s.newCell d l vl).map fun r => (r.1, false, r.2)

/-- Does a lane wait for a cell that was sent and lost? -/
def State.cellLost (s : State) (d l : Nat) : Bool := (s.getLane d l).buf.any fun b => b.1 == (s.getLane d l).exp

/-- The receiver discards a cell and owes a replay request (R438). -/
def State.cellDiscard (s : State) (d l : Nat) : State := s.modLane d l fun x => { x with nak := true }

/-- SEAM_DATA_CELL of a working link (R438, R443, R445): the next cell of a virtual lane, when no cell of a lane before it in the order of R443
waits for the link, arrives; with a correct CRC it is accepted, and the ACK of the other direction that it carries frees cells; otherwise it is
discarded, and so is a later one that the sender sends while a lost one is expected. The second component says that the link's direction has
failed 16 replays of one cell (R451). -/
def State.seamCell (s : State) (d l vl : Nat) (fate : CellFate) : State × Bool :=
  if !s.inSvc l || s.linkRate d l == 0 || s.isSplit || (vl < 2 && s.cellWaits d l 2) || (vl < 1 && s.cellWaits d l 1) then (s, false)
  else if fate.ahead && s.cellLost d l then
    match s.newCell d l vl with
    | none => (s, false)
    | some (_, s) => ((((s.bump .SM_CELLS [l]).when (!fate.good) fun s => s.bump .SM_CRCERR [l]).cellDiscard d l), false)
  else
    match s.nextCell d l vl with
    | none => (if vl = 0 && (s.getSdir d).send != [] then s.bump .SM_EVWAIT [d] else s, false)
    | some (c, again, s) =>
      let s := s.bump .SM_CELLS [l]
      if fate.good then
        (((s.modLane d l fun x => { x with exp := (x.exp + 1) % 1024, fails := 0, nak := false }).landCell d c).ackFree (1 - d) l, false)
      else
        let s := (s.bump .SM_CRCERR [l]).cellDiscard d l
        let s := s.modLane d l fun x => { x with fails := if again then x.fails + 1 else 0 }
        (s, decide ((s.getLane d l).fails ≥ 16))

/-- A replay request that the receiver owes reaches the sender (R438): the ACK it carries frees cells, and the sender resends from ACK + 1. -/
def State.seamReplay (s : State) (d l : Nat) : State :=
  if s.inSvc l && !s.isSplit && (s.getLane d l).nak then ((s.modLane d l fun x => { x with nak := false }).ackFree d l).bump .SM_REPLAY [l] else s

/-- An idle cell travelling in direction d carries the ACK of the other direction (R438). -/
def State.seamIdle (s : State) (d l : Nat) : State := if s.inSvc l && !s.isSplit then s.ackFree (1 - d) l else s

/-- A credit cell returns the event and trellis credits of direction d to its send side (R445, R447). -/
def State.seamCredits (s : State) (d : Nat) : State :=
  if s.isSplit then s
  else s.modSdir d fun x => { x with evUsed := x.evUsed - x.evRet, evRet := 0, tUsed := x.tUsed - x.tRet, tRet := 0 }

/-! ## The layout of a cell (R437) -/

/-- The control byte of a beat's sideband (R306): V, KIND and TAG. -/
def Beat.control (b : Beat) : Nat := 2 ^ 7 + b.kind % 4 * 2 ^ 5 + b.tag % 32

/-- The 72 sideband bits: the control byte in the low byte, the check bits of word i above it (log entry 82). -/
def Beat.side (b : Beat) : Nat := b.control + 2 ^ 8 * leNat b.check

/-- TAG of a data cell: the valid flits, the crossing index, or the words. -/
def Cargo.tag : Cargo → Nat
  | .event fs => 2 ^ fs.length - 1
  | .beat b => b.cross
  | .ctl ws => ws.length

def Cargo.side : Cargo → Nat
  | .beat b => b.beat.side
  | _ => 0

def Cargo.payload : Cargo → Nat
  | .event fs => ((fs.zip (List.range fs.length)).map fun x => x.1.f.toNat * 2 ^ (128 * x.2)).sum
  | .beat b => leNat b.beat.data
  | .ctl ws => ((ws.zip (List.range ws.length)).map fun x => x.1.toNat * 2 ^ (32 * x.2)).sum

/-- The 640 bits of a cell: the CRC over bits [615:0] above them. -/
def cellBits (seq ack vl tag side payload : Nat) : Nat :=
  let body := payload % 2 ^ 512 + side % 2 ^ 72 * 2 ^ 512 + tag % 2 ^ 10 * 2 ^ 584 + vl % 4 * 2 ^ 594 + ack % 1024 * 2 ^ 596 + seq % 1024 * 2 ^ 606
  body + (Config.crc24 (leBytes 77 body)).toNat * 2 ^ 616

/-- The ACK that a cell of a direction carries: the SEQ of the last cell accepted in order from the other direction. -/
def State.ackOf (s : State) (d l : Nat) : Nat := ((s.getLane (1 - d) l).exp + 1023) % 1024

/-- A data cell of a lane's replay buffer, and the link cells: idle, credit, replay request, with the SEQ of the next data cell (R437, R438). -/
def State.dataCell (s : State) (d l seq : Nat) (c : Cargo) : Nat := cellBits seq (s.ackOf d l) c.vl c.tag c.side c.payload
def State.linkCell (s : State) (d l kind : Nat) : Nat :=
  cellBits (s.getLane d l).next (s.ackOf d l) 3 kind 0
    (if kind = 1 then (s.getSdir (1 - d)).evRet % 2 ^ 16 + (s.getSdir (1 - d)).tRet % 2 ^ 16 * 2 ^ 16 else 0)

/-! ## Delivery of events -/

/-- The edge router of a row that a receive side serves, and the input a flit from the seam arrives at. -/
def edgeOf (d y : Nat) : Nat := if d = 0 then clusterOf 1 0 y else clusterOf 0 7 y
def edgeIn (d : Nat) : Nat := if d = 0 then pW else pE

/-- May the bridge deliver into an edge router (R273, R287, R455)? -/
def State.edgeTakes (s : State) (d y : Nat) : Bool :=
  let c := edgeOf d y
  let r := s.getRt c
  if s.isHole c then false
  else if s.isSplit then
    let outs := ((List.range 4).filter fun p => match neighbour c p with | some n => !s.isHole n | none => false).length
    let ins := ((List.range 4).filter fun p => (neighbour c p).isSome && r.input p != none).length
    decide (ins < outs) && r.input (if halfOf c = 0 then pE else pW) == none
  else s.seamCredit c && r.input (if halfOf c = 0 then pE else pW) == none

/-- SEAM_EVENT_DELIVER (R269, R276, R445): a buffered flit, golden ones first, goes to the edge router of row DY, or to another that can
take it; its entry is free and its credit waits to be returned. -/
def State.seamDeliver (s : State) (d : Nat) : State :=
  let x := s.getSdir d
  match (x.recv.find? fun m => s.isGolden (1 - d) m.f).orElse fun _ => x.recv.head? with
  | none => s
  | some m =>
    let rows := fDY m.f :: (List.range 6).filter fun y => y != fDY m.f
    match rows.find? fun y => decide (y < 6) && s.edgeTakes d y with
    | none => s
    | some y =>
      let s := s.modSdir d fun x => { x with recv := x.recv.erase m, evRet := x.evRet + 1 }
      s.modRt (edgeOf d y) fun r => r.setInput (edgeIn d) (some m)

/-! ## Trellis beats -/

/-- A beat enters the near bridge (R447): with a credit it waits for a cell, without one in the hold buffer. -/
def State.seamBeat (s : State) (d : Nat) (b : SBeat) : State :=
  let x := s.getSdir d
  if x.tUsed < 8192 ∧ x.hold = [] then s.modSdir d fun x => { x with tq := x.tq ++ [b], tUsed := x.tUsed + 1 }
  else
    let s := (s.modSdir d fun x => { x with hold := x.hold ++ [b] }).bump .SM_HOLD [d]
    s.setVal .SM_HOLDMAX [] (max (s.val .SM_HOLDMAX []) (s.getSdir d).hold.length)

/-- SEAM_HOLD_RELEASE (R447): a held beat takes a credit. -/
def State.seamHold (s : State) (d : Nat) : State :=
  let x := s.getSdir d
  match x.hold with
  | [] => s
  | b :: t => if x.tUsed < 8192 then s.modSdir d fun x => { x with hold := t, tq := x.tq ++ [b], tUsed := x.tUsed + 1 } else s

/-- The near and the far slots of a crossing (R303, R446, R447). -/
def XRec.nearSlot (y : XRec) (t : Nat) : Bool := (List.range y.count).any fun k => (y.first + k * 2 ^ y.stride) % 1024 == t
def XRec.farSlot (y : XRec) (t : Nat) : Bool := (List.range y.count).any fun k => (y.first2 + k * 2 ^ y.stride) % 1024 == t

/-- In a far slot of a crossing, the bridge presents the crossing's oldest beat (R447): the crossing and the beat. -/
def State.seamHead (s : State) (d slot key piece kind : Nat) : Option (XRec × SBeat) :=
  ((s.crossings d).filter fun y => y.farSlot slot).findSome? fun y =>
    match (s.getSdir d).fifo.find? fun b => b.cross == y.index with
    | some b => if b.key == key && b.piece == piece && b.beat.kind == kind then some (y, b) else none
    | none => none

/-- A beat leaves the far bridge, and its credit waits to be returned (R447). -/
def State.seamTake (s : State) (d : Nat) (b : SBeat) : State :=
  s.modSdir d fun x => { x with fifo := x.fifo.erase b, tRet := x.tRet + 1 }

/-- Does the seam still hold a beat of one of some crossings (R315)? -/
def State.seamHolds (s : State) (ys : List XRec) : Bool :=
  ys.any fun y =>
    let x := s.getSdir y.dir
    (x.hold ++ x.tq ++ x.fifo).any (fun b => b.cross == y.index) ||
    x.moved.any (fun c => match c with | .beat b => b.cross == y.index | _ => false) ||
    (List.range 4).any fun l => (s.getLane y.dir l).buf.any fun e =>
      !(s.getLane y.dir l).accepted e.1 && (match e.2 with | .beat b => b.cross == y.index | _ => false)

end Sys2Proof.Machine
end

