-- ==== Sys2Proof/Machine/Matrix.lean ====
section
/-! DEFINITION. The matrix core (R201 to R222, R237 to R241) and the number formats, scales and accumulation it works by (R247 to
R267): descriptors, operands, runs and re-runs, and completion. Numbers are exact (Num) until a rule rounds them. -/

namespace Sys2Proof.Machine

/-! ## Scales -/

/-- FMAX of a format (R251); for a format without blocks, its largest finite value (R257). -/
def fmaxOf (f : Fmt) : Num :=
  match f with
  | .int4 => .ofInt 7
  | .int8 => .ofInt 127
  | .int16 => .ofInt 32767
  | .ql3 => .ofInt 4
  | f => decodeFmt f f.maxCode

/-- ± num ÷ den of one exact finite value by another, the divisor not zero. -/
def ratOf (m : Nat) (e : Int) (n : Nat) (f : Int) : Nat × Nat :=
  if e ≥ f then (m * 2 ^ (e - f).toNat, n) else (m, n * 2 ^ (f - e).toNat)

/-- The smallest normal BF16 value not below num ÷ den, 0x0080 at the least (R251). -/
def scaleUp (num den : Nat) : Nat :=
  if num = 0 then 0x0080 else
  let e0 := ilog num den
  let e := if num * 2 ^ (-(e0 + 1)).toNat ≥ den * 2 ^ (e0 + 1).toNat then e0 + 1 else e0
  if e < -126 then 0x0080
  else
    let q := e - 7
    let p := if q ≥ 0 then (num, den * 2 ^ q.toNat) else (num * 2 ^ (-q).toNat, den)
    ((e + 127) * 128 + (((p.1 + p.2 - 1) / p.2 : Nat) : Int) - 128).toNat

/-- The scale of a group for its largest magnitude (R251 step 2). -/
def scaleFor (f : Fmt) (absmax : Num) : Nat :=
  match absmax, fmaxOf f with
  | .fin _ m e, .fin _ n g => let r := ratOf m e n g; scaleUp r.1 r.2
  | _, _ => 0x0080

/-- The largest magnitude over the finite elements (R251). -/
def absMax (xs : List Num) : Num :=
  xs.foldl (fun a x => if x.isFin && Num.lt a x.abs then x.abs else a) (.fin false 0 0)

/-- Is the group flat: all elements finite and equal (R251, R253)? -/
def isFlat (xs : List Num) : Bool :=
  match xs with
  | [] => false
  | x :: t => x.isFin && t.all fun y => y.isFin && Num.eq x y

/-- An integer code that a quantisation writes: the most negative one is never written (R251). -/
def symCode (f : Fmt) (c : Nat) : Nat := if f.isInt && c == 2 ^ (f.width - 1) then c + 1 else c

/-- The code of the exact quotient of an element by a BF16 scale (R251 step 3). -/
def quotCode (f : Fmt) (x : Num) (scale : Nat) : Nat :=
  symCode f (match x, decodeFmt .bf16 scale with
    | .fin s m e, .fin _ n g =>
      if n = 0 then 0 else let r := ratOf m e n g; encodeRat f s r.1 r.2
    | x, _ => encodeFmt f x)

/-- Is |x ÷ S| above FMAX, or x infinite (R257)? -/
def saturates (f : Fmt) (x : Num) (scale : Nat) : Bool :=
  match x with
  | .inf _ => true
  | .nan => false
  | x => Num.lt (Num.mul (fmaxOf f) (decodeFmt .bf16 scale)) x.abs

/-- A group of quantised elements: the header's SCALE, OFFSET and FLAT, the codes, and the counts of R253 and R257. -/
structure QGroup where
  scale : Nat
  offset : Nat
  flat : Bool
  codes : List Nat
  sat : Nat
  und : Nat
  nan : Nat
  deriving DecidableEq, Repr

/-- A group quantised, with a static scale or with one computed on the fly (R251, R252, R253, R257). -/
def quantise (f : Fmt) (xs : List Num) (static : Option Nat) : QGroup :=
  if isFlat xs then
    { scale := 0x0080, flat := true, codes := xs.map fun _ => 0, sat := 0, und := 0, nan := 0,
      offset := (match xs with
        | .fin _ 0 _ :: _ => 0
        | x :: _ => roundF32 x
        | [] => 0) }
  else
    let sc := static.getD (scaleFor f (absMax xs))
    let cs := xs.map fun x => quotCode f x sc
    { scale := sc, offset := 0, flat := false, codes := cs,
      sat := (xs.filter fun x => saturates f x sc).length,
      und := ((xs.zip cs).filter fun x => x.1.isFin && !x.1.isZero && (decodeFmt f x.2).isZero).length,
      nan := (xs.filter (losesNaN f)).length }

/-- The exact values a group stands for: SCALE × decode + OFFSET (R249); a zero carries no sign (R583). -/
def QGroup.values (f : Fmt) (q : QGroup) : List Num :=
  q.codes.map fun c =>
    match Num.add (Num.mul (decodeFmt .bf16 q.scale) (decodeFmt f c)) (decodeFmt .fp32 q.offset) with
    | .fin _ 0 _ => .fin false 0 0
    | x => x

/-- A list cut into pieces of k (k not zero); the fuel is its length. -/
def chunksFuel {α : Type} (k : Nat) : Nat → List α → List (List α)
  | 0, _ => []
  | _ + 1, [] => []
  | n + 1, l => l.take k :: chunksFuel k n (l.drop k)

def chunks {α : Type} (k : Nat) (l : List α) : List (List α) := chunksFuel k l.length l

/-- The element-by-element conversion of R250 for an AFMT without blocks, with its counts. -/
def convertPlain (f : Fmt) (xs : List Num) : QGroup :=
  let cs := xs.map (encodeFmt f)
  { scale := 0x3F80, offset := 0, flat := false, codes := cs,
    sat := (xs.filter fun x => saturates f x 0x3F80).length,
    und := ((xs.zip cs).filter fun x => x.1.isFin && !x.1.isZero && (decodeFmt f x.2).isZero).length,
    nan := (xs.filter (losesNaN f)).length }

/-! ## Blocks in memory -/

/-- The bytes of a block (R247). -/
def blockLen (f : Fmt) (g : Nat) : Nat := 8 + packedLen f g

/-- Does a header meet R249, for an operand that may carry a zero point or not? -/
def headerGood (f : Fmt) (w : Bool) (h : Nat) : Bool :=
  let sc := bitsOf h 16 16
  let zp := sext 8 h
  decide (0x0080 ≤ sc) && decide (sc ≤ 0x7F7F) && bitsOf h 8 7 == 0 && (decodeFmt .fp32 (bitsOf h 32 32)).isFin &&
  (if w then zp == 0 else match f with
    | .int4 => decide (-8 ≤ zp) && decide (zp ≤ 7)
    | .int8 => true
    | _ => zp == 0)

/-- The exact value of an element of a block (R249). -/
def blockValue (f : Fmt) (h c : Nat) : Num :=
  match Num.add (Num.mul (decodeFmt .bf16 (bitsOf h 16 16)) (Num.sub (decodeFmt f c) (.ofInt (sext 8 h))))
    (decodeFmt .fp32 (bitsOf h 32 32)) with
  | .fin _ 0 _ => .fin false 0 0
  | x => x

/-- A row of n elements of a blocked tensor as exact values; none where a header breaks R249. -/
def blockRow (f : Fmt) (g : Nat) (w : Bool) (n : Nat) (bytes : List Byte) : Option (List Num) :=
  ((chunks (blockLen f g) bytes).mapM fun b =>
    let h := leNat (b.take 8)
    if headerGood f w h then
      some ((List.range g).map fun k => blockValue f h (packedElem f (b.drop 8) k))
    else none).map fun l => l.flatten.take n

/-- A row of n plain elements as exact values. -/
def plainRow (f : Fmt) (n : Nat) (bytes : List Byte) : List Num := (List.range n).map fun k => decodeFmt f (packedElem f bytes k)

/-- The bytes of a row of a tensor. -/
def rowLen (f : Fmt) (blocked : Bool) (g n : Nat) : Nat :=
  if blocked then ((n + g - 1) / g) * blockLen f g else packedLen f n

/-! ## Accumulation -/

/-- The exact sum of products over a group; a zero result is +0 (R255: the group term T equals the exact sum of the products of the
dequantised elements). -/
def dotExact (as ws : List Num) : Num :=
  match (as.zip ws).foldl (fun t p => Num.add t (Num.mul p.1 p.2)) (.fin false 0 0) with
  | .fin _ 0 _ => .fin false 0 0
  | x => x

/-- A fixed pairwise tree of adjacent pairs; an odd last element passes on (R214, R255). -/
def pairUp {α : Type} (f : α → α → α) : List α → List α
  | a :: b :: t => f a b :: pairUp f t
  | l => l

def treeFuel {α : Type} (f : α → α → α) (z : α) : Nat → List α → α
  | 0, l => l.headD z
  | n + 1, l => match l with
    | [] => z
    | [a] => a
    | l => treeFuel f z n (pairUp f l)

/-- The tree over a list: its length bounds the levels. -/
def tree {α : Type} (f : α → α → α) (z : α) (l : List α) : α := treeFuel f z l.length l

/-- The pass sum of an FP32 multiply (R255): 64 products, each rounded, padded with zero, in a six-level tree. -/
def passSum (as ws : List Num) : Nat :=
  let ps := (as.zip ws).map fun p => roundF32 (Num.mul p.1 p.2)
  tree f32Add 0 (ps ++ List.replicate (64 - ps.length) 0)

/-- The value of an accumulator: INT32 or an FP32 code (R255). -/
inductive AccV where
  | int (x : Int)
  | fp (c : Nat)
  deriving DecidableEq, Repr

def AccV.num : AccV → Num
  | .int x => .ofInt x
  | .fp c => decodeFmt .fp32 c

/-- How a multiply accumulates (R255). -/
inductive AccMode where
  | int32 | fp32 | scaled (g : Nat)
  deriving DecidableEq, Repr

def int32Sat (x : Int) : Int := clampInt (-(2 ^ 31 : Nat)) ((2 ^ 31 : Nat) - 1) x

/-- One output element and its INT32 saturations (R255). -/
def accumulate (mode : AccMode) (as ws : List Num) : AccV × Nat :=
  match mode with
  | .int32 =>
    let r := ((chunks 64 as).zip (chunks 64 ws)).foldl (fun (acc : Int × Nat) p =>
      let x := acc.1 + (dotExact p.1 p.2).floorScaled 0
      (int32Sat x, if int32Sat x = x then acc.2 else acc.2 + 1)) (0, 0)
    (.int r.1, r.2)
  | .fp32 =>
    (.fp (((chunks 64 as).zip (chunks 64 ws)).foldl (fun acc p => f32Add acc (passSum p.1 p.2)) 0), 0)
  | .scaled g =>
    (.fp (((chunks g as).zip (chunks g ws)).foldl (fun acc p => f32Add acc (roundF32 (dotExact p.1 p.2))) 0), 0)

/-- The greater or lesser of two values; with a NaN, and of two zeros of different sign, what the spec leaves open is free (R246,
log entry 1). -/
def Num.extreme (opn : BitVec 32 → BitVec 32 → Bool) (better : Num → Num → Bool) (x y : Num) : Num :=
  let o := opn (BitVec.ofNat 32 (roundF32 x)) (BitVec.ofNat 32 (roundF32 y))
  match x, y with
  | .nan, .nan => .nan
  | .nan, y => if o then .nan else y
  | x, .nan => if o then .nan else x
  | .fin s 0 e, .fin t 0 f => if s = t then .fin s 0 e else .fin o 0 f
  | x, y => if better y x then y else x

def Num.max (x y : Num) : Num := Num.extreme Config.maxOpen (fun a b => Num.lt b a) x y
def Num.min (x y : Num) : Num := Num.extreme Config.minOpen Num.lt x y

/-- max and min of FP32 codes. -/
def f32Max (a b : Nat) : Nat := roundF32 (Num.max (decodeFmt .fp32 a) (decodeFmt .fp32 b))
def f32Min (a b : Nat) : Nat := roundF32 (Num.min (decodeFmt .fp32 a) (decodeFmt .fp32 b))

/-- An exact result rounded to FP32, as a value (R246). -/
def Num.r32 (x : Num) : Num := decodeFmt .fp32 (roundF32 x)

/-! ## SIGMOID, TANH and EXP (R214) -/

/-- e^(n ÷ d) × 2^1024 for n ÷ d up to 512: the exponential series of the argument ÷ 1024, squared ten times. -/
def expFix (n d : Nat) : Nat :=
  let one := 2 ^ 1024
  let t := n * one / (d * 1024)
  let r := (List.range 128).foldl (fun (a : Nat × Nat) k => let x := a.1 * t / (one * (k + 1)); (x, a.2 + x)) (one, one)
  (List.range 10).foldl (fun v _ => v * v / one) r.2

/-- The greatest finite FP32 code without sign whose value is not above num ÷ den, and whether it equals it. -/
def floorF32 (num den : Nat) : Nat × Bool :=
  let c := floatCode 23 127 num den
  if c ≥ 0x7F800000 then (0x7F7FFFFF, false)
  else
    match decodeFmt .fp32 c with
    | .fin _ m e =>
      let l := m * 2 ^ e.toNat * den
      let r := num * 2 ^ (-e).toNat
      if l = r then (c, true) else if l > r then (c - 1, false) else (c, false)
    | _ => (c, false)

/-- One of the FP32 values within 2 ULP of ± num ÷ den. -/
def nearF32 (neg : Bool) (num den pick : Nat) : Num :=
  let r := floorF32 num den
  let z : Int := (r.1 : Int) + (if r.2 then ((pick % 5 : Nat) : Int) - 2 else ((pick % 4 : Nat) : Int) - 1)
  decodeFmt .fp32 (min z.natAbs 0x7F800000 + (if neg != decide (z < 0) then 0x80000000 else 0))

/-- A magnitude as a fraction, 512 at the most: above it no result of an FP32 argument can be told from that at 512. -/
def ratCap (m : Nat) (e : Int) : Nat × Nat :=
  let r := (m * 2 ^ e.toNat, 2 ^ (-e).toNat)
  if r.1 > 512 * r.2 then (512, 1) else r

def expOf (x : Num) (pick : Nat) : Num :=
  match x with
  | .nan => .nan
  | .inf true => nearF32 false 0 1 pick
  | .inf false => .inf false
  | .fin s m e =>
    let r := ratCap m e
    let v := expFix r.1 r.2
    if s then nearF32 false (2 ^ 1024) v pick else nearF32 false v (2 ^ 1024) pick

def sigmoidOf (x : Num) (pick : Nat) : Num :=
  match x with
  | .nan => .nan
  | .inf s => nearF32 false (if s then 0 else 1) 1 pick
  | .fin s m e =>
    let r := ratCap m e
    let v := expFix r.1 r.2
    nearF32 false (if s then 2 ^ 1024 else v) (v + 2 ^ 1024) pick

def tanhOf (x : Num) (pick : Nat) : Num :=
  match x with
  | .nan => .nan
  | .inf s => nearF32 s 1 1 pick
  | .fin s m e =>
    let r := ratCap m e
    let v := expFix r.1 r.2
    nearF32 s (v * v - 2 ^ 2048) (v * v + 2 ^ 2048) pick

def AccV.relu : AccV → AccV
  | .int x => .int (max x 0)
  | .fp c => .fp (f32Max c 0)

/-! ## Descriptors -/

/-- A descriptor (R211, R212). -/
structure Desc where
  op : Nat
  sub : Nat
  afmt : Nat
  wfmt : Nat
  ofmt : Nat
  prof : Nat
  sb : Bool
  wres : Bool
  bias : Bool
  relu : Bool
  brow : Bool
  tag : Nat
  wg : Nat
  m : Nat
  n : Nat
  k : Nat
  iw : Nat
  ih : Nat
  abase : Nat
  wbase : Nat
  obase : Nat
  bbase : Nat
  astr : Nat
  wstr : Nat
  ostr : Nat
  param : Nat
  deriving DecidableEq, Repr

/-- A descriptor from its 64 bytes (R211, R212). -/
def descOf (x : Nat) : Desc :=
  { op := bitsOf x 28 4, sub := bitsOf x 24 4, afmt := bitsOf x 20 4, wfmt := bitsOf x 16 4, ofmt := bitsOf x 12 4,
    prof := bitsOf x 8 4, sb := x.testBit 7, wres := x.testBit 6, bias := x.testBit 5, relu := x.testBit 4, brow := x.testBit 3,
    tag := bitsOf x 32 16, wg := bitsOf x 48 8, m := bitsOf x 64 16 + 1, n := bitsOf x 80 16 + 1, k := bitsOf x 96 16 + 1,
    iw := bitsOf x 112 8 + 1, ih := bitsOf x 120 8 + 1, abase := bitsOf x 128 64, wbase := bitsOf x 192 64,
    obase := bitsOf x 256 64, bbase := bitsOf x 320 64, astr := bitsOf x 384 32, wstr := bitsOf x 416 32, ostr := bitsOf x 448 32,
    param := bitsOf x 480 32 }

/-- Ring offset of descriptor n, and of its completion record (R210, R213). -/
def descAddr (c n : Nat) : Nat := mxAddr c (0x7C000 + 64 * (n % 128))
def complAddr (c n : Nat) : Nat := mxAddr c (0x7E000 + 16 * (n % 128))
def State.desc (s : State) (c n : Nat) : Desc := descOf (s.peekLE (descAddr c n) 64)
def State.mxHead (s : State) (c : Nat) : Nat := s.val .MX_DQ_HEAD [c] % 2 ^ 16
def State.mxTail (s : State) (c : Nat) : Nat := s.val .MX_DQ_TAIL [c] % 2 ^ 16

/-- Fields of CONV's PARAM, and its output shape (R214, R215). -/
structure Conv where
  kw : Nat
  kh : Nat
  st : Nat
  dil : Nat
  px : Nat
  py : Nat
  deriving DecidableEq, Repr

def convOf (p : Nat) : Conv :=
  { kw := bitsOf p 28 4 + 1, kh := bitsOf p 24 4 + 1, st := 2 ^ bitsOf p 22 2, dil := 2 ^ bitsOf p 20 2, px := bitsOf p 16 4,
    py := bitsOf p 12 4 }

/-- floor((I + 2P − DIL (K − 1) − 1) ÷ S) + 1, zero when empty (R215). -/
def outDim (i p dil k st : Nat) : Nat := if i + 2 * p < dil * (k - 1) + 1 then 0 else (i + 2 * p - dil * (k - 1) - 1) / st + 1

def Desc.oh (d : Desc) : Nat := let v := convOf d.param; outDim d.ih v.py v.dil v.kh v.st
def Desc.ow (d : Desc) : Nat := let v := convOf d.param; outDim d.iw v.px v.dil v.kw v.st

/-- Rows and depth of the equivalent multiply (R215). -/
def Desc.rows (d : Desc) : Nat := if d.op = 2 then d.m * d.oh * d.ow else d.m
def Desc.depth (d : Desc) : Nat := if d.op = 2 then (convOf d.param).kh * (convOf d.param).kw * d.k else d.k

/-- A profile's modes (R250, R266); reserved codes act as the reset value (R14). -/
structure Prof where
  en : Bool
  rsteps : Nat
  amode : Nat
  wblk : Bool
  oblk : Bool
  g : Nat
  asrc : Fmt
  deriving DecidableEq, Repr

def State.prof (s : State) (c p : Nat) : Prof :=
  { en := s.bit .QF_PCFG [c, p] QF_PCFG_EN, rsteps := s.fld .QF_PCFG [c, p] QF_PCFG_RSTEPS,
    amode := s.fld .QF_PCFG [c, p] QF_PCFG_AMODE, wblk := s.fld .QF_PCFG [c, p] QF_PCFG_WMODE == 0,
    oblk := s.bit .QF_PCFG [c, p] QF_PCFG_OMODE,
    g := (match s.fld .QF_PCFG [c, p] QF_PCFG_GSIZE with | 1 => 64 | 2 => 128 | _ => 32),
    asrc := (match s.fld .QF_PCFG [c, p] QF_PCFG_ASRC with | 1 => .fp16 | 2 => .bf16 | 11 => .s1616 | _ => .fp32) }

/-- Format, class, SUB and PARAM errors of R241 (0x0510). -/
def Desc.badCode (d : Desc) (p : Prof) : Bool :=
  let a := Fmt.ofCode d.afmt
  let o := Fmt.ofCode d.ofmt
  let elem (f : Option Fmt) : Bool := match f with | some .s1616 => false | some .int32 => false | some _ => true | none => false
  let inp (f : Option Fmt) : Bool := match f with | some .int32 => false | some _ => true | none => false
  let outp (f : Option Fmt) : Bool := match f with | some .s1616 => false | some _ => true | none => false
  let mulBad : Bool := !elem a || !elem (Fmt.ofCode d.wfmt) || !outp o ||
    (match a, Fmt.ofCode d.wfmt with | some x, some y => x.isInt != y.isInt | _, _ => true) ||
    (d.ofmt == 12 && !((match a with | some x => x.isInt | none => false) && p.amode == 3 && !p.wblk))
  decide (d.afmt ≥ 13) || decide (d.wfmt ≥ 13) || decide (d.ofmt ≥ 13) ||
  match d.op with
  | 0 => d.sub != 0 || d.param != 0
  | 1 => d.sub != 0 || d.param != 0 || mulBad
  | 2 => d.sub != 0 || bitsOf d.param 0 12 != 0 || bitsOf d.param 22 2 == 3 || bitsOf d.param 20 2 == 3 || mulBad
  | 3 => decide (d.sub ≥ 14) || !inp a || !outp o || d.ofmt == 12 || (decide (1 ≤ d.sub) && decide (d.sub ≤ 5) && !inp (Fmt.ofCode d.wfmt)) ||
      (match d.sub with | 7 => decide (d.param ≥ 32) | 8 => false | 12 => false | _ => d.param != 0)
  | 4 => !inp a || !outp o || d.param != 0 || (d.sub.testBit 3 && (d.sub % 4 == 0 || d.sub % 4 == 3))
  | 5 => decide (d.sub ≥ 4) || !(d.afmt == 0 || d.afmt == 11) ||
      ((d.sub == 1 || d.sub == 3) && !(d.ofmt == 9 || d.ofmt == 8 || d.ofmt == 6 || d.ofmt == 10))
  | 6 => decide (d.sub ≥ 2) || d.param != 0 || !(d.ofmt == 8 || d.ofmt == 7 || d.ofmt == 1 || d.ofmt == 2 || d.ofmt == 0 || d.ofmt == 12)
  | _ => true

/-- A blocked mode whose format is not blockable (R250, R267: 0x0611); the index of a REDUCE is INT32 (R214). -/
def Desc.badBlock (d : Desc) (p : Prof) : Bool :=
  let blk (c : Nat) : Bool := match Fmt.ofCode c with | some f => f.blockable | none => false
  (decide (1 ≤ d.op) && decide (d.op ≤ 5) && p.amode == 0 && !blk d.afmt) ||
  ((d.op == 1 || d.op == 2) && p.wblk && !blk d.wfmt) ||
  (decide (1 ≤ d.op) && decide (d.op ≤ 4) && p.oblk && !(blk d.ofmt && !(d.op == 4 && d.sub.testBit 3)))

/-! ## Operands -/

def fmtD (c : Nat) : Fmt := (Fmt.ofCode c).getD .fp32

/-- The format and layout in which A lies in memory (R250). -/
def Desc.aMem (d : Desc) (p : Prof) : Fmt × Bool :=
  if p.amode = 0 then (fmtD d.afmt, true)
  else if (d.op = 1 ∨ d.op = 2) ∧ p.amode ≠ 3 then (p.asrc, false)
  else (fmtD d.afmt, false)

/-- Rows of A in memory and elements of each (R211, R215). -/
def Desc.aRowElems (d : Desc) : Nat :=
  match d.op with
  | 1 => d.k
  | 2 => d.ih * d.iw * d.k
  | _ => d.n

/-- Does a profile take its scales from the static table for a descriptor (R250, R252)? -/
def Desc.usesTable (d : Desc) (p : Prof) : Bool := (d.op == 1 || d.op == 2) && p.amode == 2 && (fmtD d.afmt).blockable
def Desc.groups (d : Desc) (p : Prof) : Nat := (d.depth + p.g - 1) / p.g

/-- A resident weight tensor, by what later descriptors name it with (R209): its depth is K, of a CONV KH × KW × CIN (R215); and its size in
the resident region. -/
def Desc.resKey (d : Desc) : List Nat := [d.wbase, d.depth, d.n, d.wfmt]
def Desc.residentLen (d : Desc) (p : Prof) : Nat :=
  (if p.wblk then d.n else d.depth) * rowLen (fmtD d.wfmt) p.wblk p.g (if p.wblk then d.depth else d.n)
def State.isResident (s : State) (c : Nat) (d : Desc) : Bool := d.wres && (s.getMx c).res == some d.resKey

/-- The address ranges a descriptor reads, each with the endpoint that takes the data: TA activations, TW weights, biases, second operands
and the static table (R208, R252). Weights that are resident are read where they lie (R209). -/
def State.mxReads (s : State) (c : Nat) (d : Desc) (p : Prof) : List (Nat × Nat × Nat) :=
  let ta := c * 8 + 5
  let tw := c * 8 + 6
  let am := d.aMem p
  let a := (List.range d.m).map fun r => (ta, d.abase + r * d.astr, rowLen am.1 am.2 p.g d.aRowElems)
  let wf := fmtD d.wfmt
  let w :=
    if s.isResident c d then [(tw, mxAddr c 0x50000, d.residentLen p)]
    else if p.wblk then (List.range d.n).map fun j => (tw, d.wbase + j * d.wstr, rowLen wf true p.g d.depth)
    else (List.range d.depth).map fun k => (tw, d.wbase + k * d.wstr, rowLen wf false p.g d.n)
  let bias := if d.bias then [(tw, d.bbase, 4 * d.n)] else []
  let tbl := if d.usesTable p then [(tw, s.val .QF_PTBL [c, d.prof], 4 * d.groups p)] else []
  match d.op with
  | 1 => a ++ w ++ bias ++ tbl
  | 2 => a ++ w ++ bias ++ tbl
  | 3 =>
    a ++ (if 1 ≤ d.sub ∧ d.sub ≤ 5 then
      (List.range (if d.brow then 1 else d.m)).map fun r => (tw, d.bbase + r * d.wstr, packedLen wf d.n)
      else if d.sub = 8 then bias else [])
  | 4 => a
  | 5 => a ++ (if d.sub = 3 then (List.range d.m).map fun r => (tw, d.bbase + r * d.wstr, 4 * d.n) else [])
  | _ => []

/-- Output rows and the elements of each: CONV writes a row per world, REDUCE M × 1 or 1 × N (R214, R215). -/
def Desc.outShape (d : Desc) : Nat × Nat :=
  match d.op with
  | 2 => (d.m, d.oh * d.ow * d.n)
  | 4 => if d.sub.testBit 2 then (1, d.n) else (d.m, 1)
  | _ => (d.m, d.n)

/-- OFMT as written: an index of REDUCE is INT32 (R214). -/
def Desc.outFmt (d : Desc) : Fmt := if d.op = 4 ∧ d.sub.testBit 3 then .int32 else fmtD d.ofmt

/-- Is the output blocked: GATHER's never is (R250)? -/
def Desc.outBlk (d : Desc) (p : Prof) : Bool := p.oblk && d.op != 6

/-- The bytes of n positions of a CONV row, or of one row of another operation: blocks are cut along N within each row of the equivalent
multiply (R215, R250). -/
def Desc.outLen (d : Desc) (p : Prof) (n : Nat) : Nat :=
  if d.op = 2 then
    (if d.outBlk p then n * rowLen d.outFmt true p.g d.n else rowLen d.outFmt false p.g (n * d.n))
  else rowLen d.outFmt (d.outBlk p) p.g d.outShape.2

/-- The address ranges a descriptor writes. -/
def Desc.writes (d : Desc) (p : Prof) (c : Nat) : List (Nat × Nat × Nat) :=
  if d.op = 5 then (if d.sub = 3 then (List.range d.m).map fun r => (c * 8 + 5, d.bbase + r * d.wstr, 4 * d.n) else [])
  else if d.op = 0 then []
  else (List.range d.outShape.1).map fun r => (c * 8 + 5, d.obase + r * d.ostr, d.outLen p (d.oh * d.ow))

/-- An address or stride that is not a multiple of 64 B, whatever the operation, or bits [63:48] of ABASE (R211, R241); in ENCODE and GATHER
the bytes of WBASE are no address. -/
def Desc.misaligned (d : Desc) : Bool :=
  [d.abase, d.obase, d.bbase, d.astr, d.wstr, d.ostr].any (fun x => x % 64 != 0) || decide (d.abase ≥ 2 ^ 48) ||
  (d.op != 5 && d.op != 6 && d.wbase % 64 != 0)

/-! ## Operand bytes (R208, R241) -/

/-- Does an address lie in a matrix core's own operand buffers? -/
def ownBuf (c a : Nat) : Bool := match locate a with | .mxbuf c' _ => c' == c | _ => false

/-- Does a range that starts in a matrix core's own operand buffers run past their end (R39)? -/
def ownPast (c a n : Nat) : Bool := ownBuf c a && !ownBuf c (a + n - 1)

/-- The bytes of an operand: its own buffers are read where they lie; from any other place they have come in over the trellis. -/
def State.opBytes (s : State) (c a n : Nat) : List Byte :=
  if ownBuf c a then s.readBytes a n else (List.range n).map fun i => mget (s.getMx c).opnd (a + i)

/-- Does a word that reads uncorrectable lie where a descriptor reads the operand buffers (R241): the tile and accumulator buffers it works in,
operands that lie there, and the resident region it loads its weights into? -/
def State.mxBadWord (s : State) (bad : List Nat) (c : Nat) (d : Desc) (p : Prof) : Bool :=
  let tiles := if 1 ≤ d.op ∧ d.op ≤ 5 then [(0, mxAddr c 0, 0x50000)] else []
  let res := if (d.op = 1 ∨ d.op = 2) ∧ d.wres then [(0, mxAddr c 0x50000, d.residentLen p)] else []
  (tiles ++ res ++ s.mxReads c d p).any fun r => ownBuf c r.2.1 && badIn bad r.2.1 r.2.2

/-- The source elements of one row of A of the (equivalent) multiply, as exact values; none where a block header is wrong. -/
def State.aRow (s : State) (c : Nat) (d : Desc) (p : Prof) (r : Nat) : Option (List Num) :=
  let am := d.aMem p
  let world := if d.op = 2 then r / (d.oh * d.ow) else r
  let bytes := s.opBytes c (d.abase + world * d.astr) (rowLen am.1 am.2 p.g d.aRowElems)
  let row := if am.2 then blockRow am.1 p.g false d.aRowElems bytes else some (plainRow am.1 d.aRowElems bytes)
  if d.op ≠ 2 then row
  else row.map fun xs =>
    let v := convOf d.param
    let y := r % (d.oh * d.ow) / d.ow
    let x := r % d.ow
    (List.range d.depth).map fun k =>
      let kh := k / (v.kw * d.k)
      let kw := k / d.k % v.kw
      let iy : Int := (y * v.st + kh * v.dil : Nat) - (v.py : Int)
      let ix : Int := (x * v.st + kw * v.dil : Nat) - (v.px : Int)
      if iy < 0 ∨ ix < 0 ∨ iy ≥ d.ih ∨ ix ≥ d.iw then .fin false 0 0
      else xs.getD ((iy.toNat * d.iw + ix.toNat) * d.k + k % d.k) .nan

/-- Where W is read: the resident region once the tensor is resident (R209), rows back to back, or the tensor itself. -/
def State.wPlace (s : State) (c : Nat) (d : Desc) (p : Prof) : Nat × Nat :=
  if s.isResident c d then (mxAddr c 0x50000, rowLen (fmtD d.wfmt) p.wblk p.g (if p.wblk then d.depth else d.n))
  else (d.wbase, d.wstr)

/-- The blocks of a blocked W whose header breaks R249: column and group. -/
def State.wBad (s : State) (c : Nat) (d : Desc) (p : Prof) : List (Nat × Nat) :=
  if !p.wblk then []
  else
    let w := s.wPlace c d p
    (List.range d.n).flatMap fun j => (List.range (d.groups p)).filterMap fun b =>
      if headerGood (fmtD d.wfmt) true (leNat (s.opBytes c (w.1 + j * w.2 + b * blockLen (fmtD d.wfmt) p.g) 8)) then none else some (j, b)

/-- The columns of W as exact values (R250); those of a block with a wrong header are never used. -/
def State.wCols (s : State) (c : Nat) (d : Desc) (p : Prof) : List (List Num) :=
  let f := fmtD d.wfmt
  let w := s.wPlace c d p
  if p.wblk then
    (List.range d.n).map fun j => (blockRow f p.g true d.depth (s.opBytes c (w.1 + j * w.2) (rowLen f true p.g d.depth))).getD []
  else
    let rows := (List.range d.depth).map fun k => plainRow f d.n (s.opBytes c (w.1 + k * w.2) (rowLen f false p.g d.n))
    (List.range d.n).map fun j => rows.map fun r => r.getD j .nan

/-- The whole weight tensor loaded into the resident region (R209). -/
def State.loadResident (s : State) (c : Nat) (d : Desc) (p : Prof) : State :=
  if !d.wres || s.isResident c d then s
  else
    let len := rowLen (fmtD d.wfmt) p.wblk p.g (if p.wblk then d.depth else d.n)
    let s' := s.each (List.range (if p.wblk then d.n else d.depth)) fun t r =>
      t.poke (mxAddr c (0x50000 + r * len)) (s.opBytes c (d.wbase + r * d.wstr) len)
    (s'.modMx c fun x => { x with res := some d.resKey }).setFld .MX_STATUS [c] MX_STATUS_RESV 1

/-- The tile and accumulator buffers take what a descriptor loads and sums (R204, R249). -/
def State.mxTiles (s : State) (c : Nat) : State := s.modMx c fun x => { x with tiles := x.tiles + 1, fixed := [] }

/-! ## Runs of a multiply -/

/-- The next wider format (R259). -/
def nextWider : Fmt → Option Fmt
  | .e2m1 | .e3m2 => some .e4m3
  | .e4m3 => some .bf16
  | .bf16 => some .fp32
  | .int4 => some .int8
  | .int8 => some .int16
  | .int16 => some .fp32
  | _ => none

/-- K_T of a pair of formats: the row of the wider operand (R201, R206). -/
def tileDepth (a w : Fmt) : Nat :=
  if a = .fp32 ∨ w = .fp32 then 128
  else if a.width = 16 ∨ w.width = 16 then 256
  else if a.width = 8 ∨ w.width = 8 then 512 else 1024

/-- Counts of the groups of A a run has quantised (R257, R253, R245). -/
structure Counts where
  sat : Nat := 0
  und : Nat := 0
  flat : Nat := 0
  nan : Nat := 0
  deriving DecidableEq, Repr

def Counts.add (c : Counts) (q : QGroup) : Counts :=
  { sat := c.sat + q.sat, und := c.und + q.und, flat := c.flat + (if q.flat then 1 else 0), nan := c.nan + q.nan }

/-- One run's view of A: the groups of each row, in the format of the run (R250, R260); none: A is read unconverted. -/
def runGroups (f : Fmt) (g : Nat) (static : Option (List Nat)) (row : List Num) : List QGroup :=
  (chunks g row).mapIdx fun i xs =>
    if f.blockable then quantise f xs (static.map fun t => t.getD i 0x0080) else convertPlain f xs

/-- The first group in processing order that breaks the tolerances (R254, R258): M tile, K tile, row, group; with the groups counted
up to it. -/
def firstFail (tsat tund mt kt : Nat) (groups : List (List QGroup)) : Option (Nat × Nat × QGroup) × Counts :=
  let per := max 1 kt
  let rows := groups.length
  let ng := (groups.headD []).length
  let order := (List.range ((rows + mt - 1) / mt)).flatMap fun a =>
    (List.range ((ng + per - 1) / per)).flatMap fun b =>
      (List.range mt).flatMap fun i => (List.range per).map fun j => (a * mt + i, b * per + j)
  (order.filter fun x => decide (x.1 < rows) && decide (x.2 < ng)).foldl (fun st x =>
    match st.1 with
    | some _ => st
    | none =>
      match (groups.getD x.1 [])[x.2]? with
      | none => st
      | some q =>
        let fails := (tsat != 255 && decide (q.sat > tsat)) || (tund != 255 && decide (q.und > tund))
        (if fails then some (x.1, x.2, q) else none, st.2.add q)) (none, {})

/-- A run that has stopped (R258): its format, the rows of A of the M tiles it has finished, and the MACs of its passes. -/
structure Stop where
  fmt : Fmt
  rows : List (List Num)
  macs : Nat
  deriving DecidableEq, Repr

/-- What the chain of runs ends in (R258 to R261): the values of A in the format it ends in, or the reason (0x0611, 0x0612) for which it failed;
the re-runs, the counts, the first failing group of the first failing run, the runs that stopped, and the one that a header ended. -/
structure Chain where
  vals : Option (List (List Num))
  reason : Nat
  fmt : Fmt
  reruns : Nat
  counts : Counts
  fail : Option (Nat × Nat × QGroup)
  stops : List Stop
  /-- the run that a wrong block header ended -/
  broke : Option Stop := none
  deriving DecidableEq, Repr

/-- N tile of a pair of formats: the row of the wider operand (R201). -/
def tileN (a w : Fmt) : Nat := if a.width = 4 ∧ w.width = 4 then 128 else 64

/-- The values of a quantised row. -/
def groupVals (f : Fmt) (row : List QGroup) : List Num :=
  row.flatMap fun q => if f.blockable then q.values f else q.codes.map (decodeFmt f)

/-- A run stopped by the group j of row i (R206, R254, R258): the M tiles before that of the row are done, and in its first output tile the
passes before the first one that takes the group. -/
def stopAt (f wf : Fmt) (g depth n : Nat) (gs : List (List QGroup)) (i j : Nat) : Stop :=
  let kt := tileDepth f wf
  let m0 := i / 128 * 128
  let k0 := j * g / kt * kt
  let inTile := k0 * min 128 (gs.length - m0) + (i - m0) * (min depth (k0 + kt) - k0) + (j * g / 64 * 64 - k0)
  { fmt := f, rows := (gs.take m0).map (groupVals f), macs := m0 * depth * n + min n (tileN f wf) * inTile }

/-- Does a run read a wrong W header before it is stopped by the group j of row i (R206, R249)? -/
def meetsBadW (f wf : Fmt) (g : Nat) (wbad : List (Nat × Nat)) (i j : Nat) : Bool :=
  wbad.any fun b => decide (128 ≤ i) || (decide (b.1 < tileN f wf) && decide (b.2 * g / tileDepth f wf ≤ j * g / tileDepth f wf))

/-- The MACs before a run reads the first of its wrong W headers (R206, R238): those of the first M tile's N tiles before the header's, and of
the passes of that one before the header's K tile; none where no header is wrong. -/
def badWMacs (f wf : Fmt) (g depth rows cols : Nat) (wbad : List (Nat × Nat)) : Option Nat :=
  ((wbad.map fun b =>
    let m := min 128 rows
    let n0 := b.1 / tileN f wf * tileN f wf
    m * depth * n0 + m * (b.2 * g / tileDepth f wf * tileDepth f wf) * min (tileN f wf) (cols - n0)).min?)

/-- The last run of a chain: it completes, unless it reads a wrong W header. -/
def lastRun (wf : Fmt) (g depth cols : Nat) (wbad : List (Nat × Nat)) (f : Fmt) (n : Nat) (vals : List (List Num)) (rows : Nat) (k : Counts) :
    Chain :=
  { vals := if wbad = [] then some vals else none, reason := if wbad = [] then 0 else 0x0611, fmt := f, reruns := n, counts := k,
    fail := none, stops := [], broke := (badWMacs f wf g depth rows cols wbad).map fun x => { fmt := f, rows := [], macs := x } }

/-- A run that reads a wrong header of A in a row (R249, R238): the M tiles before that row's are done; a wrong W header comes first. -/
def brokenRun (af wf : Fmt) (g depth cols rows : Nat) (wbad : List (Nat × Nat)) (good : List (List Num)) : Chain :=
  let m0 := good.length / 128 * 128
  let w := badWMacs af wf g depth rows cols wbad
  { vals := none, reason := 0x0611, fmt := af, reruns := 0, counts := {}, fail := none, stops := [],
    broke := some { fmt := af, rows := if w.isSome then [] else good.take m0, macs := w.getD (m0 * depth * cols) } }

/-- The runs of a descriptor whose A is quantised on load, `fuel` more re-runs permitted (R257 to R260). -/
def runChain (src : List (List Num)) (asrc wf : Fmt) (g tsat tund depth cols : Nat) (wbad : List (Nat × Nat)) (static : Option (List Nat))
    (f : Fmt) (n fuel : Nat) : Chain :=
  if f = asrc ∨ f = .fp32 then lastRun wf g depth cols wbad f n (src.map fun r => r.map fun x => decodeFmt f (encodeFmt f x)) src.length {}
  else
    let gs := src.map (runGroups f g static)
    let r := firstFail tsat tund 128 (tileDepth f wf / g) gs
    match r.1 with
    | none => lastRun wf g depth cols wbad f n (gs.map (groupVals f)) src.length r.2
    | some x =>
      if meetsBadW f wf g wbad x.1 x.2.1 then lastRun wf g depth cols wbad f n [] src.length r.2
      else
        let st := stopAt f wf g depth cols gs x.1 x.2.1
        match fuel, nextWider f with
        | k + 1, some f' =>
          let t := runChain src asrc wf g tsat tund depth cols wbad none f' (n + 1) k
          { t with counts := { sat := t.counts.sat + r.2.sat, und := t.counts.und + r.2.und, flat := t.counts.flat + r.2.flat,
                               nan := t.counts.nan + r.2.nan }, fail := some x, stops := st :: t.stops }
        | _, _ => { vals := none, reason := 0x0612, fmt := f, reruns := n, counts := r.2, fail := some x, stops := [st] }

/-! ## Output -/

/-- A row of outputs written, plain or blocked along N (R250, R251), with the counts of R245 and R257. -/
def outRow (f : Fmt) (blk : Bool) (g : Nat) (xs : List Num) : List Byte × Counts :=
  if blk then
    (chunks g xs).foldl (fun r grp =>
      let q := quantise f grp none
      let h := q.offset * 2 ^ 32 + q.scale * 2 ^ 16 + (if q.flat then 2 ^ 15 else 0)
      (r.1 ++ leBytes 8 h ++ packElems f (q.codes ++ List.replicate (g - q.codes.length) 0), r.2.add q)) ([], {})
  else (packElems f (xs.map (encodeFmt f)), { nan := (xs.filter (losesNaN f)).length })

/-- Bytes written from an address on, line by line (R310, R366), for a cluster. -/
def State.devWriteFuel (s : State) (c a : Nat) : Nat → List Byte → State
  | 0, _ => s
  | n + 1, bs =>
    if bs = [] then s
    else
      let k := 64 - a % 64
      ((s.lineWrite c a (bs.take k)).observe (plainAddr a)).devWriteFuel c (a + k) n (bs.drop k)

def State.devWrite (s : State) (c a : Nat) (bs : List Byte) : State := s.devWriteFuel c a (bs.length / 64 + 2) bs

/-- A row of bytes that the running descriptor writes over the trellis: it waits for a tag (R208, R306). -/
def State.mxSend (s : State) (c a : Nat) (bs : List Byte) : State :=
  s.modMx c fun x =>
    let acc : MAcc := { n := (x.run.map (·.n)).getD 0, ret := c * 8 + 5, write := true, a := a, len := bs.length, row := x.outs.length }
    { x with outs := x.outs ++ [bs], todo := x.todo ++ [acc] }

/-- Output of the matrix core: its own operand buffers take it directly; to any other place a row goes out over the trellis (R208). -/
def State.mxWrite (s : State) (c a : Nat) (bs : List Byte) : State :=
  match locate a with
  | .mxbuf c' o => if c' = c then s.bufPoke c o bs else s.mxSend c a bs
  | _ => s.mxSend c a bs

def State.countQf (s : State) (c : Nat) (k : Counts) : State :=
  (((s.bump .QF_SAT [c] k.sat).bump .QF_UND [c] k.und).bump .QF_FLAT [c] k.flat).bump .QF_NAN [c] k.nan

/-- Rows of exact values converted and written (R214, R215, R250, R256); the rows of a CONV are output positions, those of a world side by
side. -/
def State.writeOut (s : State) (c : Nat) (d : Desc) (p : Prof) (rows : List (List Num)) : State :=
  let worlds := if d.op = 2 then chunks (d.oh * d.ow) rows else rows.map fun r => [r]
  (worlds.zipIdx).foldl (fun s x =>
    let parts := (if d.outBlk p then x.1 else [x.1.flatten]).map (outRow d.outFmt (d.outBlk p) p.g)
    let s := s.mxWrite c (d.obase + x.2 * d.ostr) (parts.flatMap (·.1))
    parts.foldl (fun s r => s.countQf c r.2) s) s

/-! ## Starting and ending a descriptor -/

/-- The running descriptor has failed: it waits for its completion with STATUS 1, its re-runs kept (R213, R221, R261). -/
def State.mxFail (s : State) (c code reruns : Nat) : State :=
  s.modMx c fun x => { x with run := x.run.map fun r => { r with status := 1, reason := code, rerun := reruns } }

/-- A descriptor that loads or runs has failed on an access (R241, R312). -/
def State.mxFailAt (s : State) (c n code : Nat) : State :=
  let f (r : MRun) : MRun := if r.n = n ∧ r.status = 0 then { r with status := 1, reason := code, ran := true } else r
  s.modMx c fun x => { x with run := x.run.map f, next := x.next.map f }

def State.mxOk (s : State) (c reruns : Nat) : State := s.modMx c fun x => { x with run := x.run.map fun r => { r with rerun := reruns } }

/-! ## Operations -/

/-- How the operands accumulate (R254, R255): unscaled integers, FP32, or groups that are no longer than either operand's. -/
def accMode (d : Desc) (p : Prof) (f : Fmt) : AccMode :=
  let wf := fmtD d.wfmt
  let ga := if p.amode = 3 || !f.blockable then 64 else p.g
  let gw := if p.wblk then p.g else 64
  if f.isInt && wf.isInt && p.amode == 3 && !p.wblk then .int32
  else if f = .fp32 || wf = .fp32 then .fp32
  else .scaled (if p.amode ≠ 3 && f.blockable && p.wblk then p.g else min ga gw)

/-- The scales of the static table, one a K-group (R252); none where an entry breaks R252. -/
def State.staticTable (s : State) (c : Nat) (d : Desc) (p : Prof) : Option (List Nat) :=
  (List.range (d.groups p)).mapM fun g =>
    let w := leNat (s.opBytes c (s.val .QF_PTBL [c, d.prof] + 4 * g) 4)
    if 0x0080 ≤ w ∧ w ≤ 0x7F7F then some w else none

/-- The scales a rewritten table takes (R262): for each K-group, the scale of the largest magnitude over all rows. -/
def newTable (f : Fmt) (g ng : Nat) (src : List (List Num)) : List Nat :=
  (List.range ng).map fun i => scaleFor f (absMax (src.flatMap fun r => (chunks g r).getD i []))

/-- Bias, RELU and conversion of a row of accumulators (R256). -/
def State.finish (s : State) (c : Nat) (d : Desc) (row : List AccV) : List Num :=
  (row.zipIdx).map fun x =>
    let v := if d.bias then
        (match x.1 with
         | .int a => .int (int32Sat (a + sext 32 (leNat (s.opBytes c (d.bbase + 4 * x.2) 4))))
         | .fp a => .fp (f32Add a (leNat (s.opBytes c (d.bbase + 4 * x.2) 4))))
      else x.1
    (if d.relu then v.relu else v).num

/-- The rows of outputs of some rows of A (R255, R256), and the INT32 saturations. -/
def State.mxRows (s : State) (c : Nat) (d : Desc) (p : Prof) (f : Fmt) (w : List (List Num)) (a : List (List Num)) : List (List Num) × Nat :=
  let w := if f = .fp32 then w.map fun col => col.map fun x => decodeFmt .fp32 (encodeFmt .fp32 x) else w
  let acc := a.map fun r => w.map fun col => accumulate (accMode d p f) r col
  (acc.map fun r => s.finish c d (r.map (·.1)), ((acc.map fun r => (r.map (·.2)).sum).sum))

/-- The output tiles and the MACs of a run that stopped (R258). -/
def State.mxStopped (s : State) (c : Nat) (d : Desc) (p : Prof) (w : List (List Num)) (x : Stop) : State :=
  let r := s.mxRows c d p x.fmt w x.rows
  ((s.bump .QF_ACCSAT [c] r.2).writeOut c d p r.1).bump .MX_MACS [c] x.macs

/-- QF_FAILA and QF_FAILB of the first failing run (R261, R266). -/
def State.mxFailRegs (s : State) (c : Nat) (d : Desc) (ch : Chain) : State :=
  match ch.fail with
  | none => s
  | some x =>
    let tsat := s.fld .QF_PTOL [c, d.prof] QF_PTOL_TSAT
    (s.setVal .QF_FAILA [c] (d.tag * 2 ^ 16 + d.afmt * 2 ^ 12 + (if ch.vals.isSome then ch.fmt.code else 15) * 2 ^ 8
      + (if tsat != 255 && decide (x.2.2.sat > tsat) then 1 else 0))).setVal .QF_FAILB [c] ((x.1 % 2 ^ 16) * 2 ^ 16 + x.2.1 % 2 ^ 16)

/-- The runs of a multiply (R257 to R260): A as its mode says, the wrong W headers, and the static scales. -/
def State.mxChain (s : State) (c : Nat) (d : Desc) (p : Prof) (src : List (List Num)) (t : List Nat) : Chain :=
  let af := fmtD d.afmt
  if p.amode = 1 ∨ p.amode = 2 then
    runChain src p.asrc (fmtD d.wfmt) p.g (s.fld .QF_PTOL [c, d.prof] QF_PTOL_TSAT) (s.fld .QF_PTOL [c, d.prof] QF_PTOL_TUND) d.depth d.n
      (s.wBad c d p) (if d.usesTable p then some t else none) af 0 p.rsteps
  else if src.length < d.rows then brokenRun af (fmtD d.wfmt) p.g d.depth d.n d.rows (s.wBad c d p) src
  else lastRun (fmtD d.wfmt) p.g d.depth d.n (s.wBad c d p) af 0 src src.length {}

/-- The multiply of a descriptor (R214, R215, R254 to R262): the rows of A up to the first wrong header, the runs, the accumulation, the
output, the failure registers, and the rewritten table. `stopped`: the core cycles of the runs that stopped. -/
def State.mxMultiply (s : State) (c stopped : Nat) (d : Desc) (p : Prof) : State :=
  let src := (((List.range d.rows).map (s.aRow c d p)).takeWhile (·.isSome)).filterMap id
  match (if d.usesTable p then s.staticTable c d p else some []) with
  | none => s.mxFail c 0x0613 0
  | some t =>
    let s := s.loadResident c d p
    let w := s.wCols c d p
    let ch := s.mxChain c d p src t
    let s := (s.countQf c ch.counts).mxTiles c
    let s := (s.bump .QF_RERUNS [c] ch.reruns).bump .MX_RERUN [c] ch.reruns
    let s := (s.mxFailRegs c d ch).bump .QF_RRCYC [c] (if ch.stops = [] then 0 else stopped)
    let s := s.each (ch.stops ++ ch.broke.toList) fun s x => s.mxStopped c d p w x
    match ch.vals with
    | none => s.mxFail c ch.reason ch.reruns
    | some a =>
      let r := s.mxRows c d p ch.fmt w a
      let s := ((s.bump .QF_ACCSAT [c] r.2).writeOut c d p r.1).bump .MX_MACS [c] (d.rows * d.depth * d.n)
      let s := if d.usesTable p && decide (ch.reruns > 0) then
          s.mxWrite c (s.val .QF_PTBL [c, d.prof]) ((newTable (fmtD d.afmt) p.g t.length src).flatMap (leBytes 4))
        else s
      s.mxOk c ch.reruns


/-- Rows of A as exact values (R249: a blocked element is not rounded); none where a header is wrong. -/
def State.exactRows (s : State) (c : Nat) (d : Desc) (p : Prof) : Option (List (List Num)) := (List.range d.m).mapM (s.aRow c d p)

/-- One element of EW, each operation rounded to FP32 (R214, R246). -/
def ewOne (sub param : Nat) (x y bias : Num) (addBias : Bool) : Num :=
  let key := BitVec.ofNat 32 (roundF32 x)
  Num.r32 <| match sub with
  | 1 => (Num.add x y).r32
  | 2 => (Num.sub x y).r32
  | 3 => (Num.mul x y).r32
  | 4 => Num.max x y
  | 5 => Num.min x y
  | 6 => Num.max x (.fin false 0 0)
  | 7 => if Num.lt x (.fin false 0 0) then (Num.mul x (.fin false 1 (-(param % 32 : Nat)))).r32 else x
  | 8 => let z := (Num.mul (decodeFmt .fp32 param) x).r32; if addBias then (Num.add z bias).r32 else z
  | 9 => sigmoidOf x (Config.sigmoid key)
  | 10 => tanhOf x (Config.tanh key)
  | 11 => expOf x (Config.exp key)
  | 12 => Num.max (decodeFmt .fp32 param).neg (Num.min x (decodeFmt .fp32 param))
  | 13 => x.abs
  | _ => x

/-- The element of the second operand of EW, or of its bias row. -/
def State.ewSecond (s : State) (c : Nat) (d : Desc) (row col : Nat) : Num :=
  if 1 ≤ d.sub ∧ d.sub ≤ 5 then
    decodeFmt (fmtD d.wfmt) (packedElem (fmtD d.wfmt) (s.opBytes c (d.bbase + (if d.brow then 0 else row) * d.wstr) (packedLen (fmtD d.wfmt) d.n)) col)
  else .fin false 0 0
def State.ewBias (s : State) (c : Nat) (d : Desc) (col : Nat) : Num :=
  if d.bias && d.sub == 8 then decodeFmt .fp32 (leNat (s.opBytes c (d.bbase + 4 * col) 4)) else .fin false 0 0

/-- The output of EW. -/
def State.ewRows (s : State) (c : Nat) (d : Desc) (rows : List (List Num)) : List (List Num) :=
  (rows.zipIdx).map fun r => (r.1.zipIdx).map fun x =>
    let z := ewOne d.sub d.param x.1 (s.ewSecond c d r.2 x.2) (s.ewBias c d x.2) d.bias
    if d.relu then (Num.max z (.fin false 0 0)).r32 else z

/-- EW (R214). -/
def State.mxEw (s : State) (c : Nat) (d : Desc) (p : Prof) : State :=
  match s.exactRows c d p with
  | none => s.mxFail c 0x0611 0
  | some rows => ((s.mxTiles c).writeOut c d p (s.ewRows c d rows)).mxOk c 0

/-- One reduction (R214): the sum in a fixed pairwise tree, the mean, the maximum or minimum, or an index of one of them. -/
def reduceOne (sub : Nat) (relu : Bool) (xs : List Num) : Num :=
  let best := tree (if sub % 4 = 1 then Num.max else Num.min) (.fin false 0 0) xs
  if sub.testBit 3 then
    let at_ := ((xs.zipIdx).filter fun x => x.1 == best || Num.eq x.1 best).map (·.2)
    .ofInt (at_.getD (Config.tieIndex at_.length % at_.length) 0)
  else
    let sum := tree (fun a b => (Num.add a b).r32) (.fin false 0 0) xs
    let v := match sub % 4 with
      | 0 => sum
      | 3 => decodeFmt .fp32 (f32Div (roundF32 sum) (roundF32 (.ofInt xs.length)))
      | _ => best
    (if relu then Num.max v (.fin false 0 0) else v).r32

/-- REDUCE (R214). -/
def State.mxReduce (s : State) (c : Nat) (d : Desc) (p : Prof) : State :=
  match s.exactRows c d p with
  | none => s.mxFail c 0x0611 0
  | some rows =>
    let out := if d.sub.testBit 2 then
        [(List.range d.n).map fun j => reduceOne d.sub d.relu (rows.map fun r => r.getD j .nan)]
      else rows.map fun r => [reduceOne d.sub d.relu r]
    ((s.mxTiles c).writeOut c d p out).mxOk c 0

/-- An emit record with DIRECT = 0 (R146, R216). -/
def emitRec (kind world payload index : Nat) : DWord :=
  BitVec.ofNat 64 ((kind % 4) * 2 ^ 62 + (world % 2 ^ 14) * 2 ^ 41 + (payload % 256) * 2 ^ 33 + (index % 2 ^ 16) * 2 ^ 17)

/-- The emit port takes records while it has room for 16; the rest wait in the matrix core, which stalls (R216, R233). -/
def State.mxEmitFill (s : State) (c : Nat) : State :=
  let room := 16 - (s.getEng c 2).emitq.length
  let rs := (s.getMx c).recs.take room
  ((s.modEng c 2 fun u => { u with emitq := u.emitq ++ rs }).modMx c fun x => { x with recs := x.recs.drop room }).bump
    .MX_EREC [c] rs.length

/-- One element of ENCODE: whether a record is formed, its KIND and PAYLOAD, and the new delta state (R216). -/
def encodeOne (sub : Nat) (o : Fmt) (theta x d rnd : Nat) : Option (Nat × Nat) × Nat :=
  let v := decodeFmt .fp32 x
  match sub with
  | 0 => (if Num.lt v (decodeFmt .fp32 theta) || v == .nan || decodeFmt .fp32 theta == .nan then none else some (0, 1), d)
  | 1 => let q := encodeFmt o v; (if (decodeFmt o q).isZero then none else some (1, q), d)
  | 2 =>
    let lim : Num := if Num.lt v (.fin false 0 0) then .fin false 0 0 else if Num.lt (.ofInt 1) v then .ofInt 1 else v
    (if Num.lt (.ofInt rnd) (Num.mul lim (.ofInt (2 ^ 24))) then some (0, 1) else none, d)
  | _ =>
    let e := f32Sub x d
    let ev := (decodeFmt .fp32 e).abs
    if Num.lt ev (decodeFmt .fp32 theta) || ev == .nan || decodeFmt .fp32 theta == .nan then (none, d)
    else let q := encodeFmt o (decodeFmt .fp32 e); (some (1, q), f32Add d (encodeFmt .fp32 (decodeFmt o q)))

/-- ENCODE (R216). -/
def State.mxEncode (s : State) (c : Nat) (d : Desc) (p : Prof) : State :=
  match s.exactRows c d p with
  | none => s.mxFail c 0x0611 0
  | some rows =>
    let rows := rows.map fun r => r.map (encodeFmt .fp32)
    let w0 := bitsOf d.wbase 0 14
    let i0 := bitsOf d.wbase 16 16
    let t := s.wgWStep d.wg
    let cells := (rows.zipIdx).map fun r =>
      (r.1.zipIdx).map fun x =>
        let del := if d.sub = 3 then leNat (s.opBytes c (d.bbase + r.2 * d.wstr + 4 * x.2) 4) else 0
        let e := encodeOne d.sub (fmtD d.ofmt) d.param x.1 del (pairRand (s.val .MX_SEED [c]) (w0 + r.2) x.2 t)
        (e.1.map fun k => emitRec k.1 (w0 + r.2) k.2 (i0 + x.2), e.2)
    let recs := (cells.flatten).filterMap (·.1)
    let nan := if d.sub = 1 then ((rows.flatten.filter fun x => losesNaN (fmtD d.ofmt) (decodeFmt .fp32 x)).length) else 0
    let s := if d.sub = 3 then
        (cells.zipIdx).foldl (fun s r => s.mxWrite c (d.bbase + r.2 * d.wstr) (r.1.flatMap fun x => leBytes 4 x.2)) s
      else s
    ((((s.mxTiles c).bump .QF_NAN [c] nan).modMx c fun x => { x with recs := x.recs ++ recs }).mxEmitFill c).mxOk c 0

/-- GATHER (R217): spike counts of the group's worlds on the cores of CMASK. -/
def State.mxGather (s : State) (c : Nat) (d : Desc) (p : Prof) : State :=
  let cores := ((List.range 16).filter fun n => (bitsOf d.wbase 0 16).testBit n).filterMap fun n =>
    (s.gmapOf c n d.wg).map fun e => (n, e)
  if (cores.map fun x => s.gmNpw c x.1 x.2).sum ≠ d.n then s.mxFail c 0x0511 0
  else
    let inst (r : Nat) : List (Nat × Nat) := cores.flatMap fun x =>
      (List.range (s.gmNpw c x.1 x.2)).map fun j => (x.1, s.gmBase c x.1 x.2 + r * s.gmNpw c x.1 x.2 + j)
    let rows := (List.range d.m).map fun r => (inst r).map fun x => Num.ofInt (s.getRec c x.1 x.2).scnt
    let s' := s.writeOut c d p rows
    let s' := if d.sub = 1 then
        (List.range d.m).foldl (fun t r => t.each (inst r) fun t x => t.putRec c x.1 x.2 { t.getRec c x.1 x.2 with scnt := 0 }) s'
      else s'
    (s'.bump .MX_GREC [c] (d.m * d.n)).mxOk c 0

end Sys2Proof.Machine
end

