-- ==== Sys2Proof/Machine/Vcore.lean ====
section
/-! DEFINITION. The vector core's contexts (R223 to R225, R235, R240): start, stop and faults. -/

namespace Sys2Proof.Machine

/-- States of context 0 (R240). -/
def vxDisabled : Nat := 0
def vxRunning : Nat := 1
def vxWaiting : Nat := 2
def vxHalted : Nat := 3
def vxFaulted : Nat := 4

def State.vxState (s : State) (c v : Nat) : Nat := s.fld .VX_STATUS [c, v] VX_STATUS_STATE
def State.setVxState (s : State) (c v n : Nat) : State := s.setFld .VX_STATUS [c, v] VX_STATUS_STATE n
def State.vxSvc (s : State) (c v : Nat) : Bool := s.bit .VX_STATUS [c, v] VX_STATUS_SVC

/-- The enabled groups a vector core is bound to (R218). -/
def State.vxGroups (s : State) (c v : Nat) : List Nat :=
  nodups (((List.range 8).filter fun n => s.bit .VX_BIND [c, v, n] VX_BIND_EN).map fun n => s.fld .VX_BIND [c, v, n] VX_BIND_WG) |>.filter s.wgOn

/-- Context 0 stops: each bound enabled group halts at its next harvest with 0x0581 (R235). -/
def State.vxStopped (s : State) (c v : Nat) : State := s.each (s.vxGroups c v) fun s g => s.haltAtHarvest g 0x0581

/-- A halt that is at once for a group with no open step, and at the harvest for one with a step open (R235). -/
def State.haltSoon (s : State) (g code : Nat) : State :=
  if s.wgOpen g ∨ s.wgState g = wsSwapping ∨ s.wgState g = wsHalted then s.haltAtHarvest g code else s.haltNow g code

/-- A fault of the service context (R235): the set's writer groups halt with 0x0583, the set enters HALTED, and nothing flips. -/
def State.svcFault (s : State) (k : Nat) : State :=
  let s := (s.setFld .LR_SET_STATUS [0, k] LR_SET_STATUS_REASON 0x0583).setStage k lsHalted
  s.each (List.range 256) fun s g => if s.wgOn g && s.writerSet g == some k then s.haltSoon g 0x0583 else s

/-- A transfer of a vector core is no longer outstanding (R231, R234). -/
def State.vxFree (s : State) (c v key : Nat) : State :=
  s.modVx c v fun u => { u with out := u.out.filter (· != key), before := u.before.filter fun x => x.2 != key }

/-- A context faults (R235): the code, the address and the context are recorded and the context stops. -/
def State.vxFault (s : State) (c v ctx code : Nat) : State :=
  let pc := if ctx = 0 then (s.getVx c v).c0.pc else (s.getVx c v).c1.pc
  let s := (s.setFld .VX_STATUS [c, v] VX_STATUS_REASON code).setVal .VX_FPC [c, v] ((pc % 2 ^ 17 / 4) * 4 + ctx)
  let s := s.bump .VX_FAULTS [c, v]
  if ctx = 0 then (s.setVxState c v vxFaulted).vxStopped c v
  else
    let k := (s.getVx c v).set
    ((s.setFld .VX_STATUS [c, v] VX_STATUS_SVC 0).modVx c v fun x => { x with stage := 0 }).svcFault k

/-- VX_CFG.EN changes from 0 to 1: context 0 starts at VX_PC0 (R224, R240). -/
def State.vxEnable (s : State) (c v : Nat) : State :=
  if s.bit .VX_CFG [c, v] VX_CFG_EN then s
  else
    let s := (s.setFld .VX_CFG [c, v] VX_CFG_EN 1).setVxState c v vxRunning
    s.modVx c v fun x => { x with c0 := { x.c0 with pc := s.val .VX_PC0 [c, v], loops := [], emitted := 0 }, stopping := false }

/-- VX_CFG.EN changes from 1 to 0: context 0 stops at the next instruction boundary, which is this command's end in a model whose
instructions are whole (R239, R240); ignored while a bind entry names an enabled group. -/
def State.vxDisable (s : State) (c v : Nat) : State :=
  if !s.bit .VX_CFG [c, v] VX_CFG_EN || s.vxGroups c v != [] then s
  else (s.setFld .VX_CFG [c, v] VX_CFG_EN 0).setVxState c v vxDisabled

/-- Does a neuron core of the set lie on a vector core's side (R225: VC0 serves NC0 to NC7)? -/
def State.vxServes (s : State) (c v k : Nat) : Bool := (s.setActive2 k).any fun x => x.1 == c && x.2 / 8 == v

/-- Context 1 starts at an address with s1 the stage and s2 the set (R225). -/
def State.svcStart (s : State) (c v k stage pc : Nat) : State :=
  s.modVx c v fun x =>
    { x with stage := stage, set := k,
             c1 := { x.c1 with pc := pc, loops := [], emitted := 0,
                               s := mput (mput x.c1.s 1 (BitVec.ofNat 32 stage)) 2 (BitVec.ofNat 32 k) } }

/-- The standard service program runs to its SYS 0 (R176, R177, R224, R225): it carries the stage out, in the cycles and instructions it takes
(log entry 97), and context 0 goes on. -/
def State.svcRun (s : State) (bad : List Nat) (c v k : Nat) (took : SvcTook) : State :=
  (((((s.stdService bad c v k).setFld .VX_STATUS [c, v] VX_STATUS_SVC 0).modVx c v fun x => { x with stage := 0 }).bump
    .VX_SVCCYC [c, v] took.cycles).bump .VX_INSTR [c, v] took.instrs)

/-- A stage signal (R225): context 1 starts at its service entry with s1 the stage and s2 the set, once context 0 is between
instructions. Of a context that runs the standard program, whose words are not in the spec, the command is that program's run (log entry 97). -/
def State.serviceSignal (s : State) (bad : List Nat) (c v k : Nat) (took : SvcTook) : State :=
  let stage := if s.lsStage k = lsUpdate then 1 else if s.lsStage k = lsStructure then 2 else 0
  if stage = 0 || !s.vxServes c v k || !s.clusterOn c || s.fencedEng c (16 + v) then s
  else if s.vxSvc c v then
    if s.bit .VX_CFG [c, v] VX_CFG_STDSVC && (s.getVx c v).set == k && (s.getVx c v).stage == stage then s.svcRun bad c v k took else s
  else (s.svcStart c v k stage (if s.bit .VX_CFG [c, v] VX_CFG_STDSVC then 0x1C000 else s.val .VX_SVC [c, v])).setFld
    .VX_STATUS [c, v] VX_STATUS_SVC 1

/-- SYS 0 in the service context (R180, R225): the stage is reported for the cores this vector core serves, and context 0 goes on. -/
def State.svcHalt (s : State) (c v : Nat) : State :=
  let k := (s.getVx c v).set
  let stage := s.lsStage k
  let mine := (s.setActive2 k).filter fun x => x.1 == c && x.2 / 8 == v
  let s := (s.setFld .VX_STATUS [c, v] VX_STATUS_SVC 0).modVx c v fun x => { x with stage := 0 }
  if stage = lsUpdate ∨ stage = lsStructure then
    s.each mine fun s x => if s.lsStage k = stage then s.stageReport k (eidOf x.1 x.2) else s
  else s

end Sys2Proof.Machine
end

