-- ==== Sys2Proof/Machine/Trellis.lean ====
section
/-! DEFINITION. The trellis (R295 to R317, R323 to R327) and the arbiters of its targets (R384 to R390): schedules, slot tables and send
maps, and transfers piece by piece. A transfer is numbered by its requester endpoint × 32 + its tag (R306). -/

namespace Sys2Proof.Machine

/-! ## Images -/

/-- A circuit record (R302). -/
structure CRec where
  src : Nat
  dst : Nat
  first : Nat
  count : Nat
  stride : Nat
  nhops : Nat
  first2 : Nat
  path : Nat
  bad : Bool
  deriving DecidableEq, Repr

/-- A record from its 32 bytes; `bad` where it breaks R302 or R303 by itself. -/
def crecOf (x : Nat) : CRec :=
  let st := bitsOf x 64 4
  { src := bitsOf x 0 10, dst := bitsOf x 16 10, first := bitsOf x 32 10, count := bitsOf x 48 16, stride := st, nhops := bitsOf x 72 8,
    first2 := bitsOf x 80 16, path := bitsOf x 96 48,
    bad := bitsOf x 10 6 != 0 || bitsOf x 26 6 != 0 || bitsOf x 42 6 != 0 || bitsOf x 68 4 != 0 || bitsOf x 144 112 != 0 ||
      bitsOf x 48 16 == 0 || decide (bitsOf x 48 16 > 1024) || decide (st > 9) || decide (bitsOf x 72 8 > 24) ||
      decide (bitsOf x 48 16 * 2 ^ st > 1024) || (decide (bitsOf x 80 16 ≥ 1024) && bitsOf x 80 16 != 0xFFFF) }

/-- The walk of a path (R303): the clusters passed, each with its input SEL, its output, the slot base and the hops since that base, and
how often it crosses the seam; none where it leaves the grid. -/
def walkPath (first2 : Nat) : Nat → Nat → Nat → Nat → Nat → Nat → Option (List (Nat × Nat × Nat × Nat) × Nat × List Nat)
  | 0, c, sel, base, i, _ => some ([(c, sel, 99, base + i)], c, [])
  | n + 1, c, sel, base, i, path =>
    let d := path % 4
    match neighbour c d with
    | some c' =>
      (walkPath first2 n c' (arrives d + 1) base (i + 1) (path / 4)).map fun r => ((c, sel, d, base + i) :: r.1, r.2.1, r.2.2)
    | none =>
      if seamPort c = some d then
        let c' := if halfOf c = 0 then clusterOf 1 0 (yOf c) else clusterOf 0 7 (yOf c)
        (walkPath first2 n c' (arrives d + 1) first2 0 (path / 4)).map fun r => ((c, sel, d, base + i) :: r.1, r.2.1, halfOf c :: r.2.2)
      else none

/-- What a record expands to (R303, R305): the fields of its switches and its source's send map, the clusters it passes, and the
directions in which it crosses the seam; none where its path or endpoints are wrong (R304). -/
def CRec.expand (r : CRec) : Option (List TField × List Nat × List Nat) :=
  match epSel r.src, epOut r.dst with
  | some sel, some out =>
    match walkPath r.first2 r.nhops (epHome r.src) sel r.first 0 r.path with
    | none => none
    | some (steps, last, cross) =>
      if last ≠ epHome r.dst then none
      else
        let slots := (List.range r.count).map fun k => k * 2 ^ r.stride
        let fs := steps.flatMap fun x => slots.map fun t => TField.out x.1 ((x.2.2.2 + t) % 1024) (if x.2.2.1 = 99 then out else x.2.2.1) x.2.1
        some (fs ++ slots.map (fun t => .map r.src ((r.first + t) % 1024) r.dst), steps.map (·.1), cross)
  | _, _ => none

/-- The records of a schedule's image (R302). -/
def State.schedImage (s : State) (n : Nat) : List CRec :=
  let base := s.val .TL_SIMG [0, n]
  (List.range (s.fld .TL_SCFG [0, n] TL_SCFG_NREC)).map fun i => crecOf (s.peekLE (base + 32 * i) 32)

def State.setSch (s : State) (n x : Nat) : State := s.setFld .TL_SSTAT [0, n] TL_SSTAT_STATE x

/-- Is a cluster endpoint in the partition, and a gate-port endpoint bound to it (R304)? -/
def State.epOfPart (s : State) (p e : Nat) : Bool :=
  if e < 768 then s.partOfCluster (e / 8) == some p
  else if e < 792 then true
  else s.partOfPort (e - 792) == some p

/-- Two fields that claim one output in one slot (R304). -/
def outClash (a b : TField) : Bool :=
  match a, b with
  | .out c t o _, .out c' t' o' _ => c == c' && t == t' && o == o'
  | _, _ => false

/-- Does a list of fields claim an output twice? -/
def selfClash : List TField → Bool
  | [] => false
  | f :: t => t.any (outClash f) || selfClash t

/-- The fields of every enabled schedule but one. -/
def State.otherFields (s : State) (n : Nat) : List TField := ((List.range 64).filter (· != n)).flatMap fun k => (s.getSch k).mine

/-- The core clock of a cluster for R362: the lower of the present one and the one a change goes to. -/
def State.coreLow (s : State) (c : Nat) : Nat :=
  let e := s.fld .CK_CORE [c] CK_CORE_EFF
  if (s.getClk c).goal = 0 then e else min e (s.getClk c).goal

/-- The fabric clock of a half for R362: the higher of the present one and the one a change goes to. -/
def State.fabHigh (s : State) (h : Nat) : Nat :=
  let e := s.fld .CK_FAB [h] CK_FAB_EFF
  if (s.getHf h).fab = 0 then e else max e (s.getHf h).fabTo

/-- The check of a schedule (R304, R327, R362, R395, R442, R459, R464); 0: accepted. -/
def State.schedCheck (s : State) (n : Nat) : Nat :=
  let nrec := s.fld .TL_SCFG [0, n] TL_SCFG_NREC
  let p := s.fld .TL_SCFG [0, n] TL_SCFG_PART
  let recs := s.schedImage n
  if nrec = 0 ∨ nrec > 4096 ∨ !s.inRegion p (s.val .TL_SIMG [0, n]) (32 * nrec) ∨ recs.any (·.bad) then 0x0801
  else
    let ex := recs.map fun r => (r, r.expand)
    if ex.any (fun x => x.2.isNone || !s.epOfPart p x.1.src || !s.epOfPart p x.1.dst) then 0x0802
    else
      let full : List (CRec × List TField × List Nat × List Nat) := ex.filterMap fun x => x.2.map fun e => (x.1, e)
      let fields := full.flatMap fun x => x.2.1
      let others := s.otherFields n
      if full.any (fun x => (x.2.2.2 == []) != (x.1.first2 == 0xFFFF)) then 0x0801
      else if selfClash fields || fields.any (fun f => others.any (outClash f)) then 0x0803
      else if (List.range 24).any fun d =>
          decide (((fields ++ others).filter fun f => match f with | .map _ _ t => t == 768 + d | _ => false).length > 320) then 0x0804
      else if full.any (fun x => x.2.2.1.any fun c => (s.getRt c).hole) then 0x0805
      else if full.any (fun x => [x.1.src, x.1.dst].any fun e => decide (e < 768) && decide (e % 8 < 2) &&
          decide (s.coreLow (e / 8) < s.fabHigh (halfOf (e / 8)))) then 0x0A02
      else if s.isSplit && full.any (fun x => x.2.2.2 != []) then 0x0D05
      else if full.any (fun x => decide (x.2.2.2.length > 1)) then 0x0D02
      else if [0, 1].any fun d =>
          decide ((full.filter fun x => x.2.2.2 == [d]).length
            + ((List.range 64).flatMap fun k => (s.getSch k).cross.filter fun y => y.1 == d).length > 1024) then 0x0D02
      else if [0, 1].any fun d =>
          let add := ((full.filter fun x => x.2.2.2 == [d]).map fun x => x.1.count).sum
          add != 0 && decide (s.throttledLoad d + add > s.fld (capReg d) [] SM_CAPW2E_TSLOTS) then 0x0D01
      else 0

/-! ## Slot tables and send maps -/

/-- The clusters and endpoints a schedule's fields touch. -/
def Sch.clusters (x : Sch) : List Nat := nodups (x.mine.filterMap fun f => match f with | .out c _ _ _ => some c | _ => none)
def Sch.endpoints (x : Sch) : List Nat := nodups (x.mine.filterMap fun f => match f with | .map e _ _ => some e | _ => none)

/-- One field written into a table copy (R299, R305). -/
def writeSlot (m : List (Nat × Nat)) (n : Nat) : TField → List (Nat × Nat)
  | .out c t o sel => mmod m (c * 1024 + t) fun e => setBits e (10 * o) 10 (n * 16 + sel)
  | _ => m
def writeSmap (m : List (Nat × Nat)) (n : Nat) : TField → List (Nat × Nat)
  | .map e t d => mput m (e * 1024 + t) (n * 2 ^ 16 + 2 ^ 15 + d)
  | _ => m
def clearSlot (m : List (Nat × Nat)) : TField → List (Nat × Nat)
  | .out c t o _ => mmod m (c * 1024 + t) fun e => setBits e (10 * o) 10 0
  | _ => m
def clearSmap (m : List (Nat × Nat)) : TField → List (Nat × Nat)
  | .map e t _ => mput m (e * 1024 + t) 0
  | _ => m

/-- The entries of a copy for some owners (clusters or endpoints), and without them. -/
def onlyOf (m : List (Nat × Nat)) (ks : List Nat) : List (Nat × Nat) := m.filter fun e => ks.contains (e.1 / 1024)
def butOf (m : List (Nat × Nat)) (ks : List Nat) : List (Nat × Nat) := m.filter fun e => !ks.contains (e.1 / 1024)

/-- Two sparse maps with different keys put together. -/
def joinMaps (a b : List (Nat × Nat)) : List (Nat × Nat) := b.foldl (fun m e => mput m e.1 e.2) a

/-- The inactive copies of the nodes a schedule touches made equal to the active ones (R313). -/
def State.copyTables (s : State) (cs es : List Nat) : State :=
  { s with slotB := joinMaps (butOf s.slotB cs) (onlyOf s.slotA cs), smapB := joinMaps (butOf s.smapB es) (onlyOf s.smapA es) }

/-- The copies of some nodes exchanged (R313). -/
def State.swapTables (s : State) (cs es : List Nat) : State :=
  let s := { s with slotA := joinMaps (butOf s.slotA cs) (onlyOf s.slotB cs), slotB := joinMaps (butOf s.slotB cs) (onlyOf s.slotA cs),
                    smapA := joinMaps (butOf s.smapA es) (onlyOf s.smapB es), smapB := joinMaps (butOf s.smapB es) (onlyOf s.smapA es) }
  s.each cs fun s c => s.setFld .TL_STATUS [c] TL_STATUS_ACT (1 - s.fld .TL_STATUS [c] TL_STATUS_ACT)

/-- The slots a crossing circuit keeps (R448, R453). -/
def keptSlot (count c' k : Nat) : Bool := decide ((k + 1) * c' / count > k * c' / count)

/-- c' of a crossing circuit: reduced by the clocks where its near half is the faster, and by the throttle once it is in force. -/
def State.keptCount (s : State) (x : Sch) (d count : Nat) : Nat :=
  let near := s.fld .CK_FAB [d] CK_FAB_EFF
  match x.thr.find? fun y => y.1 == d with
  | some y => if y.2.1 < y.2.2 then count * y.2.1 * s.fSlow / (y.2.2 * near) else count * s.fSlow / near
  | none => count * s.fSlow / near

/-- The send-map entries of every crossing circuit masked (R448, R453). -/
def State.remask (s : State) : State :=
  s.each (List.range 64) fun s n => s.each (s.getSch n).cross fun s x =>
    s.each (List.range x.count) fun s k =>
      let key := x.src * 1024 + (x.first + k * 2 ^ x.stride) % 1024
      let e := mget s.smapA key
      if e = 0 then s
      else { s with smapA := mput s.smapA key (setBits e 15 1 (if keptSlot x.count (s.keptCount (s.getSch n) x.dir x.count) k then 1 else 0)) }

/-! ## Schedules -/

/-- The crossing record of a circuit record, if it crosses the seam (R446): the row is that of its first far switch. -/
def CRec.cross (r : CRec) (e : List TField × List Nat × List Nat) : Option XRec :=
  match e.2.2 with
  | [d] => some { dir := d, count := r.count, src := r.src, dst := r.dst, first := r.first, stride := r.stride, first2 := r.first2,
                  row := ((e.2.1.find? fun c => halfOf c != d).map yOf).getD 0 }
  | _ => none

/-- An accepted schedule starts to load (R313, R442, R446). -/
def State.schedStart (s : State) (n : Nat) : State :=
  let full := (s.schedImage n).filterMap fun r => r.expand.map fun e => (r, e)
  let fields := full.flatMap fun x => x.2.1
  let cross := full.filterMap fun x => x.1.cross x.2
  let s := s.modSch n fun _ => { todo := fields, mine := fields, paths := full.map fun x => (x.1.src, x.1.dst, x.2.2.1) }
  let s := s.each cross fun s y => (s.addCross n y).setVal (loadReg y.dir) [] (s.val (loadReg y.dir) [] + y.count)
  (s.setFld .TL_SCFG [0, n] TL_SCFG_EN 1).setSch n 1

/-- Is another schedule's load under way, so that this one's load or unload waits (R323)? -/
def State.loadBusy (s : State) (n : Nat) : Bool :=
  (List.range 64).any fun k => k != n && s.schState k == 1 && (s.getSch k).todo != (s.getSch k).mine

/-- CN_TLOAD (R313, R321): the steward's next field of a loading schedule is written into the inactive copy. -/
def State.tload (s : State) (n : Nat) : State :=
  let x := s.getSch n
  if s.schState n ≠ 1 ∨ s.loadBusy n then s
  else
    match x.todo with
    | [] => s
    | f :: t =>
      let s := if x.todo = x.mine then s.copyTables x.clusters x.endpoints else s
      { s with slotB := writeSlot s.slotB n f, smapB := writeSmap s.smapB n f }.modSch n fun x => { x with todo := t }

/-- The cluster that the next field of a loading schedule is written in. -/
def State.tloadAt (s : State) (n : Nat) : Nat :=
  match (s.getSch n).todo with
  | .out c _ _ _ :: _ => c
  | .map e _ _ :: _ => epHome e
  | [] => 0

/-- TL_STATUS.SUSP of a cluster as it reads (R326): is a schedule with a field there suspended? -/
def State.suspNow (s : State) (c : Nat) : Nat :=
  if (List.range 64).any (fun n => s.schState n == 3 && (s.getSch n).hasNode c) then 1 else 0

/-- The half of what suspends a schedule: a node, or 1,000 + a half. -/
def suspHalf (k : Nat) : Nat := if k ≥ 1000 then k - 1000 else halfOf k

/-- The halves a schedule has fields in. -/
def Sch.halves (x : Sch) : List Nat := [0, 1].filter fun h => x.clusters.any (fun c => halfOf c == h) || x.endpoints.any fun e => epHalf e == h

/-- One schedule at a frame boundary of a half (R313, R315, R316). -/
def State.schedFrame (s : State) (h n : Nat) : State :=
  let x := s.getSch n
  let here (l : List Nat) : List Nat := l.filter fun c => halfOf c == h
  let eps := x.endpoints.filter fun e => epHalf e == h
  match s.schState n with
  | 1 =>
    if x.mark = 2 then
      (s.setSch n 2).modSch n fun x => { x with susp := nodups (x.susp ++ (x.halves.filter s.isQuiet).map (1000 + ·)) }
    else if x.todo = [] then
      let swapped := if h = 0 then x.swapW else x.swapE
      let s := if swapped then s else (s.swapTables (here x.clusters) eps).remask
      let x' : Sch := if h = 0 then { x with swapW := true } else { x with swapE := true }
      s.modSch n fun _ => { x' with mark := if x'.swapW && x'.swapE then 2 else 1 }
    else s
  | 2 => if x.susp.any (fun k => suspHalf k == h) then s.setSch n 3 else s
  | 3 => if x.susp = [] then s.setSch n 2 else s
  | 4 =>
    let x' : Sch := if h = 0 then { x with swapW := true } else { x with swapE := true }
    s.modSch n fun _ => { x' with mark := if x.halves.all (fun k => if k = 0 then x'.swapW else x'.swapE) then 3 else 0 }
  | _ => s

/-- The throttle of a direction counts the frame boundaries of its near half (R453). -/
def State.throttleFrame (s : State) (h : Nat) : State :=
  s.modSdir h fun x => { x with thr := if x.thr > 1 then x.thr - 1 else x.thr }

/-- SEAM_THROTTLE (R453): two boundaries after the failover the reduced slots of the direction's crossings are in force. -/
def State.throttle (s : State) (d : Nat) : State :=
  if (s.getSdir d).thr ≠ 1 then s
  else
    let s := s.modSdir d fun x => { x with thr := 0 }
    let t := s.fld (capReg d) [] SM_CAPW2E_TSLOTS
    let load := s.val (loadReg d) []
    let s := s.each ((List.range 64).filter fun n => (s.getSch n).cross.any fun y => y.dir == d) fun s n =>
      s.modSch n fun x => { x with thr := (d, t, load) :: x.thr.filter (·.1 != d) }
    let s := (s.setFld .SM_STATUS [] SM_STATUS_THROTTLE 1).setFld .SM_STATUS [] SM_STATUS_REASON 0x0D06
    (s.post none 9 d 0xFFFF 0x0D06).remask

/-- Does a resume asked for take effect at the boundary: the half's hold buffer is empty (R461, DEDUCED, log entry 151)? -/
def State.resumes (s : State) (h : Nat) : Bool := (s.getHf h).resume && (s.getSdir h).hold == []

/-- What suspends or resumes the schedules of a half at its boundary (R316): a quiesce asked for, or a resume. -/
def State.suspHalves (s : State) (h : Nat) : State :=
  let hf := s.getHf h
  if hf.quiesce then
    s.each (List.range 64) fun s n =>
      if (s.getSch n).halves.contains h then s.modSch n fun x => { x with susp := nodups (x.susp ++ [1000 + h]) } else s
  else if s.resumes h then s.each (List.range 64) fun s n => s.modSch n fun x => { x with susp := x.susp.filter (· != 1000 + h) }
  else s

/-- FRAME_BOUNDARY of a half (R295, R313, R315, R316, R461): also slot 32 of the frame that begins, at which QUIET and the holes of fabric resets
show (log entry 80). -/
def State.frameBoundary (s : State) (h : Nat) : State :=
  let s := (s.bump .TL_FRAME [h * 48]).suspHalves h
  let s := s.each (List.range 64) fun s n => s.schedFrame h n
  let hf := s.getHf h
  let mine := (List.range 48).map fun i => h * 48 + i
  let s := if hf.quiesce then s.each mine fun s c => s.setFld .TL_STATUS [c] TL_STATUS_QUIET 1
    else if s.resumes h then s.each mine fun s c => s.setFld .TL_STATUS [c] TL_STATUS_QUIET 0 else s
  let s := s.each mine fun s c => s.fresetMark c
  let later := hf.resume && !s.resumes h
  (s.modHf h fun x => { x with quiesce := false, resume := later }).throttleFrame h

/-- TL_CTRL: QUIESCE and RESUME take effect at the next boundary of the half (R316). -/
def State.quiesce (s : State) (h : Nat) : State := s.modHf h fun x => { x with quiesce := true, resume := false }
def State.resumeHalf (s : State) (h : Nat) : State := s.modHf h fun x => { x with resume := true, quiesce := false }

/-- EN written to 0 (R315): the schedule drains. The endpoints of an ACTIVE one send up to the next frame boundary; those of one that was not
ACTIVE send nothing (R313, R316). -/
def State.schedStop (s : State) (n : Nat) : State :=
  let st := s.schState n
  let s := s.setFld .TL_SCFG [0, n] TL_SCFG_EN 0
  if st = 0 ∨ st = 4 then s
  else (s.setSch n 4).modSch n fun x => { x with mark := 0, todo := [], swapW := st != 2, swapE := st != 2 }

/-! ## Beats on their way -/

/-- A beat arrives at an endpoint (R323, R324): 0 received, 2 discarded where the endpoint is down; a request is taken and refused. -/
def State.arriveAt (s : State) (t : Nat) (b : Beat) : State × Nat :=
  if b.kind != 1 && !s.epUp t then (s.bump .TL_EPDISC [epHome t], 2) else (s.bump .TL_EPRX [epHome t], 0)

/-- A beat leaves its endpoint in a slot and follows the slot tables (R300, R303, R305): 0 it has arrived, 1 it has entered the seam, 2 it is
lost. -/
def State.launch (s : State) (e t slot : Nat) (b : Beat) (key piece : Nat) : State × Nat :=
  let w := match epSel e with | some sel => s.beatWalk 26 (epHome e) sel slot | none => []
  let s := (s.bump .TL_EPTX [epHome e]).countHops w
  if w.any fun x => x.2 == some t then s.arriveAt t b
  else
    match (s.crossings (epHalf e)).find? fun y => y.src == e && y.dst == t && y.nearSlot slot with
    | some y => if w.any fun x => x.2 == some 1024 then (s.seamBeat (epHalf e) { cross := y.index, key := key, piece := piece, beat := b }, 1)
        else (s, 2)
    | none => (s, 2)

/-- Does the far bridge hold the beats of a crossing: its half is quiesced, or the schedule is suspended, or drains from there (R316)? -/
def State.bridgeHolds (s : State) (d : Nat) (y : XRec) : Bool :=
  s.isQuiet (1 - d) || (List.range 64).any fun n =>
    (s.schState n == 3 || (s.schState n == 4 && (s.getSch n).susp != [])) &&
      (s.getSch n).cross.any fun z => z.dir == d && z.index == y.index

/-- The oldest beat of a crossing leaves the far bridge in a far slot, if it is the beat of a transfer's piece (R447): the beat, and 0 or 2
as above. -/
def State.farLand (s : State) (d slot key piece kind : Nat) : Option (State × Nat × Beat) :=
  match s.seamHead d slot key piece kind with
  | none => none
  | some (y, b) =>
    if s.bridgeHolds d y then none else
    let w := s.beatWalk 26 (edgeOf d y.row) (edgeIn d + 1) slot
    let s := (s.seamTake d b).countHops w
    if w.any fun x => x.2 == some y.dst then let r := s.arriveAt y.dst b.beat; some (r.1, r.2, b.beat) else some (s, 2, b.beat)

/-- A beat carried one stage (R305, R447): from its endpoint in a slot of the circuit, or out of the seam; none where it cannot move in that
slot. The keep-store window needs no circuit (log entry 81). -/
def State.carry (s : State) (svc : Option Nat) (src dst slot fly : Nat) (b : Beat) (key piece : Nat) : Option (State × Nat) :=
  if src = keepEnd ∨ dst = keepEnd then some (s, 0)
  else if fly = 1 then (s.farLand (epHalf src) slot key piece b.kind).map fun r => (r.1, r.2.1)
  else if fly = 0 ∧ s.slotTo svc src slot dst then some (s.launch src dst slot b key piece)
  else none


/-! ## Transfers -/

/-- Does the seam hold a beat of a transfer? -/
def State.seamHasKey (s : State) (key : Nat) : Bool :=
  [0, 1].any fun d =>
    let x := s.getSdir d
    (x.hold ++ x.tq ++ x.fifo).any (fun b => b.key == key) ||
    x.moved.any (fun c => match c with | .beat b => b.key == key | _ => false) ||
    (List.range 4).any fun l => (s.getLane d l).buf.any fun e => match e.2 with | .beat b => b.key == key | _ => false

/-- A free tag of an endpoint (R306): no transfer has it, and no beat of an earlier one is still in the seam. -/
def State.freeTag (s : State) (e : Nat) : Option Nat :=
  (List.range 32).find? fun t => (s.getXfer (e * 32 + t)).own == .none && !s.seamHasKey (e * 32 + t)

/-- Is a transfer under way? -/
def Xfer.live (x : Xfer) : Bool := x.own != .none && x.fin == 0

/-- A tray's bulk transfers and sends run on the partition's service circuits (R301, R413). -/
def Xfer.svc (x : Xfer) : Option Nat := match x.own with | .tray _ _ => some x.part | _ => none

/-- The arbiter of a target (R384), its number of entries, and its loss counter. -/
def arbOf (t : Nat) : Option (Nat × Nat) :=
  if 768 ≤ t ∧ t < 792 then some (t - 768, 64) else if 792 ≤ t ∧ t < 800 then some (24 + (t - 792), 32) else none


/-- Does a piece lie at an arbiter? -/
def Piece.atArb (p : Piece) (k : Nat) : Bool := (arbOf p.tgt).map (·.1) == some k

/-- Does a requester still wait at an arbiter, in a hold slot or backing off (R386, R387)? -/
def State.waitsAt (s : State) (e k : Nat) : Bool :=
  s.xfer.any fun x => x.2.ep == e && x.2.live && x.2.pieces.any fun p => p.st != 1 && (p.st == 4 || p.back != 0) && p.atArb k

/-- What an ended piece gives up: the grant it holds, or its place among the waiters (R385, R390). -/
def State.pieceFree (s : State) (e : Nat) (p : Piece) : State :=
  match arbOf p.tgt with
  | none => s
  | some (k, _) =>
    if p.st = 1 then s.arbFree k e
    else if s.waitsAt e k then s
    else s.arbLeave k e

/-- Beats of a transfer or piece that has ended leave the seam, their credits with them (log entry 84). -/
def State.seamDrop (s : State) (gone : SBeat → Bool) : State :=
  s.each [0, 1] fun s d => s.modSdir d fun x =>
    { x with hold := x.hold.filter fun b => !gone b, tq := x.tq.filter fun b => !gone b, fifo := x.fifo.filter fun b => !gone b,
             tUsed := x.tUsed - (x.tq.filter gone).length, tRet := x.tRet + (x.fifo.filter gone).length }

/-- The accesses of a matrix core that wait for a tag start, as far as tags are free (R208, R306, R308): a read of whole lines, or a row of
results; the data of a read for TW come in at MXW, which the request names in RET (R309). -/
def State.mxFeedFuel (s : State) (c : Nat) : Nat → State
  | 0 => s
  | k + 1 =>
    match (s.getMx c).todo, s.freeTag (c * 8 + 5) with
    | a :: rest, some t =>
      let lo := a.a / 64 * 64
      let x : Xfer := { own := .mx c a.n a.ret, part := (s.partOfCluster c).getD 8, ep := c * 8 + 5, write := a.write, dev := lo,
                        loc := if a.write then a.row * 2 ^ 48 else lo, len := linesOf a.a a.len * 64 }
      ((s.modMx c fun m => { m with todo := rest }).modXfer ((c * 8 + 5) * 32 + t) fun _ => x).mxFeedFuel c k
    | _, _ => s

def State.mxFeed (s : State) (c : Nat) : State := s.mxFeedFuel c 32

/-- Is a transfer one of a matrix core's descriptor? -/
def Xfer.ofMx (x : Xfer) (c n : Nat) : Bool := match x.own with | .mx k m _ => k == c && m == n | _ => false

/-- The accesses of a descriptor end: those that wait, and those under way, with what they hold (R241, R312; log entry 168). -/
def State.mxCut (s : State) (c n : Nat) : State :=
  let s := s.modMx c fun x => { x with todo := x.todo.filter fun a => a.n != n }
  s.each (s.xfer.filter fun y => y.2.ofMx c n) fun s y =>
    (s.each y.2.pieces fun s p => s.pieceFree y.2.ep p).seamDrop (fun b => b.key == y.1) |>.modXfer y.1 fun _ => {}

/-- What a transfer that ends early has outstanding is gone (R308, R338, R385): its request at a target, its beats in the seam, its grants. -/
def State.xferCut (s : State) (key : Nat) : State :=
  let x := s.getXfer key
  let s := ((s.modXfer key fun x => { x with pieces := [] }).dropReq key).seamDrop fun b => b.key == key
  s.each x.pieces fun s p => s.pieceFree x.ep p

/-- A failed transfer (R311, R312, R315, R317): its code stands in TL_LASTERR with the address, and its owner learns it: a vector core's
context faults with 0x0523, a matrix core's descriptor fails with 0x0512, or 0x0515 at the split, a tray command ends with the code. -/
def State.xferFail (s : State) (key code a : Nat) : State :=
  let x := s.getXfer key
  if x.own = .none ∨ x.fin ≠ 0 then s
  else
    let s := (s.xferCut key).modXfer key fun x => { x with fin := 2, code := code }
    let s := s.setVal .TL_LASTERR [epHome x.ep] (code * 2 ^ 48 + a % 2 ^ 48)
    match x.own with
    | .vx c v ctx => ((s.vxFree c v key).modXfer key fun _ => {}).vxFault c v ctx 0x0523
    | .mx c n _ => (((s.modXfer key fun _ => {}).mxCut c n).mxFailAt c n (if code = 0x0D12 then 0x0515 else 0x0512)).mxFeed c
    | _ => s

/-- Is it this send's turn at its handle (R339): no request of the handle outstanding, and no earlier send waiting? -/
def State.handleTurn (s : State) (key : Nat) : Bool :=
  let x := s.getXfer key
  !(s.xfer.any fun y => y.1 != key && y.2.handle == x.handle && y.2.live && (y.2.issued != 0 || decide (y.2.seq < x.seq)))

/-- A send goes out (R339): its SEQ is the handle's, which counts on. -/
def State.handleSend (s : State) (key : Nat) : State :=
  let h := (s.getXfer key).handle - 1
  if h < 0x10000 then
    let q := s.val .MQ_SH_SEQ [h / 64, h % 64]
    ((s.modXfer key fun x => { x with seq := q }).setVal .MQ_SH_SEQ [h / 64, h % 64] ((q + 1) % 2 ^ 16)).bump .MQ_SENT [h / 64]
  else
    let n := (h - 0x10000) / 16
    let q := mget (s.getGp n).seqs (h % 16)
    (s.modXfer key fun x => { x with seq := q }).modGp n fun g => { g with seqs := mput g.seqs (h % 16) ((q + 1) % 2 ^ 16) }

/-- The code a broken schedule of an endpoint leaves (R317, R458). -/
def State.brokenCode (s : State) (e : Nat) : Nat :=
  if (List.range 64).any fun n => s.schState n == 5 && (s.getSch n).endpoints.contains e && s.fld .TL_SSTAT [0, n] TL_SSTAT_REASON == 0x0D12
  then 0x0D12 else 0x0813

/-- A vector core's transfer with a core store of its own cluster does not use the trellis (R231). -/
def State.localXfer (s : State) (x : Xfer) : Bool :=
  let _ := s
  x.handle == 0 && (match x.own, locate x.dev with | .vx c _ _, .core k _ _ => c == k | _, _ => false)

/-- A message reports the loss of the seam under 0x0913 (R458). -/
def Xfer.seamCode (x : Xfer) (code : Nat) : Nat := if code = 0x0D12 ∧ x.handle ≠ 0 then 0x0913 else code

/-- OP of a transfer's requests (R307, R338). -/
def State.xferOp (s : State) (x : Xfer) : Nat :=
  if x.handle = 0 then (if x.write then 1 else 0) else match s.tkAt x.dev with | some t => if tkQueue t then 3 else 2 | none => 2

/-- The request beat of a piece (R307). -/
def State.requestBeat (s : State) (key : Nat) (x : Xfer) (p : Piece) : Beat :=
  mkBeat 1 (key % 32) (requestBytes p.a x.ep p.n (s.xferOp x) p.ret p.rv)

/-- Where the next piece of a transfer starts, its length, and the endpoints that reach it. -/
def Xfer.nextAt (x : Xfer) : Nat := x.dev + x.issued
def Xfer.nextLen (x : Xfer) : Nat := if x.handle ≠ 0 then x.len else pieceLen x.nextAt (x.len - x.issued)
def State.nextTo (s : State) (x : Xfer) : List Nat := if x.handle ≠ 0 then s.targets x.dev else s.targets x.nextAt

/-- May a transfer send its next request at all (R308, R339): fewer than eight pieces are outstanding, and a send has its turn? -/
def State.mayIssue (s : State) (key : Nat) : Bool :=
  let x := s.getXfer key
  x.live && !s.localXfer x && decide (x.issued < x.len) && decide (x.pieces.length < 8) && s.epSends x.ep && (x.handle == 0 || s.handleTurn key)

/-- Has an endpoint still to send data of an earlier write on its circuit to a target (R308)? Of a piece that has been refused, or whose request
is lost, no data go out. -/
def State.dataOwed (s : State) (e t : Nat) : Bool :=
  s.xfer.any fun y => y.2.ep == e && y.2.live && y.2.write && y.2.handle == 0 && y.2.pieces.any fun p =>
    p.tgt == t && p.st != 2 && p.st != 3 && !(p.st == 0 && p.fly == 2) && decide (p.sent < p.n)

/-- RET and RV of a transfer's requests (R309). -/
def Xfer.ret (x : Xfer) : Nat × Bool := match x.own with | .mx _ _ r => (r, r != x.ep) | _ => (x.ep, false)

/-- The code of a piece that its requester refuses (R312, R458): a target that is not there is refused as such. -/
def State.noCircuitCode (s : State) (x : Xfer) (ts : List Nat) : Nat :=
  if ts = [] then 0x0812 else if s.isSplit && (ts.all fun t => epHalf t != epHalf x.ep) then x.seamCode 0x0D12 else 0x0811

/-- TRELLIS_PIECE_ISSUE (R305, R307, R308, R312): the next piece is requested in a slot of a circuit to its target; without one it is refused
locally. -/
def State.pieceIssue (s : State) (key slot : Nat) : State :=
  let x := s.getXfer key
  if !s.mayIssue key then s
  else
    let a := x.nextAt
    let ts := s.nextTo x
    let send (t : Nat) : State :=
      let p : Piece := { a := a, n := x.nextLen, tgt := t, ret := x.ret.1, rv := x.ret.2 }
      let s := if x.handle ≠ 0 then s.handleSend key else s
      match s.carry x.svc x.ep t slot 0 (s.requestBeat key x p) key a with
      | some r => r.1.modXfer key fun x => { x with issued := x.issued + p.n, pieces := x.pieces ++ [{ p with fly := r.2 }] }
      | none => s
    if ts = [keepEnd] then send keepEnd
    else
      match s.circuitTo x.svc x.ep ts with
      | 0 => let code := s.noCircuitCode x ts
             ((s.countRefused (epHome x.ep) code).countStray (some x.part) (epHome x.ep) a code).xferFail key code a
      | 3 => s.xferFail key (x.seamCode (s.brokenCode x.ep)) a
      | 2 => s
      | _ =>
        match ts.find? fun t => s.slotTo x.svc x.ep slot t && !s.dataOwed x.ep t with
        | some t => send t
        | none => s

def State.setPiece (s : State) (key k : Nat) (f : Piece → Piece) : State :=
  s.modXfer key fun x => { x with pieces := x.pieces.mapIdx fun i p => if i = k then f p else p }

/-! ## Arbiters -/

/-- The piece of a requester that waits at an arbiter in a hold slot. -/
def State.heldPiece (s : State) (e k : Nat) : Option (Nat × Nat) :=
  (s.xfer.filter fun x => x.2.ep == e && x.2.live).findSome? fun x =>
    ((x.2.pieces.zipIdx).find? fun p => p.1.st == 4 && p.1.atArb k).map fun p => (x.1, p.2)

/-- A waiter in a hold slot of a channel or of staging is granted (R387): its piece starts; one whose piece has gone leaves. -/
def State.pieceGranted (s : State) (k e : Nat) : State :=
  match s.heldPiece e k with
  | none => s.arbLeave k e
  | some (key, i) => (s.arbGrantHeld k e).setPiece key i fun p => { p with st := 1, back := 0 }

/-- ARBITER_GRANT (R384, R386 to R388): an arbiter with a free entry grants its oldest waiter in a hold slot, or keeps the entry for a requester
that backs off when the grant is that one's. Requesters that back off ask again by themselves. `lost`: of a keep-store arbiter, the page
operations it has refused since its last grant (log entry 166). -/
def State.arbGrant (s : State) (bad : List Nat) (k lost : Nat) : State :=
  let s := if k ≥ 800 then s.arbLoss k lost else s
  let cap := if k < 24 then 64 else if k < 32 then 32 else 1
  if (s.getArb k).held.length ≥ cap then s
  else
    match s.arbHeld k with
    | none => s.arbReserve k
    | some e => if k < 32 then s.pieceGranted k e else if k < 800 then s.sinkGranted bad ((k - 32) / 8) ((k - 32) % 8) e else s

/-- The pieces of an endpoint at an arbiter, and their beats in the seam, changed for another start (R389, R390). -/
def State.restartPieces (s : State) (k e : Nat) (f : Piece → Piece) : State :=
  let hit := s.xfer.filter fun x => x.2.ep == e && x.2.live
  let s := s.seamDrop fun b => hit.any fun x => x.1 == b.key && x.2.pieces.any fun p => p.a == b.piece && p.st == 1 && p.atArb k
  s.each hit fun s x => s.modXfer x.1 fun y => { y with pieces := y.pieces.map fun p => if p.atArb k then f p else p }

/-- GRANT_REVOKE (R389): the grant of a requester is taken back, and counted; its piece restarts as a whole, from its hold slot in hold mode.
A bank's and a keep-store bank's grants do not outlast the operation they are for, and none is there to revoke (log entry 166). -/
def State.revoke (s : State) (k e : Nat) : State :=
  if k < 32 ∧ (s.getArb k).held.contains e then
    let s := s.arbFree k e
    let s := if k < 24 then s.bump .DM_REVOKE [k] else s
    let hold := s.holdMode k e
    let s := if hold then s.modArb k fun a => { a with wait := a.wait ++ [(e, true)] } else s
    s.restartPieces k e fun p =>
      if p.st = 1 then { p with st := if hold then 4 else 2, fly := 0, code := 0x0B11, moved := 0, sent := 0 } else p
  else s

/-! ## Pieces at their targets -/

/-- The cluster that reports for a piece's target. -/
def Xfer.tgtHome (x : Xfer) (p : Piece) : Nat := epHome (if p.tgt = keepEnd then x.ep else p.tgt)

/-- A piece refused by its target with a code: the refusal beat has to be sent. -/
def State.setRefused (s : State) (key k code : Nat) : State := s.setPiece key k fun p => { p with st := 2, fly := 0, code := code }

/-- A request refused at its target (R312): the piece takes the code, the refusal is counted, a stray one against the requester's cluster
(R39, R41, R530), a bank's own at the bank (R363, R367). -/
def State.requestRefused (s : State) (key k : Nat) (x : Xfer) (p : Piece) (code : Nat) : State :=
  (((s.countRefused (x.tgtHome p) code).setRefused key k code).countStray (some x.part) (epHome x.ep) p.a code).countDeny p.a code

/-- A request that the target cannot answer, with no circuit to where its answers go (R309): discarded, counted and recorded. -/
def State.requestDiscarded (s : State) (key k : Nat) (x : Xfer) (p : Piece) : State :=
  ((s.bump .TL_REFUSED [x.tgtHome p]).setVal .TL_LASTERR [x.tgtHome p] (0x0811 * 2 ^ 48 + p.a % 2 ^ 48)).setPiece key k fun p => { p with fly := 2 }

/-- The ownership count of the bank that holds an address (R364, R365). -/
def State.ownGen (s : State) (a : Nat) : Nat :=
  match locate a with
  | .bank c o => (s.getBk c (bankOf o)).gen
  | .setAlias c o => (s.getBk c (bankOf o)).gen
  | .clrAlias c o => (s.getBk c (bankOf o)).gen
  | _ => 0

/-- A request at a target with an arbiter (R378, R384, R390): a channel that is not ON starts to wake, and the piece waits in the queue; it is
granted, held, or refused with 0x0B10. A marked requester's request is removed, and it starts again with its back-off count at 8. -/
def State.requestArb (s : State) (key k : Nat) (x : Xfer) (ak cap : Nat) : State :=
  if s.arbMarked x.ep then s.setPiece key k fun p => { p with st := 3, back := 8 }
  else
    let s := if ak < 24 && !s.chanOn ak then s.wakeDomain (196 + ak) 4 else s
    let r := s.arbAsk ak cap x.ep
    r.2.setPiece key k fun p =>
      if r.1 then { p with st := 1, back := 0 }
      else if s.holdMode ak x.ep then { p with st := 4 } else { p with st := 2, fly := 0, code := 0x0B10 }

/-- A target takes a request it has received and answered for: it starts, or meets the arbiter; a write to the keep-store window is dropped
and counted (R42). -/
def State.requestTaken (s : State) (key k : Nat) (x : Xfer) (p : Piece) : State :=
  match arbOf p.tgt with
  | some (ak, cap) => s.requestArb key k x ak cap
  | none =>
    let s := if p.tgt = keepEnd then (if x.write then s.bump .PC_STRAY [epHome x.ep] else s.keepOps p.a p.n) else s.coreTouch p.a
    s.setPiece key k fun q => { q with st := 1, gen := s.ownGen p.a }

/-- The refusal code of a piece at its target (R312), pages of the keep store in the lost half included (R191, R458). -/
def State.pieceCode (s : State) (x : Xfer) (p : Piece) : Nat :=
  let code := s.reachCode (some x.part) x.ep p.a p.n x.write
  if code ≠ 0 then code
  else
    match locate p.a with
    | .keep q o => if s.isSplit && (s.keepHalves q o p.n).any (· != epHalf x.ep) then 0x0D12 else 0
    | _ => 0

/-- A request at its target (R309, R311, R312): the beat's check, the circuit for the answer, RET, and the reach of the access. -/
def State.requestAt (s : State) (key k : Nat) (x : Xfer) (p : Piece) (err : BeatErr) : State :=
  if err = .multi then (s.bump .TL_UNCORR [x.tgtHome p]).setRefused key k 0x0810
  else
    let s := if err = .single then s.bump .TL_CORR [x.tgtHome p] else s
    if p.tgt ≠ keepEnd ∧ s.circuit x.svc p.tgt (answerEnd x.ep p.ret p.rv) = 0 then s.requestDiscarded key k x p
    else if p.rv && !retValid x.ep p.ret then s.requestRefused key k x p 0x0814
    else
      let code := s.pieceCode x p
      if code ≠ 0 then s.requestRefused key k x p code else s.requestTaken key k x p

/-- TRELLIS_REQUEST (R307, R312, R378, R384): the request of a piece reaches its target, out of the seam where it crosses, and the target
refuses it, keeps it waiting, or starts the read or write. -/
def State.pieceRequest (s : State) (key k slot : Nat) (err : BeatErr) : State :=
  let x := s.getXfer key
  match x.pieces[k]? with
  | none => s
  | some p =>
    if !x.live || p.st != 0 || x.handle != 0 then s
    else if p.fly = 0 then s.requestAt key k x p err
    else if p.fly = 1 then
      match s.farLand (epHalf x.ep) slot key p.a 1 with
      | some (s, 0, _) => (s.setPiece key k fun p => { p with fly := 0 }).requestAt key k x p err
      | some (s, _, _) => s.setPiece key k fun p => { p with fly := 2 }
      | none => s
    else s

/-- The bytes at the local place of a transfer (R308): the vector core's local store, the port's staging, or the matrix core's rows of results
and operands; of a row that ends within a line the beat carries the row's bytes (log entry 167). -/
def State.locPeek (s : State) (o : XOwn) (off n : Nat) : List Byte :=
  match o with
  | .vx c v _ => s.peekN (vcAddr c v off) n
  | .tray p _ => (List.range n).map fun i => mget s.staging (p * 2 ^ 28 + off + i)
  | .mx c _ _ => (((s.getMx c).outs.getD (off / 2 ^ 48) []).drop (off % 2 ^ 48)).take n
  | .none => List.replicate n 0
def State.locPoke (s : State) (o : XOwn) (off : Nat) (bs : List Byte) : State :=
  match o with
  | .vx c v _ => s.poke (vcAddr c v off) bs
  | .tray p _ => { s with staging := pokeMem s.staging (p * 2 ^ 28 + off) bs }
  | .mx c _ _ => s.modMx c fun x => { x with opnd := pokeMem x.opnd off bs }
  | .none => s


/-- A message's bytes reach its target unit (R338). -/
def State.msgBeat (s : State) (key : Nat) (x : Xfer) (bs : List Byte) : State :=
  s.modChan (x.target - 1) fun ch => { ch with reqs := ch.reqs.map fun r => if r.key = key then { r with data := r.data ++ bs } else r }

/-- The bytes of a beat stored at its end (R310, R338): at the target, at the requester, or in the message unit. -/
def State.landBeat (s : State) (key k : Nat) (x : Xfer) (p : Piece) (bs : List Byte) : State :=
  let s := if x.handle ≠ 0 then s.msgBeat key x bs
    else if x.write then (s.lineWrite (epHome x.ep) (p.a + p.moved) bs).observe (plainAddr (p.a + p.moved))
    else s.locPoke x.own (x.loc + (p.a - x.dev) + p.moved) bs
  s.setPiece key k fun p => { p with moved := p.moved + 64 }

/-- The bytes a beat carries (R307, R308). -/
def State.beatBytes (s : State) (x : Xfer) (p : Piece) (off : Nat) : List Byte :=
  if x.write then s.locPeek x.own (x.loc + (p.a - x.dev) + off) 64 else s.readBytes (p.a + off) 64

/-- The target ends a started piece with a code (R311, R312, R374): beats of it still under way are discarded. -/
def State.beatRefuse (s : State) (key k : Nat) (x : Xfer) (p : Piece) (code : Nat) : State :=
  ((s.pieceFree x.ep p).setRefused key k code).seamDrop fun b => b.key == key && b.piece == p.a

/-- The accesses that still run at places of a scope that goes into reset are refused (R511, R312). -/
def State.refuseInto (s : State) (hit : Nat → Bool) : State :=
  s.each (s.xfer.filter fun x => x.2.live) fun s x =>
    s.each (x.2.pieces.zipIdx.filter fun p => p.1.runs x.2.write && hit p.1.a) fun s p =>
      (s.countRefused (x.2.tgtHome p.1) 0x0812).beatRefuse x.1 p.2 x.2 p.1 0x0812

/-- Does a beat replace the stored line whatever it held: a write but not through an alias (R366)? -/
def Xfer.plain (x : Xfer) (p : Piece) : Bool := x.write && (match locate p.a with | .setAlias _ _ => false | .clrAlias _ _ => false | _ => true)

/-- The cluster that counts a beat's errors (R311): the receiving one. -/
def Xfer.endHome (x : Xfer) (p : Piece) : Nat := if x.write then x.tgtHome p else epHome x.ep

/-- A beat that arrives uncorrectable (R311): a write is refused by its target, a read loses its transfer. -/
def State.beatLost (s : State) (key : Nat) (x : Xfer) (p : Piece) : State :=
  (s.bump .TL_UNCORR [x.endHome p]).xferFail key 0x0810 (p.a + p.moved)

/-- A write through an alias that meets an uncorrectable line (R371): the bank takes the error, the line stays, the piece is refused. -/
def State.aliasBad (s : State) (key k : Nat) (x : Xfer) (p : Piece) : State :=
  match locate (p.a + p.moved) with
  | .setAlias c o => (s.bankLineBad c o).beatRefuse key k x p 0x0A13
  | .clrAlias c o => (s.bankLineBad c o).beatRefuse key k x p 0x0A13
  | _ => s

/-- A read whose LPDDR cells are uncorrectable (R374): refused with 0x0B12, the channel and address kept; `fails`: the channel fails in
service with it (R383). -/
def State.beatCells (s : State) (key k : Nat) (x : Xfer) (p : Piece) (fails : Bool) : State :=
  match locate (p.a + p.sent) with
  | .lpddr y => (s.dmBad y fails).beatRefuse key k x p 0x0B12
  | _ => s

/-- Is it an error of an LPDDR link (R374)? -/
def linkErr : BeatErr → Bool
  | .link _ => true
  | _ => false


/-- A corrected error of a stored line, or of an LPDDR link, counted where it was met (R370, R373, R374). -/
def State.lineCorr (s : State) (a : Nat) (err : BeatErr) : State :=
  match err, locate a with
  | .lineSingle n, .bank c _ => s.bump .BK_CORR [c] (n.val + 1)
  | .lineSingle n, .setAlias c _ => s.bump .BK_CORR [c] (n.val + 1)
  | .lineSingle n, .clrAlias c _ => s.bump .BK_CORR [c] (n.val + 1)
  | .lineSingle n, .lpddr y => s.dmCount .DM_CORR y (n.val + 1)
  | .link n, .lpddr y => s.dmCount .DM_LINKERR y (n.val + 1)
  | _, _ => s

/-- Does a stored line keep a beat from leaving: an uncorrectable LPDDR read (R374)? The first component is the state if so. -/
def State.readStops (s : State) (key k : Nat) (x : Xfer) (p : Piece) (err : BeatErr) : Option State :=
  match err, locate (p.a + p.sent) with
  | .cells, .lpddr _ => some (s.beatCells key k x p false)
  | .failing, .lpddr _ => some (s.beatCells key k x p true)
  | _, _ => none

/-- What the stored line adds to a read beat that leaves (R370, R374): a corrected error is counted; the beat of an uncorrectable line carries
its check bits, and a bank takes the error. -/
def State.lineLeaves (s : State) (a : Nat) (err : BeatErr) : State × Bool :=
  match err with
  | .lineMulti => (match locate a with
      | .bank c o => s.bankLineBad c o
      | .setAlias c o => s.bankLineBad c o
      | .clrAlias c o => s.bankLineBad c o
      | _ => s, true)
  | .link _ => (s.lineCorr a (.link 0), false)
  | err => (s.lineCorr a err, false)

/-- A beat that has reached its end (R310, R311, R366, R371): with an uncorrectable error it is refused or loses the transfer; a corrected
one is counted; its bytes are stored. -/
def State.beatArrive (s : State) (key k : Nat) (x : Xfer) (p : Piece) (err : BeatErr) (b : Beat) : State :=
  if err = .multi ∨ b.bad then
    (if x.write then (s.bump .TL_UNCORR [x.endHome p]).beatRefuse key k x p 0x0810 else s.beatLost key x p)
  else if x.write && err == .lineMulti && !x.plain p then s.aliasBad key k x p
  else
    let s := if err = .single then s.bump .TL_CORR [x.endHome p] else s
    (if x.write && (!x.plain p || linkErr err) then s.lineCorr (p.a + p.moved) err else s).landBeat key k x p b.data

/-- The endpoints between which a piece's data travel (R308, R309). -/
def Xfer.dataFrom (x : Xfer) (p : Piece) : Nat := if x.write then x.ep else p.tgt
def Xfer.dataTo (x : Xfer) (p : Piece) : Nat := if x.write then p.tgt else answerEnd x.ep p.ret p.rv

/-- KIND of the data beat at an offset (R306, R308, R338): the last beat of a read, and of a message, has KIND 2. -/
def Xfer.dataKind (x : Xfer) (p : Piece) (off : Nat) : Nat := if (!x.write || x.handle != 0) && decide (off + 64 ≥ p.n) then 2 else 0

/-- A vector core that reads an uncorrectable word of its local store for a transfer faults with 0x0525 (R241), and the transfer ends. -/
def State.sourceBad (s : State) (key : Nat) (x : Xfer) : State :=
  match x.own with
  | .vx c v ctx => ((((s.xferCut key).vxFree c v key).modXfer key fun _ => {}).vxFault c v ctx 0x0525)
  | _ => s

/-- The next data beat leaves its endpoint in a slot of the circuit (R305, R308); a memory that cannot read the line refuses (R374). Once a beat
of the piece has been discarded, the others go the same way, and none is stored any more (R323). -/
def State.beatLeave (s : State) (key k slot : Nat) (x : Xfer) (p : Piece) (err : BeatErr) : State :=
  if decide (p.sent ≥ p.n) then s
  else if x.write && err == .source && (match x.own with | .vx _ _ _ => true | _ => false) then s.sourceBad key x
  else
    let b := mkBeat (x.dataKind p p.sent) (key % 32) (s.beatBytes x p p.sent)
    let l := if x.write then (s, false) else s.lineLeaves (p.a + p.sent) err
    let b := { b with bad := l.2 }
    match l.1.carry x.svc (x.dataFrom p) (x.dataTo p) slot 0 b key p.a with
    | none => s
    | some r =>
      match (if x.write then none else s.readStops key k x p err) with
      | some s => s
      | none =>
        let s := if x.write then r.1 else r.1.countRead (p.a + p.sent)
        let s := s.setPiece key k fun p => { p with sent := p.sent + 64 }
        if r.2 = 1 ∨ p.fly = 2 then s
        else if r.2 = 0 then s.beatArrive key k x p err b
        else s.setPiece key k fun p => { p with fly := 2 }

/-- Does a piece's target serve: a channel that is on its way back to ON holds the piece in its queue (R378)? -/
def State.targetServes (s : State) (p : Piece) : Bool := match arbOf p.tgt with | some (ak, _) => decide (ak ≥ 24) || s.chanOn ak | none => true

/-- TRELLIS_DATA_BEAT (R305, R308, R310, R311, R366, R370, R371, R374, R447): a beat of a started piece comes out of the seam in a far slot, or
the next one leaves in a slot of its circuit; with what is wrong with it. -/
def State.dataBeat (s : State) (key k slot : Nat) (err : BeatErr) : State :=
  let x := s.getXfer key
  match x.pieces[k]? with
  | none => s
  | some p =>
    if !x.live || p.st != 1 || decide (p.moved ≥ p.n) || !s.targetServes p then s
    else
      match (if p.sent > p.moved then s.farLand (epHalf (x.dataFrom p)) slot key p.a (x.dataKind p p.moved) else none) with
      | some (s, 0, b) => if p.fly = 2 then s else s.beatArrive key k x p err b
      | some (s, _, _) => s.setPiece key k fun p => { p with fly := 2 }
      | none => s.beatLeave key k slot x p err

/-- A piece ends, with the grant it holds (R385); a transfer whose pieces have all ended is accepted (R308). -/
def State.pieceEnds (s : State) (key k : Nat) (x : Xfer) (p : Piece) : State :=
  let s := match arbOf p.tgt with | some (ak, _) => s.arbFree ak x.ep | none => s
  let s := s.modXfer key fun x => { x with pieces := x.pieces.eraseIdx k }
  let y := s.getXfer key
  if y.pieces = [] ∧ y.issued ≥ y.len then
    match y.own with
    | .mx c _ _ => (s.modXfer key fun _ => {}).mxFeed c
    | _ => s.modXfer key fun x => { x with fin := 1 }
  else s

/-- An acknowledgement or refusal beat received by the requester's end (R311): an uncorrectable one ends the transfer with 0x0810. -/
def State.answerTaken (s : State) (key : Nat) (x : Xfer) (p : Piece) (err : BeatErr) (f : State → State) : State :=
  match err with
  | .multi => (s.bump .TL_UNCORR [epHome x.ep]).xferFail key 0x0810 p.a
  | .single => f (s.bump .TL_CORR [epHome x.ep])
  | _ => f s

/-- An acknowledgement or refusal beat moves one stage from the target to where its answers go (R308, R309); when it arrives, `f`. -/
def State.answer (s : State) (key k slot : Nat) (x : Xfer) (p : Piece) (b : Beat) (err : BeatErr) (f : State → State) : State :=
  match s.carry x.svc p.tgt (answerEnd x.ep p.ret p.rv) slot p.fly b key p.a with
  | some (s, 0) => (s.setPiece key k fun p => { p with fly := 0 }).answerTaken key x p err f
  | some (s, n) => s.setPiece key k fun p => { p with fly := n }
  | none => s

/-- The bytes of a grant (R338): the ring offset, or 0xFFFF_FFFF for a compost slot. -/
def State.grantBytes (s : State) (key : Nat) (x : Xfer) : List Byte :=
  let at_ := match (s.getChan (x.target - 1)).reqs.find? fun r => r.key == key with
    | some r => if r.st = 2 then 0xFFFFFFFF else r.at_
    | none => 0
  leBytes 4 at_ ++ List.replicate 60 0

/-- The grant of a message, or its acknowledgement, on its way to the sender (R338): with the grant the data may go, with the acknowledgement
the send is accepted. -/
def State.msgAnswer (s : State) (key k slot : Nat) (x : Xfer) (p : Piece) (err : BeatErr) : State :=
  if p.st = 5 then
    s.answer key k slot x p (mkBeat 0 (key % 32) (s.grantBytes key x)) err fun s => s.setPiece key k fun p => { p with st := 1 }
  else if p.st = 6 then
    s.answer key k slot x p (mkBeat 2 (key % 32) (List.replicate 64 0)) err fun s => s.modXfer key fun x => { x with fin := 1, pieces := [] }
  else s

/-- TRELLIS_LAST (R308, R338): a piece whose beats have all arrived ends: a read with its last data beat, a write when the acknowledgement of its
target, sent after the last beat has been written, arrives. Of a message, the grant or the acknowledgement moves one stage. -/
def State.pieceLast (s : State) (key k slot : Nat) (err : BeatErr) : State :=
  let x := s.getXfer key
  match x.pieces[k]? with
  | none => s
  | some p =>
    if !x.live then s
    else if x.handle ≠ 0 then s.msgAnswer key k slot x p err
    else if p.st ≠ 1 ∨ p.moved < p.n then s
    else if x.write then s.answer key k slot x p (mkBeat 2 (key % 32) (List.replicate 64 0)) err fun s => s.pieceEnds key k x p
    else s.pieceEnds key k x p

/-- What a requester does with a refusal (R312, R386, R389): the piece backs off, or the transfer ends with the code. -/
def State.refusalTaken (s : State) (key k : Nat) (p : Piece) : State :=
  if p.code = 0x0B10 ∨ p.code = 0x0B11 then s.setPiece key k fun p => { p with st := 3, back := nextBack p.back }
  else s.xferFail key p.code p.a

/-- TRELLIS_REFUSAL (R307, R309, R312): the refusal beat of a refused piece moves toward RET or the requester. -/
def State.pieceRefused (s : State) (key k slot : Nat) (err : BeatErr) : State :=
  let x := s.getXfer key
  match x.pieces[k]? with
  | none => s
  | some p =>
    if !x.live || p.st != 2 then s
    else s.answer key k slot x p (mkBeat 3 (key % 32) (refusalBytes p.code)) err fun s => s.refusalTaken key k p

/-- BACKOFF_EXPIRY (R386): the endpoint sends the piece's request again, in a slot of the circuit. -/
def State.backoffDone (s : State) (key k slot : Nat) : State :=
  let x := s.getXfer key
  match x.pieces[k]? with
  | none => s
  | some p =>
    if !x.live || p.st != 3 || s.dataOwed x.ep p.tgt then s
    else
      match s.carry x.svc x.ep p.tgt slot 0 (s.requestBeat key x p) key p.a with
      | some r => r.1.setPiece key k fun p => { p with st := 0, fly := r.2, code := 0 }
      | none => s

/-! ## Unloading -/

/-- Has a transfer lost a circuit it needs, forward or back (R315)? -/
def State.circuitGone (s : State) (x : Xfer) : Bool :=
  x.pieces.any (fun p => p.tgt != keepEnd && (s.circuit x.svc x.ep p.tgt == 0 || s.circuit x.svc p.tgt (answerEnd x.ep p.ret p.rv) == 0)) ||
  (decide (x.issued < x.len) && (let ts := s.nextTo x; ts != [] && ts != [keepEnd] && s.circuitTo x.svc x.ep ts == 0))

/-- The address a transfer's failure reports. -/
def Xfer.failAt (x : Xfer) : Nat := match x.pieces with | p :: _ => p.a | [] => x.dev + x.issued

/-- SCHEDULE_DRAIN_COMPLETE (R314, R315, R442): once no beat of it is in the seam, the fields are removed in the inactive copies and the copies
swap; the schedule reads DISABLED, and transfers left without a circuit fail. -/
def State.schedDrained (s : State) (n : Nat) : State :=
  let x := s.getSch n
  if s.schState n ≠ 4 ∨ x.mark ≠ 3 ∨ s.loadBusy n ∨ s.seamHolds x.cross then s
  else
    let s := s.copyTables x.clusters x.endpoints
    let s := { s with slotB := x.mine.foldl clearSlot s.slotB, smapB := x.mine.foldl clearSmap s.smapB }
    let s := s.swapTables x.clusters x.endpoints
    let s := s.each x.cross fun s y => s.setVal (loadReg y.dir) [] (s.val (loadReg y.dir) [] - y.count)
    let s := (s.modSch n fun _ => {}).setSch n 0
    s.each (s.xfer.filter fun y => y.2.live && (x.endpoints.contains y.2.ep || y.2.pieces.any fun p => x.endpoints.contains p.tgt)) fun s y =>
      if s.circuitGone y.2 then s.xferFail y.1 0x0811 y.2.failAt else s

/-- Does a transfer wait on a broken circuit, and on none other (R317)? -/
def State.circuitBroken (s : State) (x : Xfer) : Bool :=
  x.pieces.any (fun p => p.tgt != keepEnd && (s.circuit x.svc x.ep p.tgt == 3 || s.circuit x.svc p.tgt (answerEnd x.ep p.ret p.rv) == 3)) ||
  (decide (x.issued < x.len) && (let ts := s.nextTo x; ts != [keepEnd] && s.circuitTo x.svc x.ep ts == 3))

/-- Transfers that wait on the circuits of a broken schedule fail (R317, R458). -/
def State.brokenFail (s : State) : State :=
  s.each (s.xfer.filter fun y => y.2.live && s.circuitBroken y.2) fun s y => s.xferFail y.1 (y.2.seamCode (s.brokenCode y.2.ep)) y.2.failAt

/-- A transfer started (R308); without a free tag it cannot start. -/
def State.xferStart (s : State) (x : Xfer) : Option (Nat × State) :=
  (s.freeTag x.ep).map fun t => (x.ep * 32 + t, s.modXfer (x.ep * 32 + t) fun _ => x)

end Sys2Proof.Machine
end

