-- ==== Sys2Proof/Machine/MatrixRun.lean ====
section
/-! DEFINITION. The course of a descriptor of the matrix core (R208 to R213, R219 to R221, R237): its start, the accesses that bring its
operands in and take its results out as transfers of the trellis, its execution, and its end. -/

namespace Sys2Proof.Machine

/-! ## Starting -/

/-- The binding of the head descriptor (R219). -/
def State.mxBindOf (s : State) (c n : Nat) : Option MBind := (s.getMx c).binds.find? fun b => b.n == n % 2 ^ 16

/-- May a descriptor bound to a group start now (R219, R237)? Its step is open at this core; a group that does not engage the core sends it no
OPEN and does not wait for it, so that there the step need only have been opened and the group not be halted. -/
def State.mxStepOpen (s : State) (c : Nat) (b : MBind) : Bool :=
  if (s.boundOf b.wg).contains (eidOf c 18) then
    s.wgOpen b.wg && b.step == some (s.val .WG_STEP [b.wg]) && (s.getWg b.wg).opened.contains (eidOf c 18)
  else b.step.isSome && s.wgState b.wg != wsHalted

/-- Have the cores a GATHER reads finished their scan of the step (R219)? -/
def State.gatherReady (s : State) (c : Nat) (d : Desc) : Bool :=
  (List.range 16).all fun n =>
    !(bitsOf d.wbase 0 16).testBit n || (s.gmapOf c n d.wg).isNone || (s.getWg d.wg).opened.contains (eidOf c n)

/-- The head descriptor, if its turn has come: the core is enabled, on and not fenced, and a step-bound descriptor's step is open (R210,
R219, R221, R222, R237). -/
def State.mxDue (s : State) (c : Nat) : Option Desc :=
  let h := s.mxHead c
  if !s.bit .MX_CFG [c] MX_CFG_EN || !s.mxOn c || s.fencedEng c 18 || h == s.mxTail c then none
  else
    let d := s.desc c h
    match s.mxBindOf c h with
    | none => some d
    | some b =>
      if b.cancelled || s.mxStepOpen c b then (if d.op = 6 && !b.cancelled && !s.gatherReady c d then none else some d) else none

/-- The head descriptor, if it may start now: nothing runs (R210). -/
def State.mxReady (s : State) (c : Nat) : Option Desc := if (s.getMx c).run.isSome then none else s.mxDue c

/-- The checks every descriptor meets before it runs, in this order: codes, SB, profile, blocks, alignment, shape, rows (R237, R241,
R265, R267). -/
def State.mxCheck (s : State) (bad : List Nat) (c : Nat) (d : Desc) : Nat :=
  let p := s.prof c d.prof
  if badIn bad (descAddr c (s.mxHead c)) 64 then 0x0514
  else if d.badCode p then 0x0510
  else if (d.op = 5 ∨ d.op = 6) ∧ !d.sb then 0x0513
  else if !p.en then 0x0610
  else if d.badBlock p then 0x0611
  else if d.misaligned then 0x0512
  else if d.op = 2 ∧ (d.oh = 0 ∨ d.ow = 0) then 0x0511
  else if (d.op = 1 ∨ d.op = 2) ∧ d.wres ∧ d.residentLen p > 0x2C000 then 0x0511
  else if d.op = 5 ∧ !(s.wgFirst d.wg ≤ bitsOf d.wbase 0 14 ∧ bitsOf d.wbase 0 14 + d.m ≤ s.wgFirst d.wg + s.wgResident d.wg) then 0x0513
  else if d.op = 6 ∧ d.m > s.wgResident d.wg then 0x0513
  else 0

/-- The record of the head descriptor as it is taken. -/
def State.mxRunOf (s : State) (c : Nat) (d : Desc) : MRun :=
  { n := s.mxHead c, tag := d.tag, word := s.peekLE (descAddr c (s.mxHead c)) 64, wg := if d.sb then d.wg + 1 else 0 }

/-- The head descriptor leaves the queue and runs (R210): HEAD names the next one. Operands loaded ahead are its own (R209). -/
def State.mxTake (s : State) (c : Nat) (d : Desc) : State :=
  let h := s.mxHead c
  let run := s.mxRunOf c d
  (s.setVal .MX_DQ_HEAD [c] ((h + 1) % 2 ^ 16)).modMx c fun x => { x with run := some (x.next.getD run), next := none }

/-! ## Operands (R208) -/

/-- The accesses of a descriptor that go over the trellis to bring its operands in. -/
def State.mxLoads (s : State) (c n : Nat) (d : Desc) (p : Prof) : List MAcc :=
  ((s.mxReads c d p).filter fun r => !ownBuf c r.2.1).map fun r => { n := n, ret := r.1, a := r.2.1, len := r.2.2 }

/-- Does a range of a descriptor run past its own operand buffers (R39, R241)? -/
def State.mxPast (s : State) (c : Nat) (d : Desc) (p : Prof) : Bool :=
  (s.mxReads c d p ++ d.writes p c).any fun r => ownPast c r.2.1 r.2.2

/-- Is an access of a descriptor waiting or under way? -/
def State.mxMoving (s : State) (c n : Nat) : Bool :=
  (s.getMx c).todo.any (fun a => a.n == n) || s.xfer.any fun x => x.2.ofMx c n

/-- The accesses of a descriptor start. -/
def State.mxLoad (s : State) (c n : Nat) (d : Desc) (p : Prof) : State :=
  (s.modMx c fun x => { x with todo := x.todo ++ s.mxLoads c n d p }).mxFeed c

/-- With MX_CFG.PREF = 1 the operands of the next descriptor are loaded as soon as the running one has been carried out, which frees the tile
buffers (R209); past a FENCE, and before one, nothing is loaded ahead (R237). -/
def State.mxAhead (s : State) (bad : List Nat) (c : Nat) : State :=
  match (s.getMx c).run, (s.getMx c).next, s.mxDue c with
  | some r, none, some d =>
    let code := s.mxCheck bad c d
    let cancelled := match s.mxBindOf c (s.mxHead c) with | some b => b.cancelled | none => false
    if s.bit .MX_CFG [c] MX_CFG_PREF && r.ran && (descOf r.word).op != 0 && code == 0 && !cancelled && d.op != 0 &&
        !s.mxPast c d (s.prof c d.prof) then
      (s.modMx c fun x => { x with next := some (s.mxRunOf c d) }).mxLoad c (s.mxHead c) d (s.prof c d.prof)
    else s
  | _, _, _ => s

/-! ## Execution -/

/-- What an operation does with operands that are in (R214 to R217). `stopped`: the core cycles of the runs that a multiply stopped. -/
def State.mxOp (s : State) (c stopped : Nat) (d : Desc) (p : Prof) : State :=
  match d.op with
  | 1 => s.mxMultiply c stopped d p
  | 2 => s.mxMultiply c stopped d p
  | 3 => s.mxEw c d p
  | 4 => s.mxReduce c d p
  | 5 => s.mxEncode c d p
  | 6 => s.mxGather c d p
  | _ => s.mxOk c 0

/-- The running descriptor is carried out once its operands are in (R206, R240, R241): an unreadable word of the operand buffers ends it; its
results go out, and the next one's operands may come in. -/
def State.mxExec (s : State) (bad : List Nat) (c stopped : Nat) : State :=
  match (s.getMx c).run with
  | none => s
  | some r =>
    let d := descOf r.word
    let p := s.prof c d.prof
    if r.ran || s.mxMoving c r.n then s
    else
      let s := if s.mxBadWord bad c d p then s.mxFail c 0x0514 0 else s.mxOp c stopped d p
      let s := s.modMx c fun x => { x with run := x.run.map fun r => { r with ran := true }, opnd := [] }
      (s.mxFeed c).mxAhead bad c

/-- A descriptor that has been taken: without operands to bring in, it is carried out at once. -/
def State.mxBegin (s : State) (bad : List Nat) (c stopped n : Nat) (d : Desc) : State :=
  let p := s.prof c d.prof
  let s := s.mxTake c d
  if s.mxPast c d p then (s.bump .PC_STRAY [c]).mxFailAt c n 0x0512
  else (s.mxLoad c n d p).mxExec bad c stopped

/-- An operation's command (R210): where nothing runs, the head descriptor is taken, if it may start now and is one of `want`, and begins to
load; a failed check ends it, and one whose group has been disabled ends with STATUS 2 (R237). Where a descriptor of the kind runs and its
operands are in, it is carried out. -/
def State.mxStep (s : State) (bad : List Nat) (c stopped : Nat) (want : Nat → Bool) : State :=
  match (s.getMx c).run with
  | some r => if want (descOf r.word).op then (s.mxFeed c).mxExec bad c stopped else s
  | none =>
    match s.mxDue c with
    | none => s
    | some d =>
      if !want d.op then s
      else
        let ran (s : State) : State := s.modMx c fun x => { x with run := x.run.map fun r => { r with ran := true } }
        match s.mxBindOf c (s.mxHead c), (s.getMx c).next with
        | some { cancelled := true, .. }, _ => ran ((s.mxTake c d).mxCut c (s.mxHead c))
        | _, some _ => (s.mxTake c d).mxExec bad c stopped
        | _, none =>
          let code := s.mxCheck bad c d
          if code ≠ 0 then ran ((s.mxTake c d).mxFail c code 0) else s.mxBegin bad c stopped (s.mxHead c) d

/-- FENCE (R214): every earlier descriptor has completed, since one runs at a time. A descriptor whose OP is reserved fails where a FENCE would
start (R241; log entry 170). -/
def State.mxFence (s : State) (bad : List Nat) (c : Nat) : State := s.mxStep bad c 0 fun op => op == 0 || decide (op ≥ 7)

/-! ## Completion -/

/-- A completion record (R213). -/
def State.mxRecord (s : State) (c n tag reason status rerun cycles : Nat) : State :=
  s.pokeLE (complAddr c n) 16 (tag + reason * 2 ^ 16 + status * 2 ^ 32 + (min rerun 255) * 2 ^ 40 + (cycles % 2 ^ 64) * 2 ^ 64)

/-- The binding of a descriptor by its index, cancelled since? -/
def State.mxCancelled (s : State) (c n : Nat) : Bool := match s.mxBindOf c n with | some b => b.cancelled | none => false

/-- A descriptor ends (R213, R221, R261, R262) once it has been carried out and its results, its records and a rewritten table have gone out: the
completion record, MX_DONE; a failure goes into MX_STATUS.REASON and halts the group it was bound to. One whose group was disabled meanwhile
ends with STATUS 2 (R237). -/
def State.mxComplete (s : State) (c cycles busy wait : Nat) : State :=
  match (s.getMx c).run with
  | none => s
  | some r =>
    if (s.getMx c).recs ≠ [] ∨ !r.ran ∨ s.mxMoving c r.n then s.mxFeed c
    else
      let r := if s.mxCancelled c r.n then { r with status := 2, reason := 0 } else r
      let s := (s.mxRecord c r.n r.tag r.reason r.status r.rerun cycles).bump .MX_DONE [c]
      let s := (s.bump .MX_BUSY [c] busy).bump .MX_OPWAIT [c] wait
      let s := s.modMx c fun x => { x with run := none, outs := [], binds := x.binds.filter fun b => b.n != r.n }
      let s := if r.status = 1 then (s.bump .MX_DERR [c]).setFld .MX_STATUS [c] MX_STATUS_REASON r.reason else s
      if r.status = 1 ∧ r.wg ≠ 0 then s.haltAtHarvest (r.wg - 1) 0x0580 else s

/-- ABORT (R221, R263): the running and every queued descriptor end with STATUS 2, HEAD goes to TAIL, and the groups they were bound to halt
with 0x0582. The records are written where the subdomain holds the operand buffers. -/
def State.mxAbort (s : State) (c cycles : Nat) : State :=
  let h := s.mxHead c
  let put (s : State) (n tag rerun cycles : Nat) : State :=
    (if s.domOn (96 + c) then s.mxRecord c n tag 0 2 rerun cycles else s).bump .MX_DONE [c]
  let gs := nodups (((s.getMx c).binds.filter fun b => !b.cancelled).map (·.wg))
  let s := match (s.getMx c).run with
    | some r => put s r.n r.tag r.rerun cycles
    | none => s
  let s := s.each (List.range ((s.mxTail c + 2 ^ 16 - h) % 2 ^ 16)) fun s i => put s (h + i) (s.desc c (h + i)).tag 0 0
  let s := s.setVal .MX_DQ_HEAD [c] (s.mxTail c)
  let s := s.each (((s.getMx c).run.toList ++ (s.getMx c).next.toList).map (·.n)) fun s n => s.mxCut c n
  let s := s.modMx c fun x => { x with run := none, next := none, todo := [], opnd := [], outs := [], binds := [], recs := [] }
  s.each gs fun s g => s.haltAtHarvest g 0x0582

/-- MX_STATUS.STATE as it reads (R240): 0 disabled, 5 off, 2 loading, 3 running, 1 idle, 4 waiting for a step. -/
def State.mxStateNow (s : State) (c : Nat) : Nat :=
  let h := s.mxHead c
  if !s.bit .MX_CFG [c] MX_CFG_EN then 0
  else if !s.mxOn c then 5
  else
    match (s.getMx c).run with
    | some r => if r.ran then 3 else 2
    | none =>
      if h = s.mxTail c then 1
      else
        match s.mxBindOf c h, s.mxDue c with
        | some _, none => if s.fencedEng c 18 then 1 else 4
        | _, _ => 1

/-- The binding of a newly visible descriptor (R219). -/
def State.mxBindNew (s : State) (c n : Nat) : State :=
  let d := s.desc c n
  if !d.sb then s
  else
    let open_ := s.wgOpen d.wg && (!(s.boundOf d.wg).contains (eidOf c 18) ||
      ((s.getWg d.wg).opened.contains (eidOf c 18) && !(s.getWg d.wg).done.contains (eidOf c 18)))
    s.modMx c fun x => { x with binds := x.binds ++
      [{ n := n % 2 ^ 16, wg := d.wg, step := if open_ then some (s.val .WG_STEP [d.wg]) else none }] }

/-- A write of MX_DQ_TAIL (R210, R219): ignored, with TDROP set, when it would take TAIL − HEAD above 128 or below its present value. -/
def State.mxTailWrite (s : State) (c v : Nat) : State :=
  let v := v % 2 ^ 16
  let h := s.mxHead c
  let now := (s.mxTail c + 2 ^ 16 - h) % 2 ^ 16
  let new := (v + 2 ^ 16 - h) % 2 ^ 16
  if new > 128 ∨ new < now then s.setFld .MX_STATUS [c] MX_STATUS_TDROP 1
  else
    let s := s.setVal .MX_DQ_TAIL [c] v
    s.each (List.range (new - now)) fun s i => s.mxBindNew c (h + now + i)

/-- A group's step opens at a matrix core: descriptors bound to the next step take it (R219). -/
def State.mxOpen (s : State) (c g : Nat) : State :=
  s.modMx c fun x => { x with binds := x.binds.map fun b =>
    if b.wg = g ∧ b.step = none then { b with step := some (s.val .WG_STEP [g]) } else b }

end Sys2Proof.Machine
end

