-- ==== Sys2Proof/Machine/Messages.lean ====
section
/-! DEFINITION. Messages and contributions (R328 to R357, R420 to R422): requests, placement, publishing, combining, waiting and the
compost area. -/

namespace Sys2Proof.Machine

/-! ## Sending -/

/-- Footprint of LEN payload bytes (R332). -/
def footprint (len : Nat) : Nat := 64 * ((16 + len + 63) / 64)

/-- Does a send break R337: a footprint that LEN does not give, LEN above 4,080, or a TYPE other than 0? A contribution's header stands
in the message header's place (R341), so a send to a queue only has to be whole lines of at most 4,096 bytes. -/
def State.badSend (s : State) (dev foot : Nat) (hdr : List Byte) : Bool :=
  let q := match s.tkAt dev with | some t => tkQueue t | none => false
  if q then foot % 64 != 0 || foot == 0 || decide (foot > 4096)
  else
    let len := leNat (hdr.take 2)
    decide (len > 4080) || foot != footprint len || leNat ((hdr.drop 2).take 1) != 0

/-- A send waits for its turn at its handle (R339): its place is behind every send of the handle that waits. -/
def State.sendOrder (s : State) (handle : Nat) : Nat :=
  ((s.xfer.filter fun y => y.2.handle == handle && y.2.live && y.2.issued == 0).map fun y => y.2.seq + 1).foldl max 0

/-- Is a contribution header invalid (R341)? -/
def State.badContribution (s : State) (t foot : Nat) (hdr : List Byte) : Bool :=
  let n := leNat (hdr.take 2)
  let off := leNat ((hdr.drop 2).take 2)
  n == 0 || decide (n * s.qWidth t > 4080) || decide (off + n > s.qElems t) || leNat ((hdr.drop 8).take 8) != 0 ||
    decide (foot < 16 + n * s.qWidth t)

/-- The engine that sends, as a coordinate (R346, R348), and the SENDER field (R332). -/
def senderCoord (o : XOwn) : Nat :=
  match o with
  | .vx c v _ => coordOf c (16 + v)
  | .tray n _ => 0x1000 + n
  | .mx c _ _ => coordOf c 18
  | .none => 0
def senderField (o : XOwn) (ep : Nat) : Nat := match o with | .tray _ _ => ep + 2 ^ 13 | _ => ep
def ownHalf (o : XOwn) : Nat := match o with | .vx c _ _ => halfOf c | .mx c _ _ => halfOf c | .tray n _ => gpHalf n | .none => 0

/-- Is a target's receiver fenced, or its domain not on (R353)? -/
def State.rcvDown (s : State) (t : Nat) : Bool :=
  match s.tkRcv t with
  | some k => !s.clusterOn (tkCluster t) || s.fencedEng (tkCluster t) k
  | none => !s.portOn (tkPort t)

/-- The code of a request at its target's unit (R335, R338, R341, R353, R458). -/
def State.msgCode (s : State) (x : Xfer) (t : Nat) : Nat :=
  if s.tkPart t ≠ some x.part ∨ s.rcvDown t then 0x0812
  else if s.isSplit && tkHalf t != ownHalf x.own then 0x0913
  else if tkQueue t then (if s.badContribution t x.len (s.locPeek x.own x.loc 16) then 0x0912 else 0)
  else if x.len > s.tkSize t then 0x0910 else 0

/-- Is the unit behind a target endpoint off or in reset, whatever of it is enabled (R353)? -/
def State.unitDown (s : State) (e : Nat) : Bool := if e < 768 then !s.clusterOn (e / 8) else !s.portOn (e - 792)

/-- A request at a message unit (R309, R311, R335, R338): refused, discarded, or held. -/
def State.msgRequest (s : State) (key : Nat) (x : Xfer) (p : Piece) (err : BeatErr) : State :=
  if err = .multi then (s.bump .TL_UNCORR [x.tgtHome p]).setRefused key 0 0x0810
  else
    let s := if err = .single then s.bump .TL_CORR [x.tgtHome p] else s
    if s.circuit x.svc p.tgt x.ep = 0 then s.requestDiscarded key 0 x p
    else
      match s.tkAt x.dev with
      | none =>
        let code := if s.unitDown p.tgt then 0x0812 else 0x0911
        (s.countRefused (x.tgtHome p) code).setRefused key 0 code
      | some t =>
        let code := s.msgCode x t
        if code ≠ 0 then ((s.countRefused (x.tgtHome p) code).setRefused key 0 code).tkReason t code
        else
          (s.modXfer key fun x => { x with target := t + 1 }).modTk t fun ch =>
            { ch with reqs := ch.reqs ++ [{ key := key, foot := x.len, sender := senderField x.own x.ep, coord := senderCoord x.own }] }

/-- MQ_REQUEST_RECEIVE (R335, R338): a request reaches its target's unit, out of the seam where it crosses. -/
def State.requestReceive (s : State) (key slot : Nat) (err : BeatErr) : State :=
  let x := s.getXfer key
  match x.pieces with
  | [p] =>
    if x.handle = 0 ∨ !x.live ∨ p.st ≠ 0 ∨ x.target ≠ 0 then s
    else if p.fly = 0 then s.msgRequest key x p err
    else if p.fly = 1 then
      match s.farLand (epHalf x.ep) slot key p.a 1 with
      | some (s, 0, _) => (s.setPiece key 0 fun p => { p with fly := 0 }).msgRequest key x p err
      | some (s, _, _) => s.setPiece key 0 fun p => { p with fly := 2 }
      | none => s
    else s
  | _ => s

/-- The pending requests of a target that a condition picks are refused (R353): each ends its transfer with the code; a grant or data of it that
are under way are dropped. -/
def State.refuseReqs (s : State) (t code : Nat) (p : Req → Bool) : State :=
  s.each ((s.getChan t).reqs.filter p) fun s r =>
    (((s.tkReason t code).setRefused r.key 0 code).seamDrop fun b => b.key == r.key).dropReq r.key

/-! ## Placement -/

/-- Where R333 places a footprint: the offset, and the length of the skip marker before it; none: it waits. -/
def Chan.place (x : Chan) (size f : Nat) : Option (Nat × Nat) :=
  let pos := x.wrp % size
  let tail := size - pos
  let used := (x.wrp + 2 ^ 32 - x.rd) % 2 ^ 32
  if f ≤ tail ∧ used + f ≤ size then some (pos, 0)
  else if f > tail ∧ used + tail + f ≤ size then some (0, tail)
  else none

/-- A place taken (R333): the skip marker is written, and the reservation pointer moves. -/
def State.reserve (s : State) (t f pos tail : Nat) : State :=
  let at_ := (s.getChan t).wrp % s.tkSize t
  let s := if tail = 0 then s
    else ((s.ringPoke t at_ ([0, 0, 1] ++ List.replicate 13 0)).mqBump .MQ_SKIPS t).modChan t fun x =>
      { x with resv := x.resv ++ [{ pos := at_, len := tail, skip := true, done := true }] }
  s.modChan t fun x => { x with wrp := (x.wrp + tail + f) % 2 ^ 32, resv := x.resv ++ [{ pos := pos, len := f }] }

/-- A request's progress changed; a grant withdraws its wait edge (R346), and its beat goes on its way to the sender (R338). -/
def State.setReq (s : State) (t key : Nat) (f : Req → Req) : State :=
  s.modTk t fun x => { x with reqs := x.reqs.map fun r => if r.key = key then f r else r }
def State.grantReq (s : State) (t key st a : Nat) : State :=
  ({ s with edges := s.edges.filter fun e => e.key != key }.setReq t key fun r => { r with st := st, at_ := a, edge := false }).setPiece
    key 0 fun p => { p with st := 5, fly := 0 }

/-- What becomes of a contribution of round r (R342): 0 added, 1 waits, 2 discarded. RELEASED + 1 is taken modulo 2^32; the order of the other
rounds is that of the numbers (log entry 172). -/
def State.roundFate (s : State) (t r : Nat) : Nat :=
  let x := s.getChan t
  if (r + 2 ^ 32 - x.rd) % 2 ^ 32 < 2 then (if x.cnt r ≥ s.qExpect t then 2 else 0) else if r ≥ x.rd + 2 then 1 else 2

/-- The round a request's contribution header names, from its source. -/
def State.reqRound (s : State) (key : Nat) : Nat :=
  let x := s.getXfer key
  leNat ((s.locPeek x.own x.loc 8).drop 4)

/-- Bytes of a compost slot of a target, from an offset in the slot (R349). -/
def State.slotAt (s : State) (t i : Nat) : Nat := s.compBase t + 4160 * i

/-- Does a spilled entry of a target come before any pending request: a contribution that now fits, or a host message (R351, R421)? -/
def State.compFirst (s : State) (t : Nat) : Bool :=
  let x := s.getChan t
  if tkHost t then x.comp != []
  else if tkQueue t then x.comp.any fun e => s.roundFate t (s.peekLE (s.slotAt t e.1 + 68) 4) != 1
  else false

/-- MQ_PLACEMENT_GRANT (R333, R339, R342): the oldest pending request of a target is granted when it can be. -/
def State.placementGrant (s : State) (t : Nat) : State :=
  let x := s.getChan t
  if !s.tkOn t || s.compFirst t then s
  else
    match x.reqs.find? fun r => r.st == 0 with
    | none => s
    | some r =>
      if tkQueue t then
        match s.roundFate t (s.reqRound r.key) with
        | 0 => s.grantReq t r.key 1 0
        | 2 => s.grantReq t r.key 3 0
        | _ => s
      else
        match x.place (s.tkSize t) r.foot with
        | none => s
        | some (pos, tail) => (s.reserve t r.foot pos tail).grantReq t r.key 1 pos

/-! ## Publishing -/

/-- The header as the message unit completes it (R332): FLAGS, SENDER and SEQ. -/
def stampHeader (bs : List Byte) (spilled : Bool) (sender seq : Nat) : List Byte :=
  bs.take 3 ++ leBytes 1 (if spilled then 1 else 0) ++ leBytes 2 sender ++ leBytes 2 seq ++ bs.drop 8

/-- A transfer acknowledged (R338): its request leaves the unit, and the acknowledgement is on its way to the sender. -/
def State.ackReq (s : State) (key : Nat) : State := (s.dropReq key).setPiece key 0 fun p => { p with st := 6, fly := 0 }

/-- Every reservation at the front that is written is published (R334), its sends acknowledged. -/
def State.publishFront (s : State) (t : Nat) : Nat → State
  | 0 => s
  | n + 1 =>
    let x := s.getChan t
    match x.resv with
    | [] => s
    | e :: rest =>
      if !e.done then s
      else
        let s := s.modTk t fun x =>
          { x with resv := rest, wr := (x.wr + e.len) % 2 ^ 32, msgs := if e.skip then x.msgs else (x.msgs + 1) % 2 ^ 32,
                   skips := if e.skip then (x.skips + 1) % 2 ^ 32 else x.skips }
        let s := if e.skip then s
          else if tkHost t then s.bump .GP_HCMSG [tkPort t] else s.bump .MQ_PLACED [tkCluster t]
        let s := match x.reqs.find? fun r => r.st == 1 && r.at_ == e.pos && !e.skip with
          | some r => s.ackReq r.key
          | none => s
        s.publishFront t n

/-- A reservation written in full. -/
def State.markDone (s : State) (t pos : Nat) : State :=
  s.modChan t fun x => { x with resv := x.resv.map fun e => if e.pos = pos && !e.skip && !e.done then { e with done := true } else e }

/-- The endpoint over which a target's unit reaches its compost area (R301, R349): the port, or a bank port of the cluster that has the service
circuits to a slot and back; none where neither has them. -/
def State.compEnd (s : State) (t i : Nat) : Option Nat :=
  match s.tkPart t with
  | none => none
  | some p => (if tkHost t then [792 + tkPort t] else [tkCluster t * 8, tkCluster t * 8 + 1]).find? fun e => s.svcReady p e (s.slotAt t i) 4160

/-- Is a slot reached by service circuits, and do its channels serve (R349, R351, R378)? -/
def State.compReached (s : State) (t i : Nat) : Bool := (s.compEnd t i).isSome && s.dmReady (s.slotAt t i) 4160

/-- Bytes of a compost slot written from an offset in it, as beats of the service circuit and lines of the channel; a port's area is written
from the cluster it is attached to (R301, R349, R392). -/
def State.compPoke (s : State) (t i off : Nat) (bs : List Byte) : State :=
  let a := s.slotAt t i + off
  (s.svcBeats ((s.compEnd t i).getD 0) a bs.length true).devWrite (if tkHost t then attachOf (tkPort t) else tkCluster t) a bs

/-- The first n bytes of a compost slot read back, counted likewise; `meets`: what its lines meet. -/
def State.compRead (s : State) (t i n : Nat) (meets : LineFate) : State :=
  ((s.svcBeats ((s.compEnd t i).getD 0) (s.slotAt t i) n false).dmLines (s.slotAt t i) n false).dmMeets (s.slotAt t i) n meets

/-- A message or contribution written into its compost slot (R349), linked behind the target's last entry. -/
def State.writeSlotEntry (s : State) (t i foot sender : Nat) (bs : List Byte) : State :=
  let hdr := leBytes 1 (tkIndex t + (if tkQueue t then 64 else 0)) ++ [0] ++ leBytes 2 foot ++ leBytes 2 0xFFFF ++ leBytes 2 sender ++
    List.replicate 56 0
  let s := s.compPoke t i 0 (hdr ++ bs)
  let s := match (s.getChan t).comp.getLast? with
    | some e => s.compPoke t e.1 4 (leBytes 2 i)
    | none => s
  s.modTk t fun x => { x with comp := x.comp ++ [(i, foot, sender)] }

/-- MQ_PUBLISH (R334, R338, R348): a send whose data have all arrived is written: into the ring, which publishes every reservation that
is now complete; or into its compost slot, which acknowledges it. -/
def State.publish (s : State) (key : Nat) : State :=
  let x := s.getXfer key
  let t := x.target - 1
  if x.target = 0 ∨ !x.live then s
  else
    match (s.getChan t).reqs.find? fun r => r.key == key with
    | none => s
    | some r =>
      if r.data.length < r.foot then s
      else if r.st = 2 then
        if !s.compReached t r.at_ then s.dmWake (s.slotAt t r.at_) 4160 else
        let bs := if tkQueue t then r.data else stampHeader r.data true r.sender x.seq
        ((s.writeSlotEntry t r.at_ r.foot r.sender bs).setReq t key fun r => { r with st := 4 }).ackReq key
      else if r.st = 1 ∧ !tkQueue t then
        let s := s.ringPoke t r.at_ (stampHeader r.data false r.sender x.seq)
        let s := s.markDone t r.at_
        s.publishFront t ((s.getChan t).resv.length)
      else s

/-! ## Combining -/

/-- The value of an element under IN (R343). -/
def decodeIn (i x : Nat) : Num :=
  match i with
  | 0 => decodeFmt .fp32 x
  | 1 => decodeFmt .fp32 (x * 2 ^ 16)
  | 2 => Num.ofInt (sext 32 x)
  | _ => Num.ofScaled (sext 32 x) (-16)

/-- An element rounded to fixed point, and whether it was a NaN or was clamped (R343). -/
def combineQ (frac : Nat) (v : Num) : Int × Bool × Bool :=
  let lim : Int := 2 ^ 47 - 1
  match v with
  | .nan => (0, true, false)
  | .inf neg => (if neg then -lim else lim, false, true)
  | .fin neg m e =>
    let q : Int := sgn neg (roundScaled m 1 (-(e + frac)))
    if q > lim then (lim, false, true) else if q < -lim then (-lim, false, true) else (q, false, false)

/-- One element added into its accumulator (R343). -/
def State.addElem (s : State) (t r j x : Nat) : State :=
  let frac := s.fld .MQ_Q_CFG [tkCluster t, tkIndex t] MQ_Q_CFG_FRAC
  let q := combineQ frac (decodeIn (s.qIn t) x)
  let a := s.qAccAt t r j
  let s := s.pokeLE a 8 (wrapInt 64 ((s.peekLE a 8 : Int) + q.1))
  let s := if q.2.1 then s.bump .MQ_QNAN [tkCluster t] else s
  if q.2.2 then s.bump .MQ_QSAT [tkCluster t] else s

/-- One element at the close of a round (R344): saturated, converted and written out; the second component says that it saturated. -/
def State.closeElem (s : State) (t r j : Nat) : Bool × State :=
  let i := [tkCluster t, tkIndex t]
  let acc := sext 64 (s.peekLE (s.qAccAt t r j) 8)
  let v := clampInt (-(2 ^ 47)) (2 ^ 47 - 1) acc
  let w := s.qOut t
  let out := if w = 8 then wrapInt 64 v else roundF32 (Num.ofScaled v (-(s.fld .MQ_Q_CFG i MQ_Q_CFG_FRAC : Int)))
  (v != acc, s.pokeLE (s.qOutAt t r + j * w) w out)

/-- A round closes (R344): its output is written, CLOSED counts it, OVF tells whether an element saturated. -/
def State.closeRound (s : State) (t r : Nat) : State :=
  let (n, s) := (List.range (s.qElems t)).foldl
    (fun (a : Nat × State) j => let x := a.2.closeElem t r j; (if x.1 then a.1 + 1 else a.1, x.2)) (0, s)
  let s := (s.unitReads t (s.qAccAt t r 0) (8 * s.qElems t)).unitWrites t (s.qOutAt t r) (s.qOut t * s.qElems t)
  let s := (s.bump .MQ_QOVF [tkCluster t] n).bump .MQ_QROUNDS [tkCluster t]
  s.modTk t fun x => { x with closed := (x.closed + 1) % 2 ^ 32, ovf := if n = 0 then 0 else 1 }

/-- A contribution added (R343, R344), or discarded as late (R342); its EXPECT-th closes the round. -/
def State.contribute (s : State) (t : Nat) (bs : List Byte) : State :=
  let n := leNat (bs.take 2)
  let off := leNat ((bs.drop 2).take 2)
  let r := leNat ((bs.drop 4).take 4)
  if s.roundFate t r ≠ 0 then s.bump .MQ_QLATE [tkCluster t]
  else
    let w := s.qWidth t
    let s := s.each (List.range n) fun s k => s.addElem t r (off + k) (leNat ((bs.drop (16 + k * w)).take w))
    let s := (s.unitReads t (s.qAccAt t r off) (8 * n)).unitWrites t (s.qAccAt t r off) (8 * n)
    let s := (s.bump .MQ_QCONTRIB [tkCluster t]).modChan t fun x => x.setCnt r (x.cnt r + 1)
    if (s.getChan t).cnt r = s.qExpect t then s.closeRound t r else s

/-- QUEUE_CONTRIBUTION_ADD (R342, R343): a granted contribution whose data have arrived. -/
def State.contributionAdd (s : State) (key : Nat) : State :=
  let x := s.getXfer key
  let t := x.target - 1
  if x.target = 0 ∨ !x.live ∨ !tkQueue t then s
  else
    match (s.getChan t).reqs.find? fun r => r.key == key with
    | none => s
    | some r =>
      if r.data.length < r.foot then s
      else if r.st = 1 then (s.contribute t r.data).ackReq key
      else if r.st = 3 then (s.bump .MQ_QLATE [tkCluster t]).ackReq key
      else s

/-- A spilled entry leaves a target's chain (R349): the entry before it names the one behind it, its slot is free. -/
def State.unlinkEntry (s : State) (t : Nat) (e : Nat × Nat × Nat) : State :=
  let comp := (s.getChan t).comp
  let s := match (comp.takeWhile (· != e)).getLast? with
    | some p => s.compPoke t p.1 4 (leBytes 2 (match ((comp.dropWhile (· != e)).drop 1).head? with | some q => q.1 | none => 0xFFFF))
    | none => s
  (s.freeSlot t e.1).modTk t fun x => { x with comp := x.comp.erase e }

/-- QUEUE_COMPOST_DRAIN (R351): the first spilled contribution whose round no longer waits is read back, added, and its slot freed. One that
reads uncorrectable stays, and the error is reported at its channel (R374; log entry 173). -/
def State.queueDrain (s : State) (t : Nat) (meets : LineFate) : State :=
  if !tkQueue t then s
  else
    match (s.getChan t).comp.find? fun e => s.roundFate t (s.peekLE (s.slotAt t e.1 + 68) 4) != 1 with
    | none => s
    | some e =>
      if !s.compReached t e.1 then s.dmWake (s.slotAt t e.1) 4160
      else
        let bs := s.peekN (s.slotAt t e.1 + 64) e.2.1
        let u := s.compRead t e.1 (64 + e.2.1) meets
        if meets.badIn (s.slotAt t e.1) (64 + e.2.1) then u else (u.unlinkEntry t e).contribute t bs

/-- HOST_COMPOST_DRAIN (R421): the oldest spilled message of a host channel moves into the ring when it fits; one that reads uncorrectable stays
(R374; log entry 173). -/
def State.hostDrain (s : State) (t : Nat) (meets : LineFate) : State :=
  if !tkHost t then s
  else
    match (s.getChan t).comp with
    | [] => s
    | e :: _ =>
      match (s.getChan t).place (s.tkSize t) e.2.1 with
      | none => s
      | some (pos, tail) =>
        if !s.compReached t e.1 then s.dmWake (s.slotAt t e.1) 4160
        else
          let bs := s.peekN (s.slotAt t e.1 + 64) e.2.1
          let u := s.compRead t e.1 (64 + e.2.1) meets
          if meets.badIn (s.slotAt t e.1) (64 + e.2.1) then u
          else
            let s := ((u.reserve t e.2.1 pos tail).ringPoke t pos bs).markDone t pos
            (s.dropComp t 1).publishFront t ((s.getChan t).resv.length)

/-! ## Receiver's writes -/

/-- MQ_RD_WRITE, MQ_CDONE_WRITE and MQ_RELEASED_WRITE (R330): the receiver writes a field of its consumer line. -/
def State.consumerWrite (s : State) (t off v : Nat) (f : State → State) : State :=
  let c := tkCluster t
  if !s.domOn c then s.bump .PC_STRAY [c]
  else if !s.unitAwake t (s.tkLine t + off) then s.bump .BK_DENY [c]
  else ((s.pokeLE (s.tkLine t + off) 4 v).bump .BK_WR [c]).when (s.tkOn t) f
def State.writeRd (s : State) (t v : Nat) : State :=
  if tkHost t ∨ tkQueue t then s else s.consumerWrite t 64 v fun s => s.takeRd t v
def State.writeCdone (s : State) (t v : Nat) : State :=
  if tkHost t ∨ tkQueue t then s else s.consumerWrite t 68 v fun s => s.takeCdone t v
def State.writeReleased (s : State) (t v : Nat) : State :=
  if !tkQueue t then s else s.consumerWrite t 64 v fun s => s.takeReleased t v

/-! ## Enabling and disabling -/

/-- An accepted channel, queue or host channel (R331, R345): both its lines are zeroed, the accumulators of a queue too, and EN is set. -/
def State.tkStart (s : State) (t : Nat) : State :=
  let s := if tkHost t then s.setFld .GP_HC_CFG [tkPort t, tkIndex t] GP_HC_CFG_EN 1
    else if tkQueue t then s.setFld .MQ_Q_CFG [tkCluster t, tkIndex t] MQ_Q_CFG_EN 1
    else s.setFld .MQ_CH_CFG [tkCluster t, tkIndex t] MQ_CH_CFG_EN 1
  let s := if s.unitAwake t (s.tkLine t) then (s.wipe (s.tkLine t) 128).unitWrites t 0 128 else s
  let s := if tkQueue t && s.unitAwake t (s.qAccAt t 0 0) then
      (s.wipe (s.qAccAt t 0 0) (16 * s.qElems t)).unitWrites t (s.qAccAt t 0 0) (16 * s.qElems t)
    else s
  (s.modChan t fun _ => {}).noteLine t

/-- A target disabled (R353): its pending requests are refused with 0x0911 and its compost slots freed; ring data stay. -/
def State.tkStop (s : State) (t : Nat) : State :=
  if !s.tkOn t then s
  else
    let s := s.refuseReqs t 0x0911 fun _ => true
    let s := s.dropComp t ((s.getChan t).comp.length)
    let s := if tkHost t then s.setFld .GP_HC_CFG [tkPort t, tkIndex t] GP_HC_CFG_EN 0
      else if tkQueue t then s.setFld .MQ_Q_CFG [tkCluster t, tkIndex t] MQ_Q_CFG_EN 0
      else s.setFld .MQ_CH_CFG [tkCluster t, tkIndex t] MQ_CH_CFG_EN 0
    s.noteLine t

/-- The targets of a cluster or a port. -/
def clusterTks (c : Nat) : List Nat := (List.range 40).map (c * 64 + ·)
def portTks (n : Nat) : List Nat := (List.range 16).map (0x10000 + n * 16 + ·)

/-- Every target that is enabled. -/
def State.tksOn (s : State) : List Nat :=
  ((s.chan.map (·.1)) ++ (s.listed .MQ_CH_CFG).filterMap (fun i => match i with | [c, n] => some (c * 64 + n) | _ => none) ++
    (s.listed .MQ_Q_CFG).filterMap (fun i => match i with | [c, n] => some (c * 64 + 32 + n) | _ => none) ++
    (s.listed .GP_HC_CFG).filterMap (fun i => match i with | [p, n] => some (0x10000 + p * 16 + n) | _ => none)).eraseDups.filter s.tkOn

/-- A receiver of a cluster goes down (R353): fenced, or with the whole cluster (slot none): the pending requests to it are refused with
0x0911, and the cluster's compost slots are freed. -/
def State.mqDown (s : State) (c : Nat) (slot : Option Nat) : State :=
  let ts := (clusterTks c).filter s.tkOn
  let hit := ts.filter fun t => slot.isNone || s.tkRcv t == slot
  if hit = [] then s
  else
    let s := s.each hit fun s t => s.refuseReqs t 0x0911 fun _ => true
    s.each ts fun s t => s.dropComp t ((s.getChan t).comp.length)

/-! ## Waiting -/

/-- WAIT_EDGE_REGISTER (R346): a request that has waited for space registers an edge with the steward. -/
def State.edgeRegister (s : State) (key : Nat) : State :=
  let x := s.getXfer key
  let t := x.target - 1
  if x.target = 0 ∨ !x.live then s
  else
    match (s.getChan t).reqs.find? fun r => r.key == key with
    | none => s
    | some r =>
      if r.st ≠ 0 ∨ r.edge then s
      else
        let s := s.setReq t key fun r => { r with edge := true }
        let s := { s with edges := s.edges ++ [{ key := key, src := r.coord, dst := s.tkCoord t, target := t }] }
        match x.own with
        | .vx c _ _ => s.bump .MQ_WAITREG [c]
        | _ => s

/-- The nodes reached from some nodes along edges, within a bound of rounds. -/
def reach (es : List (Nat × Nat)) : Nat → List Nat → List Nat
  | 0, ns => ns
  | n + 1, ns => reach es n (nodups (ns ++ (es.filter fun e => ns.contains e.1).map (·.2)))

/-- Does an edge stand as the lowest sender of some cycle of edges; and the engines of such cycles (R347, R348)? -/
def lowestOfCycle (es : List (Nat × Nat)) (e : Nat × Nat) : List Nat :=
  let up := es.filter fun x => decide (x.1 ≥ e.1)
  let inner := up.filter fun x => x.1 != e.1
  let fwd := reach inner es.length [e.2]
  if fwd.contains e.1 then
    nodups (e.1 :: fwd.filter fun n => (reach inner es.length [n]).contains e.1)
  else []

/-- The groups bound to an engine given as a coordinate; a port as 0x1000 + n (R352). -/
def State.groupsOfCoord (s : State) (k : Nat) : List Nat :=
  (List.range 256).filter fun g => s.wgOn g &&
    (s.boundOf g).any fun e =>
      if k ≥ 0x1000 then e == eidPort (k - 0x1000)
      else e == eidOf (clusterOf (k / 2 ^ 11) (k / 2 ^ 8 % 8) (k / 2 ^ 5 % 8)) (k % 32)

/-- The break of a confirmed cycle through an edge (R348, R352), or the halts where no slot is free. -/
def State.breakCycle (s : State) (e : Edge) (nodes : List Nat) : State :=
  let t := e.target
  let code := if tkQueue t then 0x0982 else 0x0980
  let report (s : State) (code : Nat) : State :=
    let s := (s.post (s.tkPart t) 4 (tkUnit t) (tkUnitCluster t) code).tkReason t code
    if tkHost t then s
    else
      let c := tkCluster t
      let s := s.setFld .MQ_STATUS [c] MQ_STATUS_REASON code
      s.setVal .MQ_LASTBRK [c] (code * 2 ^ 48 + e.src * 2 ^ 20 + tkIndex t + (if tkQueue t then 64 else 0))
  match s.takeSlot t with
  | some (i, s) =>
    let s := (s.mqBump .MQ_BREAKS t).mqBump .MQ_COMPOSTED t
    (report s code).grantReq t e.key 2 i
  | none =>
    let s := if tkHost t then s else s.setFld .MQ_STATUS [tkCluster t] MQ_STATUS_CMPFULL 1
    let s := report s 0x0981
    s.each (nodups (nodes.flatMap s.groupsOfCoord)) fun s g => s.haltAtHarvest g 0x0981

/-- The edges a steward scans: its half's in the split state (R353, R463), all of them otherwise, each with its present serial. -/
def State.scanEdges (s : State) (h : Nat) : List Edge :=
  let half (k : Nat) : Nat := if k ≥ 0x1000 then gpHalf (k - 0x1000) else k / 2 ^ 11
  (s.edges.filter fun e => !s.isSplit || (half e.src == h && half e.dst == h)).map fun e => { e with serial := (s.getChan e.target).serial }

/-- WAIT_CYCLE_SCAN (R347, R348): the cycles of the edges that stand with the same serial as at the scan before are confirmed and
broken. -/
def State.waitScan (s : State) (h : Nat) : State :=
  let now := s.scanEdges h
  let stable := now.filter fun e => (mget s.oldEdges h).contains e
  let pairs := stable.map fun e => (e.src, e.dst)
  let s := { s with oldEdges := mput s.oldEdges h now }
  s.each stable fun s e =>
    let nodes := lowestOfCycle pairs (e.src, e.dst)
    if nodes = [] then s else s.breakCycle e nodes

/-! ## Checks (R336, R357) -/

/-- A cluster-window range within the banks. -/
def inBanks (o n : Nat) : Bool := decide (0x2000000 ≤ o) && decide (o + n ≤ 0x2400000)

/-- The ranges a target of a cluster occupies. -/
def State.tkRanges (s : State) (t : Nat) : List (Nat × Nat) :=
  let i := [tkCluster t, tkIndex t]
  if tkQueue t then
    [(s.val .MQ_Q_ACC i, 16 * s.qElems t), (s.val .MQ_Q_OUT i, 2 * s.qOut t * s.qElems t), (s.val .MQ_Q_CCB i, 128)]
  else [(s.val .MQ_CH_RING i, s.tkSize t), (s.val .MQ_CH_CCB i, 128)]

def rangesMeet (a b : Nat × Nat) : Bool := decide (a.1 < b.1 + b.2) && decide (b.1 < a.1 + a.2)

/-- Does a list of ranges overlap within itself? -/
def selfMeets : List (Nat × Nat) → Bool
  | [] => false
  | r :: t => t.any (rangesMeet r) || selfMeets t

/-- Has the partition an enabled service schedule with circuits between a target's unit and its region (0x0906)? -/
def State.hasService (s : State) (p : Nat) : Bool :=
  (List.range 64).any fun n => s.bit .TL_SCFG [0, n] TL_SCFG_EN && s.bit .TL_SCFG [0, n] TL_SCFG_SVC && s.fld .TL_SCFG [0, n] TL_SCFG_PART == p

/-- The check of a channel or queue (R357), and of a host channel (R435); 0: accepted. -/
def State.tkCheck (s : State) (t : Nat) : Nat :=
  let others := (clusterTks (tkCluster t)).filter fun u => u != t && s.tkOn u
  let rs := s.tkRanges t
  let bad := rs.any (fun r => !inBanks r.1 r.2) || selfMeets rs || rs.any fun r => others.any fun u => (s.tkRanges u).any (rangesMeet r)
  let comp (p : Option Nat) : Bool :=
    match p with
    | some p => s.compSlots t != 0 && s.inRegion p (s.compBase t) (4160 * s.compSlots t)
    | none => false
  let svc := match s.tkPart t with | some p => s.hasService p | none => false
  if tkHost t then
    let l := s.fld .GP_HC_CFG [tkPort t, tkIndex t] GP_HC_CFG_LOG2SIZE
    if l < 8 ∨ l > 18 then 0x0C08 else if !comp (s.tkPart t) then 0x0C09 else if !svc then 0x0906 else 0
  else
    let i := [tkCluster t, tkIndex t]
    if tkQueue t then
      let rcv := s.fld .MQ_Q_CFG i MQ_Q_CFG_RCV
      if s.fld .MQ_Q_CFG i MQ_Q_CFG_FRAC > 47 ∨ (rcv ≠ 16 ∧ rcv ≠ 17) ∨ s.qExpect t = 0 ∨ bad then 0x0902
      else if !comp (s.tkPart t) then 0x0905 else if !svc then 0x0906 else 0
    else
      let rcv := s.fld .MQ_CH_CFG i MQ_CH_CFG_RCV
      let l := s.fld .MQ_CH_CFG i MQ_CH_CFG_LOG2SIZE
      if l < 8 ∨ l > 18 ∨ (rcv ≠ 16 ∧ rcv ≠ 17) ∨ bad then 0x0901
      else if !comp (s.tkPart t) then 0x0905 else if !svc then 0x0906 else 0

/-- The unit that the address of an enabled handle lies at, whether its target is enabled now or not: a cluster's, or a port's (R336). -/
def handleUnit (a : Nat) : Option Nat :=
  match locate a with
  | .bank c _ => some c
  | .dreg => if 0xFE03800000 ≤ a ∧ a < 0xFE03808000 then some (256 + (a - 0xFE03800000) / 0x1000) else none
  | _ => none

/-- Enabled handles that target a unit (R336): clusters' and gate ports'. -/
def State.handlesTo (s : State) (k : Nat) : Nat :=
  (((s.listed .MQ_SH_CFG).filter fun i => s.bit .MQ_SH_CFG i MQ_SH_CFG_EN && handleUnit (s.val .MQ_SH_ADDR i) == some k).length) +
  ((s.listed .GP_SH_ADDR).filter fun i =>
    s.bit .GP_SH_ADDR i GP_SH_ADDR_EN && handleUnit (s.val .GP_SH_ADDR i / 128 * 128) == some k).length

/-- The check of a handle with a target address, of a partition (R336, R357). -/
def State.handleCheck (s : State) (p : Option Nat) (a : Nat) : Nat :=
  match s.tkAt a with
  | none => 0x0903
  | some t => if p.isNone || s.tkPart t != p then 0x0903 else if s.handlesTo (compKey t) ≥ 64 then 0x0904 else 0

end Sys2Proof.Machine
end

