-- ==== Sys2Proof/Machine/Split.lean ====
section
/-! DEFINITION. Failures of the seam in service and the split state (R451 to R459). -/

namespace Sys2Proof.Machine

/-- The control lane runs on the lowest-numbered link in service (R450). -/
def State.noteCtl (s : State) : State :=
  let first := (List.range 4).find? s.inSvc
  s.each (List.range 4) fun s l => s.setFld .SM_LINK [l] SM_LINK_CTL (if first = some l then 1 else 0)

/-- A flit absorbed by a send side at the split (R455). -/
def State.splitAbsorb (s : State) (d : Nat) (fs : List MFlit) : State :=
  s.each fs fun s m => (s.absorbWorld (fWorld m.f) d).bump .SM_ABS_SPLIT [d]

/-- The flits of the event cells of a list. -/
def cargoFlits (l : List Cargo) : List MFlit := l.flatMap fun c => match c with | .event fs => fs | _ => []

/-- The halves in which a group has instances or bound engines (R456). -/
def State.groupHalves (s : State) (g : Nat) : List Nat :=
  nodups ((s.enginesOf g).map fun e => if e < 0x1000 then halfOf (e / 32) else gpHalf (e - 0x1000))
def State.spansHalves (s : State) (g : Nat) : Bool := decide ((s.groupHalves g).length > 1)

/-- A spanning group at the split (R456): one with no step open halts at once; a swap it was in starts again when it resumes. -/
def State.splitGroup (s : State) (g : Nat) : State :=
  if !s.wgOn g || !s.spansHalves g || s.wgOpen g then s
  else
    let s := s.modWg g fun w =>
      if w.swap = 1 then { w with swap := 0, swapDue := true } else if w.swap = 2 then { w with swap := 3 } else w
    s.haltNow g 0x0D80

/-- A schedule at the split (R458): one with a crossing record breaks. -/
def State.splitSchedule (s : State) (n : Nat) : State :=
  if (s.getSch n).cross = [] ∨ s.schState n = 0 then s
  else (s.setSch n 5).setFld .TL_SSTAT [0, n] TL_SSTAT_REASON 0x0D12

/-- The targets a transfer stands on: those of its pieces, or of the next one. -/
def State.xferTargets (s : State) (x : Xfer) : List Nat := match x.pieces with | [] => s.nextTo x | ps => ps.map (·.tgt)

/-- A transfer at the split (R353, R458): one that needs the seam, or waits on a circuit of a schedule that broke, fails. -/
def State.splitXfer (s : State) (key : Nat) : State :=
  let x := s.getXfer key
  if !x.live then s
  else
    let ts := s.xferTargets x
    let crosses := ts.any fun t => t != keepEnd && epHalf t != epHalf x.ep
    let broke (e t : Nat) : Bool := s.circuit x.svc e t == 3 && s.brokenCode e == 0x0D12
    if !crosses && !(ts.any fun t => t != keepEnd && (broke x.ep t || broke t (answerEnd x.ep x.ret.1 x.ret.2))) then s
    else if x.handle ≠ 0 ∧ x.target ≠ 0 then (s.tkReason (x.target - 1) 0x0913).xferFail key 0x0913 x.failAt
    else s.xferFail key (x.seamCode 0x0D12) x.failAt

/-- The device enters the split state (R454 to R458, R461, R195). -/
def State.enterSplit (s : State) : State :=
  if s.isSplit then s
  else
    let s := s.goldenEnd 0
    let s := s.setFld .SM_STATUS [] SM_STATUS_STATE 2
    let s := s.each [0, 1] fun s d =>
      let s := s.each (List.range 4) fun s l =>
        let s := s.splitAbsorb d (cargoFlits ((s.getLane d l).buf.map (·.2)))
        s.modLane d l fun _ => {}
      let x := s.getSdir d
      let s := s.splitAbsorb d ((x.send.map (·.2)) ++ cargoFlits x.moved)
      s.modSdir d fun x => { recv := x.recv }
    let s := s.each (List.range 64) fun s n => s.splitSchedule n
    let s := s.each (s.xfer.map (·.1)) fun s k => s.splitXfer k
    let s := s.each (List.range 256) fun s g => s.splitGroup g
    let s := s.commitsSplit
    s.each (List.range 8) fun s p => s.setFld .KS_STATUS [p] KS_STATUS_SPLIT 1

/-- The cells of a lane that the far side has not accepted go back to the send side, ahead of the rest (R452). -/
def State.moveCells (s : State) (d l : Nat) : State :=
  let s := s.ackFree d l
  let cells := (s.getLane d l).buf.map (·.2)
  (s.modSdir d fun x => { x with moved := x.moved ++ cells }).modLane d l fun _ => {}

/-- A direction of a link fails (R451 to R454): the link leaves service in both directions, its cells move to the remaining links, an
overloaded direction will be throttled; without a link in service in a direction the device splits. -/
def State.linkFail (s : State) (d l code : Nat) : State :=
  if !s.inSvc l || s.isSplit then s
  else
    let r := s.val .SM_LREASON [l]
    let s := s.setVal .SM_LREASON [l] (if d = 0 then code * 2 ^ 16 + r % 2 ^ 16 else r / 2 ^ 16 * 2 ^ 16 + code)
    let s := s.post none 9 l 0xFFFF code
    let s := s.setFld .SM_LINK [l] (if d = 0 then SM_LINK_STATEW else SM_LINK_STATEE) 3
    let s := s.setFld .SM_STATUS [] SM_STATUS_INSVC (setBits (s.fld .SM_STATUS [] SM_STATUS_INSVC) l 1 0)
    let s := ((s.setFld .SM_STATUS [] SM_STATUS_STATE 1).noteCtl.updateCaps).moveCross l
    if s.dirAlive 0 && s.dirAlive 1 then
      s.each [0, 1] fun s d =>
        let s := (s.moveCells d l).bump .SM_RESTRIPE [d]
        if s.throttledLoad d > s.fld (capReg d) [] SM_CAPW2E_TSLOTS then
          s.modSdir d fun x => { x with thr := 3 } else s
    else s.enterSplit

/-- SEAM_DATA_CELL (R438, R451): a cell arrives; the 16th failed replay of one cell fails the link. -/
def State.seamDataCell (s : State) (d l vl : Nat) (fate : CellFate) : State :=
  let r := s.seamCell d l vl fate
  if r.2 then r.1.linkFail d l 0x0D23 else r.1

end Sys2Proof.Machine
end

