-- ==== Sys2Proof/Machine/Vector.lean ====
section
/-! DEFINITION. The vector core's instructions (R223 to R235): fetch, the forty operations, loops, transfers, events and steps. -/

namespace Sys2Proof.Machine

/-! ## Contexts and registers -/

def State.vctx (s : State) (c v x : Nat) : Vctx := if x = 0 then (s.getVx c v).c0 else (s.getVx c v).c1
def State.modCtx (s : State) (c v x : Nat) (f : Vctx → Vctx) : State :=
  s.modVx c v fun u => if x = 0 then { u with c0 := f u.c0 } else { u with c1 := f u.c1 }

/-- s0 reads zero and m0 all ones; writes to them are ignored (R223). -/
def Vctx.sreg (x : Vctx) (i : Nat) : Nat := if i = 0 then 0 else (mget x.s i).toNat
def Vctx.vreg (x : Vctx) (i : Nat) : Nat := (mget x.v i).toNat
def Vctx.mreg (x : Vctx) (i : Nat) : Nat := if i = 0 then 0xFFFF else (mget x.m i).toNat
def Vctx.setS (x : Vctx) (i n : Nat) : Vctx := if i = 0 then x else { x with s := mput x.s i (BitVec.ofNat 32 n) }
def Vctx.setV (x : Vctx) (i n : Nat) : Vctx := { x with v := mput x.v i (BitVec.ofNat 512 n) }
def Vctx.setM (x : Vctx) (i n : Nat) : Vctx := if i = 0 then x else { x with m := mput x.m i (BitVec.ofNat 16 n) }

/-- Lane k of a vector (R223). -/
def vlane (x k : Nat) : Nat := bitsOf x (32 * k) 32

/-- A vector of sixteen lanes. -/
def vecOf (f : Nat → Nat) : Nat := ((List.range 16).map fun k => f k % 2 ^ 32 * 2 ^ (32 * k)).sum

/-- A vector result under a mask: lanes whose bit is 0 keep the old value (R227). -/
def masked (m old : Nat) (f : Nat → Nat) : Nat := vecOf fun k => if m.testBit k then f k else vlane old k

/-! ## Instruction fields (R226) -/

def iOp (w : Nat) : Nat := bitsOf w 26 6
def iD (w : Nat) : Nat := bitsOf w 21 5
def iA (w : Nat) : Nat := bitsOf w 16 5
def iB (w : Nat) : Nat := bitsOf w 11 5
def iM (w : Nat) : Nat := bitsOf w 8 3
def iF (w : Nat) : Nat := bitsOf w 0 8
def iImm (w : Nat) : Nat := bitsOf w 0 16
def iSimm (w : Nat) : Int := sext 16 w

/-- The opcodes of R227. -/
def vxOps : List Nat :=
  [0x01, 0x02, 0x03, 0x04, 0x05, 0x06, 0x07, 0x08, 0x10, 0x11, 0x12, 0x13, 0x14, 0x18, 0x19, 0x1A, 0x1B, 0x1C, 0x1D, 0x1E] ++
  [0x20, 0x21, 0x22, 0x23, 0x24, 0x25, 0x26, 0x27, 0x28, 0x29, 0x2A, 0x2B, 0x30, 0x31, 0x32, 0x33, 0x34, 0x35, 0x36, 0x37]

/-! ## Issue -/

/-- How an instruction ends: it moves on, skips to an address ahead, jumps, waits (for transfers, or for something else) and is issued
again, stops its context, faults with a code, or is not the commanded one. -/
inductive VOut where
  | next (s : State)
  | skip (s : State) (pc : Nat)
  | jump (s : State) (pc : Nat)
  | wait (s : State) (xfer : Bool)
  | stop (s : State)
  | fault (code : Nat)
  | other

/-- Sequential flow to an address: at the end of the innermost loop it runs again or ends (R227). -/
def loopBack : Nat → List (Nat × Nat × Nat) → Nat → List (Nat × Nat × Nat) × Nat
  | 0, ls, pc => (ls, pc)
  | n + 1, ls, pc =>
    match ls with
    | (start, stop, left) :: t => if pc = stop then (if left > 1 then ((start, stop, left - 1) :: t, start) else loopBack n t pc) else (ls, pc)
    | [] => ([], pc)

/-- A jump ends every innermost loop whose body its target leaves (R227). -/
def loopLeave : List (Nat × Nat × Nat) → Nat → List (Nat × Nat × Nat)
  | [], _ => []
  | l :: t, pc => if l.1 ≤ pc ∧ pc < l.2.1 then l :: t else loopLeave t pc

/-- The context that issues: the service context while it runs, else context 0 while it runs or is blocked (R225). -/
def State.vxActive (s : State) (c v : Nat) : Option Nat :=
  if !s.clusterOn c || s.fencedEng c (16 + v) then none
  else if s.vxSvc c v then some 1
  else if s.vxState c v = vxRunning ∨ s.vxState c v = vxWaiting then some 0 else none

/-- Context 0's STATE follows whether it waits (R240). -/
def State.vxShow (s : State) (c v x n : Nat) : State := if x = 0 then s.setVxState c v n else s

/-- One instruction of a vector core (R223 to R227, R235): fetched at the program counter of the context that issues, which must be a word
of the local store. An opcode that is none of the forty is illegal; where it is not the commanded one, nothing happens. `took`: the core
cycles since the core's last instruction or attempt, which context 1 and the stalls on transfers are counted by (R238). -/
def State.vxStep (s : State) (bad : List Nat) (took c v op : Nat) (run : State → Nat → Nat → VOut) : State :=
  match s.vxActive c v with
  | none => s
  | some x =>
    let timed (s : State) : State := if x = 1 then s.bump .VX_SVCCYC [c, v] took else s
    let pc := (s.vctx c v x).pc
    if pc % 4 ≠ 0 ∨ pc ≥ 0x20000 then (timed s).vxFault c v x 0x0521
    else if badIn bad (vcAddr c v pc) 4 then (timed s).vxFault c v x 0x0525
    else
      let w := s.peekLE (vcAddr c v pc) 4
      if !vxOps.contains (iOp w) then (timed s).vxFault c v x 0x0520
      else if iOp w ≠ op then s
      else
        match run (timed s) x w with
        | .next s =>
          let s := s.modCtx c v x fun u => let r := loopBack 3 u.loops (pc + 4); { u with loops := r.1, pc := r.2 }
          (s.vxShow c v x vxRunning).bump .VX_INSTR [c, v]
        | .skip s t =>
          let s := s.modCtx c v x fun u => let r := loopBack 3 u.loops (t % 2 ^ 32); { u with loops := r.1, pc := r.2 }
          (s.vxShow c v x vxRunning).bump .VX_INSTR [c, v]
        | .jump s t =>
          let s := s.modCtx c v x fun u => { u with loops := loopLeave u.loops t, pc := t % 2 ^ 32 }
          (s.vxShow c v x vxRunning).bump .VX_INSTR [c, v]
        | .wait s xfer => (s.vxShow c v x vxWaiting).bump .VX_XSTALL [c, v] (if xfer then took else 0)
        | .stop s => s.bump .VX_INSTR [c, v]
        | .fault code => (timed s).vxFault c v x code
        | .other => s

/-- A scalar result. -/
def State.vS (s : State) (c v x d n : Nat) : VOut := .next (s.modCtx c v x fun u => u.setS d n)
/-- A vector result under the instruction's mask. -/
def State.vV (s : State) (c v x w : Nat) (f : Nat → Nat) : VOut :=
  .next (s.modCtx c v x fun u => u.setV (iD w) (masked (u.mreg (iM w)) (u.vreg (iD w)) f))

/-! ## Scalar operations -/

/-- A condition on two 32-bit words (R227); none: reserved. -/
def condition (code a b : Nat) : Option Bool :=
  match code with
  | 0 => some (a == b)
  | 1 => some (a != b)
  | 2 => some (decide (sext 32 a < sext 32 b))
  | 3 => some (decide (sext 32 a ≥ sext 32 b))
  | 4 => some (decide (a < b))
  | 5 => some (decide (a ≥ b))
  | _ => none

def logic (f a b : Nat) : Nat :=
  match f % 4 with
  | 0 => a &&& b
  | 1 => a ||| b
  | 2 => a ^^^ b
  | _ => a &&& (0xFFFFFFFF - b)

/-- A shift (R227); none: reserved. -/
def shift (f a n : Nat) : Option Nat :=
  match bitsOf f 5 2 with
  | 0 => some (a * 2 ^ n % 2 ^ 32)
  | 1 => some (a / 2 ^ n)
  | 2 => some (wrapInt 32 (sext 32 a / (2 ^ n : Nat)))
  | _ => none

def shiftBy (f b : Nat) : Nat := if f.testBit 7 then f % 32 else b % 32

def State.doSadd (c v : Nat) (s : State) (x w : Nat) : VOut := s.vS c v x (iD w) ((s.vctx c v x).sreg (iA w) + (s.vctx c v x).sreg (iB w))
def State.doSsub (c v : Nat) (s : State) (x w : Nat) : VOut :=
  s.vS c v x (iD w) ((s.vctx c v x).sreg (iA w) + 2 ^ 32 - (s.vctx c v x).sreg (iB w))
def State.doSmul (c v : Nat) (s : State) (x w : Nat) : VOut :=
  let a := (s.vctx c v x).sreg (iA w)
  let b := (s.vctx c v x).sreg (iB w)
  match iF w % 4 with
  | 0 => s.vS c v x (iD w) (a * b)
  | 1 => s.vS c v x (iD w) (wrapInt 32 (sext 32 a * sext 32 b / 2 ^ 32))
  | 2 => s.vS c v x (iD w) (a * b / 2 ^ 32)
  | _ => .fault 0x0520
def State.doSlog (c v : Nat) (s : State) (x w : Nat) : VOut :=
  s.vS c v x (iD w) (logic (iF w) ((s.vctx c v x).sreg (iA w)) ((s.vctx c v x).sreg (iB w)))
def State.doSshf (c v : Nat) (s : State) (x w : Nat) : VOut :=
  match shift (iF w) ((s.vctx c v x).sreg (iA w)) (shiftBy (iF w) ((s.vctx c v x).sreg (iB w))) with
  | some n => s.vS c v x (iD w) n
  | none => .fault 0x0520
def State.doScmp (c v : Nat) (s : State) (x w : Nat) : VOut :=
  match condition (iF w % 8) ((s.vctx c v x).sreg (iA w)) ((s.vctx c v x).sreg (iB w)) with
  | some b => s.vS c v x (iD w) (if b then 1 else 0)
  | none => .fault 0x0520
def State.doSaddi (c v : Nat) (s : State) (x w : Nat) : VOut :=
  s.vS c v x (iD w) (wrapInt 32 ((s.vctx c v x).sreg (iA w) + iSimm w))
def State.doSlui (c v : Nat) (s : State) (x w : Nat) : VOut := s.vS c v x (iD w) (iImm w * 2 ^ 16)

/-! ## Control -/

/-- An address a signed number of words away. -/
def wordsOff (pc : Nat) (n : Int) : Nat := wrapInt 32 (pc + 4 * n)

def State.doBc (c v : Nat) (s : State) (x w : Nat) : VOut :=
  let u := s.vctx c v x
  match condition (bitsOf w 13 3) (u.sreg (iD w)) (u.sreg (iA w)) with
  | some true => .jump s (wordsOff u.pc (sext 13 w))
  | some false => .next s
  | none => .fault 0x0520
def State.doJmp (c v : Nat) (s : State) (x w : Nat) : VOut := .jump s (wordsOff (s.vctx c v x).pc (sext 26 w))
def State.doJr (c v : Nat) (s : State) (x w : Nat) : VOut :=
  let u := s.vctx c v x
  .jump (s.modCtx c v x fun u => u.setS (iD w) (u.pc + 4)) (u.sreg (iA w))
def State.doLoop (c v : Nat) (s : State) (x w : Nat) : VOut :=
  let u := s.vctx c v x
  let stop := u.pc + 4 + 4 * iImm w
  if u.sreg (iA w) = 0 then .skip s stop
  else if iImm w = 0 then .next s
  else if u.loops.length ≥ 2 then .fault 0x0522
  else .next (s.modCtx c v x fun u => { u with loops := (u.pc + 4, stop, u.sreg (iA w)) :: u.loops })

/-- SYS 0 (R235): context 0 halts; the service context ends. -/
def State.doHalt (c v : Nat) (s : State) (x w : Nat) : VOut :=
  if iImm w > 2 then .fault 0x0520
  else if iImm w ≠ 0 then .other
  else if x = 1 then .stop (s.svcHalt c v)
  else .stop ((s.setVxState c v vxHalted).vxStopped c v)

/-- SYS 1: every earlier transfer accepted, and the emit port has taken every record. -/
def State.doFence (c v : Nat) (s : State) (_x w : Nat) : VOut :=
  if iImm w > 2 then .fault 0x0520
  else if iImm w ≠ 1 then .other
  else if (s.getVx c v).out = [] ∧ (s.getEng c v).emitq = [] then .next s else .wait s ((s.getVx c v).out != [])

/-- SYS 2 (R235). -/
def State.doBreak (_s : State) (_x w : Nat) : VOut :=
  if iImm w > 2 then .fault 0x0520 else if iImm w ≠ 2 then .other else .fault 0x0524

/-! ## Local store -/

/-- Does a store of context 0 meet the protected service program (R224)? -/
def State.svcProtected (s : State) (c v x a n : Nat) : Bool :=
  x == 0 && s.bit .VX_CFG [c, v] VX_CFG_STDSVC && decide (a + n > 0x1C000)

/-- An access of n bytes at a local address: the fault code, or 0. -/
def State.localCode (s : State) (bad : List Nat) (c v x a n : Nat) (write : Bool) : Nat :=
  if a % n ≠ 0 ∨ a + n > 0x20000 then 0x0521
  else if write && s.svcProtected c v x a n then 0x0521
  else if !write && badIn bad (vcAddr c v a) n then 0x0525 else 0

def State.doSld (bad : List Nat) (c v : Nat) (s : State) (x w : Nat) : VOut :=
  let a := wrapInt 32 ((s.vctx c v x).sreg (iA w) + iSimm w)
  match s.localCode bad c v x a 4 false with
  | 0 => s.vS c v x (iD w) (s.peekLE (vcAddr c v a) 4)
  | k => .fault k
def State.doSst (c v : Nat) (s : State) (x w : Nat) : VOut :=
  let a := wrapInt 32 ((s.vctx c v x).sreg (iA w) + iSimm w)
  match s.localCode [] c v x a 4 true with
  | 0 => .next (s.pokeLE (vcAddr c v a) 4 ((s.vctx c v x).sreg (iD w)))
  | k => .fault k
def State.doVld (bad : List Nat) (c v : Nat) (s : State) (x w : Nat) : VOut :=
  let a := wrapInt 32 ((s.vctx c v x).sreg (iA w) + 64 * iSimm w)
  match s.localCode bad c v x a 64 false with
  | 0 => .next (s.modCtx c v x fun u => u.setV (iD w) (s.peekLE (vcAddr c v a) 64))
  | k => .fault k
def State.doVst (c v : Nat) (s : State) (x w : Nat) : VOut :=
  let a := wrapInt 32 ((s.vctx c v x).sreg (iA w) + 64 * iSimm w)
  match s.localCode [] c v x a 64 true with
  | 0 => .next (s.pokeLE (vcAddr c v a) 64 ((s.vctx c v x).vreg (iD w)))
  | k => .fault k

/-! ## Transfers -/

/-- The operands of XLD and XST (R231): device address, local address, size; and the code where they break R231. -/
def State.xferOps (s : State) (c v x w : Nat) (load : Bool) : Nat × Nat × Nat × Nat :=
  let u := s.vctx c v x
  let dev := u.sreg (iA w) + 2 ^ 32 * u.sreg (iA w + 1)
  let loc := u.sreg (iD w)
  let n := u.sreg (iB w)
  let code :=
    if iA w % 2 ≠ 0 ∨ loc % 64 ≠ 0 ∨ dev % 64 ≠ 0 ∨ n % 64 ≠ 0 ∨ n = 0 ∨ n > 65536 ∨ dev ≥ 2 ^ 48 then 0x0523
    else if loc + n > 0x20000 then 0x0521
    else if load && s.svcProtected c v x loc n then 0x0521 else 0
  (dev, loc, n, code)

/-- A transfer of a vector core starts (R231): with eight outstanding, or no free tag, it waits. -/
def State.vxIssue (s : State) (c v x : Nat) (y : Xfer) : VOut :=
  if (s.getVx c v).out.length ≥ 8 then .wait s true
  else
    match s.xferStart { y with own := .vx c v x, part := (s.partOfCluster c).getD 8, ep := endpointOf c (3 + v) } with
    | none => .wait s true
    | some (key, s) => .next (s.modVx c v fun u => { u with out := u.out ++ [key] })

/-- The send handle whose window an address is the start of (R337). -/
def sendWindow (c a : Nat) : Option Nat :=
  let o := a - (winBase c + 0xF980000)
  if winBase c + 0xF980000 ≤ a ∧ o < 0x40000 then some (o / 0x1000) else none

def State.doXld (c v : Nat) (s : State) (x w : Nat) : VOut :=
  let (dev, loc, n, code) := s.xferOps c v x w true
  if code ≠ 0 then .fault code
  else if (sendWindow c dev).isSome then .fault 0x0523
  else s.vxIssue c v x { dev := dev, loc := loc, len := n }

/-- XST; through a send window it sends a message (R337). -/
def State.doXst (c v : Nat) (s : State) (x w : Nat) : VOut :=
  let (dev, loc, n, code) := s.xferOps c v x w false
  if code ≠ 0 then .fault code
  else
    match sendWindow c dev with
    | none => s.vxIssue c v x { write := true, dev := dev, loc := loc, len := n }
    | some h =>
      let tgt := s.val .MQ_SH_ADDR [c, h]
      if dev % 0x1000 ≠ 0 ∨ !s.bit .MQ_SH_CFG [c, h] MQ_SH_CFG_EN ∨ s.badSend tgt n (s.peekN (vcAddr c v loc) 16) then
        .stop ((s.setVal .TL_LASTERR [c] (0x0910 * 2 ^ 48 + dev)).vxFault c v x 0x0523)
      else
        let hd := c * 64 + h + 1
        s.vxIssue c v x { write := true, dev := tgt, loc := loc, len := n, handle := hd, seq := s.sendOrder hd }

def State.doXwait (c v : Nat) (s : State) (_x w : Nat) : VOut := if (s.getVx c v).out.length ≤ iImm w then .next s else .wait s true

/-- VX_TRANSFER_COMPLETE (R231, R232): an accepted transfer frees its slot. One with a core store of the same cluster moves here, without
the trellis. -/
def State.vxTransferDone (s : State) (bad : List Nat) (key : Nat) : State :=
  let y := s.getXfer key
  match y.own with
  | .vx c v ctx =>
    let free (s : State) : State :=
      ((s.vxFree c v key).modXfer key fun _ => {}).bump .VX_XBYTES [c, v] y.len
    if y.fin = 1 then free s
    else if y.fin ≠ 0 ∨ !s.localXfer y then s
    else
      let code := s.reachRange (some y.part) y.ep y.dev y.len y.write
      if code ≠ 0 then (s.countStray (some y.part) c y.dev code).xferFail key code y.dev
      else if y.write && badIn bad (vcAddr c v y.loc) y.len then
        ((s.vxFree c v key).modXfer key fun _ => {}).vxFault c v ctx 0x0525
      else if !y.write && badIn bad y.dev y.len then (s.bump .TL_UNCORR [c]).xferFail key 0x0810 y.dev
      else if y.write then
        free (s.each (List.range ((y.len + 63) / 64)) fun s i =>
          s.lineWrite c (y.dev + 64 * i) (s.peekN (vcAddr c v (y.loc + 64 * i)) (min 64 (y.len - 64 * i))))
      else free (s.poke (vcAddr c v y.loc) (s.readBytes y.dev y.len))
  | _ => s

/-! ## Vector arithmetic -/

def satS32 (x : Int) : Nat := wrapInt 32 (clampInt (-(2 ^ 31)) (2 ^ 31 - 1) x)

/-- An exact product of two S16.16 values rounded half to even to S16.16. -/
def fixMul (a b : Nat) : Int :=
  let p := sext 32 a * sext 32 b
  let q : Int := p / 2 ^ 16
  let r := p % 2 ^ 16
  if r > 2 ^ 15 ∨ (r = 2 ^ 15 ∧ q % 2 = 1) then q + 1 else q

/-- Addition, subtraction, multiplication and multiply-accumulate of a type (R227). -/
def typedAdd (t a b : Nat) : Nat :=
  match t with
  | 0 => a + b
  | 2 => f32Add a b
  | _ => satS32 (sext 32 a + sext 32 b)
def typedSub (t a b : Nat) : Nat :=
  match t with
  | 0 => a + 2 ^ 32 - b
  | 2 => f32Sub a b
  | _ => satS32 (sext 32 a - sext 32 b)
def typedMul (t a b : Nat) : Nat :=
  match t with
  | 0 => a * b
  | 1 => satS32 (sext 32 a * sext 32 b)
  | 2 => f32Mul a b
  | _ => satS32 (fixMul a b)
def typedMac (t d a b : Nat) : Nat :=
  match t with
  | 0 => d + a * b
  | 1 => satS32 (sext 32 d + sext 32 a * sext 32 b)
  | 2 => roundF32 (Num.add (decodeFmt .fp32 d) (Num.mul (decodeFmt .fp32 a) (decodeFmt .fp32 b)))
  | _ => satS32 (sext 32 d + fixMul a b)

/-- Minimum and maximum (R227): for FP32 a NaN operand yields the other operand, and two the NaN of R246; two zeros of different sign leave the
result open. -/
def typedMin (t a b : Nat) : Nat :=
  if t = 2 then
    (if decodeFmt .fp32 a = .nan then (if decodeFmt .fp32 b = .nan then 0x7FC00000 else b)
     else if decodeFmt .fp32 b = .nan then a else f32Min a b)
  else if sext 32 a ≤ sext 32 b then a else b
def typedMax (t a b : Nat) : Nat :=
  if t = 2 then
    (if decodeFmt .fp32 a = .nan then (if decodeFmt .fp32 b = .nan then 0x7FC00000 else b)
     else if decodeFmt .fp32 b = .nan then a else f32Max a b)
  else if sext 32 a ≥ sext 32 b then a else b

/-- A condition of a type (R227); for FP32 the unsigned conditions have no stated result on numbers: the free bit. -/
def typedCond (t code a b : Nat) (free : Bool) : Option Bool :=
  if t = 2 then
    let x := decodeFmt .fp32 a
    let y := decodeFmt .fp32 b
    match code with
    | 0 => some (Num.eq x y)
    | 1 => some (!Num.eq x y)
    | 2 => some (Num.lt x y)
    | 3 => some (Num.lt y x || Num.eq x y)
    | 4 => some (free && x != .nan && y != .nan)
    | 5 => some (free && x != .nan && y != .nan)
    | _ => none
  else condition code a b

def iT (w : Nat) : Nat := bitsOf w 6 2

def State.doVadd (c v : Nat) (s : State) (x w : Nat) : VOut :=
  s.vV c v x w fun k => typedAdd (iT w) (vlane ((s.vctx c v x).vreg (iA w)) k) (vlane ((s.vctx c v x).vreg (iB w)) k)
def State.doVsub (c v : Nat) (s : State) (x w : Nat) : VOut :=
  s.vV c v x w fun k => typedSub (iT w) (vlane ((s.vctx c v x).vreg (iA w)) k) (vlane ((s.vctx c v x).vreg (iB w)) k)
def State.doVmul (c v : Nat) (s : State) (x w : Nat) : VOut :=
  s.vV c v x w fun k => typedMul (iT w) (vlane ((s.vctx c v x).vreg (iA w)) k) (vlane ((s.vctx c v x).vreg (iB w)) k)
def State.doVmac (c v : Nat) (s : State) (x w : Nat) : VOut :=
  s.vV c v x w fun k => typedMac (iT w) (vlane ((s.vctx c v x).vreg (iD w)) k) (vlane ((s.vctx c v x).vreg (iA w)) k)
    (vlane ((s.vctx c v x).vreg (iB w)) k)
def State.doVmnx (c v : Nat) (s : State) (x w : Nat) : VOut :=
  s.vV c v x w fun k =>
    let a := vlane ((s.vctx c v x).vreg (iA w)) k
    let b := vlane ((s.vctx c v x).vreg (iB w)) k
    if w.testBit 0 then typedMax (iT w) a b else typedMin (iT w) a b
def State.doVlog (c v : Nat) (s : State) (x w : Nat) : VOut :=
  s.vV c v x w fun k => logic (iF w) (vlane ((s.vctx c v x).vreg (iA w)) k) (vlane ((s.vctx c v x).vreg (iB w)) k)
def State.doVshf (c v : Nat) (s : State) (x w : Nat) : VOut :=
  if bitsOf w 5 2 = 3 then .fault 0x0520
  else s.vV c v x w fun k =>
    (shift (iF w) (vlane ((s.vctx c v x).vreg (iA w)) k) (shiftBy (iF w) (vlane ((s.vctx c v x).vreg (iB w)) k))).getD 0

/-- Sixteen bits as the sum of those that are set. -/
def bits16 (f : Nat → Bool) : Nat := ((List.range 16).map fun k => if f k then 2 ^ k else 0).sum

def State.doVcmp (c v : Nat) (s : State) (x w : Nat) : VOut :=
  let u := s.vctx c v x
  let code := iF w % 8
  if code > 5 then .fault 0x0520
  else
    let (fv, s) := if iT w = 2 ∧ code ≥ 4 then s.draw else (0, s)
    let old := u.mreg (iD w % 8)
    let m := u.mreg (iM w)
    .next (s.modCtx c v x fun y => y.setM (iD w % 8) (bits16 fun k =>
      if m.testBit k then (typedCond (iT w) code (vlane (u.vreg (iA w)) k) (vlane (u.vreg (iB w)) k) (fv.toNat.testBit k)).getD false
      else old.testBit k))

def State.doVsel (c v : Nat) (s : State) (x w : Nat) : VOut :=
  let u := s.vctx c v x
  let m := u.mreg (iM w)
  .next (s.modCtx c v x fun y => y.setV (iD w) (vecOf fun k => if m.testBit k then vlane (u.vreg (iA w)) k else vlane (u.vreg (iB w)) k))

/-- VCVT (R228): the formats of the two codes; a widening reads group B, a narrowing writes group B, and equal widths do both. -/
def State.doVcvt (c v : Nat) (s : State) (x w : Nat) : VOut :=
  let u := s.vctx c v x
  let src := bitsOf w 4 4
  let dst := bitsOf w 0 4
  if src = 11 ∨ dst = 11 then .fault 0x0520
  else
    match Fmt.ofCode src, Fmt.ofCode dst with
    | some fs, some fd =>
      let ws := fs.width
      let wd := fd.width
      if iB w ≥ 32 / min ws wd then .fault 0x0520
      else
        let gs := if ws ≤ wd then iB w else 0
        let gd := if wd ≤ ws then iB w else 0
        let old := u.vreg (iD w)
        let m := u.mreg (iM w)
        let val := (List.range 16).foldl (fun acc k =>
          if m.testBit k then
            setBits acc ((gd * 16 + k) * wd) wd (encodeFmt fd (decodeFmt fs (bitsOf (u.vreg (iA w)) ((gs * 16 + k) * ws) ws)))
          else acc) old
        .next (s.modCtx c v x fun y => y.setV (iD w) val)
    | _, _ => .fault 0x0520

/-- A fixed pairwise tree over the lanes that take part: neighbours are combined level by level, and one without a partner passes on. -/
def pairTree (f : Nat → Nat → Nat) : Nat → List (Option Nat) → Option Nat
  | 0, l => (l.headD none)
  | n + 1, l =>
    let rec go : List (Option Nat) → List (Option Nat)
      | some a :: some b :: t => some (f a b) :: go t
      | some a :: none :: t => some a :: go t
      | none :: y :: t => y :: go t
      | l => l
    pairTree f n (go l)

def State.doVred (c v : Nat) (s : State) (x w : Nat) : VOut :=
  let u := s.vctx c v x
  let m := u.mreg (iM w)
  let t := iT w
  let ls := (List.range 16).map fun k => if m.testBit k then some (vlane (u.vreg (iA w)) k) else none
  match iF w % 4 with
  | 0 => s.vS c v x (iD w) ((pairTree (fun a b => typedAdd t a b % 2 ^ 32) 4 ls).getD 0)
  | 3 => .fault 0x0520
  | k =>
    match pairTree (if k = 1 then typedMin t else typedMax t) 4 ls with
    | some n => s.vS c v x (iD w) n
    | none => let (fv, s) := s.draw; s.vS c v x (iD w) fv.toNat

def State.doVmov (c v : Nat) (s : State) (x w : Nat) : VOut :=
  let u := s.vctx c v x
  let sa := u.sreg (iA w)
  match iF w % 8 with
  | 0 => s.vV c v x w fun k => vlane (u.vreg (iA w)) k
  | 1 => s.vV c v x w fun _ => sa
  | 2 => if iB w > 15 then .fault 0x0520 else s.vS c v x (iD w) (vlane (u.vreg (iA w)) (iB w))
  | 3 => if iB w > 15 then .fault 0x0520 else s.vV c v x w fun k => if k = iB w then sa else vlane (u.vreg (iD w)) k
  | 4 => s.vV c v x w fun k => sa + k
  | 5 => .next (s.modCtx c v x fun y => y.setM (iD w % 8) (u.mreg (iA w % 8) &&& u.mreg (iB w % 8)))
  | 6 => .next (s.modCtx c v x fun y => y.setM (iD w % 8) (0xFFFF - u.mreg (iA w % 8)))
  | _ => .next (s.modCtx c v x fun y => y.setM (iD w % 8) sa)

/-! ## Events and steps -/

/-- Is a group number one the core is bound to (R218, R233)? -/
def State.vxBound (s : State) (c v g : Nat) : Bool := (s.vxGroups c v).contains g

/-- The group has a step open that has reached this core. -/
def State.vxOpen (s : State) (c v g : Nat) : Bool :=
  s.wgOpen g && (!s.vxBound c v g || (s.getWg g).opened.contains (eidOf c (16 + v)))

/-- Records handed to the emit port in order (R233; one whose world lies in no enabled group is the port's to drop, R147), as far as its queue has room: how many were handled. -/
def State.emitAll (c v : Nat) : List Nat → Nat → State → Nat × State
  | [], n, s => (n, s)
  | r :: t, n, s =>
    let late := match s.groupOf (bitsOf r 41 14) with
      | some g => !s.vxBound c v g || (s.vxOpen c v g && (s.getEng c v).sdone.contains g)
      | none => false
    if late then State.emitAll c v t (n + 1) (s.bump .VX_ELATE [c, v])
    else if (s.getEng c v).emitq.length ≥ 16 then (n, s)
    else State.emitAll c v t (n + 1) ((s.modEng c v fun e => { e with emitq := e.emitq ++ [BitVec.ofNat 64 r] }).bump .VX_EMITS [c, v])

def State.doEmit (c v : Nat) (s : State) (x w : Nat) : VOut :=
  let u := s.vctx c v x
  if !w.testBit 0 && iA w % 2 == 1 then .fault 0x0520
  else
    let recs := if w.testBit 0 then
        ((List.range 16).filter fun k => (u.mreg (iM w)).testBit k).map fun k =>
          vlane (u.vreg (iA w)) k * 2 ^ 32 + vlane (u.vreg (iB w)) k
      else [u.sreg (iA w + 1) * 2 ^ 32 + u.sreg (iA w)]
    let r := State.emitAll c v (recs.drop u.emitted) 0 s
    if u.emitted + r.1 ≥ recs.length then .next (r.2.modCtx c v x fun y => { y with emitted := 0 })
    else .wait (r.2.modCtx c v x fun y => { y with emitted := u.emitted + r.1 }) false

/-- Free lanes where no flit was popped. -/
def State.drawLanes (s : State) : Nat → List Nat × State
  | 0 => ([], s)
  | n + 1 => let r := s.draw; let q := r.2.drawLanes n; (r.1.toNat % 2 ^ 32 :: q.1, q.2)

def State.doIbpop (c v : Nat) (s : State) (x w : Nat) : VOut :=
  let q := (s.getEng c v).ibq
  let n := min 4 q.length
  if w.testBit 0 && n == 0 then .wait s false
  else
    let s := (s.modEng c v fun e => { e with ibq := e.ibq.drop n }).setVal .SY_IBQ_STATUS [c, v] (q.length - n)
    let (fr, s) := s.drawLanes (16 - 4 * n)
    let f (k : Nat) : Nat := if k < 4 * n then bitsOf ((q.getD (k / 4) 0).toNat) (32 * (k % 4)) 32 else fr.getD (k - 4 * n) 0
    let s := s.modCtx c v x fun u => u.setV (iD w) (masked (u.mreg (iM w)) (u.vreg (iD w)) f)
    s.vS c v x (iA w) n

def State.doSwait (c v : Nat) (s : State) (x w : Nat) : VOut :=
  let u := s.vctx c v x
  let g := u.sreg (iA w)
  let s := s.modVx c v fun y => { y with swg := g + 1 }
  if g < 256 && s.wgState g == wsHalted then .wait s false
  else if w.testBit 0 then
    if ((s.getWg g).last + 2 ^ 32 - u.sreg (iD w)) % 2 ^ 32 < 2 ^ 31 then .next s else .wait s false
  else
    let t := s.val .WG_STEP [g] % 2 ^ 32
    let d := (t + 2 ^ 32 - u.sreg (iD w)) % 2 ^ 32
    if g < 256 && s.vxOpen c v g && d != 0 && decide (d < 2 ^ 31) then s.vS c v x (iD w) t else .wait s false

def State.doSdone (c v : Nat) (s : State) (x w : Nat) : VOut :=
  let g := (s.vctx c v x).sreg (iA w)
  if s.vxBound c v g && s.vxOpen c v g && !(s.getEng c v).sdone.contains g then
    .next ((s.modEng c v fun e => { e with sdone := e.sdone ++ [g] }).modVx c v fun u =>
      { u with before := (u.before.filter fun y => y.1 != g) ++ u.out.map fun k => (g, k) })
  else .next (s.bump .VX_ELATE [c, v])

/-- WUPD (R229, R176). -/
def State.doWupd (c v : Nat) (s : State) (x w : Nat) : VOut :=
  let u := s.vctx c v x
  let y := s.getVx c v
  if iF w % 8 > 4 then .fault 0x0520
  else
    let f := wfmtOf (iF w % 8)
    let m := u.mreg (iM w)
    let code (k : Nat) : Nat :=
      let old := bitsOf (u.vreg (iB w)) (8 * k) 8
      if m.testBit k then
        updateCode f old (sext 32 (vlane (u.vreg (iA w)) k)) (bitsOf y.lrate.toNat 0 16) (bitsOf y.lrate.toNat 16 5)
          (sext 16 (bitsOf y.wbound.toNat 0 16)) (sext 16 (bitsOf y.wbound.toNat 16 16))
      else old
    let res := ((List.range 16).map fun k => code k % 256 * 2 ^ (8 * k)).sum
    .next (s.modCtx c v x fun z => (z.setV (iD w) res).setM 7 (bits16 fun k => decide ((units9 f (code k)).natAbs < y.pth.toNat * 8)))

/-- VRAND (R170, R227). -/
def vrand (seed w t : Nat) : Nat :=
  let x := seed ^^^ (w % 2 ^ 32)
  let x := x ^^^ ((t % 2 ^ 16) * 2 ^ 16 + t % 2 ^ 16)
  lfsrN 32 (if x = 0 then 1 else x) % 2 ^ 24
def State.doVrand (c v : Nat) (s : State) (x w : Nat) : VOut :=
  s.vV c v x w fun k => vrand (s.getVx c v).seed.toNat ((s.vctx c v x).sreg (iA w) + k) ((s.vctx c v x).sreg (iB w))

/-- CSRR (R230); `cycles` is the core-cycle count of the moment. -/
def State.doCsrr (cycles : Nat) (c v : Nat) (s : State) (x w : Nat) : VOut :=
  let y := s.getVx c v
  match iImm w with
  | 0x000 => (s.modVx c v fun u => { u with cycleh := BitVec.ofNat 32 (cycles / 2 ^ 32) }).vS c v x (iD w) cycles
  | 0x001 => s.vS c v x (iD w) y.cycleh.toNat
  | 0x002 => s.vS c v x (iD w) (c * 2 ^ 7 + 16 + v)
  | 0x003 => s.vS c v x (iD w) ((s.partOfCluster c).getD 0)
  | 0x004 => s.vS c v x (iD w) y.seed.toNat
  | 0x005 => s.vS c v x (iD w) (if y.swg = 0 then 0 else s.val .WG_WSTEP [y.swg - 1] % 2 ^ 32)
  | 0x010 => s.vS c v x (iD w) y.lrate.toNat
  | 0x011 => s.vS c v x (iD w) y.wbound.toNat
  | 0x012 => s.vS c v x (iD w) y.pth.toNat
  | 0x020 => s.vS c v x (iD w) (if x = 1 then y.stage else 0)
  | _ => s.vS c v x (iD w) 0
def State.doCsrw (c v : Nat) (s : State) (x w : Nat) : VOut :=
  let n := (s.vctx c v x).sreg (iA w)
  match iImm w with
  | 0x004 => .next (s.modVx c v fun u => { u with seed := BitVec.ofNat 32 n })
  | 0x010 => .next (s.modVx c v fun u => { u with lrate := BitVec.ofNat 32 (n % 2 ^ 21) })
  | 0x011 => .next (s.modVx c v fun u => { u with wbound := BitVec.ofNat 32 n })
  | 0x012 => .next (s.modVx c v fun u => { u with pth := BitVec.ofNat 32 (n % 2 ^ 16) })
  | _ => .next s

end Sys2Proof.Machine
end

