-- ==== Sys2Proof/Machine/Ports.lean ====
section
/-! DEFINITION. Gate ports (R396 to R424): the link, host writes into the aperture, control words, event-in, and the binding of ports to
partitions. A byte of a port's staging is held at port × 2^28 + aperture offset. -/

namespace Sys2Proof.Machine

/-! ## Staging -/

def stagAddr (n o : Nat) : Nat := n * 2 ^ 28 + o
def State.stagPeek (s : State) (n o k : Nat) : List Byte := (List.range k).map fun i => mget s.staging (stagAddr n o + i)
def State.stagPoke (s : State) (n o : Nat) (bs : List Byte) : State := { s with staging := pokeMem s.staging (stagAddr n o) bs }
def State.stagWipe (s : State) (n o k : Nat) : State := { s with staging := mclear s.staging (stagAddr n o) k }

/-- A region of the aperture (R401). -/
def trayBase (t : Nat) : Nat := 0x10000 + t * 0x10000
def evinBase : Nat := 0x110000
def bulkBase : Nat := 0x910000
def bulkEnd : Nat := 0x1000000

/-! ## The link (R399, R400) -/

def lnkOff : Nat := 0
def lnkWait : Nat := 1
def lnkTraining : Nat := 2
def lnkService : Nat := 3
def lnkSelf : Nat := 4
def lnkDisabled : Nat := 5

def State.link (s : State) (n : Nat) : Nat := s.fld .GP_PSTATUS [n] GP_PSTATUS_STATE
def State.setLink (s : State) (n x : Nat) : State := s.setFld .GP_PSTATUS [n] GP_PSTATUS_STATE x

/-- The enabled event-in bind entries of a port (R419): the entry and its group. -/
def State.evBinds (s : State) (n : Nat) : List (Nat × Nat) :=
  ((List.range 8).filter fun b => s.bit .GP_EVBIND [n, b] GP_EVBIND_EN).map fun b => (b, s.fld .GP_EVBIND [n, b] GP_EVBIND_WG)

/-- A port leaves SERVICE, is unbound or loses its power (R431): its bound groups halt at their next harvest and the requests pending
at its host channels are refused. -/
def State.portLeaves (s : State) (n : Nat) : State :=
  let s := s.each (nodups ((s.evBinds n).map (·.2))) fun s g => if s.wgOn g then s.haltAtHarvest g 0x0C80 else s
  s.each (portTks n) fun s t => if s.tkOn t then s.refuseReqs t 0x0911 fun _ => true else s

/-- The link is disabled with a code (R398, R400). -/
def State.linkDisable (s : State) (n code : Nat) : State :=
  let served := s.link n = lnkService ∨ s.link n = lnkSelf
  let s := ((s.setLink n lnkDisabled).setFld .GP_PSTATUS [n] GP_PSTATUS_REASON code).setFld .GP_PSTATUS [n] GP_PSTATUS_RATE 0
  let s := (s.post (s.partOfPort n) 9 n 0xFFFF code).modGp n fun g => { g with step := 0, reps := 0, failed := false }
  if served then s.portLeaves n else s

/-- The code of a failed training step (R435). -/
def trainCode (k : Nat) : Nat := if k = 0 then 0x0C21 else 0x0C22

/-- HOST_TRAINING_STEP (R400): kind 0 command bus, 1 write levelling, 2 read, 3 write training, with the result the port observes. The
65th run without a passing result fails, and so does leaving a step whose last result failed. -/
def State.trainStep (s : State) (n kind : Nat) (pass : Bool) : State :=
  let st := s.link n
  if !s.portOn n || (st != lnkWait && st != lnkTraining && st != lnkService) then s
  else
    let g := s.getGp n
    if g.step ≠ 0 ∧ g.step ≠ kind + 1 ∧ g.failed then s.linkDisable n (trainCode (g.step - 1))
    else
      let reps := if pass then 0 else (if g.step = kind + 1 then g.reps else 0) + 1
      let s := s.modGp n fun g => { g with step := kind + 1, reps := reps, failed := !pass }
      let s := if st = lnkService then s.portLeaves n else s
      if reps > 64 then s.linkDisable n (trainCode kind)
      else (s.setLink n lnkTraining).setFld .GP_PSTATUS [n] GP_PSTATUS_RATE 0

/-- HOST_MODE_REGISTER_WRITE (R396, R399, R400): a rate of 1 to 3, or a higher one; a setting the port supports or not; and whether it
takes the port into service. -/
def State.modeWrite (s : State) (n rate : Nat) (supported service : Bool) : State :=
  let st := s.link n
  if !s.portOn n || (st != lnkWait && st != lnkTraining && st != lnkService) then s
  else if rate > 3 || !supported then s.linkDisable n 0x0C23
  else if service && st == lnkTraining then
    let g := s.getGp n
    if g.failed then s.linkDisable n (trainCode (g.step - 1))
    else if rate = 0 then s
    else ((s.modGp n fun g => { g with step := 0, reps := 0 }).setLink n lnkService).setFld .GP_PSTATUS [n] GP_PSTATUS_RATE rate
  else if st == lnkService && rate != 0 then s.setFld .GP_PSTATUS [n] GP_PSTATUS_RATE rate
  else s

/-- HOST_SELF_REFRESH (R396, R399): entered at any time that the host drives the link; leaving it returns to the state it was entered from
(log entry 154). Power-down changes nothing the device shows. -/
def State.selfRefresh (s : State) (n : Nat) (enter : Bool) : State :=
  let st := s.link n
  if !s.portOn n then s
  else if enter && (st == lnkService || st == lnkWait || st == lnkTraining) then (s.setLink n lnkSelf).modGp n fun g => { g with srFrom := st }
  else if !enter && st == lnkSelf then (s.setLink n (s.getGp n).srFrom).modGp n fun g => { g with srFrom := 0 }
  else s

/-- HOST_CLOCK_TIMEOUT (R400). -/
def State.clockTimeout (s : State) (n : Nat) : State := if s.portOn n && s.link n == lnkWait then s.linkDisable n 0x0C20 else s

/-- RETRY (R400): a disabled port waits for its host again. -/
def State.gpRetry (s : State) (n : Nat) : State :=
  if s.link n = lnkDisabled then (s.setLink n lnkWait).setFld .GP_PSTATUS [n] GP_PSTATUS_REASON 0 else s

/-! ## Control words (R403, R404) -/

/-- Is a written value ahead of the present one by less than 2^31, and within a limit on the advance? -/
def ahead (v now lim : Nat) : Bool :=
  let d := (v + 2 ^ 32 - now) % 2 ^ 32
  d != 0 && decide (d < 2 ^ 31) && decide (d ≤ lim)

def State.badCw (s : State) (n : Nat) : State := s.bump .GP_BADCW [n]

/-- HC_CRD[t]: up to the commands of the tray that have completed. -/
def State.hcCrd (s : State) (n t v : Nat) : State :=
  let g := s.getGp n
  let now := mget g.crd t
  if v = now then s
  else if ahead v now ((mget g.done t + 2 ^ 32 - now) % 2 ^ 32) then s.modGp n fun g => { g with crd := mput g.crd t v }
  else s.badCw n

/-- HC_EVIN_WR: a multiple of 16, at most 4 MiB ahead of RD. -/
def State.hcEvinWr (s : State) (n v : Nat) : State :=
  let g := s.getGp n
  if v = g.evWr then s
  else if ahead v g.evWr (2 ^ 31) && v % 16 == 0 && decide ((v + 2 ^ 32 - g.evRd) % 2 ^ 32 ≤ 2 ^ 22) then s.modGp n fun g => { g with evWr := v }
  else s.badCw n

/-- HC_RD[c]: under R331. -/
def State.hcRd (s : State) (n ch v : Nat) : State :=
  let t := 0x10000 + n * 16 + ch
  let x := s.getChan t
  if v = x.rd then s
  else if s.tkOn t && ahead v x.rd ((x.wr + 2 ^ 32 - x.rd) % 2 ^ 32) && v % 64 == 0 then s.takeRd t v
  else s.badCw n

/-- HC_EVDONE[b]: the records published before the write belong to it (R419). -/
def State.hcEvdone (s : State) (n b v : Nat) : State :=
  let g := s.getGp n
  let now := mget g.evDone b
  if v = now then s
  else if ahead v now (2 ^ 31) then s.modGp n fun g => { g with evDone := mput g.evDone b v, evSnap := mput g.evSnap b g.evWr }
  else s.badCw n

/-- The control words of a line of the control page, in ascending order; none where the line holds none. -/
def State.ctrlLine (s : State) (n o : Nat) (bs : List Byte) : Option State :=
  let word (i : Nat) : Nat := leNat ((bs.drop (8 * i)).take 4)
  let all (f : State → Nat → Nat → State) : State := s.each (List.range 8) fun s i => f s i (word i)
  if o = 0 then (if s.isAdmin n then some (s.modGp n fun g => { g with admin := bs }) else none)
  else if o = 0x100 then some (all fun s i v => s.hcCrd n i v)
  else if o = 0x140 then some (all fun s i v => s.hcCrd n (8 + i) v)
  else if o = 0x200 then some (s.hcEvinWr n (word 0))
  else if o = 0x300 then some (all fun s i v => s.hcRd n i v)
  else if o = 0x340 then some (all fun s i v => s.hcRd n (8 + i) v)
  else if o = 0x400 then some (all fun s i v => s.hcEvdone n i v)
  else none

/-! ## Host writes (R397, R398, R401, R402) -/

/-- Where a stored line goes; the counter mirror is not written by the host (R550). In recovery bulk staging is stored, for the chunks of
R516 (log entry 62). -/
def State.apertureWrite (s : State) (n o : Nat) (bs : List Byte) : State :=
  if o < 0x10000 then (s.ctrlLine n o bs).getD (s.bump .GP_WDROP [n])
  else if o ≥ bulkEnd then s.bump .GP_OOR [n]
  else if s.bit .GP_PCFG [n] GP_PCFG_CMIR && decide (0xF00000 ≤ o) then s.bump .GP_WDROP [n]
  else if s.fld .BU_STATUS [] BU_STATUS_STATE == 3 && decide (bulkBase ≤ o) then s.stagPoke n o bs
  else if (s.partOfPort n).isNone || (decide (0x510000 ≤ o) && decide (o < bulkBase)) then s.bump .GP_WDROP [n]
  else s.stagPoke n o bs

/-- HOST_LINE_WRITE (R397, R398, R401): a line at an aperture offset. The burst's non-payload bits show no error (0), a single-bit error
in a word (1), an uncorrectable one (2), or the 16th uncorrectable burst within one second (3). -/
def State.hostLine (s : State) (n o : Nat) (bs : List Byte) (err : Nat) : State :=
  if !s.portOn n || s.link n != lnkService then s
  else
    let s := s.bump .GP_HWR [n]
    let chk := s.bit .GP_PCFG [n] GP_PCFG_WCHK
    if chk && err == 3 then (s.bump .GP_WUNCORR [n]).linkDisable n 0x0C24
    else if chk && err == 2 then s.bump .GP_WUNCORR [n]
    else
      let s := if chk && err == 1 then s.bump .GP_WCORR [n] else s
      s.apertureWrite n (o / 64 * 64) bs

/-! ## Host reads (R396, R397, R401, R402) -/

/-- Where the status mirror of an unbound port is filled in: the device record, the port record and the admin completion. -/
def mirrorUnbound (o : Nat) : Bool := o == 0 || o == 0x40 || o == 0x80

/-- The line that a host read returns, in one read of the staging SRAM: zero outside the aperture, and of a port that no map binds all but
three records of the mirror. -/
def State.hostRead (s : State) (n o : Nat) : List Byte :=
  let o := o / 64 * 64
  if o ≥ bulkEnd || ((s.partOfPort n).isNone && !mirrorUnbound o && s.fld .BU_STATUS [] BU_STATUS_STATE != 3) then List.replicate 64 0
  else s.stagPeek n o 64

/-- The non-payload bits of a line read: the code of R373 over each of its 64-bit words. -/
def lineCheck (bs : List Byte) : List Byte := (List.range 8).map fun i => Config.secded (BitVec.ofNat 64 (leNat ((bs.drop (8 * i)).take 8)))

/-- What a mode register read returns (R396): 16 GiB, x24, no data masks, link protection, no on-die ECC, the nominal refresh rate, the
hottest junction in whole °C, and the values of the boot bundle (log entry 155). -/
def State.modeRead (s : State) : ModeReg → Nat
  | .density => 16
  | .width => 24
  | .masks => 0
  | .linkProtection => 1
  | .onDieEcc => 0
  | .refreshRate => 1
  | .temperature => s.fld .PW_STATUS [] PW_STATUS_TJMAX
  | .manufacturer => s.boot.gpmfr
  | .revision => s.boot.gprev

/-! ## Event-in (R417 to R419) -/

/-- The record at the head of the event-in ring. -/
def State.evHead (s : State) (n : Nat) : Nat := leNat (s.stagPeek n (evinBase + (s.getGp n).evRd % 2 ^ 22) 16)

/-- Has the port reported emit-done for the open step of a group? -/
def State.portDone (s : State) (n g : Nat) : Bool := (s.getWg g).done.contains (eidPort n)

/-- EVENT_IN_INJECT (R417, R419): the head record is injected as a flit, dropped, or waits. -/
def State.eventIn (s : State) (n : Nat) : State :=
  let p := s.getGp n
  if !s.portOn n || !s.bit .GP_EVSRC [n] GP_EVSRC_EN || p.evRd == p.evWr || p.outq != [] then s
  else
    let r := s.evHead n
    let w := bitsOf r 70 14
    let take (s : State) : State := s.modGp n fun g => { g with evRd := (g.evRd + 16) % 2 ^ 32 }
    match s.groupOf w with
    | none => (take s).bump .GP_EVDROP [n]
    | some g =>
      if !(s.evBinds n).any (fun e => e.2 == g) then (take s).bump .GP_EVDROP [n]
      else if !s.wgOpen g || !(s.getWg g).opened.contains (eidPort n) || s.portDone n g then s
      else
        let f := mkFlit (bitsOf r 118 2) (bitsOf r 100 12) (bitsOf r 84 16) w (bitsOf r 64 6) (s.wgWStep g % 2 ^ 16) (bitsOf r 40 8)
          (s.wgTb g) (r.testBit 33) (s.fld .GP_EVSRC [n] GP_EVSRC_SRC)
        ((take s).modGp n fun g => { g with outq := g.outq ++ [f] }).bump .GP_EVINJ [n]

/-- Has a port finished a group's open step (R419): for each of its entries HC_EVDONE has come up to the step, and every record published
before that write has been injected and has left for the mesh? -/
def State.portEmitDone (s : State) (n g : Nat) : Bool :=
  let p := s.getGp n
  let t := s.val .WG_STEP [g] % 2 ^ 32
  p.outq == [] &&
  ((s.getRt (attachOf n)).injq.all fun m => fSrc m.f != s.fld .GP_EVSRC [n] GP_EVSRC_SRC || s.groupOf (fWorld m.f) != some g) &&
  ((s.evBinds n).filter fun e => e.2 == g).all fun e =>
    decide ((mget p.evDone e.1 + 2 ^ 32 - t) % 2 ^ 32 < 2 ^ 31) && decide ((p.evRd + 2 ^ 32 - mget p.evSnap e.1) % 2 ^ 32 < 2 ^ 31)

/-! ## Binding (R423, R424) -/

/-- A port is bound (R402, R424); the steward powers it on (R400). -/
def State.bindPort (s : State) (n p : Nat) : State :=
  ((s.setFld .GP_MAP [n] GP_MAP_PART p).setFld .GP_MAP [n] GP_MAP_EN 1).wakeDomain (220 + n) 1

/-- A port is unbound (R424, R431). -/
def State.unbindPort (s : State) (n : Nat) : State :=
  if !s.bit .GP_MAP [n] GP_MAP_EN then s else (s.portLeaves n).setFld .GP_MAP [n] GP_MAP_EN 0

/-- Is a port the last one bound to its partition (R424, R467)? -/
def State.lastPort (s : State) (n : Nat) : Bool :=
  match s.partOfPort n with
  | some p => s.bit .GP_PART_CFG [p] GP_PART_CFG_EN && (List.range 8).all fun k => k == n || s.partOfPort k != some p
  | none => false

/-- The clusters a partition's registers name. -/
def State.partClusters (s : State) (p : Nat) : List Nat :=
  (List.range 96).filter fun c =>
    (if c < 32 then s.val .GP_PART_CL0 [p] >>> c
     else if c < 64 then s.val .GP_PART_CL1 [p] >>> (c - 32)
     else s.val .GP_PART_CL2 [p] >>> (c - 64)) % 2 == 1

/-- The check of a partition (R382, R423, R435), for the ports named in the written value; 0: accepted. -/
def State.partCheck (s : State) (p ports : Nat) : Nat :=
  let cs := s.partClusters p
  let others := (List.range 8).filter fun q => q != p && (s.bit .GP_PART_CFG [q] GP_PART_CFG_EN || s.fld .GP_PART_STATUS [q] GP_PART_STATUS_STATE == 2)
  let base := s.val .GP_PART_BASE [p]
  let size := s.val .GP_PART_SIZE [p] * 2 ^ 30
  let eb := s.val .DM_EBASE []
  if cs = [] ∨ others.any (fun q => (s.partClusters q).any cs.contains) then 0x0C01
  else if base % 2 ^ 30 ≠ 0 ∨ size = 0 ∨ s.val .GP_PART_SIZE [p] > 384 ∨
      others.any (fun q => rangesMeet (base, size) (s.val .GP_PART_BASE [q], s.val .GP_PART_SIZE [q] * 2 ^ 30)) then 0x0C02
  else if base + size > s.val .DM_CAPACITY [] || (!s.bit .DM_CFG [] DM_CFG_XHALF && decide (base < eb) && decide (eb < base + size)) then 0x0B01
  else if s.val .GP_PART_KSHARE [p] + (others.map fun q => s.val .GP_PART_KSHARE [q]).sum > 128 then 0x0C03
  else if ports = 0 ∨ (List.range 8).any (fun n => ports.testBit n && s.bit .GP_MAP [n] GP_MAP_EN && s.partOfPort n != some p) then 0x0C04
  else 0

/-- An accepted partition (R36, R423): its ports are bound and its clusters leave cluster reset. -/
def State.partStart (s : State) (p : Nat) : State :=
  let ports := s.fld .GP_PART_CFG [p] GP_PART_CFG_PORTS
  let s := ((s.setFld .GP_PART_CFG [p] GP_PART_CFG_EN 1).setFld .GP_PART_STATUS [p] GP_PART_STATUS_STATE 1).setFld
    .GP_PART_STATUS [p] GP_PART_STATUS_REASON 0
  s.each ((List.range 8).filter ports.testBit) fun s n => s.bindPort n p

/-- The check of a port's map (R424). -/
def State.mapCheck (s : State) (n p : Nat) : Nat :=
  if !s.bit .GP_PART_CFG [p] GP_PART_CFG_EN || (match s.partOfPort n with | some q => q != p | none => false) then 0x0C05 else 0

/-- The partition whose clusters a port's event source may name (R418): the one it is bound to, or the one its map names (log entry 39). -/
def State.evPart (s : State) (n : Nat) : Option Nat :=
  match s.partOfPort n with
  | some p => some p
  | none => let p := s.fld .GP_MAP [n] GP_MAP_PART; if s.bit .GP_PART_CFG [p] GP_PART_CFG_EN then some p else none

/-- The check of a port's event-in source (R418, R435). -/
def State.evsrcCheck (s : State) (n : Nat) : Nat :=
  let d := s.fld .GP_EVSRC [n] GP_EVSRC_SRC
  match coordCluster d, s.evPart n with
  | some c, some p => if coordSlot d < 19 && s.partOfCluster c == some p then 0 else 0x0C07
  | _, _ => 0x0C07

end Sys2Proof.Machine
end

