-- ==== Sys2Proof/Machine/Harvest.lean ====
section
/-! DEFINITION. OPEN, emit-done and harvest rounds (R64 to R69, R102, R112, R220, R234, R456). -/

namespace Sys2Proof.Machine

/-- The cluster and core slot of an engine's number (R19). -/
def eidCluster (k : Nat) : Nat := k / 32
def eidSlot (k : Nat) : Nat := k % 32

/-- The half an engine or gate port of a group lies in (R297, R456). -/
def eidHalf (k : Nat) : Nat := if k < 0x1000 then halfOf (eidCluster k) else gpHalf (k - 0x1000)

/-- Does an engine's control-network node report in its place: it is fenced or in reset (R69, R237, R511)? -/
def State.engSilent (s : State) (k : Nat) : Bool :=
  decide (k < 0x1000) && (s.fencedEng (eidCluster k) (eidSlot k) || s.engReset (eidCluster k) (eidSlot k) || s.inReset (eidCluster k))

/-- CN_OPEN (R61, R102): the OPEN of a group's step reaches one of its engines, once. A neuron core scans, which a sleeping core does
after it has woken (R114). -/
def State.cnOpen (s : State) (bad : List Nat) (g k : Nat) : State :=
  if s.wgState g ≠ wsStepping ∨ (s.getWg g).opened.contains k ∨ !(s.enginesOf g).contains k ∨ s.engSilent k then s
  else
    let got (s : State) : State := s.modWg g fun w => { w with opened := w.opened ++ [k] }
    if k ≥ 0x1000 then got s
    else
      let c := eidCluster k
      let n := eidSlot k
      if n < 16 then
        match s.gmapOf c n g with
        | some e =>
          if s.ncState c n = ncIdle then got ((s.openCore bad c n e g).integTraces c n g (s.wgWStep g)) else s
        | none => s
      else if n = 18 then got ((s.openEngine c 2 g).mxOpen c g)
      else got (s.openEngine c (n - 16) g)

/-- Has every flit of a group that an engine handed to its cluster's injection queue left it (R65, R274)? -/
def State.injClear (s : State) (c src g : Nat) : Bool :=
  (s.getRt c).injq.all fun m => fSrc m.f != src || s.groupOf (fWorld m.f) != some g

/-- The event units hold nothing of a group (R220, R234): no emit record, no flit formed and not yet injected. -/
def State.emitClear (s : State) (c e g : Nat) : Bool :=
  ((s.getEng c e).emitq.all fun r => s.groupOf (bitsOf r.toNat 41 14) != some g) &&
  ((s.getEng c e).outq.all fun f => s.groupOf (fWorld f) != some g) &&
  s.injClear c (coordOf c (engSlot e)) g

/-- A neuron core has scanned, and its fan-out unit and flits of the step are gone (R65, R112). -/
def State.coreDone (s : State) (c n g : Nat) : Bool :=
  ((s.getNc c n).fan.all fun e => e.wg != g) && ((s.getNc c n).outq.all fun f => s.groupOf (fWorld f) != some g) &&
  s.injClear c (coordOf c n) g

/-- A vector core has completed its work for the open step (R234), or its context 0 has stopped (R235). -/
def State.vxDone (s : State) (c v g : Nat) : Bool :=
  (s.vxState c v == vxHalted || s.vxState c v == vxFaulted ||
    ((s.getEng c v).sdone.contains g && (s.getVx c v).before.all fun x => x.1 != g)) && s.emitClear c v g

/-- A matrix core has completed its work for the open step (R220). -/
def State.mxDone (s : State) (c g : Nat) : Bool :=
  let t := s.val .WG_STEP [g]
  let x := s.getMx c
  (x.binds.all fun b => b.wg != g || b.step != some t || b.cancelled) &&
  (match x.run with | some r => r.wg != g + 1 | none => true) &&
  (x.recs.all fun r => s.groupOf (bitsOf r.toNat 41 14) != some g) && s.emitClear c 2 g &&
  ([0, 1].all fun v => !(s.boundOf g).contains (eidOf c (16 + v)) || (s.getWg g).done.contains (eidOf c (16 + v)))

/-- Is an engine finished with the step a group has open (R65, R69)? -/
def State.engDone (s : State) (g k : Nat) : Bool :=
  s.engSilent k ||
  ((s.getWg g).opened.contains k &&
   (if k ≥ 0x1000 then s.portEmitDone (k - 0x1000) g
    else if eidSlot k < 16 then s.coreDone (eidCluster k) (eidSlot k) g
    else if eidSlot k = 18 then s.mxDone (eidCluster k) g
    else s.vxDone (eidCluster k) (eidSlot k - 16) g))

/-- Have all of a list of a group's engines reported? -/
def State.allDone (s : State) (g : Nat) (l : List Nat) : Bool := l.all (s.getWg g).done.contains

/-- ENGINE_EMIT_DONE, CN_DONE (R65, R321): an engine of the group reports, once it is finished. -/
def State.emitDone (s : State) (g k : Nat) : State :=
  if s.wgState g ≠ wsStepping ∨ (s.getWg g).done.contains k ∨ !(s.enginesOf g).contains k ∨ !s.engDone g k then s
  else
    let s := s.modWg g fun w => { w with done := w.done ++ [k] }
    if s.allDone g (s.enginesOf g) then s.setWgState g wsHarvesting else s

/-- A round (R66, R68): counted, its sum in WG_TALLY. -/
def State.roundSum (s : State) (g : Nat) (sum : Word) : State :=
  (s.modWg g fun w => { w with rounds := w.rounds + 1 }).setVal .WG_TALLY [g] sum.toNat

/-- HARVEST_ROUND (R66, R456): over both halves, or, for a spanning group in the split state, over one half; the step closes on a sum of
zero, and a spanning group halts with 0x0D80 once both halves have closed. -/
def State.harvestRound (s : State) (g h : Nat) : State :=
  if !s.wgOpen g then s
  else
    let w := s.getWg g
    if s.isSplit && s.spansHalves g then
      if !s.allDone g ((s.enginesOf g).filter fun k => eidHalf k == h) then s
      else
        let sum := (w.tally h).halfSum
        let s := s.roundSum g sum
        if sum ≠ 0 then s
        else
          let s := s.modWg g fun w => if h = 0 then { w with closedW := true } else { w with closedE := true }
          let w := s.getWg g
          if w.closedW && w.closedE then (s.modWg g fun w => { w with haltCode := 0x0D80 }).closeStep g else s
    else if !s.allDone g (s.enginesOf g) then s
    else
      let sum := w.tallyW.sum + w.tallyE.sum
      let s := (s.setWgState g wsHarvesting).roundSum g sum
      if sum = 0 then s.closeStep g else s

end Sys2Proof.Machine
end

