-- ==== Sys2Proof/Machine/Checks.lean ====
section
/-! DEFINITION. The configuration-consistency check (R427, R428): what it examines for each unit, with the refusal codes of R89, R122,
R157, R200, R241, R267, R294, R327, R435, R464 and R563, and what its end does. Where several codes apply, the lowest is given (log
entry 27). -/

namespace Sys2Proof.Machine

/-- The first code of a list of conditions that holds; 0: none. -/
def firstCode : List (Bool × Nat) → Nat
  | [] => 0
  | (b, k) :: t => if b then k else firstCode t

/-! ## Regions of a core store (R90, R157, R200) -/

def coreEnd : Nat := 0xC0000

/-- Regions that overlap or leave the core store; an empty region does neither. -/
def regionsBad (rs : List (Nat × Nat)) : Bool :=
  let rs := rs.filter fun r => r.2 != 0
  (rs.any fun r => decide (r.1 + r.2 > coreEnd)) || selfMeets rs

/-- The regions of R90 on a core: fixed, records, slots and touched bitmaps. -/
def State.coreRegions (s : State) (c n : Nat) : List (Nat × Nat) :=
  let ni := s.ncNinst c n
  let d := s.ncDepth c n
  [(0, 0x5000), (s.val .NC_REC_BASE [c, n], 12 * ni), (s.val .NC_SLOT_BASE [c, n], 4 * d * ni),
   (s.val .NC_TOUCH_BASE [c, n], d * ((ni + 255) / 256) * 32)]

/-- Do two lists of ranges meet anywhere? An empty range meets nothing. -/
def rangesHit (a b : List (Nat × Nat)) : Bool := a.any fun x => x.2 != 0 && b.any fun y => y.2 != 0 && rangesMeet x y

/-- Do the ranges of a class meet those of another? -/
def classesMeet : List (List (Nat × Nat)) → Bool
  | [] => false
  | a :: t => t.any (rangesHit a) || classesMeet t

/-- The bytes of the entries of a fan-out chain, as far as the table space reaches (R132, R133, R152). -/
def chainRanges (rd : Nat → Nat) : Nat → Nat → List (Nat × Nat)
  | 0, _ => []
  | fuel + 1, a =>
    if a ≥ coreWords then [(4 * a, 4)]
    else
      let h := rd a
      let cnt := bitsOf h 4 4 + 1
      (4 * a, 4 * (cnt + 1)) :: (if a + cnt ≥ coreWords ∨ bitsOf h 14 18 = 0x3FFFF then [] else chainRanges rd fuel (bitsOf h 14 18))

/-- The fan-out entries of a slot, and its fan-in lists (R131, R135). -/
def State.foRanges (s : State) (c n k : Nat) : List (Nat × Nat) :=
  (List.range (s.foCount c n k)).flatMap fun i =>
    let w := s.cword c n (s.val .SY_FO_BASE [c, n, k] / 4 + i)
    if w.testBit 31 then chainRanges (s.cword c n) 64 (bitsOf w 0 18) else []
def State.fiRanges (s : State) (c n k : Nat) : List (Nat × Nat) :=
  (List.range (s.fiCount c n k)).map fun a => let h := s.axHdr c n k a; (4 * h.start, 4 * h.len)

/-- The kernels of a slot, the bytes of a kernel's weights (R139, R141: half a byte each for the 4-bit formats and QL3), and where they
lie. -/
def State.kerns (s : State) (c n k : Nat) : List Kern := (List.range (s.kernCount c n k)).map (s.kern c n k)
def State.kernBytes (s : State) (c n k : Nat) (d : Kern) : Nat :=
  let w := d.cout * d.cin * d.kh * d.kw
  match wfmtOf (wpsOf (s.cpeek c n (s.val .SY_WPS_BASE [c, n, k] + 8 * d.wps) 8)).fmt with
  | .int8 => w
  | .e4m3 => w
  | _ => (w + 1) / 2
def State.kernRanges (s : State) (c n k : Nat) : List (Nat × Nat) := (s.kerns c n k).map fun d => (4 * d.wbase, s.kernBytes c n k d)

/-- The regions of a network slot (R128, R152): directories, weight parameter sets and kernel descriptors, each a class of its own, and then
the fan-out entries, the fan-in lists and the kernel weights. -/
def State.slotRegions (s : State) (c n k : Nat) : List (List (Nat × Nat)) :=
  [[(s.val .SY_FO_BASE [c, n, k], 4 * s.foCount c n k)], [(s.val .SY_FI_BASE [c, n, k], 8 * s.fiCount c n k)],
   [(s.val .SY_WPS_BASE [c, n, k], 512)], [(s.kernAddr c n k 0, 32 * s.kernCount c n k)],
   s.foRanges c n k, s.fiRanges c n k, s.kernRanges c n k]

/-- The learning regions of a core (R165 to R174). -/
def State.learnRegions (s : State) (c n : Nat) : List (Nat × Nat) :=
  let ne := s.val .LR_NENT [c, n]
  [(s.val .LR_ACC_BASE [c, n], 4 * ne), (s.val .LR_SHD_BASE [c, n], ne), (s.val .LR_SEL_BASE [c, n], 4 * ((ne + 2047) / 2048)),
   (s.val .LR_PCNT_BASE [c, n], (ne + 1) / 2), (s.val .LR_CAND_BASE [c, n], 8 * s.val .LR_CAND_CFG [c, n]),
   (s.val .LR_MOD_BASE [c, n],
    8 * (s.fld .LR_MOD_CFG [c, n] LR_MOD_CFG_NMOD_M1 + 1) * 2 ^ s.fld .LR_MOD_CFG [c, n] LR_MOD_CFG_NWLOG)]

/-- The SY_ and LR_ regions of R90's last row that a slot shares its core with: the tables of the other enabled slots, and the learning
regions of a core that holds a set. -/
def State.otherTables (s : State) (c n k : Nat) : List (Nat × Nat) :=
  (((List.range 8).filter fun j => j != k && s.bit .SY_NET [c, n, j] SY_NET_EN).flatMap fun j => (s.slotRegions c n j).flatMap id) ++
  (if s.bit .LR_CORE_CFG [c, n] LR_CORE_CFG_EN then s.learnRegions c n else [])

/-- 0x0303 on a slot: its regions meet each other or those of R90, or leave the store (kernel weights that do are 0x0305's). -/
def State.slotBad (s : State) (c n k : Nat) : Bool :=
  let rs := s.slotRegions c n k
  classesMeet (s.coreRegions c n :: rs) || rangesHit (rs.flatMap id) (s.otherTables c n k) ||
  ((rs.dropLast.flatMap id).any fun r => r.2 != 0 && decide (r.1 + r.2 > coreEnd))

/-! ## World groups -/

/-- The cores of a partition that hold a network in an enabled slot (R128, R129). -/
def State.netCores (s : State) (p net : Nat) : List (Nat × Nat) :=
  ((s.listed .SY_NET).filterMap fun i =>
    match i with
    | [c, n, k] =>
      if s.bit .SY_NET [c, n, k] SY_NET_EN && s.fld .SY_NET [c, n, k] SY_NET_NET == net && s.partOfCluster c == some p
      then some (c, n) else none
    | _ => none).foldl (fun l x => if l.contains x then l else l ++ [x]) []

/-- Enabled slots of a core that name a network. -/
def State.slotsFor (s : State) (c n net : Nat) : List Nat :=
  (List.range 8).filter fun k => s.bit .SY_NET [c, n, k] SY_NET_EN && s.fld .SY_NET [c, n, k] SY_NET_NET == net

/-- Do two enabled slots of a core name the same network (R128, 0x0302)? -/
def State.slotsTwin (s : State) (c n : Nat) : Bool := (List.range 64).any fun net => decide ((s.slotsFor c n net).length > 1)

/-- The instance range of a group-map entry (R121). -/
def State.entryRange (s : State) (c n e : Nat) : Nat × Nat :=
  (s.gmBase c n e, s.gmCount c n e (s.fld .NC_GMAP_A [c, n, e] NC_GMAP_A_WG))

/-- 0x0203 on a core: no enabled entry for the group, or its range overlaps another enabled entry's or exceeds NINST. -/
def State.entryBad (s : State) (c n g : Nat) : Bool :=
  match s.gmapOf c n g with
  | none => true
  | some e =>
    let r := s.entryRange c n e
    decide (r.1 + r.2 > s.ncNinst c n) ||
    (List.range 16).any fun f => f != e && s.bit .NC_GMAP_A [c, n, f] NC_GMAP_A_EN && rangesMeet r (s.entryRange c n f)

/-- 0x0202 on a core: a parameter set named by an allocated record of the group's range fails, for a group without rotation. -/
def State.psetsBad (s : State) (c n g : Nat) : Bool :=
  match s.gmapOf c n g with
  | none => false
  | some e =>
    !s.bit .WG_CFG [g] WG_CFG_ROT && (s.gmInsts c n e g).any fun i => decide (i < s.ncNinst c n) && !psetGood (s.psetBits c n (s.getRec c n i).pset)

/-- 0x0108 on a core: the resident instances of its enabled entries whose group is enabled or is this one, each of a record and D slots,
exceed the variable part of the store (R90), or 32,768. -/
def State.residentBad (s : State) (c n g : Nat) : Bool :=
  let n' := (((List.range 16).filter fun e => s.bit .NC_GMAP_A [c, n, e] NC_GMAP_A_EN &&
    (let h := s.fld .NC_GMAP_A [c, n, e] NC_GMAP_A_WG; h == g || s.wgOn h)).map fun e => (s.entryRange c n e).2).sum
  decide (n' > 32768) || decide (n' * s.homeStride c n > coreEnd - 0x5000)

/-- The word addresses of a slot's fan-in lists. -/
def State.fanWords (s : State) (c n k : Nat) : List Nat :=
  (List.range (s.fiCount c n k)).flatMap fun a =>
    let h := s.axHdr c n k a
    (List.range h.len).map fun i => h.start + i

/-- 0x0205 on a core's slot: a DELAY above the ring depth. -/
def State.delaysBad (s : State) (c n k : Nat) : Bool :=
  let d := s.ncDepth c n
  ((s.fanWords c n k).any fun w => let x := s.cword c n w; x.testBit 10 && decide (bitsOf x 11 6 > d)) ||
  (s.kerns c n k).any fun x => decide (x.delay > d)

/-- Neurons per world of the group on a core. -/
def State.npwOf (s : State) (c n g : Nat) : Nat := match s.gmapOf c n g with | some e => s.gmNpw c n e | none => 0

/-- 0x0304 on a slot: a weight parameter set named by a header or a kernel fails. -/
def State.wpsBad (s : State) (c n k : Nat) : Bool :=
  (((List.range (s.fiCount c n k)).map fun a => (s.axHdr c n k a).wps) ++ (s.kerns c n k).map (·.wps)).any fun w =>
    !wpsGood (s.cpeek c n (s.val .SY_WPS_BASE [c, n, k] + 8 * w) 8)

/-- 0x0305 on a slot. -/
def State.kernsBad (s : State) (c n k g : Nat) : Bool :=
  let ks := s.kerns c n k
  selfMeets (ks.map fun d => (d.axbase, d.axons)) ||
  (List.range ks.length).any fun j =>
    let d := s.kern c n k j
    bitsOf (s.cpeek c n (s.kernAddr c n k j) 32) 94 2 == 3 || decide (d.axbase + d.axons > 65536) ||
    decide (d.axbase < s.fiCount c n k) || decide (d.obase + d.cout * d.oh * d.ow > s.npwOf c n g) ||
    decide (4 * d.wbase + s.kernBytes c n k d > coreEnd)

/-- The world range of a group, as its registers stand. -/
def State.worldRange (s : State) (g : Nat) : Nat × Nat := (s.wgBase g, s.wgCount g)

/-- W × EPLEN × (MAXD_M1 + 1) × (2^CLIP − 1) of a set, read in a cluster's block, with some writer groups (R171). -/
def State.accBound (s : State) (c k : Nat) (ws : List Nat) : Nat :=
  (ws.map s.wgResident).sum * s.val .LR_SET_EPLEN [c, k] * (s.fld .LR_SET_CFG [c, k] LR_SET_CFG_MAXD_M1 + 1) *
    (2 ^ s.fld .LR_SET_CFG [c, k] LR_SET_CFG_CLIP - 1)

/-- Do the world ranges of two groups share a residue modulo m (R166)? -/
def shareResidue (m : Nat) (a b : Nat × Nat) : Bool :=
  (List.range m).any fun r => decide ((r + m - a.1 % m) % m < a.2) && decide ((r + m - b.1 % m) % m < b.2)

/-- 0x0409: two worlds, of writers or readers, that can be resident at one time on a core of the set share a modulator entry (R166). -/
def State.modsShare (s : State) (k : Nat) (ws : List Nat) : Bool :=
  (s.setCores k).any fun x =>
    let m := 2 ^ s.fld .LR_MOD_CFG [x.1, x.2] LR_MOD_CFG_NWLOG
    let here := ws.filter fun g => (s.gmapOf x.1 x.2 g).isSome
    (here.any fun g => decide (s.wgResident g > m)) ||
    here.any fun a => here.any fun b => decide (a < b) && shareResidue m (s.worldRange a) (s.worldRange b)

/-- The enabled groups, of any network, with some more: those whose worlds can lie on a core of a set (R166). -/
def State.netGroups (s : State) (more : List Nat) : List Nat := nodups (more ++ (List.range 256).filter s.wgOn)

/-- The codes of a set's writer groups, read in a cluster's block (R200: 0x0406 to 0x0409). -/
def State.writersCode (s : State) (c k : Nat) (ws : List Nat) : Nat :=
  firstCode [
    (ws.any fun g => s.wgNet g != s.fld .LR_SET_CFG [c, k] LR_SET_CFG_NET || s.wgPart g != s.fld .LR_SET_CFG [c, k] LR_SET_CFG_PART, 0x0406),
    (!s.bit .LR_SET_CFG [c, k] LR_SET_CFG_LOCK && (ws.any fun a => ws.any fun b => s.wgTb a != s.wgTb b), 0x0407),
    (decide (s.accBound c k ws ≥ 2 ^ 31), 0x0408),
    (s.modsShare k (s.netGroups ws), 0x0409)]

/-- A group that becomes a writer of an enabled set (R171, R197). -/
def State.newWriterCode (s : State) (k g : Nat) : Nat := s.writersCode (s.getLs k).home k (nodups (s.writers k ++ [g]))

/-- The bound engines outside a group's partition (0x0502). -/
def State.engPart (s : State) (k : Nat) : Option Nat :=
  if k ≥ 0x1000 then s.partOfPort (k - 0x1000) else s.partOfCluster (eidCluster k)

/-- An enabled profile of a matrix core whose static table lies outside the partition (0x0601); one entry is examined, because the
number of K-groups is a descriptor's (log entry 28). -/
def State.profBad (s : State) (c p : Nat) : Bool :=
  (List.range 16).any fun i =>
    s.bit .QF_PCFG [c, i] QF_PCFG_EN && s.fld .QF_PCFG [c, i] QF_PCFG_AMODE == 2 && !s.inPart p (s.val .QF_PTBL [c, i]) 4

/-- The check of a world group; 0: accepted. -/
def State.wgCheck (s : State) (g : Nat) : Nat :=
  let cfg (f : Fld) : Nat := s.fld .WG_CFG [g] f
  let p := s.wgPart g
  let net := s.wgNet g
  let tb := s.wgTb g
  let rot := s.bit .WG_CFG [g] WG_CFG_ROT
  let r := s.worldRange g
  let res := s.wgResident g
  let held := s.netCores p net
  let cores := held ++ ((s.coresOf g).map fun x => (x.1, x.2.1)).filter fun x => !held.contains x
  let slots := cores.flatMap fun x => (s.slotsFor x.1 x.2 net).map fun k => (x.1, x.2, k)
  let bound := s.boundOf g
  let mxs := (bound.filter fun k => decide (k < 0x1000) && eidSlot k == 18).map eidCluster
  let split := if s.isSplit && s.spansHalves g then 0x0D05 else 0
  let code := firstCode [
    (decide (r.1 + r.2 > 16384) || (List.range 256).any (fun k => k != g && s.wgOn k && rangesMeet r (s.worldRange k)), 0x0101),
    (!s.bit .TB_CFG [tb] TB_CFG_EN || s.fld .TB_CFG [tb] TB_CFG_PART != p, 0x0102),
    (held == [], 0x0103),
    (s.fld .WG_LAGMAX [g] ⟨15, 0⟩ == 0 || (rot && s.fld .WG_ROT [g] WG_ROT_RUN == 0) || cfg WG_CFG_OVR == 3, 0x0104),
    (rot && s.fld .TB_CFG [tb] TB_CFG_SRC == 0, 0x0105),
    (rot && s.wgCount g % res != 0, 0x0106),
    (rot && !s.inRegion p (s.val .WG_ROTBASE [g]) (s.wgCount g / res * s.homeBytes g), 0x0107),
    (cores.any fun x => s.residentBad x.1 x.2 g, 0x0108),
    (cores.any fun x => !s.bit .NC_CFG [x.1, x.2] NC_CFG_EN, 0x0201),
    (cores.any fun x => s.psetsBad x.1 x.2 g, 0x0202),
    (cores.any fun x => s.entryBad x.1 x.2 g, 0x0203),
    (cores.any fun x => decide (s.ncNinst x.1 x.2 > 32768) || regionsBad (s.coreRegions x.1 x.2), 0x0204),
    (slots.any fun x => s.delaysBad x.1 x.2.1 x.2.2, 0x0205),
    (cores.any fun x => s.slotsFor x.1 x.2 (match s.gmapOf x.1 x.2 g with | some e => s.fld .NC_GMAP_A [x.1, x.2, e] NC_GMAP_A_NET | none => net) == [], 0x0301),
    (cores.any fun x => s.slotsTwin x.1 x.2, 0x0302),
    (slots.any fun x => s.slotBad x.1 x.2.1 x.2.2 ||
      decide (s.foCount x.1 x.2.1 x.2.2 < s.npwOf x.1 x.2.1 g), 0x0303),
    (slots.any fun x => s.wpsBad x.1 x.2.1 x.2.2, 0x0304),
    (slots.any fun x => s.kernsBad x.1 x.2.1 x.2.2 g, 0x0305)]
  let writes := (List.range 16).filter fun k => (s.getLs k).on && s.lsMarks k g
  let reads := (List.range 16).filter fun k => (s.getLs k).on && !s.lsMarks k g && (s.setCores k).any fun x => (s.gmapOf x.1 x.2 g).isSome
  let learn := ((writes.map (fun k => s.newWriterCode k g) ++
    reads.map fun k => if s.modsShare k (s.netGroups [g]) then 0x0409 else 0).find? (· != 0)).getD 0
  let rest := firstCode [
    (bound.any fun k => decide (k < 0x1000) &&
      (if eidSlot k = 18 then !s.bit .MX_CFG [eidCluster k] MX_CFG_EN else !s.bit .VX_CFG [eidCluster k, eidSlot k - 16] VX_CFG_EN), 0x0501),
    (bound.any fun k => s.engPart k != some p, 0x0502),
    (mxs.any fun c => !bound.contains (eidOf c 16) && !bound.contains (eidOf c 17), 0x0504),
    (mxs.any fun c => s.profBad c p, 0x0601),
    ((cores.map (·.1) ++ (bound.filter fun k => decide (k < 0x1000)).map eidCluster).any fun c => (s.getRt c).hole, 0x0703),
    (rot && !s.hasService p, 0x0806)]
  (([split, code, learn, rest]).find? (· != 0)).getD 0

/-! ## Learning sets -/

/-- Is GW0 a code of a slot's weight format (0x0404)? -/
def gw0Good (f : Fmt) (c : Nat) : Bool :=
  match f with
  | .int8 => true
  | .e4m3 => c % 128 != 127
  | .ql3 => decide (c < 8)
  | _ => decide (c < 16)

/-- The registers of a set that every block must agree in (R159). -/
def setRegs : List Reg :=
  [.LR_SET_CFG, .LR_SET_EPLEN, .LR_SET_COEF_A, .LR_SET_COEF_B, .LR_SET_RATE, .LR_SET_BOUND, .LR_SET_STRUCT, .LR_SET_GRAFT,
   .LR_SET_SEED, .LR_SET_COMMIT]

/-- Do a set's registers in two clusters' blocks agree? -/
def State.setSame (s : State) (k a b : Nat) : Bool :=
  (setRegs.all fun r => s.val r [a, k] == s.val r [b, k]) &&
  (List.range 8).all fun i => s.val .LR_SET_WG [a, k, i] == s.val .LR_SET_WG [b, k, i]

/-- The check of a learning set enabled in a cluster's block; 0: accepted. -/
def State.setCheck (s : State) (k c : Nat) : Nat :=
  let net := s.fld .LR_SET_CFG [c, k] LR_SET_CFG_NET
  let p := s.fld .LR_SET_CFG [c, k] LR_SET_CFG_PART
  let held := s.netCores p net
  let cores := s.setCores k
  let slot (x : Nat × Nat) : Nat := s.fld .LR_CORE_CFG [x.1, x.2] LR_CORE_CFG_SLOT
  let marked := (List.range 256).filter fun g => s.wgOn g && (s.val .LR_SET_WG [c, k, g / 32]).testBit (g % 32)
  let halves := nodups (cores.map fun x => halfOf x.1)
  let b := s.val .LR_SET_BOUND [c, k]
  let gw0 := s.fld .LR_SET_GRAFT [c, k] LR_SET_GRAFT_GW0
  let code := firstCode [
    (s.isSplit && decide (halves.length > 1), 0x0D05),
    (held == [] || held.any (fun x => !cores.contains x || !(s.slotsFor x.1 x.2 net).contains (slot x)), 0x0401),
    ((nodups (cores.map (·.1))).any fun d => !s.setSame k c d, 0x0402),
    ((List.range 16).any fun j => j != k && (s.getLs j).on && s.lsFld j .LR_SET_CFG LR_SET_CFG_NET == net, 0x0403),
    (s.val .LR_SET_EPLEN [c, k] == 0 || decide (sext 16 (b % 2 ^ 16) > sext 16 (b / 2 ^ 16)) ||
      decide (s.fld .LR_SET_CFG [c, k] LR_SET_CFG_CLIP > 24) ||
      cores.any (fun x => s.fld .LR_MOD_CFG [x.1, x.2] LR_MOD_CFG_NWLOG == 15 || decide (s.val .LR_NENT [x.1, x.2] > 65536) ||
        (s.axonFmts x.1 x.2 (slot x)).any fun y => !gw0Good y.2.2 gw0), 0x0404),
    (cores.any fun x =>
      regionsBad (s.learnRegions x.1 x.2) || rangesHit (s.learnRegions x.1 x.2) (s.coreRegions x.1 x.2 ++
        ((List.range 8).filter fun k => s.bit .SY_NET [x.1, x.2, k] SY_NET_EN).flatMap fun k => (s.slotRegions x.1 x.2 k).flatMap id) ||
      (let ws := s.fanWords x.1 x.2 (slot x)
       (List.range (s.val .LR_NENT [x.1, x.2])).any fun j => !ws.contains (s.val .LR_ENT [x.1, x.2] + j)) ||
      s.val .LR_CAND_CFG [x.1, x.2] % 4 != 0 || decide (s.val .LR_CAND_CFG [x.1, x.2] > 1024), 0x0405)]
  let w := s.writersCode c k marked
  let svc := cores.any fun x => let v := if x.2 < 8 then 0 else 1
    !s.bit .VX_CFG [x.1, v] VX_CFG_STDSVC && s.val .VX_SVC [x.1, v] == 0
  (([code, w, if svc then 0x0503 else 0]).find? (· != 0)).getD 0

/-! ## Keep-store commands -/

/-- The check of a KS_CMD value written in a cluster (R186, R200). -/
def State.ksCheck (s : State) (c v : Nat) : Nat :=
  let op := v % 16
  let k := v / 16 % 16
  match s.partOfCluster c with
  | none => 0x0419
  | some p =>
    let base := s.val .KS_STAGE [p]
    let len := s.imageLen k
    let split := s.isSplit || s.bit .KS_STATUS [p] KS_STATUS_SPLIT
    if op > 2 ∨ v / 256 ≠ 0 then 0x0418
    else if s.fld .LR_SET_CFG [s.setHome k c, k] LR_SET_CFG_PART ≠ p then 0x0419
    else if op = 1 then firstCode [
      (base % 4096 != 0 || !s.inRegion p base len, 0x0411),
      (decide ((dataPages len + tablePages len + 1) * 4096 > s.val .GP_PART_KSHARE [p] * 2 ^ 20), 0x0412),
      (split, 0x0413),
      (s.commitWaits p, 0x0416),
      (!s.hasService p, 0x0806)]
    else firstCode [
      ((s.getLs k).on, 0x0414),
      ((s.genNow p).gen == 0 || !s.imageFits p k, 0x0415),
      (s.bit .KS_STATUS [p] KS_STATUS_UNREACH || (split && (s.genPages p).any fun q => halfOf (q / 512) != halfOf c), 0x0417),
      (!s.hasService p, 0x0806)]

/-- An accepted keep-store command (R186, R192). -/
def State.ksRun (s : State) (c v : Nat) : State :=
  match s.partOfCluster c with
  | none => s
  | some p =>
    let k := v / 16 % 16
    if v % 16 = 1 then s.queueCommit k p false
    else (s.modKs fun q => { q with restores := q.restores ++ [{ set := k, part := p, phase := 5 }] }).ksShow p

/-! ## All units -/

/-- The target key of a channel, queue or host channel. -/
def UnitRef.tk : UnitRef → Nat
  | .chan c n => c * 64 + n
  | .queue c n => c * 64 + 32 + n
  | .hchan n c => 0x10000 + n * 16 + c
  | _ => 0

/-- The partition a unit belongs to. -/
def State.unitPart (s : State) (u : UnitRef) : Option Nat :=
  match u with
  | .tb n => some (s.fld .TB_CFG [n] TB_CFG_PART)
  | .wg g => some (s.wgPart g)
  | .part _ => none
  | .map n => s.partOfPort n
  | .evsrc n => s.evPart n
  | .evbind n _ => s.partOfPort n
  | .hchan n _ => s.partOfPort n
  | .hsend n _ => s.partOfPort n
  | .sched n => some (s.fld .TL_SCFG [0, n] TL_SCFG_PART)
  | .chan c _ => s.partOfCluster c
  | .queue c _ => s.partOfCluster c
  | .send c _ => s.partOfCluster c
  | .set k c => some (s.fld .LR_SET_CFG [c, k] LR_SET_CFG_PART)
  | .mxbind c _ => s.partOfCluster c
  | .vxbind c _ _ => s.partOfCluster c
  | .remap n => some (s.fld .EF_REMAP [0, n] EF_REMAP_PART)
  | .kscmd c => s.partOfCluster c
  | .trcfg p => some p
  | .trring c => s.partOfCluster c
  | .setwg k _ _ => some (s.lsFld k .LR_SET_CFG LR_SET_CFG_PART)

/-- The halves whose resources a unit names (R459). -/
def State.unitHalves (s : State) (u : UnitRef) : List Nat :=
  let tgt (a : Nat) : List Nat := match s.tkAt a with | some t => [tkHalf t] | none => []
  let crd (d : Nat) : List Nat := match coordCluster d with | some c => [halfOf c] | none => []
  nodups <| match u with
  | .part p => ((s.partClusters p).map halfOf) ++
      ((List.range 8).filter fun n => (s.fld .GP_PART_CFG [p] GP_PART_CFG_PORTS).testBit n).map gpHalf
  | .map n => gpHalf n :: (s.partClusters (s.fld .GP_MAP [n] GP_MAP_PART)).map halfOf
  | .evsrc n => gpHalf n :: crd (s.fld .GP_EVSRC [n] GP_EVSRC_SRC)
  | .evbind n b => gpHalf n :: s.groupHalves (s.fld .GP_EVBIND [n, b] GP_EVBIND_WG)
  | .hchan n _ => [gpHalf n]
  | .hsend n h => gpHalf n :: tgt (s.val .GP_SH_ADDR [n, h] / 128 * 128)
  | .sched n => ((s.schedImage n).filterMap fun r => r.expand).flatMap fun e =>
      e.1.map fun f => match f with | .out c _ _ _ => halfOf c | .map e _ _ => epHalf e
  | .chan c _ => [halfOf c]
  | .queue c _ => [halfOf c]
  | .send c h => halfOf c :: tgt (s.val .MQ_SH_ADDR [c, h])
  | .mxbind c n => halfOf c :: s.groupHalves (s.fld .MX_BIND [c, n] MX_BIND_WG)
  | .vxbind c v n => halfOf c :: s.groupHalves (s.fld .VX_BIND [c, v, n] VX_BIND_WG)
  | .remap n => crd (s.fld .EF_REMAP [0, n] EF_REMAP_FROM) ++ crd (s.fld .EF_REMAP [0, n] EF_REMAP_TO)
  | .set k _ => (s.setCores k).map fun x => halfOf x.1
  | _ => []

/-- The units the east steward checks in the split state (R459). -/
def UnitRef.east : UnitRef → Bool
  | .chan _ _ | .queue _ _ | .send _ _ | .hchan _ _ | .hsend _ _ | .sched _ | .evbind _ _ | .mxbind _ _ | .vxbind _ _ _ | .remap _ => true
  | _ => false

/-- Refused in the split state (R459): a unit of both halves, or one that an east port enables and the east steward does not check. -/
def State.splitRefuses (s : State) (x : Check) : Bool :=
  s.isSplit &&
  (decide ((s.unitHalves x.unit).length > 1) ||
   (match x.cmd with | some (n, _) => decide (4 ≤ n) && (!x.unit.east || (s.unitHalves x.unit).contains 0) | none => false))

/-- A bind entry that names a group of another partition (0x0C07). -/
def State.bindCode (s : State) (p : Option Nat) (g : Nat) : Nat := if p == some (s.wgPart g) then 0 else 0x0C07

/-- The check of PC_TRCFGp and of PC_TRRING (R563). -/
def State.trcfgCheck (s : State) (p : Nat) : Nat :=
  let k := s.fld .PC_TRCFG [p] PC_TRCFG_K
  if k < 4 ∨ k > 24 ∨ (!s.bit .PC_TRCFG [p] PC_TRCFG_ALLWG ∧ s.wgPart (s.fld .PC_TRCFG [p] PC_TRCFG_WG) ≠ p) then 0x1103 else 0
def State.trringCheck (s : State) (c : Nat) : Nat :=
  let l := s.fld .PC_TRRING [c] PC_TRRING_LOG2
  if l < 8 ∨ s.fld .PC_TRRING [c] PC_TRRING_BASE * 4096 + 16 * 2 ^ l > 0x400000 then 0x1102 else 0

/-- The code of a check; 0: accepted. -/
def State.checkCode (s : State) (x : Check) : Nat :=
  if s.splitRefuses x then 0x0D05
  else
    match x.unit with
    | .tb n => s.tbCheck n
    | .wg g => s.wgCheck g
    | .part p => s.partCheck p (s.fld .GP_PART_CFG [p] GP_PART_CFG_PORTS)
    | .map n => s.mapCheck n (s.fld .GP_MAP [n] GP_MAP_PART)
    | .evsrc n => s.evsrcCheck n
    | .evbind n b => s.bindCode (s.partOfPort n) (s.fld .GP_EVBIND [n, b] GP_EVBIND_WG)
    | .hchan _ _ => s.tkCheck x.unit.tk
    | .hsend n h => s.handleCheck (s.partOfPort n) (s.val .GP_SH_ADDR [n, h] / 128 * 128)
    | .sched n => s.schedCheck n
    | .chan _ _ => s.tkCheck x.unit.tk
    | .queue _ _ => s.tkCheck x.unit.tk
    | .send c h => s.handleCheck (s.partOfCluster c) (s.val .MQ_SH_ADDR [c, h])
    | .set k c => s.setCheck k c
    | .mxbind c n => s.bindCode (s.partOfCluster c) (s.fld .MX_BIND [c, n] MX_BIND_WG)
    | .vxbind c v n => s.bindCode (s.partOfCluster c) (s.fld .VX_BIND [c, v, n] VX_BIND_WG)
    | .remap n => s.remapCheck n
    | .kscmd c => s.ksCheck c x.value
    | .trcfg p => s.trcfgCheck p
    | .trring c => s.trringCheck c
    | .setwg k _ g => if (s.getLs k).on && s.wgOn g then s.newWriterCode k g else 0

/-- What an accepted check does: the enable bit reads 1, and the unit starts. -/
def State.checkAccept (s : State) (x : Check) : State :=
  match x.unit with
  | .tb n => s.tbStart n
  | .wg g => s.wgStart g
  | .part p => s.partStart p
  | .map n => s.bindPort n (s.fld .GP_MAP [n] GP_MAP_PART)
  | .evsrc n => s.setFld .GP_EVSRC [n] GP_EVSRC_EN 1
  | .evbind n b => s.setFld .GP_EVBIND [n, b] GP_EVBIND_EN 1
  | .hchan _ _ => s.tkStart x.unit.tk
  | .hsend n h => s.setFld .GP_SH_ADDR [n, h] GP_SH_ADDR_EN 1
  | .sched n => s.schedStart n
  | .chan _ _ => s.tkStart x.unit.tk
  | .queue _ _ => s.tkStart x.unit.tk
  | .send c h => s.setFld .MQ_SH_CFG [c, h] MQ_SH_CFG_EN 1
  | .set k c => s.lsStart k c
  | .mxbind c n => s.setFld .MX_BIND [c, n] MX_BIND_EN 1
  | .vxbind c v n => s.setFld .VX_BIND [c, v, n] VX_BIND_EN 1
  | .remap n => s.setFld .EF_REMAP [0, n] EF_REMAP_EN 1
  | .kscmd c => s.ksRun c x.value
  | .trcfg p => s.setFld .PC_TRCFG [p] PC_TRCFG_EN 1
  | .trring c => (s.setFld .PC_TRRING [c] PC_TRRING_EN 1).setVal .PC_TRWR [c] 0
  | .setwg _ _ g => s.modWg g fun w => { w with epPos := 0, epCarry := 0 }

/-- A code posted for a unit (R430): its REASON field, and the reason logs with its kind, index and cluster. WG_STATUS.REASON of a
disabled group stays as R87 gives it (log entry 29). -/
def State.unitReason (s : State) (u : UnitRef) (code : Nat) : State :=
  let p := s.unitPart u
  match u with
  | .tb n => s.post p 5 n 0xFFFF code
  | .wg g => s.post p 1 g 0xFFFF code
  | .part q => (s.setFld .GP_PART_STATUS [q] GP_PART_STATUS_REASON code).post p 2 q 0xFFFF code
  | .map n => s.post p 8 n 0xFFFF code
  | .evsrc n => s.post p 8 n 0xFFFF code
  | .evbind n b => s.post p 8 (n * 8 + b) 0xFFFF code
  | .hchan _ _ => (s.tkReason u.tk code).post p 4 (tkUnit u.tk) (tkUnitCluster u.tk) code
  | .hsend n h => s.post p 4 (128 + n * 16 + h) 0xFFFF code
  | .sched n => (s.setFld .TL_SSTAT [0, n] TL_SSTAT_REASON code).post p 3 n 0xFFFF code
  | .chan _ _ => (s.tkReason u.tk code).post p 4 (tkUnit u.tk) (tkUnitCluster u.tk) code
  | .queue _ _ => (s.tkReason u.tk code).post p 4 (tkUnit u.tk) (tkUnitCluster u.tk) code
  | .send c h => (s.setFld .MQ_STATUS [c] MQ_STATUS_REASON code).post p 4 (64 + h) c code
  | .set k c => (s.setFld .LR_SET_STATUS [0, k] LR_SET_STATUS_REASON code).post p 6 k c code
  | .mxbind c n => s.post p 8 n c code
  | .vxbind c v n => s.post p 8 (v * 8 + n) c code
  | .remap n => (s.setVal .EF_REMAPST [0] (code * 2 ^ 16 + n)).post p 9 n 0xFFFF code
  | .kscmd c => match p with | some q => s.ksPost q code | none => s.post none 7 0 c code
  | .trcfg q => (s.setFld .PC_STATUS [] PC_STATUS_REASON code).post p 9 q 0xFFFF code
  | .trring c => (s.setFld .PC_STATUS [] PC_STATUS_REASON code).post p 9 c c code
  | .setwg k _ _ => (s.setFld .LR_SET_STATUS [0, k] LR_SET_STATUS_REASON code).post p 6 k 0xFFFF code

/-- What a refusal does beside the posting: a writer bit is cleared again in every block of the set (R197). -/
def State.checkRefuse (s : State) (x : Check) (code : Nat) : State :=
  let s := s.unitReason x.unit code
  match x.unit with
  | .setwg k _ g => s.each (s.setBlocks k) fun s b =>
      s.setVal .LR_SET_WG [b, k, g / 32] (setBits (s.val .LR_SET_WG [b, k, g / 32]) (g % 32) 1 0)
  | _ => s

/-- The REGWR that waits for a check ends with its code (R430). -/
def State.cmdChecked (s : State) (cmd : Option (Nat × Nat)) (code : Nat) : State :=
  match cmd with
  | none => s
  | some (n, t) => s.modGp n fun g => { g with cmds := g.cmds.map fun x =>
      if x.tray = t ∧ x.st = 1 ∧ x.op = 2 then { x with st := 2, code := code } else x }

/-- One check decided: its code and what it leaves. -/
def State.checkOne (s : State) (x : Check) : Nat × State :=
  let code := s.checkCode x
  (code, (if code = 0 then s.checkAccept x else s.checkRefuse x code).cmdChecked x.cmd code)

/-- CONSISTENCY_CHECK_COMPLETE (R427, R428): the oldest check ends. -/
def State.checkEnd (s : State) : State :=
  match s.checks with
  | [] => s
  | x :: rest => ({ s with checks := rest }.checkOne x).2

/-- Is a check under way of one of some units (R427)? -/
def State.checksAny (s : State) (f : UnitRef → Bool) : Bool := s.checks.any fun x => f x.unit

/-- The units whose check locks a port's compost registers, a cluster's, and a port's GP_EVSRC and GP_COMPOST (R427, R433). -/
def UnitRef.isHostChan (n : Nat) : UnitRef → Bool | .hchan k _ => k == n | _ => false
def UnitRef.isTarget (c : Nat) : UnitRef → Bool | .chan k _ => k == c | .queue k _ => k == c | _ => false

/-- Is a check of a unit under way (R427)? -/
def State.checking (s : State) (u : UnitRef) : Bool := s.checks.any fun x => x.unit == u

/-- A check asked for (R427, R428): it waits its turn at the west steward. -/
def State.askCheck (s : State) (u : UnitRef) (v : Nat) (cmd : Option (Nat × Nat)) : State :=
  if s.checking u then s else { s with checks := s.checks ++ [{ unit := u, value := v, cmd := cmd }] }

end Sys2Proof.Machine
end

