-- ==== Sys2Proof/Machine/Wipe.lean ====
section
/-! DEFINITION. Loss of contents: what a reset scope, a release or a domain that was OFF leaves of arrays, registers and traffic (R390, R425,
R465, R466, R510 to R512, R539). -/

namespace Sys2Proof.Machine

/-! ## Traffic -/

/-- The arbiters' sideband (R390): every request and grant of some endpoints is removed, their grants as revoked under R389; their pieces there
start again, with the back-off count at 8. -/
def State.arbDrop (s : State) (p : Nat → Bool) : State :=
  s.each (s.arb.map (·.1)) fun s k =>
    let a := s.getArb k
    let es := nodups ((a.held ++ a.wait.map (·.1)).filter p)
    let s := s.modArb k fun a =>
      { a with held := a.held.filter fun e => !p e, wait := a.wait.filter fun w => !p w.1,
               resv := if a.resv ≠ 0 ∧ p (a.resv - 1) then 0 else a.resv }
    let s := if k < 24 then s.bump .DM_REVOKE [k] (a.held.filter p).length else s
    s.each es fun s e => s.restartPieces k e fun q =>
      if q.st = 1 then { q with st := 2, fly := 0, code := 0x0B11, moved := 0, sent := 0, back := 0 }
      else if q.st = 3 ∨ q.st = 4 then { q with st := 3, back := 8 } else { q with back := 0 }

/-- The transfers of some endpoints are abandoned (R511). -/
def State.xferDrop (s : State) (p : Nat → Bool) : State :=
  s.each ((s.xfer.filter fun x => p x.2.ep).map (·.1)) fun s k => (s.dropReq k).modXfer k fun _ => {}

/-! ## Registers -/

/-- The registers of an address range at their reset values. -/
def State.regWipe (s : State) (lo n : Nat) : State := { s with regs := mclear s.regs lo n }

/-- An offset in a cluster window of a value that belongs to a whole set or to the device, though cluster 0's block shows it (R159). -/
def sharedOff (o : Nat) : Bool :=
  decide (0xF210000 ≤ o) && decide (o < 0xF211000) && [0x2C, 0x50, 0x58, 0x5C].contains (o % 256)

/-- Is a device address that of a register of a cluster's blocks NC_ to QF_, MQ_ and BK_, or of a counter of its KS_ block? EF_, TL_ and the
cluster-level PC_ registers are kept, and the other KS_ registers are a partition's or the device's (R22, R196, R510; log entry 19). -/
def clusterReg (c a : Nat) : Bool :=
  decide (winBase c ≤ a) &&
  (let o := a - winBase c
   !sharedOff o && ((decide (0xF000000 ≤ o) && decide (o < 0xF300000)) || (decide (0xF300100 ≤ o) && decide (o < 0xF300128)) ||
     (decide (0xF400000 ≤ o) && decide (o < 0xF700000)) ||
     (decide (0xF900000 ≤ o) && decide (o < 0xFB00000))))

/-- The registers of a cluster at their reset values. -/
def State.clusterRegs (s : State) (c : Nat) : State := { s with regs := s.regs.filter fun e => !clusterReg c e.1 }

/-- The fields of an engine in its cluster's register blocks at their reset values (R510). -/
def State.engineRegs (s : State) (c k : Nat) : State :=
  let b := winBase c
  if k < 16 then
    ((s.regWipe (b + 0xF000000 + k * 0x1000) 0x1000).regWipe (b + 0xF100000 + k * 0x1000) 0x1000).regWipe (b + 0xF200000 + k * 0x1000) 0x1000
  else
    let s := s.regWipe (b + 0xF110000 + (k - 16) * 0x1000) 0x1000
    if k = 18 then (s.regWipe (b + 0xF400000) 0x100000).regWipe (b + 0xF600000) 0x100000
    else s.regWipe (b + 0xF500000 + (k - 16) * 0x1000) 0x1000

/-! ## Engines -/

/-- The store, local store or operand buffers of an engine read zero (R510, R539). -/
def State.engineStore (s : State) (c k : Nat) : State :=
  if k < 16 then s.wipe (coreAddr c k 0) 0xC0000
  else if k = 18 then s.wipe (mxAddr c 0) 0x80000
  else s.wipe (vcAddr c (k - 16) 0) 0x20000

/-- An engine's queues, contexts and work are gone; the flits it has in the injection queue are discarded (R510, R511). -/
def State.engineQueues (s : State) (c k : Nat) : State :=
  let s := s.modRt c fun r => { r with injq := r.injq.filter fun m => fSrc m.f != coordOf c k }
  if k < 16 then s.modNc c k fun _ => {}
  else
    let s := s.modEng c (k - 16) fun _ => {}
    if k = 18 then s.modMx c fun _ => {} else s.modVx c (k - 16) fun _ => {}

/-- The trellis endpoint of an engine that requests transfers, if it has one (R298). -/
def engEndpoint (c k e : Nat) : Bool := (k == 16 && e == c * 8 + 3) || (k == 17 && e == c * 8 + 4) || (k == 18 && (e == c * 8 + 5 || e == c * 8 + 6))

/-- Is a place in the memory of an engine? -/
def inEngine (c k a : Nat) : Bool :=
  match locate a with
  | .core d n _ => d == c && n == k
  | .local d n _ => d == c && n + 16 == k
  | .mxbuf d _ => d == c && k == 18
  | _ => false

/-- The learning sets that hold a core are disabled, their writers halt with 0x0480, and a capture or a restore of theirs is abandoned
(R192, R194). -/
def State.setsReset (s : State) (hit : Nat × Nat → Bool) : State :=
  let ks := (List.range 16).filter fun k => (s.setCores k).any hit
  let s := s.each ks fun s k => s.lsResetCore hit k
  let s := match s.ks.cur with
    | some x => if x.phase = 1 ∧ ks.contains x.set then s.commitAbandon 0x0484 else s
    | none => s
  s.each (s.ks.restores.filter fun x => ks.contains x.set) fun s x => s.restoreAbandon x

/-- Every group with instances or bound engines among some engines halts at its next harvest (R512, R515). -/
def State.groupsHalt (s : State) (hit : Nat → Bool) (code : Nat) : State :=
  s.each ((List.range 256).filter fun g => s.wgOn g && (s.enginesOf g).any hit) fun s g => s.haltAtHarvest g code

/-- A core reset (R510 to R512). -/
def State.coreWipe (s : State) (c k : Nat) : State :=
  let s := s.setsReset fun x => x.1 == c && x.2 == k
  let s := s.groupsHalt (fun e => e == eidOf c k) 0x0F80
  let s := ((s.xferDrop (engEndpoint c k)).arbDrop (engEndpoint c k)).refuseInto (inEngine c k)
  let s := s.mqDown c (some k)
  let s := (s.engineQueues c k).engineStore c k
  let s := s.engineRegs c k
  s.setVal .EF_FENCE [c] (setBits (s.val .EF_FENCE [c]) k 1 0)

/-- Every array of a cluster reads zero: stores, operand buffers and banks (R510, R539). -/
def State.clusterStores (s : State) (c : Nat) : State :=
  (s.each (List.range 19) fun s k => s.engineStore c k).wipe (bankAddr c 0) 0x400000

/-- A cluster's channels, queues and send handles are gone with its registers, and its compost slots are free (R353, R511). -/
def State.clusterMsgs (s : State) (c : Nat) : State :=
  let s := s.mqDown c none
  let s := s.each (clusterTks c) fun s t => s.modChan t fun _ => {}
  { s with comp := mput s.comp c [], bk := mclear s.bk (c * 8) 8 }

/-- What the steward shows in a cluster's block of the disabled learning sets with a core there, and of those with no core: status and
counts at their reset values; the epoch number stays as R194 gives it (R12, R164, R198; log entry 153). -/
def State.setShownReset (s : State) (c : Nat) : State :=
  s.each ((List.range 16).filter fun k => !(s.getLs k).on && (s.setCores k == [] || (s.setCores k).any fun x => x.1 == c)) fun s k =>
    ((s.setVal .LR_SET_STATUS [0, k] 0).setVal .LR_SET_SKIPLOST [0, k] 0).setVal .LR_SET_LOCKWAIT [0, k] 0

/-- What a cluster loses when its domain is OFF: arrays, registers, queues (R465). -/
def State.clusterLose (s : State) (c : Nat) : State :=
  let mine (e : Nat) : Bool := decide (e < 768) && e / 8 == c
  let s := s.setShownReset c
  let s := (((s.xferDrop mine).arbDrop mine).refuseInto fun a => placeCluster a == some c).clusterMsgs c
  ((s.each (List.range 19) fun s k => s.engineQueues c k).clusterStores c).clusterRegs c

/-- A cluster reset (R510 to R512); the EF_FENCE bits clear (R283), and the oldest age counts anew (R292). -/
def State.clusterWipe (s : State) (c : Nat) (code : Nat) : State :=
  let s := s.setsReset fun x => x.1 == c
  let s := if code = 0 then s else s.groupsHalt (fun e => decide (e < 0x1000) && eidCluster e == c) code
  ((s.clusterLose c).setVal .EF_FENCE [c] 0).setFld .EF_STATUS [c] EF_STATUS_AGEMAX 0

/-- What a matrix subdomain loses when it is OFF (R465, R467). -/
def State.mxLose (s : State) (c : Nat) : State :=
  let s := s.xferDrop fun e => e == c * 8 + 5
  let s := ((s.engineStore c 18).modMx c fun _ => {}).modEng c 2 fun _ => {}
  s.engineRegs c 18

/-! ## Ports -/

/-- A port's trays, windows, rings and bulk staging wiped, its control words zeroed, its TRAYEN cleared (R510, R539); the admin
slot is no tray, and its command stands (R416). -/
def State.portWipe (s : State) (n : Nat) : State :=
  let s := s.stagWipe n 0x10000 0xFF0000
  let s := s.xferDrop fun e => e == 792 + n
  let s := (s.arbDrop fun e => e == 792 + n).setFld .GP_PCFG [n] GP_PCFG_TRAYEN 0
  s.modGp n fun g => { g with seqs := [], count := [], done := [], crd := [], cmds := g.cmds.filter fun x => x.tray == 16, evWr := 0, evRd := 0, evDone := [],
                              evSnap := [], outq := [] }

/-- What a gate port loses when its domain is OFF (R465): staging and registers; its host channels and handles are gone with them. -/
def State.portLose (s : State) (n : Nat) : State :=
  let s := (s.unbindPort n).portWipe n
  let s := s.stagWipe n 0 0x1000000
  let s := s.each (portTks n) fun s t => s.modChan t fun _ => {}
  let s := { s with comp := mput s.comp (256 + n) [] }
  let s := s.modGp n fun g => { posts := g.posts, logn := g.logn }
  (s.regWipe (0xFE03001000 + n * 0x200) 0x200).regWipe (0xFE03004000 + n * 0x100) 0x100

/-! ## Partitions -/

/-- Every unit of a partition disabled (R425 steps 1 and 2, R510, R559): its groups at once, with a reason; timebases on a reset; schedules,
channels, queues, handles, learning sets, host channels, tracing. -/
def State.unitsOff (s : State) (p reason : Nat) (tbs : Bool) : State :=
  let s := s.each ((List.range 256).filter fun g => s.wgOn g && s.wgPart g == p) fun s g =>
    (s.enterDisabled g reason).post (some p) 1 g 0xFFFF reason
  let s := if tbs then s.each ((List.range 64).filter fun n => s.bit .TB_CFG [n] TB_CFG_EN && s.fld .TB_CFG [n] TB_CFG_PART == p)
    fun s n => s.tbStop n else s
  let s := s.each ((List.range 64).filter fun n => s.bit .TL_SCFG [0, n] TL_SCFG_EN && s.fld .TL_SCFG [0, n] TL_SCFG_PART == p)
    fun s n => s.schedStop n
  let s := s.each ((List.range 16).filter fun k => (s.getLs k).on && s.lsFld k .LR_SET_CFG LR_SET_CFG_PART == p) fun s k => s.lsStop k
  let s := s.each (s.tksOn.filter fun t => s.tkPart t == some p) fun s t => s.tkStop t
  let s := s.each (s.partClusters p) fun s c =>
    (s.each (List.range 64) fun s h => if s.bit .MQ_SH_CFG [c, h] MQ_SH_CFG_EN then s.setFld .MQ_SH_CFG [c, h] MQ_SH_CFG_EN 0 else s).when
      (s.bit .PC_TRRING [c] PC_TRRING_EN) fun s => s.setFld .PC_TRRING [c] PC_TRRING_EN 0
  let s := s.each ((List.range 8).filter fun n => s.partOfPort n == some p) fun s n =>
    s.each (List.range 16) fun s h => if s.bit .GP_SH_ADDR [n, h] GP_SH_ADDR_EN then s.setFld .GP_SH_ADDR [n, h] GP_SH_ADDR_EN 0 else s
  if s.bit .PC_TRCFG [p] PC_TRCFG_EN then s.setFld .PC_TRCFG [p] PC_TRCFG_EN 0 else s

/-- A partition's clusters reset and its LPDDR region wiped (R425, R510, R539). -/
def State.partMemory (s : State) (p : Nat) : State :=
  (s.each (s.partClusters p) fun s c => s.clusterWipe c 0).wipe (s.val .GP_PART_BASE [p]) (s.val .GP_PART_SIZE [p] * 2 ^ 30)

/-- A commit or a restore of a partition is abandoned by its reset (R192, R194): in capture, compare or program. -/
def State.partCommits (s : State) (p : Nat) : State :=
  let s := match s.ks.cur with
    | some x => if x.part = p then s.commitAbandon 0x0484 else s
    | none => s
  (s.queueAbandon (· == p) 0x0484).restoresAbandon p

/-- PARTITION_RELEASE (R425): the release starts; its units are disabled, its ports unbound, its clusters reset, and the wipe runs. -/
def State.partRelease (s : State) (p : Nat) : State :=
  if s.fld .GP_PART_STATUS [p] GP_PART_STATUS_STATE ≠ 1 then s
  else
    let s := (s.unitsOff p 0x0185 false).ksRelease p
    let ports := (List.range 8).filter fun n => s.partOfPort n == some p
    let s := s.each ports fun s n => (s.unbindPort n).portWipe n
    let s := s.partMemory p
    (s.setFld .GP_PART_CFG [p] GP_PART_CFG_EN 0).setFld .GP_PART_STATUS [p] GP_PART_STATUS_STATE 2

/-- PARTITION_RELEASE_COMPLETE (R425): the wipe ends. -/
def State.partReleased (s : State) (p : Nat) : State :=
  if s.fld .GP_PART_STATUS [p] GP_PART_STATUS_STATE ≠ 2 then s else s.setFld .GP_PART_STATUS [p] GP_PART_STATUS_STATE 0

/-- A partition reset (R510): the partition stays enabled and its ports bound. -/
def State.partWipe (s : State) (p : Nat) : State :=
  let s := s.setFld .KS_STATUS [p] KS_STATUS_REASON 0
  let s := (s.unitsOff p 0x0F82 true).partCommits p
  let s := s.partMemory p
  let s := s.setVal .KS_STAGE [p] 0
  s.each ((List.range 8).filter fun n => s.partOfPort n == some p) fun s n => s.portWipe n

end Sys2Proof.Machine
end

