-- ==== Sys2Proof/Machine/Power.lean ====
section
/-! DEFINITION. Power, clocks, voltage and temperature (R465 to R494): domain requests, holds and transitions, core and fabric clocks,
rails, droop, thermal and power caps, the trip, and the telemetry page. -/

namespace Sys2Proof.Machine

/-! ## Writers and postings -/

/-- A code posted in CK_STATUS.REASON and in the logs (R494). -/
def State.ckPost (s : State) (part : Option Nat) (unit cluster code : Nat) : State :=
  (s.setFld .CK_STATUS [] CK_STATUS_REASON code).post part 9 unit cluster code

/-- The partition a switched domain belongs to for R492: that of its cluster or of its port. -/
def State.domPart (s : State) (n : Nat) : Option Nat :=
  if n < 96 then s.partOfCluster n else if n < 192 then s.partOfCluster (n - 96)
  else if 220 ≤ n ∧ n < 228 then s.partOfPort (n - 220) else none

/-- A code posted in PW_STATn.REASON and in the logs (R494). -/
def State.pwPost (s : State) (n code : Nat) : State :=
  (s.setFld .PW_STAT [n] PW_STAT_REASON code).post (s.domPart n) 9 n 0xFFFF code

/-- May a requester write a power or clock field of a cluster, or, with none, of the device (R492)? -/
def State.pwWriter (s : State) (req : Requester) (c : Option Nat) : Bool :=
  match req with
  | .steward _ => true
  | .resident => true
  | .port n => s.isAdmin n.val ||
      (match c with | some c => (s.partOfCluster c).isSome && s.partOfCluster c == s.partOfPort n.val | none => false)
  | .engine _ _ => false

/-! ## Voltage (R474 to R476) -/

/-- The code of a clock in 100 MHz units before OFFSET. -/
def voltCode (f : Nat) : Nat := if f ≤ 10 then 10 else if f ≤ 13 then 20 else if f ≤ 16 then 30 else if f ≤ 19 then 40 else 50

def halfClusters (h : Nat) : List Nat := (List.range 48).map fun i => h * 48 + i

def State.coreEff (s : State) (c : Nat) : Nat := s.fld .CK_CORE [c] CK_CORE_EFF
def State.fabEff (s : State) (h : Nat) : Nat := s.fld .CK_FAB [h] CK_FAB_EFF

/-- Does runtime BIST run in a half (R475)? -/
def State.bistIn (s : State) (h : Nat) : Bool :=
  (halfClusters h).any fun c => let b := s.fld .BU_BISTSTAT [c] BU_BISTSTAT_STATE; decide (1 ≤ b) && decide (b ≤ 4)

/-- The highest clock of a half, clocks on their way up included. -/
def State.topClock (s : State) (h : Nat) : Nat :=
  ((halfClusters h).filter s.domOn).foldl (fun m c => max m (max (s.coreEff c) (s.getClk c).goal))
    (max (s.fabEff h) (if (s.getHf h).fab = 0 then 0 else (s.getHf h).fabTo))

/-- The code a half's clocks need (R474), or 50 during runtime BIST (R475). -/
def State.vidNeed (s : State) (h : Nat) : Nat :=
  if s.bistIn h then 50 else voltCode (s.topClock h) + s.fld .CK_VID [h] CK_VID_OFFSET

def State.vid (s : State) (h : Nat) : Nat := s.fld .CK_VID [h] CK_VID_CODE

/-- The voltage raised at once where the clocks need it, or lowered once they allow it. -/
def State.vidUpdate (s : State) (h : Nat) : State := s.setFld .CK_VID [h] CK_VID_CODE (s.vidNeed h)

/-! ## Core clocks (R473, R477) -/

/-- The bank-port endpoints of a schedule (R362): clusters whose BKA or BKB ends a circuit of an enabled schedule. -/
def State.bankEnd (s : State) (c : Nat) : Bool :=
  (List.range 64).any fun n => s.schState n != 0 &&
    (s.getSch n).paths.any fun p => [p.1, p.2.1].any fun e => e == c * 8 || e == c * 8 + 1

/-- The floor of a cluster's caps (R481). -/
def State.clkFloor (s : State) (c : Nat) : Nat := if s.bankEnd c then s.fabHigh (halfOf c) else 8

/-- The BIST cap of a half's other clusters (R475): the highest clock whose setpoint stays within 0.75 V. -/
def State.bistCap (s : State) (h : Nat) : Nat :=
  let o := s.fld .CK_VID [h] CK_VID_OFFSET
  if o = 0 then 22 else if o ≤ 10 then 19 else 16

/-- The effective clock REQ and the caps give (R473). -/
def State.clkWant (s : State) (c : Nat) : Nat :=
  let k := s.getClk c
  let cap (x m : Nat) : Nat := if x = 0 then m else min x m
  cap k.therm (cap k.pow (cap k.bist (s.fld .CK_CORE [c] CK_CORE_REQ)))

/-- CAPSRC names each cap below REQ (R473). -/
def State.clkSrc (s : State) (c : Nat) : Nat :=
  let k := s.getClk c
  let r := s.fld .CK_CORE [c] CK_CORE_REQ
  let b (x w : Nat) : Nat := if x ≠ 0 ∧ x < r then w else 0
  b k.therm 1 + b k.pow 2 + b k.bist 4

/-- The clock of a cluster follows REQ and the caps: a raise first raises the voltage (R474). -/
def State.clkUpdate (s : State) (c : Nat) : State :=
  let s := s.setFld .CK_CORE [c] CK_CORE_CAPSRC (s.clkSrc c)
  let t := s.clkWant c
  if t = s.coreEff c then s.modClk c fun k => { k with goal := 0, rail := false }
  else
    let s := s.modClk c fun k => { k with goal := t, rail := false }
    if t > s.coreEff c ∧ s.vidNeed (halfOf c) > s.vid (halfOf c) then
      (s.vidUpdate (halfOf c)).modClk c fun k => { k with rail := true }
    else s

/-- CORE_CLOCK_RELOCK_DONE (R477). -/
def State.coreRelock (s : State) (c : Nat) : State :=
  let k := s.getClk c
  if k.goal = 0 || k.rail then s
  else
    let s := (s.setFld .CK_CORE [c] CK_CORE_EFF k.goal).modClk c fun k => { k with goal := 0 }
    s.vidUpdate (halfOf c)

/-- PW_STATUS.THROT: a thermal cap or a lowered fabric clock in force (R493). -/
def State.noteThrot (s : State) : State :=
  let on := (List.range 96).any (fun c => (s.getClk c).therm != 0) ||
    [0, 1].any (fun h => !s.bit .CK_FAB [h] CK_FAB_BUSY && decide (s.fabEff h < s.fld .CK_FAB [h] CK_FAB_REQ))
  let s := s.setFld .PW_STATUS [] PW_STATUS_THROT (if on then 1 else 0)
  s.setFld .PW_STATUS [] PW_STATUS_PCAP (if (List.range 96).any (fun c => (s.getClk c).pow != 0) then 1 else 0)

/-- A write of CK_COREc (R395, R473, R483, R492, R494): its code and the state. -/
def State.ckCoreWrite (s : State) (c v : Nat) (req : Requester) : Nat × State :=
  let r := v % 32
  let fail (code : Nat) : Nat × State := (code, s.ckPost (s.partOfCluster c) c c code)
  if s.pw.tripped then fail 0x0E05
  else if !s.pwWriter req (some c) then fail 0x0E03
  else if r < 8 ∨ r > 22 then fail 0x0E02
  else if s.bankEnd c ∧ r < s.fabHigh (halfOf c) then (0x0A02, ((s.setFld .BK_STATUS [c] BK_STATUS_REASON 0x0A02).ckPost (s.partOfCluster c) c c 0x0A02))
  else (0, (s.setFld .CK_CORE [c] CK_CORE_REQ r).clkUpdate c)

/-! ## Fabric clocks (R478) -/

/-- Does a bank-port cluster of a half run, or go to run, below a fabric clock (R362)? -/
def State.bankSlow (s : State) (h dst : Nat) : Bool := (halfClusters h).any fun c => s.bankEnd c && decide (s.coreLow c < dst)

/-- The refusal code of a fabric clock (R478 step 1); 0: none. -/
def State.fabCheck (s : State) (h dst : Nat) : Nat :=
  let slow := min dst (s.fabEff (1 - h))
  if s.bankSlow h dst then 0x0A02
  else if !s.isSplit && [0, 1].any (fun d => decide (tslots (s.seamC d) slow < s.throttledLoad d)) then 0x0D04
  else 0

/-- The change starts (R478 steps 2 and 3): the voltage is raised if it must be, and the trellis quiesced. -/
def State.fabStart (s : State) (h dst : Nat) : State :=
  let s := (s.setFld .CK_FAB [h] CK_FAB_BUSY 1).modHf h fun x => { x with fab := 1, fabTo := dst }
  if s.vidNeed h > s.vid h then s.vidUpdate h
  else (s.modHf h fun x => { x with fab := 2 }).quiesce h

/-- A write of CK_FABh.REQ (R478, R492); ignored while a change is in progress (log entry 31). -/
def State.ckFabWrite (s : State) (h v : Nat) (req : Requester) : Nat × State :=
  let r := v % 32
  let fail (code : Nat) : Nat × State := (code, s.ckPost none h 0xFFFF code)
  if s.pw.tripped then fail 0x0E05
  else if !s.pwWriter req none then fail 0x0E03
  else if r < 8 ∨ r > 16 then fail 0x0E02
  else if s.bit .CK_FAB [h] CK_FAB_BUSY then (0, s)
  else if r = s.fabEff h then (0, (s.setFld .CK_FAB [h] CK_FAB_REQ r).noteThrot)
  else
    let code := s.fabCheck h r
    if code ≠ 0 then
      let s := s.setFld .CK_FAB [h] CK_FAB_REQ (s.fabEff h)
      let s := if code = 0x0D04 then s.setFld .SM_STATUS [] SM_STATUS_REASON code else s
      (code, s.ckPost none h 0xFFFF code)
    else (0, (s.setFld .CK_FAB [h] CK_FAB_REQ r).fabStart h r)

/-- A change that R362 forbids by the time the half is quiet is abandoned with 0x0A02 (R391), and the trellis resumes. -/
def State.fabAbandon (s : State) (h : Nat) : State :=
  let s := (s.setFld .CK_FAB [h] CK_FAB_REQ (s.fabEff h)).setFld .CK_FAB [h] CK_FAB_BUSY 0
  let s := (s.modHf h fun x => { x with fab := 0, fabTo := 0 }).ckPost none h 0xFFFF 0x0A02
  ((s.resumeHalf h).vidUpdate h).noteThrot

/-- FABRIC_CLOCK_RELOCK_DONE (R478 steps 4 to 6): once the half is quiet and its hold buffer empty, and R362 still permits it (R391), the
clocks run at the new rate, the seam tables are rewritten and the trellis resumes. -/
def State.fabRelock (s : State) (h : Nat) : State :=
  let x := s.getHf h
  if x.fab ≠ 2 || !s.isQuiet h || (s.getSdir h).hold != [] then s
  else if s.bankSlow h x.fabTo then s.fabAbandon h
  else
    let s := (s.setFld .CK_FAB [h] CK_FAB_EFF x.fabTo).setFld .CK_FAB [h] CK_FAB_BUSY 0
    let s := s.modHf h fun x => { x with fab := 0, fabTo := 0 }
    let s := if s.isSplit then s else s.updateCaps.remask
    ((s.resumeHalf h).vidUpdate h).noteThrot

/-- VID_RAIL_CHECK (R476): 100 µs after a code change the rail is within ±3 %, or not; the raises that waited go on or are abandoned. -/
def State.railCheck (s : State) (h : Nat) (ok : Bool) : State :=
  let s := s.setFld .CK_VID [h] CK_VID_OK (if ok then 1 else 0)
  if ok then
    let s := s.each (halfClusters h) fun s c => if (s.getClk c).rail then s.modClk c fun k => { k with rail := false } else s
    if (s.getHf h).fab = 1 then (s.modHf h fun x => { x with fab := 2 }).quiesce h else s
  else
    let s := s.ckPost none h 0xFFFF 0x0E09
    let s := s.each (halfClusters h) fun s c => if (s.getClk c).rail then s.modClk c fun k => { k with rail := false, goal := 0 } else s
    let s := if (s.getHf h).fab = 1 then (s.modHf h fun x => { x with fab := 0, fabTo := 0 }).setFld .CK_FAB [h] CK_FAB_BUSY 0 else s
    s.vidUpdate h

/-! ## Droop (R479) -/

/-- DROOP_TRIGGER: detector c, 0 to 95 of a cluster, 96 and 97 of the half backbones. -/
def State.droop (s : State) (c : Nat) : State := (s.bump .PW_DROOP [c]).modClk c fun k => { k with stretch := true }

/-- DROOP_STRETCH_END, with the stretched cycles; a cluster whose rail is still low after 48 hands over to its half. -/
def State.droopEnd (s : State) (c cycles : Nat) (pass : Bool) : State :=
  if !(s.getClk c).stretch then s
  else
    let s := (s.bump .PW_DSTR [c] cycles).modClk c fun k => { k with stretch := false }
    if pass ∧ c < 96 then s.modClk (96 + halfOf c) fun k => { k with stretch := true } else s

/-! ## Domains (R465 to R470) -/

/-- The state a domain is in, or goes to while in transition. -/
def State.domGoal (s : State) (n : Nat) : Nat :=
  let st := s.fld .PW_STAT [n] PW_STAT_STATE
  if st = 3 then (s.getDom n).goal - 1 else st

/-- The state a domain is asked for; a matrix subdomain is never above its cluster's domain (R21). A reserved TARGET is never stored. -/
def State.domWant (s : State) (n : Nat) : Nat :=
  let t := s.fld .PW_REQ [n] PW_REQ_TARGET
  if 96 ≤ n ∧ n < 192 then max t (s.domGoal (n - 96)) else t

/-- Is a descriptor queued or running on a matrix core (R467: HOLD bit 8)? -/
def State.mxBusy (s : State) (c : Nat) : Bool := s.mxHead c != s.mxTail c || (s.getMx c).run.isSome

/-- The holds of a domain against a state (R467): bit k for HOLD bit 5 + k. -/
def State.holds (s : State) (n dst : Nat) : Nat :=
  let b (x : Bool) (k : Nat) : Nat := if x then 2 ^ k else 0
  if n < 96 then
    let eng := (List.range 256).any fun g => s.wgOn g && (s.enginesOf g).any fun e => decide (e < 0x1000) && eidCluster e == n
    let set := (List.range 16).any fun k => (s.coreSet n k).isSome
    let msg := (clusterTks n).any s.tkOn || ([0, 1, 2].any fun e => s.bit .SY_SINK_CFG [n, e] SY_SINK_CFG_EN || s.bit .SY_EMIT_CFG [n, e] SY_EMIT_CFG_EN) ||
      (List.range 64).any fun h => s.bit .MQ_SH_CFG [n, h] MQ_SH_CFG_EN
    let bs := s.fld .BU_BISTSTAT [n] BU_BISTSTAT_STATE
    b eng 0 + b set 1 + b msg 2 + b (s.mxBusy n) 3 + b (decide (1 ≤ bs) && decide (bs ≤ 4)) 5
  else if n < 192 then b (s.mxBusy (n - 96)) 3
  else if 196 ≤ n ∧ n < 220 then
    b (dst == 2 && (List.range 8).any fun p => s.bit .GP_PART_CFG [p] GP_PART_CFG_EN && s.regionUses p (n - 196)) 4
  else if 220 ≤ n ∧ n < 228 then b (s.isAdmin (n - 220) || s.lastPort (n - 220)) 6
  else 0

/-- What a domain does when it leaves ON (R466), its accepted accesses complete: its requesters are marked at the arbiters. -/
def State.domLeave (s : State) (n : Nat) : State :=
  if n < 96 then
    let mine (e : Nat) : Bool := decide (e < 768) && e / 8 == n
    (s.arbDrop mine).mqDown n none
  else if n < 192 then s.arbDrop fun e => e == (n - 96) * 8 + 5 || e == (n - 96) * 8 + 6
  else if 220 ≤ n ∧ n < 228 then
    let g := n - 220
    let s := s.arbDrop fun e => e == 792 + g
    (if s.link g = lnkService ∨ s.link g = lnkSelf then s.portLeaves g else s).setLink g lnkOff
  else s

/-- A transition starts (R466). -/
def State.domBegin (s : State) (n dst : Nat) : State :=
  let st := s.fld .PW_STAT [n] PW_STAT_STATE
  let s := ((s.setFld .PW_STAT [n] PW_STAT_PEND 0).setFld .PW_STAT [n] PW_STAT_HOLD 0).setFld .PW_STAT [n] PW_STAT_STATE 3
  let s := s.modDom n fun _ => { goal := dst + 1, was := st }
  if st = 0 then s.domLeave n else s

/-- DOMAIN_TRANSITION (R466, R467): a requested state is taken up, unless a hold keeps it pending; a domain leaves ON once the accesses it
has accepted are complete, and its STATE reads ON until then (log entry 177). -/
def State.domStep (s : State) (n : Nat) : State :=
  let st := s.fld .PW_STAT [n] PW_STAT_STATE
  let t := s.domWant n
  if st = 3 ∨ s.pw.tripped then s
  else if t = st then (s.setFld .PW_STAT [n] PW_STAT_PEND 0).setFld .PW_STAT [n] PW_STAT_HOLD 0
  else
    let h := if t > st then s.holds n t else 0
    if h = 0 then (if st = 0 && s.domAccepted n then s else s.domBegin n t)
    else (s.setFld .PW_STAT [n] PW_STAT_PEND 1).setFld .PW_STAT [n] PW_STAT_HOLD h

/-- What a domain loses when it is switched off (R465); a half backbone and a seam bridge return at a device reset only, which resets them. -/
def State.domLose (s : State) (n : Nat) : State :=
  if n < 96 then s.clusterLose n
  else if n < 192 then s.mxLose (n - 96)
  else if 196 ≤ n ∧ n < 220 then
    { s with mem := s.mem.filter fun e => !(decide (e.1 < 0x6000000000) && (match s.dmMap e.1 with | some (ch, _) => ch == n - 196 | none => false)) }
  else if 220 ≤ n ∧ n < 228 then s.portLose (n - 220)
  else if n = 228 then { (s.regWipe 0xFE08000000 0x2000000) with wg := [] }
  else s

/-- A cluster's banks as its domain returns from retention: those that BK_RET leaves awake accept accesses 2 µs later (R369). -/
def State.banksReturn (s : State) (c : Nat) : State :=
  s.each ((List.range 8).filter fun b => !(s.val .BK_RET [c]).testBit b) fun s b =>
    (s.setBkBit c b BK_STATUS_AWAKE false).modBk c b fun k => { k with waking := true }

/-- Where a domain has arrived (R369, R465, R466, R545): contents, the banks of a returning cluster, a channel's counters, back from OFF, the
port's link, and the count of returns. -/
def State.domArrive (s : State) (n dst : Nat) : State :=
  let s := if n < 96 && dst == 0 && (s.getDom n).was == 1 then s.banksReturn n else s
  let s := s.setFld .PW_STAT [n] PW_STAT_STATE dst
  let s := if dst = 2 then s.domLose n else s
  let s := if 196 ≤ n && n < 220 && (s.getDom n).was == 2 && dst != 2 then s.regWipe (0xFE02001008 + (n - 196) * 0x100) 0x48 else s
  if dst = 0 then
    let s := s.bump .PW_WAKES [n]
    if 220 ≤ n ∧ n < 228 then s.setLink (n - 220) lnkWait else s
  else s

/-- Does a channel on its way out of ON still hold queued pieces (R378)? -/
def State.domDrains (s : State) (n : Nat) : Bool :=
  decide (196 ≤ n) && decide (n < 220) && (s.getDom n).goal != 1 && (s.getArb (n - 196)).held != []

/-- DOMAIN_TRANSITION_COMPLETE (R21, R466): the domain has arrived; a cluster's subdomain follows it. -/
def State.domDone (s : State) (n : Nat) : State :=
  if s.fld .PW_STAT [n] PW_STAT_STATE ≠ 3 ∨ s.domDrains n then s
  else
    let dst := (s.getDom n).goal - 1
    let back := (s.getDom n).back
    let s := (s.modDom n fun d => { was := d.was, back := d.back && dst == 0 }).domArrive n dst
    if n < 96 then
      let m := 96 + n
      let want := s.domWant m
      let s := if s.fld .PW_STAT [m] PW_STAT_STATE = want then s
        else ((s.modDom m fun _ => { back := back }).setFld .PW_STAT [m] PW_STAT_WAKESRC (s.fld .PW_STAT [n] PW_STAT_WAKESRC)).domArrive m want
      (s.vidUpdate (halfOf n))
    else s

/-- Outside R468 (0x0E05), or a half backbone or seam bridge asked back from OFF, which only a device reset does (R465, DEDUCED, log entry 152)? -/
def State.pwForbidden (s : State) (n dst : Nat) (req : Requester) : Bool :=
  if 192 ≤ n ∧ n < 196 ∧ s.domGoal n = 2 ∧ dst ≠ 2 then true
  else if dst = 0 then false
  else if 192 ≤ n ∧ n < 196 then
    let h := n % 2
    !(s.isSplit && (match req with | .port k => s.isAdmin k.val | .steward _ => true | _ => false) &&
      ((halfClusters h).all fun c => s.fld .PW_STAT [c] PW_STAT_STATE == 2) &&
      ((List.range 12).all fun i => s.fld .PW_STAT [196 + h * 12 + i] PW_STAT_STATE == 2) &&
      (List.range 4).all fun i => s.fld .PW_STAT [220 + h * 4 + i] PW_STAT_STATE == 2)
  else n == 228 &&
    (((List.range 64).any fun t => s.bit .TB_CFG [t] TB_CFG_EN) || ((List.range 256).any fun g => s.wgOn g) ||
      (List.range 8).any fun m => s.fld .TB_IN_CFG [m] TB_IN_CFG_MODE != 0)

/-- A write of PW_REQn (R467 to R469, R483, R492): its code and the state; a request that stays pending takes effect all the same,
and reports 0x0E01 in the command's completion (R430, R494). -/
def State.pwReqWrite (s : State) (n v : Nat) (req : Requester) : Nat × State :=
  let t := v % 4
  let c := if n < 96 then some n else if n < 192 then some (n - 96) else none
  let fail (code : Nat) : Nat × State := (code, s.pwPost n code)
  if s.pw.tripped then fail 0x0E05
  else if !s.pwWriter req c then fail 0x0E03
  else if t = 3 then fail 0x0E02
  else if s.pwForbidden n t req then fail 0x0E05
  else
    let s := s.setFld .PW_REQ [n] PW_REQ_TARGET t
    let st := s.fld .PW_STAT [n] PW_STAT_STATE
    let s := if s.domWant n = 0 ∧ st ≠ 0 then
      s.setFld .PW_STAT [n] PW_STAT_WAKESRC (match req with | .port _ => 2 | _ => 1) else s
    let s := s.domStep n
    if s.bit .PW_STAT [n] PW_STAT_PEND then (0x0E01, s.pwPost n 0x0E01) else (0, s)

/-- DOMAIN_WAKE (R469): a tail write wakes a matrix subdomain, an LPDDR piece a channel, a reset any domain, a BIST start a cluster. -/
def State.domWake (s : State) (n src : Nat) : State :=
  let ok := (src == 3 && decide (96 ≤ n) && decide (n < 192)) || (src == 4 && decide (196 ≤ n) && decide (n < 220)) || src == 5 ||
    (src == 6 && decide (n < 192))
  if ok && !s.pw.tripped then s.wakeDomain n src else s

/-- A domain woken for a reset goes to the state PW_REQn names (R470). -/
def State.domReturn (s : State) (n : Nat) : State :=
  if (s.getDom n).back ∧ s.fld .PW_STAT [n] PW_STAT_STATE = 0 then (s.modDom n fun d => { d with back := false }).domStep n else s

/-! ## Temperature (R480 to R483) -/

/-- A sensor's temperature in units of 0.25 °C. -/
def State.temp (s : State) (i : Nat) : Int := sext 16 (s.val .PW_TEMP [i] % 2 ^ 16)
def State.clusterTemp (s : State) (c : Nat) : Int := max (s.temp (2 * c)) (s.temp (2 * c + 1))
def State.throt (s : State) : Int := 4 * (s.fld .PW_THERM [] PW_THERM_THROT : Int)

/-- The sensors of a half. -/
def halfSensors (h : Nat) : List Nat := ((List.range 96).map fun i => h * 96 + i) ++ [192 + 2 * h, 193 + 2 * h]
def State.hottest (s : State) (h : Nat) : Int := (halfSensors h).foldl (fun m i => max m (s.temp i)) (s.temp (192 + 2 * h))

/-- The trip (R483): every switched domain is switched off, and THERMTRIP_N asserted; the registers of the stewards' domain
stay, with no reset and no test running. -/
def State.trip (s : State) : State :=
  let keep (a : Nat) : Bool :=
    decide (0xFE00000000 ≤ a) && decide (a < 0xFE01000000) || decide (0xFE04000000 ≤ a) && decide (a < 0xFE08000000)
  let s := { s with
    regs := s.regs.filter fun e => keep e.1, mem := s.mem.filter fun e => keep e.1, staging := [], latches := [], helds := [],
    tb := [], tbi := [], wg := [], nc := [], eng := [], mx := [], vx := [], ls := [], bk := [], rt := [], sdir := [], lane := [],
    xfer := [], chan := [], comp := [], edges := [], oldEdges := [], arb := [], dom := [], sch := [], half := [], slotA := [],
    slotB := [], smapA := [], smapB := [], gp := [], checks := [], rsts := [], clk := [] }
  let s := s.each (List.range 229) fun s n =>
    ((s.setFld .PW_STAT [n] PW_STAT_STATE 2).setFld .PW_STAT [n] PW_STAT_PEND 0).setFld .PW_STAT [n] PW_STAT_HOLD 0
  let s := (s.setFld .BU_RSTSTAT [] BU_RSTSTAT_BUSY 0).each (List.range 96) fun s c =>
    if s.fld .BU_BISTSTAT [c] BU_BISTSTAT_STATE ≤ 4 then s.setFld .BU_BISTSTAT [c] BU_BISTSTAT_STATE 0 else s
  ((s.modKs fun k => { k with queue := [], cur := none, restores := [] }).modPw fun p => { p with tripped := true, hot := [] }).modBoot
    fun b => { b with thermtrip := true }

/-- SENSOR_SAMPLE (R480, R483): a sensor is read; 110 °C or above in two consecutive samples of one sensor trips the device. -/
def State.sensorSample (s : State) (i : Nat) (v : Half) : State :=
  let s := s.setVal .PW_TEMP [i] v.toNat
  let top := max (s.hottest 0) (s.hottest 1)
  let s := s.setFld .PW_STATUS [] PW_STATUS_TJMAX (top / 4).toNat
  if v.toInt ≥ 440 then
    if s.pw.hot.contains i then s.trip else s.modPw fun p => { p with hot := p.hot ++ [i] }
  else s.modPw fun p => { p with hot := p.hot.filter (· != i) }

/-- A cap lowered by one step (R481, R486): it starts from the effective clock, and ends at the floor. -/
def capDown (cap eff floor : Nat) : Nat := max floor ((if cap = 0 then eff else cap) - 1)

/-- A cap raised by one step: at REQ it is gone (log entry 32). -/
def capUp (cap req : Nat) : Nat := if cap = 0 then 0 else if cap + 1 ≥ req then 0 else cap + 1

/-- THERMAL_CAP_STEP (R481): `cooled` says that the cluster has stayed at or below THROT − 3 °C for 1 ms. -/
def State.thermStep (s : State) (c : Nat) (cooled : Bool) : State :=
  let k := s.getClk c
  let t := s.clusterTemp c
  if t ≥ s.throt then
    let s := if k.therm = 0 then s.ckPost (s.partOfCluster c) c c 0x0E06 else s
    ((s.modClk c fun k => { k with therm := capDown k.therm (s.coreEff c) (s.clkFloor c) }).clkUpdate c).noteThrot
  else if cooled && decide (t ≤ s.throt - 12) && k.therm != 0 then
    ((s.modClk c fun k => { k with therm := capUp k.therm (s.fld .CK_CORE [c] CK_CORE_REQ) }).clkUpdate c).noteThrot
  else s

/-- THERMAL_FABRIC_STEP (R482): `held` says that the cluster has stood at its floor for 1 ms, or that every sensor has stood at or below
THROT − 3 °C for 10 ms. -/
def State.thermFabric (s : State) (h : Nat) (held : Bool) : State :=
  let stuck := held && (halfClusters h).any fun c =>
    (s.getClk c).therm != 0 && decide (s.coreEff c ≤ s.clkFloor c) && decide (s.clusterTemp c ≥ s.throt + 12)
  let bone := [192 + 2 * h, 193 + 2 * h].any fun i => decide (s.temp i ≥ s.throt)
  let eff := s.fabEff h
  if s.bit .CK_FAB [h] CK_FAB_BUSY then s
  else if stuck || bone then
    if eff ≤ 8 then s else ((s.ckPost none h 0xFFFF 0x0E08).fabStart h (eff - 1)).noteThrot
  else
    let cool := held && ((halfSensors h).all fun i => decide (s.temp i ≤ s.throt - 12)) && (halfClusters h).all fun c => (s.getClk c).therm == 0
    if cool && decide (eff < s.fld .CK_FAB [h] CK_FAB_REQ) && s.fabCheck h (eff + 1) == 0 then s.fabStart h (eff + 1) else s

/-! ## Power (R485 to R487, R490) -/

/-- Mean of the last 100 estimates of a half, or of both, over a limit: sums are compared (R486). -/
def State.powerSum (s : State) (h : Option Nat) : Nat :=
  (s.pw.est.map fun e => match h with | some 0 => e.1 | some _ => e.2 | none => e.1 + e.2).sum

/-- POWER_ESTIMATE (R485, R487): the estimates of both halves in W. -/
def State.powerEstimate (s : State) (w e : Nat) : State :=
  let s := s.modPw fun p => { p with est := ((w, e) :: p.est).take 100 }
  let s := s.setFld .PW_STATUS [] PW_STATUS_POWER (min (w + e) 1023)
  if w + e > 720 then
    let s := (s.bump .PW_PKSTR []).setFld .PW_STATUS [] PW_STATUS_PKSTR 1
    (s.modPw fun p => { p with peak := true }).ckPost none 0 0xFFFF 0x0E0A
  else s.setFld .PW_STATUS [] PW_STATUS_PKSTR (if s.pw.peak then 1 else 0)

/-- PEAK_STRETCH_END (R487). -/
def State.peakEnd (s : State) : State := s.modPw fun p => { p with peak := false }

/-- POWER_CAP_STEP (R486, R490): over the device, or in the split state over half h; `rise` says that 10 ms have passed since the last
step. -/
def State.powerStep (s : State) (h : Nat) (rise : Bool) : State :=
  let n := s.pw.est.length
  let split := s.isSplit
  let sum := s.powerSum (if split then some h else none)
  let cap := if split then s.val .PW_PCAP [] / 2 else s.val .PW_PCAP []
  let low := if split then cap - 10 else cap - 20
  let cs := (if split then halfClusters h else List.range 96).filter s.domOn
  if n ≠ 0 ∧ sum > cap * n then
    let first := cs.all fun c => (s.getClk c).pow == 0
    let s := if first then s.ckPost none h 0xFFFF 0x0E07 else s
    (s.each cs fun s c => (s.modClk c fun k => { k with pow := capDown k.pow (s.coreEff c) (s.clkFloor c) }).clkUpdate c).noteThrot
  else if rise ∧ sum ≤ low * n then
    (s.each cs fun s c => if (s.getClk c).pow = 0 then s else
      (s.modClk c fun k => { k with pow := capUp k.pow (s.fld .CK_CORE [c] CK_CORE_REQ) }).clkUpdate c).noteThrot
  else s

/-! ## The telemetry page (R489, R575) -/

/-- Droop triggers of a half. -/
def State.droops (s : State) (h : Nat) : Nat := ((halfClusters h ++ [96 + h]).map fun c => s.val .PW_DROOP [c]).sum

/-- The device's state as its record and BU_STATUS give it (R406, R519): 0 BOOTING, 1 READY, 2 SPLIT, 3 RECOVERY. -/
def State.devState (s : State) : Nat :=
  let x := s.fld .BU_STATUS [] BU_STATUS_STATE
  if x = 1 ∧ s.isSplit then 2 else x

/-- The 64 bytes of the page. -/
def State.telemetry (s : State) : List Byte :=
  let e := s.pw.est.headD (0, 0)
  let th (h : Nat) : Nat :=
    if (halfClusters h).any (fun c => (s.getClk c).therm != 0) || (!s.bit .CK_FAB [h] CK_FAB_BUSY && decide (s.fabEff h < s.fld .CK_FAB [h] CK_FAB_REQ)) then 1 else 0
  let flags := th 0 + 2 * th 1 + 4 * s.fld .PW_STATUS [] PW_STATUS_PCAP + 8 * (if s.pw.tripped || s.bit .PW_STATUS [] PW_STATUS_TRIPLAST then 1 else 0) +
    (if s.isSplit then 16 else 0)
  leBytes 1 s.devState ++ leBytes 1 flags ++ leBytes 2 (e.1 + e.2) ++ leBytes 2 e.1 ++ leBytes 2 e.2 ++
  leBytes 2 ((s.hottest 0) % 2 ^ 16).toNat ++ leBytes 2 ((s.hottest 1) % 2 ^ 16).toNat ++ leBytes 1 (s.vid 0) ++ leBytes 1 (s.vid 1) ++
  leBytes 2 0 ++ leBytes 8 (s.droops 0) ++ leBytes 8 (s.droops 1) ++ List.replicate 32 0

/-- The east values as they stand in the page last latched, which the split state keeps (R489). -/
def State.eastKept (s : State) : List Byte :=
  let t := s.telemetry
  if !s.isSplit then t
  else (List.range 64).map fun i =>
    if [6, 7, 10, 11, 13].contains i ∨ (24 ≤ i ∧ i < 32) then s.pw.page.getD i 0 else t.getD i 0

/-- I3C_OFFSET_WRITE (R489): a one-byte private write. -/
def State.i3cOffset (s : State) (b : Byte) : State := s.modPw fun p => { p with off := b.toNat % 64 }

/-- I3C_READ (R489, R575): the page is latched, and n bytes are returned from the offset, which wraps from 63 to 0. -/
def State.i3cRead (s : State) (n : Nat) : State :=
  let page := s.eastKept
  s.modPw fun p => { p with page := page, out := (List.range n).map fun i => page.getD ((p.off + i) % 64) 0 }

/-- I3C_DYNAMIC_ADDRESS (R575). -/
def State.i3cAddress (s : State) (a : Nat) : State := s.modPw fun p => { p with dyn := some a }

end Sys2Proof.Machine
end

