-- ==== Sys2Proof/Machine/Counters.lean ====
section
/-! DEFINITION. Counters (R544 to R554): the counter ranges, the window end, the counter mirror of the gate ports, and the rake. -/

namespace Sys2Proof.Machine

/-! ## The counters (R544, R552) -/

/-- A counter range of R544: the address of its block, the instances and how far apart they lie, the first and last counter. -/
structure CRange where
  base : Nat
  count : Nat
  stride : Nat
  first : Nat
  last : Nat
  deriving DecidableEq, Repr

/-- The addresses of a range in ascending order. -/
def CRange.addrs (r : CRange) : List Nat :=
  (List.range r.count).flatMap fun i => (List.range ((r.last - r.first) / 8 + 1)).map fun k => r.base + i * r.stride + r.first + 8 * k

/-- The counter ranges of a cluster, in the order of R552, by offset in its window. -/
def clusterRanges : List CRange :=
  [⟨0xF000000, 16, 0x1000, 0x100, 0x148⟩, ⟨0xF100000, 16, 0x1000, 0x200, 0x230⟩, ⟨0xF110000, 3, 0x1000, 0x200, 0x220⟩,
   ⟨0xF200000, 16, 0x1000, 0x100, 0x140⟩, ⟨0xF300000, 1, 0, 0x100, 0x120⟩, ⟨0xF400000, 1, 0, 0x100, 0x138⟩,
   ⟨0xF500000, 2, 0x1000, 0x100, 0x130⟩, ⟨0xF600000, 1, 0, 0x800, 0x830⟩, ⟨0xF700000, 1, 0, 0x100, 0x198⟩,
   ⟨0xF800000, 1, 0, 0x800, 0x848⟩, ⟨0xF900000, 1, 0, 0xC00, 0xC60⟩, ⟨0xFA00000, 1, 0, 0x100, 0x140⟩,
   ⟨0xFB00000, 1, 0, 0x100, 0x118⟩]

/-- The counter ranges of the device-level blocks, in the order of R552. -/
def deviceRanges : List CRange :=
  [⟨0xFE00000000, 1, 0, 0x800, 0x840⟩, ⟨0xFE01000000, 2, 0x100, 0x100, 0x128⟩, ⟨0xFE01000000, 4, 0x20, 0x400, 0x410⟩,
   ⟨0xFE02000000, 1, 0, 0xC0, 0x100⟩, ⟨0xFE02001000, 24, 0x100, 0x08, 0x48⟩, ⟨0xFE03004000, 8, 0x100, 0x00, 0x78⟩,
   ⟨0xFE04000000, 229, 0x10, 0x08, 0x08⟩, ⟨0xFE04001000, 1, 0, 0x10, 0x10⟩, ⟨0xFE04001800, 98, 0x10, 0x00, 0x08⟩,
   ⟨0xFE06000000, 1, 0, 0x100, 0x120⟩, ⟨0xFE07000000, 1, 0, 0x100, 0x108⟩]

/-- A cluster's 521 counters in the order of its area, by offset in its window. -/
def clusterCtrs : List Nat := clusterRanges.flatMap CRange.addrs

/-- The 819 counters of the device area in order, by device address. -/
def deviceCtrs : List Nat := deviceRanges.flatMap CRange.addrs

/-- Is a device address that of a counter? -/
def isCtr (a : Nat) : Bool :=
  match locate a with
  | .creg c => clusterCtrs.contains (a - winBase c)
  | .dreg => deviceCtrs.contains a
  | _ => false

/-- Every counter as it stands: what a write of PC_SNAP latches (R547). -/
def State.counters (s : State) : List (Nat × DWord) := s.regs.filter fun e => isCtr e.1

/-! ## Records (R550 to R552) -/

/-- A record of 64 bytes with its sequence word at both ends. -/
def ctrRecord (seq : Nat) (payload : List Byte) : List Byte := leBytes 4 seq ++ fit 56 payload ++ leBytes 4 seq

/-- Counter values, seven to a record. -/
def ctrRecords (seq : Nat) (vs : List DWord) : List Byte :=
  (List.range ((vs.length + 6) / 7)).flatMap fun i =>
    ctrRecord seq (((vs.drop (7 * i)).take 7).flatMap fun v => leBytes 8 v.toNat)

/-- The counters of a cluster area from latched values. -/
def clusterValues (m : List (Nat × DWord)) (c : Nat) : List DWord := clusterCtrs.map fun o => mget m (winBase c + o)

/-- The counters of the device area, where the reader is a port: those of the other ports read zero (R552). -/
def deviceValues (m : List (Nat × DWord)) (port : Option Nat) : List DWord :=
  deviceCtrs.map fun a =>
    match port with
    | some n => if 0xFE03004000 ≤ a ∧ a < 0xFE03004800 ∧ (a - 0xFE03004000) / 0x100 ≠ n then 0 else mget m a
    | none => mget m a

/-- The header record of an area: STATE, the cluster, and the window or pass number of its values. -/
def areaHeader (seq state c number : Nat) : List Byte := ctrRecord seq (leBytes 1 state ++ leBytes 1 c ++ leBytes 2 0 ++ leBytes 8 number)

/-- An area: its header and its counter records. -/
def area (seq state c number : Nat) (vs : List DWord) : List Byte := areaHeader seq state c number ++ ctrRecords seq vs

/-- The window length in µs. -/
def State.winUs (s : State) : Nat := if s.pcs.win = 0 then 1000 else s.pcs.win

/-- The header of a mirror, or of the rake image, which has a pass number and a cause. -/
def State.ctrHeader (s : State) (us number frame cause : Nat) : List Byte :=
  ctrRecord number (leBytes 4 us ++ leBytes 8 number ++ leBytes 8 frame ++ leBytes 8 (s.val .PC_SKIP []) ++
    leBytes 1 (if s.isSplit then 1 else 0) ++ leBytes 1 cause)

/-! ## The window end (R546 to R551) -/

/-- A derived record: A and B in bytes, and in MB/s, over a window of `us` µs. -/
def derived (seq us a b : Nat) : List Byte :=
  ctrRecord seq (leBytes 4 (a / us) ++ leBytes 4 (b / us) ++ leBytes 4 0 ++ leBytes 8 a ++ leBytes 8 b)

/-- A counter's rise over the last window; one that has restarted counts from zero. -/
def State.delta (s : State) (r : Reg) (idx : List Nat) : Nat :=
  let a := (mget s.pcs.snap (r.addr idx)).toNat
  let b := (mget s.pcs.prev (r.addr idx)).toNat
  if b ≤ a then a - b else a

/-- The derived records of R551 for the reader port n. -/
def State.derivedAll (s : State) (n seq us : Nat) : List Byte :=
  ((List.range 8).flatMap fun i =>
    if i = n then derived seq us (64 * s.delta .GP_HRD [i]) (64 * s.delta .GP_HWR [i]) else derived seq us 0 0) ++
  ((List.range 24).flatMap fun i => derived seq us (64 * s.delta .DM_RDB [i]) (64 * s.delta .DM_WRB [i])) ++
  ((List.range 2).flatMap fun i => derived seq us (64 * s.delta .SM_TBEATS [i]) (16 * s.delta .SM_EVX [i]))

/-- The ports that keep a counter mirror (R548, R550). -/
def State.mirrorPorts (s : State) : List Nat := (List.range 8).filter fun n => s.portOn n && s.bit .GP_PCFG [n] GP_PCFG_CMIR

/-- WINDOW_END (R547 to R549): the counters are latched, the derived records written, and a full write starts or is skipped. The window
that ends has the number PC_WINNO reads, and the next one the number after it; PC_TT has risen by its length (log entry 60). -/
def State.windowEnd (s : State) : State :=
  let us := s.winUs
  let k := s.val .PC_WINNO []
  let s := s.modPcs fun p => { p with prev := p.snap, snap := s.counters, win := s.fld .PC_WIN [] PC_WIN_WINUS }
  let s := s.each s.mirrorPorts fun s n => s.stagPoke n 0xF00040 (s.derivedAll n k us)
  let s := if s.pcs.busy then s.bump .PC_SKIP []
    else (s.modPcs fun p => { p with busy := true, mwin := k, mus := us, mframe := s.val .TL_FRAME [0], msnap := p.snap }).setFld .PC_STATUS [] PC_STATUS_MIRBUSY 1
  (s.setVal .PC_WINNO [] (k + 1)).bump .PC_TT [] (400 * us)

/-- One cluster area of a port's mirror (R552): current; kept, with STATE 1; or zero with STATE 2, a cluster of another partition. -/
def State.mirrorCluster (s : State) (n c : Nat) : State :=
  let k := s.pcs.mwin
  let o := 0xF10000 + c * 0x2000
  if (s.partOfCluster c).isNone || s.partOfCluster c != s.partOfPort n then s.stagPoke n o (areaHeader k 2 c 0 ++ List.replicate 4800 0)
  else if !s.domOn c || (s.isSplit && halfOf c != gpHalf n) then
    s.stagPoke n o (areaHeader k 1 c (leNat (s.stagPeek n (o + 8) 8)))
  else s.stagPoke n o (area k 0 c k (clusterValues s.pcs.msnap c))

/-- The full mirror of a port; in the split state the device area of an east port keeps its values (R559). -/
def State.mirrorPort (s : State) (n : Nat) : State :=
  let k := s.pcs.mwin
  let s := s.stagPoke n 0xF00000 (s.ctrHeader s.pcs.mus k s.pcs.mframe 0)
  let s := s.each (List.range 96) fun s c => s.mirrorCluster n c
  if s.isSplit && gpHalf n == 1 then s.stagPoke n 0xFD0000 (areaHeader k 1 0 (leNat (s.stagPeek n 0xFD0008 8)))
  else s.stagPoke n 0xFD0000 (area k 0 0 k (deviceValues s.pcs.msnap (some n)))

/-- COUNTER_MIRROR_WRITE_DONE (R549). -/
def State.mirrorDone (s : State) : State :=
  if !s.pcs.busy then s
  else ((s.each s.mirrorPorts fun s n => s.mirrorPort n).modPcs fun p => { p with busy := false, msnap := [] }).setFld
    .PC_STATUS [] PC_STATUS_MIRBUSY 0

/-- A write of PC_WIN (R546, R560). -/
def State.pcWinWrite (s : State) (v : Nat) (req : Requester) : Nat × State :=
  let us := v % 2 ^ 20
  if !s.pwWriter req none || us == 0 || decide (us > 1000000) then
    (0x1101, (s.setFld .PC_STATUS [] PC_STATUS_REASON 0x1101).post none 9 0 0xFFFF 0x1101)
  else (0, s.setFld .PC_WIN [] PC_WIN_WINUS us)

/-! ## The rake (R553, R554) -/

def rakeBase : Nat := 0xFE07100000

/-- A point at which the steward runs a pass: its cause, and the one cluster to read plus one. -/
def State.rake (s : State) (cause one : Nat) : State :=
  (s.modPcs fun p => { p with rakes := p.rakes ++ [(cause, one)] }).setFld .PC_STATUS [] PC_STATUS_RAKING 1

/-- A write of PC_RAKE (R554, R560): a GO during a pass is ignored. -/
def State.rakeWrite (s : State) (v : Nat) (req : Requester) : Nat × State :=
  if !s.pwWriter req none then (0x1101, (s.setFld .PC_STATUS [] PC_STATUS_REASON 0x1101).post none 9 0 0xFFFF 0x1101)
  else if v % 2 = 1 ∧ s.pcs.rakes = [] then (0, s.rake 3 0)
  else (0, s)

/-- One cluster's area of the rake image: as it stands, or kept with STATE 1 when the cluster is not reached. -/
def State.rakeCluster (s : State) (k : Nat) (lost : List Nat) (c : Nat) : State :=
  let o := rakeBase + 0x10000 + c * 0x2000
  if !s.domOn c || lost.contains c then s.poke o (areaHeader k 1 c (s.peekLE (o + 8) 8))
  else s.poke o (area k 0 c k (clusterValues s.regs c))

/-- RAKE_PASS_DONE (R553, R554), with the clusters the control network could not reach. -/
def State.rakeDone (s : State) (lost : List Nat) : State :=
  match s.pcs.rakes with
  | [] => s
  | (cause, one) :: rest =>
    let k := s.val .PC_RAKES []
    let cs := if one = 0 then List.range 96 else [one - 1]
    let missed := cs.filter lost.contains
    let s := s.poke rakeBase (s.ctrHeader s.winUs k (s.val .TL_FRAME [0]) cause)
    let s := s.each cs fun s c => s.rakeCluster k lost c
    let s := if one = 0 then s.poke (rakeBase + 0xD0000) (area k 0 0 k (deviceValues s.regs none)) else s
    let s := s.each missed fun s c => (s.setFld .PC_STATUS [] PC_STATUS_REASON 0x1105).post none 9 c c 0x1105
    ((s.modPcs fun p => { p with rakes := rest }).setFld .PC_STATUS [] PC_STATUS_RAKING (if rest = [] then 0 else 1)).bump .PC_RAKES []

end Sys2Proof.Machine
end

