-- ==== Sys2Proof/Machine/Reset.lean ====
section
/-! DEFINITION. Resets and runtime BIST (R509 to R515, R517). A reset's effects are applied when it starts; it ends with RESET_COMPLETE
(log entry 34). -/

namespace Sys2Proof.Machine

/-! ## Scopes (R509) -/

/-- Is a TARGET of a scope reserved (R509, R519)? -/
def rstReserved (scope t : Nat) : Bool :=
  if scope = 0 then (coordCluster t).isNone || decide (coordSlot t ≥ 19)
  else if scope = 1 then decide (t ≥ 96)
  else if scope = 2 then decide (t ≥ 8)
  else t != 0

/-- The partition a scope lies in; none for the device or for a cluster of no partition. -/
def State.rstPart (s : State) (scope t : Nat) : Option Nat :=
  if scope = 0 then (coordCluster t).bind s.partOfCluster
  else if scope = 1 then s.partOfCluster t
  else if scope = 2 then some t
  else none

/-- May a requester write BU_RST for a scope (R509)? -/
def State.rstWriter (s : State) (scope t : Nat) (req : Requester) : Bool :=
  match req with
  | .steward _ => true
  | .resident => true
  | .port n => if scope = 3 then s.isAdmin n.val else (s.rstPart scope t).isSome && s.rstPart scope t == s.partOfPort n.val
  | .engine _ _ => false

/-- The clusters a reset's scope reaches; a partition that is not enabled has none. -/
def State.rstClusters (s : State) (r : Rst) : List Nat :=
  if r.scope = 0 then (match coordCluster r.target with | some c => [c] | none => [])
  else if r.scope = 1 then [r.target]
  else if s.bit .GP_PART_CFG [r.target] GP_PART_CFG_EN then s.partClusters r.target
  else []

/-- The switched domains in a reset's scope (R470). -/
def State.rstDomains (s : State) (r : Rst) : List Nat :=
  let cs := s.rstClusters r
  if r.scope = 0 then cs.flatMap fun c => if coordSlot r.target = 18 then [c, 96 + c] else [c]
  else (cs.flatMap fun c => [c, 96 + c]) ++
    (if r.scope = 2 then ((List.range 24).filter fun ch => s.regionUses r.target ch).map (196 + ·) ++
      ((List.range 8).filter fun n => s.partOfPort n == some r.target).map (220 + ·) else [])

/-- The domains of the running reset that are not ON wake, once a transition they are in has completed (R470, R490). -/
def State.rstWakes (s : State) : State :=
  match s.rsts with
  | [] => s
  | r :: _ => s.each (s.rstDomains r) fun s n => if s.fld .PW_STAT [n] PW_STAT_STATE = 3 then s else s.wakeDomain n 5

/-! ## Runtime BIST (R513 to R515) -/

def State.bistState (s : State) (c : Nat) : Nat := s.fld .BU_BISTSTAT [c] BU_BISTSTAT_STATE
def State.setBist (s : State) (c x : Nat) : State := s.setFld .BU_BISTSTAT [c] BU_BISTSTAT_STATE x
def State.bistRuns (s : State) (c : Nat) : Bool := decide (1 ≤ s.bistState c) && decide (s.bistState c ≤ 4)

/-- A code posted in BU_BISTSTATc.REASON and in the logs (R520). -/
def State.bistPost (s : State) (c code : Nat) : State :=
  (s.setFld .BU_BISTSTAT [c] BU_BISTSTAT_REASON code).post (s.partOfCluster c) 9 c c code

/-- The BIST caps of a half and its voltage (R475, R514): 1.6 GHz for a tested cluster, the cap of 0.75 V for the others; none once no
test runs there. -/
def State.bistCaps (s : State) (h : Nat) : State :=
  let on := s.bistIn h
  let cap := s.bistCap h
  let s := s.each (halfClusters h) fun s c =>
    (s.modClk c fun k => { k with bist := if !on then 0 else if s.bistRuns c then 16 else cap }).clkUpdate c
  s.vidUpdate h

/-- The groups with an enabled group-map entry or a bound engine in a cluster (R513). -/
def State.groupsOf (s : State) (c : Nat) : List Nat :=
  (List.range 256).filter fun g => (s.enginesOf g).any fun e => decide (e < 0x1000) && eidCluster e == c

/-- The preconditions of R513 beside the writer. -/
def State.bistReady (s : State) (c : Nat) : Bool :=
  ((s.groupsOf c).all fun g => s.wgState g == wsHalted || s.wgState g == wsDisabled) &&
  !(clusterTks c).any s.tkOn &&
  !([0, 1, 2].any fun e => s.bit .SY_SINK_CFG [c, e] SY_SINK_CFG_EN || s.bit .SY_EMIT_CFG [c, e] SY_EMIT_CFG_EN) &&
  !((List.range 64).any fun h => s.bit .MQ_SH_CFG [c, h] MQ_SH_CFG_EN) &&
  !s.mxBusy c

def bistBytes : Nat := 17825792

/-- A write of BU_BIST_CTRL (R513): its code and the state. A request for a cluster under test leaves the test as it is (log entry 35). -/
def State.bistWrite (s : State) (v : Nat) (req : Requester) : Nat × State :=
  let c := v % 128
  if c ≥ 96 then (0x0F02, s.post none 9 c 0xFFFF 0x0F02)
  else
    let fail (code : Nat) : Nat × State := (code, s.bistPost c code)
    let base := s.val .BU_BIST_SAVE [c]
    if !s.rstWriter 1 c req then fail 0x0F01
    else if s.bistRuns c then (0, s)
    else if !s.bistReady c then fail 0x0F21
    else if !(match s.partOfCluster c with | some p => s.inRegion p base bistBytes | none => false) then fail 0x0F22
    else
      let off := s.fld .PW_STAT [c] PW_STAT_STATE == 2
      let s := (s.setBist c 1).setFld .BU_BISTSTAT [c] BU_BISTSTAT_REASON 0
      let s := s.modBist c fun b => { b with off := off, saved := [] }
      let s := (s.wakeDomain c 6).wakeDomain (96 + c) 6
      (0, s.bistCaps (halfOf c))

/-- The arrays of a cluster in the order of the save area (log entry 36): core stores, local stores, operand buffers, banks. -/
def clusterArrays (c : Nat) : List (Nat × Nat) :=
  ((List.range 16).map fun n => (coreAddr c n 0, 0xC0000)) ++ [(vcAddr c 0 0, 0x20000), (vcAddr c 1 0, 0x20000), (mxAddr c 0, 0x80000),
   (bankAddr c 0, 0x400000)]

/-- A range of memory copied to another; only the listed bytes are visited. -/
def State.memCopy (s : State) (src dst n : Nat) : State :=
  let es := s.mem.filter fun e => decide (src ≤ e.1) && decide (e.1 < src + n)
  (s.wipe dst n).each es fun s e => { s with mem := mput s.mem (e.1 - src + dst) e.2 }

/-- Free bytes (log entry 1). -/
def State.freeBytes (s : State) (n : Nat) : List Byte × State :=
  ((List.range n).map fun i => (Config.freeValue (s.fresh + i)).setWidth 8, { s with fresh := s.fresh + n })

/-- SAVING: the arrays go to the save area, the registers after them, in a layout the spec does not give (log entry 36). -/
def State.bistSave (s : State) (c : Nat) : State :=
  let base := s.val .BU_BIST_SAVE [c]
  let r := (clusterArrays c).foldl (fun (x : State × Nat) a => (x.1.memCopy a.1 x.2 a.2, x.2 + a.2)) (s, base)
  let f := r.1.freeBytes 0x40000
  (f.2.poke r.2 f.1).modBist c fun b => { b with saved := s.regs.filter fun e => clusterReg c e.1 }

/-- RESTORING: the arrays are wiped and the save copied back. -/
def State.bistRestore (s : State) (c : Nat) : State :=
  let base := s.val .BU_BIST_SAVE [c]
  let saved := (s.getBist c).saved
  let r := (clusterArrays c).foldl (fun (x : State × Nat) a => (x.1.memCopy x.2 a.1 a.2, x.2 + a.2)) (s, base)
  let s := r.1.clusterRegs c
  s.each saved fun s e => { s with regs := mput s.regs e.1 e.2 }

/-- The engines count as in reset (R511, R514): their queues and contexts are gone; what a core knows of its parameter sets stays. -/
def State.bistQueues (s : State) (c : Nat) : State :=
  let mine (e : Nat) : Bool := decide (e < 768) && e / 8 == c
  let s := ((s.xferDrop mine).arbDrop mine).mqDown c none
  s.each (List.range 19) fun s k =>
    if k < 16 then
      let ok := (s.getNc c k).psetOk
      (s.engineQueues c k).modNc c k fun n => { n with psetOk := ok }
    else s.engineQueues c k

/-- A domain that was OFF before its test goes back to OFF (R513). -/
def State.bistBack (s : State) (c : Nat) : State :=
  if !(s.getBist c).off then s
  else
    let s := ((s.setFld .PW_REQ [c] PW_REQ_TARGET 2).setFld .PW_REQ [96 + c] PW_REQ_TARGET 2).modBist c fun b => { b with off := false }
    (s.domStep (96 + c)).domStep c

/-- A failing test (R515): the cluster is held, wiped and fenced, its groups take 0x0F81, and the learning sets with a core in it are
disabled (R194). -/
def State.bistFail (s : State) (c : Nat) : State :=
  let gs := s.groupsOf c
  let s := ((s.setBist c 6).bistPost c 0x0F81).bump .BU_BISTFAIL []
  let s := s.each gs fun s g => (s.setFld .WG_STATUS [g] WG_STATUS_REASON 0x0F81).post (some (s.wgPart g)) 1 g c 0x0F81
  let s := ((s.setsReset fun x => x.1 == c).clusterLose c).setVal .EF_FENCE [c] (2 ^ 19 - 1)
  let s := s.modBist c fun _ => { held := true }
  (s.bistCaps (halfOf c)).rake 1 (c + 1)

/-- A test that ends well: the caps are released, and a held cluster leaves its hold wiped, with its fences cleared (R515). -/
def State.bistPass (s : State) (c : Nat) : State :=
  let held := (s.getBist c).held
  let s := s.setBist c 5
  let s := if held then ((s.clusterLose c).setVal .EF_FENCE [c] 0).modBist c fun b => { b with held := false } else s
  let s := (s.bistCaps (halfOf c)).bistBack c
  (s.modBist c fun b => { b with saved := [] }).rake 1 (c + 1)

/-- BIST_STEP_DONE (R514, R515): the step under way ends, well or not. -/
def State.bistStep (s : State) (c : Nat) (ok : Bool) : State :=
  let st := s.bistState c
  let b := s.getBist c
  if st = 1 then
    if !ok then ((s.setBist c 0).bistPost c 0x0F23).bistCaps (halfOf c) |>.bistBack c
    else if !s.bit .CK_VID [halfOf c] CK_VID_OK || !s.domOn c then s
    else
      let s := s.bump .BU_BISTRUN []
      if b.off || b.held then (s.bistQueues c).setBist c 3 else ((s.rake 1 (c + 1)).bistQueues c).setBist c 2
  else if st = 2 then (s.bistSave c).setBist c 3
  else if st = 3 then
    if !ok then s.bistFail c
    else if b.off || b.held then ((s.clusterStores c).setBist c 4).bistPass c
    else s.setBist c 4
  else if st = 4 then (s.bistRestore c).bistPass c
  else s

/-- A reset during runtime BIST stops the test, with nothing restored (R517). -/
def State.bistStop (s : State) (c : Nat) : State :=
  if s.bistRuns c then ((s.setBist c 0).modBist c fun b => { b with saved := [], off := false }).bistCaps (halfOf c) else s

/-! ## Running resets (R509 to R512) -/

/-- A code posted in BU_RSTSTAT.REASON and in the logs (R520). -/
def State.rstPost (s : State) (part : Option Nat) (scope code : Nat) : State :=
  (s.setFld .BU_RSTSTAT [] BU_RSTSTAT_REASON code).post part 9 scope 0xFFFF code

/-- A reset starts: a test in its clusters stops, the challenge is discarded (R536), its domains wake, and its scope is wiped. -/
def State.rstStart (s : State) (r : Rst) : State :=
  let s := s.each (s.rstClusters r) fun s c => s.bistStop c
  let s := ((s.setFld .BU_RSTSTAT [] BU_RSTSTAT_BUSY 1).modSec fun k => { k with challenge := none }).rstWakes
  if r.scope = 0 then
    match coordCluster r.target with
    | some c => (s.bump .BU_RSTCORE []).coreWipe c (coordSlot r.target)
    | none => s
  else if r.scope = 1 then (s.bump .BU_RSTCLUS []).clusterWipe r.target 0x0F80
  else if s.bit .GP_PART_CFG [r.target] GP_PART_CFG_EN then (s.bump .BU_RSTPART []).partWipe r.target
  else s.bump .BU_RSTPART []

/-- A reset joins the queue, and starts when none runs (R509). -/
def State.rstQueue (s : State) (r : Rst) : State :=
  let idle := s.rsts == []
  let s := { s with rsts := s.rsts ++ [r] }
  if idle then s.rstStart r else s

/-- RESET_COMPLETE (R509, R470): the running reset ends once its domains are ON; they go where PW_REQn names, and the next reset starts. -/
def State.rstDone (s : State) : State :=
  match s.rsts with
  | [] => s
  | r :: rest =>
    if !(s.rstDomains r).all s.domOn then s.rstWakes
    else
      let part := s.rstPart r.scope r.target
      let doms := s.rstDomains r
      let s := ((s.setFld .BU_RSTSTAT [] BU_RSTSTAT_BUSY 0).setFld .BU_RSTSTAT [] BU_RSTSTAT_SCOPE r.scope).rstPost part r.scope 0x0F30
      let s := { s with rsts := rest }
      let s := s.each doms.reverse fun s n => s.domReturn n
      match rest with
      | [] => s
      | q :: _ => s.rstStart q

/-! ## Device resets (R508, R510, R517, R539, R569) -/

/-- What a start keeps: the keep store's pages, roots and keys, the fuses, the flash, the pins, the training values and power-on counts of
the always-on domains, and the commands that wait. Everything else is at reset (R510). -/
def State.kept (s : State) : State :=
  { pending := s.pending, fresh := s.fresh, flash := s.flash,
    tbi := s.tbi.filterMap fun e => if e.2.pins = 0 then none else some (e.1, { pins := e.2.pins }),
    ks := { pages := s.ks.pages, roots := s.ks.roots, keys := s.ks.keys, stopped := s.ks.stopped },
    sec := { s.sec with challenge := none, rngBad := false }, pw := { page := [] },
    boot := { porst := s.boot.porst, sysrstLow := s.boot.sysrstLow, aonFault := s.boot.aonFault, aonGood := s.boot.aonGood,
              tripped := s.boot.tripped || s.pw.tripped, thermtrip := s.boot.thermtrip, resets := s.boot.resets, straps := s.boot.straps } }

/-- Is the device held in reset by its pins (R569)? -/
def State.resetHeld (s : State) : Bool := !s.boot.porst || s.boot.sysrstLow || s.boot.aonFault

/-- Phase 1 starts, unless the pins hold it (R499, R569). -/
def State.bootPhase1 (s : State) : State := if s.resetHeld then s else s.setFld .BU_STATUS [] BU_STATUS_PHASE 1

/-- A device reset (R508, R510): a commit is abandoned with its queue, all but what R510 names is at reset, and the start takes the warm
path unless it is cold, VDD_AON has left its range since phase 6 last completed, or a trip has occurred since. -/
def State.deviceReset (s : State) (cold : Bool) (cause : Nat) : State :=
  let trip := s.boot.tripped || s.pw.tripped
  let warm := !cold && s.boot.aonGood && !trip
  let k := s.kept
  let k := k.modBoot fun b => { b with cold := !warm, cause := if trip then 4 else cause, resets := b.resets + 1, tripped := false, aonGood := b.aonGood && !trip }
  let k := k.setFld .BU_STATUS [] BU_STATUS_PATH (if warm then 1 else 0)
  let k := k.setFld .PW_STATUS [] PW_STATUS_TRIPLAST (if trip then 1 else 0)
  k.bootPhase1

/-- A write of BU_RST (R509): its code and the state. -/
def State.rstWrite (s : State) (v : Nat) (req : Requester) : Nat × State :=
  let scope := v % 4
  let t := bitsOf v 12 12
  let mine := match req with | .port n => s.partOfPort n.val | _ => none
  if rstReserved scope t then (0x0F02, s.rstPost mine scope 0x0F02)
  else if !s.rstWriter scope t req then (0x0F01, s.rstPost mine scope 0x0F01)
  else if scope = 3 then (0, s.deviceReset (v.testBit 2) 2)
  else (0, s.rstQueue { scope := scope, target := t })

end Sys2Proof.Machine
end

