-- ==== Sys2Proof/Machine/Signature.lean ====
section
/-! DEFINITION. ML-DSA-87 (R521): keys from a seed, signing and verifying, pure form with an empty context string. The steps are taken from
FIPS 204; its rejection loops run over streams of bounded length (log entry 174). -/

namespace Sys2Proof.Machine

/-! ## The ring: 256 coefficients modulo q, below q -/

def dsaQ : Nat := 8380417

/-- A power of the 512th root of unity 1753. -/
def dsaZeta (e : Nat) : Nat := 1753 ^ (e % 512) % dsaQ

/-- The low eight bits of an index in reverse order. -/
def brv8 (i : Nat) : Nat := (List.range 8).foldl (fun a k => 2 * a + i / 2 ^ k % 2) 0

def polyAt (r : Nat) (w : List Nat) : Nat := w.foldr (fun c a => (c + r * a) % dsaQ) 0

/-- The values of a polynomial at the odd powers of the root, in bit-reversed order, and back. -/
def ntt (w : List Nat) : List Nat := (List.range 256).map fun i => polyAt (dsaZeta (2 * brv8 i + 1)) w
def nttInv (v : List Nat) : List Nat :=
  let u := (List.range 256).map fun k => v.getD (brv8 k) 0
  (List.range 256).map fun j => 8347681 * dsaZeta (512 - j) * polyAt (dsaZeta (1024 - 2 * j)) u % dsaQ

def polyAdd (a b : List Nat) : List Nat := a.zipWith (fun x y => (x + y) % dsaQ) b
def polySub (a b : List Nat) : List Nat := a.zipWith (fun x y => (x + dsaQ - y) % dsaQ) b
def polyMul (a b : List Nat) : List Nat := a.zipWith (fun x y => x * y % dsaQ) b
def vecAdd (a b : List (List Nat)) : List (List Nat) := a.zipWith polyAdd b
def vecSub (a b : List (List Nat)) : List (List Nat) := a.zipWith polySub b

/-- A matrix times a vector, both as values. -/
def matVec (m : List (List (List Nat))) (v : List (List Nat)) : List (List Nat) :=
  m.map fun row => (row.zip v).foldl (fun a x => polyAdd a (polyMul x.1 x.2)) (List.replicate 256 0)

/-- The residue of least size modulo m, and its code modulo q. -/
def centred (m r : Nat) : Int := if r % m > m / 2 then (r % m : Nat) - (m : Int) else (r % m : Nat)
def dsaCode (x : Int) : Nat := (x % dsaQ).toNat

/-- Does every coefficient have a size below a bound? -/
def normBelow (b : Nat) (v : List (List Nat)) : Bool := v.all fun w => w.all fun r => decide ((centred dsaQ r).natAbs < b)

/-! ## Rounding and hints -/

/-- The high part of a coefficient in units of 2^13, and the low part. -/
def dsaHigh13 (r : Nat) : Nat := dsaCode ((r - centred 8192 r) / 8192)
def dsaLow13 (r : Nat) : Nat := dsaCode (centred 8192 r)

/-- The high and low parts in units of 523,776, with the topmost unit folded onto zero. -/
def decompose (r : Nat) : Nat × Int :=
  let lo := centred 523776 r
  if (r : Int) - lo = dsaQ - 1 then (0, lo - 1) else (((r - lo) / 523776).toNat, lo)

def highBits (v : List (List Nat)) : List (List Nat) := v.map fun w => w.map fun r => (decompose r).1

/-- The high part that a hint corrects. -/
def useHint (h : Bool) (r : Nat) : Nat :=
  let x := decompose r
  if !h then x.1 else if x.2 > 0 then (x.1 + 1) % 16 else (x.1 + 15) % 16

/-! ## Encodings -/

/-- 256 values of some bits each as bytes, and back. -/
def packBits (bits : Nat) (w : List Nat) : List Byte := leBytes (32 * bits) (w.foldr (fun v a => v + 2 ^ bits * a) 0)
def unpackBits (bits : Nat) (bs : List Byte) : List Nat := let n := leNat bs; (List.range 256).map fun i => n / 2 ^ (bits * i) % 2 ^ bits

/-- A coefficient of a mask or response: 2^19 less its 20-bit code. -/
def maskCoef (v : Nat) : Nat := dsaCode (2 ^ 19 - (v : Int))
def maskBits (r : Nat) : Nat := (2 ^ 19 - centred dsaQ r).toNat

/-- The hints of eight polynomials in 83 bytes: the indices set, and where each polynomial's end. -/
def packHint (h : List (List Bool)) : List Byte :=
  let idx := h.map fun p => (List.range 256).filter fun j => p.getD j false
  let ends := (List.range 8).map fun i => (idx.take (i + 1)).flatten.length
  let all := idx.flatten
  (all ++ List.replicate (75 - all.length) 0 ++ ends).map (BitVec.ofNat 8)

/-- The hints of 83 bytes; none where the encoding is not the one `packHint` gives. -/
def unpackHint (bs : List Byte) : Option (List (List Bool)) :=
  let y := bs.map BitVec.toNat
  let ends := y.drop 75
  let h := (List.range 8).map fun i =>
    let lo := if i = 0 then 0 else ends.getD (i - 1) 0
    let idx := (y.take (ends.getD i 0)).drop lo
    (List.range 256).map fun j => idx.contains j
  if packHint h = bs then some h else none

/-! ## Sampling -/

/-- The matrix of a seed, as values: 8 rows of 7. -/
def expandA (rho : List Byte) : List (List (List Nat)) :=
  (List.range 8).map fun r => (List.range 7).map fun c =>
    (((parts 336 3 (shake128 (rho ++ leBytes 1 c ++ leBytes 1 r) 1008)).map fun b => leNat b % 2 ^ 23).filter (· < dsaQ)).take 256

/-- A short polynomial: each half byte below 15 gives 2 less its residue modulo 5. -/
def expandShort (rho : List Byte) (r : Nat) : List Nat :=
  ((((shake256 (rho ++ leBytes 2 r) 544).flatMap fun b => [b.toNat % 16, b.toNat / 16]).filter (· < 15)).map
    fun v => dsaCode (2 - ((v % 5 : Nat) : Int))).take 256

def expandMask (rho : List Byte) (k : Nat) : List (List Nat) :=
  (List.range 7).map fun r => (unpackBits 20 (shake256 (rho ++ leBytes 2 (k + r)) 640)).map maskCoef

/-- The challenge of 60 coefficients of size one: each place takes the next byte of the stream that does not exceed it. -/
def sampleBall (seed : List Byte) : List Nat :=
  let s := shake256 seed 272
  let signs := leNat (s.take 8)
  ((List.range 60).foldl (fun (x : List Nat × List Byte) k =>
    let i := 196 + k
    let rest := x.2.dropWhile fun b => decide (b.toNat > i)
    let j := (rest.headD 0).toNat
    ((x.1.set i (x.1.getD j 0)).set j (if signs.testBit k then dsaQ - 1 else 1), rest.drop 1)) (List.replicate 256 0, s.drop 8)).1

/-! ## Keys, signing and verifying -/

/-- What a key pair is made of. -/
structure DsaKey where
  rho : List Byte
  key : List Byte
  s1 : List (List Nat)
  s2 : List (List Nat)
  t : List (List Nat)

def dsaKey (seed : List Byte) : DsaKey :=
  let h := shake256 (seed ++ [8, 7]) 128
  let rho := h.take 32
  let short := (h.drop 32).take 64
  let s1 := (List.range 7).map fun r => expandShort short r
  let s2 := (List.range 8).map fun r => expandShort short (7 + r)
  { rho := rho, key := h.drop 96, s1 := s1, s2 := s2, t := vecAdd ((matVec (expandA rho) (s1.map ntt)).map nttInv) s2 }

/-- The public key of a seed: 2,592 bytes. -/
def mldsaPublic (seed : List Byte) : List Byte :=
  let k := dsaKey seed
  k.rho ++ k.t.flatMap fun w => packBits 10 (w.map dsaHigh13)

/-- What is signed: the digest, its message prefix and the public key, in 64 bytes. -/
def dsaMessage (pub msg : List Byte) : List Byte := shake256 (shake256 pub 64 ++ [0, 0] ++ msg) 64

/-- The commitment's digest, from which the challenge is made. -/
def dsaDigest (mu : List Byte) (w1 : List (List Nat)) : List Byte := shake256 (mu ++ w1.flatMap (packBits 4)) 64

/-- One attempt to sign with the masks from k on; none where it is rejected. -/
def dsaTry (key : DsaKey) (mu rho : List Byte) (k : Nat) : Option (List Byte) :=
  let y := expandMask rho k
  let w := (matVec (expandA key.rho) (y.map ntt)).map nttInv
  let ch := dsaDigest mu (highBits w)
  let c := ntt (sampleBall ch)
  let times (v : List (List Nat)) := v.map fun p => nttInv (polyMul c (ntt p))
  let z := vecAdd y (times key.s1)
  let r := vecSub w (times key.s2)
  let t0 := times (key.t.map fun p => p.map dsaLow13)
  let v := vecAdd r t0
  let h := r.zipWith (fun a b => a.zipWith (fun x y => (decompose x).1 != (decompose y).1) b) v
  if !normBelow (2 ^ 19 - 120) z || !(r.all fun p => p.all fun x => decide ((decompose x).2.natAbs < 261888 - 120)) || !normBelow 261888 t0 ||
      decide ((h.flatten.filter id).length > 75) then none
  else some (ch ++ (z.flatMap fun p => packBits 20 (p.map maskBits)) ++ packHint h)

def dsaLoop (key : DsaKey) (mu rho : List Byte) : Nat → Nat → List Byte
  | 0, _ => []
  | n + 1, k => match dsaTry key mu rho k with | some sig => sig | none => dsaLoop key mu rho n (k + 7)

/-- The signature of a message, hedged by 32 random bytes: 4,627 bytes. -/
def mldsaSign (seed msg random : List Byte) : List Byte :=
  let key := dsaKey seed
  let mu := dsaMessage (mldsaPublic seed) msg
  dsaLoop key mu (shake256 (key.key ++ random ++ mu) 64) 1000 0

/-- Is a signature of 4,627 bytes valid for a message under a public key of 2,592 bytes? -/
def mldsaVerify (pub msg sig : List Byte) : Bool :=
  let t := (parts 8 320 (pub.drop 32)).map fun b => (unpackBits 10 b).map (8192 * ·)
  let ch := sig.take 64
  let z := (parts 7 640 (sig.drop 64)).map fun b => (unpackBits 20 b).map maskCoef
  match unpackHint (sig.drop 4544) with
  | none => false
  | some h =>
    let c := ntt (sampleBall ch)
    let w := (vecSub (matVec (expandA (pub.take 32)) (z.map ntt)) (t.map fun p => polyMul c (ntt p))).map nttInv
    let w1 := h.zipWith (fun a b => a.zipWith useHint b) w
    pub.length == 2592 && sig.length == 4627 && normBelow (2 ^ 19 - 120) z && ch == dsaDigest (dsaMessage pub msg) w1

end Sys2Proof.Machine
end

