-- ==== Sys2Proof/Machine/Access.lean ====
section
/-! DEFINITION. Register accesses (R8 to R15): widths, latches, access codes, who may write what, what is locked while a unit is enabled,
and what a write starts. A write answers a code, 0 where none is posted, and the state. -/

namespace Sys2Proof.Machine

/-! ## Where a register is, and whether it answers -/

/-- The instance that holds a register's value: KS_ registers of a partition, and the frame count of a half, are read in every cluster's
block. None: no partition (R196). -/
def State.homeIdx (s : State) (r : Reg) (idx : List Nat) : Option (List Nat) :=
  match r with
  | .KS_STAGE | .KS_STATUS | .KS_GEN | .KS_GEPOCH | .KS_PAGES => (s.partOfCluster (idx.getD 0 0)).map fun p => [p]
  | .TL_FRAME => some [halfOf (idx.getD 0 0) * 48]
  | _ => some idx

/-- The domain a register's block lies in (R15, R22, R43, R465); none: always on. GP_MAP stays with the steward, which powers the port
it binds (log entry 37). -/
def regDomain (a : Nat) : Option Nat :=
  match locate a with
  | .creg c =>
    let o := a - winBase c
    if (0xF700000 ≤ o ∧ o < 0xF900000) ∨ 0xFB00000 ≤ o then some (192 + halfOf c) else some c
  | .dreg =>
    if 0xFE08000000 ≤ a then some 228
    else if 0xFE03001000 ≤ a ∧ a < 0xFE03002000 then (if a % 0x200 < 4 then none else some (220 + (a - 0xFE03001000) / 0x200))
    else if 0xFE03004000 ≤ a ∧ a < 0xFE03004800 then some (220 + (a - 0xFE03004000) / 0x100)
    else if 0xFE03800000 ≤ a ∧ a < 0xFE03808000 then some (220 + (a - 0xFE03800000) / 0x1000)
    else none
  | _ => none

/-- Does the block that holds an address answer (R15)? -/
def State.regUp (s : State) (a : Nat) : Bool := match regDomain a with | some n => s.domOn n | none => true

/-! ## Reading -/

/-- The fields of SC_STATUS, SC_OWNSLOT and SC_LC that follow the fuses (R533, R541, R542). -/
def Sec.count (x : Sec) : Nat := ((List.range 32).find? fun i => !x.lc.testBit i).getD 32
def Sec.state (x : Sec) : Nat :=
  let n := x.count
  if x.lc.testBit 31 ∨ n ≥ 31 then 4 else if n = 0 then 0 else if n = 1 then 1 else if n % 2 = 0 then 2 else 3
def Sec.progMask (x : Sec) : Nat := ((List.range 8).map fun k => if mget x.slots k = [] then 0 else 2 ^ k).sum

/-- A slot table entry as read (R299), and a send map entry (R305): a masked one reads zero (R448). -/
def tableEntry (m : List (Nat × Nat)) (c t : Nat) : Nat := mget m (c * 1024 + t)
def State.smapEntry (s : State) (e t : Nat) : Nat :=
  let x := mget s.smapA (e * 1024 + t)
  if x.testBit 15 then 2 ^ 15 + bitsOf x 0 10 else 0

/-- A word of a region of bytes: the ready report, the rake image, the identity and certificate digests, the slot tables and send maps
(R299, R305, R324, R507, R541, R553). -/
def State.regionWord (s : State) (r : Reg) (idx : List Nat) (off : Nat) : Nat :=
  let c := idx.getD 0 0
  match r with
  | .TL_TABLE_ACT => bitsOf (tableEntry s.slotA c (off / 16)) (8 * (off % 16)) 32
  | .TL_TABLE_INACT => bitsOf (tableEntry s.slotB c (off / 16)) (8 * (off % 16)) 32
  | .TL_SMAP => let e := c * 8 + idx.getD 1 0; s.smapEntry e (off / 2) + 2 ^ 16 * s.smapEntry e (off / 2 + 1)
  | .MQ_SEND => 0
  | .SC_DEVID => if s.sec.seed = [] then 0 else leNat (((sha3 (mldsaPublic s.sec.seed)).drop off).take 4)
  | .SC_CERTHASH => leNat ((s.sec.certhash.drop off).take 4)
  | _ => s.peekLE (r.desc.base + off) 4

/-- A register as it stands, with the fields that follow other state. -/
def State.regView (s : State) (r : Reg) (idx : List Nat) : DWord :=
  let i := idx.getD 0 0
  match r with
  | .WG_STATUS => s.wgStatusView i
  | .NC_STATUS => s.ncStatusView i (idx.getD 1 0)
  | .LR_SET_STATUS => s.lsStatusView (idx.getD 1 0)
  | .TL_STATUS => TL_STATUS_SUSP.set (TL_STATUS_QUIET.set (s.rd r idx) (if s.isQuiet (halfOf i) then 1 else 0)) (s.suspNow i)
  | .DM_CH_STATUS =>
    let st := s.fld .PW_STAT [196 + i] PW_STAT_STATE
    DM_CH_STATUS_PWR.set (s.rd r idx) (if st = 3 then (s.getDom (196 + i)).was else st)
  | .MX_STATUS => MX_STATUS_STATE.set (s.rd r idx) (s.mxStateNow i)
  | .DM_STATUS =>
    DM_STATUS_NEAST.set (DM_STATUS_NWEST.set (s.rd r idx) (s.dmList 0 12).length) (s.dmList 12 24).length
  | .SC_STATUS =>
    let x := s.sec
    let v := SC_STATUS_LCS.set (SC_STATUS_FLOOR.set (s.rd r idx) x.floor) x.state
    SC_STATUS_TESTFULL.set (SC_STATUS_RNGOK.set (SC_STATUS_IDENT.set v (if x.seed = [] then 0 else 1)) (if x.rngBad then 0 else 1))
      (if x.state = 0 ∨ (x.state = 3 ∧ x.debug) then 1 else 0)
  | .BU_STATUS => BU_STATUS_STATE.set (s.rd r idx) s.devState
  | .SC_OWNSLOT => SC_OWNSLOT_REVOKED.set (SC_OWNSLOT_PROG.set 0 s.sec.progMask) s.sec.revoked
  | .SC_LC => BitVec.ofNat 64 s.sec.count
  | _ => s.rd r idx

/-- What a read returns of a word: write-only fields and reserved bits read zero (R9, R11). -/
def readMask (r : Reg) (v : DWord) : DWord :=
  r.desc.fields.foldl (fun w f => if f.2.1 = .wo then w else f.1.set w (f.1.get v)) 0

/-- The fields that a read clears (R9). -/
def State.readClear (s : State) (r : Reg) (idx : List Nat) : State :=
  r.desc.fields.foldl (fun s f => if f.2.1 = .rc then s.setFld r idx f.1 0 else s) s

/-- The key of a latch or held word: requester and register (R13). -/
def latchKey (req : Requester) (a : Nat) : Nat := ridOf req * 2 ^ 48 + a

/-- An access to a reserved place, counted against the requesting cluster (R39). -/
def State.stray (s : State) (req : Requester) : State :=
  match req with
  | .engine c _ => s.bump .PC_STRAY [c.val]
  | .port n => s.bump .PC_STRAY [attachOf n.val]
  | _ => s

/-- A word of a host channel's producer line (R420). -/
def producerLine (a : Nat) : Bool := decide (0xFE03800000 ≤ a) && decide (a < 0xFE03808000)

/-- An access that R8 ignores for its width or alignment is counted all the same where no register lies (R39). -/
def State.ignored (s : State) (req : Requester) (a : Nat) : State :=
  if (findReg (a - a % 4)).isNone && !producerLine a then s.stray req else s

/-- An access to a register of an NC_ block is noted for its core (R114). -/
def State.regTouch (s : State) (r : Reg) (a : Nat) : State := if r.ofCore then s.coreTouch a else s

/-- A 32-bit read (R8, R9, R13, R15, R39): the word and the state. -/
def State.readWord (s : State) (req : Requester) (a : Nat) : Nat × State :=
  if a % 4 ≠ 0 then (0, s.ignored req a)
  else if producerLine a then (if s.regUp a then s.peekLE a 4 else 0, s)
  else
    match findReg a with
    | none => (0, s.stray req)
    | some (r, idx, off) =>
      if !s.regUp a then (0, s)
      else if r.desc.bytes > 8 then (s.regionWord r idx off, s)
      else
        let s := s.regTouch r a
        match s.homeIdx r idx with
        | none => (0, s)
        | some h =>
          let v := (readMask r (s.regView r h)).toNat
          if r.desc.bytes = 4 then (v % 2 ^ 32, s.readClear r h)
          else if off = 0 then
            (v % 2 ^ 32, { s with latches := mput s.latches (latchKey req a) (some (BitVec.ofNat 32 (v / 2 ^ 32))) })
          else
            match mget s.latches (latchKey req (a - 4)) with
            | some w => (w.toNat, { s with latches := mput s.latches (latchKey req (a - 4)) none })
            | none => (v / 2 ^ 32, s)

/-- A 64-bit read by one requester: the lower word and then the upper (R13). -/
def State.readDouble (s : State) (req : Requester) (a : Nat) : Nat × State :=
  let x := s.readWord req a
  let y := x.2.readWord req (a + 4)
  (x.1 + 2 ^ 32 * y.1, y.2)

/-! ## Storing -/

/-- A written value combined with the present one, field by field (R9). -/
def storeFields (fs : List (Fld × Acc × Nat)) (old v : DWord) : DWord :=
  fs.foldl (fun w f =>
    match f.2.1 with
    | .rw => f.1.set w (f.1.get v)
    | .w1s => f.1.set w (f.1.get old ||| f.1.get v)
    | .w1c => f.1.set w (f.1.get old ^^^ (f.1.get old &&& f.1.get v))
    | _ => w) old

/-- A plain write. -/
def State.store (s : State) (r : Reg) (idx : List Nat) (v : Nat) : State :=
  s.wr r idx (storeFields r.desc.fields (s.rd r idx) (BitVec.ofNat 64 v))

/-- A plain write that is ignored where a lock holds. -/
def State.storeUnless (s : State) (lock : Bool) (r : Reg) (idx : List Nat) (v : Nat) : State := if lock then s else s.store r idx v

/-- A write of a register that holds an enable bit under the check (R427): while the unit is enabled only EN = 0 acts; otherwise the
fields are stored, EN reads 0, and EN = 1 asks for the check. -/
def State.unitWrite (s : State) (u : UnitRef) (r : Reg) (idx : List Nat) (en : Fld) (v : Nat) (cmd : Option (Nat × Nat))
    (stop : State → State) : State :=
  if s.checking u then s
  else
    let want := v.testBit en.lo
    if s.bit r idx en then (if want then s else stop s)
    else
      let s := (s.store r idx v).setFld r idx en 0
      if want then s.askCheck u v cmd else s

/-- A register whose enable bit is not under the check: while it is 1, only EN = 0 acts (R154, R265). -/
def State.enWrite (s : State) (r : Reg) (idx : List Nat) (en : Fld) (v : Nat) : State :=
  if s.bit r idx en then (if v.testBit en.lo then s else s.setFld r idx en 0) else s.store r idx v

/-! ## Who may write a device-wide unit (R423, R426) -/

/-- 0x0C13: a port writes a timebase, group or schedule that is another partition's, or gives it a PART that is not its own; or a vector
core writes the TB_TARGET or WG_INSEQ of another partition's unit (R37, R50, R73; log entry 88). -/
def State.deviceUnitCode (s : State) (req : Requester) (enabled : Bool) (part : Nat) (newPart : Option Nat) : Nat :=
  match req with
  | .port n =>
    (match s.partOfPort n.val with
     | none => 0x0C13
     | some q => if (if enabled then q == part else (newPart.getD q) == q) then 0 else 0x0C13)
  | .engine c _ => if s.partOfCluster c.val == some part then 0 else 0x0C13
  | _ => 0

/-- A code of R426 goes to the logs of the writing port's partition only; it names the unit's kind and index (R430). -/
def State.writerPost (s : State) (req : Requester) (kind unit code : Nat) : State :=
  match req with
  | .port n => (match s.partOfPort n.val with | some p => s.post (some p) kind unit 0xFFFF code | none => s)
  | _ => s

/-- A write that R426 may refuse. -/
def State.underPart (s : State) (kind unit : Nat) (req : Requester) (enabled : Bool) (part : Nat) (newPart : Option Nat) (f : State → State) : Nat × State :=
  let code := s.deviceUnitCode req enabled part newPart
  if code ≠ 0 then (code, s.writerPost req kind unit code) else (0, f s)

/-- May a requester write the partition and map registers (R423): an administrative port, or the resident configuration at boot? -/
def State.mapWriter (s : State) (req : Requester) : Bool :=
  match req with
  | .port n => s.isAdmin n.val
  | .resident => s.fld .BU_STATUS [] BU_STATUS_PHASE == 9
  | .steward _ => false
  | .engine _ _ => false

/-- Is a requester a steward (R283, R286, R316, R547)? -/
def isSteward : Requester → Bool
  | .steward _ => true
  | _ => false

/-! ## Blocks -/

/-- WG_ registers are locked while the group is enabled or finishes (R49), and while its check runs. -/
def State.wgLocked (s : State) (g : Nat) : Bool := s.wgOn g || s.bit .WG_CFG [g] WG_CFG_EN || s.checking (.wg g)

/-- A write of WG_CFG (R49, R61). -/
def State.wgCfgWrite (s : State) (g v : Nat) (cmd : Option (Nat × Nat)) : State :=
  if s.checking (.wg g) then s
  else if s.bit .WG_CFG [g] WG_CFG_EN then (if v.testBit 0 then s else s.wgStop g)
  else if s.wgOn g then s
  else
    let s := (s.store .WG_CFG [g] v).setFld .WG_CFG [g] WG_CFG_EN 0
    if v.testBit 0 then s.askCheck (.wg g) v cmd else s

/-- Is a group-map entry locked: it is enabled and so is its group (R118)? -/
def State.gmapLocked (s : State) (c n e : Nat) : Bool :=
  s.bit .NC_GMAP_A [c, n, e] NC_GMAP_A_EN && s.wgOn (s.fld .NC_GMAP_A [c, n, e] NC_GMAP_A_WG)

/-- Does a core hold an enabled set (R197)? A core whose LR_CORE_CFG.EN is 0 names none (log entry 157). -/
def State.lrHeld (s : State) (c n : Nat) : Bool :=
  s.bit .LR_CORE_CFG [c, n] LR_CORE_CFG_EN && (s.getLs (s.fld .LR_CORE_CFG [c, n] LR_CORE_CFG_SET)).on

/-- Are a core's LR_ registers locked: it holds an enabled set, or one whose check runs (R197, R427)? -/
def State.lrLocked (s : State) (c n : Nat) : Bool :=
  s.lrHeld c n || (s.bit .LR_CORE_CFG [c, n] LR_CORE_CFG_EN &&
    s.checksAny fun u => match u with | .set k _ => k == s.fld .LR_CORE_CFG [c, n] LR_CORE_CFG_SET | _ => false)

/-- Does the check of a keep-store command of a partition run (R427)? -/
def State.ksChecking (s : State) (p : Nat) : Bool :=
  s.checksAny fun u => match u with | .kscmd c => s.partOfCluster c == some p | _ => false

/-- Is a set's block locked (R197, R427)? -/
def State.setLocked (s : State) (c k : Nat) : Bool :=
  s.bit .LR_SET_CFG [c, k] LR_SET_CFG_EN || s.checksAny fun u => match u with | .set j _ => j == k | _ => false

/-- Does an enabled set have this cluster among its blocks (R159)? -/
def State.inSet (s : State) (c k : Nat) : Bool := (s.getLs k).on && (s.setBlocks k).contains c

/-- A write of LR_SET_WGn (R159, R197): for an enabled set in every block, with the check of each enabled group newly marked; a group no
longer marked leaves the barrier. -/
def State.lrSetWg (s : State) (c k i v : Nat) (cmd : Option (Nat × Nat)) : State :=
  if !s.inSet c k then s.storeUnless (s.setLocked c k) .LR_SET_WG [c, k, i] v
  else
    let old := s.val .LR_SET_WG [c, k, i]
    let s := s.each ((List.range 32).filter fun b => old.testBit b && !v.testBit b) fun s b => s.barrierLeave (32 * i + b)
    let s := s.each (s.setBlocks k) fun s b => s.setVal .LR_SET_WG [b, k, i] (v % 2 ^ 32)
    s.each ((List.range 32).filter fun b => v.testBit b && !old.testBit b && s.wgOn (32 * i + b)) fun s b =>
      s.askCheck (.setwg k c (32 * i + b)) v cmd

/-- A write of KS_CMD (R186, R199): OP 0 has no effect; every other value runs the check. -/
def State.ksCmdWrite (s : State) (c v : Nat) (cmd : Option (Nat × Nat)) : State :=
  if v % 16 = 0 then s else s.askCheck (.kscmd c) (v % 2 ^ 32) cmd

/-- A write of MX_CFG (R239, R240): EN = 0 is ignored while a bind entry names an enabled group. -/
def State.mxCfgWrite (s : State) (c v : Nat) : State :=
  let held := (List.range 8).any fun n => s.bit .MX_BIND [c, n] MX_BIND_EN && s.wgOn (s.fld .MX_BIND [c, n] MX_BIND_WG)
  let s := s.setFld .MX_CFG [c] MX_CFG_PREF (bitsOf v 1 1)
  if s.bit .MX_CFG [c] MX_CFG_EN then
    (if v.testBit 0 || held then s else s.setFld .MX_CFG [c] MX_CFG_EN 0)
  else if v.testBit 0 then s.setFld .MX_CFG [c] MX_CFG_EN 1
  else s

/-- A tail write (R210, R222): it wakes a matrix subdomain that is not ON. -/
def State.mxTail' (s : State) (c v : Nat) : State :=
  let s := s.mxTailWrite c v
  if s.domOn (96 + c) then s else s.wakeDomain (96 + c) 3

/-- Is the service program of a vector core in use: an enabled set is held by a core it serves (R239)? -/
def State.svcLocked (s : State) (c v : Nat) : Bool := (List.range 16).any fun n => n / 8 == v && s.lrHeld c n

/-- A write of VX_CFG (R224, R239, R240). -/
def State.vxCfgWrite (s : State) (c v x : Nat) : State :=
  let s := if s.svcLocked c v then s else s.setFld .VX_CFG [c, v] VX_CFG_STDSVC (bitsOf x 1 1)
  if x.testBit 0 then s.vxEnable c v else s.vxDisable c v

/-- A write of a bind entry (R218, R239): ignored while it is enabled and names an enabled group. -/
def State.bindWrite (s : State) (u : UnitRef) (r : Reg) (idx : List Nat) (wg : Fld) (v : Nat) (cmd : Option (Nat × Nat)) : State :=
  if s.checking u || (s.bit r idx ⟨0, 0⟩ && s.wgOn (s.fld r idx wg)) then s
  else
    let s := (s.store r idx v).setFld r idx ⟨0, 0⟩ 0
    if v.testBit 0 then s.askCheck u v cmd else s

/-- An engine fenced by the steward (R69, R283): its queues, requests and grants with it. -/
def State.fenceAt (s : State) (c k : Nat) : State := ((s.fenceEngine c k).mqDown c (some k)).arbDrop (engEndpoint c k)

/-- A write of EF_FENCE (R283): the steward fences; anyone else's write is dropped with 0x0704. -/
def State.fenceWrite (s : State) (c v : Nat) (req : Requester) : Nat × State :=
  if isSteward req then
    (0, s.each ((List.range 19).filter fun k => v.testBit k && !s.fencedEng c k) fun s k => s.fenceAt c k)
  else (0x0704, s.post (s.partOfCluster c) 9 c c 0x0704)

/-- Is a schedule's EN = 1 ignored: it is loading, draining or broken (R325)? -/
def State.schedWrite (s : State) (n v : Nat) (cmd : Option (Nat × Nat)) : State :=
  let st := s.schState n
  if s.checking (.sched n) then s
  else if v.testBit 0 ∧ st ≠ 0 then s
  else s.unitWrite (.sched n) .TL_SCFG [0, n] TL_SCFG_EN v cmd fun s => s.schedStop n

/-- A write of a handle's address (R355). -/
def State.shLocked (s : State) (c h : Nat) : Bool := s.bit .MQ_SH_CFG [c, h] MQ_SH_CFG_EN || s.checking (.send c h)

/-- Is a channel or queue locked (R355)? -/
def State.tkLocked (s : State) (t : Nat) (u : UnitRef) : Bool := s.tkOn t || s.checking u

/-- Bits of a DM_HOLD word that a requester may write (R394). -/
def State.holdMask (s : State) (n : Nat) (req : Requester) : Nat :=
  ((List.range 32).map fun b =>
    let e := 32 * n + b
    let ok := match req with
      | .port p =>
        (match s.partOfPort p.val with
         | some q => if e < 768 then s.partOfCluster (e / 8) == some q else decide (792 ≤ e) && decide (e < 800) && s.partOfPort (e - 792) == some q
         | none => false)
      | .engine _ _ => false
      | _ => true
    if ok then 2 ^ b else 0).sum

/-- A write of DM_HOLDn: only the requester's own bits change. -/
def State.holdWrite (s : State) (n v : Nat) (req : Requester) : State :=
  let m := s.holdMask n req
  let old := s.val .DM_HOLD [n]
  s.setVal .DM_HOLD [n] ((old ^^^ (old &&& m)) ||| (v % 2 ^ 32 &&& m))

/-- A partition's registers are locked while it is enabled, being released or checked (R425, R433). -/
def State.partLocked (s : State) (p : Nat) : Bool :=
  s.bit .GP_PART_CFG [p] GP_PART_CFG_EN || s.fld .GP_PART_STATUS [p] GP_PART_STATUS_STATE == 2 || s.checking (.part p)

/-- A write of GP_PART_CFG (R423, R425): EN = 0 releases; a partition being released is not enabled again. -/
def State.partCfgWrite (s : State) (p v : Nat) (cmd : Option (Nat × Nat)) : State :=
  if s.fld .GP_PART_STATUS [p] GP_PART_STATUS_STATE = 2 then s
  else s.unitWrite (.part p) .GP_PART_CFG [p] GP_PART_CFG_EN v cmd fun s => s.partRelease p

/-- A write of GP_MAP (R423, R424): the last bound port of a partition stays bound, and a port bound to another partition is not bound anew,
each with 0x0C05. -/
def State.mapWrite (s : State) (n v : Nat) (req : Requester) (cmd : Option (Nat × Nat)) : Nat × State :=
  if !s.mapWriter req then (0x0C06, s.unitReason (.map n) 0x0C06)
  else if s.bit .GP_MAP [n] GP_MAP_EN && !s.checking (.map n) &&
      (if v.testBit 0 then bitsOf v 1 3 != s.fld .GP_MAP [n] GP_MAP_PART else s.lastPort n) then (0x0C05, s.unitReason (.map n) 0x0C05)
  else (0, s.unitWrite (.map n) .GP_MAP [n] GP_MAP_EN v cmd fun s => s.unbindPort n)

/-- A tray opened (R407): its slots and completion records are zeroed, its count starts at 0, and with it the completions counted and
HC_CRD (log entry 38). Commands it took before still complete (R431). -/
def State.trayOpen (s : State) (n t : Nat) : State :=
  let s := (s.stagWipe n (trayBase t) 0x10000).stagWipe n (0x8000 + 2048 * t) 2048
  s.modGp n fun g => { g with count := mput g.count t 0, done := mput g.done t 0, crd := mput g.crd t 0,
                              cmds := g.cmds.map fun x => if x.tray = t then { x with old := true } else x }

/-- A write of GP_PCFG (R407). -/
def State.pcfgWrite (s : State) (n v : Nat) : State :=
  let old := s.fld .GP_PCFG [n] GP_PCFG_TRAYEN
  let s := s.store .GP_PCFG [n] v
  s.each ((List.range 16).filter fun t => (v / 2 ^ 16).testBit t && !old.testBit t) fun s t => s.trayOpen n t

/-- A write of GP_EVSRC (R418, R433): GP_MAP.EN governs the register; EN follows the check (log entry 39). -/
def State.evsrcWrite (s : State) (n v : Nat) (cmd : Option (Nat × Nat)) : State :=
  if s.bit .GP_MAP [n] GP_MAP_EN || s.checking (.evsrc n) || s.checking (.map n) then s
  else if s.bit .GP_EVSRC [n] GP_EVSRC_EN then (if v.testBit 31 then s else s.setFld .GP_EVSRC [n] GP_EVSRC_EN 0)
  else
    let s := s.setFld .GP_EVSRC [n] GP_EVSRC_SRC v
    if v.testBit 31 then s.askCheck (.evsrc n) v cmd else s

/-- A field of the PW_ and CK_ blocks with a range (R492). -/
def State.pwField (s : State) (r : Reg) (lo hi v : Nat) (req : Requester) : Nat × State :=
  if s.pw.tripped && r == .CK_DROOP then (0x0E05, s.ckPost none 0 0xFFFF 0x0E05)
  else if !s.pwWriter req none then (0x0E03, s.ckPost none 0 0xFFFF 0x0E03)
  else if v < lo ∨ v > hi then (0x0E02, s.ckPost none 0 0xFFFF 0x0E02)
  else (0, s.store r [] v)

/-- A write of PC_TRCFGp (R561): by a port of the partition or an administrative port; any other is dropped. -/
def State.trcfgWrite (s : State) (p v : Nat) (req : Requester) (cmd : Option (Nat × Nat)) : State :=
  let ok := match req with
    | .port n => s.isAdmin n.val || s.partOfPort n.val == some p
    | .engine _ _ => false
    | _ => true
  if ok then s.unitWrite (.trcfg p) .PC_TRCFG [p] PC_TRCFG_EN v cmd fun s => s.setFld .PC_TRCFG [p] PC_TRCFG_EN 0 else s

/-! ## One write -/

/-- A whole write of a register instance: power, clocks, bring-up and counters (R467, R473, R478, R492, R509, R513, R546, R547, R554, R561). -/
def State.powerRegWrite (s : State) (req : Requester) (r : Reg) (idx : List Nat) (v : Nat) (cmd : Option (Nat × Nat)) : Nat × State :=
  let i := idx.getD 0 0
  match r with
  | .PW_REQ => s.pwReqWrite i v req
  | .PW_PCAP => s.pwField r 200 640 (v % 2 ^ 10) req
  | .PW_THERM => s.pwField r 85 100 (v % 2 ^ 8) req
  | .CK_CORE => s.ckCoreWrite i v req
  | .CK_FAB => s.ckFabWrite i v req
  | .CK_DROOP => s.pwField r 2 8 (v % 2 ^ 4) req
  | .CK_VID | .CK_STATUS => if s.pw.tripped then (0x0E05, s.ckPost none i 0xFFFF 0x0E05) else (0, s.store r idx v)
  | .BU_RST => s.rstWrite v req
  | .BU_BIST_CTRL => s.bistWrite v req
  | .BU_BIST_SAVE => if s.rstWriter 1 i req then (0, s.store r idx v) else (0x0F01, s.bistPost i 0x0F01)
  | .PC_WIN => s.pcWinWrite v req
  | .PC_RAKE => s.rakeWrite v req
  | .PC_SNAP => (0, if isSteward req then s.modPcs fun p => { p with prev := p.snap, snap := s.counters } else s)
  | .PC_TRCFG => (0, s.trcfgWrite i v req cmd)
  | .PC_TRRING => (0, s.unitWrite (.trring i) r idx PC_TRRING_EN v cmd fun s => s.setFld r idx PC_TRRING_EN 0)
  | _ => (0, s.store r idx v)

/-- A whole write of a register instance: gate ports (R400, R407, R418, R420, R423, R424, R433). -/
def State.gateRegWrite (s : State) (req : Requester) (r : Reg) (idx : List Nat) (v : Nat) (cmd : Option (Nat × Nat)) : Nat × State :=
  let i := idx.getD 0 0
  let j := idx.getD 1 0
  match r with
  | .GP_PART_CFG => if s.mapWriter req then (0, s.partCfgWrite i v cmd) else (0x0C06, s.unitReason (.part i) 0x0C06)
  | .GP_PART_CL0 => if s.mapWriter req then (0, s.storeUnless (s.partLocked i) r idx v) else (0x0C06, s.unitReason (.part i) 0x0C06)
  | .GP_PART_CL1 => if s.mapWriter req then (0, s.storeUnless (s.partLocked i) r idx v) else (0x0C06, s.unitReason (.part i) 0x0C06)
  | .GP_PART_CL2 => if s.mapWriter req then (0, s.storeUnless (s.partLocked i) r idx v) else (0x0C06, s.unitReason (.part i) 0x0C06)
  | .GP_PART_BASE => if s.mapWriter req then (0, s.storeUnless (s.partLocked i) r idx v) else (0x0C06, s.unitReason (.part i) 0x0C06)
  | .GP_PART_SIZE => if s.mapWriter req then (0, s.storeUnless (s.partLocked i) r idx v) else (0x0C06, s.unitReason (.part i) 0x0C06)
  | .GP_PART_KSHARE => if s.mapWriter req then (0, s.storeUnless (s.partLocked i) r idx v) else (0x0C06, s.unitReason (.part i) 0x0C06)
  | .GP_MAP => s.mapWrite i v req cmd
  | .GP_PCFG => (0, s.pcfgWrite i v)
  | .GP_PCTRL => if s.mapWriter req then (0, if v.testBit 0 then s.gpRetry i else s) else (0x0C06, s.unitReason (.map i) 0x0C06)
  | .GP_EVSRC => (0, s.evsrcWrite i v cmd)
  | .GP_EVBIND => (0, s.bindWrite (.evbind i j) r idx GP_EVBIND_WG v cmd)
  | .GP_COMPOST => (0, s.storeUnless
      (s.bit .GP_MAP [i] GP_MAP_EN || s.checking (.map i) || (portTks i).any s.tkOn || s.checksAny (UnitRef.isHostChan i)) r idx v)
  | .GP_COMPN => (0, if (portTks i).any s.tkOn || s.checksAny (UnitRef.isHostChan i) then s else (s.store r idx v).noteFree (256 + i))
  | .GP_HC_CFG => (0, s.unitWrite (.hchan i j) r idx GP_HC_CFG_EN v cmd fun s => s.tkStop (0x10000 + i * 16 + j))
  | .GP_SH_ADDR => (0, s.unitWrite (.hsend i j) r idx GP_SH_ADDR_EN v cmd fun s => s.setFld r idx GP_SH_ADDR_EN 0)
  | _ => s.powerRegWrite req r idx v cmd

/-- A whole write of a register instance: messages, banks and LPDDR (R355, R364, R367, R394). -/
def State.memRegWrite (s : State) (req : Requester) (r : Reg) (idx : List Nat) (v : Nat) (cmd : Option (Nat × Nat)) : Nat × State :=
  let i := idx.getD 0 0
  let j := idx.getD 1 0
  match r with
  | .MQ_COMPOST => (0, s.storeUnless ((clusterTks i).any s.tkOn || s.checksAny (UnitRef.isTarget i)) r idx v)
  | .MQ_COMPN => (0, if (clusterTks i).any s.tkOn || s.checksAny (UnitRef.isTarget i) then s else (s.store r idx v).noteFree i)
  | .MQ_CH_CFG => (0, s.unitWrite (.chan i j) r idx MQ_CH_CFG_EN v cmd fun s => s.tkStop (i * 64 + j))
  | .MQ_CH_RING => (0, s.storeUnless (s.tkLocked (i * 64 + j) (.chan i j)) r idx v)
  | .MQ_CH_CCB => (0, s.storeUnless (s.tkLocked (i * 64 + j) (.chan i j)) r idx v)
  | .MQ_Q_CFG => (0, s.unitWrite (.queue i j) r idx MQ_Q_CFG_EN v cmd fun s => s.tkStop (i * 64 + 32 + j))
  | .MQ_Q_EXPECT => (0, s.storeUnless (s.tkLocked (i * 64 + 32 + j) (.queue i j)) r idx v)
  | .MQ_Q_ACC => (0, s.storeUnless (s.tkLocked (i * 64 + 32 + j) (.queue i j)) r idx v)
  | .MQ_Q_OUT => (0, s.storeUnless (s.tkLocked (i * 64 + 32 + j) (.queue i j)) r idx v)
  | .MQ_Q_CCB => (0, s.storeUnless (s.tkLocked (i * 64 + 32 + j) (.queue i j)) r idx v)
  | .MQ_SH_CFG => (0, s.unitWrite (.send i j) r idx MQ_SH_CFG_EN v cmd fun s => s.setFld r idx MQ_SH_CFG_EN 0)
  | .MQ_SH_ADDR => (0, s.storeUnless (s.shLocked i j) r idx v)
  | .BK_OWN => (0, s.bkOwnWrite i j v)
  | .BK_RET => (0, s.bkRetWrite i v)
  | .DM_HOLD => (0, s.holdWrite i v req)
  | _ => s.gateRegWrite req r idx v cmd

/-- A whole write of a register instance: matrix and vector cores, formats, the event mesh and the trellis (R210, R221, R224, R239, R265, R283, R286, R293, R316, R325, R426). -/
def State.engineRegWrite (s : State) (req : Requester) (r : Reg) (idx : List Nat) (v : Nat) (cmd : Option (Nat × Nat)) : Nat × State :=
  let i := idx.getD 0 0
  let j := idx.getD 1 0
  let k := idx.getD 2 0
  match r with
  | .MX_CFG => (0, s.mxCfgWrite i v)
  | .MX_DQ_TAIL => (0, s.mxTail' i v)
  | .MX_CTRL => (0, if v.testBit 0 then s.mxAbort i 0 else s)
  | .MX_BIND => (0, s.bindWrite (.mxbind i j) r idx MX_BIND_WG v cmd)
  | .VX_CFG => (0, s.vxCfgWrite i j v)
  | .VX_PC0 => (0, s.storeUnless (s.bit .VX_CFG [i, j] VX_CFG_EN) r idx v)
  | .VX_SVC => (0, s.storeUnless (s.svcLocked i j) r idx v)
  | .VX_BIND => (0, s.bindWrite (.vxbind i j k) r idx VX_BIND_WG v cmd)
  | .QF_PCFG => (0, s.enWrite r idx QF_PCFG_EN v)
  | .QF_PTOL => (0, s.storeUnless (s.bit .QF_PCFG [i, j] QF_PCFG_EN) r idx v)
  | .QF_PTBL => (0, s.storeUnless (s.bit .QF_PCFG [i, j] QF_PCFG_EN) r idx v)
  | .EF_FENCE => s.fenceWrite i v req
  | .EF_CTRL => (0, if isSteward req && v.testBit 0 then s.freset i else s)
  | .EF_REMAP => (0, s.unitWrite (.remap j) r [0, j] EF_REMAP_EN v cmd fun s => s.setFld r [0, j] EF_REMAP_EN 0)
  | .TL_CTRL => (0, if !isSteward req then s else
      let s := if v.testBit 0 then s.quiesce (halfOf i) else s
      if v.testBit 1 then s.resumeHalf (halfOf i) else s)
  | .TL_SCFG => s.underPart 3 j req (s.schState j != 0) (s.fld .TL_SCFG [0, j] TL_SCFG_PART) (some (bitsOf v 2 3)) fun s => s.schedWrite j v cmd
  | .TL_SIMG => s.underPart 3 j req (s.schState j != 0) (s.fld .TL_SCFG [0, j] TL_SCFG_PART) none fun s =>
      s.storeUnless (s.bit .TL_SCFG [0, j] TL_SCFG_EN || s.checking (.sched j)) r [0, j] v
  | _ => s.memRegWrite req r idx v cmd

/-- A whole write of a register instance: neuron cores, synapses, event units and learning (R95, R118, R130, R154, R159, R197). -/
def State.coreRegWrite (s : State) (req : Requester) (r : Reg) (idx : List Nat) (v : Nat) (cmd : Option (Nat × Nat)) : Nat × State :=
  let i := idx.getD 0 0
  let j := idx.getD 1 0
  let k := idx.getD 2 0
  match r with
  | .NC_CFG => (0, s.ncCfgWrite i j v)
  | .NC_SIZE => (0, s.storeUnless (s.bit .NC_CFG [i, j] NC_CFG_EN) r idx v)
  | .NC_REC_BASE => (0, s.storeUnless (s.bit .NC_CFG [i, j] NC_CFG_EN) r idx v)
  | .NC_SLOT_BASE => (0, s.storeUnless (s.bit .NC_CFG [i, j] NC_CFG_EN) r idx v)
  | .NC_TOUCH_BASE => (0, s.storeUnless (s.bit .NC_CFG [i, j] NC_CFG_EN) r idx v)
  | .NC_GMAP_A => (0, s.storeUnless (s.gmapLocked i j k) r idx v)
  | .NC_GMAP_B => (0, s.storeUnless (s.gmapLocked i j k) r idx v)
  | .SY_NET => (0, s.syNetWrite i j k v)
  | .SY_FO_BASE => (0, s.storeUnless (s.bit .SY_NET idx SY_NET_EN) r idx v)
  | .SY_FO_COUNT => (0, s.storeUnless (s.bit .SY_NET idx SY_NET_EN) r idx v)
  | .SY_FI_BASE => (0, s.storeUnless (s.bit .SY_NET idx SY_NET_EN) r idx v)
  | .SY_FI_COUNT => (0, s.storeUnless (s.bit .SY_NET idx SY_NET_EN) r idx v)
  | .SY_WPS_BASE => (0, s.storeUnless (s.bit .SY_NET idx SY_NET_EN) r idx v)
  | .SY_KERN => (0, s.storeUnless (s.bit .SY_NET idx SY_NET_EN) r idx v)
  | .SY_EMIT_CFG => (0, s.enWrite r idx SY_EMIT_CFG_EN v)
  | .SY_EMIT_BASE => (0, s.storeUnless (s.bit .SY_EMIT_CFG [i, j] SY_EMIT_CFG_EN) r idx v)
  | .SY_SINK_CFG => (0, s.enWrite r idx SY_SINK_CFG_EN v)
  | .SY_SINK_BASE => (0, s.storeUnless (s.bit .SY_SINK_CFG [i, j] SY_SINK_CFG_EN) r idx v)
  | .SY_SINK_SHAPE => (0, s.storeUnless (s.bit .SY_SINK_CFG [i, j] SY_SINK_CFG_EN) r idx v)
  | .SY_SINK_WBASE => (0, s.storeUnless (s.bit .SY_SINK_CFG [i, j] SY_SINK_CFG_EN) r idx v)
  | .LR_CORE_CFG => (0, s.storeUnless (s.lrLocked i j) r idx v)
  | .LR_ENT => (0, s.storeUnless (s.lrLocked i j) r idx v)
  | .LR_NENT => (0, s.storeUnless (s.lrLocked i j) r idx v)
  | .LR_ACC_BASE => (0, s.storeUnless (s.lrLocked i j) r idx v)
  | .LR_SHD_BASE => (0, s.storeUnless (s.lrLocked i j) r idx v)
  | .LR_SEL_BASE => (0, s.storeUnless (s.lrLocked i j) r idx v)
  | .LR_PCNT_BASE => (0, s.storeUnless (s.lrLocked i j) r idx v)
  | .LR_CAND_BASE => (0, s.storeUnless (s.lrLocked i j) r idx v)
  | .LR_CAND_CFG => (0, s.storeUnless (s.lrLocked i j) r idx v)
  | .LR_MOD_BASE => (0, s.storeUnless (s.lrLocked i j) r idx v)
  | .LR_MOD_CFG => (0, s.storeUnless (s.lrLocked i j) r idx v)
  | .LR_SET_CFG => (0, s.unitWrite (.set j i) r [i, j] LR_SET_CFG_EN v cmd fun s => s.lsStop j)
  | .LR_SET_EPLEN => (0, s.storeUnless (s.setLocked i j) r idx v)
  | .LR_SET_COEF_A => (0, s.storeUnless (s.setLocked i j) r idx v)
  | .LR_SET_COEF_B => (0, s.storeUnless (s.setLocked i j) r idx v)
  | .LR_SET_RATE => (0, s.storeUnless (s.setLocked i j) r idx v)
  | .LR_SET_BOUND => (0, s.storeUnless (s.setLocked i j) r idx v)
  | .LR_SET_STRUCT => (0, s.storeUnless (s.setLocked i j) r idx v)
  | .LR_SET_GRAFT => (0, s.storeUnless (s.setLocked i j) r idx v)
  | .LR_SET_SEED => (0, s.storeUnless (s.setLocked i j) r idx v)
  | .LR_SET_COMMIT => (0, if s.inSet i j then s.each (s.setBlocks j) fun s b => s.store r [b, j] v else s.storeUnless (s.setLocked i j) r idx v)
  | .LR_SET_CTRL => (0, if v.testBit 0 then s.ksCmdWrite i (1 + 16 * j) cmd else s)
  | .LR_SET_WG => (0, s.lrSetWg i j k v cmd)
  | .KS_CMD => (0, s.ksCmdWrite i v cmd)
  | .KS_STAGE => (0, s.storeUnless (s.ksChecking i) r idx v)
  | _ => s.engineRegWrite req r idx v cmd

/-- A write of TB_IN_CFG by a path that does not see the pins: their present levels are free values (R581; log entries 1, 87). -/
def State.tbInFree (s : State) (m v : Nat) : State :=
  if s.tbsOf m ≠ [] then s else (s.draw.2.tbiPins m (s.draw.1.toNat % 8)).tbInCfgWrite m v

/-- A whole write of a register instance: its code and the state. Registers without an arm, here and above, store, set or clear their
fields by their access codes (R9). Timebases and world groups (R59, R60, R426, R581, R49, R73, R87, R426). -/
def State.regWrite (s : State) (req : Requester) (r : Reg) (idx : List Nat) (v : Nat) (cmd : Option (Nat × Nat)) : Nat × State :=
  let i := idx.getD 0 0
  match r with
  | .TB_CFG => s.underPart 5 i req (s.bit .TB_CFG [i] TB_CFG_EN) (s.fld .TB_CFG [i] TB_CFG_PART) (some (bitsOf v 8 3)) fun s =>
      s.unitWrite (.tb i) .TB_CFG [i] TB_CFG_EN v cmd fun s => s.tbStop i
  | .TB_DIV => s.underPart 5 i req (s.bit .TB_CFG [i] TB_CFG_EN) (s.fld .TB_CFG [i] TB_CFG_PART) none fun s =>
      s.storeUnless (s.bit .TB_CFG [i] TB_CFG_EN || s.checking (.tb i)) r idx v
  | .TB_PERIOD => s.underPart 5 i req (s.bit .TB_CFG [i] TB_CFG_EN) (s.fld .TB_CFG [i] TB_CFG_PART) none fun s =>
      s.storeUnless (s.bit .TB_CFG [i] TB_CFG_EN || s.checking (.tb i)) r idx v
  | .TB_TARGET => s.underPart 5 i req (s.bit .TB_CFG [i] TB_CFG_EN) (s.fld .TB_CFG [i] TB_CFG_PART) none fun s => s.tbTargetWrite i v
  | .TB_STATUS => s.underPart 5 i req (s.bit .TB_CFG [i] TB_CFG_EN) (s.fld .TB_CFG [i] TB_CFG_PART) none fun s => s.store r idx v
  | .TB_IN_CFG => (0, s.tbInFree i v)
  | .WG_CFG => s.underPart 1 i req (s.wgOn i) (s.wgPart i) (some (bitsOf v 7 3)) fun s => s.wgCfgWrite i v cmd
  | .WG_WORLDS => s.underPart 1 i req (s.wgOn i) (s.wgPart i) none fun s => s.storeUnless (s.wgLocked i) r idx v
  | .WG_LAGMAX => s.underPart 1 i req (s.wgOn i) (s.wgPart i) none fun s => s.storeUnless (s.wgLocked i) r idx v
  | .WG_ROT => s.underPart 1 i req (s.wgOn i) (s.wgPart i) none fun s => s.storeUnless (s.wgLocked i) r idx v
  | .WG_ROTBASE => s.underPart 1 i req (s.wgOn i) (s.wgPart i) none fun s => s.storeUnless (s.wgLocked i) r idx v
  | .WG_CTRL => s.underPart 1 i req (s.wgOn i) (s.wgPart i) none fun s => s.wgCtrlWrite i v
  | .WG_INSEQ => s.underPart 1 i req (s.wgOn i) (s.wgPart i) none fun s => s.store r idx v
  | _ => s.coreRegWrite req r idx v cmd

/-! ## Reach and words (R8, R13, R37, R414) -/

/-- May a port's write reach a GP_ register at an offset of the block (R414, R416, R423)? Its own; through the admin slot of an administrative
port the partition registers and GP_MAP, GP_PCTRL and GP_EVSRC of any port; and for any other port the same registers but GP_EVSRC, where it
meets 0x0C06. -/
def gpWriteReach (n : Nat) (admin adm : Bool) (o : Nat) : Bool :=
  if o < 0x1000 then adm || !admin
  else decide (o < 0x2000) && ((o - 0x1000) / 0x200 == n || ((adm || !admin) && (o % 0x200 == 0 || o % 0x200 == 0xC)) || (admin && adm && o % 0x200 == 0x10))

/-- May a port's register command reach an address that holds a register, or a reserved offset (R414, R416)? A reserved offset of a block
that is reached is reached too: it reads zero and a write to it is dropped (R39). `adm`: through the admin slot. -/
def State.portReachReg (s : State) (n : Nat) (adm : Bool) (r : Option Reg) (a : Nat) (write : Bool) : Bool :=
  match locate a with
  | .creg c => (s.partOfPort n).isSome && s.partOfCluster c == s.partOfPort n
  | .dreg =>
    let names (l : List Reg) : Bool := match r with | some r => l.contains r | none => false
    if producerLine a then !write && (a - 0xFE03800000) / 0x1000 == n
    else
      let o := a - 0xFE00000000
      if 0x8000000 ≤ o then true                                    -- TB_, WG_ under R426
      else if o < 0x1000000 then !write || names [.BU_RST, .BU_BIST_CTRL, .BU_BIST_SAVE]
      else if o < 0x2000000 then !write                             -- SM_
      else if o < 0x3000000 then !write || names [.DM_HOLD]
      else if o < 0x4000000 then
        let o := o - 0x3000000
        if o < 0x2000 then (if write then gpWriteReach n (s.isAdmin n) adm o else decide (0x1000 ≤ o) && (o - 0x1000) / 0x200 == n)
        else decide (0x4000 ≤ o) && decide (o < 0x4800) && (o - 0x4000) / 0x100 == n
      else if o < 0x6000000 then true                               -- PW_, CK_ under R492
      else if o < 0x7000000 then !write                             -- SC_
      else !write || names [.PC_WIN, .PC_RAKE, .PC_TRCFG]
  | _ => false

def State.portReach (s : State) (n : Nat) (adm : Bool) (a : Nat) (write : Bool) : Bool :=
  s.portReachReg n adm ((findReg a).map fun x => x.1) a write

/-- May a requester reach a register at all: a port through its trays or its admin slot (R414, R416), an engine only in the clusters of its
partition (R37), but a vector core also writes TB_TARGET and WG_INSEQ (R50, R73)? -/
def State.regReachReg (s : State) (req : Requester) (r : Option Reg) (a : Nat) (write : Bool) : Bool :=
  match req with
  | .port n => s.portReachReg n.val true r a write
  | .engine c k =>
    (match locate a with
     | .creg d => (s.partOfCluster c.val).isSome && s.partOfCluster d == s.partOfCluster c.val
     | _ => write && (k.val == 16 || k.val == 17) && (r == some .TB_TARGET || r == some .WG_INSEQ))
  | _ => true

def State.regReach (s : State) (req : Requester) (a : Nat) (write : Bool) : Bool :=
  s.regReachReg req ((findReg a).map fun x => x.1) a write

/-- A 32-bit write to word `off` of a register instance, at an address (R8, R13, R15): the lower word of a 64-bit register is held, its
upper word commits both. -/
def State.writeAt (s : State) (req : Requester) (a : Nat) (r : Reg) (idx : List Nat) (off v : Nat) (cmd : Option (Nat × Nat)) : Nat × State :=
  if !s.regUp a || decide (r.desc.bytes > 8) then (0, s)
  else
    let s := s.regTouch r a
    match s.homeIdx r idx with
    | none => (0, s)
    | some h =>
      if r.desc.bytes = 4 then s.regWrite req r h (v % 2 ^ 32) cmd
      else if off = 0 then (0, { s with helds := mput s.helds (latchKey req a) (some (BitVec.ofNat 32 v)) })
      else
        let low := match mget s.helds (latchKey req (a - 4)) with | some w => w.toNat | none => s.val r h % 2 ^ 32
        let s := { s with helds := mput s.helds (latchKey req (a - 4)) none }
        s.regWrite req r h (low + 2 ^ 32 * (v % 2 ^ 32)) cmd

/-- A 32-bit write (R8, R39). -/
def State.writeWord (s : State) (req : Requester) (a v : Nat) (cmd : Option (Nat × Nat)) : Nat × State :=
  if a % 4 ≠ 0 then (0, s.ignored req a)
  else
    match findReg a with
    | none => (0, s.stray req)
    | some (r, idx, off) => s.writeAt req a r idx off v cmd

/-- The device address an instance of a register is written and read at (R38, R41). -/
def Reg.place (r : Reg) (idx : List Nat) : Nat := r.desc.base + dotIdx r.desc.dims idx

/-- A write of a whole register: the lower and then the upper word where it has two (R13). -/
def State.writeReg (s : State) (req : Requester) (r : Reg) (idx : List Nat) (v : Nat) (cmd : Option (Nat × Nat) := none) : Nat × State :=
  let a := r.place idx
  let x := s.writeAt req a r idx 0 (v % 2 ^ 32) cmd
  if r.desc.bytes = 8 then
    let y := x.2.writeAt req (a + 4) r idx 4 (v / 2 ^ 32) cmd
    (if x.1 = 0 then y.1 else x.1, y.2)
  else x

/-- A command that is a write of a register by some requester: beyond the requester's reach it is dropped, and counted for an engine
(R37, R39). -/
def State.cmdWrite (s : State) (req : Requester) (r : Reg) (idx : List Nat) (v : Nat) : State :=
  if s.regReachReg req (some r) (r.place idx) true then (s.writeReg req r idx v).2
  else match req with | .engine _ _ => s.stray req | _ => s

/-- TB_IN_CFG_WRITE (R581): a write of TB_IN_CFG that sees the pin levels of the moment. -/
def State.tbInWrite (s : State) (req : Requester) (m v pins : Nat) : State :=
  let a := Reg.place .TB_IN_CFG [m]
  if s.regReachReg req (some .TB_IN_CFG) a true && s.regUp a then (s.tbiPins m pins).tbInCfgWrite m (v % 2 ^ 32)
  else s.cmdWrite req .TB_IN_CFG [m] v

/-- Does a 64-bit register lie at an address, so that an access may be 64 bits wide (R8)? -/
def isDouble (a : Nat) : Bool := a % 8 == 0 && (match findReg a with | some (r, _, off) => r.desc.bytes == 8 && off == 0 | none => false)

/-- A read of 64 bits (R8, R13): of a 64-bit register, or of a producer line; one wider than its register, or misaligned, returns zero
(log entry 86). -/
def State.wideRead (s : State) (req : Requester) (a : Nat) : Nat × State :=
  if isDouble a || (producerLine a && a % 8 == 0) then s.readDouble req a
  else (0, s.ignored req a)

/-- A write of 64 bits (R8, R13): both words of a 64-bit register; one wider than its register, or misaligned, is ignored (log entry 86). -/
def State.wideWrite (s : State) (req : Requester) (a v : Nat) (cmd : Option (Nat × Nat)) : Nat × State :=
  if isDouble a then
    let x := s.writeWord req a (v % 2 ^ 32) cmd
    if x.1 = 0 then x.2.writeWord req (a + 4) (v / 2 ^ 32) cmd else x
  else (0, s.ignored req a)

/-- REGISTER_WRITE (R8, R9): a narrower access is ignored. -/
def State.accessWrite (s : State) (req : Requester) (w : Width) (a v : Nat) : State :=
  if s.regReach req a true then
    match w with
    | .w32 => (s.writeWord req a (v % 2 ^ 32) none).2
    | .w64 => (s.wideWrite req a v none).2
    | _ => s.ignored req a
  else s.stray req

/-- A read of a register by some requester: the value returned (R8, R13); a narrower one returns zero. -/
def State.accessRead (s : State) (req : Requester) (w : Width) (a : Nat) : State :=
  if s.regReach req a false then
    match w with
    | .w32 => let x := s.readWord req a; { x.2 with rdata := BitVec.ofNat 64 x.1 }
    | .w64 => let x := s.wideRead req a; { x.2 with rdata := BitVec.ofNat 64 x.1 }
    | _ => { s.ignored req a with rdata := 0 }
  else { s.stray req with rdata := 0 }

end Sys2Proof.Machine
end

