-- ==== Sys2Proof/Machine/Trays.lean ====
section
/-! DEFINITION. Trays and the status mirror (R405 to R416): scanning, commands and their completions, the records of the mirror, and the
reason log (R430). -/

namespace Sys2Proof.Machine

/-- The tray number of the admin slot. -/
def adminTray : Nat := 16

/-! ## Slots (R408, R409) -/

/-- CHECK of a slot: bits [15:0] of the CRC-32C over bytes 0–3 and 6–63. -/
def slotCheck (bs : List Byte) : Nat := crc32c (bs.take 4 ++ (bs.drop 6).take 58) % 2 ^ 16

/-- The little-endian field of k bytes at offset i of a slot. -/
def slotFld (bs : List Byte) (i k : Nat) : Nat := leNat ((bs.drop i).take k)

/-- Is a reserved field of a slot nonzero (R409, R411)? -/
def slotReserved (bs : List Byte) : Bool :=
  slotFld bs 10 6 != 0 || slotFld bs 41 23 != 0 || decide (slotFld bs 7 1 ≥ 4) || decide (slotFld bs 40 1 ≥ 16)

/-- The command a slot holds. -/
def cmdOf (t n : Nat) (bs : List Byte) : Cmd :=
  { tray := t, count := n, seq := slotFld bs 0 4, op := slotFld bs 6 1, flags := slotFld bs 7 1, tag := slotFld bs 8 2,
    adr := slotFld bs 16 8, data := slotFld bs 24 8, soff := slotFld bs 32 4, len := slotFld bs 36 4, handle := slotFld bs 40 1 % 16 }

/-- Does a register command stay within the device block at `lo`? -/
def Cmd.within (x : Cmd) (lo : Nat) : Bool := decide (lo ≤ x.adr) && decide (x.adr + (if x.flags.testBit 1 then 8 else 4) ≤ lo + 0x1000000)

/-- The recovery listener's commands, in each life-cycle state (R516, R538): NOP, REGRD within the BU_ block and, for the rake image, the
PC_ block (R554), the write of BU_RST that ends the restore (log entry 63), and the table's; 0x0F24: not accepted. -/
def State.recoveryCode (s : State) (x : Cmd) : Nat :=
  let info := x.op == 0 || x.op == 0x20 || (x.op == 1 && (x.within 0xFE00000000 || x.within 0xFE07000000))
  let more := (decide (0x20 ≤ x.op) && decide (x.op ≤ 0x25)) || (x.op == 2 && x.adr == 0xFE00000004)
  if info ∨ (s.sec.state ≠ 4 ∧ more) then 0 else 0x0F24

/-- The code of a command that is refused as it is taken (R411, R516, R529): reserved OPs and fields, and what recovery does not accept. -/
def State.slotCode (s : State) (x : Cmd) (bs : List Byte) : Nat :=
  if s.devState = 3 then (if s.recoveryCode x ≠ 0 then s.recoveryCode x else if slotReserved bs then 0x0C10 else 0)
  else if slotReserved bs then 0x0C10
  else if x.op ≤ 6 ∨ (0x40 ≤ x.op ∧ x.op ≤ 0x47) then 0 else 0x0C10

/-- A command taken from a slot: one refused at once has ended. -/
def State.takeCmd (s : State) (n : Nat) (x : Cmd) (bs : List Byte) : State :=
  let code := s.slotCode x bs
  s.modGp n fun g =>
    let x := { x with id := g.taken }
    { g with taken := g.taken + 1, cmds := g.cmds ++ [if code = 0 then x else { x with st := 2, code := code }] }

/-- A command count wraps from 2^32 − 2 to 0 (R407). -/
def nextCount (m : Nat) : Nat := if m = 2 ^ 32 - 2 then 0 else m + 1

/-- Up to k commands taken from a tray (R408): SEQ, CHECK and the credit must hold. -/
def State.scanTray (s : State) (n t : Nat) : Nat → State
  | 0 => s
  | k + 1 =>
    let g := s.getGp n
    let m := mget g.count t
    let bs := s.stagPeek n (trayBase t + 64 * (m % 1024)) 64
    if slotFld bs 0 4 ≠ m + 1 then s
    else if slotFld bs 4 2 ≠ slotCheck bs then s.bump .GP_TORN [n]
    else if (m + 2 ^ 32 - mget g.crd t) % 2 ^ 32 ≥ 32 then s
    else
      ((s.takeCmd n (cmdOf t m bs) bs).modGp n fun g =>
        { g with count := mput g.count t (nextCount m) }).scanTray n t k

/-- The admin slot (R416): one command at a time, with the SEQ after the last one's. -/
def State.scanAdmin (s : State) (n : Nat) : State :=
  let g := s.getGp n
  let q := (g.adminSeq + 1) % 2 ^ 32
  if !s.isAdmin n || g.cmds.any (fun x => x.tray == adminTray) || g.admin.length != 64 || slotFld g.admin 0 4 != q then s
  else if slotFld g.admin 4 2 ≠ slotCheck g.admin then s.bump .GP_TORN [n]
  else (s.takeCmd n (cmdOf adminTray q g.admin) g.admin).modGp n fun g => { g with adminSeq := q }

/-- What the host has done on a port's link since the last scan (R396, R401, R432; log entry 123): its reads in SERVICE are served and counted,
those outside the aperture in GP_OOR too, its mode register reads answered, and refresh commands and link errors counted. -/
def State.linkUse (s : State) (n : Nat) (u : LinkUse) : State :=
  let served := if s.link n = lnkService then u.reads.map BitVec.toNat else []
  let s := s.modGp n fun g =>
    let g := match served.getLast? with
      | some o => { g with hostData := s.hostRead n o, hostCheck := lineCheck (s.hostRead n o) }
      | none => g
    match u.modes.getLast? with | some m => { g with hostMode := s.modeRead m } | none => g
  let s := (s.bump .GP_HRD [n] served.length).bump .GP_OOR [n] (served.filter fun o => decide (bulkEnd ≤ o)).length
  (s.bump .GP_REFCMD [n] u.refreshes).bump .GP_LINKERR [n] u.errors

/-- TRAY_SCAN (R402, R408, R416, R431): the admin slot, and every enabled tray of a bound port; none in recovery. -/
def State.trayScan (s : State) (n : Nat) (use : LinkUse) : State :=
  if !s.portOn n then s
  else
    let s := ((s.linkUse n use).bump .GP_SCANS [n]).scanAdmin n
    if (s.partOfPort n).isNone ∨ s.devState = 3 then s
    else
      let en := s.fld .GP_PCFG [n] GP_PCFG_TRAYEN
      s.each ((List.range 16).filter en.testBit) fun s t => s.scanTray n t 8

/-! ## Starting a command (R412) -/

/-- The earliest command of a tray that has not started. -/
def State.nextCmd (s : State) (n t : Nat) : Option Cmd := (s.getGp n).cmds.find? fun x => x.tray == t && x.st == 0

def Cmd.isReg (x : Cmd) : Bool := x.op == 1 || x.op == 2 || x.op == 6
def Cmd.isXfer (x : Cmd) : Bool := x.op == 3 || x.op == 4 || x.op == 5

/-- May it start: FENCE waits for every earlier command of the tray, a register command for every earlier register command, and at most
eight transfers of the port overlap. -/
def State.mayStart (s : State) (n : Nat) (x : Cmd) : Bool :=
  let cs := (s.getGp n).cmds
  let prev := (cs.filter fun y => y.tray == x.tray).takeWhile fun y => y.id != x.id
  !(x.flags.testBit 0 && prev != []) && !(x.isReg && prev.any Cmd.isReg) &&
  !(x.isXfer && decide ((cs.filter fun y => y.isXfer && y.st == 1).length ≥ 8))

/-- A command changed in place. -/
def State.setCmd (s : State) (n : Nat) (x : Cmd) (f : Cmd → Cmd) : State :=
  s.modGp n fun g => { g with cmds := g.cmds.map fun y => if y.id = x.id then f y else y }

/-- A command ends, with its code, RESULT and the bytes moved. -/
def State.endCmd (s : State) (n : Nat) (x : Cmd) (code result moved : Nat) : State :=
  s.setCmd n x fun y => { y with st := 2, code := code, result := result, moved := moved }

/-- The tray's next command, where it is the one commanded and may start. -/
def State.runCmd (s : State) (n t op : Nat) (f : State → Cmd → State) : State :=
  match s.nextCmd n t with
  | some x => if x.op = op ∧ s.mayStart n x ∧ s.portOn n then f s x else s
  | none => s

/-! ## Register commands (R414) -/

/-- Does an address lie in a cluster of the half that a port cannot reach in the split state (R431)? -/
def State.otherHalf (s : State) (n a : Nat) : Bool :=
  s.isSplit && (match locate a with | .creg c => halfOf c != gpHalf n | _ => false)

/-- The code of a register access by a port (R414, R458). A misaligned ADDR counts as R411's fields do (log entry 61). -/
def State.regCode (s : State) (n : Nat) (adm : Bool) (a : Nat) (write : Bool) : Nat :=
  if a % 4 ≠ 0 then 0x0C10
  else if !s.portReach n adm a write then 0x0C11
  else if s.otherHalf n a then 0x0D12
  else if !s.regUp a then 0x0C14
  else 0

/-- The code of an access of one or two words. -/
def State.regCodes (s : State) (n : Nat) (x : Cmd) (write : Bool) : Nat :=
  let adm := x.tray == adminTray
  let k := s.regCode n adm x.adr write
  if k ≠ 0 then k else if !x.flags.testBit 1 then 0 else if x.adr % 8 ≠ 0 then 0x0C10 else s.regCode n adm (x.adr + 4) write

/-- NOP (R411). -/
def State.cmdNop (s : State) (n t : Nat) : State := s.runCmd n t 0 fun s x => s.endCmd n x 0 0 0

/-- REGRD (R411, R414): a block that is not on reads zero. -/
def State.cmdRegrd (s : State) (p : Fin 8) (t : Nat) : State :=
  let n := p.val
  s.runCmd n t 1 fun s x =>
    let k := s.regCodes n x false
    if k ≠ 0 then s.endCmd n x k 0 0
    else
      let y := if x.flags.testBit 1 then s.wideRead (.port p) x.adr else s.readWord (.port p) x.adr
      y.2.endCmd n x 0 y.1 0

/-- REGWR (R411, R414, R430): one that asks for a check ends with it. -/
def State.cmdRegwr (s : State) (p : Fin 8) (t : Nat) : State :=
  let n := p.val
  s.runCmd n t 2 fun s x =>
    let k := s.regCodes n x true
    if k ≠ 0 then s.endCmd n x k 0 0
    else
      let s := s.setCmd n x fun y => { y with st := 1 }
      let cmd := some (n, t)
      let b := if x.flags.testBit 1 then s.wideWrite (.port p) x.adr x.data cmd else s.writeWord (.port p) x.adr (x.data % 2 ^ 32) cmd
      if b.1 = 0 ∧ b.2.checks.any (fun y => y.cmd == cmd) then b.2 else b.2.endCmd n x b.1 0 0

/-- FENCE_ENG (R283, R411): an engine of a cluster of the port's partition; a coordinate that names none counts as a reserved field, and
one of another partition as an address outside the port's reach (log entry 61). -/
def State.cmdFence (s : State) (n t : Nat) : State :=
  s.runCmd n t 6 fun s x =>
    let d := x.data % 2 ^ 12
    match coordCluster d with
    | none => s.endCmd n x 0x0C10 0 0
    | some c =>
      if coordSlot d ≥ 19 then s.endCmd n x 0x0C10 0 0
      else if (s.partOfPort n).isNone || s.partOfCluster c != s.partOfPort n then s.endCmd n x 0x0C11 0 0
      else if s.isSplit && halfOf c != gpHalf n then s.endCmd n x 0x0D12 0 0
      else (if s.fencedEng c (coordSlot d) then s else s.fenceAt c (coordSlot d)).endCmd n x 0 0 0

/-! ## Transfers (R413, R422, R550) -/

/-- The code of a staging range: multiples of 64 within bulk staging, and outside the counter mirror. -/
def State.rangeCode (s : State) (n : Nat) (x : Cmd) : Nat :=
  if x.soff % 64 ≠ 0 ∨ x.adr % 64 ≠ 0 ∨ x.len % 64 ≠ 0 ∨ x.len < 64 ∨ x.len > 7274496 ∨ x.soff < bulkBase ∨ x.soff + x.len > bulkEnd then 0x0C10
  else if s.bit .GP_PCFG [n] GP_PCFG_CMIR ∧ x.soff + x.len > 0xF00000 then 0x1104
  else 0

/-- A transfer of a command starts at the port's endpoint; without a free tag it waits. -/
def State.startXfer (s : State) (n : Nat) (x : Cmd) (y : Xfer) : State :=
  match s.xferStart { y with own := .tray n x.tray, part := (s.partOfPort n).getD 8, ep := 792 + n, loc := x.soff, len := x.len } with
  | some (key, s) => s.setCmd n x fun c => { c with st := 1, key := key + 1 }
  | none => s

/-- COPY_IN (R411, R413). -/
def State.cmdCopyIn (s : State) (n t : Nat) : State :=
  s.runCmd n t 3 fun s x =>
    let k := s.rangeCode n x
    if k ≠ 0 then s.endCmd n x k 0 0 else s.startXfer n x { write := true, dev := x.adr }

/-- COPY_OUT (R411, R413). -/
def State.cmdCopyOut (s : State) (n t : Nat) : State :=
  s.runCmd n t 4 fun s x =>
    let k := s.rangeCode n x
    if k ≠ 0 then s.endCmd n x k 0 0 else s.startXfer n x { write := false, dev := x.adr }

/-- SEND (R411, R413, R422): on an enabled handle, a message that meets R337. -/
def State.cmdSend (s : State) (n t : Nat) : State :=
  s.runCmd n t 5 fun s x =>
    let k := s.rangeCode n x
    let h := x.handle
    let dev := s.val .GP_SH_ADDR [n, h] % 2 ^ 48 / 128 * 128
    let hd := 0x10000 + n * 16 + h + 1
    if k ≠ 0 then s.endCmd n x k 0 0
    else if !s.bit .GP_SH_ADDR [n, h] GP_SH_ADDR_EN || s.badSend dev x.len (s.stagPeek n x.soff 16) then s.endCmd n x 0x0C12 0 0
    else s.startXfer n x { write := true, dev := dev, handle := hd, seq := s.sendOrder hd }

/-! ## Completions (R410, R416) -/

/-- Does a completion's code say that the command was refused or failed (R410)? The report 0x0E01 does not: the request stands and
waits (R467, R494; log entry 68). -/
def failCode (code : Nat) : Bool := code != 0 && code != 0x0E01

/-- A completion record. -/
def Cmd.record (x : Cmd) : List Byte :=
  ctrRecord x.seq (leBytes 2 x.tag ++ leBytes 2 x.code ++ leBytes 1 (if failCode x.code then 1 else 0) ++ leBytes 7 0 ++
    leBytes 8 x.result ++ leBytes 8 x.moved)

/-- Where it is written: at the tray's completion position, or at the admin completion. -/
def Cmd.place (x : Cmd) : Nat := if x.tray = adminTray then 0x80 else 0x8000 + 2048 * x.tray + 64 * (x.count % 32)

/-- A command that has ended: one whose transfer has ended, with the transfer's code; the bytes moved are its LEN when it was accepted. -/
def State.ended (s : State) (x : Cmd) : Option Cmd :=
  if x.st = 2 then some x
  else if x.st = 1 ∧ x.key ≠ 0 then
    let y := s.getXfer (x.key - 1)
    if y.fin = 0 then none else some { x with st := 2, code := y.code, moved := if y.fin = 1 then x.len else 0 }
  else none

/-- A completion record written and its command gone. -/
def State.writeDone (s : State) (n : Nat) (x : Cmd) : State :=
  let s := s.stagPoke n x.place x.record
  let s := if x.key = 0 then s else s.modXfer (x.key - 1) fun _ => {}
  let s := (s.bump .GP_CMDS [n]).when (failCode x.code) fun s => s.bump .GP_CMDFAIL [n]
  s.modGp n fun g => { g with
    cmds := g.cmds.filter fun y => y.id != x.id,
    done := if x.tray = adminTray ∨ x.old then g.done else mput g.done x.tray (nextCount (mget g.done x.tray)) }

/-- COMMAND_COMPLETE (R410): the oldest command of the tray that has ended. -/
def State.cmdDone (s : State) (n t : Nat) : State :=
  match (s.getGp n).cmds.findSome? fun x => if x.tray = t then s.ended x else none with
  | some x => if s.portOn n then s.writeDone n x else s
  | none => s

/-! ## The status mirror (R405, R406) -/

/-- A temperature in whole °C, none below zero. -/
def wholeDeg (q : Int) : Nat := (max 0 (q / 4)).toNat

def State.deviceRec (s : State) : List Byte :=
  let e := s.pw.est.headD (0, 0)
  leBytes 4 0x96000A5E ++ leBytes 1 s.devState ++ leBytes 1 s.sec.state ++ leBytes 2 0 ++ leBytes 4 s.boot.resets ++
  leBytes 8 (s.val .TL_FRAME [0]) ++ leBytes 8 (s.val .TL_FRAME [48]) ++ leBytes 2 (wholeDeg (max (s.hottest 0) (s.hottest 1))) ++
  leBytes 2 (e.1 + e.2)

/-- The link REASON that a port's record shows: its own, or else that of another port bound to its partition (R400). -/
def State.linkReason (s : State) (n : Nat) : Nat :=
  let own := s.fld .GP_PSTATUS [n] GP_PSTATUS_REASON
  if own ≠ 0 ∨ (s.partOfPort n).isNone then own
  else (((List.range 8).filter fun k => s.partOfPort k == s.partOfPort n).map fun k => s.fld .GP_PSTATUS [k] GP_PSTATUS_REASON).find? (· != 0) |>.getD 0

def State.portRec (s : State) (n : Nat) : List Byte :=
  let p := s.partOfPort n
  leBytes 1 n ++ leBytes 1 (s.link n) ++ leBytes 2 (s.linkReason n) ++
  leBytes 1 (p.getD 0 + (if p.isSome then 8 else 0) + (if s.isAdmin n then 16 else 0)) ++
  leBytes 1 (s.fld .GP_PSTATUS [n] GP_PSTATUS_RATE) ++ leBytes 2 0 ++ leBytes 4 (s.getGp n).logn

def State.partRec (s : State) (p : Nat) : List Byte :=
  leBytes 1 (s.fld .GP_PART_STATUS [p] GP_PART_STATUS_STATE) ++ leBytes 1 0 ++ leBytes 2 (s.fld .GP_PART_STATUS [p] GP_PART_STATUS_REASON) ++
  leBytes 1 (s.partClusters p).length ++ leBytes 7 0 ++ leBytes 8 (s.val .KS_GEN [p])

def State.tbRec (s : State) (t : Nat) : List Byte :=
  leBytes 4 0 ++ leBytes 8 (s.val .TB_TARGET [t]) ++ leBytes 8 (s.val .TB_POS [t]) ++ leBytes 4 (s.val .TB_STATUS [t])

def State.wgRec (s : State) (g : Nat) : List Byte :=
  let v := s.wgStatusView g
  leBytes 1 (WG_STATUS_STATE.get v) ++ leBytes 1 (WG_STATUS_WAIT_IN.get v + 2 * WG_STATUS_WAIT_TB.get v + 4 * WG_STATUS_OVR.get v) ++
  leBytes 2 (WG_STATUS_REASON.get v) ++ leBytes 8 (s.val .WG_STEP [g]) ++ leBytes 8 (s.val .WG_WSTEP [g]) ++ leBytes 4 (s.val .WG_OVERRUN [g])

def State.hostRec (s : State) (n c : Nat) : List Byte :=
  let x := s.getChan (0x10000 + n * 16 + c)
  leBytes 4 x.wr ++ leBytes 4 x.msgs ++ leBytes 4 x.skips ++
  leBytes 1 ((if s.bit .GP_HC_CFG [n, c] GP_HC_CFG_EN then 1 else 0) + (if x.comp = [] then 0 else 2))

def State.evinRec (s : State) (n : Nat) : List Byte :=
  leBytes 4 (s.getGp n).evRd ++ leBytes 8 (s.val .GP_EVINJ [n]) ++ leBytes 8 (s.val .GP_EVDROP [n])

/-- The records of a port's mirror, by offset (R402, R406): none reads as zero. -/
def State.mirrorRecs (s : State) (n : Nat) : List (Nat × Option (List Byte)) :=
  let p := s.partOfPort n
  [(0, some s.deviceRec), (0x40, some (s.portRec n)), (0xC0, p.map s.partRec)] ++
  ((List.range 64).map fun t => (0x400 + 64 * t, if p == some (s.fld .TB_CFG [t] TB_CFG_PART) then some (s.tbRec t) else none)) ++
  ((List.range 256).map fun g => (0x1400 + 64 * g, if p == some (s.wgPart g) then some (s.wgRec g) else none)) ++
  ((List.range 16).map fun c => (0x5400 + 64 * c, p.map fun _ => s.hostRec n c)) ++
  [(0x5800, p.map fun _ => s.evinRec n)]

/-- One record brought up to date (R405): only when its contents have changed, with the next update count. -/
def State.putMirror (s : State) (n o : Nat) (c : Option (List Byte)) : State :=
  match c with
  | none => s.stagWipe n o 64
  | some bs =>
    let body := fit 56 bs
    if s.stagPeek n (o + 4) 56 = body then s
    else
      let u := (mget (s.getGp n).upd o + 1) % 2 ^ 32
      (s.stagPoke n o (ctrRecord u body)).modGp n fun g => { g with upd := mput g.upd o u }

/-- The postings that wait are written to the reason log (R430): posting k at entry k mod 128. The log of a port that no map binds is not
filled in, and its postings are counted (R402; log entry 156). -/
def State.flushLog (s : State) (n : Nat) : State :=
  let ps := (s.getGp n).posts
  let s := s.each ps fun s x =>
    let k := (s.getGp n).logn
    (s.when (s.partOfPort n).isSome fun s => s.stagPoke n (0x6000 + 64 * (k % 128)) (ctrRecord ((k + 1) % 2 ^ 32) (leBytes 2 x.code ++ leBytes 1 x.kind ++
      leBytes 1 0 ++ leBytes 4 x.unit ++ leBytes 2 x.cluster ++ leBytes 2 0 ++ leBytes 8 x.frame))).modGp n fun g => { g with logn := k + 1 }
  s.modGp n fun g => { g with posts := [] }

/-- MIRROR_UPDATE (R406): once in a scan period, the records that have changed; the reason log with them. -/
def State.mirrorUpdate (s : State) (n : Nat) : State :=
  if !s.portOn n then s
  else
    let s := s.flushLog n
    s.each (s.mirrorRecs n) fun s r => s.putMirror n r.1 r.2

end Sys2Proof.Machine
end

