-- ==== Sys2Proof/Machine/Security.lean ====
section
/-! DEFINITION. Security, identity and life cycle (R521 to R543): the security commands, life-cycle tokens and attestation. Its
random bits are free values (log entry 1). -/

namespace Sys2Proof.Machine

/-- A security code posted in SC_STATUS.REASON and in the logs (R543). -/
def State.scPost (s : State) (part : Option Nat) (code : Nat) : State :=
  (s.setFld .SC_STATUS [] SC_STATUS_REASON code).post part 9 0 0xFFFF code

/-- A security command ends; a code of the chapter is posted. -/
def State.scEnd (s : State) (n : Nat) (x : Cmd) (code result moved : Nat) : State :=
  (if 0x1000 ≤ code then s.scPost (s.partOfPort n) code else s).endCmd n x code result moved

/-! ## Who may (R529, R540) -/

/-- May a port give a security command in the present state? -/
def State.scPermit (s : State) (n op : Nat) : Bool :=
  let p := s.partOfPort n
  let st := s.sec.state
  let releasing := match p with | some q => s.fld .GP_PART_STATUS [q] GP_PART_STATUS_STATE == 2 | none => false
  if s.isSplit && gpHalf n == 1 && op != 0x40 then false
  else if op = 0x40 then p.isSome || s.isAdmin n
  else if op ≤ 0x43 then (p.isSome || s.isAdmin n) && s.sec.seed != [] && !(op == 0x43 && releasing)
  else if op ≤ 0x46 then s.isAdmin n && st != 4
  else s.isAdmin n && st == 0

/-- The staging range of a security command: SOFF and LEN under R413. -/
def stagOk (x : Cmd) : Bool :=
  x.soff % 64 == 0 && x.len % 64 == 0 && decide (64 ≤ x.len) && decide (bulkBase ≤ x.soff) && decide (x.soff + x.len ≤ bulkEnd)

/-- A security command of a tray runs where it is permitted, and is refused with 0x1001 elsewhere. -/
def State.scRun (s : State) (n t op : Nat) (f : State → Cmd → State) : State :=
  s.runCmd n t op fun s x => if s.scPermit n op then f s x else s.scEnd n x 0x1001 0 0

/-! ## Plain commands -/

/-- SC_INFO (R529). -/
def State.scInfo (s : State) (n t : Nat) : State :=
  s.scRun n t 0x40 fun s x =>
    s.scEnd n x 0 (s.sec.state + s.sec.floor % 256 * 2 ^ 8 + s.sec.count * 2 ^ 16 + (if s.sec.seed = [] then 0 else 2 ^ 24)) 0

/-- GET_PUBKEY (R529). -/
def State.getPubkey (s : State) (n t : Nat) : State :=
  s.scRun n t 0x41 fun s x =>
    if !stagOk x || x.len != 2624 then s.scEnd n x 0x0C10 0 0
    else (s.stagPoke n x.soff (mldsaPublic s.sec.seed)).scEnd n x 0 0 2592

/-- GET_CERT (R527, R529). -/
def State.getCert (s : State) (n t : Nat) : State :=
  s.scRun n t 0x42 fun s x =>
    let c := s.boot.chain
    if c = [] ∨ fit 64 (sha3 c) ≠ s.sec.certhash then s.scEnd n x 0x100B 0 0
    else if !stagOk x || decide (x.len < (c.length + 63) / 64 * 64) then s.scEnd n x 0x0C10 0 0
    else (s.stagPoke n x.soff c).scEnd n x 0 0 c.length

/-- CFG of a report (R528): the digest of the partition's registers, or zero. -/
def State.cfgDigest (s : State) (part : Option Nat) : List Byte :=
  match part with
  | none => List.replicate 64 0
  | some p =>
    fit 64 (sha3 (leBytes 4 (s.val .GP_ADMIN []) ++ leBytes 4 (s.val .GP_PART_CFG [p]) ++ leBytes 4 (s.val .GP_PART_CL0 [p]) ++
      leBytes 4 (s.val .GP_PART_CL1 [p]) ++ leBytes 4 (s.val .GP_PART_CL2 [p]) ++ leBytes 8 (s.val .GP_PART_BASE [p]) ++
      leBytes 4 (s.val .GP_PART_SIZE [p]) ++ leBytes 4 (s.val .GP_PART_KSHARE [p])))

/-- Bytes 0 to 319 of a report (R528). -/
def State.reportBody (s : State) (n : Nat) (nonce : List Byte) : List Byte :=
  let p := s.partOfPort n
  ascii "BLWNATST" ++ leBytes 4 1 ++ leBytes 4 4947 ++ fit 64 nonce ++ leBytes 1 s.sec.state ++ leBytes 1 s.sec.floor ++
  leBytes 1 (s.fld .BU_STATUS [] BU_STATUS_PATH) ++ leBytes 1 (p.getD 255) ++ leBytes 4 s.boot.resets ++ leBytes 8 s.boot.version ++
  fit 64 s.boot.manifest ++ s.cfgDigest p ++ leBytes 8 (match p with | some q => s.val .KS_GEN [q] | none => 0) ++
  leBytes 8 (s.val .KS_SEQ [0]) ++ fit 64 (sha3 (mldsaPublic s.sec.seed)) ++ List.replicate 16 0

/-- ATTEST (R528): the signature, hedged with random bits, covers bytes 0 to 319. -/
def State.attest (s : State) (n t : Nat) : State :=
  s.scRun n t 0x43 fun s x =>
    if !stagOk x || x.len != 4992 then s.scEnd n x 0x0C10 0 0
    else if s.sec.rngBad then s.scEnd n x 0x1009 0 0
    else
      let body := s.reportBody n (s.stagPeek n x.soff 64)
      let r := s.freeBytes 32
      let sig := mldsaSign s.sec.seed (sha3 body) r.1
      ((r.2.stagPoke n x.soff (body ++ sig ++ List.replicate 45 0)).bump .SC_ATTESTS []).scEnd n x 0 0 4992

/-- LC_CHALLENGE (R529, R536): a fresh challenge takes the place of any earlier one. -/
def State.lcChallenge (s : State) (n t : Nat) : State :=
  s.scRun n t 0x44 fun s x =>
    if !stagOk x || x.len != 64 then s.scEnd n x 0x0C10 0 0
    else if s.sec.rngBad then s.scEnd n x 0x1009 0 0
    else
      let r := s.freeBytes 64
      ((r.2.modSec fun k => { k with challenge := some r.1 }).stagPoke n x.soff r.1).scEnd n x 0 0 64

/-- SET_FLOOR (R525). -/
def State.setFloor (s : State) (n t : Nat) : State :=
  s.scRun n t 0x46 fun s x =>
    let v := x.data % 256
    if s.sec.floor < v ∧ v ≤ s.boot.version / 2 ^ 56 then (s.modSec fun k => { k with floor := v }).scEnd n x 0 0 0
    else s.scEnd n x 0x1008 0 0

/-- KEYGEN (R526). -/
def State.keygen (s : State) (n t : Nat) : State :=
  s.scRun n t 0x47 fun s x =>
    if s.sec.seed ≠ [] then s.scEnd n x 0x100A 0 0
    else if !stagOk x || x.len != 2624 then s.scEnd n x 0x0C10 0 0
    else if s.sec.rngBad then s.scEnd n x 0x1009 0 0
    else
      let r := s.freeBytes 32
      ((r.2.modSec fun k => { k with seed := r.1 }).stagPoke n x.soff (mldsaPublic r.1)).scEnd n x 0 0 2592

/-- RANDOM_HEALTH_FAIL (R540). -/
def State.rngFail (s : State) : State := ((s.modSec fun k => { k with rngBad := true }).bump .SC_RNGFAIL []).scPost none 0x1009

/-! ## Life-cycle tokens (R535 to R537) -/

/-- A token's bytes and its fields (R535). -/
def tokFld (b : List Byte) (i k : Nat) : Nat := leNat ((b.drop i).take k)
def tokBytes (b : List Byte) (i k : Nat) : List Byte := (b.drop i).take k
def tokZero (b : List Byte) (i k : Nat) : Bool := (tokBytes b i k).all (· == 0)

/-- Is a token malformed, or a reserved field of it nonzero (0x1002)? -/
def tokMalformed (b : List Byte) (len : Nat) : Bool :=
  let signer := tokFld b 24 1
  let nk := tokFld b 19 1
  tokBytes b 0 8 != ascii "BLWNLCTK" || tokFld b 8 4 != 1 || !tokZero b 12 4 || decide (tokFld b 16 1 > 4) || decide (tokFld b 17 1 > 4) ||
  decide (tokFld b 18 1 ≥ 4) || decide (nk > 4) || !tokZero b 21 3 || decide (signer > 8) || !tokZero b 25 7 ||
  (tokFld b 17 1 != 1 && !tokZero b 160 64) || !tokZero b (224 + 64 * nk) (256 - 64 * nk) || !tokZero b 480 32 || !tokZero b 5139 45 ||
  (if signer = 0 then len != 5184 else len != 7808)

/-- Is a transition permitted (R536), and who may sign it: Wilweod alone, or an owner too? None: not permitted. -/
def transition (src dst : Nat) : Option Bool :=
  if src ≤ 3 ∧ dst = 4 then some (src == 2)
  else if (src = 0 ∧ dst = 1) ∨ (src = 1 ∧ dst = 2) ∨ (src = 3 ∧ dst = 2) then some false
  else if src = 2 ∧ dst = 3 then some true
  else none

/-- The owner slots not programmed and not revoked. -/
def Sec.freeSlots (x : Sec) : List Nat := (List.range 8).filter fun k => mget x.slots k == [] && !x.revoked.testBit k

/-- The code of a token, 0: accepted. Where several apply, the lowest is given (log entry 64). -/
def State.tokenCode (s : State) (b : List Byte) (len : Nat) (challenge : Option (List Byte)) : Nat :=
  let x := s.sec
  let signer := tokFld b 24 1
  let dst := tokFld b 17 1
  let key := if signer = 0 then Config.romKey 4 else tokBytes b 5184 2592
  let good := mldsaVerify key (sha3 (tokBytes b 0 512)) (tokBytes b 512 4627)
  let devid := if x.seed = [] then List.replicate 64 0 else fit 64 (sha3 (mldsaPublic x.seed))
  let owner := signer == 0 ||
    (mget x.slots (signer - 1) != [] && !x.revoked.testBit (signer - 1) && fit 64 (sha3 key) == mget x.slots (signer - 1))
  let tr := transition x.state dst
  if tokMalformed b len then 0x1002
  else if !good then 0x1003
  else if tokBytes b 32 64 ≠ devid ∨ challenge ≠ some (tokBytes b 96 64) then 0x1004
  else if tokFld b 16 1 ≠ x.state ∨ tr.isNone ∨ (x.state = 2 ∧ dst = 3 ∧ x.count ≥ 30) then 0x1005
  else if !owner || (signer != 0 && tr != some true) then 0x1006
  else if dst = 2 ∧ tokFld b 19 1 > x.freeSlots.length then 0x1006
  else if x.floor < tokFld b 20 1 ∧ s.boot.version / 2 ^ 56 < tokFld b 20 1 then 0x1008
  else if dst = 1 ∧ x.seed = [] then 0x100A
  else 0

/-- The fuses a token programs (R536, R537): the floor, revoke bits and slots, CERTHASH, and the count. -/
def Sec.program (x : Sec) (b : List Byte) : Sec :=
  let dst := tokFld b 17 1
  let n := x.count
  let fl := max x.floor (tokFld b 20 1)
  if dst = 4 then { x with floor := fl, lc := 2 ^ 32 - 1, huk := List.replicate 32 0xFF, seed := [], debug := false }
  else
    let revoked := if tokFld b 18 1 ≥ 2 ∧ (dst = 3 ∨ x.state = 3) then x.revoked ||| x.progMask else x.revoked
    let slots := if dst = 2 then
        ((x.freeSlots.zip (List.range (tokFld b 19 1))).foldl (fun m e => mput m e.1 (tokBytes b (224 + 64 * e.2) 64)) x.slots)
      else x.slots
    { x with floor := fl, revoked := revoked, slots := slots, certhash := if dst = 1 then tokBytes b 160 64 else x.certhash,
             lc := x.lc ||| 2 ^ n, debug := dst == 3 && tokFld b 18 1 % 2 == 1 }

/-- LC_TOKEN (R536, R537): the challenge is gone once the command is taken. An accepted token completes, the keep store is erased, the
fuses are programmed, and a cold reset starts with CAUSE 5. -/
def State.lcToken (s : State) (n t : Nat) : State :=
  s.scRun n t 0x45 fun s x =>
    let ch := s.sec.challenge
    let s := s.modSec fun k => { k with challenge := none }
    if !stagOk x || (x.len != 5184 && x.len != 7808) then s.scEnd n x 0x0C10 0 0
    else
      let b := s.stagPeek n x.soff x.len
      let code := s.tokenCode b x.len ch
      if code ≠ 0 then
        ((s.bump .SC_TOKREF []).when (code == 0x1003) fun s => s.bump .SC_SIGFAIL []).scEnd n x code 0 0
      else
        let s := (s.bump .SC_TOKACC []).writeDone n { x with st := 2 }
        let s := (s.ksErase).modSec fun k => k.program b
        s.deviceReset true 5

end Sys2Proof.Machine
end

