-- ==== Sys2Proof/Machine/Boot.lean ====
section
/-! DEFINITION. Bring-up (R495 to R508, R516, R523, R524): the bundle and its verification, the phases of a start, the image broadcast,
the ready report, the recovery listener, and the reset pins (R569). -/

namespace Sys2Proof.Machine

/-! ## Bundles (R495 to R498) -/

/-- A byte of the boot flash. -/
def State.flashByte (s : State) (i : Nat) : Byte :=
  match mget s.flash i with
  | 0 => Config.erasedByte i
  | v + 1 => BitVec.ofNat 8 v

/-- Bytes and numbers of a bundle, whose bytes come from `f`. -/
def bnd (f : Nat → Byte) (i k : Nat) : List Byte := (List.range k).map fun j => f (i + j)
def bndLE (f : Nat → Byte) (i k : Nat) : Nat := leNat (bnd f i k)

/-- A section as its manifest entry gives it (R496). -/
structure Sect where
  type : Nat
  off : Nat
  len : Nat
  dest : Nat
  digest : List Byte
  /-- the entry's reserved bytes are zero -/
  plain : Bool

def sectAt (f : Nat → Byte) (a : Nat) : Sect :=
  { type := bndLE f a 2, off := bndLE f (a + 8) 8, len := bndLE f (a + 16) 8, dest := bndLE f (a + 24) 8, digest := bnd f (a + 64) 64,
    plain := bndLE f (a + 2) 6 == 0 && bndLE f (a + 32) 32 == 0 }

def sects (f : Nat → Byte) : List Sect := (List.range (bndLE f 12 4)).map fun k => sectAt f (bndLE f 24 8 + 128 * k)
def Sect.bytes (x : Sect) (f : Nat → Byte) : List Byte := bnd f x.off x.len

/-- The bytes the signature covers: the header followed by the manifest (R498). -/
def signedBytes (f : Nat → Byte) : List Byte := bnd f 0 64 ++ bnd f (bndLE f 24 8) (128 * bndLE f 12 4)

/-- The header holds no reserved value (R495). -/
def headerOk (f : Nat → Byte) : Bool :=
  bnd f 0 8 == ascii "BLWNBNDL" && bndLE f 8 4 == 1 && decide (1 ≤ bndLE f 12 4) && decide (bndLE f 12 4 ≤ 256) &&
  decide (bndLE f 16 8 ≤ 2 ^ 29) && bndLE f 24 8 % 64 == 0 && bndLE f 40 4 == 4627 && bndLE f 44 4 == 0 && bndLE f 56 8 == 0

/-- Is DEST one its type may have (R497)? -/
def Sect.destOk (x : Sect) : Bool :=
  if x.type = 7 then (match locate x.dest with | .core _ _ _ | .local _ _ _ | .mxbuf _ _ | .bank _ _ => true | _ => false)
  else if x.type = 8 then (match locate x.dest with | .lpddr _ => true | _ => false)
  else x.dest == 0

/-- No two sections overlap. -/
def apart : List Sect → Bool
  | [] => true
  | x :: t => (t.all fun y => !rangesMeet (x.off, x.len) (y.off, y.len)) && apart t

/-- The manifest holds no reserved value, its sections lie within TOTAL and apart, and each required type appears once (R496 to R498). -/
def manifestOk (f : Nat → Byte) : Bool :=
  let l := sects f
  (l.all fun x => x.plain && decide (1 ≤ x.type) && decide (x.type ≤ 9) && x.off % 64 == 0 && decide (x.off + x.len ≤ bndLE f 16 8) && x.destOk) &&
  apart l && [1, 2, 3, 4, 5].all fun k => (l.filter fun x => x.type == k).length == 1

/-- The bundle keys the life-cycle state permits (R523). -/
def State.keyPermitted (s : State) (key : List Byte) : Bool :=
  let h := fit 64 (sha3 key)
  let rom (i : Nat) : Bool := h == fit 64 (sha3 (Config.romKey i))
  match s.sec.state with
  | 0 => rom 0
  | 1 => rom 1
  | 2 => rom 1 || (List.range 8).any fun k => mget s.sec.slots k != [] && !s.sec.revoked.testBit k && h == mget s.sec.slots k
  | 3 => rom 2
  | _ => false

/-- The verification of a bundle's header, manifest and signature (R498, R523): 0, or 0x0F10, and the code posted beside it. -/
def State.headCode (s : State) (f : Nat → Byte) : Nat × Nat :=
  let ka := bndLE f 32 8 + 4672
  let key := bnd f ka 2592
  if !headerOk f || !manifestOk f || decide (ka + 2592 > bndLE f 16 8) then (0x0F10, 0)
  else if !s.keyPermitted key then (0x0F10, 0x1006)
  else if bndLE f 48 8 / 2 ^ 56 < s.sec.floor then (0x0F10, 0x1007)
  else if !mldsaVerify key (sha3 (signedBytes f)) (bnd f (bndLE f 32 8) 4627) then (0x0F10, 0x1003)
  else (0, 0)

/-- The image of a section of types 1 to 4: the section without its trailer (R524). -/
def Sect.image (x : Sect) (f : Nat → Byte) : List Byte := (x.bytes f).take (x.len - 4672)

/-- A section's digest and trailer (R498, R524): 0; 0x0F11; or 0x100C, which counts as 0x0F11 too. -/
def Sect.code (x : Sect) (f : Nat → Byte) : Nat :=
  if fit 64 (sha3 (x.bytes f)) ≠ x.digest then 0x0F11
  else if x.type ≤ 4 then
    let tr := (x.bytes f).drop (x.len - 4672)
    if x.len < 4672 ∨ !mldsaVerify (Config.romKey 3) (sha3 (x.image f)) (tr.take 4627) ∨ !((tr.drop 4627).all (· == 0)) then 0x100C
    else 0
  else 0

/-- The code of the sections of some types, the first that fails; 0: all pass. -/
def sectsCode (f : Nat → Byte) (types : List Nat) : Nat :=
  (((sects f).filter fun x => types.contains x.type).map fun x => x.code f).find? (· != 0) |>.getD 0

/-- The bundle a start reads: the flash, or the recovery buffer (R499, R516). -/
def State.source (s : State) : Nat → Byte :=
  if s.fld .BU_STATUS [] BU_STATUS_PATH = 2 then fun i => mget s.boot.buf i else s.flashByte

/-! ## Codes of a start -/

/-- A code of the start: the first stands in BU_STATUS.REASON; each goes to the logs (R519, R543). -/
def State.startPost (s : State) (unit cluster code : Nat) : State :=
  let s := if s.fld .BU_STATUS [] BU_STATUS_REASON = 0 then s.setFld .BU_STATUS [] BU_STATUS_REASON code else s
  (if 0x1000 ≤ code then s.setFld .SC_STATUS [] SC_STATUS_REASON code else s).post none 9 unit cluster code

/-- The codes of a failed verification (R498, R523, R524, R541): SC_SIGFAIL counts a signature that fails. -/
def State.verifyPost (s : State) (c : Nat × Nat) : State :=
  let s := s.startPost 0 0xFFFF c.1
  let s := if c.2 = 0x1003 ∨ c.2 = 0x100C then s.bump .SC_SIGFAIL [] else s
  if c.2 = 0 ∨ c.2 = 0x1003 then s else s.startPost 0 0xFFFF c.2

/-! ## The ready report (R507) -/

/-- The word of a cluster: STATE, FCAUSE and the engines fenced. -/
def State.readyWord (s : State) (c : Nat) : Nat :=
  let st := if (s.getRt c).hole then 2 else if (s.getBist c).held then 1 else if s.isSplit && halfOf c == 1 then 3 else 0
  st * 2 ^ 29 + mget s.boot.fcause c * 2 ^ 24 + s.val .EF_FENCE [c] % 2 ^ 19

def popcount (n : Nat) (k : Nat) : Nat := ((List.range k).filter n.testBit).length

def State.readyReport (s : State) : List Byte :=
  let b := s.boot
  fit 1024 (leBytes 4 b.resets ++ leBytes 1 (s.fld .BU_STATUS [] BU_STATUS_PATH) ++ leBytes 1 b.cause ++
    leBytes 2 (s.fld .BU_STATUS [] BU_STATUS_REASON) ++ leBytes 8 b.version ++ leBytes 4 b.tboot ++ leBytes 4 b.tbist ++ leBytes 4 b.ttrain ++
    leBytes 4 b.twipe ++ leBytes 1 (s.dmList 0 12).length ++ leBytes 1 (s.dmList 12 24).length ++
    leBytes 1 (s.fld .SM_STATUS [] SM_STATUS_INSVC) ++ leBytes 1 b.rounds ++
    leBytes 2 ((List.range 96).filter fun c => (s.getBist c).held).length ++
    leBytes 2 ((List.range 96).map fun c => popcount (s.val .EF_FENCE [c]) 19).sum ++
    leBytes 2 (s.val .BU_BCRESEND []) ++ leBytes 2 b.resFail ++ leBytes 4 b.resApplied ++
    leBytes 8 (s.val .KS_SEQ [0]) ++ leBytes 2 (s.fld .KS_DISCARD [0] KS_DISCARD_SLOT) ++ leBytes 2 (s.fld .KS_DISCARD [0] KS_DISCARD_FREED) ++
    leBytes 4 0 ++ ((List.range 8).flatMap fun p => leBytes 8 (s.val .KS_GEN [p]) ++ leBytes 8 (s.val .KS_GEPOCH [p])) ++ List.replicate 64 0 ++
    ((List.range 96).flatMap fun c => leBytes 4 (s.readyWord c)))

def State.writeReport (s : State) : State := s.poke 0xFE00001000 s.readyReport

/-! ## Memory wipes of a start -/

/-- Every SRAM array and channel reads zero (R499, R539); the rake image is kept (R554). -/
def State.wipeAll (s : State) : State := { s with mem := s.mem.filter fun e => decide (0xFE00000000 ≤ e.1) }

/-! ## Training (R375, R376, R439, R440, R460) -/

/-- One channel's training result; a channel fenced by self-test stays so. -/
def State.trainChannel (s : State) (n dens code : Nat) : State :=
  if s.fld .DM_CH_STATUS [n] DM_CH_STATUS_STATE = 2 ∨ dens = 0 then s
  else
    let s := s.setFld .DM_CH_STATUS [n] DM_CH_STATUS_DENS dens
    if code = 0 then s.setFld .DM_CH_STATUS [n] DM_CH_STATUS_STATE 1
    else ((s.setFld .DM_CH_STATUS [n] DM_CH_STATUS_STATE 2).setFld .DM_CH_STATUS [n] DM_CH_STATUS_REASON code).startPost n 0xFFFF code

/-- The capacity after training (R376, R380). -/
def State.dmSize (s : State) : State :=
  let ch := s.dmList 0 24
  let ds := ch.map fun n => s.fld .DM_CH_STATUS [n] DM_CH_STATUS_DENS
  let c := 2 ^ 32 * ds.foldl min (ds.headD 0)
  let s := s.setFld .DM_STATUS [] DM_STATUS_DMIX (if ds.any (· != ds.headD 0) then 1 else 0)
  (s.setVal .DM_CAPACITY [] (c * ch.length)).setVal .DM_EBASE [] (if s.bit .DM_CFG [] DM_CFG_XHALF then 0 else c * (s.dmList 0 12).length)

/-- One direction of a link as trained (R439, R440). -/
def State.trainLink (s : State) (n : Nat) (east : Bool) (good : Nat) (again : Bool) : State :=
  let st := if good ≥ 64 then 2 else if good ≥ 32 then 1 else 0
  let code := if again then 0x0D25 else if st = 2 then 0 else if st = 1 then 0x0D21 else 0x0D22
  if east then ((s.setFld .SM_LINK [n] SM_LINK_GOODE good).setFld .SM_LINK [n] SM_LINK_STATEE st).setFld .SM_LREASON [n] SM_LREASON_E2W code
  else ((s.setFld .SM_LINK [n] SM_LINK_GOODW good).setFld .SM_LINK [n] SM_LINK_STATEW st).setFld .SM_LREASON [n] SM_LREASON_W2E code

/-- The domains of the east half. -/
def eastDomains : List Nat :=
  ((List.range 48).map (48 + ·)) ++ ((List.range 48).map (144 + ·)) ++ [193, 195] ++ ((List.range 12).map (208 + ·)) ++ [224, 225, 226, 227]

/-- Domains held off by a start. -/
def State.holdOff (s : State) (ds : List Nat) : State :=
  s.each ds fun s n => (s.setFld .PW_STAT [n] PW_STAT_STATE 2).setFld .PW_REQ [n] PW_REQ_TARGET 2

/-- The seam after training (R439, R460, R463): in service, degraded, or, with a direction that no link serves, the west half alone. -/
def State.seamReady (s : State) : State :=
  let up (n : Nat) : Bool := s.linkState 0 n ≥ 1 || s.linkState 1 n ≥ 1
  let s := s.setFld .SM_STATUS [] SM_STATUS_INSVC ((List.range 4).map fun n => if up n then 2 ^ n else 0).sum
  if s.dirAlive 0 && s.dirAlive 1 then
    let full := (List.range 4).all fun n => s.linkState 0 n == 2 && s.linkState 1 n == 2
    (s.setFld .SM_STATUS [] SM_STATUS_STATE (if full then 0 else 1)).noteCtl.updateCaps
  else
    let s := (s.setFld .SM_STATUS [] SM_STATUS_INSVC 0).setFld .SM_STATUS [] SM_STATUS_STATE 2
    let s := s.each (List.range 8) fun s p => s.setFld .KS_STATUS [p] KS_STATUS_SPLIT 1
    let s := ((s.setFld .SM_STATUS [] SM_STATUS_REASON 0x0D07).startPost 0 0xFFFF 0x0D07).noteCtl.updateCaps
    let s := s.each ((List.range 12).map (12 + ·)) fun s n => s.setVal .DM_CH_STATUS [n] 0
    s.holdOff eastDomains

/-- The channel facts of a phase, up to a channel number. -/
def State.trainFacts (s : State) (facts : List BootFact) (top : Nat) : State :=
  (s.each facts fun s x => match x with
    | .dram n dens code => if n.val < top then s.trainChannel n.val dens.val code.toNat else s
    | _ => s).dmSize

/-! ## The recovery listener's entry (R501, R516) -/

/-- The fuse maps applied (R474, R499): VID OFFSET of both halves. -/
def State.fuseMaps (s : State) : State := s.each [0, 1] fun s h => s.setFld .CK_VID [h] CK_VID_OFFSET s.sec.offset

/-- The clocks start (R499, R516): core and fabric clocks at 1.6 GHz, VID at code 50. -/
def State.clocksStart (s : State) : State :=
  let s := s.each (List.range 96) fun s c => s.setFld .CK_CORE [c] CK_CORE_EFF 16
  s.each [0, 1] fun s h => (s.setFld .CK_FAB [h] CK_FAB_EFF 16).setFld .CK_VID [h] CK_VID_CODE 50

/-- Recovery: writes already made are wiped, the fuse maps are applied where they are valid, the clocks start, DM0 to DM11 are trained and
wiped, GP0 alone is powered, as an administrative port. -/
def State.enterRecovery (s : State) (code : Nat) (facts : List BootFact) : State :=
  let s := (s.startPost 0 0xFFFF code).wipeAll
  let s := { s with staging := [] }
  let s := (if code = 0x0F03 then s else s.fuseMaps).clocksStart
  let s := s.trainFacts facts 12
  let on (n : Nat) : Bool := (decide (196 ≤ n) && decide (n < 208)) || n == 220
  let s := s.holdOff ((List.range 229).filter fun n => !on n)
  let s := ((s.setVal .GP_ADMIN [] 1).setLink 0 lnkWait).modBoot fun b => { b with entry := code, buf := [] }
  ((s.rake 2 0).writeReport.setFld .BU_STATUS [] BU_STATUS_PHASE 0).setFld .BU_STATUS [] BU_STATUS_STATE 3

/-! ## The phases (R499, R508) -/

def State.setPhase (s : State) (k : Nat) : State := s.setFld .BU_STATUS [] BU_STATUS_PHASE k

/-- A verified bundle takes over: its version and digest, and its device settings (R497). -/
def State.acceptBundle (s : State) (f : Nat → Byte) : State :=
  let d := match (sects f).find? fun x => x.type == 5 with | some x => x.bytes f | none => []
  let n (i k : Nat) : Nat := leNat ((d.drop i).take k)
  let s := (s.setFld .DM_CFG [] DM_CFG_RATE (n 0 1)).setFld .DM_CFG [] DM_CFG_XHALF (n 1 1)
  (s.setVal .GP_ADMIN [] (n 2 1)).modBoot fun b =>
    { b with version := bndLE f 48 8, manifest := sha3 (signedBytes f), gpmfr := n 4 2, gprev := n 6 2 }

/-- Phase 2: the bundle (R498, R501, R523). -/
def State.phaseBundle (s : State) (facts : List BootFact) : State :=
  let f := s.source
  let h := s.headCode f
  let k := sectsCode f [1, 5]
  if facts.contains .flashBad then s.enterRecovery 0x0F12 facts
  else if s.sec.state = 4 then
    (s.modSec fun x => { x with lc := 2 ^ 32 - 1, huk := List.replicate 32 0xFF, seed := [] }).enterRecovery 0x1020 facts
  else if h.1 ≠ 0 then (s.verifyPost h).enterRecovery h.1 facts
  else if k ≠ 0 then (s.verifyPost (0x0F11, k)).enterRecovery 0x0F11 facts
  else (s.acceptBundle f).setPhase 3

/-- Phase 3: the fuses (R499, R501, R522). -/
def State.phaseFuses (s : State) (facts : List BootFact) : State :=
  if facts.contains .fuseBad then s.enterRecovery 0x0F03 facts
  else
    let s := s.fuseMaps
    let s := if s.sec.state = 0 ∧ s.sec.huk = [] then let r := s.freeBytes 32; r.2.modSec fun x => { x with huk := r.1 } else s
    s.setPhase 4

/-- Phase 4: every switched domain on, core and fabric clocks at 1.6 GHz, VID at code 50 (R499). -/
def State.phaseClocks (s : State) : State :=
  let s := s.each (List.range 229) fun s n => s.setFld .PW_STAT [n] PW_STAT_STATE 0
  s.clocksStart.setPhase (if s.boot.cold then 5 else 6)

/-- The first cause of a fence in a cluster (R507). -/
def State.noteFence (s : State) (c cause : Nat) : State :=
  s.modBoot fun b => if mget b.fcause c = 0 then { b with fcause := mput b.fcause c cause } else b

/-- One failure of self-test (R500). -/
def State.bistFact (s : State) : BootFact → State
  | .engine c k => ((s.fenceAt c.val k.val).noteFence c.val 1).startPost k.val c.val 0x0F14
  | .shared c => (((s.modBist c.val fun b => { b with held := true }).setVal .EF_FENCE [c.val] (2 ^ 19 - 1)).noteFence c.val 1).startPost c.val c.val 0x0F14
  | .node c => ((s.permanentHole c.val).noteFence c.val 1).startPost c.val c.val 0x0F14
  | .staging n => ((s.setLink n.val lnkDisabled).setFld .GP_PSTATUS [n.val] GP_PSTATUS_REASON 0x0F14).startPost n.val 0xFFFF 0x0F14
  | .channel n =>
    ((s.setFld .DM_CH_STATUS [n.val] DM_CH_STATUS_STATE 2).setFld .DM_CH_STATUS [n.val] DM_CH_STATUS_REASON 0x0F14).startPost n.val 0xFFFF 0x0F14
  | .westBackbone => s.startPost 192 0xFFFF 0x0F14
  | _ => s

/-- Phase 5: self-test (R500); without the west half backbone the device stays in BOOTING. -/
def State.phaseBist (s : State) (us : Nat) (facts : List BootFact) : State :=
  let s := ((s.each facts State.bistFact).modBoot fun b => { b with tbist := us }).rake 0 0
  s.setPhase (if facts.contains .westBackbone then 0 else 6)

/-- Phase 6: the seam and the channels trained, or restored and checked (R499, R508). -/
def State.phaseTrain (s : State) (us : Nat) (facts : List BootFact) : State :=
  let s := s.each facts fun s x => match x with
    | .link n east good again => s.trainLink n.val east good.val again
    | _ => s
  let s := (s.trainFacts facts 24).seamReady.dmSize
  ((s.modBoot fun b => { b with ttrain := us, aonGood := true }).rake 0 0).setPhase 7

/-! ## Images (R502 to R505) -/

/-- CRC-64 with the ECMA-182 polynomial, initial value zero and no final inversion (R502). -/
def crc64Byte (c : Nat) : Nat → Nat
  | 0 => c
  | k + 1 => crc64Byte (if c ≥ 2 ^ 63 then (2 * c % 2 ^ 64) ^^^ 0x42F0E1EBA9EA3693 else 2 * c) k
def crc64 (bs : List Byte) : Nat := bs.foldl (fun c b => crc64Byte (c ^^^ (b.toNat * 2 ^ 56)) 8) 0

/-- The image kind of an engine: 2 neuron core, 3 vector core, 4 matrix core (R497). -/
def kindOf (slot : Nat) : Nat := if slot < 16 then 2 else if slot < 18 then 3 else 4

/-- Is a cluster addressed by a control-network DEST (R320)? -/
def destHits (dest c : Nat) : Bool :=
  dest == c || (dest == 125 && halfOf c == 1) || (dest == 126 && halfOf c == 0) || dest == 127

/-- Byte i of the image an engine has stored: a vector core's lies in its local store from 0x1C000 on. -/
def State.imageByte (s : State) (c slot i : Nat) : Byte :=
  if kindOf slot = 3 then s.peek (vcAddr c (slot - 16) (0x1C000 + i)) else mget (mget s.bc (eidOf c slot)).bytes i

/-- Has an engine its whole image, with a CHECK64 that matches (R504)? -/
def State.imageDone (s : State) (c slot : Nat) (img : List Byte) : Bool :=
  (mget s.bc (eidOf c slot)).have_ == 2 ^ ((img.length + 55) / 56) - 1 &&
  crc64 ((List.range img.length).map fun i => s.imageByte c slot i) == crc64 img

/-- The image of a kind in a bundle. -/
def imageOf (f : Nat → Byte) (kind : Nat) : List Byte :=
  match (sects f).find? fun x => x.type == kind with | some x => x.image f | none => []

/-- An engine whose bitmap is complete but whose CHECK64 fails clears its bitmap (R504). -/
def State.checkImage (s : State) (c slot : Nat) : State :=
  let img := imageOf s.source (kindOf slot)
  if (mget s.bc (eidOf c slot)).have_ == 2 ^ ((img.length + 55) / 56) - 1 && !s.imageDone c slot img then
    s.modBc (eidOf c slot) fun x => { x with have_ := 0 }
  else s

/-- One engine takes a good segment: written at its offset, its bit set; a duplicate changes nothing. The last one brings the check. -/
def State.takeSegment (s : State) (c slot seg : Nat) (bs : List Byte) : State :=
  if (mget s.bc (eidOf c slot)).have_.testBit seg then s
  else
    let s := s.modBc (eidOf c slot) fun x =>
      { have_ := x.have_ + 2 ^ seg, bytes := if kindOf slot = 3 then x.bytes else pokeMem x.bytes (56 * seg) bs }
    let s := if kindOf slot = 3 then s.poke (vcAddr c (slot - 16) (0x1C000 + 56 * seg)) (bs.take (0x4000 - 56 * seg)) else s
    s.checkImage c slot

/-- A segment counted: one sent to one cluster is a resend (R503, R518). -/
def State.bcastCount (s : State) (dest : Nat) : State := if dest ≥ 125 then s.bump .BU_BCSEG [] else s.bump .BU_BCRESEND []

/-- A segment to the engines of an image kind under DEST, in the clusters it reaches (R502, R503); a bad CRC-32C is discarded. -/
def State.bcast (s : State) (dest kind seg : Nat) (words : List Word) (crc : Word) (reach : Nat → Bool) : State :=
  let bs := (words.flatMap fun w => leBytes 4 w.toNat)
  if BitVec.ofNat 32 (crc32c (leBytes 4 seg ++ bs)) ≠ crc then s
  else
    s.each ((List.range 96).filter fun c => destHits dest c && s.domOn c && reach c) fun s c =>
      s.each ((List.range 19).filter fun k => kindOf k == kind && !s.fencedEng c k) fun s k => s.takeSegment c k seg bs

/-- Engines still incomplete after the last round are fenced (R503, R504). -/
def State.fenceIncomplete (s : State) (f : Nat → Byte) : State :=
  s.each ((List.range 96).filter s.domOn) fun s c =>
    s.each (List.range 19) fun s k =>
      if s.fencedEng c k || s.imageDone c k (imageOf f (kindOf k)) then s
      else ((s.fenceAt c k).noteFence c 2).startPost k c 0x0F15

/-- KNOWN_ANSWER_RESULT (R505), in phase 7. -/
def State.knownAnswer (s : State) (c slot : Nat) (ok : Bool) : State :=
  if s.fld .BU_STATUS [] BU_STATUS_PHASE ≠ 7 ∨ s.fencedEng c slot ∨ !s.domOn c then s
  else
    let s := s.bump .BU_KATRUN []
    if ok then s else ((((s.bump .BU_KATFAIL []).fenceAt c slot).noteFence c 3).startPost slot c 0x0F16)

/-- The sections of a type, written to their destinations. -/
def State.placeSections (s : State) (f : Nat → Byte) (type : Nat) : State :=
  s.each ((sects f).filter fun x => x.type == type) fun s x => s.poke x.dest (x.bytes f)

/-- Phase 7: the wipe, the root scan, the images, and resident SRAM data (R499, R501); the standard service program stays in the local
stores it was broadcast to. -/
def State.phaseWipe (s : State) (us : Nat) (facts : List BootFact) : State :=
  let f := s.source
  let k := sectsCode f [2, 3, 4, 7]
  if k ≠ 0 then (s.verifyPost (0x0F11, k)).enterRecovery 0x0F11 facts
  else
    let s := s.fenceIncomplete f
    let svc := fit 0x4000 (imageOf f 3)
    let s := { s.wipeAll with staging := [], bc := [] }
    let s := s.each ((List.range 96).filter s.domOn) fun s c =>
      s.each ((List.range 2).filter fun v => !s.fencedEng c (16 + v)) fun s v => s.poke (vcAddr c v 0x1C000) svc
    let s := (s.placeSections f 7).rootScan s.isSplit
    let r := facts.foldl (fun m x => match x with | .rounds n => max m n.val | _ => m) 0
    ((s.modBoot fun b => { b with twipe := us, rounds := r, svc := svc }).rake 0 0).setPhase 8

/-- Phase 8: LPDDR data (R499). -/
def State.phaseData (s : State) (facts : List BootFact) : State :=
  let f := s.source
  let k := sectsCode f [8]
  if k ≠ 0 then (s.verifyPost (0x0F11, k)).enterRecovery 0x0F11 facts else (s.placeSections f 8).setPhase 9

/-- The checks a record asked for run at once, as the steward applies the records in order (R506): each refusal is counted, with 0x0F17. -/
def State.runChecks (s : State) : State :=
  let l := s.checks
  s.each l fun s x =>
    let s := { s with checks := s.checks.drop 1 }
    let r := s.checkOne x
    if r.1 = 0 then r.2 else ((r.2.modBoot fun b => { b with resFail := b.resFail + 1 }).startPost 0 0xFFFF 0x0F17)

/-- One record of the resident configuration: a register write under R8 and R13 (R497, R506). -/
def State.applyRecord (s : State) (b : List Byte) : State :=
  let n (i k : Nat) : Nat := leNat ((b.drop i).take k)
  let s := if n 7 1 % 2 = 1 then (s.wideWrite .resident (n 0 6) (n 8 8) none).2 else (s.writeWord .resident (n 0 6) (n 8 4) none).2
  s.runChecks.modBoot fun b => { b with resApplied := b.resApplied + 1 }

/-- Phase 9 (R400, R473, R474, R499, R506): the resident configuration, the gate ports, the clocks, the ready report, READY. -/
def State.phaseReady (s : State) (facts : List BootFact) : State :=
  let f := s.source
  let k := sectsCode f [6, 9]
  if k ≠ 0 then (s.verifyPost (0x0F11, k)).enterRecovery 0x0F11 facts
  else
    let chain := match (sects f).find? fun x => x.type == 9 with | some x => x.bytes f | none => []
    let s := s.modBoot fun b => { b with chain := chain }
    let recs := (sects f).filter fun x => x.type == 6
    let s := s.each recs fun s x =>
      s.each (List.range (x.len / 16)) fun s i => s.applyRecord (((x.bytes f).drop (16 * i)).take 16)
    let up (s : State) (n : Nat) : Bool := s.isAdmin n || s.bit .GP_MAP [n] GP_MAP_EN
    let s := s.each ((List.range 8).filter fun n => s.domOn (220 + n) && s.link n != lnkDisabled) fun s n =>
      if up s n then (if s.link n = lnkOff then s.setLink n lnkWait else s) else (s.portLose n).holdOff [220 + n]
    let s := s.each ((List.range 96).filter s.domOn) fun s c => s.setFld .CK_CORE [c] CK_CORE_EFF (s.clkWant c)
    let s := (((s.vidUpdate 0).vidUpdate 1).rake 0 0).writeReport
    (s.setPhase 0).setFld .BU_STATUS [] BU_STATUS_STATE 1

/-- Is every sensor at 95 °C or below (R484)? -/
def State.coolEnough (s : State) : Bool := (List.range 196).all fun i => decide (s.temp i ≤ 380)

/-- BOOT_PHASE_DONE (R484, R499, R501, R508): the phase in progress completes after `us` µs, with what it found. -/
def State.bootDone (s : State) (us : Nat) (facts : List BootFact) : State :=
  let ph := s.fld .BU_STATUS [] BU_STATUS_PHASE
  if s.resetHeld || ph == 0 || (ph == 1 && s.boot.cold && !s.coolEnough) then s
  else
    let s := s.modBoot fun b => { b with tboot := b.tboot + us }
    match ph with
    | 1 => if s.boot.straps % 2 = 1 then s.enterRecovery 0x0F13 facts else s.setPhase 2
    | 2 => s.phaseBundle facts
    | 3 => s.phaseFuses facts
    | 4 => s.phaseClocks
    | 5 => s.phaseBist us facts
    | 6 => s.phaseTrain us facts
    | 7 => s.phaseWipe us facts
    | 8 => s.phaseData facts
    | _ => s.phaseReady facts

/-! ## Recovery commands (R516) -/

def recBuffer : Nat := 2 ^ 29

/-- The code of a flash range with a granule: aligned, and within the flash. -/
def flashCode (x : Cmd) (granule : Nat) : Nat :=
  if x.adr % granule ≠ 0 ∨ x.len % granule ≠ 0 ∨ x.adr + x.len > Config.flashSize * 2 ^ 20 then 0x0C10 else 0

/-- LEN of a command that has no staging range, and SOFF and LEN of one that has (R413). -/
def lenCode (x : Cmd) : Nat := if x.len % 64 ≠ 0 ∨ x.len < 64 ∨ x.len > 7274496 then 0x0C10 else 0
def sofCode (x : Cmd) : Nat := if stagOk x then 0 else 0x0C10

def State.rcvInfo (s : State) (n t : Nat) : State :=
  s.runCmd n t 0x20 fun s x => s.endCmd n x 0 (s.boot.entry % 2 ^ 16 + Config.flashSize * 2 ^ 32) 0

def State.rcvStage (s : State) (n t : Nat) : State :=
  s.runCmd n t 0x21 fun s x =>
    if sofCode x ≠ 0 ∨ x.adr + x.len > recBuffer then s.endCmd n x 0x0C10 0 0
    else (s.poke x.adr (s.stagPeek n x.soff x.len)).endCmd n x 0 0 x.len

/-- RCV_BOOT (R516): a valid bundle in the buffer continues the cold start from phase 3, with PATH 2; the buffer is kept for it. -/
def State.rcvBoot (s : State) (n t : Nat) : State :=
  s.runCmd n t 0x22 fun s x =>
    let f : Nat → Byte := s.peek
    let h := s.headCode f
    let k := sectsCode f [1, 2, 3, 4, 5, 6, 7, 8, 9]
    if s.boot.entry = 0x0F03 then s.endCmd n x 0x0F03 0 0
    else if h.1 ≠ 0 then (s.verifyPost h).endCmd n x h.1 0 0
    else if k ≠ 0 then (s.verifyPost (0x0F11, k)).endCmd n x 0x0F11 0 0
    else
      let s := s.writeDone n { x with st := 2 }
      let b := s.boot
      let r := s.fld .BU_STATUS [] BU_STATUS_REASON
      let buf := s.mem.filter fun e => decide (e.1 < recBuffer)
      let s := s.kept
      let s := s.modBoot fun k => { k with cold := true, cause := b.cause, tboot := b.tboot, buf := buf, tripped := false }
      let s := (s.setFld .BU_STATUS [] BU_STATUS_PATH 2).setFld .BU_STATUS [] BU_STATUS_REASON r
      (s.acceptBundle s.source).setPhase 3

def State.flashRead (s : State) (n t : Nat) : State :=
  s.runCmd n t 0x23 fun s x =>
    if sofCode x ≠ 0 ∨ flashCode x 1 ≠ 0 then s.endCmd n x 0x0C10 0 0
    else (s.stagPoke n x.soff ((List.range x.len).map fun i => s.flashByte (x.adr + i))).endCmd n x 0 0 x.len

def State.flashErase (s : State) (n t : Nat) : State :=
  s.runCmd n t 0x24 fun s x =>
    if lenCode x ≠ 0 ∨ flashCode x Config.flashErase ≠ 0 then s.endCmd n x 0x0C10 0 0
    else ({ s with flash := mclear s.flash x.adr x.len } : State).endCmd n x 0 0 0

/-- One byte programmed: what it reads when it was not erased before is open (log entry 65). -/
def State.programByte (s : State) (a : Nat) (b : Byte) : State :=
  if mget s.flash a = 0 then { s with flash := mput s.flash a (b.toNat + 1) }
  else { s with flash := mput s.flash a ((Config.freeValue s.fresh).toNat % 256 + 1), fresh := s.fresh + 1 }

def State.flashProgram (s : State) (n t : Nat) : State :=
  s.runCmd n t 0x25 fun s x =>
    if sofCode x ≠ 0 ∨ flashCode x Config.flashProgram ≠ 0 then s.endCmd n x 0x0C10 0 0
    else
      let bs := s.stagPeek n x.soff x.len
      (s.each (bs.zip (List.range x.len)) fun s e => s.programByte (x.adr + e.2) e.1).endCmd n x 0 0 x.len

/-! ## Reset pins and supplies (R509, R569) -/

/-- PORST_N low: the device is held in reset, the next start is cold, and THERMTRIP_N is let go. -/
def State.porstLow (s : State) : State := s.kept.modBoot fun b => { b with porst := false, aonFault := false, aonGood := false, cold := true, thermtrip := false }

/-- PORST_N rises, with the straps sampled (bit 0 RCV_REQ, bits 2 and 1 I3CADR): a cold start at phase 1, CAUSE 4 after a trip. -/
def State.porstHigh (s : State) (straps : Nat) : State :=
  if s.boot.porst then s
  else
    let trip := s.boot.tripped || s.pw.tripped
    let k := s.kept.modBoot fun b =>
      { b with porst := true, cold := true, cause := if trip then 4 else 0, resets := 0, straps := straps, tripped := false, aonGood := false }
    (k.setFld .PW_STATUS [] PW_STATUS_TRIPLAST (if trip then 1 else 0)).bootPhase1

/-- SYSRST_N low for at least 1 µs requests a device reset; PORST_N low and a supply fault override it. -/
def State.sysrstDown (s : State) : State :=
  if !s.boot.porst || s.boot.aonFault then s.modBoot fun b => { b with sysrstLow := true }
  else (s.modBoot fun b => { b with sysrstLow := true }).deviceReset false 1

/-- SYSRST_N rises: a start that waits at phase 1 goes on. -/
def State.sysrstUp (s : State) : State :=
  if !s.boot.sysrstLow then s
  else
    let s := s.modBoot fun b => { b with sysrstLow := false }
    if s.fld .BU_STATUS [] BU_STATUS_STATE = 0 ∧ s.fld .BU_STATUS [] BU_STATUS_PHASE = 0 ∧ s.fld .BU_STATUS [] BU_STATUS_REASON = 0 then s.bootPhase1 else s

/-- STEWARD_WATCHDOG (R509). -/
def State.watchdog (s : State) : State := if s.resetHeld then s else s.deviceReset false 3

/-- VDD_AON leaves its range: the device holds itself in reset until PORST_N is cycled. -/
def State.aonFault (s : State) : State := s.kept.modBoot fun b => { b with aonFault := true, aonGood := false, cold := true }

/-- VDD_KEEP leaves its range, and returns. -/
def State.keepDrop (s : State) : State := s.modKs fun k => { k with stopped := true }
def State.keepReturn (s : State) : State := s.modKs fun k => { k with stopped := false }

end Sys2Proof.Machine
end

