-- ==== Sys2Proof/Machine/Network.lean ====
section
/-! DEFINITION. The control network (R318 to R323): the links and the ways of its messages, and its messages as the nodes and stewards act on
them. A word address names a word of the destination's cluster window, or of the device registers at a steward (log entry 66). The messages
that a command stands for are sent by the west steward, in the split state by the steward of the half they go to (log entry 85). -/

namespace Sys2Proof.Machine

/-! ## Links and ways (R318, R319) -/

/-- The cluster whose block holds a row node (R318). -/
def rowNode (c : Nat) : Nat := clusterOf (halfOf c) 3 (yOf c)

/-- A link's number, the same from both its ends: a mesh link is numbered by its western or northern node. -/
def linkNum (n : Nat) : Nat :=
  if n ≥ 480 then n
  else match n % 5 with
    | 0 => (match neighbour (n / 5) 0 with | some k => 5 * k + 2 | none => n)
    | 3 => (match neighbour (n / 5) 3 with | some k => 5 * k + 1 | none => n)
    | _ => n

/-- The cluster whose block counts for a link. -/
def linkHome (n : Nat) : Nat := if n ≥ 480 then clusterOf ((n - 480) / 6) 3 ((n - 480) % 6) else n / 5

def State.linkUp (s : State) (n : Nat) : Bool := !s.cn.failed.contains (linkNum n)

/-- A cluster node's tree path: to its row node, and on to the steward. -/
def treeLinks (c : Nat) : List Nat := [5 * c + 4, 480 + 6 * halfOf c + yOf c]
def State.treeUp (s : State) (c : Nat) : Bool := (treeLinks c).all s.linkUp

/-- The neighbours of a node behind working mesh links. -/
def State.meshWays (s : State) (c : Nat) : List Nat :=
  (List.range 4).filterMap fun d => if s.linkUp (5 * c + d) then neighbour c d else none

/-- Has a node no working link? -/
def State.noLinks (s : State) (c : Nat) : Bool := !s.linkUp (5 * c + 4) && s.meshWays c == []

/-- One step of the search: each way is longer by a node that no shorter one has reached. -/
def State.longerWays (s : State) (ps : List (List Nat)) (seen : List Nat) : List (List Nat) :=
  (ps.flatMap fun p => ((s.meshWays (p.headD 0)).filter fun k => !seen.contains k).map (· :: p)).foldl
    (fun acc p => if acc.any fun q => q.headD 0 == p.headD 0 then acc else acc ++ [p]) []

/-- The nearest node whose tree path is intact (R318), and the nodes from it to the first argument's start; none where there is none. -/
def State.wayFrom (s : State) : Nat → List (List Nat) → List Nat → Option (List Nat)
  | 0, _, _ => none
  | n + 1, ps, seen =>
    match ps.find? fun p => s.treeUp (p.headD 0) with
    | some p => some p
    | none =>
      let next := s.longerWays ps seen
      if next = [] then none else s.wayFrom n next (seen ++ next.map (·.headD 0))

def State.cnWay (s : State) (c : Nat) : Option (List Nat) := s.wayFrom 48 [[c]] [c]

/-- The links of a way. -/
def wayLinks : List Nat → List Nat
  | a :: b :: t => (((List.range 4).filter fun d => neighbour a d == some b).map fun d => linkNum (5 * a + d)) ++ wayLinks (b :: t)
  | _ => []
def State.cnLinks (s : State) (c : Nat) : List Nat :=
  match s.cnWay c with | some p => treeLinks (p.headD 0) ++ wayLinks p | none => []

/-- A node without a working link (R319): every engine of its cluster is fenced, with its messages and grants, and the groups there halt. -/
def State.cutOff (s : State) (c : Nat) : State :=
  if !s.noLinks c then s
  else
    let gs := s.groupsIn c
    let s := s.each ((List.range 19).filter fun k => !s.fencedEng c k) fun s k => s.fenceAt c k
    s.each gs fun s g => s.haltAtHarvest g 0x0880

/-- A link marks itself failed (R319). -/
def State.cnLinkFails (s : State) (n : Nat) : State :=
  let s := s.modCn fun x => { x with failed := nodups (x.failed ++ [linkNum n]) }
  if n ≥ 480 then s
  else
    let s := s.cutOff (n / 5)
    match neighbour (n / 5) (n % 5) with
    | some k => if n % 5 < 4 then s.cutOff k else s
    | none => s

/-- An error on a link (R319): a single-bit one is corrected and counted; a word is resent up to 8 times, and then the link has failed. -/
def State.linkErr (s : State) (e : LinkErr) : State :=
  if e.n.val = 0 then s.bump .TL_CORR [linkHome e.link.val]
  else
    let s := s.bump .TL_CNRETRY [linkHome e.link.val] (min e.n.val 8)
    if e.n.val = 9 then s.cnLinkFails e.link.val else s

/-- A message between a steward and a cluster's node (R318, R319, R324): the errors on its links, then its way along the links that work,
counted where nodes forward it and where it goes over mesh links. None of a cluster that no way reaches. -/
def State.cnPass (s : State) (c : Nat) (errs : List LinkErr) : Option State :=
  let on := s.cnLinks c
  let s := s.each (errs.filter fun e => on.contains (linkNum e.link.val)) fun s e => s.linkErr e
  match s.cnWay c with
  | none => none
  | some p =>
    let s := s.bump .TL_CNMSG [rowNode (p.headD 0)]
    some (s.each p.dropLast fun s k => (s.bump .TL_CNMSG [k]).bump .TL_CNREROUTE [k])

/-- What a message does at a cluster, if it gets there; the errors stay in any case. -/
def State.cnTo (s : State) (c : Nat) (errs : List LinkErr) (f : State → State) : State :=
  match s.cnPass c errs with
  | some s => f s
  | none =>
    let on := s.cnLinks c
    s.each (errs.filter fun e => on.contains (linkNum e.link.val)) fun s e => s.linkErr e

/-! ## Messages (R320, R321) -/

/-- A header word. -/
def cnHeader (kind dest len arg : Nat) : Word := BitVec.ofNat 32 (kind % 16 * 2 ^ 28 + dest % 128 * 2 ^ 21 + len % 16 * 2 ^ 17 + arg % 2 ^ 15)
def hKind (w : Word) : Nat := bitsOf w.toNat 28 4
def hDest (w : Word) : Nat := bitsOf w.toNat 21 7
def hLen (w : Word) : Nat := bitsOf w.toNat 17 4
def hArg (w : Word) : Nat := bitsOf w.toNat 0 15

/-- Is a reduction of a tag a harvest round (R322): the tag is a group whose step is being harvested? -/
def State.harvestTag (s : State) (tag : Nat) : Bool := s.wgOn tag && s.wgState tag == wsHarvesting

/-- The priority class of a message (R321). -/
def State.msgClass (s : State) (m : List Word) : Nat :=
  match hKind (m.headD 0) with
  | 0 => 1 | 1 => 2 | 2 => 2 | 3 => 0 | 4 => 0 | 7 => 2 | 8 => 1 | 9 => 1 | 10 => 0 | 11 => 1 | 12 => 2
  | _ => if s.harvestTag (hArg (m.headD 0) % 256) then 0 else 2

/-- A message enters the control lane of the seam (R321, R450): ahead of the waiting ones of a higher class number, behind all others. -/
def State.seamSend (s : State) (d : Nat) (m : List Word) : State :=
  s.modSdir d fun x =>
    { x with msgs := x.msgs.takeWhile (fun y => decide (s.msgClass y ≤ s.msgClass m)) ++ [m] ++
                     x.msgs.dropWhile fun y => decide (s.msgClass y ≤ s.msgClass m) }

/-- The half of a node or steward, and the clusters of a half that a DEST names (R320). -/
def nodeHalf (n : Nat) : Nat := if n < 96 then halfOf n else n - 96
def destIn (dest h : Nat) : List Nat := (List.range 96).filter fun c => halfOf c == h && destHits dest c

/-- Does a DEST reach into a half? -/
def destTouches (dest h : Nat) : Bool := dest == 96 + h || destIn dest h != []

/-- What a message does in the west half at once, and in the east half: at once in the split state, by its own steward; otherwise a message
crosses the seam (R318, R450). -/
def State.cnSend (s : State) (dest : Nat) (m : List Word) (f : State → Nat → State) : State :=
  let s := if destTouches dest 0 then f s 0 else s
  if !destTouches dest 1 then s
  else if s.isSplit then f s 1
  else s.seamSend 0 m

/-- Does a message between the west steward and a cluster cross the seam? -/
def State.farCluster (s : State) (c : Nat) : Bool := halfOf c == 1 && !s.isSplit

/-- A message of the west steward to a cluster: what it does there, at once or, across the seam, as it lands. -/
def State.cnDown (s : State) (c : Nat) (m : List Word) (errs : List LinkErr) (f : State → State) : State :=
  if s.farCluster c then s.seamSend 0 m else s.cnTo c errs f

/-- A message of a cluster's node to the west steward: up its half's tree, and across the seam from the east. -/
def State.cnUp (s : State) (c : Nat) (m : List Word) (errs : List LinkErr) (f : State → State) : State :=
  s.cnTo c errs fun s => if s.farCluster c then s.seamSend 1 m else f s

/-! ## WRITE and READ -/

/-- The device address of a word. -/
def cnAddr (dest w : Nat) : Nat := (if dest < 96 then winBase dest else 0xFE00000000) + 4 * w

/-- The bank of a place of a cluster's bank space or its aliases. -/
def bankAt (a : Nat) : Option (Nat × Nat) :=
  match locate a with
  | .bank c o => some (c, o)
  | .setAlias c o => some (c, o)
  | .clrAlias c o => some (c, o)
  | _ => none

/-- The steward's grant of a line operation at a bank (R384; log entry 166). -/
def State.bankOnce (s : State) (a : Nat) : State :=
  match bankAt a with | some (c, o) => s.arbOnce (bankArb c (bankOf o)) | none => s

/-- Does a bank in retention take no access to a place (R367)? -/
def State.bankSleeps (s : State) (a : Nat) : Bool :=
  match bankAt a with | some (c, o) => !s.bankAwake c (bankOf o) | none => false

/-- A write through an alias that meets one of some uncorrectable lines leaves it unchanged, and the bank takes the error (R371). -/
def State.aliasStays (s : State) (bad : List Nat) (a : Nat) : Option State :=
  match locate a with
  | .setAlias c o => if inRange (plainAddr a / 64 * 64) 64 (bad.map plainAddr) != [] then some (s.bankLineBad c o) else none
  | .clrAlias c o => if inRange (plainAddr a / 64 * 64) 64 (bad.map plainAddr) != [] then some (s.bankLineBad c o) else none
  | _ => none

/-- A word written in a node's cluster, or in a steward's block; an access that R39 or R41 drops is counted at the cluster addressed
(log entry 85). -/
def State.cnPut (s : State) (bad : List Nat) (dest a v : Nat) : State :=
  match locate a with
  | .creg _ => (s.writeWord (.steward (nodeHalf dest == 1)) a v none).2
  | .dreg => (s.writeWord (.steward (nodeHalf dest == 1)) a v none).2
  | _ =>
    if !s.memUp a then s.bump .PC_STRAY [dest]
    else if s.bankSleeps a then s
    else
      let s := s.bankOnce a
      match s.aliasStays bad a with
      | some s => s
      | none => ((s.coreTouch a).lineWrite dest a (leBytes 4 v)).observe (plainAddr a)

/-- A word read there. A word with an uncorrectable error reads as a free value, and a bank takes the error (R26, R370); one of a bank in
retention reads as zero (log entry 175). -/
def State.cnGet (s : State) (bad : List Nat) (dest a : Nat) : Nat × State :=
  match locate a with
  | .creg _ => s.readWord (.steward (nodeHalf dest == 1)) a
  | .dreg => s.readWord (.steward (nodeHalf dest == 1)) a
  | _ =>
    if !s.memUp a then (0, s.bump .PC_STRAY [dest])
    else if s.bankSleeps a then (0, s)
    else if bad.contains a then
      let r := ((s.bankOnce a).countRead a).draw
      (r.1.toNat % 2 ^ 32, match locate (plainAddr a) with | .bank c o => r.2.bankLineBad c o | _ => r.2)
    else (leNat (s.readBytes a 4), ((s.bankOnce a).countRead a).coreTouch a)

/-- Words written from one place on. -/
def State.cnPuts (s : State) (bad : List Nat) (dest a : Nat) (ws : List Word) : State :=
  s.each (ws.zip (List.range ws.length)) fun s x => s.cnPut bad dest (a + 4 * x.2) x.1.toNat

/-- n words read from an address on. -/
def State.cnGets (s : State) (bad : List Nat) (dest a : Nat) : Nat → List Word × State
  | 0 => ([], s)
  | n + 1 =>
    let x := s.cnGet bad dest a
    let r := x.2.cnGets bad dest (a + 4) n
    (BitVec.ofNat 32 x.1 :: r.1, r.2)

/-- A WRITE in one half. -/
def State.cnWriteIn (s : State) (dest addr : Nat) (ws : List Word) (meets : FlipErr) (h : Nat) : State :=
  if dest = 96 + h then s.cnPuts meets.bad dest (cnAddr dest addr) ws
  else s.each (destIn dest h) fun s c => s.cnTo c meets.links fun s => s.cnPuts meets.bad c (cnAddr c addr) ws

/-- CN_WRITE (R321): the payload's data words go to its address, in every cluster DEST names. -/
def State.cnWrite (s : State) (dest addr : Nat) (ws : List Word) (meets : FlipErr) : State :=
  s.cnSend dest (cnHeader 0 dest (ws.length + 1) 0 :: BitVec.ofNat 32 addr :: ws) fun s h => s.cnWriteIn dest addr ws meets h

/-- One node's answer to a READ: its words are on their way to the requester, at most 15 to a RESP (R320, R321). -/
def State.cnReadAt (s : State) (bad : List Nat) (node count requester addr : Nat) : State :=
  let r := s.cnGets bad node (cnAddr node addr) count
  r.2.modCn fun x => { x with resps := x.resps ++ (chunks 15 r.1).map fun ws => (node, requester, ws) }

/-- A READ in one half. -/
def State.cnReadIn (s : State) (bad : List Nat) (dest count requester addr : Nat) (errs : List LinkErr) (h : Nat) : State :=
  if dest = 96 + h then s.cnReadAt bad dest count requester addr
  else s.each (destIn dest h) fun s c => s.cnTo c errs fun s => s.cnReadAt bad c count requester addr

/-- CN_READ (R321). -/
def State.cnRead (s : State) (bad : List Nat) (dest count requester addr : Nat) (errs : List LinkErr) : State :=
  s.cnSend dest [cnHeader 1 dest 2 count, BitVec.ofNat 32 requester, BitVec.ofNat 32 addr] fun s h =>
    s.cnReadIn bad dest count requester addr errs h

/-- A node takes what a message brings it. -/
def State.cnTake (s : State) (node : Nat) (ws : List Word) : State := s.modCn fun x => { x with got := mput x.got node ws }

/-- A RESP's data reach the requester node. -/
def State.cnGot (s : State) (requester : Nat) (ws : List Word) (errs : List LinkErr) : State :=
  if requester < 96 then s.cnTo requester errs fun s => s.cnTake requester ws else s.cnTake requester ws

/-- CN_RESP (R321): the oldest response goes to its requester, across the seam where that lies in the other half. -/
def State.cnResp (s : State) (errs : List LinkErr) : State :=
  match s.cn.resps with
  | [] => s
  | (node, r, ws) :: t =>
    let s := s.modCn fun x => { x with resps := t }
    let go (s : State) : State :=
      if nodeHalf node = nodeHalf r then s.cnGot r ws errs
      else if s.isSplit then s
      else s.seamSend (nodeHalf node) (cnHeader 2 r ws.length 0 :: ws)
    if node < 96 then s.cnTo node errs go else go s

/-! ## FENCE, RESET and STATUS -/

def State.cnFenceAt (s : State) (c slot : Nat) (errs : List LinkErr) : State :=
  s.cnTo c errs fun s => if s.fencedEng c slot then s else s.fenceAt c slot

/-- CN_FENCE (R283, R320, R321): in every cluster DEST names. -/
def State.cnFence (s : State) (dest slot : Nat) (errs : List LinkErr) : State :=
  s.cnSend dest [cnHeader 8 dest 0 slot] fun s h => s.each (destIn dest h) fun s c => s.cnFenceAt c slot errs

/-- What a RESET of a scope resets at a node's cluster (R321, R509); a core by its slot. -/
def State.cnResetAt (s : State) (c scope slot : Nat) (errs : List LinkErr) : State :=
  s.cnTo c errs fun s =>
    let go (t : Nat) : State := (s.rstWrite (scope + t * 2 ^ 12) (.steward (halfOf c == 1))).2
    match scope with
    | 0 => go (coordOf c slot)
    | 1 => go c
    | 2 => match s.partOfCluster c with | some p => go p | none => s
    | _ => go 0

/-- CN_RESET (R320, R321, R509): the scope the message names, at the node of every cluster DEST names; its payload names a core's slot
(log entry 85). -/
def State.cnReset (s : State) (dest scope slot : Nat) (errs : List LinkErr) : State :=
  s.cnSend dest [cnHeader 9 dest 1 scope, BitVec.ofNat 32 slot] fun s h => s.each (destIn dest h) fun s c => s.cnResetAt c scope slot errs

/-- CN_STATUS (R321): a node reports to its steward without a request. -/
def State.cnStatus (s : State) (c cause : Nat) (ws : List Word) (errs : List LinkErr) : State :=
  s.cnTo c errs fun s => s.cnTake (96 + halfOf c) (cnHeader 11 (96 + halfOf c) ws.length cause :: ws)

/-! ## Reductions (R322) -/

/-- One word of a REDUCE (R322): sum modulo 2^32, unsigned maximum, unsigned minimum, AND, OR. -/
def redOp (op : Nat) (a b : Word) : Word :=
  match op with
  | 0 => a + b
  | 1 => if a.toNat < b.toNat then b else a
  | 2 => if b.toNat < a.toNat then b else a
  | 3 => a &&& b
  | _ => a ||| b

/-- Operands combined word by word; a shorter operand leaves the other's words. -/
def redWords (op : Nat) : List Word → List Word → List Word
  | a :: as, b :: bs => redOp op a b :: redWords op as bs
  | [], bs => bs
  | as, [] => as

/-- Where a node keeps what it has combined for a tag: the row nodes are 0 to 11, by half and row, the stewards 12 and 13. -/
def redKey (tag node : Nat) : Nat := tag * 16 + node
def rowOf (c : Nat) : Nat := halfOf c * 6 + yOf c

/-- An operand combined into what a node holds. -/
def State.redAt (s : State) (tag op node : Nat) (ws : List Word) : State :=
  s.modCn fun x => { x with red := mput x.red (redKey tag node) (redWords op (mget x.red (redKey tag node)) ws) }

/-- Have all the participants that a node waits for given their operands (R322)? With no mask loaded it waits for none. -/
def State.redHas (s : State) (tag : Nat) (below : Nat → Bool) : Bool :=
  ((mget s.cn.mask tag).filter below).all (mget s.cn.from_ tag).contains

/-- What a node holds, sent on. -/
def State.redPass (s : State) (tag node : Nat) (f : State → List Word → State) : State :=
  f (s.modCn fun x => { x with red := mput x.red (redKey tag node) [] }) (mget s.cn.red (redKey tag node))

/-- The east root's operand crosses to the west root, once its participants have given theirs; in the split state each steward is a root. -/
def State.redCross (s : State) (tag op : Nat) : State :=
  if s.isSplit || !s.redHas tag (fun c => halfOf c == 1) then s
  else s.redPass tag 13 fun s ws => s.seamSend 1 (cnHeader 5 96 ws.length (op * 2 ^ 12 + tag) :: ws)

/-- CN_REDUCE (R322): a participant's operand, combined at its row node, which forwards what its participants have given; the root combines
that. With a participation mask, a node outside it takes no part; a participant gives one operand. -/
def State.cnReduce (s : State) (c op tag : Nat) (ws : List Word) (errs : List LinkErr) : State :=
  let mask := mget s.cn.mask tag
  if (mget s.cn.from_ tag).contains c || (mask != [] && !mask.contains c) then s
  else s.cnTo c errs fun s =>
    let s := (s.redAt tag op (rowOf c) ws).modCn fun x => { x with from_ := mput x.from_ tag (mget x.from_ tag ++ [c]) }
    if !s.redHas tag fun k => rowOf k == rowOf c then s
    else
      let s := s.redPass tag (rowOf c) fun s ws => s.redAt tag op (12 + halfOf c) ws
      if halfOf c = 0 then s else s.redCross tag op

/-- The participants of a half that have given their operands; 97 among the givers is the east root's operand, arrived in the west. -/
def State.redFrom (s : State) (tag h : Nat) : List Nat := (mget s.cn.from_ tag).filter fun c => decide (c < 96) && halfOf c == h

/-- May the root of a half send the result (R322): every participant below it has given its operand, and the east root, where it has any? -/
def State.redReady (s : State) (tag h : Nat) : Bool :=
  if s.isSplit then s.redFrom tag h != [] && s.redHas tag fun c => halfOf c == h
  else h == 0 && mget s.cn.from_ tag != [] && s.redHas tag (fun _ => true) && (s.redFrom tag 1 == [] || (mget s.cn.from_ tag).contains 97)

/-- A RESULT in a half: every participant there takes it, and the reduction starts afresh. -/
def State.cnResultIn (s : State) (tag h : Nat) (ws : List Word) (errs : List LinkErr) : State :=
  let who := s.redFrom tag h
  let s := s.modCn fun x =>
    { x with res := mput x.res (redKey tag (12 + h)) ws, red := mput x.red (redKey tag (12 + h)) [],
             from_ := mput x.from_ tag ((mget x.from_ tag).filter fun c => !who.contains c && c != 97) }
  s.each who fun s c => s.cnTo c errs fun s => s.cnTake c ws

/-- CN_RESULT (R322): the root's result goes down the tree to every participant, and across the seam to those of the east half; in the split
state each root sends its own. -/
def State.cnResult (s : State) (tag : Nat) (errs : List LinkErr) : State :=
  s.each [0, 1] fun s h =>
    if !s.redReady tag h then s
    else
      let ws := mget s.cn.red (redKey tag (12 + h))
      let s := if h = 0 && !s.isSplit && s.redFrom tag 1 != [] then s.seamSend 0 (cnHeader 6 125 ws.length tag :: ws) else s
      s.cnResultIn tag h ws errs

/-! ## Messages whose meaning stands in other files -/

/-- The cluster whose node serves an engine; a gate port's event source, that of its attachment cluster. -/
def engNode (k : Nat) : Nat := if k ≥ 0x1000 then attachOf (k - 0x1000) else k / 32

/-- The low words of a group's step, as OPEN carries them (R321). -/
def State.openWords (s : State) (g : Nat) : List Word := [BitVec.ofNat 32 (s.val .WG_STEP [g]), BitVec.ofNat 32 (s.wgWStep g)]

/-- CN_OPEN (R61, R102, R321). -/
def State.cnOpenTo (s : State) (g k : Nat) (bad : List Nat) (errs : List LinkErr) : State :=
  s.cnDown (engNode k) (cnHeader 3 (engNode k) 2 g :: s.openWords g) errs fun s => s.cnOpen bad g k

/-- CN_DONE (R65, R321); across the seam its payload names the engine (log entry 85). -/
def State.cnDone (s : State) (g k : Nat) (errs : List LinkErr) : State :=
  if !s.engDone g k then s
  else s.cnUp (engNode k) [cnHeader 4 96 1 g, BitVec.ofNat 32 k] errs fun s => s.emitDone g k

/-- CN_FLIP (R180, R321) to a core. -/
def State.cnFlipTo (s : State) (c n : Nat) (meets : FlipErr) : State :=
  match s.coreSet c n with
  | some k => s.cnDown c [cnHeader 10 c 0 k] meets.links fun s => s.cnFlip meets.bad c n
  | none => s

/-- CN_TLOAD (R313, R321): the next field of a loading schedule; across the seam its payload names the schedule (log entry 85). -/
def State.cnTload (s : State) (n : Nat) (errs : List LinkErr) : State :=
  s.cnDown (s.tloadAt n) [cnHeader 12 (s.tloadAt n) 1 0, BitVec.ofNat 32 n] errs fun s => s.tload n

/-- A BCAST in one half (R319, R502): the segment reaches the clusters under DEST that a way leads to. -/
def State.cnBcastIn (s : State) (dest kind seg : Nat) (ws : List Word) (crc : Word) (errs : List LinkErr) (h : Nat) : State :=
  let s := s.each ((destIn dest h).flatMap s.cnLinks |> nodups) fun s l =>
    s.each (errs.filter fun e => linkNum e.link.val == l) fun s e => s.linkErr e
  s.bcast dest kind seg ws crc fun c => halfOf c == h && (s.cnWay c).isSome

/-- CN_BCAST (R502), counted once; across the seam the message goes with the image kind, which the descriptor of R502 has given the targets
(log entry 85). -/
def State.cnBcast (s : State) (dest kind seg : Nat) (ws : List Word) (crc : Word) (errs : List LinkErr) : State :=
  (s.bcastCount dest).cnSend dest (cnHeader 7 dest 15 seg :: ws ++ [crc, BitVec.ofNat 32 kind]) fun s h =>
    s.cnBcastIn dest kind seg ws crc errs h

/-! ## Across the seam -/

/-- Of the device addresses of words that read uncorrectable, the store addresses of a core (R26). -/
def storeBad (bad : List Nat) (c n : Nat) : List Nat :=
  bad.filterMap fun a => match locate a with | .core c' n' o => if c' = c ∧ n' = n then some o else none | _ => none

/-- An OPEN that has crossed (R61): every engine of the cluster that the group's step still waits for. -/
def State.openLanded (s : State) (c g : Nat) (ws : List Word) (meets : FlipErr) : State :=
  if s.openWords g ≠ ws then s
  else s.cnTo c meets.links fun s =>
    s.each ((s.enginesOf g).filter fun k => engNode k == c) fun s k => s.cnOpen (storeBad meets.bad c (k % 32)) g k

/-- A FLIP that has crossed (R180): every core of the set in the cluster. -/
def State.flipLanded (s : State) (c k : Nat) (meets : FlipErr) : State :=
  s.cnTo c meets.links fun s =>
    s.each ((s.setActive2 k).filter fun x => x.1 == c) fun s x => s.cnFlip (storeBad meets.bad x.1 x.2) x.1 x.2

/-- A message that has crossed acts in its half, over the links of that half's network (R318, R319, R450). -/
def State.cnLanded (s : State) (h : Nat) (m : List Word) (meets : FlipErr) : State :=
  match m with
  | [] => s
  | w :: ws =>
    let arg (i : Nat) : Nat := (ws.getD i 0).toNat
    match hKind w with
    | 0 => s.cnWriteIn (hDest w) (arg 0) ws.tail meets h
    | 1 => s.cnReadIn meets.bad (hDest w) (hArg w) (arg 0) (arg 1) meets.links h
    | 2 => s.cnGot (hDest w) ws meets.links
    | 3 => s.openLanded (hDest w) (hArg w) ws meets
    | 4 => s.emitDone (hArg w) (arg 0)
    | 5 => (s.redAt (hArg w % 256) (hArg w / 2 ^ 12) 12 ws).modCn fun x =>
        { x with from_ := mput x.from_ (hArg w % 256) (nodups (mget x.from_ (hArg w % 256) ++ [97])) }
    | 6 => s.cnResultIn (hArg w % 256) 1 ws meets.links
    | 7 => s.cnBcastIn (hDest w) (arg (ws.length - 1)) (hArg w) (ws.take (ws.length - 2)) (ws.getD (ws.length - 2) 0) meets.links h
    | 8 => s.each (destIn (hDest w) h) fun s c => s.cnFenceAt c (hArg w) meets.links
    | 9 => s.each (destIn (hDest w) h) fun s c => s.cnResetAt c (hArg w) (arg 0) meets.links
    | 10 => s.flipLanded (hDest w) (hArg w) meets
    | 12 => if s.tloadAt (arg 0) = hDest w then s.cnTo (hDest w) meets.links fun s => s.tload (arg 0) else s
    | _ => s

/-- SEAM_DATA_CELL with what a control cell brings across (R450): the messages act in the order in which they crossed. -/
def State.seamArrive (s : State) (d l vl : Nat) (fate : CellFate) : State :=
  let s := s.seamDataCell d l vl fate
  let ms := (s.getSdir d).got
  let s := s.modSdir d fun x => { x with got := [] }
  s.each ms fun s m => s.cnLanded (1 - d) m ⟨fate.links, fate.bad⟩

/-- RAKE_PASS_DONE (R553, R554): the clusters no way of the network leads to are missed, with those a pass lost. -/
def State.rakePass (s : State) (lost : List Nat) : State :=
  s.rakeDone (lost ++ (List.range 96).filter fun c => (s.cnWay c).isNone || (s.isSplit && halfOf c == 1))

end Sys2Proof.Machine
end

