-- ==== Sys2Proof/WellFormed.lean ====
section
/-! DEFINITION. Which commands exist: the lengths of their word lists (R319, R321, R322, R502). Every other operand has a type that holds
only values the spec gives it. -/

namespace Sys2Proof

/-- A control-network message carries at most 15 payload words (R320); a WRITE has its address in the first, a BCAST segment is 14 words and
their CRC. -/
def Instr.wf : Instr → Bool
  | .cnWrite _ _ ws _ => decide (ws.length ≤ 14)
  | .cnReduce _ _ _ ws _ => decide (1 ≤ ws.length) && decide (ws.length ≤ 15)
  | .cnBcast _ _ _ ws _ _ => decide (ws.length = 14)
  | .cnStatus _ _ ws _ => decide (ws.length ≤ 15)
  | _ => true

end Sys2Proof
end

