-- ==== Sys2Proof/Machine/Deliver.lean ====
section
/-! DEFINITION. Operations the commands share: the places operands name, an enable bit in a written value, the delivery stage's hand-over of
flits to engines (R98, R148, R150, R167, R278, R282), and a few commands that no other file holds. -/

namespace Sys2Proof.Machine

/-! ## What operands name -/

/-- The number of an engine or port (eidOf, eidPort). -/
def engineId : EngineAt → Nat
  | .engine c slot => eidOf c.val slot.val
  | .port n => eidPort n.val

/-- The key of a message target. -/
def targetKey : TargetAt → Nat
  | .channel c n => c.val * 64 + n.val
  | .queue c q => c.val * 64 + 32 + q.val
  | .host n ch => 0x10000 + n.val * 16 + ch.val

/-- The key of an arbiter. -/
def arbKey : ArbAt → Nat
  | .memory n => n.val
  | .staging n => 24 + n.val
  | .bank c b => 32 + c.val * 8 + b.val
  | .keep c => 800 + c.val

/-- The key of a transfer: its requester endpoint × 32 + its tag (R306). -/
def xferKey (x : XferAt) : Nat := x.ep.val * 32 + x.tag.val

/-- A written value with its enable bit, bit 0, as the command says. -/
def withEn (v : Word) (on : Bool) : Nat := v.toNat / 2 * 2 + (if on then 1 else 0)

/-- A written value with its enable bit, bit 31, as the command says (R294: EF_REMAP; R434: GP_EVSRC). -/
def withTop (v : Word) (on : Bool) : Nat := v.toNat % 2 ^ 31 + (if on then 2 ^ 31 else 0)

/-- A value of BU_RST with its SCOPE as the command says (R509). -/
def withScope (v : Word) (scope : Nat) : Nat := v.toNat / 4 * 4 + scope

/-! ## The delivery stage -/

/-- The first flit of the delivery stage that `want` describes is handed to its engine. One for an engine fenced or not on by now meets
checks 5 to 7 of R278 (R283): rewritten into the spill, or absorbed. Without room in the target's queue it goes to the spill, or stays while
the spill has none (R282). -/
def State.deliverTo (s : State) (c slot : Nat) (want : Flit → Bool) (room : Flit → Bool) (give : State → Flit → State) : State :=
  match s.takeDlv c want with
  | none => s
  | some (m, s') =>
    if s.fencedEng c slot then
      match (if m.rw then none else s.remapOf (fDest m.f)) with
      | some d => if s.spillRoom c m.f then let r := s'.rewrite c m d; r.2.spillPut c r.1 else s
      | none => s'.absorbFenced c m.f
    else if s.engineOff c slot then (s'.trace c m.f 2 (coordOf c (fDC m.f)) 7).absorb c m.f 7 .EF_ABS_OFF
    else if room m.f then give s' m.f
    else if s.spillRoom c m.f then s'.spillPut c m
    else s

/-- CORE_FLIT_ENQUEUE (R98, R111). -/
def State.coreFlit (s : State) (c n : Nat) : State :=
  s.deliverTo c n (fun f => fDC f == n && fKind f != 2) (fun _ => decide ((s.getNc c n).inq.length < 64)) fun s f => s.coreEnqueue c n f

/-- MODULATOR_FLIT (R167). -/
def State.modulatorFlit (s : State) (c n : Nat) : State :=
  s.deliverTo c n (fun f => fDC f == n && fKind f == 2) (fun _ => true) fun s f => s.modFlit c n f

/-- SINK_ADD (R148): the first flit for the sink, or, where there is none, one that waits in it (R582). -/
def State.sinkFlit (s : State) (meets : SinkMeet) (c e : Nat) : State :=
  let mine (f : Flit) : Bool := fDC f == engSlot e && decide (fKind f < 2)
  if (s.getRt c).dlv.any fun m => mine m.f then
    s.deliverTo c (engSlot e) mine (fun _ => true) fun s f => s.sinkTake meets c e f
  else s.sinkHeld meets c e

/-- INBAND_QUEUE_ENTER (R150). -/
def State.inbandFlit (s : State) (c e : Nat) : State :=
  s.deliverTo c (engSlot e) (fun f => fDC f == engSlot e && decide (fKind f ≥ 2)) (fun _ => decide ((s.getEng c e).ibq.length < 32))
    fun s f => s.ibqTake c e f

/-! ## Others -/

/-- EMIT_RECORD (R147): the port takes its next record; the matrix core then fills the port up again (R216). -/
def State.emitPort (s : State) (bad : List Nat) (c e : Nat) : State :=
  let s := s.emitRecord bad c e
  if e = 2 then s.mxEmitFill c else s

/-- MX_ABORT (R221): the write of MX_CTRL.ABORT, with the cycles the running descriptor has run for. -/
def State.abortWrite (s : State) (req : Requester) (c cycles : Nat) : State :=
  if s.regReachReg req (some .MX_CTRL) (Reg.MX_CTRL.place [c]) true then s.mxAbort c cycles
  else match req with | .engine _ _ => s.stray req | _ => s

/-- FABRIC_RESET_SELFCHECK_DONE (R289): at a permanent hole the engines are fenced, and their messages and grants end (R283, R353, R389). -/
def State.selfCheckDone (s : State) (c : Nat) (pass : Bool) : State :=
  let was := (s.getRt c).reset
  let s := s.fresetCheck c pass
  if was = 3 ∧ !pass then ((s.mqDown c none).arbDrop fun e => decide (e / 8 = c)).brokenFail else s

/-- DM_TRACKING_PAUSE (R377, R383): tracking that fails three times in a row makes the channel fail. -/
def State.trackingPause (s : State) (n : Nat) (fail : Bool) : State :=
  let s := (s.bump .DM_RETRAIN [n]).modArb n fun a => { a with track := if fail then a.track + 1 else 0 }
  if (s.getArb n).track ≥ 3 then s.chanFail n else s

/-- A control word of the host, taken only while its port is on and in service (R403, R404). -/
def State.hostCtrl (s : State) (n : Nat) (f : State → State) : State :=
  if s.portOn n && s.link n == lnkService then f (s.bump .GP_HWR [n]) else s

/-- BIND_ENTRY_ENABLE (R218): the bind entries of a matrix core, a vector core and a port's event source. -/
def State.bindEnable (s : State) (req : Requester) (at_ : BindAt) (v : Word) : State :=
  match at_ with
  | .mx c n => s.cmdWrite req .MX_BIND [c.val, n.val] (withEn v true)
  | .vx c k n => s.cmdWrite req .VX_BIND [c.val, k.val, n.val] (withEn v true)
  | .port n b => s.cmdWrite req .GP_EVBIND [n.val, b.val] (withEn v true)

end Sys2Proof.Machine
end

