-- ==== Sys2Proof/Machine/ControlNet.lean ====
section
/-! DEFINITION. Commands: the control network (spec/09). -/

namespace Sys2Proof.Machine

/-- CN_WRITE (R321): A control-network WRITE message writes its data words at its address. -/
def execCnWrite (dest : Fin 128) (addr : BitVec 26) (ws : List Word) (errs : FlipErr) (s : State) : Host.Outcome State Fault Refusal :=
  if (Instr.cnWrite dest addr ws errs).wf then .next (s.cnWrite dest.val addr.toNat ws errs) else .fault .illFormed

/-- CN_READ (R321): A READ message reads words and returns them in a RESP. -/
def execCnRead (dest : Fin 128) (count : BitVec 15) (from_ : Fin 98) (addr : BitVec 26) (bad : List Nat) (errs : List LinkErr) (s : State) : Host.Outcome State Fault Refusal :=
  .next (s.cnRead bad dest.val count.toNat from_.val addr.toNat errs)

/-- CN_RESP (R321): A RESP message delivers read data to the requester. -/
def execCnResp (errs : List LinkErr) (s : State) : Host.Outcome State Fault Refusal := .next (s.cnResp errs)

/-- CN_DONE (R321): A DONE message carries an engine's emit-done toward the root. -/
def execCnDone (g : Fin 256) (e : EngineAt) (errs : List LinkErr) (s : State) : Host.Outcome State Fault Refusal :=
  .next (s.cnDone g.val (engineId e) errs)

/-- CN_REDUCE (R322): A REDUCE message combines the participants' operands at each node on its way up the tree. -/
def execCnReduce (c : Fin 96) (op : Fin 5) (tag : BitVec 8) (ws : List Word) (errs : List LinkErr) (s : State) : Host.Outcome State Fault Refusal :=
  if (Instr.cnReduce c op tag ws errs).wf then .next (s.cnReduce c.val op.val tag.toNat ws errs) else .fault .illFormed

/-- CN_RESULT (R322): A RESULT message carries a reduction result down the tree. -/
def execCnResult (tag : BitVec 8) (errs : List LinkErr) (s : State) : Host.Outcome State Fault Refusal :=
  .next (s.cnResult tag.toNat errs)

/-- CN_BCAST (R502): A BCAST segment is checked by each target and written if its CRC is good. -/
def execCnBcast (dest : Fin 128) (kind : Fin 5) (seg : BitVec 15) (ws : List Word) (crc : Word) (errs : List LinkErr) (s : State) : Host.Outcome State Fault Refusal :=
  if (Instr.cnBcast dest kind seg ws crc errs).wf then .next (s.cnBcast dest.val kind.val seg.toNat ws crc errs) else .fault .illFormed

/-- CN_FENCE (R321): A FENCE message fences the engine in the core slot it names. -/
def execCnFence (dest : Fin 128) (slot : Fin 19) (errs : List LinkErr) (s : State) : Host.Outcome State Fault Refusal :=
  .next (s.cnFence dest.val slot.val errs)

/-- CN_RESET (R321): A RESET message resets the scope it names. -/
def execCnReset (dest : Fin 128) (scope : Fin 4) (slot : Fin 19) (errs : List LinkErr) (s : State) : Host.Outcome State Fault Refusal :=
  .next (s.cnReset dest.val scope.val slot.val errs)

/-- CN_STATUS (R321): A STATUS message from a node reports a cause, a missing segment or counters to its steward. -/
def execCnStatus (c : Fin 96) (cause : BitVec 15) (ws : List Word) (errs : List LinkErr) (s : State) : Host.Outcome State Fault Refusal :=
  if (Instr.cnStatus c cause ws errs).wf then .next (s.cnStatus c.val cause.toNat ws errs) else .fault .illFormed

/-- CN_TLOAD (R321): A TLOAD message writes one slot-table field or send-map entry. -/
def execCnTload (n : Fin 64) (errs : List LinkErr) (s : State) : Host.Outcome State Fault Refusal :=
  .next (s.cnTload n.val errs)

end Sys2Proof.Machine
end

