-- ==== Sys2Proof/Machine/Cores.lean ====
section
/-! DEFINITION. Commands: neuron cores, events and event units (spec/03, spec/04). -/

namespace Sys2Proof.Machine

/-- NC_ENABLE (R95): Writing NC_CFG.EN = 1 starts the fill of the three power tables. -/
def execNcEnable (req : Requester) (c : Fin 96) (n : Fin 16) (v : Word) (s : State) : Host.Outcome State Fault Refusal :=
  .next (s.cmdWrite req .NC_CFG [c.val, n.val] (withEn v true))

/-- POWER_TABLE_FILL_DONE (R95): After 3,072 cycles the power tables are filled and the core reads IDLE. -/
def execPowerTableFillDone (c : Fin 96) (n : Fin 16) (s : State) : Host.Outcome State Fault Refusal :=
  .next (s.ncFillDone c.val n.val)

/-- CN_OPEN (R102): An OPEN message reaching an engine opens the step there; a neuron core starts its integration scan. -/
def execCnOpen (g : Fin 256) (e : EngineAt) (bad : List Nat) (errs : List LinkErr) (s : State) : Host.Outcome State Fault Refusal :=
  .next (s.cnOpenTo g.val (engineId e) bad errs)

/-- FANOUT_WALK (R133): The fan-out unit walks an event's chain and forms one flit per destination word into the injection queue. -/
def execFanoutWalk (c : Fin 96) (n : Fin 16) (bad : List Nat) (s : State) : Host.Outcome State Fault Refusal :=
  .next (s.fanoutWalk bad c.val n.val)

/-- ENGINE_EMIT_DONE (R65): An engine reports emit-done once it will inject nothing more for the step and its injection-queue flits have
left. -/
def execEngineEmitDone (g : Fin 256) (e : EngineAt) (s : State) : Host.Outcome State Fault Refusal :=
  .next (s.emitDone g.val (engineId e))

/-- CORE_FLIT_ENQUEUE (R98): An ejected flit enters a neuron core's input queue, is counted as accepted, and is absorbed if its stamp, world
or neuron fails. -/
def execCoreFlitEnqueue (c : Fin 96) (n : Fin 16) (s : State) : Host.Outcome State Fault Refusal := .next (s.coreFlit c.val n.val)

/-- LANE_DELIVERY (R97): Once the step is open and the scan has started, the lane unit weights a flit's fan-in entries or kernel targets
into their delay slots. -/
def execLaneDelivery (c : Fin 96) (n : Fin 16) (bad : List Nat) (held conf aconf : Nat) (s : State) : Host.Outcome State Fault Refusal :=
  .next (s.laneDelivery bad c.val n.val held conf aconf)

/-- MODULATOR_FLIT (R167): A KIND 2 flit at a neuron core promotes a due NEXT to CUR and then adds its value into the pending NEXT. -/
def execModulatorFlit (c : Fin 96) (n : Fin 16) (s : State) : Host.Outcome State Fault Refusal :=
  .next (s.modulatorFlit c.val n.val)

/-- CORE_SLEEP (R113): A core idle for NC_SLEEPDLY cycles gates the clocks of its scan and lane units. -/
def execCoreSleep (c : Fin 96) (n : Fin 16) (s : State) : Host.Outcome State Fault Refusal := .next (s.ncSleepNow c.val n.val)

/-- CORE_WAKE (R114): A flit, step open, access, settle or swap wakes a sleeping core, which restarts its lanes or scan 24 cycles later. -/
def execCoreWake (c : Fin 96) (n : Fin 16) (src : Fin 16) (cycles : Nat) (s : State) : Host.Outcome State Fault Refusal :=
  .next (s.ncWakeNow c.val n.val src.val cycles)

/-- EMIT_RECORD (R147): An emit port takes an emit record and forms a flit or walks the fan-out directory, or drops the record. -/
def execEmitRecord (c : Fin 96) (e : Fin 3) (bad : List Nat) (s : State) : Host.Outcome State Fault Refusal :=
  .next (s.emitPort bad c.val e.val)

/-- SINK_ADD (R148): A sink adds a KIND 0 or 1 flit into its double-buffered tensor, or absorbs it. -/
def execSinkAdd (c : Fin 96) (e : Fin 3) (meets : SinkMeet) (s : State) : Host.Outcome State Fault Refusal :=
  .next (s.sinkFlit meets c.val e.val)

/-- INBAND_QUEUE_ENTER (R150): A KIND 2 or 3 flit enters the in-band queue of VC0, VC1 or MX and is counted as accepted. -/
def execInbandQueueEnter (c : Fin 96) (e : Fin 3) (s : State) : Host.Outcome State Fault Refusal :=
  .next (s.inbandFlit c.val e.val)

end Sys2Proof.Machine
end

