-- ==== Sys2Proof/Machine/Gate.lean ====
section
/-! DEFINITION. Commands: the gate ports and the host (spec/12). -/

namespace Sys2Proof.Machine

/-- HOST_LINE_WRITE (R401): A host write burst to the aperture stores, drops or counts the line by region. -/
def execHostLineWrite (n : Fin 8) (off : BitVec 34) (line : BitVec 512) (err : Fin 4) (s : State) : Host.Outcome State Fault Refusal :=
  .next (s.hostLine n.val (off.toNat / 64 * 64) (leBytes 64 line.toNat) err.val)

/-- HC_CRD_WRITE (R404): A host write of HC_CRD[t] records completions consumed. -/
def execHcCrdWrite (n : Fin 8) (t : Fin 16) (v : Word) (s : State) : Host.Outcome State Fault Refusal :=
  .next (s.hostCtrl n.val fun s => s.hcCrd n.val t.val v.toNat)

/-- HC_EVIN_WR_WRITE (R404): A host write of HC_EVIN_WR publishes event-in records. -/
def execHcEvinWrWrite (n : Fin 8) (v : Word) (s : State) : Host.Outcome State Fault Refusal :=
  .next (s.hostCtrl n.val fun s => s.hcEvinWr n.val v.toNat)

/-- HC_RD_WRITE (R404): A host write of HC_RD[c] releases host-channel ring space. -/
def execHcRdWrite (n : Fin 8) (ch : Fin 16) (v : Word) (s : State) : Host.Outcome State Fault Refusal :=
  .next (s.hostCtrl n.val fun s => s.hcRd n.val ch.val v.toNat)

/-- HC_EVDONE_WRITE (R419): A host write of HC_EVDONE[b] declares the event-in records of a step published. -/
def execHcEvdoneWrite (n : Fin 8) (b : Fin 8) (v : Word) (s : State) : Host.Outcome State Fault Refusal :=
  .next (s.hostCtrl n.val fun s => s.hcEvdone n.val b.val v.toNat)

/-- HOST_TRAINING_STEP (R400): The host runs a training step; repeated or abandoned failures disable the port. -/
def execHostTrainingStep (n : Fin 8) (kind : Fin 4) (pass : Bool) (s : State) : Host.Outcome State Fault Refusal :=
  .next (s.trainStep n.val kind.val pass)

/-- HOST_MODE_REGISTER_WRITE (R396): A host mode-register write sets link parameters and can bring the port into SERVICE. -/
def execHostModeRegisterWrite (n : Fin 8) (rate : Nat) (supported : Bool) (service : Bool) (s : State) : Host.Outcome State Fault Refusal :=
  .next (s.modeWrite n.val rate supported service)

/-- HOST_SELF_REFRESH (R399): The host enters or leaves self refresh without affecting the device. -/
def execHostSelfRefresh (n : Fin 8) (enter : Bool) (s : State) : Host.Outcome State Fault Refusal :=
  .next (s.selfRefresh n.val enter)

/-- HOST_CLOCK_TIMEOUT (R400): No host clock within 1 s of WAIT_HOST disables the port with 0x0C20. -/
def execHostClockTimeout (n : Fin 8) (s : State) : Host.Outcome State Fault Refusal := .next (s.clockTimeout n.val)

/-- GP_RETRY (R400): An administrative write of GP_PCTRL.RETRY returns a disabled port to WAIT_HOST. -/
def execGpRetry (req : Requester) (n : Fin 8) (s : State) : Host.Outcome State Fault Refusal :=
  .next (s.cmdWrite req .GP_PCTRL [n.val] 1)

/-- TRAYEN_WRITE (R407): Setting a TRAYEN bit from 0 to 1 zeroes the tray's slots and completions and resets its count. -/
def execTrayenWrite (req : Requester) (n : Fin 8) (v : Word) (s : State) : Host.Outcome State Fault Refusal :=
  .next (s.cmdWrite req .GP_PCFG [n.val] v.toNat)

/-- TRAY_SCAN (R408): Every SCAN × 100 ns the port takes up to eight valid commands from each tray and the admin slot. -/
def execTrayScan (n : Fin 8) (use : LinkUse) (s : State) : Host.Outcome State Fault Refusal := .next (s.trayScan n.val use)

/-- NOP (R411): Completes. -/
def execNop (n : Fin 8) (t : Fin 17) (s : State) : Host.Outcome State Fault Refusal := .next (s.cmdNop n.val t.val)

/-- REGRD (R414): Reads a register within the port's reach into RESULT. -/
def execRegrd (n : Fin 8) (t : Fin 17) (s : State) : Host.Outcome State Fault Refusal := .next (s.cmdRegrd n t.val)

/-- REGWR (R414): Writes DATA to a register within the port's reach. -/
def execRegwr (n : Fin 8) (t : Fin 17) (s : State) : Host.Outcome State Fault Refusal := .next (s.cmdRegwr n t.val)

/-- COPY_IN (R413): Copies bulk staging to a device address over the service circuits. -/
def execCopyIn (n : Fin 8) (t : Fin 17) (s : State) : Host.Outcome State Fault Refusal := .next (s.cmdCopyIn n.val t.val)

/-- COPY_OUT (R413): Copies a device address range into bulk staging. -/
def execCopyOut (n : Fin 8) (t : Fin 17) (s : State) : Host.Outcome State Fault Refusal := .next (s.cmdCopyOut n.val t.val)

/-- SEND (R422): Sends the staged message on a host send handle. -/
def execSend (n : Fin 8) (t : Fin 17) (s : State) : Host.Outcome State Fault Refusal := .next (s.cmdSend n.val t.val)

/-- FENCE_ENG (R283): Asks the steward to fence the engine at the given coordinate. -/
def execFenceEng (n : Fin 8) (t : Fin 17) (s : State) : Host.Outcome State Fault Refusal := .next (s.cmdFence n.val t.val)

/-- COMMAND_COMPLETE (R410): A finished tray command writes its completion record. -/
def execCommandComplete (n : Fin 8) (t : Fin 17) (s : State) : Host.Outcome State Fault Refusal := .next (s.cmdDone n.val t.val)

/-- EVENT_IN_INJECT (R417): The port consumes the head event-in record and injects it as a flit, or drops it, or waits. -/
def execEventInInject (n : Fin 8) (s : State) : Host.Outcome State Fault Refusal := .next (s.eventIn n.val)

/-- HOST_COMPOST_DRAIN (R421): The port moves a spilled message from its compost area into the host ring when room appears. -/
def execHostCompostDrain (n : Fin 8) (ch : HostDrainAt) (s : State) : Host.Outcome State Fault Refusal :=
  .next (s.hostDrain (0x10000 + n.val * 16 + ch.ch.val) ch.meets)

/-- MIRROR_UPDATE (R406): The device writes changed status-mirror records once per scan period. -/
def execMirrorUpdate (n : Fin 8) (s : State) : Host.Outcome State Fault Refusal := .next (s.mirrorUpdate n.val)

/-- PARTITION_ENABLE (R423): Writing GP_PART_CFG.EN = 1 checks the partition and binds its ports. -/
def execPartitionEnable (req : Requester) (p : Fin 8) (v : Word) (s : State) : Host.Outcome State Fault Refusal :=
  .next (s.cmdWrite req .GP_PART_CFG [p.val] (withEn v true))

/-- PARTITION_RELEASE (R425): Writing GP_PART_CFG.EN = 0 disables the partition's groups and units, unbinds its ports and starts the wipe.
-/
def execPartitionRelease (req : Requester) (p : Fin 8) (v : Word) (s : State) : Host.Outcome State Fault Refusal :=
  .next (s.cmdWrite req .GP_PART_CFG [p.val] (withEn v false))

/-- PARTITION_RELEASE_COMPLETE (R425): When the wipe ends, the partition leaves RELEASING. -/
def execPartitionReleaseComplete (p : Fin 8) (s : State) : Host.Outcome State Fault Refusal := .next (s.partReleased p.val)

/-- GP_MAP_ENABLE (R424): Writing GP_MAP.EN = 1 binds a port to an enabled partition. -/
def execGpMapEnable (req : Requester) (n : Fin 8) (v : Word) (s : State) : Host.Outcome State Fault Refusal :=
  .next (s.cmdWrite req .GP_MAP [n.val] (withEn v true))

/-- GP_MAP_DISABLE (R424): Writing GP_MAP.EN = 0 unbinds the port unless it is the partition's last port. -/
def execGpMapDisable (req : Requester) (n : Fin 8) (v : Word) (s : State) : Host.Outcome State Fault Refusal :=
  .next (s.cmdWrite req .GP_MAP [n.val] (withEn v false))

/-- GP_EVSRC_ENABLE (R418): Writing GP_EVSRC.EN = 1 checks the source and lets the port consume event-in records. -/
def execGpEvsrcEnable (req : Requester) (n : Fin 8) (v : Word) (s : State) : Host.Outcome State Fault Refusal :=
  .next (s.cmdWrite req .GP_EVSRC [n.val] (withTop v true))

/-- BIND_ENTRY_ENABLE (R218): Enabling an MX, VX or event-in bind entry binds the engine to a group's harvest. -/
def execBindEntryEnable (req : Requester) (at_ : BindAt) (v : Word) (s : State) : Host.Outcome State Fault Refusal :=
  .next (s.bindEnable req at_ v)

/-- HOST_CHANNEL_ENABLE (R420): Enabling a host channel checks it and opens its ring in staging. -/
def execHostChannelEnable (req : Requester) (n : Fin 8) (ch : Fin 16) (v : Word) (s : State) : Host.Outcome State Fault Refusal :=
  .next (s.cmdWrite req .GP_HC_CFG [n.val, ch.val] (withEn v true))

/-- CONSISTENCY_CHECK_COMPLETE (R427): A serialised consistency check ends and sets the enable bit or posts the refusal code. -/
def execConsistencyCheckComplete (s : State) : Host.Outcome State Fault Refusal := .next (s.checkEnd)

end Sys2Proof.Machine
end

