-- ==== Sys2Proof/Machine/Swaps.lean ====
section
/-! DEFINITION. Rotation swaps (R76 to R80, R301, R391): the cohort written out to its home and read in from it by the partition's service
circuits. -/

namespace Sys2Proof.Machine

/-- The segments of a cohort's home (R77, R78): the cluster of each core, the segment's address and bytes. -/
def State.homeSegs (s : State) (g k : Nat) : List (Nat × Nat × Nat) :=
  ((s.coresSorted g).foldl (fun (acc : List (Nat × Nat × Nat) × Nat) x =>
    (acc.1 ++ [(x.1, acc.2, s.segBytes x.1 x.2.1 x.2.2 g)], acc.2 + s.segBytes x.1 x.2.1 x.2.2 g)) ([], s.homeBase g k)).1

/-- May a swap's transfers run (R76, R114, R301): its cores are awake, and each has the partition's service circuits to its segment and back? -/
def State.swapRuns (s : State) (g k : Nat) : Bool :=
  ((s.coresOf g).all fun x => s.fld .NC_STATUS [x.1, x.2.1] NC_STATUS_STATE != 4) &&
  (s.homeSegs g k).all fun x => s.svcReady (s.wgPart g) (x.1 * 8 + 2) x.2.1 x.2.2

/-- Do the channels of a cohort's home serve (R378)? -/
def State.homeReady (s : State) (g k : Nat) : Bool := (s.homeSegs g k).all fun x => s.dmReady x.2.1 x.2.2

/-- Those that do not start to wake, and the swap takes that much longer (R391). -/
def State.homeWake (s : State) (g k : Nat) : State := s.each (s.homeSegs g k) fun s x => s.dmWake x.2.1 x.2.2

/-- A swap's transfers counted: beats at the switches, lines at the channels (R324, R392). -/
def State.homeBeats (s : State) (g k : Nat) (write : Bool) : State :=
  s.each (s.homeSegs g k) fun s x => (s.svcBeats (x.1 * 8 + 2) x.2.1 x.2.2 write).dmLines x.2.1 x.2.2 write

/-- The write-out has completed (R76, R80): WG_COHORT names the next cohort and its read-in starts. -/
def State.swapWriteOutDone (s : State) (g : Nat) : State :=
  if (s.getWg g).swap ≠ 1 ∨ !s.swapRuns g (s.wgCohort g) then s
  else if !s.homeReady g (s.wgCohort g) then s.homeWake g (s.wgCohort g)
  else
    let s := (s.swapOut g (s.wgCohort g)).homeBeats g (s.wgCohort g) true
    let next := (s.wgCohort g + 1) % (s.wgCount g / s.wgResident g)
    let s := s.setVal .WG_COHORT [g] next
    let s := s.setVal .WG_WSTEP [g] (mget (s.getWg g).wsteps next)
    s.modWg g fun w => { w with swap := 2 }

/-- A failed read-in (R80, R105): the group halts and the read-in is repeated at RESUME; a disabling group enters DISABLED. -/
def State.swapFail (s : State) (g code : Nat) : State :=
  if (s.getWg g).disabling then (s.enterDisabled g 0).post (some (s.wgPart g)) 1 g 0xFFFF code
  else (s.modWg g fun w => { w with swap := 3 }).haltNow g code

/-- The cohort's state is resident: the group waits again, or enters DISABLED (R76, R79, R80). -/
def State.swapResident (s : State) (g : Nat) : State :=
  let s := (s.modWg g fun w => { w with swap := 0 }).adoptOpens g
  if (s.getWg g).disabling then s.enterDisabled g 0 else s.settleState g

/-- The read-in ends (R76, R80, R105): with an uncorrectable LPDDR error in the cohort's home, or a record naming a failing parameter
set, the group halts; otherwise its state is resident and it waits again. `meets`: what the lines of the home meet. -/
def State.readInDone (s : State) (g : Nat) (meets : LineFate) : State :=
  if (s.getWg g).swap ≠ 2 ∨ !s.swapRuns g (s.wgCohort g) then s
  else if !s.homeReady g (s.wgCohort g) then s.homeWake g (s.wgCohort g)
  else
    let base := s.homeBase g (s.wgCohort g)
    let n := s.homeBytes g
    let s := (s.homeBeats g (s.wgCohort g) false).dmMeets base n meets
    if meets.badIn base n then s.swapFail g 0x0183
    else
      let s := s.swapIn g (s.wgCohort g)
      if !s.swapGood g then s.swapFail g 0x0281 else s.swapResident g

end Sys2Proof.Machine
end

