-- ==== Sys2Proof/Machine/Groups.lean ====
section
/-! DEFINITION. Commands: timebases, world groups and harvest (spec/02). -/

namespace Sys2Proof.Machine

/-- TBI_EDGE_ACCEPT (R52): An A or B level change that has held for FILT+1 samples is accepted and counted under the channel's MODE. -/
def execTbiEdgeAccept (m : Fin 8) (a : Bool) (b : Bool) (s : State) : Host.Outcome State Fault Refusal :=
  .next (s.tbiEdge m.val a b)

/-- TBI_Z_EDGE_ACCEPT (R56): An accepted rising Z edge latches P into TB_ZLATCH and, with ZMODE 2, realigns P and N to the step boundary. -/
def execTbiZEdgeAccept (m : Fin 8) (z : Bool) (s : State) : Host.Outcome State Fault Refusal := .next (s.tbiZEdge m.val z)

/-- TB_PERIOD_EXPIRY (R57): A periodic timebase increments its target every TB_PERIOD timebase-input cycles. -/
def execTbPeriodExpiry (n : Fin 64) (s : State) : Host.Outcome State Fault Refusal := .next (s.tbExpire n.val)

/-- TB_TARGET_WRITE (R59): A host-target timebase takes a written target above its present one, and counts a lower write in TB_TGTDROP. -/
def execTbTargetWrite (req : Requester) (n : Fin 64) (v : DWord) (s : State) : Host.Outcome State Fault Refusal :=
  .next (s.cmdWrite req .TB_TARGET [n.val] v.toNat)

/-- TB_ENABLE (R60): Writing TB_CFG.EN = 1 runs the consistency check and zeroes the target, N, P, TB_REVERSE and phase. -/
def execTbEnable (req : Requester) (n : Fin 64) (v : Word) (s : State) : Host.Outcome State Fault Refusal :=
  .next (s.cmdWrite req .TB_CFG [n.val] (withEn v true))

/-- TB_DISABLE (R60): Writing TB_CFG.EN = 0 freezes the target, and the bound groups finish their open steps and then wait. -/
def execTbDisable (req : Requester) (n : Fin 64) (v : Word) (s : State) : Host.Outcome State Fault Refusal :=
  .next (s.cmdWrite req .TB_CFG [n.val] (withEn v false))

/-- TB_IN_CFG_WRITE (R581): A write to TB_IN_CFG of a channel that no enabled timebase reads restarts its filters from the present pin
levels. -/
def execTbInCfgWrite (req : Requester) (m : Fin 8) (v : Word) (pins : Fin 8) (s : State) : Host.Outcome State Fault Refusal :=
  .next (s.tbInWrite req m.val v.toNat pins.val)

/-- WG_ENABLE (R61): Writing WG_CFG.EN = 1 runs the consistency check and, on acceptance, records the origin, sets WG_STEP to 0 and loads
the group tables. -/
def execWgEnable (req : Requester) (g : Fin 256) (v : Word) (s : State) : Host.Outcome State Fault Refusal :=
  .next (s.cmdWrite req .WG_CFG [g.val] (withEn v true))

/-- WG_DISABLE (R49): Writing WG_CFG.EN = 0 disables a waiting or halted group at once, or lets an open step or swap finish first. -/
def execWgDisable (req : Requester) (g : Fin 256) (v : Word) (s : State) : Host.Outcome State Fault Refusal :=
  .next (s.cmdWrite req .WG_CFG [g.val] (withEn v false))

/-- WG_STEP_OPEN (R61): The device opens step s+1 of a group once all six open conditions hold, and broadcasts OPEN. -/
def execWgStepOpen (g : Fin 256) (s : State) : Host.Outcome State Fault Refusal := .next (s.tryOpen g.val)

/-- WG_INSEQ_WRITE (R73): A write of WG_INSEQ releases the input fence for the steps it covers. -/
def execWgInseqWrite (req : Requester) (g : Fin 256) (v : DWord) (s : State) : Host.Outcome State Fault Refusal :=
  .next (s.cmdWrite req .WG_INSEQ [g.val] v.toNat)

/-- WG_HALT (R87): The WG_CTRL.HALT command halts the group at its next harvest with reason 0x0180. -/
def execWgHalt (req : Requester) (g : Fin 256) (s : State) : Host.Outcome State Fault Refusal :=
  .next (s.cmdWrite req .WG_CTRL [g.val] 1)

/-- WG_RESUME (R81): The WG_CTRL.RESUME command makes a halted group leave HALTED and apply the overrun policy at its first opening. -/
def execWgResume (req : Requester) (g : Fin 256) (s : State) : Host.Outcome State Fault Refusal :=
  .next (s.cmdWrite req .WG_CTRL [g.val] 2)

/-- WG_RESUME_REALIGN (R81): RESUME with REALIGN makes the group's step jump as a skip to L = 1, adding the jump to WG_SKIPPED. -/
def execWgResumeRealign (req : Requester) (g : Fin 256) (s : State) : Host.Outcome State Fault Refusal :=
  .next (s.cmdWrite req .WG_CTRL [g.val] 6)

/-- HARVEST_ROUND (R66): After emit-done from every engine, the tree sums injected minus accepted minus absorbed, and the step closes on a
zero sum. -/
def execHarvestRound (g : Fin 256) (h : Fin 2) (s : State) : Host.Outcome State Fault Refusal := .next (s.harvestRound g.val h.val)

/-- SWAP_WRITE_OUT_DONE (R76): When the write-out completes, the read-in of the next cohort from its home starts. -/
def execSwapWriteOutDone (g : Fin 256) (s : State) : Host.Outcome State Fault Refusal := .next (s.swapWriteOutDone g.val)

/-- COHORT_READ_IN_DONE (R80): Completion of a cohort read-in, at a swap or at enable, rebuilds the bitmaps and returns the group to
waiting, or halts it on an error. -/
def execCohortReadInDone (g : Fin 256) (meets : LineFate) (s : State) : Host.Outcome State Fault Refusal :=
  .next (s.readInDone g.val meets)

end Sys2Proof.Machine
end

