-- ==== Sys2Proof/Machine/Learn.lean ====
section
/-! DEFINITION. Commands: learning and the keep-store (spec/05). -/

namespace Sys2Proof.Machine

/-- LR_SET_ENABLE (R175): Writing LR_SET_CFG.EN = 1 runs the check and zeroes accumulators, prune counts, candidate counts and modulator
tables. -/
def execLrSetEnable (req : Requester) (c : Fin 96) (k : Fin 16) (v : Word) (s : State) : Host.Outcome State Fault Refusal :=
  .next (s.cmdWrite req .LR_SET_CFG [c.val, k.val] (withEn v true))

/-- LR_SET_WG_WRITE (R197): Writing LR_SET_WGn marks writer groups across every block of the set and checks each newly set enabled group. -/
def execLrSetWgWrite (req : Requester) (c : Fin 96) (k : Fin 16) (j : Fin 8) (v : Word) (s : State) : Host.Outcome State Fault Refusal :=
  .next (s.cmdWrite req .LR_SET_WG [c.val, k.val, j.val] v.toNat)

/-- LR_SET_COMMIT (R186): Writing LR_SET_CTRL.COMMIT requests one commit of the set, as KS_CMD OP 1 does. -/
def execLrSetCommit (req : Requester) (c : Fin 96) (k : Fin 16) (s : State) : Host.Outcome State Fault Refusal :=
  .next (s.cmdWrite req .LR_SET_CTRL [c.val, k.val] 1)

/-- EPOCH_END_START (R163): Once every enabled writer group has finished the epoch, the epoch end begins and the update stage is signalled.
-/
def execEpochEndStart (k : Fin 16) (s : State) : Host.Outcome State Fault Refusal := .next (s.epochEnd k.val)

/-- SERVICE_STAGE_SIGNAL (R225): A stage signal from the steward starts context 1 of a vector core at its service entry. -/
def execServiceStageSignal (c : Fin 96) (v : Fin 2) (k : Fin 16) (took : SvcTook) (bad : List Nat) (s : State) : Host.Outcome State Fault Refusal :=
  .next (s.serviceSignal bad c.val v.val k.val took)

/-- CN_FLIP (R180): A FLIP message makes each core invert the select bit of every block of its learning range. -/
def execCnFlip (c : Fin 96) (n : Fin 16) (errs : FlipErr) (s : State) : Host.Outcome State Fault Refusal :=
  .next (s.cnFlipTo c.val n.val errs)

/-- FLIP_COMPLETE (R180): When every core has reported the flip, LR_SET_EPOCH increments and the writers may open the next epoch. -/
def execFlipComplete (k : Fin 16) (s : State) : Host.Outcome State Fault Refusal := .next (s.flipComplete k.val)

/-- KS_CMD_NONE (R199): A KS_CMD write with OP 0 has no effect and runs no check. -/
def execKsCmdNone (req : Requester) (c : Fin 96) (k : Fin 16) (s : State) : Host.Outcome State Fault Refusal :=
  .next (s.cmdWrite req .KS_CMD [c.val] (16 * k.val))

/-- KS_COMMIT (R186): A KS_CMD write with OP 1 runs the check and queues a commit of the set. -/
def execKsCommit (req : Requester) (c : Fin 96) (k : Fin 16) (s : State) : Host.Outcome State Fault Refusal :=
  .next (s.cmdWrite req .KS_CMD [c.val] (1 + 16 * k.val))

/-- KS_RESTORE (R192): A KS_CMD write with OP 2 restores a disabled set's weights, LIVE bits and candidates from the committed generation.
-/
def execKsRestore (req : Requester) (c : Fin 96) (k : Fin 16) (s : State) : Host.Outcome State Fault Refusal :=
  .next (s.cmdWrite req .KS_CMD [c.val] (2 + 16 * k.val))

/-- RESTORE_COMPLETE (R192): A restore finishes and sets LR_SET_EPOCH to the stored epoch. -/
def execRestoreComplete (p : Fin 8) (s : State) : Host.Outcome State Fault Refusal := .next (s.restoreDone p.val)

/-- COMMIT_CAPTURE_START (R187): The commit's capture into the staging area starts when its flip completes or its writers stop. -/
def execCommitCaptureStart (s : State) : Host.Outcome State Fault Refusal := .next (s.captureStart)

/-- COMMIT_PHASE_DONE (R187): A commit phase completes (capture, compare and program, or root), starting the next phase or committing the
generation. -/
def execCommitPhaseDone (bad : List Nat) (s : State) : Host.Outcome State Fault Refusal := .next (s.commitPhase bad)

end Sys2Proof.Machine
end

