-- ==== Sys2Proof/Machine/MatrixCmds.lean ====
section
/-! DEFINITION. Commands: the matrix core (spec/06). -/

namespace Sys2Proof.Machine

/-- MX_DQ_TAIL_WRITE (R210): A write of MX_DQ_TAIL makes descriptors visible, binds step-bound ones and wakes an unpowered subdomain. -/
def execMxDqTailWrite (req : Requester) (c : Fin 96) (v : Word) (s : State) : Host.Outcome State Fault Refusal :=
  .next (s.cmdWrite req .MX_DQ_TAIL [c.val] v.toNat)

/-- MX_MATMUL (R214): A MATMUL descriptor multiplies A by W in tiles. -/
def execMxMatmul (c : Fin 96) (stopped : Nat) (bad : List Nat) (s : State) : Host.Outcome State Fault Refusal :=
  .next (s.mxStep bad c.val stopped (· == 1))

/-- MX_CONV (R215): A CONV descriptor runs a two-dimensional convolution as an equivalent multiply. -/
def execMxConv (c : Fin 96) (stopped : Nat) (bad : List Nat) (s : State) : Host.Outcome State Fault Refusal :=
  .next (s.mxStep bad c.val stopped (· == 2))

/-- MX_FENCE (R214): A FENCE descriptor starts only when every earlier descriptor has completed and written its output. -/
def execMxFence (c : Fin 96) (bad : List Nat) (s : State) : Host.Outcome State Fault Refusal := .next (s.mxFence bad c.val)

/-- MX_EW (R214): An EW descriptor applies the element-wise operation that SUB selects, in FP32. -/
def execMxEw (c : Fin 96) (bad : List Nat) (s : State) : Host.Outcome State Fault Refusal := .next (s.mxStep bad c.val 0 (· == 3))

/-- MX_REDUCE (R214): A REDUCE descriptor sums, maximises, minimises or averages along rows or columns. -/
def execMxReduce (c : Fin 96) (bad : List Nat) (s : State) : Host.Outcome State Fault Refusal := .next (s.mxStep bad c.val 0 (· == 4))

/-- MX_ENCODE (R216): An ENCODE descriptor turns tensor elements into emit records under THRESH, GRADED, RATE or DELTA. -/
def execMxEncode (c : Fin 96) (bad : List Nat) (s : State) : Host.Outcome State Fault Refusal := .next (s.mxStep bad c.val 0 (· == 5))

/-- MX_GATHER (R217): A GATHER descriptor reads spike counts from neuron records into a tensor, optionally clearing SCNT. -/
def execMxGather (c : Fin 96) (bad : List Nat) (s : State) : Host.Outcome State Fault Refusal := .next (s.mxStep bad c.val 0 (· == 6))

/-- MX_DESCRIPTOR_COMPLETE (R213): A finished descriptor writes its completion record, increments MX_DONE and rewrites any static scale
table. -/
def execMxDescriptorComplete (c : Fin 96) (cycles : Nat) (busy : Nat) (wait : Nat) (s : State) : Host.Outcome State Fault Refusal :=
  .next (s.mxComplete c.val cycles busy wait)

/-- MX_ABORT (R221): Writing MX_CTRL.ABORT cancels the running and queued descriptors, and their groups halt with 0x0582. -/
def execMxAbort (req : Requester) (c : Fin 96) (cycles : Nat) (s : State) : Host.Outcome State Fault Refusal :=
  .next (s.abortWrite req c.val cycles)

end Sys2Proof.Machine
end

