-- ==== Sys2Proof/Machine/MemoryCmds.lean ====
section
/-! DEFINITION. Commands: banks, arbiters and LPDDR (spec/11). -/

namespace Sys2Proof.Machine

/-- BK_OWN_WRITE (R364): A write of BK_OWNn starts a handover to the new ownership setting. -/
def execBkOwnWrite (req : Requester) (c : Fin 96) (b : Fin 8) (v : Word) (s : State) : Host.Outcome State Fault Refusal :=
  .next (s.cmdWrite req .BK_OWN [c.val, b.val] v.toNat)

/-- BK_HANDOVER_END (R364): The handover ends when the accesses accepted before the write have completed. -/
def execBkHandoverEnd (c : Fin 96) (b : Fin 8) (s : State) : Host.Outcome State Fault Refusal :=
  .next (s.bkHandoverEnd c.val b.val)

/-- BANK_RETENTION_ENTER (R367): Writing 1 to a BK_RET bit places the bank in retention after its accepted accesses have completed. -/
def execBankRetentionEnter (req : Requester) (c : Fin 96) (v : Word) (s : State) : Host.Outcome State Fault Refusal :=
  .next (s.cmdWrite req .BK_RET [c.val] v.toNat)

/-- BANK_WAKE (R368): Writing 0 to a BK_RET bit starts the bank's wake. -/
def execBankWake (req : Requester) (c : Fin 96) (v : Word) (s : State) : Host.Outcome State Fault Refusal :=
  .next (s.cmdWrite req .BK_RET [c.val] v.toNat)

/-- BANK_WAKE_DONE (R368): Two microseconds after the wake write, the bank accepts accesses again. -/
def execBankWakeDone (c : Fin 96) (b : Fin 8) (s : State) : Host.Outcome State Fault Refusal := .next (s.bkWakeDone c.val b.val)

/-- ARBITER_GRANT (R388): An arbiter grants a queue entry, line or page operation, giving every NGRANT-th grant to the oldest waiter. -/
def execArbiterGrant (k : ArbAt) (bad : List Nat) (lost : Nat) (s : State) : Host.Outcome State Fault Refusal :=
  .next (s.arbGrant bad (arbKey k) lost)

/-- BACKOFF_EXPIRY (R386): A refused requester sends its piece again when its back-off count expires. -/
def execBackoffExpiry (x : XferAt) (k : Fin 8) (slot : Fin 1024) (s : State) : Host.Outcome State Fault Refusal :=
  .next (s.backoffDone (xferKey x) k.val slot.val)

/-- GRANT_REVOKE (R389): The steward revokes a grant, and the piece restarts after back-off. -/
def execGrantRevoke (k : ArbAt) (e : Fin 800) (s : State) : Host.Outcome State Fault Refusal := .next (s.revoke (arbKey k) e.val)

/-- DM_TRACKING_PAUSE (R377): Every 32 ms each channel pauses for timing tracking. -/
def execDmTrackingPause (n : Fin 24) (fail : Bool) (s : State) : Host.Outcome State Fault Refusal :=
  .next (s.trackingPause n.val fail)

/-- DM_REFRESH (R372): A channel issues refresh at the interval its memory indicates. -/
def execDmRefresh (n : Fin 24) (s : State) : Host.Outcome State Fault Refusal := .next (s.bump .DM_REFRESH [n.val])

end Sys2Proof.Machine
end

