-- ==== Sys2Proof/Machine/MeshCmds.lean ====
section
/-! DEFINITION. Commands: the event mesh (spec/08). -/

namespace Sys2Proof.Machine

/-- FLIT_INJECT (R274): The router injects up to two flits from the head of the injection queue onto free productive ports, or loops them
locally. -/
def execFlitInject (c : Fin 96) (s : State) : Host.Outcome State Fault Refusal := .next (s.flitInject c.val)

/-- FLIT_ROUTE (R271): A flit at a router input is ejected, forwarded on its productive port or deflected in the next cycle. -/
def execFlitRoute (h : Fin 2) (errs : List FlitErr) (s : State) : Host.Outcome State Fault Refusal :=
  .next (s.flitRoute h.val errs)

/-- SPILL_RELEASE (R282): The spill releases up to two flits into queues that have room, or re-enters flits for other clusters. -/
def execSpillRelease (c : Fin 96) (s : State) : Host.Outcome State Fault Refusal := .next (s.spillRelease c.val)

/-- GOLDEN_SCAN (R275): Every 256 cycles the steward ORs the old-source vectors and may start a golden period for the next marked cluster.
-/
def execGoldenScan (h : Fin 2) (s : State) : Host.Outcome State Fault Refusal := .next (s.goldenScan h.val)

/-- GOLDEN_PERIOD_END (R275): A golden period ends after 256 × PERIOD cycles, and injection at the golden cluster resumes. -/
def execGoldenPeriodEnd (h : Fin 2) (s : State) : Host.Outcome State Fault Refusal := .next (s.goldenEnd h.val)

/-- EF_FENCE_WRITE (R283): A steward write of EF_FENCE fences engines; any other writer's write is dropped with 0x0704. -/
def execEfFenceWrite (req : Requester) (c : Fin 96) (v : Word) (s : State) : Host.Outcome State Fault Refusal :=
  .next (s.cmdWrite req .EF_FENCE [c.val] v.toNat)

/-- REMAP_ENABLE (R285): Writing EF_REMAPn.EN = 1 runs the remap check and enables redirection of a fenced coordinate. -/
def execRemapEnable (req : Requester) (n : Fin 16) (v : Word) (s : State) : Host.Outcome State Fault Refusal :=
  .next (s.cmdWrite req .EF_REMAP [0, n.val] (withTop v true))

/-- REMAP_DISABLE (R293): Writing EF_REMAPn.EN = 0 disables the entry at once. -/
def execRemapDisable (req : Requester) (n : Fin 16) (v : Word) (s : State) : Host.Outcome State Fault Refusal :=
  .next (s.cmdWrite req .EF_REMAP [0, n.val] (withTop v false))

/-- FRESET (R286): A steward write of EF_CTRL.FRESET starts a fabric reset by marking the node as a hole. -/
def execFreset (req : Requester) (c : Fin 96) (s : State) : Host.Outcome State Fault Refusal :=
  .next (s.cmdWrite req .EF_CTRL [c.val] 1)

/-- ROUTER_TABLE_ECC_ERROR (R286): An uncorrectable error in a router table starts a fabric reset automatically. -/
def execRouterTableEccError (c : Fin 96) (s : State) : Host.Outcome State Fault Refusal := .next (s.freset c.val)

/-- FABRIC_RESET_DRAIN_END (R286): After two cycles of draining, the router and switch reset and run their self-check. -/
def execFabricResetDrainEnd (c : Fin 96) (s : State) : Host.Outcome State Fault Refusal := .next (s.fresetDrained c.val)

/-- FABRIC_RESET_SELFCHECK_DONE (R289): The self-check ends; on a pass the tables are reloaded, and on a failure the node becomes a
permanent hole. -/
def execFabricResetSelfcheckDone (c : Fin 96) (pass : Bool) (s : State) : Host.Outcome State Fault Refusal :=
  .next (s.selfCheckDone c.val pass)

/-- HOLE_CLEAR (R286): After the tables are reloaded, the neighbours clear the hole and the suspended schedules resume. -/
def execHoleClear (c : Fin 96) (s : State) : Host.Outcome State Fault Refusal := .next (s.holeClear c.val)

end Sys2Proof.Machine
end

