-- ==== Sys2Proof/Machine/MessageCmds.lean ====
section
/-! DEFINITION. Commands: messages, queues and the wait graph (spec/10). -/

namespace Sys2Proof.Machine

/-- MQ_CHANNEL_ENABLE (R331): Enabling a channel or queue runs the check, zeroes its control lines and sets EN. -/
def execMqChannelEnable (req : Requester) (c : Fin 96) (n : Fin 40) (v : Word) (s : State) : Host.Outcome State Fault Refusal :=
  .next (if n.val < 32 then s.cmdWrite req .MQ_CH_CFG [c.val, n.val] (withEn v true) else s.cmdWrite req .MQ_Q_CFG [c.val, n.val - 32] (withEn v true))

/-- MQ_CHANNEL_DISABLE (R353): Disabling a channel or queue refuses pending requests with 0x0911 and frees its compost slots. -/
def execMqChannelDisable (req : Requester) (c : Fin 96) (n : Fin 40) (v : Word) (s : State) : Host.Outcome State Fault Refusal :=
  .next (if n.val < 32 then s.cmdWrite req .MQ_CH_CFG [c.val, n.val] (withEn v false) else s.cmdWrite req .MQ_Q_CFG [c.val, n.val - 32] (withEn v false))

/-- MQ_HANDLE_ENABLE (R336): Writing MQ_SH_CFG.EN = 1 checks the handle's target and the handle limit. -/
def execMqHandleEnable (req : Requester) (c : Fin 96) (n : Fin 64) (v : Word) (s : State) : Host.Outcome State Fault Refusal :=
  .next (s.cmdWrite req .MQ_SH_CFG [c.val, n.val] (withEn v true))

/-- MQ_REQUEST_RECEIVE (R338): A message unit takes an OP 2 or OP 3 request into its pending list, or refuses it. -/
def execMqRequestReceive (x : XferAt) (slot : Fin 1024) (err : BeatErr) (s : State) : Host.Outcome State Fault Refusal :=
  .next (s.requestReceive (xferKey x) slot.val err)

/-- MQ_PLACEMENT_GRANT (R333): When ring space or the round allows, the unit grants a pending request, writing a skip marker if needed. -/
def execMqPlacementGrant (t : TargetAt) (s : State) : Host.Outcome State Fault Refusal := .next (s.placementGrant (targetKey t))

/-- MQ_PUBLISH (R334): Once a reservation and every earlier one are written, WR advances and the send is acknowledged. -/
def execMqPublish (x : XferAt) (s : State) : Host.Outcome State Fault Refusal := .next (s.publish (xferKey x))

/-- QUEUE_CONTRIBUTION_ADD (R343): A granted contribution's elements are rounded to fixed point and added exactly into the accumulators. -/
def execQueueContributionAdd (x : XferAt) (s : State) : Host.Outcome State Fault Refusal := .next (s.contributionAdd (xferKey x))

/-- MQ_RD_WRITE (R331): A receiver's write of RD releases ring space, or is ignored and counted. -/
def execMqRdWrite (t : TargetAt) (v : Word) (s : State) : Host.Outcome State Fault Refusal :=
  .next (s.writeRd (targetKey t) v.toNat)

/-- MQ_CDONE_WRITE (R350): A write of CDONE frees the oldest compost slot of a spilled channel. -/
def execMqCdoneWrite (t : TargetAt) (v : Word) (s : State) : Host.Outcome State Fault Refusal :=
  .next (s.writeCdone (targetKey t) v.toNat)

/-- MQ_RELEASED_WRITE (R345): A write of RELEASED frees a round's buffer and zeroes its accumulators. -/
def execMqReleasedWrite (t : TargetAt) (v : Word) (s : State) : Host.Outcome State Fault Refusal :=
  .next (s.writeReleased (targetKey t) v.toNat)

/-- QUEUE_COMPOST_DRAIN (R351): A spilled contribution whose round now fits is read back from compost and added. -/
def execQueueCompostDrain (t : DrainAt) (s : State) : Host.Outcome State Fault Refusal := .next (s.queueDrain (targetKey t.target) t.meets)

/-- WAIT_EDGE_REGISTER (R346): A request ungranted for WAITDLY microseconds registers a wait edge with the steward. -/
def execWaitEdgeRegister (x : XferAt) (s : State) : Host.Outcome State Fault Refusal := .next (s.edgeRegister (xferKey x))

/-- WAIT_CYCLE_SCAN (R347): Every 16 µs the steward scans its wait edges and confirms cycles that are stable over two scans. -/
def execWaitCycleScan (h : Fin 2) (s : State) : Host.Outcome State Fault Refusal := .next (s.waitScan h.val)

end Sys2Proof.Machine
end

