-- ==== Sys2Proof/Machine/Observe.lean ====
section
/-! DEFINITION. Commands: counters, tracing and pins (spec/17, spec/18). -/

namespace Sys2Proof.Machine

/-- WINDOW_END (R547): At each window end the counters are latched, derived records are written and a full mirror write starts or is
skipped. -/
def execWindowEnd (s : State) : Host.Outcome State Fault Refusal := .next (s.windowEnd)

/-- COUNTER_MIRROR_WRITE_DONE (R549): A full counter-mirror write completes. -/
def execCounterMirrorWriteDone (s : State) : Host.Outcome State Fault Refusal := .next (s.mirrorDone)

/-- PC_WIN_WRITE (R546): A permitted write of PC_WIN sets the window length from the next window end. -/
def execPcWinWrite (req : Requester) (v : Word) (s : State) : Host.Outcome State Fault Refusal :=
  .next (s.cmdWrite req .PC_WIN [] v.toNat)

/-- RAKE_GO (R554): A write of PC_RAKE.GO, or a start-up or BIST point, starts a rake pass. -/
def execRakeGo (req : Requester) (s : State) : Host.Outcome State Fault Refusal := .next (s.cmdWrite req .PC_RAKE [] 1)

/-- RAKE_PASS_DONE (R553): A rake pass finishes writing the rake image. -/
def execRakePassDone (lost : List (Fin 96)) (s : State) : Host.Outcome State Fault Refusal := .next (s.rakePass (lost.map Fin.val))

/-- TRACE_ENABLE (R561): Writing PC_TRCFGp.EN = 1 checks and enables tracing of a partition. -/
def execTraceEnable (req : Requester) (p : Fin 8) (v : Word) (s : State) : Host.Outcome State Fault Refusal :=
  .next (s.cmdWrite req .PC_TRCFG [p.val] (withEn v true))

/-- TRACE_RING_ENABLE (R561): Writing PC_TRRING.EN = 1 checks the ring and restarts PC_TRWR. -/
def execTraceRingEnable (req : Requester) (c : Fin 96) (v : Word) (s : State) : Host.Outcome State Fault Refusal :=
  .next (s.cmdWrite req .PC_TRRING [c.val] (withEn v true))

/-- SYSRST_RELEASE (R569): The rise of SYSRST_N, after it has been held low through a start, lets phase 1 proceed. -/
def execSysrstRelease (s : State) : Host.Outcome State Fault Refusal := .next (s.sysrstUp)

/-- I3C_DYNAMIC_ADDRESS (R575): A SETDASA or ENTDAA from the I3C controller assigns the target a dynamic address, which it uses until the
next device reset. -/
def execI3cDynamicAddress (a : BitVec 7) (s : State) : Host.Outcome State Fault Refusal := .next (s.i3cAddress a.toNat)

/-- DOMAIN_TRANSITION_COMPLETE (R466): A domain finishes its transition within the return time of R465, including any wipe, and PW_STATn
leaves the in-transition state, so the domain accepts accesses again. -/
def execDomainTransitionComplete (n : Fin 229) (s : State) : Host.Outcome State Fault Refusal := .next ((s.domDone n.val).rstWakes)

/-- ARBITER_RESERVATION_EXPIRY (R388): When 1,024 cycles pass without the reserved requester's retry, the arbiter passes the reservation to
the next oldest requester. -/
def execArbiterReservationExpiry (k : ArbAt) (s : State) : Host.Outcome State Fault Refusal := .next (s.resvExpire (arbKey k))

end Sys2Proof.Machine
end

