-- ==== Sys2Proof/Machine/PowerCmds.lean ====
section
/-! DEFINITION. Commands: power, clocks and temperature (spec/14). -/

namespace Sys2Proof.Machine

/-- PW_REQ_WRITE (R467): A write of PW_REQn requests a domain state, which stays pending while holds apply. -/
def execPwReqWrite (req : Requester) (n : Fin 229) (v : Word) (s : State) : Host.Outcome State Fault Refusal :=
  .next (s.cmdWrite req .PW_REQ [n.val] v.toNat)

/-- DOMAIN_TRANSITION (R466): Once no hold applies, a domain leaves or returns to ON in the stated order, wiping on return from OFF. -/
def execDomainTransition (n : Fin 229) (s : State) : Host.Outcome State Fault Refusal := .next (s.domStep n.val)

/-- DOMAIN_WAKE (R469): A tail write, LPDDR piece, reset or BIST start wakes a domain that is not ON and records its source. -/
def execDomainWake (n : Fin 229) (src : Fin 16) (s : State) : Host.Outcome State Fault Refusal := .next (s.domWake n.val src.val)

/-- CK_CORE_WRITE (R473): A write of CK_COREc.REQ changes a cluster's requested clock, with voltage raised first. -/
def execCkCoreWrite (req : Requester) (c : Fin 96) (v : Word) (s : State) : Host.Outcome State Fault Refusal :=
  .next (s.cmdWrite req .CK_CORE [c.val] v.toNat)

/-- CORE_CLOCK_RELOCK_DONE (R477): The cluster PLL relocks and the core clock resumes at its new effective value. -/
def execCoreClockRelockDone (c : Fin 96) (s : State) : Host.Outcome State Fault Refusal := .next (s.coreRelock c.val)

/-- CK_FAB_WRITE (R478): An administrative write of CK_FABh.REQ checks the change and quiesces the half's trellis. -/
def execCkFabWrite (req : Requester) (h : Fin 2) (v : Word) (s : State) : Host.Outcome State Fault Refusal :=
  .next (s.cmdWrite req .CK_FAB [h.val] v.toNat)

/-- FABRIC_CLOCK_RELOCK_DONE (R478): The half's fabric PLL relocks, and the clocks, seam tables and trellis resume. -/
def execFabricClockRelockDone (h : Fin 2) (s : State) : Host.Outcome State Fault Refusal := .next (s.fabRelock h.val)

/-- VID_RAIL_CHECK (R476): A rail not within ±3 % 100 µs after a code change clears OK, posts 0x0E09 and abandons the raise. -/
def execVidRailCheck (h : Fin 2) (ok : Bool) (s : State) : Host.Outcome State Fault Refusal := .next (s.railCheck h.val ok)

/-- DROOP_TRIGGER (R479): A rail falling below threshold stretches the cluster's or the half's clocks to half frequency. -/
def execDroopTrigger (c : Fin 98) (s : State) : Host.Outcome State Fault Refusal := .next (s.droop c.val)

/-- DROOP_STRETCH_END (R479): The stretch ends 16 cycles after recovery, or passes to the half after 48 cycles. -/
def execDroopStretchEnd (c : Fin 98) (cycles : Nat) (pass : Bool) (s : State) : Host.Outcome State Fault Refusal :=
  .next (s.droopEnd c.val cycles pass)

/-- SENSOR_SAMPLE (R480): Every 10 µs each thermal sensor is read. -/
def execSensorSample (j : Fin 196) (v : Half) (s : State) : Host.Outcome State Fault Refusal := .next (s.sensorSample j.val v)

/-- THERMAL_CAP_STEP (R481): Every 100 µs a hot cluster's thermal cap falls by 100 MHz, or rises every 1 ms once cooled. -/
def execThermalCapStep (c : Fin 96) (cooled : Bool) (s : State) : Host.Outcome State Fault Refusal :=
  .next (s.thermStep c.val cooled)

/-- THERMAL_FABRIC_STEP (R482): The steward lowers or restores a half's fabric clock by 100 MHz for temperature. -/
def execThermalFabricStep (h : Fin 2) (held : Bool) (s : State) : Host.Outcome State Fault Refusal :=
  .next (s.thermFabric h.val held)

/-- POWER_ESTIMATE (R485): Every 100 µs the steward estimates each half's power. -/
def execPowerEstimate (w : Nat) (e : Nat) (s : State) : Host.Outcome State Fault Refusal := .next (s.powerEstimate w e)

/-- PEAK_STRETCH_END (R487): The peak stretch ends after 100 µs. -/
def execPeakStretchEnd (s : State) : Host.Outcome State Fault Refusal := .next (s.peakEnd)

/-- POWER_CAP_STEP (R486): Every 1 ms above PW_PCAP the power cap falls by 100 MHz, and it rises every 10 ms once the average is low. -/
def execPowerCapStep (h : Fin 2) (rise : Bool) (s : State) : Host.Outcome State Fault Refusal := .next (s.powerStep h.val rise)

/-- I3C_OFFSET_WRITE (R489): A one-byte private write sets the telemetry read offset. -/
def execI3cOffsetWrite (b : Byte) (s : State) : Host.Outcome State Fault Refusal := .next (s.i3cOffset b)

/-- I3C_READ (R489): A read transfer latches and returns the telemetry page from the offset. -/
def execI3cRead (n : Nat) (s : State) : Host.Outcome State Fault Refusal := .next (s.i3cRead n)

end Sys2Proof.Machine
end

