-- ==== Sys2Proof/Machine/Registers.lean ====
section
/-! DEFINITION. Commands: the accesses of registers that have no row of their own (R9, R13). -/

namespace Sys2Proof.Machine

/-- REGISTER_WRITE (R9): A write to a register field that has no row of its own stores, sets or clears the field according to its access
code. -/
def execRegisterWrite (req : Requester) (w : Width) (a : BitVec 48) (v : DWord) (s : State) : Host.Outcome State Fault Refusal :=
  .next (s.accessWrite req w a.toNat v.toNat)

/-- REG64_LOWER_READ (R13): A read of the lower word of a 64-bit register latches the upper word for that requester. -/
def execReg64LowerRead (req : Requester) (w : Width) (a : BitVec 48) (s : State) : Host.Outcome State Fault Refusal :=
  .next (s.accessRead req w a.toNat)

/-- REG_READ_CLEAR (R9): A read of an RC field returns its value and then clears the field. -/
def execRegReadClear (req : Requester) (w : Width) (a : BitVec 48) (s : State) : Host.Outcome State Fault Refusal :=
  .next (s.accessRead req w a.toNat)

/-- REG64_UPPER_WRITE (R13): A write to the upper word of a 64-bit register commits it together with the held or present lower word. -/
def execReg64UpperWrite (req : Requester) (w : Width) (a : BitVec 48) (v : DWord) (s : State) : Host.Outcome State Fault Refusal :=
  .next (s.accessWrite req w a.toNat v.toNat)

end Sys2Proof.Machine
end

