-- ==== Sys2Proof/Machine/SeamCmds.lean ====
section
/-! DEFINITION. Commands: the seam (spec/13). -/

namespace Sys2Proof.Machine

/-- SEAM_DATA_CELL (R438): A received event, trellis or control cell is accepted in sequence, or discarded with a replay request. -/
def execSeamDataCell (d : Fin 2) (l : Fin 4) (vl : Fin 3) (fate : CellFate) (s : State) : Host.Outcome State Fault Refusal :=
  .next (s.seamArrive d.val l.val vl.val fate)

/-- SEAM_CREDIT_CELL (R445): A credit cell returns event and trellis credits to the far send side. -/
def execSeamCreditCell (d : Fin 2) (s : State) : Host.Outcome State Fault Refusal := .next (s.seamCredits d.val)

/-- SEAM_REPLAY_REQUEST (R438): A replay request makes the sender resend from ACK + 1. -/
def execSeamReplayRequest (d : Fin 2) (l : Fin 4) (s : State) : Host.Outcome State Fault Refusal :=
  .next (s.seamReplay d.val l.val)

/-- SEAM_IDLE_CELL (R437): An idle cell carries its ACK and frees replay-buffer entries. -/
def execSeamIdleCell (d : Fin 2) (l : Fin 4) (s : State) : Host.Outcome State Fault Refusal := .next (s.seamIdle d.val l.val)

/-- SEAM_EVENT_DELIVER (R445): The receive side delivers a buffered flit into an edge router that can take it, and returns its credit. -/
def execSeamEventDeliver (d : Fin 2) (s : State) : Host.Outcome State Fault Refusal := .next (s.seamDeliver d.val)

/-- SEAM_HOLD_RELEASE (R447): A beat waiting in the hold buffer crosses when a trellis credit arrives. -/
def execSeamHoldRelease (d : Fin 2) (s : State) : Host.Outcome State Fault Refusal := .next (s.seamHold d.val)

/-- SEAM_RX_TIMEOUT (R451): A direction that receives no valid cell for 256 cell times fails. -/
def execSeamRxTimeout (d : Fin 2) (l : Fin 4) (s : State) : Host.Outcome State Fault Refusal :=
  .next (s.linkFail d.val l.val 0x0D24)

/-- SEAM_THROTTLE (R453): At the second frame boundary after a failover, an overloaded direction is throttled with 0x0D06. -/
def execSeamThrottle (s : State) : Host.Outcome State Fault Refusal := .next ((s.throttle 0).throttle 1)

end Sys2Proof.Machine
end

