-- ==== Sys2Proof/Machine/Start.lean ====
section
/-! DEFINITION. Commands: start, reset and security (spec/15, spec/16). -/

namespace Sys2Proof.Machine

/-- PORST_RELEASE (R499): The rise of PORST_N starts a cold start at phase 1. -/
def execPorstRelease (straps : BitVec 3) (s : State) : Host.Outcome State Fault Refusal := .next (s.porstHigh straps.toNat)

/-- PORST_ASSERT (R569): PORST_N low overrides every other reset and makes the next start cold. -/
def execPorstAssert (s : State) : Host.Outcome State Fault Refusal := .next (s.porstLow)

/-- SYSRST_ASSERT (R569): SYSRST_N held low for at least 1 µs requests a device reset. -/
def execSysrstAssert (s : State) : Host.Outcome State Fault Refusal := .next (s.sysrstDown)

/-- STEWARD_WATCHDOG (R509): Expiry of the steward watchdog causes a device reset. -/
def execStewardWatchdog (s : State) : Host.Outcome State Fault Refusal := .next (s.watchdog)

/-- AON_SUPPLY_FAULT (R569): VDD_AON leaving its range holds the device in reset and makes the next start cold. -/
def execAonSupplyFault (s : State) : Host.Outcome State Fault Refusal := .next (s.aonFault)

/-- KEEP_SUPPLY_DROP (R569): VDD_KEEP leaving its range during a program phase stops keep-store programming. -/
def execKeepSupplyDrop (s : State) : Host.Outcome State Fault Refusal := .next (s.keepDrop)

/-- KEEP_SUPPLY_RETURN (R569): VDD_KEEP returning to range resumes keep-store programming. -/
def execKeepSupplyReturn (s : State) : Host.Outcome State Fault Refusal := .next (s.keepReturn)

/-- BOOT_PHASE_DONE (R499): A start phase completes, and the next phase starts, or the device becomes READY. -/
def execBootPhaseDone (us : Nat) (facts : List BootFact) (s : State) : Host.Outcome State Fault Refusal :=
  .next (s.bootDone us facts)

/-- KNOWN_ANSWER_RESULT (R505): An engine's known-answer result is compared, and a mismatch fences the engine. -/
def execKnownAnswerResult (c : Fin 96) (slot : Fin 19) (ok : Bool) (s : State) : Host.Outcome State Fault Refusal :=
  .next (s.knownAnswer c.val slot.val ok)

/-- RESET_CORE (R510): A BU_RST write with SCOPE 0 resets one engine. -/
def execResetCore (req : Requester) (v : Word) (s : State) : Host.Outcome State Fault Refusal :=
  .next (s.cmdWrite req .BU_RST [] (withScope v 0))

/-- RESET_CLUSTER (R510): A BU_RST write with SCOPE 1 resets one cluster. -/
def execResetCluster (req : Requester) (v : Word) (s : State) : Host.Outcome State Fault Refusal :=
  .next (s.cmdWrite req .BU_RST [] (withScope v 1))

/-- RESET_PARTITION (R510): A BU_RST write with SCOPE 2 disables the partition's units and wipes its clusters, region and staging. -/
def execResetPartition (req : Requester) (v : Word) (s : State) : Host.Outcome State Fault Refusal :=
  .next (s.cmdWrite req .BU_RST [] (withScope v 2))

/-- RESET_DEVICE (R508): A BU_RST write with SCOPE 3 resets the device on the warm or cold path. -/
def execResetDevice (req : Requester) (v : Word) (s : State) : Host.Outcome State Fault Refusal :=
  .next (s.cmdWrite req .BU_RST [] (withScope v 3))

/-- RESET_COMPLETE (R509): A core, cluster or partition reset completes and posts 0x0F30. -/
def execResetComplete (s : State) : Host.Outcome State Fault Refusal := .next (s.rstDone)

/-- RUNTIME_BIST_REQUEST (R513): A BU_BIST_CTRL write requests runtime BIST of a cluster after checking its preconditions. -/
def execRuntimeBistRequest (req : Requester) (v : Word) (s : State) : Host.Outcome State Fault Refusal :=
  .next (s.cmdWrite req .BU_BIST_CTRL [] v.toNat)

/-- BIST_STEP_DONE (R514): A runtime BIST step ends (rail ready or timeout, save, test, restore), starting the next, or passing, or failing.
-/
def execBistStepDone (c : Fin 96) (ok : Bool) (s : State) : Host.Outcome State Fault Refusal := .next (s.bistStep c.val ok)

/-- RCV_INFO (R516): Returns the recovery entry code and the flash size. -/
def execRcvInfo (n : Fin 8) (t : Fin 17) (s : State) : Host.Outcome State Fault Refusal := .next (s.rcvInfo n.val t.val)

/-- RCV_STAGE (R516): Copies staging data into the recovery buffer. -/
def execRcvStage (n : Fin 8) (t : Fin 17) (s : State) : Host.Outcome State Fault Refusal := .next (s.rcvStage n.val t.val)

/-- RCV_BOOT (R516): Verifies the buffered bundle and continues the cold start from it. -/
def execRcvBoot (n : Fin 8) (t : Fin 17) (s : State) : Host.Outcome State Fault Refusal := .next (s.rcvBoot n.val t.val)

/-- FLASH_READ (R516): Copies flash contents to staging. -/
def execFlashRead (n : Fin 8) (t : Fin 17) (s : State) : Host.Outcome State Fault Refusal := .next (s.flashRead n.val t.val)

/-- FLASH_ERASE (R516): Erases a flash range. -/
def execFlashErase (n : Fin 8) (t : Fin 17) (s : State) : Host.Outcome State Fault Refusal := .next (s.flashErase n.val t.val)

/-- FLASH_PROGRAM (R516): Programs staging data into flash. -/
def execFlashProgram (n : Fin 8) (t : Fin 17) (s : State) : Host.Outcome State Fault Refusal := .next (s.flashProgram n.val t.val)

/-- SC_INFO (R529): Returns the life-cycle state, floor, count and identity flag. -/
def execScInfo (n : Fin 8) (t : Fin 17) (s : State) : Host.Outcome State Fault Refusal := .next (s.scInfo n.val t.val)

/-- GET_PUBKEY (R529): Writes the identity public key to staging. -/
def execGetPubkey (n : Fin 8) (t : Fin 17) (s : State) : Host.Outcome State Fault Refusal := .next (s.getPubkey n.val t.val)

/-- GET_CERT (R527): Writes the certificate chain if it matches CERTHASH. -/
def execGetCert (n : Fin 8) (t : Fin 17) (s : State) : Host.Outcome State Fault Refusal := .next (s.getCert n.val t.val)

/-- ATTEST (R528): Writes a signed attestation report over the supplied nonce. -/
def execAttest (n : Fin 8) (t : Fin 17) (s : State) : Host.Outcome State Fault Refusal := .next (s.attest n.val t.val)

/-- LC_CHALLENGE (R536): Writes a fresh one-use life-cycle challenge. -/
def execLcChallenge (n : Fin 8) (t : Fin 17) (s : State) : Host.Outcome State Fault Refusal := .next (s.lcChallenge n.val t.val)

/-- LC_TOKEN (R537): Verifies a life-cycle token and, if accepted, erases roots, programs fuses and cold-resets. -/
def execLcToken (n : Fin 8) (t : Fin 17) (s : State) : Host.Outcome State Fault Refusal := .next (s.lcToken n.val t.val)

/-- SET_FLOOR (R525): Raises the security-version floor within the running version. -/
def execSetFloor (n : Fin 8) (t : Fin 17) (s : State) : Host.Outcome State Fault Refusal := .next (s.setFloor n.val t.val)

/-- KEYGEN (R526): Generates, wraps and fuses the identity seed once, in MANUFACTURE. -/
def execKeygen (n : Fin 8) (t : Fin 17) (s : State) : Host.Outcome State Fault Refusal := .next (s.keygen n.val t.val)

/-- RANDOM_HEALTH_FAIL (R540): A failing random-bit health test makes commands and commits that need random bits fail with 0x1009. -/
def execRandomHealthFail (s : State) : Host.Outcome State Fault Refusal := .next (s.rngFail)

end Sys2Proof.Machine
end

