-- ==== Sys2Proof/Machine/TrellisCmds.lean ====
section
/-! DEFINITION. Commands: the trellis (spec/09). -/

namespace Sys2Proof.Machine

/-- FRAME_BOUNDARY (R295): Slot 0 of a half's frame applies pending table swaps, suspensions and resumptions. -/
def execFrameBoundary (h : Fin 2) (s : State) : Host.Outcome State Fault Refusal := .next (s.frameBoundary h.val)

/-- SCHEDULE_ENABLE (R313): Writing TL_SCFG.EN = 1 runs the check and starts loading the schedule into the inactive tables. -/
def execScheduleEnable (req : Requester) (n : Fin 64) (v : Word) (s : State) : Host.Outcome State Fault Refusal :=
  .next (s.cmdWrite req .TL_SCFG [0, n.val] (withEn v true))

/-- SCHEDULE_DISABLE (R315): Writing TL_SCFG.EN = 0 puts the schedule into DRAINING, and its endpoints stop at the next frame boundary. -/
def execScheduleDisable (req : Requester) (n : Fin 64) (v : Word) (s : State) : Host.Outcome State Fault Refusal :=
  .next (s.cmdWrite req .TL_SCFG [0, n.val] (withEn v false))

/-- SCHEDULE_DRAIN_COMPLETE (R315): The steward removes the drained schedule's fields, and transfers not yet accepted fail with 0x0811. -/
def execScheduleDrainComplete (n : Fin 64) (s : State) : Host.Outcome State Fault Refusal := .next (s.schedDrained n.val)

/-- QUIESCE (R316): TL_CTRL.QUIESCE stops every endpoint of the half at the next frame boundary. -/
def execQuiesce (h : Fin 2) (s : State) : Host.Outcome State Fault Refusal := .next (s.quiesce h.val)

/-- RESUME (R316): TL_CTRL.RESUME restarts the half's endpoints at a frame boundary. -/
def execResume (h : Fin 2) (s : State) : Host.Outcome State Fault Refusal := .next (s.resumeHalf h.val)

/-- TRELLIS_PIECE_ISSUE (R308): A requester issues the next piece of a transfer when fewer than eight are outstanding. -/
def execTrellisPieceIssue (x : XferAt) (slot : Fin 1024) (s : State) : Host.Outcome State Fault Refusal :=
  .next (s.pieceIssue (xferKey x) slot.val)

/-- TRELLIS_REQUEST (R307): A request beat reaches its target, which refuses it or starts the read or write. -/
def execTrellisRequest (x : XferAt) (k : Fin 8) (slot : Fin 1024) (err : BeatErr) (s : State) : Host.Outcome State Fault Refusal :=
  .next (s.pieceRequest (xferKey x) k.val slot.val err)

/-- TRELLIS_DATA_BEAT (R310): A data beat is checked and taken by its endpoint in the slot in which it arrives. -/
def execTrellisDataBeat (x : XferAt) (k : Fin 8) (slot : Fin 1024) (err : BeatErr) (s : State) : Host.Outcome State Fault Refusal :=
  .next (s.dataBeat (xferKey x) k.val slot.val err)

/-- TRELLIS_LAST (R308): A KIND 2 beat ends a read piece or acknowledges a write piece. -/
def execTrellisLast (x : XferAt) (k : Fin 8) (slot : Fin 1024) (err : BeatErr) (s : State) : Host.Outcome State Fault Refusal :=
  .next (s.pieceLast (xferKey x) k.val slot.val err)

/-- TRELLIS_REFUSAL (R312): A refusal beat ends a piece with its code, or makes the requester back off. -/
def execTrellisRefusal (x : XferAt) (k : Fin 8) (slot : Fin 1024) (err : BeatErr) (s : State) : Host.Outcome State Fault Refusal :=
  .next (s.pieceRefused (xferKey x) k.val slot.val err)

end Sys2Proof.Machine
end

