-- ==== Sys2Proof/Machine/VectorCmds.lean ====
section
/-! DEFINITION. Commands: the vector cores and their instructions (spec/06). -/

namespace Sys2Proof.Machine

/-- VX_ENABLE (R224): Writing VX_CFG.EN from 0 to 1 starts context 0 at VX_PC0. -/
def execVxEnable (req : Requester) (c : Fin 96) (v : Fin 2) (w : Word) (s : State) : Host.Outcome State Fault Refusal :=
  .next (s.cmdWrite req .VX_CFG [c.val, v.val] (withEn w true))

/-- VX_DISABLE (R240): Writing VX_CFG.EN from 1 to 0 stops context 0 at the next instruction boundary. -/
def execVxDisable (req : Requester) (c : Fin 96) (v : Fin 2) (w : Word) (s : State) : Host.Outcome State Fault Refusal :=
  .next (s.cmdWrite req .VX_CFG [c.val, v.val] (withEn w false))

/-- SADD (R227): Scalar add. -/
def execSadd (c : Fin 96) (v : Fin 2) (took : Nat) (bad : List Nat) (s : State) : Host.Outcome State Fault Refusal :=
  .next (s.vxStep bad took c.val v.val 0x01 (State.doSadd c.val v.val))

/-- SSUB (R227): Scalar subtract. -/
def execSsub (c : Fin 96) (v : Fin 2) (took : Nat) (bad : List Nat) (s : State) : Host.Outcome State Fault Refusal :=
  .next (s.vxStep bad took c.val v.val 0x02 (State.doSsub c.val v.val))

/-- SMUL (R227): Scalar multiply, low or high word. -/
def execSmul (c : Fin 96) (v : Fin 2) (took : Nat) (bad : List Nat) (s : State) : Host.Outcome State Fault Refusal :=
  .next (s.vxStep bad took c.val v.val 0x03 (State.doSmul c.val v.val))

/-- SLOG (R227): Scalar logical operation. -/
def execSlog (c : Fin 96) (v : Fin 2) (took : Nat) (bad : List Nat) (s : State) : Host.Outcome State Fault Refusal :=
  .next (s.vxStep bad took c.val v.val 0x04 (State.doSlog c.val v.val))

/-- SSHF (R227): Scalar shift. -/
def execSshf (c : Fin 96) (v : Fin 2) (took : Nat) (bad : List Nat) (s : State) : Host.Outcome State Fault Refusal :=
  .next (s.vxStep bad took c.val v.val 0x05 (State.doSshf c.val v.val))

/-- SCMP (R227): Scalar compare into a register. -/
def execScmp (c : Fin 96) (v : Fin 2) (took : Nat) (bad : List Nat) (s : State) : Host.Outcome State Fault Refusal :=
  .next (s.vxStep bad took c.val v.val 0x06 (State.doScmp c.val v.val))

/-- SADDI (R227): Scalar add of a sign-extended immediate. -/
def execSaddi (c : Fin 96) (v : Fin 2) (took : Nat) (bad : List Nat) (s : State) : Host.Outcome State Fault Refusal :=
  .next (s.vxStep bad took c.val v.val 0x07 (State.doSaddi c.val v.val))

/-- SLUI (R227): Load of an upper immediate. -/
def execSlui (c : Fin 96) (v : Fin 2) (took : Nat) (bad : List Nat) (s : State) : Host.Outcome State Fault Refusal :=
  .next (s.vxStep bad took c.val v.val 0x08 (State.doSlui c.val v.val))

/-- BC (R227): Conditional branch. -/
def execBc (c : Fin 96) (v : Fin 2) (took : Nat) (bad : List Nat) (s : State) : Host.Outcome State Fault Refusal :=
  .next (s.vxStep bad took c.val v.val 0x10 (State.doBc c.val v.val))

/-- JMP (R227): Relative jump. -/
def execJmp (c : Fin 96) (v : Fin 2) (took : Nat) (bad : List Nat) (s : State) : Host.Outcome State Fault Refusal :=
  .next (s.vxStep bad took c.val v.val 0x11 (State.doJmp c.val v.val))

/-- JR (R227): Jump to a register, linking the return address. -/
def execJr (c : Fin 96) (v : Fin 2) (took : Nat) (bad : List Nat) (s : State) : Host.Outcome State Fault Refusal :=
  .next (s.vxStep bad took c.val v.val 0x12 (State.doJr c.val v.val))

/-- LOOP (R227): Runs the next IMM instructions s[a] times with no overhead. -/
def execLoop (c : Fin 96) (v : Fin 2) (took : Nat) (bad : List Nat) (s : State) : Host.Outcome State Fault Refusal :=
  .next (s.vxStep bad took c.val v.val 0x13 (State.doLoop c.val v.val))

/-- SYS_HALT (R235): SYS 0 stops the context; a stopped context 0 counts as done and its groups halt with 0x0581. -/
def execSysHalt (c : Fin 96) (v : Fin 2) (took : Nat) (bad : List Nat) (s : State) : Host.Outcome State Fault Refusal :=
  .next (s.vxStep bad took c.val v.val 0x14 (State.doHalt c.val v.val))

/-- SYS_FENCE (R227): SYS 1 waits until all earlier transfers and EMITs have been accepted. -/
def execSysFence (c : Fin 96) (v : Fin 2) (took : Nat) (bad : List Nat) (s : State) : Host.Outcome State Fault Refusal :=
  .next (s.vxStep bad took c.val v.val 0x14 (State.doFence c.val v.val))

/-- SYS_BREAK (R235): SYS 2 faults the context with 0x0524. -/
def execSysBreak (c : Fin 96) (v : Fin 2) (took : Nat) (bad : List Nat) (s : State) : Host.Outcome State Fault Refusal :=
  .next (s.vxStep bad took c.val v.val 0x14 State.doBreak)

/-- SLD (R227): Scalar load from the local store. -/
def execSld (c : Fin 96) (v : Fin 2) (took : Nat) (bad : List Nat) (s : State) : Host.Outcome State Fault Refusal :=
  .next (s.vxStep bad took c.val v.val 0x18 (State.doSld bad c.val v.val))

/-- SST (R227): Scalar store to the local store. -/
def execSst (c : Fin 96) (v : Fin 2) (took : Nat) (bad : List Nat) (s : State) : Host.Outcome State Fault Refusal :=
  .next (s.vxStep bad took c.val v.val 0x19 (State.doSst c.val v.val))

/-- VLD (R227): Vector load from the local store. -/
def execVld (c : Fin 96) (v : Fin 2) (took : Nat) (bad : List Nat) (s : State) : Host.Outcome State Fault Refusal :=
  .next (s.vxStep bad took c.val v.val 0x1A (State.doVld bad c.val v.val))

/-- VST (R227): Vector store to the local store. -/
def execVst (c : Fin 96) (v : Fin 2) (took : Nat) (bad : List Nat) (s : State) : Host.Outcome State Fault Refusal :=
  .next (s.vxStep bad took c.val v.val 0x1B (State.doVst c.val v.val))

/-- XLD (R231): Issues a transfer from a device address to the local store. -/
def execXld (c : Fin 96) (v : Fin 2) (took : Nat) (bad : List Nat) (s : State) : Host.Outcome State Fault Refusal :=
  .next (s.vxStep bad took c.val v.val 0x1C (State.doXld c.val v.val))

/-- XST (R231): Issues a transfer from the local store to a device address, including a send window. -/
def execXst (c : Fin 96) (v : Fin 2) (took : Nat) (bad : List Nat) (s : State) : Host.Outcome State Fault Refusal :=
  .next (s.vxStep bad took c.val v.val 0x1D (State.doXst c.val v.val))

/-- XWAIT (R227): Waits until at most IMM transfers are outstanding. -/
def execXwait (c : Fin 96) (v : Fin 2) (took : Nat) (bad : List Nat) (s : State) : Host.Outcome State Fault Refusal :=
  .next (s.vxStep bad took c.val v.val 0x1E (State.doXwait c.val v.val))

/-- VX_TRANSFER_COMPLETE (R232): An outstanding XLD or XST is accepted and its slot frees. -/
def execVxTransferComplete (x : XferAt) (bad : List Nat) (s : State) : Host.Outcome State Fault Refusal :=
  .next (s.vxTransferDone bad (xferKey x))

/-- VADD (R227): Vector add of the selected type. -/
def execVadd (c : Fin 96) (v : Fin 2) (took : Nat) (bad : List Nat) (s : State) : Host.Outcome State Fault Refusal :=
  .next (s.vxStep bad took c.val v.val 0x20 (State.doVadd c.val v.val))

/-- VSUB (R227): Vector subtract. -/
def execVsub (c : Fin 96) (v : Fin 2) (took : Nat) (bad : List Nat) (s : State) : Host.Outcome State Fault Refusal :=
  .next (s.vxStep bad took c.val v.val 0x21 (State.doVsub c.val v.val))

/-- VMUL (R227): Vector multiply. -/
def execVmul (c : Fin 96) (v : Fin 2) (took : Nat) (bad : List Nat) (s : State) : Host.Outcome State Fault Refusal :=
  .next (s.vxStep bad took c.val v.val 0x22 (State.doVmul c.val v.val))

/-- VMAC (R227): Vector multiply-accumulate. -/
def execVmac (c : Fin 96) (v : Fin 2) (took : Nat) (bad : List Nat) (s : State) : Host.Outcome State Fault Refusal :=
  .next (s.vxStep bad took c.val v.val 0x23 (State.doVmac c.val v.val))

/-- VMNX (R227): Vector minimum or maximum. -/
def execVmnx (c : Fin 96) (v : Fin 2) (took : Nat) (bad : List Nat) (s : State) : Host.Outcome State Fault Refusal :=
  .next (s.vxStep bad took c.val v.val 0x24 (State.doVmnx c.val v.val))

/-- VLOG (R227): Vector logical operation. -/
def execVlog (c : Fin 96) (v : Fin 2) (took : Nat) (bad : List Nat) (s : State) : Host.Outcome State Fault Refusal :=
  .next (s.vxStep bad took c.val v.val 0x25 (State.doVlog c.val v.val))

/-- VSHF (R227): Vector shift. -/
def execVshf (c : Fin 96) (v : Fin 2) (took : Nat) (bad : List Nat) (s : State) : Host.Outcome State Fault Refusal :=
  .next (s.vxStep bad took c.val v.val 0x26 (State.doVshf c.val v.val))

/-- VCMP (R227): Vector compare into a mask register. -/
def execVcmp (c : Fin 96) (v : Fin 2) (took : Nat) (bad : List Nat) (s : State) : Host.Outcome State Fault Refusal :=
  .next (s.vxStep bad took c.val v.val 0x27 (State.doVcmp c.val v.val))

/-- VSEL (R227): Vector select under a mask. -/
def execVsel (c : Fin 96) (v : Fin 2) (took : Nat) (bad : List Nat) (s : State) : Host.Outcome State Fault Refusal :=
  .next (s.vxStep bad took c.val v.val 0x28 (State.doVsel c.val v.val))

/-- VCVT (R228): Vector format conversion of one group. -/
def execVcvt (c : Fin 96) (v : Fin 2) (took : Nat) (bad : List Nat) (s : State) : Host.Outcome State Fault Refusal :=
  .next (s.vxStep bad took c.val v.val 0x29 (State.doVcvt c.val v.val))

/-- VRED (R227): Vector reduction into a scalar. -/
def execVred (c : Fin 96) (v : Fin 2) (took : Nat) (bad : List Nat) (s : State) : Host.Outcome State Fault Refusal :=
  .next (s.vxStep bad took c.val v.val 0x2A (State.doVred c.val v.val))

/-- VMOV (R227): Vector, scalar and mask moves. -/
def execVmov (c : Fin 96) (v : Fin 2) (took : Nat) (bad : List Nat) (s : State) : Host.Outcome State Fault Refusal :=
  .next (s.vxStep bad took c.val v.val 0x2B (State.doVmov c.val v.val))

/-- EMIT (R233): Hands one or up to 16 emit records to the emit port. -/
def execEmit (c : Fin 96) (v : Fin 2) (took : Nat) (bad : List Nat) (s : State) : Host.Outcome State Fault Refusal :=
  .next (s.vxStep bad took c.val v.val 0x30 (State.doEmit c.val v.val))

/-- IBPOP (R227): Pops up to four flits from the in-band queue into a vector register. -/
def execIbpop (c : Fin 96) (v : Fin 2) (took : Nat) (bad : List Nat) (s : State) : Host.Outcome State Fault Refusal :=
  .next (s.vxStep bad took c.val v.val 0x31 (State.doIbpop c.val v.val))

/-- SWAIT (R227): Blocks until a group has a later step open, or until a step is harvested. -/
def execSwait (c : Fin 96) (v : Fin 2) (took : Nat) (bad : List Nat) (s : State) : Host.Outcome State Fault Refusal :=
  .next (s.vxStep bad took c.val v.val 0x32 (State.doSwait c.val v.val))

/-- SDONE (R234): Completes this core's work for the open step of a group. -/
def execSdone (c : Fin 96) (v : Fin 2) (took : Nat) (bad : List Nat) (s : State) : Host.Outcome State Fault Refusal :=
  .next (s.vxStep bad took c.val v.val 0x33 (State.doSdone c.val v.val))

/-- WUPD (R229): Weight update of 16 synapses. -/
def execWupd (c : Fin 96) (v : Fin 2) (took : Nat) (bad : List Nat) (s : State) : Host.Outcome State Fault Refusal :=
  .next (s.vxStep bad took c.val v.val 0x34 (State.doWupd c.val v.val))

/-- VRAND (R227): Per-lane random bits from the LFSR procedure. -/
def execVrand (c : Fin 96) (v : Fin 2) (took : Nat) (bad : List Nat) (s : State) : Host.Outcome State Fault Refusal :=
  .next (s.vxStep bad took c.val v.val 0x35 (State.doVrand c.val v.val))

/-- CSRR (R230): Reads a CSR. -/
def execCsrr (c : Fin 96) (v : Fin 2) (took : Nat) (bad : List Nat) (cycles : Nat) (s : State) : Host.Outcome State Fault Refusal :=
  .next (s.vxStep bad took c.val v.val 0x36 (State.doCsrr cycles c.val v.val))

/-- CSRW (R230): Writes a CSR. -/
def execCsrw (c : Fin 96) (v : Fin 2) (took : Nat) (bad : List Nat) (s : State) : Host.Outcome State Fault Refusal :=
  .next (s.vxStep bad took c.val v.val 0x37 (State.doCsrw c.val v.val))

end Sys2Proof.Machine
end

