-- ==== Sys2Proof/Machine/Dispatch.lean ====
section
/-! DEFINITION. The meaning of each command: one arm per constructor. -/

namespace Sys2Proof.Machine

def exec (i : Instr) (s : State) : Host.Outcome State Fault Refusal :=
  match i with
  | .registerWrite req w a v => Sys2Proof.Machine.execRegisterWrite req w a v s
  | .reg64LowerRead req w a => Sys2Proof.Machine.execReg64LowerRead req w a s
  | .regReadClear req w a => Sys2Proof.Machine.execRegReadClear req w a s
  | .reg64UpperWrite req w a v => Sys2Proof.Machine.execReg64UpperWrite req w a v s
  | .tbiEdgeAccept m a b => Sys2Proof.Machine.execTbiEdgeAccept m a b s
  | .tbiZEdgeAccept m z => Sys2Proof.Machine.execTbiZEdgeAccept m z s
  | .tbPeriodExpiry n => Sys2Proof.Machine.execTbPeriodExpiry n s
  | .tbTargetWrite req n v => Sys2Proof.Machine.execTbTargetWrite req n v s
  | .tbEnable req n v => Sys2Proof.Machine.execTbEnable req n v s
  | .tbDisable req n v => Sys2Proof.Machine.execTbDisable req n v s
  | .tbInCfgWrite req m v pins => Sys2Proof.Machine.execTbInCfgWrite req m v pins s
  | .wgEnable req g v => Sys2Proof.Machine.execWgEnable req g v s
  | .wgDisable req g v => Sys2Proof.Machine.execWgDisable req g v s
  | .wgStepOpen g => Sys2Proof.Machine.execWgStepOpen g s
  | .wgInseqWrite req g v => Sys2Proof.Machine.execWgInseqWrite req g v s
  | .wgHalt req g => Sys2Proof.Machine.execWgHalt req g s
  | .wgResume req g => Sys2Proof.Machine.execWgResume req g s
  | .wgResumeRealign req g => Sys2Proof.Machine.execWgResumeRealign req g s
  | .harvestRound g h => Sys2Proof.Machine.execHarvestRound g h s
  | .swapWriteOutDone g => Sys2Proof.Machine.execSwapWriteOutDone g s
  | .cohortReadInDone g meets => Sys2Proof.Machine.execCohortReadInDone g meets s
  | .ncEnable req c n v => Sys2Proof.Machine.execNcEnable req c n v s
  | .powerTableFillDone c n => Sys2Proof.Machine.execPowerTableFillDone c n s
  | .cnOpen g e bad errs => Sys2Proof.Machine.execCnOpen g e bad errs s
  | .fanoutWalk c n bad => Sys2Proof.Machine.execFanoutWalk c n bad s
  | .engineEmitDone g e => Sys2Proof.Machine.execEngineEmitDone g e s
  | .coreFlitEnqueue c n => Sys2Proof.Machine.execCoreFlitEnqueue c n s
  | .laneDelivery c n bad held conf aconf => Sys2Proof.Machine.execLaneDelivery c n bad held conf aconf s
  | .modulatorFlit c n => Sys2Proof.Machine.execModulatorFlit c n s
  | .coreSleep c n => Sys2Proof.Machine.execCoreSleep c n s
  | .coreWake c n src cycles => Sys2Proof.Machine.execCoreWake c n src cycles s
  | .emitRecord c e bad => Sys2Proof.Machine.execEmitRecord c e bad s
  | .sinkAdd c e meets => Sys2Proof.Machine.execSinkAdd c e meets s
  | .inbandQueueEnter c e => Sys2Proof.Machine.execInbandQueueEnter c e s
  | .lrSetEnable req c k v => Sys2Proof.Machine.execLrSetEnable req c k v s
  | .lrSetWgWrite req c k j v => Sys2Proof.Machine.execLrSetWgWrite req c k j v s
  | .lrSetCommit req c k => Sys2Proof.Machine.execLrSetCommit req c k s
  | .epochEndStart k => Sys2Proof.Machine.execEpochEndStart k s
  | .serviceStageSignal c v k took bad => Sys2Proof.Machine.execServiceStageSignal c v k took bad s
  | .cnFlip c n errs => Sys2Proof.Machine.execCnFlip c n errs s
  | .flipComplete k => Sys2Proof.Machine.execFlipComplete k s
  | .ksCmdNone req c k => Sys2Proof.Machine.execKsCmdNone req c k s
  | .ksCommit req c k => Sys2Proof.Machine.execKsCommit req c k s
  | .ksRestore req c k => Sys2Proof.Machine.execKsRestore req c k s
  | .restoreComplete p => Sys2Proof.Machine.execRestoreComplete p s
  | .commitPhaseDone bad => Sys2Proof.Machine.execCommitPhaseDone bad s
  | .mxDqTailWrite req c v => Sys2Proof.Machine.execMxDqTailWrite req c v s
  | .mxFence c bad => Sys2Proof.Machine.execMxFence c bad s
  | .mxMatmul c stopped bad => Sys2Proof.Machine.execMxMatmul c stopped bad s
  | .mxConv c stopped bad => Sys2Proof.Machine.execMxConv c stopped bad s
  | .mxEw c bad => Sys2Proof.Machine.execMxEw c bad s
  | .mxReduce c bad => Sys2Proof.Machine.execMxReduce c bad s
  | .mxEncode c bad => Sys2Proof.Machine.execMxEncode c bad s
  | .mxGather c bad => Sys2Proof.Machine.execMxGather c bad s
  | .mxDescriptorComplete c cycles busy wait => Sys2Proof.Machine.execMxDescriptorComplete c cycles busy wait s
  | .mxAbort req c cycles => Sys2Proof.Machine.execMxAbort req c cycles s
  | .vxEnable req c v w => Sys2Proof.Machine.execVxEnable req c v w s
  | .vxDisable req c v w => Sys2Proof.Machine.execVxDisable req c v w s
  | .sadd c v took bad => Sys2Proof.Machine.execSadd c v took bad s
  | .ssub c v took bad => Sys2Proof.Machine.execSsub c v took bad s
  | .smul c v took bad => Sys2Proof.Machine.execSmul c v took bad s
  | .slog c v took bad => Sys2Proof.Machine.execSlog c v took bad s
  | .sshf c v took bad => Sys2Proof.Machine.execSshf c v took bad s
  | .scmp c v took bad => Sys2Proof.Machine.execScmp c v took bad s
  | .saddi c v took bad => Sys2Proof.Machine.execSaddi c v took bad s
  | .slui c v took bad => Sys2Proof.Machine.execSlui c v took bad s
  | .bc c v took bad => Sys2Proof.Machine.execBc c v took bad s
  | .jmp c v took bad => Sys2Proof.Machine.execJmp c v took bad s
  | .jr c v took bad => Sys2Proof.Machine.execJr c v took bad s
  | .loop c v took bad => Sys2Proof.Machine.execLoop c v took bad s
  | .sysHalt c v took bad => Sys2Proof.Machine.execSysHalt c v took bad s
  | .sysFence c v took bad => Sys2Proof.Machine.execSysFence c v took bad s
  | .sysBreak c v took bad => Sys2Proof.Machine.execSysBreak c v took bad s
  | .sld c v took bad => Sys2Proof.Machine.execSld c v took bad s
  | .sst c v took bad => Sys2Proof.Machine.execSst c v took bad s
  | .vld c v took bad => Sys2Proof.Machine.execVld c v took bad s
  | .vst c v took bad => Sys2Proof.Machine.execVst c v took bad s
  | .xld c v took bad => Sys2Proof.Machine.execXld c v took bad s
  | .xst c v took bad => Sys2Proof.Machine.execXst c v took bad s
  | .xwait c v took bad => Sys2Proof.Machine.execXwait c v took bad s
  | .vxTransferComplete x bad => Sys2Proof.Machine.execVxTransferComplete x bad s
  | .vadd c v took bad => Sys2Proof.Machine.execVadd c v took bad s
  | .vsub c v took bad => Sys2Proof.Machine.execVsub c v took bad s
  | .vmul c v took bad => Sys2Proof.Machine.execVmul c v took bad s
  | .vmac c v took bad => Sys2Proof.Machine.execVmac c v took bad s
  | .vmnx c v took bad => Sys2Proof.Machine.execVmnx c v took bad s
  | .vlog c v took bad => Sys2Proof.Machine.execVlog c v took bad s
  | .vshf c v took bad => Sys2Proof.Machine.execVshf c v took bad s
  | .vcmp c v took bad => Sys2Proof.Machine.execVcmp c v took bad s
  | .vsel c v took bad => Sys2Proof.Machine.execVsel c v took bad s
  | .vcvt c v took bad => Sys2Proof.Machine.execVcvt c v took bad s
  | .vred c v took bad => Sys2Proof.Machine.execVred c v took bad s
  | .vmov c v took bad => Sys2Proof.Machine.execVmov c v took bad s
  | .emit c v took bad => Sys2Proof.Machine.execEmit c v took bad s
  | .ibpop c v took bad => Sys2Proof.Machine.execIbpop c v took bad s
  | .swait c v took bad => Sys2Proof.Machine.execSwait c v took bad s
  | .sdone c v took bad => Sys2Proof.Machine.execSdone c v took bad s
  | .wupd c v took bad => Sys2Proof.Machine.execWupd c v took bad s
  | .vrand c v took bad => Sys2Proof.Machine.execVrand c v took bad s
  | .csrr c v took bad cycles => Sys2Proof.Machine.execCsrr c v took bad cycles s
  | .csrw c v took bad => Sys2Proof.Machine.execCsrw c v took bad s
  | .flitInject c => Sys2Proof.Machine.execFlitInject c s
  | .flitRoute h errs => Sys2Proof.Machine.execFlitRoute h errs s
  | .spillRelease c => Sys2Proof.Machine.execSpillRelease c s
  | .goldenScan h => Sys2Proof.Machine.execGoldenScan h s
  | .goldenPeriodEnd h => Sys2Proof.Machine.execGoldenPeriodEnd h s
  | .efFenceWrite req c v => Sys2Proof.Machine.execEfFenceWrite req c v s
  | .remapEnable req n v => Sys2Proof.Machine.execRemapEnable req n v s
  | .remapDisable req n v => Sys2Proof.Machine.execRemapDisable req n v s
  | .freset req c => Sys2Proof.Machine.execFreset req c s
  | .routerTableEccError c => Sys2Proof.Machine.execRouterTableEccError c s
  | .fabricResetDrainEnd c => Sys2Proof.Machine.execFabricResetDrainEnd c s
  | .fabricResetSelfcheckDone c pass => Sys2Proof.Machine.execFabricResetSelfcheckDone c pass s
  | .holeClear c => Sys2Proof.Machine.execHoleClear c s
  | .frameBoundary h => Sys2Proof.Machine.execFrameBoundary h s
  | .scheduleEnable req n v => Sys2Proof.Machine.execScheduleEnable req n v s
  | .scheduleDisable req n v => Sys2Proof.Machine.execScheduleDisable req n v s
  | .scheduleDrainComplete n => Sys2Proof.Machine.execScheduleDrainComplete n s
  | .quiesce h => Sys2Proof.Machine.execQuiesce h s
  | .resume h => Sys2Proof.Machine.execResume h s
  | .trellisPieceIssue x slot => Sys2Proof.Machine.execTrellisPieceIssue x slot s
  | .trellisRequest x k slot err => Sys2Proof.Machine.execTrellisRequest x k slot err s
  | .trellisDataBeat x k slot err => Sys2Proof.Machine.execTrellisDataBeat x k slot err s
  | .trellisLast x k slot err => Sys2Proof.Machine.execTrellisLast x k slot err s
  | .trellisRefusal x k slot err => Sys2Proof.Machine.execTrellisRefusal x k slot err s
  | .cnWrite dest addr ws errs => Sys2Proof.Machine.execCnWrite dest addr ws errs s
  | .cnRead dest count from_ addr bad errs => Sys2Proof.Machine.execCnRead dest count from_ addr bad errs s
  | .cnResp errs => Sys2Proof.Machine.execCnResp errs s
  | .cnDone g e errs => Sys2Proof.Machine.execCnDone g e errs s
  | .cnReduce c op tag ws errs => Sys2Proof.Machine.execCnReduce c op tag ws errs s
  | .cnResult tag errs => Sys2Proof.Machine.execCnResult tag errs s
  | .cnBcast dest kind seg ws crc errs => Sys2Proof.Machine.execCnBcast dest kind seg ws crc errs s
  | .cnFence c slot errs => Sys2Proof.Machine.execCnFence c slot errs s
  | .cnReset c scope slot errs => Sys2Proof.Machine.execCnReset c scope slot errs s
  | .cnStatus c cause ws errs => Sys2Proof.Machine.execCnStatus c cause ws errs s
  | .cnTload n errs => Sys2Proof.Machine.execCnTload n errs s
  | .mqChannelEnable req c n v => Sys2Proof.Machine.execMqChannelEnable req c n v s
  | .mqChannelDisable req c n v => Sys2Proof.Machine.execMqChannelDisable req c n v s
  | .mqHandleEnable req c n v => Sys2Proof.Machine.execMqHandleEnable req c n v s
  | .mqRequestReceive x slot err => Sys2Proof.Machine.execMqRequestReceive x slot err s
  | .mqPlacementGrant t => Sys2Proof.Machine.execMqPlacementGrant t s
  | .mqPublish x => Sys2Proof.Machine.execMqPublish x s
  | .queueContributionAdd x => Sys2Proof.Machine.execQueueContributionAdd x s
  | .mqRdWrite t v => Sys2Proof.Machine.execMqRdWrite t v s
  | .mqCdoneWrite t v => Sys2Proof.Machine.execMqCdoneWrite t v s
  | .mqReleasedWrite t v => Sys2Proof.Machine.execMqReleasedWrite t v s
  | .queueCompostDrain t => Sys2Proof.Machine.execQueueCompostDrain t s
  | .waitEdgeRegister x => Sys2Proof.Machine.execWaitEdgeRegister x s
  | .waitCycleScan h => Sys2Proof.Machine.execWaitCycleScan h s
  | .bkOwnWrite req c b v => Sys2Proof.Machine.execBkOwnWrite req c b v s
  | .bkHandoverEnd c b => Sys2Proof.Machine.execBkHandoverEnd c b s
  | .bankRetentionEnter req c v => Sys2Proof.Machine.execBankRetentionEnter req c v s
  | .bankWake req c v => Sys2Proof.Machine.execBankWake req c v s
  | .bankWakeDone c b => Sys2Proof.Machine.execBankWakeDone c b s
  | .arbiterGrant k bad lost => Sys2Proof.Machine.execArbiterGrant k bad lost s
  | .backoffExpiry x k slot => Sys2Proof.Machine.execBackoffExpiry x k slot s
  | .grantRevoke k e => Sys2Proof.Machine.execGrantRevoke k e s
  | .dmTrackingPause n fail => Sys2Proof.Machine.execDmTrackingPause n fail s
  | .dmRefresh n => Sys2Proof.Machine.execDmRefresh n s
  | .hostLineWrite n off line err => Sys2Proof.Machine.execHostLineWrite n off line err s
  | .hcCrdWrite n t v => Sys2Proof.Machine.execHcCrdWrite n t v s
  | .hcEvinWrWrite n v => Sys2Proof.Machine.execHcEvinWrWrite n v s
  | .hcRdWrite n ch v => Sys2Proof.Machine.execHcRdWrite n ch v s
  | .hcEvdoneWrite n b v => Sys2Proof.Machine.execHcEvdoneWrite n b v s
  | .hostTrainingStep n kind pass => Sys2Proof.Machine.execHostTrainingStep n kind pass s
  | .hostModeRegisterWrite n rate supported service => Sys2Proof.Machine.execHostModeRegisterWrite n rate supported service s
  | .hostSelfRefresh n enter => Sys2Proof.Machine.execHostSelfRefresh n enter s
  | .hostClockTimeout n => Sys2Proof.Machine.execHostClockTimeout n s
  | .gpRetry req n => Sys2Proof.Machine.execGpRetry req n s
  | .trayenWrite req n v => Sys2Proof.Machine.execTrayenWrite req n v s
  | .trayScan n use => Sys2Proof.Machine.execTrayScan n use s
  | .nop n t => Sys2Proof.Machine.execNop n t s
  | .regrd n t => Sys2Proof.Machine.execRegrd n t s
  | .regwr n t => Sys2Proof.Machine.execRegwr n t s
  | .copyIn n t => Sys2Proof.Machine.execCopyIn n t s
  | .copyOut n t => Sys2Proof.Machine.execCopyOut n t s
  | .send n t => Sys2Proof.Machine.execSend n t s
  | .fenceEng n t => Sys2Proof.Machine.execFenceEng n t s
  | .commandComplete n t => Sys2Proof.Machine.execCommandComplete n t s
  | .eventInInject n => Sys2Proof.Machine.execEventInInject n s
  | .hostCompostDrain n ch => Sys2Proof.Machine.execHostCompostDrain n ch s
  | .mirrorUpdate n => Sys2Proof.Machine.execMirrorUpdate n s
  | .partitionEnable req p v => Sys2Proof.Machine.execPartitionEnable req p v s
  | .partitionRelease req p v => Sys2Proof.Machine.execPartitionRelease req p v s
  | .partitionReleaseComplete p => Sys2Proof.Machine.execPartitionReleaseComplete p s
  | .gpMapEnable req n v => Sys2Proof.Machine.execGpMapEnable req n v s
  | .gpMapDisable req n v => Sys2Proof.Machine.execGpMapDisable req n v s
  | .gpEvsrcEnable req n v => Sys2Proof.Machine.execGpEvsrcEnable req n v s
  | .bindEntryEnable req at_ v => Sys2Proof.Machine.execBindEntryEnable req at_ v s
  | .hostChannelEnable req n ch v => Sys2Proof.Machine.execHostChannelEnable req n ch v s
  | .seamDataCell d l vl fate => Sys2Proof.Machine.execSeamDataCell d l vl fate s
  | .seamCreditCell d => Sys2Proof.Machine.execSeamCreditCell d s
  | .seamReplayRequest d l => Sys2Proof.Machine.execSeamReplayRequest d l s
  | .seamIdleCell d l => Sys2Proof.Machine.execSeamIdleCell d l s
  | .seamEventDeliver d => Sys2Proof.Machine.execSeamEventDeliver d s
  | .seamHoldRelease d => Sys2Proof.Machine.execSeamHoldRelease d s
  | .seamRxTimeout d l => Sys2Proof.Machine.execSeamRxTimeout d l s
  | .pwReqWrite req n v => Sys2Proof.Machine.execPwReqWrite req n v s
  | .domainTransition n => Sys2Proof.Machine.execDomainTransition n s
  | .domainWake n src => Sys2Proof.Machine.execDomainWake n src s
  | .ckCoreWrite req c v => Sys2Proof.Machine.execCkCoreWrite req c v s
  | .coreClockRelockDone c => Sys2Proof.Machine.execCoreClockRelockDone c s
  | .ckFabWrite req h v => Sys2Proof.Machine.execCkFabWrite req h v s
  | .fabricClockRelockDone h => Sys2Proof.Machine.execFabricClockRelockDone h s
  | .vidRailCheck h ok => Sys2Proof.Machine.execVidRailCheck h ok s
  | .droopTrigger c => Sys2Proof.Machine.execDroopTrigger c s
  | .droopStretchEnd c cycles pass => Sys2Proof.Machine.execDroopStretchEnd c cycles pass s
  | .sensorSample j v => Sys2Proof.Machine.execSensorSample j v s
  | .thermalCapStep c cooled => Sys2Proof.Machine.execThermalCapStep c cooled s
  | .thermalFabricStep h held => Sys2Proof.Machine.execThermalFabricStep h held s
  | .powerEstimate w e => Sys2Proof.Machine.execPowerEstimate w e s
  | .powerCapStep h rise => Sys2Proof.Machine.execPowerCapStep h rise s
  | .i3cOffsetWrite b => Sys2Proof.Machine.execI3cOffsetWrite b s
  | .i3cRead n => Sys2Proof.Machine.execI3cRead n s
  | .porstRelease straps => Sys2Proof.Machine.execPorstRelease straps s
  | .bootPhaseDone us facts => Sys2Proof.Machine.execBootPhaseDone us facts s
  | .knownAnswerResult c slot ok => Sys2Proof.Machine.execKnownAnswerResult c slot ok s
  | .resetCore req v => Sys2Proof.Machine.execResetCore req v s
  | .resetCluster req v => Sys2Proof.Machine.execResetCluster req v s
  | .resetPartition req v => Sys2Proof.Machine.execResetPartition req v s
  | .resetDevice req v => Sys2Proof.Machine.execResetDevice req v s
  | .runtimeBistRequest req v => Sys2Proof.Machine.execRuntimeBistRequest req v s
  | .bistStepDone c ok => Sys2Proof.Machine.execBistStepDone c ok s
  | .rcvInfo n t => Sys2Proof.Machine.execRcvInfo n t s
  | .rcvStage n t => Sys2Proof.Machine.execRcvStage n t s
  | .rcvBoot n t => Sys2Proof.Machine.execRcvBoot n t s
  | .flashRead n t => Sys2Proof.Machine.execFlashRead n t s
  | .flashErase n t => Sys2Proof.Machine.execFlashErase n t s
  | .flashProgram n t => Sys2Proof.Machine.execFlashProgram n t s
  | .scInfo n t => Sys2Proof.Machine.execScInfo n t s
  | .getPubkey n t => Sys2Proof.Machine.execGetPubkey n t s
  | .getCert n t => Sys2Proof.Machine.execGetCert n t s
  | .attest n t => Sys2Proof.Machine.execAttest n t s
  | .lcChallenge n t => Sys2Proof.Machine.execLcChallenge n t s
  | .lcToken n t => Sys2Proof.Machine.execLcToken n t s
  | .setFloor n t => Sys2Proof.Machine.execSetFloor n t s
  | .keygen n t => Sys2Proof.Machine.execKeygen n t s
  | .pcWinWrite req v => Sys2Proof.Machine.execPcWinWrite req v s
  | .rakeGo req => Sys2Proof.Machine.execRakeGo req s
  | .rakePassDone lost => Sys2Proof.Machine.execRakePassDone lost s
  | .traceEnable req p v => Sys2Proof.Machine.execTraceEnable req p v s
  | .traceRingEnable req c v => Sys2Proof.Machine.execTraceRingEnable req c v s
  | .i3cDynamicAddress a => Sys2Proof.Machine.execI3cDynamicAddress a s
  | .domainTransitionComplete n => Sys2Proof.Machine.execDomainTransitionComplete n s
  | .arbiterReservationExpiry k => Sys2Proof.Machine.execArbiterReservationExpiry k s
  | .commitCaptureStart => Sys2Proof.Machine.execCommitCaptureStart s
  | .consistencyCheckComplete => Sys2Proof.Machine.execConsistencyCheckComplete s
  | .seamThrottle => Sys2Proof.Machine.execSeamThrottle s
  | .peakStretchEnd => Sys2Proof.Machine.execPeakStretchEnd s
  | .porstAssert => Sys2Proof.Machine.execPorstAssert s
  | .sysrstAssert => Sys2Proof.Machine.execSysrstAssert s
  | .stewardWatchdog => Sys2Proof.Machine.execStewardWatchdog s
  | .aonSupplyFault => Sys2Proof.Machine.execAonSupplyFault s
  | .keepSupplyDrop => Sys2Proof.Machine.execKeepSupplyDrop s
  | .keepSupplyReturn => Sys2Proof.Machine.execKeepSupplyReturn s
  | .resetComplete => Sys2Proof.Machine.execResetComplete s
  | .randomHealthFail => Sys2Proof.Machine.execRandomHealthFail s
  | .windowEnd => Sys2Proof.Machine.execWindowEnd s
  | .counterMirrorWriteDone => Sys2Proof.Machine.execCounterMirrorWriteDone s
  | .sysrstRelease => Sys2Proof.Machine.execSysrstRelease s

end Sys2Proof.Machine
end

