-- ==== Sys2Proof/Safety.lean ====
section
/-! DEFINITION. The terms the statements use: the parts of the state, what it means that a part is unchanged, the canonical form of every
sparse map, what burned fuses keep, when a write reaches a register, and which parts each command may change. -/

namespace Sys2Proof.Machine

/-- The parts of the state, one for each field of State. -/
inductive Part where
  | pending | regs | latches | helds | mem | tb | tbi | wg | nc | eng | mx | vx | ls | ks | bk | rt | sdir | lane | xfer | chan | comp | edges | oldEdges | arb
  | dom | sch | half | slotA | slotB | smapA | smapB | staging | gp | checks | clk | pw | bist | rsts | boot | sec | pcs | cn | bc | rdata | flash | fresh
  deriving DecidableEq, Repr

/-- A part is the same in two states. -/
def Part.same (s t : State) : Part → Prop
  | .pending => t.pending = s.pending
  | .regs => t.regs = s.regs
  | .latches => t.latches = s.latches
  | .helds => t.helds = s.helds
  | .mem => t.mem = s.mem
  | .tb => t.tb = s.tb
  | .tbi => t.tbi = s.tbi
  | .wg => t.wg = s.wg
  | .nc => t.nc = s.nc
  | .eng => t.eng = s.eng
  | .mx => t.mx = s.mx
  | .vx => t.vx = s.vx
  | .ls => t.ls = s.ls
  | .ks => t.ks = s.ks
  | .bk => t.bk = s.bk
  | .rt => t.rt = s.rt
  | .sdir => t.sdir = s.sdir
  | .lane => t.lane = s.lane
  | .xfer => t.xfer = s.xfer
  | .chan => t.chan = s.chan
  | .comp => t.comp = s.comp
  | .edges => t.edges = s.edges
  | .oldEdges => t.oldEdges = s.oldEdges
  | .arb => t.arb = s.arb
  | .dom => t.dom = s.dom
  | .sch => t.sch = s.sch
  | .half => t.half = s.half
  | .slotA => t.slotA = s.slotA
  | .slotB => t.slotB = s.slotB
  | .smapA => t.smapA = s.smapA
  | .smapB => t.smapB = s.smapB
  | .staging => t.staging = s.staging
  | .gp => t.gp = s.gp
  | .checks => t.checks = s.checks
  | .clk => t.clk = s.clk
  | .pw => t.pw = s.pw
  | .bist => t.bist = s.bist
  | .rsts => t.rsts = s.rsts
  | .boot => t.boot = s.boot
  | .sec => t.sec = s.sec
  | .pcs => t.pcs = s.pcs
  | .cn => t.cn = s.cn
  | .bc => t.bc = s.bc
  | .rdata => t.rdata = s.rdata
  | .flash => t.flash = s.flash
  | .fresh => t.fresh = s.fresh

/-- Every part of the state but the listed ones is the same in two states. -/
def Frame (ps : List Part) (s t : State) : Prop := ∀ p, p ∉ ps → p.same s t

/-- Every sparse map of the state is in its canonical form: keys strictly rising, and nothing listed that an unlisted key reads as. -/
structure State.Wf (s : State) : Prop where
  regs : mwf s.regs = true
  latches : mwf s.latches = true
  helds : mwf s.helds = true
  mem : Memory.wf s.mem = true
  tb : mwf s.tb = true
  tbi : mwf s.tbi = true
  wg : mwf s.wg = true
  nc : mwf s.nc = true
  eng : mwf s.eng = true
  mx : mwf s.mx = true
  vx : mwf s.vx = true
  ls : mwf s.ls = true
  bk : mwf s.bk = true
  rt : mwf s.rt = true
  sdir : mwf s.sdir = true
  lane : mwf s.lane = true
  xfer : mwf s.xfer = true
  chan : mwf s.chan = true
  comp : mwf s.comp = true
  oldEdges : mwf s.oldEdges = true
  arb : mwf s.arb = true
  dom : mwf s.dom = true
  sch : mwf s.sch = true
  half : mwf s.half = true
  slotA : mwf s.slotA = true
  slotB : mwf s.slotB = true
  smapA : mwf s.smapA = true
  smapB : mwf s.smapB = true
  staging : Memory.wf s.staging = true
  gp : mwf s.gp = true
  clk : mwf s.clk = true
  bist : mwf s.bist = true
  bc : mwf s.bc = true
  flash : mwf s.flash = true

/-- What fuses keep (R522, R525, R533, R537): a burned life-cycle bit stays burned, FLOOR does not fall, and a revoked owner slot stays
revoked. -/
structure Sec.Kept (x y : Sec) : Prop where
  lc : ∀ i, i < 32 → x.lc.testBit i = true → y.lc.testBit i = true
  floor : x.floor ≤ y.floor
  revoked : ∀ i, x.revoked.testBit i = true → y.revoked.testBit i = true

/-- A requester reaches an instance of a register for a write (R37, R414), and every word of it answers (R15). -/
def State.Reached (s : State) (req : Requester) (r : Reg) (idx : List Nat) : Prop :=
  s.regReachReg req (some r) (r.place idx) true = true ∧ ∀ w, w < r.desc.bytes / 4 → s.regUp (r.place idx + 4 * w) = true

/-- The word a requester holds for the lower half of a register is gone (R13). -/
def State.noHeld (s : State) (req : Requester) (r : Reg) (idx : List Nat) : State :=
  { s with helds := mdel s.helds (latchKey req (r.place idx)) }

/-- The parts of the state, in order. -/
def Part.all : List Part :=
  [.pending, .regs, .latches, .helds, .mem, .tb, .tbi, .wg, .nc, .eng, .mx, .vx, .ls, .ks, .bk, .rt, .sdir, .lane, .xfer, .chan, .comp, .edges, .oldEdges, .arb,
   .dom, .sch, .half, .slotA, .slotB, .smapA, .smapB, .staging, .gp, .checks, .clk, .pw, .bist, .rsts, .boot, .sec, .pcs, .cn, .bc, .rdata, .flash, .fresh]

/-- All parts but the listed ones. -/
def Part.but (ps : List Part) : List Part := Part.all.filter fun p => !ps.contains p

/-- The parts of the state a command may change, beside the queue. -/
def touches : Instr → List Part
  | .registerWrite .. => Part.but [.pending, .flash]
  | .reg64LowerRead .. => [.regs, .latches, .nc, .rdata]
  | .regReadClear .. => [.regs, .latches, .nc, .rdata]
  | .reg64UpperWrite .. => Part.but [.pending, .flash]
  | .tbiEdgeAccept .. => [.regs, .tb, .tbi]
  | .tbiZEdgeAccept .. => [.regs, .tb, .tbi]
  | .tbPeriodExpiry .. => [.regs]
  | .tbTargetWrite .. => [.regs, .helds, .gp]
  | .tbEnable .. => [.regs, .gp, .checks]
  | .tbDisable .. => [.regs, .gp, .checks]
  | .tbInCfgWrite .. => Part.but [.pending, .flash]
  | .wgEnable .. => [.regs, .wg, .mx, .gp, .checks]
  | .wgDisable .. => [.regs, .wg, .mx, .gp, .checks]
  | .wgStepOpen .. => [.regs, .wg, .mx, .gp]
  | .wgInseqWrite .. => [.regs, .helds, .gp]
  | .wgHalt .. => [.regs, .wg, .gp]
  | .wgResume .. => [.regs, .wg, .gp]
  | .wgResumeRealign .. => [.regs, .wg, .gp]
  | .harvestRound .. => [.regs, .wg, .mx, .gp]
  | .swapWriteOutDone .. => [.regs, .mem, .wg, .arb, .dom]
  | .cohortReadInDone .. => [.regs, .mem, .wg, .nc, .mx, .arb, .dom, .gp]
  | .ncEnable .. => [.regs, .nc]
  | .powerTableFillDone .. => [.regs, .mem]
  | .cnOpen .. => [.regs, .mem, .wg, .nc, .eng, .mx, .ls, .rt, .sdir, .xfer, .chan, .comp, .edges, .arb, .cn]
  | .fanoutWalk .. => [.regs, .wg, .nc]
  | .engineEmitDone .. => [.regs, .wg]
  | .coreFlitEnqueue .. => [.regs, .mem, .wg, .nc, .rt, .chan, .comp]
  | .laneDelivery .. => [.regs, .mem, .wg, .nc, .chan, .comp]
  | .modulatorFlit .. => [.regs, .mem, .wg, .rt, .chan, .comp]
  | .coreSleep .. => [.regs, .nc]
  | .coreWake .. => [.regs, .nc]
  | .emitRecord .. => [.regs, .eng, .mx]
  | .sinkAdd .. => [.regs, .mem, .wg, .eng, .rt, .chan, .comp, .arb]
  | .inbandQueueEnter .. => [.regs, .mem, .wg, .eng, .rt, .chan, .comp]
  | .lrSetEnable .. => [.regs, .wg, .ls, .checks]
  | .lrSetWgWrite .. => [.regs, .wg, .checks]
  | .lrSetCommit .. => [.regs, .checks]
  | .epochEndStart .. => [.regs, .ls]
  | .serviceStageSignal .. => [.regs, .mem, .wg, .vx, .ls]
  | .cnFlip .. => [.regs, .mem, .wg, .nc, .eng, .mx, .ls, .rt, .sdir, .xfer, .chan, .comp, .edges, .arb, .cn]
  | .flipComplete .. => [.regs, .wg, .ls, .ks, .gp]
  | .ksCmdNone .. => [.regs, .checks]
  | .ksCommit .. => [.regs, .checks]
  | .ksRestore .. => [.regs, .checks]
  | .restoreComplete .. => [.regs, .mem, .ks, .arb]
  | .commitPhaseDone .. => [.regs, .wg, .ks, .arb, .gp, .fresh]
  | .mxDqTailWrite .. => [.regs, .mx, .dom]
  | .mxFence .. => [.regs, .mem, .eng, .mx, .sdir, .xfer, .arb]
  | .mxMatmul .. => [.regs, .mem, .eng, .mx, .sdir, .xfer, .arb]
  | .mxConv .. => [.regs, .mem, .eng, .mx, .sdir, .xfer, .arb]
  | .mxEw .. => [.regs, .mem, .eng, .mx, .sdir, .xfer, .arb]
  | .mxReduce .. => [.regs, .mem, .eng, .mx, .sdir, .xfer, .arb]
  | .mxEncode .. => [.regs, .mem, .eng, .mx, .sdir, .xfer, .arb]
  | .mxGather .. => [.regs, .mem, .eng, .mx, .sdir, .xfer, .arb]
  | .mxDescriptorComplete .. => [.regs, .mem, .wg, .mx, .xfer]
  | .mxAbort .. => [.regs, .mem, .wg, .mx, .sdir, .xfer, .arb]
  | .vxEnable .. => [.regs, .vx]
  | .vxDisable .. => [.regs, .vx]
  | .sadd .. => [.regs, .wg, .vx, .gp]
  | .ssub .. => [.regs, .wg, .vx, .gp]
  | .smul .. => [.regs, .wg, .vx, .gp]
  | .slog .. => [.regs, .wg, .vx, .gp]
  | .sshf .. => [.regs, .wg, .vx, .gp]
  | .scmp .. => [.regs, .wg, .vx, .gp]
  | .saddi .. => [.regs, .wg, .vx, .gp]
  | .slui .. => [.regs, .wg, .vx, .gp]
  | .bc .. => [.regs, .wg, .vx, .gp]
  | .jmp .. => [.regs, .wg, .vx, .gp]
  | .jr .. => [.regs, .wg, .vx, .gp]
  | .loop .. => [.regs, .wg, .vx, .gp]
  | .sysHalt .. => [.regs, .wg, .vx, .ls, .gp]
  | .sysFence .. => [.regs, .wg, .vx, .gp]
  | .sysBreak .. => [.regs, .wg, .vx, .gp]
  | .sld .. => [.regs, .wg, .vx, .gp]
  | .sst .. => [.regs, .mem, .wg, .vx, .gp]
  | .vld .. => [.regs, .wg, .vx, .gp]
  | .vst .. => [.regs, .mem, .wg, .vx, .gp]
  | .xld .. => [.regs, .wg, .vx, .xfer, .gp]
  | .xst .. => [.regs, .wg, .vx, .xfer, .gp]
  | .xwait .. => [.regs, .wg, .vx, .gp]
  | .vxTransferComplete .. => [.regs, .mem, .wg, .mx, .vx, .sdir, .xfer, .chan, .comp, .edges, .arb, .gp]
  | .vadd .. => [.regs, .wg, .vx, .gp]
  | .vsub .. => [.regs, .wg, .vx, .gp]
  | .vmul .. => [.regs, .wg, .vx, .gp]
  | .vmac .. => [.regs, .wg, .vx, .gp]
  | .vmnx .. => [.regs, .wg, .vx, .gp]
  | .vlog .. => [.regs, .wg, .vx, .gp]
  | .vshf .. => [.regs, .wg, .vx, .gp]
  | .vcmp .. => [.regs, .wg, .vx, .gp, .fresh]
  | .vsel .. => [.regs, .wg, .vx, .gp]
  | .vcvt .. => [.regs, .wg, .vx, .gp]
  | .vred .. => [.regs, .wg, .vx, .gp, .fresh]
  | .vmov .. => [.regs, .wg, .vx, .gp]
  | .emit .. => [.regs, .wg, .eng, .vx, .gp]
  | .ibpop .. => [.regs, .wg, .eng, .vx, .gp, .fresh]
  | .swait .. => [.regs, .wg, .vx, .gp]
  | .sdone .. => [.regs, .wg, .eng, .vx, .gp]
  | .wupd .. => [.regs, .wg, .vx, .gp]
  | .vrand .. => [.regs, .wg, .vx, .gp]
  | .csrr .. => [.regs, .wg, .vx, .gp]
  | .csrw .. => [.regs, .wg, .vx, .gp]
  | .flitInject .. => [.regs, .mem, .wg, .nc, .eng, .rt, .sdir, .chan, .comp, .gp]
  | .flitRoute .. => [.regs, .mem, .wg, .rt, .sdir, .chan, .comp]
  | .spillRelease .. => [.regs, .mem, .wg, .rt, .chan, .comp]
  | .goldenScan .. => [.regs, .rt, .half]
  | .goldenPeriodEnd .. => [.regs, .half]
  | .efFenceWrite .. => [.regs, .mem, .nc, .eng, .mx, .ls, .rt, .sdir, .xfer, .chan, .comp, .edges, .arb, .gp]
  | .remapEnable .. => [.regs, .checks]
  | .remapDisable .. => [.regs, .checks]
  | .freset .. => [.regs, .rt, .sch]
  | .routerTableEccError .. => [.rt, .sch]
  | .fabricResetDrainEnd .. => [.rt]
  | .fabricResetSelfcheckDone .. => [.regs, .mem, .wg, .nc, .eng, .mx, .vx, .ls, .rt, .sdir, .xfer, .chan, .comp, .edges, .arb, .sch, .gp]
  | .holeClear .. => [.regs, .rt, .sch]
  | .frameBoundary .. => [.regs, .rt, .sdir, .sch, .half, .slotA, .slotB, .smapA, .smapB]
  | .scheduleEnable .. => [.regs, .sch, .gp, .checks]
  | .scheduleDisable .. => [.regs, .sch, .gp, .checks]
  | .scheduleDrainComplete .. => [.regs, .mem, .wg, .mx, .vx, .sdir, .xfer, .chan, .comp, .edges, .arb, .sch, .slotA, .slotB, .smapA,
      .smapB, .gp]
  | .quiesce .. => [.half]
  | .resume .. => [.half]
  | .trellisPieceIssue .. => [.regs, .mem, .wg, .mx, .vx, .sdir, .xfer, .chan, .comp, .edges, .arb, .gp]
  | .trellisRequest .. => [.regs, .nc, .sdir, .xfer, .arb, .dom]
  | .trellisDataBeat .. => [.regs, .mem, .wg, .mx, .vx, .sdir, .xfer, .chan, .comp, .edges, .arb, .staging, .gp]
  | .trellisLast .. => [.regs, .mem, .wg, .mx, .vx, .sdir, .xfer, .chan, .comp, .edges, .arb, .gp]
  | .trellisRefusal .. => [.regs, .mem, .wg, .mx, .vx, .sdir, .xfer, .chan, .comp, .edges, .arb, .gp]
  | .cnWrite .. => Part.but [.pending, .flash]
  | .cnRead .. => [.regs, .latches, .mem, .wg, .nc, .eng, .mx, .ls, .rt, .sdir, .xfer, .chan, .comp, .edges, .arb, .cn, .fresh]
  | .cnResp .. => [.regs, .mem, .wg, .nc, .eng, .mx, .ls, .rt, .sdir, .xfer, .chan, .comp, .edges, .arb, .cn]
  | .cnDone .. => [.regs, .mem, .wg, .nc, .eng, .mx, .ls, .rt, .sdir, .xfer, .chan, .comp, .edges, .arb, .cn]
  | .cnReduce .. => [.regs, .mem, .wg, .nc, .eng, .mx, .ls, .rt, .sdir, .xfer, .chan, .comp, .edges, .arb, .cn]
  | .cnResult .. => [.regs, .mem, .wg, .nc, .eng, .mx, .ls, .rt, .sdir, .xfer, .chan, .comp, .edges, .arb, .cn]
  | .cnBcast .. => [.regs, .mem, .wg, .nc, .eng, .mx, .ls, .rt, .sdir, .xfer, .chan, .comp, .edges, .arb, .cn, .bc]
  | .cnFence .. => [.regs, .mem, .wg, .nc, .eng, .mx, .ls, .rt, .sdir, .xfer, .chan, .comp, .edges, .arb, .cn]
  | .cnReset .. => Part.but [.pending, .flash, .fresh]
  | .cnStatus .. => [.regs, .mem, .wg, .nc, .eng, .mx, .ls, .rt, .sdir, .xfer, .chan, .comp, .edges, .arb, .cn]
  | .cnTload .. => [.regs, .mem, .wg, .nc, .eng, .mx, .ls, .rt, .sdir, .xfer, .chan, .comp, .edges, .arb, .sch, .slotB, .smapB, .cn]
  | .mqChannelEnable .. => [.regs, .mem, .sdir, .xfer, .chan, .comp, .edges, .checks]
  | .mqChannelDisable .. => [.regs, .mem, .sdir, .xfer, .chan, .comp, .edges, .checks]
  | .mqHandleEnable .. => [.regs, .checks]
  | .mqRequestReceive .. => [.regs, .mem, .sdir, .xfer, .chan]
  | .mqPlacementGrant .. => [.regs, .mem, .xfer, .chan, .edges, .staging]
  | .mqPublish .. => [.regs, .mem, .mx, .xfer, .chan, .comp, .edges, .arb, .dom, .staging]
  | .queueContributionAdd .. => [.regs, .mem, .xfer, .chan, .comp, .edges]
  | .mqRdWrite .. => [.regs, .mem, .chan]
  | .mqCdoneWrite .. => [.regs, .mem, .chan, .comp]
  | .mqReleasedWrite .. => [.regs, .mem, .chan]
  | .queueCompostDrain .. => [.regs, .mem, .wg, .mx, .chan, .comp, .arb, .dom, .gp]
  | .waitEdgeRegister .. => [.regs, .mem, .chan, .edges]
  | .waitCycleScan .. => [.regs, .mem, .wg, .xfer, .chan, .comp, .edges, .oldEdges, .gp]
  | .bkOwnWrite .. => [.regs, .bk]
  | .bkHandoverEnd .. => [.regs, .bk]
  | .bankRetentionEnter .. => [.regs, .bk, .gp]
  | .bankWake .. => [.regs, .bk, .gp]
  | .bankWakeDone .. => [.regs, .bk]
  | .arbiterGrant .. => [.regs, .mem, .wg, .eng, .xfer, .chan, .comp, .arb]
  | .backoffExpiry .. => [.regs, .sdir, .xfer]
  | .grantRevoke .. => [.regs, .sdir, .xfer, .arb]
  | .dmTrackingPause .. => [.regs, .wg, .arb, .gp]
  | .dmRefresh .. => [.regs]
  | .hostLineWrite .. => [.regs, .mem, .wg, .sdir, .xfer, .chan, .comp, .edges, .staging, .gp]
  | .hcCrdWrite .. => [.regs, .gp]
  | .hcEvinWrWrite .. => [.regs, .gp]
  | .hcRdWrite .. => [.regs, .chan]
  | .hcEvdoneWrite .. => [.regs, .gp]
  | .hostTrainingStep .. => [.regs, .mem, .wg, .sdir, .xfer, .chan, .comp, .edges, .gp]
  | .hostModeRegisterWrite .. => [.regs, .mem, .wg, .sdir, .xfer, .chan, .comp, .edges, .gp]
  | .hostSelfRefresh .. => [.regs, .gp]
  | .hostClockTimeout .. => [.regs, .mem, .wg, .sdir, .xfer, .chan, .comp, .edges, .gp]
  | .gpRetry .. => [.regs, .gp]
  | .trayenWrite .. => [.regs, .staging, .gp]
  | .trayScan .. => [.regs, .gp]
  | .nop .. => [.gp]
  | .regrd .. => [.regs, .latches, .nc, .gp]
  | .regwr .. => Part.but [.pending, .flash]
  | .copyIn .. => [.xfer, .gp]
  | .copyOut .. => [.xfer, .gp]
  | .send .. => [.xfer, .gp]
  | .fenceEng .. => [.regs, .mem, .nc, .eng, .mx, .ls, .rt, .sdir, .xfer, .chan, .comp, .edges, .arb, .gp]
  | .commandComplete .. => [.regs, .xfer, .staging, .gp]
  | .eventInInject .. => [.regs, .gp]
  | .hostCompostDrain .. => [.regs, .mem, .wg, .xfer, .chan, .comp, .edges, .arb, .dom, .staging, .gp]
  | .mirrorUpdate .. => [.staging, .gp]
  | .partitionEnable .. => [.regs, .mem, .wg, .nc, .eng, .mx, .vx, .ls, .ks, .bk, .rt, .sdir, .xfer, .chan, .comp, .edges, .arb, .sch,
      .staging, .gp, .checks]
  | .partitionRelease .. => [.regs, .mem, .wg, .nc, .eng, .mx, .vx, .ls, .ks, .bk, .rt, .sdir, .xfer, .chan, .comp, .edges, .arb, .sch,
      .staging, .gp, .checks]
  | .partitionReleaseComplete .. => [.regs]
  | .gpMapEnable .. => [.regs, .mem, .wg, .sdir, .xfer, .chan, .comp, .edges, .gp, .checks]
  | .gpMapDisable .. => [.regs, .mem, .wg, .sdir, .xfer, .chan, .comp, .edges, .gp, .checks]
  | .gpEvsrcEnable .. => [.regs, .checks]
  | .bindEntryEnable .. => [.regs, .checks]
  | .hostChannelEnable .. => [.regs, .mem, .sdir, .xfer, .chan, .comp, .edges, .checks]
  | .seamDataCell .. => Part.but [.pending, .flash]
  | .seamCreditCell .. => [.sdir]
  | .seamReplayRequest .. => [.regs, .wg, .lane]
  | .seamIdleCell .. => [.wg, .lane]
  | .seamEventDeliver .. => [.rt, .sdir]
  | .seamHoldRelease .. => [.sdir]
  | .seamRxTimeout .. => [.regs, .mem, .wg, .mx, .vx, .ks, .sdir, .lane, .xfer, .chan, .comp, .edges, .arb, .sch, .half, .gp]
  | .pwReqWrite .. => [.regs, .mem, .wg, .sdir, .xfer, .chan, .comp, .edges, .arb, .dom, .gp]
  | .domainTransition .. => [.regs, .mem, .wg, .sdir, .xfer, .chan, .comp, .edges, .arb, .dom]
  | .domainWake .. => [.regs, .dom]
  | .ckCoreWrite .. => [.regs, .gp, .clk]
  | .coreClockRelockDone .. => [.regs, .clk]
  | .ckFabWrite .. => [.regs, .half, .gp]
  | .fabricClockRelockDone .. => [.regs, .half, .smapA, .gp]
  | .vidRailCheck .. => [.regs, .half, .gp, .clk]
  | .droopTrigger .. => [.regs, .clk]
  | .droopStretchEnd .. => [.regs, .clk]
  | .sensorSample .. => Part.but [.pending, .bist, .sec, .pcs, .cn, .bc, .rdata, .flash, .fresh]
  | .thermalCapStep .. => [.regs, .gp, .clk]
  | .thermalFabricStep .. => [.regs, .half, .gp]
  | .powerEstimate .. => [.regs, .gp, .pw]
  | .powerCapStep .. => [.regs, .gp, .clk]
  | .i3cOffsetWrite .. => [.pw]
  | .i3cRead .. => [.pw]
  | .porstRelease .. => Part.but [.pending, .flash, .fresh]
  | .bootPhaseDone .. => Part.but [.pending, .flash]
  | .knownAnswerResult .. => [.regs, .mem, .nc, .eng, .mx, .ls, .rt, .sdir, .xfer, .chan, .comp, .edges, .arb, .gp, .boot]
  | .resetCore .. => Part.but [.pending, .flash, .fresh]
  | .resetCluster .. => Part.but [.pending, .flash, .fresh]
  | .resetPartition .. => Part.but [.pending, .flash, .fresh]
  | .resetDevice .. => Part.but [.pending, .flash, .fresh]
  | .runtimeBistRequest .. => [.regs, .dom, .gp, .clk, .bist]
  | .bistStepDone .. => [.regs, .mem, .wg, .nc, .eng, .mx, .vx, .ls, .ks, .bk, .rt, .sdir, .xfer, .chan, .comp, .edges, .arb, .dom, .gp,
      .clk, .bist, .pcs, .fresh]
  | .rcvInfo .. => [.gp]
  | .rcvStage .. => [.mem, .gp]
  | .rcvBoot .. => Part.but [.pending, .flash, .fresh]
  | .flashRead .. => [.staging, .gp]
  | .flashErase .. => [.gp, .flash]
  | .flashProgram .. => [.gp, .flash, .fresh]
  | .scInfo .. => [.regs, .gp]
  | .getPubkey .. => [.regs, .staging, .gp]
  | .getCert .. => [.regs, .staging, .gp]
  | .attest .. => [.regs, .staging, .gp, .fresh]
  | .lcChallenge .. => [.regs, .staging, .gp, .sec, .fresh]
  | .lcToken .. => Part.but [.pending, .flash, .fresh]
  | .setFloor .. => [.regs, .gp, .sec]
  | .keygen .. => [.regs, .staging, .gp, .sec, .fresh]
  | .pcWinWrite .. => [.regs, .gp]
  | .rakeGo .. => [.regs, .gp, .pcs]
  | .rakePassDone .. => [.regs, .mem, .gp, .pcs]
  | .traceEnable .. => [.regs, .checks]
  | .traceRingEnable .. => [.regs, .checks]
  | .i3cDynamicAddress .. => [.pw]
  | .domainTransitionComplete .. => [.regs, .mem, .wg, .nc, .eng, .mx, .vx, .bk, .rt, .sdir, .xfer, .chan, .comp, .edges, .arb, .dom,
      .staging, .gp]
  | .arbiterReservationExpiry .. => [.arb]
  | .commitCaptureStart => [.regs, .mem, .ks, .arb, .dom]
  | .consistencyCheckComplete => [.regs, .mem, .tb, .wg, .nc, .ls, .ks, .chan, .dom, .sch, .gp, .checks, .cn]
  | .seamThrottle => [.regs, .sdir, .sch, .smapA, .gp]
  | .peakStretchEnd => [.pw]
  | .porstAssert => Part.but [.pending, .flash, .fresh]
  | .sysrstAssert => Part.but [.pending, .flash, .fresh]
  | .stewardWatchdog => Part.but [.pending, .flash, .fresh]
  | .aonSupplyFault => Part.but [.pending, .flash, .fresh]
  | .keepSupplyDrop => [.ks]
  | .keepSupplyReturn => [.ks]
  | .resetComplete => [.regs, .mem, .wg, .nc, .eng, .mx, .vx, .ls, .ks, .bk, .rt, .sdir, .xfer, .chan, .comp, .edges, .arb, .dom, .sch,
      .staging, .gp, .clk, .bist, .rsts, .sec]
  | .randomHealthFail => [.regs, .gp, .sec]
  | .windowEnd => [.regs, .staging, .pcs]
  | .counterMirrorWriteDone => [.regs, .staging, .pcs]
  | .sysrstRelease => [.regs, .boot]

/-- Context x of a vector core issues next, and its program counter names a readable word w of opcode op (R223, R225, R226). -/
def State.Issues (s : State) (bad : List Nat) (c v x op w : Nat) : Prop :=
  s.vxActive c v = some x ∧ (s.vctx c v x).pc % 4 = 0 ∧ (s.vctx c v x).pc < 0x20000 ∧
  badIn bad (vcAddr c v (s.vctx c v x).pc) 4 = false ∧ s.peekLE (vcAddr c v (s.vctx c v x).pc) 4 = w ∧ iOp w = op

/-- The time since the last instruction of a core is counted while context 1 runs (R238). -/
def State.vxTimed (s : State) (took c v x : Nat) : State := if x = 1 then s.bump .VX_SVCCYC [c, v] took else s

/-- Sequential flow of a context to an address, through the ends of its loops (R227); the instruction is counted. -/
def State.flowTo (s : State) (c v x pc : Nat) : State :=
  ((s.modCtx c v x fun u => { u with loops := (loopBack 3 u.loops pc).1, pc := (loopBack 3 u.loops pc).2 }).vxShow c v x vxRunning).bump
    .VX_INSTR [c, v]

/-- A jump of a context to an address, which ends the loops it leaves (R227); the instruction is counted. -/
def State.jumpTo (s : State) (c v x t : Nat) : State :=
  ((s.modCtx c v x fun u => { u with loops := loopLeave u.loops t, pc := t % 2 ^ 32 }).vxShow c v x vxRunning).bump .VX_INSTR [c, v]

/-- A transfer that a context of a vector core owns (R231, R296): its owner, partition and requester endpoint. -/
def State.ofContext (s : State) (c v x : Nat) (y : Xfer) : Xfer :=
  { y with own := .vx c v x, part := (s.partOfCluster c).getD 8, ep := endpointOf c (3 + v) }

end Sys2Proof.Machine
end

