-- ==== Sys2Proof/Certificates/Slice0/Obligations.lean ====
section
/-! DEFINITION. The statements for the provers. A statement about a command is about every state and every operand its hypotheses admit; where
it says what a command does it gives the whole next state, so that everything it does not name is unchanged. -/

open Sys2Proof Sys2Proof.Machine

/-- What register reads and writes do, and the latch and the held word of each requester: For a requester within reach of a register of a
block that answers: a 32-bit read of a 32-bit register answers its word and clears its RC fields; a read of the lower word of a 64-bit
register answers it and latches the upper word for that requester; a read of the upper word answers the latched word and drops the latch, or
the present upper word where none is latched; a 32-bit write of a 32-bit register is the register's write, which for a register with a plain
write stores its fields; a write of the lower word is held; a write of the upper word takes the held word away and writes the register with
both words, or with the present lower word where none is held; a 64-bit access of a 64-bit register does both; a narrower one, or one at no
multiple of four, answers zero or is ignored, and is counted as stray where no register and no producer line lies at its word. An access to
a register of a neuron core's NC_ block is noted for the core first. The reads are those of REG64_LOWER_READ and REG_READ_CLEAR, the writes
those of REGISTER_WRITE and REG64_UPPER_WRITE, by width and address alone. -/
def Obligations.RegisterAccessesReadLatchHoldAndCommit : Prop :=
  ∀ (s : State) (req : Requester) (a : BitVec 48),
    let rds (w : Width) (c : Instr) : Prop := c = .reg64LowerRead req w a ∨ c = .regReadClear req w a
    let wrs (w : Width) (v : DWord) (c : Instr) : Prop := c = .registerWrite req w a v ∨ c = .reg64UpperWrite req w a v
    let dropped : State := if (findReg (a.toNat - a.toNat % 4)).isNone && !producerLine a.toNat then s.stray req else s
    (∀ w, (w = .w8 ∨ w = .w16 ∨ w = .w32 ∧ a.toNat % 4 ≠ 0) → s.regReach req a.toNat false = true →
      ∀ c, rds w c → exec c s = .next { dropped with rdata := 0 }) ∧
    (∀ w v, (w = .w8 ∨ w = .w16 ∨ w = .w32 ∧ a.toNat % 4 ≠ 0) → s.regReach req a.toNat true = true →
      ∀ c, wrs w v c → exec c s = .next dropped) ∧
    (∀ (r : Reg) (idx h : List Nat) (off : Nat), a.toNat % 4 = 0 → producerLine a.toNat = false →
      findReg a.toNat = some (r, idx, off) → s.regUp a.toNat = true → r.desc.bytes ≤ 8 →
      let t := s.regTouch r a.toNat
      let t' := t.regTouch r (a.toNat + 4)
      t.homeIdx r idx = some h → t'.homeIdx r idx = some h →
      (s.regReachReg req (some r) a.toNat false = true →
        let v := (readMask r (t.regView r h)).toNat
        (∀ c, rds .w32 c →
          (r.desc.bytes = 4 → exec c s = .next { t.readClear r h with rdata := BitVec.ofNat 64 (v % 2 ^ 32) }) ∧
          (r.desc.bytes = 8 → off = 0 → exec c s = .next { t with
            latches := mput t.latches (latchKey req a.toNat) (some (BitVec.ofNat 32 (v / 2 ^ 32))), rdata := BitVec.ofNat 64 (v % 2 ^ 32) }) ∧
          (∀ w, r.desc.bytes = 8 → off = 4 → mget t.latches (latchKey req (a.toNat - 4)) = some w → exec c s = .next { t with
            latches := mput t.latches (latchKey req (a.toNat - 4)) none, rdata := w.setWidth 64 }) ∧
          (r.desc.bytes = 8 → off = 4 → mget t.latches (latchKey req (a.toNat - 4)) = none →
            exec c s = .next { t with rdata := BitVec.ofNat 64 (v / 2 ^ 32) })) ∧
        (∀ c, rds .w64 c → r.desc.bytes = 8 → off = 0 → a.toNat % 8 = 0 → findReg (a.toNat + 4) = some (r, idx, 4) →
          producerLine (a.toNat + 4) = false → s.regUp (a.toNat + 4) = true → exec c s = .next { t' with
            latches := mdel t.latches (latchKey req a.toNat), rdata := BitVec.ofNat 64 v })) ∧
      (∀ v : DWord, s.regReachReg req (some r) a.toNat true = true →
        (∀ c, wrs .w32 v c →
          (r.desc.bytes = 4 → exec c s = .next (t.regWrite req r h (v.toNat % 2 ^ 32) none).2 ∧
            (t.regWrite req r h (v.toNat % 2 ^ 32) none = (0, t.store r h (v.toNat % 2 ^ 32)) →
              exec c s = .next (t.store r h (v.toNat % 2 ^ 32)))) ∧
          (r.desc.bytes = 8 → off = 0 →
            exec c s = .next { t with helds := mput t.helds (latchKey req a.toNat) (some (BitVec.ofNat 32 v.toNat)) }) ∧
          (r.desc.bytes = 8 → off = 4 →
            let low := match mget t.helds (latchKey req (a.toNat - 4)) with | some w => w.toNat | none => t.val r h % 2 ^ 32
            let u := { t with helds := mput t.helds (latchKey req (a.toNat - 4)) none }
            let x := low + 2 ^ 32 * (v.toNat % 2 ^ 32)
            exec c s = .next (u.regWrite req r h x none).2 ∧
            (u.regWrite req r h x none = (0, u.store r h x) → exec c s = .next (u.store r h x)))) ∧
        (∀ c, wrs .w64 v c → r.desc.bytes = 8 → off = 0 → a.toNat % 8 = 0 → findReg (a.toNat + 4) = some (r, idx, 4) →
          s.regUp (a.toNat + 4) = true →
          exec c s = .next (State.regWrite { t' with helds := mdel t.helds (latchKey req a.toNat) } req r h v.toNat none).2)))

/-- What a plain write leaves in each field of a register, and what a read shows of it: For every register and every field of it, after a
plain write of v: an RW field holds v's bits, a W1S field its old bits with v's added, a W1C field its old bits without v's, and an RO, WO
or RC field what it held; a read shows zero for a WO field and the held value for any other; a plain write changes no other register
instance; and the clearing of a read leaves zero in an RC field and every other field as it was. -/
def Obligations.AccessCodesDecideWhatAPlainWriteStores : Prop :=
  ∀ (s : State) (r : Reg) (idx : List Nat) (v : Nat) (f : Fld) (acc : Acc) (k : Nat), (f, acc, k) ∈ r.desc.fields →
    (s.store r idx v).fld r idx f = (match acc with
      | .rw => f.get (BitVec.ofNat 64 v)
      | .w1s => s.fld r idx f ||| f.get (BitVec.ofNat 64 v)
      | .w1c => s.fld r idx f ^^^ (s.fld r idx f &&& f.get (BitVec.ofNat 64 v))
      | _ => s.fld r idx f) ∧
    (∀ w, f.get (readMask r w) = if acc = .wo then 0 else f.get w) ∧
    (∀ r' idx', r'.addr idx' ≠ r.addr idx → (s.store r idx v).rd r' idx' = s.rd r' idx') ∧
    (s.readClear r idx).fld r idx f = if acc = .rc then 0 else s.fld r idx f

/-- A register of a block whose domain is not ON reads zero and takes no write: A read by any requester within reach, of a register of a
block whose power domain is not ON, answers zero and leaves the machine as it was; a write leaves the machine as it was. -/
def Obligations.BlocksThatAreOffReadZeroAndTakeNoWrite : Prop :=
  ∀ (s : State) (req : Requester) (w : Width) (a : BitVec 48) (r : Reg) (idx : List Nat) (off n : Nat), findReg a.toNat = some (r, idx, off) →
    (findReg (a.toNat - a.toNat % 4)).isSome = true → regDomain a.toNat = some n → s.domOn n = false →
    (s.regReachReg req (some r) a.toNat false = true → w ≠ .w64 →
      exec (.reg64LowerRead req w a) s = .next { s with rdata := 0 } ∧ exec (.regReadClear req w a) s = .next { s with rdata := 0 }) ∧
    (∀ v, s.regReachReg req (some r) a.toNat true = true → w ≠ .w64 →
      exec (.registerWrite req w a v) s = .next s ∧ exec (.reg64UpperWrite req w a v) s = .next s) ∧
    (w = .w64 → r.desc.bytes = 8 → off = 0 → a.toNat % 8 = 0 → findReg (a.toNat + 4) = some (r, idx, 4) → regDomain (a.toNat + 4) = some n →
      (s.regReachReg req (some r) a.toNat false = true →
        exec (.reg64LowerRead req w a) s = .next { s with rdata := 0 } ∧ exec (.regReadClear req w a) s = .next { s with rdata := 0 }) ∧
      (∀ v, s.regReachReg req (some r) a.toNat true = true →
        exec (.registerWrite req w a v) s = .next s ∧ exec (.reg64UpperWrite req w a v) s = .next s))

/-- What the timebase and input-channel commands do: Where the rule's conditions hold, each command answers a next state and the whole of it
is given: an accepted change of A or B sets the filtered levels and applies its count to the channel and to every enabled timebase of it,
or, in quadrature, counts an illegal transition and sets INERR; an accepted rising Z edge copies P into TB_ZLATCH, and under ZMODE 2 takes
the residual counts off P and N, in every enabled timebase of the channel; a periodic timebase's target rises by one; a write of TB_TARGET
above the target is taken and any other is counted in TB_TGTDROP; EN = 1 stores the fields, leaves EN at 0 and asks for the check; EN = 0
clears EN and RUN and leaves the target; and a write of TB_IN_CFG stores it and sets the filtered levels to the present pin levels, and
restarts the count when MODE leaves 0. -/
def Obligations.TimebaseCommandsHaveTheirEffects : Prop :=
  (∀ (s : State) (m : Fin 8) (a b : Bool),
    let pins := (mget s.tbi m.val).pins / 4 * 4 + (if b then 2 else 0) + (if a then 1 else 0)
    let old := s.tbiLevels m.val
    let new := s.tbiSeen m.val pins
    let u := State.setLevels { s with tbi := mmod s.tbi m.val fun t => { t with pins := pins } } m.val (old / 4 * 4 + new % 4)
    let r := edgeCount (s.fld .TB_IN_CFG [m.val] TB_IN_CFG_MODE) (s.bit .TB_IN_CFG [m.val] TB_IN_CFG_DIRSWAP)
      (old.testBit 0) (old.testBit 1) (new.testBit 0) (new.testBit 1)
    (r = (0, false) → exec (.tbiEdgeAccept m a b) s = .next u) ∧
    (r.1 ≠ 0 → r.2 = false → exec (.tbiEdgeAccept m a b) s =
      .next ((u.wr .TB_IN_COUNT [m.val] (u.rd .TB_IN_COUNT [m.val] + BitVec.ofInt 64 r.1)).each (u.tbsOf m.val)
        fun s n => s.tbCount n r.1)) ∧
    (r.2 = true → exec (.tbiEdgeAccept m a b) s =
      .next ((u.bumpFld .TB_IN_STATUS [m.val] TB_IN_STATUS_ERRCNT).each (u.tbsOf m.val)
        fun s n => s.setFld .TB_STATUS [n] TB_STATUS_INERR 1))) ∧
  (∀ (s : State) (m : Fin 8) (z : Bool),
    let pins := (mget s.tbi m.val).pins % 4 + (if z then 4 else 0)
    let old := s.tbiLevels m.val
    let new := s.tbiSeen m.val pins
    let u := State.setLevels { s with tbi := mmod s.tbi m.val fun t => { t with pins := pins } } m.val
      (old % 4 + new / 4 % 2 * 4)
    ((old.testBit 2 = true ∨ new.testBit 2 = false) → exec (.tbiZEdgeAccept m z) s = .next u) ∧
    (old.testBit 2 = false → new.testBit 2 = true → exec (.tbiZEdgeAccept m z) s =
      .next (u.each (u.tbsOf m.val) fun s n =>
        let p := s.val .TB_POS [n]
        if s.fld .TB_CFG [n] TB_CFG_ZMODE = 1 then s.setVal .TB_ZLATCH [n] p
        else if s.fld .TB_CFG [n] TB_CFG_ZMODE = 2 then
          let t := s.setVal .TB_ZLATCH [n] p
          let r := p - t.val .TB_TARGET [n] * (t.fld .TB_DIV [n] TB_DIV_DIV_M1 + 1)
          (t.setVal .TB_POS [n] (p - r)).modTb n fun t => { t with net := t.net - r }
        else s))) ∧
  (∀ (s : State) (n : Fin 64), s.bit .TB_CFG [n.val] TB_CFG_EN = true → s.fld .TB_CFG [n.val] TB_CFG_SRC = 1 →
    s.val .TB_PERIOD [n.val] ≠ 0 →
    exec (.tbPeriodExpiry n) s = .next (s.setVal .TB_TARGET [n.val] (s.val .TB_TARGET [n.val] + 1))) ∧
  (∀ (s : State) (req : Requester) (n : Fin 64) (v : DWord), s.Reached req .TB_TARGET [n.val] →
    s.deviceUnitCode req (s.bit .TB_CFG [n.val] TB_CFG_EN) (s.fld .TB_CFG [n.val] TB_CFG_PART) none = 0 →
    s.bit .TB_CFG [n.val] TB_CFG_EN = true → s.fld .TB_CFG [n.val] TB_CFG_SRC = 2 →
    exec (.tbTargetWrite req n v) s = .next (if v.toNat > s.val .TB_TARGET [n.val]
      then (s.noHeld req .TB_TARGET [n.val]).setVal .TB_TARGET [n.val] v.toNat
      else (s.noHeld req .TB_TARGET [n.val]).bump .TB_TGTDROP [n.val])) ∧
  (∀ (s : State) (req : Requester) (n : Fin 64) (v : Word), s.Reached req .TB_CFG [n.val] →
    s.deviceUnitCode req false (s.fld .TB_CFG [n.val] TB_CFG_PART) (some (bitsOf (withEn v true) 8 3)) = 0 →
    s.checking (.tb n.val) = false → s.bit .TB_CFG [n.val] TB_CFG_EN = false →
    exec (.tbEnable req n v) s = .next (((s.store .TB_CFG [n.val] (withEn v true)).setFld .TB_CFG [n.val] TB_CFG_EN 0).askCheck
      (.tb n.val) (withEn v true) none)) ∧
  (∀ (s : State) (req : Requester) (n : Fin 64) (v : Word), s.Reached req .TB_CFG [n.val] →
    s.deviceUnitCode req true (s.fld .TB_CFG [n.val] TB_CFG_PART) (some (bitsOf (withEn v false) 8 3)) = 0 →
    s.checking (.tb n.val) = false → s.bit .TB_CFG [n.val] TB_CFG_EN = true →
    exec (.tbDisable req n v) s =
      .next ((s.setFld .TB_CFG [n.val] TB_CFG_EN 0).setFld .TB_STATUS [n.val] TB_STATUS_RUN 0)) ∧
  (∀ (s : State) (req : Requester) (m pins : Fin 8) (v : Word), s.Reached req .TB_IN_CFG [m.val] → s.tbsOf m.val = [] →
    let u := (s.tbiPins m.val pins.val).setVal .TB_IN_CFG [m.val] (v.toNat % 2 ^ 9)
    let w := u.setLevels m.val (u.tbiSeen m.val pins.val)
    exec (.tbInCfgWrite req m v pins) s = .next (if s.fld .TB_IN_CFG [m.val] TB_IN_CFG_MODE = 0 ∧ w.fld .TB_IN_CFG [m.val] TB_IN_CFG_MODE ≠ 0
      then w.setVal .TB_IN_COUNT [m.val] 0 else w))

/-- What the world-group commands do: Where the rule's conditions hold, each command answers a next state and the whole of it is given: EN =
1 stores the fields, leaves EN at 0 and asks for the check; EN = 0 disables a group that waits, is halted or stands at the barrier at once,
and marks one with an open step or a swap as finishing; a step that may open opens with the gap k, WG_STEP and the cohort's world step
rising by k and WG_SKIPPED by k - 1, and a descriptor that waits for a step of a group its core is not bound to takes it; WG_INSEQ is
stored; HALT notes reason 0x0180 for the next harvest; and RESUME, with REALIGN or without, clears the reason and leaves HALTED, repeating a
failed read-in or starting a swap that is due. A group whose open step is followed by an epoch barrier, or that was resumed above its lag
limit, is not covered here. -/
def Obligations.WorldGroupCommandsHaveTheirEffects : Prop :=
  (∀ (s : State) (req : Requester) (g : Fin 256) (v : Word), s.Reached req .WG_CFG [g.val] →
    s.deviceUnitCode req false (s.wgPart g) (some (bitsOf (withEn v true) 7 3)) = 0 →
    s.checking (.wg g.val) = false → s.bit .WG_CFG [g.val] WG_CFG_EN = false → s.wgState g.val = wsDisabled →
    exec (.wgEnable req g v) s = .next (((s.store .WG_CFG [g.val] (withEn v true)).setFld .WG_CFG [g.val] WG_CFG_EN 0).askCheck
      (.wg g.val) (withEn v true) none)) ∧
  (∀ (s : State) (req : Requester) (g : Fin 256) (v : Word), s.Reached req .WG_CFG [g.val] →
    s.deviceUnitCode req true (s.wgPart g) (some (bitsOf (withEn v false) 7 3)) = 0 →
    s.checking (.wg g.val) = false → s.bit .WG_CFG [g.val] WG_CFG_EN = true → s.wgState g.val ≠ wsDisabled →
    exec (.wgDisable req g v) s = .next (
      let u := s.setFld .WG_CFG [g.val] WG_CFG_EN 0
      if s.wgState g.val = wsStepping ∨ s.wgState g.val = wsHarvesting ∨ s.wgState g.val = wsSwapping
      then u.modWg g.val fun w => { w with disabling := true }
      else
        let u := ((u.setWgState g.val wsDisabled).setFld .WG_STATUS [g.val] WG_STATUS_REASON 0).setFld .WG_CFG [g.val] WG_CFG_EN 0
        (u.mxGroupOff g.val).modWg g.val fun _ => {})) ∧
  (∀ (s : State) (g : Fin 256) (k : Nat), s.mayOpen g.val = true → s.openGap g.val = k → k ≠ 0 →
    s.fenced g.val ((s.getWg g.val).last + k) = false → ((s.getWg g.val).resumed = false ∨ s.overrun g.val = false) →
    k ≤ (s.getWg g.val).skipCounted + 1 →
    exec (.wgStepOpen g) s = .next (
      let ws := mget (s.getWg g.val).wsteps (s.wgCohort g.val) + k
      let u := (s.mxStepTake g.val ((s.getWg g.val).last + k)).setVal .WG_STEP [g.val] ((s.getWg g.val).last + k)
      let u := u.setVal .WG_WSTEP [g.val] ws
      let u := if k > 1 then u.bump .WG_SKIPPED [g.val] (k - 1) else u
      let u := u.modWg g.val fun w =>
        { w with wsteps := mput w.wsteps (s.wgCohort g.val) ws, gap := k, opened := [], done := [], rounds := 0, tallyW := {},
                 tallyE := {}, closedW := false, closedE := false, resumed := false, realign := false, skipL := 0, skipCounted := 0 }
      u.setFld .WG_STATUS [g.val] WG_STATUS_STATE (if u.enginesOf g.val = [] then wsHarvesting else wsStepping))) ∧
  (∀ (s : State) (req : Requester) (g : Fin 256) (v : DWord), s.Reached req .WG_INSEQ [g.val] →
    s.deviceUnitCode req (s.wgOn g.val) (s.wgPart g.val) none = 0 →
    exec (.wgInseqWrite req g v) s = .next ((s.noHeld req .WG_INSEQ [g.val]).store .WG_INSEQ [g.val] v.toNat)) ∧
  (∀ (s : State) (req : Requester) (g : Fin 256), s.Reached req .WG_CTRL [g.val] →
    s.deviceUnitCode req true (s.wgPart g.val) none = 0 → s.wgOn g.val = true →
    exec (.wgHalt req g) s = .next (s.modWg g.val fun w => if w.haltCode = 0 then { w with haltCode := 0x0180 } else w)) ∧
  (∀ (s : State) (req : Requester) (g : Fin 256) (realign : Bool), s.Reached req .WG_CTRL [g.val] →
    s.deviceUnitCode req true (s.wgPart g.val) none = 0 → s.wgState g.val = wsHalted →
    exec (if realign then .wgResumeRealign req g else .wgResume req g) s = .next (
      let u := s.setFld .WG_STATUS [g.val] WG_STATUS_REASON 0
      let u := u.modWg g.val fun w =>
        { w with resumed := !realign, realign := realign,
                 skipL := if realign = true ∧ u.tbFree (u.wgTb g.val) = false ∧ 1 < (s.lag g.val).toNat then (s.lag g.val).toNat else 0 }
      if (u.getWg g.val).swap = 3 then (u.modWg g.val fun w => { w with swap := 2 }).setWgState g.val wsSwapping
      else if (u.getWg g.val).swapDue = true then
        (u.modWg g.val fun w => { w with swap := 1, swapDue := false, runs := 0 }).setWgState g.val wsSwapping
      else u.setWgState g.val (if (u.getWg g.val).epWait = true then wsEpoch else wsWaiting)))

/-- What harvest rounds and the two ends of a swap do: A harvest round of a group whose engines have all reported, in a device that is not
split, counts the round, shows the sum of both halves' tallies in WG_TALLY and leaves the step in HARVESTING when the sum is not zero; on a
sum of zero the step closes: for a group without rotation, within its lag limit, not halting, not finishing and no writer of a learning set,
WG_HROUNDS takes the rounds, the step is the last harvested one and the group waits. While the cores are awake, the partition's service
circuits reach the cohort's home and its channels serve, the end of a write-out stores the cohort's state at its home, names the next cohort
in WG_COHORT and starts its read-in; the end of a read-in without an error brings its state in and the group waits; with an uncorrectable
word in the cohort's home it halts with 0x0183 and keeps the read-in to be repeated. -/
def Obligations.HarvestAndSwapCommandsHaveTheirEffects : Prop :=
  (∀ (s : State) (g : Fin 256) (h : Fin 2), s.wgOpen g.val = true → s.isSplit = false → s.allDone g.val (s.enginesOf g.val) = true →
    let sum := (s.getWg g.val).tallyW.sum + (s.getWg g.val).tallyE.sum
    let u := ((s.setWgState g.val wsHarvesting).modWg g.val fun w => { w with rounds := w.rounds + 1 }).setVal .WG_TALLY [g.val] sum.toNat
    let u1 := u.setFld .WG_HROUNDS [g.val] WG_HROUNDS_LAST (min (u.getWg g.val).rounds 0xFFFF)
    let u2 := u1.setFld .WG_HROUNDS [g.val] WG_HROUNDS_MOST (max (u1.fld .WG_HROUNDS [g.val] WG_HROUNDS_MOST) (min (u.getWg g.val).rounds 0xFFFF))
    let u3 := u2.modWg g.val fun w => { w with last := u2.val .WG_STEP [g.val], runs := w.runs + 1, opened := [], done := [] }
    (sum ≠ 0 → exec (.harvestRound g h) s = .next u) ∧
    (sum = 0 → (u.getWg g.val).disabling = false → (u3.getWg g.val).haltCode = 0 → u3.overrun g.val = false → u3.writerSet g.val = none →
      u3.bit .WG_CFG [g.val] WG_CFG_ROT = false → (u3.getWg g.val).epWait = false →
      exec (.harvestRound g h) s = .next (if u3.bit .WG_CFG [g.val] WG_CFG_INFENCE = true then u3.setWgState g.val wsWaiting
        else (u3.modWg g.val fun w => { w with skipCounted := (u3.getWg g.val).skipL - 1 }).setWgState g.val wsWaiting))) ∧
  (∀ (s : State) (g : Fin 256), (s.getWg g.val).swap = 1 → s.swapRuns g.val (s.wgCohort g.val) = true → s.homeReady g.val (s.wgCohort g.val) = true →
    exec (.swapWriteOutDone g) s = .next (
      let u := (s.swapOut g.val (s.wgCohort g.val)).homeBeats g.val (s.wgCohort g.val) true
      let next := (u.wgCohort g.val + 1) % (u.wgCount g.val / u.wgResident g.val)
      let u := u.setVal .WG_COHORT [g.val] next
      (u.setVal .WG_WSTEP [g.val] (mget (u.getWg g.val).wsteps next)).modWg g.val fun w => { w with swap := 2 })) ∧
  (∀ (s : State) (g : Fin 256) (meets : LineFate), (s.getWg g.val).swap = 2 → s.swapRuns g.val (s.wgCohort g.val) = true →
    s.homeReady g.val (s.wgCohort g.val) = true →
    let base := s.homeBase g.val (s.wgCohort g.val)
    let v := (s.homeBeats g.val (s.wgCohort g.val) false).dmMeets base (s.homeBytes g.val) meets
    let u := v.swapIn g.val (v.wgCohort g.val)
    let w := State.adoptOpens (u.modWg g.val fun w => { w with swap := 0 }) g.val
    (inRange base (s.homeBytes g.val) meets.bad = [] → u.swapGood g.val = true → (w.getWg g.val).disabling = false →
      exec (.cohortReadInDone g meets) s = .next (w.setWgState g.val (if (w.getWg g.val).epWait = true then wsEpoch else wsWaiting))) ∧
    (inRange base (s.homeBytes g.val) meets.bad ≠ [] → (v.getWg g.val).disabling = false →
      exec (.cohortReadInDone g meets) s = .next ((v.modWg g.val fun w => { w with swap := 3 }).haltNow g.val 0x0183)))

/-- What the commands of the neuron cores do: Where the rule's conditions hold, each command answers a next state and the whole of it is
given: NC_CFG with EN = 1 on a disabled core stores DEPTH_M1 and SLEEP, sets EN and starts the fill of the power tables; the end of the fill
fills them and the core is idle; an OPEN that a way of the control network leads to its engine reaches an idle core that the group's map
names, which scans, a vector core and a matrix core, once, and one for a cluster beyond the seam crosses it as a message with the low words
of WG_STEP and WG_WSTEP; an access of the enable to the core is noted; the fan-out unit walks its head event's chain and hands on one flit
for each destination, counting them, and an uncut chain changes nothing else; an engine that is done reports emit-done, and with the last
report the step is harvesting; a flit at the delivery stage for the core with its step open enters the input queue while it holds fewer than
64 and counts as accepted; the flit at the head of the queue whose step is open is delivered and leaves it, the cycles it waited and its
bank conflicts counted; a flit of KIND 2 reaches the modulator unit; an idle core with nothing queued or formed may gate its clocks; and a
sleeping core wakes when the source named has come, recording source, wake and gated cycles. -/
def Obligations.NeuronCoreCommandsHaveTheirEffects : Prop :=
  (∀ (s : State) (req : Requester) (c : Fin 96) (n : Fin 16) (v : Word), s.Reached req .NC_CFG [c.val, n.val] →
    s.bit .NC_CFG [c.val, n.val] NC_CFG_EN = false →
    exec (.ncEnable req c n v) s = .next (
      let u := (s.coreTouch (Reg.place .NC_CFG [c.val, n.val])).setFld .NC_CFG [c.val, n.val] NC_CFG_DEPTH_M1 (bitsOf (withEn v true) 8 6)
      let u := (u.setFld .NC_CFG [c.val, n.val] NC_CFG_SLEEP (bitsOf (withEn v true) 1 1)).setFld .NC_CFG [c.val, n.val] NC_CFG_EN 1
      u.setFld .NC_STATUS [c.val, n.val] NC_STATUS_STATE ncFilling)) ∧
  (∀ (s : State) (c : Fin 96) (n : Fin 16), s.ncState c.val n.val = ncFilling →
    exec (.powerTableFillDone c n) s = .next ((s.fillTables c.val n.val).setFld .NC_STATUS [c.val, n.val] NC_STATUS_STATE ncIdle)) ∧
  (∀ (s₀ s : State) (g : Fin 256) (c : Fin 96) (slot : Fin 19) (bad : List Nat) (errs : List LinkErr), s₀.cnPass c.val errs = some s →
    s₀.farCluster c.val = false → s.wgState g.val = wsStepping → (s.getWg g.val).opened.contains (eidOf c.val slot.val) = false → (s.enginesOf g.val).contains (eidOf c.val slot.val) = true →
    s.engSilent (eidOf c.val slot.val) = false →
    let got (u : State) : State := u.modWg g.val fun w => { w with opened := w.opened ++ [eidOf c.val slot.val] }
    (∀ e, slot.val < 16 → s.gmapOf c.val slot.val g.val = some e → s.ncState c.val slot.val = ncIdle →
      exec (.cnOpen g (.engine c slot) bad errs) s₀ =
        .next (got ((s.openCore bad c.val slot.val e g.val).integTraces c.val slot.val g.val (s.wgWStep g.val)))) ∧
    (slot.val = 18 → exec (.cnOpen g (.engine c slot) bad errs) s₀ = .next (got ((s.openEngine c.val 2 g.val).mxOpen c.val g.val))) ∧
    (16 ≤ slot.val → slot.val < 18 →
      exec (.cnOpen g (.engine c slot) bad errs) s₀ = .next (got (s.openEngine c.val (slot.val - 16) g.val)))) ∧
  (∀ (s : State) (g : Fin 256) (c : Fin 96) (slot : Fin 19) (bad : List Nat) (errs : List LinkErr), s.farCluster c.val = true →
    exec (.cnOpen g (.engine c slot) bad errs) s = .next (s.seamSend 0 [cnHeader 3 c.val 2 g.val,
      BitVec.ofNat 32 (s.val .WG_STEP [g.val]), BitVec.ofNat 32 (s.wgWStep g.val)])) ∧
  (∀ (s : State) (c : Fin 96) (n : Fin 16) (bad : List Nat) (ev : Ev) (rest : List Ev) (k : Nat) (ds : List Dest),
    (s.getNc c.val n.val).fan = ev :: rest →
    (s.modNc c.val n.val fun u => { u with fan := rest }).slotOf c.val n.val ev.net = some k →
    walkDir (s.cword c.val n.val) (fun a => badIn bad (4 * a) 4) coreWords (s.val .SY_FO_BASE [c.val, n.val, k] / 4 + ev.neuron) =
      (ds, .fin) →
    exec (.fanoutWalk c n bad) s = .next (
      let u := s.modNc c.val n.val fun u => { u with fan := rest }
      let fl := ds.map (destFlit ev.kind ev.payload ev.world ev.stamp (s.wgTb ev.wg) ev.trace (coordOf c.val n.val))
      (u.modNc c.val n.val fun u => { u with outq := u.outq ++ fl }).bump .SY_FLITS [c.val, n.val] fl.length)) ∧
  (∀ (s : State) (g : Fin 256) (e : EngineAt), s.wgState g.val = wsStepping →
    (s.getWg g.val).done.contains (engineId e) = false → (s.enginesOf g.val).contains (engineId e) = true →
    s.engDone g.val (engineId e) = true →
    exec (.engineEmitDone g e) s = .next (
      let u := s.modWg g.val fun w => { w with done := w.done ++ [engineId e] }
      if u.allDone g.val (u.enginesOf g.val) = true then u.setFld .WG_STATUS [g.val] WG_STATUS_STATE wsHarvesting else u)) ∧
  (∀ (s : State) (c : Fin 96) (n : Fin 16) (m : MFlit) (u : State) (e g : Nat) (now : Bool),
    s.takeDlv c.val (fun f => fDC f == n.val && fKind f != 2) = some (m, u) → s.fencedEng c.val n.val = false →
    s.engineOff c.val n.val = false → (s.getNc c.val n.val).inq.length < 64 → fKind m.f ≠ 3 →
    let w := u.acceptWorld (fWorld m.f) (halfOf c.val)
    w.entryOf c.val n.val (fWorld m.f) = some (e, g) → w.stampFate c.val n.val g m.f = some now →
    exec (.coreFlitEnqueue c n) s = .next (w.modNc c.val n.val fun x => { x with inq := x.inq ++ [m.f] })) ∧
  (∀ (s : State) (c : Fin 96) (n : Fin 16) (bad : List Nat) (f : Flit) (rest : List Flit) (e g k held conf aconf : Nat),
    s.ncState c.val n.val ≠ ncSleep → (s.getNc c.val n.val).inq = f :: rest → s.fate bad c.val n.val f = .now e g k →
    exec (.laneDelivery c n bad held conf aconf) s = .next (
      let u := ((s.bump .NC_HSTALL [c.val, n.val] held).bump .NC_LCONF [c.val, n.val] conf).bump .LR_ACONF [c.val, n.val] aconf
      let r := (u.modNc c.val n.val fun u => { u with inq := rest }).deliver bad c.val n.val e g k f
      r.1.traceDelivery c.val n.val g f r.2)) ∧
  (∀ (s : State) (c : Fin 96) (n : Fin 16) (m : MFlit) (u : State),
    s.takeDlv c.val (fun f => fDC f == n.val && fKind f == 2) = some (m, u) → s.fencedEng c.val n.val = false →
    s.engineOff c.val n.val = false → exec (.modulatorFlit c n) s = .next (u.modFlit c.val n.val m.f)) ∧
  (∀ (s : State) (c : Fin 96) (n : Fin 16), s.bit .NC_CFG [c.val, n.val] NC_CFG_SLEEP = true → s.ncState c.val n.val = ncIdle →
    (s.getNc c.val n.val).inq = [] → (s.getNc c.val n.val).fan = [] → (s.getNc c.val n.val).outq = [] →
    exec (.coreSleep c n) s = .next ((s.setFld .NC_STATUS [c.val, n.val] NC_STATUS_STATE ncSleep).modNc c.val n.val
      fun u => { u with hit := false })) ∧
  (∀ (s : State) (c : Fin 96) (n src : Fin 16) (cycles : Nat), s.ncState c.val n.val = ncSleep → s.ncWakeDue c.val n.val src.val = true →
    exec (.coreWake c n src cycles) s = .next (((((s.setFld .NC_STATUS [c.val, n.val] NC_STATUS_STATE ncIdle).setFld
      .NC_STATUS [c.val, n.val] NC_STATUS_WAKESRC src.val).bump .NC_WAKES [c.val, n.val]).bump .NC_SLEEPCYC [c.val, n.val] cycles).modNc
      c.val n.val fun u => { u with hit := false }))

/-- What the emit port, the sink and the in-band queue do: Of a vector or matrix core (0 VC0, 1 VC1, 2 MX), where the rule's conditions
hold: the emit port of a vector core takes the record at the head of its queue, and a record that R147 drops is counted in SY_EDROP; a
record with DIRECT = 1 whose world lies in an open group forms one flit stamped with the group's step, and is counted in SY_EFLITS; an
enabled sink that takes a flit of the open step asks the bank's arbiter and, granted, adds its value, modulo 2^32, into the element its
world and axon name, a read and a write of its line that the message unit sees, counts it, and counts the flit as accepted; refused, it
keeps the flit and backs off; a flit of the step after it is kept for its open; and a KIND 2 or 3 flit enters the in-band queue while it
holds fewer than 32 and counts as accepted. Tracing of the record is left out of the emitting case. -/
def Obligations.EventUnitsOfVectorAndMatrixCoresHaveTheirEffects : Prop :=
  (∀ (s : State) (c : Fin 96) (e : Fin 3) (bad : List Nat) (rec : DWord) (rest : List DWord),
    e.val ≠ 2 → (s.getEng c.val e.val).emitq = rec :: rest →
    let u := s.modEng c.val e.val fun x => { x with emitq := rest }
    (u.emitDrops c.val e.val rec.toNat = true → exec (.emitRecord c e bad) s = .next (u.bump .SY_EDROP [c.val, e.val])) ∧
    (∀ g, u.emitDrops c.val e.val rec.toNat = false → u.groupOf (bitsOf rec.toNat 41 14) = some g →
      u.traced (u.wgPart g) g (bitsOf rec.toNat 41 14) (bitsOf rec.toNat 17 16 % 2 ^ 15) (u.wgWStep g % 2 ^ 16) = false →
      rec.toNat.testBit 61 = true →
      exec (.emitRecord c e bad) s = .next (
        let f := mkFlit (bitsOf rec.toNat 62 2) (bitsOf rec.toNat 5 12) (bitsOf rec.toNat 17 16) (bitsOf rec.toNat 41 14)
          (bitsOf rec.toNat 55 6) (u.wgWStep g) (bitsOf rec.toNat 33 8) (u.wgTb g) false (coordOf c.val (engSlot e.val))
        (u.modEng c.val e.val fun x => { x with outq := x.outq ++ [f] }).bump .SY_EFLITS [c.val, e.val]))) ∧
  (∀ (s : State) (c : Fin 96) (e : Fin 3) (meets : SinkMeet) (m : MFlit) (u : State),
    s.takeDlv c.val (fun f => fDC f == engSlot e.val && decide (fKind f < 2)) = some (m, u) →
    s.fencedEng c.val (engSlot e.val) = false → s.engineOff c.val (engSlot e.val) = false →
    let f := m.f
    let w := u.acceptWorld (fWorld f) (halfOf c.val)
    (∀ o, w.sinkFate c.val e.val f = .add o →
      let k := bankArb c.val (bankOf o)
      let ep := endpointOf c.val (3 + e.val)
      let ask := w.arbAsk k (if meets.busy = true then 0 else 1) ep
      w.arbWaits k ep = false →
      (ask.1 = true → badIn meets.bad (o / 64 * 64) 64 = false →
        exec (.sinkAdd c e meets) s = .next (
          let x := ((ask.2.arbFree k ep).modEng c.val e.val fun y => { y with back := 0 }).bump .BK_RD [c.val]
          let v := wrapInt 32 (sext 32 (x.peekLE (bankAddr c.val o) 4) + x.sinkValue c.val e.val f)
          let x := ((x.pokeLE (bankAddr c.val o) 4 v).bump .BK_WR [c.val]).observe (bankAddr c.val o)
          (x.bump .SY_SINKADD [c.val, e.val]).trace c.val f 7 (coordOf c.val (engSlot e.val)) (fAxon f))) ∧
      (ask.1 = false → w.holdMode k ep = false →
        exec (.sinkAdd c e meets) s = .next ((ask.2.modEng c.val e.val fun y => { y with back := nextBack y.back }).modEng c.val e.val
          fun y => { y with sinkq := y.sinkq ++ [f] }))) ∧
    (w.sinkFate c.val e.val f = .wait →
      exec (.sinkAdd c e meets) s = .next (w.modEng c.val e.val fun x => { x with sinkq := x.sinkq ++ [f] })) ∧
    (w.sinkFate c.val e.val f = .absorb → exec (.sinkAdd c e meets) s = .next (w.bump .SY_SINKABS [c.val, e.val]))) ∧
  (∀ (s : State) (c : Fin 96) (e : Fin 3) (m : MFlit) (u : State),
    s.takeDlv c.val (fun f => fDC f == engSlot e.val && decide (fKind f ≥ 2)) = some (m, u) →
    s.fencedEng c.val (engSlot e.val) = false → s.engineOff c.val (engSlot e.val) = false → (s.getEng c.val e.val).ibq.length < 32 →
    exec (.inbandQueueEnter c e) s = .next (
      let f := m.f
      let w := (u.acceptWorld (fWorld f) (halfOf c.val)).modEng c.val e.val fun x => { x with ibq := x.ibq ++ [f] }
      ((w.setVal .SY_IBQ_STATUS [c.val, e.val] (w.getEng c.val e.val).ibq.length).bump .SY_IBQIN [c.val, e.val]).trace c.val f 7
        (coordOf c.val (engSlot e.val)) (fAxon f)))

/-- What the learning-set commands do: Where the rule's conditions hold, each command answers a next state and the whole of it is given: EN
= 1 stores the block's fields, leaves EN at 0 and asks for the set's check; a write of LR_SET_WG is stored, and for an enabled set goes to
every block and asks for a check of each enabled group it newly marks, while one no longer marked leaves the barrier; LR_SET_CTRL.COMMIT
asks for a commit; the epoch end starts once every enabled writer stands at the barrier and none is halted, with the fenced cores counted,
and passes its stages where no core takes part; a stage signal starts context 1 at the service entry with the stage and the set, and of a
context that serves with the standard program it is that program's run, with its cycles and instructions counted; a FLIP that a way leads to
reaches each core of the set that is awake once, and one for a cluster beyond the seam crosses it; and with the last report LR_SET_EPOCH
rises, the barrier is released and the set runs. -/
def Obligations.LearningSetCommandsHaveTheirEffects : Prop :=
  (∀ (s : State) (req : Requester) (c : Fin 96) (k : Fin 16) (v : Word), s.Reached req .LR_SET_CFG [c.val, k.val] →
    s.checking (.set k.val c.val) = false → s.bit .LR_SET_CFG [c.val, k.val] LR_SET_CFG_EN = false →
    exec (.lrSetEnable req c k v) s = .next (((s.store .LR_SET_CFG [c.val, k.val] (withEn v true)).setFld
      .LR_SET_CFG [c.val, k.val] LR_SET_CFG_EN 0).askCheck (.set k.val c.val) (withEn v true) none)) ∧
  (∀ (s : State) (req : Requester) (c : Fin 96) (k : Fin 16) (j : Fin 8) (v : Word),
    s.Reached req .LR_SET_WG [c.val, k.val, j.val] →
    (s.inSet c.val k.val = false → s.setLocked c.val k.val = false →
      exec (.lrSetWgWrite req c k j v) s = .next (s.store .LR_SET_WG [c.val, k.val, j.val] v.toNat)) ∧
    (s.inSet c.val k.val = true →
      exec (.lrSetWgWrite req c k j v) s = .next (
        let old := s.val .LR_SET_WG [c.val, k.val, j.val]
        let u := s.each ((List.range 32).filter fun b => old.testBit b && !v.toNat.testBit b) fun s b => s.barrierLeave (32 * j.val + b)
        let u := u.each (u.setBlocks k.val) fun s b => s.setVal .LR_SET_WG [b, k.val, j.val] v.toNat
        u.each ((List.range 32).filter fun b => v.toNat.testBit b && !old.testBit b &&
            u.wgOn (32 * j.val + b))
          fun s b => s.askCheck (.setwg k.val c.val (32 * j.val + b)) v.toNat none))) ∧
  (∀ (s : State) (req : Requester) (c : Fin 96) (k : Fin 16), s.Reached req .LR_SET_CTRL [c.val, k.val] →
    exec (.lrSetCommit req c k) s = .next (s.askCheck (.kscmd c.val) (1 + 16 * k.val) none)) ∧
  (∀ (s : State) (k : Fin 16), (s.getLs k.val).on = true → s.lsStage k.val = lsRunning → s.writers k.val ≠ [] →
    (∀ g ∈ s.writers k.val, s.holdsEpoch g = false) → s.setSplit k.val = false →
    exec (.epochEndStart k) s = .next (
      let u := ((s.setFld .LR_SET_STATUS [0, k.val] LR_SET_STATUS_FENCED
          (min ((s.setCores k.val).filter fun x => s.fencedEng x.1 x.2).length 15)).modLs k.val
        fun l => { l with reports := [], marks := [] }).setStage k.val lsUpdate
      u.stagesPass k.val)) ∧
  (∀ (s : State) (c : Fin 96) (v : Fin 2) (k : Fin 16) (took : SvcTook) (bad : List Nat) (stage : Nat),
    ((stage = 1 ∧ s.lsStage k.val = lsUpdate) ∨ (stage = 2 ∧ s.lsStage k.val = lsStructure)) →
    s.vxServes c.val v.val k.val = true → s.clusterOn c.val = true → s.fencedEng c.val (16 + v.val) = false →
    (s.vxSvc c.val v.val = false →
      exec (.serviceStageSignal c v k took bad) s = .next (
        let pc := if s.bit .VX_CFG [c.val, v.val] VX_CFG_STDSVC = true then 0x1C000 else s.val .VX_SVC [c.val, v.val]
        (s.modVx c.val v.val fun x =>
          { x with stage := stage, set := k.val,
                   c1 := { x.c1 with pc := pc, loops := [], emitted := 0,
                                     s := mput (mput x.c1.s 1 (BitVec.ofNat 32 stage)) 2 (BitVec.ofNat 32 k.val) } }).setFld
          .VX_STATUS [c.val, v.val] VX_STATUS_SVC 1)) ∧
    (s.vxSvc c.val v.val = true → s.bit .VX_CFG [c.val, v.val] VX_CFG_STDSVC = true →
      (s.getVx c.val v.val).set = k.val → (s.getVx c.val v.val).stage = stage →
      exec (.serviceStageSignal c v k took bad) s = .next (
        let u := ((s.stdService bad c.val v.val k.val).setFld .VX_STATUS [c.val, v.val] VX_STATUS_SVC 0).modVx c.val v.val
          fun x => { x with stage := 0 }
        (u.bump .VX_SVCCYC [c.val, v.val] took.cycles).bump .VX_INSTR [c.val, v.val] took.instrs))) ∧
  (∀ (s₀ s : State) (c : Fin 96) (n : Fin 16) (errs : FlipErr) (k : Nat), s₀.coreSet c.val n.val = some k →
    (s₀.farCluster c.val = true → exec (.cnFlip c n errs) s₀ = .next (s₀.seamSend 0 [cnHeader 10 c.val 0 k])) ∧
    (s₀.farCluster c.val = false → s₀.cnPass c.val errs.links = some s →
      s.coreSet c.val n.val = some k → s.lsStage k = lsFlip → s.fencedEng c.val n.val = false → s.ncState c.val n.val ≠ ncSleep →
      (s.getLs k).reports.contains (eidOf c.val n.val) = false →
      exec (.cnFlip c n errs) s₀ =
        .next ((s.flipCore errs.bad k c.val n.val).modLs k fun l => { l with reports := l.reports ++ [eidOf c.val n.val] }))) ∧
  (∀ (s : State) (k : Fin 16), s.lsStage k.val = lsFlip →
    (∀ x ∈ s.setActive2 k.val, (s.getLs k.val).reports.contains (eidOf x.1 x.2) = true) →
    exec (.flipComplete k) s = .next (
      let u := s.bump .LR_SET_EPOCH [0, k.val]
      let u := u.each (u.writers k.val) fun s g =>
        if (s.getWg g).epWait = true then s.bump .LR_SET_LOCKWAIT [0, k.val] (s.lockLost g) else s
      let u := ((u.releaseBarrier k.val).modLs k.val fun l => { l with reports := [], flips := l.flips + 1 }).setStage k.val lsRunning
      let u := u.modKs fun q => { q with queue := q.queue.map fun x => if x.set = k.val then { x with waitFlip := false } else x }
      u.autoCommit k.val))

/-- What the keep-store commands do: Where the rule's conditions hold, each command answers a next state and the whole of it is given: OP 0
of KS_CMD changes nothing; OP 1 and OP 2 ask for the check of the command; the commit at the front of the queue, when its capture is ready
and the channels of the staging area serve, has its image written to the staging area and its phase becomes capture; its end halts the set's
writers for each word it read uncorrectable; the ends of the phases make it compare and program, then write the root in the west, then in
the east, with which the generation is the committed one and KS_COMMITS rises; and the end of a restore lays the committed image over the
cores' tables, sets LR_SET_EPOCH to the generation's epoch and raises KS_RESTORES. A capture uses the partition's service circuits and a
restore an active service schedule; every cluster's block counts (log entry 19). -/
def Obligations.KeepStoreCommandsHaveTheirEffects : Prop :=
  (∀ (s : State) (req : Requester) (c : Fin 96) (k : Fin 16), s.Reached req .KS_CMD [c.val] →
    exec (.ksCmdNone req c k) s = .next s ∧
    exec (.ksCommit req c k) s = .next (s.askCheck (.kscmd c.val) (1 + 16 * k.val) none) ∧
    exec (.ksRestore req c k) s = .next (s.askCheck (.kscmd c.val) (2 + 16 * k.val) none)) ∧
  (∀ (s : State) (x : Commit) (rest : List Commit), s.ks.cur = none → s.ks.queue = x :: rest → s.captureReady x = true →
    s.dmReady (s.val .KS_STAGE [x.part]) (s.imageLen x.set) = true →
    exec .commitCaptureStart s = .next (
      let u := s.captureBytes x.set (s.val .KS_STAGE [x.part]) (s.image x.set)
      let y := { x with phase := 1, len := (s.image x.set).length, stage := s.val .KS_STAGE [x.part], epoch := u.val .LR_SET_EPOCH [0, x.set] }
      let u := u.modKs fun k => { k with queue := rest, cur := some y }
      let u := if u.lsStage x.set = lsFlip then u.setStage x.set lsSuspended else u
      (u.setFld .KS_STATUS [x.part] KS_STATUS_WAITING 0).ksShow x.part)) ∧
  (∀ (s : State) (x : Commit) (bad : List Nat), s.ks.cur = some x → x.phase = 1 →
    exec (.commitPhaseDone bad) s = .next (
      let u := (s.captureErrs x.set bad).modKs fun k => { k with cur := some { x with phase := 2 } }
      State.ksShow (if u.lsStage x.set = lsSuspended then u.setStage x.set lsFlip else u) x.part)) ∧
  (∀ (s : State) (x : Commit) (bad : List Nat) (dir : Nat), s.ks.cur = some x → x.phase = 2 → s.ks.stopped = false →
    (mget s.ks.keys x.part ≠ 0 ∨ s.sec.rngBad = false) →
    let gen := (s.genNow x.part).gen + 1
    let kk := s.takeKey x.part
    let d := kk.1.programData bad x gen kk.2
    let t := d.1.programTables bad x gen kk.2 d.2.cnt d.2.pages
    let r := t.1.putPage bad kk.2 gen (2 ^ 25) none (fit 4096 (t.2.pages.flatMap t.1.ksEntry)) { cnt := t.2.cnt }
    d.2.code = 0 → t.2.code = 0 → r.2.pages = [dir] →
    exec (.commitPhaseDone bad) s = .next (
      ((r.1.modKs fun k => { k with cur := some { x with phase := 3, pages := d.2.pages, tables := t.2.pages, dir := dir } }).ksShow
        x.part).ksCounts)) ∧
  (∀ (s : State) (x : Commit) (bad : List Nat), s.ks.cur = some x → x.phase = 3 → s.ks.stopped = false →
    exec (.commitPhaseDone bad) s = .next (
      ((s.writeRoot s.nextRoot (s.commitRoot x)).modKs fun k => { k with cur := some { x with phase := 4, slot := s.nextRoot } }).ksCounts)) ∧
  (∀ (s : State) (x : Commit) (bad : List Nat), s.ks.cur = some x → x.phase = 4 → s.ks.stopped = false →
    exec (.commitPhaseDone bad) s = .next (
      let u := (s.writeRoot (64 + x.slot) (mget s.ks.roots x.slot).bytes).modKs fun k => { k with winner := some x.slot, cur := none }
      ((u.freeUnreferenced.ksShow x.part).ksBump .KS_COMMITS).ksReport.ksCounts)) ∧
  (∀ (s : State) (p : Fin 8) (x : Commit), s.ks.restores.find? (fun x => x.part == p.val) = some x →
    s.serviceRuns p.val = true →
    exec (.restoreComplete p) s = .next (
      let u := (s.pageOps (s.walkGen p.val).2).each (imageIndex (s.committed p.val) x.set) fun u d => u.restoreCore (s.committed p.val) d
      let u := u.setVal .LR_SET_EPOCH [0, x.set] (u.genNow p.val).epoch
      let u := u.modKs fun k => { k with restores := k.restores.erase x }
      (u.ksShow p.val).ksBump .KS_RESTORES))

/-- What starting, loading and carrying out each operation of a matrix core does: When the head descriptor may start, is of the command's
operation, is not cancelled, passes its checks, has nothing loaded ahead and lies within its own buffers, the command answers a next state:
HEAD moves on, the descriptor runs, the reads of its operands begin, and it is carried out if none is under way; the command of the kind of
a running descriptor feeds further reads and carries it out once none is. While operands are on their way nothing else happens. Carrying out
gives the whole next state, and after it results go out and the next descriptor may load ahead: FENCE does nothing; MATMUL and CONV do the
multiply of their operands; EW and REDUCE write each element's or row's result of the exact elements of A; ENCODE adds its emit records to
those the emit port takes and writes back the residues of DELTA; GATHER writes the spike counts of its cores' instances, and clears them
with SUB bit 0; an unreadable word of the operand buffers fails the descriptor with 0x0514. The multiply without a load conversion (AMODE 0
or 3) is stated in full: every row of the output is the accumulated row of A by the columns of W, finished by bias, scale and RELU, written
in the output format, with M × K × N counted in MX_MACS. -/
def Obligations.MatrixDescriptorsRunToTheirResults : Prop :=
  let kind (c : Fin 96) (stopped : Nat) (bad : List Nat) (op : Nat) (i : Instr) : Prop :=
    (op = 0 ∧ i = .mxFence c bad) ∨ (op = 1 ∧ i = .mxMatmul c stopped bad) ∨ (op = 2 ∧ i = .mxConv c stopped bad) ∨
    (op = 3 ∧ i = .mxEw c bad) ∨ (op = 4 ∧ i = .mxReduce c bad) ∨ (op = 5 ∧ i = .mxEncode c bad) ∨ (op = 6 ∧ i = .mxGather c bad)
  let cycles (op stopped : Nat) : Nat := if op = 1 ∨ op = 2 then stopped else 0
  let out (u : State) (bad : List Nat) (c : Nat) : State :=
    ((u.modMx c fun x => { x with run := x.run.map fun r => { r with ran := true }, opnd := [] }).mxFeed c).mxAhead bad c
  (∀ (s : State) (c : Fin 96) (stopped : Nat) (bad : List Nat) (i : Instr) (d : Desc), s.mxReady c.val = some d →
    kind c stopped bad d.op i → s.mxCancelled c.val (s.mxHead c.val) = false → (s.getMx c.val).next = none → s.mxCheck bad c.val d = 0 →
    let p := s.prof c.val d.prof
    let n := s.mxHead c.val
    let t := s.mxTake c.val d
    t.mxPast c.val d p = false →
    exec i s = .next (((t.modMx c.val fun x => { x with todo := x.todo ++ t.mxLoads c.val n d p }).mxFeed c.val).mxExec bad c.val
      (cycles d.op stopped))) ∧
  (∀ (s : State) (c : Fin 96) (stopped : Nat) (bad : List Nat) (i : Instr) (r : MRun), (s.getMx c.val).run = some r →
    kind c stopped bad (descOf r.word).op i →
    exec i s = .next ((s.mxFeed c.val).mxExec bad c.val (cycles (descOf r.word).op stopped))) ∧
  (∀ (s : State) (c stopped : Nat) (bad : List Nat) (r : MRun), (s.getMx c).run = some r → r.ran = true ∨ s.mxMoving c r.n = true →
    s.mxExec bad c stopped = s) ∧
  (∀ (s : State) (c stopped : Nat) (bad : List Nat) (r : MRun), (s.getMx c).run = some r → r.ran = false → s.mxMoving c r.n = false →
    s.mxBadWord bad c (descOf r.word) (s.prof c (descOf r.word).prof) = true →
    s.mxExec bad c stopped = out (s.modMx c fun x => { x with run := some { r with status := 1, reason := 0x0514, rerun := 0 } }) bad c) ∧
  (∀ (s : State) (c stopped : Nat) (bad : List Nat) (d : Desc) (r : MRun), (s.getMx c).run = some r → descOf r.word = d → r.ran = false →
    s.mxMoving c r.n = false → d.op = 0 → s.mxBadWord bad c d (s.prof c d.prof) = false →
    let p := s.prof c d.prof
    s.mxExec bad c stopped = out (s.mxOk c 0) bad c) ∧
  (∀ (s : State) (c stopped : Nat) (bad : List Nat) (d : Desc) (r : MRun), (s.getMx c).run = some r → descOf r.word = d → r.ran = false →
    s.mxMoving c r.n = false → d.op = 1 → s.mxBadWord bad c d (s.prof c d.prof) = false →
    let p := s.prof c d.prof
    s.mxExec bad c stopped = out (s.mxMultiply c stopped d p) bad c) ∧
  (∀ (s : State) (c stopped : Nat) (bad : List Nat) (d : Desc) (r : MRun), (s.getMx c).run = some r → descOf r.word = d → r.ran = false →
    s.mxMoving c r.n = false → d.op = 2 → s.mxBadWord bad c d (s.prof c d.prof) = false →
    let p := s.prof c d.prof
    s.mxExec bad c stopped = out (s.mxMultiply c stopped d p) bad c) ∧
  (∀ (s : State) (c stopped : Nat) (bad : List Nat) (d : Desc) (r : MRun) (rows : List (List Machine.Num)), (s.getMx c).run = some r → descOf r.word = d → r.ran = false →
    s.mxMoving c r.n = false → d.op = 3 → s.mxBadWord bad c d (s.prof c d.prof) = false →
    let p := s.prof c d.prof
    s.exactRows c d p = some rows →
    s.mxExec bad c stopped = out (((s.mxTiles c).writeOut c d p (rows.zipIdx.map fun r => r.1.zipIdx.map fun x =>
      let z := ewOne d.sub d.param x.1 (s.ewSecond c d r.2 x.2) (s.ewBias c d x.2) d.bias
      if d.relu = true then (Machine.Num.max z (.fin false 0 0)).r32 else z)).mxOk c 0) bad c) ∧
  (∀ (s : State) (c stopped : Nat) (bad : List Nat) (d : Desc) (r : MRun) (rows : List (List Machine.Num)), (s.getMx c).run = some r → descOf r.word = d → r.ran = false →
    s.mxMoving c r.n = false → d.op = 4 → s.mxBadWord bad c d (s.prof c d.prof) = false →
    let p := s.prof c d.prof
    s.exactRows c d p = some rows →
    s.mxExec bad c stopped = out (((s.mxTiles c).writeOut c d p (if d.sub.testBit 2 = true then
        [(List.range d.n).map fun j => reduceOne d.sub d.relu (rows.map fun r => r.getD j .nan)]
      else rows.map fun r => [reduceOne d.sub d.relu r])).mxOk c 0) bad c) ∧
  (∀ (s : State) (c stopped : Nat) (bad : List Nat) (d : Desc) (r : MRun) (exact : List (List Machine.Num)), (s.getMx c).run = some r → descOf r.word = d → r.ran = false →
    s.mxMoving c r.n = false → d.op = 5 → s.mxBadWord bad c d (s.prof c d.prof) = false →
    let p := s.prof c d.prof
    s.exactRows c d p = some exact →
    s.mxExec bad c stopped = (
      let rows := exact.map fun r => r.map (encodeFmt .fp32)
      let w0 := bitsOf d.wbase 0 14
      let cells := rows.zipIdx.map fun r => r.1.zipIdx.map fun x =>
        let del := if d.sub = 3 then leNat (s.opBytes c (d.bbase + r.2 * d.wstr + 4 * x.2) 4) else 0
        let e := encodeOne d.sub (fmtD d.ofmt) d.param x.1 del (pairRand (s.val .MX_SEED [c]) (w0 + r.2) x.2 (s.wgWStep d.wg))
        (e.1.map fun k => emitRec k.1 (w0 + r.2) k.2 (bitsOf d.wbase 16 16 + x.2), e.2)
      let nan := if d.sub = 1 then (rows.flatten.filter fun x => losesNaN (fmtD d.ofmt) (decodeFmt .fp32 x)).length else 0
      let v := if d.sub = 3 then
          cells.zipIdx.foldl (fun u r => u.mxWrite c (d.bbase + r.2 * d.wstr) (r.1.flatMap fun x => leBytes 4 x.2)) s
        else s
      out (((((v.mxTiles c).bump .QF_NAN [c] nan).modMx c fun x =>
        { x with recs := x.recs ++ cells.flatten.filterMap (·.1) }).mxEmitFill c).mxOk c 0) bad c)) ∧
  (∀ (s : State) (c stopped : Nat) (bad : List Nat) (d : Desc) (r : MRun), (s.getMx c).run = some r → descOf r.word = d → r.ran = false →
    s.mxMoving c r.n = false → d.op = 6 → s.mxBadWord bad c d (s.prof c d.prof) = false →
    let p := s.prof c d.prof
    let cores := ((List.range 16).filter fun n => (bitsOf d.wbase 0 16).testBit n).filterMap fun n =>
      (s.gmapOf c n d.wg).map fun e => (n, e)
    let inst (r : Nat) : List (Nat × Nat) := cores.flatMap fun x =>
      (List.range (s.gmNpw c x.1 x.2)).map fun j => (x.1, s.gmBase c x.1 x.2 + r * s.gmNpw c x.1 x.2 + j)
    (cores.map fun x => s.gmNpw c x.1 x.2).sum = d.n →
    s.mxExec bad c stopped = (
      let v := s.writeOut c d p ((List.range d.m).map fun r =>
        (inst r).map fun x => Machine.Num.ofInt (s.getRec c x.1 x.2).scnt)
      let v := if d.sub = 1 then
          (List.range d.m).foldl (fun t r => t.each (inst r) fun t x => t.putRec c x.1 x.2 { t.getRec c x.1 x.2 with scnt := 0 }) v
        else v
      out ((v.bump .MX_GREC [c] (d.m * d.n)).mxOk c 0) bad c)) ∧
  (∀ (s : State) (c stopped : Nat) (d : Desc) (p : Prof) (a : List (List Machine.Num)), p.amode = 0 ∨ p.amode = 3 →
    fmtD d.afmt ≠ .fp32 → (List.range d.rows).mapM (s.aRow c d p) = some a →
    let v := s.loadResident c d p
    let w := v.wCols c d p
    v.wBad c d p = [] →
    s.mxMultiply c stopped d p =
      (let v := ((((v.countQf c {}).mxTiles c).bump .QF_RERUNS [c] 0).bump .MX_RERUN [c] 0).bump .QF_RRCYC [c] 0
       let acc := a.map fun r => w.map fun col => accumulate (accMode d p (fmtD d.afmt)) r col
       let v' := v.bump .QF_ACCSAT [c] ((acc.map fun r => (r.map (·.2)).sum).sum)
       let rows := acc.map fun r => v.finish c d (r.map (·.1))
       ((v'.writeOut c d p rows).bump .MX_MACS [c] (d.rows * d.depth * d.n)).mxOk c 0))

/-- What the tail write, a completion and an abort of a matrix core do: A write of MX_DQ_TAIL that would take TAIL minus HEAD above 128, or
below its present value, sets TDROP and leaves the queue as it is; any other is taken and makes the new descriptors visible one after the
other; either wakes a matrix subdomain that is not on. A completion of the running descriptor, once it has been carried out and its results
and records have gone out, writes the completion record, raises MX_DONE and the cycle counters, and for a failure counts it, shows its
reason and halts the group it was bound to; one cancelled meanwhile ends with STATUS 2. ABORT ends the running and every queued descriptor
with STATUS 2, their records written where the matrix subdomain is on and their accesses cut, takes HEAD to TAIL and halts the groups they
were bound to with 0x0582. -/
def Obligations.MatrixQueueCommandsHaveTheirEffects : Prop :=
  (∀ (s : State) (req : Requester) (c : Fin 96) (v : Word), s.Reached req .MX_DQ_TAIL [c.val] →
    let t := v.toNat % 2 ^ 16
    let now := (s.mxTail c.val + 2 ^ 16 - s.mxHead c.val) % 2 ^ 16
    let new := (t + 2 ^ 16 - s.mxHead c.val) % 2 ^ 16
    let u := if 128 < new ∨ new < now then s.setFld .MX_STATUS [c.val] MX_STATUS_TDROP 1
      else (s.setVal .MX_DQ_TAIL [c.val] t).each (List.range (new - now)) fun u i => u.mxBindNew c.val (s.mxHead c.val + now + i)
    exec (.mxDqTailWrite req c v) s = .next (if u.domOn (96 + c.val) = true then u else u.wakeDomain (96 + c.val) 3)) ∧
  (∀ (s : State) (c : Fin 96) (cycles busy wait : Nat) (r : MRun), (s.getMx c.val).run = some r → (s.getMx c.val).recs = [] → r.ran = true →
    s.mxMoving c.val r.n = false →
    exec (.mxDescriptorComplete c cycles busy wait) s = .next (
      let r := if s.mxCancelled c.val r.n = true then { r with status := 2, reason := 0 } else r
      let u := (s.mxRecord c.val r.n r.tag r.reason r.status r.rerun cycles).bump .MX_DONE [c.val]
      let u := (u.bump .MX_BUSY [c.val] busy).bump .MX_OPWAIT [c.val] wait
      let u := u.modMx c.val fun x => { x with run := none, outs := [], binds := x.binds.filter fun b => b.n != r.n }
      let u := if r.status = 1 then (u.bump .MX_DERR [c.val]).setFld .MX_STATUS [c.val] MX_STATUS_REASON r.reason else u
      if r.status = 1 ∧ r.wg ≠ 0 then u.haltAtHarvest (r.wg - 1) 0x0580 else u)) ∧
  (∀ (s : State) (req : Requester) (c : Fin 96) (cycles : Nat), s.regReachReg req (some .MX_CTRL) (Reg.MX_CTRL.place [c.val]) true = true →
    exec (.mxAbort req c cycles) s = .next (
      let h := s.mxHead c.val
      let put (s : State) (n tag rerun cycles : Nat) : State :=
        (if s.domOn (96 + c.val) = true then s.mxRecord c.val n tag 0 2 rerun cycles else s).bump .MX_DONE [c.val]
      let gs := nodups (((s.getMx c.val).binds.filter fun b => !b.cancelled).map (·.wg))
      let u := match (s.getMx c.val).run with
        | some r => put s r.n r.tag r.rerun cycles
        | none => s
      let u := u.each (List.range ((u.mxTail c.val + 2 ^ 16 - h) % 2 ^ 16)) fun u i => put u (h + i) (u.desc c.val (h + i)).tag 0 0
      let u := u.setVal .MX_DQ_HEAD [c.val] (u.mxTail c.val)
      let u := u.each (((u.getMx c.val).run.toList ++ (u.getMx c.val).next.toList).map (·.n)) fun s n => s.mxCut c.val n
      let u := u.modMx c.val fun x => { x with run := none, next := none, todo := [], opnd := [], outs := [], binds := [], recs := [] }
      u.each gs fun s g => s.haltAtHarvest g 0x0582))

/-- What enabling and disabling a vector core and the end of a transfer do: Where the rule's conditions hold, each command answers a next
state and the whole of it is given: EN = 1 stores STDSVC while no enabled set uses the service program and starts context 0 at VX_PC0 with
no loop; EN = 0 disables a core that no enabled group is bound to; an accepted transfer frees its slot and tag and counts its bytes; and a
transfer with a core store of the same cluster, within reach and without an uncorrectable word, moves its bytes and ends likewise. -/
def Obligations.VectorCoreStartStopAndTransfers : Prop :=
  (∀ (s : State) (req : Requester) (c : Fin 96) (v : Fin 2) (w : Word), s.Reached req .VX_CFG [c.val, v.val] →
    s.svcLocked c.val v.val = false →
    let u := s.setFld .VX_CFG [c.val, v.val] VX_CFG_STDSVC (bitsOf (withEn w true) 1 1)
    u.bit .VX_CFG [c.val, v.val] VX_CFG_EN = false →
    exec (.vxEnable req c v w) s = .next (
      let u := (u.setFld .VX_CFG [c.val, v.val] VX_CFG_EN 1).setFld .VX_STATUS [c.val, v.val] VX_STATUS_STATE vxRunning
      u.modVx c.val v.val fun x =>
        { x with c0 := { x.c0 with pc := u.val .VX_PC0 [c.val, v.val], loops := [], emitted := 0 }, stopping := false })) ∧
  (∀ (s : State) (req : Requester) (c : Fin 96) (v : Fin 2) (w : Word), s.Reached req .VX_CFG [c.val, v.val] →
    s.svcLocked c.val v.val = false →
    let u := s.setFld .VX_CFG [c.val, v.val] VX_CFG_STDSVC (bitsOf (withEn w false) 1 1)
    u.bit .VX_CFG [c.val, v.val] VX_CFG_EN = true → u.vxGroups c.val v.val = [] →
    exec (.vxDisable req c v w) s =
      .next ((u.setFld .VX_CFG [c.val, v.val] VX_CFG_EN 0).setFld .VX_STATUS [c.val, v.val] VX_STATUS_STATE vxDisabled)) ∧
  (∀ (s : State) (x : XferAt) (bad : List Nat) (c v ctx : Nat), (s.getXfer (xferKey x)).own = .vx c v ctx →
    let y := s.getXfer (xferKey x)
    let free (s : State) : State :=
      ((s.modVx c v fun u => { u with out := u.out.filter (· != xferKey x), before := u.before.filter fun k => k.2 != xferKey x }).modXfer
        (xferKey x) fun _ => {}).bump .VX_XBYTES [c, v] y.len
    (y.fin = 1 → exec (.vxTransferComplete x bad) s = .next (free s)) ∧
    (y.fin = 0 → s.localXfer y = true → s.reachRange (some y.part) y.ep y.dev y.len y.write = 0 →
      (y.write = true → badIn bad (vcAddr c v y.loc) y.len = false → exec (.vxTransferComplete x bad) s =
        .next (free (s.each (List.range ((y.len + 63) / 64)) fun s i =>
          s.lineWrite c (y.dev + 64 * i) (s.peekN (vcAddr c v (y.loc + 64 * i)) (min 64 (y.len - 64 * i)))))) ∧
      (y.write = false → badIn bad y.dev y.len = false → exec (.vxTransferComplete x bad) s =
        .next (free (s.poke (vcAddr c v y.loc) (s.readBytes y.dev y.len))))))

/-- What the scalar instructions of a vector core write: When the context that issues has the instruction at its program counter, the
command answers a next state and the whole of it is given: SADD, SSUB, SMUL (low, signed high, unsigned high word), SLOG, SSHF, SCMP, SADDI
and SLUI write their result, modulo 2^32, into scalar register D, where register 0 takes nothing, and the program counter moves on through
the ends of its loops. A reserved function of SMUL, SSHF or SCMP faults with 0x0520. -/
def Obligations.ScalarInstructionsWriteTheirResults : Prop :=
  (∀ (s₀ : State) (c : Fin 96) (v : Fin 2) (took : Nat) (bad : List Nat) (x w : Nat), s₀.Issues bad c.val v.val x 0x01 w → let s := s₀.vxTimed took c.val v.val x;
    exec (.sadd c v took bad) s₀ = .next ((s.modCtx c.val v.val x fun u => u.setS (iD w) ((s.vctx c.val v.val x).sreg (iA w) + (s.vctx c.val v.val x).sreg (iB w))).flowTo c.val v.val x ((s.vctx c.val v.val x).pc + 4))) ∧
  (∀ (s₀ : State) (c : Fin 96) (v : Fin 2) (took : Nat) (bad : List Nat) (x w : Nat), s₀.Issues bad c.val v.val x 0x02 w → let s := s₀.vxTimed took c.val v.val x;
    exec (.ssub c v took bad) s₀ = .next ((s.modCtx c.val v.val x fun u => u.setS (iD w) ((s.vctx c.val v.val x).sreg (iA w) + 2 ^ 32 - (s.vctx c.val v.val x).sreg (iB w))).flowTo c.val v.val x ((s.vctx c.val v.val x).pc + 4))) ∧
  (∀ (s₀ : State) (c : Fin 96) (v : Fin 2) (took : Nat) (bad : List Nat) (x w : Nat), s₀.Issues bad c.val v.val x 0x03 w → let s := s₀.vxTimed took c.val v.val x; iF w % 4 = 0 →
    exec (.smul c v took bad) s₀ = .next ((s.modCtx c.val v.val x fun u => u.setS (iD w) ((s.vctx c.val v.val x).sreg (iA w) * (s.vctx c.val v.val x).sreg (iB w))).flowTo c.val v.val x ((s.vctx c.val v.val x).pc + 4))) ∧
  (∀ (s₀ : State) (c : Fin 96) (v : Fin 2) (took : Nat) (bad : List Nat) (x w : Nat), s₀.Issues bad c.val v.val x 0x03 w → let s := s₀.vxTimed took c.val v.val x; iF w % 4 = 1 →
    exec (.smul c v took bad) s₀ = .next ((s.modCtx c.val v.val x fun u => u.setS (iD w) (wrapInt 32 (sext 32 ((s.vctx c.val v.val x).sreg (iA w)) * sext 32 ((s.vctx c.val v.val x).sreg (iB w)) / 2 ^ 32))).flowTo c.val v.val x ((s.vctx c.val v.val x).pc + 4))) ∧
  (∀ (s₀ : State) (c : Fin 96) (v : Fin 2) (took : Nat) (bad : List Nat) (x w : Nat), s₀.Issues bad c.val v.val x 0x03 w → let s := s₀.vxTimed took c.val v.val x; iF w % 4 = 2 →
    exec (.smul c v took bad) s₀ = .next ((s.modCtx c.val v.val x fun u => u.setS (iD w) ((s.vctx c.val v.val x).sreg (iA w) * (s.vctx c.val v.val x).sreg (iB w) / 2 ^ 32)).flowTo c.val v.val x ((s.vctx c.val v.val x).pc + 4))) ∧
  (∀ (s₀ : State) (c : Fin 96) (v : Fin 2) (took : Nat) (bad : List Nat) (x w : Nat), s₀.Issues bad c.val v.val x 0x03 w → let s := s₀.vxTimed took c.val v.val x; iF w % 4 = 3 →
    exec (.smul c v took bad) s₀ = .next (s.vxFault c.val v.val x 0x0520)) ∧
  (∀ (s₀ : State) (c : Fin 96) (v : Fin 2) (took : Nat) (bad : List Nat) (x w : Nat), s₀.Issues bad c.val v.val x 0x04 w → let s := s₀.vxTimed took c.val v.val x;
    exec (.slog c v took bad) s₀ = .next ((s.modCtx c.val v.val x fun u => u.setS (iD w) (logic (iF w) ((s.vctx c.val v.val x).sreg (iA w)) ((s.vctx c.val v.val x).sreg (iB w)))).flowTo c.val v.val x ((s.vctx c.val v.val x).pc + 4))) ∧
  (∀ (s₀ : State) (c : Fin 96) (v : Fin 2) (took : Nat) (bad : List Nat) (x w : Nat), ∀ n, s₀.Issues bad c.val v.val x 0x05 w → let s := s₀.vxTimed took c.val v.val x; shift (iF w) ((s.vctx c.val v.val x).sreg (iA w)) (shiftBy (iF w) ((s.vctx c.val v.val x).sreg (iB w))) = some n →
    exec (.sshf c v took bad) s₀ = .next ((s.modCtx c.val v.val x fun u => u.setS (iD w) n).flowTo c.val v.val x ((s.vctx c.val v.val x).pc + 4))) ∧
  (∀ (s₀ : State) (c : Fin 96) (v : Fin 2) (took : Nat) (bad : List Nat) (x w : Nat), s₀.Issues bad c.val v.val x 0x05 w → let s := s₀.vxTimed took c.val v.val x; bitsOf (iF w) 5 2 = 3 →
    exec (.sshf c v took bad) s₀ = .next (s.vxFault c.val v.val x 0x0520)) ∧
  (∀ (s₀ : State) (c : Fin 96) (v : Fin 2) (took : Nat) (bad : List Nat) (x w : Nat), ∀ b, s₀.Issues bad c.val v.val x 0x06 w → let s := s₀.vxTimed took c.val v.val x; condition (iF w % 8) ((s.vctx c.val v.val x).sreg (iA w)) ((s.vctx c.val v.val x).sreg (iB w)) = some b →
    exec (.scmp c v took bad) s₀ = .next ((s.modCtx c.val v.val x fun u => u.setS (iD w) (if b = true then 1 else 0)).flowTo c.val v.val x ((s.vctx c.val v.val x).pc + 4))) ∧
  (∀ (s₀ : State) (c : Fin 96) (v : Fin 2) (took : Nat) (bad : List Nat) (x w : Nat), s₀.Issues bad c.val v.val x 0x06 w → let s := s₀.vxTimed took c.val v.val x; 6 ≤ iF w % 8 →
    exec (.scmp c v took bad) s₀ = .next (s.vxFault c.val v.val x 0x0520)) ∧
  (∀ (s₀ : State) (c : Fin 96) (v : Fin 2) (took : Nat) (bad : List Nat) (x w : Nat), s₀.Issues bad c.val v.val x 0x07 w → let s := s₀.vxTimed took c.val v.val x;
    exec (.saddi c v took bad) s₀ = .next ((s.modCtx c.val v.val x fun u => u.setS (iD w) (wrapInt 32 ((s.vctx c.val v.val x).sreg (iA w) + iSimm w))).flowTo c.val v.val x ((s.vctx c.val v.val x).pc + 4))) ∧
  (∀ (s₀ : State) (c : Fin 96) (v : Fin 2) (took : Nat) (bad : List Nat) (x w : Nat), s₀.Issues bad c.val v.val x 0x08 w → let s := s₀.vxTimed took c.val v.val x;
    exec (.slui c v took bad) s₀ = .next ((s.modCtx c.val v.val x fun u => u.setS (iD w) (iImm w * 2 ^ 16)).flowTo c.val v.val x ((s.vctx c.val v.val x).pc + 4)))

/-- What the control instructions of a vector core do: When the context that issues has the instruction at its program counter: BC jumps by
its signed word offset when its condition holds and moves on when it does not; JMP jumps; JR writes the address after it into register D and
jumps to register A; LOOP with a count of 0 skips its body, and with a body and fewer than two loops open enters one that runs count times;
SYS HALT halts context 0 and its bound groups at their harvest, and ends the service context; SYS FENCE moves on when no transfer is
outstanding and no record waits; SYS BREAK faults with 0x0524; a third nested loop faults with 0x0522 and a reserved condition with 0x0520.
Each answers a next state and the whole of it is given. -/
def Obligations.ControlInstructionsMoveTheProgramCounter : Prop :=
  (∀ (s₀ : State) (c : Fin 96) (v : Fin 2) (took : Nat) (bad : List Nat) (x w : Nat), s₀.Issues bad c.val v.val x 0x10 w → let s := s₀.vxTimed took c.val v.val x;
    (condition (bitsOf w 13 3) ((s.vctx c.val v.val x).sreg (iD w)) ((s.vctx c.val v.val x).sreg (iA w)) = some true → exec (.bc c v took bad) s₀ = .next (s.jumpTo c.val v.val x (wordsOff (s.vctx c.val v.val x).pc (sext 13 w)))) ∧
    (condition (bitsOf w 13 3) ((s.vctx c.val v.val x).sreg (iD w)) ((s.vctx c.val v.val x).sreg (iA w)) = some false → exec (.bc c v took bad) s₀ = .next (s.flowTo c.val v.val x ((s.vctx c.val v.val x).pc + 4))) ∧
    (condition (bitsOf w 13 3) ((s.vctx c.val v.val x).sreg (iD w)) ((s.vctx c.val v.val x).sreg (iA w)) = none → exec (.bc c v took bad) s₀ = .next (s.vxFault c.val v.val x 0x0520))) ∧
  (∀ (s₀ : State) (c : Fin 96) (v : Fin 2) (took : Nat) (bad : List Nat) (x w : Nat), s₀.Issues bad c.val v.val x 0x11 w → let s := s₀.vxTimed took c.val v.val x;
    exec (.jmp c v took bad) s₀ = .next (s.jumpTo c.val v.val x (wordsOff (s.vctx c.val v.val x).pc (sext 26 w)))) ∧
  (∀ (s₀ : State) (c : Fin 96) (v : Fin 2) (took : Nat) (bad : List Nat) (x w : Nat), s₀.Issues bad c.val v.val x 0x12 w → let s := s₀.vxTimed took c.val v.val x;
    exec (.jr c v took bad) s₀ = .next ((s.modCtx c.val v.val x fun u => u.setS (iD w) (u.pc + 4)).jumpTo c.val v.val x ((s.vctx c.val v.val x).sreg (iA w)))) ∧
  (∀ (s₀ : State) (c : Fin 96) (v : Fin 2) (took : Nat) (bad : List Nat) (x w : Nat), s₀.Issues bad c.val v.val x 0x13 w → let s := s₀.vxTimed took c.val v.val x;
    let stop := (s.vctx c.val v.val x).pc + 4 + 4 * iImm w
    ((s.vctx c.val v.val x).sreg (iA w) = 0 → exec (.loop c v took bad) s₀ = .next (s.flowTo c.val v.val x (stop % 2 ^ 32))) ∧
    ((s.vctx c.val v.val x).sreg (iA w) ≠ 0 → iImm w ≠ 0 → (s.vctx c.val v.val x).loops.length < 2 → exec (.loop c v took bad) s₀ = .next (
      (s.modCtx c.val v.val x fun u => { u with loops := (u.pc + 4, stop, u.sreg (iA w)) :: u.loops }).flowTo c.val v.val x ((s.vctx c.val v.val x).pc + 4))) ∧
    ((s.vctx c.val v.val x).sreg (iA w) ≠ 0 → iImm w ≠ 0 → 2 ≤ (s.vctx c.val v.val x).loops.length → exec (.loop c v took bad) s₀ = .next (s.vxFault c.val v.val x 0x0522))) ∧
  (∀ (s₀ : State) (c : Fin 96) (v : Fin 2) (took : Nat) (bad : List Nat) (x w : Nat), s₀.Issues bad c.val v.val x 0x14 w → let s := s₀.vxTimed took c.val v.val x; iImm w = 0 →
    exec (.sysHalt c v took bad) s₀ = .next ((if x = 1 then s.svcHalt c.val v.val
      else (s.setVxState c.val v.val vxHalted).vxStopped c.val v.val).bump .VX_INSTR [c.val, v.val])) ∧
  (∀ (s₀ : State) (c : Fin 96) (v : Fin 2) (took : Nat) (bad : List Nat) (x w : Nat), s₀.Issues bad c.val v.val x 0x14 w → let s := s₀.vxTimed took c.val v.val x; iImm w = 1 → (s.getVx c.val v.val).out = [] → (s.getEng c.val v.val).emitq = [] →
    exec (.sysFence c v took bad) s₀ = .next (s.flowTo c.val v.val x ((s.vctx c.val v.val x).pc + 4))) ∧
  (∀ (s₀ : State) (c : Fin 96) (v : Fin 2) (took : Nat) (bad : List Nat) (x w : Nat), s₀.Issues bad c.val v.val x 0x14 w → let s := s₀.vxTimed took c.val v.val x; iImm w = 2 →
    exec (.sysBreak c v took bad) s₀ = .next (s.vxFault c.val v.val x 0x0524))

/-- What the loads, stores and transfers of a vector core do: When the context that issues has the instruction at its program counter and
its local address is aligned, inside the store, readable, and for context 0 outside the protected service program: SLD and VLD bring a word
or 64 bytes into register D, SST and VST write them there, little endian; otherwise the core faults with the code of the access. XLD and XST
outside the send windows start a transfer when fewer than eight are outstanding and a tag is free; an enabled send handle's window makes XST
send a message; XWAIT moves on once no more than its number of transfers is outstanding. Each answers a next state and the whole of it is
given; XLD and XST with operands against R231 fault. -/
def Obligations.LocalStoreAndTransferInstructions : Prop :=
  (∀ (s₀ : State) (c : Fin 96) (v : Fin 2) (took : Nat) (bad : List Nat) (x w : Nat), s₀.Issues bad c.val v.val x 0x18 w → let s := s₀.vxTimed took c.val v.val x;
    let a := wrapInt 32 ((s.vctx c.val v.val x).sreg (iA w) + iSimm w)
    let k := s.localCode bad c.val v.val x a 4 false
    exec (.sld c v took bad) s₀ = .next (if k = 0 then (s.modCtx c.val v.val x fun u => u.setS (iD w) (s.peekLE (vcAddr c.val v.val a) 4)).flowTo c.val v.val x ((s.vctx c.val v.val x).pc + 4)
      else s.vxFault c.val v.val x k)) ∧
  (∀ (s₀ : State) (c : Fin 96) (v : Fin 2) (took : Nat) (bad : List Nat) (x w : Nat), s₀.Issues bad c.val v.val x 0x19 w → let s := s₀.vxTimed took c.val v.val x;
    let a := wrapInt 32 ((s.vctx c.val v.val x).sreg (iA w) + iSimm w)
    let k := s.localCode [] c.val v.val x a 4 true
    exec (.sst c v took bad) s₀ = .next (if k = 0 then (s.pokeLE (vcAddr c.val v.val a) 4 ((s.vctx c.val v.val x).sreg (iD w))).flowTo c.val v.val x ((s.vctx c.val v.val x).pc + 4)
      else s.vxFault c.val v.val x k)) ∧
  (∀ (s₀ : State) (c : Fin 96) (v : Fin 2) (took : Nat) (bad : List Nat) (x w : Nat), s₀.Issues bad c.val v.val x 0x1A w → let s := s₀.vxTimed took c.val v.val x;
    let a := wrapInt 32 ((s.vctx c.val v.val x).sreg (iA w) + 64 * iSimm w)
    let k := s.localCode bad c.val v.val x a 64 false
    exec (.vld c v took bad) s₀ = .next (if k = 0 then (s.modCtx c.val v.val x fun u => u.setV (iD w) (s.peekLE (vcAddr c.val v.val a) 64)).flowTo c.val v.val x ((s.vctx c.val v.val x).pc + 4)
      else s.vxFault c.val v.val x k)) ∧
  (∀ (s₀ : State) (c : Fin 96) (v : Fin 2) (took : Nat) (bad : List Nat) (x w : Nat), s₀.Issues bad c.val v.val x 0x1B w → let s := s₀.vxTimed took c.val v.val x;
    let a := wrapInt 32 ((s.vctx c.val v.val x).sreg (iA w) + 64 * iSimm w)
    let k := s.localCode [] c.val v.val x a 64 true
    exec (.vst c v took bad) s₀ = .next (if k = 0 then (s.pokeLE (vcAddr c.val v.val a) 64 ((s.vctx c.val v.val x).vreg (iD w))).flowTo c.val v.val x ((s.vctx c.val v.val x).pc + 4)
      else s.vxFault c.val v.val x k)) ∧
  (∀ (s₀ : State) (c : Fin 96) (v : Fin 2) (took : Nat) (bad : List Nat) (x w : Nat), ∀ (dev loc n code key : Nat) (t : State), s₀.Issues bad c.val v.val x 0x1C w → let s := s₀.vxTimed took c.val v.val x; s.xferOps c.val v.val x w true = (dev, loc, n, code) →
    (code = 0 → sendWindow c.val dev = none → (s.getVx c.val v.val).out.length < 8 →
      s.xferStart (s.ofContext c.val v.val x { dev := dev, loc := loc, len := n }) = some (key, t) →
      exec (.xld c v took bad) s₀ = .next ((t.modVx c.val v.val fun u => { u with out := u.out ++ [key] }).flowTo c.val v.val x ((s.vctx c.val v.val x).pc + 4))) ∧
    (code ≠ 0 → exec (.xld c v took bad) s₀ = .next (s.vxFault c.val v.val x code)) ∧
    (code = 0 → sendWindow c.val dev ≠ none → exec (.xld c v took bad) s₀ = .next (s.vxFault c.val v.val x 0x0523))) ∧
  (∀ (s₀ : State) (c : Fin 96) (v : Fin 2) (took : Nat) (bad : List Nat) (x w : Nat), ∀ (dev loc n code key : Nat) (t : State), s₀.Issues bad c.val v.val x 0x1D w → let s := s₀.vxTimed took c.val v.val x; s.xferOps c.val v.val x w false = (dev, loc, n, code) →
    (code = 0 → sendWindow c.val dev = none → (s.getVx c.val v.val).out.length < 8 →
      s.xferStart (s.ofContext c.val v.val x { write := true, dev := dev, loc := loc, len := n }) = some (key, t) →
      exec (.xst c v took bad) s₀ = .next ((t.modVx c.val v.val fun u => { u with out := u.out ++ [key] }).flowTo c.val v.val x ((s.vctx c.val v.val x).pc + 4))) ∧
    (code ≠ 0 → exec (.xst c v took bad) s₀ = .next (s.vxFault c.val v.val x code)) ∧
    (∀ h, code = 0 → sendWindow c.val dev = some h → dev % 0x1000 = 0 → s.bit .MQ_SH_CFG [c.val, h] MQ_SH_CFG_EN = true →
      s.badSend (s.val .MQ_SH_ADDR [c.val, h]) n (s.peekN (vcAddr c.val v.val loc) 16) = false → (s.getVx c.val v.val).out.length < 8 →
      s.xferStart (s.ofContext c.val v.val x { write := true, dev := s.val .MQ_SH_ADDR [c.val, h], loc := loc, len := n,
                                               handle := c.val * 64 + h + 1, seq := s.sendOrder (c.val * 64 + h + 1) }) = some (key, t) →
      exec (.xst c v took bad) s₀ = .next ((t.modVx c.val v.val fun u => { u with out := u.out ++ [key] }).flowTo c.val v.val x ((s.vctx c.val v.val x).pc + 4)))) ∧
  (∀ (s₀ : State) (c : Fin 96) (v : Fin 2) (took : Nat) (bad : List Nat) (x w : Nat), s₀.Issues bad c.val v.val x 0x1E w → let s := s₀.vxTimed took c.val v.val x; (s.getVx c.val v.val).out.length ≤ iImm w →
    exec (.xwait c v took bad) s₀ = .next (s.flowTo c.val v.val x ((s.vctx c.val v.val x).pc + 4)))

/-- What the lane-wise arithmetic of a vector core writes: When the context that issues has the instruction at its program counter, the
command answers a next state and the whole of it is given: VADD, VSUB, VMUL, VMAC, VMNX, VLOG and VSHF write each lane whose mask bit is 1
with the operation of its type on the lanes of A and B, and leave the other lanes of D; VSEL takes each lane from A where the mask is 1 and
from B where it is 0; a reserved shift faults with 0x0520. -/
def Obligations.VectorArithmeticWritesUnderTheMask : Prop :=
  (∀ (s₀ : State) (c : Fin 96) (v : Fin 2) (took : Nat) (bad : List Nat) (x w : Nat), s₀.Issues bad c.val v.val x 0x20 w → let s := s₀.vxTimed took c.val v.val x;
    exec (.vadd c v took bad) s₀ = .next ((s.modCtx c.val v.val x fun u => u.setV (iD w) (masked (u.mreg (iM w)) (u.vreg (iD w)) fun k => typedAdd (iT w) (vlane ((s.vctx c.val v.val x).vreg (iA w)) k) (vlane ((s.vctx c.val v.val x).vreg (iB w)) k))).flowTo
      c.val v.val x ((s.vctx c.val v.val x).pc + 4))) ∧
  (∀ (s₀ : State) (c : Fin 96) (v : Fin 2) (took : Nat) (bad : List Nat) (x w : Nat), s₀.Issues bad c.val v.val x 0x21 w → let s := s₀.vxTimed took c.val v.val x;
    exec (.vsub c v took bad) s₀ = .next ((s.modCtx c.val v.val x fun u => u.setV (iD w) (masked (u.mreg (iM w)) (u.vreg (iD w)) fun k => typedSub (iT w) (vlane ((s.vctx c.val v.val x).vreg (iA w)) k) (vlane ((s.vctx c.val v.val x).vreg (iB w)) k))).flowTo
      c.val v.val x ((s.vctx c.val v.val x).pc + 4))) ∧
  (∀ (s₀ : State) (c : Fin 96) (v : Fin 2) (took : Nat) (bad : List Nat) (x w : Nat), s₀.Issues bad c.val v.val x 0x22 w → let s := s₀.vxTimed took c.val v.val x;
    exec (.vmul c v took bad) s₀ = .next ((s.modCtx c.val v.val x fun u => u.setV (iD w) (masked (u.mreg (iM w)) (u.vreg (iD w)) fun k => typedMul (iT w) (vlane ((s.vctx c.val v.val x).vreg (iA w)) k) (vlane ((s.vctx c.val v.val x).vreg (iB w)) k))).flowTo
      c.val v.val x ((s.vctx c.val v.val x).pc + 4))) ∧
  (∀ (s₀ : State) (c : Fin 96) (v : Fin 2) (took : Nat) (bad : List Nat) (x w : Nat), s₀.Issues bad c.val v.val x 0x23 w → let s := s₀.vxTimed took c.val v.val x;
    exec (.vmac c v took bad) s₀ = .next ((s.modCtx c.val v.val x fun u => u.setV (iD w) (masked (u.mreg (iM w)) (u.vreg (iD w)) fun k => typedMac (iT w) (vlane ((s.vctx c.val v.val x).vreg (iD w)) k) (vlane ((s.vctx c.val v.val x).vreg (iA w)) k) (vlane ((s.vctx c.val v.val x).vreg (iB w)) k))).flowTo
      c.val v.val x ((s.vctx c.val v.val x).pc + 4))) ∧
  (∀ (s₀ : State) (c : Fin 96) (v : Fin 2) (took : Nat) (bad : List Nat) (x w : Nat), s₀.Issues bad c.val v.val x 0x24 w → let s := s₀.vxTimed took c.val v.val x;
    exec (.vmnx c v took bad) s₀ = .next ((s.modCtx c.val v.val x fun u => u.setV (iD w) (masked (u.mreg (iM w)) (u.vreg (iD w)) fun k => if w.testBit 0 = true then typedMax (iT w) (vlane ((s.vctx c.val v.val x).vreg (iA w)) k) (vlane ((s.vctx c.val v.val x).vreg (iB w)) k) else typedMin (iT w) (vlane ((s.vctx c.val v.val x).vreg (iA w)) k) (vlane ((s.vctx c.val v.val x).vreg (iB w)) k))).flowTo
      c.val v.val x ((s.vctx c.val v.val x).pc + 4))) ∧
  (∀ (s₀ : State) (c : Fin 96) (v : Fin 2) (took : Nat) (bad : List Nat) (x w : Nat), s₀.Issues bad c.val v.val x 0x25 w → let s := s₀.vxTimed took c.val v.val x;
    exec (.vlog c v took bad) s₀ = .next ((s.modCtx c.val v.val x fun u => u.setV (iD w) (masked (u.mreg (iM w)) (u.vreg (iD w)) fun k => logic (iF w) (vlane ((s.vctx c.val v.val x).vreg (iA w)) k) (vlane ((s.vctx c.val v.val x).vreg (iB w)) k))).flowTo
      c.val v.val x ((s.vctx c.val v.val x).pc + 4))) ∧
  (∀ (s₀ : State) (c : Fin 96) (v : Fin 2) (took : Nat) (bad : List Nat) (x w : Nat), s₀.Issues bad c.val v.val x 0x26 w → let s := s₀.vxTimed took c.val v.val x; bitsOf w 5 2 ≠ 3 →
    exec (.vshf c v took bad) s₀ = .next ((s.modCtx c.val v.val x fun u => u.setV (iD w) (masked (u.mreg (iM w)) (u.vreg (iD w)) fun k => (shift (iF w) (vlane ((s.vctx c.val v.val x).vreg (iA w)) k) (shiftBy (iF w) (vlane ((s.vctx c.val v.val x).vreg (iB w)) k))).getD 0)).flowTo
      c.val v.val x ((s.vctx c.val v.val x).pc + 4))) ∧
  (∀ (s₀ : State) (c : Fin 96) (v : Fin 2) (took : Nat) (bad : List Nat) (x w : Nat), s₀.Issues bad c.val v.val x 0x26 w → let s := s₀.vxTimed took c.val v.val x; bitsOf w 5 2 = 3 →
    exec (.vshf c v took bad) s₀ = .next (s.vxFault c.val v.val x 0x0520)) ∧
  (∀ (s₀ : State) (c : Fin 96) (v : Fin 2) (took : Nat) (bad : List Nat) (x w : Nat), s₀.Issues bad c.val v.val x 0x28 w → let s := s₀.vxTimed took c.val v.val x;
    exec (.vsel c v took bad) s₀ = .next ((s.modCtx c.val v.val x fun u => u.setV (iD w) (vecOf fun k =>
      if ((s.vctx c.val v.val x).mreg (iM w)).testBit k = true then vlane ((s.vctx c.val v.val x).vreg (iA w)) k
      else vlane ((s.vctx c.val v.val x).vreg (iB w)) k)).flowTo c.val v.val x ((s.vctx c.val v.val x).pc + 4)))

/-- What comparison, conversion, reduction and moves of a vector core write: When the context that issues has the instruction at its program
counter, the command answers a next state and the whole of it is given: VCMP writes the condition's bit of each lane whose mask bit is 1
into mask register D and leaves the others, an unsigned condition of FP32 taking its bits from a free value drawn for it; VCVT converts the
lanes of a group whose mask bit is 1 and leaves the rest of D; VRED writes the sum, or the minimum or maximum of at least one lane, of the
lanes that take part into scalar register D, and a free value where none does; VMOV moves, broadcasts, extracts, inserts, counts up, and
combines masks. Reserved conditions, formats, groups and indices fault with 0x0520. -/
def Obligations.VectorComparisonConversionAndMoves : Prop :=
  (∀ (s₀ : State) (c : Fin 96) (v : Fin 2) (took : Nat) (bad : List Nat) (x w : Nat), s₀.Issues bad c.val v.val x 0x27 w → let s := s₀.vxTimed took c.val v.val x; iF w % 8 ≤ 5 →
    let u := s.vctx c.val v.val x
    let free := decide (iT w = 2) && decide (4 ≤ iF w % 8)
    let fv : DWord := if free = true then Config.freeValue s.fresh else 0
    let t := if free = true then { s with fresh := s.fresh + 1 } else s
    exec (.vcmp c v took bad) s₀ = .next ((t.modCtx c.val v.val x fun y => y.setM (iD w % 8) (bits16 fun k =>
      if (u.mreg (iM w)).testBit k = true
      then (typedCond (iT w) (iF w % 8) (vlane (u.vreg (iA w)) k) (vlane (u.vreg (iB w)) k) (fv.toNat.testBit k)).getD false
      else (u.mreg (iD w % 8)).testBit k)).flowTo c.val v.val x ((s.vctx c.val v.val x).pc + 4))) ∧
  (∀ (s₀ : State) (c : Fin 96) (v : Fin 2) (took : Nat) (bad : List Nat) (x w : Nat), s₀.Issues bad c.val v.val x 0x27 w → let s := s₀.vxTimed took c.val v.val x; 5 < iF w % 8 →
    exec (.vcmp c v took bad) s₀ = .next (s.vxFault c.val v.val x 0x0520)) ∧
  (∀ (s₀ : State) (c : Fin 96) (v : Fin 2) (took : Nat) (bad : List Nat) (x w : Nat), ∀ (fs fd : Fmt), s₀.Issues bad c.val v.val x 0x29 w → let s := s₀.vxTimed took c.val v.val x; bitsOf w 4 4 ≠ 11 → bitsOf w 0 4 ≠ 11 → Fmt.ofCode (bitsOf w 4 4) = some fs → Fmt.ofCode (bitsOf w 0 4) = some fd →
    iB w < 32 / min fs.width fd.width →
    let u := s.vctx c.val v.val x
    let gs := if fs.width ≤ fd.width then iB w else 0
    let gd := if fd.width ≤ fs.width then iB w else 0
    exec (.vcvt c v took bad) s₀ = .next ((s.modCtx c.val v.val x fun y => y.setV (iD w) ((List.range 16).foldl (fun acc k =>
      if (u.mreg (iM w)).testBit k = true then setBits acc ((gd * 16 + k) * fd.width) fd.width
        (encodeFmt fd (decodeFmt fs (bitsOf (u.vreg (iA w)) ((gs * 16 + k) * fs.width) fs.width)))
      else acc) (u.vreg (iD w)))).flowTo c.val v.val x ((s.vctx c.val v.val x).pc + 4))) ∧
  (∀ (s₀ : State) (c : Fin 96) (v : Fin 2) (took : Nat) (bad : List Nat) (x w : Nat), s₀.Issues bad c.val v.val x 0x29 w → let s := s₀.vxTimed took c.val v.val x; bitsOf w 4 4 = 11 ∨ bitsOf w 0 4 = 11 →
    exec (.vcvt c v took bad) s₀ = .next (s.vxFault c.val v.val x 0x0520)) ∧
  (∀ (s₀ : State) (c : Fin 96) (v : Fin 2) (took : Nat) (bad : List Nat) (x w : Nat), s₀.Issues bad c.val v.val x 0x2A w → let s := s₀.vxTimed took c.val v.val x;
    let u := s.vctx c.val v.val x
    let ls := (List.range 16).map fun k => if (u.mreg (iM w)).testBit k = true then some (vlane (u.vreg (iA w)) k) else none
    let best := pairTree (if iF w % 4 = 1 then typedMin (iT w) else typedMax (iT w)) 4 ls
    (iF w % 4 = 0 → exec (.vred c v took bad) s₀ = .next ((s.modCtx c.val v.val x fun u => u.setS (iD w)
      ((pairTree (fun a b => typedAdd (iT w) a b % 2 ^ 32) 4 ls).getD 0)).flowTo c.val v.val x ((s.vctx c.val v.val x).pc + 4))) ∧
    (∀ n, (iF w % 4 = 1 ∨ iF w % 4 = 2) → best = some n →
      exec (.vred c v took bad) s₀ = .next ((s.modCtx c.val v.val x fun u => u.setS (iD w) n).flowTo c.val v.val x ((s.vctx c.val v.val x).pc + 4))) ∧
    ((iF w % 4 = 1 ∨ iF w % 4 = 2) → best = none → exec (.vred c v took bad) s₀ =
      .next ((State.modCtx { s with fresh := s.fresh + 1 } c.val v.val x fun u => u.setS (iD w) (Config.freeValue s.fresh).toNat).flowTo c.val v.val x ((s.vctx c.val v.val x).pc + 4))) ∧
    (iF w % 4 = 3 → exec (.vred c v took bad) s₀ = .next (s.vxFault c.val v.val x 0x0520))) ∧
  (∀ (s₀ : State) (c : Fin 96) (v : Fin 2) (took : Nat) (bad : List Nat) (x w : Nat), s₀.Issues bad c.val v.val x 0x2B w → let s := s₀.vxTimed took c.val v.val x; iF w % 8 = 0 →
    exec (.vmov c v took bad) s₀ = .next ((s.modCtx c.val v.val x fun u => u.setV (iD w) (masked (u.mreg (iM w)) (u.vreg (iD w)) fun k => vlane ((s.vctx c.val v.val x).vreg (iA w)) k)).flowTo
      c.val v.val x ((s.vctx c.val v.val x).pc + 4))) ∧
  (∀ (s₀ : State) (c : Fin 96) (v : Fin 2) (took : Nat) (bad : List Nat) (x w : Nat), s₀.Issues bad c.val v.val x 0x2B w → let s := s₀.vxTimed took c.val v.val x; iF w % 8 = 1 →
    exec (.vmov c v took bad) s₀ = .next ((s.modCtx c.val v.val x fun u => u.setV (iD w) (masked (u.mreg (iM w)) (u.vreg (iD w)) fun _ => (s.vctx c.val v.val x).sreg (iA w))).flowTo
      c.val v.val x ((s.vctx c.val v.val x).pc + 4))) ∧
  (∀ (s₀ : State) (c : Fin 96) (v : Fin 2) (took : Nat) (bad : List Nat) (x w : Nat), s₀.Issues bad c.val v.val x 0x2B w → let s := s₀.vxTimed took c.val v.val x; iF w % 8 = 2 → iB w ≤ 15 →
    exec (.vmov c v took bad) s₀ = .next ((s.modCtx c.val v.val x fun u => u.setS (iD w) (vlane ((s.vctx c.val v.val x).vreg (iA w)) (iB w))).flowTo c.val v.val x ((s.vctx c.val v.val x).pc + 4))) ∧
  (∀ (s₀ : State) (c : Fin 96) (v : Fin 2) (took : Nat) (bad : List Nat) (x w : Nat), s₀.Issues bad c.val v.val x 0x2B w → let s := s₀.vxTimed took c.val v.val x; iF w % 8 = 3 → iB w ≤ 15 →
    exec (.vmov c v took bad) s₀ = .next ((s.modCtx c.val v.val x fun u => u.setV (iD w) (masked (u.mreg (iM w)) (u.vreg (iD w)) fun k => if k = iB w then (s.vctx c.val v.val x).sreg (iA w) else vlane ((s.vctx c.val v.val x).vreg (iD w)) k)).flowTo
      c.val v.val x ((s.vctx c.val v.val x).pc + 4))) ∧
  (∀ (s₀ : State) (c : Fin 96) (v : Fin 2) (took : Nat) (bad : List Nat) (x w : Nat), s₀.Issues bad c.val v.val x 0x2B w → let s := s₀.vxTimed took c.val v.val x; iF w % 8 = 4 →
    exec (.vmov c v took bad) s₀ = .next ((s.modCtx c.val v.val x fun u => u.setV (iD w) (masked (u.mreg (iM w)) (u.vreg (iD w)) fun k => (s.vctx c.val v.val x).sreg (iA w) + k)).flowTo
      c.val v.val x ((s.vctx c.val v.val x).pc + 4))) ∧
  (∀ (s₀ : State) (c : Fin 96) (v : Fin 2) (took : Nat) (bad : List Nat) (x w : Nat), s₀.Issues bad c.val v.val x 0x2B w → let s := s₀.vxTimed took c.val v.val x; iF w % 8 = 5 →
    exec (.vmov c v took bad) s₀ = .next ((s.modCtx c.val v.val x fun u => u.setM (iD w % 8) ((s.vctx c.val v.val x).mreg (iA w % 8) &&& (s.vctx c.val v.val x).mreg (iB w % 8))).flowTo c.val v.val x ((s.vctx c.val v.val x).pc + 4))) ∧
  (∀ (s₀ : State) (c : Fin 96) (v : Fin 2) (took : Nat) (bad : List Nat) (x w : Nat), s₀.Issues bad c.val v.val x 0x2B w → let s := s₀.vxTimed took c.val v.val x; iF w % 8 = 6 →
    exec (.vmov c v took bad) s₀ = .next ((s.modCtx c.val v.val x fun u => u.setM (iD w % 8) (0xFFFF - (s.vctx c.val v.val x).mreg (iA w % 8))).flowTo c.val v.val x ((s.vctx c.val v.val x).pc + 4))) ∧
  (∀ (s₀ : State) (c : Fin 96) (v : Fin 2) (took : Nat) (bad : List Nat) (x w : Nat), s₀.Issues bad c.val v.val x 0x2B w → let s := s₀.vxTimed took c.val v.val x; iF w % 8 = 7 →
    exec (.vmov c v took bad) s₀ = .next ((s.modCtx c.val v.val x fun u => u.setM (iD w % 8) ((s.vctx c.val v.val x).sreg (iA w))).flowTo c.val v.val x ((s.vctx c.val v.val x).pc + 4))) ∧
  (∀ (s₀ : State) (c : Fin 96) (v : Fin 2) (took : Nat) (bad : List Nat) (x w : Nat), s₀.Issues bad c.val v.val x 0x2B w → let s := s₀.vxTimed took c.val v.val x; (iF w % 8 = 2 ∨ iF w % 8 = 3) ∧ 15 < iB w →
    exec (.vmov c v took bad) s₀ = .next (s.vxFault c.val v.val x 0x0520))

/-- What the event, step, update and CSR instructions of a vector core do: When the context that issues has the instruction at its program
counter, and where it need not wait, the command answers a next state and the whole of it is given: EMIT with a scalar pair hands its record
to the emit port of a bound group that has not ended its step while the port holds fewer than 16; IBPOP takes up to four flits off the
in-band queue, their words going to the first lanes of D and free values to the others, and writes their number; SWAIT on a group that is
not halted takes its step when it lies ahead of register D, or passes when the step it names is harvested; SDONE ends an open step of a
bound group once, noting the transfers still out, and otherwise counts in VX_ELATE; WUPD updates the codes whose mask bit is 1 and writes
the small ones into mask 7; VRAND writes its pseudo-random lanes; CSRR and CSRW read and write the CSRs. -/
def Obligations.EventStepAndStateInstructions : Prop :=
  (∀ (s₀ : State) (c : Fin 96) (v : Fin 2) (took : Nat) (bad : List Nat) (x w : Nat), ∀ g, s₀.Issues bad c.val v.val x 0x30 w → let s := s₀.vxTimed took c.val v.val x; w.testBit 0 = false → iA w % 2 = 0 → (s.vctx c.val v.val x).emitted = 0 →
    let r := (s.vctx c.val v.val x).sreg (iA w + 1) * 2 ^ 32 + (s.vctx c.val v.val x).sreg (iA w)
    s.groupOf (bitsOf r 41 14) = some g → s.vxBound c.val v.val g = true → (s.vxOpen c.val v.val g = true → (s.getEng c.val v.val).sdone.contains g = false) →
    (s.getEng c.val v.val).emitq.length < 16 →
    exec (.emit c v took bad) s₀ = .next (((((s.modEng c.val v.val fun e => { e with emitq := e.emitq ++ [BitVec.ofNat 64 r] }).bump .VX_EMITS [c.val, v.val]).modCtx
      c.val v.val x fun y => { y with emitted := 0 })).flowTo c.val v.val x ((s.vctx c.val v.val x).pc + 4))) ∧
  (∀ (s₀ : State) (c : Fin 96) (v : Fin 2) (took : Nat) (bad : List Nat) (x w : Nat), s₀.Issues bad c.val v.val x 0x31 w → let s := s₀.vxTimed took c.val v.val x;
    let q := (s.getEng c.val v.val).ibq
    let n := min 4 q.length
    (w.testBit 0 = false ∨ q ≠ []) →
    let t := (s.modEng c.val v.val fun e => { e with ibq := e.ibq.drop n }).setVal .SY_IBQ_STATUS [c.val, v.val] (q.length - n)
    let r := t.drawLanes (16 - 4 * n)
    exec (.ibpop c v took bad) s₀ = .next (((r.2.modCtx c.val v.val x fun u => u.setV (iD w) (masked (u.mreg (iM w)) (u.vreg (iD w)) fun k =>
      if k < 4 * n then bitsOf ((q.getD (k / 4) 0).toNat) (32 * (k % 4)) 32 else r.1.getD (k - 4 * n) 0)).modCtx c.val v.val x fun u => u.setS (iA w) n).flowTo
      c.val v.val x ((s.vctx c.val v.val x).pc + 4))) ∧
  (∀ (s₀ : State) (c : Fin 96) (v : Fin 2) (took : Nat) (bad : List Nat) (x w : Nat), s₀.Issues bad c.val v.val x 0x32 w → let s := s₀.vxTimed took c.val v.val x;
    let g := (s.vctx c.val v.val x).sreg (iA w)
    let t := s.modVx c.val v.val fun y => { y with swg := g + 1 }
    let st := s.val .WG_STEP [g] % 2 ^ 32
    let d := (st + 2 ^ 32 - (s.vctx c.val v.val x).sreg (iD w)) % 2 ^ 32
    (g < 256 → s.wgState g ≠ wsHalted) →
    (w.testBit 0 = true → ((s.getWg g).last + 2 ^ 32 - (s.vctx c.val v.val x).sreg (iD w)) % 2 ^ 32 < 2 ^ 31 →
      exec (.swait c v took bad) s₀ = .next (t.flowTo c.val v.val x ((s.vctx c.val v.val x).pc + 4))) ∧
    (w.testBit 0 = false → g < 256 → t.vxOpen c.val v.val g = true → d ≠ 0 → d < 2 ^ 31 →
      exec (.swait c v took bad) s₀ = .next ((t.modCtx c.val v.val x fun u => u.setS (iD w) st).flowTo c.val v.val x ((s.vctx c.val v.val x).pc + 4)))) ∧
  (∀ (s₀ : State) (c : Fin 96) (v : Fin 2) (took : Nat) (bad : List Nat) (x w : Nat), s₀.Issues bad c.val v.val x 0x33 w → let s := s₀.vxTimed took c.val v.val x;
    let g := (s.vctx c.val v.val x).sreg (iA w)
    exec (.sdone c v took bad) s₀ = .next (State.flowTo (if s.vxBound c.val v.val g = true ∧ s.vxOpen c.val v.val g = true ∧ (s.getEng c.val v.val).sdone.contains g = false
      then (s.modEng c.val v.val fun e => { e with sdone := e.sdone ++ [g] }).modVx c.val v.val fun u =>
        { u with before := (u.before.filter fun y => y.1 != g) ++ u.out.map fun k => (g, k) }
      else s.bump .VX_ELATE [c.val, v.val]) c.val v.val x ((s.vctx c.val v.val x).pc + 4))) ∧
  (∀ (s₀ : State) (c : Fin 96) (v : Fin 2) (took : Nat) (bad : List Nat) (x w : Nat), s₀.Issues bad c.val v.val x 0x34 w → let s := s₀.vxTimed took c.val v.val x;
    let u := s.vctx c.val v.val x
    let y := s.getVx c.val v.val
    let f := wfmtOf (iF w % 8)
    let code (k : Nat) : Nat :=
      if (u.mreg (iM w)).testBit k = true then updateCode f (bitsOf (u.vreg (iB w)) (8 * k) 8) (sext 32 (vlane (u.vreg (iA w)) k))
        (bitsOf y.lrate.toNat 0 16) (bitsOf y.lrate.toNat 16 5) (sext 16 (bitsOf y.wbound.toNat 0 16)) (sext 16 (bitsOf y.wbound.toNat 16 16))
      else bitsOf (u.vreg (iB w)) (8 * k) 8
    (iF w % 8 ≤ 4 → exec (.wupd c v took bad) s₀ = .next ((s.modCtx c.val v.val x fun z =>
      (z.setV (iD w) ((List.range 16).map fun k => code k % 256 * 2 ^ (8 * k)).sum).setM 7
        (bits16 fun k => decide ((units9 f (code k)).natAbs < y.pth.toNat * 8))).flowTo c.val v.val x ((s.vctx c.val v.val x).pc + 4))) ∧
    (4 < iF w % 8 → exec (.wupd c v took bad) s₀ = .next (s.vxFault c.val v.val x 0x0520))) ∧
  (∀ (s₀ : State) (c : Fin 96) (v : Fin 2) (took : Nat) (bad : List Nat) (x w : Nat), s₀.Issues bad c.val v.val x 0x35 w → let s := s₀.vxTimed took c.val v.val x;
    exec (.vrand c v took bad) s₀ = .next ((s.modCtx c.val v.val x fun u => u.setV (iD w) (masked (u.mreg (iM w)) (u.vreg (iD w)) fun k => vrand (s.getVx c.val v.val).seed.toNat ((s.vctx c.val v.val x).sreg (iA w) + k) ((s.vctx c.val v.val x).sreg (iB w)))).flowTo
      c.val v.val x ((s.vctx c.val v.val x).pc + 4))) ∧
  (∀ (s₀ : State) (c : Fin 96) (v : Fin 2) (took : Nat) (bad : List Nat) (x w : Nat), ∀ cycles : Nat, s₀.Issues bad c.val v.val x 0x36 w → let s := s₀.vxTimed took c.val v.val x;
    (iImm w = 0 → exec (.csrr c v took bad cycles) s₀ = .next (((s.modVx c.val v.val fun u => { u with cycleh := BitVec.ofNat 32 (cycles / 2 ^ 32) }).modCtx
      c.val v.val x fun u => u.setS (iD w) cycles).flowTo c.val v.val x ((s.vctx c.val v.val x).pc + 4))) ∧
    (iImm w = 0x001 → exec (.csrr c v took bad cycles) s₀ = .next ((s.modCtx c.val v.val x fun u => u.setS (iD w) ((s.getVx c.val v.val).cycleh.toNat)).flowTo c.val v.val x ((s.vctx c.val v.val x).pc + 4))) ∧
    (iImm w = 0x002 → exec (.csrr c v took bad cycles) s₀ = .next ((s.modCtx c.val v.val x fun u => u.setS (iD w) (c.val * 2 ^ 7 + 16 + v.val)).flowTo c.val v.val x ((s.vctx c.val v.val x).pc + 4))) ∧
    (iImm w = 0x004 → exec (.csrr c v took bad cycles) s₀ = .next ((s.modCtx c.val v.val x fun u => u.setS (iD w) ((s.getVx c.val v.val).seed.toNat)).flowTo c.val v.val x ((s.vctx c.val v.val x).pc + 4))) ∧
    (iImm w = 0x010 → exec (.csrr c v took bad cycles) s₀ = .next ((s.modCtx c.val v.val x fun u => u.setS (iD w) ((s.getVx c.val v.val).lrate.toNat)).flowTo c.val v.val x ((s.vctx c.val v.val x).pc + 4))) ∧
    (iImm w = 0x011 → exec (.csrr c v took bad cycles) s₀ = .next ((s.modCtx c.val v.val x fun u => u.setS (iD w) ((s.getVx c.val v.val).wbound.toNat)).flowTo c.val v.val x ((s.vctx c.val v.val x).pc + 4))) ∧
    (iImm w = 0x012 → exec (.csrr c v took bad cycles) s₀ = .next ((s.modCtx c.val v.val x fun u => u.setS (iD w) ((s.getVx c.val v.val).pth.toNat)).flowTo c.val v.val x ((s.vctx c.val v.val x).pc + 4))) ∧
    (iImm w = 0x020 → exec (.csrr c v took bad cycles) s₀ = .next ((s.modCtx c.val v.val x fun u => u.setS (iD w) (if x = 1 then (s.getVx c.val v.val).stage else 0)).flowTo c.val v.val x ((s.vctx c.val v.val x).pc + 4)))) ∧
  (∀ (s₀ : State) (c : Fin 96) (v : Fin 2) (took : Nat) (bad : List Nat) (x w : Nat), s₀.Issues bad c.val v.val x 0x37 w → let s := s₀.vxTimed took c.val v.val x;
    (iImm w = 0x004 → exec (.csrw c v took bad) s₀ = .next ((s.modVx c.val v.val fun y => { y with seed := BitVec.ofNat 32 ((s.vctx c.val v.val x).sreg (iA w)) }).flowTo c.val v.val x ((s.vctx c.val v.val x).pc + 4))) ∧
    (iImm w = 0x010 → exec (.csrw c v took bad) s₀ = .next ((s.modVx c.val v.val fun y => { y with lrate := BitVec.ofNat 32 ((s.vctx c.val v.val x).sreg (iA w) % 2 ^ 21) }).flowTo c.val v.val x ((s.vctx c.val v.val x).pc + 4))) ∧
    (iImm w = 0x011 → exec (.csrw c v took bad) s₀ = .next ((s.modVx c.val v.val fun y => { y with wbound := BitVec.ofNat 32 ((s.vctx c.val v.val x).sreg (iA w)) }).flowTo c.val v.val x ((s.vctx c.val v.val x).pc + 4))) ∧
    (iImm w = 0x012 → exec (.csrw c v took bad) s₀ = .next ((s.modVx c.val v.val fun y => { y with pth := BitVec.ofNat 32 ((s.vctx c.val v.val x).sreg (iA w) % 2 ^ 16) }).flowTo c.val v.val x ((s.vctx c.val v.val x).pc + 4))))

/-- When a vector core faults instead of issuing: Whatever instruction is commanded, a context that issues with a program counter that is
not a word of the local store faults with 0x0521, at an uncorrectable word with 0x0525, and at a word whose opcode is none of the forty with
0x0520; and a fault of context 0 records the code in VX_STATUS.REASON, the address and context in VX_FPC, counts it, stops context 0 and
halts its bound groups at their next harvest with 0x0581. Stated for SADD, BC and VADD as the commanded instruction. -/
def Obligations.VectorCoresFaultOnWhatTheyCannotIssue : Prop :=
  ∀ (s : State) (c : Fin 96) (v : Fin 2) (took : Nat) (bad : List Nat) (x : Nat) (i : Instr),
    (i = .sadd c v took bad ∨ i = .bc c v took bad ∨ i = .vadd c v took bad) →
    s.vxActive c.val v.val = some x →
    let pc := (s.vctx c.val v.val x).pc
    let w := s.peekLE (vcAddr c.val v.val pc) 4
    ((pc % 4 ≠ 0 ∨ 0x20000 ≤ pc) → exec i s = .next ((s.vxTimed took c.val v.val x).vxFault c.val v.val x 0x0521)) ∧
    (pc % 4 = 0 → pc < 0x20000 → badIn bad (vcAddr c.val v.val pc) 4 = true → exec i s = .next ((s.vxTimed took c.val v.val x).vxFault c.val v.val x 0x0525)) ∧
    (pc % 4 = 0 → pc < 0x20000 → badIn bad (vcAddr c.val v.val pc) 4 = false → iOp w ∉ vxOps → exec i s = .next ((s.vxTimed took c.val v.val x).vxFault c.val v.val x 0x0520)) ∧
    (∀ code, s.vxFault c.val v.val 0 code =
      (let u := (s.setFld .VX_STATUS [c.val, v.val] VX_STATUS_REASON code).setVal .VX_FPC [c.val, v.val] ((s.getVx c.val v.val).c0.pc % 2 ^ 17 / 4 * 4)
       let u := (u.bump .VX_FAULTS [c.val, v.val]).setFld .VX_STATUS [c.val, v.val] VX_STATUS_STATE vxFaulted
       u.each (u.vxGroups c.val v.val) fun u g => u.haltAtHarvest g 0x0581))

/-- What the routing, injection, spill and golden commands of the event mesh do: Where the rule's conditions hold, each command answers a
next state and the whole of it is given: the one flit of the injection queue, for another cluster, leaves on its first free productive port,
counted as injected and in EF_INJ; in a fabric cycle every router of the half takes the flits at its inputs, with their errors applied, and
allocates its outputs: a single flit is forwarded on its first free productive port, deflected to the lowest free mesh port with AGE one
more when its productive ports are not free, or, at its destination and sound, handed to the delivery stage and counted in EF_EJ; the one
flit of the spill leaves it for a queue that has room; a golden scan outside a period ORs and clears the old-source vectors and starts a
period for the next marked cluster, or none; and the end of a period clears it. -/
def Obligations.RouterCommandsHaveTheirEffects : Prop :=
  (∀ (s : State) (c : Fin 96) (m : MFlit) (p : Nat), (s.getRt c.val).injDone = false → (∀ k, k < 20 → s.engineOut c.val k = []) →
    s.isHole c.val = false → (s.getRt c.val).injq = [m] → (s.getRt c.val).spill = [] → (s.getRt c.val).ovf = [] →
    s.golden (halfOf c.val) ≠ some c.val → fDY m.f < 6 → m.rw = true → atDest c.val m.f = false →
    let u := (s.modRt c.val fun r => { r with injDone := true }).noteBusy c.val (productive c.val m.f)
    let v := (u.modRt c.val fun r => { r with injq := [] }).injected c.val m.f
    u.transitAbsorb c.val m.f = none → (productive c.val m.f).find? (u.portOpen c.val) = some p →
    exec (.flitInject c) s = .next ((v.bump .EF_INJ [c.val]).sendProd c.val p m)) ∧
  (∀ (s : State) (h : Fin 2) (errs : List FlitErr), exec (.flitRoute h errs) s = .next (
    let work := (halfClusters' h.val).map fun c => (c, s.heads errs c)
    let u := s.each (halfClusters' h.val) fun s c => s.modRt c fun r =>
      { r with inN := none, inE := none, inS := none, inW := none, used := [], ej := 0, injDone := false, relDone := false, busy := false }
    u.each work fun s x => if (s.getRt x.1).hole = true ∨ 3 ≤ (s.getRt x.1).reset then s else s.routeOne x.1 x.2)) ∧
  (∀ (s : State) (c : Fin 96) (port : Fin 4) (m : MFlit), s.transitAbsorb c.val m.f = none →
    (atDest c.val m.f = false →
      let u := s.noteBusy c.val (productive c.val m.f)
      (∀ p, (productive c.val m.f).find? (u.portOpen c.val) = some p → s.routeOne c.val [(port.val, m)] = u.sendProd c.val p m) ∧
      (∀ q, (productive c.val m.f).find? (u.portOpen c.val) = none → (List.range 4).find? (u.portOpen c.val) = some q →
        let m' : MFlit := { m with f := Flit.put m.f 112 6 (min 63 (fAge m.f + 1)) }
        s.routeOne c.val [(port.val, m)] =
          (((u.markOld c.val m.f).bump .EF_DEFL [c.val]).trace c.val m'.f 1 (coordOf c.val 0) (q + 4)).sendPort c.val q m')) ∧
    (atDest c.val m.f = true → checkFlit m.f = ⟨m.f, false, false⟩ → (s.getRt c.val).ej < 2 →
      let w := s.setFld .EF_STATUS [c.val] EF_STATUS_AGEMAX (max (s.fld .EF_STATUS [c.val] EF_STATUS_AGEMAX) (fAge m.f))
      s.ejectCheck c.val m = 0 → s.queueRoom c.val m.f = true →
      s.routeOne c.val [(port.val, m)] = ((((w.trace c.val m.f 2 (coordOf c.val (fDC m.f)) 0).modRt c.val
        fun r => { r with dlv := r.dlv ++ [m] }).bump .EF_EJ [c.val]).modRt c.val fun r => { r with ej := r.ej + 1 }))) ∧
  (∀ (s : State) (c : Fin 96) (m : MFlit), (s.getRt c.val).relDone = false → (s.getRt c.val).spill = [m] → atDest c.val m.f = true →
    let u := s.modRt c.val fun r => { r with relDone := true }
    u.fencedEng c.val (fDC m.f) = false → u.queueRoom c.val m.f = true →
    exec (.spillRelease c) s = .next
      (((u.modRt c.val fun r => { r with spill := [] }).noteSpill c.val).modRt c.val fun r => { r with dlv := r.dlv ++ [m] })) ∧
  (∀ (s : State) (h : Fin 2), s.bit .EF_GOLD [0] EF_GOLD_EN = true → s.isSplit = false → s.golden h.val = none →
    let v := (List.range 96).foldl (fun v c => v ||| (s.getRt c).old) 0
    let u := s.each (List.range 96) fun s c => s.modRt c fun r => { r with old := 0 }
    (nextGolden v (s.fld .EF_GOLDSTAT [0] EF_GOLDSTAT_ID) 0 96 = none → exec (.goldenScan h) s = .next u) ∧
    (∀ g, nextGolden v (s.fld .EF_GOLDSTAT [0] EF_GOLDSTAT_ID) 0 96 = some g → exec (.goldenScan h) s = .next
      (((((u.modHf 0 fun x => { x with gold := g + 1 }).modHf 1 fun x => { x with gold := g + 1 }).setFld .EF_GOLDSTAT [0] EF_GOLDSTAT_ID
        g).setFld .EF_GOLDSTAT [0] EF_GOLDSTAT_ACTIVE 1).setFld .EF_STATUS [g] EF_STATUS_GOLDEN 1))) ∧
  (∀ (s : State) (h : Fin 2) (g : Nat), s.isSplit = false → s.golden h.val = some g →
    exec (.goldenPeriodEnd h) s = .next ((((s.modHf 0 fun x => { x with gold := 0 }).modHf 1 fun x => { x with gold := 0 }).setFld
      .EF_GOLDSTAT [0] EF_GOLDSTAT_ACTIVE 0).setFld .EF_STATUS [g] EF_STATUS_GOLDEN 0))

/-- What the fence, remap and fabric-reset commands of the event mesh do: Where the rule's conditions hold, each command answers a next
state and the whole of it is given: a steward's write of EF_FENCE fences every engine it names that is not fenced, and any other writer's is
dropped with 0x0704; EN = 1 of a remap entry stores it and asks for its check, EN = 0 clears EN at once; a steward's FRESET, and an
uncorrectable error in a router table, ask for the suspension of the schedules with a field at the node; a node without flits, marked as a
hole, resets its router; a self-check that passes leaves it waiting for the reload of its tables, one that fails makes it a permanent hole,
with its engines fenced and their messages and grants ended; and the clearing of the hole makes the node usable and lets those schedules
resume. -/
def Obligations.FenceRemapAndFabricResetCommandsHaveTheirEffects : Prop :=
  (∀ (s : State) (req : Requester) (c : Fin 96) (v : Word), s.Reached req .EF_FENCE [c.val] →
    exec (.efFenceWrite req c v) s = .next (match req with
      | .steward _ => s.each ((List.range 19).filter fun k => v.toNat.testBit k && !s.fencedEng c.val k) fun s k => s.fenceAt c.val k
      | _ => s.post (s.partOfCluster c.val) 9 c.val c.val 0x0704)) ∧
  (∀ (s : State) (req : Requester) (n : Fin 16) (v : Word), s.Reached req .EF_REMAP [0, n.val] → s.checking (.remap n.val) = false →
    s.bit .EF_REMAP [0, n.val] EF_REMAP_EN = false →
    exec (.remapEnable req n v) s = .next (((s.store .EF_REMAP [0, n.val] (withTop v true)).setFld .EF_REMAP [0, n.val] EF_REMAP_EN
      0).askCheck (.remap n.val) (withTop v true) none)) ∧
  (∀ (s : State) (req : Requester) (n : Fin 16) (v : Word), s.Reached req .EF_REMAP [0, n.val] → s.checking (.remap n.val) = false →
    s.bit .EF_REMAP [0, n.val] EF_REMAP_EN = true →
    exec (.remapDisable req n v) s = .next (s.setFld .EF_REMAP [0, n.val] EF_REMAP_EN 0)) ∧
  (∀ (s : State) (c : Fin 96), (s.getRt c.val).hole = false → (s.getRt c.val).reset = 0 →
    let u := s.modRt c.val fun r => { r with reset := 1 }
    let t := u.each (List.range 64) fun s n =>
      if (s.getSch n).hasNode c.val then s.modSch n fun x => { x with susp := x.susp ++ [c.val] } else s
    (∀ east, s.Reached (.steward east) .EF_CTRL [c.val] → exec (.freset (.steward east) c) s = .next t) ∧
    exec (.routerTableEccError c) s = .next t) ∧
  (∀ (s : State) (c : Fin 96), (s.getRt c.val).reset = 2 → (∀ q, (s.getRt c.val).input q = none) →
    exec (.fabricResetDrainEnd c) s = .next (s.modRt c.val fun r => { r with reset := 3, old := 0 })) ∧
  (∀ (s : State) (c : Fin 96), (s.getRt c.val).reset = 3 →
    exec (.fabricResetSelfcheckDone c true) s = .next (s.modRt c.val fun r => { r with reset := 4 }) ∧
    exec (.fabricResetSelfcheckDone c false) s = .next (
      let u := ((s.modRt c.val fun r => { r with reset := 0, hole := true }).setFld .EF_STATUS [c.val] EF_STATUS_STATE 2).fenceCluster c.val
      let u := u.each (u.groupsIn c.val) fun s g => s.haltAtHarvest g 0x0781
      let u := u.each (List.range 64) fun s n =>
        if (s.getSch n).hasNode c.val then
          ((s.setFld .TL_SSTAT [0, n] TL_SSTAT_STATE 5).setFld .TL_SSTAT [0, n] TL_SSTAT_REASON 0x0813).modSch n fun x =>
            { x with susp := x.susp.filter (· != c.val) }
        else s
      let u := (u.mqDown c.val none).arbDrop fun e => decide (e / 8 = c.val)
      u.each (u.xfer.filter fun y => y.2.live && u.circuitBroken y.2) fun s y => s.xferFail y.1 (y.2.seamCode (s.brokenCode y.2.ep)) y.2.failAt)) ∧
  (∀ (s : State) (c : Fin 96), (s.getRt c.val).reset = 4 →
    exec (.holeClear c) s = .next (
      let u := ((s.modRt c.val fun r => { r with reset := 0 }).setFld .EF_STATUS [c.val] EF_STATUS_STATE 0).noteHole c.val false
      u.each (List.range 64) fun s n => s.modSch n fun x => { x with susp := x.susp.filter (· != c.val) }))

/-- What the commands of schedules, frames and halves do: Where the rule's conditions hold, each command answers a next state and the whole
of it is given: EN = 1 stores the fields of a disabled schedule, leaves EN at 0 and asks for the check; EN = 0 puts a loading, active,
suspended or broken schedule into DRAINING, in which the endpoints of one that was not ACTIVE send nothing; the end of the drain, with none
of its beats in the seam, removes its fields from the tables, its load from the seam and its state, and fails the transfers left without a
circuit; QUIESCE and RESUME are noted for the next boundary; and a frame boundary counts the frame, suspends or resumes the half's schedules
as commanded, and lets each schedule take its step: a loaded one swaps the tables of the half's nodes, one that has swapped becomes ACTIVE,
one suspended in the half becomes SUSPENDED, one suspended nowhere becomes ACTIVE, and a draining one has its boundary; then the half is
quiet or not, a resume taking effect at the first boundary that finds the half's hold buffer empty, and the holes of fabric resets are
marked. -/
def Obligations.ScheduleCommandsHaveTheirEffects : Prop :=
  (∀ (s : State) (req : Requester) (n : Fin 64) (v : Word), s.Reached req .TL_SCFG [0, n.val] →
    s.deviceUnitCode req false (s.fld .TL_SCFG [0, n.val] TL_SCFG_PART) (some (bitsOf (withEn v true) 2 3)) = 0 →
    s.schState n.val = 0 → s.checking (.sched n.val) = false → s.bit .TL_SCFG [0, n.val] TL_SCFG_EN = false →
    exec (.scheduleEnable req n v) s = .next (((s.store .TL_SCFG [0, n.val] (withEn v true)).setFld .TL_SCFG [0, n.val] TL_SCFG_EN
      0).askCheck (.sched n.val) (withEn v true) none)) ∧
  (∀ (s : State) (req : Requester) (n : Fin 64) (v : Word), s.Reached req .TL_SCFG [0, n.val] →
    s.deviceUnitCode req true (s.fld .TL_SCFG [0, n.val] TL_SCFG_PART) (some (bitsOf (withEn v false) 2 3)) = 0 →
    s.schState n.val ≠ 0 → s.schState n.val ≠ 4 → s.checking (.sched n.val) = false → s.bit .TL_SCFG [0, n.val] TL_SCFG_EN = true →
    exec (.scheduleDisable req n v) s = .next (((s.setFld .TL_SCFG [0, n.val] TL_SCFG_EN 0).setSch n.val 4).modSch n.val fun x =>
      { x with mark := 0, todo := [], swapW := s.schState n.val != 2, swapE := s.schState n.val != 2 })) ∧
  (∀ (s : State) (n : Fin 64), s.schState n.val = 4 → (s.getSch n.val).mark = 3 → s.loadBusy n.val = false →
    s.seamHolds (s.getSch n.val).cross = false →
    exec (.scheduleDrainComplete n) s = .next (
      let x := s.getSch n.val
      let u := s.copyTables x.clusters x.endpoints
      let u : State := { u with slotB := x.mine.foldl clearSlot u.slotB, smapB := x.mine.foldl clearSmap u.smapB }
      let u := u.swapTables x.clusters x.endpoints
      let u := u.each x.cross fun s y => s.setVal (loadReg y.dir) [] (s.val (loadReg y.dir) [] - y.count)
      let u := (u.modSch n.val fun _ => {}).setFld .TL_SSTAT [0, n.val] TL_SSTAT_STATE 0
      u.each (u.xfer.filter fun y => y.2.live && (x.endpoints.contains y.2.ep || y.2.pieces.any fun p => x.endpoints.contains p.tgt)) fun s y =>
        if s.circuitGone y.2 = true then s.xferFail y.1 0x0811 y.2.failAt else s)) ∧
  (∀ (s : State) (h : Fin 2),
    exec (.quiesce h) s = .next (s.modHf h.val fun x => { x with quiesce := true, resume := false }) ∧
    exec (.resume h) s = .next (s.modHf h.val fun x => { x with resume := true, quiesce := false })) ∧
  (∀ (s : State) (h : Nat), s.resumes h = ((s.getHf h).resume && (s.getSdir h).hold == [])) ∧
  (∀ (s : State) (h : Fin 2), exec (.frameBoundary h) s = .next (
    let u := s.bump .TL_FRAME [h.val * 48]
    let u := if (u.getHf h.val).quiesce = true then
        u.each (List.range 64) fun s n =>
          if (s.getSch n).halves.contains h.val = true then s.modSch n fun x => { x with susp := nodups (x.susp ++ [1000 + h.val]) } else s
      else if u.resumes h.val = true then
        u.each (List.range 64) fun s n => s.modSch n fun x => { x with susp := x.susp.filter (· != 1000 + h.val) }
      else u
    let u := u.each (List.range 64) fun s n => s.schedFrame h.val n
    let mine := (List.range 48).map fun i => h.val * 48 + i
    let u := if (u.getHf h.val).quiesce = true then u.each mine fun s c => s.setFld .TL_STATUS [c] TL_STATUS_QUIET 1
      else if u.resumes h.val = true then u.each mine fun s c => s.setFld .TL_STATUS [c] TL_STATUS_QUIET 0 else u
    let u := u.each mine fun s c => s.fresetMark c
    (u.modHf h.val fun x => { x with quiesce := false, resume := (u.getHf h.val).resume && !u.resumes h.val }).modSdir h.val fun x =>
      { x with thr := if x.thr > 1 then x.thr - 1 else x.thr })) ∧
  (∀ (s : State) (h : Fin 2) (n : Fin 64),
    let x := s.getSch n.val
    let here := x.clusters.filter fun c => halfOf c == h.val
    let swapped := if h.val = 0 then x.swapW else x.swapE
    let y : Sch := if h.val = 0 then { x with swapW := true } else { x with swapE := true }
    (s.schState n.val = 0 ∨ s.schState n.val = 5 → s.schedFrame h.val n.val = s) ∧
    (s.schState n.val = 1 → x.mark ≠ 2 → x.todo = [] → s.schedFrame h.val n.val =
      (if swapped = true then s else (s.swapTables here (x.endpoints.filter fun e => epHalf e == h.val)).remask).modSch n.val fun _ =>
        { y with mark := if y.swapW = true ∧ y.swapE = true then 2 else 1 }) ∧
    (s.schState n.val = 1 → x.mark = 2 → s.schedFrame h.val n.val = (s.setFld .TL_SSTAT [0, n.val] TL_SSTAT_STATE 2).modSch n.val fun x =>
      { x with susp := nodups (x.susp ++ (x.halves.filter s.isQuiet).map (1000 + ·)) }) ∧
    (s.schState n.val = 2 → x.susp.any (fun k => suspHalf k == h.val) = true →
      s.schedFrame h.val n.val = s.setFld .TL_SSTAT [0, n.val] TL_SSTAT_STATE 3) ∧
    (s.schState n.val = 3 → x.susp = [] → s.schedFrame h.val n.val = s.setFld .TL_SSTAT [0, n.val] TL_SSTAT_STATE 2) ∧
    (s.schState n.val = 4 → s.schedFrame h.val n.val = s.modSch n.val fun _ =>
      { y with mark := if x.halves.all (fun k => if k = 0 then y.swapW else y.swapE) = true then 3 else 0 }))

/-- What the pieces and beats of a trellis transfer do: Where the rule's conditions hold, each command answers a next state and the whole of
it is given: the next piece of a transfer goes out, up to the next boundary between targets, in a slot of a circuit to its target; with no
circuit, or no target, the transfer fails with 0x0811 or 0x0812; a request without a circuit for its answer is discarded, one that its
target accepts starts its piece, a granted one at an arbiter takes an entry, and one out of reach is refused with its code; an error-free
data beat that its circuit carries to the other end in one go moves 64 bytes there; the last beat of a read, or the carried acknowledgement
of a write, ends the piece, gives its grant back, and ends a transfer that has none left, a matrix core's being free at once; and a refused
piece, its refusal carried, backs off for twice as long where the refusal is the arbiter's, and fails its transfer with any other code. -/
def Obligations.TransferCommandsHaveTheirEffects : Prop :=
  (∀ (s : State) (at' : XferAt) (slot : Fin 1024),
    let key := xferKey at'
    let x := s.getXfer key
    let a := x.nextAt
    let ts := s.nextTo x
    s.mayIssue key = true → x.handle = 0 → ts ≠ [keepEnd] →
    (∀ t, s.circuitTo x.svc x.ep ts = 1 → ts.find? (fun t => s.slotTo x.svc x.ep slot.val t && !s.dataOwed x.ep t) = some t → x.ep ≠ keepEnd → t ≠ keepEnd →
      exec (.trellisPieceIssue at' slot) s = .next (
        let p : Piece := { a := a, n := pieceLen a (x.len - x.issued), tgt := t, ret := x.ret.1, rv := x.ret.2 }
        let r := s.launch x.ep t slot.val (mkBeat 1 (key % 32) (requestBytes a x.ep p.n (if x.write = true then 1 else 0) x.ret.1 x.ret.2)) key a
        r.1.modXfer key fun y => { y with issued := y.issued + p.n, pieces := y.pieces ++ [{ p with fly := r.2 }] })) ∧
    (s.circuitTo x.svc x.ep ts = 2 → exec (.trellisPieceIssue at' slot) s = .next s) ∧
    (s.circuitTo x.svc x.ep ts = 0 → s.isSplit = false → exec (.trellisPieceIssue at' slot) s = .next (
      let code := if ts = [] then 0x0812 else 0x0811
      ((s.bump .TL_REFUSED [epHome x.ep]).countStray (some x.part) (epHome x.ep) a code).xferFail key code a))) ∧
  (∀ (s : State) (at' : XferAt) (k : Fin 8) (slot : Fin 1024) (p : Piece),
    let key := xferKey at'
    let x := s.getXfer key
    x.live = true → x.pieces[k.val]? = some p → p.st = 0 → p.fly = 0 → x.handle = 0 → p.tgt ≠ keepEnd → p.rv = false →
    (s.circuit x.svc p.tgt (answerEnd x.ep p.ret p.rv) = 0 → exec (.trellisRequest at' k slot .ok) s =
      .next (((s.bump .TL_REFUSED [epHome p.tgt]).setVal .TL_LASTERR [epHome p.tgt] (0x0811 * 2 ^ 48 + p.a % 2 ^ 48)).setPiece key k.val
        fun q => { q with fly := 2 })) ∧
    (s.circuit x.svc p.tgt (answerEnd x.ep p.ret p.rv) ≠ 0 →
      (s.pieceCode x p = 0 → arbOf p.tgt = none → exec (.trellisRequest at' k slot .ok) s =
        .next ((s.coreTouch p.a).setPiece key k.val fun q => { q with st := 1, gen := (s.coreTouch p.a).ownGen p.a })) ∧
      (∀ ak cap, s.pieceCode x p = 0 → arbOf p.tgt = some (ak, cap) → s.arbMarked x.ep = false → (ak < 24 → s.chanOn ak = true) → (s.getArb ak).wait = [] →
        (s.getArb ak).resv = 0 → (s.getArb ak).held.length < cap → (s.getArb ak).held.contains x.ep = false →
        exec (.trellisRequest at' k slot .ok) s =
          .next ((s.modArb ak fun a => { a with grants := a.grants + 1, held := a.held ++ [x.ep], wait := [], resv := 0 }).setPiece key k.val
            fun q => { q with st := 1, back := 0 })) ∧
      (s.pieceCode x p ≠ 0 → exec (.trellisRequest at' k slot .ok) s = .next (
        let code := s.pieceCode x p
        (((s.countRefused (epHome p.tgt) code).setPiece key k.val fun q => { q with st := 2, fly := 0, code := code }).countStray
          (some x.part) (epHome x.ep) p.a code).countDeny p.a code)))) ∧
  (∀ (s w : State) (at' : XferAt) (k : Fin 8) (slot : Fin 1024) (p : Piece),
    let key := xferKey at'
    let x := s.getXfer key
    x.live = true → x.pieces[k.val]? = some p → p.st = 1 → p.fly ≠ 2 → p.moved < p.n → p.sent = p.moved → x.handle = 0 → s.targetServes p = true →
    (x.write = true →
      let bs := s.locPeek x.own (x.loc + (p.a - x.dev) + p.sent) 64
      s.carry x.svc x.ep p.tgt slot.val 0 (mkBeat 0 (key % 32) bs) key p.a = some (w, 0) →
      exec (.trellisDataBeat at' k slot .ok) s = .next (
        (((w.setPiece key k.val fun p => { p with sent := p.sent + 64 }).lineWrite (epHome x.ep) (p.a + p.moved) bs).observe
          (plainAddr (p.a + p.moved))).setPiece key k.val fun p => { p with moved := p.moved + 64 })) ∧
    (x.write = false →
      let bs := s.readBytes (p.a + p.sent) 64
      s.carry x.svc p.tgt (answerEnd x.ep p.ret p.rv) slot.val 0 (mkBeat (if p.n ≤ p.sent + 64 then 2 else 0) (key % 32) bs) key p.a = some (w, 0) →
      exec (.trellisDataBeat at' k slot .ok) s = .next (
        (((w.countRead (p.a + p.sent)).setPiece key k.val fun p => { p with sent := p.sent + 64 }).locPoke x.own (x.loc + (p.a - x.dev) + p.moved)
          bs).setPiece key k.val fun p => { p with moved := p.moved + 64 }))) ∧
  (∀ (s w : State) (at' : XferAt) (k : Fin 8) (slot : Fin 1024) (p : Piece),
    let key := xferKey at'
    let x := s.getXfer key
    x.live = true → x.pieces[k.val]? = some p → p.st = 1 → p.n ≤ p.moved → x.handle = 0 →
    let ends (u : State) : State :=
      let u := match arbOf p.tgt with | some (ak, _) => u.arbFree ak x.ep | none => u
      let u := u.modXfer key fun x => { x with pieces := x.pieces.eraseIdx k.val }
      if (u.getXfer key).pieces = [] ∧ (u.getXfer key).len ≤ (u.getXfer key).issued then
        match (u.getXfer key).own with
        | .mx c _ _ => (u.modXfer key fun _ => {}).mxFeed c
        | _ => u.modXfer key fun x => { x with fin := 1 }
      else u
    (x.write = false → exec (.trellisLast at' k slot .ok) s = .next (ends s)) ∧
    (x.write = true → s.carry x.svc p.tgt (answerEnd x.ep p.ret p.rv) slot.val p.fly (mkBeat 2 (key % 32) (List.replicate 64 0)) key p.a = some (w, 0) →
      exec (.trellisLast at' k slot .ok) s = .next (ends (w.setPiece key k.val fun p => { p with fly := 0 })))) ∧
  (∀ (s w : State) (at' : XferAt) (k : Fin 8) (slot : Fin 1024) (p : Piece),
    let key := xferKey at'
    let x := s.getXfer key
    x.live = true → x.pieces[k.val]? = some p → p.st = 2 →
    s.carry x.svc p.tgt (answerEnd x.ep p.ret p.rv) slot.val p.fly (mkBeat 3 (key % 32) (refusalBytes p.code)) key p.a = some (w, 0) →
    let u := w.setPiece key k.val fun p => { p with fly := 0 }
    (p.code = 0x0B10 ∨ p.code = 0x0B11 → exec (.trellisRefusal at' k slot .ok) s = .next (u.setPiece key k.val fun p =>
      { p with st := 3, back := if p.back = 0 then 8 else min 1024 (2 * p.back) })) ∧
    (p.code ≠ 0x0B10 → p.code ≠ 0x0B11 → exec (.trellisRefusal at' k slot .ok) s = .next (u.xferFail key p.code p.a)))

/-- What the messages of the control network do: Every well-formed message answers a next state, and the whole of it is given. A message
goes over the links that work: on an intact tree path its row node counts it, a single-bit error on a link is corrected and counted, a word
is resent and counted, and the link fails after 8 resends; a message no way leads for does nothing at the cluster. A message acts in the
west half at once, and for the east half it enters the seam's control lane ahead of those of a higher class number, unless the halves are
split. A WRITE writes its words from its address on, in every cluster DEST names or in the steward's block, a word of an awake bank whole; a
READ collects the words and puts their RESPs on the way, which a RESP brings to its requester; a DONE counts as the engine's emit-done; a
REDUCE combines a participant's operand, word by word, at its row node, which hands what it has to the root once its participants have given
theirs; and a RESULT brings what the root has combined to every participant. A BCAST segment with a good CRC is taken by every engine of its
kind in a cluster it names that is on and that a way leads to, and one with a bad CRC only counts; a FENCE fences its engine; a RESET queues
the reset of its scope, or resets the device; a STATUS reaches its steward; and a TLOAD writes the next field of a loading schedule into the
inactive copies. -/
def Obligations.ControlNetworkCommandsHaveTheirEffects : Prop :=
  (∀ (s : State) (c : Fin 96), s.linkUp (5 * c.val + 4) = true → s.linkUp (480 + 6 * halfOf c.val + yOf c.val) = true →
    s.cnPass c.val [] = some (s.bump .TL_CNMSG [rowNode c.val])) ∧
  (∀ (s : State) (e : LinkErr),
    (e.n.val = 0 → s.linkErr e = s.bump .TL_CORR [linkHome e.link.val]) ∧
    (1 ≤ e.n.val → e.n.val ≤ 8 → s.linkErr e = s.bump .TL_CNRETRY [linkHome e.link.val] e.n.val) ∧
    (e.n.val = 9 → s.linkErr e = (s.bump .TL_CNRETRY [linkHome e.link.val] 8).cnLinkFails e.link.val)) ∧
  (∀ (s : State) (c : Nat) (errs : List LinkErr) (f : State → State),
    (∀ w, s.cnPass c errs = some w → s.cnTo c errs f = f w) ∧
    (s.cnPass c errs = none → s.cnTo c errs f =
      s.each (errs.filter fun e => (s.cnLinks c).contains (linkNum e.link.val)) fun s e => s.linkErr e)) ∧
  (∀ (s : State) (dest : Nat) (m : List Word) (f : State → Nat → State),
    (dest < 48 ∨ dest = 96 ∨ dest = 126 → s.cnSend dest m f = f s 0) ∧
    (48 ≤ dest ∧ dest < 96 ∨ dest = 97 ∨ dest = 125 → s.cnSend dest m f = if s.isSplit = true then f s 1 else s.seamSend 0 m) ∧
    (dest = 127 → s.cnSend dest m f = if (f s 0).isSplit = true then f (f s 0) 1 else (f s 0).seamSend 0 m) ∧
    (98 ≤ dest → dest < 125 → s.cnSend dest m f = s)) ∧
  (∀ (s : State) (d : Nat) (m : List Word), s.seamSend d m = s.modSdir d fun x =>
    { x with msgs := x.msgs.takeWhile (fun y => decide (s.msgClass y ≤ s.msgClass m)) ++ [m] ++
                     x.msgs.dropWhile fun y => decide (s.msgClass y ≤ s.msgClass m) }) ∧
  (∀ (c : Fin 96) (h : Fin 2), destIn c.val h.val = if halfOf c.val = h.val then [c.val] else []) ∧
  (∀ (s : State) (dest : Fin 128) (addr : BitVec 26) (ws : List Word) (meets : FlipErr), ws.length ≤ 14 →
    exec (.cnWrite dest addr ws meets) s =
      .next (s.cnSend dest.val (cnHeader 0 dest.val (ws.length + 1) 0 :: BitVec.ofNat 32 addr.toNat :: ws) fun s h =>
        if dest.val = 96 + h then s.cnPuts meets.bad dest.val (0xFE00000000 + 4 * addr.toNat) ws
        else s.each (destIn dest.val h) fun s c => s.cnTo c meets.links fun s =>
          s.cnPuts meets.bad c (winBase c + 4 * addr.toNat) ws)) ∧
  (∀ (s : State) (dest a : Nat) (w : Word) (c o : Nat) (bad : List Nat), locate a = .bank c o →
    (s.domOn c = true → s.bankAwake c (bankOf o) = true →
      let u := s.modArb (bankArb c (bankOf o)) fun x => { x with grants := x.grants + 1 }
      s.cnPuts bad dest a [w] = ((u.coreTouch a).lineWrite dest a (leBytes 4 w.toNat)).observe (plainAddr a) ∧
      (bad.contains a = false →
        s.cnGets bad dest a 1 = ([BitVec.ofNat 32 (leNat (s.readBytes a 4))], (u.countRead a).coreTouch a))) ∧
    (s.domOn c = true → s.bankAwake c (bankOf o) = false → s.cnPuts bad dest a [w] = s ∧ s.cnGets bad dest a 1 = ([0], s)) ∧
    (s.domOn c = false → s.cnPuts bad dest a [w] = s.bump .PC_STRAY [dest] ∧ s.cnGets bad dest a 1 = ([0], s.bump .PC_STRAY [dest]))) ∧
  (∀ (s : State) (dest : Fin 128) (count : BitVec 15) (r : Fin 98) (addr : BitVec 26) (bad : List Nat) (errs : List LinkErr),
    exec (.cnRead dest count r addr bad errs) s =
      .next (s.cnSend dest.val [cnHeader 1 dest.val 2 count.toNat, BitVec.ofNat 32 r.val, BitVec.ofNat 32 addr.toNat] fun s h =>
        let answer (s : State) (node base : Nat) : State :=
          let x := s.cnGets bad node (base + 4 * addr.toNat) count.toNat
          x.2.modCn fun y => { y with resps := y.resps ++ (chunks 15 x.1).map fun ws => (node, r.val, ws) }
        if dest.val = 96 + h then answer s dest.val 0xFE00000000
        else s.each (destIn dest.val h) fun s c => s.cnTo c errs fun s => answer s c (winBase c))) ∧
  (∀ (s u w : State) (c : Fin 96) (r : Nat) (ws : List Word) (t : List (Nat × Nat × List Word)) (errs : List LinkErr),
    s.cn.resps = (c.val, r, ws) :: t → (s.modCn fun x => { x with resps := t }).cnPass c.val errs = some u →
    (halfOf c.val = nodeHalf r → (if r < 96 then u.cnPass r errs else some u) = some w →
      exec (.cnResp errs) s = .next (w.modCn fun x => { x with got := mput x.got r ws })) ∧
    (halfOf c.val ≠ nodeHalf r → u.isSplit = false → exec (.cnResp errs) s =
      .next (u.seamSend (halfOf c.val) (cnHeader 2 r ws.length 0 :: ws)))) ∧
  (∀ (s w : State) (g : Fin 256) (e' : EngineAt) (errs : List LinkErr),
    let e := engineId e'
    let c := if e ≥ 0x1000 then attachOf (e - 0x1000) else e / 32
    s.engDone g.val e = true → s.cnPass c errs = some w →
    (w.farCluster c = true → exec (.cnDone g e' errs) s = .next (w.seamSend 1 [cnHeader 4 96 1 g.val, BitVec.ofNat 32 e])) ∧
    (w.farCluster c = false → w.wgState g.val = wsStepping → (w.getWg g.val).done.contains e = false →
      (w.enginesOf g.val).contains e = true → w.engDone g.val e = true →
      exec (.cnDone g e' errs) s = .next (
        let u := w.modWg g.val fun x => { x with done := x.done ++ [e] }
        if u.allDone g.val (u.enginesOf g.val) = true then u.setFld .WG_STATUS [g.val] WG_STATUS_STATE wsHarvesting else u))) ∧
  (∀ (s w : State) (c : Fin 96) (op : Fin 5) (tag : BitVec 8) (ws : List Word) (errs : List LinkErr), 1 ≤ ws.length → ws.length ≤ 15 →
    (mget s.cn.from_ tag.toNat).contains c.val = false → mget s.cn.mask tag.toNat = [] ∨ (mget s.cn.mask tag.toNat).contains c.val = true →
    s.cnPass c.val errs = some w →
    let row := tag.toNat * 16 + (halfOf c.val * 6 + yOf c.val)
    let root := tag.toNat * 16 + (12 + halfOf c.val)
    let u := (w.modCn fun x => { x with red := mput x.red row (redWords op.val (mget x.red row) ws) }).modCn fun x =>
      { x with from_ := mput x.from_ tag.toNat (mget x.from_ tag.toNat ++ [c.val]) }
    let waits := ((mget u.cn.mask tag.toNat).filter fun k => halfOf k * 6 + yOf k == halfOf c.val * 6 + yOf c.val).all
      (mget u.cn.from_ tag.toNat).contains
    let v := (u.modCn fun x => { x with red := mput x.red row [] }).modCn fun x =>
      { x with red := mput x.red root (redWords op.val (mget x.red root) (mget u.cn.red row)) }
    (waits = false → exec (.cnReduce c op tag ws errs) s = .next u) ∧
    (waits = true → exec (.cnReduce c op tag ws errs) s =
      .next (if halfOf c.val = 0 then v else v.redCross tag.toNat op.val))) ∧
  (∀ (op : Fin 5) (as bs : List Word), (as = [] → redWords op.val as bs = bs) ∧
    (as.length = bs.length → redWords op.val as bs = (as.zip bs).map fun p =>
      match op with
      | 0 => p.1 + p.2
      | 1 => if p.1.toNat < p.2.toNat then p.2 else p.1
      | 2 => if p.2.toNat < p.1.toNat then p.2 else p.1
      | 3 => p.1 &&& p.2
      | 4 => p.1 ||| p.2)) ∧
  (∀ (s : State) (tag : BitVec 8) (errs : List LinkErr),
    let root := tag.toNat * 16 + 12
    let ws := mget s.cn.red root
    let who := (mget s.cn.from_ tag.toNat).filter fun c => decide (c < 96) && halfOf c == 0
    let t := (s.modCn fun x =>
      { x with res := mput x.res root ws, red := mput x.red root [],
               from_ := mput x.from_ tag.toNat ((mget x.from_ tag.toNat).filter fun c => !who.contains c && c != 97) }).each who
      fun s c => s.cnTo c errs fun s => s.modCn fun x => { x with got := mput x.got c ws }
    s.isSplit = false → s.redReady tag.toNat 0 = true → s.redFrom tag.toNat 1 = [] → t.isSplit = false →
    exec (.cnResult tag errs) s = .next t) ∧
  (∀ (s : State) (dest : Fin 128) (kind : Fin 5) (seg : BitVec 15) (ws : List Word) (crc : Word) (errs : List LinkErr), ws.length = 14 →
    exec (.cnBcast dest kind seg ws crc errs) s =
      .next ((if dest.val ≥ 125 then s.bump .BU_BCSEG [] else s.bump .BU_BCRESEND []).cnSend dest.val
        (cnHeader 7 dest.val 15 seg.toNat :: ws ++ [crc, BitVec.ofNat 32 kind.val]) fun s h =>
          s.cnBcastIn dest.val kind.val seg.toNat ws crc errs h)) ∧
  (∀ (s₀ : State) (dest kind seg h : Nat) (ws : List Word) (crc : Word) (errs : List LinkErr),
    let bs := ws.flatMap fun w => leBytes 4 w.toNat
    let s := s₀.each (nodups ((destIn dest h).flatMap s₀.cnLinks)) fun s l =>
      s.each (errs.filter fun e => linkNum e.link.val == l) fun s e => s.linkErr e
    (BitVec.ofNat 32 (crc32c (leBytes 4 seg ++ bs)) ≠ crc → s₀.cnBcastIn dest kind seg ws crc errs h = s) ∧
    (BitVec.ofNat 32 (crc32c (leBytes 4 seg ++ bs)) = crc → s₀.cnBcastIn dest kind seg ws crc errs h =
      s.each ((List.range 96).filter fun c => destHits dest c && s.domOn c && (halfOf c == h && (s.cnWay c).isSome)) fun s c =>
        s.each ((List.range 19).filter fun k => kindOf k == kind && !s.fencedEng c k) fun s k => s.takeSegment c k seg bs)) ∧
  (∀ (s : State) (dest : Fin 128) (slot : Fin 19) (errs : List LinkErr),
    exec (.cnFence dest slot errs) s = .next (s.cnSend dest.val [cnHeader 8 dest.val 0 slot.val] fun s h =>
      s.each (destIn dest.val h) fun s c => s.cnTo c errs fun s =>
        if s.fencedEng c slot.val = true then s else s.fenceAt c slot.val)) ∧
  (∀ (s : State) (dest : Fin 128) (scope : Fin 4) (slot : Fin 19) (errs : List LinkErr),
    exec (.cnReset dest scope slot errs) s =
      .next (s.cnSend dest.val [cnHeader 9 dest.val 1 scope.val, BitVec.ofNat 32 slot.val] fun s h =>
        s.each (destIn dest.val h) fun s c => s.cnTo c errs fun s =>
          match scope with
          | 0 => (s.rstWrite (coordOf c slot.val * 2 ^ 12) (.steward (halfOf c == 1))).2
          | 1 => (s.rstWrite (1 + c * 2 ^ 12) (.steward (halfOf c == 1))).2
          | 2 => (match s.partOfCluster c with
            | some p => (s.rstWrite (2 + p * 2 ^ 12) (.steward (halfOf c == 1))).2
            | none => s)
          | 3 => s.deviceReset false 2)) ∧
  (∀ (s : State) (c : Fin 96) (slot : Fin 19) (p : Fin 8) (h : Bool),
    s.rstWrite (coordOf c.val slot.val * 2 ^ 12) (.steward h) = (0, s.rstQueue { scope := 0, target := coordOf c.val slot.val }) ∧
    s.rstWrite (1 + c.val * 2 ^ 12) (.steward h) = (0, s.rstQueue { scope := 1, target := c.val }) ∧
    s.rstWrite (2 + p.val * 2 ^ 12) (.steward h) = (0, s.rstQueue { scope := 2, target := p.val })) ∧
  (∀ (s w : State) (c : Fin 96) (cause : BitVec 15) (ws : List Word) (errs : List LinkErr), ws.length ≤ 15 → s.cnPass c.val errs = some w →
    exec (.cnStatus c cause ws errs) s = .next (w.modCn fun x =>
      { x with got := mput x.got (96 + halfOf c.val) (cnHeader 11 (96 + halfOf c.val) ws.length cause.toNat :: ws) })) ∧
  (∀ (s w : State) (n : Fin 64) (errs : List LinkErr) (f : TField) (t : List TField), s.farCluster (s.tloadAt n.val) = false →
    s.cnPass (s.tloadAt n.val) errs = some w →
    w.schState n.val = 1 → w.loadBusy n.val = false → (w.getSch n.val).todo = f :: t →
    let u := if (w.getSch n.val).todo = (w.getSch n.val).mine
      then w.copyTables (w.getSch n.val).clusters (w.getSch n.val).endpoints else w
    exec (.cnTload n errs) s = .next ({ u with slotB := writeSlot u.slotB n.val f, smapB := writeSmap u.smapB n.val f }.modSch n.val
      fun x => { x with todo := t }))

/-- What the commands of channels, handles and messages do: Where the rule's conditions hold, each command answers a next state and the
whole of it is given: EN = 1 of a channel, queue or send handle stores the fields, leaves EN at 0 and asks for the check; EN = 0 of an
enabled channel or queue stops it; a request that its target holds joins its pending list, and one to an address where no target lies is
refused with 0x0911; the oldest pending request of a channel is granted where its footprint fits, a skip marker filling the tail before it
where it must; a complete reservation at the ring's front is written with its FLAGS, SENDER and SEQ, published and acknowledged; a new RD
that is a multiple of 64 and not past WR is taken, any other is counted; a CDONE that rises by no more than the slots held frees them; a
request waiting without an edge registers one; and a scan in which no edge stands as before only remembers the present ones. -/
def Obligations.MessageCommandsHaveTheirEffects : Prop :=
  (∀ (s : State) (req : Requester) (c : Fin 96) (n : Fin 40) (v : Word),
    (n.val < 32 → s.Reached req .MQ_CH_CFG [c.val, n.val] → s.checking (.chan c.val n.val) = false →
      (s.bit .MQ_CH_CFG [c.val, n.val] MQ_CH_CFG_EN = false → exec (.mqChannelEnable req c n v) s =
        .next (((s.store .MQ_CH_CFG [c.val, n.val] (withEn v true)).setFld .MQ_CH_CFG [c.val, n.val] MQ_CH_CFG_EN 0).askCheck
          (.chan c.val n.val) (withEn v true) none)) ∧
      (s.bit .MQ_CH_CFG [c.val, n.val] MQ_CH_CFG_EN = true → exec (.mqChannelDisable req c n v) s = .next (
        let t := c.val * 64 + n.val
        let u := s.refuseReqs t 0x0911 fun _ => true
        let u := u.dropComp t ((u.getChan t).comp.length)
        (u.setFld .MQ_CH_CFG [c.val, n.val] MQ_CH_CFG_EN 0).noteLine t))) ∧
    (32 ≤ n.val → s.Reached req .MQ_Q_CFG [c.val, n.val - 32] → s.checking (.queue c.val (n.val - 32)) = false →
      (s.bit .MQ_Q_CFG [c.val, n.val - 32] MQ_Q_CFG_EN = false → exec (.mqChannelEnable req c n v) s =
        .next (((s.store .MQ_Q_CFG [c.val, n.val - 32] (withEn v true)).setFld .MQ_Q_CFG [c.val, n.val - 32] MQ_Q_CFG_EN 0).askCheck
          (.queue c.val (n.val - 32)) (withEn v true) none)) ∧
      (s.bit .MQ_Q_CFG [c.val, n.val - 32] MQ_Q_CFG_EN = true → exec (.mqChannelDisable req c n v) s = .next (
        let t := c.val * 64 + 32 + (n.val - 32)
        let u := s.refuseReqs t 0x0911 fun _ => true
        let u := u.dropComp t ((u.getChan t).comp.length)
        (u.setFld .MQ_Q_CFG [c.val, n.val - 32] MQ_Q_CFG_EN 0).noteLine t)))) ∧
  (∀ (s : State) (req : Requester) (c : Fin 96) (n : Fin 64) (v : Word), s.Reached req .MQ_SH_CFG [c.val, n.val] →
    s.checking (.send c.val n.val) = false → s.bit .MQ_SH_CFG [c.val, n.val] MQ_SH_CFG_EN = false →
    exec (.mqHandleEnable req c n v) s = .next (((s.store .MQ_SH_CFG [c.val, n.val] (withEn v true)).setFld .MQ_SH_CFG
      [c.val, n.val] MQ_SH_CFG_EN 0).askCheck (.send c.val n.val) (withEn v true) none)) ∧
  (∀ (s : State) (at' : XferAt) (slot : Fin 1024) (p : Piece),
    let key := xferKey at'
    let x := s.getXfer key
    x.pieces = [p] → x.handle ≠ 0 → x.live = true → p.st = 0 → p.fly = 0 → x.target = 0 →
    (s.circuit x.svc p.tgt x.ep = 0 → exec (.mqRequestReceive at' slot .ok) s = .next (s.requestDiscarded key 0 x p)) ∧
    (s.circuit x.svc p.tgt x.ep ≠ 0 → s.tkAt x.dev = none → exec (.mqRequestReceive at' slot .ok) s = .next (
      let code := if s.unitDown p.tgt = true then 0x0812 else 0x0911
      (s.countRefused (x.tgtHome p) code).setRefused key 0 code)) ∧
    (∀ t, s.circuit x.svc p.tgt x.ep ≠ 0 → s.tkAt x.dev = some t → tkQueue t = false → s.tkPart t = some x.part → s.rcvDown t = false →
      s.isSplit = false →
      (x.len ≤ s.tkSize t → exec (.mqRequestReceive at' slot .ok) s = .next ((s.modXfer key fun x => { x with target := t + 1 }).modTk t
        fun ch => { ch with reqs := ch.reqs ++ [{ key := key, foot := x.len, sender := senderField x.own x.ep, coord := senderCoord x.own }] })) ∧
      (s.tkSize t < x.len → exec (.mqRequestReceive at' slot .ok) s =
        .next (((s.countRefused (x.tgtHome p) 0x0910).setRefused key 0 0x0910).tkReason t 0x0910)))) ∧
  (∀ (s : State) (c : Fin 96) (n : Fin 32) (r : Req),
    let t := c.val * 64 + n.val
    let x := s.getChan t
    s.tkOn t = true → (x.reqs.find? fun r => r.st == 0) = some r →
    let pos := x.wrp % s.tkSize t
    let tail := s.tkSize t - pos
    let used := (x.wrp + 2 ^ 32 - x.rd) % 2 ^ 32
    (r.foot ≤ tail → used + r.foot ≤ s.tkSize t → exec (.mqPlacementGrant (.channel c n)) s = .next ((s.modChan t fun x =>
      { x with wrp := (x.wrp + 0 + r.foot) % 2 ^ 32, resv := x.resv ++ [{ pos := pos, len := r.foot }] }).grantReq t r.key 1 pos)) ∧
    (tail < r.foot → used + tail + r.foot ≤ s.tkSize t → exec (.mqPlacementGrant (.channel c n)) s = .next
      ((s.reserve t r.foot 0 tail).grantReq t r.key 1 0)) ∧
    (s.tkSize t < used + r.foot → exec (.mqPlacementGrant (.channel c n)) s = .next s)) ∧
  (∀ (s : State) (at' : XferAt) (t : Nat) (r : Req),
    let key := xferKey at'
    let x := s.getXfer key
    x.target = t + 1 → x.live = true → ((s.getChan t).reqs.find? fun r => r.key == key) = some r → r.foot ≤ r.data.length →
    (r.st = 2 → s.compReached t r.at_ = false → exec (.mqPublish at') s = .next (s.dmWake (s.slotAt t r.at_) 4160)) ∧
    (r.st = 2 → s.compReached t r.at_ = true → tkQueue t = false → exec (.mqPublish at') s =
      .next (((s.writeSlotEntry t r.at_ r.foot r.sender (stampHeader r.data true r.sender x.seq)).setReq t key
        fun r => { r with st := 4 }).ackReq key)) ∧
    (r.st = 1 → tkQueue t = false → exec (.mqPublish at') s = .next (
      let u := (s.ringPoke t r.at_ (stampHeader r.data false r.sender x.seq)).markDone t r.at_
      u.publishFront t ((u.getChan t).resv.length))) ∧
    (r.st = 3 → tkQueue t = true → exec (.queueContributionAdd at') s = .next ((s.bump .MQ_QLATE [tkCluster t]).ackReq key))) ∧
  (∀ (s : State) (c : Fin 96) (n : Fin 32) (v : Word),
    let t := c.val * 64 + n.val
    let u := (s.pokeLE (s.tkLine t + 64) 4 v.toNat).bump .BK_WR [c.val]
    let w := (s.pokeLE (s.tkLine t + 68) 4 v.toNat).bump .BK_WR [c.val]
    let d := (v.toNat + 2 ^ 32 - (s.getChan t).rd) % 2 ^ 32
    let e := (v.toNat + 2 ^ 32 - (s.getChan t).cdone) % 2 ^ 32
    s.tkOn t = true → s.domOn c.val = true → s.unitAwake t (s.tkLine t + 64) = true → s.unitAwake t (s.tkLine t + 68) = true →
    (d ≠ 0 → v.toNat % 64 = 0 → d ≤ ((s.getChan t).wr + 2 ^ 32 - (s.getChan t).rd) % 2 ^ 32 →
      exec (.mqRdWrite (.channel c n) v) s = .next (u.modChan t fun x => { x with rd := v.toNat, serial := x.serial + 1 })) ∧
    (d ≠ 0 → (v.toNat % 64 ≠ 0 ∨ ((s.getChan t).wr + 2 ^ 32 - (s.getChan t).rd) % 2 ^ 32 < d) →
      exec (.mqRdWrite (.channel c n) v) s = .next (u.bump .MQ_BADRD [c.val])) ∧
    (d = 0 → exec (.mqRdWrite (.channel c n) v) s = .next u) ∧
    (e ≠ 0 → e ≤ (s.getChan t).comp.length →
      exec (.mqCdoneWrite (.channel c n) v) s = .next ((w.modChan t fun x => { x with cdone := v.toNat }).dropComp t e)) ∧
    ((s.getChan t).comp.length < e → exec (.mqCdoneWrite (.channel c n) v) s = .next (w.bump .MQ_BADRD [c.val]))) ∧
  (∀ (s : State) (at' : XferAt) (t : Nat) (r : Req),
    let key := xferKey at'
    let x := s.getXfer key
    x.target = t + 1 → x.live = true → ((s.getChan t).reqs.find? fun r => r.key == key) = some r → r.st = 0 → r.edge = false →
    let u := s.setReq t key fun r => { r with edge := true }
    let u := { u with edges := u.edges ++ [{ key := key, src := r.coord, dst := u.tkCoord t, target := t }] }
    exec (.waitEdgeRegister at') s = .next (match x.own with | .vx c _ _ => u.bump .MQ_WAITREG [c] | _ => u)) ∧
  (∀ (s : State) (h : Fin 2), s.isSplit = false →
    let now := s.edges.map fun e => { e with serial := (s.getChan e.target).serial }
    (∀ e, e ∈ now → (mget s.oldEdges h.val).contains e = false) →
    exec (.waitCycleScan h) s = .next { s with oldEdges := mput s.oldEdges h.val now })

/-- What contributions, releases and drains of a combining queue do: A granted contribution whose data have arrived is added: each of its
elements, rounded to fixed point, goes into its accumulator of the round's buffer, the contribution is counted, and the EXPECT-th closes the
round; each element's addition changes its accumulator by the rounded value, counting a NaN as zero in MQ_QNAN and a clamped one in MQ_QSAT;
a RELEASED that rises by no more than the closed rounds not yet released zeroes the buffers it frees and is taken, and one that falls or
passes CLOSED is counted; and a spilled contribution whose round now fits leaves the compost area and is added. -/
def Obligations.CombiningQueueCommandsHaveTheirEffects : Prop :=
  (∀ (s : State) (at' : XferAt) (t : Nat) (r : Req),
    let key := xferKey at'
    let x := s.getXfer key
    x.target = t + 1 → x.live = true → tkQueue t = true → ((s.getChan t).reqs.find? fun r => r.key == key) = some r →
    r.foot ≤ r.data.length → r.st = 1 →
    let n := leNat (r.data.take 2)
    let off := leNat ((r.data.drop 2).take 2)
    let round := leNat ((r.data.drop 4).take 4)
    let w := s.qWidth t
    s.roundFate t round = 0 →
    let u := s.each (List.range n) fun s k => s.addElem t round (off + k) (leNat ((r.data.drop (16 + k * w)).take w))
    let u := (u.unitReads t (u.qAccAt t round off) (8 * n)).unitWrites t (u.qAccAt t round off) (8 * n)
    let u := (u.bump .MQ_QCONTRIB [tkCluster t]).modChan t fun x => x.setCnt round (x.cnt round + 1)
    exec (.queueContributionAdd at') s =
      .next ((if (u.getChan t).cnt round = u.qExpect t then u.closeRound t round else u).ackReq key)) ∧
  (∀ (s : State) (t round j x : Nat),
    let q := combineQ (s.fld .MQ_Q_CFG [tkCluster t, tkIndex t] MQ_Q_CFG_FRAC) (decodeIn (s.qIn t) x)
    let u := s.pokeLE (s.qAccAt t round j) 8 (wrapInt 64 ((s.peekLE (s.qAccAt t round j) 8 : Int) + q.1))
    (q.2.1 = false → q.2.2 = false → s.addElem t round j x = u) ∧
    (q.2.1 = true → q.2.2 = false → s.addElem t round j x = u.bump .MQ_QNAN [tkCluster t]) ∧
    (q.2.1 = false → q.2.2 = true → s.addElem t round j x = u.bump .MQ_QSAT [tkCluster t])) ∧
  (∀ (s : State) (c : Fin 96) (n : Fin 8) (v : Word),
    let t := c.val * 64 + 32 + n.val
    let u := (s.pokeLE (s.tkLine t + 64) 4 v.toNat).bump .BK_WR [c.val]
    let d := (v.toNat + 2 ^ 32 - (s.getChan t).rd) % 2 ^ 32
    s.domOn c.val = true →
    (s.unitAwake t (s.tkLine t + 64) = false → exec (.mqReleasedWrite (.queue c n) v) s = .next (s.bump .BK_DENY [c.val])) ∧
    (s.tkOn t = true → s.unitAwake t (s.tkLine t + 64) = true →
    (d ≠ 0 → d ≤ (s.getChan t).unreleased → exec (.mqReleasedWrite (.queue c n) v) s = .next
      ((u.each (List.range (min d 2)) fun s i => s.zeroAcc t ((s.getChan t).rd + i)).modChan t fun x =>
        { x with rd := v.toNat, serial := x.serial + 1 })) ∧
    ((s.getChan t).unreleased < d → exec (.mqReleasedWrite (.queue c n) v) s = .next (u.bump .MQ_BADRD [c.val])) ∧
    (d = 0 → exec (.mqReleasedWrite (.queue c n) v) s = .next u))) ∧
  (∀ (s : State) (c : Fin 96) (n : Fin 8) (i foot sender : Nat) (meets : LineFate),
    let t := c.val * 64 + 32 + n.val
    let u := s.compRead t i (64 + foot) meets
    (s.getChan t).comp = [(i, foot, sender)] → s.roundFate t (s.peekLE (s.slotAt t i + 68) 4) ≠ 1 →
    (s.compReached t i = false → exec (.queueCompostDrain { target := .queue c n, meets := meets }) s =
      .next (s.dmWake (s.slotAt t i) 4160)) ∧
    (s.compReached t i = true → meets.badIn (s.slotAt t i) (64 + foot) = true →
      exec (.queueCompostDrain { target := .queue c n, meets := meets }) s = .next u) ∧
    (s.compReached t i = true → meets.badIn (s.slotAt t i) (64 + foot) = false →
      exec (.queueCompostDrain { target := .queue c n, meets := meets }) s = .next
        (((u.freeSlot t i).modTk t fun x => { x with comp := x.comp.erase (i, foot, sender) }).contribute t
          (s.peekN (s.slotAt t i + 64) foot))))

/-- What the commands of the banks, the arbiters and the LPDDR channels do: Where the rule's conditions hold, each command answers a next
state and the whole of it is given: a write of BK_OWNn of a bank outside a handover keeps the setting before it, starts the handover and
stores the new setting; the handover ends when no access accepted before the write runs; the one bank whose BK_RET bit a write sets enters
retention unless the cluster's units hold it, when 0x0A04 is posted, and the one whose bit it clears starts to wake; two microseconds later
it accepts accesses and BK_WAKES counts it; an arbiter with a free entry gives it to its one waiter in a hold slot, whose piece starts, or
whose sink addition to the bank is made, and at its turn keeps it for the oldest waiter that backs off; the refusals of a keep-store arbiter
are counted; an expired back-off sends the piece again; a revoked grant of a channel frees the entry and makes the requester's started
pieces there start again with 0x0B11, from their hold slot in hold mode, their beats leaving the seam, and no grant of a bank or keep-store
arbiter outlasts its operation (the model's choice, log entry 166), so that none is revoked; and refresh and tracking pauses are counted, a
TRAINED channel whose tracking has failed three times in a row becoming FAILED, posting 0x0B27 and halting the groups whose region it holds
at their next harvest. -/
def Obligations.MemoryCommandsHaveTheirEffects : Prop :=
  (∀ (s : State) (req : Requester) (c : Fin 96) (b : Fin 8) (v : Word), s.Reached req .BK_OWN [c.val, b.val] →
    (s.inHandover c.val b.val = false → exec (.bkOwnWrite req c b v) s =
      .next ((((s.modBk c.val b.val fun k => { k with prev := s.val .BK_OWN [c.val, b.val] }).setBkBit c.val b.val BK_STATUS_HANDOVER
        true).modBk c.val b.val fun k => { k with gen := k.gen + 1 }).setVal .BK_OWN [c.val, b.val] (v.toNat % 2 ^ 12))) ∧
    (s.inHandover c.val b.val = true → exec (.bkOwnWrite req c b v) s =
      .next ((s.modBk c.val b.val fun k => { k with gen := k.gen + 1 }).setVal .BK_OWN [c.val, b.val] (v.toNat % 2 ^ 12)))) ∧
  (∀ (s : State) (c : Fin 96) (b : Fin 8), s.inHandover c.val b.val = true → s.bankBusy c.val b.val = false →
    exec (.bkHandoverEnd c b) s =
      .next ((s.setBkBit c.val b.val BK_STATUS_HANDOVER false).modBk c.val b.val fun k => { k with prev := 0 })) ∧
  (∀ (s : State) (req : Requester) (c : Fin 96) (b : Fin 8) (v : Word), s.Reached req .BK_RET [c.val] →
    (∀ k : Nat, k < 8 → k ≠ b.val → v.toNat.testBit k = (s.val .BK_RET [c.val]).testBit k) →
    (v.toNat.testBit b.val = true → (s.val .BK_RET [c.val]).testBit b.val = false → s.bankHeld c.val b.val = false →
      exec (.bankRetentionEnter req c v) s = .next (((s.setVal .BK_RET [c.val] (setBits (s.val .BK_RET [c.val]) b.val 1 1)).setBkBit c.val
        b.val BK_STATUS_AWAKE false).modBk c.val b.val fun k => { k with waking := false })) ∧
    (v.toNat.testBit b.val = true → (s.val .BK_RET [c.val]).testBit b.val = false → s.bankHeld c.val b.val = true →
      exec (.bankRetentionEnter req c v) s =
        .next ((s.setFld .BK_STATUS [c.val] BK_STATUS_REASON 0x0A04).post (s.partOfCluster c.val) 9 c.val c.val 0x0A04)) ∧
    (v.toNat.testBit b.val = false → (s.val .BK_RET [c.val]).testBit b.val = true →
      exec (.bankWake req c v) s = .next ((s.setVal .BK_RET [c.val] (setBits (s.val .BK_RET [c.val]) b.val 1 0)).modBk c.val b.val
        fun k => { k with waking := true }))) ∧
  (∀ (s : State) (c : Fin 96) (b : Fin 8), (s.getBk c.val b.val).waking = true →
    exec (.bankWakeDone c b) s = .next (((s.setBkBit c.val b.val BK_STATUS_AWAKE true).bump .BK_WAKES [c.val]).modBk c.val b.val
      fun k => { k with waking := false })) ∧
  (∀ (s : State) (bad : List Nat) (lost : Nat) (c : Fin 96),
    (let u := s.bump .DM_KSLOSS [] lost;
      ((u.getArb (800 + c.val)).held ≠ [] → exec (.arbiterGrant (.keep c) bad lost) s = .next u) ∧
      ((u.getArb (800 + c.val)).held = [] → (u.getArb (800 + c.val)).wait = [] → u.arbTurn (800 + c.val) = false →
        exec (.arbiterGrant (.keep c) bad lost) s = .next u)) ∧
    (∀ b : Fin 8, ((s.getArb (bankArb c.val b.val)).held ≠ [] → exec (.arbiterGrant (.bank c b) bad lost) s = .next s) ∧
      (∀ e : Nat, (s.getArb (bankArb c.val b.val)).held = [] → (s.getArb (bankArb c.val b.val)).wait = [(e, true)] →
        (s.getArb (bankArb c.val b.val)).resv = 0 →
        exec (.arbiterGrant (.bank c b) bad lost) s = .next (s.sinkGranted bad c.val b.val e)) ∧
      (∀ e : Nat, (s.getArb (bankArb c.val b.val)).held = [] → (s.getArb (bankArb c.val b.val)).wait = [(e, false)] →
        (s.getArb (bankArb c.val b.val)).resv = 0 → s.arbTurn (bankArb c.val b.val) = true → exec (.arbiterGrant (.bank c b) bad lost) s =
          .next (s.modArb (bankArb c.val b.val) fun a => match a.resv, a.wait.head? with
            | 0, some (e, false) => { a with resv := e + 1 }
            | _, _ => a)))) ∧
  (∀ (s : State) (bad : List Nat) (lost : Nat) (n : Fin 24) (e key i : Nat), (s.getArb n.val).held.length < 64 →
    (s.getArb n.val).wait = [(e, true)] → (s.getArb n.val).resv = 0 → (s.getArb n.val).held.contains e = false →
    s.heldPiece e n.val = some (key, i) → exec (.arbiterGrant (.memory n) bad lost) s =
      .next ((s.arbGrantHeld n.val e).setPiece key i fun p => { p with st := 1, back := 0 })) ∧
  (∀ (s : State) (k e : Nat), s.arbGrantHeld k e = s.modArb k fun a =>
    { a with grants := a.grants + 1, held := a.held ++ [e], wait := a.wait.filter (·.1 != e), resv := 0 }) ∧
  (∀ (s w : State) (at' : XferAt) (k : Fin 8) (slot : Fin 1024) (p : Piece) (fly : Nat),
    let key := xferKey at'
    let x := s.getXfer key
    x.live = true → x.pieces[k.val]? = some p → p.st = 3 → s.dataOwed x.ep p.tgt = false →
    s.carry x.svc x.ep p.tgt slot.val 0 (s.requestBeat key x p) key p.a = some (w, fly) →
    exec (.backoffExpiry at' k slot) s = .next (w.setPiece key k.val fun p => { p with st := 0, fly := fly, code := 0 })) ∧
  (∀ (s : State) (e : Fin 800),
    (∀ (c : Fin 96) (b : Fin 8), exec (.grantRevoke (.bank c b) e) s = .next s) ∧
    (∀ c : Fin 96, exec (.grantRevoke (.keep c) e) s = .next s) ∧
    (∀ n : Fin 24, (s.getArb n.val).held.contains e.val = true →
      let u := (s.arbFree n.val e.val).bump .DM_REVOKE [n.val]
      let again (w : State) (st : Nat) : State :=
        let hit := w.xfer.filter fun x => x.2.ep == e.val && x.2.live
        let w := w.seamDrop fun b => hit.any fun x => x.1 == b.key && x.2.pieces.any fun p => p.a == b.piece && p.st == 1 && p.atArb n.val
        w.each hit fun s x => s.modXfer x.1 fun y => { y with pieces := y.pieces.map fun p => if p.atArb n.val = true then
          (if p.st = 1 then { p with st := st, fly := 0, code := 0x0B11, moved := 0, sent := 0 } else p) else p }
      (u.holdMode n.val e.val = false → exec (.grantRevoke (.memory n) e) s = .next (again u 2)) ∧
      (u.holdMode n.val e.val = true → exec (.grantRevoke (.memory n) e) s =
        .next (again (u.modArb n.val fun a => { a with wait := a.wait ++ [(e.val, true)] }) 4)))) ∧
  (∀ (s : State) (n : Fin 24), exec (.dmRefresh n) s = .next (s.bump .DM_REFRESH [n.val]) ∧
    (∀ f : Bool, let u := (s.bump .DM_RETRAIN [n.val]).modArb n.val fun a => { a with track := if f = true then a.track + 1 else 0 }
      ((u.getArb n.val).track < 3 → exec (.dmTrackingPause n f) s = .next u) ∧
      (3 ≤ (u.getArb n.val).track → u.fld .DM_CH_STATUS [n.val] DM_CH_STATUS_STATE = 1 → exec (.dmTrackingPause n f) s = .next (
        let u := (u.setFld .DM_CH_STATUS [n.val] DM_CH_STATUS_STATE 3).setFld .DM_CH_STATUS [n.val] DM_CH_STATUS_REASON 0x0B27
        (u.post none 9 n.val 0xFFFF 0x0B27).each (List.range 256) fun s g =>
          if s.wgOn g && s.regionUses (s.wgPart g) n.val then s.haltAtHarvest g 0x0B80 else s)) ∧
      (3 ≤ (u.getArb n.val).track → u.fld .DM_CH_STATUS [n.val] DM_CH_STATUS_STATE ≠ 1 → exec (.dmTrackingPause n f) s = .next u)))

/-- What host writes, control words and the link commands of a gate port do: Where the rule's conditions hold, each command answers a next
state and the whole of it is given: an error-free line is counted and stored in the staging of a bound port's trays or rings, counted as out
of range above the aperture, and one with an uncorrectable error under WCHK is dropped and counted; a control word, which counts as a host
write, ahead of the present one within its limit is taken, and any other that differs is counted in GP_BADCW; a passing training step of a
port that waits or trains leaves it TRAINING; a supported mode-register write brings a trained port into SERVICE at its rate, and one that
the port does not support disables it with 0x0C23; self refresh is entered from a driven link, and left to the state it was entered from; a
waiting port without a clock is disabled with 0x0C20, and RETRY returns a disabled port to WAIT_HOST. -/
def Obligations.HostLinkCommandsHaveTheirEffects : Prop :=
  (∀ (s : State) (n : Fin 8) (off : BitVec 34) (line : BitVec 512) (err : Fin 4), s.portOn n.val = true → s.link n.val = lnkService →
    let u := s.bump .GP_HWR [n.val]
    let o := off.toNat / 64 * 64
    (err = 0 → 0x10000 ≤ o → o < 0x510000 → (s.partOfPort n.val).isSome = true → exec (.hostLineWrite n off line err) s =
      .next { u with staging := pokeMem s.staging (n.val * 2 ^ 28 + o) (leBytes 64 line.toNat) }) ∧
    (err = 0 → 0x1000000 ≤ o → exec (.hostLineWrite n off line err) s = .next (u.bump .GP_OOR [n.val])) ∧
    (err = 2 → s.bit .GP_PCFG [n.val] GP_PCFG_WCHK = true →
      exec (.hostLineWrite n off line err) s = .next (u.bump .GP_WUNCORR [n.val]))) ∧
  (∀ (s : State) (n : Fin 8), s.portOn n.val = true → s.link n.val = lnkService →
    let g := s.getGp n.val
    let q := s.bump .GP_HWR [n.val]
    let dist (v now : Nat) : Nat := (v + 2 ^ 32 - now) % 2 ^ 32
    (∀ (t : Fin 16) (v : Word), dist v.toNat (mget g.crd t.val) ≠ 0 → dist v.toNat (mget g.crd t.val) < 2 ^ 31 →
      dist v.toNat (mget g.crd t.val) ≤ dist (mget g.done t.val) (mget g.crd t.val) → v.toNat ≠ mget g.crd t.val →
      exec (.hcCrdWrite n t v) s = .next (q.modGp n.val fun g => { g with crd := mput g.crd t.val v.toNat })) ∧
    (∀ (v : Word), v.toNat ≠ g.evWr → dist v.toNat g.evWr ≠ 0 → dist v.toNat g.evWr < 2 ^ 31 → v.toNat % 16 = 0 →
      dist v.toNat g.evRd ≤ 2 ^ 22 → exec (.hcEvinWrWrite n v) s = .next (q.modGp n.val fun g => { g with evWr := v.toNat })) ∧
    (∀ (v : Word), v.toNat ≠ g.evWr → v.toNat % 16 ≠ 0 → exec (.hcEvinWrWrite n v) s = .next (q.bump .GP_BADCW [n.val])) ∧
    (∀ (ch : Fin 16) (v : Word),
      let t := 0x10000 + n.val * 16 + ch.val
      let x := s.getChan t
      s.tkOn t = true → v.toNat ≠ x.rd → dist v.toNat x.rd ≠ 0 → dist v.toNat x.rd < 2 ^ 31 → dist v.toNat x.rd ≤ dist x.wr x.rd →
      v.toNat % 64 = 0 →
      exec (.hcRdWrite n ch v) s = .next (q.modChan t fun x => { x with rd := v.toNat, serial := x.serial + 1 })) ∧
    (∀ (b : Fin 8) (v : Word), v.toNat ≠ mget g.evDone b.val → dist v.toNat (mget g.evDone b.val) ≠ 0 →
      dist v.toNat (mget g.evDone b.val) < 2 ^ 31 → exec (.hcEvdoneWrite n b v) s = .next (q.modGp n.val fun g =>
        { g with evDone := mput g.evDone b.val v.toNat, evSnap := mput g.evSnap b.val g.evWr }))) ∧
  (∀ (s : State) (n : Fin 8) (kind : Fin 4), s.portOn n.val = true → (s.link n.val = lnkWait ∨ s.link n.val = lnkTraining) →
    ((s.getGp n.val).step = 0 ∨ (s.getGp n.val).failed = false) → exec (.hostTrainingStep n kind true) s =
      .next (((s.modGp n.val fun g => { g with step := kind.val + 1, reps := 0, failed := false }).setFld .GP_PSTATUS [n.val]
        GP_PSTATUS_STATE lnkTraining).setFld .GP_PSTATUS [n.val] GP_PSTATUS_RATE 0)) ∧
  (∀ (s : State) (n : Fin 8) (rate : Nat), s.portOn n.val = true → s.link n.val = lnkTraining →
    (1 ≤ rate → rate ≤ 3 → (s.getGp n.val).failed = false → exec (.hostModeRegisterWrite n rate true true) s =
      .next (((s.modGp n.val fun g => { g with step := 0, reps := 0 }).setFld .GP_PSTATUS [n.val] GP_PSTATUS_STATE lnkService).setFld
        .GP_PSTATUS [n.val] GP_PSTATUS_RATE rate)) ∧
    (∀ service, exec (.hostModeRegisterWrite n rate false service) s = .next (
      let u := ((s.setFld .GP_PSTATUS [n.val] GP_PSTATUS_STATE lnkDisabled).setFld .GP_PSTATUS [n.val] GP_PSTATUS_REASON 0x0C23).setFld
        .GP_PSTATUS [n.val] GP_PSTATUS_RATE 0
      (u.post (u.partOfPort n.val) 9 n.val 0xFFFF 0x0C23).modGp n.val fun g => { g with step := 0, reps := 0, failed := false }))) ∧
  (∀ (s : State) (n : Fin 8), s.portOn n.val = true →
    (s.link n.val = lnkService ∨ s.link n.val = lnkWait ∨ s.link n.val = lnkTraining → exec (.hostSelfRefresh n true) s =
      .next ((s.setFld .GP_PSTATUS [n.val] GP_PSTATUS_STATE lnkSelf).modGp n.val fun g => { g with srFrom := s.link n.val })) ∧
    (s.link n.val = lnkSelf → exec (.hostSelfRefresh n false) s = .next
      ((s.setFld .GP_PSTATUS [n.val] GP_PSTATUS_STATE (s.getGp n.val).srFrom).modGp n.val fun g => { g with srFrom := 0 })) ∧
    (s.link n.val = lnkWait → exec (.hostClockTimeout n) s = .next (
      let u := ((s.setFld .GP_PSTATUS [n.val] GP_PSTATUS_STATE lnkDisabled).setFld .GP_PSTATUS [n.val] GP_PSTATUS_REASON 0x0C20).setFld
        .GP_PSTATUS [n.val] GP_PSTATUS_RATE 0
      (u.post (u.partOfPort n.val) 9 n.val 0xFFFF 0x0C20).modGp n.val fun g => { g with step := 0, reps := 0, failed := false }))) ∧
  (∀ (s : State) (req : Requester) (n : Fin 8), s.Reached req .GP_PCTRL [n.val] → s.mapWriter req = true → s.link n.val = lnkDisabled →
    exec (.gpRetry req n) s = .next ((s.setFld .GP_PSTATUS [n.val] GP_PSTATUS_STATE lnkWait).setFld .GP_PSTATUS [n.val]
      GP_PSTATUS_REASON 0))

/-- What scans, tray commands, completions, event-in and the mirror do: Where the rule's conditions hold, each command answers a next state
and the whole of it is given: setting one TRAYEN bit opens its tray; a scan is counted with what the host has done on the link since the
last (log entry 123), takes a command of the admin slot, and up to eight of each enabled tray of a bound port outside recovery; the slot
that a tray's count names is taken when its SEQ and CHECK are right; a NOP ends with code 0; a REGRD in reach ends with the word read, one
out of reach with 0x0C11; a REGWR in reach that asks for no check ends with its write's code; COPY_IN and COPY_OUT with a bad range end with
0x0C10 and otherwise start a transfer at the port's endpoint, a SEND on a disabled handle ends with 0x0C12; a FENCE_ENG of an engine of the
port's partition fences it; the oldest command that has ended leaves its completion record and is counted; the head event-in record of a
bound group with an open step becomes a flit, one of no group is dropped; a spilled host message moves into its ring; and the mirror is
brought up to date after the reason log. -/
def Obligations.TrayCommandsHaveTheirEffects : Prop :=
  (∀ (s : State) (req : Requester) (n : Fin 8) (v : Word) (t : Fin 16), s.Reached req .GP_PCFG [n.val] →
    (∀ k : Nat, k < 16 → ((v.toNat / 2 ^ 16).testBit k && !(s.fld .GP_PCFG [n.val] GP_PCFG_TRAYEN).testBit k) = decide (k = t.val)) →
    exec (.trayenWrite req n v) s = .next (
      let u := s.store .GP_PCFG [n.val] v.toNat
      let u : State := { u with staging := mclear u.staging (n.val * 2 ^ 28 + (0x10000 + t.val * 0x10000)) 0x10000 }
      let u : State := { u with staging := mclear u.staging (n.val * 2 ^ 28 + (0x8000 + 2048 * t.val)) 2048 }
      u.modGp n.val fun g => { g with count := mput g.count t.val 0, done := mput g.done t.val 0, crd := mput g.crd t.val 0,
                                      cmds := g.cmds.map fun x => if x.tray = t.val then { x with old := true } else x })) ∧
  (∀ (s : State) (n : Fin 8) (use : LinkUse), s.portOn n.val = true →
    let u := ((s.linkUse n.val use).bump .GP_SCANS [n.val]).scanAdmin n.val
    ((u.partOfPort n.val).isNone = true ∨ u.devState = 3 → exec (.trayScan n use) s = .next u) ∧
    ((u.partOfPort n.val).isNone = false → u.devState ≠ 3 → exec (.trayScan n use) s = .next
      (u.each ((List.range 16).filter (u.fld .GP_PCFG [n.val] GP_PCFG_TRAYEN).testBit) fun s t => s.scanTray n.val t 8))) ∧
  (∀ (s : State) (n : Fin 8) (rs : List (BitVec 34)) (o : BitVec 34) (refreshes errors : Nat), s.link n.val = lnkService →
    s.linkUse n.val { reads := rs ++ [o], modes := [], refreshes := refreshes, errors := errors } = (
      let bs := s.hostRead n.val o.toNat
      let u := (s.modGp n.val fun g => { g with hostData := bs, hostCheck := lineCheck bs }).bump .GP_HRD [n.val] (rs.length + 1)
      let u := u.bump .GP_OOR [n.val] (((rs ++ [o]).map BitVec.toNat).filter fun o => decide (bulkEnd ≤ o)).length
      (u.bump .GP_REFCMD [n.val] refreshes).bump .GP_LINKERR [n.val] errors)) ∧
  (∀ (s : State) (n o : Nat), (bulkEnd ≤ o → s.hostRead n o = List.replicate 64 0) ∧
    (o < bulkEnd → (s.partOfPort n).isSome = true → s.hostRead n o = s.stagPeek n (o / 64 * 64) 64)) ∧
  (∀ (s : State) (n t k : Nat),
    let m := mget (s.getGp n).count t
    let bs := s.stagPeek n (trayBase t + 64 * (m % 1024)) 64
    slotFld bs 0 4 = m + 1 →
    (slotFld bs 4 2 ≠ slotCheck bs → s.scanTray n t (k + 1) = s.bump .GP_TORN [n]) ∧
    (slotFld bs 4 2 = slotCheck bs → 32 ≤ (m + 2 ^ 32 - mget (s.getGp n).crd t) % 2 ^ 32 → s.scanTray n t (k + 1) = s) ∧
    (slotFld bs 4 2 = slotCheck bs → (m + 2 ^ 32 - mget (s.getGp n).crd t) % 2 ^ 32 < 32 → s.slotCode (cmdOf t m bs) bs = 0 →
      s.scanTray n t (k + 1) =
      ((s.modGp n fun g => { g with taken := g.taken + 1, cmds := g.cmds ++ [{ cmdOf t m bs with id := g.taken }] }).modGp n fun g =>
        { g with count := mput g.count t (if m = 2 ^ 32 - 2 then 0 else m + 1) }).scanTray n t k)) ∧
  (∀ (s : State) (n : Fin 8) (t : Fin 17) (x : Cmd), s.portOn n.val = true → s.nextCmd n.val t.val = some x → s.mayStart n.val x = true →
    let fin (u : State) (code result : Nat) : State := u.setCmd n.val x fun y => { y with st := 2, code := code, result := result, moved := 0 }
    let start (u : State) (key : Nat) : State := u.setCmd n.val x fun y => { y with st := 1, key := key + 1 }
    let own (y : Xfer) : Xfer :=
      { y with own := .tray n.val x.tray, part := (s.partOfPort n.val).getD 8, ep := 792 + n.val, loc := x.soff, len := x.len }
    (x.op = 0 → exec (.nop n t) s = .next (fin s 0 0)) ∧
    (x.op = 1 → s.regCodes n.val x false = 0 → x.flags.testBit 1 = false →
      exec (.regrd n t) s = .next (fin (s.readWord (.port n) x.adr).2 0 (s.readWord (.port n) x.adr).1)) ∧
    (x.op = 1 → s.regCodes n.val x false = 0 → x.flags.testBit 1 = true →
      exec (.regrd n t) s = .next (fin (s.wideRead (.port n) x.adr).2 0 (s.wideRead (.port n) x.adr).1)) ∧
    (x.op = 1 → x.adr % 4 = 0 → s.portReach n.val (x.tray == adminTray) x.adr false = false →
      exec (.regrd n t) s = .next (fin s 0x0C11 0)) ∧
    (x.op = 2 → s.regCodes n.val x true = 0 → x.flags.testBit 1 = false →
      let r := (s.setCmd n.val x fun y => { y with st := 1 }).writeWord (.port n) x.adr (x.data % 2 ^ 32) (some (n.val, t.val))
      (r.1 ≠ 0 ∨ (∀ y, y ∈ r.2.checks → y.cmd ≠ some (n.val, t.val))) →
      exec (.regwr n t) s = .next (r.2.setCmd n.val x fun y => { y with st := 2, code := r.1, result := 0, moved := 0 })) ∧
    (x.op = 3 → s.rangeCode n.val x ≠ 0 → exec (.copyIn n t) s = .next (fin s (s.rangeCode n.val x) 0)) ∧
    (∀ tag, x.op = 3 → s.rangeCode n.val x = 0 → s.freeTag (792 + n.val) = some tag → exec (.copyIn n t) s =
      .next (start (s.modXfer ((792 + n.val) * 32 + tag) fun _ => own { write := true, dev := x.adr }) ((792 + n.val) * 32 + tag))) ∧
    (∀ tag, x.op = 4 → s.rangeCode n.val x = 0 → s.freeTag (792 + n.val) = some tag → exec (.copyOut n t) s =
      .next (start (s.modXfer ((792 + n.val) * 32 + tag) fun _ => own { write := false, dev := x.adr }) ((792 + n.val) * 32 + tag))) ∧
    (x.op = 5 → s.rangeCode n.val x = 0 → s.bit .GP_SH_ADDR [n.val, x.handle] GP_SH_ADDR_EN = false →
      exec (.send n t) s = .next (fin s 0x0C12 0)) ∧
    (∀ tag, x.op = 5 → s.rangeCode n.val x = 0 → s.bit .GP_SH_ADDR [n.val, x.handle] GP_SH_ADDR_EN = true →
      let dev := s.val .GP_SH_ADDR [n.val, x.handle] % 2 ^ 48 / 128 * 128
      let hd := 0x10000 + n.val * 16 + x.handle + 1
      s.badSend dev x.len (s.stagPeek n.val x.soff 16) = false → s.freeTag (792 + n.val) = some tag → exec (.send n t) s =
        .next (start (s.modXfer ((792 + n.val) * 32 + tag) fun _ => own { write := true, dev := dev, handle := hd, seq := s.sendOrder hd })
          ((792 + n.val) * 32 + tag))) ∧
    (∀ c, x.op = 6 → coordCluster (x.data % 2 ^ 12) = some c → coordSlot (x.data % 2 ^ 12) < 19 → (s.partOfPort n.val).isSome = true →
      s.partOfCluster c = s.partOfPort n.val → s.isSplit = false → s.fencedEng c (coordSlot (x.data % 2 ^ 12)) = false →
      exec (.fenceEng n t) s = .next (fin (s.fenceAt c (coordSlot (x.data % 2 ^ 12))) 0 0))) ∧
  (∀ (s : State) (n : Fin 8) (t : Fin 17) (x : Cmd), s.portOn n.val = true → t.val < 16 →
    ((s.getGp n.val).cmds.findSome? fun x => if x.tray = t.val then s.ended x else none) = some x → x.key = 0 → x.tray = t.val →
    x.code = 0 → exec (.commandComplete n t) s = .next (((s.stagPoke n.val x.place x.record).bump .GP_CMDS [n.val]).modGp n.val fun g =>
      { g with cmds := g.cmds.filter fun y => y.id != x.id,
               done := if x.old = true then g.done else mput g.done t.val (if mget g.done t.val = 2 ^ 32 - 2 then 0 else mget g.done t.val + 1) })) ∧
  (∀ (s : State) (n : Fin 8), s.portOn n.val = true → s.bit .GP_EVSRC [n.val] GP_EVSRC_EN = true →
    (s.getGp n.val).evRd ≠ (s.getGp n.val).evWr → (s.getGp n.val).outq = [] →
    let r := s.evHead n.val
    let w := bitsOf r 70 14
    let u := s.modGp n.val fun g => { g with evRd := (g.evRd + 16) % 2 ^ 32 }
    (s.groupOf w = none → exec (.eventInInject n) s = .next (u.bump .GP_EVDROP [n.val])) ∧
    (∀ g, s.groupOf w = some g → ((s.evBinds n.val).any fun e => e.2 == g) = true → s.wgOpen g = true →
      (s.getWg g).opened.contains (eidPort n.val) = true → (s.getWg g).done.contains (eidPort n.val) = false →
      exec (.eventInInject n) s = .next ((u.modGp n.val fun p => { p with outq := p.outq ++ [mkFlit (bitsOf r 118 2) (bitsOf r 100 12)
        (bitsOf r 84 16) w (bitsOf r 64 6) (s.wgWStep g % 2 ^ 16) (bitsOf r 40 8) (s.wgTb g) (r.testBit 33)
        (s.fld .GP_EVSRC [n.val] GP_EVSRC_SRC)] }).bump .GP_EVINJ [n.val]))) ∧
  (∀ (s : State) (n : Fin 8) (ch : Fin 16) (meets : LineFate) (i foot sender pos : Nat) (rest : List (Nat × Nat × Nat)),
    let t := 0x10000 + n.val * 16 + ch.val
    let u := s.compRead t i (64 + foot) meets
    (s.getChan t).comp = (i, foot, sender) :: rest → (s.getChan t).place (s.tkSize t) foot = some (pos, 0) →
    (s.compReached t i = false → exec (.hostCompostDrain n { ch := ch, meets := meets }) s = .next (s.dmWake (s.slotAt t i) 4160)) ∧
    (s.compReached t i = true → meets.badIn (s.slotAt t i) (64 + foot) = true →
      exec (.hostCompostDrain n { ch := ch, meets := meets }) s = .next u) ∧
    (s.compReached t i = true → meets.badIn (s.slotAt t i) (64 + foot) = false →
      exec (.hostCompostDrain n { ch := ch, meets := meets }) s = .next (
      let u := u.modChan t fun x => { x with wrp := (x.wrp + 0 + foot) % 2 ^ 32, resv := x.resv ++ [{ pos := pos, len := foot }] }
      let u := (u.ringPoke t pos (s.peekN (s.slotAt t i + 64) foot)).markDone t pos
      (u.dropComp t 1).publishFront t ((u.getChan t).resv.length)))) ∧
  (∀ (s : State) (n : Fin 8), s.portOn n.val = true → exec (.mirrorUpdate n) s =
    .next ((s.flushLog n.val).each ((s.flushLog n.val).mirrorRecs n.val) fun s r => s.putMirror n.val r.1 r.2))

/-- What partitions, maps, enables and consistency checks do: Where the rule's conditions hold, each command answers a next state and the
whole of it is given: EN = 1 of a partition, a map, an event source of a port that no map binds, a bind entry or a host channel stores the
fields, leaves EN at 0 and asks for the check; EN = 0 of an active partition disables its units, unbinds its ports, wipes its memory and
leaves it RELEASING, and the wipe's end leaves it DISABLED; EN = 0 of a map unbinds the port, except that a partition's last port stays
bound with 0x0C05; a write by a port that is not administrative is refused with 0x0C06; and the end of the oldest check sets the enable bit
and starts the unit where its code is 0, or posts the code in the unit's REASON and in the reason logs. -/
def Obligations.PartitionAndCheckCommandsHaveTheirEffects : Prop :=
  (∀ (s : State) (req : Requester) (p : Fin 8) (v : Word), s.Reached req .GP_PART_CFG [p.val] →
    (s.mapWriter req = true → s.fld .GP_PART_STATUS [p.val] GP_PART_STATUS_STATE = 0 → s.checking (.part p.val) = false →
      s.bit .GP_PART_CFG [p.val] GP_PART_CFG_EN = false → exec (.partitionEnable req p v) s =
        .next (((s.store .GP_PART_CFG [p.val] (withEn v true)).setFld .GP_PART_CFG [p.val] GP_PART_CFG_EN 0).askCheck (.part p.val)
          (withEn v true) none)) ∧
    (s.mapWriter req = true → s.fld .GP_PART_STATUS [p.val] GP_PART_STATUS_STATE = 1 → s.checking (.part p.val) = false →
      s.bit .GP_PART_CFG [p.val] GP_PART_CFG_EN = true → exec (.partitionRelease req p v) s = .next (
        let u := (s.unitsOff p.val 0x0185 false).ksRelease p.val
        let u := u.each ((List.range 8).filter fun n => u.partOfPort n == some p.val) fun s n => (s.unbindPort n).portWipe n
        ((u.partMemory p.val).setFld .GP_PART_CFG [p.val] GP_PART_CFG_EN 0).setFld .GP_PART_STATUS [p.val] GP_PART_STATUS_STATE 2))) ∧
  (∀ (s : State) (req : Requester) (p : Fin 8) (v : Nat), s.mapWriter req = false → s.regWrite req .GP_PART_CFG [p.val] v none =
    (0x0C06, (s.setFld .GP_PART_STATUS [p.val] GP_PART_STATUS_REASON 0x0C06).post none 2 p.val 0xFFFF 0x0C06)) ∧
  (∀ (s : State) (p : Fin 8), s.fld .GP_PART_STATUS [p.val] GP_PART_STATUS_STATE = 2 →
    exec (.partitionReleaseComplete p) s = .next (s.setFld .GP_PART_STATUS [p.val] GP_PART_STATUS_STATE 0)) ∧
  (∀ (s : State) (req : Requester) (n : Fin 8) (v : Word), s.Reached req .GP_MAP [n.val] → s.mapWriter req = true →
    s.checking (.map n.val) = false →
    (s.bit .GP_MAP [n.val] GP_MAP_EN = false → exec (.gpMapEnable req n v) s =
      .next (((s.store .GP_MAP [n.val] (withEn v true)).setFld .GP_MAP [n.val] GP_MAP_EN 0).askCheck (.map n.val) (withEn v true) none)) ∧
    (s.bit .GP_MAP [n.val] GP_MAP_EN = true → s.lastPort n.val = false →
      exec (.gpMapDisable req n v) s = .next ((s.portLeaves n.val).setFld .GP_MAP [n.val] GP_MAP_EN 0)) ∧
    (s.bit .GP_MAP [n.val] GP_MAP_EN = true → s.lastPort n.val = true →
      exec (.gpMapDisable req n v) s = .next (s.post (s.partOfPort n.val) 8 n.val 0xFFFF 0x0C05))) ∧
  (∀ (s : State) (req : Requester) (n : Fin 8) (v : Word), s.Reached req .GP_EVSRC [n.val] → s.checking (.evsrc n.val) = false →
    s.checking (.map n.val) = false → s.bit .GP_EVSRC [n.val] GP_EVSRC_EN = false →
    (s.bit .GP_MAP [n.val] GP_MAP_EN = false → exec (.gpEvsrcEnable req n v) s =
      .next ((s.setFld .GP_EVSRC [n.val] GP_EVSRC_SRC (withTop v true)).askCheck (.evsrc n.val) (withTop v true) none)) ∧
    (s.bit .GP_MAP [n.val] GP_MAP_EN = true → exec (.gpEvsrcEnable req n v) s = .next s)) ∧
  (∀ (s : State) (req : Requester) (c : Fin 96) (n : Fin 8) (v : Word), s.Reached req .MX_BIND [c.val, n.val] →
    s.checking (.mxbind c.val n.val) = false → s.bit .MX_BIND [c.val, n.val] MX_BIND_EN = false →
    exec (.bindEntryEnable req (.mx c n) v) s = .next (((s.store .MX_BIND [c.val, n.val] (withEn v true)).setFld .MX_BIND [c.val, n.val]
      MX_BIND_EN 0).askCheck (.mxbind c.val n.val) (withEn v true) none)) ∧
  (∀ (s : State) (req : Requester) (c : Fin 96) (k : Fin 2) (n : Fin 8) (v : Word), s.Reached req .VX_BIND [c.val, k.val, n.val] →
    s.checking (.vxbind c.val k.val n.val) = false → s.bit .VX_BIND [c.val, k.val, n.val] VX_BIND_EN = false →
    exec (.bindEntryEnable req (.vx c k n) v) s = .next (((s.store .VX_BIND [c.val, k.val, n.val] (withEn v true)).setFld .VX_BIND
      [c.val, k.val, n.val] VX_BIND_EN 0).askCheck (.vxbind c.val k.val n.val) (withEn v true) none)) ∧
  (∀ (s : State) (req : Requester) (n b : Fin 8) (v : Word), s.Reached req .GP_EVBIND [n.val, b.val] →
    s.checking (.evbind n.val b.val) = false → s.bit .GP_EVBIND [n.val, b.val] GP_EVBIND_EN = false →
    exec (.bindEntryEnable req (.port n b) v) s = .next (((s.store .GP_EVBIND [n.val, b.val] (withEn v true)).setFld .GP_EVBIND
      [n.val, b.val] GP_EVBIND_EN 0).askCheck (.evbind n.val b.val) (withEn v true) none)) ∧
  (∀ (s : State) (req : Requester) (n : Fin 8) (ch : Fin 16) (v : Word), s.Reached req .GP_HC_CFG [n.val, ch.val] →
    s.checking (.hchan n.val ch.val) = false → s.bit .GP_HC_CFG [n.val, ch.val] GP_HC_CFG_EN = false →
    exec (.hostChannelEnable req n ch v) s = .next (((s.store .GP_HC_CFG [n.val, ch.val] (withEn v true)).setFld .GP_HC_CFG
      [n.val, ch.val] GP_HC_CFG_EN 0).askCheck (.hchan n.val ch.val) (withEn v true) none)) ∧
  (∀ (s : State) (x : Check) (rest : List Check), s.checks = x :: rest → x.cmd = none →
    let u : State := { s with checks := rest }
    (u.checkCode x = 0 → exec .consistencyCheckComplete s = .next (u.checkAccept x)) ∧
    (u.checkCode x ≠ 0 → exec .consistencyCheckComplete s = .next (u.checkRefuse x (u.checkCode x))) ∧
    (∀ n, x.unit = .tb n → u.isSplit = false → u.tbCheck n = 0 → exec .consistencyCheckComplete s = .next (u.tbStart n)) ∧
    (∀ g, x.unit = .wg g → u.isSplit = false → u.wgCheck g = 0 → exec .consistencyCheckComplete s = .next (u.wgStart g)) ∧
    (∀ g, x.unit = .wg g → u.isSplit = false → u.wgCheck g ≠ 0 →
      exec .consistencyCheckComplete s = .next (u.post (some (u.wgPart g)) 1 g 0xFFFF (u.wgCheck g))) ∧
    (∀ n, x.unit = .map n → u.isSplit = false → u.mapCheck n (u.fld .GP_MAP [n] GP_MAP_PART) = 0 → exec .consistencyCheckComplete s =
      .next (((u.setFld .GP_MAP [n] GP_MAP_PART (u.fld .GP_MAP [n] GP_MAP_PART)).setFld .GP_MAP [n] GP_MAP_EN 1).wakeDomain (220 + n) 1)) ∧
    (∀ n, x.unit = .evsrc n → u.isSplit = false → u.evsrcCheck n = 0 →
      exec .consistencyCheckComplete s = .next (u.setFld .GP_EVSRC [n] GP_EVSRC_EN 1)) ∧
    (∀ c h, x.unit = .send c h → u.isSplit = false → u.handleCheck (u.partOfCluster c) (u.val .MQ_SH_ADDR [c, h]) = 0 →
      exec .consistencyCheckComplete s = .next (u.setFld .MQ_SH_CFG [c, h] MQ_SH_CFG_EN 1)) ∧
    (∀ n, x.unit = .remap n → u.isSplit = false → u.remapCheck n ≠ 0 → exec .consistencyCheckComplete s =
      .next ((u.setVal .EF_REMAPST [0] (u.remapCheck n * 2 ^ 16 + n)).post (some (u.fld .EF_REMAP [0, n] EF_REMAP_PART)) 9 n 0xFFFF
        (u.remapCheck n))))

/-- What cells, credits, deliveries, failures and the throttle of the seam do: Where the rule's conditions hold, each command answers a next
state and the whole of it is given: when no lane before its own waits, a cell that its lane's receiver expects, sent before and with a
correct CRC, is accepted, its contents land, the ACK it carries frees cells of the other direction and the control messages it brought act,
one with a bad CRC is discarded and counted, which the 16th failed replay turns into the link's failure, and one out of order is discarded;
a new trellis cell carries the oldest beat of the link's crossings; a replay request that the receiver owes frees what its ACK covers and is
counted, an idle cell frees what its ACK covers; a credit cell returns the event and trellis credits that wait; the first flit of the
receive side enters the edge router of its row when that can take it, and its credit waits to be returned; a held beat takes a credit; a
link without valid cells leaves service with 0x0D24, its crossings and cells moving to the others while both directions keep one, and
without one the halves split; and a throttle that is due publishes its reduced slots and posts 0x0D06. -/
def Obligations.SeamCommandsHaveTheirEffects : Prop :=
  (∀ (s : State) (d : Fin 2) (l : Fin 4) (vl : Fin 3) (fate : CellFate), s.inSvc l.val = true → s.linkRate d.val l.val ≠ 0 → s.isSplit = false →
    (∀ k : Nat, vl.val < k → k < 3 → s.cellWaits d.val l.val k = false) →
    let x := s.getLane d.val l.val
    let act (v : State) : State := (v.modSdir d.val fun y => { y with got := [] }).each (v.getSdir d.val).got fun s m => 
      s.cnLanded (1 - d.val) m { links := fate.links, bad := fate.bad }
    let take (v : State) (c : Cargo) : State := act (((((v.bump .SM_CELLS [l.val]).modLane d.val l.val fun x =>
      { x with exp := (x.exp + 1) % 1024, fails := 0, nak := false }).landCell d.val c).ackFree (1 - d.val) l.val))
    (∀ c, (x.buf.find? fun b => b.1 == x.exp) = some (x.exp, c) →
      let u := (((s.bump .SM_CELLS [l.val]).bump .SM_CRCERR [l.val]).cellDiscard d.val l.val).modLane d.val l.val fun x =>
        { x with fails := x.fails + 1 }
      (fate.ahead = false → fate.good = true → exec (.seamDataCell d l vl fate) s = .next (take s c)) ∧
      (fate.ahead = false → fate.good = false → x.fails < 15 → exec (.seamDataCell d l vl fate) s = .next (act u)) ∧
      (fate.ahead = false → fate.good = false → 15 ≤ x.fails →
        exec (.seamDataCell d l vl fate) s = .next (act (u.linkFail d.val l.val 0x0D23))) ∧
      (∀ w, fate.ahead = true → fate.good = true → s.newCell d.val l.val vl.val = some w → exec (.seamDataCell d l vl fate) s =
        .next (act ((w.2.bump .SM_CELLS [l.val]).cellDiscard d.val l.val)))) ∧
    (∀ b, vl.val = 1 → (x.buf.find? fun b => b.1 == x.exp) = none → x.buf.length < 256 → (s.getSdir d.val).moved = [] →
      ((s.getSdir d.val).tq.find? fun b => s.crossLink d.val b.cross == l.val) = some b →
      fate.good = true → exec (.seamDataCell d l vl fate) s = .next (take ((s.modSdir d.val fun _ => { s.getSdir d.val with tq := (s.getSdir d.val).tq.erase b }).modLane
        d.val l.val fun x => { x with next := (x.next + 1) % 1024, buf := x.buf ++ [(x.next, .beat b)] }) (.beat b)))) ∧
  (∀ (s : State) (d : Nat),
    (∀ b : SBeat, (s.getXfer b.key).own ≠ .none → (s.getXfer b.key).fin = 0 →
      s.landCell d (.beat b) = (s.modSdir d fun x => { x with fifo := x.fifo ++ [b] }).bump .SM_TBEATS [d]) ∧
    (∀ ws, s.landCell d (.ctl ws) = s.modSdir d fun x => { x with got := x.got ++ [ws] }) ∧
    (∀ fs, s.landCell d (.event fs) = ((s.modSdir d fun x => { x with recv := x.recv ++ fs }).bump .SM_EVX [d] fs.length).imported (1 - d) fs)) ∧
  (∀ (s : State) (d : Fin 2) (l : Fin 4), s.inSvc l.val = true → s.isSplit = false →
    ((s.getLane d.val l.val).nak = true → exec (.seamReplayRequest d l) s =
      .next (((s.modLane d.val l.val fun x => { x with nak := false }).ackFree d.val l.val).bump .SM_REPLAY [l.val])) ∧
    ((s.getLane d.val l.val).nak = false → exec (.seamReplayRequest d l) s = .next s) ∧
    exec (.seamIdleCell d l) s = .next (s.ackFree (1 - d.val) l.val)) ∧
  (∀ (s : State) (d l : Nat), (∀ b, b ∈ (s.getLane d l).buf → ∀ fs, b.2 ≠ .event fs) →
    s.ackFree d l = s.modLane d l fun x => { x with buf := x.buf.filter fun b => !x.accepted b.1 }) ∧
  (∀ (s : State) (d : Fin 2), s.isSplit = false → exec (.seamCreditCell d) s = .next (s.modSdir d.val fun x =>
    { x with evUsed := x.evUsed - x.evRet, evRet := 0, tUsed := x.tUsed - x.tRet, tRet := 0 })) ∧
  (∀ (s : State) (d : Fin 2) (m : MFlit) (rest : List MFlit), (s.getSdir d.val).recv = m :: rest →
    ((s.getSdir d.val).recv.find? fun m => s.isGolden (1 - d.val) m.f) = none →
    fDY m.f < 6 → s.edgeTakes d.val (fDY m.f) = true → exec (.seamEventDeliver d) s = .next ((s.modSdir d.val fun x =>
      { x with recv := x.recv.erase m, evRet := x.evRet + 1 }).modRt (edgeOf d.val (fDY m.f)) fun r => r.setInput (edgeIn d.val) (some m))) ∧
  (∀ (s : State) (d : Fin 2) (b : SBeat) (t : List SBeat), (s.getSdir d.val).hold = b :: t → (s.getSdir d.val).tUsed < 8192 →
    exec (.seamHoldRelease d) s = .next (s.modSdir d.val fun x => { x with hold := t, tq := x.tq ++ [b], tUsed := x.tUsed + 1 })) ∧
  (∀ (s : State) (d : Fin 2) (l : Fin 4), s.inSvc l.val = true → s.isSplit = false →
    let r := s.val .SM_LREASON [l.val]
    let u := s.setVal .SM_LREASON [l.val] (if d.val = 0 then 0x0D24 * 2 ^ 16 + r % 2 ^ 16 else r / 2 ^ 16 * 2 ^ 16 + 0x0D24)
    let u := (u.post none 9 l.val 0xFFFF 0x0D24).setFld .SM_LINK [l.val] (if d.val = 0 then SM_LINK_STATEW else SM_LINK_STATEE) 3
    let u := u.setFld .SM_STATUS [] SM_STATUS_INSVC (setBits (u.fld .SM_STATUS [] SM_STATUS_INSVC) l.val 1 0)
    let u := ((u.setFld .SM_STATUS [] SM_STATUS_STATE 1).noteCtl.updateCaps).moveCross l.val
    (u.dirAlive 0 = true → u.dirAlive 1 = true → exec (.seamRxTimeout d l) s = .next (u.each [0, 1] fun s d =>
      let s := (s.moveCells d l.val).bump .SM_RESTRIPE [d]
      if s.throttledLoad d > s.fld (capReg d) [] SM_CAPW2E_TSLOTS then s.modSdir d fun x => { x with thr := 3 } else s)) ∧
    (u.dirAlive 0 = false ∨ u.dirAlive 1 = false → exec (.seamRxTimeout d l) s = .next u.enterSplit)) ∧
  (∀ (s : State), ((s.getSdir 0).thr ≠ 1 → (s.getSdir 1).thr ≠ 1 → exec .seamThrottle s = .next s) ∧
    ((s.getSdir 0).thr = 1 → (s.getSdir 1).thr ≠ 1 → exec .seamThrottle s = .next (
      let u := s.modSdir 0 fun x => { x with thr := 0 }
      let t := u.fld .SM_CAPW2E [] SM_CAPW2E_TSLOTS
      let load := u.val .SM_LOADW2E []
      let u := u.each ((List.range 64).filter fun n => (u.getSch n).cross.any fun y => y.dir == 0) fun s n =>
        s.modSch n fun x => { x with thr := (0, t, load) :: x.thr.filter (·.1 != 0) }
      let u := (u.setFld .SM_STATUS [] SM_STATUS_THROTTLE 1).setFld .SM_STATUS [] SM_STATUS_REASON 0x0D06
      (u.post none 9 0 0xFFFF 0x0D06).remask)))

/-- What requests, transitions and wakes of the switched domains do: Where the rule's conditions hold, each command answers a next state and
the whole of it is given: an allowed request stores its target, records its source where it asks a domain that is not ON for ON, and is
taken up at once, posting 0x0E01 where holds keep it pending; taking a request up only clears PEND and HOLD where the domain already stands
as asked, sets them to the holds that keep it back, waits while accesses that an ON domain has accepted are not complete, and otherwise
begins the transition, in which a domain that leaves ON marks its requesters; a wake by its source brings a domain that is not ON into
transition to ON, records the source and, but for a reset, asks for ON; and a transition that has nothing left to drain arrives, a cluster's
matrix subdomain and voltage following it. -/
def Obligations.DomainCommandsHaveTheirEffects : Prop :=
  (∀ (s : State) (req : Requester) (n : Fin 229) (v : Word), s.Reached req .PW_REQ [n.val] → s.pw.tripped = false →
    s.pwWriter req (if n.val < 96 then some n.val else if n.val < 192 then some (n.val - 96) else none) = true → v.toNat % 4 ≠ 3 →
    s.pwForbidden n.val (v.toNat % 4) req = false →
    exec (.pwReqWrite req n v) s = .next (
      let u := s.setFld .PW_REQ [n.val] PW_REQ_TARGET (v.toNat % 4)
      let u := if u.domWant n.val = 0 ∧ u.fld .PW_STAT [n.val] PW_STAT_STATE ≠ 0 then
        u.setFld .PW_STAT [n.val] PW_STAT_WAKESRC (match req with | .port _ => 2 | _ => 1) else u
      let u := u.domStep n.val
      if u.bit .PW_STAT [n.val] PW_STAT_PEND = true then
        (u.setFld .PW_STAT [n.val] PW_STAT_REASON 0x0E01).post (u.domPart n.val) 9 n.val 0xFFFF 0x0E01
      else u)) ∧
  (∀ (s : State) (n : Fin 229), s.pw.tripped = false →
    let st := s.fld .PW_STAT [n.val] PW_STAT_STATE
    let t := s.domWant n.val
    st ≠ 3 →
    (t = st → exec (.domainTransition n) s = .next ((s.setFld .PW_STAT [n.val] PW_STAT_PEND 0).setFld .PW_STAT [n.val] PW_STAT_HOLD 0)) ∧
    (st < t → s.holds n.val t ≠ 0 → exec (.domainTransition n) s =
      .next ((s.setFld .PW_STAT [n.val] PW_STAT_PEND 1).setFld .PW_STAT [n.val] PW_STAT_HOLD (s.holds n.val t))) ∧
    (st = 0 → st < t → s.holds n.val t = 0 → s.domAccepted n.val = true → exec (.domainTransition n) s = .next s) ∧
    (t < st ∨ st < t ∧ s.holds n.val t = 0 → (st = 0 → s.domAccepted n.val = false) → exec (.domainTransition n) s = .next (
      let u := ((s.setFld .PW_STAT [n.val] PW_STAT_PEND 0).setFld .PW_STAT [n.val] PW_STAT_HOLD 0).setFld .PW_STAT [n.val] PW_STAT_STATE 3
      let u := u.modDom n.val fun _ => { goal := t + 1, was := st }
      if st = 0 then u.domLeave n.val else u))) ∧
  (∀ (s : State) (n : Fin 229) (src : Fin 16), s.pw.tripped = false →
    (src.val = 3 ∧ 96 ≤ n.val ∧ n.val < 192 ∨ src.val = 4 ∧ 196 ≤ n.val ∧ n.val < 220 ∨ src.val = 5 ∨ src.val = 6 ∧ n.val < 192) →
    let st := s.fld .PW_STAT [n.val] PW_STAT_STATE
    (st ≠ 0 → (s.getDom n.val).goal ≠ 1 → exec (.domainWake n src) s = .next (
      let u := (s.setFld .PW_STAT [n.val] PW_STAT_STATE 3).setFld .PW_STAT [n.val] PW_STAT_WAKESRC src.val
      let u := u.modDom n.val fun d => { goal := 1, was := if st = 3 then d.was else st, back := src.val == 5 }
      if src.val = 5 then u else u.setFld .PW_REQ [n.val] PW_REQ_TARGET 0)) ∧
    (st = 0 ∨ (s.getDom n.val).goal = 1 → exec (.domainWake n src) s = .next s)) ∧
  (∀ (s : State) (n : Fin 229), s.fld .PW_STAT [n.val] PW_STAT_STATE = 3 → s.domDrains n.val = false →
    let dst := (s.getDom n.val).goal - 1
    let u := (s.modDom n.val fun d => { was := d.was, back := d.back && dst == 0 }).domArrive n.val dst
    (96 ≤ n.val → exec (.domainTransitionComplete n) s = .next u.rstWakes) ∧
    (n.val < 96 → exec (.domainTransitionComplete n) s = .next (
      let m := 96 + n.val
      let w := if u.fld .PW_STAT [m] PW_STAT_STATE = u.domWant m then u
        else ((u.modDom m fun _ => { back := (s.getDom n.val).back }).setFld .PW_STAT [m] PW_STAT_WAKESRC
          (u.fld .PW_STAT [n.val] PW_STAT_WAKESRC)).domArrive m (u.domWant m)
      (w.setFld .CK_VID [halfOf n.val] CK_VID_CODE (w.vidNeed (halfOf n.val))).rstWakes)))

/-- What core clock, fabric clock and rail commands do: Where the rule's conditions hold, each command answers a next state and the whole of
it is given: a core clock write from 800 MHz to 2.2 GHz, and not below the fabric clock of a cluster at a circuit's end, stores the request,
names the caps below it and sets the clock's goal, first raising the voltage where it must; the relock makes the goal the effective clock
and sets the voltage the half needs; a fabric clock write that passes its check makes the half busy and quiesces its trellis, or first
raises the voltage, and its relock, once the half is quiet with nothing held, sets the clock, rewrites the seam's capacities and resumes, or
abandons the change with 0x0A02 where a bank-port cluster would then run below it; a rail within its bounds sets OK and lets the raises that
waited go on, and one outside them clears OK, posts 0x0E09 and abandons the raises. -/
def Obligations.ClockCommandsHaveTheirEffects : Prop :=
  (∀ (s : State) (req : Requester) (c : Fin 96) (v : Word), s.Reached req .CK_CORE [c.val] → s.pw.tripped = false →
    s.pwWriter req (some c.val) = true → 8 ≤ v.toNat % 32 → v.toNat % 32 ≤ 22 →
    (s.bankEnd c.val = false ∨ s.fabHigh (halfOf c.val) ≤ v.toNat % 32) →
    exec (.ckCoreWrite req c v) s = .next (
      let u := s.setFld .CK_CORE [c.val] CK_CORE_REQ (v.toNat % 32)
      let u := u.setFld .CK_CORE [c.val] CK_CORE_CAPSRC (u.clkSrc c.val)
      if u.clkWant c.val = u.coreEff c.val then u.modClk c.val fun k => { k with goal := 0, rail := false }
      else
        let u' := u.modClk c.val fun k => { k with goal := u.clkWant c.val, rail := false }
        if u'.coreEff c.val < u.clkWant c.val ∧ u'.vid (halfOf c.val) < u'.vidNeed (halfOf c.val) then
          (u'.setFld .CK_VID [halfOf c.val] CK_VID_CODE (u'.vidNeed (halfOf c.val))).modClk c.val fun k => { k with rail := true }
        else u')) ∧
  (∀ (s : State) (c : Fin 96), (s.getClk c.val).goal ≠ 0 → (s.getClk c.val).rail = false →
    exec (.coreClockRelockDone c) s = .next (
      let u := (s.setFld .CK_CORE [c.val] CK_CORE_EFF (s.getClk c.val).goal).modClk c.val fun k => { k with goal := 0 }
      u.setFld .CK_VID [halfOf c.val] CK_VID_CODE (u.vidNeed (halfOf c.val)))) ∧
  (∀ (s : State) (req : Requester) (h : Fin 2) (v : Word), s.Reached req .CK_FAB [h.val] → s.pw.tripped = false →
    s.pwWriter req none = true → 8 ≤ v.toNat % 32 → v.toNat % 32 ≤ 16 → s.bit .CK_FAB [h.val] CK_FAB_BUSY = false →
    v.toNat % 32 ≠ s.fabEff h.val → s.fabCheck h.val (v.toNat % 32) = 0 →
    let u := ((s.setFld .CK_FAB [h.val] CK_FAB_REQ (v.toNat % 32)).setFld .CK_FAB [h.val] CK_FAB_BUSY 1).modHf h.val fun x =>
      { x with fab := 1, fabTo := v.toNat % 32 }
    exec (.ckFabWrite req h v) s = .next (
      if u.vid h.val < u.vidNeed h.val then u.setFld .CK_VID [h.val] CK_VID_CODE (u.vidNeed h.val)
      else (u.modHf h.val fun x => { x with fab := 2 }).modHf h.val fun x => { x with quiesce := true, resume := false })) ∧
  (∀ (s : State) (h : Fin 2), (s.getHf h.val).fab = 2 → s.isQuiet h.val = true → (s.getSdir h.val).hold = [] →
    (s.bankSlow h.val (s.getHf h.val).fabTo = true → exec (.fabricClockRelockDone h) s = .next (
      let u := (s.setFld .CK_FAB [h.val] CK_FAB_REQ (s.fabEff h.val)).setFld .CK_FAB [h.val] CK_FAB_BUSY 0
      let u := ((u.modHf h.val fun x => { x with fab := 0, fabTo := 0 }).setFld .CK_STATUS [] CK_STATUS_REASON 0x0A02).post none 9 h.val
        0xFFFF 0x0A02
      let u := u.modHf h.val fun x => { x with resume := true, quiesce := false }
      (u.setFld .CK_VID [h.val] CK_VID_CODE (u.vidNeed h.val)).noteThrot)) ∧
    (s.bankSlow h.val (s.getHf h.val).fabTo = false → exec (.fabricClockRelockDone h) s = .next (
      let u := (s.setFld .CK_FAB [h.val] CK_FAB_EFF (s.getHf h.val).fabTo).setFld .CK_FAB [h.val] CK_FAB_BUSY 0
      let u := u.modHf h.val fun x => { x with fab := 0, fabTo := 0 }
      let u := if u.isSplit = true then u else u.updateCaps.remask
      let u := u.modHf h.val fun x => { x with resume := true, quiesce := false }
      (u.setFld .CK_VID [h.val] CK_VID_CODE (u.vidNeed h.val)).noteThrot))) ∧
  (∀ (s : State) (h : Fin 2),
    exec (.vidRailCheck h true) s = .next (
      let u := (s.setFld .CK_VID [h.val] CK_VID_OK 1).each (halfClusters h.val) fun s c =>
        if (s.getClk c).rail = true then s.modClk c fun k => { k with rail := false } else s
      if (u.getHf h.val).fab = 1 then
        (u.modHf h.val fun x => { x with fab := 2 }).modHf h.val fun x => { x with quiesce := true, resume := false }
      else u) ∧
    exec (.vidRailCheck h false) s = .next (
      let u := (s.setFld .CK_VID [h.val] CK_VID_OK 0).setFld .CK_STATUS [] CK_STATUS_REASON 0x0E09
      let u := (u.post none 9 h.val 0xFFFF 0x0E09).each (halfClusters h.val) fun s c =>
        if (s.getClk c).rail = true then s.modClk c fun k => { k with rail := false, goal := 0 } else s
      let u := if (u.getHf h.val).fab = 1
        then (u.modHf h.val fun x => { x with fab := 0, fabTo := 0 }).setFld .CK_FAB [h.val] CK_FAB_BUSY 0 else u
      u.setFld .CK_VID [h.val] CK_VID_CODE (u.vidNeed h.val)))

/-- What droops, sensor samples, thermal and power steps, power estimates and telemetry transfers do: Each command answers a next state and
the whole of it is given: a droop is counted and stretches its clock, and its end adds the stretched cycles, handing over to the half where
it passes; a sample is stored with the hottest temperature, and 110 °C in two samples running of one sensor trips the device, while a cooler
one clears the first; a cluster at or above the throttle point gets a cap one step below its clock or cap, never under its floor; a backbone
sensor at the point lowers an idle fabric clock above 0.8 GHz; an estimate above 720 W stretches and posts 0x0E0A; with no estimate the
power cap stays; a one-byte I3C write sets the offset, and a read latches the page and answers its bytes from the offset on; a dynamic
address is kept. -/
def Obligations.TemperatureAndPowerCommandsHaveTheirEffects : Prop :=
  (∀ (s : State) (c : Fin 98), exec (.droopTrigger c) s = .next ((s.bump .PW_DROOP [c.val]).modClk c.val fun k => { k with stretch := true }) ∧
    ∀ (cycles : Nat), (s.getClk c.val).stretch = true →
      let u := (s.bump .PW_DSTR [c.val] cycles).modClk c.val fun k => { k with stretch := false }
      exec (.droopStretchEnd c cycles false) s = .next u ∧
      (c.val < 96 → exec (.droopStretchEnd c cycles true) s = .next (u.modClk (96 + halfOf c.val) fun k => { k with stretch := true }))) ∧
  (∀ (s : State) (j : Fin 196) (v : Half),
    let u := s.setVal .PW_TEMP [j.val] v.toNat
    let u := u.setFld .PW_STATUS [] PW_STATUS_TJMAX ((max (u.hottest 0) (u.hottest 1)) / 4).toNat
    (v.toInt < 440 → exec (.sensorSample j v) s = .next (u.modPw fun p => { p with hot := p.hot.filter (· != j.val) })) ∧
    (440 ≤ v.toInt → u.pw.hot.contains j.val = false →
      exec (.sensorSample j v) s = .next (u.modPw fun p => { p with hot := p.hot ++ [j.val] })) ∧
    (440 ≤ v.toInt → u.pw.hot.contains j.val = true → exec (.sensorSample j v) s = .next u.trip)) ∧
  (∀ (s : State), s.trip.pw.tripped = true ∧ s.trip.tb = [] ∧ s.trip.wg = [] ∧ s.trip.rt = [] ∧ s.trip.xfer = [] ∧ s.trip.staging = []) ∧
  (∀ (s : State) (c : Fin 96) (cooled : Bool),
    (s.throt ≤ s.clusterTemp c.val → exec (.thermalCapStep c cooled) s = .next (
      let u := if (s.getClk c.val).therm = 0 then s.ckPost (s.partOfCluster c.val) c.val c.val 0x0E06 else s
      ((u.modClk c.val fun k => { k with
        therm := max (u.clkFloor c.val) ((if k.therm = 0 then u.coreEff c.val else k.therm) - 1) }).clkUpdate c.val).noteThrot)) ∧
    (s.clusterTemp c.val ≤ s.throt - 12 → (s.getClk c.val).therm ≠ 0 → exec (.thermalCapStep c true) s = .next (
      ((s.modClk c.val fun k => { k with therm := if k.therm = 0 ∨ k.therm + 1 ≥ s.fld .CK_CORE [c.val] CK_CORE_REQ then 0
        else k.therm + 1 }).clkUpdate c.val).noteThrot)) ∧
    (s.clusterTemp c.val < s.throt → cooled = false ∨ s.throt - 12 < s.clusterTemp c.val ∨ (s.getClk c.val).therm = 0 →
      exec (.thermalCapStep c cooled) s = .next s)) ∧
  (∀ (s : State) (h : Fin 2) (held : Bool), s.bit .CK_FAB [h.val] CK_FAB_BUSY = false → 8 < s.fabEff h.val →
    s.throt ≤ s.temp (192 + 2 * h.val) →
    exec (.thermalFabricStep h held) s = .next (((s.ckPost none h.val 0xFFFF 0x0E08).fabStart h.val (s.fabEff h.val - 1)).noteThrot)) ∧
  (∀ (s : State) (w e : Nat),
    let u := (s.modPw fun p => { p with est := ((w, e) :: p.est).take 100 }).setFld .PW_STATUS [] PW_STATUS_POWER (min (w + e) 1023)
    (720 < w + e → exec (.powerEstimate w e) s = .next ((((u.bump .PW_PKSTR []).setFld .PW_STATUS [] PW_STATUS_PKSTR 1).modPw fun p =>
      { p with peak := true }).ckPost none 0 0xFFFF 0x0E0A)) ∧
    (w + e ≤ 720 → exec (.powerEstimate w e) s = .next (u.setFld .PW_STATUS [] PW_STATUS_PKSTR (if u.pw.peak then 1 else 0)))) ∧
  (∀ (s : State), exec .peakStretchEnd s = .next (s.modPw fun p => { p with peak := false })) ∧
  (∀ (s : State) (h : Fin 2) (rise : Bool), s.isSplit = false → s.pw.est ≠ [] →
    let sum := (s.pw.est.map fun e => e.1 + e.2).sum
    let cap := s.val .PW_PCAP []
    (cap * s.pw.est.length < sum → exec (.powerCapStep h rise) s = .next (
      let cs := (List.range 96).filter s.domOn
      let u := if cs.all fun c => (s.getClk c).pow == 0 then s.ckPost none h.val 0xFFFF 0x0E07 else s
      (u.each cs fun s c => (s.modClk c fun k => { k with
        pow := max (s.clkFloor c) ((if k.pow = 0 then s.coreEff c else k.pow) - 1) }).clkUpdate c).noteThrot)) ∧
    (sum ≤ cap * s.pw.est.length → exec (.powerCapStep h false) s = .next s)) ∧
  (∀ (s : State) (b : Byte) (n : Nat) (a : BitVec 7),
    exec (.i3cOffsetWrite b) s = .next (s.modPw fun p => { p with off := b.toNat % 64 }) ∧
    exec (.i3cRead n) s = .next (s.modPw fun p =>
      { p with page := s.eastKept, out := (List.range n).map fun i => s.eastKept.getD ((p.off + i) % 64) 0 }) ∧
    exec (.i3cDynamicAddress a) s = .next (s.modPw fun p => { p with dyn := some a.toNat }) ∧
    s.telemetry.length = 64)

/-- What the reset pins, the watchdog, the supplies and the completed phases of a start do: Each command answers a next state, which is
given: PORST_N low leaves what a device reset keeps, with the next start cold and THERMTRIP_N let go, and its rise starts a cold start at
phase 1 with RESETS 0, CAUSE 0, or 4 after a trip; SYSRST_N low and the steward watchdog cause a device reset with CAUSE 1 and 3, and the
rise of a held SYSRST_N lets phase 1 proceed; an AON fault makes the next start cold; the keep supply stops and resumes programming; phase 1
passes to phase 2, or to recovery with 0x0F13 where the strap asks for it, and waits at a cold start while a sensor is above 95 °C; a valid
bundle passes phase 2, an invalid one enters recovery with its code and an unreadable flash with 0x0F12; the later phases are those of their
operations; and a known-answer result is counted, a wrong one fencing its engine with 0x0F16. -/
def Obligations.StartPhaseCommandsHaveTheirEffects : Prop :=
  (∀ s : State, exec .porstAssert s = .next (s.kept.modBoot fun b =>
    { b with porst := false, aonFault := false, aonGood := false, cold := true, thermtrip := false })) ∧
  (∀ (s : State) (straps : BitVec 3), (s.boot.porst = true → exec (.porstRelease straps) s = .next s) ∧
    (s.boot.porst = false → s.boot.sysrstLow = false → s.boot.aonFault = false → exec (.porstRelease straps) s = .next (
      let trip := s.boot.tripped || s.pw.tripped
      ((s.kept.modBoot fun b => { b with porst := true, cold := true, cause := if trip then 4 else 0, resets := 0, straps := straps.toNat,
                                         tripped := false, aonGood := false }).setFld .PW_STATUS [] PW_STATUS_TRIPLAST
        (if trip then 1 else 0)).setFld .BU_STATUS [] BU_STATUS_PHASE 1))) ∧
  (∀ s : State, (s.boot.porst = true → s.boot.aonFault = false →
      exec .sysrstAssert s = .next ((s.modBoot fun b => { b with sysrstLow := true }).deviceReset false 1)) ∧
    (s.boot.porst = false → exec .sysrstAssert s = .next (s.modBoot fun b => { b with sysrstLow := true })) ∧
    (s.boot.porst = true → s.boot.aonFault = false → s.boot.sysrstLow = true → s.fld .BU_STATUS [] BU_STATUS_STATE = 0 →
      s.fld .BU_STATUS [] BU_STATUS_PHASE = 0 → s.fld .BU_STATUS [] BU_STATUS_REASON = 0 → exec .sysrstRelease s =
        .next ((s.modBoot fun b => { b with sysrstLow := false }).setFld .BU_STATUS [] BU_STATUS_PHASE 1)) ∧
    (s.resetHeld = false → exec .stewardWatchdog s = .next (s.deviceReset false 3)) ∧
    exec .aonSupplyFault s = .next (s.kept.modBoot fun b => { b with aonFault := true, aonGood := false, cold := true }) ∧
    exec .keepSupplyDrop s = .next (s.modKs fun k => { k with stopped := true }) ∧
    exec .keepSupplyReturn s = .next (s.modKs fun k => { k with stopped := false })) ∧
  (∀ (s : State) (us : Nat) (facts : List BootFact), s.resetHeld = false →
    let ph := s.fld .BU_STATUS [] BU_STATUS_PHASE
    let u := s.modBoot fun b => { b with tboot := b.tboot + us }
    (ph = 1 → s.boot.cold = true → s.coolEnough = false → exec (.bootPhaseDone us facts) s = .next s) ∧
    (ph = 1 → s.coolEnough = true → exec (.bootPhaseDone us facts) s =
      .next (if s.boot.straps % 2 = 1 then u.enterRecovery 0x0F13 facts else u.setFld .BU_STATUS [] BU_STATUS_PHASE 2)) ∧
    (ph = 2 → facts.contains .flashBad = true → exec (.bootPhaseDone us facts) s = .next (u.enterRecovery 0x0F12 facts)) ∧
    (ph = 2 → facts.contains .flashBad = false → u.sec.state ≠ 4 → exec (.bootPhaseDone us facts) s = .next (
      let h := u.headCode u.source
      let k := sectsCode u.source [1, 5]
      if h.1 ≠ 0 then (u.verifyPost h).enterRecovery h.1 facts
      else if k ≠ 0 then (u.verifyPost (0x0F11, k)).enterRecovery 0x0F11 facts
      else (u.acceptBundle u.source).setFld .BU_STATUS [] BU_STATUS_PHASE 3)) ∧
    (ph = 3 → facts.contains .fuseBad = true → exec (.bootPhaseDone us facts) s = .next (u.enterRecovery 0x0F03 facts)) ∧
    (ph = 3 → facts.contains .fuseBad = false → u.sec.huk ≠ [] → exec (.bootPhaseDone us facts) s = .next
      ((u.each [0, 1] fun s h => s.setFld .CK_VID [h] CK_VID_OFFSET s.sec.offset).setFld .BU_STATUS [] BU_STATUS_PHASE 4)) ∧
    (ph = 4 → exec (.bootPhaseDone us facts) s = .next (
      let w := u.each (List.range 229) fun s n => s.setFld .PW_STAT [n] PW_STAT_STATE 0
      let w := w.each (List.range 96) fun s c => s.setFld .CK_CORE [c] CK_CORE_EFF 16
      let w := w.each [0, 1] fun s h => (s.setFld .CK_FAB [h] CK_FAB_EFF 16).setFld .CK_VID [h] CK_VID_CODE 50
      w.setFld .BU_STATUS [] BU_STATUS_PHASE (if w.boot.cold then 5 else 6))) ∧
    (ph = 5 → facts.contains .westBackbone = false → exec (.bootPhaseDone us facts) s = .next
      ((((u.each facts State.bistFact).modBoot fun b => { b with tbist := us }).rake 0 0).setFld .BU_STATUS [] BU_STATUS_PHASE 6)) ∧
    (ph = 6 → exec (.bootPhaseDone us facts) s = .next (u.phaseTrain us facts)) ∧
    (ph = 7 → exec (.bootPhaseDone us facts) s = .next (u.phaseWipe us facts)) ∧
    (ph = 8 → exec (.bootPhaseDone us facts) s = .next (
      let k := sectsCode u.source [8]
      if k ≠ 0 then (u.verifyPost (0x0F11, k)).enterRecovery 0x0F11 facts
      else (u.placeSections u.source 8).setFld .BU_STATUS [] BU_STATUS_PHASE 9)) ∧
    (ph = 9 → exec (.bootPhaseDone us facts) s = .next (u.phaseReady facts))) ∧
  (∀ (s : State) (c : Fin 96) (k : Fin 19), s.fld .BU_STATUS [] BU_STATUS_PHASE = 7 → s.fencedEng c.val k.val = false →
    s.domOn c.val = true → exec (.knownAnswerResult c k true) s = .next (s.bump .BU_KATRUN []) ∧
      exec (.knownAnswerResult c k false) s = .next (((((s.bump .BU_KATRUN []).bump .BU_KATFAIL []).fenceAt c.val k.val).noteFence
        c.val 3).startPost k.val c.val 0x0F16))

/-- What BU_RST writes, completed resets and the steps of runtime BIST do: Where the rule's conditions hold, each command answers a next
state and the whole of it is given: a core, cluster or partition reset by a permitted writer joins the queue and starts when none runs, a
device reset starts at once on the warm path unless it is cold, the memories of its last training are not good, or a trip came before; any
reset discards the life-cycle challenge, and a writer that may not is refused with 0x0F01; a running reset whose domains are all ON ends: it
clears BUSY, names the scope and posts 0x0F30, the domains that it woke go back where PW_REQ names, and the reset queued behind it starts;
one with a domain not yet ON wakes it; a BIST request in its preconditions with a save area in the region leaves the cluster WAITING with
its domains woken and the caps set; a test that fails holds the cluster, one that passes saving goes to TESTING, one that ends TESTING well
goes to RESTORING. -/
def Obligations.ResetAndSelfTestCommandsHaveTheirEffects : Prop :=
  (∀ (s : State) (req : Requester) (v : Word), s.Reached req .BU_RST [] →
    let t := bitsOf v.toNat 12 12
    let r (k : Nat) : Rst := { scope := k, target := t }
    (s.rsts ≠ [] →
      (rstReserved 0 t = false → s.rstWriter 0 t req = true → exec (.resetCore req v) s = .next { s with rsts := s.rsts ++ [r 0] }) ∧
      (rstReserved 1 t = false → s.rstWriter 1 t req = true → exec (.resetCluster req v) s = .next { s with rsts := s.rsts ++ [r 1] }) ∧
      (rstReserved 2 t = false → s.rstWriter 2 t req = true → exec (.resetPartition req v) s = .next { s with rsts := s.rsts ++ [r 2] })) ∧
    (s.rsts = [] →
      (rstReserved 0 t = false → s.rstWriter 0 t req = true →
        exec (.resetCore req v) s = .next (({ s with rsts := s.rsts ++ [r 0] } : State).rstStart (r 0))) ∧
      (rstReserved 1 t = false → s.rstWriter 1 t req = true →
        exec (.resetCluster req v) s = .next (({ s with rsts := s.rsts ++ [r 1] } : State).rstStart (r 1))) ∧
      (rstReserved 2 t = false → s.rstWriter 2 t req = true →
        exec (.resetPartition req v) s = .next (({ s with rsts := s.rsts ++ [r 2] } : State).rstStart (r 2)))) ∧
    (rstReserved 1 t = false → s.rstWriter 1 t req = false → exec (.resetCluster req v) s = .next ((s.setFld .BU_RSTSTAT []
      BU_RSTSTAT_REASON 0x0F01).post (match req with | .port n => s.partOfPort n.val | _ => none) 9 1 0xFFFF 0x0F01)) ∧
    (t = 0 → s.rstWriter 3 0 req = true → exec (.resetDevice req v) s = .next (s.deviceReset (v.toNat.testBit 2) 2))) ∧
  (∀ (s : State) (cold : Bool) (cause : Nat), s.resetHeld = false →
    let trip := s.boot.tripped || s.pw.tripped
    let warm := !cold && s.boot.aonGood && !trip
    let u := s.deviceReset cold cause
    u.boot.cold = !warm ∧ u.boot.cause = (if trip then 4 else cause) ∧ u.boot.resets = s.boot.resets + 1 ∧ u.flash = s.flash ∧
    u.ks.pages = s.ks.pages ∧ u.ks.roots = s.ks.roots ∧ u.sec.challenge = none ∧ u.sec.lc = s.sec.lc ∧ u.mem = [] ∧ u.staging = [] ∧
    u.xfer = [] ∧ u.tb = [] ∧ u.rsts = [] ∧ u.pending = s.pending) ∧
  (∀ (s : State) (r : Rst) (rest : List Rst), s.rsts = r :: rest →
    ((∀ n, n ∈ s.rstDomains r → s.domOn n = true) → exec .resetComplete s = .next (
      let u := (((s.setFld .BU_RSTSTAT [] BU_RSTSTAT_BUSY 0).setFld .BU_RSTSTAT [] BU_RSTSTAT_SCOPE r.scope).setFld .BU_RSTSTAT []
        BU_RSTSTAT_REASON 0x0F30).post (s.rstPart r.scope r.target) 9 r.scope 0xFFFF 0x0F30
      let u : State := { u with rsts := rest }
      let u := u.each (s.rstDomains r).reverse fun s n => s.domReturn n
      match rest with
      | [] => u
      | q :: _ => u.rstStart q)) ∧
    (∀ n, n ∈ s.rstDomains r → s.domOn n = false → exec .resetComplete s = .next (
      (s.rstDomains r).foldl (fun s n => if s.fld .PW_STAT [n] PW_STAT_STATE = 3 then s else s.wakeDomain n 5) s))) ∧
  (∀ (s : State) (req : Requester) (v : Word), s.Reached req .BU_BIST_CTRL [] →
    let c := v.toNat % 128
    c < 96 → s.rstWriter 1 c req = true → s.bistRuns c = false →
    (s.bistReady c = false → exec (.runtimeBistRequest req v) s = .next ((s.setFld .BU_BISTSTAT [c] BU_BISTSTAT_REASON 0x0F21).post
      (s.partOfCluster c) 9 c c 0x0F21)) ∧
    (∀ p, s.bistReady c = true → s.partOfCluster c = some p → s.inRegion p (s.val .BU_BIST_SAVE [c]) 17825792 = true →
      exec (.runtimeBistRequest req v) s = .next (
        let u := (s.setFld .BU_BISTSTAT [c] BU_BISTSTAT_STATE 1).setFld .BU_BISTSTAT [c] BU_BISTSTAT_REASON 0
        let u := u.modBist c fun b => { b with off := s.fld .PW_STAT [c] PW_STAT_STATE == 2, saved := [] }
        ((u.wakeDomain c 6).wakeDomain (96 + c) 6).bistCaps (halfOf c)))) ∧
  (∀ (s : State) (c : Fin 96),
    (s.bistState c.val = 1 → (s.getBist c.val).off = false → exec (.bistStepDone c false) s = .next (
      let u := (((s.setFld .BU_BISTSTAT [c.val] BU_BISTSTAT_STATE 0).setFld .BU_BISTSTAT [c.val] BU_BISTSTAT_REASON 0x0F23).post
        (s.partOfCluster c.val) 9 c.val c.val 0x0F23).bistCaps (halfOf c.val)
      u.bistBack c.val)) ∧
    (s.bistState c.val = 1 → s.bit .CK_VID [halfOf c.val] CK_VID_OK = true → s.domOn c.val = true → (s.getBist c.val).off = false →
      (s.getBist c.val).held = false → exec (.bistStepDone c true) s = .next
        ((((s.bump .BU_BISTRUN []).rake 1 (c.val + 1)).bistQueues c.val).setFld .BU_BISTSTAT [c.val] BU_BISTSTAT_STATE 2)) ∧
    (s.bistState c.val = 2 → ∀ ok, exec (.bistStepDone c ok) s =
      .next ((s.bistSave c.val).setFld .BU_BISTSTAT [c.val] BU_BISTSTAT_STATE 3)) ∧
    (s.bistState c.val = 3 → exec (.bistStepDone c false) s = .next (s.bistFail c.val)) ∧
    (s.bistState c.val = 3 → (s.getBist c.val).off = false → (s.getBist c.val).held = false →
      exec (.bistStepDone c true) s = .next (s.setFld .BU_BISTSTAT [c.val] BU_BISTSTAT_STATE 4)) ∧
    (s.bistState c.val = 4 → ∀ ok, exec (.bistStepDone c ok) s = .next ((s.bistRestore c.val).bistPass c.val)))

/-- What the commands of the recovery listener do: For the next command of the admin tray or another that may start on a port that is on:
RCV_INFO ends with the entry code and the flash size; RCV_STAGE copies its staging range to the recovery buffer, and one beyond it ends with
0x0C10; RCV_BOOT after a fuse failure ends with 0x0F03, on an invalid bundle with its code, which is posted, and on a valid one it restarts
at phase 3 from the buffer; FLASH_READ copies flash to staging, FLASH_ERASE erases its range, FLASH_PROGRAM programs the staging bytes, and
a misaligned range ends with 0x0C10; the byte that programming leaves in an erased place is the byte given. -/
def Obligations.RecoveryCommandsHaveTheirEffects : Prop :=
  (∀ (s : State) (n : Fin 8) (t : Fin 17) (x : Cmd), s.nextCmd n.val t.val = some x → s.mayStart n.val x = true → s.portOn n.val = true →
    let fin (u : State) (code result moved : Nat) := u.setCmd n.val x fun y => { y with st := 2, code := code, result := result, moved := moved }
    let good := x.soff % 64 = 0 ∧ x.len % 64 = 0 ∧ 64 ≤ x.len ∧ bulkBase ≤ x.soff ∧ x.soff + x.len ≤ bulkEnd
    let inFlash := x.adr + x.len ≤ Config.flashSize * 2 ^ 20
    (x.op = 0x20 → exec (.rcvInfo n t) s = .next (fin s 0 (s.boot.entry % 2 ^ 16 + Config.flashSize * 2 ^ 32) 0)) ∧
    (x.op = 0x21 → good → x.adr + x.len ≤ 2 ^ 29 →
      exec (.rcvStage n t) s = .next (fin (s.poke x.adr (s.stagPeek n.val x.soff x.len)) 0 0 x.len)) ∧
    (x.op = 0x21 → 2 ^ 29 < x.adr + x.len → exec (.rcvStage n t) s = .next (fin s 0x0C10 0 0)) ∧
    (x.op = 0x22 → s.boot.entry = 0x0F03 → exec (.rcvBoot n t) s = .next (fin s 0x0F03 0 0)) ∧
    (x.op = 0x22 → s.boot.entry ≠ 0x0F03 → exec (.rcvBoot n t) s = .next (
      let h := s.headCode s.peek
      let k := sectsCode s.peek [1, 2, 3, 4, 5, 6, 7, 8, 9]
      if h.1 ≠ 0 then fin (s.verifyPost h) h.1 0 0
      else if k ≠ 0 then fin (s.verifyPost (0x0F11, k)) 0x0F11 0 0
      else
        let w := s.writeDone n.val { x with st := 2 }
        let u := w.kept.modBoot fun y => { y with cold := true, cause := w.boot.cause, tboot := w.boot.tboot, tripped := false,
                                                  buf := w.mem.filter fun e => decide (e.1 < 2 ^ 29) }
        let u := (u.setFld .BU_STATUS [] BU_STATUS_PATH 2).setFld .BU_STATUS [] BU_STATUS_REASON (w.fld .BU_STATUS [] BU_STATUS_REASON)
        (u.acceptBundle u.source).setFld .BU_STATUS [] BU_STATUS_PHASE 3)) ∧
    (x.op = 0x23 → good → exec (.flashRead n t) s = .next (if inFlash
      then fin (s.stagPoke n.val x.soff ((List.range x.len).map fun i => s.flashByte (x.adr + i))) 0 0 x.len else fin s 0x0C10 0 0)) ∧
    (x.op = 0x24 → x.len % 64 = 0 → 64 ≤ x.len → x.len ≤ 7274496 → exec (.flashErase n t) s = .next (
      if x.adr % Config.flashErase = 0 ∧ x.len % Config.flashErase = 0 ∧ inFlash
      then fin { s with flash := mclear s.flash x.adr x.len } 0 0 0 else fin s 0x0C10 0 0)) ∧
    (x.op = 0x25 → good → exec (.flashProgram n t) s = .next (
      if x.adr % Config.flashProgram = 0 ∧ x.len % Config.flashProgram = 0 ∧ inFlash
      then fin (s.each ((s.stagPeek n.val x.soff x.len).zip (List.range x.len)) fun s e => s.programByte (x.adr + e.2) e.1) 0 0 x.len
      else fin s 0x0C10 0 0))) ∧
  (∀ (s : State) (a : Nat) (b : Byte), mget s.flash a = 0 → s.programByte a b = { s with flash := mput s.flash a (b.toNat + 1) } ∧
    (s.programByte a b).flashByte a = b)

/-- What the security commands of a tray do: For the next command of a tray that may start on a port that is on: a command that its port or
the life-cycle state does not permit ends with 0x1001, posted; SC_INFO ends with state, floor, count and identity; GET_PUBKEY writes the
public key, GET_CERT the chain that matches CERTHASH and ends with 0x100B where it does not; ATTEST writes the report with its signature and
is counted; LC_CHALLENGE writes and keeps a fresh challenge; SET_FLOOR within its bounds raises the floor and otherwise ends with 0x1008;
KEYGEN fuses a seed once and then ends with 0x100A; LC_TOKEN discards the challenge, a token refused is counted, and an accepted one
completes, erases the keep store, programs the fuses and starts a cold reset with CAUSE 5; and without random bits the commands that need
them end with 0x1009. -/
def Obligations.SecurityCommandsHaveTheirEffects : Prop :=
  (∀ (s : State) (n : Fin 8) (t : Fin 17) (x : Cmd), s.nextCmd n.val t.val = some x → s.mayStart n.val x = true → s.portOn n.val = true →
    let fin (u : State) (code result moved : Nat) := u.setCmd n.val x fun y => { y with st := 2, code := code, result := result, moved := moved }
    let bad (u : State) (code : Nat) :=
      fin ((u.setFld .SC_STATUS [] SC_STATUS_REASON code).post (u.partOfPort n.val) 9 0 0xFFFF code) code 0 0
    let good := x.soff % 64 = 0 ∧ bulkBase ≤ x.soff ∧ x.soff + x.len ≤ bulkEnd
    (s.scPermit n.val x.op = false →
      (x.op = 0x40 → exec (.scInfo n t) s = .next (bad s 0x1001)) ∧ (x.op = 0x41 → exec (.getPubkey n t) s = .next (bad s 0x1001)) ∧
      (x.op = 0x42 → exec (.getCert n t) s = .next (bad s 0x1001)) ∧ (x.op = 0x43 → exec (.attest n t) s = .next (bad s 0x1001)) ∧
      (x.op = 0x44 → exec (.lcChallenge n t) s = .next (bad s 0x1001)) ∧ (x.op = 0x45 → exec (.lcToken n t) s = .next (bad s 0x1001)) ∧
      (x.op = 0x46 → exec (.setFloor n t) s = .next (bad s 0x1001)) ∧ (x.op = 0x47 → exec (.keygen n t) s = .next (bad s 0x1001))) ∧
    (s.scPermit n.val x.op = true →
      (x.op = 0x40 → exec (.scInfo n t) s = .next
        (fin s 0 (s.sec.state + s.sec.floor % 256 * 2 ^ 8 + s.sec.count * 2 ^ 16 + (if s.sec.seed = [] then 0 else 2 ^ 24)) 0)) ∧
      (x.op = 0x41 → x.len = 2624 → good →
        exec (.getPubkey n t) s = .next (fin (s.stagPoke n.val x.soff (mldsaPublic s.sec.seed)) 0 0 2592)) ∧
      (x.op = 0x42 → s.boot.chain ≠ [] → fit 64 (sha3 s.boot.chain) = s.sec.certhash → x.len % 64 = 0 → 64 ≤ x.len → good →
        (s.boot.chain.length + 63) / 64 * 64 ≤ x.len →
        exec (.getCert n t) s = .next (fin (s.stagPoke n.val x.soff s.boot.chain) 0 0 s.boot.chain.length)) ∧
      (x.op = 0x42 → fit 64 (sha3 s.boot.chain) ≠ s.sec.certhash → exec (.getCert n t) s = .next (bad s 0x100B)) ∧
      (x.op = 0x43 → x.len = 4992 → good → s.sec.rngBad = false → exec (.attest n t) s = .next (
        let body := s.reportBody n.val (s.stagPeek n.val x.soff 64)
        let r := s.freeBytes 32
        let sig := mldsaSign s.sec.seed (sha3 body) r.1
        fin ((r.2.stagPoke n.val x.soff (body ++ sig ++ List.replicate 45 0)).bump .SC_ATTESTS []) 0 0 4992)) ∧
      (x.op = 0x43 → x.len = 4992 → good → s.sec.rngBad = true → exec (.attest n t) s = .next (bad s 0x1009)) ∧
      (x.op = 0x44 → x.len = 64 → good → s.sec.rngBad = false → exec (.lcChallenge n t) s = .next (fin
        (((s.freeBytes 64).2.modSec fun k => { k with challenge := some (s.freeBytes 64).1 }).stagPoke n.val x.soff (s.freeBytes 64).1)
        0 0 64)) ∧
      (x.op = 0x46 → s.sec.floor < x.data % 256 → x.data % 256 ≤ s.boot.version / 2 ^ 56 →
        exec (.setFloor n t) s = .next (fin (s.modSec fun k => { k with floor := x.data % 256 }) 0 0 0)) ∧
      (x.op = 0x46 → x.data % 256 ≤ s.sec.floor ∨ s.boot.version / 2 ^ 56 < x.data % 256 →
        exec (.setFloor n t) s = .next (bad s 0x1008)) ∧
      (x.op = 0x47 → s.sec.seed = [] → x.len = 2624 → good → s.sec.rngBad = false → exec (.keygen n t) s = .next (fin
        (((s.freeBytes 32).2.modSec fun k => { k with seed := (s.freeBytes 32).1 }).stagPoke n.val x.soff
          (mldsaPublic (s.freeBytes 32).1)) 0 0 2592)) ∧
      (x.op = 0x47 → s.sec.seed ≠ [] → exec (.keygen n t) s = .next (bad s 0x100A)) ∧
      (x.op = 0x45 → x.len = 5184 ∨ x.len = 7808 → good →
        let u := s.modSec fun k => { k with challenge := none }
        let b := u.stagPeek n.val x.soff x.len
        let code := u.tokenCode b x.len s.sec.challenge
        exec (.lcToken n t) s = .next (
          if code = 0 then ((((u.bump .SC_TOKACC []).writeDone n.val { x with st := 2 }).ksErase).modSec fun k => k.program b).deviceReset true 5
          else
            let w := u.bump .SC_TOKREF []
            (if code = 0x1003 then w.bump .SC_SIGFAIL [] else w).scEnd n.val x code 0 0)))) ∧
  (∀ (s : State) (n code : Nat) (x : Cmd), 0x1000 ≤ code → s.scEnd n x code 0 0 =
    ((s.setFld .SC_STATUS [] SC_STATUS_REASON code).post (s.partOfPort n) 9 0 0xFFFF code).setCmd n x fun y =>
      { y with st := 2, code := code, result := 0, moved := 0 }) ∧
  (∀ s : State, exec .randomHealthFail s = .next (((s.modSec fun k => { k with rngBad := true }).bump .SC_RNGFAIL []).setFld .SC_STATUS []
    SC_STATUS_REASON 0x1009 |>.post none 9 0 0xFFFF 0x1009))

/-- How the life-cycle state follows the fused count: The state is DECOMMISSIONED where bit 31 is burned or the count of burned bits below
the first unburned one is 31 or 32, MANUFACTURE at count 0, PROVISIONED at 1, SERVICE at the even counts from 2 to 30 and RETURN at the odd
ones from 3 to 29; the count is at most 32, every bit below it is burned and the bit at it is not; and with n bits burned in ascending order
the count is n. -/
def Obligations.LifeCycleStateFollowsTheCount : Prop :=
  (∀ x : Sec, (x.lc.testBit 31 = true → x.state = 4) ∧ (x.lc.testBit 31 = false →
    (x.count = 0 → x.state = 0) ∧ (x.count = 1 → x.state = 1) ∧
    (2 ≤ x.count → x.count ≤ 30 → x.count % 2 = 0 → x.state = 2) ∧ (3 ≤ x.count → x.count ≤ 29 → x.count % 2 = 1 → x.state = 3) ∧
    (31 ≤ x.count → x.state = 4))) ∧
  (∀ x : Sec, x.count ≤ 32 ∧ (∀ i, i < x.count → x.lc.testBit i = true) ∧ (x.count < 32 → x.lc.testBit x.count = false)) ∧
  (∀ (x : Sec) (n : Nat), n ≤ 32 → x.lc = 2 ^ n - 1 → x.count = n)

/-- What the window end, counter mirror, rake, trace and reservation commands do: Where the rule's conditions hold, each command answers a
next state and the whole of it is given: the window end latches the counters, writes the derived records of the ports with a counter mirror,
starts a full write unless one runs, which is then counted as skipped, and adds one to the window number; the end of a full write writes the
mirrors and clears MIRBUSY; PC_WIN takes a length in its range from an administrative writer, and any other is refused with 0x1101; GO
starts a pass where none runs; a pass that has done writes the image, counts itself and posts 0x1105 for each cluster it missed, or that no
way of the control network leads to, the east half's in the split state among them; EN = 1 of tracing and of a trace ring stores the fields
and asks for the check; and an expired reservation passes to the next waiting requester that has no grant. -/
def Obligations.CounterAndTraceCommandsHaveTheirEffects : Prop :=
  (∀ s : State,
    let us := if s.pcs.win = 0 then 1000 else s.pcs.win
    let k := s.val .PC_WINNO []
    let u := s.modPcs fun p => { p with prev := p.snap, snap := s.counters, win := s.fld .PC_WIN [] PC_WIN_WINUS }
    let u := u.each u.mirrorPorts fun s n => s.stagPoke n 0xF00040 (s.derivedAll n k us)
    (u.pcs.busy = true → exec .windowEnd s = .next (((u.bump .PC_SKIP []).setVal .PC_WINNO [] (k + 1)).bump .PC_TT [] (400 * us))) ∧
    (u.pcs.busy = false → exec .windowEnd s = .next ((((u.modPcs fun p =>
      { p with busy := true, mwin := k, mus := us, mframe := u.val .TL_FRAME [0], msnap := p.snap }).setFld .PC_STATUS [] PC_STATUS_MIRBUSY
      1).setVal .PC_WINNO [] (k + 1)).bump .PC_TT [] (400 * us)))) ∧
  (∀ s : State, (s.pcs.busy = true → exec .counterMirrorWriteDone s = .next (((s.each s.mirrorPorts fun s n => s.mirrorPort n).modPcs fun p =>
      { p with busy := false, msnap := [] }).setFld .PC_STATUS [] PC_STATUS_MIRBUSY 0)) ∧
    (s.pcs.busy = false → exec .counterMirrorWriteDone s = .next s)) ∧
  (∀ (s : State) (req : Requester) (v : Word), s.Reached req .PC_WIN [] →
    (s.pwWriter req none = true → 1 ≤ v.toNat % 2 ^ 20 → v.toNat % 2 ^ 20 ≤ 1000000 →
      exec (.pcWinWrite req v) s = .next (s.setFld .PC_WIN [] PC_WIN_WINUS (v.toNat % 2 ^ 20))) ∧
    (s.pwWriter req none = false ∨ v.toNat % 2 ^ 20 = 0 ∨ 1000000 < v.toNat % 2 ^ 20 →
      exec (.pcWinWrite req v) s = .next ((s.setFld .PC_STATUS [] PC_STATUS_REASON 0x1101).post none 9 0 0xFFFF 0x1101))) ∧
  (∀ (s : State) (req : Requester), s.Reached req .PC_RAKE [] → s.pwWriter req none = true →
    (s.pcs.rakes = [] → exec (.rakeGo req) s =
      .next ((s.modPcs fun p => { p with rakes := p.rakes ++ [(3, 0)] }).setFld .PC_STATUS [] PC_STATUS_RAKING 1)) ∧
    (s.pcs.rakes ≠ [] → exec (.rakeGo req) s = .next s)) ∧
  (∀ (s : State) (lost : List (Fin 96)) (cause : Nat), s.pcs.rakes = [(cause, 0)] → exec (.rakePassDone lost) s = .next (
    let k := s.val .PC_RAKES []
    let l := lost.map Fin.val ++ (List.range 96).filter fun c => (s.cnWay c).isNone || (s.isSplit && halfOf c == 1)
    let u := s.poke 0xFE07100000 (s.ctrHeader (if s.pcs.win = 0 then 1000 else s.pcs.win) k (s.val .TL_FRAME [0]) cause)
    let u := u.each (List.range 96) fun s c => s.rakeCluster k l c
    let u := u.poke (0xFE07100000 + 0xD0000) (area k 0 0 k (deviceValues u.regs none))
    let u := u.each ((List.range 96).filter l.contains) fun s c =>
      (s.setFld .PC_STATUS [] PC_STATUS_REASON 0x1105).post none 9 c c 0x1105
    ((u.modPcs fun p => { p with rakes := [] }).setFld .PC_STATUS [] PC_STATUS_RAKING 0).bump .PC_RAKES [])) ∧
  (∀ (s : State) (req : Requester) (p : Fin 8) (v : Word), s.Reached req .PC_TRCFG [p.val] →
    (match req with | .port n => s.isAdmin n.val || s.partOfPort n.val == some p.val | .engine _ _ => false | _ => true) = true →
    s.checking (.trcfg p.val) = false →
    (s.bit .PC_TRCFG [p.val] PC_TRCFG_EN = false → exec (.traceEnable req p v) s = .next
      (((s.store .PC_TRCFG [p.val] (withEn v true)).setFld .PC_TRCFG [p.val] PC_TRCFG_EN 0).askCheck (.trcfg p.val) (withEn v true) none)) ∧
    (s.bit .PC_TRCFG [p.val] PC_TRCFG_EN = true → exec (.traceEnable req p v) s = .next s)) ∧
  (∀ (s : State) (req : Requester) (c : Fin 96) (v : Word), s.Reached req .PC_TRRING [c.val] → s.checking (.trring c.val) = false →
    s.bit .PC_TRRING [c.val] PC_TRRING_EN = false → exec (.traceRingEnable req c v) s = .next
      (((s.store .PC_TRRING [c.val] (withEn v true)).setFld .PC_TRRING [c.val] PC_TRRING_EN 0).askCheck (.trring c.val) (withEn v true)
        none)) ∧
  (∀ (s : State) (k : ArbAt) (a : Nat) (l r : List (Nat × Bool)) (e : Nat),
    s.getArb (arbKey k) = { s.getArb (arbKey k) with resv := a + 1, wait := l ++ (a, false) :: (e, false) :: r } →
    (∀ w ∈ l, w.1 ≠ a) → exec (.arbiterReservationExpiry k) s = .next (s.modArb (arbKey k) fun a => { a with resv := e + 1 }))

/-- A step executes the command at the front of the queue with the rest of it waiting: For every command and state, a step of the state with
the command at the front of its queue is the command's execution on the state with the queue's rest; and on an empty queue the block idles,
which is the model's choice (log entry 90). -/
def Obligations.StepTakesTheCommandAtTheFront : Prop :=
  (∀ (s : State) (c : Instr) (rest : List Instr), step { s with pending := c :: rest } = exec c { s with pending := rest }) ∧
  (∀ s : State, s.pending = [] → step s = .next s)

/-- No command changes the queue: a step takes one command from its front and nothing else: Whatever command is executed, its next state has
the queue it was executed with; so a step that goes on from a queue with a command at its front has the rest of the queue left. First in,
first out is the model's form of a block (log entry 90). -/
def Obligations.CommandsLeaveTheQueueAsItWas : Prop :=
  (∀ (c : Instr) (s t : State), exec c s = .next t → t.pending = s.pending) ∧
  (∀ (s t : State) (c : Instr) (rest : List Instr), s.pending = c :: rest → step s = .next t → t.pending = rest)

/-- Every well-formed command answers a next state in every state; an ill-formed one faults by name: A command whose word lists have a
length the spec gives answers a next state in every state of the machine: no ordinary data and no state ends a run. The other lists name no
message of the control network, and the fault says so. -/
def Obligations.WellFormedCommandsAnswerANextState : Prop :=
  ∀ (c : Instr) (s : State), (c.wf = true → ∃ t, exec c s = .next t) ∧ (c.wf = false → exec c s = .fault .illFormed)

/-- Every command leaves every part of the state but its own as it was: For every command, when it answers a next state, every field of the
state that is not among the parts listed for the command is the same before and after: a frame for the whole machine, command by command. -/
def Obligations.CommandsChangeOnlyTheirParts : Prop :=
  ∀ (c : Instr) (s t : State), exec c s = .next t → Frame (touches c) s t

/-- Every step keeps memory, staging, flash, registers and all records in their canonical form: From every state whose sparse maps list
their keys strictly rising and nothing that an unlisted key reads as, a step that answers a next state answers one of which the same holds,
so that equal contents stay equal data. -/
def Obligations.EveryStepKeepsTheCanonicalForm : Prop :=
  ∀ s t : State, s.Wf → step s = .next t → t.Wf

/-- The state after reset is in canonical form, with nothing commanded: At reset every sparse map is in canonical form, the queue is empty
and the pins are low; the pins and every value without a reset value in the spec are the model's choice (log entries 2 to 6). -/
def Obligations.ResetIsCanonical : Prop :=
  State.reset.Wf ∧ State.reset.pending = [] ∧ State.reset.boot.porst = false

/-- After reset registers hold the values of the Reset columns: A selection over the register blocks: each listed field reads at reset what
the Reset column of its table gives: the requested and effective clocks, the VID code, the droop threshold, the power and throttle limits,
the window length, the trace rate and ring size, the rotation, lag and divisor of groups and timebases, and the partition of a group. -/
def Obligations.ResetGivesRegistersTheirResetValues : Prop :=
  State.reset.fld .CK_CORE [7] CK_CORE_REQ = 22 ∧ State.reset.fld .CK_CORE [7] CK_CORE_EFF = 22 ∧
  State.reset.fld .CK_FAB [1] CK_FAB_REQ = 16 ∧ State.reset.fld .CK_FAB [1] CK_FAB_EFF = 16 ∧
  State.reset.fld .CK_VID [0] CK_VID_CODE = 50 ∧ State.reset.fld .CK_VID [0] CK_VID_OK = 1 ∧
  State.reset.fld .CK_DROOP [] CK_DROOP_TH = 4 ∧ State.reset.fld .PW_REQ [228] PW_REQ_TARGET = 0 ∧
  State.reset.fld .PC_WIN [] PC_WIN_WINUS = 1000 ∧ State.reset.fld .PC_TRCFG [3] PC_TRCFG_K = 16 ∧
  State.reset.fld .PC_TRCFG [3] PC_TRCFG_ALLWG = 1 ∧ State.reset.fld .PC_TRRING [95] PC_TRRING_LOG2 = 12 ∧
  State.reset.fld .WG_ROT [255] WG_ROT_RUN = 1 ∧ State.reset.fld .WG_ROT [255] WG_ROT_RESIDENT_M1 = 0 ∧
  State.reset.val .PW_PCAP [] = 640 ∧ State.reset.fld .BU_STATUS [] BU_STATUS_STATE = 0

/-- No step unburns a life-cycle bit, lowers the floor or unrevokes an owner slot: From every state, a step that answers a next state leaves
every burned life-cycle bit burned, FLOOR at least what it was and every revoked owner slot revoked: no command and no reset of any scope
undoes a fuse. -/
def Obligations.BurnedFusesStayBurned : Prop :=
  ∀ s t : State, step s = .next t → Sec.Kept s.sec t.sec

/-- Once DECOMMISSIONED, the device is DECOMMISSIONED after every step: From every state in which the fused count gives DECOMMISSIONED, a
step that answers a next state answers one in which it does. -/
def Obligations.ADecommissionedDeviceStaysSo : Prop :=
  ∀ s t : State, s.sec.state = 4 → step s = .next t → t.sec.state = 4

/-- The count of free values drawn never falls: From every state a step leaves the count of free values drawn at least as high, so that no
two draws take the same free value. The count is the model's own field (log entry 1). -/
def Obligations.FreeValuesAreNeverDrawnTwice : Prop :=
  (∀ s t : State, step s = .next t → s.fresh ≤ t.fresh) ∧ (∀ s : State, s.draw.1 = Config.freeValue s.fresh ∧ s.draw.2.fresh = s.fresh + 1)

/-- No command but FLASH_ERASE and FLASH_PROGRAM changes the boot flash: Whatever other command is executed, resets and starts among them,
the bytes of the boot flash are the same in its next state. -/
def Obligations.OnlyFlashCommandsWriteTheFlash : Prop :=
  ∀ (c : Instr) (s t : State), (∀ n x, c ≠ .flashErase n x ∧ c ≠ .flashProgram n x) → exec c s = .next t → t.flash = s.flash

/-- A register written reads back, and every other address is as it was: Writing a register's value makes that instance read as the value,
leaves every instance at another address as it was, and keeps the canonical form; setting a field makes it read as the value modulo its
width. -/
def Obligations.RegistersReadBackWhatWasWritten : Prop :=
  (∀ (s : State) (r : Reg) (idx : List Nat) (v : DWord), (s.wr r idx v).rd r idx = v ∧
    (∀ r' idx', r'.addr idx' ≠ r.addr idx → (s.wr r idx v).rd r' idx' = s.rd r' idx') ∧ (mwf s.regs = true → mwf (s.wr r idx v).regs = true)) ∧
  (∀ (s : State) (r : Reg) (idx : List Nat) (f : Fld) (n : Nat), f.lo ≤ f.hi → f.hi < 64 →
    (s.setFld r idx f n).fld r idx f = n % 2 ^ (f.hi + 1 - f.lo))

/-- Bytes written to memory read back, every other byte is as it was, and a wiped range reads zero: Writing bytes from an address on makes
each of them read back and leaves every byte outside the range as it was; a wiped range reads zero and every byte outside it is as it was; a
little-endian number of n bytes reads back modulo 256^n; and both keep the canonical form. -/
def Obligations.MemoryReadsBackWhatWasWritten : Prop :=
  (∀ (s : State) (a : Nat) (bs : List Byte), (∀ i (h : i < bs.length), (s.poke a bs).peek (a + i) = bs[i]) ∧
    (∀ b, b < a ∨ a + bs.length ≤ b → (s.poke a bs).peek b = s.peek b) ∧ (Memory.wf s.mem = true → Memory.wf (s.poke a bs).mem = true)) ∧
  (∀ (s : State) (a n : Nat), (∀ b, a ≤ b → b < a + n → (s.wipe a n).peek b = 0) ∧
    (∀ b, b < a ∨ a + n ≤ b → (s.wipe a n).peek b = s.peek b) ∧ (Memory.wf s.mem = true → Memory.wf (s.wipe a n).mem = true)) ∧
  (∀ (s : State) (a n x : Nat), (s.pokeLE a n x).peekLE a n = x % 256 ^ n)

/-- SST and VST write their own bytes of the local store and no other byte of memory: When the context that issues has SST or VST at its
program counter, the command answers a next state; where the local address is aligned, inside the store and not protected, the 4 or 64 bytes
from it hold the stored register; and every other byte of memory, in the faulting case every byte, reads as before. -/
def Obligations.VectorStoresChangeOnlyTheirBytes : Prop :=
  (∀ (s₀ : State) (c : Fin 96) (v : Fin 2) (took : Nat) (bad : List Nat) (x w : Nat), s₀.Issues bad c.val v.val x 0x19 w →
    let s := s₀.vxTimed took c.val v.val x
    let a := wrapInt 32 ((s.vctx c.val v.val x).sreg (iA w) + iSimm w)
    let ok := s.localCode [] c.val v.val x a 4 true = 0
    ∃ t, exec (.sst c v took bad) s₀ = .next t ∧ (ok → t.peekLE (vcAddr c.val v.val a) 4 = (s.vctx c.val v.val x).sreg (iD w) % 256 ^ 4) ∧
      ∀ b, ¬(ok ∧ vcAddr c.val v.val a ≤ b ∧ b < vcAddr c.val v.val a + 4) → t.peek b = s₀.peek b) ∧
  (∀ (s₀ : State) (c : Fin 96) (v : Fin 2) (took : Nat) (bad : List Nat) (x w : Nat), s₀.Issues bad c.val v.val x 0x1B w →
    let s := s₀.vxTimed took c.val v.val x
    let a := wrapInt 32 ((s.vctx c.val v.val x).sreg (iA w) + 64 * iSimm w)
    let ok := s.localCode [] c.val v.val x a 64 true = 0
    ∃ t, exec (.vst c v took bad) s₀ = .next t ∧ (ok → t.peekLE (vcAddr c.val v.val a) 64 = (s.vctx c.val v.val x).vreg (iD w) % 256 ^ 64) ∧
      ∀ b, ¬(ok ∧ vcAddr c.val v.val a ≤ b ∧ b < vcAddr c.val v.val a + 64) → t.peek b = s₀.peek b)

/-- A register access to a place that holds no register reads zero, writes nothing and is counted: A requester's aligned read, of 32 or 64
bits, of a place that holds no register or that lies outside its reach answers zero and is counted against the requesting cluster, for a
host port that of its attach cluster; a write there is dropped and counted; a misaligned access reads zero and writes nothing. -/
def Obligations.StrayAccessesReadZeroAndAreCounted : Prop :=
  ∀ (s : State) (req : Requester) (a : BitVec 48), producerLine a.toNat = false →
    (∀ w, w = .w32 ∧ a.toNat % 4 = 0 ∨ w = .w64 ∧ a.toNat % 8 = 0 → findReg a.toNat = none →
      exec (.reg64LowerRead req w a) s = .next { s.stray req with rdata := 0 } ∧
      exec (.regReadClear req w a) s = .next { s.stray req with rdata := 0 } ∧
      ∀ v, exec (.registerWrite req w a v) s = .next (s.stray req) ∧ exec (.reg64UpperWrite req w a v) s = .next (s.stray req)) ∧
    (a.toNat % 4 ≠ 0 →
      (s.regReach req a.toNat false = true → exec (.reg64LowerRead req .w32 a) s = .next { s with rdata := 0 }) ∧
      (∀ v, s.regReach req a.toNat true = true → exec (.registerWrite req .w32 a v) s = .next s)) ∧
    (∀ w, (s.regReach req a.toNat false = false → exec (.reg64LowerRead req w a) s = .next { s.stray req with rdata := 0 }) ∧
      (∀ v, s.regReach req a.toNat true = false → exec (.registerWrite req w a v) s = .next (s.stray req))) ∧
    (∀ c e, req = .engine c e → s.stray req = s.bump .PC_STRAY [c.val]) ∧ (∀ n, req = .port n → s.stray req = s.bump .PC_STRAY [attachOf n.val])

/-- In quadrature mode a change of both A and B counts nothing and is noted: A sample of a quadrature channel in which both filtered levels
change leaves the channel's count and every timebase's target and position as they were, increments the channel's ERRCNT, which stops at its
highest value, and sets INERR in every enabled timebase of the channel. -/
def Obligations.IllegalTransitionsCountNothing : Prop :=
  ∀ (s : State) (m : Fin 8) (a b : Bool), s.fld .TB_IN_CFG [m.val] TB_IN_CFG_MODE = 1 →
    let old := s.tbiLevels m.val
    let new := s.tbiSeen m.val ((mget s.tbi m.val).pins / 4 * 4 + (if b then 2 else 0) + (if a then 1 else 0))
    old.testBit 0 ≠ new.testBit 0 → old.testBit 1 ≠ new.testBit 1 →
    ∃ t, exec (.tbiEdgeAccept m a b) s = .next t ∧ t.val .TB_IN_COUNT [m.val] = s.val .TB_IN_COUNT [m.val] ∧
      t.fld .TB_IN_STATUS [m.val] TB_IN_STATUS_ERRCNT = min (s.fld .TB_IN_STATUS [m.val] TB_IN_STATUS_ERRCNT + 1) 65535 ∧
      ∀ n : Fin 64, (n.val ∈ s.tbsOf m.val → t.bit .TB_STATUS [n.val] TB_STATUS_INERR = true) ∧
        t.val .TB_TARGET [n.val] = s.val .TB_TARGET [n.val] ∧ t.val .TB_POS [n.val] = s.val .TB_POS [n.val] ∧
        t.getTb n.val = s.getTb n.val

/-- A host-target timebase takes a higher target, counts any other, and takes none while it is off: For a timebase whose source is host
targets and a writer that may write it: while it is enabled, a value above the target becomes the target and any other is counted in
TB_TGTDROP; while EN is 0 the write is ignored and not counted; a write of the lower word alone is held and changes nothing of the timebase;
and the enable sets the target to zero. -/
def Obligations.HostTargetsOnlyRise : Prop :=
  ∀ (s : State) (req : Requester) (n : Fin 64), s.Reached req .TB_TARGET [n.val] →
    s.deviceUnitCode req (s.bit .TB_CFG [n.val] TB_CFG_EN) (s.fld .TB_CFG [n.val] TB_CFG_PART) none = 0 →
    s.fld .TB_CFG [n.val] TB_CFG_SRC = 2 →
    (∀ v : DWord, let u := s.noHeld req .TB_TARGET [n.val]
      (s.bit .TB_CFG [n.val] TB_CFG_EN = true → s.val .TB_TARGET [n.val] < v.toNat →
        exec (.tbTargetWrite req n v) s = .next (u.setVal .TB_TARGET [n.val] v.toNat)) ∧
      (s.bit .TB_CFG [n.val] TB_CFG_EN = true → v.toNat ≤ s.val .TB_TARGET [n.val] →
        exec (.tbTargetWrite req n v) s = .next (u.bump .TB_TGTDROP [n.val])) ∧
      (s.bit .TB_CFG [n.val] TB_CFG_EN = false → exec (.tbTargetWrite req n v) s = .next u)) ∧
    (∀ (a : BitVec 48) (w : DWord), a.toNat = Reg.TB_TARGET.place [n.val] → exec (.registerWrite req .w32 a w) s =
      .next { s with helds := mput s.helds (latchKey req a.toNat) (some (w.setWidth 32)) }) ∧
    (s.tbStart n.val).val .TB_TARGET [n.val] = 0

/-- Where HALT and RESUME are written together HALT takes effect; RESUME leaves a group that is not halted alone: A write of WG_CTRL with
HALT and RESUME set does what the write with HALT alone does; and a permitted RESUME, with REALIGN or without, of a group that is not halted
leaves the machine as it was. -/
def Obligations.HaltComesBeforeResume : Prop :=
  (∀ (s : State) (req : Requester) (g : Fin 256) (v : Nat) (cmd : Option (Nat × Nat)), v.testBit 0 = true → v.testBit 1 = true →
    s.regWrite req .WG_CTRL [g.val] v cmd = s.regWrite req .WG_CTRL [g.val] 1 cmd) ∧
  (∀ (s : State) (req : Requester) (g : Fin 256), s.Reached req .WG_CTRL [g.val] →
    s.deviceUnitCode req (s.wgOn g.val) (s.wgPart g.val) none = 0 → s.wgState g.val ≠ wsHalted →
    exec (.wgResume req g) s = .next s ∧ exec (.wgResumeRealign req g) s = .next s)

/-- After a thermal trip every write of PW_REQ, CK_CORE, CK_FAB and CK_DROOP only posts 0x0E05: While the device is tripped, a write of a
domain's request, of a core or fabric clock or of the droop threshold by any writer that reaches the register changes nothing but the posted
code 0x0E05, and a domain's transition does not start. -/
def Obligations.AfterATripPowerAndClockWritesAreRefused : Prop :=
  ∀ (s : State) (req : Requester), s.pw.tripped = true →
    (∀ (n : Fin 229) (v : Word), s.Reached req .PW_REQ [n.val] → exec (.pwReqWrite req n v) s = .next (s.pwPost n.val 0x0E05)) ∧
    (∀ (c : Fin 96) (v : Word), s.Reached req .CK_CORE [c.val] →
      exec (.ckCoreWrite req c v) s = .next (s.ckPost (s.partOfCluster c.val) c.val c.val 0x0E05)) ∧
    (∀ (h : Fin 2) (v : Word), s.Reached req .CK_FAB [h.val] → exec (.ckFabWrite req h v) s = .next (s.ckPost none h.val 0xFFFF 0x0E05)) ∧
    (∀ (a : BitVec 48) (v : DWord), s.Reached req .CK_DROOP [] → a.toNat = Reg.CK_DROOP.place [] →
      exec (.registerWrite req .w32 a v) s = .next (s.ckPost none 0 0xFFFF 0x0E05)) ∧
    (∀ n : Fin 229, exec (.domainTransition n) s = .next s)
end

