-- ==== Sys2Proof/Laws/Maps.lean ====
section
/-! SUPPORT. Laws of the sparse maps: reading after writing, and that every operation keeps the canonical form. -/

namespace Sys2Proof.Machine

/-- The canonical form, as an order and a condition on each entry. -/
theorem mwf_iff {α : Type} [Inhabited α] [DecidableEq α] (m : List (Nat × α)) :
    mwf m = true ↔ m.Pairwise (fun a b => a.1 < b.1) ∧ ∀ e ∈ m, e.2 ≠ default := by
  induction m with
  | nil => simp [mwf]
  | cons e t ih =>
    obtain ⟨k, v⟩ := e
    cases t with
    | nil => simp [mwf]
    | cons e' t =>
      obtain ⟨k', v'⟩ := e'
      simp only [mwf, Bool.and_eq_true, decide_eq_true_eq, ih, List.pairwise_cons, List.forall_mem_cons]
      constructor
      · rintro ⟨⟨hk, hv⟩, ⟨hp, hq⟩, hd⟩
        exact ⟨⟨⟨hk, fun a ha => lt_trans hk (hp a ha)⟩, hp, hq⟩, hv, hd⟩
      · rintro ⟨⟨⟨hk, _⟩, hp, hq⟩, hv, hd⟩
        exact ⟨⟨hk, hv⟩, ⟨hp, hq⟩, hd⟩

theorem mwf_filter {α : Type} [Inhabited α] [DecidableEq α] {m : List (Nat × α)} (h : mwf m = true) (q : Nat × α → Bool) :
    mwf (m.filter q) = true := by
  rw [mwf_iff] at *
  exact ⟨h.1.sublist List.filter_sublist, fun e he => h.2 e (List.mem_of_mem_filter he)⟩

theorem mwf_mclear {α : Type} [Inhabited α] [DecidableEq α] {m : List (Nat × α)} (h : mwf m = true) (lo n : Nat) :
    mwf (mclear m lo n) = true := mwf_filter h _

theorem mdel_eq_filter {α : Type} (m : List (Nat × α)) (a : Nat) : mdel m a = m.filter fun e => e.1 ≠ a := by
  induction m with
  | nil => rfl
  | cons e t ih =>
    obtain ⟨k, v⟩ := e
    by_cases h : a = k
    · subst h; simp [mdel, ih]
    · have : ¬ k = a := fun e => h e.symm
      simp [mdel, ih, h, this]

theorem mem_mins {α : Type} {e : Nat × α} (m : List (Nat × α)) (a : Nat) (x : α) :
    e ∈ mins m a x ↔ e = (a, x) ∨ e ∈ m := by
  induction m with
  | nil => simp [mins]
  | cons e' t ih =>
    obtain ⟨k, v⟩ := e'
    by_cases h : a < k
    · simp [mins, h]
    · simp only [mins, h, ↓reduceIte, List.mem_cons, ih]
      tauto

theorem mwf_mins {α : Type} [Inhabited α] [DecidableEq α] {m : List (Nat × α)} (h : mwf m = true) (a : Nat) (x : α)
    (hx : x ≠ default) (ha : ∀ e ∈ m, e.1 ≠ a) : mwf (mins m a x) = true := by
  induction m with
  | nil => simpa [mins, mwf] using hx
  | cons e t ih =>
    obtain ⟨k, v⟩ := e
    rw [mwf_iff] at h
    obtain ⟨hp, hd⟩ := h
    rw [List.pairwise_cons] at hp
    rw [List.forall_mem_cons] at hd ha
    by_cases hk : a < k
    · simp only [mins, hk, ↓reduceIte]
      rw [mwf_iff, List.pairwise_cons, List.pairwise_cons, List.forall_mem_cons, List.forall_mem_cons, List.forall_mem_cons]
      exact ⟨⟨⟨hk, fun b hb => lt_trans hk (hp.1 b hb)⟩, hp⟩, hx, hd⟩
    · simp only [mins, hk, ↓reduceIte]
      have hlt : k < a := lt_of_le_of_ne (not_lt.mp hk) ha.1
      have ht := ih ((mwf_iff t).2 ⟨hp.2, hd.2⟩) ha.2
      rw [mwf_iff] at ht ⊢
      rw [List.pairwise_cons, List.forall_mem_cons]
      refine ⟨⟨fun b hb => ?_, ht.1⟩, hd.1, ht.2⟩
      rcases (mem_mins t a x).1 hb with rfl | hb
      · exact hlt
      · exact hp.1 b hb

/-- A write keeps the canonical form. -/
theorem mwf_mput {α : Type} [Inhabited α] [DecidableEq α] {m : List (Nat × α)} (h : mwf m = true) (a : Nat) (x : α) :
    mwf (mput m a x) = true := by
  have hd : mwf (mdel m a) = true := by rw [mdel_eq_filter]; exact mwf_filter h _
  unfold mput
  split
  · exact hd
  · refine mwf_mins hd a x ‹_› fun e he => ?_
    rw [mdel_eq_filter, List.mem_filter] at he
    simpa using he.2

theorem mwf_mmod {α : Type} [Inhabited α] [DecidableEq α] {m : List (Nat × α)} (h : mwf m = true) (a : Nat) (f : α → α) :
    mwf (mmod m a f) = true := mwf_mput h _ _

/-- Every write of bytes keeps a memory's canonical form. -/
theorem mwf_pokeMem {m : List Host.Cell} (h : mwf m = true) (a : Nat) (bs : List Byte) : mwf (pokeMem m a bs) = true := by
  induction bs generalizing m a with
  | nil => exact h
  | cons b t ih => exact ih (mwf_mput h a b) (a + 1)

theorem mwf_foldl {α β : Type} [Inhabited α] [DecidableEq α] {m : List (Nat × α)} (h : mwf m = true) (l : List β)
    (f : List (Nat × α) → β → List (Nat × α)) (hf : ∀ m b, mwf m = true → mwf (f m b) = true) : mwf (l.foldl f m) = true := by
  induction l generalizing m with
  | nil => exact h
  | cons b t ih => exact ih (hf m b h)

theorem mget_mdel_self {α : Type} [Inhabited α] (m : List (Nat × α)) (a : Nat) : mget (mdel m a) a = default := by
  induction m with
  | nil => rfl
  | cons e t ih =>
    obtain ⟨k, v⟩ := e
    by_cases h : a = k <;> simp [mdel, mget, h]
    · subst h; exact ih
    · exact ih

theorem mget_mdel_ne {α : Type} [Inhabited α] (m : List (Nat × α)) {a b : Nat} (h : b ≠ a) : mget (mdel m a) b = mget m b := by
  induction m with
  | nil => rfl
  | cons e t ih =>
    obtain ⟨k, v⟩ := e
    by_cases hk : a = k
    · subst hk; simp [mdel, mget, h, ih]
    · by_cases hb : b = k <;> simp [mdel, mget, hk, hb, ih]

theorem mget_mins_self {α : Type} [Inhabited α] (m : List (Nat × α)) (a : Nat) (x : α) (h : ∀ e ∈ m, e.1 ≠ a) :
    mget (mins m a x) a = x := by
  induction m with
  | nil => simp [mins, mget]
  | cons e t ih =>
    obtain ⟨k, v⟩ := e
    rw [List.forall_mem_cons] at h
    have hk : ¬ a = k := fun e => h.1 e.symm
    by_cases hl : a < k
    · simp [mins, mget, hl]
    · simp [mins, mget, hl, hk, ih h.2]

theorem mget_mins_ne {α : Type} [Inhabited α] (m : List (Nat × α)) {a b : Nat} (x : α) (h : b ≠ a) :
    mget (mins m a x) b = mget m b := by
  induction m with
  | nil => simp [mins, mget, h]
  | cons e t ih =>
    obtain ⟨k, v⟩ := e
    by_cases hl : a < k
    · simp [mins, mget, hl, h]
    · by_cases hb : b = k <;> simp [mins, mget, hl, hb, ih]

/-- Reading a key after it was written. -/
@[simp] theorem mget_mput_self {α : Type} [Inhabited α] [DecidableEq α] (m : List (Nat × α)) (a : Nat) (x : α) :
    mget (mput m a x) a = x := by
  unfold mput
  split
  · rw [mget_mdel_self]; exact (‹x = default›).symm
  · refine mget_mins_self _ a x fun e he => ?_
    rw [mdel_eq_filter, List.mem_filter] at he
    simpa using he.2

/-- Reading another key. -/
theorem mget_mput_ne {α : Type} [Inhabited α] [DecidableEq α] (m : List (Nat × α)) {a b : Nat} (x : α) (h : b ≠ a) :
    mget (mput m a x) b = mget m b := by
  unfold mput
  split
  · exact mget_mdel_ne m h
  · rw [mget_mins_ne _ x h, mget_mdel_ne m h]

@[simp] theorem mget_mmod_self {α : Type} [Inhabited α] [DecidableEq α] (m : List (Nat × α)) (a : Nat) (f : α → α) :
    mget (mmod m a f) a = f (mget m a) := mget_mput_self m a _

theorem mget_mmod_ne {α : Type} [Inhabited α] [DecidableEq α] (m : List (Nat × α)) {a b : Nat} (f : α → α) (h : b ≠ a) :
    mget (mmod m a f) b = mget m b := mget_mput_ne m _ h

/-- A byte outside the bytes written reads as before. -/
theorem mget_pokeMem_out (m : List Host.Cell) (a : Nat) (bs : List Byte) {x : Nat} (h : x < a ∨ a + bs.length ≤ x) :
    mget (pokeMem m a bs) x = mget m x := by
  induction bs generalizing m a with
  | nil => rfl
  | cons b t ih =>
    simp only [List.length_cons] at h
    rw [pokeMem, ih (mput m a b) (a + 1) (by omega), mget_mput_ne m b (by omega)]

/-- A byte within them reads as written. -/
theorem mget_pokeMem_in (m : List Host.Cell) (a : Nat) (bs : List Byte) {i : Nat} (h : i < bs.length) :
    mget (pokeMem m a bs) (a + i) = bs[i] := by
  induction bs generalizing m a i with
  | nil => simp at h
  | cons b t ih =>
    cases i with
    | zero => rw [pokeMem, mget_pokeMem_out _ _ _ (by omega)]; simp
    | succ j =>
      rw [pokeMem, show a + (j + 1) = a + 1 + j by omega, ih (mput m a b) (a + 1) (by simpa using h)]
      simp

end Sys2Proof.Machine
end

