-- ==== Sys2Proof/Laws/Access.lean ====
section
/-! SUPPORT. What a command that writes a register within reach does, and the values the commands write. -/

namespace Sys2Proof.Machine

theorem State.writeAt_reached32 {s : State} {req : Requester} {r : Reg} {idx h : List Nat} {v : Nat} {cmd : Option (Nat × Nat)}
    (hb : r.desc.bytes = 4) (hr : s.Reached req r idx) (hh : s.homeIdx r idx = some h) (hn : r.ofCore = false) :
    s.writeAt req (r.place idx) r idx 0 v cmd = s.regWrite req r h (v % 2 ^ 32) cmd := by
  have hu := hr.2 0 (by rw [hb]; decide)
  rw [Nat.mul_zero, Nat.add_zero] at hu
  simp [State.writeAt, State.regTouch, hu, hb, hh, hn]

/-- A command that writes a 32-bit register within reach, of no NC_ block, does what the register's write does. -/
theorem State.cmdWrite_reached32 {s : State} {req : Requester} {r : Reg} {idx h : List Nat} {v : Nat}
    (hr : s.Reached req r idx) (hb : r.desc.bytes = 4) (hh : s.homeIdx r idx = some h) (hn : r.ofCore = false) :
    s.cmdWrite req r idx v = (s.regWrite req r h (v % 2 ^ 32) none).2 := by
  unfold State.cmdWrite State.writeReg
  rw [if_pos hr.1, if_neg (by rw [hb]; decide), State.writeAt_reached32 hb hr hh hn, Nat.mod_mod]

/-- A command that writes a register of an NC_ block within reach does what the register's write does, once the core has noted the access. -/
theorem State.cmdWrite_reachedCore {s : State} {req : Requester} {r : Reg} {idx h : List Nat} {v : Nat}
    (hr : s.Reached req r idx) (hb : r.desc.bytes = 4) (hh : ∀ u : State, u.homeIdx r idx = some h) (hn : r.ofCore = true) :
    s.cmdWrite req r idx v = ((s.coreTouch (r.place idx)).regWrite req r h (v % 2 ^ 32) none).2 := by
  have hu := hr.2 0 (by rw [hb]; decide)
  rw [Nat.mul_zero, Nat.add_zero] at hu
  unfold State.cmdWrite State.writeReg
  rw [if_pos hr.1, if_neg (by rw [hb]; decide)]
  simp [State.writeAt, State.regTouch, hu, hb, hh, hn]

theorem mdel_idem {α : Type} (m : List (Nat × α)) (k : Nat) : mdel (mdel m k) k = mdel m k := by
  induction m with
  | nil => rfl
  | cons e t ih => by_cases h : k = e.1 <;> simp [mdel, h, ih] ; simpa [h] using ih

theorem mdel_mins {α : Type} (m : List (Nat × α)) (k : Nat) (x : α) : mdel (mins m k x) k = mdel m k := by
  induction m with
  | nil => simp [mins, mdel]
  | cons e t ih =>
    unfold mins
    split
    · simp [mdel]
    · simp only [mdel, ih]

theorem mput_mput_none (m : List (Nat × Option Word)) (k : Nat) (x : Option Word) :
    mput (mput m k x) k none = mdel m k := by
  have h (m : List (Nat × Option Word)) : mput m k none = mdel m k := if_pos rfl
  rw [h, mput]
  split
  · exact mdel_idem m k
  · rw [mdel_mins, mdel_idem]

/-- A command that writes a 64-bit register within reach does what the write of both words does; the word held for its lower half is used. -/
theorem State.cmdWrite_reached64 {s : State} {req : Requester} {r : Reg} {idx h : List Nat} {v : Nat}
    (hr : s.Reached req r idx) (hb : r.desc.bytes = 8) (hh : ∀ m, State.homeIdx { s with helds := m } r idx = some h)
    (hn : r.ofCore = false) :
    s.cmdWrite req r idx v =
      ((s.noHeld req r idx).regWrite req r h (v % 2 ^ 64) none).2 := by
  have hu := hr.2 0 (by rw [hb]; decide)
  have hu' := hr.2 1 (by rw [hb]; decide)
  rw [Nat.mul_zero, Nat.add_zero] at hu
  rw [Nat.mul_one] at hu'
  have hv : v % 2 ^ 32 + 2 ^ 32 * (v / 2 ^ 32 % 2 ^ 32) = v % 2 ^ 64 := by omega
  have h1 : s.writeAt req (r.place idx) r idx 0 (v % 2 ^ 32) none =
      (0, { s with helds := mput s.helds (latchKey req (r.place idx)) (some (BitVec.ofNat 32 v)) }) := by
    have hm := hh s.helds
    have e : BitVec.ofNat 32 (v % 2 ^ 32) = BitVec.ofNat 32 v := by apply BitVec.eq_of_toNat_eq; simp
    unfold State.writeAt State.regTouch
    simp only [hu, hb, hn, Bool.false_eq_true, if_false]
    simp [hm, -Nat.reducePow, e]
  unfold State.cmdWrite State.writeReg
  rw [if_pos hr.1]
  dsimp only
  rw [h1]
  simp only [hb, if_true]
  unfold State.writeAt State.regTouch
  have hk : ∀ m, State.regUp { s with helds := m } (r.place idx + 4) = true := fun _ => hu'
  simp only [hk, hb, hh, hn, Nat.add_sub_cancel, Bool.false_eq_true, if_false]
  simp [mput_mput_none, hv, -Nat.reducePow, BitVec.toNat_ofNat, State.noHeld]

theorem withEn_mod (v : Word) (b : Bool) : withEn v b % 4294967296 = withEn v b := by
  have := v.isLt
  unfold withEn
  cases b <;> simp <;> omega

theorem withEn_testBit_zero (v : Word) (b : Bool) : (withEn v b).testBit 0 = b := by
  unfold withEn
  cases b <;> simp [Nat.testBit_zero]

theorem withEn_mod_two (v : Word) (b : Bool) : withEn v b % 2 = if b then 1 else 0 := by
  unfold withEn
  cases b <;> simp

theorem withEn_testBit_lo (v : Word) (b : Bool) (f : Fld) (h : f.lo = 0) : (withEn v b).testBit f.lo = b := by
  rw [h, withEn_testBit_zero]

theorem withTop_mod (v : Word) (b : Bool) : withTop v b % 4294967296 = withTop v b := by
  unfold withTop
  cases b <;> simp <;> omega

theorem withTop_testBit_top (v : Word) (b : Bool) : (withTop v b).testBit 31 = b := by
  unfold withTop
  cases b
  · simp [Nat.testBit_eq_decide_div_mod_eq]
  · simp [Nat.testBit_eq_decide_div_mod_eq]

theorem withScope_mod (v : Word) {k : Nat} (h : k < 4) : withScope v k % 4294967296 = withScope v k := by
  have := v.isLt
  unfold withScope
  omega

theorem dword_mod (v : DWord) : v.toNat % 18446744073709551616 = v.toNat := Nat.mod_eq_of_lt v.isLt

theorem word_mod (v : Word) : v.toNat % 4294967296 = v.toNat := Nat.mod_eq_of_lt v.isLt

end Sys2Proof.Machine
end

