-- ==== Sys2Proof/Laws/Keep.lean ====
section
/-! SUPPORT. What an operation of the machine can do, said once for each: which parts of the state it may change, that it keeps the
canonical forms, that burned fuses stay burned, and that free values are never drawn twice. This file holds the relation and the plain
updates. -/

namespace Sys2Proof.Machine

theorem Sec.Kept.refl (x : Sec) : Sec.Kept x x := ⟨fun _ _ h => h, le_refl _, fun _ h => h⟩

theorem Sec.Kept.trans {x y z : Sec} (h : Sec.Kept x y) (k : Sec.Kept y z) : Sec.Kept x z :=
  ⟨fun i hi hx => k.lc i hi (h.lc i hi hx), le_trans h.floor k.floor, fun i hx => k.revoked i (h.revoked i hx)⟩

/-- From s to t nothing changes but the parts whose bits (by Part's order) are in m, and the machine's invariants are kept. -/
structure Keeps (m : Nat) (s t : State) : Prop where
  same : ∀ p : Part, m.testBit p.ctorIdx = false → p.same s t
  wf : s.Wf → t.Wf
  fuses : Sec.Kept s.sec t.sec
  fresh : s.fresh ≤ t.fresh

theorem Part.same_refl (p : Part) (s : State) : p.same s s := by cases p <;> rfl

theorem Part.same_trans {p : Part} {s t u : State} (h : p.same s t) (k : p.same t u) : p.same s u := by
  cases p <;> exact Eq.trans k h

theorem Keeps.refl (m : Nat) (s : State) : Keeps m s s :=
  ⟨fun p _ => p.same_refl s, fun h => h, Sec.Kept.refl _, le_refl _⟩

/-- Doing one more thing whose parts are among m. -/
theorem Keeps.step {m m' : Nat} {s t u : State} (h : Keeps m s t) (k : Keeps m' t u) (hm : m ||| m' = m) : Keeps m s u where
  same p hp := Part.same_trans (h.same p hp) (k.same p (by
    rw [← hm, Nat.testBit_or, Bool.or_eq_false_iff] at hp
    exact hp.2))
  wf hs := k.wf (h.wf hs)
  fuses := h.fuses.trans k.fuses
  fresh := le_trans h.fresh k.fresh

theorem Keeps.trans {m : Nat} {s t u : State} (h : Keeps m s t) (k : Keeps m t u) : Keeps m s u :=
  h.step k (Nat.or_self m)

theorem Keeps.mono {m m' : Nat} {s t : State} (h : Keeps m s t) (hm : m' ||| m = m') : Keeps m' s t :=
  (Keeps.refl m' s).step h hm

theorem Keeps.ite {m : Nat} {s a b : State} {c : Prop} [Decidable c] (ha : Keeps m s a) (hb : Keeps m s b) :
    Keeps m s (if c then a else b) := by
  split
  · exact ha
  · exact hb

theorem Keeps.foldl {α : Type} {m : Nat} {s t : State} (h : Keeps m s t) (l : List α) (f : State → α → State)
    (hf : ∀ u a, Keeps m u (f u a)) : Keeps m s (l.foldl f t) := by
  induction l generalizing t with
  | nil => exact h
  | cons a l ih => exact ih (h.trans (hf t a))

theorem Keeps.each {α : Type} {m : Nat} {s t : State} (h : Keeps m s t) (l : List α) (f : State → α → State)
    (hf : ∀ u a, Keeps m u (f u a)) : Keeps m s (t.each l f) := h.foldl l f hf

theorem Keeps.when {m : Nat} {s t : State} (h : Keeps m s t) (c : Bool) (f : State → State)
    (hf : ∀ u, Keeps m u (f u)) : Keeps m s (t.when c f) := by
  unfold State.when
  split
  · exact h.trans (hf t)
  · exact h

theorem foldl_fst_keeps {α β : Type} {m : Nat} (l : List α) (f : State × β → α → State × β) (hf : ∀ x a, Keeps m x.1 (f x a).1)
    (s : State) (b : β) : Keeps m s (l.foldl f (s, b)).1 := by
  induction l generalizing s b with
  | nil => exact Keeps.refl _ _
  | cons a l ih => exact (hf (s, b) a).trans (ih _ _)

theorem foldl_snd_keeps {α β : Type} {m : Nat} (l : List α) (f : β × State → α → β × State) (hf : ∀ x a, Keeps m x.2 (f x a).2)
    (s : State) (b : β) : Keeps m s (l.foldl f (b, s)).2 := by
  induction l generalizing s b with
  | nil => exact Keeps.refl _ _
  | cons a l ih => exact (hf (b, s) a).trans (ih _ _)

/-! ## Plain updates -/

theorem Keeps.pending_ {s : State} (x : List Instr) : Keeps 1 s { s with pending := x } where
  same p hp := by cases p <;> first | rfl | exact absurd hp (by decide)
  wf w := { w with }
  fuses := Sec.Kept.refl _
  fresh := le_refl _

theorem Keeps.pending_p {m : Nat} {s t : State} (h : Keeps m s t) (x : List Instr) (hm : m ||| 1 = m) : Keeps m s { t with pending := x } :=
  h.step (Keeps.pending_ x) hm

theorem Keeps.regs_ {s : State} (x : List (Nat × DWord)) (h : mwf s.regs = true → mwf x = true) : Keeps 2 s { s with regs := x } where
  same p hp := by cases p <;> first | rfl | exact absurd hp (by decide)
  wf w := { w with regs := h w.regs }
  fuses := Sec.Kept.refl _
  fresh := le_refl _

theorem Keeps.regs_p {m : Nat} {s t : State} (h : Keeps m s t) (x : List (Nat × DWord)) (hx : mwf t.regs = true → mwf x = true) (hm : m ||| 2 = m) : Keeps m s { t with regs := x } :=
  h.step (Keeps.regs_ x hx) hm

theorem Keeps.latches_ {s : State} (x : List (Nat × Option Word)) (h : mwf s.latches = true → mwf x = true) : Keeps 4 s { s with latches := x } where
  same p hp := by cases p <;> first | rfl | exact absurd hp (by decide)
  wf w := { w with latches := h w.latches }
  fuses := Sec.Kept.refl _
  fresh := le_refl _

theorem Keeps.latches_p {m : Nat} {s t : State} (h : Keeps m s t) (x : List (Nat × Option Word)) (hx : mwf t.latches = true → mwf x = true) (hm : m ||| 4 = m) : Keeps m s { t with latches := x } :=
  h.step (Keeps.latches_ x hx) hm

theorem Keeps.helds_ {s : State} (x : List (Nat × Option Word)) (h : mwf s.helds = true → mwf x = true) : Keeps 8 s { s with helds := x } where
  same p hp := by cases p <;> first | rfl | exact absurd hp (by decide)
  wf w := { w with helds := h w.helds }
  fuses := Sec.Kept.refl _
  fresh := le_refl _

theorem Keeps.helds_p {m : Nat} {s t : State} (h : Keeps m s t) (x : List (Nat × Option Word)) (hx : mwf t.helds = true → mwf x = true) (hm : m ||| 8 = m) : Keeps m s { t with helds := x } :=
  h.step (Keeps.helds_ x hx) hm

theorem Keeps.mem_ {s : State} (x : List Host.Cell) (h : mwf s.mem = true → mwf x = true) : Keeps 16 s { s with mem := x } where
  same p hp := by cases p <;> first | rfl | exact absurd hp (by decide)
  wf w := { w with mem := h w.mem }
  fuses := Sec.Kept.refl _
  fresh := le_refl _

theorem Keeps.mem_p {m : Nat} {s t : State} (h : Keeps m s t) (x : List Host.Cell) (hx : mwf t.mem = true → mwf x = true) (hm : m ||| 16 = m) : Keeps m s { t with mem := x } :=
  h.step (Keeps.mem_ x hx) hm

theorem Keeps.tb_ {s : State} (x : List (Nat × Tb)) (h : mwf s.tb = true → mwf x = true) : Keeps 32 s { s with tb := x } where
  same p hp := by cases p <;> first | rfl | exact absurd hp (by decide)
  wf w := { w with tb := h w.tb }
  fuses := Sec.Kept.refl _
  fresh := le_refl _

theorem Keeps.tb_p {m : Nat} {s t : State} (h : Keeps m s t) (x : List (Nat × Tb)) (hx : mwf t.tb = true → mwf x = true) (hm : m ||| 32 = m) : Keeps m s { t with tb := x } :=
  h.step (Keeps.tb_ x hx) hm

theorem Keeps.tbi_ {s : State} (x : List (Nat × Tbi)) (h : mwf s.tbi = true → mwf x = true) : Keeps 64 s { s with tbi := x } where
  same p hp := by cases p <;> first | rfl | exact absurd hp (by decide)
  wf w := { w with tbi := h w.tbi }
  fuses := Sec.Kept.refl _
  fresh := le_refl _

theorem Keeps.tbi_p {m : Nat} {s t : State} (h : Keeps m s t) (x : List (Nat × Tbi)) (hx : mwf t.tbi = true → mwf x = true) (hm : m ||| 64 = m) : Keeps m s { t with tbi := x } :=
  h.step (Keeps.tbi_ x hx) hm

theorem Keeps.wg_ {s : State} (x : List (Nat × Wg)) (h : mwf s.wg = true → mwf x = true) : Keeps 128 s { s with wg := x } where
  same p hp := by cases p <;> first | rfl | exact absurd hp (by decide)
  wf w := { w with wg := h w.wg }
  fuses := Sec.Kept.refl _
  fresh := le_refl _

theorem Keeps.wg_p {m : Nat} {s t : State} (h : Keeps m s t) (x : List (Nat × Wg)) (hx : mwf t.wg = true → mwf x = true) (hm : m ||| 128 = m) : Keeps m s { t with wg := x } :=
  h.step (Keeps.wg_ x hx) hm

theorem Keeps.nc_ {s : State} (x : List (Nat × Nc)) (h : mwf s.nc = true → mwf x = true) : Keeps 256 s { s with nc := x } where
  same p hp := by cases p <;> first | rfl | exact absurd hp (by decide)
  wf w := { w with nc := h w.nc }
  fuses := Sec.Kept.refl _
  fresh := le_refl _

theorem Keeps.nc_p {m : Nat} {s t : State} (h : Keeps m s t) (x : List (Nat × Nc)) (hx : mwf t.nc = true → mwf x = true) (hm : m ||| 256 = m) : Keeps m s { t with nc := x } :=
  h.step (Keeps.nc_ x hx) hm

theorem Keeps.eng_ {s : State} (x : List (Nat × Eng)) (h : mwf s.eng = true → mwf x = true) : Keeps 512 s { s with eng := x } where
  same p hp := by cases p <;> first | rfl | exact absurd hp (by decide)
  wf w := { w with eng := h w.eng }
  fuses := Sec.Kept.refl _
  fresh := le_refl _

theorem Keeps.eng_p {m : Nat} {s t : State} (h : Keeps m s t) (x : List (Nat × Eng)) (hx : mwf t.eng = true → mwf x = true) (hm : m ||| 512 = m) : Keeps m s { t with eng := x } :=
  h.step (Keeps.eng_ x hx) hm

theorem Keeps.mx_ {s : State} (x : List (Nat × Mx)) (h : mwf s.mx = true → mwf x = true) : Keeps 1024 s { s with mx := x } where
  same p hp := by cases p <;> first | rfl | exact absurd hp (by decide)
  wf w := { w with mx := h w.mx }
  fuses := Sec.Kept.refl _
  fresh := le_refl _

theorem Keeps.mx_p {m : Nat} {s t : State} (h : Keeps m s t) (x : List (Nat × Mx)) (hx : mwf t.mx = true → mwf x = true) (hm : m ||| 1024 = m) : Keeps m s { t with mx := x } :=
  h.step (Keeps.mx_ x hx) hm

theorem Keeps.vx_ {s : State} (x : List (Nat × Vx)) (h : mwf s.vx = true → mwf x = true) : Keeps 2048 s { s with vx := x } where
  same p hp := by cases p <;> first | rfl | exact absurd hp (by decide)
  wf w := { w with vx := h w.vx }
  fuses := Sec.Kept.refl _
  fresh := le_refl _

theorem Keeps.vx_p {m : Nat} {s t : State} (h : Keeps m s t) (x : List (Nat × Vx)) (hx : mwf t.vx = true → mwf x = true) (hm : m ||| 2048 = m) : Keeps m s { t with vx := x } :=
  h.step (Keeps.vx_ x hx) hm

theorem Keeps.ls_ {s : State} (x : List (Nat × Ls)) (h : mwf s.ls = true → mwf x = true) : Keeps 4096 s { s with ls := x } where
  same p hp := by cases p <;> first | rfl | exact absurd hp (by decide)
  wf w := { w with ls := h w.ls }
  fuses := Sec.Kept.refl _
  fresh := le_refl _

theorem Keeps.ls_p {m : Nat} {s t : State} (h : Keeps m s t) (x : List (Nat × Ls)) (hx : mwf t.ls = true → mwf x = true) (hm : m ||| 4096 = m) : Keeps m s { t with ls := x } :=
  h.step (Keeps.ls_ x hx) hm

theorem Keeps.ks_ {s : State} (x : Ks) : Keeps 8192 s { s with ks := x } where
  same p hp := by cases p <;> first | rfl | exact absurd hp (by decide)
  wf w := { w with }
  fuses := Sec.Kept.refl _
  fresh := le_refl _

theorem Keeps.ks_p {m : Nat} {s t : State} (h : Keeps m s t) (x : Ks) (hm : m ||| 8192 = m) : Keeps m s { t with ks := x } :=
  h.step (Keeps.ks_ x) hm

theorem Keeps.bk_ {s : State} (x : List (Nat × Bk)) (h : mwf s.bk = true → mwf x = true) : Keeps 16384 s { s with bk := x } where
  same p hp := by cases p <;> first | rfl | exact absurd hp (by decide)
  wf w := { w with bk := h w.bk }
  fuses := Sec.Kept.refl _
  fresh := le_refl _

theorem Keeps.bk_p {m : Nat} {s t : State} (h : Keeps m s t) (x : List (Nat × Bk)) (hx : mwf t.bk = true → mwf x = true) (hm : m ||| 16384 = m) : Keeps m s { t with bk := x } :=
  h.step (Keeps.bk_ x hx) hm

theorem Keeps.rt_ {s : State} (x : List (Nat × Rt)) (h : mwf s.rt = true → mwf x = true) : Keeps 32768 s { s with rt := x } where
  same p hp := by cases p <;> first | rfl | exact absurd hp (by decide)
  wf w := { w with rt := h w.rt }
  fuses := Sec.Kept.refl _
  fresh := le_refl _

theorem Keeps.rt_p {m : Nat} {s t : State} (h : Keeps m s t) (x : List (Nat × Rt)) (hx : mwf t.rt = true → mwf x = true) (hm : m ||| 32768 = m) : Keeps m s { t with rt := x } :=
  h.step (Keeps.rt_ x hx) hm

theorem Keeps.sdir_ {s : State} (x : List (Nat × Sdir)) (h : mwf s.sdir = true → mwf x = true) : Keeps 65536 s { s with sdir := x } where
  same p hp := by cases p <;> first | rfl | exact absurd hp (by decide)
  wf w := { w with sdir := h w.sdir }
  fuses := Sec.Kept.refl _
  fresh := le_refl _

theorem Keeps.sdir_p {m : Nat} {s t : State} (h : Keeps m s t) (x : List (Nat × Sdir)) (hx : mwf t.sdir = true → mwf x = true) (hm : m ||| 65536 = m) : Keeps m s { t with sdir := x } :=
  h.step (Keeps.sdir_ x hx) hm

theorem Keeps.lane_ {s : State} (x : List (Nat × SLane)) (h : mwf s.lane = true → mwf x = true) : Keeps 131072 s { s with lane := x } where
  same p hp := by cases p <;> first | rfl | exact absurd hp (by decide)
  wf w := { w with lane := h w.lane }
  fuses := Sec.Kept.refl _
  fresh := le_refl _

theorem Keeps.lane_p {m : Nat} {s t : State} (h : Keeps m s t) (x : List (Nat × SLane)) (hx : mwf t.lane = true → mwf x = true) (hm : m ||| 131072 = m) : Keeps m s { t with lane := x } :=
  h.step (Keeps.lane_ x hx) hm

theorem Keeps.xfer_ {s : State} (x : List (Nat × Xfer)) (h : mwf s.xfer = true → mwf x = true) : Keeps 262144 s { s with xfer := x } where
  same p hp := by cases p <;> first | rfl | exact absurd hp (by decide)
  wf w := { w with xfer := h w.xfer }
  fuses := Sec.Kept.refl _
  fresh := le_refl _

theorem Keeps.xfer_p {m : Nat} {s t : State} (h : Keeps m s t) (x : List (Nat × Xfer)) (hx : mwf t.xfer = true → mwf x = true) (hm : m ||| 262144 = m) : Keeps m s { t with xfer := x } :=
  h.step (Keeps.xfer_ x hx) hm

theorem Keeps.chan_ {s : State} (x : List (Nat × Chan)) (h : mwf s.chan = true → mwf x = true) : Keeps 524288 s { s with chan := x } where
  same p hp := by cases p <;> first | rfl | exact absurd hp (by decide)
  wf w := { w with chan := h w.chan }
  fuses := Sec.Kept.refl _
  fresh := le_refl _

theorem Keeps.chan_p {m : Nat} {s t : State} (h : Keeps m s t) (x : List (Nat × Chan)) (hx : mwf t.chan = true → mwf x = true) (hm : m ||| 524288 = m) : Keeps m s { t with chan := x } :=
  h.step (Keeps.chan_ x hx) hm

theorem Keeps.comp_ {s : State} (x : List (Nat × List Nat)) (h : mwf s.comp = true → mwf x = true) : Keeps 1048576 s { s with comp := x } where
  same p hp := by cases p <;> first | rfl | exact absurd hp (by decide)
  wf w := { w with comp := h w.comp }
  fuses := Sec.Kept.refl _
  fresh := le_refl _

theorem Keeps.comp_p {m : Nat} {s t : State} (h : Keeps m s t) (x : List (Nat × List Nat)) (hx : mwf t.comp = true → mwf x = true) (hm : m ||| 1048576 = m) : Keeps m s { t with comp := x } :=
  h.step (Keeps.comp_ x hx) hm

theorem Keeps.edges_ {s : State} (x : List Edge) : Keeps 2097152 s { s with edges := x } where
  same p hp := by cases p <;> first | rfl | exact absurd hp (by decide)
  wf w := { w with }
  fuses := Sec.Kept.refl _
  fresh := le_refl _

theorem Keeps.edges_p {m : Nat} {s t : State} (h : Keeps m s t) (x : List Edge) (hm : m ||| 2097152 = m) : Keeps m s { t with edges := x } :=
  h.step (Keeps.edges_ x) hm

theorem Keeps.oldEdges_ {s : State} (x : List (Nat × List Edge)) (h : mwf s.oldEdges = true → mwf x = true) : Keeps 4194304 s { s with oldEdges := x } where
  same p hp := by cases p <;> first | rfl | exact absurd hp (by decide)
  wf w := { w with oldEdges := h w.oldEdges }
  fuses := Sec.Kept.refl _
  fresh := le_refl _

theorem Keeps.oldEdges_p {m : Nat} {s t : State} (h : Keeps m s t) (x : List (Nat × List Edge)) (hx : mwf t.oldEdges = true → mwf x = true) (hm : m ||| 4194304 = m) : Keeps m s { t with oldEdges := x } :=
  h.step (Keeps.oldEdges_ x hx) hm

theorem Keeps.arb_ {s : State} (x : List (Nat × Arb)) (h : mwf s.arb = true → mwf x = true) : Keeps 8388608 s { s with arb := x } where
  same p hp := by cases p <;> first | rfl | exact absurd hp (by decide)
  wf w := { w with arb := h w.arb }
  fuses := Sec.Kept.refl _
  fresh := le_refl _

theorem Keeps.arb_p {m : Nat} {s t : State} (h : Keeps m s t) (x : List (Nat × Arb)) (hx : mwf t.arb = true → mwf x = true) (hm : m ||| 8388608 = m) : Keeps m s { t with arb := x } :=
  h.step (Keeps.arb_ x hx) hm

theorem Keeps.dom_ {s : State} (x : List (Nat × Dom)) (h : mwf s.dom = true → mwf x = true) : Keeps 16777216 s { s with dom := x } where
  same p hp := by cases p <;> first | rfl | exact absurd hp (by decide)
  wf w := { w with dom := h w.dom }
  fuses := Sec.Kept.refl _
  fresh := le_refl _

theorem Keeps.dom_p {m : Nat} {s t : State} (h : Keeps m s t) (x : List (Nat × Dom)) (hx : mwf t.dom = true → mwf x = true) (hm : m ||| 16777216 = m) : Keeps m s { t with dom := x } :=
  h.step (Keeps.dom_ x hx) hm

theorem Keeps.sch_ {s : State} (x : List (Nat × Sch)) (h : mwf s.sch = true → mwf x = true) : Keeps 33554432 s { s with sch := x } where
  same p hp := by cases p <;> first | rfl | exact absurd hp (by decide)
  wf w := { w with sch := h w.sch }
  fuses := Sec.Kept.refl _
  fresh := le_refl _

theorem Keeps.sch_p {m : Nat} {s t : State} (h : Keeps m s t) (x : List (Nat × Sch)) (hx : mwf t.sch = true → mwf x = true) (hm : m ||| 33554432 = m) : Keeps m s { t with sch := x } :=
  h.step (Keeps.sch_ x hx) hm

theorem Keeps.half_ {s : State} (x : List (Nat × Hf)) (h : mwf s.half = true → mwf x = true) : Keeps 67108864 s { s with half := x } where
  same p hp := by cases p <;> first | rfl | exact absurd hp (by decide)
  wf w := { w with half := h w.half }
  fuses := Sec.Kept.refl _
  fresh := le_refl _

theorem Keeps.half_p {m : Nat} {s t : State} (h : Keeps m s t) (x : List (Nat × Hf)) (hx : mwf t.half = true → mwf x = true) (hm : m ||| 67108864 = m) : Keeps m s { t with half := x } :=
  h.step (Keeps.half_ x hx) hm

theorem Keeps.slotA_ {s : State} (x : List (Nat × Nat)) (h : mwf s.slotA = true → mwf x = true) : Keeps 134217728 s { s with slotA := x } where
  same p hp := by cases p <;> first | rfl | exact absurd hp (by decide)
  wf w := { w with slotA := h w.slotA }
  fuses := Sec.Kept.refl _
  fresh := le_refl _

theorem Keeps.slotA_p {m : Nat} {s t : State} (h : Keeps m s t) (x : List (Nat × Nat)) (hx : mwf t.slotA = true → mwf x = true) (hm : m ||| 134217728 = m) : Keeps m s { t with slotA := x } :=
  h.step (Keeps.slotA_ x hx) hm

theorem Keeps.slotB_ {s : State} (x : List (Nat × Nat)) (h : mwf s.slotB = true → mwf x = true) : Keeps 268435456 s { s with slotB := x } where
  same p hp := by cases p <;> first | rfl | exact absurd hp (by decide)
  wf w := { w with slotB := h w.slotB }
  fuses := Sec.Kept.refl _
  fresh := le_refl _

theorem Keeps.slotB_p {m : Nat} {s t : State} (h : Keeps m s t) (x : List (Nat × Nat)) (hx : mwf t.slotB = true → mwf x = true) (hm : m ||| 268435456 = m) : Keeps m s { t with slotB := x } :=
  h.step (Keeps.slotB_ x hx) hm

theorem Keeps.smapA_ {s : State} (x : List (Nat × Nat)) (h : mwf s.smapA = true → mwf x = true) : Keeps 536870912 s { s with smapA := x } where
  same p hp := by cases p <;> first | rfl | exact absurd hp (by decide)
  wf w := { w with smapA := h w.smapA }
  fuses := Sec.Kept.refl _
  fresh := le_refl _

theorem Keeps.smapA_p {m : Nat} {s t : State} (h : Keeps m s t) (x : List (Nat × Nat)) (hx : mwf t.smapA = true → mwf x = true) (hm : m ||| 536870912 = m) : Keeps m s { t with smapA := x } :=
  h.step (Keeps.smapA_ x hx) hm

theorem Keeps.smapB_ {s : State} (x : List (Nat × Nat)) (h : mwf s.smapB = true → mwf x = true) : Keeps 1073741824 s { s with smapB := x } where
  same p hp := by cases p <;> first | rfl | exact absurd hp (by decide)
  wf w := { w with smapB := h w.smapB }
  fuses := Sec.Kept.refl _
  fresh := le_refl _

theorem Keeps.smapB_p {m : Nat} {s t : State} (h : Keeps m s t) (x : List (Nat × Nat)) (hx : mwf t.smapB = true → mwf x = true) (hm : m ||| 1073741824 = m) : Keeps m s { t with smapB := x } :=
  h.step (Keeps.smapB_ x hx) hm

theorem Keeps.staging_ {s : State} (x : List Host.Cell) (h : mwf s.staging = true → mwf x = true) : Keeps 2147483648 s { s with staging := x } where
  same p hp := by cases p <;> first | rfl | exact absurd hp (by decide)
  wf w := { w with staging := h w.staging }
  fuses := Sec.Kept.refl _
  fresh := le_refl _

theorem Keeps.staging_p {m : Nat} {s t : State} (h : Keeps m s t) (x : List Host.Cell) (hx : mwf t.staging = true → mwf x = true) (hm : m ||| 2147483648 = m) : Keeps m s { t with staging := x } :=
  h.step (Keeps.staging_ x hx) hm

theorem Keeps.gp_ {s : State} (x : List (Nat × Gp)) (h : mwf s.gp = true → mwf x = true) : Keeps 4294967296 s { s with gp := x } where
  same p hp := by cases p <;> first | rfl | exact absurd hp (by decide)
  wf w := { w with gp := h w.gp }
  fuses := Sec.Kept.refl _
  fresh := le_refl _

theorem Keeps.gp_p {m : Nat} {s t : State} (h : Keeps m s t) (x : List (Nat × Gp)) (hx : mwf t.gp = true → mwf x = true) (hm : m ||| 4294967296 = m) : Keeps m s { t with gp := x } :=
  h.step (Keeps.gp_ x hx) hm

theorem Keeps.checks_ {s : State} (x : List Check) : Keeps 8589934592 s { s with checks := x } where
  same p hp := by cases p <;> first | rfl | exact absurd hp (by decide)
  wf w := { w with }
  fuses := Sec.Kept.refl _
  fresh := le_refl _

theorem Keeps.checks_p {m : Nat} {s t : State} (h : Keeps m s t) (x : List Check) (hm : m ||| 8589934592 = m) : Keeps m s { t with checks := x } :=
  h.step (Keeps.checks_ x) hm

theorem Keeps.clk_ {s : State} (x : List (Nat × Clk)) (h : mwf s.clk = true → mwf x = true) : Keeps 17179869184 s { s with clk := x } where
  same p hp := by cases p <;> first | rfl | exact absurd hp (by decide)
  wf w := { w with clk := h w.clk }
  fuses := Sec.Kept.refl _
  fresh := le_refl _

theorem Keeps.clk_p {m : Nat} {s t : State} (h : Keeps m s t) (x : List (Nat × Clk)) (hx : mwf t.clk = true → mwf x = true) (hm : m ||| 17179869184 = m) : Keeps m s { t with clk := x } :=
  h.step (Keeps.clk_ x hx) hm

theorem Keeps.pw_ {s : State} (x : Pw) : Keeps 34359738368 s { s with pw := x } where
  same p hp := by cases p <;> first | rfl | exact absurd hp (by decide)
  wf w := { w with }
  fuses := Sec.Kept.refl _
  fresh := le_refl _

theorem Keeps.pw_p {m : Nat} {s t : State} (h : Keeps m s t) (x : Pw) (hm : m ||| 34359738368 = m) : Keeps m s { t with pw := x } :=
  h.step (Keeps.pw_ x) hm

theorem Keeps.bist_ {s : State} (x : List (Nat × Bist)) (h : mwf s.bist = true → mwf x = true) : Keeps 68719476736 s { s with bist := x } where
  same p hp := by cases p <;> first | rfl | exact absurd hp (by decide)
  wf w := { w with bist := h w.bist }
  fuses := Sec.Kept.refl _
  fresh := le_refl _

theorem Keeps.bist_p {m : Nat} {s t : State} (h : Keeps m s t) (x : List (Nat × Bist)) (hx : mwf t.bist = true → mwf x = true) (hm : m ||| 68719476736 = m) : Keeps m s { t with bist := x } :=
  h.step (Keeps.bist_ x hx) hm

theorem Keeps.rsts_ {s : State} (x : List Rst) : Keeps 137438953472 s { s with rsts := x } where
  same p hp := by cases p <;> first | rfl | exact absurd hp (by decide)
  wf w := { w with }
  fuses := Sec.Kept.refl _
  fresh := le_refl _

theorem Keeps.rsts_p {m : Nat} {s t : State} (h : Keeps m s t) (x : List Rst) (hm : m ||| 137438953472 = m) : Keeps m s { t with rsts := x } :=
  h.step (Keeps.rsts_ x) hm

theorem Keeps.boot_ {s : State} (x : Boot) : Keeps 274877906944 s { s with boot := x } where
  same p hp := by cases p <;> first | rfl | exact absurd hp (by decide)
  wf w := { w with }
  fuses := Sec.Kept.refl _
  fresh := le_refl _

theorem Keeps.boot_p {m : Nat} {s t : State} (h : Keeps m s t) (x : Boot) (hm : m ||| 274877906944 = m) : Keeps m s { t with boot := x } :=
  h.step (Keeps.boot_ x) hm

theorem Keeps.pcs_ {s : State} (x : Pcs) : Keeps 1099511627776 s { s with pcs := x } where
  same p hp := by cases p <;> first | rfl | exact absurd hp (by decide)
  wf w := { w with }
  fuses := Sec.Kept.refl _
  fresh := le_refl _

theorem Keeps.pcs_p {m : Nat} {s t : State} (h : Keeps m s t) (x : Pcs) (hm : m ||| 1099511627776 = m) : Keeps m s { t with pcs := x } :=
  h.step (Keeps.pcs_ x) hm

theorem Keeps.cn_ {s : State} (x : Cnet) : Keeps 2199023255552 s { s with cn := x } where
  same p hp := by cases p <;> first | rfl | exact absurd hp (by decide)
  wf w := { w with }
  fuses := Sec.Kept.refl _
  fresh := le_refl _

theorem Keeps.cn_p {m : Nat} {s t : State} (h : Keeps m s t) (x : Cnet) (hm : m ||| 2199023255552 = m) : Keeps m s { t with cn := x } :=
  h.step (Keeps.cn_ x) hm

theorem Keeps.bc_ {s : State} (x : List (Nat × Bc)) (h : mwf s.bc = true → mwf x = true) : Keeps 4398046511104 s { s with bc := x } where
  same p hp := by cases p <;> first | rfl | exact absurd hp (by decide)
  wf w := { w with bc := h w.bc }
  fuses := Sec.Kept.refl _
  fresh := le_refl _

theorem Keeps.bc_p {m : Nat} {s t : State} (h : Keeps m s t) (x : List (Nat × Bc)) (hx : mwf t.bc = true → mwf x = true) (hm : m ||| 4398046511104 = m) : Keeps m s { t with bc := x } :=
  h.step (Keeps.bc_ x hx) hm

theorem Keeps.rdata_ {s : State} (x : DWord) : Keeps 8796093022208 s { s with rdata := x } where
  same p hp := by cases p <;> first | rfl | exact absurd hp (by decide)
  wf w := { w with }
  fuses := Sec.Kept.refl _
  fresh := le_refl _

theorem Keeps.rdata_p {m : Nat} {s t : State} (h : Keeps m s t) (x : DWord) (hm : m ||| 8796093022208 = m) : Keeps m s { t with rdata := x } :=
  h.step (Keeps.rdata_ x) hm

theorem Keeps.flash_ {s : State} (x : List (Nat × Nat)) (h : mwf s.flash = true → mwf x = true) : Keeps 17592186044416 s { s with flash := x } where
  same p hp := by cases p <;> first | rfl | exact absurd hp (by decide)
  wf w := { w with flash := h w.flash }
  fuses := Sec.Kept.refl _
  fresh := le_refl _

theorem Keeps.flash_p {m : Nat} {s t : State} (h : Keeps m s t) (x : List (Nat × Nat)) (hx : mwf t.flash = true → mwf x = true) (hm : m ||| 17592186044416 = m) : Keeps m s { t with flash := x } :=
  h.step (Keeps.flash_ x hx) hm

theorem Keeps.sec_ {s : State} (x : Sec) (h : Sec.Kept s.sec x) : Keeps 549755813888 s { s with sec := x } where
  same p hp := by cases p <;> first | rfl | exact absurd hp (by decide)
  wf w := { w with }
  fuses := h
  fresh := le_refl _

theorem Keeps.fresh_ {s : State} (x : Nat) (h : s.fresh ≤ x) : Keeps 35184372088832 s { s with fresh := x } where
  same p hp := by cases p <;> first | rfl | exact absurd hp (by decide)
  wf w := { w with }
  fuses := Sec.Kept.refl _
  fresh := h

theorem Keeps.fresh_p {m : Nat} {s t : State} (h : Keeps m s t) (x : Nat) (hx : t.fresh ≤ x) (hm : m ||| 35184372088832 = m) :
    Keeps m s { t with fresh := x } := h.step (Keeps.fresh_ x hx) hm

theorem Keeps.step2 {m m' k : Nat} {s t u : State} (h : Keeps m s t) (d : Keeps k t u) (hm : m ||| m' = m) (hk : m' ||| k = m') :
    Keeps m s u := h.step d (by rw [← hm, Nat.or_assoc, hk])

/-! ## Outcomes of a vector instruction -/

/-- Keeps, of the state an outcome of a vector instruction carries. -/
def VKeeps (m : Nat) (s : State) : VOut → Prop
  | .next t => Keeps m s t
  | .skip t _ => Keeps m s t
  | .jump t _ => Keeps m s t
  | .wait t _ => Keeps m s t
  | .stop t => Keeps m s t
  | .fault _ => True
  | .other => True

theorem VKeeps.next {m : Nat} {s t : State} (h : Keeps m s t) : VKeeps m s (.next t) := h
theorem VKeeps.skip {m : Nat} {s t : State} {n : Nat} (h : Keeps m s t) : VKeeps m s (.skip t n) := h
theorem VKeeps.jump {m : Nat} {s t : State} {n : Nat} (h : Keeps m s t) : VKeeps m s (.jump t n) := h
theorem VKeeps.wait {m : Nat} {s t : State} {b : Bool} (h : Keeps m s t) : VKeeps m s (.wait t b) := h
theorem VKeeps.stop {m : Nat} {s t : State} (h : Keeps m s t) : VKeeps m s (.stop t) := h

theorem VKeeps.step {m m' : Nat} {s t : State} {o : VOut} (h : Keeps m s t) (k : VKeeps m' t o) (hm : m ||| m' = m) : VKeeps m s o := by
  cases o with
  | fault _ => trivial
  | other => trivial
  | next _ => exact h.step k hm
  | skip _ _ => exact h.step k hm
  | jump _ _ => exact h.step k hm
  | wait _ _ => exact h.step k hm
  | stop _ => exact h.step k hm

end Sys2Proof.Machine
end

