-- ==== Sys2Proof/Laws/KeepOps.lean ====
section
/-! SUPPORT. What the operations of Machine/Ops.lean can do (the relation of Laws/Keep.lean). -/

namespace Sys2Proof.Machine

theorem State.wr_keeps {m : Nat} {s t : State} (h : Keeps m s t) (x0 : Sys2Proof.Machine.Reg) (x1 : List ℕ) (x2 : Sys2Proof.DWord) (hm : m ||| 2 = m) : Keeps m s (State.wr t x0 x1 x2) := by
  refine Keeps.step h ?_ hm
  unfold State.wr
  repeat' first
    | with_reducible exact Keeps.refl _ _
    | with_reducible apply Keeps.ite
    | decide
    | split
    | dsimp only
    | (intro h; first | exact mwf_mput h _ _ | exact mwf_mmod h _ _ | exact mwf_filter h _ | exact mwf_mclear h _ _ | exact mwf_pokeMem h _ _ | rfl)
    | (with_reducible apply Keeps.regs_p)

theorem State.setVal_keeps {m : Nat} {s t : State} (h : Keeps m s t) (x0 : Sys2Proof.Machine.Reg) (x1 : List ℕ) (x2 : ℕ) (hm : m ||| 2 = m) : Keeps m s (State.setVal t x0 x1 x2) := by
  refine Keeps.step h ?_ hm
  unfold State.setVal
  repeat' first
    | with_reducible exact Keeps.refl _ _
    | with_reducible apply State.wr_keeps
    | with_reducible apply Keeps.ite
    | decide

theorem State.bump_keeps {m : Nat} {s t : State} (h : Keeps m s t) (x0 : Sys2Proof.Machine.Reg) (x1 : List ℕ) (x2 : optParam ℕ 1) (hm : m ||| 2 = m) : Keeps m s (State.bump t x0 x1 x2) := by
  refine Keeps.step h ?_ hm
  unfold State.bump
  repeat' first
    | with_reducible exact Keeps.refl _ _
    | with_reducible apply State.setVal_keeps
    | with_reducible apply Keeps.ite
    | decide

theorem State.poke_keeps {m : Nat} {s t : State} (h : Keeps m s t) (x0 : ℕ) (x1 : List Sys2Proof.Byte) (hm : m ||| 16 = m) : Keeps m s (State.poke t x0 x1) := by
  refine Keeps.step h ?_ hm
  unfold State.poke
  repeat' first
    | with_reducible exact Keeps.refl _ _
    | with_reducible apply Keeps.ite
    | decide
    | split
    | dsimp only
    | (intro h; first | exact mwf_mput h _ _ | exact mwf_mmod h _ _ | exact mwf_filter h _ | exact mwf_mclear h _ _ | exact mwf_pokeMem h _ _ | rfl)
    | (with_reducible apply Keeps.mem_p)

theorem State.pokeLE_keeps {m : Nat} {s t : State} (h : Keeps m s t) (x0 : ℕ) (x1 : ℕ) (x2 : ℕ) (hm : m ||| 16 = m) : Keeps m s (State.pokeLE t x0 x1 x2) := by
  refine Keeps.step h ?_ hm
  unfold State.pokeLE
  repeat' first
    | with_reducible exact Keeps.refl _ _
    | with_reducible apply State.poke_keeps
    | with_reducible apply Keeps.ite
    | decide

theorem State.each_keeps {α : Type} {m : Nat} {s t : State} (h : Keeps m s t) (l : List α) (f : State → α → State)
    (hf : ∀ u a, Keeps m u (f u a)) : Keeps m s (t.each l f) := h.each l f hf

theorem State.modMx_keeps {m : Nat} {s t : State} (h : Keeps m s t) (x0 : ℕ) (x1 : Sys2Proof.Machine.Mx → Sys2Proof.Machine.Mx) (hm : m ||| 1024 = m) : Keeps m s (State.modMx t x0 x1) := by
  refine Keeps.step h ?_ hm
  unfold State.modMx
  repeat' first
    | with_reducible exact Keeps.refl _ _
    | with_reducible apply Keeps.ite
    | decide
    | split
    | dsimp only
    | (intro h; first | exact mwf_mput h _ _ | exact mwf_mmod h _ _ | exact mwf_filter h _ | exact mwf_mclear h _ _ | exact mwf_pokeMem h _ _ | rfl)
    | (with_reducible apply Keeps.mx_p)

theorem State.modXfer_keeps {m : Nat} {s t : State} (h : Keeps m s t) (x0 : ℕ) (x1 : Sys2Proof.Machine.Xfer → Sys2Proof.Machine.Xfer) (hm : m ||| 262144 = m) : Keeps m s (State.modXfer t x0 x1) := by
  refine Keeps.step h ?_ hm
  unfold State.modXfer
  repeat' first
    | with_reducible exact Keeps.refl _ _
    | with_reducible apply Keeps.ite
    | decide
    | split
    | dsimp only
    | (intro h; first | exact mwf_mput h _ _ | exact mwf_mmod h _ _ | exact mwf_filter h _ | exact mwf_mclear h _ _ | exact mwf_pokeMem h _ _ | rfl)
    | (with_reducible apply Keeps.xfer_p)

theorem State.modSdir_keeps {m : Nat} {s t : State} (h : Keeps m s t) (x0 : ℕ) (x1 : Sys2Proof.Machine.Sdir → Sys2Proof.Machine.Sdir) (hm : m ||| 65536 = m) : Keeps m s (State.modSdir t x0 x1) := by
  refine Keeps.step h ?_ hm
  unfold State.modSdir
  repeat' first
    | with_reducible exact Keeps.refl _ _
    | with_reducible apply Keeps.ite
    | decide
    | split
    | dsimp only
    | (intro h; first | exact mwf_mput h _ _ | exact mwf_mmod h _ _ | exact mwf_filter h _ | exact mwf_mclear h _ _ | exact mwf_pokeMem h _ _ | rfl)
    | (with_reducible apply Keeps.sdir_p)

theorem State.modArb_keeps {m : Nat} {s t : State} (h : Keeps m s t) (x0 : ℕ) (x1 : Sys2Proof.Machine.Arb → Sys2Proof.Machine.Arb) (hm : m ||| 8388608 = m) : Keeps m s (State.modArb t x0 x1) := by
  refine Keeps.step h ?_ hm
  unfold State.modArb
  repeat' first
    | with_reducible exact Keeps.refl _ _
    | with_reducible apply Keeps.ite
    | decide
    | split
    | dsimp only
    | (intro h; first | exact mwf_mput h _ _ | exact mwf_mmod h _ _ | exact mwf_filter h _ | exact mwf_mclear h _ _ | exact mwf_pokeMem h _ _ | rfl)
    | (with_reducible apply Keeps.arb_p)

theorem State.modWg_keeps {m : Nat} {s t : State} (h : Keeps m s t) (x0 : ℕ) (x1 : Sys2Proof.Machine.Wg → Sys2Proof.Machine.Wg) (hm : m ||| 128 = m) : Keeps m s (State.modWg t x0 x1) := by
  refine Keeps.step h ?_ hm
  unfold State.modWg
  repeat' first
    | with_reducible exact Keeps.refl _ _
    | with_reducible apply Keeps.ite
    | decide
    | split
    | dsimp only
    | (intro h; first | exact mwf_mput h _ _ | exact mwf_mmod h _ _ | exact mwf_filter h _ | exact mwf_mclear h _ _ | exact mwf_pokeMem h _ _ | rfl)
    | (with_reducible apply Keeps.wg_p)

theorem State.haltAtHarvest_keeps {m : Nat} {s t : State} (h : Keeps m s t) (x0 : ℕ) (x1 : ℕ) (hm : m ||| 128 = m) : Keeps m s (State.haltAtHarvest t x0 x1) := by
  refine Keeps.step h ?_ hm
  unfold State.haltAtHarvest
  repeat' first
    | with_reducible exact Keeps.refl _ _
    | with_reducible apply State.modWg_keeps
    | with_reducible apply Keeps.ite
    | decide

theorem State.tallyAbs_keeps {m : Nat} {s t : State} (h : Keeps m s t) (x0 : ℕ) (x1 : ℕ) (hm : m ||| 128 = m) : Keeps m s (State.tallyAbs t x0 x1) := by
  refine Keeps.step h ?_ hm
  unfold State.tallyAbs
  repeat' first
    | with_reducible exact Keeps.refl _ _
    | with_reducible apply State.modWg_keeps
    | with_reducible apply Keeps.ite
    | decide

theorem State.absorbWorld_keeps {m : Nat} {s t : State} (h : Keeps m s t) (x0 : ℕ) (x1 : ℕ) (hm : m ||| 128 = m) : Keeps m s (State.absorbWorld t x0 x1) := by
  refine Keeps.step h ?_ hm
  unfold State.absorbWorld
  repeat' first
    | with_reducible exact Keeps.refl _ _
    | with_reducible apply State.tallyAbs_keeps
    | with_reducible apply Keeps.ite
    | decide
    | split

theorem State.modChan_keeps {m : Nat} {s t : State} (h : Keeps m s t) (x0 : ℕ) (x1 : Sys2Proof.Machine.Chan → Sys2Proof.Machine.Chan) (hm : m ||| 524288 = m) : Keeps m s (State.modChan t x0 x1) := by
  refine Keeps.step h ?_ hm
  unfold State.modChan
  repeat' first
    | with_reducible exact Keeps.refl _ _
    | with_reducible apply Keeps.ite
    | decide
    | split
    | dsimp only
    | (intro h; first | exact mwf_mput h _ _ | exact mwf_mmod h _ _ | exact mwf_filter h _ | exact mwf_mclear h _ _ | exact mwf_pokeMem h _ _ | rfl)
    | (with_reducible apply Keeps.chan_p)

theorem State.wipe_keeps {m : Nat} {s t : State} (h : Keeps m s t) (x0 : ℕ) (x1 : ℕ) (hm : m ||| 16 = m) : Keeps m s (State.wipe t x0 x1) := by
  refine Keeps.step h ?_ hm
  unfold State.wipe
  repeat' first
    | with_reducible exact Keeps.refl _ _
    | with_reducible apply Keeps.ite
    | decide
    | split
    | dsimp only
    | (intro h; first | exact mwf_mput h _ _ | exact mwf_mmod h _ _ | exact mwf_filter h _ | exact mwf_mclear h _ _ | exact mwf_pokeMem h _ _ | rfl)
    | (with_reducible apply Keeps.mem_p)

theorem State.setFld_keeps {m : Nat} {s t : State} (h : Keeps m s t) (x0 : Sys2Proof.Machine.Reg) (x1 : List ℕ) (x2 : Sys2Proof.Machine.Fld) (x3 : ℕ) (hm : m ||| 2 = m) : Keeps m s (State.setFld t x0 x1 x2 x3) := by
  refine Keeps.step h ?_ hm
  unfold State.setFld
  repeat' first
    | with_reducible exact Keeps.refl _ _
    | with_reducible apply State.wr_keeps
    | with_reducible apply Keeps.ite
    | decide

theorem State.modBoot_keeps {m : Nat} {s t : State} (h : Keeps m s t) (x0 : Sys2Proof.Machine.Boot → Sys2Proof.Machine.Boot) (hm : m ||| 274877906944 = m) : Keeps m s (State.modBoot t x0) := by
  refine Keeps.step h ?_ hm
  unfold State.modBoot
  repeat' first
    | with_reducible exact Keeps.refl _ _
    | with_reducible apply Keeps.ite
    | decide
    | split
    | dsimp only
    | (intro h; first | exact mwf_mput h _ _ | exact mwf_mmod h _ _ | exact mwf_filter h _ | exact mwf_mclear h _ _ | exact mwf_pokeMem h _ _ | rfl)
    | (with_reducible apply Keeps.boot_p)

theorem State.tallyAcc_keeps {m : Nat} {s t : State} (h : Keeps m s t) (x0 : ℕ) (x1 : ℕ) (hm : m ||| 128 = m) : Keeps m s (State.tallyAcc t x0 x1) := by
  refine Keeps.step h ?_ hm
  unfold State.tallyAcc
  repeat' first
    | with_reducible exact Keeps.refl _ _
    | with_reducible apply State.modWg_keeps
    | with_reducible apply Keeps.ite
    | decide

theorem State.acceptWorld_keeps {m : Nat} {s t : State} (h : Keeps m s t) (x0 : ℕ) (x1 : ℕ) (hm : m ||| 128 = m) : Keeps m s (State.acceptWorld t x0 x1) := by
  refine Keeps.step h ?_ hm
  unfold State.acceptWorld
  repeat' first
    | with_reducible exact Keeps.refl _ _
    | with_reducible apply State.tallyAcc_keeps
    | with_reducible apply Keeps.ite
    | decide
    | split

theorem State.modNc_keeps {m : Nat} {s t : State} (h : Keeps m s t) (x0 : ℕ) (x1 : ℕ) (x2 : Sys2Proof.Machine.Nc → Sys2Proof.Machine.Nc) (hm : m ||| 256 = m) : Keeps m s (State.modNc t x0 x1 x2) := by
  refine Keeps.step h ?_ hm
  unfold State.modNc
  repeat' first
    | with_reducible exact Keeps.refl _ _
    | with_reducible apply Keeps.ite
    | decide
    | split
    | dsimp only
    | (intro h; first | exact mwf_mput h _ _ | exact mwf_mmod h _ _ | exact mwf_filter h _ | exact mwf_mclear h _ _ | exact mwf_pokeMem h _ _ | rfl)
    | (with_reducible apply Keeps.nc_p)

theorem State.modGp_keeps {m : Nat} {s t : State} (h : Keeps m s t) (x0 : ℕ) (x1 : Sys2Proof.Machine.Gp → Sys2Proof.Machine.Gp) (hm : m ||| 4294967296 = m) : Keeps m s (State.modGp t x0 x1) := by
  refine Keeps.step h ?_ hm
  unfold State.modGp
  repeat' first
    | with_reducible exact Keeps.refl _ _
    | with_reducible apply Keeps.ite
    | decide
    | split
    | dsimp only
    | (intro h; first | exact mwf_mput h _ _ | exact mwf_mmod h _ _ | exact mwf_filter h _ | exact mwf_mclear h _ _ | exact mwf_pokeMem h _ _ | rfl)
    | (with_reducible apply Keeps.gp_p)

theorem State.post_keeps {m : Nat} {s t : State} (h : Keeps m s t) (x0 : Option ℕ) (x1 : ℕ) (x2 : ℕ) (x3 : ℕ) (x4 : ℕ) (hm : m ||| 4294967296 = m) : Keeps m s (State.post t x0 x1 x2 x3 x4) := by
  refine Keeps.step h ?_ hm
  unfold State.post
  repeat' first
    | with_reducible exact Keeps.refl _ _
    | (with_reducible apply State.each_keeps <;> try (intros; beta_reduce))
    | with_reducible apply State.modGp_keeps
    | with_reducible apply Keeps.ite
    | decide

theorem State.draw_keeps {m : Nat} {s t : State} (h : Keeps m s t) (hm : m ||| 35184372088832 = m) : Keeps m s (State.draw t).2 :=
  h.step (Keeps.fresh_ _ (Nat.le_succ _)) hm

theorem State.setWgState_keeps {m : Nat} {s t : State} (h : Keeps m s t) (x0 : ℕ) (x1 : ℕ) (hm : m ||| 2 = m) : Keeps m s (State.setWgState t x0 x1) := by
  refine Keeps.step h ?_ hm
  unfold State.setWgState
  repeat' first
    | with_reducible exact Keeps.refl _ _
    | with_reducible apply State.setFld_keeps
    | with_reducible apply Keeps.ite
    | decide

theorem State.modLs_keeps {m : Nat} {s t : State} (h : Keeps m s t) (x0 : ℕ) (x1 : Sys2Proof.Machine.Ls → Sys2Proof.Machine.Ls) (hm : m ||| 4096 = m) : Keeps m s (State.modLs t x0 x1) := by
  refine Keeps.step h ?_ hm
  unfold State.modLs
  repeat' first
    | with_reducible exact Keeps.refl _ _
    | with_reducible apply Keeps.ite
    | decide
    | split
    | dsimp only
    | (intro h; first | exact mwf_mput h _ _ | exact mwf_mmod h _ _ | exact mwf_filter h _ | exact mwf_mclear h _ _ | exact mwf_pokeMem h _ _ | rfl)
    | (with_reducible apply Keeps.ls_p)

theorem State.modDom_keeps {m : Nat} {s t : State} (h : Keeps m s t) (x0 : ℕ) (x1 : Sys2Proof.Machine.Dom → Sys2Proof.Machine.Dom) (hm : m ||| 16777216 = m) : Keeps m s (State.modDom t x0 x1) := by
  refine Keeps.step h ?_ hm
  unfold State.modDom
  repeat' first
    | with_reducible exact Keeps.refl _ _
    | with_reducible apply Keeps.ite
    | decide
    | split
    | dsimp only
    | (intro h; first | exact mwf_mput h _ _ | exact mwf_mmod h _ _ | exact mwf_filter h _ | exact mwf_mclear h _ _ | exact mwf_pokeMem h _ _ | rfl)
    | (with_reducible apply Keeps.dom_p)

theorem State.modVx_keeps {m : Nat} {s t : State} (h : Keeps m s t) (x0 : ℕ) (x1 : ℕ) (x2 : Sys2Proof.Machine.Vx → Sys2Proof.Machine.Vx) (hm : m ||| 2048 = m) : Keeps m s (State.modVx t x0 x1 x2) := by
  refine Keeps.step h ?_ hm
  unfold State.modVx
  repeat' first
    | with_reducible exact Keeps.refl _ _
    | with_reducible apply Keeps.ite
    | decide
    | split
    | dsimp only
    | (intro h; first | exact mwf_mput h _ _ | exact mwf_mmod h _ _ | exact mwf_filter h _ | exact mwf_mclear h _ _ | exact mwf_pokeMem h _ _ | rfl)
    | (with_reducible apply Keeps.vx_p)

theorem State.modRt_keeps {m : Nat} {s t : State} (h : Keeps m s t) (x0 : ℕ) (x1 : Sys2Proof.Machine.Rt → Sys2Proof.Machine.Rt) (hm : m ||| 32768 = m) : Keeps m s (State.modRt t x0 x1) := by
  refine Keeps.step h ?_ hm
  unfold State.modRt
  repeat' first
    | with_reducible exact Keeps.refl _ _
    | with_reducible apply Keeps.ite
    | decide
    | split
    | dsimp only
    | (intro h; first | exact mwf_mput h _ _ | exact mwf_mmod h _ _ | exact mwf_filter h _ | exact mwf_mclear h _ _ | exact mwf_pokeMem h _ _ | rfl)
    | (with_reducible apply Keeps.rt_p)

theorem State.modEng_keeps {m : Nat} {s t : State} (h : Keeps m s t) (x0 : ℕ) (x1 : ℕ) (x2 : Sys2Proof.Machine.Eng → Sys2Proof.Machine.Eng) (hm : m ||| 512 = m) : Keeps m s (State.modEng t x0 x1 x2) := by
  refine Keeps.step h ?_ hm
  unfold State.modEng
  repeat' first
    | with_reducible exact Keeps.refl _ _
    | with_reducible apply Keeps.ite
    | decide
    | split
    | dsimp only
    | (intro h; first | exact mwf_mput h _ _ | exact mwf_mmod h _ _ | exact mwf_filter h _ | exact mwf_mclear h _ _ | exact mwf_pokeMem h _ _ | rfl)
    | (with_reducible apply Keeps.eng_p)

theorem State.modSch_keeps {m : Nat} {s t : State} (h : Keeps m s t) (x0 : ℕ) (x1 : Sys2Proof.Machine.Sch → Sys2Proof.Machine.Sch) (hm : m ||| 33554432 = m) : Keeps m s (State.modSch t x0 x1) := by
  refine Keeps.step h ?_ hm
  unfold State.modSch
  repeat' first
    | with_reducible exact Keeps.refl _ _
    | with_reducible apply Keeps.ite
    | decide
    | split
    | dsimp only
    | (intro h; first | exact mwf_mput h _ _ | exact mwf_mmod h _ _ | exact mwf_filter h _ | exact mwf_mclear h _ _ | exact mwf_pokeMem h _ _ | rfl)
    | (with_reducible apply Keeps.sch_p)

theorem State.modHf_keeps {m : Nat} {s t : State} (h : Keeps m s t) (x0 : ℕ) (x1 : Sys2Proof.Machine.Hf → Sys2Proof.Machine.Hf) (hm : m ||| 67108864 = m) : Keeps m s (State.modHf t x0 x1) := by
  refine Keeps.step h ?_ hm
  unfold State.modHf
  repeat' first
    | with_reducible exact Keeps.refl _ _
    | with_reducible apply Keeps.ite
    | decide
    | split
    | dsimp only
    | (intro h; first | exact mwf_mput h _ _ | exact mwf_mmod h _ _ | exact mwf_filter h _ | exact mwf_mclear h _ _ | exact mwf_pokeMem h _ _ | rfl)
    | (with_reducible apply Keeps.half_p)

theorem State.modBk_keeps {m : Nat} {s t : State} (h : Keeps m s t) (x0 : ℕ) (x1 : ℕ) (x2 : Sys2Proof.Machine.Bk → Sys2Proof.Machine.Bk) (hm : m ||| 16384 = m) : Keeps m s (State.modBk t x0 x1 x2) := by
  refine Keeps.step h ?_ hm
  unfold State.modBk
  repeat' first
    | with_reducible exact Keeps.refl _ _
    | with_reducible apply Keeps.ite
    | decide
    | split
    | dsimp only
    | (intro h; first | exact mwf_mput h _ _ | exact mwf_mmod h _ _ | exact mwf_filter h _ | exact mwf_mclear h _ _ | exact mwf_pokeMem h _ _ | rfl)
    | (with_reducible apply Keeps.bk_p)

theorem State.when_keeps {m : Nat} {s t : State} (h : Keeps m s t) (c : Bool) (f : State → State)
    (hf : ∀ u, Keeps m u (f u)) : Keeps m s (t.when c f) := h.when c f hf

theorem State.haltNow_keeps {m : Nat} {s t : State} (h : Keeps m s t) (x0 : ℕ) (x1 : ℕ) (hm : m ||| 4294967298 = m) : Keeps m s (State.haltNow t x0 x1) := by
  refine Keeps.step h ?_ hm
  unfold State.haltNow
  repeat' first
    | with_reducible exact Keeps.refl _ _
    | with_reducible apply State.post_keeps
    | with_reducible apply State.setFld_keeps
    | with_reducible apply State.setWgState_keeps
    | with_reducible apply Keeps.ite
    | decide

theorem State.modClk_keeps {m : Nat} {s t : State} (h : Keeps m s t) (x0 : ℕ) (x1 : Sys2Proof.Machine.Clk → Sys2Proof.Machine.Clk) (hm : m ||| 17179869184 = m) : Keeps m s (State.modClk t x0 x1) := by
  refine Keeps.step h ?_ hm
  unfold State.modClk
  repeat' first
    | with_reducible exact Keeps.refl _ _
    | with_reducible apply Keeps.ite
    | decide
    | split
    | dsimp only
    | (intro h; first | exact mwf_mput h _ _ | exact mwf_mmod h _ _ | exact mwf_filter h _ | exact mwf_mclear h _ _ | exact mwf_pokeMem h _ _ | rfl)
    | (with_reducible apply Keeps.clk_p)

theorem State.modBist_keeps {m : Nat} {s t : State} (h : Keeps m s t) (x0 : ℕ) (x1 : Sys2Proof.Machine.Bist → Sys2Proof.Machine.Bist) (hm : m ||| 68719476736 = m) : Keeps m s (State.modBist t x0 x1) := by
  refine Keeps.step h ?_ hm
  unfold State.modBist
  repeat' first
    | with_reducible exact Keeps.refl _ _
    | with_reducible apply Keeps.ite
    | decide
    | split
    | dsimp only
    | (intro h; first | exact mwf_mput h _ _ | exact mwf_mmod h _ _ | exact mwf_filter h _ | exact mwf_mclear h _ _ | exact mwf_pokeMem h _ _ | rfl)
    | (with_reducible apply Keeps.bist_p)

theorem State.modSec_keeps {m : Nat} {s t : State} (h : Keeps m s t) (f : Sec → Sec) (hf : Sec.Kept t.sec (f t.sec)) (hm : m ||| 549755813888 = m) :
    Keeps m s (t.modSec f) := h.step (Keeps.sec_ _ hf) hm

theorem State.modPcs_keeps {m : Nat} {s t : State} (h : Keeps m s t) (x0 : Sys2Proof.Machine.Pcs → Sys2Proof.Machine.Pcs) (hm : m ||| 1099511627776 = m) : Keeps m s (State.modPcs t x0) := by
  refine Keeps.step h ?_ hm
  unfold State.modPcs
  repeat' first
    | with_reducible exact Keeps.refl _ _
    | with_reducible apply Keeps.ite
    | decide
    | split
    | dsimp only
    | (intro h; first | exact mwf_mput h _ _ | exact mwf_mmod h _ _ | exact mwf_filter h _ | exact mwf_mclear h _ _ | exact mwf_pokeMem h _ _ | rfl)
    | (with_reducible apply Keeps.pcs_p)

theorem State.modLane_keeps {m : Nat} {s t : State} (h : Keeps m s t) (x0 : ℕ) (x1 : ℕ) (x2 : Sys2Proof.Machine.SLane → Sys2Proof.Machine.SLane) (hm : m ||| 131072 = m) : Keeps m s (State.modLane t x0 x1 x2) := by
  refine Keeps.step h ?_ hm
  unfold State.modLane
  repeat' first
    | with_reducible exact Keeps.refl _ _
    | with_reducible apply Keeps.ite
    | decide
    | split
    | dsimp only
    | (intro h; first | exact mwf_mput h _ _ | exact mwf_mmod h _ _ | exact mwf_filter h _ | exact mwf_mclear h _ _ | exact mwf_pokeMem h _ _ | rfl)
    | (with_reducible apply Keeps.lane_p)

theorem State.modTb_keeps {m : Nat} {s t : State} (h : Keeps m s t) (x0 : ℕ) (x1 : Sys2Proof.Machine.Tb → Sys2Proof.Machine.Tb) (hm : m ||| 32 = m) : Keeps m s (State.modTb t x0 x1) := by
  refine Keeps.step h ?_ hm
  unfold State.modTb
  repeat' first
    | with_reducible exact Keeps.refl _ _
    | with_reducible apply Keeps.ite
    | decide
    | split
    | dsimp only
    | (intro h; first | exact mwf_mput h _ _ | exact mwf_mmod h _ _ | exact mwf_filter h _ | exact mwf_mclear h _ _ | exact mwf_pokeMem h _ _ | rfl)
    | (with_reducible apply Keeps.tb_p)

theorem State.modCn_keeps {m : Nat} {s t : State} (h : Keeps m s t) (x0 : Sys2Proof.Machine.Cnet → Sys2Proof.Machine.Cnet) (hm : m ||| 2199023255552 = m) : Keeps m s (State.modCn t x0) := by
  refine Keeps.step h ?_ hm
  unfold State.modCn
  repeat' first
    | with_reducible exact Keeps.refl _ _
    | with_reducible apply Keeps.ite
    | decide
    | split
    | dsimp only
    | (intro h; first | exact mwf_mput h _ _ | exact mwf_mmod h _ _ | exact mwf_filter h _ | exact mwf_mclear h _ _ | exact mwf_pokeMem h _ _ | rfl)
    | (with_reducible apply Keeps.cn_p)

theorem State.modBc_keeps {m : Nat} {s t : State} (h : Keeps m s t) (x0 : ℕ) (x1 : Sys2Proof.Machine.Bc → Sys2Proof.Machine.Bc) (hm : m ||| 4398046511104 = m) : Keeps m s (State.modBc t x0 x1) := by
  refine Keeps.step h ?_ hm
  unfold State.modBc
  repeat' first
    | with_reducible exact Keeps.refl _ _
    | with_reducible apply Keeps.ite
    | decide
    | split
    | dsimp only
    | (intro h; first | exact mwf_mput h _ _ | exact mwf_mmod h _ _ | exact mwf_filter h _ | exact mwf_mclear h _ _ | exact mwf_pokeMem h _ _ | rfl)
    | (with_reducible apply Keeps.bc_p)

theorem State.bumpFld_keeps {m : Nat} {s t : State} (h : Keeps m s t) (x0 : Sys2Proof.Machine.Reg) (x1 : List ℕ) (x2 : Sys2Proof.Machine.Fld) (x3 : optParam ℕ 1) (hm : m ||| 2 = m) : Keeps m s (State.bumpFld t x0 x1 x2 x3) := by
  refine Keeps.step h ?_ hm
  unfold State.bumpFld
  repeat' first
    | with_reducible exact Keeps.refl _ _
    | with_reducible apply State.setFld_keeps
    | with_reducible apply Keeps.ite
    | decide

theorem State.tallyInj_keeps {m : Nat} {s t : State} (h : Keeps m s t) (x0 : ℕ) (x1 : ℕ) (hm : m ||| 128 = m) : Keeps m s (State.tallyInj t x0 x1) := by
  refine Keeps.step h ?_ hm
  unfold State.tallyInj
  repeat' first
    | with_reducible exact Keeps.refl _ _
    | with_reducible apply State.modWg_keeps
    | with_reducible apply Keeps.ite
    | decide

theorem State.modPw_keeps {m : Nat} {s t : State} (h : Keeps m s t) (x0 : Sys2Proof.Machine.Pw → Sys2Proof.Machine.Pw) (hm : m ||| 34359738368 = m) : Keeps m s (State.modPw t x0) := by
  refine Keeps.step h ?_ hm
  unfold State.modPw
  repeat' first
    | with_reducible exact Keeps.refl _ _
    | with_reducible apply Keeps.ite
    | decide
    | split
    | dsimp only
    | (intro h; first | exact mwf_mput h _ _ | exact mwf_mmod h _ _ | exact mwf_filter h _ | exact mwf_mclear h _ _ | exact mwf_pokeMem h _ _ | rfl)
    | (with_reducible apply Keeps.pw_p)

end Sys2Proof.Machine
end

