-- ==== Sys2Proof/Laws/KeepBanks.lean ====
section
/-! SUPPORT. What the operations of Machine/Banks.lean can do (the relation of Laws/Keep.lean). -/

namespace Sys2Proof.Machine

theorem State.setBkBit_keeps {m : Nat} {s t : State} (h : Keeps m s t) (x0 : ℕ) (x1 : ℕ) (x2 : Sys2Proof.Machine.Fld) (x3 : Bool) (hm : m ||| 2 = m) : Keeps m s (State.setBkBit t x0 x1 x2 x3) := by
  refine Keeps.step h ?_ hm
  unfold State.setBkBit
  repeat' first
    | with_reducible exact Keeps.refl _ _
    | with_reducible apply State.setFld_keeps
    | with_reducible apply Keeps.ite
    | decide

theorem State.bkOwnWrite_keeps {m : Nat} {s t : State} (h : Keeps m s t) (x0 : ℕ) (x1 : ℕ) (x2 : ℕ) (hm : m ||| 16386 = m) : Keeps m s (State.bkOwnWrite t x0 x1 x2) := by
  refine Keeps.step h ?_ hm
  unfold State.bkOwnWrite
  repeat' first
    | with_reducible exact Keeps.refl _ _
    | with_reducible apply State.setBkBit_keeps
    | with_reducible apply State.modBk_keeps
    | with_reducible apply State.setVal_keeps
    | with_reducible apply Keeps.ite
    | decide

theorem State.bkPost_keeps {m : Nat} {s t : State} (h : Keeps m s t) (x0 : ℕ) (x1 : ℕ) (hm : m ||| 4294967298 = m) : Keeps m s (State.bkPost t x0 x1) := by
  refine Keeps.step h ?_ hm
  unfold State.bkPost
  repeat' first
    | with_reducible exact Keeps.refl _ _
    | with_reducible apply State.post_keeps
    | with_reducible apply State.setFld_keeps
    | with_reducible apply Keeps.ite
    | decide

theorem State.bkRetBit_keeps {m : Nat} {s t : State} (h : Keeps m s t) (x0 : ℕ) (x1 : ℕ) (x2 : Bool) (hm : m ||| 4294983682 = m) : Keeps m s (State.bkRetBit t x0 x1 x2) := by
  refine Keeps.step h ?_ hm
  unfold State.bkRetBit
  repeat' first
    | with_reducible exact Keeps.refl _ _
    | with_reducible apply State.bkPost_keeps
    | with_reducible apply State.modBk_keeps
    | with_reducible apply State.setBkBit_keeps
    | with_reducible apply State.setVal_keeps
    | with_reducible apply Keeps.ite
    | decide

theorem State.bkRetWrite_keeps {m : Nat} {s t : State} (h : Keeps m s t) (x0 : ℕ) (x1 : ℕ) (hm : m ||| 4294983682 = m) : Keeps m s (State.bkRetWrite t x0 x1) := by
  refine Keeps.step h ?_ hm
  unfold State.bkRetWrite
  repeat' first
    | with_reducible exact Keeps.refl _ _
    | (with_reducible apply State.each_keeps <;> try (intros; beta_reduce))
    | with_reducible apply State.bkRetBit_keeps
    | with_reducible apply Keeps.ite
    | decide

theorem State.bankLineBad_keeps {m : Nat} {s t : State} (h : Keeps m s t) (x0 : ℕ) (x1 : ℕ) (hm : m ||| 2 = m) : Keeps m s (State.bankLineBad t x0 x1) := by
  refine Keeps.step h ?_ hm
  unfold State.bankLineBad
  repeat' first
    | with_reducible exact Keeps.refl _ _
    | with_reducible apply State.setVal_keeps
    | with_reducible apply State.bump_keeps
    | with_reducible apply Keeps.ite
    | decide

theorem State.bkWakeDone_keeps {m : Nat} {s t : State} (h : Keeps m s t) (x0 : ℕ) (x1 : ℕ) (hm : m ||| 16386 = m) : Keeps m s (State.bkWakeDone t x0 x1) := by
  refine Keeps.step h ?_ hm
  unfold State.bkWakeDone
  repeat' first
    | with_reducible exact Keeps.refl _ _
    | with_reducible apply State.modBk_keeps
    | with_reducible apply State.bump_keeps
    | with_reducible apply State.setBkBit_keeps
    | with_reducible apply Keeps.ite
    | decide

end Sys2Proof.Machine
end

