-- ==== Sys2Proof/Laws/KeepReach.lean ====
section
/-! SUPPORT. What the operations of Machine/Reach.lean can do (the relation of Laws/Keep.lean). -/

namespace Sys2Proof.Machine

theorem State.coreTouch_keeps {m : Nat} {s t : State} (h : Keeps m s t) (x0 : ℕ) (hm : m ||| 256 = m) : Keeps m s (State.coreTouch t x0) := by
  refine Keeps.step h ?_ hm
  unfold State.coreTouch
  repeat' first
    | with_reducible exact Keeps.refl _ _
    | with_reducible apply State.modNc_keeps
    | with_reducible apply Keeps.ite
    | decide
    | split

theorem State.wakeDomain_keeps {m : Nat} {s t : State} (h : Keeps m s t) (x0 : ℕ) (x1 : ℕ) (hm : m ||| 16777218 = m) : Keeps m s (State.wakeDomain t x0 x1) := by
  refine Keeps.step h ?_ hm
  unfold State.wakeDomain
  repeat' first
    | with_reducible exact Keeps.refl _ _
    | with_reducible apply State.setFld_keeps
    | with_reducible apply State.modDom_keeps
    | with_reducible apply Keeps.ite
    | decide

theorem State.bufPoke_keeps {m : Nat} {s t : State} (h : Keeps m s t) (x0 : ℕ) (x1 : ℕ) (x2 : List Sys2Proof.Byte) (hm : m ||| 1040 = m) : Keeps m s (State.bufPoke t x0 x1 x2) := by
  refine Keeps.step h ?_ hm
  unfold State.bufPoke
  repeat' first
    | with_reducible exact Keeps.refl _ _
    | with_reducible apply State.modMx_keeps
    | with_reducible apply State.poke_keeps
    | with_reducible apply Keeps.ite
    | decide

theorem State.lineWrite_keeps {m : Nat} {s t : State} (h : Keeps m s t) (x0 : ℕ) (x1 : ℕ) (x2 : List Sys2Proof.Byte) (hm : m ||| 1042 = m) : Keeps m s (State.lineWrite t x0 x1 x2) := by
  refine Keeps.step h ?_ hm
  unfold State.lineWrite
  repeat' first
    | with_reducible exact Keeps.refl _ _
    | with_reducible apply State.bump_keeps
    | with_reducible apply State.poke_keeps
    | with_reducible apply State.bufPoke_keeps
    | with_reducible apply Keeps.ite
    | decide
    | split

end Sys2Proof.Machine
end

