-- ==== Sys2Proof/Laws/KeepTime.lean ====
section
/-! SUPPORT. What the operations of Machine/Time.lean can do (the relation of Laws/Keep.lean). -/

namespace Sys2Proof.Machine

theorem State.tbStop_keeps {m : Nat} {s t : State} (h : Keeps m s t) (x0 : ℕ) (hm : m ||| 2 = m) : Keeps m s (State.tbStop t x0) := by
  refine Keeps.step h ?_ hm
  unfold State.tbStop
  repeat' first
    | with_reducible exact Keeps.refl _ _
    | with_reducible apply State.setFld_keeps
    | with_reducible apply Keeps.ite
    | decide

theorem State.tbTargetWrite_keeps {m : Nat} {s t : State} (h : Keeps m s t) (x0 : ℕ) (x1 : ℕ) (hm : m ||| 2 = m) : Keeps m s (State.tbTargetWrite t x0 x1) := by
  refine Keeps.step h ?_ hm
  unfold State.tbTargetWrite
  repeat' first
    | with_reducible exact Keeps.refl _ _
    | with_reducible apply State.setVal_keeps
    | with_reducible apply State.bump_keeps
    | with_reducible apply Keeps.ite
    | decide

theorem State.setLevels_keeps {m : Nat} {s t : State} (h : Keeps m s t) (x0 : ℕ) (x1 : ℕ) (hm : m ||| 2 = m) : Keeps m s (State.setLevels t x0 x1) := by
  refine Keeps.step h ?_ hm
  unfold State.setLevels
  repeat' first
    | with_reducible exact Keeps.refl _ _
    | with_reducible apply State.setFld_keeps
    | with_reducible apply Keeps.ite
    | decide

theorem State.tbInCfgWrite_keeps {m : Nat} {s t : State} (h : Keeps m s t) (x0 : ℕ) (x1 : ℕ) (hm : m ||| 2 = m) : Keeps m s (State.tbInCfgWrite t x0 x1) := by
  refine Keeps.step h ?_ hm
  unfold State.tbInCfgWrite
  repeat' first
    | with_reducible exact Keeps.refl _ _
    | with_reducible apply State.setVal_keeps
    | with_reducible apply State.setLevels_keeps
    | with_reducible apply Keeps.ite
    | decide

theorem State.tbiPins_keeps {m : Nat} {s t : State} (h : Keeps m s t) (x0 : ℕ) (x1 : ℕ) (hm : m ||| 64 = m) : Keeps m s (State.tbiPins t x0 x1) := by
  refine Keeps.step h ?_ hm
  unfold State.tbiPins
  repeat' first
    | with_reducible exact Keeps.refl _ _
    | with_reducible apply Keeps.ite
    | decide
    | split
    | dsimp only
    | (intro h; first | exact mwf_mput h _ _ | exact mwf_mmod h _ _ | exact mwf_filter h _ | exact mwf_mclear h _ _ | exact mwf_pokeMem h _ _ | rfl)
    | (with_reducible apply Keeps.tbi_p)

theorem State.tbStart_keeps {m : Nat} {s t : State} (h : Keeps m s t) (x0 : ℕ) (hm : m ||| 34 = m) : Keeps m s (State.tbStart t x0) := by
  refine Keeps.step h ?_ hm
  unfold State.tbStart
  repeat' first
    | with_reducible exact Keeps.refl _ _
    | with_reducible apply State.modTb_keeps
    | with_reducible apply State.setVal_keeps
    | with_reducible apply State.setFld_keeps
    | with_reducible apply Keeps.ite
    | decide

theorem State.tbCount_keeps {m : Nat} {s t : State} (h : Keeps m s t) (x0 : ℕ) (x1 : ℤ) (hm : m ||| 34 = m) : Keeps m s (State.tbCount t x0 x1) := by
  refine Keeps.step h ?_ hm
  unfold State.tbCount
  repeat' first
    | with_reducible exact Keeps.refl _ _
    | with_reducible apply State.modTb_keeps
    | with_reducible apply State.setVal_keeps
    | with_reducible apply State.bump_keeps
    | with_reducible apply State.setFld_keeps
    | with_reducible apply Keeps.ite
    | decide

theorem State.tbExpire_keeps {m : Nat} {s t : State} (h : Keeps m s t) (x0 : ℕ) (hm : m ||| 2 = m) : Keeps m s (State.tbExpire t x0) := by
  refine Keeps.step h ?_ hm
  unfold State.tbExpire
  repeat' first
    | with_reducible exact Keeps.refl _ _
    | with_reducible apply State.setVal_keeps
    | with_reducible apply Keeps.ite
    | decide

theorem State.tbiEdge_keeps {m : Nat} {s t : State} (h : Keeps m s t) (x0 : ℕ) (x1 : Bool) (x2 : Bool) (hm : m ||| 98 = m) : Keeps m s (State.tbiEdge t x0 x1 x2) := by
  refine Keeps.step h ?_ hm
  unfold State.tbiEdge
  repeat' first
    | with_reducible exact Keeps.refl _ _
    | with_reducible apply State.setLevels_keeps
    | (with_reducible apply State.each_keeps <;> try (intros; beta_reduce))
    | with_reducible apply State.bumpFld_keeps
    | with_reducible apply State.setFld_keeps
    | with_reducible apply State.wr_keeps
    | with_reducible apply State.tbCount_keeps
    | with_reducible apply Keeps.ite
    | decide
    | split
    | dsimp only
    | (intro h; first | exact mwf_mput h _ _ | exact mwf_mmod h _ _ | exact mwf_filter h _ | exact mwf_mclear h _ _ | exact mwf_pokeMem h _ _ | rfl)
    | (with_reducible apply Keeps.tbi_p)

theorem State.tbiZEdge_keeps {m : Nat} {s t : State} (h : Keeps m s t) (x0 : ℕ) (x1 : Bool) (hm : m ||| 98 = m) : Keeps m s (State.tbiZEdge t x0 x1) := by
  refine Keeps.step h ?_ hm
  unfold State.tbiZEdge
  repeat' first
    | with_reducible exact Keeps.refl _ _
    | with_reducible apply State.setLevels_keeps
    | (with_reducible apply State.each_keeps <;> try (intros; beta_reduce))
    | with_reducible apply State.setVal_keeps
    | with_reducible apply State.modTb_keeps
    | with_reducible apply Keeps.ite
    | decide
    | split
    | dsimp only
    | (intro h; first | exact mwf_mput h _ _ | exact mwf_mmod h _ _ | exact mwf_filter h _ | exact mwf_mclear h _ _ | exact mwf_pokeMem h _ _ | rfl)
    | (with_reducible apply Keeps.tbi_p)

end Sys2Proof.Machine
end

