-- ==== Sys2Proof/Laws/KeepWorlds.lean ====
section
/-! SUPPORT. What the operations of Machine/Worlds.lean can do (the relation of Laws/Keep.lean). -/

namespace Sys2Proof.Machine

theorem mwf_map {α : Type} [Inhabited α] [DecidableEq α] {m : List (Nat × α)} (h : mwf m = true) (f : Nat → α → α)
    (hf : ∀ k x, x ≠ default → f k x ≠ default) : mwf (m.map fun e => (e.1, f e.1 e.2)) = true := by
  rw [mwf_iff] at *
  refine ⟨List.pairwise_map.2 h.1, fun e he => ?_⟩
  obtain ⟨a, ha, rfl⟩ := List.mem_map.1 he
  exact hf _ _ (h.2 a ha)

theorem Mx.binds_ne {x : Mx} (f : MBind → MBind) (h : x ≠ default) : ({ x with binds := x.binds.map f } : Mx) ≠ default := by
  obtain ⟨b, r, e, t, i, q, d, k, l, o⟩ := x
  intro hd
  refine h ?_
  simp only [show (default : Mx) = ⟨[], none, none, [], [], [], none, 0, [], []⟩ from rfl, Mx.mk.injEq, List.map_eq_nil_iff] at hd ⊢
  exact hd

theorem State.mxGroupOff_keeps {m : Nat} {s t : State} (h : Keeps m s t) (x0 : ℕ) (hm : m ||| 1024 = m) : Keeps m s (State.mxGroupOff t x0) := by
  exact h.step (Keeps.mx_ _ fun w => mwf_map w (fun _ x => { x with binds := x.binds.map fun b => if b.wg = x0 then { b with cancelled := true } else b })
    fun _ _ hx => Mx.binds_ne _ hx) hm

theorem State.enterDisabled_keeps {m : Nat} {s t : State} (h : Keeps m s t) (x0 : ℕ) (x1 : ℕ) (hm : m ||| 1154 = m) : Keeps m s (State.enterDisabled t x0 x1) := by
  refine Keeps.step h ?_ hm
  unfold State.enterDisabled
  repeat' first
    | with_reducible exact Keeps.refl _ _
    | with_reducible apply State.setFld_keeps
    | with_reducible apply State.setWgState_keeps
    | with_reducible apply State.modWg_keeps
    | with_reducible apply State.mxGroupOff_keeps
    | with_reducible apply Keeps.ite
    | decide

theorem State.wgStop_keeps {m : Nat} {s t : State} (h : Keeps m s t) (x0 : ℕ) (hm : m ||| 1154 = m) : Keeps m s (State.wgStop t x0) := by
  refine Keeps.step h ?_ hm
  unfold State.wgStop
  repeat' first
    | with_reducible exact Keeps.refl _ _
    | with_reducible apply State.setFld_keeps
    | with_reducible apply State.modWg_keeps
    | with_reducible apply State.enterDisabled_keeps
    | with_reducible apply Keeps.ite
    | decide

theorem State.wgHalt_keeps {m : Nat} {s t : State} (h : Keeps m s t) (x0 : ℕ) (hm : m ||| 128 = m) : Keeps m s (State.wgHalt t x0) := by
  refine Keeps.step h ?_ hm
  unfold State.wgHalt
  repeat' first
    | with_reducible exact Keeps.refl _ _
    | with_reducible apply State.haltAtHarvest_keeps
    | with_reducible apply Keeps.ite
    | decide

theorem State.swapStart_keeps {m : Nat} {s t : State} (h : Keeps m s t) (x0 : ℕ) (hm : m ||| 130 = m) : Keeps m s (State.swapStart t x0) := by
  refine Keeps.step h ?_ hm
  unfold State.swapStart
  repeat' first
    | with_reducible exact Keeps.refl _ _
    | with_reducible apply State.setWgState_keeps
    | with_reducible apply State.modWg_keeps
    | with_reducible apply Keeps.ite
    | decide

theorem State.settleState_keeps {m : Nat} {s t : State} (h : Keeps m s t) (x0 : ℕ) (hm : m ||| 2 = m) : Keeps m s (State.settleState t x0) := by
  refine Keeps.step h ?_ hm
  unfold State.settleState
  repeat' first
    | with_reducible exact Keeps.refl _ _
    | with_reducible apply State.setWgState_keeps
    | with_reducible apply Keeps.ite
    | decide

theorem State.wgResume_keeps {m : Nat} {s t : State} (h : Keeps m s t) (x0 : ℕ) (x1 : Bool) (hm : m ||| 130 = m) : Keeps m s (State.wgResume t x0 x1) := by
  refine Keeps.step h ?_ hm
  unfold State.wgResume
  repeat' first
    | with_reducible exact Keeps.refl _ _
    | with_reducible apply State.setFld_keeps
    | with_reducible apply State.modWg_keeps
    | with_reducible apply State.setWgState_keeps
    | with_reducible apply State.swapStart_keeps
    | with_reducible apply State.settleState_keeps
    | with_reducible apply Keeps.ite
    | decide

theorem State.wgCtrlWrite_keeps {m : Nat} {s t : State} (h : Keeps m s t) (x0 : ℕ) (x1 : ℕ) (hm : m ||| 130 = m) : Keeps m s (State.wgCtrlWrite t x0 x1) := by
  refine Keeps.step h ?_ hm
  unfold State.wgCtrlWrite
  repeat' first
    | with_reducible exact Keeps.refl _ _
    | with_reducible apply State.wgHalt_keeps
    | with_reducible apply State.wgResume_keeps
    | with_reducible apply Keeps.ite
    | decide

theorem State.overrunPolicy_keeps {m : Nat} {s t : State} (h : Keeps m s t) (x0 : ℕ) (x1 : Bool) (hm : m ||| 130 = m) : Keeps m s (State.overrunPolicy t x0 x1) := by
  refine Keeps.step h ?_ hm
  unfold State.overrunPolicy
  repeat' first
    | with_reducible exact Keeps.refl _ _
    | with_reducible apply State.bump_keeps
    | with_reducible apply State.modWg_keeps
    | with_reducible apply State.haltAtHarvest_keeps
    | with_reducible apply Keeps.ite
    | decide
    | split

theorem State.epochAdvance_keeps {m : Nat} {s t : State} (h : Keeps m s t) (x0 : ℕ) (x1 : ℕ) (hm : m ||| 130 = m) : Keeps m s (State.epochAdvance t x0 x1) := by
  refine Keeps.step h ?_ hm
  unfold State.epochAdvance
  repeat' first
    | with_reducible exact Keeps.refl _ _
    | with_reducible apply State.modWg_keeps
    | with_reducible apply State.bump_keeps
    | with_reducible apply Keeps.ite
    | decide
    | split

theorem State.closeStep_keeps {m : Nat} {s t : State} (h : Keeps m s t) (x0 : ℕ) (hm : m ||| 4294968450 = m) : Keeps m s (State.closeStep t x0) := by
  refine Keeps.step h ?_ hm
  unfold State.closeStep
  repeat' first
    | with_reducible exact Keeps.refl _ _
    | with_reducible apply State.setFld_keeps
    | with_reducible apply State.modWg_keeps
    | with_reducible apply State.overrunPolicy_keeps
    | with_reducible apply State.enterDisabled_keeps
    | with_reducible apply State.epochAdvance_keeps
    | with_reducible apply State.haltNow_keeps
    | with_reducible apply State.swapStart_keeps
    | with_reducible apply State.settleState_keeps
    | with_reducible apply Keeps.ite
    | decide

theorem State.mxStepTake_keeps {m : Nat} {s t : State} (h : Keeps m s t) (x0 : ℕ) (x1 : ℕ) (hm : m ||| 1024 = m) : Keeps m s (State.mxStepTake t x0 x1) := by
  refine h.step (Keeps.mx_ _ fun w => ?_) hm
  have e : (t.mx.map fun x => if (t.boundOf x0).contains (eidOf x.1 18) then x else
      (x.1, { x.2 with binds := x.2.binds.map fun b => if b.wg = x0 ∧ b.step = none then { b with step := some x1 } else b })) =
      t.mx.map fun x => (x.1, if (t.boundOf x0).contains (eidOf x.1 18) then x.2 else
        { x.2 with binds := x.2.binds.map fun b => if b.wg = x0 ∧ b.step = none then { b with step := some x1 } else b }) :=
    List.map_congr_left fun x _ => by split <;> rfl
  rw [e]
  refine mwf_map w (fun k x => if (t.boundOf x0).contains (eidOf k 18) then x else
        { x with binds := x.binds.map fun b => if b.wg = x0 ∧ b.step = none then { b with step := some x1 } else b }) fun k x hx => ?_
  split
  · exact hx
  · exact Mx.binds_ne _ hx

theorem State.openStep_keeps {m : Nat} {s t : State} (h : Keeps m s t) (x0 : ℕ) (x1 : ℕ) (hm : m ||| 1154 = m) : Keeps m s (State.openStep t x0 x1) := by
  refine Keeps.step h ?_ hm
  unfold State.openStep
  repeat' first
    | with_reducible exact Keeps.refl _ _
    | with_reducible apply State.mxStepTake_keeps
    | with_reducible apply State.setVal_keeps
    | with_reducible apply State.bump_keeps
    | with_reducible apply State.modWg_keeps
    | with_reducible apply State.setWgState_keeps
    | with_reducible apply Keeps.ite
    | decide

theorem State.tryOpen_keeps {m : Nat} {s t : State} (h : Keeps m s t) (x0 : ℕ) (hm : m ||| 4294968450 = m) : Keeps m s (State.tryOpen t x0) := by
  refine Keeps.step h ?_ hm
  unfold State.tryOpen
  repeat' first
    | with_reducible exact Keeps.refl _ _
    | with_reducible apply State.bump_keeps
    | with_reducible apply State.haltNow_keeps
    | with_reducible apply State.modWg_keeps
    | with_reducible apply State.epochAdvance_keeps
    | with_reducible apply State.setWgState_keeps
    | with_reducible apply State.openStep_keeps
    | with_reducible apply Keeps.ite
    | decide

end Sys2Proof.Machine
end

