-- ==== Sys2Proof/Laws/KeepNeuron.lean ====
section
/-! SUPPORT. What the operations of Machine/Neuron.lean can do (the relation of Laws/Keep.lean). -/

namespace Sys2Proof.Machine

theorem State.setNcState_keeps {m : Nat} {s t : State} (h : Keeps m s t) (x0 : ℕ) (x1 : ℕ) (x2 : ℕ) (hm : m ||| 2 = m) : Keeps m s (State.setNcState t x0 x1 x2) := by
  refine Keeps.step h ?_ hm
  unfold State.setNcState
  repeat' first
    | with_reducible exact Keeps.refl _ _
    | with_reducible apply State.setFld_keeps
    | with_reducible apply Keeps.ite
    | decide

theorem State.ncCfgWrite_keeps {m : Nat} {s t : State} (h : Keeps m s t) (x0 : ℕ) (x1 : ℕ) (x2 : ℕ) (hm : m ||| 2 = m) : Keeps m s (State.ncCfgWrite t x0 x1 x2) := by
  refine Keeps.step h ?_ hm
  unfold State.ncCfgWrite
  repeat' first
    | with_reducible exact Keeps.refl _ _
    | with_reducible apply State.setFld_keeps
    | with_reducible apply State.setNcState_keeps
    | with_reducible apply Keeps.ite
    | decide

theorem State.learnEcc_keeps {m : Nat} {s t : State} (h : Keeps m s t) (x0 : ℕ) (x1 : ℕ) (x2 : ℕ) (x3 : ℕ) (hm : m ||| 130 = m) : Keeps m s (State.learnEcc t x0 x1 x2 x3) := by
  refine Keeps.step h ?_ hm
  unfold State.learnEcc
  repeat' first
    | with_reducible exact Keeps.refl _ _
    | with_reducible apply State.setVal_keeps
    | with_reducible apply State.setFld_keeps
    | (with_reducible apply State.each_keeps <;> try (intros; beta_reduce))
    | with_reducible apply State.haltAtHarvest_keeps
    | with_reducible apply Keeps.ite
    | decide

theorem State.cpoke_keeps {m : Nat} {s t : State} (h : Keeps m s t) (x0 : ℕ) (x1 : ℕ) (x2 : ℕ) (x3 : ℕ) (x4 : ℕ) (hm : m ||| 16 = m) : Keeps m s (State.cpoke t x0 x1 x2 x3 x4) := by
  refine Keeps.step h ?_ hm
  unfold State.cpoke
  repeat' first
    | with_reducible exact Keeps.refl _ _
    | with_reducible apply State.pokeLE_keeps
    | with_reducible apply Keeps.ite
    | decide

theorem State.adoptOpens_keeps {m : Nat} {s t : State} (h : Keeps m s t) (x0 : ℕ) (hm : m ||| 256 = m) : Keeps m s (State.adoptOpens t x0) := by
  refine Keeps.step h ?_ hm
  unfold State.adoptOpens
  repeat' first
    | with_reducible exact Keeps.refl _ _
    | (with_reducible apply State.each_keeps <;> try (intros; beta_reduce))
    | with_reducible apply State.modNc_keeps
    | with_reducible apply Keeps.ite
    | decide

theorem State.setCbit_keeps {m : Nat} {s t : State} (h : Keeps m s t) (x0 : ℕ) (x1 : ℕ) (x2 : ℕ) (x3 : ℕ) (x4 : Bool) (hm : m ||| 16 = m) : Keeps m s (State.setCbit t x0 x1 x2 x3 x4) := by
  refine Keeps.step h ?_ hm
  unfold State.setCbit
  repeat' first
    | with_reducible exact Keeps.refl _ _
    | with_reducible apply State.cpoke_keeps
    | with_reducible apply Keeps.ite
    | decide

theorem State.setTouched_keeps {m : Nat} {s t : State} (h : Keeps m s t) (x0 : ℕ) (x1 : ℕ) (x2 : ℕ) (x3 : ℕ) (x4 : Bool) (hm : m ||| 16 = m) : Keeps m s (State.setTouched t x0 x1 x2 x3 x4) := by
  refine Keeps.step h ?_ hm
  unfold State.setTouched
  repeat' first
    | with_reducible exact Keeps.refl _ _
    | with_reducible apply State.setCbit_keeps
    | with_reducible apply Keeps.ite
    | decide

theorem State.setActive_keeps {m : Nat} {s t : State} (h : Keeps m s t) (x0 : ℕ) (x1 : ℕ) (x2 : ℕ) (x3 : Bool) (hm : m ||| 16 = m) : Keeps m s (State.setActive t x0 x1 x2 x3) := by
  refine Keeps.step h ?_ hm
  unfold State.setActive
  repeat' first
    | with_reducible exact Keeps.refl _ _
    | with_reducible apply State.setCbit_keeps
    | with_reducible apply Keeps.ite
    | decide

theorem State.groupStartCore_keeps {m : Nat} {s t : State} (h : Keeps m s t) (x0 : ℕ) (x1 : ℕ) (x2 : ℕ) (x3 : ℕ) (hm : m ||| 272 = m) : Keeps m s (State.groupStartCore t x0 x1 x2 x3) := by
  refine Keeps.step h ?_ hm
  unfold State.groupStartCore
  repeat' first
    | with_reducible exact Keeps.refl _ _
    | with_reducible apply State.modNc_keeps
    | (with_reducible apply State.each_keeps <;> try (intros; beta_reduce))
    | with_reducible apply State.setTouched_keeps
    | with_reducible apply State.cpoke_keeps
    | with_reducible apply State.setActive_keeps
    | with_reducible apply Keeps.ite
    | decide

theorem State.wgStart_keeps {m : Nat} {s t : State} (h : Keeps m s t) (x0 : ℕ) (hm : m ||| 2199023255954 = m) : Keeps m s (State.wgStart t x0) := by
  refine Keeps.step h ?_ hm
  unfold State.wgStart
  repeat' first
    | with_reducible exact Keeps.refl _ _
    | with_reducible apply State.setFld_keeps
    | with_reducible apply State.setVal_keeps
    | with_reducible apply State.modWg_keeps
    | with_reducible apply State.setWgState_keeps
    | with_reducible apply State.modCn_keeps
    | (with_reducible apply State.each_keeps <;> try (intros; beta_reduce))
    | with_reducible apply State.groupStartCore_keeps
    | with_reducible apply Keeps.ite
    | decide

theorem State.coreEcc_keeps {m : Nat} {s t : State} (h : Keeps m s t) (x0 : ℕ) (x1 : ℕ) (x2 : ℕ) (x3 : ℕ) (x4 : ℕ) (hm : m ||| 130 = m) : Keeps m s (State.coreEcc t x0 x1 x2 x3 x4) := by
  refine Keeps.step h ?_ hm
  unfold State.coreEcc
  repeat' first
    | with_reducible exact Keeps.refl _ _
    | with_reducible apply State.haltAtHarvest_keeps
    | with_reducible apply State.setFld_keeps
    | with_reducible apply State.setVal_keeps
    | with_reducible apply Keeps.ite
    | decide

theorem State.clearSlots_keeps {m : Nat} {s t : State} (h : Keeps m s t) (x0 : ℕ) (x1 : ℕ) (x2 : ℕ) (x3 : ℕ) (x4 : ℕ) (hm : m ||| 16 = m) : Keeps m s (State.clearSlots t x0 x1 x2 x3 x4) := by
  refine Keeps.step h ?_ hm
  unfold State.clearSlots
  repeat' first
    | with_reducible exact Keeps.refl _ _
    | (with_reducible apply State.each_keeps <;> try (intros; beta_reduce))
    | with_reducible apply State.setTouched_keeps
    | with_reducible apply State.cpoke_keeps
    | with_reducible apply Keeps.ite
    | decide

theorem State.putRec_keeps {m : Nat} {s t : State} (h : Keeps m s t) (x0 : ℕ) (x1 : ℕ) (x2 : ℕ) (x3 : Sys2Proof.Machine.Rec) (hm : m ||| 16 = m) : Keeps m s (State.putRec t x0 x1 x2 x3) := by
  refine Keeps.step h ?_ hm
  unfold State.putRec
  repeat' first
    | with_reducible exact Keeps.refl _ _
    | with_reducible apply State.cpoke_keeps
    | with_reducible apply Keeps.ite
    | decide

theorem State.settleInst_keeps {m : Nat} {s t : State} (h : Keeps m s t) (x0 : List ℕ) (x1 : ℕ) (x2 : ℕ) (x3 : ℕ) (x4 : ℕ) (x5 : ℕ) (x6 : ℕ) (x7 : Bool) (hm : m ||| 146 = m) : Keeps m s (State.settleInst t x0 x1 x2 x3 x4 x5 x6 x7) := by
  refine Keeps.step h ?_ hm
  unfold State.settleInst
  repeat' first
    | with_reducible exact Keeps.refl _ _
    | with_reducible apply State.coreEcc_keeps
    | with_reducible apply State.putRec_keeps
    | with_reducible apply Keeps.ite
    | decide

theorem State.eachMod_keeps {m : Nat} {s t : State} (h : Keeps m s t) (c n g : Nat) (f : State → Nat → Nat → State)
    (hf : ∀ u a b, Keeps m u (f u a b)) : Keeps m s (t.eachMod c n g f) := by
  unfold State.eachMod
  split
  · exact h
  · exact h.each _ _ fun u a => (Keeps.refl m u).each _ _ fun v b => hf v _ _


theorem State.promoteMod_keeps {m : Nat} {s t : State} (h : Keeps m s t) (x0 : ℕ) (x1 : ℕ) (x2 : ℕ) (x3 : ℕ) (hm : m ||| 16 = m) : Keeps m s (State.promoteMod t x0 x1 x2 x3) := by
  refine Keeps.step h ?_ hm
  unfold State.promoteMod
  repeat' first
    | with_reducible exact Keeps.refl _ _
    | with_reducible apply State.cpoke_keeps
    | with_reducible apply Keeps.ite
    | decide

theorem State.settleMods_keeps {m : Nat} {s t : State} (h : Keeps m s t) (x0 : List ℕ) (x1 : ℕ) (x2 : ℕ) (x3 : ℕ) (x4 : ℕ) (hm : m ||| 146 = m) : Keeps m s (State.settleMods t x0 x1 x2 x3 x4) := by
  refine Keeps.step h ?_ hm
  unfold State.settleMods
  repeat' first
    | with_reducible exact Keeps.refl _ _
    | (with_reducible apply State.eachMod_keeps <;> try (intros; beta_reduce))
    | with_reducible apply State.learnEcc_keeps
    | with_reducible apply State.promoteMod_keeps
    | with_reducible apply Keeps.ite
    | decide

theorem State.settlePass_keeps {m : Nat} {s t : State} (h : Keeps m s t) (x0 : List ℕ) (x1 : ℕ) (x2 : ℕ) (x3 : ℕ) (x4 : ℕ) (x5 : ℕ) (x6 : ℕ) (hm : m ||| 146 = m) : Keeps m s (State.settlePass t x0 x1 x2 x3 x4 x5 x6) := by
  refine Keeps.step h ?_ hm
  unfold State.settlePass
  repeat' first
    | with_reducible exact Keeps.refl _ _
    | (with_reducible apply State.each_keeps <;> try (intros; beta_reduce))
    | with_reducible apply State.settleInst_keeps
    | with_reducible apply State.settleMods_keeps
    | with_reducible apply Keeps.ite
    | decide

theorem State.integrate_keeps {m : Nat} {s t : State} (h : Keeps m s t) (x0 : List ℕ) (x1 : ℕ) (x2 : ℕ) (x3 : ℕ) (x4 : ℕ) (x5 : ℕ) (x6 : ℕ) (x7 : ℕ) (hm : m ||| 402 = m) : Keeps m s (State.integrate t x0 x1 x2 x3 x4 x5 x6 x7) := by
  refine Keeps.step h ?_ hm
  unfold State.integrate
  repeat' first
    | with_reducible exact Keeps.refl _ _
    | with_reducible apply State.coreEcc_keeps
    | with_reducible apply State.clearSlots_keeps
    | with_reducible apply State.putRec_keeps
    | with_reducible apply State.bump_keeps
    | with_reducible apply State.setActive_keeps
    | with_reducible apply State.modNc_keeps
    | with_reducible apply Keeps.ite
    | decide
    | split

theorem State.openCore_keeps {m : Nat} {s t : State} (h : Keeps m s t) (x0 : List ℕ) (x1 : ℕ) (x2 : ℕ) (x3 : ℕ) (x4 : ℕ) (hm : m ||| 402 = m) : Keeps m s (State.openCore t x0 x1 x2 x3 x4) := by
  refine Keeps.step h ?_ hm
  unfold State.openCore
  repeat' first
    | with_reducible exact Keeps.refl _ _
    | with_reducible apply State.settlePass_keeps
    | (with_reducible apply State.each_keeps <;> try (intros; beta_reduce))
    | with_reducible apply State.integrate_keeps
    | with_reducible apply State.modNc_keeps
    | with_reducible apply Keeps.ite
    | decide

theorem State.fillTables_keeps {m : Nat} {s t : State} (h : Keeps m s t) (x0 : ℕ) (x1 : ℕ) (hm : m ||| 16 = m) : Keeps m s (State.fillTables t x0 x1) := by
  refine Keeps.step h ?_ hm
  unfold State.fillTables
  repeat' first
    | with_reducible exact Keeps.refl _ _
    | (with_reducible apply State.each_keeps <;> try (intros; beta_reduce))
    | with_reducible apply State.poke_keeps
    | with_reducible apply Keeps.ite
    | decide

theorem State.ncFillDone_keeps {m : Nat} {s t : State} (h : Keeps m s t) (x0 : ℕ) (x1 : ℕ) (hm : m ||| 18 = m) : Keeps m s (State.ncFillDone t x0 x1) := by
  refine Keeps.step h ?_ hm
  unfold State.ncFillDone
  repeat' first
    | with_reducible exact Keeps.refl _ _
    | with_reducible apply State.setNcState_keeps
    | with_reducible apply State.fillTables_keeps
    | with_reducible apply Keeps.ite
    | decide

theorem State.ncSleepNow_keeps {m : Nat} {s t : State} (h : Keeps m s t) (x0 : ℕ) (x1 : ℕ) (hm : m ||| 258 = m) : Keeps m s (State.ncSleepNow t x0 x1) := by
  refine Keeps.step h ?_ hm
  unfold State.ncSleepNow
  repeat' first
    | with_reducible exact Keeps.refl _ _
    | with_reducible apply State.modNc_keeps
    | with_reducible apply State.setNcState_keeps
    | with_reducible apply Keeps.ite
    | decide

theorem State.ncWakeNow_keeps {m : Nat} {s t : State} (h : Keeps m s t) (x0 : ℕ) (x1 : ℕ) (x2 : ℕ) (x3 : ℕ) (hm : m ||| 258 = m) : Keeps m s (State.ncWakeNow t x0 x1 x2 x3) := by
  refine Keeps.step h ?_ hm
  unfold State.ncWakeNow
  repeat' first
    | with_reducible exact Keeps.refl _ _
    | with_reducible apply State.modNc_keeps
    | with_reducible apply State.bump_keeps
    | with_reducible apply State.setFld_keeps
    | with_reducible apply State.setNcState_keeps
    | with_reducible apply Keeps.ite
    | decide

theorem State.swapIn_keeps {m : Nat} {s t : State} (h : Keeps m s t) (x0 : ℕ) (x1 : ℕ) (hm : m ||| 16 = m) : Keeps m s (State.swapIn t x0 x1) := by
  refine Keeps.step h ?_ hm
  unfold State.swapIn
  refine foldl_fst_keeps _ _ (fun x a => ?_) _ _
  repeat' first
    | with_reducible exact Keeps.refl _ _
    | (with_reducible apply State.each_keeps <;> try (intros; beta_reduce))
    | with_reducible apply State.poke_keeps
    | with_reducible apply State.setTouched_keeps
    | with_reducible apply State.setActive_keeps
    | (with_reducible apply State.eachMod_keeps <;> try (intros; beta_reduce))
    | with_reducible apply State.cpoke_keeps
    | with_reducible apply Keeps.ite
    | decide


theorem State.swapOut_keeps {m : Nat} {s t : State} (h : Keeps m s t) (x0 : ℕ) (x1 : ℕ) (hm : m ||| 16 = m) : Keeps m s (State.swapOut t x0 x1) := by
  refine Keeps.step h ?_ hm
  unfold State.swapOut
  refine foldl_fst_keeps _ _ (fun x a => ?_) _ _
  repeat' first
    | with_reducible exact Keeps.refl _ _
    | with_reducible apply State.poke_keeps
    | with_reducible apply Keeps.ite
    | decide


end Sys2Proof.Machine
end

