-- ==== Sys2Proof/Laws/KeepArbiters.lean ====
section
/-! SUPPORT. What the operations of Machine/Arbiters.lean can do (the relation of Laws/Keep.lean). -/

namespace Sys2Proof.Machine

theorem State.arbFree_keeps {m : Nat} {s t : State} (h : Keeps m s t) (x0 : ℕ) (x1 : ℕ) (hm : m ||| 8388608 = m) : Keeps m s (State.arbFree t x0 x1) := by
  refine Keeps.step h ?_ hm
  unfold State.arbFree
  repeat' first
    | with_reducible exact Keeps.refl _ _
    | with_reducible apply State.modArb_keeps
    | with_reducible apply Keeps.ite
    | decide

theorem State.arbLeave_keeps {m : Nat} {s t : State} (h : Keeps m s t) (x0 : ℕ) (x1 : ℕ) (hm : m ||| 8388608 = m) : Keeps m s (State.arbLeave t x0 x1) := by
  refine Keeps.step h ?_ hm
  unfold State.arbLeave
  repeat' first
    | with_reducible exact Keeps.refl _ _
    | with_reducible apply State.modArb_keeps
    | with_reducible apply Keeps.ite
    | decide

theorem State.arbOnce_keeps {m : Nat} {s t : State} (h : Keeps m s t) (x0 : ℕ) (x1 : optParam ℕ 1) (hm : m ||| 8388608 = m) : Keeps m s (State.arbOnce t x0 x1) := by
  refine Keeps.step h ?_ hm
  unfold State.arbOnce
  repeat' first
    | with_reducible exact Keeps.refl _ _
    | with_reducible apply State.modArb_keeps
    | with_reducible apply Keeps.ite
    | decide

theorem State.arbLoss_keeps {m : Nat} {s t : State} (h : Keeps m s t) (x0 : ℕ) (x1 : optParam ℕ 1) (hm : m ||| 2 = m) : Keeps m s (State.arbLoss t x0 x1) := by
  refine Keeps.step h ?_ hm
  unfold State.arbLoss
  repeat' first
    | with_reducible exact Keeps.refl _ _
    | with_reducible apply State.bump_keeps
    | with_reducible apply Keeps.ite
    | decide

theorem State.arbAsk_keeps {m : Nat} {s t : State} (h : Keeps m s t) (x0 : ℕ) (x1 : ℕ) (x2 : ℕ) (hm : m ||| 8388610 = m) : Keeps m s (State.arbAsk t x0 x1 x2).2 := by
  refine Keeps.step h ?_ hm
  unfold State.arbAsk
  repeat' first
    | with_reducible exact Keeps.refl _ _
    | with_reducible apply State.modArb_keeps
    | with_reducible apply State.arbLoss_keeps
    | with_reducible apply Keeps.ite
    | decide
    | split
    | dsimp only

theorem State.arbReserve_keeps {m : Nat} {s t : State} (h : Keeps m s t) (x0 : ℕ) (hm : m ||| 8388608 = m) : Keeps m s (State.arbReserve t x0) := by
  refine Keeps.step h ?_ hm
  unfold State.arbReserve
  repeat' first
    | with_reducible exact Keeps.refl _ _
    | with_reducible apply State.modArb_keeps
    | with_reducible apply Keeps.ite
    | decide

theorem State.arbGrantHeld_keeps {m : Nat} {s t : State} (h : Keeps m s t) (x0 : ℕ) (x1 : ℕ) (hm : m ||| 8388608 = m) : Keeps m s (State.arbGrantHeld t x0 x1) := by
  refine Keeps.step h ?_ hm
  unfold State.arbGrantHeld
  repeat' first
    | with_reducible exact Keeps.refl _ _
    | with_reducible apply State.modArb_keeps
    | with_reducible apply Keeps.ite
    | decide

theorem State.bkHandoverEnd_keeps {m : Nat} {s t : State} (h : Keeps m s t) (x0 : ℕ) (x1 : ℕ) (hm : m ||| 16386 = m) : Keeps m s (State.bkHandoverEnd t x0 x1) := by
  refine Keeps.step h ?_ hm
  unfold State.bkHandoverEnd
  repeat' first
    | with_reducible exact Keeps.refl _ _
    | with_reducible apply State.modBk_keeps
    | with_reducible apply State.setBkBit_keeps
    | with_reducible apply Keeps.ite
    | decide

theorem State.resvExpire_keeps {m : Nat} {s t : State} (h : Keeps m s t) (x0 : ℕ) (hm : m ||| 8388608 = m) : Keeps m s (State.resvExpire t x0) := by
  refine Keeps.step h ?_ hm
  unfold State.resvExpire
  repeat' first
    | with_reducible exact Keeps.refl _ _
    | with_reducible apply State.modArb_keeps
    | with_reducible apply Keeps.ite
    | decide

end Sys2Proof.Machine
end

