-- ==== Sys2Proof/Laws/KeepRings.lean ====
section
/-! SUPPORT. What the operations of Machine/Rings.lean can do (the relation of Laws/Keep.lean). -/

namespace Sys2Proof.Machine

theorem State.mqBump_keeps {m : Nat} {s t : State} (h : Keeps m s t) (x0 : Sys2Proof.Machine.Reg) (x1 : ℕ) (x2 : optParam ℕ 1) (hm : m ||| 2 = m) : Keeps m s (State.mqBump t x0 x1 x2) := by
  refine Keeps.step h ?_ hm
  unfold State.mqBump
  repeat' first
    | with_reducible exact Keeps.refl _ _
    | with_reducible apply State.bump_keeps
    | with_reducible apply Keeps.ite
    | decide

theorem State.badRd_keeps {m : Nat} {s t : State} (h : Keeps m s t) (x0 : ℕ) (hm : m ||| 2 = m) : Keeps m s (State.badRd t x0) := by
  refine Keeps.step h ?_ hm
  unfold State.badRd
  repeat' first
    | with_reducible exact Keeps.refl _ _
    | with_reducible apply State.mqBump_keeps
    | with_reducible apply Keeps.ite
    | decide

theorem State.unitWrites_keeps {m : Nat} {s t : State} (h : Keeps m s t) (x0 : ℕ) (x1 : ℕ) (x2 : ℕ) (hm : m ||| 2 = m) : Keeps m s (State.unitWrites t x0 x1 x2) := by
  refine Keeps.step h ?_ hm
  unfold State.unitWrites
  repeat' first
    | with_reducible exact Keeps.refl _ _
    | with_reducible apply State.bump_keeps
    | with_reducible apply Keeps.ite
    | decide

theorem State.zeroAcc_keeps {m : Nat} {s t : State} (h : Keeps m s t) (x0 : ℕ) (x1 : ℕ) (hm : m ||| 524306 = m) : Keeps m s (State.zeroAcc t x0 x1) := by
  refine Keeps.step h ?_ hm
  unfold State.zeroAcc
  repeat' first
    | with_reducible exact Keeps.refl _ _
    | with_reducible apply State.modChan_keeps
    | with_reducible apply State.unitWrites_keeps
    | with_reducible apply State.wipe_keeps
    | with_reducible apply Keeps.ite
    | decide

theorem State.takeReleased_keeps {m : Nat} {s t : State} (h : Keeps m s t) (x0 : ℕ) (x1 : ℕ) (hm : m ||| 524306 = m) : Keeps m s (State.takeReleased t x0 x1) := by
  refine Keeps.step h ?_ hm
  unfold State.takeReleased
  repeat' first
    | with_reducible exact Keeps.refl _ _
    | with_reducible apply State.badRd_keeps
    | (with_reducible apply State.each_keeps <;> try (intros; beta_reduce))
    | with_reducible apply State.zeroAcc_keeps
    | with_reducible apply State.modChan_keeps
    | with_reducible apply Keeps.ite
    | decide

theorem State.noteFree_keeps {m : Nat} {s t : State} (h : Keeps m s t) (x0 : ℕ) (hm : m ||| 2 = m) : Keeps m s (State.noteFree t x0) := by
  refine Keeps.step h ?_ hm
  unfold State.noteFree
  repeat' first
    | with_reducible exact Keeps.refl _ _
    | with_reducible apply State.setFld_keeps
    | with_reducible apply Keeps.ite
    | decide

theorem State.freeSlot_keeps {m : Nat} {s t : State} (h : Keeps m s t) (x0 : ℕ) (x1 : ℕ) (hm : m ||| 1048578 = m) : Keeps m s (State.freeSlot t x0 x1) := by
  refine Keeps.step h ?_ hm
  unfold State.freeSlot
  repeat' first
    | with_reducible exact Keeps.refl _ _
    | with_reducible apply State.noteFree_keeps
    | with_reducible apply Keeps.ite
    | decide
    | split
    | dsimp only
    | (intro h; first | exact mwf_mput h _ _ | exact mwf_mmod h _ _ | exact mwf_filter h _ | exact mwf_mclear h _ _ | exact mwf_pokeMem h _ _ | rfl)
    | (with_reducible apply Keeps.comp_p)

theorem State.unitPoke_keeps {m : Nat} {s t : State} (h : Keeps m s t) (x0 : ℕ) (x1 : ℕ) (x2 : ℕ) (x3 : ℕ) (x4 : ℕ) (hm : m ||| 16 = m) : Keeps m s (State.unitPoke t x0 x1 x2 x3 x4) := by
  refine Keeps.step h ?_ hm
  unfold State.unitPoke
  repeat' first
    | with_reducible exact Keeps.refl _ _
    | with_reducible apply State.pokeLE_keeps
    | with_reducible apply Keeps.ite
    | decide

theorem State.noteLine_keeps {m : Nat} {s t : State} (h : Keeps m s t) (x0 : ℕ) (hm : m ||| 18 = m) : Keeps m s (State.noteLine t x0) := by
  refine Keeps.step h ?_ hm
  unfold State.noteLine
  repeat' first
    | with_reducible exact Keeps.refl _ _
    | with_reducible apply State.unitPoke_keeps
    | with_reducible apply State.setFld_keeps
    | with_reducible apply Keeps.ite
    | decide

theorem State.modTk_keeps {m : Nat} {s t : State} (h : Keeps m s t) (x0 : ℕ) (x1 : Sys2Proof.Machine.Chan → Sys2Proof.Machine.Chan) (hm : m ||| 524306 = m) : Keeps m s (State.modTk t x0 x1) := by
  refine Keeps.step h ?_ hm
  unfold State.modTk
  repeat' first
    | with_reducible exact Keeps.refl _ _
    | with_reducible apply State.noteLine_keeps
    | with_reducible apply State.modChan_keeps
    | with_reducible apply State.unitWrites_keeps
    | with_reducible apply Keeps.ite
    | decide

theorem State.dropComp_keeps {m : Nat} {s t : State} (h : Keeps m s t) (x0 : ℕ) (x1 : ℕ) (hm : m ||| 1572882 = m) : Keeps m s (State.dropComp t x0 x1) := by
  refine Keeps.step h ?_ hm
  unfold State.dropComp
  repeat' first
    | with_reducible exact Keeps.refl _ _
    | (with_reducible apply State.each_keeps <;> try (intros; beta_reduce))
    | with_reducible apply State.freeSlot_keeps
    | with_reducible apply State.modTk_keeps
    | with_reducible apply Keeps.ite
    | decide

theorem State.takeCdone_keeps {m : Nat} {s t : State} (h : Keeps m s t) (x0 : ℕ) (x1 : ℕ) (hm : m ||| 1572882 = m) : Keeps m s (State.takeCdone t x0 x1) := by
  refine Keeps.step h ?_ hm
  unfold State.takeCdone
  repeat' first
    | with_reducible exact Keeps.refl _ _
    | with_reducible apply State.badRd_keeps
    | with_reducible apply State.dropComp_keeps
    | with_reducible apply State.modChan_keeps
    | with_reducible apply Keeps.ite
    | decide

theorem State.takeRd_keeps {m : Nat} {s t : State} (h : Keeps m s t) (x0 : ℕ) (x1 : ℕ) (hm : m ||| 524290 = m) : Keeps m s (State.takeRd t x0 x1) := by
  refine Keeps.step h ?_ hm
  unfold State.takeRd
  repeat' first
    | with_reducible exact Keeps.refl _ _
    | with_reducible apply State.badRd_keeps
    | with_reducible apply State.modChan_keeps
    | with_reducible apply Keeps.ite
    | decide

theorem State.observe_keeps {m : Nat} {s t : State} (h : Keeps m s t) (x0 : ℕ) (hm : m ||| 1572882 = m) : Keeps m s (State.observe t x0) := by
  refine Keeps.step h ?_ hm
  unfold State.observe
  repeat' first
    | with_reducible exact Keeps.refl _ _
    | with_reducible apply State.takeReleased_keeps
    | with_reducible apply State.takeCdone_keeps
    | with_reducible apply State.takeRd_keeps
    | with_reducible apply Keeps.ite
    | decide
    | split

theorem State.dropReq_keeps {m : Nat} {s t : State} (h : Keeps m s t) (x0 : ℕ) (hm : m ||| 3670034 = m) : Keeps m s (State.dropReq t x0) := by
  refine Keeps.step h ?_ hm
  unfold State.dropReq
  repeat' first
    | with_reducible exact Keeps.refl _ _
    | (with_reducible apply State.each_keeps <;> try (intros; beta_reduce))
    | with_reducible apply State.freeSlot_keeps
    | with_reducible apply State.modTk_keeps
    | with_reducible apply Keeps.ite
    | decide
    | split
    | dsimp only
    | (intro h; first | exact mwf_mput h _ _ | exact mwf_mmod h _ _ | exact mwf_filter h _ | exact mwf_mclear h _ _ | exact mwf_pokeMem h _ _ | rfl)
    | (with_reducible apply Keeps.edges_p)

theorem State.tkReason_keeps {m : Nat} {s t : State} (h : Keeps m s t) (x0 : ℕ) (x1 : ℕ) (hm : m ||| 2 = m) : Keeps m s (State.tkReason t x0 x1) := by
  refine Keeps.step h ?_ hm
  unfold State.tkReason
  repeat' first
    | with_reducible exact Keeps.refl _ _
    | with_reducible apply State.setFld_keeps
    | with_reducible apply Keeps.ite
    | decide

theorem State.takeSlot_keeps {m : Nat} {s t u : State} {k i : Nat} (e : t.takeSlot k = some (i, u)) (h : Keeps m s t) (hm : m ||| 1048578 = m) :
    Keeps m s u := by
  refine h.step ?_ hm
  unfold State.takeSlot at e
  obtain ⟨a, -, e⟩ := Option.map_eq_some_iff.1 e
  obtain ⟨-, rfl⟩ := Prod.mk.inj e
  exact State.noteFree_keeps ((Keeps.refl _ _).comp_p _ (fun h => mwf_mput h _ _) (by decide)) _ (by decide)

theorem State.unitReads_keeps {m : Nat} {s t : State} (h : Keeps m s t) (x0 : ℕ) (x1 : ℕ) (x2 : ℕ) (hm : m ||| 2 = m) : Keeps m s (State.unitReads t x0 x1 x2) := by
  refine Keeps.step h ?_ hm
  unfold State.unitReads
  repeat' first
    | with_reducible exact Keeps.refl _ _
    | with_reducible apply State.bump_keeps
    | with_reducible apply Keeps.ite
    | decide

theorem State.ringPoke_keeps {m : Nat} {s t : State} (h : Keeps m s t) (x0 : ℕ) (x1 : ℕ) (x2 : List Sys2Proof.Byte) (hm : m ||| 2147483666 = m) : Keeps m s (State.ringPoke t x0 x1 x2) := by
  refine Keeps.step h ?_ hm
  unfold State.ringPoke
  repeat' first
    | with_reducible exact Keeps.refl _ _
    | with_reducible apply State.unitWrites_keeps
    | with_reducible apply State.poke_keeps
    | with_reducible apply Keeps.ite
    | decide
    | split
    | dsimp only
    | (intro h; first | exact mwf_mput h _ _ | exact mwf_mmod h _ _ | exact mwf_filter h _ | exact mwf_mclear h _ _ | exact mwf_pokeMem h _ _ | rfl)
    | (with_reducible apply Keeps.staging_p)

end Sys2Proof.Machine
end

