-- ==== Sys2Proof/Laws/KeepFlits.lean ====
section
/-! SUPPORT. What the operations of Machine/Flits.lean can do (the relation of Laws/Keep.lean). -/

namespace Sys2Proof.Machine

theorem State.traceKey_keeps {m : Nat} {s t : State} (h : Keeps m s t) (x0 : ℕ) (x1 : ℕ) (x2 : ℕ) (x3 : ℕ) (x4 : ℕ) (x5 : ℕ) (x6 : ℕ) (x7 : ℕ) (hm : m ||| 1572882 = m) : Keeps m s (State.traceKey t x0 x1 x2 x3 x4 x5 x6 x7) := by
  refine Keeps.step h ?_ hm
  unfold State.traceKey
  repeat' first
    | with_reducible exact Keeps.refl _ _
    | with_reducible apply State.bump_keeps
    | with_reducible apply State.observe_keeps
    | with_reducible apply State.pokeLE_keeps
    | with_reducible apply Keeps.ite
    | decide

theorem State.trace_keeps {m : Nat} {s t : State} (h : Keeps m s t) (x0 : ℕ) (x1 : Sys2Proof.Machine.Flit) (x2 : ℕ) (x3 : ℕ) (x4 : ℕ) (hm : m ||| 1572882 = m) : Keeps m s (State.trace t x0 x1 x2 x3 x4) := by
  refine Keeps.step h ?_ hm
  unfold State.trace
  repeat' first
    | with_reducible exact Keeps.refl _ _
    | with_reducible apply State.traceKey_keeps
    | with_reducible apply Keeps.ite
    | decide

end Sys2Proof.Machine
end

