-- ==== Sys2Proof/Laws/KeepSynapse.lean ====
section
/-! SUPPORT. What the operations of Machine/Synapse.lean can do (the relation of Laws/Keep.lean). -/

namespace Sys2Proof.Machine

theorem State.candCheck_keeps {m : Nat} {s t : State} (h : Keeps m s t) (x0 : List ℕ) (x1 : ℕ) (x2 : ℕ) (x3 : ℕ) (x4 : ℕ) (x5 : ℕ) (x6 : ℕ) (x7 : ℕ) (x8 : ℕ) (hm : m ||| 146 = m) : Keeps m s (State.candCheck t x0 x1 x2 x3 x4 x5 x6 x7 x8) := by
  refine Keeps.step h ?_ hm
  unfold State.candCheck
  repeat' first
    | with_reducible exact Keeps.refl _ _
    | (with_reducible apply State.each_keeps <;> try (intros; beta_reduce))
    | with_reducible apply State.bump_keeps
    | with_reducible apply State.learnEcc_keeps
    | with_reducible apply State.coreEcc_keeps
    | with_reducible apply State.cpoke_keeps
    | with_reducible apply Keeps.ite
    | decide

theorem State.integTraces_keeps {m : Nat} {s t : State} (h : Keeps m s t) (x0 : ℕ) (x1 : ℕ) (x2 : ℕ) (x3 : ℕ) (hm : m ||| 1573138 = m) : Keeps m s (State.integTraces t x0 x1 x2 x3) := by
  refine Keeps.step h ?_ hm
  unfold State.integTraces
  repeat' first
    | with_reducible exact Keeps.refl _ _
    | with_reducible apply State.modNc_keeps
    | (with_reducible apply State.each_keeps <;> try (intros; beta_reduce))
    | with_reducible apply State.traceKey_keeps
    | with_reducible apply Keeps.ite
    | decide

theorem State.coreEnqueue_keeps {m : Nat} {s t : State} (h : Keeps m s t) (x0 : ℕ) (x1 : ℕ) (x2 : Sys2Proof.Machine.Flit) (hm : m ||| 386 = m) : Keeps m s (State.coreEnqueue t x0 x1 x2) := by
  refine Keeps.step h ?_ hm
  unfold State.coreEnqueue
  repeat' first
    | with_reducible exact Keeps.refl _ _
    | with_reducible apply State.acceptWorld_keeps
    | with_reducible apply State.bump_keeps
    | with_reducible apply State.modNc_keeps
    | with_reducible apply Keeps.ite
    | decide
    | split

theorem State.tableEcc_keeps {m : Nat} {s t : State} (h : Keeps m s t) (x0 : ℕ) (x1 : ℕ) (x2 : ℕ) (x3 : ℕ) (hm : m ||| 130 = m) : Keeps m s (State.tableEcc t x0 x1 x2 x3) := by
  refine Keeps.step h ?_ hm
  unfold State.tableEcc
  repeat' first
    | with_reducible exact Keeps.refl _ _
    | with_reducible apply State.setFld_keeps
    | with_reducible apply State.setVal_keeps
    | (with_reducible apply State.each_keeps <;> try (intros; beta_reduce))
    | with_reducible apply State.haltAtHarvest_keeps
    | with_reducible apply Keeps.ite
    | decide

theorem State.lanes_keeps {α : Type} {m : Nat} {s t : State} (h : Keeps m s t) (l : Lane) (xs : List α) (f : State → Lane → α → State × Lane)
    (hf : ∀ u l a, Keeps m u (f u l a).1) : Keeps m s (t.lanes l xs f).1 :=
  h.trans (foldl_fst_keeps _ _ (fun x a => hf x.1 x.2 a) t l)

theorem State.laneAdd_keeps {m : Nat} {s t : State} (h : Keeps m s t) (x0 : List ℕ) (x1 : ℕ) (x2 : ℕ) (x3 : ℕ) (x4 : ℕ) (x5 : ℕ) (x6 : ℕ) (x7 : ℤ) (hm : m ||| 146 = m) : Keeps m s (State.laneAdd t x0 x1 x2 x3 x4 x5 x6 x7) := by
  refine Keeps.step h ?_ hm
  unfold State.laneAdd
  repeat' first
    | with_reducible exact Keeps.refl _ _
    | with_reducible apply State.bump_keeps
    | with_reducible apply State.coreEcc_keeps
    | with_reducible apply State.setTouched_keeps
    | with_reducible apply State.cpoke_keeps
    | with_reducible apply Keeps.ite
    | decide

theorem State.pair_keeps {m : Nat} {s t : State} (h : Keeps m s t) (x0 : List ℕ) (x1 : ℕ) (x2 : ℕ) (x3 : ℕ) (x4 : ℕ) (x5 : ℕ) (x6 : ℕ) (x7 : ℕ) (x8 : ℕ) (x9 : ℤ) (hm : m ||| 146 = m) : Keeps m s (State.pair t x0 x1 x2 x3 x4 x5 x6 x7 x8 x9) := by
  refine Keeps.step h ?_ hm
  unfold State.pair
  repeat' first
    | with_reducible exact Keeps.refl _ _
    | with_reducible apply State.coreEcc_keeps
    | with_reducible apply State.learnEcc_keeps
    | with_reducible apply State.cpoke_keeps
    | with_reducible apply State.bump_keeps
    | with_reducible apply Keeps.ite
    | decide

theorem State.fanEntry_keeps {m : Nat} {s t : State} (h : Keeps m s t) (x0 : List ℕ) (x1 : ℕ) (x2 : ℕ) (x3 : ℕ) (x4 : ℕ) (x5 : ℕ) (x6 : Sys2Proof.Machine.Flit) (x7 : ℕ) (x8 : Sys2Proof.Machine.AxHdr) (x9 : ℕ) (x10 : Bool) (x11 : Sys2Proof.Machine.Lane) (x12 : ℕ) (hm : m ||| 146 = m) : Keeps m s (State.fanEntry t x0 x1 x2 x3 x4 x5 x6 x7 x8 x9 x10 x11 x12).1 := by
  refine Keeps.step h ?_ hm
  unfold State.fanEntry
  repeat' first
    | with_reducible exact Keeps.refl _ _
    | with_reducible apply State.tableEcc_keeps
    | with_reducible apply State.bump_keeps
    | with_reducible apply State.learnEcc_keeps
    | with_reducible apply State.laneAdd_keeps
    | with_reducible apply State.pair_keeps
    | with_reducible apply Keeps.ite
    | decide
    | split
    | dsimp only

theorem State.kernTarget_keeps {m : Nat} {s t : State} (h : Keeps m s t) (x0 : List ℕ) (x1 : ℕ) (x2 : ℕ) (x3 : ℕ) (x4 : ℕ) (x5 : Sys2Proof.Machine.Flit) (x6 : ℕ) (x7 : Sys2Proof.Machine.Kern) (x8 : ℕ) (x9 : Sys2Proof.Machine.Lane) (x10 : ℕ × ℕ) (hm : m ||| 146 = m) : Keeps m s (State.kernTarget t x0 x1 x2 x3 x4 x5 x6 x7 x8 x9 x10).1 := by
  refine Keeps.step h ?_ hm
  unfold State.kernTarget
  repeat' first
    | with_reducible exact Keeps.refl _ _
    | with_reducible apply State.tableEcc_keeps
    | with_reducible apply State.bump_keeps
    | with_reducible apply State.laneAdd_keeps
    | with_reducible apply Keeps.ite
    | decide
    | split
    | dsimp only

theorem State.weigh_keeps {m : Nat} {s t : State} (h : Keeps m s t) (x0 : List ℕ) (x1 : ℕ) (x2 : ℕ) (x3 : ℕ) (x4 : ℕ) (x5 : ℕ) (x6 : ℕ) (x7 : Bool) (x8 : Sys2Proof.Machine.Flit) (hm : m ||| 146 = m) : Keeps m s (State.weigh t x0 x1 x2 x3 x4 x5 x6 x7 x8).1 := by
  refine Keeps.step h ?_ hm
  unfold State.weigh
  repeat' first
    | with_reducible exact Keeps.refl _ _
    | with_reducible apply State.tableEcc_keeps
    | (with_reducible apply State.lanes_keeps <;> try (intros; beta_reduce))
    | with_reducible apply State.fanEntry_keeps
    | with_reducible apply State.kernTarget_keeps
    | with_reducible apply Keeps.ite
    | decide
    | split
    | dsimp only

theorem State.deliver_keeps {m : Nat} {s t : State} (h : Keeps m s t) (x0 : List ℕ) (x1 : ℕ) (x2 : ℕ) (x3 : ℕ) (x4 : ℕ) (x5 : ℕ) (x6 : Sys2Proof.Machine.Flit) (hm : m ||| 146 = m) : Keeps m s (State.deliver t x0 x1 x2 x3 x4 x5 x6).1 := by
  refine Keeps.step h ?_ hm
  unfold State.deliver
  repeat' first
    | with_reducible exact Keeps.refl _ _
    | with_reducible apply State.weigh_keeps
    | with_reducible apply State.candCheck_keeps
    | with_reducible apply Keeps.ite
    | decide
    | split
    | dsimp only

theorem State.fanoutWalk_keeps {m : Nat} {s t : State} (h : Keeps m s t) (x0 : List ℕ) (x1 : ℕ) (x2 : ℕ) (hm : m ||| 386 = m) : Keeps m s (State.fanoutWalk t x0 x1 x2) := by
  refine Keeps.step h ?_ hm
  unfold State.fanoutWalk
  repeat' first
    | with_reducible exact Keeps.refl _ _
    | with_reducible apply State.modNc_keeps
    | with_reducible apply State.bump_keeps
    | with_reducible apply State.tableEcc_keeps
    | with_reducible apply Keeps.ite
    | decide
    | split
    | dsimp only

theorem State.traceDelivery_keeps {m : Nat} {s t : State} (h : Keeps m s t) (x0 : ℕ) (x1 : ℕ) (x2 : ℕ) (x3 : Sys2Proof.Machine.Flit) (x4 : Sys2Proof.Machine.Lane) (hm : m ||| 1573138 = m) : Keeps m s (State.traceDelivery t x0 x1 x2 x3 x4) := by
  refine Keeps.step h ?_ hm
  unfold State.traceDelivery
  repeat' first
    | with_reducible exact Keeps.refl _ _
    | with_reducible apply State.traceKey_keeps
    | with_reducible apply State.bump_keeps
    | with_reducible apply State.modNc_keeps
    | with_reducible apply Keeps.ite
    | decide
    | split

theorem State.laneDelivery_keeps {m : Nat} {s t : State} (h : Keeps m s t) (x0 : List ℕ) (x1 : ℕ) (x2 : ℕ) (x3 : ℕ) (x4 : ℕ) (x5 : ℕ) (hm : m ||| 1573266 = m) : Keeps m s (State.laneDelivery t x0 x1 x2 x3 x4 x5) := by
  refine Keeps.step h ?_ hm
  unfold State.laneDelivery
  repeat' first
    | with_reducible exact Keeps.refl _ _
    | with_reducible apply State.modNc_keeps
    | with_reducible apply State.bump_keeps
    | with_reducible apply State.deliver_keeps
    | with_reducible apply State.traceDelivery_keeps
    | with_reducible apply Keeps.ite
    | decide
    | split

theorem State.modFlit_keeps {m : Nat} {s t : State} (h : Keeps m s t) (x0 : ℕ) (x1 : ℕ) (x2 : Sys2Proof.Machine.Flit) (hm : m ||| 146 = m) : Keeps m s (State.modFlit t x0 x1 x2) := by
  refine Keeps.step h ?_ hm
  unfold State.modFlit
  repeat' first
    | with_reducible exact Keeps.refl _ _
    | with_reducible apply State.bump_keeps
    | with_reducible apply State.acceptWorld_keeps
    | with_reducible apply State.promoteMod_keeps
    | with_reducible apply State.cpoke_keeps
    | with_reducible apply Keeps.ite
    | decide
    | split
    | dsimp only

end Sys2Proof.Machine
end

