-- ==== Sys2Proof/Laws/KeepEvents.lean ====
section
/-! SUPPORT. What the operations of Machine/Events.lean can do (the relation of Laws/Keep.lean). -/

namespace Sys2Proof.Machine

theorem State.syNetWrite_keeps {m : Nat} {s t : State} (h : Keeps m s t) (x0 : ℕ) (x1 : ℕ) (x2 : ℕ) (x3 : ℕ) (hm : m ||| 2 = m) : Keeps m s (State.syNetWrite t x0 x1 x2 x3) := by
  refine Keeps.step h ?_ hm
  unfold State.syNetWrite
  repeat' first
    | with_reducible exact Keeps.refl _ _
    | with_reducible apply State.setVal_keeps
    | with_reducible apply Keeps.ite
    | decide

theorem State.sinkAdd_keeps {m : Nat} {s t : State} (h : Keeps m s t) (x0 : List ℕ) (x1 : ℕ) (x2 : ℕ) (x3 : Sys2Proof.Machine.Flit) (x4 : ℕ) (hm : m ||| 1573010 = m) : Keeps m s (State.sinkAdd t x0 x1 x2 x3 x4) := by
  refine Keeps.step h ?_ hm
  unfold State.sinkAdd
  repeat' first
    | with_reducible exact Keeps.refl _ _
    | with_reducible apply State.bump_keeps
    | (with_reducible apply State.each_keeps <;> try (intros; beta_reduce))
    | with_reducible apply State.bankLineBad_keeps
    | with_reducible apply State.haltAtHarvest_keeps
    | with_reducible apply State.observe_keeps
    | with_reducible apply State.pokeLE_keeps
    | with_reducible apply State.trace_keeps
    | with_reducible apply Keeps.ite
    | decide

theorem State.sinkGranted_keeps {m : Nat} {s t : State} (h : Keeps m s t) (x0 : List ℕ) (x1 : ℕ) (x2 : ℕ) (x3 : ℕ) (hm : m ||| 9962130 = m) : Keeps m s (State.sinkGranted t x0 x1 x2 x3) := by
  refine Keeps.step h ?_ hm
  unfold State.sinkGranted
  repeat' first
    | with_reducible exact Keeps.refl _ _
    | with_reducible apply State.arbLeave_keeps
    | with_reducible apply State.arbFree_keeps
    | with_reducible apply State.arbGrantHeld_keeps
    | with_reducible apply State.sinkAdd_keeps
    | with_reducible apply State.modEng_keeps
    | with_reducible apply Keeps.ite
    | decide
    | split
    | dsimp only

theorem State.openEngine_keeps {m : Nat} {s t : State} (h : Keeps m s t) (x0 : ℕ) (x1 : ℕ) (x2 : ℕ) (hm : m ||| 512 = m) : Keeps m s (State.openEngine t x0 x1 x2) := by
  refine Keeps.step h ?_ hm
  unfold State.openEngine
  repeat' first
    | with_reducible exact Keeps.refl _ _
    | with_reducible apply State.modEng_keeps
    | with_reducible apply Keeps.ite
    | decide

theorem State.emitRecord_keeps {m : Nat} {s t : State} (h : Keeps m s t) (x0 : List ℕ) (x1 : ℕ) (x2 : ℕ) (hm : m ||| 514 = m) : Keeps m s (State.emitRecord t x0 x1 x2) := by
  refine Keeps.step h ?_ hm
  unfold State.emitRecord
  repeat' first
    | with_reducible exact Keeps.refl _ _
    | with_reducible apply State.modEng_keeps
    | with_reducible apply State.bump_keeps
    | with_reducible apply State.bankLineBad_keeps
    | with_reducible apply Keeps.ite
    | decide
    | split
    | dsimp only

theorem State.ibqTake_keeps {m : Nat} {s t : State} (h : Keeps m s t) (x0 : ℕ) (x1 : ℕ) (x2 : Sys2Proof.Machine.Flit) (hm : m ||| 1573522 = m) : Keeps m s (State.ibqTake t x0 x1 x2) := by
  refine Keeps.step h ?_ hm
  unfold State.ibqTake
  repeat' first
    | with_reducible exact Keeps.refl _ _
    | with_reducible apply State.modEng_keeps
    | with_reducible apply State.acceptWorld_keeps
    | with_reducible apply State.bump_keeps
    | with_reducible apply State.setVal_keeps
    | with_reducible apply State.trace_keeps
    | with_reducible apply Keeps.ite
    | decide

theorem State.sinkAsk_keeps {m : Nat} {s t : State} (h : Keeps m s t) (x0 : Sys2Proof.SinkMeet) (x1 : ℕ) (x2 : ℕ) (x3 : Sys2Proof.Machine.Flit) (x4 : ℕ) (hm : m ||| 9962130 = m) : Keeps m s (State.sinkAsk t x0 x1 x2 x3 x4).2 := by
  refine Keeps.step h ?_ hm
  unfold State.sinkAsk
  repeat' first
    | with_reducible exact Keeps.refl _ _
    | with_reducible apply State.arbAsk_keeps
    | with_reducible apply State.sinkAdd_keeps
    | with_reducible apply State.modEng_keeps
    | with_reducible apply State.arbFree_keeps
    | with_reducible apply Keeps.ite
    | decide
    | split
    | dsimp only

theorem State.sinkTake_keeps {m : Nat} {s t : State} (h : Keeps m s t) (x0 : Sys2Proof.SinkMeet) (x1 : ℕ) (x2 : ℕ) (x3 : Sys2Proof.Machine.Flit) (hm : m ||| 9962130 = m) : Keeps m s (State.sinkTake t x0 x1 x2 x3) := by
  refine Keeps.step h ?_ hm
  unfold State.sinkTake
  repeat' first
    | with_reducible exact Keeps.refl _ _
    | with_reducible apply State.acceptWorld_keeps
    | with_reducible apply State.modEng_keeps
    | with_reducible apply State.sinkAsk_keeps
    | with_reducible apply State.bump_keeps
    | with_reducible apply Keeps.ite
    | decide
    | split
    | dsimp only

theorem State.sinkHeld_keeps {m : Nat} {s t : State} (h : Keeps m s t) (x0 : Sys2Proof.SinkMeet) (x1 : ℕ) (x2 : ℕ) (hm : m ||| 9962130 = m) : Keeps m s (State.sinkHeld t x0 x1 x2) := by
  refine Keeps.step h ?_ hm
  unfold State.sinkHeld
  repeat' first
    | with_reducible exact Keeps.refl _ _
    | with_reducible apply State.modEng_keeps
    | with_reducible apply State.sinkAsk_keeps
    | with_reducible apply State.bump_keeps
    | with_reducible apply Keeps.ite
    | decide
    | split

end Sys2Proof.Machine
end

