-- ==== Sys2Proof/Laws/KeepLearning.lean ====
section
/-! SUPPORT. What the operations of Machine/Learning.lean can do (the relation of Laws/Keep.lean). -/

namespace Sys2Proof.Machine

theorem State.barrierOpen_keeps {m : Nat} {s t : State} (h : Keeps m s t) (x0 : ℕ) (hm : m ||| 130 = m) : Keeps m s (State.barrierOpen t x0) := by
  refine Keeps.step h ?_ hm
  unfold State.barrierOpen
  repeat' first
    | with_reducible exact Keeps.refl _ _
    | with_reducible apply State.modWg_keeps
    | with_reducible apply State.setWgState_keeps
    | with_reducible apply Keeps.ite
    | decide

theorem State.releaseBarrier_keeps {m : Nat} {s t : State} (h : Keeps m s t) (x0 : ℕ) (hm : m ||| 130 = m) : Keeps m s (State.releaseBarrier t x0) := by
  refine Keeps.step h ?_ hm
  unfold State.releaseBarrier
  repeat' first
    | with_reducible exact Keeps.refl _ _
    | (with_reducible apply State.each_keeps <;> try (intros; beta_reduce))
    | with_reducible apply State.barrierOpen_keeps
    | with_reducible apply Keeps.ite
    | decide

theorem State.setStage_keeps {m : Nat} {s t : State} (h : Keeps m s t) (x0 : ℕ) (x1 : ℕ) (hm : m ||| 2 = m) : Keeps m s (State.setStage t x0 x1) := by
  refine Keeps.step h ?_ hm
  unfold State.setStage
  repeat' first
    | with_reducible exact Keeps.refl _ _
    | with_reducible apply State.setFld_keeps
    | with_reducible apply Keeps.ite
    | decide

theorem State.lsStop_keeps {m : Nat} {s t : State} (h : Keeps m s t) (x0 : ℕ) (hm : m ||| 4226 = m) : Keeps m s (State.lsStop t x0) := by
  refine Keeps.step h ?_ hm
  unfold State.lsStop
  repeat' first
    | with_reducible exact Keeps.refl _ _
    | with_reducible apply State.releaseBarrier_keeps
    | (with_reducible apply State.each_keeps <;> try (intros; beta_reduce))
    | with_reducible apply State.setFld_keeps
    | with_reducible apply State.setStage_keeps
    | with_reducible apply State.modLs_keeps
    | with_reducible apply Keeps.ite
    | decide

theorem State.barrierLeave_keeps {m : Nat} {s t : State} (h : Keeps m s t) (x0 : ℕ) (hm : m ||| 130 = m) : Keeps m s (State.barrierLeave t x0) := by
  refine Keeps.step h ?_ hm
  unfold State.barrierLeave
  repeat' first
    | with_reducible exact Keeps.refl _ _
    | with_reducible apply State.modWg_keeps
    | with_reducible apply State.barrierOpen_keeps
    | with_reducible apply Keeps.ite
    | decide

theorem State.stageNext_keeps {m : Nat} {s t : State} (h : Keeps m s t) (x0 : ℕ) (hm : m ||| 4098 = m) : Keeps m s (State.stageNext t x0) := by
  refine Keeps.step h ?_ hm
  unfold State.stageNext
  repeat' first
    | with_reducible exact Keeps.refl _ _
    | with_reducible apply State.setStage_keeps
    | with_reducible apply State.modLs_keeps
    | with_reducible apply Keeps.ite
    | decide

theorem State.stagesPass_keeps {m : Nat} {s t : State} (h : Keeps m s t) (x0 : ℕ) (hm : m ||| 4098 = m) : Keeps m s (State.stagesPass t x0) := by
  refine Keeps.step h ?_ hm
  unfold State.stagesPass
  repeat' first
    | with_reducible exact Keeps.refl _ _
    | with_reducible apply State.stageNext_keeps
    | with_reducible apply Keeps.ite
    | decide

theorem State.countFenced_keeps {m : Nat} {s t : State} (h : Keeps m s t) (x0 : ℕ) (hm : m ||| 2 = m) : Keeps m s (State.countFenced t x0) := by
  refine Keeps.step h ?_ hm
  unfold State.countFenced
  repeat' first
    | with_reducible exact Keeps.refl _ _
    | with_reducible apply State.setFld_keeps
    | with_reducible apply Keeps.ite
    | decide

theorem State.fenceCore_keeps {m : Nat} {s t : State} (h : Keeps m s t) (x0 : ℕ) (x1 : ℕ) (hm : m ||| 4098 = m) : Keeps m s (State.fenceCore t x0 x1) := by
  refine Keeps.step h ?_ hm
  unfold State.fenceCore
  repeat' first
    | with_reducible exact Keeps.refl _ _
    | with_reducible apply State.stagesPass_keeps
    | with_reducible apply State.countFenced_keeps
    | with_reducible apply Keeps.ite
    | decide
    | split

theorem State.flipCore_keeps {m : Nat} {s t : State} (h : Keeps m s t) (x0 : List ℕ) (x1 : ℕ) (x2 : ℕ) (x3 : ℕ) (hm : m ||| 146 = m) : Keeps m s (State.flipCore t x0 x1 x2 x3) := by
  refine Keeps.step h ?_ hm
  unfold State.flipCore
  repeat' first
    | with_reducible exact Keeps.refl _ _
    | (with_reducible apply State.each_keeps <;> try (intros; beta_reduce))
    | with_reducible apply State.learnEcc_keeps
    | with_reducible apply State.cpoke_keeps
    | with_reducible apply Keeps.ite
    | decide

theorem State.lsResetCore_keeps {m : Nat} {s t : State} (h : Keeps m s t) (x0 : ℕ × ℕ → Bool) (x1 : ℕ) (hm : m ||| 4294971538 = m) : Keeps m s (State.lsResetCore t x0 x1) := by
  refine Keeps.step h ?_ hm
  unfold State.lsResetCore
  repeat' first
    | with_reducible exact Keeps.refl _ _
    | with_reducible apply State.bump_keeps
    | (with_reducible apply State.each_keeps <;> try (intros; beta_reduce))
    | with_reducible apply State.flipCore_keeps
    | with_reducible apply State.lsStop_keeps
    | with_reducible apply State.setFld_keeps
    | with_reducible apply State.haltAtHarvest_keeps
    | with_reducible apply State.haltNow_keeps
    | with_reducible apply Keeps.ite
    | decide

theorem State.setStartCore_keeps {m : Nat} {s t : State} (h : Keeps m s t) (x0 : ℕ) (x1 : ℕ) (hm : m ||| 16 = m) : Keeps m s (State.setStartCore t x0 x1) := by
  refine Keeps.step h ?_ hm
  unfold State.setStartCore
  repeat' first
    | with_reducible exact Keeps.refl _ _
    | with_reducible apply State.wipe_keeps
    | (with_reducible apply State.each_keeps <;> try (intros; beta_reduce))
    | with_reducible apply State.cpoke_keeps
    | with_reducible apply Keeps.ite
    | decide

theorem State.lsStart_keeps {m : Nat} {s t : State} (h : Keeps m s t) (x0 : ℕ) (x1 : ℕ) (hm : m ||| 4242 = m) : Keeps m s (State.lsStart t x0 x1) := by
  refine Keeps.step h ?_ hm
  unfold State.lsStart
  repeat' first
    | with_reducible exact Keeps.refl _ _
    | with_reducible apply State.modLs_keeps
    | (with_reducible apply State.each_keeps <;> try (intros; beta_reduce))
    | with_reducible apply State.setFld_keeps
    | with_reducible apply State.setVal_keeps
    | with_reducible apply State.modWg_keeps
    | with_reducible apply State.setStartCore_keeps
    | with_reducible apply State.poke_keeps
    | with_reducible apply Keeps.ite
    | decide

theorem State.cnFlip_keeps {m : Nat} {s t : State} (h : Keeps m s t) (x0 : List ℕ) (x1 : ℕ) (x2 : ℕ) (hm : m ||| 4242 = m) : Keeps m s (State.cnFlip t x0 x1 x2) := by
  refine Keeps.step h ?_ hm
  unfold State.cnFlip
  repeat' first
    | with_reducible exact Keeps.refl _ _
    | with_reducible apply State.modLs_keeps
    | with_reducible apply State.flipCore_keeps
    | with_reducible apply Keeps.ite
    | decide
    | split

theorem State.stageReport_keeps {m : Nat} {s t : State} (h : Keeps m s t) (x0 : ℕ) (x1 : ℕ) (hm : m ||| 4098 = m) : Keeps m s (State.stageReport t x0 x1) := by
  refine Keeps.step h ?_ hm
  unfold State.stageReport
  repeat' first
    | with_reducible exact Keeps.refl _ _
    | with_reducible apply State.stageNext_keeps
    | with_reducible apply State.modLs_keeps
    | with_reducible apply Keeps.ite
    | decide

theorem State.epochEnd_keeps {m : Nat} {s t : State} (h : Keeps m s t) (x0 : ℕ) (hm : m ||| 4098 = m) : Keeps m s (State.epochEnd t x0) := by
  refine Keeps.step h ?_ hm
  unfold State.epochEnd
  repeat' first
    | with_reducible exact Keeps.refl _ _
    | with_reducible apply State.stagesPass_keeps
    | with_reducible apply State.setStage_keeps
    | with_reducible apply State.modLs_keeps
    | with_reducible apply State.countFenced_keeps
    | with_reducible apply Keeps.ite
    | decide

theorem State.setPcnt_keeps {m : Nat} {s t : State} (h : Keeps m s t) (x0 : ℕ) (x1 : ℕ) (x2 : ℕ) (x3 : ℕ) (hm : m ||| 16 = m) : Keeps m s (State.setPcnt t x0 x1 x2 x3) := by
  refine Keeps.step h ?_ hm
  unfold State.setPcnt
  repeat' first
    | with_reducible exact Keeps.refl _ _
    | with_reducible apply State.cpoke_keeps
    | with_reducible apply Keeps.ite
    | decide

theorem State.graft_keeps {m : Nat} {s t : State} (h : Keeps m s t) (x0 : ℕ) (x1 : ℕ) (x2 : ℕ) (x3 : ℕ) (hm : m ||| 18 = m) : Keeps m s (State.graft t x0 x1 x2 x3).1 := by
  refine Keeps.step h ?_ hm
  unfold State.graft
  repeat' first
    | with_reducible exact Keeps.refl _ _
    | with_reducible apply State.bump_keeps
    | with_reducible apply State.cpoke_keeps
    | with_reducible apply State.setPcnt_keeps
    | (with_reducible apply State.each_keeps <;> try (intros; beta_reduce))
    | with_reducible apply Keeps.ite
    | decide
    | split
    | dsimp only

theorem State.graftAll_keeps {m : Nat} {s t : State} (h : Keeps m s t) (x0 : ℕ) (x1 : ℕ) (x2 : ℕ) (x3 : ℕ) (x4 : List ℕ) (hm : m ||| 18 = m) : Keeps m s (State.graftAll t x0 x1 x2 x3 x4) := by
  refine Keeps.step h ?_ hm
  clear h hm
  induction x4 generalizing t x3 with
  | nil => unfold State.graftAll; exact Keeps.refl _ _
  | cons i l ih =>
    unfold State.graftAll
    split
    · exact Keeps.refl _ _
    · exact Keeps.refl _ _
    · rename_i he
      obtain ⟨rfl, rfl⟩ := List.cons.inj he
      have hg : ∀ n', Keeps 18 t (t.graft x0 x1 x2 n').1 := fun n' => State.graft_keeps (Keeps.refl _ _) _ _ _ _ (by decide)
      dsimp only
      split
      · exact (hg _).trans (ih _)
      · exact (hg _).trans (ih _)

theorem State.pruneSyn_keeps {m : Nat} {s t : State} (h : Keeps m s t) (x0 : ℕ) (x1 : ℕ) (x2 : ℕ) (hm : m ||| 18 = m) : Keeps m s (State.pruneSyn t x0 x1 x2) := by
  refine Keeps.step h ?_ hm
  unfold State.pruneSyn
  repeat' first
    | with_reducible exact Keeps.refl _ _
    | with_reducible apply State.cpoke_keeps
    | with_reducible apply State.bump_keeps
    | with_reducible apply State.setPcnt_keeps
    | with_reducible apply Keeps.ite
    | decide

theorem State.updateSyn_keeps {m : Nat} {s t : State} (h : Keeps m s t) (x0 : List ℕ) (x1 : ℕ) (x2 : ℕ) (x3 : ℕ) (x4 : Sys2Proof.Machine.Fmt) (x5 : ℕ) (hm : m ||| 4242 = m) : Keeps m s (State.updateSyn t x0 x1 x2 x3 x4 x5) := by
  refine Keeps.step h ?_ hm
  unfold State.updateSyn
  repeat' first
    | with_reducible exact Keeps.refl _ _
    | with_reducible apply State.cpoke_keeps
    | with_reducible apply State.learnEcc_keeps
    | with_reducible apply State.setPcnt_keeps
    | with_reducible apply State.modLs_keeps
    | with_reducible apply Keeps.ite
    | decide

theorem State.updateCore_keeps {m : Nat} {s t : State} (h : Keeps m s t) (x0 : List ℕ) (x1 : ℕ) (x2 : ℕ) (x3 : ℕ) (hm : m ||| 4242 = m) : Keeps m s (State.updateCore t x0 x1 x2 x3) := by
  refine Keeps.step h ?_ hm
  unfold State.updateCore
  repeat' first
    | with_reducible exact Keeps.refl _ _
    | (with_reducible apply State.each_keeps <;> try (intros; beta_reduce))
    | with_reducible apply State.updateSyn_keeps
    | with_reducible apply Keeps.ite
    | decide

theorem State.structCore_keeps {m : Nat} {s t : State} (h : Keeps m s t) (x0 : List ℕ) (x1 : ℕ) (x2 : ℕ) (x3 : ℕ) (hm : m ||| 146 = m) : Keeps m s (State.structCore t x0 x1 x2 x3) := by
  refine Keeps.step h ?_ hm
  unfold State.structCore
  repeat' first
    | with_reducible exact Keeps.refl _ _
    | (with_reducible apply State.each_keeps <;> try (intros; beta_reduce))
    | with_reducible apply State.pruneSyn_keeps
    | with_reducible apply State.learnEcc_keeps
    | with_reducible apply State.graftAll_keeps
    | with_reducible apply State.cpoke_keeps
    | with_reducible apply Keeps.ite
    | decide
    | split
    | dsimp only

theorem State.stdService_keeps {m : Nat} {s t : State} (h : Keeps m s t) (x0 : List ℕ) (x1 : ℕ) (x2 : ℕ) (x3 : ℕ) (hm : m ||| 4242 = m) : Keeps m s (State.stdService t x0 x1 x2 x3) := by
  refine Keeps.step h ?_ hm
  unfold State.stdService
  repeat' first
    | with_reducible exact Keeps.refl _ _
    | (with_reducible apply State.each_keeps <;> try (intros; beta_reduce))
    | with_reducible apply State.updateCore_keeps
    | with_reducible apply State.structCore_keeps
    | with_reducible apply State.stageReport_keeps
    | with_reducible apply Keeps.ite
    | decide

end Sys2Proof.Machine
end

