-- ==== Sys2Proof/Laws/KeepMesh.lean ====
section
/-! SUPPORT. What the operations of Machine/Mesh.lean can do (the relation of Laws/Keep.lean). -/

namespace Sys2Proof.Machine

theorem State.absorb_keeps {m : Nat} {s t : State} (h : Keeps m s t) (x0 : ℕ) (x1 : Sys2Proof.Machine.Flit) (x2 : ℕ) (x3 : Sys2Proof.Machine.Reg) (hm : m ||| 130 = m) : Keeps m s (State.absorb t x0 x1 x2 x3) := by
  refine Keeps.step h ?_ hm
  unfold State.absorb
  repeat' first
    | with_reducible exact Keeps.refl _ _
    | with_reducible apply State.setVal_keeps
    | with_reducible apply State.bump_keeps
    | with_reducible apply State.absorbWorld_keeps
    | with_reducible apply Keeps.ite
    | decide

theorem State.absorbFenced_keeps {m : Nat} {s t : State} (h : Keeps m s t) (x0 : ℕ) (x1 : Sys2Proof.Machine.Flit) (hm : m ||| 1573010 = m) : Keeps m s (State.absorbFenced t x0 x1) := by
  refine Keeps.step h ?_ hm
  unfold State.absorbFenced
  repeat' first
    | with_reducible exact Keeps.refl _ _
    | with_reducible apply State.absorb_keeps
    | with_reducible apply State.trace_keeps
    | with_reducible apply State.setVal_keeps
    | with_reducible apply Keeps.ite
    | decide
    | split

theorem State.fenceEngine_keeps {m : Nat} {s t : State} (h : Keeps m s t) (x0 : ℕ) (x1 : ℕ) (hm : m ||| 38658 = m) : Keeps m s (State.fenceEngine t x0 x1) := by
  refine Keeps.step h ?_ hm
  unfold State.fenceEngine
  repeat' first
    | with_reducible exact Keeps.refl _ _
    | with_reducible apply State.setVal_keeps
    | with_reducible apply State.modRt_keeps
    | with_reducible apply State.fenceCore_keeps
    | with_reducible apply State.modNc_keeps
    | with_reducible apply State.modMx_keeps
    | with_reducible apply State.modEng_keeps
    | with_reducible apply Keeps.ite
    | decide

theorem State.freset_keeps {m : Nat} {s t : State} (h : Keeps m s t) (x0 : ℕ) (hm : m ||| 33587200 = m) : Keeps m s (State.freset t x0) := by
  refine Keeps.step h ?_ hm
  unfold State.freset
  repeat' first
    | with_reducible exact Keeps.refl _ _
    | with_reducible apply State.modRt_keeps
    | (with_reducible apply State.each_keeps <;> try (intros; beta_reduce))
    | with_reducible apply State.modSch_keeps
    | with_reducible apply Keeps.ite
    | decide

theorem State.fenceCluster_keeps {m : Nat} {s t : State} (h : Keeps m s t) (x0 : ℕ) (hm : m ||| 38658 = m) : Keeps m s (State.fenceCluster t x0) := by
  refine Keeps.step h ?_ hm
  unfold State.fenceCluster
  repeat' first
    | with_reducible exact Keeps.refl _ _
    | (with_reducible apply State.each_keeps <;> try (intros; beta_reduce))
    | with_reducible apply State.fenceEngine_keeps
    | with_reducible apply Keeps.ite
    | decide

theorem State.permanentHole_keeps {m : Nat} {s t : State} (h : Keeps m s t) (x0 : ℕ) (hm : m ||| 33593218 = m) : Keeps m s (State.permanentHole t x0) := by
  refine Keeps.step h ?_ hm
  unfold State.permanentHole
  repeat' first
    | with_reducible exact Keeps.refl _ _
    | with_reducible apply State.fenceCluster_keeps
    | with_reducible apply State.setFld_keeps
    | with_reducible apply State.modRt_keeps
    | (with_reducible apply State.each_keeps <;> try (intros; beta_reduce))
    | with_reducible apply State.haltAtHarvest_keeps
    | with_reducible apply State.modSch_keeps
    | with_reducible apply Keeps.ite
    | decide

theorem State.takeDlv_keeps {m : Nat} {s t u : State} {c : Nat} {w : Flit → Bool} {f : MFlit} (e : t.takeDlv c w = some (f, u))
    (h : Keeps m s t) (hm : m ||| 32768 = m) : Keeps m s u := by
  refine h.step ?_ hm
  unfold State.takeDlv at e
  split at e
  · cases e
  · obtain ⟨-, rfl⟩ := Prod.mk.inj (Option.some.inj e)
    exact State.modRt_keeps (Keeps.refl _ _) _ _ (by decide)

theorem State.rewrite_keeps {m : Nat} {s t : State} (h : Keeps m s t) (x0 : ℕ) (x1 : Sys2Proof.Machine.MFlit) (x2 : ℕ) (hm : m ||| 1572882 = m) : Keeps m s (State.rewrite t x0 x1 x2).2 := by
  refine Keeps.step h ?_ hm
  unfold State.rewrite
  repeat' first
    | with_reducible exact Keeps.refl _ _
    | with_reducible apply State.bump_keeps
    | with_reducible apply State.trace_keeps
    | with_reducible apply Keeps.ite
    | decide

theorem State.noteSpill_keeps {m : Nat} {s t : State} (h : Keeps m s t) (x0 : ℕ) (hm : m ||| 2 = m) : Keeps m s (State.noteSpill t x0) := by
  refine Keeps.step h ?_ hm
  unfold State.noteSpill
  repeat' first
    | with_reducible exact Keeps.refl _ _
    | with_reducible apply State.setFld_keeps
    | with_reducible apply Keeps.ite
    | decide

theorem State.spillPut_keeps {m : Nat} {s t : State} (h : Keeps m s t) (x0 : ℕ) (x1 : Sys2Proof.Machine.MFlit) (hm : m ||| 32770 = m) : Keeps m s (State.spillPut t x0 x1) := by
  refine Keeps.step h ?_ hm
  unfold State.spillPut
  repeat' first
    | with_reducible exact Keeps.refl _ _
    | with_reducible apply State.noteSpill_keeps
    | with_reducible apply State.bump_keeps
    | with_reducible apply State.modRt_keeps
    | with_reducible apply Keeps.ite
    | decide

theorem State.dropOut_keeps {m : Nat} {s t : State} (h : Keeps m s t) (x0 : ℕ) (x1 : ℕ) (hm : m ||| 4294968064 = m) : Keeps m s (State.dropOut t x0 x1) := by
  refine Keeps.step h ?_ hm
  unfold State.dropOut
  repeat' first
    | with_reducible exact Keeps.refl _ _
    | with_reducible apply State.modGp_keeps
    | with_reducible apply State.modNc_keeps
    | with_reducible apply State.modEng_keeps
    | with_reducible apply Keeps.ite
    | decide
    | split

theorem State.eject_keeps {m : Nat} {s t u : State} {c : Nat} {f : MFlit} (e : t.eject c f = some u)
    (h : Keeps m s t) (hm : m ||| 1605778 = m) : Keeps m s u := by
  refine h.step ?_ hm
  unfold State.eject at e
  dsimp only at e
  repeat' first
    | (with_reducible exact absurd e.symm (Option.some_ne_none _))
    | (with_reducible have e := Option.some.inj e; subst e)
    | split at e
  all_goals repeat' first
    | with_reducible exact Keeps.refl _ _
    | with_reducible apply State.bump_keeps
    | with_reducible apply State.setFld_keeps
    | with_reducible apply State.trace_keeps
    | with_reducible apply State.modRt_keeps
    | with_reducible apply State.spillPut_keeps
    | with_reducible apply State.rewrite_keeps
    | (with_reducible apply State.each_keeps <;> try (intros; beta_reduce))
    | with_reducible apply State.absorb_keeps
    | with_reducible apply State.haltAtHarvest_keeps
    | with_reducible apply State.absorbFenced_keeps
    | with_reducible apply Keeps.ite
    | decide


theorem State.goldenEnd_keeps {m : Nat} {s t : State} (h : Keeps m s t) (x0 : ℕ) (hm : m ||| 67108866 = m) : Keeps m s (State.goldenEnd t x0) := by
  refine Keeps.step h ?_ hm
  unfold State.goldenEnd
  repeat' first
    | with_reducible exact Keeps.refl _ _
    | (with_reducible apply State.each_keeps <;> try (intros; beta_reduce))
    | with_reducible apply State.modHf_keeps
    | with_reducible apply State.setFld_keeps
    | with_reducible apply Keeps.ite
    | decide
    | split

theorem State.fillInj_keeps {m : Nat} {s t : State} (h : Keeps m s t) (x0 : ℕ) (hm : m ||| 4295000832 = m) : Keeps m s (State.fillInj t x0) := by
  refine Keeps.step h ?_ hm
  unfold State.fillInj
  repeat' first
    | with_reducible exact Keeps.refl _ _
    | (with_reducible apply State.each_keeps <;> try (intros; beta_reduce))
    | with_reducible apply State.modRt_keeps
    | with_reducible apply State.dropOut_keeps
    | with_reducible apply Keeps.ite
    | decide
    | split

theorem State.noteBusy_keeps {m : Nat} {s t : State} (h : Keeps m s t) (x0 : ℕ) (x1 : List ℕ) (hm : m ||| 32770 = m) : Keeps m s (State.noteBusy t x0 x1) := by
  refine Keeps.step h ?_ hm
  unfold State.noteBusy
  repeat' first
    | with_reducible exact Keeps.refl _ _
    | with_reducible apply State.bump_keeps
    | with_reducible apply State.modRt_keeps
    | with_reducible apply Keeps.ite
    | decide

theorem State.noteWant_keeps {m : Nat} {s t : State} (h : Keeps m s t) (x0 : ℕ) (x1 : Sys2Proof.Machine.Flit) (hm : m ||| 32770 = m) : Keeps m s (State.noteWant t x0 x1) := by
  refine Keeps.step h ?_ hm
  unfold State.noteWant
  repeat' first
    | with_reducible exact Keeps.refl _ _
    | with_reducible apply State.noteBusy_keeps
    | with_reducible apply Keeps.ite
    | decide

theorem State.injected_keeps {m : Nat} {s t : State} (h : Keeps m s t) (x0 : ℕ) (x1 : Sys2Proof.Machine.Flit) (hm : m ||| 1573010 = m) : Keeps m s (State.injected t x0 x1) := by
  refine Keeps.step h ?_ hm
  unfold State.injected
  repeat' first
    | with_reducible exact Keeps.refl _ _
    | with_reducible apply State.tallyInj_keeps
    | with_reducible apply State.trace_keeps
    | with_reducible apply Keeps.ite
    | decide
    | split

theorem State.transitAbsorb_keeps {m : Nat} {s t u : State} {c : Nat} {f : Flit} (e : t.transitAbsorb c f = some u)
    (h : Keeps m s t) (hm : m ||| 130 = m) : Keeps m s u := by
  refine h.step ?_ hm
  unfold State.transitAbsorb at e
  dsimp only at e
  repeat' first
    | (with_reducible exact absurd e.symm (Option.some_ne_none _))
    | (with_reducible have e := Option.some.inj e; subst e)
    | split at e
  all_goals repeat' first
    | with_reducible exact Keeps.refl _ _
    | with_reducible apply State.absorb_keeps
    | with_reducible apply State.bump_keeps
    | with_reducible apply Keeps.ite
    | decide


theorem State.sendPort_keeps {m : Nat} {s t : State} (h : Keeps m s t) (x0 : ℕ) (x1 : ℕ) (x2 : Sys2Proof.Machine.MFlit) (hm : m ||| 98304 = m) : Keeps m s (State.sendPort t x0 x1 x2) := by
  refine Keeps.step h ?_ hm
  unfold State.sendPort
  repeat' first
    | with_reducible exact Keeps.refl _ _
    | with_reducible apply State.modRt_keeps
    | with_reducible apply State.modSdir_keeps
    | with_reducible apply Keeps.ite
    | decide
    | split

theorem State.markOld_keeps {m : Nat} {s t : State} (h : Keeps m s t) (x0 : ℕ) (x1 : Sys2Proof.Machine.Flit) (hm : m ||| 32768 = m) : Keeps m s (State.markOld t x0 x1) := by
  refine Keeps.step h ?_ hm
  unfold State.markOld
  repeat' first
    | with_reducible exact Keeps.refl _ _
    | with_reducible apply State.modRt_keeps
    | with_reducible apply Keeps.ite
    | decide
    | split

theorem State.sendProd_keeps {m : Nat} {s t : State} (h : Keeps m s t) (x0 : ℕ) (x1 : ℕ) (x2 : Sys2Proof.Machine.MFlit) (hm : m ||| 1671186 = m) : Keeps m s (State.sendProd t x0 x1 x2) := by
  refine Keeps.step h ?_ hm
  unfold State.sendProd
  repeat' first
    | with_reducible exact Keeps.refl _ _
    | with_reducible apply State.sendPort_keeps
    | with_reducible apply State.trace_keeps
    | with_reducible apply State.bump_keeps
    | with_reducible apply State.markOld_keeps
    | with_reducible apply Keeps.ite
    | decide

theorem State.injectHead_keeps {m : Nat} {s t u : State} {c : Nat} (e : t.injectHead c = some u)
    (h : Keeps m s t) (hm : m ||| 1671314 = m) : Keeps m s u := by
  refine h.step ?_ hm
  clear h hm
  unfold State.injectHead at e
  split at e
  · cases e
  · rename_i m0 rest _
    have go : ∀ v, Keeps 1671314 v ((v.modRt c fun r => { r with injq := rest }).injected c m0.f) := fun v =>
      State.injected_keeps (State.modRt_keeps (Keeps.refl _ _) _ _ (by decide)) _ _ (by decide)
    have fin : Keeps 1671314 t (match t.injRemap m0 with
        | some d => (((t.modRt c fun r => { r with injq := rest }).injected c m0.f).rewrite c m0 d).2
        | none => (t.modRt c fun r => { r with injq := rest }).injected c m0.f) := by
      split
      · exact State.rewrite_keeps (go t) _ _ _ (by decide)
      · exact go t
    dsimp only at e
    split at e
    · obtain rfl := Option.some.inj e
      exact State.absorb_keeps (go t) _ _ _ _ (by decide)
    · split at e
      · exact State.transitAbsorb_keeps e fin (by decide)
      · split at e
        · split at e
          · cases e
          · obtain ⟨v, hv, rfl⟩ := Option.map_eq_some_iff.1 e
            exact State.modRt_keeps (State.bump_keeps (State.eject_keeps hv fin (by decide)) _ _ _ (by decide)) _ _ (by decide)
        · split at e
          · cases e
          · split at e
            · obtain rfl := Option.some.inj e
              exact State.sendProd_keeps (State.bump_keeps fin _ _ _ (by decide)) _ _ _ (by decide)
            · cases e

theorem State.injectN_keeps {m : Nat} {s t : State} (h : Keeps m s t) (x0 : ℕ) (x1 : ℕ) (hm : m ||| 1671314 = m) : Keeps m s (State.injectN t x0 x1) := by
  refine Keeps.step h ?_ hm
  clear h hm
  induction x1 generalizing t with
  | zero => exact Keeps.refl _ _
  | succ n ih =>
    unfold State.injectN
    split
    · exact State.bump_keeps (Keeps.refl _ _) _ _ _ (by decide)
    · have k : Keeps 1671314 t (match (t.getRt x0).injq with
          | m :: _ => t.noteWant x0 (t.injFlit m).f
          | [] => t) := by
        split
        · exact State.noteWant_keeps (Keeps.refl _ _) _ _ (by decide)
        · exact Keeps.refl _ _
      dsimp only
      split
      · rename_i e
        exact (State.injectHead_keeps e k (by decide)).trans ih
      · exact k

theorem State.reenter_keeps {m : Nat} {s t u : State} {c : Nat} {f : MFlit} {d : State → State} (e : t.reenter c f d = some u)
    (h : Keeps m s t) (hd : ∀ v, Keeps m v (d v)) (hm : m ||| 1671314 = m) : Keeps m s u := by
  refine h.trans ?_
  clear h
  unfold State.reenter at e
  split at e
  · rename_i e'
    obtain rfl := Option.some.inj e
    exact (State.transitAbsorb_keeps e' (Keeps.refl 1671314 _) (by decide)).mono hm |>.trans (hd _)
  · split at e
    · split at e
      · cases e
      · obtain ⟨v, hv, rfl⟩ := Option.map_eq_some_iff.1 e
        exact (hd t).step (State.modRt_keeps (State.eject_keeps hv (Keeps.refl 1671314 _) (by decide)) _ _ (by decide)) hm
    · split at e
      · obtain rfl := Option.some.inj e
        exact (hd t).step (State.sendProd_keeps (Keeps.refl 1671314 _) _ _ _ (by decide)) hm
      · cases e

theorem State.reenter_getD_keeps {m : Nat} {s t : State} {c : Nat} {f : MFlit} {d : State → State} (h : Keeps m s t)
    (hd : ∀ v, Keeps m v (d v)) (hm : m ||| 1671314 = m) : Keeps m s ((t.reenter c f d).getD t) := by
  cases e : t.reenter c f d with
  | none => exact h
  | some u => exact State.reenter_keeps e h hd hm

theorem State.reenterAll_keeps {m : Nat} {s t : State} (h : Keeps m s t) (x0 : ℕ) (hm : m ||| 1671314 = m) : Keeps m s (State.reenterAll t x0) := by
  refine Keeps.step h ?_ hm
  unfold State.reenterAll
  dsimp only
  refine Keeps.each (Keeps.each (Keeps.refl _ _) _ _ fun u a => ?_) _ _ fun u a => ?_
  all_goals
    exact State.reenter_getD_keeps (State.noteWant_keeps (Keeps.refl _ _) _ _ (by decide))
      (fun v => State.noteSpill_keeps (State.modRt_keeps (Keeps.refl _ _) _ _ (by decide)) _ (by decide)) (by decide)

theorem State.flitInject_keeps {m : Nat} {s t : State} (h : Keeps m s t) (x0 : ℕ) (hm : m ||| 4296639378 = m) : Keeps m s (State.flitInject t x0) := by
  refine Keeps.step h ?_ hm
  unfold State.flitInject
  repeat' first
    | with_reducible exact Keeps.refl _ _
    | with_reducible apply State.modRt_keeps
    | with_reducible apply State.fillInj_keeps
    | with_reducible apply State.injectN_keeps
    | with_reducible apply State.reenterAll_keeps
    | with_reducible apply Keeps.ite
    | decide


theorem State.routeEject_keeps {m : Nat} {s t : State} (h : Keeps m s t) (x0 : ℕ) (x1 : List (ℕ × Sys2Proof.Machine.MFlit)) (hm : m ||| 1605778 = m) : Keeps m s (State.routeEject t x0 x1).1 := by
  refine Keeps.step h ?_ hm
  clear h hm
  induction x1 generalizing t with
  | nil => exact Keeps.refl _ _
  | cons x l ih =>
    obtain ⟨p, f⟩ := x
    unfold State.routeEject
    split
    · rename_i e
      exact (State.transitAbsorb_keeps e (Keeps.refl 1605778 _) (by decide)).trans ih
    · split
      · exact ih
      · split
        · exact ih
        · split
          · rename_i e
            exact (State.modRt_keeps (State.eject_keeps e (Keeps.refl 1605778 _) (by decide)) _ _ (by decide)).trans ih
          · exact (State.bump_keeps (Keeps.refl 1605778 _) _ _ _ (by decide)).trans ih

theorem State.routeForward_keeps {m : Nat} {s t : State} (h : Keeps m s t) (x0 : ℕ) (x1 : List Sys2Proof.Machine.Left) (hm : m ||| 1671186 = m) : Keeps m s (State.routeForward t x0 x1).1 := by
  refine Keeps.step h ?_ hm
  clear h hm
  induction x1 generalizing t with
  | nil => exact Keeps.refl _ _
  | cons x l ih =>
    unfold State.routeForward
    dsimp only
    split
    · exact (State.sendProd_keeps (State.noteBusy_keeps (Keeps.refl 1671186 _) _ _ (by decide)) _ _ _ (by decide)).trans ih
    · exact (State.noteBusy_keeps (Keeps.refl 1671186 _) _ _ (by decide)).trans ih

theorem State.routeDeflect_keeps {m : Nat} {s t : State} (h : Keeps m s t) (x0 : ℕ) (x1 : Sys2Proof.Machine.Left) (hm : m ||| 1671186 = m) : Keeps m s (State.routeDeflect t x0 x1) := by
  refine Keeps.step h ?_ hm
  unfold State.routeDeflect
  repeat' first
    | with_reducible exact Keeps.refl _ _
    | with_reducible apply State.sendPort_keeps
    | with_reducible apply State.trace_keeps
    | with_reducible apply State.bump_keeps
    | with_reducible apply State.markOld_keeps
    | with_reducible apply State.noteSpill_keeps
    | (with_reducible apply State.when_keeps <;> try (intros; beta_reduce))
    | with_reducible apply State.modRt_keeps
    | with_reducible apply Keeps.ite
    | decide
    | split

theorem State.routeOne_keeps {m : Nat} {s t : State} (h : Keeps m s t) (x0 : ℕ) (x1 : List (ℕ × Sys2Proof.Machine.MFlit)) (hm : m ||| 1671314 = m) : Keeps m s (State.routeOne t x0 x1) := by
  refine Keeps.step h ?_ hm
  unfold State.routeOne
  repeat' first
    | with_reducible exact Keeps.refl _ _
    | with_reducible apply State.routeEject_keeps
    | with_reducible apply State.routeForward_keeps
    | (with_reducible apply State.each_keeps <;> try (intros; beta_reduce))
    | with_reducible apply State.routeDeflect_keeps
    | with_reducible apply Keeps.ite
    | decide

theorem State.flitRoute_keeps {m : Nat} {s t : State} (h : Keeps m s t) (x0 : ℕ) (x1 : List Sys2Proof.FlitErr) (hm : m ||| 1671314 = m) : Keeps m s (State.flitRoute t x0 x1) := by
  refine Keeps.step h ?_ hm
  unfold State.flitRoute
  dsimp only
  refine Keeps.each ((Keeps.refl _ _).each _ _ fun u a => State.modRt_keeps (Keeps.refl _ _) _ _ (by decide)) _ _ fun u a => ?_
  split
  · exact Keeps.refl _ _
  · exact State.routeOne_keeps (Keeps.refl _ _) _ _ (by decide)

theorem State.noteHole_keeps {m : Nat} {s t : State} (h : Keeps m s t) (x0 : ℕ) (x1 : Bool) (hm : m ||| 2 = m) : Keeps m s (State.noteHole t x0 x1) := by
  refine Keeps.step h ?_ hm
  unfold State.noteHole
  repeat' first
    | with_reducible exact Keeps.refl _ _
    | (with_reducible apply State.each_keeps <;> try (intros; beta_reduce))
    | with_reducible apply State.setFld_keeps
    | with_reducible apply Keeps.ite
    | decide
    | split

theorem State.fresetMark_keeps {m : Nat} {s t : State} (h : Keeps m s t) (x0 : ℕ) (hm : m ||| 32770 = m) : Keeps m s (State.fresetMark t x0) := by
  refine Keeps.step h ?_ hm
  unfold State.fresetMark
  repeat' first
    | with_reducible exact Keeps.refl _ _
    | with_reducible apply State.noteHole_keeps
    | with_reducible apply State.setFld_keeps
    | with_reducible apply State.modRt_keeps
    | with_reducible apply Keeps.ite
    | decide

theorem State.fresetCheck_keeps {m : Nat} {s t : State} (h : Keeps m s t) (x0 : ℕ) (x1 : Bool) (hm : m ||| 33593218 = m) : Keeps m s (State.fresetCheck t x0 x1) := by
  refine Keeps.step h ?_ hm
  unfold State.fresetCheck
  repeat' first
    | with_reducible exact Keeps.refl _ _
    | with_reducible apply State.modRt_keeps
    | with_reducible apply State.permanentHole_keeps
    | with_reducible apply Keeps.ite
    | decide

theorem State.fresetDrained_keeps {m : Nat} {s t : State} (h : Keeps m s t) (x0 : ℕ) (hm : m ||| 32768 = m) : Keeps m s (State.fresetDrained t x0) := by
  refine Keeps.step h ?_ hm
  unfold State.fresetDrained
  repeat' first
    | with_reducible exact Keeps.refl _ _
    | with_reducible apply State.modRt_keeps
    | with_reducible apply Keeps.ite
    | decide

theorem State.goldenScan_keeps {m : Nat} {s t : State} (h : Keeps m s t) (x0 : ℕ) (hm : m ||| 67141634 = m) : Keeps m s (State.goldenScan t x0) := by
  refine Keeps.step h ?_ hm
  unfold State.goldenScan
  repeat' first
    | with_reducible exact Keeps.refl _ _
    | (with_reducible apply State.each_keeps <;> try (intros; beta_reduce))
    | with_reducible apply State.modRt_keeps
    | with_reducible apply State.modHf_keeps
    | with_reducible apply State.setFld_keeps
    | with_reducible apply Keeps.ite
    | decide
    | split
    | dsimp only

theorem State.holeClear_keeps {m : Nat} {s t : State} (h : Keeps m s t) (x0 : ℕ) (hm : m ||| 33587202 = m) : Keeps m s (State.holeClear t x0) := by
  refine Keeps.step h ?_ hm
  unfold State.holeClear
  repeat' first
    | with_reducible exact Keeps.refl _ _
    | with_reducible apply State.noteHole_keeps
    | with_reducible apply State.setFld_keeps
    | with_reducible apply State.modRt_keeps
    | (with_reducible apply State.each_keeps <;> try (intros; beta_reduce))
    | with_reducible apply State.modSch_keeps
    | with_reducible apply Keeps.ite
    | decide

theorem State.spillOne_keeps {m : Nat} {s t u : State} {c : Nat} (e : t.spillOne c = some u)
    (h : Keeps m s t) (hm : m ||| 1605778 = m) : Keeps m s u := by
  refine h.step ?_ hm
  clear h hm
  unfold State.spillOne at e
  dsimp only at e
  split at e
  · cases e
  · rename_i f _
    have out : ∀ v, Keeps 1605778 v ((v.modRt c fun r => { r with spill := r.spill.erase f }).noteSpill c) := fun v =>
      State.noteSpill_keeps (State.modRt_keeps (Keeps.refl _ _) _ _ (by decide)) _ (by decide)
    split at e
    · obtain rfl := Option.some.inj e
      exact State.modRt_keeps (out t) _ _ (by decide)
    · split at e
      · obtain rfl := Option.some.inj e
        exact State.modRt_keeps (State.rewrite_keeps (Keeps.refl _ _) _ _ _ (by decide)) _ _ (by decide)
      · obtain rfl := Option.some.inj e
        exact State.absorbFenced_keeps (out t) _ _ (by decide)

theorem State.spillRelease_keeps {m : Nat} {s t : State} (h : Keeps m s t) (x0 : ℕ) (hm : m ||| 1605778 = m) : Keeps m s (State.spillRelease t x0) := by
  refine Keeps.step h ?_ hm
  unfold State.spillRelease
  split
  · exact Keeps.refl _ _
  · have r : Keeps 1605778 t (t.modRt x0 fun r => { r with relDone := true }) := State.modRt_keeps (Keeps.refl _ _) _ _ (by decide)
    dsimp only
    split
    · exact r
    · rename_i v e
      have k := State.spillOne_keeps e r (by decide)
      cases e' : v.spillOne x0 with
      | none => exact k
      | some w => exact State.spillOne_keeps e' k (by decide)

end Sys2Proof.Machine
end

