-- ==== Sys2Proof/Laws/KeepCircuits.lean ====
section
/-! SUPPORT. What the operations of Machine/Circuits.lean can do (the relation of Laws/Keep.lean). -/

namespace Sys2Proof.Machine

theorem State.countRefused_keeps {m : Nat} {s t : State} (h : Keeps m s t) (x0 : ℕ) (x1 : ℕ) (hm : m ||| 2 = m) : Keeps m s (State.countRefused t x0 x1) := by
  refine Keeps.step h ?_ hm
  unfold State.countRefused
  repeat' first
    | with_reducible exact Keeps.refl _ _
    | with_reducible apply State.bump_keeps
    | with_reducible apply Keeps.ite
    | decide

theorem State.countHops_keeps {m : Nat} {s t : State} (h : Keeps m s t) (x0 : List (ℕ × Option ℕ)) (hm : m ||| 2 = m) : Keeps m s (State.countHops t x0) := by
  refine Keeps.step h ?_ hm
  unfold State.countHops
  repeat' first
    | with_reducible exact Keeps.refl _ _
    | (with_reducible apply State.each_keeps <;> try (intros; beta_reduce))
    | with_reducible apply State.bump_keeps
    | with_reducible apply Keeps.ite
    | decide

theorem State.dmCount_keeps {m : Nat} {s t : State} (h : Keeps m s t) (x0 : Sys2Proof.Machine.Reg) (x1 : ℕ) (x2 : optParam ℕ 1) (hm : m ||| 2 = m) : Keeps m s (State.dmCount t x0 x1 x2) := by
  refine Keeps.step h ?_ hm
  unfold State.dmCount
  repeat' first
    | with_reducible exact Keeps.refl _ _
    | with_reducible apply State.bump_keeps
    | with_reducible apply Keeps.ite
    | decide
    | split

theorem State.chanFail_keeps {m : Nat} {s t : State} (h : Keeps m s t) (x0 : ℕ) (hm : m ||| 4294967426 = m) : Keeps m s (State.chanFail t x0) := by
  refine Keeps.step h ?_ hm
  unfold State.chanFail
  repeat' first
    | with_reducible exact Keeps.refl _ _
    | with_reducible apply State.setFld_keeps
    | with_reducible apply State.post_keeps
    | (with_reducible apply State.each_keeps <;> try (intros; beta_reduce))
    | with_reducible apply State.haltAtHarvest_keeps
    | with_reducible apply Keeps.ite
    | decide

theorem State.dmBad_keeps {m : Nat} {s t : State} (h : Keeps m s t) (x0 : ℕ) (x1 : Bool) (hm : m ||| 4294967426 = m) : Keeps m s (State.dmBad t x0 x1) := by
  refine Keeps.step h ?_ hm
  unfold State.dmBad
  repeat' first
    | with_reducible exact Keeps.refl _ _
    | (with_reducible apply State.when_keeps <;> try (intros; beta_reduce))
    | with_reducible apply State.setVal_keeps
    | with_reducible apply State.bump_keeps
    | with_reducible apply State.chanFail_keeps
    | with_reducible apply Keeps.ite
    | decide
    | split

theorem State.countRead_keeps {m : Nat} {s t : State} (h : Keeps m s t) (x0 : ℕ) (hm : m ||| 2 = m) : Keeps m s (State.countRead t x0) := by
  refine Keeps.step h ?_ hm
  unfold State.countRead
  repeat' first
    | with_reducible exact Keeps.refl _ _
    | with_reducible apply State.bump_keeps
    | with_reducible apply Keeps.ite
    | decide
    | split

theorem State.passBeats_keeps {m : Nat} {s t : State} (h : Keeps m s t) (x0 : ℕ) (x1 : ℕ) (x2 : ℕ) (hm : m ||| 2 = m) : Keeps m s (State.passBeats t x0 x1 x2) := by
  refine Keeps.step h ?_ hm
  unfold State.passBeats
  repeat' first
    | with_reducible exact Keeps.refl _ _
    | with_reducible apply State.bump_keeps
    | (with_reducible apply State.each_keeps <;> try (intros; beta_reduce))
    | with_reducible apply Keeps.ite
    | decide

theorem State.svcBeats_keeps {m : Nat} {s t : State} (h : Keeps m s t) (x0 : ℕ) (x1 : ℕ) (x2 : ℕ) (x3 : Bool) (hm : m ||| 8388610 = m) : Keeps m s (State.svcBeats t x0 x1 x2 x3) := by
  refine Keeps.step h ?_ hm
  unfold State.svcBeats
  repeat' first
    | with_reducible exact Keeps.refl _ _
    | (with_reducible apply State.each_keeps <;> try (intros; beta_reduce))
    | with_reducible apply State.arbOnce_keeps
    | with_reducible apply State.passBeats_keeps
    | with_reducible apply Keeps.ite
    | decide

theorem State.dmLines_keeps {m : Nat} {s t : State} (h : Keeps m s t) (x0 : ℕ) (x1 : ℕ) (x2 : Bool) (hm : m ||| 2 = m) : Keeps m s (State.dmLines t x0 x1 x2) := by
  refine Keeps.step h ?_ hm
  unfold State.dmLines
  repeat' first
    | with_reducible exact Keeps.refl _ _
    | (with_reducible apply State.each_keeps <;> try (intros; beta_reduce))
    | with_reducible apply State.bump_keeps
    | with_reducible apply Keeps.ite
    | decide

theorem State.dmWake_keeps {m : Nat} {s t : State} (h : Keeps m s t) (x0 : ℕ) (x1 : ℕ) (hm : m ||| 16777218 = m) : Keeps m s (State.dmWake t x0 x1) := by
  refine Keeps.step h ?_ hm
  unfold State.dmWake
  repeat' first
    | with_reducible exact Keeps.refl _ _
    | (with_reducible apply State.each_keeps <;> try (intros; beta_reduce))
    | with_reducible apply State.wakeDomain_keeps
    | with_reducible apply Keeps.ite
    | decide

theorem State.dmMeets_keeps {m : Nat} {s t : State} (h : Keeps m s t) (x0 : ℕ) (x1 : ℕ) (x2 : Sys2Proof.LineFate) (hm : m ||| 4294967426 = m) : Keeps m s (State.dmMeets t x0 x1 x2) := by
  refine Keeps.step h ?_ hm
  unfold State.dmMeets
  repeat' first
    | with_reducible exact Keeps.refl _ _
    | (with_reducible apply State.each_keeps <;> try (intros; beta_reduce))
    | with_reducible apply State.dmCount_keeps
    | with_reducible apply State.dmBad_keeps
    | with_reducible apply Keeps.ite
    | decide

theorem State.countDeny_keeps {m : Nat} {s t : State} (h : Keeps m s t) (x0 : ℕ) (x1 : ℕ) (hm : m ||| 2 = m) : Keeps m s (State.countDeny t x0 x1) := by
  refine Keeps.step h ?_ hm
  unfold State.countDeny
  repeat' first
    | with_reducible exact Keeps.refl _ _
    | with_reducible apply State.bump_keeps
    | with_reducible apply Keeps.ite
    | decide
    | split

theorem State.countStray_keeps {m : Nat} {s t : State} (h : Keeps m s t) (x0 : Option ℕ) (x1 : ℕ) (x2 : ℕ) (x3 : ℕ) (hm : m ||| 2 = m) : Keeps m s (State.countStray t x0 x1 x2 x3) := by
  refine Keeps.step h ?_ hm
  unfold State.countStray
  repeat' first
    | with_reducible exact Keeps.refl _ _
    | with_reducible apply State.bump_keeps
    | with_reducible apply Keeps.ite
    | decide

end Sys2Proof.Machine
end

