-- ==== Sys2Proof/Laws/KeepSwaps.lean ====
section
/-! SUPPORT. What the operations of Machine/Swaps.lean can do (the relation of Laws/Keep.lean). -/

namespace Sys2Proof.Machine

theorem State.homeBeats_keeps {m : Nat} {s t : State} (h : Keeps m s t) (x0 : ℕ) (x1 : ℕ) (x2 : Bool) (hm : m ||| 8388610 = m) : Keeps m s (State.homeBeats t x0 x1 x2) := by
  refine Keeps.step h ?_ hm
  unfold State.homeBeats
  repeat' first
    | with_reducible exact Keeps.refl _ _
    | (with_reducible apply State.each_keeps <;> try (intros; beta_reduce))
    | with_reducible apply State.dmLines_keeps
    | with_reducible apply State.svcBeats_keeps
    | with_reducible apply Keeps.ite
    | decide

theorem State.homeWake_keeps {m : Nat} {s t : State} (h : Keeps m s t) (x0 : ℕ) (x1 : ℕ) (hm : m ||| 16777218 = m) : Keeps m s (State.homeWake t x0 x1) := by
  refine Keeps.step h ?_ hm
  unfold State.homeWake
  repeat' first
    | with_reducible exact Keeps.refl _ _
    | (with_reducible apply State.each_keeps <;> try (intros; beta_reduce))
    | with_reducible apply State.dmWake_keeps
    | with_reducible apply Keeps.ite
    | decide

theorem State.swapFail_keeps {m : Nat} {s t : State} (h : Keeps m s t) (x0 : ℕ) (x1 : ℕ) (hm : m ||| 4294968450 = m) : Keeps m s (State.swapFail t x0 x1) := by
  refine Keeps.step h ?_ hm
  unfold State.swapFail
  repeat' first
    | with_reducible exact Keeps.refl _ _
    | with_reducible apply State.post_keeps
    | with_reducible apply State.enterDisabled_keeps
    | with_reducible apply State.haltNow_keeps
    | with_reducible apply State.modWg_keeps
    | with_reducible apply Keeps.ite
    | decide

theorem State.swapResident_keeps {m : Nat} {s t : State} (h : Keeps m s t) (x0 : ℕ) (hm : m ||| 1410 = m) : Keeps m s (State.swapResident t x0) := by
  refine Keeps.step h ?_ hm
  unfold State.swapResident
  repeat' first
    | with_reducible exact Keeps.refl _ _
    | with_reducible apply State.adoptOpens_keeps
    | with_reducible apply State.modWg_keeps
    | with_reducible apply State.enterDisabled_keeps
    | with_reducible apply State.settleState_keeps
    | with_reducible apply Keeps.ite
    | decide

theorem State.readInDone_keeps {m : Nat} {s t : State} (h : Keeps m s t) (x0 : ℕ) (x1 : Sys2Proof.LineFate) (hm : m ||| 4320134546 = m) : Keeps m s (State.readInDone t x0 x1) := by
  refine Keeps.step h ?_ hm
  unfold State.readInDone
  repeat' first
    | with_reducible exact Keeps.refl _ _
    | with_reducible apply State.homeWake_keeps
    | with_reducible apply State.dmMeets_keeps
    | with_reducible apply State.homeBeats_keeps
    | with_reducible apply State.swapFail_keeps
    | with_reducible apply State.swapIn_keeps
    | with_reducible apply State.swapResident_keeps
    | with_reducible apply Keeps.ite
    | decide

theorem State.swapWriteOutDone_keeps {m : Nat} {s t : State} (h : Keeps m s t) (x0 : ℕ) (hm : m ||| 25165970 = m) : Keeps m s (State.swapWriteOutDone t x0) := by
  refine Keeps.step h ?_ hm
  unfold State.swapWriteOutDone
  repeat' first
    | with_reducible exact Keeps.refl _ _
    | with_reducible apply State.homeWake_keeps
    | with_reducible apply State.homeBeats_keeps
    | with_reducible apply State.swapOut_keeps
    | with_reducible apply State.setVal_keeps
    | with_reducible apply State.modWg_keeps
    | with_reducible apply Keeps.ite
    | decide

end Sys2Proof.Machine
end

