-- ==== Sys2Proof/Laws/KeepKeepStore.lean ====
section
/-! SUPPORT. What the operations of Machine/KeepStore.lean can do (the relation of Laws/Keep.lean). -/

namespace Sys2Proof.Machine

theorem State.modKs_keeps {m : Nat} {s t : State} (h : Keeps m s t) (x0 : Sys2Proof.Machine.Ks → Sys2Proof.Machine.Ks) (hm : m ||| 8192 = m) : Keeps m s (State.modKs t x0) := by
  refine Keeps.step h ?_ hm
  unfold State.modKs
  repeat' first
    | with_reducible exact Keeps.refl _ _
    | with_reducible apply Keeps.ite
    | decide
    | split
    | dsimp only
    | (intro h; first | exact mwf_mput h _ _ | exact mwf_mmod h _ _ | exact mwf_filter h _ | exact mwf_mclear h _ _ | exact mwf_pokeMem h _ _ | rfl)
    | (with_reducible apply Keeps.ks_p)

theorem State.ksCounts_keeps {m : Nat} {s t : State} (h : Keeps m s t) (hm : m ||| 2 = m) : Keeps m s (State.ksCounts t) := by
  refine Keeps.step h ?_ hm
  unfold State.ksCounts
  repeat' first
    | with_reducible exact Keeps.refl _ _
    | with_reducible apply State.setFld_keeps
    | with_reducible apply State.setVal_keeps
    | with_reducible apply Keeps.ite
    | decide

theorem State.ksReport_keeps {m : Nat} {s t : State} (h : Keeps m s t) (hm : m ||| 2 = m) : Keeps m s (State.ksReport t) := by
  refine Keeps.step h ?_ hm
  unfold State.ksReport
  repeat' first
    | with_reducible exact Keeps.refl _ _
    | with_reducible apply State.setVal_keeps
    | (with_reducible apply State.each_keeps <;> try (intros; beta_reduce))
    | with_reducible apply Keeps.ite
    | decide

theorem State.ksState_keeps {m : Nat} {s t : State} (h : Keeps m s t) (x0 : ℕ) (x1 : ℕ) (hm : m ||| 2 = m) : Keeps m s (State.ksState t x0 x1) := by
  refine Keeps.step h ?_ hm
  unfold State.ksState
  repeat' first
    | with_reducible exact Keeps.refl _ _
    | with_reducible apply State.setFld_keeps
    | with_reducible apply Keeps.ite
    | decide

theorem State.ksShow_keeps {m : Nat} {s t : State} (h : Keeps m s t) (x0 : ℕ) (hm : m ||| 2 = m) : Keeps m s (State.ksShow t x0) := by
  refine Keeps.step h ?_ hm
  unfold State.ksShow
  repeat' first
    | with_reducible exact Keeps.refl _ _
    | with_reducible apply State.ksState_keeps
    | with_reducible apply Keeps.ite
    | decide

theorem State.setPage_keeps {m : Nat} {s t : State} (h : Keeps m s t) (x0 : ℕ) (x1 : Sys2Proof.Machine.Page → Sys2Proof.Machine.Page) (hm : m ||| 8192 = m) : Keeps m s (State.setPage t x0 x1) := by
  refine Keeps.step h ?_ hm
  unfold State.setPage
  repeat' first
    | with_reducible exact Keeps.refl _ _
    | with_reducible apply State.modKs_keeps
    | with_reducible apply Keeps.ite
    | decide

theorem State.freeUnreferenced_keeps {m : Nat} {s t : State} (h : Keeps m s t) (hm : m ||| 8192 = m) : Keeps m s (State.freeUnreferenced t) := by
  refine Keeps.step h ?_ hm
  unfold State.freeUnreferenced
  repeat' first
    | with_reducible exact Keeps.refl _ _
    | (with_reducible apply State.each_keeps <;> try (intros; beta_reduce))
    | with_reducible apply State.setPage_keeps
    | with_reducible apply Keeps.ite
    | decide

theorem State.ksPost_keeps {m : Nat} {s t : State} (h : Keeps m s t) (x0 : ℕ) (x1 : ℕ) (hm : m ||| 4294967298 = m) : Keeps m s (State.ksPost t x0 x1) := by
  refine Keeps.step h ?_ hm
  unfold State.ksPost
  repeat' first
    | with_reducible exact Keeps.refl _ _
    | with_reducible apply State.post_keeps
    | with_reducible apply State.setFld_keeps
    | with_reducible apply Keeps.ite
    | decide

theorem State.commitFail_keeps {m : Nat} {s t : State} (h : Keeps m s t) (x0 : Sys2Proof.Machine.Commit) (x1 : ℕ) (hm : m ||| 4294975490 = m) : Keeps m s (State.commitFail t x0 x1) := by
  refine Keeps.step h ?_ hm
  unfold State.commitFail
  repeat' first
    | with_reducible exact Keeps.refl _ _
    | (with_reducible apply State.each_keeps <;> try (intros; beta_reduce))
    | with_reducible apply State.setPage_keeps
    | with_reducible apply State.modKs_keeps
    | with_reducible apply State.setStage_keeps
    | with_reducible apply State.setFld_keeps
    | with_reducible apply State.ksCounts_keeps
    | with_reducible apply State.ksPost_keeps
    | with_reducible apply State.ksShow_keeps
    | with_reducible apply Keeps.ite
    | decide

theorem State.commitAbandon_keeps {m : Nat} {s t : State} (h : Keeps m s t) (x0 : ℕ) (hm : m ||| 4294975490 = m) : Keeps m s (State.commitAbandon t x0) := by
  refine Keeps.step h ?_ hm
  unfold State.commitAbandon
  repeat' first
    | with_reducible exact Keeps.refl _ _
    | with_reducible apply State.modKs_keeps
    | with_reducible apply State.ksCounts_keeps
    | with_reducible apply State.ksReport_keeps
    | with_reducible apply State.ksShow_keeps
    | with_reducible apply State.freeUnreferenced_keeps
    | with_reducible apply State.commitFail_keeps
    | with_reducible apply Keeps.ite
    | decide
    | split

theorem State.pageOps_keeps {m : Nat} {s t : State} (h : Keeps m s t) (x0 : List ℕ) (hm : m ||| 8388608 = m) : Keeps m s (State.pageOps t x0) := by
  refine Keeps.step h ?_ hm
  unfold State.pageOps
  repeat' first
    | with_reducible exact Keeps.refl _ _
    | (with_reducible apply State.each_keeps <;> try (intros; beta_reduce))
    | with_reducible apply State.arbOnce_keeps
    | with_reducible apply Keeps.ite
    | decide

theorem State.writeRoot_keeps {m : Nat} {s t : State} (h : Keeps m s t) (x0 : ℕ) (x1 : List Sys2Proof.Byte) (hm : m ||| 8396800 = m) : Keeps m s (State.writeRoot t x0 x1) := by
  refine Keeps.step h ?_ hm
  unfold State.writeRoot
  repeat' first
    | with_reducible exact Keeps.refl _ _
    | with_reducible apply State.modKs_keeps
    | with_reducible apply State.pageOps_keeps
    | with_reducible apply Keeps.ite
    | decide

theorem State.ksBump_keeps {m : Nat} {s t : State} (h : Keeps m s t) (x0 : Sys2Proof.Machine.Reg) (hm : m ||| 2 = m) : Keeps m s (State.ksBump t x0) := by
  refine Keeps.step h ?_ hm
  unfold State.ksBump
  repeat' first
    | with_reducible exact Keeps.refl _ _
    | (with_reducible apply State.each_keeps <;> try (intros; beta_reduce))
    | with_reducible apply State.bump_keeps
    | with_reducible apply Keeps.ite
    | decide

theorem State.commitEast_keeps {m : Nat} {s t : State} (h : Keeps m s t) (x0 : Sys2Proof.Machine.Commit) (hm : m ||| 8396802 = m) : Keeps m s (State.commitEast t x0) := by
  refine Keeps.step h ?_ hm
  unfold State.commitEast
  repeat' first
    | with_reducible exact Keeps.refl _ _
    | with_reducible apply State.writeRoot_keeps
    | with_reducible apply State.modKs_keeps
    | with_reducible apply State.ksCounts_keeps
    | with_reducible apply State.ksReport_keeps
    | with_reducible apply State.ksBump_keeps
    | with_reducible apply State.ksShow_keeps
    | with_reducible apply State.freeUnreferenced_keeps
    | with_reducible apply Keeps.ite
    | decide

theorem State.restoreAbandon_keeps {m : Nat} {s t : State} (h : Keeps m s t) (x0 : Sys2Proof.Machine.Commit) (hm : m ||| 4294975490 = m) : Keeps m s (State.restoreAbandon t x0) := by
  refine Keeps.step h ?_ hm
  unfold State.restoreAbandon
  repeat' first
    | with_reducible exact Keeps.refl _ _
    | with_reducible apply State.setFld_keeps
    | with_reducible apply State.ksPost_keeps
    | with_reducible apply State.ksShow_keeps
    | with_reducible apply State.modKs_keeps
    | with_reducible apply Keeps.ite
    | decide

theorem State.restoresAbandon_keeps {m : Nat} {s t : State} (h : Keeps m s t) (x0 : ℕ) (hm : m ||| 4294975490 = m) : Keeps m s (State.restoresAbandon t x0) := by
  refine Keeps.step h ?_ hm
  unfold State.restoresAbandon
  repeat' first
    | with_reducible exact Keeps.refl _ _
    | (with_reducible apply State.each_keeps <;> try (intros; beta_reduce))
    | with_reducible apply State.restoreAbandon_keeps
    | with_reducible apply Keeps.ite
    | decide

theorem State.queueAbandon_keeps {m : Nat} {s t : State} (h : Keeps m s t) (x0 : ℕ → Bool) (x1 : ℕ) (hm : m ||| 4294975490 = m) : Keeps m s (State.queueAbandon t x0 x1) := by
  refine Keeps.step h ?_ hm
  unfold State.queueAbandon
  repeat' first
    | with_reducible exact Keeps.refl _ _
    | (with_reducible apply State.each_keeps <;> try (intros; beta_reduce))
    | with_reducible apply State.ksPost_keeps
    | with_reducible apply State.setFld_keeps
    | with_reducible apply State.modKs_keeps
    | with_reducible apply Keeps.ite
    | decide

theorem State.ksRelease_keeps {m : Nat} {s t : State} (h : Keeps m s t) (x0 : ℕ) (hm : m ||| 4303364098 = m) : Keeps m s (State.ksRelease t x0) := by
  refine Keeps.step h ?_ hm
  unfold State.ksRelease
  repeat' first
    | with_reducible exact Keeps.refl _ _
    | with_reducible apply State.commitAbandon_keeps
    | with_reducible apply State.commitEast_keeps
    | with_reducible apply State.restoresAbandon_keeps
    | with_reducible apply State.queueAbandon_keeps
    | with_reducible apply State.modKs_keeps
    | with_reducible apply State.writeRoot_keeps
    | with_reducible apply State.ksCounts_keeps
    | with_reducible apply State.ksReport_keeps
    | with_reducible apply State.setFld_keeps
    | with_reducible apply State.freeUnreferenced_keeps
    | with_reducible apply Keeps.ite
    | decide
    | split

theorem State.queueCommit_keeps {m : Nat} {s t : State} (h : Keeps m s t) (x0 : ℕ) (x1 : ℕ) (x2 : Bool) (hm : m ||| 8194 = m) : Keeps m s (State.queueCommit t x0 x1 x2) := by
  refine Keeps.step h ?_ hm
  unfold State.queueCommit
  repeat' first
    | with_reducible exact Keeps.refl _ _
    | with_reducible apply State.setFld_keeps
    | with_reducible apply State.modKs_keeps
    | with_reducible apply Keeps.ite
    | decide

theorem State.autoCommit_keeps {m : Nat} {s t : State} (h : Keeps m s t) (x0 : ℕ) (hm : m ||| 4294975490 = m) : Keeps m s (State.autoCommit t x0) := by
  refine Keeps.step h ?_ hm
  unfold State.autoCommit
  repeat' first
    | with_reducible exact Keeps.refl _ _
    | with_reducible apply State.ksPost_keeps
    | with_reducible apply State.queueCommit_keeps
    | with_reducible apply Keeps.ite
    | decide

theorem State.rootScan_keeps {m : Nat} {s t : State} (h : Keeps m s t) (x0 : Bool) (hm : m ||| 8194 = m) : Keeps m s (State.rootScan t x0) := by
  refine Keeps.step h ?_ hm
  unfold State.rootScan
  repeat' first
    | with_reducible exact Keeps.refl _ _
    | with_reducible apply State.modKs_keeps
    | (with_reducible apply State.each_keeps <;> try (intros; beta_reduce))
    | with_reducible apply State.setPage_keeps
    | with_reducible apply State.setFld_keeps
    | with_reducible apply State.ksCounts_keeps
    | with_reducible apply State.ksReport_keeps
    | with_reducible apply Keeps.ite
    | decide

theorem State.captureBytes_keeps {m : Nat} {s t : State} (h : Keeps m s t) (x0 : ℕ) (x1 : ℕ) (x2 : List Sys2Proof.Byte) (hm : m ||| 8388626 = m) : Keeps m s (State.captureBytes t x0 x1 x2) := by
  refine Keeps.step h ?_ hm
  unfold State.captureBytes
  repeat' first
    | with_reducible exact Keeps.refl _ _
    | (with_reducible apply State.each_keeps <;> try (intros; beta_reduce))
    | with_reducible apply State.svcBeats_keeps
    | with_reducible apply State.poke_keeps
    | with_reducible apply State.dmLines_keeps
    | with_reducible apply Keeps.ite
    | decide

theorem State.captureErrs_keeps {m : Nat} {s t : State} (h : Keeps m s t) (x0 : ℕ) (x1 : List ℕ) (hm : m ||| 130 = m) : Keeps m s (State.captureErrs t x0 x1) := by
  refine Keeps.step h ?_ hm
  unfold State.captureErrs
  repeat' first
    | with_reducible exact Keeps.refl _ _
    | (with_reducible apply State.each_keeps <;> try (intros; beta_reduce))
    | with_reducible apply State.learnEcc_keeps
    | with_reducible apply Keeps.ite
    | decide
    | split

theorem State.captureStart_keeps {m : Nat} {s t : State} (h : Keeps m s t) (hm : m ||| 25174034 = m) : Keeps m s (State.captureStart t) := by
  refine Keeps.step h ?_ hm
  unfold State.captureStart
  repeat' first
    | with_reducible exact Keeps.refl _ _
    | with_reducible apply State.dmWake_keeps
    | with_reducible apply State.captureBytes_keeps
    | with_reducible apply State.modKs_keeps
    | with_reducible apply State.setStage_keeps
    | with_reducible apply State.ksShow_keeps
    | with_reducible apply State.setFld_keeps
    | with_reducible apply Keeps.ite
    | decide
    | split

theorem State.drawKey_keeps {m : Nat} {s t : State} (h : Keeps m s t) (x0 : ℕ) (hm : m ||| 35184372088832 = m) : Keeps m s (State.drawKey x0 t).1 := by
  refine Keeps.step h ?_ hm
  clear h hm
  induction x0 generalizing t with
  | zero => exact (Keeps.refl _ _).fresh_p _ (Nat.le_add_right _ _) (by decide)
  | succ n ih =>
    unfold State.drawKey
    split
    · exact ((Keeps.refl _ _).fresh_p _ (Nat.le_add_right _ _) (by decide)).trans ih
    · exact (Keeps.refl _ _).fresh_p _ (Nat.le_add_right _ _) (by decide)

theorem State.takeKey_keeps {m : Nat} {s t : State} (h : Keeps m s t) (x0 : ℕ) (hm : m ||| 35184372097024 = m) : Keeps m s (State.takeKey t x0).1 := by
  refine Keeps.step h ?_ hm
  unfold State.takeKey
  split
  · exact Keeps.refl _ _
  · dsimp only
    exact State.modKs_keeps (State.drawKey_keeps (Keeps.refl 35184372097024 _) _ (by decide)) _ (by decide)

theorem State.programPage_keeps {m : Nat} {s t : State} (h : Keeps m s t) (x0 : ℕ) (x1 : List ℕ) (x2 : ℕ) (x3 : ℕ) (x4 : ℕ) (x5 : ℕ) (x6 : List Sys2Proof.Byte) (hm : m ||| 8396802 = m) : Keeps m s (State.programPage t x0 x1 x2 x3 x4 x5 x6).1 := by
  refine Keeps.step h ?_ hm
  clear h hm
  induction x0 generalizing t x2 with
  | zero => unfold State.programPage; exact Keeps.refl _ _
  | succ n ih =>
    unfold State.programPage
    split
    · exact Keeps.refl _ _
    · have r : ∀ l p f g, Keeps 8396802 t (((t.pageOps l).setPage p f).ksBump g) := fun l p f g =>
        State.ksBump_keeps (State.setPage_keeps (State.pageOps_keeps (Keeps.refl _ _) _ (by decide)) _ _ (by decide)) _ (by decide)
      dsimp only
      split
      · split
        · exact r _ _ _ _
        · exact (r _ _ _ _).trans (ih _)
      · exact r _ _ _ _

theorem State.putPage_keeps {m : Nat} {s t : State} (h : Keeps m s t) (x0 : List ℕ) (x1 : ℕ) (x2 : ℕ) (x3 : ℕ) (x4 : Option ℕ) (x5 : List Sys2Proof.Byte) (x6 : Sys2Proof.Machine.Prog) (hm : m ||| 8396802 = m) : Keeps m s (State.putPage t x0 x1 x2 x3 x4 x5 x6).1 := by
  refine Keeps.step h ?_ hm
  unfold State.putPage
  repeat' first
    | with_reducible exact Keeps.refl _ _
    | with_reducible apply State.pageOps_keeps
    | with_reducible apply State.ksBump_keeps
    | with_reducible apply State.programPage_keeps
    | with_reducible apply Keeps.ite
    | decide
    | split
    | dsimp only

theorem State.programData_keeps {m : Nat} {s t : State} (h : Keeps m s t) (x0 : List ℕ) (x1 : Sys2Proof.Machine.Commit) (x2 : ℕ) (x3 : ℕ) (hm : m ||| 8396802 = m) : Keeps m s (State.programData t x0 x1 x2 x3).1 := by
  refine Keeps.step h ?_ hm
  unfold State.programData
  dsimp only
  refine Keeps.trans ?_ (foldl_fst_keeps _ _ (fun x a => ?_) _ _)
  all_goals repeat' first
    | with_reducible exact Keeps.refl _ _
    | with_reducible apply State.dmLines_keeps
    | (with_reducible apply State.each_keeps <;> try (intros; beta_reduce))
    | with_reducible apply State.arbOnce_keeps
    | with_reducible apply State.putPage_keeps
    | with_reducible apply Keeps.ite
    | decide
    | split


theorem State.programTables_keeps {m : Nat} {s t : State} (h : Keeps m s t) (x0 : List ℕ) (x1 : Sys2Proof.Machine.Commit) (x2 : ℕ) (x3 : ℕ) (x4 : ℕ) (x5 : List ℕ) (hm : m ||| 8396802 = m) : Keeps m s (State.programTables t x0 x1 x2 x3 x4 x5).1 := by
  refine Keeps.step h ?_ hm
  unfold State.programTables
  refine foldl_fst_keeps _ _ (fun x a => ?_) _ _
  repeat' first
    | with_reducible exact Keeps.refl _ _
    | with_reducible apply State.putPage_keeps
    | with_reducible apply Keeps.ite
    | decide
    | split


theorem State.commitPhase_keeps {m : Nat} {s t : State} (h : Keeps m s t) (x0 : List ℕ) (hm : m ||| 35188675453058 = m) : Keeps m s (State.commitPhase t x0) := by
  refine Keeps.step h ?_ hm
  unfold State.commitPhase
  repeat' first
    | with_reducible exact Keeps.refl _ _
    | with_reducible apply State.modKs_keeps
    | with_reducible apply State.captureErrs_keeps
    | with_reducible apply State.setStage_keeps
    | with_reducible apply State.ksShow_keeps
    | with_reducible apply State.commitFail_keeps
    | with_reducible apply State.takeKey_keeps
    | with_reducible apply State.programData_keeps
    | with_reducible apply State.programTables_keeps
    | with_reducible apply State.putPage_keeps
    | with_reducible apply State.ksCounts_keeps
    | with_reducible apply State.writeRoot_keeps
    | with_reducible apply State.commitEast_keeps
    | with_reducible apply Keeps.ite
    | decide
    | split
    | dsimp only

theorem State.commitsSplit_keeps {m : Nat} {s t : State} (h : Keeps m s t) (hm : m ||| 4294975490 = m) : Keeps m s (State.commitsSplit t) := by
  refine Keeps.step h ?_ hm
  unfold State.commitsSplit
  repeat' first
    | with_reducible exact Keeps.refl _ _
    | with_reducible apply State.queueAbandon_keeps
    | with_reducible apply State.commitAbandon_keeps
    | with_reducible apply Keeps.ite
    | decide

theorem State.flipComplete_keeps {m : Nat} {s t : State} (h : Keeps m s t) (x0 : ℕ) (hm : m ||| 4294979714 = m) : Keeps m s (State.flipComplete t x0) := by
  refine Keeps.step h ?_ hm
  unfold State.flipComplete
  repeat' first
    | with_reducible exact Keeps.refl _ _
    | with_reducible apply State.bump_keeps
    | (with_reducible apply State.each_keeps <;> try (intros; beta_reduce))
    | with_reducible apply State.releaseBarrier_keeps
    | with_reducible apply State.setStage_keeps
    | with_reducible apply State.modLs_keeps
    | with_reducible apply State.modKs_keeps
    | with_reducible apply State.autoCommit_keeps
    | with_reducible apply Keeps.ite
    | decide

theorem State.keepOps_keeps {m : Nat} {s t : State} (h : Keeps m s t) (x0 : ℕ) (x1 : ℕ) (hm : m ||| 8388608 = m) : Keeps m s (State.keepOps t x0 x1) := by
  refine Keeps.step h ?_ hm
  unfold State.keepOps
  repeat' first
    | with_reducible exact Keeps.refl _ _
    | with_reducible apply State.pageOps_keeps
    | with_reducible apply Keeps.ite
    | decide
    | split

theorem State.ksErase_keeps {m : Nat} {s t : State} (h : Keeps m s t) (hm : m ||| 4294975490 = m) : Keeps m s (State.ksErase t) := by
  refine Keeps.step h ?_ hm
  unfold State.ksErase
  repeat' first
    | with_reducible exact Keeps.refl _ _
    | with_reducible apply State.modKs_keeps
    | with_reducible apply State.commitAbandon_keeps
    | (with_reducible apply State.each_keeps <;> try (intros; beta_reduce))
    | with_reducible apply State.ksShow_keeps
    | with_reducible apply State.setFld_keeps
    | with_reducible apply State.ksCounts_keeps
    | with_reducible apply State.ksReport_keeps
    | with_reducible apply State.freeUnreferenced_keeps
    | with_reducible apply Keeps.ite
    | decide

theorem State.restoreCore_keeps {m : Nat} {s t : State} (h : Keeps m s t) (x0 : List Sys2Proof.Byte) (x1 : ℕ × ℕ × ℕ × ℕ × ℕ × ℕ) (hm : m ||| 16 = m) : Keeps m s (State.restoreCore t x0 x1) := by
  refine Keeps.step h ?_ hm
  unfold State.restoreCore
  repeat' first
    | with_reducible exact Keeps.refl _ _
    | (with_reducible apply State.each_keeps <;> try (intros; beta_reduce))
    | with_reducible apply State.cpoke_keeps
    | with_reducible apply State.wipe_keeps
    | with_reducible apply Keeps.ite
    | decide

theorem State.restoreDone_keeps {m : Nat} {s t : State} (h : Keeps m s t) (x0 : ℕ) (hm : m ||| 8396818 = m) : Keeps m s (State.restoreDone t x0) := by
  refine Keeps.step h ?_ hm
  unfold State.restoreDone
  repeat' first
    | with_reducible exact Keeps.refl _ _
    | with_reducible apply State.pageOps_keeps
    | (with_reducible apply State.each_keeps <;> try (intros; beta_reduce))
    | with_reducible apply State.restoreCore_keeps
    | with_reducible apply State.setVal_keeps
    | with_reducible apply State.modKs_keeps
    | with_reducible apply State.ksBump_keeps
    | with_reducible apply State.ksShow_keeps
    | with_reducible apply Keeps.ite
    | decide
    | split

end Sys2Proof.Machine
end

