-- ==== Sys2Proof/Laws/KeepMatrix.lean ====
section
/-! SUPPORT. What the operations of Machine/Matrix.lean can do (the relation of Laws/Keep.lean). -/

namespace Sys2Proof.Machine

theorem State.mxFailAt_keeps {m : Nat} {s t : State} (h : Keeps m s t) (x0 : ℕ) (x1 : ℕ) (x2 : ℕ) (hm : m ||| 1024 = m) : Keeps m s (State.mxFailAt t x0 x1 x2) := by
  refine Keeps.step h ?_ hm
  unfold State.mxFailAt
  repeat' first
    | with_reducible exact Keeps.refl _ _
    | with_reducible apply State.modMx_keeps
    | with_reducible apply Keeps.ite
    | decide

theorem State.devWriteFuel_keeps {m : Nat} {s t : State} (h : Keeps m s t) (x0 : ℕ) (x1 : ℕ) (x2 : ℕ) (x3 : List Sys2Proof.Byte) (hm : m ||| 1573906 = m) : Keeps m s (State.devWriteFuel t x0 x1 x2 x3) := by
  refine Keeps.step h ?_ hm
  clear h hm
  induction x2 generalizing t x1 x3 with
  | zero => exact Keeps.refl _ _
  | succ n ih =>
    unfold State.devWriteFuel
    split
    · exact Keeps.refl _ _
    · exact (State.observe_keeps (State.lineWrite_keeps (Keeps.refl _ _) _ _ _ (by decide)) _ (by decide)).trans (ih _ _)

theorem State.devWrite_keeps {m : Nat} {s t : State} (h : Keeps m s t) (x0 : ℕ) (x1 : ℕ) (x2 : List Sys2Proof.Byte) (hm : m ||| 1573906 = m) : Keeps m s (State.devWrite t x0 x1 x2) := by
  refine Keeps.step h ?_ hm
  unfold State.devWrite
  repeat' first
    | with_reducible exact Keeps.refl _ _
    | with_reducible apply State.devWriteFuel_keeps
    | with_reducible apply Keeps.ite
    | decide

theorem State.countQf_keeps {m : Nat} {s t : State} (h : Keeps m s t) (x0 : ℕ) (x1 : Sys2Proof.Machine.Counts) (hm : m ||| 2 = m) : Keeps m s (State.countQf t x0 x1) := by
  refine Keeps.step h ?_ hm
  unfold State.countQf
  repeat' first
    | with_reducible exact Keeps.refl _ _
    | with_reducible apply State.bump_keeps
    | with_reducible apply Keeps.ite
    | decide

theorem State.mxEmitFill_keeps {m : Nat} {s t : State} (h : Keeps m s t) (x0 : ℕ) (hm : m ||| 1538 = m) : Keeps m s (State.mxEmitFill t x0) := by
  refine Keeps.step h ?_ hm
  unfold State.mxEmitFill
  repeat' first
    | with_reducible exact Keeps.refl _ _
    | with_reducible apply State.bump_keeps
    | with_reducible apply State.modMx_keeps
    | with_reducible apply State.modEng_keeps
    | with_reducible apply Keeps.ite
    | decide

theorem State.loadResident_keeps {m : Nat} {s t : State} (h : Keeps m s t) (x0 : ℕ) (x1 : Sys2Proof.Machine.Desc) (x2 : Sys2Proof.Machine.Prof) (hm : m ||| 1042 = m) : Keeps m s (State.loadResident t x0 x1 x2) := by
  refine Keeps.step h ?_ hm
  unfold State.loadResident
  repeat' first
    | with_reducible exact Keeps.refl _ _
    | (with_reducible apply State.each_keeps <;> try (intros; beta_reduce))
    | with_reducible apply State.poke_keeps
    | with_reducible apply State.setFld_keeps
    | with_reducible apply State.modMx_keeps
    | with_reducible apply Keeps.ite
    | decide

theorem State.mxFail_keeps {m : Nat} {s t : State} (h : Keeps m s t) (x0 : ℕ) (x1 : ℕ) (x2 : ℕ) (hm : m ||| 1024 = m) : Keeps m s (State.mxFail t x0 x1 x2) := by
  refine Keeps.step h ?_ hm
  unfold State.mxFail
  repeat' first
    | with_reducible exact Keeps.refl _ _
    | with_reducible apply State.modMx_keeps
    | with_reducible apply Keeps.ite
    | decide

theorem State.mxTiles_keeps {m : Nat} {s t : State} (h : Keeps m s t) (x0 : ℕ) (hm : m ||| 1024 = m) : Keeps m s (State.mxTiles t x0) := by
  refine Keeps.step h ?_ hm
  unfold State.mxTiles
  repeat' first
    | with_reducible exact Keeps.refl _ _
    | with_reducible apply State.modMx_keeps
    | with_reducible apply Keeps.ite
    | decide

theorem State.mxFailRegs_keeps {m : Nat} {s t : State} (h : Keeps m s t) (x0 : ℕ) (x1 : Sys2Proof.Machine.Desc) (x2 : Sys2Proof.Machine.Chain) (hm : m ||| 2 = m) : Keeps m s (State.mxFailRegs t x0 x1 x2) := by
  refine Keeps.step h ?_ hm
  unfold State.mxFailRegs
  repeat' first
    | with_reducible exact Keeps.refl _ _
    | with_reducible apply State.setVal_keeps
    | with_reducible apply Keeps.ite
    | decide
    | split

theorem State.mxSend_keeps {m : Nat} {s t : State} (h : Keeps m s t) (x0 : ℕ) (x1 : ℕ) (x2 : List Sys2Proof.Byte) (hm : m ||| 1024 = m) : Keeps m s (State.mxSend t x0 x1 x2) := by
  refine Keeps.step h ?_ hm
  unfold State.mxSend
  repeat' first
    | with_reducible exact Keeps.refl _ _
    | with_reducible apply State.modMx_keeps
    | with_reducible apply Keeps.ite
    | decide

theorem State.mxWrite_keeps {m : Nat} {s t : State} (h : Keeps m s t) (x0 : ℕ) (x1 : ℕ) (x2 : List Sys2Proof.Byte) (hm : m ||| 1040 = m) : Keeps m s (State.mxWrite t x0 x1 x2) := by
  refine Keeps.step h ?_ hm
  unfold State.mxWrite
  repeat' first
    | with_reducible exact Keeps.refl _ _
    | with_reducible apply State.bufPoke_keeps
    | with_reducible apply State.mxSend_keeps
    | with_reducible apply Keeps.ite
    | decide
    | split

theorem State.writeOut_keeps {m : Nat} {s t : State} (h : Keeps m s t) (x0 : ℕ) (x1 : Sys2Proof.Machine.Desc) (x2 : Sys2Proof.Machine.Prof) (x3 : List (List Sys2Proof.Machine.Num)) (hm : m ||| 1042 = m) : Keeps m s (State.writeOut t x0 x1 x2 x3) := by
  refine Keeps.step h ?_ hm
  unfold State.writeOut
  repeat' first
    | with_reducible exact Keeps.refl _ _
    | with_reducible apply State.mxWrite_keeps
    | with_reducible apply State.countQf_keeps
    | (with_reducible apply Keeps.foldl <;> try (intros; beta_reduce))
    | with_reducible apply Keeps.ite
    | decide

theorem State.mxStopped_keeps {m : Nat} {s t : State} (h : Keeps m s t) (x0 : ℕ) (x1 : Sys2Proof.Machine.Desc) (x2 : Sys2Proof.Machine.Prof) (x3 : List (List Sys2Proof.Machine.Num)) (x4 : Sys2Proof.Machine.Stop) (hm : m ||| 1042 = m) : Keeps m s (State.mxStopped t x0 x1 x2 x3 x4) := by
  refine Keeps.step h ?_ hm
  unfold State.mxStopped
  repeat' first
    | with_reducible exact Keeps.refl _ _
    | with_reducible apply State.bump_keeps
    | with_reducible apply State.writeOut_keeps
    | with_reducible apply Keeps.ite
    | decide

theorem State.mxOk_keeps {m : Nat} {s t : State} (h : Keeps m s t) (x0 : ℕ) (x1 : ℕ) (hm : m ||| 1024 = m) : Keeps m s (State.mxOk t x0 x1) := by
  refine Keeps.step h ?_ hm
  unfold State.mxOk
  repeat' first
    | with_reducible exact Keeps.refl _ _
    | with_reducible apply State.modMx_keeps
    | with_reducible apply Keeps.ite
    | decide

theorem State.mxMultiply_keeps {m : Nat} {s t : State} (h : Keeps m s t) (x0 : ℕ) (x1 : ℕ) (x2 : Sys2Proof.Machine.Desc) (x3 : Sys2Proof.Machine.Prof) (hm : m ||| 1042 = m) : Keeps m s (State.mxMultiply t x0 x1 x2 x3) := by
  refine Keeps.step h ?_ hm
  unfold State.mxMultiply
  repeat' first
    | with_reducible exact Keeps.refl _ _
    | with_reducible apply State.mxFail_keeps
    | with_reducible apply State.loadResident_keeps
    | with_reducible apply State.mxTiles_keeps
    | with_reducible apply State.countQf_keeps
    | with_reducible apply State.bump_keeps
    | with_reducible apply State.mxFailRegs_keeps
    | (with_reducible apply State.each_keeps <;> try (intros; beta_reduce))
    | with_reducible apply State.mxStopped_keeps
    | with_reducible apply State.writeOut_keeps
    | with_reducible apply State.mxWrite_keeps
    | with_reducible apply State.mxOk_keeps
    | with_reducible apply Keeps.ite
    | decide
    | split
    | dsimp only

theorem State.mxEw_keeps {m : Nat} {s t : State} (h : Keeps m s t) (x0 : ℕ) (x1 : Sys2Proof.Machine.Desc) (x2 : Sys2Proof.Machine.Prof) (hm : m ||| 1042 = m) : Keeps m s (State.mxEw t x0 x1 x2) := by
  refine Keeps.step h ?_ hm
  unfold State.mxEw
  repeat' first
    | with_reducible exact Keeps.refl _ _
    | with_reducible apply State.mxFail_keeps
    | with_reducible apply State.mxOk_keeps
    | with_reducible apply State.writeOut_keeps
    | with_reducible apply State.mxTiles_keeps
    | with_reducible apply Keeps.ite
    | decide
    | split

theorem State.mxReduce_keeps {m : Nat} {s t : State} (h : Keeps m s t) (x0 : ℕ) (x1 : Sys2Proof.Machine.Desc) (x2 : Sys2Proof.Machine.Prof) (hm : m ||| 1042 = m) : Keeps m s (State.mxReduce t x0 x1 x2) := by
  refine Keeps.step h ?_ hm
  unfold State.mxReduce
  repeat' first
    | with_reducible exact Keeps.refl _ _
    | with_reducible apply State.mxFail_keeps
    | with_reducible apply State.mxOk_keeps
    | with_reducible apply State.writeOut_keeps
    | with_reducible apply State.mxTiles_keeps
    | with_reducible apply Keeps.ite
    | decide
    | split

theorem State.mxEncode_keeps {m : Nat} {s t : State} (h : Keeps m s t) (x0 : ℕ) (x1 : Sys2Proof.Machine.Desc) (x2 : Sys2Proof.Machine.Prof) (hm : m ||| 1554 = m) : Keeps m s (State.mxEncode t x0 x1 x2) := by
  refine Keeps.step h ?_ hm
  unfold State.mxEncode
  repeat' first
    | with_reducible exact Keeps.refl _ _
    | with_reducible apply State.mxFail_keeps
    | with_reducible apply State.mxWrite_keeps
    | with_reducible apply State.mxOk_keeps
    | with_reducible apply State.mxEmitFill_keeps
    | with_reducible apply State.modMx_keeps
    | with_reducible apply State.bump_keeps
    | with_reducible apply State.mxTiles_keeps
    | (with_reducible apply Keeps.foldl <;> try (intros; beta_reduce))
    | with_reducible apply Keeps.ite
    | decide
    | split

theorem State.mxGather_keeps {m : Nat} {s t : State} (h : Keeps m s t) (x0 : ℕ) (x1 : Sys2Proof.Machine.Desc) (x2 : Sys2Proof.Machine.Prof) (hm : m ||| 1042 = m) : Keeps m s (State.mxGather t x0 x1 x2) := by
  refine Keeps.step h ?_ hm
  unfold State.mxGather
  repeat' first
    | with_reducible exact Keeps.refl _ _
    | with_reducible apply State.mxFail_keeps
    | with_reducible apply State.writeOut_keeps
    | (with_reducible apply State.each_keeps <;> try (intros; beta_reduce))
    | with_reducible apply State.putRec_keeps
    | with_reducible apply State.mxOk_keeps
    | with_reducible apply State.bump_keeps
    | (with_reducible apply Keeps.foldl <;> try (intros; beta_reduce))
    | with_reducible apply Keeps.ite
    | decide

end Sys2Proof.Machine
end

