-- ==== Sys2Proof/Laws/KeepVcore.lean ====
section
/-! SUPPORT. What the operations of Machine/Vcore.lean can do (the relation of Laws/Keep.lean). -/

namespace Sys2Proof.Machine

theorem State.setVxState_keeps {m : Nat} {s t : State} (h : Keeps m s t) (x0 : ℕ) (x1 : ℕ) (x2 : ℕ) (hm : m ||| 2 = m) : Keeps m s (State.setVxState t x0 x1 x2) := by
  refine Keeps.step h ?_ hm
  unfold State.setVxState
  repeat' first
    | with_reducible exact Keeps.refl _ _
    | with_reducible apply State.setFld_keeps
    | with_reducible apply Keeps.ite
    | decide

theorem State.vxEnable_keeps {m : Nat} {s t : State} (h : Keeps m s t) (x0 : ℕ) (x1 : ℕ) (hm : m ||| 2050 = m) : Keeps m s (State.vxEnable t x0 x1) := by
  refine Keeps.step h ?_ hm
  unfold State.vxEnable
  repeat' first
    | with_reducible exact Keeps.refl _ _
    | with_reducible apply State.setVxState_keeps
    | with_reducible apply State.setFld_keeps
    | with_reducible apply State.modVx_keeps
    | with_reducible apply Keeps.ite
    | decide

theorem State.vxDisable_keeps {m : Nat} {s t : State} (h : Keeps m s t) (x0 : ℕ) (x1 : ℕ) (hm : m ||| 2 = m) : Keeps m s (State.vxDisable t x0 x1) := by
  refine Keeps.step h ?_ hm
  unfold State.vxDisable
  repeat' first
    | with_reducible exact Keeps.refl _ _
    | with_reducible apply State.setVxState_keeps
    | with_reducible apply State.setFld_keeps
    | with_reducible apply Keeps.ite
    | decide

theorem State.vxStopped_keeps {m : Nat} {s t : State} (h : Keeps m s t) (x0 : ℕ) (x1 : ℕ) (hm : m ||| 128 = m) : Keeps m s (State.vxStopped t x0 x1) := by
  refine Keeps.step h ?_ hm
  unfold State.vxStopped
  repeat' first
    | with_reducible exact Keeps.refl _ _
    | (with_reducible apply State.each_keeps <;> try (intros; beta_reduce))
    | with_reducible apply State.haltAtHarvest_keeps
    | with_reducible apply Keeps.ite
    | decide

theorem State.haltSoon_keeps {m : Nat} {s t : State} (h : Keeps m s t) (x0 : ℕ) (x1 : ℕ) (hm : m ||| 4294967426 = m) : Keeps m s (State.haltSoon t x0 x1) := by
  refine Keeps.step h ?_ hm
  unfold State.haltSoon
  repeat' first
    | with_reducible exact Keeps.refl _ _
    | with_reducible apply State.haltAtHarvest_keeps
    | with_reducible apply State.haltNow_keeps
    | with_reducible apply Keeps.ite
    | decide

theorem State.svcFault_keeps {m : Nat} {s t : State} (h : Keeps m s t) (x0 : ℕ) (hm : m ||| 4294967426 = m) : Keeps m s (State.svcFault t x0) := by
  refine Keeps.step h ?_ hm
  unfold State.svcFault
  repeat' first
    | with_reducible exact Keeps.refl _ _
    | with_reducible apply State.setStage_keeps
    | with_reducible apply State.setFld_keeps
    | (with_reducible apply State.each_keeps <;> try (intros; beta_reduce))
    | with_reducible apply State.haltSoon_keeps
    | with_reducible apply Keeps.ite
    | decide

theorem State.vxFault_keeps {m : Nat} {s t : State} (h : Keeps m s t) (x0 : ℕ) (x1 : ℕ) (x2 : ℕ) (x3 : ℕ) (hm : m ||| 4294969474 = m) : Keeps m s (State.vxFault t x0 x1 x2 x3) := by
  refine Keeps.step h ?_ hm
  unfold State.vxFault
  repeat' first
    | with_reducible exact Keeps.refl _ _
    | with_reducible apply State.setVal_keeps
    | with_reducible apply State.setFld_keeps
    | with_reducible apply State.bump_keeps
    | with_reducible apply State.vxStopped_keeps
    | with_reducible apply State.setVxState_keeps
    | with_reducible apply State.svcFault_keeps
    | with_reducible apply State.modVx_keeps
    | with_reducible apply Keeps.ite
    | decide

theorem State.vxFree_keeps {m : Nat} {s t : State} (h : Keeps m s t) (x0 : ℕ) (x1 : ℕ) (x2 : ℕ) (hm : m ||| 2048 = m) : Keeps m s (State.vxFree t x0 x1 x2) := by
  refine Keeps.step h ?_ hm
  unfold State.vxFree
  repeat' first
    | with_reducible exact Keeps.refl _ _
    | with_reducible apply State.modVx_keeps
    | with_reducible apply Keeps.ite
    | decide

theorem State.svcHalt_keeps {m : Nat} {s t : State} (h : Keeps m s t) (x0 : ℕ) (x1 : ℕ) (hm : m ||| 6146 = m) : Keeps m s (State.svcHalt t x0 x1) := by
  refine Keeps.step h ?_ hm
  unfold State.svcHalt
  repeat' first
    | with_reducible exact Keeps.refl _ _
    | with_reducible apply State.modVx_keeps
    | with_reducible apply State.setFld_keeps
    | (with_reducible apply State.each_keeps <;> try (intros; beta_reduce))
    | with_reducible apply State.stageReport_keeps
    | with_reducible apply Keeps.ite
    | decide

theorem State.svcRun_keeps {m : Nat} {s t : State} (h : Keeps m s t) (x0 : List ℕ) (x1 : ℕ) (x2 : ℕ) (x3 : ℕ) (x4 : Sys2Proof.SvcTook) (hm : m ||| 6290 = m) : Keeps m s (State.svcRun t x0 x1 x2 x3 x4) := by
  refine Keeps.step h ?_ hm
  unfold State.svcRun
  repeat' first
    | with_reducible exact Keeps.refl _ _
    | with_reducible apply State.bump_keeps
    | with_reducible apply State.modVx_keeps
    | with_reducible apply State.setFld_keeps
    | with_reducible apply State.stdService_keeps
    | with_reducible apply Keeps.ite
    | decide

theorem State.svcStart_keeps {m : Nat} {s t : State} (h : Keeps m s t) (x0 : ℕ) (x1 : ℕ) (x2 : ℕ) (x3 : ℕ) (x4 : ℕ) (hm : m ||| 2048 = m) : Keeps m s (State.svcStart t x0 x1 x2 x3 x4) := by
  refine Keeps.step h ?_ hm
  unfold State.svcStart
  repeat' first
    | with_reducible exact Keeps.refl _ _
    | with_reducible apply State.modVx_keeps
    | with_reducible apply Keeps.ite
    | decide

theorem State.serviceSignal_keeps {m : Nat} {s t : State} (h : Keeps m s t) (x0 : List ℕ) (x1 : ℕ) (x2 : ℕ) (x3 : ℕ) (x4 : Sys2Proof.SvcTook) (hm : m ||| 6290 = m) : Keeps m s (State.serviceSignal t x0 x1 x2 x3 x4) := by
  refine Keeps.step h ?_ hm
  unfold State.serviceSignal
  repeat' first
    | with_reducible exact Keeps.refl _ _
    | with_reducible apply State.svcRun_keeps
    | with_reducible apply State.setFld_keeps
    | with_reducible apply State.svcStart_keeps
    | with_reducible apply Keeps.ite
    | decide

end Sys2Proof.Machine
end

