-- ==== Sys2Proof/Laws/KeepSeam.lean ====
section
/-! SUPPORT. What the operations of Machine/Seam.lean can do (the relation of Laws/Keep.lean). -/

namespace Sys2Proof.Machine

theorem State.exported_keeps {m : Nat} {s t : State} (h : Keeps m s t) (x0 : ℕ) (x1 : List Sys2Proof.Machine.MFlit) (hm : m ||| 128 = m) : Keeps m s (State.exported t x0 x1) := by
  refine Keeps.step h ?_ hm
  unfold State.exported
  repeat' first
    | with_reducible exact Keeps.refl _ _
    | (with_reducible apply State.each_keeps <;> try (intros; beta_reduce))
    | with_reducible apply State.modWg_keeps
    | with_reducible apply Keeps.ite
    | decide
    | split

theorem State.ackFree_keeps {m : Nat} {s t : State} (h : Keeps m s t) (x0 : ℕ) (x1 : ℕ) (hm : m ||| 131200 = m) : Keeps m s (State.ackFree t x0 x1) := by
  refine Keeps.step h ?_ hm
  unfold State.ackFree
  repeat' first
    | with_reducible exact Keeps.refl _ _
    | (with_reducible apply State.each_keeps <;> try (intros; beta_reduce))
    | with_reducible apply State.exported_keeps
    | with_reducible apply State.modLane_keeps
    | with_reducible apply Keeps.ite
    | decide
    | split

theorem State.addCross_keeps {m : Nat} {s t : State} (h : Keeps m s t) (x0 : ℕ) (x1 : Sys2Proof.Machine.XRec) (hm : m ||| 33554432 = m) : Keeps m s (State.addCross t x0 x1) := by
  refine Keeps.step h ?_ hm
  unfold State.addCross
  repeat' first
    | with_reducible exact Keeps.refl _ _
    | with_reducible apply State.modSch_keeps
    | with_reducible apply Keeps.ite
    | decide

theorem State.seamTake_keeps {m : Nat} {s t : State} (h : Keeps m s t) (x0 : ℕ) (x1 : Sys2Proof.Machine.SBeat) (hm : m ||| 65536 = m) : Keeps m s (State.seamTake t x0 x1) := by
  refine Keeps.step h ?_ hm
  unfold State.seamTake
  repeat' first
    | with_reducible exact Keeps.refl _ _
    | with_reducible apply State.modSdir_keeps
    | with_reducible apply Keeps.ite
    | decide

theorem State.seamBeat_keeps {m : Nat} {s t : State} (h : Keeps m s t) (x0 : ℕ) (x1 : Sys2Proof.Machine.SBeat) (hm : m ||| 65538 = m) : Keeps m s (State.seamBeat t x0 x1) := by
  refine Keeps.step h ?_ hm
  unfold State.seamBeat
  repeat' first
    | with_reducible exact Keeps.refl _ _
    | with_reducible apply State.modSdir_keeps
    | with_reducible apply State.bump_keeps
    | with_reducible apply State.setVal_keeps
    | with_reducible apply Keeps.ite
    | decide

theorem State.updateCaps_keeps {m : Nat} {s t : State} (h : Keeps m s t) (hm : m ||| 2 = m) : Keeps m s (State.updateCaps t) := by
  refine Keeps.step h ?_ hm
  unfold State.updateCaps
  repeat' first
    | with_reducible exact Keeps.refl _ _
    | (with_reducible apply State.each_keeps <;> try (intros; beta_reduce))
    | with_reducible apply State.setVal_keeps
    | with_reducible apply Keeps.ite
    | decide

theorem State.cellDiscard_keeps {m : Nat} {s t : State} (h : Keeps m s t) (x0 : ℕ) (x1 : ℕ) (hm : m ||| 131072 = m) : Keeps m s (State.cellDiscard t x0 x1) := by
  refine Keeps.step h ?_ hm
  unfold State.cellDiscard
  repeat' first
    | with_reducible exact Keeps.refl _ _
    | with_reducible apply State.modLane_keeps
    | with_reducible apply Keeps.ite
    | decide

theorem State.imported_keeps {m : Nat} {s t : State} (h : Keeps m s t) (x0 : ℕ) (x1 : List Sys2Proof.Machine.MFlit) (hm : m ||| 128 = m) : Keeps m s (State.imported t x0 x1) := by
  refine Keeps.step h ?_ hm
  unfold State.imported
  repeat' first
    | with_reducible exact Keeps.refl _ _
    | (with_reducible apply State.each_keeps <;> try (intros; beta_reduce))
    | with_reducible apply State.modWg_keeps
    | with_reducible apply Keeps.ite
    | decide
    | split

theorem State.landCell_keeps {m : Nat} {s t : State} (h : Keeps m s t) (x0 : ℕ) (x1 : Sys2Proof.Machine.Cargo) (hm : m ||| 65666 = m) : Keeps m s (State.landCell t x0 x1) := by
  refine Keeps.step h ?_ hm
  unfold State.landCell
  repeat' first
    | with_reducible exact Keeps.refl _ _
    | with_reducible apply State.imported_keeps
    | with_reducible apply State.bump_keeps
    | with_reducible apply State.modSdir_keeps
    | with_reducible apply Keeps.ite
    | decide
    | split

theorem State.moveCross_keeps {m : Nat} {s t : State} (h : Keeps m s t) (x0 : ℕ) (hm : m ||| 33554432 = m) : Keeps m s (State.moveCross t x0) := by
  refine Keeps.step h ?_ hm
  unfold State.moveCross
  repeat' first
    | with_reducible exact Keeps.refl _ _
    | (with_reducible apply State.each_keeps <;> try (intros; beta_reduce))
    | with_reducible apply State.modSch_keeps
    | with_reducible apply Keeps.ite
    | decide

theorem State.newCell_keeps {m : Nat} {s t u : State} {d l v : Nat} {c : Cargo} (e : t.newCell d l v = some (c, u))
    (h : Keeps m s t) (hm : m ||| 196608 = m) : Keeps m s u := by
  refine h.step ?_ hm
  unfold State.newCell at e
  split at e
  · cases e
  · obtain ⟨_, -, e⟩ := Option.map_eq_some_iff.1 e
    obtain ⟨-, rfl⟩ := Prod.mk.inj e
    exact State.modLane_keeps (State.modSdir_keeps (Keeps.refl _ _) _ _ (by decide)) _ _ _ (by decide)

theorem State.nextCell_keeps {m : Nat} {s t u : State} {d l v : Nat} {c : Cargo} {b : Bool} (e : t.nextCell d l v = some (c, b, u))
    (h : Keeps m s t) (hm : m ||| 196608 = m) : Keeps m s u := by
  refine h.step ?_ hm
  unfold State.nextCell at e
  dsimp only at e
  split at e
  · have e := Option.some.inj e
    obtain ⟨-, e⟩ := Prod.mk.inj e
    obtain ⟨-, rfl⟩ := Prod.mk.inj e
    exact Keeps.refl _ _
  · obtain ⟨⟨_, _⟩, e', e⟩ := Option.map_eq_some_iff.1 e
    obtain ⟨-, e⟩ := Prod.mk.inj e
    obtain ⟨-, rfl⟩ := Prod.mk.inj e
    exact State.newCell_keeps e' (Keeps.refl _ _) (by decide)

theorem State.seamCell_keeps {m : Nat} {s t : State} (h : Keeps m s t) (x0 : ℕ) (x1 : ℕ) (x2 : ℕ) (x3 : Sys2Proof.CellFate) (hm : m ||| 196738 = m) : Keeps m s (State.seamCell t x0 x1 x2 x3).1 := by
  refine Keeps.step h ?_ hm
  unfold State.seamCell
  repeat' first
    | (with_reducible apply State.nextCell_keeps; assumption)
    | (with_reducible apply State.newCell_keeps; assumption)
    | with_reducible exact Keeps.refl _ _
    | (with_reducible apply State.newCell_keeps; assumption)
    | with_reducible apply State.cellDiscard_keeps
    | (with_reducible apply State.when_keeps <;> try (intros; beta_reduce))
    | with_reducible apply State.bump_keeps
    | (with_reducible apply State.nextCell_keeps; assumption)
    | with_reducible apply State.ackFree_keeps
    | with_reducible apply State.landCell_keeps
    | with_reducible apply State.modLane_keeps
    | with_reducible apply Keeps.ite
    | decide
    | split


theorem State.seamCredits_keeps {m : Nat} {s t : State} (h : Keeps m s t) (x0 : ℕ) (hm : m ||| 65536 = m) : Keeps m s (State.seamCredits t x0) := by
  refine Keeps.step h ?_ hm
  unfold State.seamCredits
  repeat' first
    | with_reducible exact Keeps.refl _ _
    | with_reducible apply State.modSdir_keeps
    | with_reducible apply Keeps.ite
    | decide

theorem State.seamDeliver_keeps {m : Nat} {s t : State} (h : Keeps m s t) (x0 : ℕ) (hm : m ||| 98304 = m) : Keeps m s (State.seamDeliver t x0) := by
  refine Keeps.step h ?_ hm
  unfold State.seamDeliver
  repeat' first
    | with_reducible exact Keeps.refl _ _
    | with_reducible apply State.modSdir_keeps
    | with_reducible apply State.modRt_keeps
    | with_reducible apply Keeps.ite
    | decide
    | split
    | dsimp only

theorem State.seamHold_keeps {m : Nat} {s t : State} (h : Keeps m s t) (x0 : ℕ) (hm : m ||| 65536 = m) : Keeps m s (State.seamHold t x0) := by
  refine Keeps.step h ?_ hm
  unfold State.seamHold
  repeat' first
    | with_reducible exact Keeps.refl _ _
    | with_reducible apply State.modSdir_keeps
    | with_reducible apply Keeps.ite
    | decide
    | split
    | dsimp only

theorem State.seamIdle_keeps {m : Nat} {s t : State} (h : Keeps m s t) (x0 : ℕ) (x1 : ℕ) (hm : m ||| 131200 = m) : Keeps m s (State.seamIdle t x0 x1) := by
  refine Keeps.step h ?_ hm
  unfold State.seamIdle
  repeat' first
    | with_reducible exact Keeps.refl _ _
    | with_reducible apply State.ackFree_keeps
    | with_reducible apply Keeps.ite
    | decide

theorem State.seamReplay_keeps {m : Nat} {s t : State} (h : Keeps m s t) (x0 : ℕ) (x1 : ℕ) (hm : m ||| 131202 = m) : Keeps m s (State.seamReplay t x0 x1) := by
  refine Keeps.step h ?_ hm
  unfold State.seamReplay
  repeat' first
    | with_reducible exact Keeps.refl _ _
    | with_reducible apply State.bump_keeps
    | with_reducible apply State.ackFree_keeps
    | with_reducible apply State.modLane_keeps
    | with_reducible apply Keeps.ite
    | decide

end Sys2Proof.Machine
end

