-- ==== Sys2Proof/Laws/KeepTrellis.lean ====
section
/-! SUPPORT. What the operations of Machine/Trellis.lean can do (the relation of Laws/Keep.lean). -/

namespace Sys2Proof.Machine

theorem State.seamDrop_keeps {m : Nat} {s t : State} (h : Keeps m s t) (x0 : Sys2Proof.Machine.SBeat → Bool) (hm : m ||| 65536 = m) : Keeps m s (State.seamDrop t x0) := by
  refine Keeps.step h ?_ hm
  unfold State.seamDrop
  repeat' first
    | with_reducible exact Keeps.refl _ _
    | (with_reducible apply State.each_keeps <;> try (intros; beta_reduce))
    | with_reducible apply State.modSdir_keeps
    | with_reducible apply Keeps.ite
    | decide

theorem State.pieceFree_keeps {m : Nat} {s t : State} (h : Keeps m s t) (x0 : ℕ) (x1 : Sys2Proof.Machine.Piece) (hm : m ||| 8388608 = m) : Keeps m s (State.pieceFree t x0 x1) := by
  refine Keeps.step h ?_ hm
  unfold State.pieceFree
  repeat' first
    | with_reducible exact Keeps.refl _ _
    | with_reducible apply State.arbFree_keeps
    | with_reducible apply State.arbLeave_keeps
    | with_reducible apply Keeps.ite
    | decide
    | split

theorem State.mxCut_keeps {m : Nat} {s t : State} (h : Keeps m s t) (x0 : ℕ) (x1 : ℕ) (hm : m ||| 8717312 = m) : Keeps m s (State.mxCut t x0 x1) := by
  refine Keeps.step h ?_ hm
  unfold State.mxCut
  repeat' first
    | with_reducible exact Keeps.refl _ _
    | with_reducible apply State.modMx_keeps
    | (with_reducible apply State.each_keeps <;> try (intros; beta_reduce))
    | with_reducible apply State.modXfer_keeps
    | with_reducible apply State.seamDrop_keeps
    | with_reducible apply State.pieceFree_keeps
    | with_reducible apply Keeps.ite
    | decide

theorem State.restartPieces_keeps {m : Nat} {s t : State} (h : Keeps m s t) (x0 : ℕ) (x1 : ℕ) (x2 : Sys2Proof.Machine.Piece → Sys2Proof.Machine.Piece) (hm : m ||| 327680 = m) : Keeps m s (State.restartPieces t x0 x1 x2) := by
  refine Keeps.step h ?_ hm
  unfold State.restartPieces
  repeat' first
    | with_reducible exact Keeps.refl _ _
    | with_reducible apply State.seamDrop_keeps
    | (with_reducible apply State.each_keeps <;> try (intros; beta_reduce))
    | with_reducible apply State.modXfer_keeps
    | with_reducible apply Keeps.ite
    | decide

theorem State.setPiece_keeps {m : Nat} {s t : State} (h : Keeps m s t) (x0 : ℕ) (x1 : ℕ) (x2 : Sys2Proof.Machine.Piece → Sys2Proof.Machine.Piece) (hm : m ||| 262144 = m) : Keeps m s (State.setPiece t x0 x1 x2) := by
  refine Keeps.step h ?_ hm
  unfold State.setPiece
  repeat' first
    | with_reducible exact Keeps.refl _ _
    | with_reducible apply State.modXfer_keeps
    | with_reducible apply Keeps.ite
    | decide

theorem State.setRefused_keeps {m : Nat} {s t : State} (h : Keeps m s t) (x0 : ℕ) (x1 : ℕ) (x2 : ℕ) (hm : m ||| 262144 = m) : Keeps m s (State.setRefused t x0 x1 x2) := by
  refine Keeps.step h ?_ hm
  unfold State.setRefused
  repeat' first
    | with_reducible exact Keeps.refl _ _
    | with_reducible apply State.setPiece_keeps
    | with_reducible apply Keeps.ite
    | decide

theorem State.quiesce_keeps {m : Nat} {s t : State} (h : Keeps m s t) (x0 : ℕ) (hm : m ||| 67108864 = m) : Keeps m s (State.quiesce t x0) := by
  refine Keeps.step h ?_ hm
  unfold State.quiesce
  repeat' first
    | with_reducible exact Keeps.refl _ _
    | with_reducible apply State.modHf_keeps
    | with_reducible apply Keeps.ite
    | decide

theorem State.resumeHalf_keeps {m : Nat} {s t : State} (h : Keeps m s t) (x0 : ℕ) (hm : m ||| 67108864 = m) : Keeps m s (State.resumeHalf t x0) := by
  refine Keeps.step h ?_ hm
  unfold State.resumeHalf
  repeat' first
    | with_reducible exact Keeps.refl _ _
    | with_reducible apply State.modHf_keeps
    | with_reducible apply Keeps.ite
    | decide

theorem State.setSch_keeps {m : Nat} {s t : State} (h : Keeps m s t) (x0 : ℕ) (x1 : ℕ) (hm : m ||| 2 = m) : Keeps m s (State.setSch t x0 x1) := by
  refine Keeps.step h ?_ hm
  unfold State.setSch
  repeat' first
    | with_reducible exact Keeps.refl _ _
    | with_reducible apply State.setFld_keeps
    | with_reducible apply Keeps.ite
    | decide

theorem State.schedStop_keeps {m : Nat} {s t : State} (h : Keeps m s t) (x0 : ℕ) (hm : m ||| 33554434 = m) : Keeps m s (State.schedStop t x0) := by
  refine Keeps.step h ?_ hm
  unfold State.schedStop
  repeat' first
    | with_reducible exact Keeps.refl _ _
    | with_reducible apply State.setFld_keeps
    | with_reducible apply State.modSch_keeps
    | with_reducible apply State.setSch_keeps
    | with_reducible apply Keeps.ite
    | decide

theorem State.beatRefuse_keeps {m : Nat} {s t : State} (h : Keeps m s t) (x0 : ℕ) (x1 : ℕ) (x2 : Sys2Proof.Machine.Xfer) (x3 : Sys2Proof.Machine.Piece) (x4 : ℕ) (hm : m ||| 8716288 = m) : Keeps m s (State.beatRefuse t x0 x1 x2 x3 x4) := by
  refine Keeps.step h ?_ hm
  unfold State.beatRefuse
  repeat' first
    | with_reducible exact Keeps.refl _ _
    | with_reducible apply State.seamDrop_keeps
    | with_reducible apply State.setRefused_keeps
    | with_reducible apply State.pieceFree_keeps
    | with_reducible apply Keeps.ite
    | decide

theorem State.refuseInto_keeps {m : Nat} {s t : State} (h : Keeps m s t) (x0 : ℕ → Bool) (hm : m ||| 8716290 = m) : Keeps m s (State.refuseInto t x0) := by
  refine Keeps.step h ?_ hm
  unfold State.refuseInto
  repeat' first
    | with_reducible exact Keeps.refl _ _
    | (with_reducible apply State.each_keeps <;> try (intros; beta_reduce))
    | with_reducible apply State.beatRefuse_keeps
    | with_reducible apply State.countRefused_keeps
    | with_reducible apply Keeps.ite
    | decide

theorem State.aliasBad_keeps {m : Nat} {s t : State} (h : Keeps m s t) (x0 : ℕ) (x1 : ℕ) (x2 : Sys2Proof.Machine.Xfer) (x3 : Sys2Proof.Machine.Piece) (hm : m ||| 8716290 = m) : Keeps m s (State.aliasBad t x0 x1 x2 x3) := by
  refine Keeps.step h ?_ hm
  unfold State.aliasBad
  repeat' first
    | with_reducible exact Keeps.refl _ _
    | with_reducible apply State.beatRefuse_keeps
    | with_reducible apply State.bankLineBad_keeps
    | with_reducible apply Keeps.ite
    | decide
    | split

theorem State.arriveAt_keeps {m : Nat} {s t : State} (h : Keeps m s t) (x0 : ℕ) (x1 : Sys2Proof.Machine.Beat) (hm : m ||| 2 = m) : Keeps m s (State.arriveAt t x0 x1).1 := by
  refine Keeps.step h ?_ hm
  unfold State.arriveAt
  repeat' first
    | with_reducible exact Keeps.refl _ _
    | with_reducible apply State.bump_keeps
    | with_reducible apply Keeps.ite
    | decide
    | split

theorem State.farLand_keeps {m : Nat} {s t u : State} {d l y p k n : Nat} {b : Beat} (e : t.farLand d l y p k = some (u, n, b))
    (h : Keeps m s t) (hm : m ||| 65538 = m) : Keeps m s u := by
  refine h.step ?_ hm
  clear h hm
  unfold State.farLand at e
  split at e
  · cases e
  · have k := fun (v w) => State.countHops_keeps (State.seamTake_keeps (Keeps.refl 65538 t) d v (by decide)) w (by decide)
    split at e
    · cases e
    dsimp only at e
    split at e
    · obtain ⟨rfl, -⟩ := Prod.mk.inj (Option.some.inj e)
      exact State.arriveAt_keeps (k _ _) _ _ (by decide)
    · obtain ⟨rfl, -⟩ := Prod.mk.inj (Option.some.inj e)
      exact k _ _

theorem State.launch_keeps {m : Nat} {s t : State} (h : Keeps m s t) (x0 : ℕ) (x1 : ℕ) (x2 : ℕ) (x3 : Sys2Proof.Machine.Beat) (x4 : ℕ) (x5 : ℕ) (hm : m ||| 65538 = m) : Keeps m s (State.launch t x0 x1 x2 x3 x4 x5).1 := by
  refine Keeps.step h ?_ hm
  unfold State.launch
  repeat' first
    | with_reducible exact Keeps.refl _ _
    | with_reducible apply State.countHops_keeps
    | with_reducible apply State.bump_keeps
    | with_reducible apply State.arriveAt_keeps
    | with_reducible apply State.seamBeat_keeps
    | with_reducible apply Keeps.ite
    | decide
    | split
    | dsimp only

theorem State.carry_keeps {m : Nat} {s t : State} {v : Option Nat} {a d l f y p : Nat} {b : Beat} {r : State × Nat}
    (e : t.carry v a d l f b y p = some r) (h : Keeps m s t) (hm : m ||| 65538 = m) : Keeps m s r.1 := by
  refine h.step ?_ hm
  clear h hm
  unfold State.carry at e
  split at e
  · obtain rfl := Option.some.inj e
    exact Keeps.refl _ _
  · split at e
    · obtain ⟨⟨u, n, w⟩, hu, rfl⟩ := Option.map_eq_some_iff.1 e
      exact State.farLand_keeps hu (Keeps.refl _ _) (by decide)
    · split at e
      · obtain rfl := Option.some.inj e
        exact State.launch_keeps (Keeps.refl _ _) _ _ _ _ _ _ (by decide)
      · cases e

theorem State.xferCut_keeps {m : Nat} {s t : State} (h : Keeps m s t) (x0 : ℕ) (hm : m ||| 12386322 = m) : Keeps m s (State.xferCut t x0) := by
  refine Keeps.step h ?_ hm
  unfold State.xferCut
  repeat' first
    | with_reducible exact Keeps.refl _ _
    | with_reducible apply State.seamDrop_keeps
    | with_reducible apply State.dropReq_keeps
    | with_reducible apply State.modXfer_keeps
    | (with_reducible apply State.each_keeps <;> try (intros; beta_reduce))
    | with_reducible apply State.pieceFree_keeps
    | with_reducible apply Keeps.ite
    | decide

theorem State.mxFeedFuel_keeps {m : Nat} {s t : State} (h : Keeps m s t) (x0 : ℕ) (x1 : ℕ) (hm : m ||| 263168 = m) : Keeps m s (State.mxFeedFuel t x0 x1) := by
  refine Keeps.step h ?_ hm
  clear h hm
  induction x1 generalizing t with
  | zero => exact Keeps.refl _ _
  | succ n ih =>
    unfold State.mxFeedFuel
    split
    · exact (State.modXfer_keeps (State.modMx_keeps (Keeps.refl _ _) _ _ (by decide)) _ _ (by decide)).trans ih
    · exact Keeps.refl _ _

theorem State.mxFeed_keeps {m : Nat} {s t : State} (h : Keeps m s t) (x0 : ℕ) (hm : m ||| 263168 = m) : Keeps m s (State.mxFeed t x0) := by
  refine Keeps.step h ?_ hm
  unfold State.mxFeed
  repeat' first
    | with_reducible exact Keeps.refl _ _
    | with_reducible apply State.mxFeedFuel_keeps
    | with_reducible apply Keeps.ite
    | decide

theorem State.xferFail_keeps {m : Nat} {s t : State} (h : Keeps m s t) (x0 : ℕ) (x1 : ℕ) (x2 : ℕ) (hm : m ||| 4307356818 = m) : Keeps m s (State.xferFail t x0 x1 x2) := by
  refine Keeps.step h ?_ hm
  unfold State.xferFail
  repeat' first
    | with_reducible exact Keeps.refl _ _
    | with_reducible apply State.modXfer_keeps
    | with_reducible apply State.xferCut_keeps
    | with_reducible apply State.setVal_keeps
    | with_reducible apply State.vxFault_keeps
    | with_reducible apply State.vxFree_keeps
    | with_reducible apply State.mxFeed_keeps
    | with_reducible apply State.mxFailAt_keeps
    | with_reducible apply State.mxCut_keeps
    | with_reducible apply Keeps.ite
    | decide
    | split

theorem State.answerTaken_keeps {m : Nat} {s t : State} (h : Keeps m s t) (k : Nat) (x : Xfer) (p : Piece) (err : BeatErr) (f : State → State)
    (hf : ∀ u, Keeps m u (f u)) (hm : m ||| 4307356818 = m) : Keeps m s (t.answerTaken k x p err f) := by
  refine h.trans ?_
  have hb : ∀ r i, Keeps 4307356818 t (t.bump r i) := fun r i => State.bump_keeps (Keeps.refl _ _) _ _ _ (by decide)
  unfold State.answerTaken
  split
  · exact (State.xferFail_keeps (hb _ _) _ _ _ (by decide)).mono hm
  · exact ((hb _ _).mono hm).trans (hf _)
  · exact hf _

theorem State.answer_keeps {m : Nat} {s t : State} (h : Keeps m s t) (y k l : Nat) (x : Xfer) (p : Piece) (b : Beat) (err : BeatErr)
    (f : State → State) (hf : ∀ u, Keeps m u (f u)) (hm : m ||| 4307356818 = m) : Keeps m s (t.answer y k l x p b err f) := by
  refine h.trans ?_
  have hk : ∀ {v : State} (g), Keeps 4307356818 t v → Keeps 4307356818 t (v.setPiece y k g) := fun g h => State.setPiece_keeps h _ _ _ (by decide)
  unfold State.answer
  split
  · rename_i v e
    have a : Keeps m t (v.setPiece y k fun p => { p with fly := 0 }) := (hk _ (State.carry_keeps e (Keeps.refl 4307356818 t) (by decide))).mono hm
    refine a.trans ?_
    exact State.answerTaken_keeps (Keeps.refl _ _) _ _ _ _ _ hf (by rw [← hm, Nat.or_assoc]; rfl)
  · rename_i e
    exact (hk _ (State.carry_keeps e (Keeps.refl 4307356818 t) (by decide))).mono hm
  · exact Keeps.refl _ _

theorem State.schedStart_keeps {m : Nat} {s t : State} (h : Keeps m s t) (x0 : ℕ) (hm : m ||| 33554434 = m) : Keeps m s (State.schedStart t x0) := by
  refine Keeps.step h ?_ hm
  unfold State.schedStart
  repeat' first
    | with_reducible exact Keeps.refl _ _
    | with_reducible apply State.modSch_keeps
    | (with_reducible apply State.each_keeps <;> try (intros; beta_reduce))
    | with_reducible apply State.setVal_keeps
    | with_reducible apply State.addCross_keeps
    | with_reducible apply State.setSch_keeps
    | with_reducible apply State.setFld_keeps
    | with_reducible apply Keeps.ite
    | decide

theorem State.pieceGranted_keeps {m : Nat} {s t : State} (h : Keeps m s t) (x0 : ℕ) (x1 : ℕ) (hm : m ||| 8650752 = m) : Keeps m s (State.pieceGranted t x0 x1) := by
  refine Keeps.step h ?_ hm
  unfold State.pieceGranted
  repeat' first
    | with_reducible exact Keeps.refl _ _
    | with_reducible apply State.arbLeave_keeps
    | with_reducible apply State.setPiece_keeps
    | with_reducible apply State.arbGrantHeld_keeps
    | with_reducible apply Keeps.ite
    | decide
    | split

theorem State.arbGrant_keeps {m : Nat} {s t : State} (h : Keeps m s t) (x0 : List ℕ) (x1 : ℕ) (x2 : ℕ) (hm : m ||| 10224274 = m) : Keeps m s (State.arbGrant t x0 x1 x2) := by
  refine Keeps.step h ?_ hm
  unfold State.arbGrant
  repeat' first
    | with_reducible exact Keeps.refl _ _
    | with_reducible apply State.arbLoss_keeps
    | with_reducible apply State.arbReserve_keeps
    | with_reducible apply State.pieceGranted_keeps
    | with_reducible apply State.sinkGranted_keeps
    | with_reducible apply Keeps.ite
    | decide
    | split

theorem State.backoffDone_keeps {m : Nat} {s t : State} (h : Keeps m s t) (x0 : ℕ) (x1 : ℕ) (x2 : ℕ) (hm : m ||| 327682 = m) : Keeps m s (State.backoffDone t x0 x1 x2) := by
  refine Keeps.step h ?_ hm
  unfold State.backoffDone
  dsimp only
  repeat' first
    | (with_reducible apply State.carry_keeps; assumption)
    | with_reducible exact Keeps.refl _ _
    | with_reducible apply State.setPiece_keeps
    | with_reducible apply Keeps.ite
    | decide
    | split


theorem State.beatLost_keeps {m : Nat} {s t : State} (h : Keeps m s t) (x0 : ℕ) (x1 : Sys2Proof.Machine.Xfer) (x2 : Sys2Proof.Machine.Piece) (hm : m ||| 4307356818 = m) : Keeps m s (State.beatLost t x0 x1 x2) := by
  refine Keeps.step h ?_ hm
  unfold State.beatLost
  repeat' first
    | with_reducible exact Keeps.refl _ _
    | with_reducible apply State.xferFail_keeps
    | with_reducible apply State.bump_keeps
    | with_reducible apply Keeps.ite
    | decide

theorem State.msgBeat_keeps {m : Nat} {s t : State} (h : Keeps m s t) (x0 : ℕ) (x1 : Sys2Proof.Machine.Xfer) (x2 : List Sys2Proof.Byte) (hm : m ||| 524288 = m) : Keeps m s (State.msgBeat t x0 x1 x2) := by
  refine Keeps.step h ?_ hm
  unfold State.msgBeat
  repeat' first
    | with_reducible exact Keeps.refl _ _
    | with_reducible apply State.modChan_keeps
    | with_reducible apply Keeps.ite
    | decide

theorem State.locPoke_keeps {m : Nat} {s t : State} (h : Keeps m s t) (x0 : Sys2Proof.Machine.XOwn) (x1 : ℕ) (x2 : List Sys2Proof.Byte) (hm : m ||| 2147484688 = m) : Keeps m s (State.locPoke t x0 x1 x2) := by
  refine Keeps.step h ?_ hm
  unfold State.locPoke
  split
  · exact State.poke_keeps (Keeps.refl _ _) _ _ (by decide)
  · exact (Keeps.refl _ _).step (Keeps.staging_ _ fun w => mwf_pokeMem w _ _) (by decide)
  · exact State.modMx_keeps (Keeps.refl _ _) _ _ (by decide)
  · exact Keeps.refl _ _

theorem State.landBeat_keeps {m : Nat} {s t : State} (h : Keeps m s t) (x0 : ℕ) (x1 : ℕ) (x2 : Sys2Proof.Machine.Xfer) (x3 : Sys2Proof.Machine.Piece) (x4 : List Sys2Proof.Byte) (hm : m ||| 2149319698 = m) : Keeps m s (State.landBeat t x0 x1 x2 x3 x4) := by
  refine Keeps.step h ?_ hm
  unfold State.landBeat
  repeat' first
    | with_reducible exact Keeps.refl _ _
    | with_reducible apply State.msgBeat_keeps
    | with_reducible apply State.observe_keeps
    | with_reducible apply State.lineWrite_keeps
    | with_reducible apply State.locPoke_keeps
    | with_reducible apply State.setPiece_keeps
    | with_reducible apply Keeps.ite
    | decide

theorem State.lineCorr_keeps {m : Nat} {s t : State} (h : Keeps m s t) (x0 : ℕ) (x1 : Sys2Proof.BeatErr) (hm : m ||| 2 = m) : Keeps m s (State.lineCorr t x0 x1) := by
  refine Keeps.step h ?_ hm
  unfold State.lineCorr
  repeat' first
    | with_reducible exact Keeps.refl _ _
    | with_reducible apply State.bump_keeps
    | with_reducible apply State.dmCount_keeps
    | with_reducible apply Keeps.ite
    | decide
    | split

theorem State.beatArrive_keeps {m : Nat} {s t : State} (h : Keeps m s t) (x0 : ℕ) (x1 : ℕ) (x2 : Sys2Proof.Machine.Xfer) (x3 : Sys2Proof.Machine.Piece) (x4 : Sys2Proof.BeatErr) (x5 : Sys2Proof.Machine.Beat) (hm : m ||| 6454840466 = m) : Keeps m s (State.beatArrive t x0 x1 x2 x3 x4 x5) := by
  refine Keeps.step h ?_ hm
  unfold State.beatArrive
  repeat' first
    | with_reducible exact Keeps.refl _ _
    | with_reducible apply State.beatRefuse_keeps
    | with_reducible apply State.bump_keeps
    | with_reducible apply State.beatLost_keeps
    | with_reducible apply State.aliasBad_keeps
    | with_reducible apply State.landBeat_keeps
    | with_reducible apply State.lineCorr_keeps
    | with_reducible apply Keeps.ite
    | decide

theorem State.beatCells_keeps {m : Nat} {s t : State} (h : Keeps m s t) (x0 : ℕ) (x1 : ℕ) (x2 : Sys2Proof.Machine.Xfer) (x3 : Sys2Proof.Machine.Piece) (x4 : Bool) (hm : m ||| 4303683714 = m) : Keeps m s (State.beatCells t x0 x1 x2 x3 x4) := by
  refine Keeps.step h ?_ hm
  unfold State.beatCells
  repeat' first
    | with_reducible exact Keeps.refl _ _
    | with_reducible apply State.beatRefuse_keeps
    | with_reducible apply State.dmBad_keeps
    | with_reducible apply Keeps.ite
    | decide
    | split

theorem State.sourceBad_keeps {m : Nat} {s t : State} (h : Keeps m s t) (x0 : ℕ) (x1 : Sys2Proof.Machine.Xfer) (hm : m ||| 4307355794 = m) : Keeps m s (State.sourceBad t x0 x1) := by
  refine Keeps.step h ?_ hm
  unfold State.sourceBad
  repeat' first
    | with_reducible exact Keeps.refl _ _
    | with_reducible apply State.vxFault_keeps
    | with_reducible apply State.modXfer_keeps
    | with_reducible apply State.vxFree_keeps
    | with_reducible apply State.xferCut_keeps
    | with_reducible apply Keeps.ite
    | decide
    | split

theorem State.lineLeaves_keeps {m : Nat} {s t : State} (h : Keeps m s t) (x0 : ℕ) (x1 : Sys2Proof.BeatErr) (hm : m ||| 2 = m) : Keeps m s (State.lineLeaves t x0 x1).1 := by
  refine Keeps.step h ?_ hm
  unfold State.lineLeaves
  repeat' first
    | with_reducible exact Keeps.refl _ _
    | with_reducible apply State.bankLineBad_keeps
    | with_reducible apply State.lineCorr_keeps
    | with_reducible apply Keeps.ite
    | decide
    | split

theorem State.readStops_keeps {m : Nat} {s t u : State} {k i : Nat} {x : Xfer} {p : Piece} {b : BeatErr} (e : t.readStops k i x p b = some u)
    (h : Keeps m s t) (hm : m ||| 4303683714 = m) : Keeps m s u := by
  refine h.step ?_ hm
  unfold State.readStops at e
  split at e
  · obtain rfl := Option.some.inj e
    exact State.beatCells_keeps (Keeps.refl _ _) _ _ _ _ _ (by decide)
  · obtain rfl := Option.some.inj e
    exact State.beatCells_keeps (Keeps.refl _ _) _ _ _ _ _ (by decide)
  · cases e

theorem State.beatLeave_keeps {m : Nat} {s t : State} (h : Keeps m s t) (x0 : ℕ) (x1 : ℕ) (x2 : ℕ) (x3 : Sys2Proof.Machine.Xfer) (x4 : Sys2Proof.Machine.Piece) (x5 : Sys2Proof.BeatErr) (hm : m ||| 6454840466 = m) : Keeps m s (State.beatLeave t x0 x1 x2 x3 x4 x5) := by
  refine Keeps.step h ?_ hm
  clear h hm
  unfold State.beatLeave
  have l : Keeps 6454840466 t (if x3.write then (t, false) else t.lineLeaves (x4.a + x4.sent) x5).1 := by
    split
    · exact Keeps.refl _ _
    · exact State.lineLeaves_keeps (Keeps.refl _ _) _ _ (by decide)
  dsimp only
  refine Keeps.ite (Keeps.refl _ _) (Keeps.ite (State.sourceBad_keeps (Keeps.refl _ _) _ _ (by decide)) ?_)
  split
  · exact Keeps.refl _ _
  · rename_i e
    have r := State.carry_keeps e l (by decide)
    split
    · rename_i e'
      split at e'
      · cases e'
      · exact State.readStops_keeps e' (Keeps.refl _ _) (by decide)
    · have g : ∀ f, Keeps 6454840466 t (State.setPiece (if x3.write then _ else _) x0 x1 f) := fun f =>
        State.setPiece_keeps (Keeps.ite r (State.countRead_keeps r (x4.a + x4.sent) (by decide))) _ _ _ (by decide)
      split
      · exact g _
      · split
        · exact State.beatArrive_keeps (g _) _ _ _ _ _ _ (by decide)
        · exact State.setPiece_keeps (g _) _ _ _ (by decide)

theorem State.brokenFail_keeps {m : Nat} {s t : State} (h : Keeps m s t) (hm : m ||| 4307356818 = m) : Keeps m s (State.brokenFail t) := by
  refine Keeps.step h ?_ hm
  unfold State.brokenFail
  repeat' first
    | with_reducible exact Keeps.refl _ _
    | (with_reducible apply State.each_keeps <;> try (intros; beta_reduce))
    | with_reducible apply State.xferFail_keeps
    | with_reducible apply Keeps.ite
    | decide

theorem State.xferStart_keeps {m : Nat} {s t u : State} {x : Xfer} {i : Nat} (e : t.xferStart x = some (i, u)) (h : Keeps m s t)
    (hm : m ||| 262144 = m) : Keeps m s u := by
  refine h.step ?_ hm
  unfold State.xferStart at e
  obtain ⟨a, -, e⟩ := Option.map_eq_some_iff.1 e
  obtain ⟨-, rfl⟩ := Prod.mk.inj e
  exact State.modXfer_keeps (Keeps.refl _ _) _ _ (by decide)

theorem mwf_joinMaps {a : List (Nat × Nat)} (h : mwf a = true) (b : List (Nat × Nat)) : mwf (joinMaps a b) = true :=
  mwf_foldl h _ _ fun _ _ hm => mwf_mput hm _ _

theorem mwf_butOf {a : List (Nat × Nat)} (h : mwf a = true) (ks : List Nat) : mwf (butOf a ks) = true := mwf_filter h _

theorem mwf_writeSlot {a : List (Nat × Nat)} (h : mwf a = true) (n : Nat) (f : TField) : mwf (writeSlot a n f) = true := by
  cases f with
  | out _ _ _ _ => unfold writeSlot; exact mwf_mmod h _ _
  | map _ _ _ => exact h

theorem mwf_writeSmap {a : List (Nat × Nat)} (h : mwf a = true) (n : Nat) (f : TField) : mwf (writeSmap a n f) = true := by
  cases f with
  | out _ _ _ _ => exact h
  | map _ _ _ => unfold writeSmap; exact mwf_mput h _ _

theorem mwf_clearSlot {a : List (Nat × Nat)} (h : mwf a = true) (f : TField) : mwf (clearSlot a f) = true := by
  cases f with
  | out _ _ _ _ => unfold clearSlot; exact mwf_mmod h _ _
  | map _ _ _ => exact h

theorem mwf_clearSmap {a : List (Nat × Nat)} (h : mwf a = true) (f : TField) : mwf (clearSmap a f) = true := by
  cases f with
  | out _ _ _ _ => exact h
  | map _ _ _ => unfold clearSmap; exact mwf_mput h _ _

theorem State.copyTables_keeps {m : Nat} {s t : State} (h : Keeps m s t) (x0 : List ℕ) (x1 : List ℕ) (hm : m ||| 1342177280 = m) : Keeps m s (State.copyTables t x0 x1) := by
  refine Keeps.step h ?_ hm
  unfold State.copyTables
  exact ((Keeps.refl _ _).slotB_p _ (fun h => mwf_joinMaps (mwf_butOf h _) _) (by decide)).smapB_p _
    (fun h => mwf_joinMaps (mwf_butOf h _) _) (by decide)

theorem State.tload_keeps {m : Nat} {s t : State} (h : Keeps m s t) (x0 : ℕ) (hm : m ||| 1375731712 = m) : Keeps m s (State.tload t x0) := by
  refine Keeps.step h ?_ hm
  unfold State.tload
  dsimp only
  split
  · exact Keeps.refl _ _
  · split
    · exact Keeps.refl _ _
    · refine State.modSch_keeps ?_ _ _ (by decide)
      refine Keeps.smapB_p (Keeps.slotB_p ?_ _ (fun h => mwf_writeSlot h _ _) (by decide)) _ (fun h => mwf_writeSmap h _ _) (by decide)
      exact Keeps.ite (State.copyTables_keeps (Keeps.refl _ _) _ _ (by decide)) (Keeps.refl _ _)

theorem State.dataBeat_keeps {m : Nat} {s t : State} (h : Keeps m s t) (x0 : ℕ) (x1 : ℕ) (x2 : ℕ) (x3 : Sys2Proof.BeatErr) (hm : m ||| 6454840466 = m) : Keeps m s (State.dataBeat t x0 x1 x2 x3) := by
  refine Keeps.step h ?_ hm
  clear h hm
  unfold State.dataBeat
  dsimp only
  split
  · exact Keeps.refl _ _
  · split
    · exact Keeps.refl _ _
    · split
      · rename_i e
        split at e
        · exact Keeps.ite (State.farLand_keeps e (Keeps.refl _ _) (by decide))
            (State.beatArrive_keeps (State.farLand_keeps e (Keeps.refl _ _) (by decide)) _ _ _ _ _ _ (by decide))
        · cases e
      · rename_i e
        split at e
        · exact State.setPiece_keeps (State.farLand_keeps e (Keeps.refl _ _) (by decide)) _ _ _ (by decide)
        · cases e
      · exact State.beatLeave_keeps (Keeps.refl _ _) _ _ _ _ _ _ (by decide)

theorem State.remask_keeps {m : Nat} {s t : State} (h : Keeps m s t) (hm : m ||| 536870912 = m) : Keeps m s (State.remask t) := by
  refine Keeps.step h ?_ hm
  unfold State.remask
  repeat' first
    | with_reducible exact Keeps.refl _ _
    | (with_reducible apply State.each_keeps <;> try (intros; beta_reduce))
    | with_reducible apply Keeps.ite
    | decide
    | split
    | dsimp only
    | (intro h; first | exact mwf_mput h _ _ | exact mwf_mmod h _ _ | exact mwf_filter h _ | exact mwf_mclear h _ _ | exact mwf_pokeMem h _ _ | rfl)
    | (with_reducible apply Keeps.smapA_p)

theorem State.suspHalves_keeps {m : Nat} {s t : State} (h : Keeps m s t) (x0 : ℕ) (hm : m ||| 33554432 = m) : Keeps m s (State.suspHalves t x0) := by
  refine Keeps.step h ?_ hm
  unfold State.suspHalves
  repeat' first
    | with_reducible exact Keeps.refl _ _
    | (with_reducible apply State.each_keeps <;> try (intros; beta_reduce))
    | with_reducible apply State.modSch_keeps
    | with_reducible apply Keeps.ite
    | decide

theorem State.swapTables_keeps {m : Nat} {s t : State} (h : Keeps m s t) (x0 : List ℕ) (x1 : List ℕ) (hm : m ||| 2013265922 = m) : Keeps m s (State.swapTables t x0 x1) := by
  refine Keeps.step h ?_ hm
  unfold State.swapTables
  refine Keeps.each ?_ _ _ fun u c => State.setFld_keeps (Keeps.refl _ _) _ _ _ _ (by decide)
  exact ((((Keeps.refl _ _).slotA_p _ (fun h => mwf_joinMaps (mwf_butOf h _) _) (by decide)).slotB_p _
    (fun h => mwf_joinMaps (mwf_butOf h _) _) (by decide)).smapA_p _ (fun h => mwf_joinMaps (mwf_butOf h _) _) (by decide)).smapB_p _
    (fun h => mwf_joinMaps (mwf_butOf h _) _) (by decide)

theorem State.schedFrame_keeps {m : Nat} {s t : State} (h : Keeps m s t) (x0 : ℕ) (x1 : ℕ) (hm : m ||| 2046820354 = m) : Keeps m s (State.schedFrame t x0 x1) := by
  refine Keeps.step h ?_ hm
  unfold State.schedFrame
  repeat' first
    | with_reducible exact Keeps.refl _ _
    | with_reducible apply State.modSch_keeps
    | with_reducible apply State.setSch_keeps
    | with_reducible apply State.remask_keeps
    | with_reducible apply State.swapTables_keeps
    | with_reducible apply Keeps.ite
    | decide
    | split

theorem State.throttleFrame_keeps {m : Nat} {s t : State} (h : Keeps m s t) (x0 : ℕ) (hm : m ||| 65536 = m) : Keeps m s (State.throttleFrame t x0) := by
  refine Keeps.step h ?_ hm
  unfold State.throttleFrame
  repeat' first
    | with_reducible exact Keeps.refl _ _
    | with_reducible apply State.modSdir_keeps
    | with_reducible apply Keeps.ite
    | decide

theorem State.frameBoundary_keeps {m : Nat} {s t : State} (h : Keeps m s t) (x0 : ℕ) (hm : m ||| 2114027522 = m) : Keeps m s (State.frameBoundary t x0) := by
  refine Keeps.step h ?_ hm
  unfold State.frameBoundary
  repeat' first
    | with_reducible exact Keeps.refl _ _
    | with_reducible apply State.suspHalves_keeps
    | with_reducible apply State.bump_keeps
    | (with_reducible apply State.each_keeps <;> try (intros; beta_reduce))
    | with_reducible apply State.schedFrame_keeps
    | with_reducible apply State.setFld_keeps
    | with_reducible apply State.fresetMark_keeps
    | with_reducible apply State.throttleFrame_keeps
    | with_reducible apply State.modHf_keeps
    | with_reducible apply Keeps.ite
    | decide

theorem State.handleSend_keeps {m : Nat} {s t : State} (h : Keeps m s t) (x0 : ℕ) (hm : m ||| 4295229442 = m) : Keeps m s (State.handleSend t x0) := by
  refine Keeps.step h ?_ hm
  unfold State.handleSend
  repeat' first
    | with_reducible exact Keeps.refl _ _
    | with_reducible apply State.bump_keeps
    | with_reducible apply State.setVal_keeps
    | with_reducible apply State.modXfer_keeps
    | with_reducible apply State.modGp_keeps
    | with_reducible apply Keeps.ite
    | decide

theorem State.msgAnswer_keeps {m : Nat} {s t : State} (h : Keeps m s t) (x0 : ℕ) (x1 : ℕ) (x2 : ℕ) (x3 : Sys2Proof.Machine.Xfer) (x4 : Sys2Proof.Machine.Piece) (x5 : Sys2Proof.BeatErr) (hm : m ||| 4307356818 = m) : Keeps m s (State.msgAnswer t x0 x1 x2 x3 x4 x5) := by
  refine Keeps.step h ?_ hm
  unfold State.msgAnswer
  repeat' first
    | with_reducible exact Keeps.refl _ _
    | (with_reducible apply State.answer_keeps <;> try (intros; beta_reduce))
    | with_reducible apply State.setPiece_keeps
    | with_reducible apply State.modXfer_keeps
    | with_reducible apply Keeps.ite
    | decide

theorem State.requestDiscarded_keeps {m : Nat} {s t : State} (h : Keeps m s t) (x0 : ℕ) (x1 : ℕ) (x2 : Sys2Proof.Machine.Xfer) (x3 : Sys2Proof.Machine.Piece) (hm : m ||| 262146 = m) : Keeps m s (State.requestDiscarded t x0 x1 x2 x3) := by
  refine Keeps.step h ?_ hm
  unfold State.requestDiscarded
  repeat' first
    | with_reducible exact Keeps.refl _ _
    | with_reducible apply State.setPiece_keeps
    | with_reducible apply State.setVal_keeps
    | with_reducible apply State.bump_keeps
    | with_reducible apply Keeps.ite
    | decide

theorem State.pieceEnds_keeps {m : Nat} {s t : State} (h : Keeps m s t) (x0 : ℕ) (x1 : ℕ) (x2 : Sys2Proof.Machine.Xfer) (x3 : Sys2Proof.Machine.Piece) (hm : m ||| 8651776 = m) : Keeps m s (State.pieceEnds t x0 x1 x2 x3) := by
  refine Keeps.step h ?_ hm
  unfold State.pieceEnds
  repeat' first
    | with_reducible exact Keeps.refl _ _
    | with_reducible apply State.arbFree_keeps
    | with_reducible apply State.modXfer_keeps
    | with_reducible apply State.mxFeed_keeps
    | with_reducible apply Keeps.ite
    | decide
    | split

theorem State.pieceIssue_keeps {m : Nat} {s t : State} (h : Keeps m s t) (x0 : ℕ) (x1 : ℕ) (hm : m ||| 4307356818 = m) : Keeps m s (State.pieceIssue t x0 x1) := by
  refine Keeps.step h ?_ hm
  clear h hm
  unfold State.pieceIssue
  dsimp only
  have send : ∀ (p : Piece) q, Keeps 4307356818 t (match
      (if (t.getXfer x0).handle ≠ 0 then t.handleSend x0 else t).carry (t.getXfer x0).svc (t.getXfer x0).ep q x1 0
        ((if (t.getXfer x0).handle ≠ 0 then t.handleSend x0 else t).requestBeat x0 (t.getXfer x0) p) x0 (t.getXfer x0).nextAt with
      | some r => r.1.modXfer x0 fun x => { x with issued := x.issued + p.n, pieces := x.pieces ++ [{ p with fly := r.2 }] }
      | none => if (t.getXfer x0).handle ≠ 0 then t.handleSend x0 else t) := by
    intro p q
    have k : Keeps 4307356818 t (if (t.getXfer x0).handle ≠ 0 then t.handleSend x0 else t) :=
      Keeps.ite (State.handleSend_keeps (Keeps.refl _ _) _ (by decide)) (Keeps.refl _ _)
    split
    · rename_i e
      exact State.modXfer_keeps (State.carry_keeps e k (by decide)) _ _ (by decide)
    · exact k
  repeat' first
    | exact send _ _
    | with_reducible exact Keeps.refl _ _
    | with_reducible apply State.handleSend_keeps
    | with_reducible apply State.modXfer_keeps
    | with_reducible apply State.xferFail_keeps
    | with_reducible apply State.countStray_keeps
    | with_reducible apply State.countRefused_keeps
    | with_reducible apply Keeps.ite
    | decide
    | split


theorem State.pieceLast_keeps {m : Nat} {s t : State} (h : Keeps m s t) (x0 : ℕ) (x1 : ℕ) (x2 : ℕ) (x3 : Sys2Proof.BeatErr) (hm : m ||| 4307356818 = m) : Keeps m s (State.pieceLast t x0 x1 x2 x3) := by
  refine Keeps.step h ?_ hm
  unfold State.pieceLast
  repeat' first
    | with_reducible exact Keeps.refl _ _
    | with_reducible apply State.msgAnswer_keeps
    | (with_reducible apply State.answer_keeps <;> try (intros; beta_reduce))
    | with_reducible apply State.pieceEnds_keeps
    | with_reducible apply Keeps.ite
    | decide
    | split
    | dsimp only

theorem State.refusalTaken_keeps {m : Nat} {s t : State} (h : Keeps m s t) (x0 : ℕ) (x1 : ℕ) (x2 : Sys2Proof.Machine.Piece) (hm : m ||| 4307356818 = m) : Keeps m s (State.refusalTaken t x0 x1 x2) := by
  refine Keeps.step h ?_ hm
  unfold State.refusalTaken
  repeat' first
    | with_reducible exact Keeps.refl _ _
    | with_reducible apply State.setPiece_keeps
    | with_reducible apply State.xferFail_keeps
    | with_reducible apply Keeps.ite
    | decide

theorem State.pieceRefused_keeps {m : Nat} {s t : State} (h : Keeps m s t) (x0 : ℕ) (x1 : ℕ) (x2 : ℕ) (x3 : Sys2Proof.BeatErr) (hm : m ||| 4307356818 = m) : Keeps m s (State.pieceRefused t x0 x1 x2 x3) := by
  refine Keeps.step h ?_ hm
  unfold State.pieceRefused
  repeat' first
    | with_reducible exact Keeps.refl _ _
    | (with_reducible apply State.answer_keeps <;> try (intros; beta_reduce))
    | with_reducible apply State.refusalTaken_keeps
    | with_reducible apply Keeps.ite
    | decide
    | split
    | dsimp only

theorem State.requestRefused_keeps {m : Nat} {s t : State} (h : Keeps m s t) (x0 : ℕ) (x1 : ℕ) (x2 : Sys2Proof.Machine.Xfer) (x3 : Sys2Proof.Machine.Piece) (x4 : ℕ) (hm : m ||| 262146 = m) : Keeps m s (State.requestRefused t x0 x1 x2 x3 x4) := by
  refine Keeps.step h ?_ hm
  unfold State.requestRefused
  repeat' first
    | with_reducible exact Keeps.refl _ _
    | with_reducible apply State.countDeny_keeps
    | with_reducible apply State.countStray_keeps
    | with_reducible apply State.setRefused_keeps
    | with_reducible apply State.countRefused_keeps
    | with_reducible apply Keeps.ite
    | decide

theorem State.requestArb_keeps {m : Nat} {s t : State} (h : Keeps m s t) (x0 : ℕ) (x1 : ℕ) (x2 : Sys2Proof.Machine.Xfer) (x3 : ℕ) (x4 : ℕ) (hm : m ||| 25427970 = m) : Keeps m s (State.requestArb t x0 x1 x2 x3 x4) := by
  refine Keeps.step h ?_ hm
  unfold State.requestArb
  repeat' first
    | with_reducible exact Keeps.refl _ _
    | with_reducible apply State.setPiece_keeps
    | with_reducible apply State.wakeDomain_keeps
    | with_reducible apply State.arbAsk_keeps
    | with_reducible apply Keeps.ite
    | decide

theorem State.requestTaken_keeps {m : Nat} {s t : State} (h : Keeps m s t) (x0 : ℕ) (x1 : ℕ) (x2 : Sys2Proof.Machine.Xfer) (x3 : Sys2Proof.Machine.Piece) (hm : m ||| 25428226 = m) : Keeps m s (State.requestTaken t x0 x1 x2 x3) := by
  refine Keeps.step h ?_ hm
  unfold State.requestTaken
  repeat' first
    | with_reducible exact Keeps.refl _ _
    | with_reducible apply State.requestArb_keeps
    | with_reducible apply State.bump_keeps
    | with_reducible apply State.keepOps_keeps
    | with_reducible apply State.coreTouch_keeps
    | with_reducible apply State.setPiece_keeps
    | with_reducible apply Keeps.ite
    | decide
    | split

theorem State.requestAt_keeps {m : Nat} {s t : State} (h : Keeps m s t) (x0 : ℕ) (x1 : ℕ) (x2 : Sys2Proof.Machine.Xfer) (x3 : Sys2Proof.Machine.Piece) (x4 : Sys2Proof.BeatErr) (hm : m ||| 25428226 = m) : Keeps m s (State.requestAt t x0 x1 x2 x3 x4) := by
  refine Keeps.step h ?_ hm
  unfold State.requestAt
  repeat' first
    | with_reducible exact Keeps.refl _ _
    | with_reducible apply State.setRefused_keeps
    | with_reducible apply State.bump_keeps
    | with_reducible apply State.requestDiscarded_keeps
    | with_reducible apply State.requestRefused_keeps
    | with_reducible apply State.requestTaken_keeps
    | with_reducible apply Keeps.ite
    | decide

theorem State.pieceRequest_keeps {m : Nat} {s t : State} (h : Keeps m s t) (x0 : ℕ) (x1 : ℕ) (x2 : ℕ) (x3 : Sys2Proof.BeatErr) (hm : m ||| 25493762 = m) : Keeps m s (State.pieceRequest t x0 x1 x2 x3) := by
  refine Keeps.step h ?_ hm
  unfold State.pieceRequest
  dsimp only
  repeat' first
    | (with_reducible apply State.farLand_keeps; assumption)
    | with_reducible exact Keeps.refl _ _
    | with_reducible apply State.requestAt_keeps
    | (with_reducible apply State.farLand_keeps; assumption)
    | with_reducible apply State.setPiece_keeps
    | with_reducible apply Keeps.ite
    | decide
    | split


theorem State.revoke_keeps {m : Nat} {s t : State} (h : Keeps m s t) (x0 : ℕ) (x1 : ℕ) (hm : m ||| 8716290 = m) : Keeps m s (State.revoke t x0 x1) := by
  refine Keeps.step h ?_ hm
  unfold State.revoke
  repeat' first
    | with_reducible exact Keeps.refl _ _
    | with_reducible apply State.arbFree_keeps
    | with_reducible apply State.bump_keeps
    | with_reducible apply State.modArb_keeps
    | with_reducible apply State.restartPieces_keeps
    | with_reducible apply Keeps.ite
    | decide

theorem State.schedDrained_keeps {m : Nat} {s t : State} (h : Keeps m s t) (x0 : ℕ) (hm : m ||| 6354177170 = m) : Keeps m s (State.schedDrained t x0) := by
  refine Keeps.step h ?_ hm
  clear h hm
  unfold State.schedDrained
  dsimp only
  split
  · exact Keeps.refl _ _
  · refine Keeps.each ?_ _ _ fun u c => ?_
    · refine State.setSch_keeps ?_ _ _ (by decide)
      refine State.modSch_keeps ?_ _ _ (by decide)
      refine Keeps.each ?_ _ _ fun u c => State.setVal_keeps (Keeps.refl _ _) _ _ _ (by decide)
      refine State.swapTables_keeps ?_ _ _ (by decide)
      exact ((State.copyTables_keeps (Keeps.refl _ _) _ _ (by decide)).slotB_p _ (fun h => mwf_foldl h _ _ fun _ _ hm => mwf_clearSlot hm _)
        (by decide)).smapB_p _ (fun h => mwf_foldl h _ _ fun _ _ hm => mwf_clearSmap hm _) (by decide)
    · repeat' first
    | with_reducible exact Keeps.refl _ _
    | with_reducible apply State.copyTables_keeps
    | with_reducible apply State.swapTables_keeps
    | with_reducible apply State.setVal_keeps
    | with_reducible apply State.setSch_keeps
    | with_reducible apply State.modSch_keeps
    | with_reducible apply State.xferFail_keeps
    | with_reducible apply Keeps.ite
    | decide


theorem State.throttle_keeps {m : Nat} {s t : State} (h : Keeps m s t) (x0 : ℕ) (hm : m ||| 4865458178 = m) : Keeps m s (State.throttle t x0) := by
  refine Keeps.step h ?_ hm
  unfold State.throttle
  repeat' first
    | with_reducible exact Keeps.refl _ _
    | with_reducible apply State.modSdir_keeps
    | (with_reducible apply State.each_keeps <;> try (intros; beta_reduce))
    | with_reducible apply State.modSch_keeps
    | with_reducible apply State.setFld_keeps
    | with_reducible apply State.remask_keeps
    | with_reducible apply State.post_keeps
    | with_reducible apply Keeps.ite
    | decide

end Sys2Proof.Machine
end

