-- ==== Sys2Proof/Laws/KeepMatrixRun.lean ====
section
/-! SUPPORT. What the operations of Machine/MatrixRun.lean can do (the relation of Laws/Keep.lean). -/

namespace Sys2Proof.Machine

theorem State.mxRecord_keeps {m : Nat} {s t : State} (h : Keeps m s t) (x0 : ℕ) (x1 : ℕ) (x2 : ℕ) (x3 : ℕ) (x4 : ℕ) (x5 : ℕ) (x6 : ℕ) (hm : m ||| 16 = m) : Keeps m s (State.mxRecord t x0 x1 x2 x3 x4 x5 x6) := by
  refine Keeps.step h ?_ hm
  unfold State.mxRecord
  repeat' first
    | with_reducible exact Keeps.refl _ _
    | with_reducible apply State.pokeLE_keeps
    | with_reducible apply Keeps.ite
    | decide

theorem State.mxAbort_keeps {m : Nat} {s t : State} (h : Keeps m s t) (x0 : ℕ) (x1 : ℕ) (hm : m ||| 8717458 = m) : Keeps m s (State.mxAbort t x0 x1) := by
  refine Keeps.step h ?_ hm
  unfold State.mxAbort
  repeat' first
    | with_reducible exact Keeps.refl _ _
    | with_reducible apply State.bump_keeps
    | with_reducible apply State.mxRecord_keeps
    | (with_reducible apply State.each_keeps <;> try (intros; beta_reduce))
    | with_reducible apply State.setVal_keeps
    | with_reducible apply State.mxCut_keeps
    | with_reducible apply State.modMx_keeps
    | with_reducible apply State.haltAtHarvest_keeps
    | with_reducible apply Keeps.ite
    | decide
    | split

theorem State.mxBindNew_keeps {m : Nat} {s t : State} (h : Keeps m s t) (x0 : ℕ) (x1 : ℕ) (hm : m ||| 1024 = m) : Keeps m s (State.mxBindNew t x0 x1) := by
  refine Keeps.step h ?_ hm
  unfold State.mxBindNew
  repeat' first
    | with_reducible exact Keeps.refl _ _
    | with_reducible apply State.modMx_keeps
    | with_reducible apply Keeps.ite
    | decide

theorem State.mxTailWrite_keeps {m : Nat} {s t : State} (h : Keeps m s t) (x0 : ℕ) (x1 : ℕ) (hm : m ||| 1026 = m) : Keeps m s (State.mxTailWrite t x0 x1) := by
  refine Keeps.step h ?_ hm
  unfold State.mxTailWrite
  repeat' first
    | with_reducible exact Keeps.refl _ _
    | with_reducible apply State.setFld_keeps
    | with_reducible apply State.setVal_keeps
    | (with_reducible apply State.each_keeps <;> try (intros; beta_reduce))
    | with_reducible apply State.mxBindNew_keeps
    | with_reducible apply Keeps.ite
    | decide

theorem State.mxOpen_keeps {m : Nat} {s t : State} (h : Keeps m s t) (x0 : ℕ) (x1 : ℕ) (hm : m ||| 1024 = m) : Keeps m s (State.mxOpen t x0 x1) := by
  refine Keeps.step h ?_ hm
  unfold State.mxOpen
  repeat' first
    | with_reducible exact Keeps.refl _ _
    | with_reducible apply State.modMx_keeps
    | with_reducible apply Keeps.ite
    | decide

theorem State.mxLoad_keeps {m : Nat} {s t : State} (h : Keeps m s t) (x0 : ℕ) (x1 : ℕ) (x2 : Sys2Proof.Machine.Desc) (x3 : Sys2Proof.Machine.Prof) (hm : m ||| 263168 = m) : Keeps m s (State.mxLoad t x0 x1 x2 x3) := by
  refine Keeps.step h ?_ hm
  unfold State.mxLoad
  repeat' first
    | with_reducible exact Keeps.refl _ _
    | with_reducible apply State.mxFeed_keeps
    | with_reducible apply State.modMx_keeps
    | with_reducible apply Keeps.ite
    | decide

theorem State.mxAhead_keeps {m : Nat} {s t : State} (h : Keeps m s t) (x0 : List ℕ) (x1 : ℕ) (hm : m ||| 263168 = m) : Keeps m s (State.mxAhead t x0 x1) := by
  refine Keeps.step h ?_ hm
  unfold State.mxAhead
  repeat' first
    | with_reducible exact Keeps.refl _ _
    | with_reducible apply State.mxLoad_keeps
    | with_reducible apply State.modMx_keeps
    | with_reducible apply Keeps.ite
    | decide
    | split

theorem State.mxTake_keeps {m : Nat} {s t : State} (h : Keeps m s t) (x0 : ℕ) (x1 : Sys2Proof.Machine.Desc) (hm : m ||| 1026 = m) : Keeps m s (State.mxTake t x0 x1) := by
  refine Keeps.step h ?_ hm
  unfold State.mxTake
  repeat' first
    | with_reducible exact Keeps.refl _ _
    | with_reducible apply State.modMx_keeps
    | with_reducible apply State.setVal_keeps
    | with_reducible apply Keeps.ite
    | decide

theorem State.mxOp_keeps {m : Nat} {s t : State} (h : Keeps m s t) (x0 : ℕ) (x1 : ℕ) (x2 : Sys2Proof.Machine.Desc) (x3 : Sys2Proof.Machine.Prof) (hm : m ||| 1554 = m) : Keeps m s (State.mxOp t x0 x1 x2 x3) := by
  refine Keeps.step h ?_ hm
  unfold State.mxOp
  repeat' first
    | with_reducible exact Keeps.refl _ _
    | with_reducible apply State.mxMultiply_keeps
    | with_reducible apply State.mxEw_keeps
    | with_reducible apply State.mxReduce_keeps
    | with_reducible apply State.mxEncode_keeps
    | with_reducible apply State.mxGather_keeps
    | with_reducible apply State.mxOk_keeps
    | with_reducible apply Keeps.ite
    | decide
    | split

theorem State.mxExec_keeps {m : Nat} {s t : State} (h : Keeps m s t) (x0 : List ℕ) (x1 : ℕ) (x2 : ℕ) (hm : m ||| 263698 = m) : Keeps m s (State.mxExec t x0 x1 x2) := by
  refine Keeps.step h ?_ hm
  unfold State.mxExec
  repeat' first
    | with_reducible exact Keeps.refl _ _
    | with_reducible apply State.mxFail_keeps
    | with_reducible apply State.mxOp_keeps
    | with_reducible apply State.modMx_keeps
    | with_reducible apply State.mxAhead_keeps
    | with_reducible apply State.mxFeed_keeps
    | with_reducible apply Keeps.ite
    | decide
    | split

theorem State.mxBegin_keeps {m : Nat} {s t : State} (h : Keeps m s t) (x0 : List ℕ) (x1 : ℕ) (x2 : ℕ) (x3 : ℕ) (x4 : Sys2Proof.Machine.Desc) (hm : m ||| 263698 = m) : Keeps m s (State.mxBegin t x0 x1 x2 x3 x4) := by
  refine Keeps.step h ?_ hm
  unfold State.mxBegin
  repeat' first
    | with_reducible exact Keeps.refl _ _
    | with_reducible apply State.mxTake_keeps
    | with_reducible apply State.mxFailAt_keeps
    | with_reducible apply State.bump_keeps
    | with_reducible apply State.mxExec_keeps
    | with_reducible apply State.mxLoad_keeps
    | with_reducible apply Keeps.ite
    | decide

theorem State.mxComplete_keeps {m : Nat} {s t : State} (h : Keeps m s t) (x0 : ℕ) (x1 : ℕ) (x2 : ℕ) (x3 : ℕ) (hm : m ||| 263314 = m) : Keeps m s (State.mxComplete t x0 x1 x2 x3) := by
  refine Keeps.step h ?_ hm
  unfold State.mxComplete
  repeat' first
    | with_reducible exact Keeps.refl _ _
    | with_reducible apply State.mxFeed_keeps
    | with_reducible apply State.bump_keeps
    | with_reducible apply State.mxRecord_keeps
    | with_reducible apply State.modMx_keeps
    | with_reducible apply State.setFld_keeps
    | with_reducible apply State.haltAtHarvest_keeps
    | with_reducible apply Keeps.ite
    | decide
    | split

theorem State.mxStep_keeps {m : Nat} {s t : State} (h : Keeps m s t) (x0 : List ℕ) (x1 : ℕ) (x2 : ℕ) (x3 : ℕ → Bool) (hm : m ||| 8717842 = m) : Keeps m s (State.mxStep t x0 x1 x2 x3) := by
  refine Keeps.step h ?_ hm
  unfold State.mxStep
  repeat' first
    | with_reducible exact Keeps.refl _ _
    | with_reducible apply State.mxExec_keeps
    | with_reducible apply State.mxFeed_keeps
    | with_reducible apply State.modMx_keeps
    | with_reducible apply State.mxCut_keeps
    | with_reducible apply State.mxTake_keeps
    | with_reducible apply State.mxFail_keeps
    | with_reducible apply State.mxBegin_keeps
    | with_reducible apply Keeps.ite
    | decide
    | split

theorem State.mxFence_keeps {m : Nat} {s t : State} (h : Keeps m s t) (x0 : List ℕ) (x1 : ℕ) (hm : m ||| 8717842 = m) : Keeps m s (State.mxFence t x0 x1) := by
  refine Keeps.step h ?_ hm
  unfold State.mxFence
  repeat' first
    | with_reducible exact Keeps.refl _ _
    | with_reducible apply State.mxStep_keeps
    | with_reducible apply Keeps.ite
    | decide

end Sys2Proof.Machine
end

