-- ==== Sys2Proof/Laws/KeepMessages.lean ====
section
/-! SUPPORT. What the operations of Machine/Messages.lean can do (the relation of Laws/Keep.lean). -/

namespace Sys2Proof.Machine

theorem State.refuseReqs_keeps {m : Nat} {s t : State} (h : Keeps m s t) (x0 : ℕ) (x1 : ℕ) (x2 : Sys2Proof.Machine.Req → Bool) (hm : m ||| 3997714 = m) : Keeps m s (State.refuseReqs t x0 x1 x2) := by
  refine Keeps.step h ?_ hm
  unfold State.refuseReqs
  repeat' first
    | with_reducible exact Keeps.refl _ _
    | (with_reducible apply State.each_keeps <;> try (intros; beta_reduce))
    | with_reducible apply State.dropReq_keeps
    | with_reducible apply State.seamDrop_keeps
    | with_reducible apply State.setRefused_keeps
    | with_reducible apply State.tkReason_keeps
    | with_reducible apply Keeps.ite
    | decide

theorem State.mqDown_keeps {m : Nat} {s t : State} (h : Keeps m s t) (x0 : ℕ) (x1 : Option ℕ) (hm : m ||| 3997714 = m) : Keeps m s (State.mqDown t x0 x1) := by
  refine Keeps.step h ?_ hm
  unfold State.mqDown
  repeat' first
    | with_reducible exact Keeps.refl _ _
    | (with_reducible apply State.each_keeps <;> try (intros; beta_reduce))
    | with_reducible apply State.refuseReqs_keeps
    | with_reducible apply State.dropComp_keeps
    | with_reducible apply Keeps.ite
    | decide

theorem State.tkStop_keeps {m : Nat} {s t : State} (h : Keeps m s t) (x0 : ℕ) (hm : m ||| 3997714 = m) : Keeps m s (State.tkStop t x0) := by
  refine Keeps.step h ?_ hm
  unfold State.tkStop
  repeat' first
    | with_reducible exact Keeps.refl _ _
    | with_reducible apply State.refuseReqs_keeps
    | with_reducible apply State.dropComp_keeps
    | with_reducible apply State.setFld_keeps
    | with_reducible apply State.noteLine_keeps
    | with_reducible apply Keeps.ite
    | decide

theorem State.ackReq_keeps {m : Nat} {s t : State} (h : Keeps m s t) (x0 : ℕ) (hm : m ||| 3932178 = m) : Keeps m s (State.ackReq t x0) := by
  refine Keeps.step h ?_ hm
  unfold State.ackReq
  repeat' first
    | with_reducible exact Keeps.refl _ _
    | with_reducible apply State.setPiece_keeps
    | with_reducible apply State.dropReq_keeps
    | with_reducible apply Keeps.ite
    | decide

theorem State.addElem_keeps {m : Nat} {s t : State} (h : Keeps m s t) (x0 : ℕ) (x1 : ℕ) (x2 : ℕ) (x3 : ℕ) (hm : m ||| 18 = m) : Keeps m s (State.addElem t x0 x1 x2 x3) := by
  refine Keeps.step h ?_ hm
  unfold State.addElem
  repeat' first
    | with_reducible exact Keeps.refl _ _
    | with_reducible apply State.pokeLE_keeps
    | with_reducible apply State.bump_keeps
    | with_reducible apply Keeps.ite
    | decide

theorem State.tkStart_keeps {m : Nat} {s t : State} (h : Keeps m s t) (x0 : ℕ) (hm : m ||| 524306 = m) : Keeps m s (State.tkStart t x0) := by
  refine Keeps.step h ?_ hm
  unfold State.tkStart
  repeat' first
    | with_reducible exact Keeps.refl _ _
    | with_reducible apply State.setFld_keeps
    | with_reducible apply State.unitWrites_keeps
    | with_reducible apply State.wipe_keeps
    | with_reducible apply State.noteLine_keeps
    | with_reducible apply State.modChan_keeps
    | with_reducible apply Keeps.ite
    | decide

theorem State.setReq_keeps {m : Nat} {s t : State} (h : Keeps m s t) (x0 : ℕ) (x1 : ℕ) (x2 : Sys2Proof.Machine.Req → Sys2Proof.Machine.Req) (hm : m ||| 524306 = m) : Keeps m s (State.setReq t x0 x1 x2) := by
  refine Keeps.step h ?_ hm
  unfold State.setReq
  repeat' first
    | with_reducible exact Keeps.refl _ _
    | with_reducible apply State.modTk_keeps
    | with_reducible apply Keeps.ite
    | decide

theorem State.grantReq_keeps {m : Nat} {s t : State} (h : Keeps m s t) (x0 : ℕ) (x1 : ℕ) (x2 : ℕ) (x3 : ℕ) (hm : m ||| 2883602 = m) : Keeps m s (State.grantReq t x0 x1 x2 x3) := by
  refine Keeps.step h ?_ hm
  unfold State.grantReq
  repeat' first
    | with_reducible exact Keeps.refl _ _
    | with_reducible apply State.setPiece_keeps
    | with_reducible apply State.setReq_keeps
    | with_reducible apply Keeps.ite
    | decide
    | split
    | dsimp only
    | (intro h; first | exact mwf_mput h _ _ | exact mwf_mmod h _ _ | exact mwf_filter h _ | exact mwf_mclear h _ _ | exact mwf_pokeMem h _ _ | rfl)
    | (with_reducible apply Keeps.edges_p)

theorem State.breakCycle_keeps {m : Nat} {s t : State} (h : Keeps m s t) (x0 : Sys2Proof.Machine.Edge) (x1 : List ℕ) (hm : m ||| 4298899602 = m) : Keeps m s (State.breakCycle t x0 x1) := by
  refine Keeps.step h ?_ hm
  unfold State.breakCycle
  repeat' first
    | with_reducible exact Keeps.refl _ _
    | with_reducible apply State.tkReason_keeps
    | with_reducible apply State.post_keeps
    | with_reducible apply State.setFld_keeps
    | with_reducible apply State.setVal_keeps
    | (with_reducible apply State.takeSlot_keeps; assumption)
    | with_reducible apply State.mqBump_keeps
    | with_reducible apply State.grantReq_keeps
    | (with_reducible apply State.each_keeps <;> try (intros; beta_reduce))
    | with_reducible apply State.haltAtHarvest_keeps
    | with_reducible apply Keeps.ite
    | decide
    | split
    | dsimp only

theorem State.closeElem_keeps {m : Nat} {s t : State} (h : Keeps m s t) (x0 : ℕ) (x1 : ℕ) (x2 : ℕ) (hm : m ||| 16 = m) : Keeps m s (State.closeElem t x0 x1 x2).2 := by
  refine Keeps.step h ?_ hm
  unfold State.closeElem
  repeat' first
    | with_reducible exact Keeps.refl _ _
    | with_reducible apply State.pokeLE_keeps
    | with_reducible apply Keeps.ite
    | decide

theorem State.closeRound_keeps {m : Nat} {s t : State} (h : Keeps m s t) (x0 : ℕ) (x1 : ℕ) (hm : m ||| 524306 = m) : Keeps m s (State.closeRound t x0 x1) := by
  refine Keeps.step h ?_ hm
  unfold State.closeRound
  dsimp only
  refine State.modTk_keeps (State.bump_keeps (State.bump_keeps (State.unitWrites_keeps (State.unitReads_keeps ?_ _ _ _ (by decide)) _ _ _
    (by decide)) _ _ _ (by decide)) _ _ _ (by decide)) _ _ (by decide)
  with_reducible refine foldl_snd_keeps _ _ (fun x a => ?_) _ _
  dsimp only
  exact State.closeElem_keeps (Keeps.refl _ _) _ _ _ (by decide)

theorem State.compPoke_keeps {m : Nat} {s t : State} (h : Keeps m s t) (x0 : ℕ) (x1 : ℕ) (x2 : ℕ) (x3 : List Sys2Proof.Byte) (hm : m ||| 9962514 = m) : Keeps m s (State.compPoke t x0 x1 x2 x3) := by
  refine Keeps.step h ?_ hm
  unfold State.compPoke
  repeat' first
    | with_reducible exact Keeps.refl _ _
    | with_reducible apply State.devWrite_keeps
    | with_reducible apply State.svcBeats_keeps
    | with_reducible apply Keeps.ite
    | decide

theorem State.compRead_keeps {m : Nat} {s t : State} (h : Keeps m s t) (x0 : ℕ) (x1 : ℕ) (x2 : ℕ) (x3 : Sys2Proof.LineFate) (hm : m ||| 4303356034 = m) : Keeps m s (State.compRead t x0 x1 x2 x3) := by
  refine Keeps.step h ?_ hm
  unfold State.compRead
  repeat' first
    | with_reducible exact Keeps.refl _ _
    | with_reducible apply State.dmMeets_keeps
    | with_reducible apply State.dmLines_keeps
    | with_reducible apply State.svcBeats_keeps
    | with_reducible apply Keeps.ite
    | decide

theorem State.consumerWrite_keeps {m : Nat} {s t : State} (h : Keeps m s t) (k off v : Nat) (f : State → State)
    (hf : ∀ u, Keeps m u (f u)) (hm : m ||| 18 = m) : Keeps m s (t.consumerWrite k off v f) := by
  refine h.trans ?_
  have hb : ∀ (u : State) r, Keeps m u (u.bump r [tkCluster k]) := fun u r => (State.bump_keeps (Keeps.refl 18 _) _ _ _ (by decide)).mono hm
  unfold State.consumerWrite
  dsimp only
  refine Keeps.ite (hb _ _) (Keeps.ite (hb _ _) (Keeps.when (Keeps.trans ?_ (hb _ _)) _ _ hf))
  exact (State.pokeLE_keeps (Keeps.refl 18 _) _ _ _ (by decide)).mono hm

theorem State.contribute_keeps {m : Nat} {s t : State} (h : Keeps m s t) (x0 : ℕ) (x1 : List Sys2Proof.Byte) (hm : m ||| 524306 = m) : Keeps m s (State.contribute t x0 x1) := by
  refine Keeps.step h ?_ hm
  unfold State.contribute
  repeat' first
    | with_reducible exact Keeps.refl _ _
    | with_reducible apply State.bump_keeps
    | (with_reducible apply State.each_keeps <;> try (intros; beta_reduce))
    | with_reducible apply State.addElem_keeps
    | with_reducible apply State.unitWrites_keeps
    | with_reducible apply State.unitReads_keeps
    | with_reducible apply State.modChan_keeps
    | with_reducible apply State.closeRound_keeps
    | with_reducible apply Keeps.ite
    | decide

theorem State.contributionAdd_keeps {m : Nat} {s t : State} (h : Keeps m s t) (x0 : ℕ) (hm : m ||| 3932178 = m) : Keeps m s (State.contributionAdd t x0) := by
  refine Keeps.step h ?_ hm
  unfold State.contributionAdd
  repeat' first
    | with_reducible exact Keeps.refl _ _
    | with_reducible apply State.ackReq_keeps
    | with_reducible apply State.contribute_keeps
    | with_reducible apply State.bump_keeps
    | with_reducible apply Keeps.ite
    | decide
    | split

theorem State.edgeRegister_keeps {m : Nat} {s t : State} (h : Keeps m s t) (x0 : ℕ) (hm : m ||| 2621458 = m) : Keeps m s (State.edgeRegister t x0) := by
  refine Keeps.step h ?_ hm
  unfold State.edgeRegister
  repeat' first
    | with_reducible exact Keeps.refl _ _
    | with_reducible apply State.setReq_keeps
    | with_reducible apply State.bump_keeps
    | with_reducible apply Keeps.ite
    | decide
    | split
    | dsimp only
    | (intro h; first | exact mwf_mput h _ _ | exact mwf_mmod h _ _ | exact mwf_filter h _ | exact mwf_mclear h _ _ | exact mwf_pokeMem h _ _ | rfl)
    | (with_reducible apply Keeps.edges_p)

theorem State.markDone_keeps {m : Nat} {s t : State} (h : Keeps m s t) (x0 : ℕ) (x1 : ℕ) (hm : m ||| 524288 = m) : Keeps m s (State.markDone t x0 x1) := by
  refine Keeps.step h ?_ hm
  unfold State.markDone
  repeat' first
    | with_reducible exact Keeps.refl _ _
    | with_reducible apply State.modChan_keeps
    | with_reducible apply Keeps.ite
    | decide

theorem State.reserve_keeps {m : Nat} {s t : State} (h : Keeps m s t) (x0 : ℕ) (x1 : ℕ) (x2 : ℕ) (x3 : ℕ) (hm : m ||| 2148007954 = m) : Keeps m s (State.reserve t x0 x1 x2 x3) := by
  refine Keeps.step h ?_ hm
  unfold State.reserve
  repeat' first
    | with_reducible exact Keeps.refl _ _
    | with_reducible apply State.modChan_keeps
    | with_reducible apply State.mqBump_keeps
    | with_reducible apply State.ringPoke_keeps
    | with_reducible apply Keeps.ite
    | decide

theorem State.publishFront_keeps {m : Nat} {s t : State} (h : Keeps m s t) (x0 : ℕ) (x1 : ℕ) (hm : m ||| 3932178 = m) : Keeps m s (State.publishFront t x0 x1) := by
  refine Keeps.step h ?_ hm
  clear h hm
  induction x1 generalizing t with
  | zero => unfold State.publishFront; exact Keeps.refl _ _
  | succ n ih =>
    unfold State.publishFront
    repeat' first
    | with_reducible refine Keeps.trans ?_ ih
    | with_reducible exact Keeps.refl _ _
    | with_reducible apply State.modTk_keeps
    | with_reducible apply State.bump_keeps
    | with_reducible apply State.ackReq_keeps
    | with_reducible apply Keeps.ite
    | decide
    | split
    | dsimp only


theorem State.hostDrain_keeps {m : Nat} {s t : State} (h : Keeps m s t) (x0 : ℕ) (x1 : Sys2Proof.LineFate) (hm : m ||| 6471549074 = m) : Keeps m s (State.hostDrain t x0 x1) := by
  refine Keeps.step h ?_ hm
  unfold State.hostDrain
  repeat' first
    | with_reducible exact Keeps.refl _ _
    | with_reducible apply State.dmWake_keeps
    | with_reducible apply State.compRead_keeps
    | with_reducible apply State.markDone_keeps
    | with_reducible apply State.ringPoke_keeps
    | with_reducible apply State.reserve_keeps
    | with_reducible apply State.publishFront_keeps
    | with_reducible apply State.dropComp_keeps
    | with_reducible apply Keeps.ite
    | decide
    | split

theorem State.msgRequest_keeps {m : Nat} {s t : State} (h : Keeps m s t) (x0 : ℕ) (x1 : Sys2Proof.Machine.Xfer) (x2 : Sys2Proof.Machine.Piece) (x3 : Sys2Proof.BeatErr) (hm : m ||| 786450 = m) : Keeps m s (State.msgRequest t x0 x1 x2 x3) := by
  refine Keeps.step h ?_ hm
  unfold State.msgRequest
  repeat' first
    | with_reducible exact Keeps.refl _ _
    | with_reducible apply State.setRefused_keeps
    | with_reducible apply State.bump_keeps
    | with_reducible apply State.requestDiscarded_keeps
    | with_reducible apply State.countRefused_keeps
    | with_reducible apply State.tkReason_keeps
    | with_reducible apply State.modTk_keeps
    | with_reducible apply State.modXfer_keeps
    | with_reducible apply Keeps.ite
    | decide
    | split

theorem State.placementGrant_keeps {m : Nat} {s t : State} (h : Keeps m s t) (x0 : ℕ) (hm : m ||| 2150367250 = m) : Keeps m s (State.placementGrant t x0) := by
  refine Keeps.step h ?_ hm
  unfold State.placementGrant
  repeat' first
    | with_reducible exact Keeps.refl _ _
    | with_reducible apply State.grantReq_keeps
    | with_reducible apply State.reserve_keeps
    | with_reducible apply Keeps.ite
    | decide
    | split

theorem State.writeSlotEntry_keeps {m : Nat} {s t : State} (h : Keeps m s t) (x0 : ℕ) (x1 : ℕ) (x2 : ℕ) (x3 : ℕ) (x4 : List Sys2Proof.Byte) (hm : m ||| 9962514 = m) : Keeps m s (State.writeSlotEntry t x0 x1 x2 x3 x4) := by
  refine Keeps.step h ?_ hm
  unfold State.writeSlotEntry
  repeat' first
    | with_reducible exact Keeps.refl _ _
    | with_reducible apply State.compPoke_keeps
    | with_reducible apply State.modTk_keeps
    | with_reducible apply Keeps.ite
    | decide
    | split

theorem State.publish_keeps {m : Nat} {s t : State} (h : Keeps m s t) (x0 : ℕ) (hm : m ||| 2176582674 = m) : Keeps m s (State.publish t x0) := by
  refine Keeps.step h ?_ hm
  unfold State.publish
  repeat' first
    | with_reducible exact Keeps.refl _ _
    | with_reducible apply State.dmWake_keeps
    | with_reducible apply State.ackReq_keeps
    | with_reducible apply State.setReq_keeps
    | with_reducible apply State.writeSlotEntry_keeps
    | with_reducible apply State.ringPoke_keeps
    | with_reducible apply State.markDone_keeps
    | with_reducible apply State.publishFront_keeps
    | with_reducible apply Keeps.ite
    | decide
    | split

theorem State.unlinkEntry_keeps {m : Nat} {s t : State} (h : Keeps m s t) (x0 : ℕ) (x1 : ℕ × ℕ × ℕ) (hm : m ||| 9962514 = m) : Keeps m s (State.unlinkEntry t x0 x1) := by
  refine Keeps.step h ?_ hm
  unfold State.unlinkEntry
  repeat' first
    | with_reducible exact Keeps.refl _ _
    | with_reducible apply State.compPoke_keeps
    | with_reducible apply State.modTk_keeps
    | with_reducible apply State.freeSlot_keeps
    | with_reducible apply Keeps.ite
    | decide
    | split

theorem State.queueDrain_keeps {m : Nat} {s t : State} (h : Keeps m s t) (x0 : ℕ) (x1 : Sys2Proof.LineFate) (hm : m ||| 4321707154 = m) : Keeps m s (State.queueDrain t x0 x1) := by
  refine Keeps.step h ?_ hm
  unfold State.queueDrain
  repeat' first
    | with_reducible exact Keeps.refl _ _
    | with_reducible apply State.dmWake_keeps
    | with_reducible apply State.compRead_keeps
    | with_reducible apply State.contribute_keeps
    | with_reducible apply State.unlinkEntry_keeps
    | with_reducible apply Keeps.ite
    | decide
    | split

theorem State.requestReceive_keeps {m : Nat} {s t : State} (h : Keeps m s t) (x0 : ℕ) (x1 : ℕ) (x2 : Sys2Proof.BeatErr) (hm : m ||| 851986 = m) : Keeps m s (State.requestReceive t x0 x1 x2) := by
  refine Keeps.step h ?_ hm
  unfold State.requestReceive
  dsimp only
  repeat' first
    | (with_reducible apply State.farLand_keeps; assumption)
    | with_reducible exact Keeps.refl _ _
    | with_reducible apply State.msgRequest_keeps
    | (with_reducible apply State.farLand_keeps; assumption)
    | with_reducible apply State.setPiece_keeps
    | with_reducible apply Keeps.ite
    | decide
    | split


theorem State.waitScan_keeps {m : Nat} {s t : State} (h : Keeps m s t) (x0 : ℕ) (hm : m ||| 4303093906 = m) : Keeps m s (State.waitScan t x0) := by
  refine Keeps.step h ?_ hm
  unfold State.waitScan
  repeat' first
    | with_reducible exact Keeps.refl _ _
    | (with_reducible apply State.each_keeps <;> try (intros; beta_reduce))
    | with_reducible apply State.breakCycle_keeps
    | with_reducible apply Keeps.ite
    | decide
    | split
    | dsimp only
    | (intro h; first | exact mwf_mput h _ _ | exact mwf_mmod h _ _ | exact mwf_filter h _ | exact mwf_mclear h _ _ | exact mwf_pokeMem h _ _ | rfl)
    | (with_reducible apply Keeps.oldEdges_p)

theorem State.writeCdone_keeps {m : Nat} {s t : State} (h : Keeps m s t) (x0 : ℕ) (x1 : ℕ) (hm : m ||| 1572882 = m) : Keeps m s (State.writeCdone t x0 x1) := by
  refine Keeps.step h ?_ hm
  unfold State.writeCdone
  repeat' first
    | with_reducible exact Keeps.refl _ _
    | (with_reducible apply State.consumerWrite_keeps <;> try (intros; beta_reduce))
    | with_reducible apply State.takeCdone_keeps
    | with_reducible apply Keeps.ite
    | decide

theorem State.writeRd_keeps {m : Nat} {s t : State} (h : Keeps m s t) (x0 : ℕ) (x1 : ℕ) (hm : m ||| 524306 = m) : Keeps m s (State.writeRd t x0 x1) := by
  refine Keeps.step h ?_ hm
  unfold State.writeRd
  repeat' first
    | with_reducible exact Keeps.refl _ _
    | (with_reducible apply State.consumerWrite_keeps <;> try (intros; beta_reduce))
    | with_reducible apply State.takeRd_keeps
    | with_reducible apply Keeps.ite
    | decide

theorem State.writeReleased_keeps {m : Nat} {s t : State} (h : Keeps m s t) (x0 : ℕ) (x1 : ℕ) (hm : m ||| 524306 = m) : Keeps m s (State.writeReleased t x0 x1) := by
  refine Keeps.step h ?_ hm
  unfold State.writeReleased
  repeat' first
    | with_reducible exact Keeps.refl _ _
    | (with_reducible apply State.consumerWrite_keeps <;> try (intros; beta_reduce))
    | with_reducible apply State.takeReleased_keeps
    | with_reducible apply Keeps.ite
    | decide

end Sys2Proof.Machine
end

