-- ==== Sys2Proof/Laws/KeepSplit.lean ====
section
/-! SUPPORT. What the operations of Machine/Split.lean can do (the relation of Laws/Keep.lean). -/

namespace Sys2Proof.Machine

theorem State.noteCtl_keeps {m : Nat} {s t : State} (h : Keeps m s t) (hm : m ||| 2 = m) : Keeps m s (State.noteCtl t) := by
  refine Keeps.step h ?_ hm
  unfold State.noteCtl
  repeat' first
    | with_reducible exact Keeps.refl _ _
    | (with_reducible apply State.each_keeps <;> try (intros; beta_reduce))
    | with_reducible apply State.setFld_keeps
    | with_reducible apply Keeps.ite
    | decide

theorem State.splitAbsorb_keeps {m : Nat} {s t : State} (h : Keeps m s t) (x0 : ℕ) (x1 : List Sys2Proof.Machine.MFlit) (hm : m ||| 130 = m) : Keeps m s (State.splitAbsorb t x0 x1) := by
  refine Keeps.step h ?_ hm
  unfold State.splitAbsorb
  repeat' first
    | with_reducible exact Keeps.refl _ _
    | (with_reducible apply State.each_keeps <;> try (intros; beta_reduce))
    | with_reducible apply State.bump_keeps
    | with_reducible apply State.absorbWorld_keeps
    | with_reducible apply Keeps.ite
    | decide

theorem State.splitSchedule_keeps {m : Nat} {s t : State} (h : Keeps m s t) (x0 : ℕ) (hm : m ||| 2 = m) : Keeps m s (State.splitSchedule t x0) := by
  refine Keeps.step h ?_ hm
  unfold State.splitSchedule
  repeat' first
    | with_reducible exact Keeps.refl _ _
    | with_reducible apply State.setFld_keeps
    | with_reducible apply State.setSch_keeps
    | with_reducible apply Keeps.ite
    | decide

theorem State.splitXfer_keeps {m : Nat} {s t : State} (h : Keeps m s t) (x0 : ℕ) (hm : m ||| 4307356818 = m) : Keeps m s (State.splitXfer t x0) := by
  refine Keeps.step h ?_ hm
  unfold State.splitXfer
  repeat' first
    | with_reducible exact Keeps.refl _ _
    | with_reducible apply State.xferFail_keeps
    | with_reducible apply State.tkReason_keeps
    | with_reducible apply Keeps.ite
    | decide

theorem State.splitGroup_keeps {m : Nat} {s t : State} (h : Keeps m s t) (x0 : ℕ) (hm : m ||| 4294967426 = m) : Keeps m s (State.splitGroup t x0) := by
  refine Keeps.step h ?_ hm
  unfold State.splitGroup
  repeat' first
    | with_reducible exact Keeps.refl _ _
    | with_reducible apply State.modWg_keeps
    | with_reducible apply State.haltNow_keeps
    | with_reducible apply Keeps.ite
    | decide

theorem State.enterSplit_keeps {m : Nat} {s t : State} (h : Keeps m s t) (hm : m ||| 4374604946 = m) : Keeps m s (State.enterSplit t) := by
  refine Keeps.step h ?_ hm
  unfold State.enterSplit
  repeat' first
    | with_reducible exact Keeps.refl _ _
    | with_reducible apply State.goldenEnd_keeps
    | with_reducible apply State.setFld_keeps
    | (with_reducible apply State.each_keeps <;> try (intros; beta_reduce))
    | with_reducible apply State.splitAbsorb_keeps
    | with_reducible apply State.modLane_keeps
    | with_reducible apply State.modSdir_keeps
    | with_reducible apply State.splitSchedule_keeps
    | with_reducible apply State.splitXfer_keeps
    | with_reducible apply State.splitGroup_keeps
    | with_reducible apply State.commitsSplit_keeps
    | with_reducible apply Keeps.ite
    | decide

theorem State.moveCells_keeps {m : Nat} {s t : State} (h : Keeps m s t) (x0 : ℕ) (x1 : ℕ) (hm : m ||| 196736 = m) : Keeps m s (State.moveCells t x0 x1) := by
  refine Keeps.step h ?_ hm
  unfold State.moveCells
  repeat' first
    | with_reducible exact Keeps.refl _ _
    | with_reducible apply State.ackFree_keeps
    | with_reducible apply State.modLane_keeps
    | with_reducible apply State.modSdir_keeps
    | with_reducible apply Keeps.ite
    | decide

theorem State.linkFail_keeps {m : Nat} {s t : State} (h : Keeps m s t) (x0 : ℕ) (x1 : ℕ) (x2 : ℕ) (hm : m ||| 4408159378 = m) : Keeps m s (State.linkFail t x0 x1 x2) := by
  refine Keeps.step h ?_ hm
  unfold State.linkFail
  repeat' first
    | with_reducible exact Keeps.refl _ _
    | with_reducible apply State.setVal_keeps
    | with_reducible apply State.post_keeps
    | with_reducible apply State.setFld_keeps
    | with_reducible apply State.moveCross_keeps
    | with_reducible apply State.updateCaps_keeps
    | with_reducible apply State.noteCtl_keeps
    | (with_reducible apply State.each_keeps <;> try (intros; beta_reduce))
    | with_reducible apply State.bump_keeps
    | with_reducible apply State.moveCells_keeps
    | with_reducible apply State.modSdir_keeps
    | with_reducible apply State.enterSplit_keeps
    | with_reducible apply Keeps.ite
    | decide

theorem State.seamDataCell_keeps {m : Nat} {s t : State} (h : Keeps m s t) (x0 : ℕ) (x1 : ℕ) (x2 : ℕ) (x3 : Sys2Proof.CellFate) (hm : m ||| 4408159378 = m) : Keeps m s (State.seamDataCell t x0 x1 x2 x3) := by
  refine Keeps.step h ?_ hm
  unfold State.seamDataCell
  repeat' first
    | with_reducible exact Keeps.refl _ _
    | with_reducible apply State.seamCell_keeps
    | with_reducible apply State.linkFail_keeps
    | with_reducible apply Keeps.ite
    | decide

end Sys2Proof.Machine
end

