-- ==== Sys2Proof/Laws/KeepVector.lean ====
section
/-! SUPPORT. What the operations of Machine/Vector.lean can do (the relation of Laws/Keep.lean). -/

namespace Sys2Proof.Machine

theorem State.doBc_keeps {m : Nat} {s t : State} (h : Keeps m s t) (x0 : ℕ) (x1 : ℕ) (x2 : ℕ) (x3 : ℕ) (hm : m ||| 0 = m) : VKeeps m s (State.doBc x0 x1 t x2 x3) := by
  refine VKeeps.step h ?_ hm
  unfold State.doBc
  repeat' first
    | with_reducible exact Keeps.refl _ _
    | with_reducible apply Keeps.ite
    | exact trivial
    | with_reducible apply VKeeps.next
    | with_reducible apply VKeeps.skip
    | with_reducible apply VKeeps.jump
    | with_reducible apply VKeeps.wait
    | with_reducible apply VKeeps.stop
    | decide
    | split
    | dsimp only

theorem State.doBreak_keeps {m : Nat} {s t : State} (h : Keeps m s t) (x0 : ℕ) (x1 : ℕ) (hm : m ||| 0 = m) : VKeeps m s (State.doBreak t x0 x1) := by
  refine VKeeps.step h ?_ hm
  unfold State.doBreak
  repeat' first
    | with_reducible exact Keeps.refl _ _
    | with_reducible apply Keeps.ite
    | exact trivial
    | with_reducible apply VKeeps.next
    | with_reducible apply VKeeps.skip
    | with_reducible apply VKeeps.jump
    | with_reducible apply VKeeps.wait
    | with_reducible apply VKeeps.stop
    | decide
    | split

theorem State.modCtx_keeps {m : Nat} {s t : State} (h : Keeps m s t) (x0 : ℕ) (x1 : ℕ) (x2 : ℕ) (x3 : Sys2Proof.Machine.Vctx → Sys2Proof.Machine.Vctx) (hm : m ||| 2048 = m) : Keeps m s (State.modCtx t x0 x1 x2 x3) := by
  refine Keeps.step h ?_ hm
  unfold State.modCtx
  repeat' first
    | with_reducible exact Keeps.refl _ _
    | with_reducible apply State.modVx_keeps
    | with_reducible apply Keeps.ite
    | decide

theorem State.vS_keeps {m : Nat} {s t : State} (h : Keeps m s t) (x0 : ℕ) (x1 : ℕ) (x2 : ℕ) (x3 : ℕ) (x4 : ℕ) (hm : m ||| 2048 = m) : VKeeps m s (State.vS t x0 x1 x2 x3 x4) := by
  refine VKeeps.step h ?_ hm
  unfold State.vS
  repeat' first
    | with_reducible exact Keeps.refl _ _
    | with_reducible apply State.modCtx_keeps
    | with_reducible apply Keeps.ite
    | exact trivial
    | with_reducible apply VKeeps.next
    | with_reducible apply VKeeps.skip
    | with_reducible apply VKeeps.jump
    | with_reducible apply VKeeps.wait
    | with_reducible apply VKeeps.stop
    | decide

theorem State.doCsrr_keeps {m : Nat} {s t : State} (h : Keeps m s t) (x0 : ℕ) (x1 : ℕ) (x2 : ℕ) (x3 : ℕ) (x4 : ℕ) (hm : m ||| 2048 = m) : VKeeps m s (State.doCsrr x0 x1 x2 t x3 x4) := by
  refine VKeeps.step h ?_ hm
  unfold State.doCsrr
  repeat' first
    | with_reducible exact Keeps.refl _ _
    | with_reducible apply State.vS_keeps
    | with_reducible apply State.modVx_keeps
    | with_reducible apply Keeps.ite
    | exact trivial
    | with_reducible apply VKeeps.next
    | with_reducible apply VKeeps.skip
    | with_reducible apply VKeeps.jump
    | with_reducible apply VKeeps.wait
    | with_reducible apply VKeeps.stop
    | decide
    | split

theorem State.doCsrw_keeps {m : Nat} {s t : State} (h : Keeps m s t) (x0 : ℕ) (x1 : ℕ) (x2 : ℕ) (x3 : ℕ) (hm : m ||| 2048 = m) : VKeeps m s (State.doCsrw x0 x1 t x2 x3) := by
  refine VKeeps.step h ?_ hm
  unfold State.doCsrw
  repeat' first
    | with_reducible exact Keeps.refl _ _
    | with_reducible apply State.modVx_keeps
    | with_reducible apply Keeps.ite
    | exact trivial
    | with_reducible apply VKeeps.next
    | with_reducible apply VKeeps.skip
    | with_reducible apply VKeeps.jump
    | with_reducible apply VKeeps.wait
    | with_reducible apply VKeeps.stop
    | decide
    | split

theorem State.emitAll_keeps {m : Nat} {s t : State} (h : Keeps m s t) (x0 : ℕ) (x1 : ℕ) (x2 : List ℕ) (x3 : ℕ) (hm : m ||| 514 = m) : Keeps m s (State.emitAll x0 x1 x2 x3 t).2 := by
  refine Keeps.step h ?_ hm
  clear h hm
  induction x2 generalizing t x3 with
  | nil => exact Keeps.refl _ _
  | cons r l ih =>
    have ha : Keeps 514 t (t.bump .VX_ELATE [x0, x1]) := State.bump_keeps (Keeps.refl _ _) _ _ _ (by decide)
    have hb : ∀ f, Keeps 514 t ((t.modEng x0 x1 f).bump .VX_EMITS [x0, x1]) := fun f =>
      State.bump_keeps (State.modEng_keeps (Keeps.refl _ _) _ _ _ (by decide)) _ _ _ (by decide)
    unfold State.emitAll
    dsimp only
    repeat' first
      | exact ha.trans (ih _)
      | exact (hb _).trans (ih _)
      | with_reducible exact Keeps.refl _ _
      | split

theorem State.doEmit_keeps {m : Nat} {s t : State} (h : Keeps m s t) (x0 : ℕ) (x1 : ℕ) (x2 : ℕ) (x3 : ℕ) (hm : m ||| 2562 = m) : VKeeps m s (State.doEmit x0 x1 t x2 x3) := by
  refine VKeeps.step h ?_ hm
  unfold State.doEmit
  repeat' first
    | with_reducible exact Keeps.refl _ _
    | with_reducible apply State.emitAll_keeps
    | with_reducible apply State.modCtx_keeps
    | with_reducible apply Keeps.ite
    | exact trivial
    | with_reducible apply VKeeps.next
    | with_reducible apply VKeeps.skip
    | with_reducible apply VKeeps.jump
    | with_reducible apply VKeeps.wait
    | with_reducible apply VKeeps.stop
    | decide
    | split
    | dsimp only

theorem State.doFence_keeps {m : Nat} {s t : State} (h : Keeps m s t) (x0 : ℕ) (x1 : ℕ) (x2 : ℕ) (x3 : ℕ) (hm : m ||| 0 = m) : VKeeps m s (State.doFence x0 x1 t x2 x3) := by
  refine VKeeps.step h ?_ hm
  unfold State.doFence
  repeat' first
    | with_reducible exact Keeps.refl _ _
    | with_reducible apply Keeps.ite
    | exact trivial
    | with_reducible apply VKeeps.next
    | with_reducible apply VKeeps.skip
    | with_reducible apply VKeeps.jump
    | with_reducible apply VKeeps.wait
    | with_reducible apply VKeeps.stop
    | decide
    | split

theorem State.doHalt_keeps {m : Nat} {s t : State} (h : Keeps m s t) (x0 : ℕ) (x1 : ℕ) (x2 : ℕ) (x3 : ℕ) (hm : m ||| 6274 = m) : VKeeps m s (State.doHalt x0 x1 t x2 x3) := by
  refine VKeeps.step h ?_ hm
  unfold State.doHalt
  repeat' first
    | with_reducible exact Keeps.refl _ _
    | with_reducible apply State.svcHalt_keeps
    | with_reducible apply State.vxStopped_keeps
    | with_reducible apply State.setVxState_keeps
    | with_reducible apply Keeps.ite
    | exact trivial
    | with_reducible apply VKeeps.next
    | with_reducible apply VKeeps.skip
    | with_reducible apply VKeeps.jump
    | with_reducible apply VKeeps.wait
    | with_reducible apply VKeeps.stop
    | decide
    | split

theorem State.drawLanes_keeps {m : Nat} {s t : State} (h : Keeps m s t) (x0 : ℕ) (hm : m ||| 35184372088832 = m) : Keeps m s (State.drawLanes t x0).2 := by
  refine Keeps.step h ?_ hm
  clear h hm
  induction x0 generalizing t with
  | zero => exact Keeps.refl _ _
  | succ n ih => exact (State.draw_keeps (Keeps.refl _ _) (by decide)).trans ih

theorem State.doIbpop_keeps {m : Nat} {s t : State} (h : Keeps m s t) (x0 : ℕ) (x1 : ℕ) (x2 : ℕ) (x3 : ℕ) (hm : m ||| 35184372091394 = m) : VKeeps m s (State.doIbpop x0 x1 t x2 x3) := by
  refine VKeeps.step h ?_ hm
  unfold State.doIbpop
  repeat' first
    | with_reducible exact Keeps.refl _ _
    | with_reducible apply State.setVal_keeps
    | with_reducible apply State.modEng_keeps
    | with_reducible apply State.drawLanes_keeps
    | with_reducible apply State.modCtx_keeps
    | with_reducible apply State.vS_keeps
    | with_reducible apply Keeps.ite
    | exact trivial
    | with_reducible apply VKeeps.next
    | with_reducible apply VKeeps.skip
    | with_reducible apply VKeeps.jump
    | with_reducible apply VKeeps.wait
    | with_reducible apply VKeeps.stop
    | decide
    | split
    | dsimp only

theorem State.doJmp_keeps {m : Nat} {s t : State} (h : Keeps m s t) (x0 : ℕ) (x1 : ℕ) (x2 : ℕ) (x3 : ℕ) (hm : m ||| 0 = m) : VKeeps m s (State.doJmp x0 x1 t x2 x3) := by
  refine VKeeps.step h ?_ hm
  unfold State.doJmp
  repeat' first
    | with_reducible exact Keeps.refl _ _
    | with_reducible apply Keeps.ite
    | exact trivial
    | with_reducible apply VKeeps.next
    | with_reducible apply VKeeps.skip
    | with_reducible apply VKeeps.jump

theorem State.doJr_keeps {m : Nat} {s t : State} (h : Keeps m s t) (x0 : ℕ) (x1 : ℕ) (x2 : ℕ) (x3 : ℕ) (hm : m ||| 2048 = m) : VKeeps m s (State.doJr x0 x1 t x2 x3) := by
  refine VKeeps.step h ?_ hm
  unfold State.doJr
  repeat' first
    | with_reducible exact Keeps.refl _ _
    | with_reducible apply State.modCtx_keeps
    | with_reducible apply Keeps.ite
    | exact trivial
    | with_reducible apply VKeeps.next
    | with_reducible apply VKeeps.skip
    | with_reducible apply VKeeps.jump
    | with_reducible apply VKeeps.wait
    | with_reducible apply VKeeps.stop
    | decide

theorem State.doLoop_keeps {m : Nat} {s t : State} (h : Keeps m s t) (x0 : ℕ) (x1 : ℕ) (x2 : ℕ) (x3 : ℕ) (hm : m ||| 2048 = m) : VKeeps m s (State.doLoop x0 x1 t x2 x3) := by
  refine VKeeps.step h ?_ hm
  unfold State.doLoop
  repeat' first
    | with_reducible exact Keeps.refl _ _
    | with_reducible apply State.modCtx_keeps
    | with_reducible apply Keeps.ite
    | exact trivial
    | with_reducible apply VKeeps.next
    | with_reducible apply VKeeps.skip
    | with_reducible apply VKeeps.jump
    | with_reducible apply VKeeps.wait
    | with_reducible apply VKeeps.stop
    | decide
    | split
    | dsimp only

theorem State.doSadd_keeps {m : Nat} {s t : State} (h : Keeps m s t) (x0 : ℕ) (x1 : ℕ) (x2 : ℕ) (x3 : ℕ) (hm : m ||| 2048 = m) : VKeeps m s (State.doSadd x0 x1 t x2 x3) := by
  refine VKeeps.step h ?_ hm
  unfold State.doSadd
  repeat' first
    | with_reducible exact Keeps.refl _ _
    | with_reducible apply State.vS_keeps
    | with_reducible apply Keeps.ite
    | exact trivial
    | with_reducible apply VKeeps.next
    | with_reducible apply VKeeps.skip
    | with_reducible apply VKeeps.jump
    | with_reducible apply VKeeps.wait
    | with_reducible apply VKeeps.stop
    | decide

theorem State.doSaddi_keeps {m : Nat} {s t : State} (h : Keeps m s t) (x0 : ℕ) (x1 : ℕ) (x2 : ℕ) (x3 : ℕ) (hm : m ||| 2048 = m) : VKeeps m s (State.doSaddi x0 x1 t x2 x3) := by
  refine VKeeps.step h ?_ hm
  unfold State.doSaddi
  repeat' first
    | with_reducible exact Keeps.refl _ _
    | with_reducible apply State.vS_keeps
    | with_reducible apply Keeps.ite
    | exact trivial
    | with_reducible apply VKeeps.next
    | with_reducible apply VKeeps.skip
    | with_reducible apply VKeeps.jump
    | with_reducible apply VKeeps.wait
    | with_reducible apply VKeeps.stop
    | decide

theorem State.doScmp_keeps {m : Nat} {s t : State} (h : Keeps m s t) (x0 : ℕ) (x1 : ℕ) (x2 : ℕ) (x3 : ℕ) (hm : m ||| 2048 = m) : VKeeps m s (State.doScmp x0 x1 t x2 x3) := by
  refine VKeeps.step h ?_ hm
  unfold State.doScmp
  repeat' first
    | with_reducible exact Keeps.refl _ _
    | with_reducible apply State.vS_keeps
    | with_reducible apply Keeps.ite
    | exact trivial
    | with_reducible apply VKeeps.next
    | with_reducible apply VKeeps.skip
    | with_reducible apply VKeeps.jump
    | with_reducible apply VKeeps.wait
    | with_reducible apply VKeeps.stop
    | decide
    | split

theorem State.doSdone_keeps {m : Nat} {s t : State} (h : Keeps m s t) (x0 : ℕ) (x1 : ℕ) (x2 : ℕ) (x3 : ℕ) (hm : m ||| 2562 = m) : VKeeps m s (State.doSdone x0 x1 t x2 x3) := by
  refine VKeeps.step h ?_ hm
  unfold State.doSdone
  repeat' first
    | with_reducible exact Keeps.refl _ _
    | with_reducible apply State.modVx_keeps
    | with_reducible apply State.modEng_keeps
    | with_reducible apply State.bump_keeps
    | with_reducible apply Keeps.ite
    | exact trivial
    | with_reducible apply VKeeps.next
    | with_reducible apply VKeeps.skip
    | with_reducible apply VKeeps.jump
    | with_reducible apply VKeeps.wait
    | with_reducible apply VKeeps.stop
    | decide
    | split
    | dsimp only

theorem State.doSld_keeps {m : Nat} {s t : State} (h : Keeps m s t) (x0 : List ℕ) (x1 : ℕ) (x2 : ℕ) (x3 : ℕ) (x4 : ℕ) (hm : m ||| 2048 = m) : VKeeps m s (State.doSld x0 x1 x2 t x3 x4) := by
  refine VKeeps.step h ?_ hm
  unfold State.doSld
  repeat' first
    | with_reducible exact Keeps.refl _ _
    | with_reducible apply State.vS_keeps
    | with_reducible apply Keeps.ite
    | exact trivial
    | with_reducible apply VKeeps.next
    | with_reducible apply VKeeps.skip
    | with_reducible apply VKeeps.jump
    | with_reducible apply VKeeps.wait
    | with_reducible apply VKeeps.stop
    | decide
    | split
    | dsimp only

theorem State.doSlog_keeps {m : Nat} {s t : State} (h : Keeps m s t) (x0 : ℕ) (x1 : ℕ) (x2 : ℕ) (x3 : ℕ) (hm : m ||| 2048 = m) : VKeeps m s (State.doSlog x0 x1 t x2 x3) := by
  refine VKeeps.step h ?_ hm
  unfold State.doSlog
  repeat' first
    | with_reducible exact Keeps.refl _ _
    | with_reducible apply State.vS_keeps
    | with_reducible apply Keeps.ite
    | exact trivial
    | with_reducible apply VKeeps.next
    | with_reducible apply VKeeps.skip
    | with_reducible apply VKeeps.jump
    | with_reducible apply VKeeps.wait
    | with_reducible apply VKeeps.stop
    | decide

theorem State.doSlui_keeps {m : Nat} {s t : State} (h : Keeps m s t) (x0 : ℕ) (x1 : ℕ) (x2 : ℕ) (x3 : ℕ) (hm : m ||| 2048 = m) : VKeeps m s (State.doSlui x0 x1 t x2 x3) := by
  refine VKeeps.step h ?_ hm
  unfold State.doSlui
  repeat' first
    | with_reducible exact Keeps.refl _ _
    | with_reducible apply State.vS_keeps
    | with_reducible apply Keeps.ite
    | exact trivial
    | with_reducible apply VKeeps.next
    | with_reducible apply VKeeps.skip
    | with_reducible apply VKeeps.jump
    | with_reducible apply VKeeps.wait
    | with_reducible apply VKeeps.stop
    | decide

theorem State.doSmul_keeps {m : Nat} {s t : State} (h : Keeps m s t) (x0 : ℕ) (x1 : ℕ) (x2 : ℕ) (x3 : ℕ) (hm : m ||| 2048 = m) : VKeeps m s (State.doSmul x0 x1 t x2 x3) := by
  refine VKeeps.step h ?_ hm
  unfold State.doSmul
  repeat' first
    | with_reducible exact Keeps.refl _ _
    | with_reducible apply State.vS_keeps
    | with_reducible apply Keeps.ite
    | exact trivial
    | with_reducible apply VKeeps.next
    | with_reducible apply VKeeps.skip
    | with_reducible apply VKeeps.jump
    | with_reducible apply VKeeps.wait
    | with_reducible apply VKeeps.stop
    | decide
    | split

theorem State.doSshf_keeps {m : Nat} {s t : State} (h : Keeps m s t) (x0 : ℕ) (x1 : ℕ) (x2 : ℕ) (x3 : ℕ) (hm : m ||| 2048 = m) : VKeeps m s (State.doSshf x0 x1 t x2 x3) := by
  refine VKeeps.step h ?_ hm
  unfold State.doSshf
  repeat' first
    | with_reducible exact Keeps.refl _ _
    | with_reducible apply State.vS_keeps
    | with_reducible apply Keeps.ite
    | exact trivial
    | with_reducible apply VKeeps.next
    | with_reducible apply VKeeps.skip
    | with_reducible apply VKeeps.jump
    | with_reducible apply VKeeps.wait
    | with_reducible apply VKeeps.stop
    | decide
    | split

theorem State.doSst_keeps {m : Nat} {s t : State} (h : Keeps m s t) (x0 : ℕ) (x1 : ℕ) (x2 : ℕ) (x3 : ℕ) (hm : m ||| 16 = m) : VKeeps m s (State.doSst x0 x1 t x2 x3) := by
  refine VKeeps.step h ?_ hm
  unfold State.doSst
  repeat' first
    | with_reducible exact Keeps.refl _ _
    | with_reducible apply State.pokeLE_keeps
    | with_reducible apply Keeps.ite
    | exact trivial
    | with_reducible apply VKeeps.next
    | with_reducible apply VKeeps.skip
    | with_reducible apply VKeeps.jump
    | with_reducible apply VKeeps.wait
    | with_reducible apply VKeeps.stop
    | decide
    | split
    | dsimp only

theorem State.doSsub_keeps {m : Nat} {s t : State} (h : Keeps m s t) (x0 : ℕ) (x1 : ℕ) (x2 : ℕ) (x3 : ℕ) (hm : m ||| 2048 = m) : VKeeps m s (State.doSsub x0 x1 t x2 x3) := by
  refine VKeeps.step h ?_ hm
  unfold State.doSsub
  repeat' first
    | with_reducible exact Keeps.refl _ _
    | with_reducible apply State.vS_keeps
    | with_reducible apply Keeps.ite
    | exact trivial
    | with_reducible apply VKeeps.next
    | with_reducible apply VKeeps.skip
    | with_reducible apply VKeeps.jump
    | with_reducible apply VKeeps.wait
    | with_reducible apply VKeeps.stop
    | decide

theorem State.doSwait_keeps {m : Nat} {s t : State} (h : Keeps m s t) (x0 : ℕ) (x1 : ℕ) (x2 : ℕ) (x3 : ℕ) (hm : m ||| 2048 = m) : VKeeps m s (State.doSwait x0 x1 t x2 x3) := by
  refine VKeeps.step h ?_ hm
  unfold State.doSwait
  repeat' first
    | with_reducible exact Keeps.refl _ _
    | with_reducible apply State.modVx_keeps
    | with_reducible apply State.vS_keeps
    | with_reducible apply Keeps.ite
    | exact trivial
    | with_reducible apply VKeeps.next
    | with_reducible apply VKeeps.skip
    | with_reducible apply VKeeps.jump
    | with_reducible apply VKeeps.wait
    | with_reducible apply VKeeps.stop
    | decide
    | split
    | dsimp only

theorem State.vV_keeps {m : Nat} {s t : State} (h : Keeps m s t) (x0 : ℕ) (x1 : ℕ) (x2 : ℕ) (x3 : ℕ) (x4 : ℕ → ℕ) (hm : m ||| 2048 = m) : VKeeps m s (State.vV t x0 x1 x2 x3 x4) := by
  refine VKeeps.step h ?_ hm
  unfold State.vV
  repeat' first
    | with_reducible exact Keeps.refl _ _
    | with_reducible apply State.modCtx_keeps
    | with_reducible apply Keeps.ite
    | exact trivial
    | with_reducible apply VKeeps.next
    | with_reducible apply VKeeps.skip
    | with_reducible apply VKeeps.jump
    | with_reducible apply VKeeps.wait
    | with_reducible apply VKeeps.stop
    | decide

theorem State.doVadd_keeps {m : Nat} {s t : State} (h : Keeps m s t) (x0 : ℕ) (x1 : ℕ) (x2 : ℕ) (x3 : ℕ) (hm : m ||| 2048 = m) : VKeeps m s (State.doVadd x0 x1 t x2 x3) := by
  refine VKeeps.step h ?_ hm
  unfold State.doVadd
  repeat' first
    | with_reducible exact Keeps.refl _ _
    | with_reducible apply State.vV_keeps
    | with_reducible apply Keeps.ite
    | exact trivial
    | with_reducible apply VKeeps.next
    | with_reducible apply VKeeps.skip
    | with_reducible apply VKeeps.jump
    | with_reducible apply VKeeps.wait
    | with_reducible apply VKeeps.stop
    | decide

theorem State.doVcmp_keeps {m : Nat} {s t : State} (h : Keeps m s t) (x0 : ℕ) (x1 : ℕ) (x2 : ℕ) (x3 : ℕ) (hm : m ||| 35184372090880 = m) : VKeeps m s (State.doVcmp x0 x1 t x2 x3) := by
  refine VKeeps.step h ?_ hm
  unfold State.doVcmp
  repeat' first
    | with_reducible exact Keeps.refl _ _
    | with_reducible apply State.draw_keeps
    | with_reducible apply State.modCtx_keeps
    | with_reducible apply Keeps.ite
    | exact trivial
    | with_reducible apply VKeeps.next
    | with_reducible apply VKeeps.skip
    | with_reducible apply VKeeps.jump
    | with_reducible apply VKeeps.wait
    | with_reducible apply VKeeps.stop
    | decide
    | split
    | dsimp only

theorem State.doVcvt_keeps {m : Nat} {s t : State} (h : Keeps m s t) (x0 : ℕ) (x1 : ℕ) (x2 : ℕ) (x3 : ℕ) (hm : m ||| 2048 = m) : VKeeps m s (State.doVcvt x0 x1 t x2 x3) := by
  refine VKeeps.step h ?_ hm
  unfold State.doVcvt
  repeat' first
    | with_reducible exact Keeps.refl _ _
    | with_reducible apply State.modCtx_keeps
    | with_reducible apply Keeps.ite
    | exact trivial
    | with_reducible apply VKeeps.next
    | with_reducible apply VKeeps.skip
    | with_reducible apply VKeeps.jump
    | with_reducible apply VKeeps.wait
    | with_reducible apply VKeeps.stop
    | decide
    | split
    | dsimp only

theorem State.doVld_keeps {m : Nat} {s t : State} (h : Keeps m s t) (x0 : List ℕ) (x1 : ℕ) (x2 : ℕ) (x3 : ℕ) (x4 : ℕ) (hm : m ||| 2048 = m) : VKeeps m s (State.doVld x0 x1 x2 t x3 x4) := by
  refine VKeeps.step h ?_ hm
  unfold State.doVld
  repeat' first
    | with_reducible exact Keeps.refl _ _
    | with_reducible apply State.modCtx_keeps
    | with_reducible apply Keeps.ite
    | exact trivial
    | with_reducible apply VKeeps.next
    | with_reducible apply VKeeps.skip
    | with_reducible apply VKeeps.jump
    | with_reducible apply VKeeps.wait
    | with_reducible apply VKeeps.stop
    | decide
    | split
    | dsimp only

theorem State.doVlog_keeps {m : Nat} {s t : State} (h : Keeps m s t) (x0 : ℕ) (x1 : ℕ) (x2 : ℕ) (x3 : ℕ) (hm : m ||| 2048 = m) : VKeeps m s (State.doVlog x0 x1 t x2 x3) := by
  refine VKeeps.step h ?_ hm
  unfold State.doVlog
  repeat' first
    | with_reducible exact Keeps.refl _ _
    | with_reducible apply State.vV_keeps
    | with_reducible apply Keeps.ite
    | exact trivial
    | with_reducible apply VKeeps.next
    | with_reducible apply VKeeps.skip
    | with_reducible apply VKeeps.jump
    | with_reducible apply VKeeps.wait
    | with_reducible apply VKeeps.stop
    | decide

theorem State.doVmac_keeps {m : Nat} {s t : State} (h : Keeps m s t) (x0 : ℕ) (x1 : ℕ) (x2 : ℕ) (x3 : ℕ) (hm : m ||| 2048 = m) : VKeeps m s (State.doVmac x0 x1 t x2 x3) := by
  refine VKeeps.step h ?_ hm
  unfold State.doVmac
  repeat' first
    | with_reducible exact Keeps.refl _ _
    | with_reducible apply State.vV_keeps
    | with_reducible apply Keeps.ite
    | exact trivial
    | with_reducible apply VKeeps.next
    | with_reducible apply VKeeps.skip
    | with_reducible apply VKeeps.jump
    | with_reducible apply VKeeps.wait
    | with_reducible apply VKeeps.stop
    | decide

theorem State.doVmnx_keeps {m : Nat} {s t : State} (h : Keeps m s t) (x0 : ℕ) (x1 : ℕ) (x2 : ℕ) (x3 : ℕ) (hm : m ||| 2048 = m) : VKeeps m s (State.doVmnx x0 x1 t x2 x3) := by
  refine VKeeps.step h ?_ hm
  unfold State.doVmnx
  repeat' first
    | with_reducible exact Keeps.refl _ _
    | with_reducible apply State.vV_keeps
    | with_reducible apply Keeps.ite
    | exact trivial
    | with_reducible apply VKeeps.next
    | with_reducible apply VKeeps.skip
    | with_reducible apply VKeeps.jump
    | with_reducible apply VKeeps.wait
    | with_reducible apply VKeeps.stop
    | decide

theorem State.doVmov_keeps {m : Nat} {s t : State} (h : Keeps m s t) (x0 : ℕ) (x1 : ℕ) (x2 : ℕ) (x3 : ℕ) (hm : m ||| 2048 = m) : VKeeps m s (State.doVmov x0 x1 t x2 x3) := by
  refine VKeeps.step h ?_ hm
  unfold State.doVmov
  repeat' first
    | with_reducible exact Keeps.refl _ _
    | with_reducible apply State.vV_keeps
    | with_reducible apply State.vS_keeps
    | with_reducible apply State.modCtx_keeps
    | with_reducible apply Keeps.ite
    | exact trivial
    | with_reducible apply VKeeps.next
    | with_reducible apply VKeeps.skip
    | with_reducible apply VKeeps.jump
    | with_reducible apply VKeeps.wait
    | with_reducible apply VKeeps.stop
    | decide
    | split

theorem State.doVmul_keeps {m : Nat} {s t : State} (h : Keeps m s t) (x0 : ℕ) (x1 : ℕ) (x2 : ℕ) (x3 : ℕ) (hm : m ||| 2048 = m) : VKeeps m s (State.doVmul x0 x1 t x2 x3) := by
  refine VKeeps.step h ?_ hm
  unfold State.doVmul
  repeat' first
    | with_reducible exact Keeps.refl _ _
    | with_reducible apply State.vV_keeps
    | with_reducible apply Keeps.ite
    | exact trivial
    | with_reducible apply VKeeps.next
    | with_reducible apply VKeeps.skip
    | with_reducible apply VKeeps.jump
    | with_reducible apply VKeeps.wait
    | with_reducible apply VKeeps.stop
    | decide

theorem State.doVrand_keeps {m : Nat} {s t : State} (h : Keeps m s t) (x0 : ℕ) (x1 : ℕ) (x2 : ℕ) (x3 : ℕ) (hm : m ||| 2048 = m) : VKeeps m s (State.doVrand x0 x1 t x2 x3) := by
  refine VKeeps.step h ?_ hm
  unfold State.doVrand
  repeat' first
    | with_reducible exact Keeps.refl _ _
    | with_reducible apply State.vV_keeps
    | with_reducible apply Keeps.ite
    | exact trivial
    | with_reducible apply VKeeps.next
    | with_reducible apply VKeeps.skip
    | with_reducible apply VKeeps.jump
    | with_reducible apply VKeeps.wait
    | with_reducible apply VKeeps.stop
    | decide

theorem State.doVred_keeps {m : Nat} {s t : State} (h : Keeps m s t) (x0 : ℕ) (x1 : ℕ) (x2 : ℕ) (x3 : ℕ) (hm : m ||| 35184372090880 = m) : VKeeps m s (State.doVred x0 x1 t x2 x3) := by
  refine VKeeps.step h ?_ hm
  unfold State.doVred
  dsimp only
  split
  · exact State.vS_keeps (Keeps.refl _ _) _ _ _ _ _ (by decide)
  · trivial
  · split
    · exact State.vS_keeps (Keeps.refl _ _) _ _ _ _ _ (by decide)
    · exact State.vS_keeps (State.draw_keeps (Keeps.refl _ _) (by decide)) _ _ _ _ _ (by decide)

theorem State.doVsel_keeps {m : Nat} {s t : State} (h : Keeps m s t) (x0 : ℕ) (x1 : ℕ) (x2 : ℕ) (x3 : ℕ) (hm : m ||| 2048 = m) : VKeeps m s (State.doVsel x0 x1 t x2 x3) := by
  refine VKeeps.step h ?_ hm
  unfold State.doVsel
  repeat' first
    | with_reducible exact Keeps.refl _ _
    | with_reducible apply State.modCtx_keeps
    | with_reducible apply Keeps.ite
    | exact trivial
    | with_reducible apply VKeeps.next
    | with_reducible apply VKeeps.skip
    | with_reducible apply VKeeps.jump
    | with_reducible apply VKeeps.wait
    | with_reducible apply VKeeps.stop
    | decide

theorem State.doVshf_keeps {m : Nat} {s t : State} (h : Keeps m s t) (x0 : ℕ) (x1 : ℕ) (x2 : ℕ) (x3 : ℕ) (hm : m ||| 2048 = m) : VKeeps m s (State.doVshf x0 x1 t x2 x3) := by
  refine VKeeps.step h ?_ hm
  unfold State.doVshf
  repeat' first
    | with_reducible exact Keeps.refl _ _
    | with_reducible apply State.vV_keeps
    | with_reducible apply Keeps.ite
    | exact trivial
    | with_reducible apply VKeeps.next
    | with_reducible apply VKeeps.skip
    | with_reducible apply VKeeps.jump
    | with_reducible apply VKeeps.wait
    | with_reducible apply VKeeps.stop
    | decide
    | split

theorem State.doVst_keeps {m : Nat} {s t : State} (h : Keeps m s t) (x0 : ℕ) (x1 : ℕ) (x2 : ℕ) (x3 : ℕ) (hm : m ||| 16 = m) : VKeeps m s (State.doVst x0 x1 t x2 x3) := by
  refine VKeeps.step h ?_ hm
  unfold State.doVst
  repeat' first
    | with_reducible exact Keeps.refl _ _
    | with_reducible apply State.pokeLE_keeps
    | with_reducible apply Keeps.ite
    | exact trivial
    | with_reducible apply VKeeps.next
    | with_reducible apply VKeeps.skip
    | with_reducible apply VKeeps.jump
    | with_reducible apply VKeeps.wait
    | with_reducible apply VKeeps.stop
    | decide
    | split
    | dsimp only

theorem State.doVsub_keeps {m : Nat} {s t : State} (h : Keeps m s t) (x0 : ℕ) (x1 : ℕ) (x2 : ℕ) (x3 : ℕ) (hm : m ||| 2048 = m) : VKeeps m s (State.doVsub x0 x1 t x2 x3) := by
  refine VKeeps.step h ?_ hm
  unfold State.doVsub
  repeat' first
    | with_reducible exact Keeps.refl _ _
    | with_reducible apply State.vV_keeps
    | with_reducible apply Keeps.ite
    | exact trivial
    | with_reducible apply VKeeps.next
    | with_reducible apply VKeeps.skip
    | with_reducible apply VKeeps.jump
    | with_reducible apply VKeeps.wait
    | with_reducible apply VKeeps.stop
    | decide

theorem State.doWupd_keeps {m : Nat} {s t : State} (h : Keeps m s t) (x0 : ℕ) (x1 : ℕ) (x2 : ℕ) (x3 : ℕ) (hm : m ||| 2048 = m) : VKeeps m s (State.doWupd x0 x1 t x2 x3) := by
  refine VKeeps.step h ?_ hm
  unfold State.doWupd
  repeat' first
    | with_reducible exact Keeps.refl _ _
    | with_reducible apply State.modCtx_keeps
    | with_reducible apply Keeps.ite
    | exact trivial
    | with_reducible apply VKeeps.next
    | with_reducible apply VKeeps.skip
    | with_reducible apply VKeeps.jump
    | with_reducible apply VKeeps.wait
    | with_reducible apply VKeeps.stop
    | decide
    | split

theorem State.vxIssue_keeps {m : Nat} {s t : State} (h : Keeps m s t) (x0 : ℕ) (x1 : ℕ) (x2 : ℕ) (x3 : Sys2Proof.Machine.Xfer) (hm : m ||| 264192 = m) : VKeeps m s (State.vxIssue t x0 x1 x2 x3) := by
  refine VKeeps.step h ?_ hm
  unfold State.vxIssue
  repeat' first
    | with_reducible exact Keeps.refl _ _
    | (with_reducible apply State.xferStart_keeps; assumption)
    | with_reducible apply State.modVx_keeps
    | with_reducible apply Keeps.ite
    | exact trivial
    | with_reducible apply VKeeps.next
    | with_reducible apply VKeeps.skip
    | with_reducible apply VKeeps.jump
    | with_reducible apply VKeeps.wait
    | with_reducible apply VKeeps.stop
    | decide
    | split

theorem State.doXld_keeps {m : Nat} {s t : State} (h : Keeps m s t) (x0 : ℕ) (x1 : ℕ) (x2 : ℕ) (x3 : ℕ) (hm : m ||| 264192 = m) : VKeeps m s (State.doXld x0 x1 t x2 x3) := by
  refine VKeeps.step h ?_ hm
  unfold State.doXld
  repeat' first
    | with_reducible exact Keeps.refl _ _
    | with_reducible apply State.vxIssue_keeps
    | with_reducible apply Keeps.ite
    | exact trivial
    | with_reducible apply VKeeps.next
    | with_reducible apply VKeeps.skip
    | with_reducible apply VKeeps.jump
    | with_reducible apply VKeeps.wait
    | with_reducible apply VKeeps.stop
    | decide
    | split

theorem State.doXst_keeps {m : Nat} {s t : State} (h : Keeps m s t) (x0 : ℕ) (x1 : ℕ) (x2 : ℕ) (x3 : ℕ) (hm : m ||| 4295231618 = m) : VKeeps m s (State.doXst x0 x1 t x2 x3) := by
  refine VKeeps.step h ?_ hm
  unfold State.doXst
  repeat' first
    | with_reducible exact Keeps.refl _ _
    | with_reducible apply State.vxIssue_keeps
    | with_reducible apply State.vxFault_keeps
    | with_reducible apply State.setVal_keeps
    | with_reducible apply Keeps.ite
    | exact trivial
    | with_reducible apply VKeeps.next
    | with_reducible apply VKeeps.skip
    | with_reducible apply VKeeps.jump
    | with_reducible apply VKeeps.wait
    | with_reducible apply VKeeps.stop
    | decide
    | split
    | dsimp only

theorem State.doXwait_keeps {m : Nat} {s t : State} (h : Keeps m s t) (x0 : ℕ) (x1 : ℕ) (x2 : ℕ) (x3 : ℕ) (hm : m ||| 0 = m) : VKeeps m s (State.doXwait x0 x1 t x2 x3) := by
  refine VKeeps.step h ?_ hm
  unfold State.doXwait
  repeat' first
    | with_reducible exact Keeps.refl _ _
    | with_reducible apply Keeps.ite
    | exact trivial
    | with_reducible apply VKeeps.next
    | with_reducible apply VKeeps.skip
    | with_reducible apply VKeeps.jump
    | with_reducible apply VKeeps.wait
    | with_reducible apply VKeeps.stop
    | decide
    | split

theorem State.vxShow_keeps {m : Nat} {s t : State} (h : Keeps m s t) (x0 : ℕ) (x1 : ℕ) (x2 : ℕ) (x3 : ℕ) (hm : m ||| 2 = m) : Keeps m s (State.vxShow t x0 x1 x2 x3) := by
  refine Keeps.step h ?_ hm
  unfold State.vxShow
  repeat' first
    | with_reducible exact Keeps.refl _ _
    | with_reducible apply State.setVxState_keeps
    | with_reducible apply Keeps.ite
    | decide

theorem State.vxStep_keeps {m : Nat} {s t : State} (h : Keeps m s t) (bad : List Nat) (took c v op : Nat) (run : State → Nat → Nat → VOut)
    (hf : ∀ u x w, VKeeps m u (run u x w)) (hm : m ||| 4294969474 = m) : Keeps m s (t.vxStep bad took c v op run) := by
  refine h.trans ?_
  have hb : ∀ u r i n, Keeps m u (State.bump u r i n) := fun u r i n =>
    (Keeps.refl m u).step2 (State.bump_keeps (Keeps.refl 4294969474 _) _ _ _ (by decide)) hm rfl
  have hs : ∀ u x n, Keeps m u (u.vxShow c v x n) := fun u x n =>
    (Keeps.refl m u).step2 (State.vxShow_keeps (Keeps.refl 4294969474 _) _ _ _ _ (by decide)) hm rfl
  have hc : ∀ u x f, Keeps m u (u.modCtx c v x f) := fun u x f =>
    (Keeps.refl m u).step2 (State.modCtx_keeps (Keeps.refl 4294969474 _) _ _ _ _ (by decide)) hm rfl
  have hF : ∀ u x n, Keeps m u (u.vxFault c v x n) := fun u x n =>
    (Keeps.refl m u).step2 (State.vxFault_keeps (Keeps.refl 4294969474 _) _ _ _ _ (by decide)) hm rfl
  unfold State.vxStep
  split
  · exact Keeps.refl _ _
  · rename_i x _
    have ht : Keeps m t (if x = 1 then t.bump .VX_SVCCYC [c, v] took else t) := Keeps.ite (hb _ _ _ _) (Keeps.refl _ _)
    dsimp only
    split
    · exact ht.trans (hF _ _ _)
    · split
      · exact ht.trans (hF _ _ _)
      · split
        · exact ht.trans (hF _ _ _)
        · split
          · exact Keeps.refl _ _
          · have k := hf (if x = 1 then t.bump .VX_SVCCYC [c, v] took else t) x (t.peekLE (vcAddr c v (t.vctx c v x).pc) 4)
            split <;> rename_i e <;> rw [e] at k
            · exact ((((ht.trans k).trans (hc _ _ _)).trans (hs _ _ _)).trans (hb _ _ _ _))
            · exact ((((ht.trans k).trans (hc _ _ _)).trans (hs _ _ _)).trans (hb _ _ _ _))
            · exact ((((ht.trans k).trans (hc _ _ _)).trans (hs _ _ _)).trans (hb _ _ _ _))
            · exact ((ht.trans k).trans (hs _ _ _)).trans (hb _ _ _ _)
            · exact (ht.trans k).trans (hb _ _ _ _)
            · exact ht.trans (hF _ _ _)
            · exact Keeps.refl _ _

theorem State.vxTransferDone_keeps {m : Nat} {s t : State} (h : Keeps m s t) (x0 : List ℕ) (x1 : ℕ) (hm : m ||| 4307356818 = m) : Keeps m s (State.vxTransferDone t x0 x1) := by
  refine Keeps.step h ?_ hm
  unfold State.vxTransferDone
  repeat' first
    | with_reducible exact Keeps.refl _ _
    | with_reducible apply State.bump_keeps
    | with_reducible apply State.modXfer_keeps
    | with_reducible apply State.vxFree_keeps
    | with_reducible apply State.xferFail_keeps
    | with_reducible apply State.countStray_keeps
    | with_reducible apply State.vxFault_keeps
    | (with_reducible apply State.each_keeps <;> try (intros; beta_reduce))
    | with_reducible apply State.lineWrite_keeps
    | with_reducible apply State.poke_keeps
    | with_reducible apply Keeps.ite
    | decide
    | split
    | dsimp only

end Sys2Proof.Machine
end

