-- ==== Sys2Proof/Laws/KeepPorts.lean ====
section
/-! SUPPORT. What the operations of Machine/Ports.lean can do (the relation of Laws/Keep.lean). -/

namespace Sys2Proof.Machine

theorem State.stagWipe_keeps {m : Nat} {s t : State} (h : Keeps m s t) (x0 : ℕ) (x1 : ℕ) (x2 : ℕ) (hm : m ||| 2147483648 = m) : Keeps m s (State.stagWipe t x0 x1 x2) := by
  refine Keeps.step h ?_ hm
  unfold State.stagWipe
  repeat' first
    | with_reducible exact Keeps.refl _ _
    | with_reducible apply Keeps.ite
    | decide
    | split
    | dsimp only
    | (intro h; first | exact mwf_mput h _ _ | exact mwf_mmod h _ _ | exact mwf_filter h _ | exact mwf_mclear h _ _ | exact mwf_pokeMem h _ _ | rfl)
    | (with_reducible apply Keeps.staging_p)

theorem State.portLeaves_keeps {m : Nat} {s t : State} (h : Keeps m s t) (x0 : ℕ) (hm : m ||| 3997842 = m) : Keeps m s (State.portLeaves t x0) := by
  refine Keeps.step h ?_ hm
  unfold State.portLeaves
  repeat' first
    | with_reducible exact Keeps.refl _ _
    | (with_reducible apply State.each_keeps <;> try (intros; beta_reduce))
    | with_reducible apply State.haltAtHarvest_keeps
    | with_reducible apply State.refuseReqs_keeps
    | with_reducible apply Keeps.ite
    | decide

theorem State.unbindPort_keeps {m : Nat} {s t : State} (h : Keeps m s t) (x0 : ℕ) (hm : m ||| 3997842 = m) : Keeps m s (State.unbindPort t x0) := by
  refine Keeps.step h ?_ hm
  unfold State.unbindPort
  repeat' first
    | with_reducible exact Keeps.refl _ _
    | with_reducible apply State.setFld_keeps
    | with_reducible apply State.portLeaves_keeps
    | with_reducible apply Keeps.ite
    | decide

theorem State.setLink_keeps {m : Nat} {s t : State} (h : Keeps m s t) (x0 : ℕ) (x1 : ℕ) (hm : m ||| 2 = m) : Keeps m s (State.setLink t x0 x1) := by
  refine Keeps.step h ?_ hm
  unfold State.setLink
  repeat' first
    | with_reducible exact Keeps.refl _ _
    | with_reducible apply State.setFld_keeps
    | with_reducible apply Keeps.ite
    | decide

theorem State.gpRetry_keeps {m : Nat} {s t : State} (h : Keeps m s t) (x0 : ℕ) (hm : m ||| 2 = m) : Keeps m s (State.gpRetry t x0) := by
  refine Keeps.step h ?_ hm
  unfold State.gpRetry
  repeat' first
    | with_reducible exact Keeps.refl _ _
    | with_reducible apply State.setFld_keeps
    | with_reducible apply State.setLink_keeps
    | with_reducible apply Keeps.ite
    | decide

theorem State.badCw_keeps {m : Nat} {s t : State} (h : Keeps m s t) (x0 : ℕ) (hm : m ||| 2 = m) : Keeps m s (State.badCw t x0) := by
  refine Keeps.step h ?_ hm
  unfold State.badCw
  repeat' first
    | with_reducible exact Keeps.refl _ _
    | with_reducible apply State.bump_keeps
    | with_reducible apply Keeps.ite
    | decide

theorem State.hcCrd_keeps {m : Nat} {s t : State} (h : Keeps m s t) (x0 : ℕ) (x1 : ℕ) (x2 : ℕ) (hm : m ||| 4294967298 = m) : Keeps m s (State.hcCrd t x0 x1 x2) := by
  refine Keeps.step h ?_ hm
  unfold State.hcCrd
  repeat' first
    | with_reducible exact Keeps.refl _ _
    | with_reducible apply State.modGp_keeps
    | with_reducible apply State.badCw_keeps
    | with_reducible apply Keeps.ite
    | decide

theorem State.hcEvinWr_keeps {m : Nat} {s t : State} (h : Keeps m s t) (x0 : ℕ) (x1 : ℕ) (hm : m ||| 4294967298 = m) : Keeps m s (State.hcEvinWr t x0 x1) := by
  refine Keeps.step h ?_ hm
  unfold State.hcEvinWr
  repeat' first
    | with_reducible exact Keeps.refl _ _
    | with_reducible apply State.modGp_keeps
    | with_reducible apply State.badCw_keeps
    | with_reducible apply Keeps.ite
    | decide

theorem State.hcRd_keeps {m : Nat} {s t : State} (h : Keeps m s t) (x0 : ℕ) (x1 : ℕ) (x2 : ℕ) (hm : m ||| 524290 = m) : Keeps m s (State.hcRd t x0 x1 x2) := by
  refine Keeps.step h ?_ hm
  unfold State.hcRd
  repeat' first
    | with_reducible exact Keeps.refl _ _
    | with_reducible apply State.takeRd_keeps
    | with_reducible apply State.badCw_keeps
    | with_reducible apply Keeps.ite
    | decide

theorem State.hcEvdone_keeps {m : Nat} {s t : State} (h : Keeps m s t) (x0 : ℕ) (x1 : ℕ) (x2 : ℕ) (hm : m ||| 4294967298 = m) : Keeps m s (State.hcEvdone t x0 x1 x2) := by
  refine Keeps.step h ?_ hm
  unfold State.hcEvdone
  repeat' first
    | with_reducible exact Keeps.refl _ _
    | with_reducible apply State.modGp_keeps
    | with_reducible apply State.badCw_keeps
    | with_reducible apply Keeps.ite
    | decide

theorem State.ctrlLine_keeps {m : Nat} {s t u : State} {n o : Nat} {bs : List Byte} (e : t.ctrlLine n o bs = some u)
    (h : Keeps m s t) (hm : m ||| 4295491586 = m) : Keeps m s u := by
  refine h.step ?_ hm
  unfold State.ctrlLine at e
  dsimp only at e
  repeat' first
    | (with_reducible exact absurd e.symm (Option.some_ne_none _))
    | (with_reducible have e := Option.some.inj e; subst e)
    | split at e
  all_goals repeat' first
    | with_reducible exact Keeps.refl _ _
    | (with_reducible apply State.each_keeps <;> try (intros; beta_reduce))
    | with_reducible apply State.modGp_keeps
    | with_reducible apply State.hcCrd_keeps
    | with_reducible apply State.hcEvinWr_keeps
    | with_reducible apply State.hcRd_keeps
    | with_reducible apply State.hcEvdone_keeps
    | with_reducible apply Keeps.ite
    | decide


theorem State.stagPoke_keeps {m : Nat} {s t : State} (h : Keeps m s t) (x0 : ℕ) (x1 : ℕ) (x2 : List Sys2Proof.Byte) (hm : m ||| 2147483648 = m) : Keeps m s (State.stagPoke t x0 x1 x2) := by
  refine Keeps.step h ?_ hm
  unfold State.stagPoke
  repeat' first
    | with_reducible exact Keeps.refl _ _
    | with_reducible apply Keeps.ite
    | decide
    | split
    | dsimp only
    | (intro h; first | exact mwf_mput h _ _ | exact mwf_mmod h _ _ | exact mwf_filter h _ | exact mwf_mclear h _ _ | exact mwf_pokeMem h _ _ | rfl)
    | (with_reducible apply Keeps.staging_p)

theorem State.apertureWrite_keeps {m : Nat} {s t : State} (h : Keeps m s t) (x0 : ℕ) (x1 : ℕ) (x2 : List Sys2Proof.Byte) (hm : m ||| 6442975234 = m) : Keeps m s (State.apertureWrite t x0 x1 x2) := by
  refine Keeps.step h ?_ hm
  unfold State.apertureWrite
  have hb : Keeps 6442975234 t (t.bump .GP_WDROP [x0]) := State.bump_keeps (Keeps.refl _ _) _ _ _ (by decide)
  split
  · cases e : t.ctrlLine x0 x1 x2 with
    | none => exact hb
    | some u => exact State.ctrlLine_keeps e (Keeps.refl _ _) (by decide)
  · repeat' first
    | exact hb
    | with_reducible exact Keeps.refl _ _
    | (with_reducible apply State.ctrlLine_keeps; assumption)
    | with_reducible apply State.bump_keeps
    | with_reducible apply State.stagPoke_keeps
    | with_reducible apply Keeps.ite
    | decide


theorem State.bindPort_keeps {m : Nat} {s t : State} (h : Keeps m s t) (x0 : ℕ) (x1 : ℕ) (hm : m ||| 16777218 = m) : Keeps m s (State.bindPort t x0 x1) := by
  refine Keeps.step h ?_ hm
  unfold State.bindPort
  repeat' first
    | with_reducible exact Keeps.refl _ _
    | with_reducible apply State.wakeDomain_keeps
    | with_reducible apply State.setFld_keeps
    | with_reducible apply Keeps.ite
    | decide

theorem State.partStart_keeps {m : Nat} {s t : State} (h : Keeps m s t) (x0 : ℕ) (hm : m ||| 16777218 = m) : Keeps m s (State.partStart t x0) := by
  refine Keeps.step h ?_ hm
  unfold State.partStart
  repeat' first
    | with_reducible exact Keeps.refl _ _
    | with_reducible apply State.setFld_keeps
    | (with_reducible apply State.each_keeps <;> try (intros; beta_reduce))
    | with_reducible apply State.bindPort_keeps
    | with_reducible apply Keeps.ite
    | decide

theorem State.linkDisable_keeps {m : Nat} {s t : State} (h : Keeps m s t) (x0 : ℕ) (x1 : ℕ) (hm : m ||| 4298965138 = m) : Keeps m s (State.linkDisable t x0 x1) := by
  refine Keeps.step h ?_ hm
  unfold State.linkDisable
  repeat' first
    | with_reducible exact Keeps.refl _ _
    | with_reducible apply State.setFld_keeps
    | with_reducible apply State.setLink_keeps
    | with_reducible apply State.modGp_keeps
    | with_reducible apply State.post_keeps
    | with_reducible apply State.portLeaves_keeps
    | with_reducible apply Keeps.ite
    | decide

theorem State.clockTimeout_keeps {m : Nat} {s t : State} (h : Keeps m s t) (x0 : ℕ) (hm : m ||| 4298965138 = m) : Keeps m s (State.clockTimeout t x0) := by
  refine Keeps.step h ?_ hm
  unfold State.clockTimeout
  repeat' first
    | with_reducible exact Keeps.refl _ _
    | with_reducible apply State.linkDisable_keeps
    | with_reducible apply Keeps.ite
    | decide

theorem State.eventIn_keeps {m : Nat} {s t : State} (h : Keeps m s t) (x0 : ℕ) (hm : m ||| 4294967298 = m) : Keeps m s (State.eventIn t x0) := by
  refine Keeps.step h ?_ hm
  unfold State.eventIn
  repeat' first
    | with_reducible exact Keeps.refl _ _
    | with_reducible apply State.modGp_keeps
    | with_reducible apply State.bump_keeps
    | with_reducible apply Keeps.ite
    | decide
    | split
    | dsimp only

theorem State.hostLine_keeps {m : Nat} {s t : State} (h : Keeps m s t) (x0 : ℕ) (x1 : ℕ) (x2 : List Sys2Proof.Byte) (x3 : ℕ) (hm : m ||| 6446448786 = m) : Keeps m s (State.hostLine t x0 x1 x2 x3) := by
  refine Keeps.step h ?_ hm
  unfold State.hostLine
  repeat' first
    | with_reducible exact Keeps.refl _ _
    | with_reducible apply State.bump_keeps
    | with_reducible apply State.linkDisable_keeps
    | with_reducible apply State.apertureWrite_keeps
    | with_reducible apply Keeps.ite
    | decide

theorem State.modeWrite_keeps {m : Nat} {s t : State} (h : Keeps m s t) (x0 : ℕ) (x1 : ℕ) (x2 : Bool) (x3 : Bool) (hm : m ||| 4298965138 = m) : Keeps m s (State.modeWrite t x0 x1 x2 x3) := by
  refine Keeps.step h ?_ hm
  unfold State.modeWrite
  repeat' first
    | with_reducible exact Keeps.refl _ _
    | with_reducible apply State.linkDisable_keeps
    | with_reducible apply State.setFld_keeps
    | with_reducible apply State.setLink_keeps
    | with_reducible apply State.modGp_keeps
    | with_reducible apply Keeps.ite
    | decide

theorem State.selfRefresh_keeps {m : Nat} {s t : State} (h : Keeps m s t) (x0 : ℕ) (x1 : Bool) (hm : m ||| 4294967298 = m) : Keeps m s (State.selfRefresh t x0 x1) := by
  refine Keeps.step h ?_ hm
  unfold State.selfRefresh
  repeat' first
    | with_reducible exact Keeps.refl _ _
    | with_reducible apply State.modGp_keeps
    | with_reducible apply State.setLink_keeps
    | with_reducible apply Keeps.ite
    | decide

theorem State.trainStep_keeps {m : Nat} {s t : State} (h : Keeps m s t) (x0 : ℕ) (x1 : ℕ) (x2 : Bool) (hm : m ||| 4298965138 = m) : Keeps m s (State.trainStep t x0 x1 x2) := by
  refine Keeps.step h ?_ hm
  unfold State.trainStep
  repeat' first
    | with_reducible exact Keeps.refl _ _
    | with_reducible apply State.linkDisable_keeps
    | with_reducible apply State.modGp_keeps
    | with_reducible apply State.portLeaves_keeps
    | with_reducible apply State.setFld_keeps
    | with_reducible apply State.setLink_keeps
    | with_reducible apply Keeps.ite
    | decide

end Sys2Proof.Machine
end

