-- ==== Sys2Proof/Laws/KeepHarvest.lean ====
section
/-! SUPPORT. What the operations of Machine/Harvest.lean can do (the relation of Laws/Keep.lean). -/

namespace Sys2Proof.Machine

theorem State.emitDone_keeps {m : Nat} {s t : State} (h : Keeps m s t) (x0 : ℕ) (x1 : ℕ) (hm : m ||| 130 = m) : Keeps m s (State.emitDone t x0 x1) := by
  refine Keeps.step h ?_ hm
  unfold State.emitDone
  repeat' first
    | with_reducible exact Keeps.refl _ _
    | with_reducible apply State.modWg_keeps
    | with_reducible apply State.setWgState_keeps
    | with_reducible apply Keeps.ite
    | decide

theorem State.cnOpen_keeps {m : Nat} {s t : State} (h : Keeps m s t) (x0 : List ℕ) (x1 : ℕ) (x2 : ℕ) (hm : m ||| 1574802 = m) : Keeps m s (State.cnOpen t x0 x1 x2) := by
  refine Keeps.step h ?_ hm
  unfold State.cnOpen
  repeat' first
    | with_reducible exact Keeps.refl _ _
    | with_reducible apply State.modWg_keeps
    | with_reducible apply State.integTraces_keeps
    | with_reducible apply State.openCore_keeps
    | with_reducible apply State.mxOpen_keeps
    | with_reducible apply State.openEngine_keeps
    | with_reducible apply Keeps.ite
    | decide
    | split

theorem State.roundSum_keeps {m : Nat} {s t : State} (h : Keeps m s t) (x0 : ℕ) (x1 : Sys2Proof.Word) (hm : m ||| 130 = m) : Keeps m s (State.roundSum t x0 x1) := by
  refine Keeps.step h ?_ hm
  unfold State.roundSum
  repeat' first
    | with_reducible exact Keeps.refl _ _
    | with_reducible apply State.setVal_keeps
    | with_reducible apply State.modWg_keeps
    | with_reducible apply Keeps.ite
    | decide

theorem State.harvestRound_keeps {m : Nat} {s t : State} (h : Keeps m s t) (x0 : ℕ) (x1 : ℕ) (hm : m ||| 4294968450 = m) : Keeps m s (State.harvestRound t x0 x1) := by
  refine Keeps.step h ?_ hm
  unfold State.harvestRound
  repeat' first
    | with_reducible exact Keeps.refl _ _
    | with_reducible apply State.roundSum_keeps
    | with_reducible apply State.modWg_keeps
    | with_reducible apply State.closeStep_keeps
    | with_reducible apply State.setWgState_keeps
    | with_reducible apply Keeps.ite
    | decide

end Sys2Proof.Machine
end

