-- ==== Sys2Proof/Laws/KeepChecks.lean ====
section
/-! SUPPORT. What the operations of Machine/Checks.lean can do (the relation of Laws/Keep.lean). -/

namespace Sys2Proof.Machine

theorem State.askCheck_keeps {m : Nat} {s t : State} (h : Keeps m s t) (x0 : Sys2Proof.Machine.UnitRef) (x1 : ℕ) (x2 : Option (ℕ × ℕ)) (hm : m ||| 8589934592 = m) : Keeps m s (State.askCheck t x0 x1 x2) := by
  refine Keeps.step h ?_ hm
  unfold State.askCheck
  repeat' first
    | with_reducible exact Keeps.refl _ _
    | with_reducible apply Keeps.ite
    | decide
    | split
    | dsimp only
    | (intro h; first | exact mwf_mput h _ _ | exact mwf_mmod h _ _ | exact mwf_filter h _ | exact mwf_mclear h _ _ | exact mwf_pokeMem h _ _ | rfl)
    | (with_reducible apply Keeps.checks_p)

theorem State.unitReason_keeps {m : Nat} {s t : State} (h : Keeps m s t) (x0 : Sys2Proof.Machine.UnitRef) (x1 : ℕ) (hm : m ||| 4294967298 = m) : Keeps m s (State.unitReason t x0 x1) := by
  refine Keeps.step h ?_ hm
  unfold State.unitReason
  repeat' first
    | with_reducible exact Keeps.refl _ _
    | with_reducible apply State.post_keeps
    | with_reducible apply State.setFld_keeps
    | with_reducible apply State.tkReason_keeps
    | with_reducible apply State.setVal_keeps
    | with_reducible apply State.ksPost_keeps
    | with_reducible apply Keeps.ite
    | decide
    | split
    | dsimp only

theorem State.cmdChecked_keeps {m : Nat} {s t : State} (h : Keeps m s t) (x0 : Option (ℕ × ℕ)) (x1 : ℕ) (hm : m ||| 4294967296 = m) : Keeps m s (State.cmdChecked t x0 x1) := by
  refine Keeps.step h ?_ hm
  unfold State.cmdChecked
  repeat' first
    | with_reducible exact Keeps.refl _ _
    | with_reducible apply State.modGp_keeps
    | with_reducible apply Keeps.ite
    | decide
    | split

theorem State.ksRun_keeps {m : Nat} {s t : State} (h : Keeps m s t) (x0 : ℕ) (x1 : ℕ) (hm : m ||| 8194 = m) : Keeps m s (State.ksRun t x0 x1) := by
  refine Keeps.step h ?_ hm
  unfold State.ksRun
  repeat' first
    | with_reducible exact Keeps.refl _ _
    | with_reducible apply State.queueCommit_keeps
    | with_reducible apply State.ksShow_keeps
    | with_reducible apply State.modKs_keeps
    | with_reducible apply Keeps.ite
    | decide
    | split

theorem State.checkAccept_keeps {m : Nat} {s t : State} (h : Keeps m s t) (x0 : Sys2Proof.Machine.Check) (hm : m ||| 2199074124210 = m) : Keeps m s (State.checkAccept t x0) := by
  refine Keeps.step h ?_ hm
  unfold State.checkAccept
  repeat' first
    | with_reducible exact Keeps.refl _ _
    | with_reducible apply State.tbStart_keeps
    | with_reducible apply State.wgStart_keeps
    | with_reducible apply State.partStart_keeps
    | with_reducible apply State.bindPort_keeps
    | with_reducible apply State.setFld_keeps
    | with_reducible apply State.tkStart_keeps
    | with_reducible apply State.schedStart_keeps
    | with_reducible apply State.lsStart_keeps
    | with_reducible apply State.ksRun_keeps
    | with_reducible apply State.setVal_keeps
    | with_reducible apply State.modWg_keeps
    | with_reducible apply Keeps.ite
    | decide
    | split

theorem State.checkRefuse_keeps {m : Nat} {s t : State} (h : Keeps m s t) (x0 : Sys2Proof.Machine.Check) (x1 : ℕ) (hm : m ||| 4294967298 = m) : Keeps m s (State.checkRefuse t x0 x1) := by
  refine Keeps.step h ?_ hm
  unfold State.checkRefuse
  repeat' first
    | with_reducible exact Keeps.refl _ _
    | with_reducible apply State.unitReason_keeps
    | (with_reducible apply State.each_keeps <;> try (intros; beta_reduce))
    | with_reducible apply State.setVal_keeps
    | with_reducible apply Keeps.ite
    | decide
    | split

theorem State.checkOne_keeps {m : Nat} {s t : State} (h : Keeps m s t) (x0 : Sys2Proof.Machine.Check) (hm : m ||| 2203369091506 = m) : Keeps m s (State.checkOne t x0).2 := by
  refine Keeps.step h ?_ hm
  unfold State.checkOne
  repeat' first
    | with_reducible exact Keeps.refl _ _
    | with_reducible apply State.cmdChecked_keeps
    | with_reducible apply State.checkAccept_keeps
    | with_reducible apply State.checkRefuse_keeps
    | with_reducible apply Keeps.ite
    | decide

theorem State.checkEnd_keeps {m : Nat} {s t : State} (h : Keeps m s t) (hm : m ||| 2211959026098 = m) : Keeps m s (State.checkEnd t) := by
  refine Keeps.step h ?_ hm
  unfold State.checkEnd
  repeat' first
    | with_reducible exact Keeps.refl _ _
    | with_reducible apply State.checkOne_keeps
    | with_reducible apply Keeps.ite
    | decide
    | split
    | dsimp only
    | (intro h; first | exact mwf_mput h _ _ | exact mwf_mmod h _ _ | exact mwf_filter h _ | exact mwf_mclear h _ _ | exact mwf_pokeMem h _ _ | rfl)
    | (with_reducible apply Keeps.checks_p)

end Sys2Proof.Machine
end

