-- ==== Sys2Proof/Laws/KeepWipe.lean ====
section
/-! SUPPORT. What the operations of Machine/Wipe.lean can do (the relation of Laws/Keep.lean). -/

namespace Sys2Proof.Machine

theorem State.arbDrop_keeps {m : Nat} {s t : State} (h : Keeps m s t) (x0 : ℕ → Bool) (hm : m ||| 8716290 = m) : Keeps m s (State.arbDrop t x0) := by
  refine Keeps.step h ?_ hm
  unfold State.arbDrop
  repeat' first
    | with_reducible exact Keeps.refl _ _
    | (with_reducible apply State.each_keeps <;> try (intros; beta_reduce))
    | with_reducible apply State.modArb_keeps
    | with_reducible apply State.bump_keeps
    | with_reducible apply State.restartPieces_keeps
    | with_reducible apply Keeps.ite
    | decide

theorem State.unitsOff_keeps {m : Nat} {s t : State} (h : Keeps m s t) (x0 : ℕ) (x1 : ℕ) (x2 : Bool) (hm : m ||| 4332524690 = m) : Keeps m s (State.unitsOff t x0 x1 x2) := by
  refine Keeps.step h ?_ hm
  unfold State.unitsOff
  repeat' first
    | with_reducible exact Keeps.refl _ _
    | (with_reducible apply State.each_keeps <;> try (intros; beta_reduce))
    | with_reducible apply State.post_keeps
    | with_reducible apply State.enterDisabled_keeps
    | with_reducible apply State.tbStop_keeps
    | with_reducible apply State.schedStop_keeps
    | with_reducible apply State.lsStop_keeps
    | with_reducible apply State.tkStop_keeps
    | (with_reducible apply State.when_keeps <;> try (intros; beta_reduce))
    | with_reducible apply State.setFld_keeps
    | with_reducible apply Keeps.ite
    | decide

theorem State.xferDrop_keeps {m : Nat} {s t : State} (h : Keeps m s t) (x0 : ℕ → Bool) (hm : m ||| 3932178 = m) : Keeps m s (State.xferDrop t x0) := by
  refine Keeps.step h ?_ hm
  unfold State.xferDrop
  repeat' first
    | with_reducible exact Keeps.refl _ _
    | (with_reducible apply State.each_keeps <;> try (intros; beta_reduce))
    | with_reducible apply State.modXfer_keeps
    | with_reducible apply State.dropReq_keeps
    | with_reducible apply Keeps.ite
    | decide

theorem State.portWipe_keeps {m : Nat} {s t : State} (h : Keeps m s t) (x0 : ℕ) (hm : m ||| 6454837266 = m) : Keeps m s (State.portWipe t x0) := by
  refine Keeps.step h ?_ hm
  unfold State.portWipe
  repeat' first
    | with_reducible exact Keeps.refl _ _
    | with_reducible apply State.stagWipe_keeps
    | with_reducible apply State.xferDrop_keeps
    | with_reducible apply State.setFld_keeps
    | with_reducible apply State.arbDrop_keeps
    | with_reducible apply State.modGp_keeps
    | with_reducible apply Keeps.ite
    | decide

theorem State.setsReset_keeps {m : Nat} {s t : State} (h : Keeps m s t) (x0 : ℕ × ℕ → Bool) (hm : m ||| 4294979730 = m) : Keeps m s (State.setsReset t x0) := by
  refine Keeps.step h ?_ hm
  unfold State.setsReset
  repeat' first
    | with_reducible exact Keeps.refl _ _
    | (with_reducible apply State.each_keeps <;> try (intros; beta_reduce))
    | with_reducible apply State.lsResetCore_keeps
    | with_reducible apply State.commitAbandon_keeps
    | with_reducible apply State.restoreAbandon_keeps
    | with_reducible apply Keeps.ite
    | decide
    | split

theorem State.groupsHalt_keeps {m : Nat} {s t : State} (h : Keeps m s t) (x0 : ℕ → Bool) (x1 : ℕ) (hm : m ||| 128 = m) : Keeps m s (State.groupsHalt t x0 x1) := by
  refine Keeps.step h ?_ hm
  unfold State.groupsHalt
  repeat' first
    | with_reducible exact Keeps.refl _ _
    | (with_reducible apply State.each_keeps <;> try (intros; beta_reduce))
    | with_reducible apply State.haltAtHarvest_keeps
    | with_reducible apply Keeps.ite
    | decide

theorem State.setShownReset_keeps {m : Nat} {s t : State} (h : Keeps m s t) (x0 : ℕ) (hm : m ||| 2 = m) : Keeps m s (State.setShownReset t x0) := by
  refine Keeps.step h ?_ hm
  unfold State.setShownReset
  repeat' first
    | with_reducible exact Keeps.refl _ _
    | (with_reducible apply State.each_keeps <;> try (intros; beta_reduce))
    | with_reducible apply State.setVal_keeps
    | with_reducible apply Keeps.ite
    | decide

theorem State.clusterMsgs_keeps {m : Nat} {s t : State} (h : Keeps m s t) (x0 : ℕ) (hm : m ||| 4014098 = m) : Keeps m s (State.clusterMsgs t x0) := by
  refine Keeps.step h ?_ hm
  have k : Keeps 4014098 t ((t.mqDown x0 none).each (clusterTks x0) fun s t => s.modChan t fun _ => {}) :=
    (State.mqDown_keeps (Keeps.refl _ _) _ _ (by decide)).each _ _ fun u a => State.modChan_keeps (Keeps.refl _ _) _ _ (by decide)
  unfold State.clusterMsgs
  dsimp only
  generalize (t.mqDown x0 none).each (clusterTks x0) (fun s t => s.modChan t fun _ => {}) = u at k ⊢
  exact (k.comp_p (mput u.comp x0 []) (fun h => mwf_mput h _ _) (by decide)).bk_p (mclear u.bk (x0 * 8) 8) (fun h => mwf_mclear h _ _)
    (by decide)

theorem State.clusterRegs_keeps {m : Nat} {s t : State} (h : Keeps m s t) (x0 : ℕ) (hm : m ||| 2 = m) : Keeps m s (State.clusterRegs t x0) := by
  refine Keeps.step h ?_ hm
  unfold State.clusterRegs
  repeat' first
    | with_reducible exact Keeps.refl _ _
    | with_reducible apply Keeps.ite
    | decide
    | split
    | dsimp only
    | (intro h; first | exact mwf_mput h _ _ | exact mwf_mmod h _ _ | exact mwf_filter h _ | exact mwf_mclear h _ _ | exact mwf_pokeMem h _ _ | rfl)
    | (with_reducible apply Keeps.regs_p)

theorem State.engineStore_keeps {m : Nat} {s t : State} (h : Keeps m s t) (x0 : ℕ) (x1 : ℕ) (hm : m ||| 16 = m) : Keeps m s (State.engineStore t x0 x1) := by
  refine Keeps.step h ?_ hm
  unfold State.engineStore
  repeat' first
    | with_reducible exact Keeps.refl _ _
    | with_reducible apply State.wipe_keeps
    | with_reducible apply Keeps.ite
    | decide

theorem State.clusterStores_keeps {m : Nat} {s t : State} (h : Keeps m s t) (x0 : ℕ) (hm : m ||| 16 = m) : Keeps m s (State.clusterStores t x0) := by
  refine Keeps.step h ?_ hm
  unfold State.clusterStores
  repeat' first
    | with_reducible exact Keeps.refl _ _
    | with_reducible apply State.wipe_keeps
    | (with_reducible apply State.each_keeps <;> try (intros; beta_reduce))
    | with_reducible apply State.engineStore_keeps
    | with_reducible apply Keeps.ite
    | decide

theorem State.engineQueues_keeps {m : Nat} {s t : State} (h : Keeps m s t) (x0 : ℕ) (x1 : ℕ) (hm : m ||| 36608 = m) : Keeps m s (State.engineQueues t x0 x1) := by
  refine Keeps.step h ?_ hm
  unfold State.engineQueues
  repeat' first
    | with_reducible exact Keeps.refl _ _
    | with_reducible apply State.modRt_keeps
    | with_reducible apply State.modNc_keeps
    | with_reducible apply State.modEng_keeps
    | with_reducible apply State.modMx_keeps
    | with_reducible apply State.modVx_keeps
    | with_reducible apply Keeps.ite
    | decide

theorem State.clusterLose_keeps {m : Nat} {s t : State} (h : Keeps m s t) (x0 : ℕ) (hm : m ||| 12439314 = m) : Keeps m s (State.clusterLose t x0) := by
  refine Keeps.step h ?_ hm
  unfold State.clusterLose
  repeat' first
    | with_reducible exact Keeps.refl _ _
    | with_reducible apply State.setShownReset_keeps
    | with_reducible apply State.clusterMsgs_keeps
    | with_reducible apply State.refuseInto_keeps
    | with_reducible apply State.arbDrop_keeps
    | with_reducible apply State.xferDrop_keeps
    | with_reducible apply State.clusterRegs_keeps
    | with_reducible apply State.clusterStores_keeps
    | (with_reducible apply State.each_keeps <;> try (intros; beta_reduce))
    | with_reducible apply State.engineQueues_keeps
    | with_reducible apply Keeps.ite
    | decide

theorem State.clusterWipe_keeps {m : Nat} {s t : State} (h : Keeps m s t) (x0 : ℕ) (x1 : ℕ) (hm : m ||| 4307419026 = m) : Keeps m s (State.clusterWipe t x0 x1) := by
  refine Keeps.step h ?_ hm
  unfold State.clusterWipe
  repeat' first
    | with_reducible exact Keeps.refl _ _
    | with_reducible apply State.setsReset_keeps
    | with_reducible apply State.groupsHalt_keeps
    | with_reducible apply State.setFld_keeps
    | with_reducible apply State.setVal_keeps
    | with_reducible apply State.clusterLose_keeps
    | with_reducible apply Keeps.ite
    | decide

theorem State.partMemory_keeps {m : Nat} {s t : State} (h : Keeps m s t) (x0 : ℕ) (hm : m ||| 4307419026 = m) : Keeps m s (State.partMemory t x0) := by
  refine Keeps.step h ?_ hm
  unfold State.partMemory
  repeat' first
    | with_reducible exact Keeps.refl _ _
    | with_reducible apply State.wipe_keeps
    | (with_reducible apply State.each_keeps <;> try (intros; beta_reduce))
    | with_reducible apply State.clusterWipe_keeps
    | with_reducible apply Keeps.ite
    | decide

theorem State.partRelease_keeps {m : Nat} {s t : State} (h : Keeps m s t) (x0 : ℕ) (hm : m ||| 6488457106 = m) : Keeps m s (State.partRelease t x0) := by
  refine Keeps.step h ?_ hm
  unfold State.partRelease
  repeat' first
    | with_reducible exact Keeps.refl _ _
    | with_reducible apply State.ksRelease_keeps
    | with_reducible apply State.unitsOff_keeps
    | (with_reducible apply State.each_keeps <;> try (intros; beta_reduce))
    | with_reducible apply State.portWipe_keeps
    | with_reducible apply State.unbindPort_keeps
    | with_reducible apply State.partMemory_keeps
    | with_reducible apply State.setFld_keeps
    | with_reducible apply Keeps.ite
    | decide

theorem State.regWipe_keeps {m : Nat} {s t : State} (h : Keeps m s t) (x0 : ℕ) (x1 : ℕ) (hm : m ||| 2 = m) : Keeps m s (State.regWipe t x0 x1) := by
  refine Keeps.step h ?_ hm
  unfold State.regWipe
  repeat' first
    | with_reducible exact Keeps.refl _ _
    | with_reducible apply Keeps.ite
    | decide
    | split
    | dsimp only
    | (intro h; first | exact mwf_mput h _ _ | exact mwf_mmod h _ _ | exact mwf_filter h _ | exact mwf_mclear h _ _ | exact mwf_pokeMem h _ _ | rfl)
    | (with_reducible apply Keeps.regs_p)

theorem State.engineRegs_keeps {m : Nat} {s t : State} (h : Keeps m s t) (x0 : ℕ) (x1 : ℕ) (hm : m ||| 2 = m) : Keeps m s (State.engineRegs t x0 x1) := by
  refine Keeps.step h ?_ hm
  unfold State.engineRegs
  repeat' first
    | with_reducible exact Keeps.refl _ _
    | with_reducible apply State.regWipe_keeps
    | with_reducible apply Keeps.ite
    | decide

theorem State.coreWipe_keeps {m : Nat} {s t : State} (h : Keeps m s t) (x0 : ℕ) (x1 : ℕ) (hm : m ||| 4307402642 = m) : Keeps m s (State.coreWipe t x0 x1) := by
  refine Keeps.step h ?_ hm
  unfold State.coreWipe
  repeat' first
    | with_reducible exact Keeps.refl _ _
    | with_reducible apply State.setsReset_keeps
    | with_reducible apply State.groupsHalt_keeps
    | with_reducible apply State.refuseInto_keeps
    | with_reducible apply State.arbDrop_keeps
    | with_reducible apply State.xferDrop_keeps
    | with_reducible apply State.mqDown_keeps
    | with_reducible apply State.engineStore_keeps
    | with_reducible apply State.engineQueues_keeps
    | with_reducible apply State.engineRegs_keeps
    | with_reducible apply State.setVal_keeps
    | with_reducible apply Keeps.ite
    | decide

theorem State.partCommits_keeps {m : Nat} {s t : State} (h : Keeps m s t) (x0 : ℕ) (hm : m ||| 4294975490 = m) : Keeps m s (State.partCommits t x0) := by
  refine Keeps.step h ?_ hm
  unfold State.partCommits
  repeat' first
    | with_reducible exact Keeps.refl _ _
    | with_reducible apply State.commitAbandon_keeps
    | with_reducible apply State.restoresAbandon_keeps
    | with_reducible apply State.queueAbandon_keeps
    | with_reducible apply Keeps.ite
    | decide
    | split

theorem State.partWipe_keeps {m : Nat} {s t : State} (h : Keeps m s t) (x0 : ℕ) (hm : m ||| 6488457106 = m) : Keeps m s (State.partWipe t x0) := by
  refine Keeps.step h ?_ hm
  unfold State.partWipe
  repeat' first
    | with_reducible exact Keeps.refl _ _
    | with_reducible apply State.setFld_keeps
    | with_reducible apply State.partCommits_keeps
    | with_reducible apply State.unitsOff_keeps
    | with_reducible apply State.partMemory_keeps
    | with_reducible apply State.setVal_keeps
    | (with_reducible apply State.each_keeps <;> try (intros; beta_reduce))
    | with_reducible apply State.portWipe_keeps
    | with_reducible apply Keeps.ite
    | decide

theorem State.portLose_keeps {m : Nat} {s t : State} (h : Keeps m s t) (x0 : ℕ) (hm : m ||| 6454837394 = m) : Keeps m s (State.portLose t x0) := by
  refine Keeps.step h ?_ hm
  unfold State.portLose
  repeat' first
    | with_reducible exact Keeps.refl _ _
    | with_reducible apply State.portWipe_keeps
    | with_reducible apply State.unbindPort_keeps
    | with_reducible apply State.stagWipe_keeps
    | (with_reducible apply State.each_keeps <;> try (intros; beta_reduce))
    | with_reducible apply State.modChan_keeps
    | with_reducible apply State.modGp_keeps
    | with_reducible apply State.regWipe_keeps
    | with_reducible apply Keeps.ite
    | decide
    | split
    | dsimp only
    | (intro h; first | exact mwf_mput h _ _ | exact mwf_mmod h _ _ | exact mwf_filter h _ | exact mwf_mclear h _ _ | exact mwf_pokeMem h _ _ | rfl)
    | (with_reducible apply Keeps.comp_p)

theorem State.mxLose_keeps {m : Nat} {s t : State} (h : Keeps m s t) (x0 : ℕ) (hm : m ||| 3933714 = m) : Keeps m s (State.mxLose t x0) := by
  refine Keeps.step h ?_ hm
  unfold State.mxLose
  repeat' first
    | with_reducible exact Keeps.refl _ _
    | with_reducible apply State.xferDrop_keeps
    | with_reducible apply State.modEng_keeps
    | with_reducible apply State.modMx_keeps
    | with_reducible apply State.engineStore_keeps
    | with_reducible apply State.engineRegs_keeps
    | with_reducible apply Keeps.ite
    | decide

theorem State.partReleased_keeps {m : Nat} {s t : State} (h : Keeps m s t) (x0 : ℕ) (hm : m ||| 2 = m) : Keeps m s (State.partReleased t x0) := by
  refine Keeps.step h ?_ hm
  unfold State.partReleased
  repeat' first
    | with_reducible exact Keeps.refl _ _
    | with_reducible apply State.setFld_keeps
    | with_reducible apply Keeps.ite
    | decide

end Sys2Proof.Machine
end

