-- ==== Sys2Proof/Laws/KeepPower.lean ====
section
/-! SUPPORT. What the operations of Machine/Power.lean can do (the relation of Laws/Keep.lean). -/

namespace Sys2Proof.Machine

theorem State.pwPost_keeps {m : Nat} {s t : State} (h : Keeps m s t) (x0 : ℕ) (x1 : ℕ) (hm : m ||| 4294967298 = m) : Keeps m s (State.pwPost t x0 x1) := by
  refine Keeps.step h ?_ hm
  unfold State.pwPost
  repeat' first
    | with_reducible exact Keeps.refl _ _
    | with_reducible apply State.post_keeps
    | with_reducible apply State.setFld_keeps
    | with_reducible apply Keeps.ite
    | decide

theorem State.domLeave_keeps {m : Nat} {s t : State} (h : Keeps m s t) (x0 : ℕ) (hm : m ||| 12386450 = m) : Keeps m s (State.domLeave t x0) := by
  refine Keeps.step h ?_ hm
  unfold State.domLeave
  repeat' first
    | with_reducible exact Keeps.refl _ _
    | with_reducible apply State.mqDown_keeps
    | with_reducible apply State.arbDrop_keeps
    | with_reducible apply State.setLink_keeps
    | with_reducible apply State.portLeaves_keeps
    | with_reducible apply Keeps.ite
    | decide

theorem State.domBegin_keeps {m : Nat} {s t : State} (h : Keeps m s t) (x0 : ℕ) (x1 : ℕ) (hm : m ||| 29163666 = m) : Keeps m s (State.domBegin t x0 x1) := by
  refine Keeps.step h ?_ hm
  unfold State.domBegin
  repeat' first
    | with_reducible exact Keeps.refl _ _
    | with_reducible apply State.setFld_keeps
    | with_reducible apply State.modDom_keeps
    | with_reducible apply State.domLeave_keeps
    | with_reducible apply Keeps.ite
    | decide

theorem State.domStep_keeps {m : Nat} {s t : State} (h : Keeps m s t) (x0 : ℕ) (hm : m ||| 29163666 = m) : Keeps m s (State.domStep t x0) := by
  refine Keeps.step h ?_ hm
  unfold State.domStep
  repeat' first
    | with_reducible exact Keeps.refl _ _
    | with_reducible apply State.setFld_keeps
    | with_reducible apply State.domBegin_keeps
    | with_reducible apply Keeps.ite
    | decide

theorem State.pwReqWrite_keeps {m : Nat} {s t : State} (h : Keeps m s t) (x0 : ℕ) (x1 : ℕ) (x2 : Sys2Proof.Requester) (hm : m ||| 4324130962 = m) : Keeps m s (State.pwReqWrite t x0 x1 x2).2 := by
  refine Keeps.step h ?_ hm
  unfold State.pwReqWrite
  repeat' first
    | with_reducible exact Keeps.refl _ _
    | with_reducible apply State.pwPost_keeps
    | with_reducible apply State.setFld_keeps
    | with_reducible apply State.domStep_keeps
    | with_reducible apply Keeps.ite
    | decide
    | split
    | dsimp only

theorem State.ckPost_keeps {m : Nat} {s t : State} (h : Keeps m s t) (x0 : Option ℕ) (x1 : ℕ) (x2 : ℕ) (x3 : ℕ) (hm : m ||| 4294967298 = m) : Keeps m s (State.ckPost t x0 x1 x2 x3) := by
  refine Keeps.step h ?_ hm
  unfold State.ckPost
  repeat' first
    | with_reducible exact Keeps.refl _ _
    | with_reducible apply State.post_keeps
    | with_reducible apply State.setFld_keeps
    | with_reducible apply Keeps.ite
    | decide

theorem State.vidUpdate_keeps {m : Nat} {s t : State} (h : Keeps m s t) (x0 : ℕ) (hm : m ||| 2 = m) : Keeps m s (State.vidUpdate t x0) := by
  refine Keeps.step h ?_ hm
  unfold State.vidUpdate
  repeat' first
    | with_reducible exact Keeps.refl _ _
    | with_reducible apply State.setFld_keeps
    | with_reducible apply Keeps.ite
    | decide

theorem State.clkUpdate_keeps {m : Nat} {s t : State} (h : Keeps m s t) (x0 : ℕ) (hm : m ||| 17179869186 = m) : Keeps m s (State.clkUpdate t x0) := by
  refine Keeps.step h ?_ hm
  unfold State.clkUpdate
  repeat' first
    | with_reducible exact Keeps.refl _ _
    | with_reducible apply State.setFld_keeps
    | with_reducible apply State.modClk_keeps
    | with_reducible apply State.vidUpdate_keeps
    | with_reducible apply Keeps.ite
    | decide

theorem State.ckCoreWrite_keeps {m : Nat} {s t : State} (h : Keeps m s t) (x0 : ℕ) (x1 : ℕ) (x2 : Sys2Proof.Requester) (hm : m ||| 21474836482 = m) : Keeps m s (State.ckCoreWrite t x0 x1 x2).2 := by
  refine Keeps.step h ?_ hm
  unfold State.ckCoreWrite
  repeat' first
    | with_reducible exact Keeps.refl _ _
    | with_reducible apply State.ckPost_keeps
    | with_reducible apply State.setFld_keeps
    | with_reducible apply State.clkUpdate_keeps
    | with_reducible apply Keeps.ite
    | decide
    | split
    | dsimp only

theorem State.noteThrot_keeps {m : Nat} {s t : State} (h : Keeps m s t) (hm : m ||| 2 = m) : Keeps m s (State.noteThrot t) := by
  refine Keeps.step h ?_ hm
  unfold State.noteThrot
  repeat' first
    | with_reducible exact Keeps.refl _ _
    | with_reducible apply State.setFld_keeps
    | with_reducible apply Keeps.ite
    | decide

theorem State.fabStart_keeps {m : Nat} {s t : State} (h : Keeps m s t) (x0 : ℕ) (x1 : ℕ) (hm : m ||| 67108866 = m) : Keeps m s (State.fabStart t x0 x1) := by
  refine Keeps.step h ?_ hm
  unfold State.fabStart
  repeat' first
    | with_reducible exact Keeps.refl _ _
    | with_reducible apply State.modHf_keeps
    | with_reducible apply State.setFld_keeps
    | with_reducible apply State.vidUpdate_keeps
    | with_reducible apply State.quiesce_keeps
    | with_reducible apply Keeps.ite
    | decide

theorem State.ckFabWrite_keeps {m : Nat} {s t : State} (h : Keeps m s t) (x0 : ℕ) (x1 : ℕ) (x2 : Sys2Proof.Requester) (hm : m ||| 4362076162 = m) : Keeps m s (State.ckFabWrite t x0 x1 x2).2 := by
  refine Keeps.step h ?_ hm
  unfold State.ckFabWrite
  repeat' first
    | with_reducible exact Keeps.refl _ _
    | with_reducible apply State.ckPost_keeps
    | with_reducible apply State.noteThrot_keeps
    | with_reducible apply State.setFld_keeps
    | with_reducible apply State.fabStart_keeps
    | with_reducible apply Keeps.ite
    | decide
    | split
    | dsimp only

theorem State.banksReturn_keeps {m : Nat} {s t : State} (h : Keeps m s t) (x0 : ℕ) (hm : m ||| 16386 = m) : Keeps m s (State.banksReturn t x0) := by
  refine Keeps.step h ?_ hm
  unfold State.banksReturn
  repeat' first
    | with_reducible exact Keeps.refl _ _
    | (with_reducible apply State.each_keeps <;> try (intros; beta_reduce))
    | with_reducible apply State.modBk_keeps
    | with_reducible apply State.setBkBit_keeps
    | with_reducible apply Keeps.ite
    | decide

theorem State.coreRelock_keeps {m : Nat} {s t : State} (h : Keeps m s t) (x0 : ℕ) (hm : m ||| 17179869186 = m) : Keeps m s (State.coreRelock t x0) := by
  refine Keeps.step h ?_ hm
  unfold State.coreRelock
  repeat' first
    | with_reducible exact Keeps.refl _ _
    | with_reducible apply State.modClk_keeps
    | with_reducible apply State.setFld_keeps
    | with_reducible apply State.vidUpdate_keeps
    | with_reducible apply Keeps.ite
    | decide

theorem State.domLose_keeps {m : Nat} {s t : State} (h : Keeps m s t) (x0 : ℕ) (hm : m ||| 6454890386 = m) : Keeps m s (State.domLose t x0) := by
  refine Keeps.step h ?_ hm
  unfold State.domLose
  repeat' first
    | with_reducible exact Keeps.refl _ _
    | with_reducible apply State.clusterLose_keeps
    | with_reducible apply State.mxLose_keeps
    | with_reducible apply State.portLose_keeps
    | with_reducible apply State.regWipe_keeps
    | with_reducible apply Keeps.ite
    | decide
    | split
    | dsimp only
    | (intro h; first | exact mwf_mput h _ _ | exact mwf_mmod h _ _ | exact mwf_filter h _ | exact mwf_mclear h _ _ | exact mwf_pokeMem h _ _ | rfl)
    | (with_reducible apply Keeps.mem_p)
    | (with_reducible apply Keeps.wg_p)

theorem State.domArrive_keeps {m : Nat} {s t : State} (h : Keeps m s t) (x0 : ℕ) (x1 : ℕ) (hm : m ||| 6454890386 = m) : Keeps m s (State.domArrive t x0 x1) := by
  refine Keeps.step h ?_ hm
  unfold State.domArrive
  repeat' first
    | with_reducible exact Keeps.refl _ _
    | with_reducible apply State.banksReturn_keeps
    | with_reducible apply State.setFld_keeps
    | with_reducible apply State.domLose_keeps
    | with_reducible apply State.regWipe_keeps
    | with_reducible apply State.bump_keeps
    | with_reducible apply State.setLink_keeps
    | with_reducible apply Keeps.ite
    | decide

theorem State.domDone_keeps {m : Nat} {s t : State} (h : Keeps m s t) (x0 : ℕ) (hm : m ||| 6471667602 = m) : Keeps m s (State.domDone t x0) := by
  refine Keeps.step h ?_ hm
  unfold State.domDone
  repeat' first
    | with_reducible exact Keeps.refl _ _
    | with_reducible apply State.domArrive_keeps
    | with_reducible apply State.modDom_keeps
    | with_reducible apply State.setFld_keeps
    | with_reducible apply State.vidUpdate_keeps
    | with_reducible apply Keeps.ite
    | decide

theorem State.domReturn_keeps {m : Nat} {s t : State} (h : Keeps m s t) (x0 : ℕ) (hm : m ||| 29163666 = m) : Keeps m s (State.domReturn t x0) := by
  refine Keeps.step h ?_ hm
  unfold State.domReturn
  repeat' first
    | with_reducible exact Keeps.refl _ _
    | with_reducible apply State.domStep_keeps
    | with_reducible apply State.modDom_keeps
    | with_reducible apply Keeps.ite
    | decide

theorem State.domWake_keeps {m : Nat} {s t : State} (h : Keeps m s t) (x0 : ℕ) (x1 : ℕ) (hm : m ||| 16777218 = m) : Keeps m s (State.domWake t x0 x1) := by
  refine Keeps.step h ?_ hm
  unfold State.domWake
  repeat' first
    | with_reducible exact Keeps.refl _ _
    | with_reducible apply State.wakeDomain_keeps
    | with_reducible apply Keeps.ite
    | decide

theorem State.droop_keeps {m : Nat} {s t : State} (h : Keeps m s t) (x0 : ℕ) (hm : m ||| 17179869186 = m) : Keeps m s (State.droop t x0) := by
  refine Keeps.step h ?_ hm
  unfold State.droop
  repeat' first
    | with_reducible exact Keeps.refl _ _
    | with_reducible apply State.modClk_keeps
    | with_reducible apply State.bump_keeps
    | with_reducible apply Keeps.ite
    | decide

theorem State.droopEnd_keeps {m : Nat} {s t : State} (h : Keeps m s t) (x0 : ℕ) (x1 : ℕ) (x2 : Bool) (hm : m ||| 17179869186 = m) : Keeps m s (State.droopEnd t x0 x1 x2) := by
  refine Keeps.step h ?_ hm
  unfold State.droopEnd
  repeat' first
    | with_reducible exact Keeps.refl _ _
    | with_reducible apply State.modClk_keeps
    | with_reducible apply State.bump_keeps
    | with_reducible apply Keeps.ite
    | decide

theorem State.fabAbandon_keeps {m : Nat} {s t : State} (h : Keeps m s t) (x0 : ℕ) (hm : m ||| 4362076162 = m) : Keeps m s (State.fabAbandon t x0) := by
  refine Keeps.step h ?_ hm
  unfold State.fabAbandon
  repeat' first
    | with_reducible exact Keeps.refl _ _
    | with_reducible apply State.setFld_keeps
    | with_reducible apply State.ckPost_keeps
    | with_reducible apply State.modHf_keeps
    | with_reducible apply State.noteThrot_keeps
    | with_reducible apply State.vidUpdate_keeps
    | with_reducible apply State.resumeHalf_keeps
    | with_reducible apply Keeps.ite
    | decide

theorem State.fabRelock_keeps {m : Nat} {s t : State} (h : Keeps m s t) (x0 : ℕ) (hm : m ||| 4898947074 = m) : Keeps m s (State.fabRelock t x0) := by
  refine Keeps.step h ?_ hm
  unfold State.fabRelock
  repeat' first
    | with_reducible exact Keeps.refl _ _
    | with_reducible apply State.fabAbandon_keeps
    | with_reducible apply State.setFld_keeps
    | with_reducible apply State.modHf_keeps
    | with_reducible apply State.remask_keeps
    | with_reducible apply State.updateCaps_keeps
    | with_reducible apply State.noteThrot_keeps
    | with_reducible apply State.vidUpdate_keeps
    | with_reducible apply State.resumeHalf_keeps
    | with_reducible apply Keeps.ite
    | decide

theorem State.i3cAddress_keeps {m : Nat} {s t : State} (h : Keeps m s t) (x0 : ℕ) (hm : m ||| 34359738368 = m) : Keeps m s (State.i3cAddress t x0) := by
  refine Keeps.step h ?_ hm
  unfold State.i3cAddress
  repeat' first
    | with_reducible exact Keeps.refl _ _
    | with_reducible apply State.modPw_keeps
    | with_reducible apply Keeps.ite
    | decide

theorem State.i3cOffset_keeps {m : Nat} {s t : State} (h : Keeps m s t) (x0 : Sys2Proof.Byte) (hm : m ||| 34359738368 = m) : Keeps m s (State.i3cOffset t x0) := by
  refine Keeps.step h ?_ hm
  unfold State.i3cOffset
  repeat' first
    | with_reducible exact Keeps.refl _ _
    | with_reducible apply State.modPw_keeps
    | with_reducible apply Keeps.ite
    | decide

theorem State.i3cRead_keeps {m : Nat} {s t : State} (h : Keeps m s t) (x0 : ℕ) (hm : m ||| 34359738368 = m) : Keeps m s (State.i3cRead t x0) := by
  refine Keeps.step h ?_ hm
  unfold State.i3cRead
  repeat' first
    | with_reducible exact Keeps.refl _ _
    | with_reducible apply State.modPw_keeps
    | with_reducible apply Keeps.ite
    | decide

theorem State.peakEnd_keeps {m : Nat} {s t : State} (h : Keeps m s t) (hm : m ||| 34359738368 = m) : Keeps m s (State.peakEnd t) := by
  refine Keeps.step h ?_ hm
  unfold State.peakEnd
  repeat' first
    | with_reducible exact Keeps.refl _ _
    | with_reducible apply State.modPw_keeps
    | with_reducible apply Keeps.ite
    | decide

theorem State.powerEstimate_keeps {m : Nat} {s t : State} (h : Keeps m s t) (x0 : ℕ) (x1 : ℕ) (hm : m ||| 38654705666 = m) : Keeps m s (State.powerEstimate t x0 x1) := by
  refine Keeps.step h ?_ hm
  unfold State.powerEstimate
  repeat' first
    | with_reducible exact Keeps.refl _ _
    | with_reducible apply State.modPw_keeps
    | with_reducible apply State.setFld_keeps
    | with_reducible apply State.bump_keeps
    | with_reducible apply State.ckPost_keeps
    | with_reducible apply Keeps.ite
    | decide

theorem State.powerStep_keeps {m : Nat} {s t : State} (h : Keeps m s t) (x0 : ℕ) (x1 : Bool) (hm : m ||| 21474836482 = m) : Keeps m s (State.powerStep t x0 x1) := by
  refine Keeps.step h ?_ hm
  unfold State.powerStep
  repeat' first
    | with_reducible exact Keeps.refl _ _
    | with_reducible apply State.ckPost_keeps
    | with_reducible apply State.noteThrot_keeps
    | (with_reducible apply State.each_keeps <;> try (intros; beta_reduce))
    | with_reducible apply State.clkUpdate_keeps
    | with_reducible apply State.modClk_keeps
    | with_reducible apply Keeps.ite
    | decide

theorem State.railCheck_keeps {m : Nat} {s t : State} (h : Keeps m s t) (x0 : ℕ) (x1 : Bool) (hm : m ||| 21541945346 = m) : Keeps m s (State.railCheck t x0 x1) := by
  refine Keeps.step h ?_ hm
  unfold State.railCheck
  repeat' first
    | with_reducible exact Keeps.refl _ _
    | with_reducible apply State.setFld_keeps
    | (with_reducible apply State.each_keeps <;> try (intros; beta_reduce))
    | with_reducible apply State.modClk_keeps
    | with_reducible apply State.quiesce_keeps
    | with_reducible apply State.modHf_keeps
    | with_reducible apply State.ckPost_keeps
    | with_reducible apply State.vidUpdate_keeps
    | with_reducible apply Keeps.ite
    | decide

theorem State.trip_keeps {m : Nat} {s t : State} (h : Keeps m s t) (hm : m ||| 481036337150 = m) : Keeps m s (State.trip t) := by
  refine Keeps.step h ?_ hm
  unfold State.trip
  dsimp only
  refine State.modBoot_keeps (State.modPw_keeps (State.modKs_keeps (Keeps.each (State.setFld_keeps (Keeps.each ?_ _ _ fun u n => ?_) _ _ _ _
    (by decide)) _ _ fun u c => Keeps.ite ?_ (Keeps.refl _ _)) _ (by decide)) _ (by decide)) _ (by decide)
  · refine ⟨fun p hp => ?_, fun w => ?_, Sec.Kept.refl _, le_refl _⟩
    · cases p <;> first | rfl | exact absurd hp (by decide)
    · exact { regs := mwf_filter w.regs _, latches := rfl, helds := rfl, mem := mwf_filter w.mem _, tb := rfl, tbi := rfl, wg := rfl, nc := rfl,
              eng := rfl, mx := rfl, vx := rfl, ls := rfl, bk := rfl, rt := rfl, sdir := rfl, lane := rfl, xfer := rfl, chan := rfl, comp := rfl,
              oldEdges := rfl, arb := rfl, dom := rfl, sch := rfl, half := rfl, slotA := rfl, slotB := rfl, smapA := rfl, smapB := rfl,
              staging := rfl, gp := rfl, clk := rfl, bist := w.bist, bc := w.bc, flash := w.flash }
  · exact State.setFld_keeps (State.setFld_keeps (State.setFld_keeps (Keeps.refl _ _) _ _ _ _ (by decide)) _ _ _ _ (by decide)) _ _ _ _ (by decide)
  · exact State.setFld_keeps (Keeps.refl _ _) _ _ _ _ (by decide)

theorem State.sensorSample_keeps {m : Nat} {s t : State} (h : Keeps m s t) (x0 : ℕ) (x1 : Sys2Proof.Half) (hm : m ||| 481036337150 = m) : Keeps m s (State.sensorSample t x0 x1) := by
  refine Keeps.step h ?_ hm
  unfold State.sensorSample
  repeat' first
    | with_reducible exact Keeps.refl _ _
    | with_reducible apply State.setVal_keeps
    | with_reducible apply State.setFld_keeps
    | with_reducible apply State.trip_keeps
    | with_reducible apply State.modPw_keeps
    | with_reducible apply Keeps.ite
    | decide

theorem State.thermFabric_keeps {m : Nat} {s t : State} (h : Keeps m s t) (x0 : ℕ) (x1 : Bool) (hm : m ||| 4362076162 = m) : Keeps m s (State.thermFabric t x0 x1) := by
  refine Keeps.step h ?_ hm
  unfold State.thermFabric
  repeat' first
    | with_reducible exact Keeps.refl _ _
    | with_reducible apply State.noteThrot_keeps
    | with_reducible apply State.fabStart_keeps
    | with_reducible apply State.ckPost_keeps
    | with_reducible apply Keeps.ite
    | decide

theorem State.thermStep_keeps {m : Nat} {s t : State} (h : Keeps m s t) (x0 : ℕ) (x1 : Bool) (hm : m ||| 21474836482 = m) : Keeps m s (State.thermStep t x0 x1) := by
  refine Keeps.step h ?_ hm
  unfold State.thermStep
  repeat' first
    | with_reducible exact Keeps.refl _ _
    | with_reducible apply State.ckPost_keeps
    | with_reducible apply State.noteThrot_keeps
    | with_reducible apply State.clkUpdate_keeps
    | with_reducible apply State.modClk_keeps
    | with_reducible apply Keeps.ite
    | decide

end Sys2Proof.Machine
end

