-- ==== Sys2Proof/Laws/KeepCounters.lean ====
section
/-! SUPPORT. What the operations of Machine/Counters.lean can do (the relation of Laws/Keep.lean). -/

namespace Sys2Proof.Machine

theorem State.pcWinWrite_keeps {m : Nat} {s t : State} (h : Keeps m s t) (x0 : ℕ) (x1 : Sys2Proof.Requester) (hm : m ||| 4294967298 = m) : Keeps m s (State.pcWinWrite t x0 x1).2 := by
  refine Keeps.step h ?_ hm
  unfold State.pcWinWrite
  repeat' first
    | with_reducible exact Keeps.refl _ _
    | with_reducible apply State.post_keeps
    | with_reducible apply State.setFld_keeps
    | with_reducible apply Keeps.ite
    | decide
    | split
    | dsimp only

theorem State.rake_keeps {m : Nat} {s t : State} (h : Keeps m s t) (x0 : ℕ) (x1 : ℕ) (hm : m ||| 1099511627778 = m) : Keeps m s (State.rake t x0 x1) := by
  refine Keeps.step h ?_ hm
  unfold State.rake
  repeat' first
    | with_reducible exact Keeps.refl _ _
    | with_reducible apply State.setFld_keeps
    | with_reducible apply State.modPcs_keeps
    | with_reducible apply Keeps.ite
    | decide

theorem State.rakeWrite_keeps {m : Nat} {s t : State} (h : Keeps m s t) (x0 : ℕ) (x1 : Sys2Proof.Requester) (hm : m ||| 1103806595074 = m) : Keeps m s (State.rakeWrite t x0 x1).2 := by
  refine Keeps.step h ?_ hm
  unfold State.rakeWrite
  repeat' first
    | with_reducible exact Keeps.refl _ _
    | with_reducible apply State.post_keeps
    | with_reducible apply State.setFld_keeps
    | with_reducible apply State.rake_keeps
    | with_reducible apply Keeps.ite
    | decide
    | split

theorem State.mirrorCluster_keeps {m : Nat} {s t : State} (h : Keeps m s t) (x0 : ℕ) (x1 : ℕ) (hm : m ||| 2147483648 = m) : Keeps m s (State.mirrorCluster t x0 x1) := by
  refine Keeps.step h ?_ hm
  unfold State.mirrorCluster
  repeat' first
    | with_reducible exact Keeps.refl _ _
    | with_reducible apply State.stagPoke_keeps
    | with_reducible apply Keeps.ite
    | decide

theorem State.mirrorPort_keeps {m : Nat} {s t : State} (h : Keeps m s t) (x0 : ℕ) (hm : m ||| 2147483648 = m) : Keeps m s (State.mirrorPort t x0) := by
  refine Keeps.step h ?_ hm
  unfold State.mirrorPort
  repeat' first
    | with_reducible exact Keeps.refl _ _
    | with_reducible apply State.stagPoke_keeps
    | (with_reducible apply State.each_keeps <;> try (intros; beta_reduce))
    | with_reducible apply State.mirrorCluster_keeps
    | with_reducible apply Keeps.ite
    | decide

theorem State.mirrorDone_keeps {m : Nat} {s t : State} (h : Keeps m s t) (hm : m ||| 1101659111426 = m) : Keeps m s (State.mirrorDone t) := by
  refine Keeps.step h ?_ hm
  unfold State.mirrorDone
  repeat' first
    | with_reducible exact Keeps.refl _ _
    | with_reducible apply State.setFld_keeps
    | with_reducible apply State.modPcs_keeps
    | (with_reducible apply State.each_keeps <;> try (intros; beta_reduce))
    | with_reducible apply State.mirrorPort_keeps
    | with_reducible apply Keeps.ite
    | decide

theorem State.rakeCluster_keeps {m : Nat} {s t : State} (h : Keeps m s t) (x0 : ℕ) (x1 : List ℕ) (x2 : ℕ) (hm : m ||| 16 = m) : Keeps m s (State.rakeCluster t x0 x1 x2) := by
  refine Keeps.step h ?_ hm
  unfold State.rakeCluster
  repeat' first
    | with_reducible exact Keeps.refl _ _
    | with_reducible apply State.poke_keeps
    | with_reducible apply Keeps.ite
    | decide

theorem State.rakeDone_keeps {m : Nat} {s t : State} (h : Keeps m s t) (x0 : List ℕ) (hm : m ||| 1103806595090 = m) : Keeps m s (State.rakeDone t x0) := by
  refine Keeps.step h ?_ hm
  unfold State.rakeDone
  repeat' first
    | with_reducible exact Keeps.refl _ _
    | with_reducible apply State.poke_keeps
    | (with_reducible apply State.each_keeps <;> try (intros; beta_reduce))
    | with_reducible apply State.rakeCluster_keeps
    | with_reducible apply State.post_keeps
    | with_reducible apply State.setFld_keeps
    | with_reducible apply State.bump_keeps
    | with_reducible apply State.modPcs_keeps
    | with_reducible apply Keeps.ite
    | decide
    | split

theorem State.windowEnd_keeps {m : Nat} {s t : State} (h : Keeps m s t) (hm : m ||| 1101659111426 = m) : Keeps m s (State.windowEnd t) := by
  refine Keeps.step h ?_ hm
  unfold State.windowEnd
  repeat' first
    | with_reducible exact Keeps.refl _ _
    | with_reducible apply State.modPcs_keeps
    | (with_reducible apply State.each_keeps <;> try (intros; beta_reduce))
    | with_reducible apply State.stagPoke_keeps
    | with_reducible apply State.bump_keeps
    | with_reducible apply State.setFld_keeps
    | with_reducible apply State.setVal_keeps
    | with_reducible apply Keeps.ite
    | decide

end Sys2Proof.Machine
end

