-- ==== Sys2Proof/Laws/KeepReset.lean ====
section
/-! SUPPORT. What the operations of Machine/Reset.lean can do (the relation of Laws/Keep.lean). -/

namespace Sys2Proof.Machine

theorem State.rstPost_keeps {m : Nat} {s t : State} (h : Keeps m s t) (x0 : Option ℕ) (x1 : ℕ) (x2 : ℕ) (hm : m ||| 4294967298 = m) : Keeps m s (State.rstPost t x0 x1 x2) := by
  refine Keeps.step h ?_ hm
  unfold State.rstPost
  repeat' first
    | with_reducible exact Keeps.refl _ _
    | with_reducible apply State.post_keeps
    | with_reducible apply State.setFld_keeps
    | with_reducible apply Keeps.ite
    | decide

theorem pins_wf {m : List (Nat × Tbi)} (h : mwf m = true) :
    mwf (m.filterMap fun e => if e.2.pins = 0 then none else some (e.1, ({ pins := e.2.pins } : Tbi))) = true := by
  rw [mwf_iff] at *
  refine ⟨?_, ?_⟩
  · rw [List.pairwise_filterMap]
    refine h.1.imp fun {a b} hab x hx y hy => ?_
    split at hx <;> split at hy <;> simp_all
    subst hx; subst hy; exact hab
  · intro e he
    obtain ⟨a, -, ha⟩ := List.mem_filterMap.1 he
    split at ha
    · cases ha
    · obtain rfl := Option.some.inj ha
      intro hd
      exact absurd (congrArg Tbi.pins hd) ‹¬a.2.pins = 0›

theorem State.kept_keeps {m : Nat} {s t : State} (h : Keeps m s t) (hm : m ||| 17592186044414 = m) : Keeps m s (State.kept t) := by
  refine Keeps.step h ?_ hm
  refine ⟨fun p hp => ?_, fun w => ?_, ?_, le_refl _⟩
  · cases p <;> first | rfl | exact absurd hp (by decide)
  · exact { regs := rfl, latches := rfl, helds := rfl, mem := rfl, tb := rfl, tbi := pins_wf w.tbi, wg := rfl, nc := rfl, eng := rfl,
            mx := rfl, vx := rfl, ls := rfl, bk := rfl, rt := rfl, sdir := rfl, lane := rfl, xfer := rfl, chan := rfl, comp := rfl, oldEdges := rfl,
            arb := rfl, dom := rfl, sch := rfl, half := rfl, slotA := rfl, slotB := rfl, smapA := rfl, smapB := rfl, staging := rfl,
            gp := rfl, clk := rfl, bist := rfl, bc := rfl, flash := w.flash }
  · exact ⟨fun _ _ h => h, le_refl _, fun _ h => h⟩

theorem State.bootPhase1_keeps {m : Nat} {s t : State} (h : Keeps m s t) (hm : m ||| 2 = m) : Keeps m s (State.bootPhase1 t) := by
  refine Keeps.step h ?_ hm
  unfold State.bootPhase1
  repeat' first
    | with_reducible exact Keeps.refl _ _
    | with_reducible apply State.setFld_keeps
    | with_reducible apply Keeps.ite
    | decide

theorem State.deviceReset_keeps {m : Nat} {s t : State} (h : Keeps m s t) (x0 : Bool) (x1 : ℕ) (hm : m ||| 17592186044414 = m) : Keeps m s (State.deviceReset t x0 x1) := by
  refine Keeps.step h ?_ hm
  unfold State.deviceReset
  repeat' first
    | with_reducible exact Keeps.refl _ _
    | with_reducible apply State.kept_keeps
    | with_reducible apply State.modBoot_keeps
    | with_reducible apply State.setFld_keeps
    | with_reducible apply State.bootPhase1_keeps
    | with_reducible apply Keeps.ite
    | decide

theorem State.bistCaps_keeps {m : Nat} {s t : State} (h : Keeps m s t) (x0 : ℕ) (hm : m ||| 17179869186 = m) : Keeps m s (State.bistCaps t x0) := by
  refine Keeps.step h ?_ hm
  unfold State.bistCaps
  repeat' first
    | with_reducible exact Keeps.refl _ _
    | (with_reducible apply State.each_keeps <;> try (intros; beta_reduce))
    | with_reducible apply State.clkUpdate_keeps
    | with_reducible apply State.modClk_keeps
    | with_reducible apply State.vidUpdate_keeps
    | with_reducible apply Keeps.ite
    | decide

theorem State.setBist_keeps {m : Nat} {s t : State} (h : Keeps m s t) (x0 : ℕ) (x1 : ℕ) (hm : m ||| 2 = m) : Keeps m s (State.setBist t x0 x1) := by
  refine Keeps.step h ?_ hm
  unfold State.setBist
  repeat' first
    | with_reducible exact Keeps.refl _ _
    | with_reducible apply State.setFld_keeps
    | with_reducible apply Keeps.ite
    | decide

theorem State.bistStop_keeps {m : Nat} {s t : State} (h : Keeps m s t) (x0 : ℕ) (hm : m ||| 85899345922 = m) : Keeps m s (State.bistStop t x0) := by
  refine Keeps.step h ?_ hm
  unfold State.bistStop
  repeat' first
    | with_reducible exact Keeps.refl _ _
    | with_reducible apply State.bistCaps_keeps
    | with_reducible apply State.modBist_keeps
    | with_reducible apply State.setBist_keeps
    | with_reducible apply Keeps.ite
    | decide

theorem State.rstWakes_keeps {m : Nat} {s t : State} (h : Keeps m s t) (hm : m ||| 16777218 = m) : Keeps m s (State.rstWakes t) := by
  refine Keeps.step h ?_ hm
  unfold State.rstWakes
  repeat' first
    | with_reducible exact Keeps.refl _ _
    | (with_reducible apply State.each_keeps <;> try (intros; beta_reduce))
    | with_reducible apply State.wakeDomain_keeps
    | with_reducible apply Keeps.ite
    | decide
    | split

theorem State.rstStart_keeps {m : Nat} {s t : State} (h : Keeps m s t) (x0 : Sys2Proof.Machine.Rst) (hm : m ||| 642160394130 = m) : Keeps m s (State.rstStart t x0) := by
  refine Keeps.step h ?_ hm
  unfold State.rstStart
  repeat' first
    | with_reducible exact Keeps.refl _ _
    | (with_reducible apply State.each_keeps <;> try (intros; beta_reduce))
    | with_reducible apply State.bistStop_keeps
    | with_reducible apply State.rstWakes_keeps
    | (with_reducible apply State.modSec_keeps <;> try (intros; beta_reduce))
    | with_reducible apply State.setFld_keeps
    | with_reducible apply State.coreWipe_keeps
    | with_reducible apply State.bump_keeps
    | with_reducible apply State.clusterWipe_keeps
    | with_reducible apply State.partWipe_keeps
    | with_reducible apply Keeps.ite
    | decide
    | split
    | dsimp only
    | exact ⟨fun _ _ h => h, le_refl _, fun _ h => h⟩

theorem State.rstQueue_keeps {m : Nat} {s t : State} (h : Keeps m s t) (x0 : Sys2Proof.Machine.Rst) (hm : m ||| 779599347602 = m) : Keeps m s (State.rstQueue t x0) := by
  refine Keeps.step h ?_ hm
  unfold State.rstQueue
  repeat' first
    | with_reducible exact Keeps.refl _ _
    | with_reducible apply State.rstStart_keeps
    | with_reducible apply Keeps.ite
    | decide
    | split
    | dsimp only
    | (intro h; first | exact mwf_mput h _ _ | exact mwf_mmod h _ _ | exact mwf_filter h _ | exact mwf_mclear h _ _ | exact mwf_pokeMem h _ _ | rfl)
    | (with_reducible apply Keeps.rsts_p)

theorem State.rstWrite_keeps {m : Nat} {s t : State} (h : Keeps m s t) (x0 : ℕ) (x1 : Sys2Proof.Requester) (hm : m ||| 17592186044414 = m) : Keeps m s (State.rstWrite t x0 x1).2 := by
  refine Keeps.step h ?_ hm
  unfold State.rstWrite
  repeat' first
    | with_reducible exact Keeps.refl _ _
    | with_reducible apply State.rstPost_keeps
    | with_reducible apply State.deviceReset_keeps
    | with_reducible apply State.rstQueue_keeps
    | with_reducible apply Keeps.ite
    | decide
    | split
    | dsimp only

theorem State.bistPost_keeps {m : Nat} {s t : State} (h : Keeps m s t) (x0 : ℕ) (x1 : ℕ) (hm : m ||| 4294967298 = m) : Keeps m s (State.bistPost t x0 x1) := by
  refine Keeps.step h ?_ hm
  unfold State.bistPost
  repeat' first
    | with_reducible exact Keeps.refl _ _
    | with_reducible apply State.post_keeps
    | with_reducible apply State.setFld_keeps
    | with_reducible apply Keeps.ite
    | decide

theorem State.bistWrite_keeps {m : Nat} {s t : State} (h : Keeps m s t) (x0 : ℕ) (x1 : Sys2Proof.Requester) (hm : m ||| 90211090434 = m) : Keeps m s (State.bistWrite t x0 x1).2 := by
  refine Keeps.step h ?_ hm
  unfold State.bistWrite
  repeat' first
    | with_reducible exact Keeps.refl _ _
    | with_reducible apply State.post_keeps
    | with_reducible apply State.bistPost_keeps
    | with_reducible apply State.setFld_keeps
    | with_reducible apply State.setBist_keeps
    | with_reducible apply State.modBist_keeps
    | with_reducible apply State.wakeDomain_keeps
    | with_reducible apply State.bistCaps_keeps
    | with_reducible apply Keeps.ite
    | decide
    | split
    | dsimp only

theorem State.freeBytes_keeps {m : Nat} {s t : State} (h : Keeps m s t) (x0 : ℕ) (hm : m ||| 35184372088832 = m) : Keeps m s (State.freeBytes t x0).2 :=
  h.step (Keeps.fresh_ _ (Nat.le_add_right _ _)) hm

theorem State.bistBack_keeps {m : Nat} {s t : State} (h : Keeps m s t) (x0 : ℕ) (hm : m ||| 68748640402 = m) : Keeps m s (State.bistBack t x0) := by
  refine Keeps.step h ?_ hm
  unfold State.bistBack
  repeat' first
    | with_reducible exact Keeps.refl _ _
    | with_reducible apply State.modBist_keeps
    | with_reducible apply State.setFld_keeps
    | with_reducible apply State.domStep_keeps
    | with_reducible apply Keeps.ite
    | decide

theorem State.bistFail_keeps {m : Nat} {s t : State} (h : Keeps m s t) (x0 : ℕ) (hm : m ||| 1189718392722 = m) : Keeps m s (State.bistFail t x0) := by
  refine Keeps.step h ?_ hm
  unfold State.bistFail
  repeat' first
    | with_reducible exact Keeps.refl _ _
    | with_reducible apply State.bump_keeps
    | with_reducible apply State.bistPost_keeps
    | with_reducible apply State.setBist_keeps
    | (with_reducible apply State.each_keeps <;> try (intros; beta_reduce))
    | with_reducible apply State.post_keeps
    | with_reducible apply State.setFld_keeps
    | with_reducible apply State.setVal_keeps
    | with_reducible apply State.clusterLose_keeps
    | with_reducible apply State.setsReset_keeps
    | with_reducible apply State.modBist_keeps
    | with_reducible apply State.rake_keeps
    | with_reducible apply State.bistCaps_keeps
    | with_reducible apply Keeps.ite
    | decide

theorem State.bistPass_keeps {m : Nat} {s t : State} (h : Keeps m s t) (x0 : ℕ) (hm : m ||| 1185440190354 = m) : Keeps m s (State.bistPass t x0) := by
  refine Keeps.step h ?_ hm
  unfold State.bistPass
  repeat' first
    | with_reducible exact Keeps.refl _ _
    | with_reducible apply State.setBist_keeps
    | with_reducible apply State.modBist_keeps
    | with_reducible apply State.setVal_keeps
    | with_reducible apply State.clusterLose_keeps
    | with_reducible apply State.bistBack_keeps
    | with_reducible apply State.bistCaps_keeps
    | with_reducible apply State.rake_keeps
    | with_reducible apply Keeps.ite
    | decide

theorem State.bistQueues_keeps {m : Nat} {s t : State} (h : Keeps m s t) (x0 : ℕ) (hm : m ||| 12422930 = m) : Keeps m s (State.bistQueues t x0) := by
  refine Keeps.step h ?_ hm
  unfold State.bistQueues
  repeat' first
    | with_reducible exact Keeps.refl _ _
    | with_reducible apply State.mqDown_keeps
    | with_reducible apply State.arbDrop_keeps
    | with_reducible apply State.xferDrop_keeps
    | (with_reducible apply State.each_keeps <;> try (intros; beta_reduce))
    | with_reducible apply State.modNc_keeps
    | with_reducible apply State.engineQueues_keeps
    | with_reducible apply Keeps.ite
    | decide

theorem State.memCopy_keeps {m : Nat} {s t : State} (h : Keeps m s t) (x0 : ℕ) (x1 : ℕ) (x2 : ℕ) (hm : m ||| 16 = m) : Keeps m s (State.memCopy t x0 x1 x2) := by
  refine Keeps.step h ?_ hm
  unfold State.memCopy
  repeat' first
    | with_reducible exact Keeps.refl _ _
    | (with_reducible apply State.each_keeps <;> try (intros; beta_reduce))
    | with_reducible apply State.wipe_keeps
    | with_reducible apply Keeps.ite
    | decide
    | split
    | dsimp only
    | (intro h; first | exact mwf_mput h _ _ | exact mwf_mmod h _ _ | exact mwf_filter h _ | exact mwf_mclear h _ _ | exact mwf_pokeMem h _ _ | rfl)
    | (with_reducible apply Keeps.mem_p)

theorem State.bistRestore_keeps {m : Nat} {s t : State} (h : Keeps m s t) (x0 : ℕ) (hm : m ||| 18 = m) : Keeps m s (State.bistRestore t x0) := by
  refine Keeps.step h ?_ hm
  unfold State.bistRestore
  dsimp only
  refine Keeps.each (State.clusterRegs_keeps ?_ _ (by decide)) _ _ fun u a =>
    (Keeps.refl _ _).regs_p _ (fun h => mwf_mput h _ _) (by decide)
  exact foldl_fst_keeps _ _ (fun x a => State.memCopy_keeps (Keeps.refl _ _) _ _ _ (by decide)) _ _

theorem State.bistSave_keeps {m : Nat} {s t : State} (h : Keeps m s t) (x0 : ℕ) (hm : m ||| 35253091565584 = m) : Keeps m s (State.bistSave t x0) := by
  refine Keeps.step h ?_ hm
  unfold State.bistSave
  dsimp only
  refine State.modBist_keeps (State.poke_keeps (State.freeBytes_keeps ?_ _ (by decide)) _ _ (by decide)) _ _ (by decide)
  exact foldl_fst_keeps _ _ (fun x a => State.memCopy_keeps (Keeps.refl _ _) _ _ _ (by decide)) _ _

theorem State.bistStep_keeps {m : Nat} {s t : State} (h : Keeps m s t) (x0 : ℕ) (x1 : Bool) (hm : m ||| 36374107258770 = m) : Keeps m s (State.bistStep t x0 x1) := by
  refine Keeps.step h ?_ hm
  unfold State.bistStep
  repeat' first
    | with_reducible exact Keeps.refl _ _
    | with_reducible apply State.bistBack_keeps
    | with_reducible apply State.bistCaps_keeps
    | with_reducible apply State.bistPost_keeps
    | with_reducible apply State.setBist_keeps
    | with_reducible apply State.bump_keeps
    | with_reducible apply State.bistQueues_keeps
    | with_reducible apply State.rake_keeps
    | with_reducible apply State.bistSave_keeps
    | with_reducible apply State.bistFail_keeps
    | with_reducible apply State.bistPass_keeps
    | with_reducible apply State.clusterStores_keeps
    | with_reducible apply State.bistRestore_keeps
    | with_reducible apply Keeps.ite
    | decide

theorem State.rstDone_keeps {m : Nat} {s t : State} (h : Keeps m s t) (hm : m ||| 779599347602 = m) : Keeps m s (State.rstDone t) := by
  refine Keeps.step h ?_ hm
  unfold State.rstDone
  repeat' first
    | with_reducible exact Keeps.refl _ _
    | with_reducible apply State.rstWakes_keeps
    | with_reducible apply State.rstPost_keeps
    | with_reducible apply State.setFld_keeps
    | (with_reducible apply State.each_keeps <;> try (intros; beta_reduce))
    | with_reducible apply State.domReturn_keeps
    | with_reducible apply State.rstStart_keeps
    | with_reducible apply Keeps.ite
    | decide
    | split
    | dsimp only
    | (intro h; first | exact mwf_mput h _ _ | exact mwf_mmod h _ _ | exact mwf_filter h _ | exact mwf_mclear h _ _ | exact mwf_pokeMem h _ _ | rfl)
    | (with_reducible apply Keeps.rsts_p)

end Sys2Proof.Machine
end

