-- ==== Sys2Proof/Laws/KeepAccess.lean ====
section
/-! SUPPORT. What the operations of Machine/Access.lean can do (the relation of Laws/Keep.lean). -/

namespace Sys2Proof.Machine

theorem State.stray_keeps {m : Nat} {s t : State} (h : Keeps m s t) (x0 : Sys2Proof.Requester) (hm : m ||| 2 = m) : Keeps m s (State.stray t x0) := by
  refine Keeps.step h ?_ hm
  unfold State.stray
  repeat' first
    | with_reducible exact Keeps.refl _ _
    | with_reducible apply State.bump_keeps
    | with_reducible apply Keeps.ite
    | decide
    | split

theorem State.ignored_keeps {m : Nat} {s t : State} (h : Keeps m s t) (x0 : Sys2Proof.Requester) (x1 : ℕ) (hm : m ||| 2 = m) : Keeps m s (State.ignored t x0 x1) := by
  refine Keeps.step h ?_ hm
  unfold State.ignored
  repeat' first
    | with_reducible exact Keeps.refl _ _
    | with_reducible apply State.stray_keeps
    | with_reducible apply Keeps.ite
    | decide

theorem State.regTouch_keeps {m : Nat} {s t : State} (h : Keeps m s t) (x0 : Sys2Proof.Machine.Reg) (x1 : ℕ) (hm : m ||| 256 = m) : Keeps m s (State.regTouch t x0 x1) := by
  refine Keeps.step h ?_ hm
  unfold State.regTouch
  repeat' first
    | with_reducible exact Keeps.refl _ _
    | with_reducible apply State.coreTouch_keeps
    | with_reducible apply Keeps.ite
    | decide

theorem State.readClear_keeps {m : Nat} {s t : State} (h : Keeps m s t) (x0 : Sys2Proof.Machine.Reg) (x1 : List ℕ) (hm : m ||| 2 = m) : Keeps m s (State.readClear t x0 x1) := by
  refine Keeps.step h ?_ hm
  unfold State.readClear
  repeat' first
    | with_reducible exact Keeps.refl _ _
    | with_reducible apply State.setFld_keeps
    | (with_reducible apply Keeps.foldl <;> try (intros; beta_reduce))
    | with_reducible apply Keeps.ite
    | decide

theorem State.readWord_keeps {m : Nat} {s t : State} (h : Keeps m s t) (x0 : Sys2Proof.Requester) (x1 : ℕ) (hm : m ||| 262 = m) : Keeps m s (State.readWord t x0 x1).2 := by
  refine Keeps.step h ?_ hm
  unfold State.readWord
  repeat' first
    | with_reducible exact Keeps.refl _ _
    | with_reducible apply State.ignored_keeps
    | with_reducible apply State.stray_keeps
    | with_reducible apply State.regTouch_keeps
    | with_reducible apply State.readClear_keeps
    | with_reducible apply Keeps.ite
    | decide
    | split
    | dsimp only
    | (intro h; first | exact mwf_mput h _ _ | exact mwf_mmod h _ _ | exact mwf_filter h _ | exact mwf_mclear h _ _ | exact mwf_pokeMem h _ _ | rfl)
    | (with_reducible apply Keeps.latches_p)

theorem State.readDouble_keeps {m : Nat} {s t : State} (h : Keeps m s t) (x0 : Sys2Proof.Requester) (x1 : ℕ) (hm : m ||| 262 = m) : Keeps m s (State.readDouble t x0 x1).2 := by
  refine Keeps.step h ?_ hm
  unfold State.readDouble
  repeat' first
    | with_reducible exact Keeps.refl _ _
    | with_reducible apply State.readWord_keeps
    | with_reducible apply Keeps.ite
    | decide

theorem State.wideRead_keeps {m : Nat} {s t : State} (h : Keeps m s t) (x0 : Sys2Proof.Requester) (x1 : ℕ) (hm : m ||| 262 = m) : Keeps m s (State.wideRead t x0 x1).2 := by
  refine Keeps.step h ?_ hm
  unfold State.wideRead
  repeat' first
    | with_reducible exact Keeps.refl _ _
    | with_reducible apply State.readDouble_keeps
    | with_reducible apply State.ignored_keeps
    | with_reducible apply Keeps.ite
    | decide
    | split

theorem State.accessRead_keeps {m : Nat} {s t : State} (h : Keeps m s t) (x0 : Sys2Proof.Requester) (x1 : Sys2Proof.Width) (x2 : ℕ) (hm : m ||| 8796093022470 = m) : Keeps m s (State.accessRead t x0 x1 x2) := by
  refine Keeps.step h ?_ hm
  unfold State.accessRead
  repeat' first
    | with_reducible exact Keeps.refl _ _
    | with_reducible apply State.readWord_keeps
    | with_reducible apply State.wideRead_keeps
    | with_reducible apply State.ignored_keeps
    | with_reducible apply State.stray_keeps
    | with_reducible apply Keeps.ite
    | decide
    | split
    | dsimp only
    | (intro h; first | exact mwf_mput h _ _ | exact mwf_mmod h _ _ | exact mwf_filter h _ | exact mwf_mclear h _ _ | exact mwf_pokeMem h _ _ | rfl)
    | (with_reducible apply Keeps.rdata_p)

theorem State.writerPost_keeps {m : Nat} {s t : State} (h : Keeps m s t) (x0 : Sys2Proof.Requester) (x1 : ℕ) (x2 : ℕ) (x3 : ℕ) (hm : m ||| 4294967296 = m) : Keeps m s (State.writerPost t x0 x1 x2 x3) := by
  refine Keeps.step h ?_ hm
  unfold State.writerPost
  repeat' first
    | with_reducible exact Keeps.refl _ _
    | with_reducible apply State.post_keeps
    | with_reducible apply Keeps.ite
    | decide
    | split

theorem State.underPart_keeps {m : Nat} {s t : State} (h : Keeps m s t) (kind unit : Nat) (req : Requester) (e : Bool) (p : Nat)
    (np : Option Nat) (f : State → State) (hf : ∀ u, Keeps m u (f u)) (hm : m ||| 4294967296 = m) :
    Keeps m s (t.underPart kind unit req e p np f).2 := by
  refine h.trans ?_
  unfold State.underPart
  dsimp only
  split
  · exact (Keeps.refl m _).step2 (State.writerPost_keeps (Keeps.refl 4294967296 _) _ _ _ _ (by decide)) hm rfl
  · exact hf _

theorem State.store_keeps {m : Nat} {s t : State} (h : Keeps m s t) (x0 : Sys2Proof.Machine.Reg) (x1 : List ℕ) (x2 : ℕ) (hm : m ||| 2 = m) : Keeps m s (State.store t x0 x1 x2) := by
  refine Keeps.step h ?_ hm
  unfold State.store
  repeat' first
    | with_reducible exact Keeps.refl _ _
    | with_reducible apply State.wr_keeps
    | with_reducible apply Keeps.ite
    | decide

theorem State.unitWrite_keeps {m : Nat} {s t : State} (h : Keeps m s t) (u : UnitRef) (r : Reg) (idx : List Nat) (en : Fld) (v : Nat)
    (cmd : Option (Nat × Nat)) (stop : State → State) (hf : ∀ u, Keeps m u (stop u)) (hm : m ||| 8589934594 = m) :
    Keeps m s (t.unitWrite u r idx en v cmd stop) := by
  refine h.trans ?_
  have hw : Keeps m t ((t.store r idx v).setFld r idx en 0) := (Keeps.refl m t).step2
    (State.setFld_keeps (State.store_keeps (Keeps.refl 8589934594 _) _ _ _ (by decide)) _ _ _ _ (by decide)) hm rfl
  unfold State.unitWrite
  dsimp only
  split
  · exact Keeps.refl _ _
  · split
    · split
      · exact Keeps.refl _ _
      · exact hf _
    · split
      · exact hw.step2 (State.askCheck_keeps (Keeps.refl 8589934594 _) _ _ _ (by decide)) hm rfl
      · exact hw

theorem State.storeUnless_keeps {m : Nat} {s t : State} (h : Keeps m s t) (x0 : Bool) (x1 : Sys2Proof.Machine.Reg) (x2 : List ℕ) (x3 : ℕ) (hm : m ||| 2 = m) : Keeps m s (State.storeUnless t x0 x1 x2 x3) := by
  refine Keeps.step h ?_ hm
  unfold State.storeUnless
  repeat' first
    | with_reducible exact Keeps.refl _ _
    | with_reducible apply State.store_keeps
    | with_reducible apply Keeps.ite
    | decide

theorem State.tbInFree_keeps {m : Nat} {s t : State} (h : Keeps m s t) (x0 : ℕ) (x1 : ℕ) (hm : m ||| 35184372088898 = m) : Keeps m s (State.tbInFree t x0 x1) := by
  refine Keeps.step h ?_ hm
  unfold State.tbInFree
  repeat' first
    | with_reducible exact Keeps.refl _ _
    | with_reducible apply State.tbInCfgWrite_keeps
    | with_reducible apply State.tbiPins_keeps
    | with_reducible apply State.draw_keeps
    | with_reducible apply Keeps.ite
    | decide

theorem State.wgCfgWrite_keeps {m : Nat} {s t : State} (h : Keeps m s t) (x0 : ℕ) (x1 : ℕ) (x2 : Option (ℕ × ℕ)) (hm : m ||| 8589935746 = m) : Keeps m s (State.wgCfgWrite t x0 x1 x2) := by
  refine Keeps.step h ?_ hm
  unfold State.wgCfgWrite
  repeat' first
    | with_reducible exact Keeps.refl _ _
    | with_reducible apply State.wgStop_keeps
    | with_reducible apply State.setFld_keeps
    | with_reducible apply State.store_keeps
    | with_reducible apply State.askCheck_keeps
    | with_reducible apply Keeps.ite
    | decide

theorem State.enWrite_keeps {m : Nat} {s t : State} (h : Keeps m s t) (x0 : Sys2Proof.Machine.Reg) (x1 : List ℕ) (x2 : Sys2Proof.Machine.Fld) (x3 : ℕ) (hm : m ||| 2 = m) : Keeps m s (State.enWrite t x0 x1 x2 x3) := by
  refine Keeps.step h ?_ hm
  unfold State.enWrite
  repeat' first
    | with_reducible exact Keeps.refl _ _
    | with_reducible apply State.setFld_keeps
    | with_reducible apply State.store_keeps
    | with_reducible apply Keeps.ite
    | decide

theorem State.ksCmdWrite_keeps {m : Nat} {s t : State} (h : Keeps m s t) (x0 : ℕ) (x1 : ℕ) (x2 : Option (ℕ × ℕ)) (hm : m ||| 8589934592 = m) : Keeps m s (State.ksCmdWrite t x0 x1 x2) := by
  refine Keeps.step h ?_ hm
  unfold State.ksCmdWrite
  repeat' first
    | with_reducible exact Keeps.refl _ _
    | with_reducible apply State.askCheck_keeps
    | with_reducible apply Keeps.ite
    | decide

theorem State.lrSetWg_keeps {m : Nat} {s t : State} (h : Keeps m s t) (x0 : ℕ) (x1 : ℕ) (x2 : ℕ) (x3 : ℕ) (x4 : Option (ℕ × ℕ)) (hm : m ||| 8589934722 = m) : Keeps m s (State.lrSetWg t x0 x1 x2 x3 x4) := by
  refine Keeps.step h ?_ hm
  unfold State.lrSetWg
  repeat' first
    | with_reducible exact Keeps.refl _ _
    | with_reducible apply State.storeUnless_keeps
    | (with_reducible apply State.each_keeps <;> try (intros; beta_reduce))
    | with_reducible apply State.barrierLeave_keeps
    | with_reducible apply State.setVal_keeps
    | with_reducible apply State.askCheck_keeps
    | with_reducible apply Keeps.ite
    | decide

theorem State.mxCfgWrite_keeps {m : Nat} {s t : State} (h : Keeps m s t) (x0 : ℕ) (x1 : ℕ) (hm : m ||| 2 = m) : Keeps m s (State.mxCfgWrite t x0 x1) := by
  refine Keeps.step h ?_ hm
  unfold State.mxCfgWrite
  repeat' first
    | with_reducible exact Keeps.refl _ _
    | with_reducible apply State.setFld_keeps
    | with_reducible apply Keeps.ite
    | decide

theorem State.mxTail'_keeps {m : Nat} {s t : State} (h : Keeps m s t) (x0 : ℕ) (x1 : ℕ) (hm : m ||| 16778242 = m) : Keeps m s (State.mxTail' t x0 x1) := by
  refine Keeps.step h ?_ hm
  unfold State.mxTail'
  repeat' first
    | with_reducible exact Keeps.refl _ _
    | with_reducible apply State.mxTailWrite_keeps
    | with_reducible apply State.wakeDomain_keeps
    | with_reducible apply Keeps.ite
    | decide

theorem State.bindWrite_keeps {m : Nat} {s t : State} (h : Keeps m s t) (x0 : Sys2Proof.Machine.UnitRef) (x1 : Sys2Proof.Machine.Reg) (x2 : List ℕ) (x3 : Sys2Proof.Machine.Fld) (x4 : ℕ) (x5 : Option (ℕ × ℕ)) (hm : m ||| 8589934594 = m) : Keeps m s (State.bindWrite t x0 x1 x2 x3 x4 x5) := by
  refine Keeps.step h ?_ hm
  unfold State.bindWrite
  repeat' first
    | with_reducible exact Keeps.refl _ _
    | with_reducible apply State.setFld_keeps
    | with_reducible apply State.store_keeps
    | with_reducible apply State.askCheck_keeps
    | with_reducible apply Keeps.ite
    | decide

theorem State.vxCfgWrite_keeps {m : Nat} {s t : State} (h : Keeps m s t) (x0 : ℕ) (x1 : ℕ) (x2 : ℕ) (hm : m ||| 2050 = m) : Keeps m s (State.vxCfgWrite t x0 x1 x2) := by
  refine Keeps.step h ?_ hm
  unfold State.vxCfgWrite
  repeat' first
    | with_reducible exact Keeps.refl _ _
    | with_reducible apply State.setFld_keeps
    | with_reducible apply State.vxEnable_keeps
    | with_reducible apply State.vxDisable_keeps
    | with_reducible apply Keeps.ite
    | decide

theorem State.fenceAt_keeps {m : Nat} {s t : State} (h : Keeps m s t) (x0 : ℕ) (x1 : ℕ) (hm : m ||| 12424978 = m) : Keeps m s (State.fenceAt t x0 x1) := by
  refine Keeps.step h ?_ hm
  unfold State.fenceAt
  repeat' first
    | with_reducible exact Keeps.refl _ _
    | with_reducible apply State.arbDrop_keeps
    | with_reducible apply State.mqDown_keeps
    | with_reducible apply State.fenceEngine_keeps
    | with_reducible apply Keeps.ite
    | decide

theorem State.fenceWrite_keeps {m : Nat} {s t : State} (h : Keeps m s t) (x0 : ℕ) (x1 : ℕ) (x2 : Sys2Proof.Requester) (hm : m ||| 4307392274 = m) : Keeps m s (State.fenceWrite t x0 x1 x2).2 := by
  refine Keeps.step h ?_ hm
  unfold State.fenceWrite
  repeat' first
    | with_reducible exact Keeps.refl _ _
    | (with_reducible apply State.each_keeps <;> try (intros; beta_reduce))
    | with_reducible apply State.fenceAt_keeps
    | with_reducible apply State.post_keeps
    | with_reducible apply Keeps.ite
    | decide
    | split

theorem State.schedWrite_keeps {m : Nat} {s t : State} (h : Keeps m s t) (x0 : ℕ) (x1 : ℕ) (x2 : Option (ℕ × ℕ)) (hm : m ||| 8623489026 = m) : Keeps m s (State.schedWrite t x0 x1 x2) := by
  refine Keeps.step h ?_ hm
  unfold State.schedWrite
  repeat' first
    | with_reducible exact Keeps.refl _ _
    | (with_reducible apply State.unitWrite_keeps <;> try (intros; beta_reduce))
    | with_reducible apply State.schedStop_keeps
    | with_reducible apply Keeps.ite
    | decide

theorem State.holdWrite_keeps {m : Nat} {s t : State} (h : Keeps m s t) (x0 : ℕ) (x1 : ℕ) (x2 : Sys2Proof.Requester) (hm : m ||| 2 = m) : Keeps m s (State.holdWrite t x0 x1 x2) := by
  refine Keeps.step h ?_ hm
  unfold State.holdWrite
  repeat' first
    | with_reducible exact Keeps.refl _ _
    | with_reducible apply State.setVal_keeps
    | with_reducible apply Keeps.ite
    | decide

theorem State.partCfgWrite_keeps {m : Nat} {s t : State} (h : Keeps m s t) (x0 : ℕ) (x1 : ℕ) (x2 : Option (ℕ × ℕ)) (hm : m ||| 15078391698 = m) : Keeps m s (State.partCfgWrite t x0 x1 x2) := by
  refine Keeps.step h ?_ hm
  unfold State.partCfgWrite
  repeat' first
    | with_reducible exact Keeps.refl _ _
    | (with_reducible apply State.unitWrite_keeps <;> try (intros; beta_reduce))
    | with_reducible apply State.partRelease_keeps
    | with_reducible apply Keeps.ite
    | decide

theorem State.mapWrite_keeps {m : Nat} {s t : State} (h : Keeps m s t) (x0 : ℕ) (x1 : ℕ) (x2 : Sys2Proof.Requester) (x3 : Option (ℕ × ℕ)) (hm : m ||| 12888899730 = m) : Keeps m s (State.mapWrite t x0 x1 x2 x3).2 := by
  refine Keeps.step h ?_ hm
  unfold State.mapWrite
  repeat' first
    | with_reducible exact Keeps.refl _ _
    | with_reducible apply State.unitReason_keeps
    | (with_reducible apply State.unitWrite_keeps <;> try (intros; beta_reduce))
    | with_reducible apply State.unbindPort_keeps
    | with_reducible apply Keeps.ite
    | decide
    | split

theorem State.trayOpen_keeps {m : Nat} {s t : State} (h : Keeps m s t) (x0 : ℕ) (x1 : ℕ) (hm : m ||| 6442450944 = m) : Keeps m s (State.trayOpen t x0 x1) := by
  refine Keeps.step h ?_ hm
  unfold State.trayOpen
  repeat' first
    | with_reducible exact Keeps.refl _ _
    | with_reducible apply State.stagWipe_keeps
    | with_reducible apply State.modGp_keeps
    | with_reducible apply Keeps.ite
    | decide

theorem State.pcfgWrite_keeps {m : Nat} {s t : State} (h : Keeps m s t) (x0 : ℕ) (x1 : ℕ) (hm : m ||| 6442450946 = m) : Keeps m s (State.pcfgWrite t x0 x1) := by
  refine Keeps.step h ?_ hm
  unfold State.pcfgWrite
  repeat' first
    | with_reducible exact Keeps.refl _ _
    | with_reducible apply State.store_keeps
    | (with_reducible apply State.each_keeps <;> try (intros; beta_reduce))
    | with_reducible apply State.trayOpen_keeps
    | with_reducible apply Keeps.ite
    | decide

theorem State.evsrcWrite_keeps {m : Nat} {s t : State} (h : Keeps m s t) (x0 : ℕ) (x1 : ℕ) (x2 : Option (ℕ × ℕ)) (hm : m ||| 8589934594 = m) : Keeps m s (State.evsrcWrite t x0 x1 x2) := by
  refine Keeps.step h ?_ hm
  unfold State.evsrcWrite
  repeat' first
    | with_reducible exact Keeps.refl _ _
    | with_reducible apply State.setFld_keeps
    | with_reducible apply State.askCheck_keeps
    | with_reducible apply Keeps.ite
    | decide

theorem State.pwField_keeps {m : Nat} {s t : State} (h : Keeps m s t) (x0 : Sys2Proof.Machine.Reg) (x1 : ℕ) (x2 : ℕ) (x3 : ℕ) (x4 : Sys2Proof.Requester) (hm : m ||| 4294967298 = m) : Keeps m s (State.pwField t x0 x1 x2 x3 x4).2 := by
  refine Keeps.step h ?_ hm
  unfold State.pwField
  repeat' first
    | with_reducible exact Keeps.refl _ _
    | with_reducible apply State.ckPost_keeps
    | with_reducible apply State.store_keeps
    | with_reducible apply Keeps.ite
    | decide
    | split

theorem State.trcfgWrite_keeps {m : Nat} {s t : State} (h : Keeps m s t) (x0 : ℕ) (x1 : ℕ) (x2 : Sys2Proof.Requester) (x3 : Option (ℕ × ℕ)) (hm : m ||| 8589934594 = m) : Keeps m s (State.trcfgWrite t x0 x1 x2 x3) := by
  refine Keeps.step h ?_ hm
  unfold State.trcfgWrite
  repeat' first
    | with_reducible exact Keeps.refl _ _
    | (with_reducible apply State.unitWrite_keeps <;> try (intros; beta_reduce))
    | with_reducible apply State.setFld_keeps
    | with_reducible apply Keeps.ite
    | decide

theorem State.powerRegWrite_keeps {m : Nat} {s t : State} (h : Keeps m s t) (x0 : Sys2Proof.Requester) (x1 : Sys2Proof.Machine.Reg) (x2 : List ℕ) (x3 : ℕ) (x4 : Option (ℕ × ℕ)) (hm : m ||| 17592186044414 = m) : Keeps m s (State.powerRegWrite t x0 x1 x2 x3 x4).2 := by
  refine Keeps.step h ?_ hm
  unfold State.powerRegWrite
  repeat' first
    | with_reducible exact Keeps.refl _ _
    | with_reducible apply State.pwReqWrite_keeps
    | with_reducible apply State.pwField_keeps
    | with_reducible apply State.ckCoreWrite_keeps
    | with_reducible apply State.ckFabWrite_keeps
    | with_reducible apply State.ckPost_keeps
    | with_reducible apply State.store_keeps
    | with_reducible apply State.rstWrite_keeps
    | with_reducible apply State.bistWrite_keeps
    | with_reducible apply State.bistPost_keeps
    | with_reducible apply State.pcWinWrite_keeps
    | with_reducible apply State.rakeWrite_keeps
    | with_reducible apply State.modPcs_keeps
    | with_reducible apply State.trcfgWrite_keeps
    | (with_reducible apply State.unitWrite_keeps <;> try (intros; beta_reduce))
    | with_reducible apply State.setFld_keeps
    | with_reducible apply Keeps.ite
    | decide
    | split
    | dsimp only

theorem State.gateRegWrite_keeps {m : Nat} {s t : State} (h : Keeps m s t) (x0 : Sys2Proof.Requester) (x1 : Sys2Proof.Machine.Reg) (x2 : List ℕ) (x3 : ℕ) (x4 : Option (ℕ × ℕ)) (hm : m ||| 17592186044414 = m) : Keeps m s (State.gateRegWrite t x0 x1 x2 x3 x4).2 := by
  refine Keeps.step h ?_ hm
  unfold State.gateRegWrite
  repeat' first
    | with_reducible exact Keeps.refl _ _
    | with_reducible apply State.partCfgWrite_keeps
    | with_reducible apply State.unitReason_keeps
    | with_reducible apply State.storeUnless_keeps
    | with_reducible apply State.mapWrite_keeps
    | with_reducible apply State.pcfgWrite_keeps
    | with_reducible apply State.gpRetry_keeps
    | with_reducible apply State.evsrcWrite_keeps
    | with_reducible apply State.bindWrite_keeps
    | with_reducible apply State.noteFree_keeps
    | with_reducible apply State.store_keeps
    | (with_reducible apply State.unitWrite_keeps <;> try (intros; beta_reduce))
    | with_reducible apply State.tkStop_keeps
    | with_reducible apply State.setFld_keeps
    | with_reducible apply State.powerRegWrite_keeps
    | with_reducible apply Keeps.ite
    | decide
    | split

theorem State.memRegWrite_keeps {m : Nat} {s t : State} (h : Keeps m s t) (x0 : Sys2Proof.Requester) (x1 : Sys2Proof.Machine.Reg) (x2 : List ℕ) (x3 : ℕ) (x4 : Option (ℕ × ℕ)) (hm : m ||| 17592186044414 = m) : Keeps m s (State.memRegWrite t x0 x1 x2 x3 x4).2 := by
  refine Keeps.step h ?_ hm
  unfold State.memRegWrite
  repeat' first
    | with_reducible exact Keeps.refl _ _
    | with_reducible apply State.storeUnless_keeps
    | with_reducible apply State.noteFree_keeps
    | with_reducible apply State.store_keeps
    | (with_reducible apply State.unitWrite_keeps <;> try (intros; beta_reduce))
    | with_reducible apply State.tkStop_keeps
    | with_reducible apply State.setFld_keeps
    | with_reducible apply State.bkOwnWrite_keeps
    | with_reducible apply State.bkRetWrite_keeps
    | with_reducible apply State.holdWrite_keeps
    | with_reducible apply State.gateRegWrite_keeps
    | with_reducible apply Keeps.ite
    | decide
    | split

theorem State.engineRegWrite_keeps {m : Nat} {s t : State} (h : Keeps m s t) (x0 : Sys2Proof.Requester) (x1 : Sys2Proof.Machine.Reg) (x2 : List ℕ) (x3 : ℕ) (x4 : Option (ℕ × ℕ)) (hm : m ||| 17592186044414 = m) : Keeps m s (State.engineRegWrite t x0 x1 x2 x3 x4).2 := by
  refine Keeps.step h ?_ hm
  unfold State.engineRegWrite
  repeat' first
    | with_reducible exact Keeps.refl _ _
    | with_reducible apply State.mxCfgWrite_keeps
    | with_reducible apply State.mxTail'_keeps
    | with_reducible apply State.mxAbort_keeps
    | with_reducible apply State.bindWrite_keeps
    | with_reducible apply State.vxCfgWrite_keeps
    | with_reducible apply State.storeUnless_keeps
    | with_reducible apply State.enWrite_keeps
    | with_reducible apply State.fenceWrite_keeps
    | with_reducible apply State.freset_keeps
    | (with_reducible apply State.unitWrite_keeps <;> try (intros; beta_reduce))
    | with_reducible apply State.setFld_keeps
    | with_reducible apply State.quiesce_keeps
    | with_reducible apply State.resumeHalf_keeps
    | (with_reducible apply State.underPart_keeps <;> try (intros; beta_reduce))
    | with_reducible apply State.schedWrite_keeps
    | with_reducible apply State.memRegWrite_keeps
    | with_reducible apply Keeps.ite
    | decide
    | split

theorem State.coreRegWrite_keeps {m : Nat} {s t : State} (h : Keeps m s t) (x0 : Sys2Proof.Requester) (x1 : Sys2Proof.Machine.Reg) (x2 : List ℕ) (x3 : ℕ) (x4 : Option (ℕ × ℕ)) (hm : m ||| 17592186044414 = m) : Keeps m s (State.coreRegWrite t x0 x1 x2 x3 x4).2 := by
  refine Keeps.step h ?_ hm
  unfold State.coreRegWrite
  repeat' first
    | with_reducible exact Keeps.refl _ _
    | with_reducible apply State.ncCfgWrite_keeps
    | with_reducible apply State.storeUnless_keeps
    | with_reducible apply State.syNetWrite_keeps
    | with_reducible apply State.enWrite_keeps
    | (with_reducible apply State.unitWrite_keeps <;> try (intros; beta_reduce))
    | with_reducible apply State.lsStop_keeps
    | (with_reducible apply State.each_keeps <;> try (intros; beta_reduce))
    | with_reducible apply State.store_keeps
    | with_reducible apply State.ksCmdWrite_keeps
    | with_reducible apply State.lrSetWg_keeps
    | with_reducible apply State.engineRegWrite_keeps
    | with_reducible apply Keeps.ite
    | decide
    | split

theorem State.regWrite_keeps {m : Nat} {s t : State} (h : Keeps m s t) (x0 : Sys2Proof.Requester) (x1 : Sys2Proof.Machine.Reg) (x2 : List ℕ) (x3 : ℕ) (x4 : Option (ℕ × ℕ)) (hm : m ||| 52776558133246 = m) : Keeps m s (State.regWrite t x0 x1 x2 x3 x4).2 := by
  refine Keeps.step h ?_ hm
  unfold State.regWrite
  repeat' first
    | with_reducible exact Keeps.refl _ _
    | (with_reducible apply State.underPart_keeps <;> try (intros; beta_reduce))
    | (with_reducible apply State.unitWrite_keeps <;> try (intros; beta_reduce))
    | with_reducible apply State.tbStop_keeps
    | with_reducible apply State.storeUnless_keeps
    | with_reducible apply State.tbTargetWrite_keeps
    | with_reducible apply State.store_keeps
    | with_reducible apply State.tbInFree_keeps
    | with_reducible apply State.wgCfgWrite_keeps
    | with_reducible apply State.wgCtrlWrite_keeps
    | with_reducible apply State.coreRegWrite_keeps
    | with_reducible apply Keeps.ite
    | decide
    | split

theorem State.writeAt_keeps {m : Nat} {s t : State} (h : Keeps m s t) (x0 : Sys2Proof.Requester) (x1 : ℕ) (x2 : Sys2Proof.Machine.Reg) (x3 : List ℕ) (x4 : ℕ) (x5 : ℕ) (x6 : Option (ℕ × ℕ)) (hm : m ||| 52776558133246 = m) : Keeps m s (State.writeAt t x0 x1 x2 x3 x4 x5 x6).2 := by
  refine Keeps.step h ?_ hm
  unfold State.writeAt
  repeat' first
    | with_reducible exact Keeps.refl _ _
    | with_reducible apply State.regTouch_keeps
    | with_reducible apply State.regWrite_keeps
    | with_reducible apply Keeps.ite
    | decide
    | split
    | dsimp only
    | (intro h; first | exact mwf_mput h _ _ | exact mwf_mmod h _ _ | exact mwf_filter h _ | exact mwf_mclear h _ _ | exact mwf_pokeMem h _ _ | rfl)
    | (with_reducible apply Keeps.helds_p)

theorem State.writeWord_keeps {m : Nat} {s t : State} (h : Keeps m s t) (x0 : Sys2Proof.Requester) (x1 : ℕ) (x2 : ℕ) (x3 : Option (ℕ × ℕ)) (hm : m ||| 52776558133246 = m) : Keeps m s (State.writeWord t x0 x1 x2 x3).2 := by
  refine Keeps.step h ?_ hm
  unfold State.writeWord
  repeat' first
    | with_reducible exact Keeps.refl _ _
    | with_reducible apply State.ignored_keeps
    | with_reducible apply State.stray_keeps
    | with_reducible apply State.writeAt_keeps
    | with_reducible apply Keeps.ite
    | decide
    | split

theorem State.wideWrite_keeps {m : Nat} {s t : State} (h : Keeps m s t) (x0 : Sys2Proof.Requester) (x1 : ℕ) (x2 : ℕ) (x3 : Option (ℕ × ℕ)) (hm : m ||| 52776558133246 = m) : Keeps m s (State.wideWrite t x0 x1 x2 x3).2 := by
  refine Keeps.step h ?_ hm
  unfold State.wideWrite
  repeat' first
    | with_reducible exact Keeps.refl _ _
    | with_reducible apply State.writeWord_keeps
    | with_reducible apply State.ignored_keeps
    | with_reducible apply Keeps.ite
    | decide
    | split
    | dsimp only

theorem State.accessWrite_keeps {m : Nat} {s t : State} (h : Keeps m s t) (x0 : Sys2Proof.Requester) (x1 : Sys2Proof.Width) (x2 : ℕ) (x3 : ℕ) (hm : m ||| 52776558133246 = m) : Keeps m s (State.accessWrite t x0 x1 x2 x3) := by
  refine Keeps.step h ?_ hm
  unfold State.accessWrite
  repeat' first
    | with_reducible exact Keeps.refl _ _
    | with_reducible apply State.writeWord_keeps
    | with_reducible apply State.wideWrite_keeps
    | with_reducible apply State.ignored_keeps
    | with_reducible apply State.stray_keeps
    | with_reducible apply Keeps.ite
    | decide
    | split

theorem State.writeReg_keeps {m : Nat} {s t : State} (h : Keeps m s t) (x0 : Sys2Proof.Requester) (x1 : Sys2Proof.Machine.Reg) (x2 : List ℕ) (x3 : ℕ) (x4 : optParam (Option (ℕ × ℕ)) none) (hm : m ||| 52776558133246 = m) : Keeps m s (State.writeReg t x0 x1 x2 x3 x4).2 := by
  refine Keeps.step h ?_ hm
  unfold State.writeReg
  repeat' first
    | with_reducible exact Keeps.refl _ _
    | with_reducible apply State.writeAt_keeps
    | with_reducible apply Keeps.ite
    | decide
    | split

theorem State.cmdWrite_keeps {m : Nat} {s t : State} (h : Keeps m s t) (x0 : Sys2Proof.Requester) (x1 : Sys2Proof.Machine.Reg) (x2 : List ℕ) (x3 : ℕ) (hm : m ||| 52776558133246 = m) : Keeps m s (State.cmdWrite t x0 x1 x2 x3) := by
  refine Keeps.step h ?_ hm
  unfold State.cmdWrite
  repeat' first
    | with_reducible exact Keeps.refl _ _
    | with_reducible apply State.writeReg_keeps
    | with_reducible apply State.stray_keeps
    | with_reducible apply Keeps.ite
    | decide
    | split

theorem State.tbInWrite_keeps {m : Nat} {s t : State} (h : Keeps m s t) (x0 : Sys2Proof.Requester) (x1 : ℕ) (x2 : ℕ) (x3 : ℕ) (hm : m ||| 52776558133246 = m) : Keeps m s (State.tbInWrite t x0 x1 x2 x3) := by
  refine Keeps.step h ?_ hm
  unfold State.tbInWrite
  repeat' first
    | with_reducible exact Keeps.refl _ _
    | with_reducible apply State.tbInCfgWrite_keeps
    | with_reducible apply State.tbiPins_keeps
    | with_reducible apply State.cmdWrite_keeps
    | with_reducible apply Keeps.ite
    | decide

end Sys2Proof.Machine
end

