-- ==== Sys2Proof/Laws/KeepTrays.lean ====
section
/-! SUPPORT. What the operations of Machine/Trays.lean can do (the relation of Laws/Keep.lean). -/

namespace Sys2Proof.Machine

theorem State.runCmd_keeps {m : Nat} {s t : State} (h : Keeps m s t) (n k op : Nat) (f : State → Cmd → State)
    (hf : ∀ x, Keeps m t (f t x)) : Keeps m s (t.runCmd n k op f) := by
  refine h.trans ?_
  unfold State.runCmd
  split
  · split
    · exact hf _
    · exact Keeps.refl _ _
  · exact Keeps.refl _ _

theorem State.setCmd_keeps {m : Nat} {s t : State} (h : Keeps m s t) (x0 : ℕ) (x1 : Sys2Proof.Machine.Cmd) (x2 : Sys2Proof.Machine.Cmd → Sys2Proof.Machine.Cmd) (hm : m ||| 4294967296 = m) : Keeps m s (State.setCmd t x0 x1 x2) := by
  refine Keeps.step h ?_ hm
  unfold State.setCmd
  repeat' first
    | with_reducible exact Keeps.refl _ _
    | with_reducible apply State.modGp_keeps
    | with_reducible apply Keeps.ite
    | decide

theorem State.endCmd_keeps {m : Nat} {s t : State} (h : Keeps m s t) (x0 : ℕ) (x1 : Sys2Proof.Machine.Cmd) (x2 : ℕ) (x3 : ℕ) (x4 : ℕ) (hm : m ||| 4294967296 = m) : Keeps m s (State.endCmd t x0 x1 x2 x3 x4) := by
  refine Keeps.step h ?_ hm
  unfold State.endCmd
  repeat' first
    | with_reducible exact Keeps.refl _ _
    | with_reducible apply State.setCmd_keeps
    | with_reducible apply Keeps.ite
    | decide

theorem State.startXfer_keeps {m : Nat} {s t : State} (h : Keeps m s t) (x0 : ℕ) (x1 : Sys2Proof.Machine.Cmd) (x2 : Sys2Proof.Machine.Xfer) (hm : m ||| 4295229440 = m) : Keeps m s (State.startXfer t x0 x1 x2) := by
  refine Keeps.step h ?_ hm
  unfold State.startXfer
  repeat' first
    | with_reducible exact Keeps.refl _ _
    | (with_reducible apply State.xferStart_keeps; assumption)
    | with_reducible apply State.setCmd_keeps
    | with_reducible apply Keeps.ite
    | decide
    | split

theorem State.cmdCopyIn_keeps {m : Nat} {s t : State} (h : Keeps m s t) (x0 : ℕ) (x1 : ℕ) (hm : m ||| 4295229440 = m) : Keeps m s (State.cmdCopyIn t x0 x1) := by
  refine Keeps.step h ?_ hm
  unfold State.cmdCopyIn
  repeat' first
    | with_reducible exact Keeps.refl _ _
    | (with_reducible apply State.runCmd_keeps <;> try (intros; beta_reduce))
    | with_reducible apply State.endCmd_keeps
    | with_reducible apply State.startXfer_keeps
    | with_reducible apply Keeps.ite
    | decide

theorem State.cmdCopyOut_keeps {m : Nat} {s t : State} (h : Keeps m s t) (x0 : ℕ) (x1 : ℕ) (hm : m ||| 4295229440 = m) : Keeps m s (State.cmdCopyOut t x0 x1) := by
  refine Keeps.step h ?_ hm
  unfold State.cmdCopyOut
  repeat' first
    | with_reducible exact Keeps.refl _ _
    | (with_reducible apply State.runCmd_keeps <;> try (intros; beta_reduce))
    | with_reducible apply State.endCmd_keeps
    | with_reducible apply State.startXfer_keeps
    | with_reducible apply Keeps.ite
    | decide

theorem State.writeDone_keeps {m : Nat} {s t : State} (h : Keeps m s t) (x0 : ℕ) (x1 : Sys2Proof.Machine.Cmd) (hm : m ||| 6442713090 = m) : Keeps m s (State.writeDone t x0 x1) := by
  refine Keeps.step h ?_ hm
  unfold State.writeDone
  repeat' first
    | with_reducible exact Keeps.refl _ _
    | with_reducible apply State.stagPoke_keeps
    | with_reducible apply State.modXfer_keeps
    | (with_reducible apply State.when_keeps <;> try (intros; beta_reduce))
    | with_reducible apply State.bump_keeps
    | with_reducible apply State.modGp_keeps
    | with_reducible apply Keeps.ite
    | decide

theorem State.cmdDone_keeps {m : Nat} {s t : State} (h : Keeps m s t) (x0 : ℕ) (x1 : ℕ) (hm : m ||| 6442713090 = m) : Keeps m s (State.cmdDone t x0 x1) := by
  refine Keeps.step h ?_ hm
  unfold State.cmdDone
  repeat' first
    | with_reducible exact Keeps.refl _ _
    | with_reducible apply State.writeDone_keeps
    | with_reducible apply Keeps.ite
    | decide
    | split

theorem State.cmdFence_keeps {m : Nat} {s t : State} (h : Keeps m s t) (x0 : ℕ) (x1 : ℕ) (hm : m ||| 4307392274 = m) : Keeps m s (State.cmdFence t x0 x1) := by
  refine Keeps.step h ?_ hm
  unfold State.cmdFence
  repeat' first
    | with_reducible exact Keeps.refl _ _
    | (with_reducible apply State.runCmd_keeps <;> try (intros; beta_reduce))
    | with_reducible apply State.endCmd_keeps
    | with_reducible apply State.fenceAt_keeps
    | with_reducible apply Keeps.ite
    | decide
    | split
    | dsimp only

theorem State.cmdNop_keeps {m : Nat} {s t : State} (h : Keeps m s t) (x0 : ℕ) (x1 : ℕ) (hm : m ||| 4294967296 = m) : Keeps m s (State.cmdNop t x0 x1) := by
  refine Keeps.step h ?_ hm
  unfold State.cmdNop
  repeat' first
    | with_reducible exact Keeps.refl _ _
    | (with_reducible apply State.runCmd_keeps <;> try (intros; beta_reduce))
    | with_reducible apply State.endCmd_keeps
    | with_reducible apply Keeps.ite
    | decide

theorem State.cmdRegrd_keeps {m : Nat} {s t : State} (h : Keeps m s t) (x0 : Fin 8) (x1 : ℕ) (hm : m ||| 4294967558 = m) : Keeps m s (State.cmdRegrd t x0 x1) := by
  refine Keeps.step h ?_ hm
  unfold State.cmdRegrd
  repeat' first
    | with_reducible exact Keeps.refl _ _
    | (with_reducible apply State.runCmd_keeps <;> try (intros; beta_reduce))
    | with_reducible apply State.endCmd_keeps
    | with_reducible apply State.wideRead_keeps
    | with_reducible apply State.readWord_keeps
    | with_reducible apply Keeps.ite
    | decide
    | split

theorem State.cmdRegwr_keeps {m : Nat} {s t : State} (h : Keeps m s t) (x0 : Fin 8) (x1 : ℕ) (hm : m ||| 52776558133246 = m) : Keeps m s (State.cmdRegwr t x0 x1) := by
  refine Keeps.step h ?_ hm
  unfold State.cmdRegwr
  repeat' first
    | with_reducible exact Keeps.refl _ _
    | (with_reducible apply State.runCmd_keeps <;> try (intros; beta_reduce))
    | with_reducible apply State.endCmd_keeps
    | with_reducible apply State.setCmd_keeps
    | with_reducible apply State.wideWrite_keeps
    | with_reducible apply State.writeWord_keeps
    | with_reducible apply Keeps.ite
    | decide
    | split

theorem State.cmdSend_keeps {m : Nat} {s t : State} (h : Keeps m s t) (x0 : ℕ) (x1 : ℕ) (hm : m ||| 4295229440 = m) : Keeps m s (State.cmdSend t x0 x1) := by
  refine Keeps.step h ?_ hm
  unfold State.cmdSend
  repeat' first
    | with_reducible exact Keeps.refl _ _
    | (with_reducible apply State.runCmd_keeps <;> try (intros; beta_reduce))
    | with_reducible apply State.endCmd_keeps
    | with_reducible apply State.startXfer_keeps
    | with_reducible apply Keeps.ite
    | decide

theorem State.flushLog_keeps {m : Nat} {s t : State} (h : Keeps m s t) (x0 : ℕ) (hm : m ||| 6442450944 = m) : Keeps m s (State.flushLog t x0) := by
  refine Keeps.step h ?_ hm
  unfold State.flushLog
  repeat' first
    | with_reducible exact Keeps.refl _ _
    | (with_reducible apply State.each_keeps <;> try (intros; beta_reduce))
    | with_reducible apply State.modGp_keeps
    | (with_reducible apply State.when_keeps <;> try (intros; beta_reduce))
    | with_reducible apply State.stagPoke_keeps
    | with_reducible apply Keeps.ite
    | decide

theorem State.linkUse_keeps {m : Nat} {s t : State} (h : Keeps m s t) (x0 : ℕ) (x1 : Sys2Proof.LinkUse) (hm : m ||| 4294967298 = m) : Keeps m s (State.linkUse t x0 x1) := by
  refine Keeps.step h ?_ hm
  unfold State.linkUse
  repeat' first
    | with_reducible exact Keeps.refl _ _
    | with_reducible apply State.modGp_keeps
    | with_reducible apply State.bump_keeps
    | with_reducible apply Keeps.ite
    | decide

theorem State.putMirror_keeps {m : Nat} {s t : State} (h : Keeps m s t) (x0 : ℕ) (x1 : ℕ) (x2 : Option (List Sys2Proof.Byte)) (hm : m ||| 6442450944 = m) : Keeps m s (State.putMirror t x0 x1 x2) := by
  refine Keeps.step h ?_ hm
  unfold State.putMirror
  repeat' first
    | with_reducible exact Keeps.refl _ _
    | with_reducible apply State.stagWipe_keeps
    | with_reducible apply State.modGp_keeps
    | with_reducible apply State.stagPoke_keeps
    | with_reducible apply Keeps.ite
    | decide
    | split

theorem State.mirrorUpdate_keeps {m : Nat} {s t : State} (h : Keeps m s t) (x0 : ℕ) (hm : m ||| 6442450944 = m) : Keeps m s (State.mirrorUpdate t x0) := by
  refine Keeps.step h ?_ hm
  unfold State.mirrorUpdate
  repeat' first
    | with_reducible exact Keeps.refl _ _
    | with_reducible apply State.flushLog_keeps
    | (with_reducible apply State.each_keeps <;> try (intros; beta_reduce))
    | with_reducible apply State.putMirror_keeps
    | with_reducible apply Keeps.ite
    | decide

theorem State.takeCmd_keeps {m : Nat} {s t : State} (h : Keeps m s t) (x0 : ℕ) (x1 : Sys2Proof.Machine.Cmd) (x2 : List Sys2Proof.Byte) (hm : m ||| 4294967296 = m) : Keeps m s (State.takeCmd t x0 x1 x2) := by
  refine Keeps.step h ?_ hm
  unfold State.takeCmd
  repeat' first
    | with_reducible exact Keeps.refl _ _
    | with_reducible apply State.modGp_keeps
    | with_reducible apply Keeps.ite
    | decide

theorem State.scanAdmin_keeps {m : Nat} {s t : State} (h : Keeps m s t) (x0 : ℕ) (hm : m ||| 4294967298 = m) : Keeps m s (State.scanAdmin t x0) := by
  refine Keeps.step h ?_ hm
  unfold State.scanAdmin
  repeat' first
    | with_reducible exact Keeps.refl _ _
    | with_reducible apply State.bump_keeps
    | with_reducible apply State.modGp_keeps
    | with_reducible apply State.takeCmd_keeps
    | with_reducible apply Keeps.ite
    | decide

theorem State.scanTray_keeps {m : Nat} {s t : State} (h : Keeps m s t) (x0 : ℕ) (x1 : ℕ) (x2 : ℕ) (hm : m ||| 4294967298 = m) : Keeps m s (State.scanTray t x0 x1 x2) := by
  refine Keeps.step h ?_ hm
  clear h hm
  induction x2 generalizing t with
  | zero => exact Keeps.refl _ _
  | succ n ih =>
    unfold State.scanTray
    dsimp only
    refine Keeps.ite (Keeps.refl _ _) (Keeps.ite (State.bump_keeps (Keeps.refl _ _) _ _ _ (by decide)) (Keeps.ite (Keeps.refl _ _) ?_))
    exact (State.modGp_keeps (State.takeCmd_keeps (Keeps.refl _ _) _ _ _ (by decide)) _ _ (by decide)).trans ih

theorem State.trayScan_keeps {m : Nat} {s t : State} (h : Keeps m s t) (x0 : ℕ) (x1 : Sys2Proof.LinkUse) (hm : m ||| 4294967298 = m) : Keeps m s (State.trayScan t x0 x1) := by
  refine Keeps.step h ?_ hm
  unfold State.trayScan
  repeat' first
    | with_reducible exact Keeps.refl _ _
    | with_reducible apply State.scanAdmin_keeps
    | with_reducible apply State.bump_keeps
    | with_reducible apply State.linkUse_keeps
    | (with_reducible apply State.each_keeps <;> try (intros; beta_reduce))
    | with_reducible apply State.scanTray_keeps
    | with_reducible apply Keeps.ite
    | decide

end Sys2Proof.Machine
end

