-- ==== Sys2Proof/Laws/KeepSecurity.lean ====
section
/-! SUPPORT. What the operations of Machine/Security.lean can do (the relation of Laws/Keep.lean). -/

namespace Sys2Proof.Machine

theorem State.scPost_keeps {m : Nat} {s t : State} (h : Keeps m s t) (x0 : Option ℕ) (x1 : ℕ) (hm : m ||| 4294967298 = m) : Keeps m s (State.scPost t x0 x1) := by
  refine Keeps.step h ?_ hm
  unfold State.scPost
  repeat' first
    | with_reducible exact Keeps.refl _ _
    | with_reducible apply State.post_keeps
    | with_reducible apply State.setFld_keeps
    | with_reducible apply Keeps.ite
    | decide

theorem State.scEnd_keeps {m : Nat} {s t : State} (h : Keeps m s t) (x0 : ℕ) (x1 : Sys2Proof.Machine.Cmd) (x2 : ℕ) (x3 : ℕ) (x4 : ℕ) (hm : m ||| 4294967298 = m) : Keeps m s (State.scEnd t x0 x1 x2 x3 x4) := by
  refine Keeps.step h ?_ hm
  unfold State.scEnd
  repeat' first
    | with_reducible exact Keeps.refl _ _
    | with_reducible apply State.endCmd_keeps
    | with_reducible apply State.scPost_keeps
    | with_reducible apply Keeps.ite
    | decide

theorem State.scRun_keeps {m : Nat} {s t : State} (h : Keeps m s t) (n k op : Nat) (f : State → Cmd → State)
    (hf : ∀ x, Keeps m t (f t x)) (hm : m ||| 4294967298 = m) : Keeps m s (t.scRun n k op f) := by
  refine State.runCmd_keeps h _ _ _ _ fun x => ?_
  split
  · exact hf x
  · exact (Keeps.refl m t).step2 (State.scEnd_keeps (Keeps.refl 4294967298 _) _ _ _ _ _ (by decide)) hm rfl

theorem State.attest_keeps {m : Nat} {s t : State} (h : Keeps m s t) (x0 : ℕ) (x1 : ℕ) (hm : m ||| 35190814539778 = m) : Keeps m s (State.attest t x0 x1) := by
  refine Keeps.step h ?_ hm
  unfold State.attest
  repeat' first
    | with_reducible exact Keeps.refl _ _
    | (with_reducible apply State.scRun_keeps <;> try (intros; beta_reduce))
    | with_reducible apply State.scEnd_keeps
    | with_reducible apply State.freeBytes_keeps
    | with_reducible apply State.bump_keeps
    | with_reducible apply State.stagPoke_keeps
    | with_reducible apply Keeps.ite
    | decide

theorem State.getCert_keeps {m : Nat} {s t : State} (h : Keeps m s t) (x0 : ℕ) (x1 : ℕ) (hm : m ||| 6442450946 = m) : Keeps m s (State.getCert t x0 x1) := by
  refine Keeps.step h ?_ hm
  unfold State.getCert
  repeat' first
    | with_reducible exact Keeps.refl _ _
    | (with_reducible apply State.scRun_keeps <;> try (intros; beta_reduce))
    | with_reducible apply State.scEnd_keeps
    | with_reducible apply State.stagPoke_keeps
    | with_reducible apply Keeps.ite
    | decide

theorem State.getPubkey_keeps {m : Nat} {s t : State} (h : Keeps m s t) (x0 : ℕ) (x1 : ℕ) (hm : m ||| 6442450946 = m) : Keeps m s (State.getPubkey t x0 x1) := by
  refine Keeps.step h ?_ hm
  unfold State.getPubkey
  repeat' first
    | with_reducible exact Keeps.refl _ _
    | (with_reducible apply State.scRun_keeps <;> try (intros; beta_reduce))
    | with_reducible apply State.scEnd_keeps
    | with_reducible apply State.stagPoke_keeps
    | with_reducible apply Keeps.ite
    | decide

theorem State.keygen_keeps {m : Nat} {s t : State} (h : Keeps m s t) (x0 : ℕ) (x1 : ℕ) (hm : m ||| 35740570353666 = m) : Keeps m s (State.keygen t x0 x1) := by
  refine Keeps.step h ?_ hm
  unfold State.keygen
  repeat' first
    | with_reducible exact Keeps.refl _ _
    | (with_reducible apply State.scRun_keeps <;> try (intros; beta_reduce))
    | with_reducible apply State.scEnd_keeps
    | with_reducible apply State.freeBytes_keeps
    | with_reducible apply State.stagPoke_keeps
    | (with_reducible apply State.modSec_keeps <;> try (intros; beta_reduce))
    | with_reducible apply Keeps.ite
    | decide
    | split
    | dsimp only
    | exact ⟨fun _ _ h => h, le_refl _, fun _ h => h⟩

theorem State.lcChallenge_keeps {m : Nat} {s t : State} (h : Keeps m s t) (x0 : ℕ) (x1 : ℕ) (hm : m ||| 35740570353666 = m) : Keeps m s (State.lcChallenge t x0 x1) := by
  refine Keeps.step h ?_ hm
  unfold State.lcChallenge
  repeat' first
    | with_reducible exact Keeps.refl _ _
    | (with_reducible apply State.scRun_keeps <;> try (intros; beta_reduce))
    | with_reducible apply State.scEnd_keeps
    | with_reducible apply State.freeBytes_keeps
    | with_reducible apply State.stagPoke_keeps
    | (with_reducible apply State.modSec_keeps <;> try (intros; beta_reduce))
    | with_reducible apply Keeps.ite
    | decide
    | split
    | dsimp only
    | exact ⟨fun _ _ h => h, le_refl _, fun _ h => h⟩

theorem Sec.kept_program (x : Sec) (b : List Byte) : Sec.Kept x (x.program b) := by
  unfold Sec.program
  dsimp only
  split
  · exact ⟨fun i hi _ => by rw [Nat.testBit_two_pow_sub_one]; exact decide_eq_true hi, le_max_left _ _, fun _ h => h⟩
  · refine ⟨fun i _ hx => ?_, le_max_left _ _, fun i hx => ?_⟩
    · dsimp only
      rw [Nat.testBit_or, hx, Bool.true_or]
    · dsimp only
      split
      · rw [Nat.testBit_or, hx, Bool.true_or]
      · exact hx

theorem State.lcToken_keeps {m : Nat} {s t : State} (h : Keeps m s t) (x0 : ℕ) (x1 : ℕ) (hm : m ||| 17592186044414 = m) : Keeps m s (State.lcToken t x0 x1) := by
  refine Keeps.step h ?_ hm
  unfold State.lcToken
  repeat' first
    | exact Sec.kept_program _ _
    | with_reducible exact Keeps.refl _ _
    | (with_reducible apply State.scRun_keeps <;> try (intros; beta_reduce))
    | (with_reducible apply State.modSec_keeps <;> try (intros; beta_reduce))
    | with_reducible apply State.scEnd_keeps
    | (with_reducible apply State.when_keeps <;> try (intros; beta_reduce))
    | with_reducible apply State.bump_keeps
    | with_reducible apply State.writeDone_keeps
    | with_reducible apply State.ksErase_keeps
    | with_reducible apply State.deviceReset_keeps
    | with_reducible apply Keeps.ite
    | decide
    | split
    | dsimp only
    | exact ⟨fun _ _ h => h, le_refl _, fun _ h => h⟩


theorem State.rngFail_keeps {m : Nat} {s t : State} (h : Keeps m s t) (hm : m ||| 554050781186 = m) : Keeps m s (State.rngFail t) := by
  refine Keeps.step h ?_ hm
  unfold State.rngFail
  repeat' first
    | with_reducible exact Keeps.refl _ _
    | with_reducible apply State.scPost_keeps
    | with_reducible apply State.bump_keeps
    | (with_reducible apply State.modSec_keeps <;> try (intros; beta_reduce))
    | with_reducible apply Keeps.ite
    | decide
    | split
    | dsimp only
    | exact ⟨fun _ _ h => h, le_refl _, fun _ h => h⟩

theorem State.scInfo_keeps {m : Nat} {s t : State} (h : Keeps m s t) (x0 : ℕ) (x1 : ℕ) (hm : m ||| 4294967298 = m) : Keeps m s (State.scInfo t x0 x1) := by
  refine Keeps.step h ?_ hm
  unfold State.scInfo
  repeat' first
    | with_reducible exact Keeps.refl _ _
    | (with_reducible apply State.scRun_keeps <;> try (intros; beta_reduce))
    | with_reducible apply State.scEnd_keeps
    | with_reducible apply Keeps.ite
    | decide

theorem State.setFloor_keeps {m : Nat} {s t : State} (h : Keeps m s t) (x0 : ℕ) (x1 : ℕ) (hm : m ||| 554050781186 = m) : Keeps m s (State.setFloor t x0 x1) := by
  refine Keeps.step h ?_ hm
  unfold State.setFloor
  refine State.scRun_keeps (Keeps.refl _ _) _ _ _ _ (fun x => ?_) (by decide)
  dsimp only
  split
  · rename_i hv
    exact State.scEnd_keeps (State.modSec_keeps (Keeps.refl _ _) _ ⟨fun _ _ h => h, le_of_lt hv.1, fun _ h => h⟩ (by decide)) _ _ _ _ _ (by decide)
  · exact State.scEnd_keeps (Keeps.refl _ _) _ _ _ _ _ (by decide)

end Sys2Proof.Machine
end

