-- ==== Sys2Proof/Laws/KeepBoot.lean ====
section
/-! SUPPORT. What the operations of Machine/Boot.lean can do (the relation of Laws/Keep.lean). -/

namespace Sys2Proof.Machine

theorem State.acceptBundle_keeps {m : Nat} {s t : State} (h : Keeps m s t) (x0 : ℕ → Sys2Proof.Byte) (hm : m ||| 274877906946 = m) : Keeps m s (State.acceptBundle t x0) := by
  refine Keeps.step h ?_ hm
  unfold State.acceptBundle
  repeat' first
    | with_reducible exact Keeps.refl _ _
    | with_reducible apply State.setFld_keeps
    | with_reducible apply State.modBoot_keeps
    | with_reducible apply State.setVal_keeps
    | with_reducible apply Keeps.ite
    | decide

theorem State.aonFault_keeps {m : Nat} {s t : State} (h : Keeps m s t) (hm : m ||| 17592186044414 = m) : Keeps m s (State.aonFault t) := by
  refine Keeps.step h ?_ hm
  unfold State.aonFault
  repeat' first
    | with_reducible exact Keeps.refl _ _
    | with_reducible apply State.modBoot_keeps
    | with_reducible apply State.kept_keeps
    | with_reducible apply Keeps.ite
    | decide

theorem State.startPost_keeps {m : Nat} {s t : State} (h : Keeps m s t) (x0 : ℕ) (x1 : ℕ) (x2 : ℕ) (hm : m ||| 4294967298 = m) : Keeps m s (State.startPost t x0 x1 x2) := by
  refine Keeps.step h ?_ hm
  unfold State.startPost
  repeat' first
    | with_reducible exact Keeps.refl _ _
    | with_reducible apply State.setFld_keeps
    | with_reducible apply State.post_keeps
    | with_reducible apply Keeps.ite
    | decide

theorem State.runChecks_keeps {m : Nat} {s t : State} (h : Keeps m s t) (hm : m ||| 2486836933042 = m) : Keeps m s (State.runChecks t) := by
  refine Keeps.step h ?_ hm
  unfold State.runChecks
  repeat' first
    | with_reducible exact Keeps.refl _ _
    | (with_reducible apply State.each_keeps <;> try (intros; beta_reduce))
    | with_reducible apply State.checkOne_keeps
    | with_reducible apply State.startPost_keeps
    | with_reducible apply State.modBoot_keeps
    | with_reducible apply Keeps.ite
    | decide
    | split
    | dsimp only
    | (intro h; first | exact mwf_mput h _ _ | exact mwf_mmod h _ _ | exact mwf_filter h _ | exact mwf_mclear h _ _ | exact mwf_pokeMem h _ _ | rfl)
    | (with_reducible apply Keeps.checks_p)

theorem State.applyRecord_keeps {m : Nat} {s t : State} (h : Keeps m s t) (x0 : List Sys2Proof.Byte) (hm : m ||| 52776558133246 = m) : Keeps m s (State.applyRecord t x0) := by
  refine Keeps.step h ?_ hm
  unfold State.applyRecord
  repeat' first
    | with_reducible exact Keeps.refl _ _
    | with_reducible apply State.wideWrite_keeps
    | with_reducible apply State.writeWord_keeps
    | with_reducible apply State.modBoot_keeps
    | with_reducible apply State.runChecks_keeps
    | with_reducible apply Keeps.ite
    | decide

theorem State.checkImage_keeps {m : Nat} {s t : State} (h : Keeps m s t) (x0 : ℕ) (x1 : ℕ) (hm : m ||| 4398046511104 = m) : Keeps m s (State.checkImage t x0 x1) := by
  refine Keeps.step h ?_ hm
  unfold State.checkImage
  repeat' first
    | with_reducible exact Keeps.refl _ _
    | with_reducible apply State.modBc_keeps
    | with_reducible apply Keeps.ite
    | decide

theorem State.takeSegment_keeps {m : Nat} {s t : State} (h : Keeps m s t) (x0 : ℕ) (x1 : ℕ) (x2 : ℕ) (x3 : List Sys2Proof.Byte) (hm : m ||| 4398046511120 = m) : Keeps m s (State.takeSegment t x0 x1 x2 x3) := by
  refine Keeps.step h ?_ hm
  unfold State.takeSegment
  repeat' first
    | with_reducible exact Keeps.refl _ _
    | with_reducible apply State.modBc_keeps
    | with_reducible apply State.poke_keeps
    | with_reducible apply State.checkImage_keeps
    | with_reducible apply Keeps.ite
    | decide

theorem State.bcast_keeps {m : Nat} {s t : State} (h : Keeps m s t) (x0 : ℕ) (x1 : ℕ) (x2 : ℕ) (x3 : List Sys2Proof.Word) (x4 : Sys2Proof.Word) (x5 : ℕ → Bool) (hm : m ||| 4398046511120 = m) : Keeps m s (State.bcast t x0 x1 x2 x3 x4 x5) := by
  refine Keeps.step h ?_ hm
  unfold State.bcast
  repeat' first
    | with_reducible exact Keeps.refl _ _
    | (with_reducible apply State.each_keeps <;> try (intros; beta_reduce))
    | with_reducible apply State.takeSegment_keeps
    | with_reducible apply Keeps.ite
    | decide

theorem State.bcastCount_keeps {m : Nat} {s t : State} (h : Keeps m s t) (x0 : ℕ) (hm : m ||| 2 = m) : Keeps m s (State.bcastCount t x0) := by
  refine Keeps.step h ?_ hm
  unfold State.bcastCount
  repeat' first
    | with_reducible exact Keeps.refl _ _
    | with_reducible apply State.bump_keeps
    | with_reducible apply Keeps.ite
    | decide

theorem State.noteFence_keeps {m : Nat} {s t : State} (h : Keeps m s t) (x0 : ℕ) (x1 : ℕ) (hm : m ||| 274877906944 = m) : Keeps m s (State.noteFence t x0 x1) := by
  refine Keeps.step h ?_ hm
  unfold State.noteFence
  repeat' first
    | with_reducible exact Keeps.refl _ _
    | with_reducible apply State.modBoot_keeps
    | with_reducible apply Keeps.ite
    | decide

theorem State.bistFact_keeps {m : Nat} {s t : State} (h : Keeps m s t) (x0 : Sys2Proof.BootFact) (hm : m ||| 347938330514 = m) : Keeps m s (State.bistFact t x0) := by
  refine Keeps.step h ?_ hm
  unfold State.bistFact
  repeat' first
    | with_reducible exact Keeps.refl _ _
    | with_reducible apply State.startPost_keeps
    | with_reducible apply State.noteFence_keeps
    | with_reducible apply State.fenceAt_keeps
    | with_reducible apply State.setVal_keeps
    | with_reducible apply State.modBist_keeps
    | with_reducible apply State.permanentHole_keeps
    | with_reducible apply State.setFld_keeps
    | with_reducible apply State.setLink_keeps
    | with_reducible apply Keeps.ite
    | decide
    | split

theorem State.wipeAll_keeps {m : Nat} {s t : State} (h : Keeps m s t) (hm : m ||| 16 = m) : Keeps m s (State.wipeAll t) := by
  refine Keeps.step h ?_ hm
  unfold State.wipeAll
  repeat' first
    | with_reducible exact Keeps.refl _ _
    | with_reducible apply Keeps.ite
    | decide
    | split
    | dsimp only
    | (intro h; first | exact mwf_mput h _ _ | exact mwf_mmod h _ _ | exact mwf_filter h _ | exact mwf_mclear h _ _ | exact mwf_pokeMem h _ _ | rfl)
    | (with_reducible apply Keeps.mem_p)

theorem State.clocksStart_keeps {m : Nat} {s t : State} (h : Keeps m s t) (hm : m ||| 2 = m) : Keeps m s (State.clocksStart t) := by
  refine Keeps.step h ?_ hm
  unfold State.clocksStart
  repeat' first
    | with_reducible exact Keeps.refl _ _
    | (with_reducible apply State.each_keeps <;> try (intros; beta_reduce))
    | with_reducible apply State.setFld_keeps
    | with_reducible apply Keeps.ite
    | decide

theorem State.fuseMaps_keeps {m : Nat} {s t : State} (h : Keeps m s t) (hm : m ||| 2 = m) : Keeps m s (State.fuseMaps t) := by
  refine Keeps.step h ?_ hm
  unfold State.fuseMaps
  repeat' first
    | with_reducible exact Keeps.refl _ _
    | (with_reducible apply State.each_keeps <;> try (intros; beta_reduce))
    | with_reducible apply State.setFld_keeps
    | with_reducible apply Keeps.ite
    | decide

theorem State.dmSize_keeps {m : Nat} {s t : State} (h : Keeps m s t) (hm : m ||| 2 = m) : Keeps m s (State.dmSize t) := by
  refine Keeps.step h ?_ hm
  unfold State.dmSize
  repeat' first
    | with_reducible exact Keeps.refl _ _
    | with_reducible apply State.setFld_keeps
    | with_reducible apply State.setVal_keeps
    | with_reducible apply Keeps.ite
    | decide

theorem State.trainChannel_keeps {m : Nat} {s t : State} (h : Keeps m s t) (x0 : ℕ) (x1 : ℕ) (x2 : ℕ) (hm : m ||| 4294967298 = m) : Keeps m s (State.trainChannel t x0 x1 x2) := by
  refine Keeps.step h ?_ hm
  unfold State.trainChannel
  repeat' first
    | with_reducible exact Keeps.refl _ _
    | with_reducible apply State.setFld_keeps
    | with_reducible apply State.startPost_keeps
    | with_reducible apply Keeps.ite
    | decide

theorem State.trainFacts_keeps {m : Nat} {s t : State} (h : Keeps m s t) (x0 : List Sys2Proof.BootFact) (x1 : ℕ) (hm : m ||| 4294967298 = m) : Keeps m s (State.trainFacts t x0 x1) := by
  refine Keeps.step h ?_ hm
  unfold State.trainFacts
  repeat' first
    | with_reducible exact Keeps.refl _ _
    | with_reducible apply State.dmSize_keeps
    | (with_reducible apply State.each_keeps <;> try (intros; beta_reduce))
    | with_reducible apply State.trainChannel_keeps
    | with_reducible apply Keeps.ite
    | decide
    | split

theorem State.holdOff_keeps {m : Nat} {s t : State} (h : Keeps m s t) (x0 : List ℕ) (hm : m ||| 2 = m) : Keeps m s (State.holdOff t x0) := by
  refine Keeps.step h ?_ hm
  unfold State.holdOff
  repeat' first
    | with_reducible exact Keeps.refl _ _
    | (with_reducible apply State.each_keeps <;> try (intros; beta_reduce))
    | with_reducible apply State.setFld_keeps
    | with_reducible apply Keeps.ite
    | decide

theorem State.writeReport_keeps {m : Nat} {s t : State} (h : Keeps m s t) (hm : m ||| 16 = m) : Keeps m s (State.writeReport t) := by
  refine Keeps.step h ?_ hm
  unfold State.writeReport
  repeat' first
    | with_reducible exact Keeps.refl _ _
    | with_reducible apply State.poke_keeps
    | with_reducible apply Keeps.ite
    | decide

theorem State.enterRecovery_keeps {m : Nat} {s t : State} (h : Keeps m s t) (x0 : ℕ) (x1 : List Sys2Proof.BootFact) (hm : m ||| 1380831985682 = m) : Keeps m s (State.enterRecovery t x0 x1) := by
  refine Keeps.step h ?_ hm
  unfold State.enterRecovery
  repeat' first
    | with_reducible exact Keeps.refl _ _
    | with_reducible apply State.wipeAll_keeps
    | with_reducible apply State.startPost_keeps
    | with_reducible apply State.clocksStart_keeps
    | with_reducible apply State.fuseMaps_keeps
    | with_reducible apply State.trainFacts_keeps
    | with_reducible apply State.holdOff_keeps
    | with_reducible apply State.modBoot_keeps
    | with_reducible apply State.setLink_keeps
    | with_reducible apply State.setVal_keeps
    | with_reducible apply State.setFld_keeps
    | with_reducible apply State.writeReport_keeps
    | with_reducible apply State.rake_keeps
    | with_reducible apply Keeps.ite
    | decide
    | split
    | dsimp only
    | (intro h; first | exact mwf_mput h _ _ | exact mwf_mmod h _ _ | exact mwf_filter h _ | exact mwf_mclear h _ _ | exact mwf_pokeMem h _ _ | rfl)
    | (with_reducible apply Keeps.staging_p)

theorem State.setPhase_keeps {m : Nat} {s t : State} (h : Keeps m s t) (x0 : ℕ) (hm : m ||| 2 = m) : Keeps m s (State.setPhase t x0) := by
  refine Keeps.step h ?_ hm
  unfold State.setPhase
  repeat' first
    | with_reducible exact Keeps.refl _ _
    | with_reducible apply State.setFld_keeps
    | with_reducible apply Keeps.ite
    | decide

theorem State.verifyPost_keeps {m : Nat} {s t : State} (h : Keeps m s t) (x0 : ℕ × ℕ) (hm : m ||| 4294967298 = m) : Keeps m s (State.verifyPost t x0) := by
  refine Keeps.step h ?_ hm
  unfold State.verifyPost
  repeat' first
    | with_reducible exact Keeps.refl _ _
    | with_reducible apply State.startPost_keeps
    | with_reducible apply State.bump_keeps
    | with_reducible apply Keeps.ite
    | decide

theorem Sec.kept_gone (x : Sec) : Sec.Kept x { x with lc := 2 ^ 32 - 1, huk := List.replicate 32 0xFF, seed := [] } :=
  ⟨fun i hi _ => by rw [Nat.testBit_two_pow_sub_one]; exact decide_eq_true hi, le_refl _, fun _ h => h⟩

theorem State.phaseBundle_keeps {m : Nat} {s t : State} (h : Keeps m s t) (x0 : List Sys2Proof.BootFact) (hm : m ||| 1930587799570 = m) : Keeps m s (State.phaseBundle t x0) := by
  refine Keeps.step h ?_ hm
  unfold State.phaseBundle
  dsimp only
  repeat' first
    | exact Sec.kept_gone _
    | with_reducible exact Keeps.refl _ _
    | with_reducible apply State.enterRecovery_keeps
    | (with_reducible apply State.modSec_keeps <;> try (intros; beta_reduce))
    | with_reducible apply State.verifyPost_keeps
    | with_reducible apply State.setPhase_keeps
    | with_reducible apply State.acceptBundle_keeps
    | with_reducible apply Keeps.ite
    | decide


theorem State.phaseFuses_keeps {m : Nat} {s t : State} (h : Keeps m s t) (x0 : List Sys2Proof.BootFact) (hm : m ||| 37114959888402 = m) : Keeps m s (State.phaseFuses t x0) := by
  refine Keeps.step h ?_ hm
  unfold State.phaseFuses
  repeat' first
    | with_reducible exact Keeps.refl _ _
    | with_reducible apply State.enterRecovery_keeps
    | with_reducible apply State.fuseMaps_keeps
    | with_reducible apply State.freeBytes_keeps
    | (with_reducible apply State.modSec_keeps <;> try (intros; beta_reduce))
    | with_reducible apply State.setPhase_keeps
    | with_reducible apply Keeps.ite
    | decide
    | split
    | dsimp only
    | exact ⟨fun _ _ h => h, le_refl _, fun _ h => h⟩

theorem State.phaseClocks_keeps {m : Nat} {s t : State} (h : Keeps m s t) (hm : m ||| 2 = m) : Keeps m s (State.phaseClocks t) := by
  refine Keeps.step h ?_ hm
  unfold State.phaseClocks
  repeat' first
    | with_reducible exact Keeps.refl _ _
    | (with_reducible apply State.each_keeps <;> try (intros; beta_reduce))
    | with_reducible apply State.setFld_keeps
    | with_reducible apply State.setPhase_keeps
    | with_reducible apply State.clocksStart_keeps
    | with_reducible apply Keeps.ite
    | decide

theorem State.phaseBist_keeps {m : Nat} {s t : State} (h : Keeps m s t) (x0 : ℕ) (x1 : List Sys2Proof.BootFact) (hm : m ||| 1447449958290 = m) : Keeps m s (State.phaseBist t x0 x1) := by
  refine Keeps.step h ?_ hm
  unfold State.phaseBist
  repeat' first
    | with_reducible exact Keeps.refl _ _
    | with_reducible apply State.rake_keeps
    | with_reducible apply State.modBoot_keeps
    | (with_reducible apply State.each_keeps <;> try (intros; beta_reduce))
    | with_reducible apply State.bistFact_keeps
    | with_reducible apply State.setPhase_keeps
    | with_reducible apply Keeps.ite
    | decide

theorem State.trainLink_keeps {m : Nat} {s t : State} (h : Keeps m s t) (x0 : ℕ) (x1 : Bool) (x2 : ℕ) (x3 : Bool) (hm : m ||| 2 = m) : Keeps m s (State.trainLink t x0 x1 x2 x3) := by
  refine Keeps.step h ?_ hm
  unfold State.trainLink
  repeat' first
    | with_reducible exact Keeps.refl _ _
    | with_reducible apply State.setFld_keeps
    | with_reducible apply Keeps.ite
    | decide

theorem State.seamReady_keeps {m : Nat} {s t : State} (h : Keeps m s t) (hm : m ||| 4294967298 = m) : Keeps m s (State.seamReady t) := by
  refine Keeps.step h ?_ hm
  unfold State.seamReady
  repeat' first
    | with_reducible exact Keeps.refl _ _
    | with_reducible apply State.setFld_keeps
    | with_reducible apply State.updateCaps_keeps
    | with_reducible apply State.noteCtl_keeps
    | (with_reducible apply State.each_keeps <;> try (intros; beta_reduce))
    | with_reducible apply State.startPost_keeps
    | with_reducible apply State.setVal_keeps
    | with_reducible apply State.holdOff_keeps
    | with_reducible apply Keeps.ite
    | decide

theorem State.phaseTrain_keeps {m : Nat} {s t : State} (h : Keeps m s t) (x0 : ℕ) (x1 : List Sys2Proof.BootFact) (hm : m ||| 1378684502018 = m) : Keeps m s (State.phaseTrain t x0 x1) := by
  refine Keeps.step h ?_ hm
  unfold State.phaseTrain
  repeat' first
    | with_reducible exact Keeps.refl _ _
    | (with_reducible apply State.each_keeps <;> try (intros; beta_reduce))
    | with_reducible apply State.trainLink_keeps
    | with_reducible apply State.dmSize_keeps
    | with_reducible apply State.seamReady_keeps
    | with_reducible apply State.trainFacts_keeps
    | with_reducible apply State.setPhase_keeps
    | with_reducible apply State.rake_keeps
    | with_reducible apply State.modBoot_keeps
    | with_reducible apply Keeps.ite
    | decide
    | split

theorem State.fenceIncomplete_keeps {m : Nat} {s t : State} (h : Keeps m s t) (x0 : ℕ → Sys2Proof.Byte) (hm : m ||| 279185299218 = m) : Keeps m s (State.fenceIncomplete t x0) := by
  refine Keeps.step h ?_ hm
  unfold State.fenceIncomplete
  repeat' first
    | with_reducible exact Keeps.refl _ _
    | (with_reducible apply State.each_keeps <;> try (intros; beta_reduce))
    | with_reducible apply State.startPost_keeps
    | with_reducible apply State.noteFence_keeps
    | with_reducible apply State.fenceAt_keeps
    | with_reducible apply Keeps.ite
    | decide

theorem State.placeSections_keeps {m : Nat} {s t : State} (h : Keeps m s t) (x0 : ℕ → Sys2Proof.Byte) (x1 : ℕ) (hm : m ||| 16 = m) : Keeps m s (State.placeSections t x0 x1) := by
  refine Keeps.step h ?_ hm
  unfold State.placeSections
  repeat' first
    | with_reducible exact Keeps.refl _ _
    | (with_reducible apply State.each_keeps <;> try (intros; beta_reduce))
    | with_reducible apply State.poke_keeps
    | with_reducible apply Keeps.ite
    | decide

theorem State.phaseWipe_keeps {m : Nat} {s t : State} (h : Keeps m s t) (x0 : ℕ) (x1 : List Sys2Proof.BootFact) (hm : m ||| 5778890929938 = m) : Keeps m s (State.phaseWipe t x0 x1) := by
  refine Keeps.step h ?_ hm
  unfold State.phaseWipe
  dsimp only
  split
  · repeat' first
    | with_reducible exact Keeps.refl _ _
    | with_reducible apply State.enterRecovery_keeps
    | with_reducible apply State.verifyPost_keeps
    | with_reducible apply State.fenceIncomplete_keeps
    | with_reducible apply State.wipeAll_keeps
    | with_reducible apply State.poke_keeps
    | with_reducible apply State.rootScan_keeps
    | with_reducible apply State.placeSections_keeps
    | with_reducible apply State.setPhase_keeps
    | with_reducible apply State.rake_keeps
    | with_reducible apply State.modBoot_keeps
    | with_reducible apply Keeps.ite
    | decide

  · refine State.setPhase_keeps (State.rake_keeps (State.modBoot_keeps (State.rootScan_keeps (State.placeSections_keeps ?_ _ _ (by decide))
      _ (by decide)) _ (by decide)) _ _ (by decide)) _ (by decide)
    refine Keeps.each ?_ _ _ fun u c => Keeps.each (Keeps.refl _ _) _ _ fun u v => State.poke_keeps (Keeps.refl _ _) _ _ (by decide)
    have k : Keeps 5778890929938 t (t.fenceIncomplete t.source).wipeAll :=
      State.wipeAll_keeps (State.fenceIncomplete_keeps (Keeps.refl _ _) _ (by decide)) (by decide)
    generalize (t.fenceIncomplete t.source).wipeAll = u at k ⊢
    exact (k.staging_p [] (fun _ => rfl) (by decide)).bc_p [] (fun _ => rfl) (by decide)

theorem State.phaseData_keeps {m : Nat} {s t : State} (h : Keeps m s t) (x0 : List Sys2Proof.BootFact) (hm : m ||| 1380831985682 = m) : Keeps m s (State.phaseData t x0) := by
  refine Keeps.step h ?_ hm
  unfold State.phaseData
  repeat' first
    | with_reducible exact Keeps.refl _ _
    | with_reducible apply State.enterRecovery_keeps
    | with_reducible apply State.verifyPost_keeps
    | with_reducible apply State.setPhase_keeps
    | with_reducible apply State.placeSections_keeps
    | with_reducible apply Keeps.ite
    | decide

theorem State.phaseReady_keeps {m : Nat} {s t : State} (h : Keeps m s t) (x0 : List Sys2Proof.BootFact) (hm : m ||| 52776558133246 = m) : Keeps m s (State.phaseReady t x0) := by
  refine Keeps.step h ?_ hm
  unfold State.phaseReady
  repeat' first
    | with_reducible exact Keeps.refl _ _
    | with_reducible apply State.enterRecovery_keeps
    | with_reducible apply State.verifyPost_keeps
    | with_reducible apply State.modBoot_keeps
    | (with_reducible apply State.each_keeps <;> try (intros; beta_reduce))
    | with_reducible apply State.applyRecord_keeps
    | with_reducible apply State.setLink_keeps
    | with_reducible apply State.holdOff_keeps
    | with_reducible apply State.portLose_keeps
    | with_reducible apply State.setFld_keeps
    | with_reducible apply State.writeReport_keeps
    | with_reducible apply State.rake_keeps
    | with_reducible apply State.vidUpdate_keeps
    | with_reducible apply State.setPhase_keeps
    | with_reducible apply Keeps.ite
    | decide

theorem State.bootDone_keeps {m : Nat} {s t : State} (h : Keeps m s t) (x0 : ℕ) (x1 : List Sys2Proof.BootFact) (hm : m ||| 52776558133246 = m) : Keeps m s (State.bootDone t x0 x1) := by
  refine Keeps.step h ?_ hm
  unfold State.bootDone
  repeat' first
    | with_reducible exact Keeps.refl _ _
    | with_reducible apply State.modBoot_keeps
    | with_reducible apply State.enterRecovery_keeps
    | with_reducible apply State.setPhase_keeps
    | with_reducible apply State.phaseBundle_keeps
    | with_reducible apply State.phaseFuses_keeps
    | with_reducible apply State.phaseClocks_keeps
    | with_reducible apply State.phaseBist_keeps
    | with_reducible apply State.phaseTrain_keeps
    | with_reducible apply State.phaseWipe_keeps
    | with_reducible apply State.phaseData_keeps
    | with_reducible apply State.phaseReady_keeps
    | with_reducible apply Keeps.ite
    | decide
    | split

theorem State.flashErase_keeps {m : Nat} {s t : State} (h : Keeps m s t) (x0 : ℕ) (x1 : ℕ) (hm : m ||| 17596481011712 = m) : Keeps m s (State.flashErase t x0 x1) := by
  refine Keeps.step h ?_ hm
  unfold State.flashErase
  repeat' first
    | with_reducible exact Keeps.refl _ _
    | (with_reducible apply State.runCmd_keeps <;> try (intros; beta_reduce))
    | with_reducible apply State.endCmd_keeps
    | with_reducible apply Keeps.ite
    | decide
    | split
    | dsimp only
    | (intro h; first | exact mwf_mput h _ _ | exact mwf_mmod h _ _ | exact mwf_filter h _ | exact mwf_mclear h _ _ | exact mwf_pokeMem h _ _ | rfl)
    | (with_reducible apply Keeps.flash_p)

theorem State.programByte_keeps {m : Nat} {s t : State} (h : Keeps m s t) (x0 : ℕ) (x1 : Sys2Proof.Byte) (hm : m ||| 52776558133248 = m) : Keeps m s (State.programByte t x0 x1) := by
  refine Keeps.step h ?_ hm
  unfold State.programByte
  split
  · exact (Keeps.refl 52776558133248 _).flash_p _ (fun h => mwf_mput h _ _) (by decide)
  · exact ((Keeps.refl 52776558133248 _).flash_p (mput t.flash x0 ((Config.freeValue t.fresh).toNat % 256 + 1)) (fun h => mwf_mput h _ _)
      (by decide)).fresh_p (t.fresh + 1) (Nat.le_succ _)
      (by decide)

theorem State.flashProgram_keeps {m : Nat} {s t : State} (h : Keeps m s t) (x0 : ℕ) (x1 : ℕ) (hm : m ||| 52780853100544 = m) : Keeps m s (State.flashProgram t x0 x1) := by
  refine Keeps.step h ?_ hm
  unfold State.flashProgram
  repeat' first
    | with_reducible exact Keeps.refl _ _
    | (with_reducible apply State.runCmd_keeps <;> try (intros; beta_reduce))
    | with_reducible apply State.endCmd_keeps
    | (with_reducible apply State.each_keeps <;> try (intros; beta_reduce))
    | with_reducible apply State.programByte_keeps
    | with_reducible apply Keeps.ite
    | decide

theorem State.flashRead_keeps {m : Nat} {s t : State} (h : Keeps m s t) (x0 : ℕ) (x1 : ℕ) (hm : m ||| 6442450944 = m) : Keeps m s (State.flashRead t x0 x1) := by
  refine Keeps.step h ?_ hm
  unfold State.flashRead
  repeat' first
    | with_reducible exact Keeps.refl _ _
    | (with_reducible apply State.runCmd_keeps <;> try (intros; beta_reduce))
    | with_reducible apply State.endCmd_keeps
    | with_reducible apply State.stagPoke_keeps
    | with_reducible apply Keeps.ite
    | decide

theorem State.keepDrop_keeps {m : Nat} {s t : State} (h : Keeps m s t) (hm : m ||| 8192 = m) : Keeps m s (State.keepDrop t) := by
  refine Keeps.step h ?_ hm
  unfold State.keepDrop
  repeat' first
    | with_reducible exact Keeps.refl _ _
    | with_reducible apply State.modKs_keeps
    | with_reducible apply Keeps.ite
    | decide

theorem State.keepReturn_keeps {m : Nat} {s t : State} (h : Keeps m s t) (hm : m ||| 8192 = m) : Keeps m s (State.keepReturn t) := by
  refine Keeps.step h ?_ hm
  unfold State.keepReturn
  repeat' first
    | with_reducible exact Keeps.refl _ _
    | with_reducible apply State.modKs_keeps
    | with_reducible apply Keeps.ite
    | decide

theorem State.knownAnswer_keeps {m : Nat} {s t : State} (h : Keeps m s t) (x0 : ℕ) (x1 : ℕ) (x2 : Bool) (hm : m ||| 279185299218 = m) : Keeps m s (State.knownAnswer t x0 x1 x2) := by
  refine Keeps.step h ?_ hm
  unfold State.knownAnswer
  repeat' first
    | with_reducible exact Keeps.refl _ _
    | with_reducible apply State.bump_keeps
    | with_reducible apply State.startPost_keeps
    | with_reducible apply State.noteFence_keeps
    | with_reducible apply State.fenceAt_keeps
    | with_reducible apply Keeps.ite
    | decide

theorem State.porstHigh_keeps {m : Nat} {s t : State} (h : Keeps m s t) (x0 : ℕ) (hm : m ||| 17592186044414 = m) : Keeps m s (State.porstHigh t x0) := by
  refine Keeps.step h ?_ hm
  unfold State.porstHigh
  repeat' first
    | with_reducible exact Keeps.refl _ _
    | with_reducible apply State.modBoot_keeps
    | with_reducible apply State.kept_keeps
    | with_reducible apply State.bootPhase1_keeps
    | with_reducible apply State.setFld_keeps
    | with_reducible apply Keeps.ite
    | decide

theorem State.porstLow_keeps {m : Nat} {s t : State} (h : Keeps m s t) (hm : m ||| 17592186044414 = m) : Keeps m s (State.porstLow t) := by
  refine Keeps.step h ?_ hm
  unfold State.porstLow
  repeat' first
    | with_reducible exact Keeps.refl _ _
    | with_reducible apply State.modBoot_keeps
    | with_reducible apply State.kept_keeps
    | with_reducible apply Keeps.ite
    | decide

theorem State.rcvBoot_keeps {m : Nat} {s t : State} (h : Keeps m s t) (x0 : ℕ) (x1 : ℕ) (hm : m ||| 17592186044414 = m) : Keeps m s (State.rcvBoot t x0 x1) := by
  refine Keeps.step h ?_ hm
  unfold State.rcvBoot
  repeat' first
    | with_reducible exact Keeps.refl _ _
    | (with_reducible apply State.runCmd_keeps <;> try (intros; beta_reduce))
    | with_reducible apply State.endCmd_keeps
    | with_reducible apply State.verifyPost_keeps
    | with_reducible apply State.writeDone_keeps
    | with_reducible apply State.kept_keeps
    | with_reducible apply State.modBoot_keeps
    | with_reducible apply State.setFld_keeps
    | with_reducible apply State.setPhase_keeps
    | with_reducible apply State.acceptBundle_keeps
    | with_reducible apply Keeps.ite
    | decide

theorem State.rcvInfo_keeps {m : Nat} {s t : State} (h : Keeps m s t) (x0 : ℕ) (x1 : ℕ) (hm : m ||| 4294967296 = m) : Keeps m s (State.rcvInfo t x0 x1) := by
  refine Keeps.step h ?_ hm
  unfold State.rcvInfo
  repeat' first
    | with_reducible exact Keeps.refl _ _
    | (with_reducible apply State.runCmd_keeps <;> try (intros; beta_reduce))
    | with_reducible apply State.endCmd_keeps
    | with_reducible apply Keeps.ite
    | decide

theorem State.rcvStage_keeps {m : Nat} {s t : State} (h : Keeps m s t) (x0 : ℕ) (x1 : ℕ) (hm : m ||| 4294967312 = m) : Keeps m s (State.rcvStage t x0 x1) := by
  refine Keeps.step h ?_ hm
  unfold State.rcvStage
  repeat' first
    | with_reducible exact Keeps.refl _ _
    | (with_reducible apply State.runCmd_keeps <;> try (intros; beta_reduce))
    | with_reducible apply State.endCmd_keeps
    | with_reducible apply State.poke_keeps
    | with_reducible apply Keeps.ite
    | decide

theorem State.sysrstDown_keeps {m : Nat} {s t : State} (h : Keeps m s t) (hm : m ||| 17592186044414 = m) : Keeps m s (State.sysrstDown t) := by
  refine Keeps.step h ?_ hm
  unfold State.sysrstDown
  repeat' first
    | with_reducible exact Keeps.refl _ _
    | with_reducible apply State.modBoot_keeps
    | with_reducible apply State.deviceReset_keeps
    | with_reducible apply Keeps.ite
    | decide

theorem State.sysrstUp_keeps {m : Nat} {s t : State} (h : Keeps m s t) (hm : m ||| 274877906946 = m) : Keeps m s (State.sysrstUp t) := by
  refine Keeps.step h ?_ hm
  unfold State.sysrstUp
  repeat' first
    | with_reducible exact Keeps.refl _ _
    | with_reducible apply State.modBoot_keeps
    | with_reducible apply State.bootPhase1_keeps
    | with_reducible apply Keeps.ite
    | decide

theorem State.watchdog_keeps {m : Nat} {s t : State} (h : Keeps m s t) (hm : m ||| 17592186044414 = m) : Keeps m s (State.watchdog t) := by
  refine Keeps.step h ?_ hm
  unfold State.watchdog
  repeat' first
    | with_reducible exact Keeps.refl _ _
    | with_reducible apply State.deviceReset_keeps
    | with_reducible apply Keeps.ite
    | decide

end Sys2Proof.Machine
end

