-- ==== Sys2Proof/Laws/KeepNetwork.lean ====
section
/-! SUPPORT. What the operations of Machine/Network.lean can do (the relation of Laws/Keep.lean). -/

namespace Sys2Proof.Machine

theorem State.aliasStays_keeps {m : Nat} {s t u : State} {bad : List Nat} {a : Nat} (e : t.aliasStays bad a = some u)
    (h : Keeps m s t) (hm : m ||| 2 = m) : Keeps m s u := by
  refine h.step ?_ hm
  clear h hm
  unfold State.aliasStays at e
  repeat' first
    | (with_reducible have e := Option.some.inj e; subst e; exact State.bankLineBad_keeps (Keeps.refl _ _) _ _ (by decide))
    | cases e
    | split at e

theorem State.bankOnce_keeps {m : Nat} {s t : State} (h : Keeps m s t) (x0 : ℕ) (hm : m ||| 8388608 = m) : Keeps m s (State.bankOnce t x0) := by
  refine Keeps.step h ?_ hm
  unfold State.bankOnce
  repeat' first
    | with_reducible exact Keeps.refl _ _
    | with_reducible apply State.arbOnce_keeps
    | with_reducible apply Keeps.ite
    | decide
    | split

theorem State.seamSend_keeps {m : Nat} {s t : State} (h : Keeps m s t) (x0 : ℕ) (x1 : List Sys2Proof.Word) (hm : m ||| 65536 = m) : Keeps m s (State.seamSend t x0 x1) := by
  refine Keeps.step h ?_ hm
  unfold State.seamSend
  repeat' first
    | with_reducible exact Keeps.refl _ _
    | with_reducible apply State.modSdir_keeps
    | with_reducible apply Keeps.ite
    | decide

theorem State.cnSend_keeps {m : Nat} {s t : State} (h : Keeps m s t) (d : Nat) (ws : List Word) (f : State → Nat → State)
    (hf : ∀ u n, Keeps m u (f u n)) (hm : m ||| 65536 = m) : Keeps m s (t.cnSend d ws f) := by
  refine h.trans ?_
  unfold State.cnSend
  dsimp only
  have k : Keeps m t (if destTouches d 0 then f t 0 else t) := Keeps.ite (hf _ _) (Keeps.refl _ _)
  generalize (if destTouches d 0 then f t 0 else t) = v at k ⊢
  split
  · exact k
  · split
    · exact k.trans (hf _ _)
    · exact k.step (State.seamSend_keeps (Keeps.refl 65536 _) _ _ (by decide)) hm

theorem State.cutOff_keeps {m : Nat} {s t : State} (h : Keeps m s t) (x0 : ℕ) (hm : m ||| 12425106 = m) : Keeps m s (State.cutOff t x0) := by
  refine Keeps.step h ?_ hm
  unfold State.cutOff
  repeat' first
    | with_reducible exact Keeps.refl _ _
    | (with_reducible apply State.each_keeps <;> try (intros; beta_reduce))
    | with_reducible apply State.fenceAt_keeps
    | with_reducible apply State.haltAtHarvest_keeps
    | with_reducible apply Keeps.ite
    | decide

theorem State.cnLinkFails_keeps {m : Nat} {s t : State} (h : Keeps m s t) (x0 : ℕ) (hm : m ||| 2199035680658 = m) : Keeps m s (State.cnLinkFails t x0) := by
  refine Keeps.step h ?_ hm
  unfold State.cnLinkFails
  repeat' first
    | with_reducible exact Keeps.refl _ _
    | with_reducible apply State.modCn_keeps
    | with_reducible apply State.cutOff_keeps
    | with_reducible apply Keeps.ite
    | decide
    | split

theorem State.linkErr_keeps {m : Nat} {s t : State} (h : Keeps m s t) (x0 : Sys2Proof.LinkErr) (hm : m ||| 2199035680658 = m) : Keeps m s (State.linkErr t x0) := by
  refine Keeps.step h ?_ hm
  unfold State.linkErr
  repeat' first
    | with_reducible exact Keeps.refl _ _
    | with_reducible apply State.bump_keeps
    | with_reducible apply State.cnLinkFails_keeps
    | with_reducible apply Keeps.ite
    | decide

theorem State.cnBcastIn_keeps {m : Nat} {s t : State} (h : Keeps m s t) (x0 : ℕ) (x1 : ℕ) (x2 : ℕ) (x3 : List Sys2Proof.Word) (x4 : Sys2Proof.Word) (x5 : List Sys2Proof.LinkErr) (x6 : ℕ) (hm : m ||| 6597082191762 = m) : Keeps m s (State.cnBcastIn t x0 x1 x2 x3 x4 x5 x6) := by
  refine Keeps.step h ?_ hm
  unfold State.cnBcastIn
  repeat' first
    | with_reducible exact Keeps.refl _ _
    | (with_reducible apply State.each_keeps <;> try (intros; beta_reduce))
    | with_reducible apply State.linkErr_keeps
    | with_reducible apply State.bcast_keeps
    | with_reducible apply Keeps.ite
    | decide

theorem State.cnBcast_keeps {m : Nat} {s t : State} (h : Keeps m s t) (x0 : ℕ) (x1 : ℕ) (x2 : ℕ) (x3 : List Sys2Proof.Word) (x4 : Sys2Proof.Word) (x5 : List Sys2Proof.LinkErr) (hm : m ||| 6597082191762 = m) : Keeps m s (State.cnBcast t x0 x1 x2 x3 x4 x5) := by
  refine Keeps.step h ?_ hm
  unfold State.cnBcast
  repeat' first
    | with_reducible exact Keeps.refl _ _
    | (with_reducible apply State.cnSend_keeps <;> try (intros; beta_reduce))
    | with_reducible apply State.bcastCount_keeps
    | with_reducible apply State.cnBcastIn_keeps
    | with_reducible apply Keeps.ite
    | decide

theorem State.cnPass_keeps {m : Nat} {s t u : State} {c : Nat} {es : List LinkErr} (e : t.cnPass c es = some u)
    (h : Keeps m s t) (hm : m ||| 2199035680658 = m) : Keeps m s u := by
  refine h.step ?_ hm
  clear h hm
  unfold State.cnPass at e
  dsimp only at e
  have k : ∀ l : List LinkErr, Keeps 2199035680658 t (t.each l fun s e => s.linkErr e) := fun l =>
    (Keeps.refl _ _).each _ _ fun u a => State.linkErr_keeps (Keeps.refl _ _) _ (by decide)
  split at e
  · cases e
  · obtain rfl := Option.some.inj e
    exact (State.bump_keeps (k _) _ _ _ (by decide)).each _ _ fun u a =>
      State.bump_keeps (State.bump_keeps (Keeps.refl _ _) _ _ _ (by decide)) _ _ _ (by decide)

theorem State.cnTo_keeps {m : Nat} {s t : State} (h : Keeps m s t) (c : Nat) (es : List LinkErr) (f : State → State)
    (hf : ∀ u, Keeps m u (f u)) (hm : m ||| 2199035680658 = m) : Keeps m s (t.cnTo c es f) := by
  refine h.trans ?_
  unfold State.cnTo
  split
  · rename_i e
    exact ((State.cnPass_keeps e (Keeps.refl 2199035680658 _) (by decide)).mono hm).trans (hf _)
  · exact ((Keeps.refl 2199035680658 _).each _ _ fun u a => State.linkErr_keeps (Keeps.refl _ _) _ (by decide)).mono hm

theorem State.cnUp_keeps {m : Nat} {s t : State} (h : Keeps m s t) (c : Nat) (w : List Word) (es : List LinkErr) (f : State → State)
    (hf : ∀ u, Keeps m u (f u)) (hm : m ||| 2199035680658 = m) : Keeps m s (t.cnUp c w es f) := by
  unfold State.cnUp
  refine State.cnTo_keeps h _ _ _ (fun u => Keeps.ite ?_ (hf u)) (by rw [← hm, Nat.or_assoc]; rfl)
  exact (State.seamSend_keeps (Keeps.refl 2199035680658 _) _ _ (by decide)).mono hm

theorem State.cnDone_keeps {m : Nat} {s t : State} (h : Keeps m s t) (x0 : ℕ) (x1 : ℕ) (x2 : List Sys2Proof.LinkErr) (hm : m ||| 2199035680658 = m) : Keeps m s (State.cnDone t x0 x1 x2) := by
  refine Keeps.step h ?_ hm
  unfold State.cnDone
  repeat' first
    | with_reducible exact Keeps.refl _ _
    | (with_reducible apply State.cnUp_keeps <;> try (intros; beta_reduce))
    | with_reducible apply State.emitDone_keeps
    | with_reducible apply Keeps.ite
    | decide

theorem State.cnDown_keeps {m : Nat} {s t : State} (h : Keeps m s t) (c : Nat) (w : List Word) (es : List LinkErr) (f : State → State)
    (hf : ∀ u, Keeps m u (f u)) (hm : m ||| 2199035680658 = m) : Keeps m s (t.cnDown c w es f) := by
  unfold State.cnDown
  refine Keeps.ite ?_ (State.cnTo_keeps h _ _ _ hf (by rw [← hm, Nat.or_assoc]; rfl))
  exact h.trans ((State.seamSend_keeps (Keeps.refl 2199035680658 _) _ _ (by decide)).mono hm)

theorem State.cnFenceAt_keeps {m : Nat} {s t : State} (h : Keeps m s t) (x0 : ℕ) (x1 : ℕ) (x2 : List Sys2Proof.LinkErr) (hm : m ||| 2199035680658 = m) : Keeps m s (State.cnFenceAt t x0 x1 x2) := by
  refine Keeps.step h ?_ hm
  unfold State.cnFenceAt
  repeat' first
    | with_reducible exact Keeps.refl _ _
    | (with_reducible apply State.cnTo_keeps <;> try (intros; beta_reduce))
    | with_reducible apply State.fenceAt_keeps
    | with_reducible apply Keeps.ite
    | decide

theorem State.cnFence_keeps {m : Nat} {s t : State} (h : Keeps m s t) (x0 : ℕ) (x1 : ℕ) (x2 : List Sys2Proof.LinkErr) (hm : m ||| 2199035680658 = m) : Keeps m s (State.cnFence t x0 x1 x2) := by
  refine Keeps.step h ?_ hm
  unfold State.cnFence
  repeat' first
    | with_reducible exact Keeps.refl _ _
    | (with_reducible apply State.cnSend_keeps <;> try (intros; beta_reduce))
    | (with_reducible apply State.each_keeps <;> try (intros; beta_reduce))
    | with_reducible apply State.cnFenceAt_keeps
    | with_reducible apply Keeps.ite
    | decide

theorem State.cnFlipTo_keeps {m : Nat} {s t : State} (h : Keeps m s t) (x0 : ℕ) (x1 : ℕ) (x2 : Sys2Proof.FlipErr) (hm : m ||| 2199035680658 = m) : Keeps m s (State.cnFlipTo t x0 x1 x2) := by
  refine Keeps.step h ?_ hm
  unfold State.cnFlipTo
  repeat' first
    | with_reducible exact Keeps.refl _ _
    | (with_reducible apply State.cnDown_keeps <;> try (intros; beta_reduce))
    | with_reducible apply State.cnFlip_keeps
    | with_reducible apply Keeps.ite
    | decide
    | split

theorem State.cnGet_keeps {m : Nat} {s t : State} (h : Keeps m s t) (x0 : List ℕ) (x1 : ℕ) (x2 : ℕ) (hm : m ||| 35184380477702 = m) : Keeps m s (State.cnGet t x0 x1 x2).2 := by
  refine Keeps.step h ?_ hm
  unfold State.cnGet
  repeat' first
    | with_reducible exact Keeps.refl _ _
    | with_reducible apply State.readWord_keeps
    | with_reducible apply State.bump_keeps
    | with_reducible apply State.draw_keeps
    | with_reducible apply State.countRead_keeps
    | with_reducible apply State.bankOnce_keeps
    | with_reducible apply State.bankLineBad_keeps
    | with_reducible apply State.coreTouch_keeps
    | with_reducible apply Keeps.ite
    | decide
    | split

theorem State.cnGets_keeps {m : Nat} {s t : State} (h : Keeps m s t) (x0 : List ℕ) (x1 : ℕ) (x2 : ℕ) (x3 : ℕ) (hm : m ||| 35184380477702 = m) : Keeps m s (State.cnGets t x0 x1 x2 x3).2 := by
  refine Keeps.step h ?_ hm
  clear h hm
  induction x3 generalizing t x2 with
  | zero => exact Keeps.refl _ _
  | succ n ih => exact (State.cnGet_keeps (Keeps.refl _ _) _ _ _ (by decide)).trans (ih _)

theorem State.cnTake_keeps {m : Nat} {s t : State} (h : Keeps m s t) (x0 : ℕ) (x1 : List Sys2Proof.Word) (hm : m ||| 2199023255552 = m) : Keeps m s (State.cnTake t x0 x1) := by
  refine Keeps.step h ?_ hm
  unfold State.cnTake
  repeat' first
    | with_reducible exact Keeps.refl _ _
    | with_reducible apply State.modCn_keeps
    | with_reducible apply Keeps.ite
    | decide

theorem State.cnGot_keeps {m : Nat} {s t : State} (h : Keeps m s t) (x0 : ℕ) (x1 : List Sys2Proof.Word) (x2 : List Sys2Proof.LinkErr) (hm : m ||| 2199035680658 = m) : Keeps m s (State.cnGot t x0 x1 x2) := by
  refine Keeps.step h ?_ hm
  unfold State.cnGot
  repeat' first
    | with_reducible exact Keeps.refl _ _
    | (with_reducible apply State.cnTo_keeps <;> try (intros; beta_reduce))
    | with_reducible apply State.cnTake_keeps
    | with_reducible apply Keeps.ite
    | decide

theorem State.cnPut_keeps {m : Nat} {s t : State} (h : Keeps m s t) (x0 : List ℕ) (x1 : ℕ) (x2 : ℕ) (x3 : ℕ) (hm : m ||| 52776558133246 = m) : Keeps m s (State.cnPut t x0 x1 x2 x3) := by
  refine Keeps.step h ?_ hm
  unfold State.cnPut
  repeat' first
    | (with_reducible apply State.aliasStays_keeps; assumption)
    | with_reducible exact Keeps.refl _ _
    | with_reducible apply State.writeWord_keeps
    | with_reducible apply State.bump_keeps
    | with_reducible apply State.bankOnce_keeps
    | (with_reducible apply State.aliasStays_keeps; assumption)
    | with_reducible apply State.observe_keeps
    | with_reducible apply State.lineWrite_keeps
    | with_reducible apply State.coreTouch_keeps
    | with_reducible apply Keeps.ite
    | decide
    | split
    | dsimp only


theorem State.cnPuts_keeps {m : Nat} {s t : State} (h : Keeps m s t) (x0 : List ℕ) (x1 : ℕ) (x2 : ℕ) (x3 : List Sys2Proof.Word) (hm : m ||| 52776558133246 = m) : Keeps m s (State.cnPuts t x0 x1 x2 x3) := by
  refine Keeps.step h ?_ hm
  unfold State.cnPuts
  repeat' first
    | with_reducible exact Keeps.refl _ _
    | (with_reducible apply State.each_keeps <;> try (intros; beta_reduce))
    | with_reducible apply State.cnPut_keeps
    | with_reducible apply Keeps.ite
    | decide

theorem State.cnWriteIn_keeps {m : Nat} {s t : State} (h : Keeps m s t) (x0 : ℕ) (x1 : ℕ) (x2 : List Sys2Proof.Word) (x3 : Sys2Proof.FlipErr) (x4 : ℕ) (hm : m ||| 52776558133246 = m) : Keeps m s (State.cnWriteIn t x0 x1 x2 x3 x4) := by
  refine Keeps.step h ?_ hm
  unfold State.cnWriteIn
  repeat' first
    | with_reducible exact Keeps.refl _ _
    | with_reducible apply State.cnPuts_keeps
    | (with_reducible apply State.each_keeps <;> try (intros; beta_reduce))
    | (with_reducible apply State.cnTo_keeps <;> try (intros; beta_reduce))
    | with_reducible apply Keeps.ite
    | decide

theorem State.cnReadAt_keeps {m : Nat} {s t : State} (h : Keeps m s t) (x0 : List ℕ) (x1 : ℕ) (x2 : ℕ) (x3 : ℕ) (x4 : ℕ) (hm : m ||| 37383403733254 = m) : Keeps m s (State.cnReadAt t x0 x1 x2 x3 x4) := by
  refine Keeps.step h ?_ hm
  unfold State.cnReadAt
  repeat' first
    | with_reducible exact Keeps.refl _ _
    | with_reducible apply State.cnGets_keeps
    | with_reducible apply State.modCn_keeps
    | with_reducible apply Keeps.ite
    | decide

theorem State.cnReadIn_keeps {m : Nat} {s t : State} (h : Keeps m s t) (x0 : List ℕ) (x1 : ℕ) (x2 : ℕ) (x3 : ℕ) (x4 : ℕ) (x5 : List Sys2Proof.LinkErr) (x6 : ℕ) (hm : m ||| 37383407769494 = m) : Keeps m s (State.cnReadIn t x0 x1 x2 x3 x4 x5 x6) := by
  refine Keeps.step h ?_ hm
  unfold State.cnReadIn
  repeat' first
    | with_reducible exact Keeps.refl _ _
    | with_reducible apply State.cnReadAt_keeps
    | (with_reducible apply State.each_keeps <;> try (intros; beta_reduce))
    | (with_reducible apply State.cnTo_keeps <;> try (intros; beta_reduce))
    | with_reducible apply Keeps.ite
    | decide

theorem State.openLanded_keeps {m : Nat} {s t : State} (h : Keeps m s t) (x0 : ℕ) (x1 : ℕ) (x2 : List Sys2Proof.Word) (x3 : Sys2Proof.FlipErr) (hm : m ||| 2199035680658 = m) : Keeps m s (State.openLanded t x0 x1 x2 x3) := by
  refine Keeps.step h ?_ hm
  unfold State.openLanded
  repeat' first
    | with_reducible exact Keeps.refl _ _
    | (with_reducible apply State.cnTo_keeps <;> try (intros; beta_reduce))
    | (with_reducible apply State.each_keeps <;> try (intros; beta_reduce))
    | with_reducible apply State.cnOpen_keeps
    | with_reducible apply Keeps.ite
    | decide

theorem State.redAt_keeps {m : Nat} {s t : State} (h : Keeps m s t) (x0 : ℕ) (x1 : ℕ) (x2 : ℕ) (x3 : List Sys2Proof.Word) (hm : m ||| 2199023255552 = m) : Keeps m s (State.redAt t x0 x1 x2 x3) := by
  refine Keeps.step h ?_ hm
  unfold State.redAt
  repeat' first
    | with_reducible exact Keeps.refl _ _
    | with_reducible apply State.modCn_keeps
    | with_reducible apply Keeps.ite
    | decide

theorem State.cnResultIn_keeps {m : Nat} {s t : State} (h : Keeps m s t) (x0 : ℕ) (x1 : ℕ) (x2 : List Sys2Proof.Word) (x3 : List Sys2Proof.LinkErr) (hm : m ||| 2199035680658 = m) : Keeps m s (State.cnResultIn t x0 x1 x2 x3) := by
  refine Keeps.step h ?_ hm
  unfold State.cnResultIn
  repeat' first
    | with_reducible exact Keeps.refl _ _
    | with_reducible apply State.modCn_keeps
    | (with_reducible apply State.each_keeps <;> try (intros; beta_reduce))
    | (with_reducible apply State.cnTo_keeps <;> try (intros; beta_reduce))
    | with_reducible apply State.cnTake_keeps
    | with_reducible apply Keeps.ite
    | decide

theorem State.cnResetAt_keeps {m : Nat} {s t : State} (h : Keeps m s t) (x0 : ℕ) (x1 : ℕ) (x2 : ℕ) (x3 : List Sys2Proof.LinkErr) (hm : m ||| 17592186044414 = m) : Keeps m s (State.cnResetAt t x0 x1 x2 x3) := by
  refine Keeps.step h ?_ hm
  unfold State.cnResetAt
  repeat' first
    | with_reducible exact Keeps.refl _ _
    | (with_reducible apply State.cnTo_keeps <;> try (intros; beta_reduce))
    | with_reducible apply State.rstWrite_keeps
    | with_reducible apply Keeps.ite
    | decide
    | split

theorem State.flipLanded_keeps {m : Nat} {s t : State} (h : Keeps m s t) (x0 : ℕ) (x1 : ℕ) (x2 : Sys2Proof.FlipErr) (hm : m ||| 2199035680658 = m) : Keeps m s (State.flipLanded t x0 x1 x2) := by
  refine Keeps.step h ?_ hm
  unfold State.flipLanded
  repeat' first
    | with_reducible exact Keeps.refl _ _
    | (with_reducible apply State.cnTo_keeps <;> try (intros; beta_reduce))
    | (with_reducible apply State.each_keeps <;> try (intros; beta_reduce))
    | with_reducible apply State.cnFlip_keeps
    | with_reducible apply Keeps.ite
    | decide

theorem State.cnLanded_keeps {m : Nat} {s t : State} (h : Keeps m s t) (x0 : ℕ) (x1 : List Sys2Proof.Word) (x2 : Sys2Proof.FlipErr) (hm : m ||| 52776558133246 = m) : Keeps m s (State.cnLanded t x0 x1 x2) := by
  refine Keeps.step h ?_ hm
  unfold State.cnLanded
  repeat' first
    | with_reducible exact Keeps.refl _ _
    | with_reducible apply State.cnWriteIn_keeps
    | with_reducible apply State.cnReadIn_keeps
    | with_reducible apply State.cnGot_keeps
    | with_reducible apply State.openLanded_keeps
    | with_reducible apply State.emitDone_keeps
    | with_reducible apply State.modCn_keeps
    | with_reducible apply State.redAt_keeps
    | with_reducible apply State.cnResultIn_keeps
    | with_reducible apply State.cnBcastIn_keeps
    | (with_reducible apply State.each_keeps <;> try (intros; beta_reduce))
    | with_reducible apply State.cnFenceAt_keeps
    | with_reducible apply State.cnResetAt_keeps
    | with_reducible apply State.flipLanded_keeps
    | (with_reducible apply State.cnTo_keeps <;> try (intros; beta_reduce))
    | with_reducible apply State.tload_keeps
    | with_reducible apply Keeps.ite
    | decide
    | split

theorem State.cnOpenTo_keeps {m : Nat} {s t : State} (h : Keeps m s t) (x0 : ℕ) (x1 : ℕ) (x2 : List ℕ) (x3 : List Sys2Proof.LinkErr) (hm : m ||| 2199035680658 = m) : Keeps m s (State.cnOpenTo t x0 x1 x2 x3) := by
  refine Keeps.step h ?_ hm
  unfold State.cnOpenTo
  repeat' first
    | with_reducible exact Keeps.refl _ _
    | (with_reducible apply State.cnDown_keeps <;> try (intros; beta_reduce))
    | with_reducible apply State.cnOpen_keeps
    | with_reducible apply Keeps.ite
    | decide

theorem State.cnRead_keeps {m : Nat} {s t : State} (h : Keeps m s t) (x0 : List ℕ) (x1 : ℕ) (x2 : ℕ) (x3 : ℕ) (x4 : ℕ) (x5 : List Sys2Proof.LinkErr) (hm : m ||| 37383407769494 = m) : Keeps m s (State.cnRead t x0 x1 x2 x3 x4 x5) := by
  refine Keeps.step h ?_ hm
  unfold State.cnRead
  repeat' first
    | with_reducible exact Keeps.refl _ _
    | (with_reducible apply State.cnSend_keeps <;> try (intros; beta_reduce))
    | with_reducible apply State.cnReadIn_keeps
    | with_reducible apply Keeps.ite
    | decide

theorem State.redPass_keeps {m : Nat} {s t : State} (h : Keeps m s t) (tag node : Nat) (f : State → List Word → State)
    (hf : ∀ u w, Keeps m u (f u w)) (hm : m ||| 2199023255552 = m) : Keeps m s (t.redPass tag node f) :=
  ((State.modCn_keeps h _ hm)).trans (hf _ _)

theorem State.redCross_keeps {m : Nat} {s t : State} (h : Keeps m s t) (x0 : ℕ) (x1 : ℕ) (hm : m ||| 2199023321088 = m) : Keeps m s (State.redCross t x0 x1) := by
  refine Keeps.step h ?_ hm
  unfold State.redCross
  repeat' first
    | with_reducible exact Keeps.refl _ _
    | (with_reducible apply State.redPass_keeps <;> try (intros; beta_reduce))
    | with_reducible apply State.seamSend_keeps
    | with_reducible apply Keeps.ite
    | decide

theorem State.cnReduce_keeps {m : Nat} {s t : State} (h : Keeps m s t) (x0 : ℕ) (x1 : ℕ) (x2 : ℕ) (x3 : List Sys2Proof.Word) (x4 : List Sys2Proof.LinkErr) (hm : m ||| 2199035680658 = m) : Keeps m s (State.cnReduce t x0 x1 x2 x3 x4) := by
  refine Keeps.step h ?_ hm
  unfold State.cnReduce
  repeat' first
    | with_reducible exact Keeps.refl _ _
    | (with_reducible apply State.cnTo_keeps <;> try (intros; beta_reduce))
    | with_reducible apply State.modCn_keeps
    | with_reducible apply State.redAt_keeps
    | (with_reducible apply State.redPass_keeps <;> try (intros; beta_reduce))
    | with_reducible apply State.redCross_keeps
    | with_reducible apply Keeps.ite
    | decide

theorem State.cnReset_keeps {m : Nat} {s t : State} (h : Keeps m s t) (x0 : ℕ) (x1 : ℕ) (x2 : ℕ) (x3 : List Sys2Proof.LinkErr) (hm : m ||| 17592186044414 = m) : Keeps m s (State.cnReset t x0 x1 x2 x3) := by
  refine Keeps.step h ?_ hm
  unfold State.cnReset
  repeat' first
    | with_reducible exact Keeps.refl _ _
    | (with_reducible apply State.cnSend_keeps <;> try (intros; beta_reduce))
    | (with_reducible apply State.each_keeps <;> try (intros; beta_reduce))
    | with_reducible apply State.cnResetAt_keeps
    | with_reducible apply Keeps.ite
    | decide

theorem State.cnResp_keeps {m : Nat} {s t : State} (h : Keeps m s t) (x0 : List Sys2Proof.LinkErr) (hm : m ||| 2199035680658 = m) : Keeps m s (State.cnResp t x0) := by
  refine Keeps.step h ?_ hm
  unfold State.cnResp
  repeat' first
    | with_reducible exact Keeps.refl _ _
    | with_reducible apply State.modCn_keeps
    | with_reducible apply State.cnGot_keeps
    | with_reducible apply State.seamSend_keeps
    | (with_reducible apply State.cnTo_keeps <;> try (intros; beta_reduce))
    | with_reducible apply Keeps.ite
    | decide
    | split

theorem State.cnResult_keeps {m : Nat} {s t : State} (h : Keeps m s t) (x0 : ℕ) (x1 : List Sys2Proof.LinkErr) (hm : m ||| 2199035680658 = m) : Keeps m s (State.cnResult t x0 x1) := by
  refine Keeps.step h ?_ hm
  unfold State.cnResult
  repeat' first
    | with_reducible exact Keeps.refl _ _
    | (with_reducible apply State.each_keeps <;> try (intros; beta_reduce))
    | with_reducible apply State.seamSend_keeps
    | with_reducible apply State.cnResultIn_keeps
    | with_reducible apply Keeps.ite
    | decide

theorem State.cnStatus_keeps {m : Nat} {s t : State} (h : Keeps m s t) (x0 : ℕ) (x1 : ℕ) (x2 : List Sys2Proof.Word) (x3 : List Sys2Proof.LinkErr) (hm : m ||| 2199035680658 = m) : Keeps m s (State.cnStatus t x0 x1 x2 x3) := by
  refine Keeps.step h ?_ hm
  unfold State.cnStatus
  repeat' first
    | with_reducible exact Keeps.refl _ _
    | (with_reducible apply State.cnTo_keeps <;> try (intros; beta_reduce))
    | with_reducible apply State.cnTake_keeps
    | with_reducible apply Keeps.ite
    | decide

theorem State.cnTload_keeps {m : Nat} {s t : State} (h : Keeps m s t) (x0 : ℕ) (x1 : List Sys2Proof.LinkErr) (hm : m ||| 2200411412370 = m) : Keeps m s (State.cnTload t x0 x1) := by
  refine Keeps.step h ?_ hm
  unfold State.cnTload
  repeat' first
    | with_reducible exact Keeps.refl _ _
    | (with_reducible apply State.cnDown_keeps <;> try (intros; beta_reduce))
    | with_reducible apply State.tload_keeps
    | with_reducible apply Keeps.ite
    | decide

theorem State.cnWrite_keeps {m : Nat} {s t : State} (h : Keeps m s t) (x0 : ℕ) (x1 : ℕ) (x2 : List Sys2Proof.Word) (x3 : Sys2Proof.FlipErr) (hm : m ||| 52776558133246 = m) : Keeps m s (State.cnWrite t x0 x1 x2 x3) := by
  refine Keeps.step h ?_ hm
  unfold State.cnWrite
  repeat' first
    | with_reducible exact Keeps.refl _ _
    | (with_reducible apply State.cnSend_keeps <;> try (intros; beta_reduce))
    | with_reducible apply State.cnWriteIn_keeps
    | with_reducible apply Keeps.ite
    | decide

theorem State.rakePass_keeps {m : Nat} {s t : State} (h : Keeps m s t) (x0 : List ℕ) (hm : m ||| 1103806595090 = m) : Keeps m s (State.rakePass t x0) := by
  refine Keeps.step h ?_ hm
  unfold State.rakePass
  repeat' first
    | with_reducible exact Keeps.refl _ _
    | with_reducible apply State.rakeDone_keeps
    | with_reducible apply Keeps.ite
    | decide

theorem State.seamArrive_keeps {m : Nat} {s t : State} (h : Keeps m s t) (x0 : ℕ) (x1 : ℕ) (x2 : ℕ) (x3 : Sys2Proof.CellFate) (hm : m ||| 52776558133246 = m) : Keeps m s (State.seamArrive t x0 x1 x2 x3) := by
  refine Keeps.step h ?_ hm
  unfold State.seamArrive
  repeat' first
    | with_reducible exact Keeps.refl _ _
    | with_reducible apply State.seamDataCell_keeps
    | with_reducible apply State.modSdir_keeps
    | (with_reducible apply State.each_keeps <;> try (intros; beta_reduce))
    | with_reducible apply State.cnLanded_keeps
    | with_reducible apply Keeps.ite
    | decide

end Sys2Proof.Machine
end

