-- ==== Sys2Proof/Laws/KeepDeliver.lean ====
section
/-! SUPPORT. What the operations of Machine/Deliver.lean can do (the relation of Laws/Keep.lean). -/

namespace Sys2Proof.Machine

theorem State.abortWrite_keeps {m : Nat} {s t : State} (h : Keeps m s t) (x0 : Sys2Proof.Requester) (x1 : ℕ) (x2 : ℕ) (hm : m ||| 8717458 = m) : Keeps m s (State.abortWrite t x0 x1 x2) := by
  refine Keeps.step h ?_ hm
  unfold State.abortWrite
  repeat' first
    | with_reducible exact Keeps.refl _ _
    | with_reducible apply State.mxAbort_keeps
    | with_reducible apply State.stray_keeps
    | with_reducible apply Keeps.ite
    | decide
    | split

theorem State.bindEnable_keeps {m : Nat} {s t : State} (h : Keeps m s t) (x0 : Sys2Proof.Requester) (x1 : Sys2Proof.BindAt) (x2 : Sys2Proof.Word) (hm : m ||| 52776558133246 = m) : Keeps m s (State.bindEnable t x0 x1 x2) := by
  refine Keeps.step h ?_ hm
  unfold State.bindEnable
  repeat' first
    | with_reducible exact Keeps.refl _ _
    | with_reducible apply State.cmdWrite_keeps
    | with_reducible apply Keeps.ite
    | decide
    | split

theorem State.deliverTo_keeps {m : Nat} {s t : State} (h : Keeps m s t) (c slot : Nat) (w r : Flit → Bool) (g : State → Flit → State)
    (hg : ∀ u f, Keeps m u (g u f)) (hm : m ||| 1605778 = m) : Keeps m s (t.deliverTo c slot w r g) := by
  refine h.trans ?_
  unfold State.deliverTo
  split
  · exact Keeps.refl _ _
  · rename_i f u e
    have k := State.takeDlv_keeps e (Keeps.refl 1605778 _) (by decide)
    split
    · split
      · split
        · exact (State.spillPut_keeps (State.rewrite_keeps k _ _ _ (by decide)) _ _ (by decide)).mono hm
        · exact Keeps.refl _ _
      · exact (State.absorbFenced_keeps k _ _ (by decide)).mono hm
    · split
      · exact (State.absorb_keeps (State.trace_keeps k _ _ _ _ _ (by decide)) _ _ _ _ (by decide)).mono hm
      · split
        · exact (k.mono hm).trans (hg _ _)
        · split
          · exact (State.spillPut_keeps k _ _ (by decide)).mono hm
          · exact Keeps.refl _ _

theorem State.coreFlit_keeps {m : Nat} {s t : State} (h : Keeps m s t) (x0 : ℕ) (x1 : ℕ) (hm : m ||| 1606034 = m) : Keeps m s (State.coreFlit t x0 x1) := by
  refine Keeps.step h ?_ hm
  unfold State.coreFlit
  repeat' first
    | with_reducible exact Keeps.refl _ _
    | (with_reducible apply State.deliverTo_keeps <;> try (intros; beta_reduce))
    | with_reducible apply State.coreEnqueue_keeps
    | with_reducible apply Keeps.ite
    | decide

theorem State.emitPort_keeps {m : Nat} {s t : State} (h : Keeps m s t) (x0 : List ℕ) (x1 : ℕ) (x2 : ℕ) (hm : m ||| 1538 = m) : Keeps m s (State.emitPort t x0 x1 x2) := by
  refine Keeps.step h ?_ hm
  unfold State.emitPort
  repeat' first
    | with_reducible exact Keeps.refl _ _
    | with_reducible apply State.emitRecord_keeps
    | with_reducible apply State.mxEmitFill_keeps
    | with_reducible apply Keeps.ite
    | decide

theorem State.hostCtrl_keeps {m : Nat} {s t : State} (h : Keeps m s t) (n : Nat) (f : State → State)
    (hf : ∀ u, Keeps m u (f u)) (hm : m ||| 2 = m) : Keeps m s (t.hostCtrl n f) :=
  h.trans (Keeps.ite ((State.bump_keeps (Keeps.refl _ _) _ _ _ hm).trans (hf _)) (Keeps.refl _ _))

theorem State.inbandFlit_keeps {m : Nat} {s t : State} (h : Keeps m s t) (x0 : ℕ) (x1 : ℕ) (hm : m ||| 1606290 = m) : Keeps m s (State.inbandFlit t x0 x1) := by
  refine Keeps.step h ?_ hm
  unfold State.inbandFlit
  repeat' first
    | with_reducible exact Keeps.refl _ _
    | (with_reducible apply State.deliverTo_keeps <;> try (intros; beta_reduce))
    | with_reducible apply State.ibqTake_keeps
    | with_reducible apply Keeps.ite
    | decide

theorem State.modulatorFlit_keeps {m : Nat} {s t : State} (h : Keeps m s t) (x0 : ℕ) (x1 : ℕ) (hm : m ||| 1605778 = m) : Keeps m s (State.modulatorFlit t x0 x1) := by
  refine Keeps.step h ?_ hm
  unfold State.modulatorFlit
  repeat' first
    | with_reducible exact Keeps.refl _ _
    | (with_reducible apply State.deliverTo_keeps <;> try (intros; beta_reduce))
    | with_reducible apply State.modFlit_keeps
    | with_reducible apply Keeps.ite
    | decide

theorem State.selfCheckDone_keeps {m : Nat} {s t : State} (h : Keeps m s t) (x0 : ℕ) (x1 : Bool) (hm : m ||| 4340948882 = m) : Keeps m s (State.selfCheckDone t x0 x1) := by
  refine Keeps.step h ?_ hm
  unfold State.selfCheckDone
  repeat' first
    | with_reducible exact Keeps.refl _ _
    | with_reducible apply State.fresetCheck_keeps
    | with_reducible apply State.brokenFail_keeps
    | with_reducible apply State.arbDrop_keeps
    | with_reducible apply State.mqDown_keeps
    | with_reducible apply Keeps.ite
    | decide

theorem State.sinkFlit_keeps {m : Nat} {s t : State} (h : Keeps m s t) (x0 : Sys2Proof.SinkMeet) (x1 : ℕ) (x2 : ℕ) (hm : m ||| 9994898 = m) : Keeps m s (State.sinkFlit t x0 x1 x2) := by
  refine Keeps.step h ?_ hm
  unfold State.sinkFlit
  repeat' first
    | with_reducible exact Keeps.refl _ _
    | (with_reducible apply State.deliverTo_keeps <;> try (intros; beta_reduce))
    | with_reducible apply State.sinkTake_keeps
    | with_reducible apply State.sinkHeld_keeps
    | with_reducible apply Keeps.ite
    | decide

theorem State.trackingPause_keeps {m : Nat} {s t : State} (h : Keeps m s t) (x0 : ℕ) (x1 : Bool) (hm : m ||| 4303356034 = m) : Keeps m s (State.trackingPause t x0 x1) := by
  refine Keeps.step h ?_ hm
  unfold State.trackingPause
  repeat' first
    | with_reducible exact Keeps.refl _ _
    | with_reducible apply State.modArb_keeps
    | with_reducible apply State.bump_keeps
    | with_reducible apply State.chanFail_keeps
    | with_reducible apply Keeps.ite
    | decide

end Sys2Proof.Machine
end

