-- ==== Sys2Proof/Laws/KeepWrite.lean ====
section
/-! SUPPORT. What a command that writes a register can do (the relation of Laws/Keep.lean), register by register. -/

namespace Sys2Proof.Machine

theorem State.stray_bound_keeps (s : State) (req : Requester) : Keeps 2 s (match req with | .engine _ _ => s.stray req | _ => s) := by
  cases req with
  | engine _ _ => exact State.stray_keeps (Keeps.refl _ _) _ (by decide)
  | port _ => exact Keeps.refl _ _
  | steward _ => exact Keeps.refl _ _
  | resident => exact Keeps.refl _ _

/-- An access to a register of a neuron core's NC_ block is noted for the core, one to another register is not. -/
theorem State.touch_keeps {m : Nat} (r : Reg) (ht : r.ofCore = false ∨ m ||| 256 = m) (s : State) (a : Nat) :
    Keeps m s (s.regTouch r a) := by
  unfold State.regTouch
  rcases ht with ht | ht
  · rw [ht]; exact Keeps.refl _ _
  · exact Keeps.ite ((State.coreTouch_keeps (Keeps.refl 256 s) _ (by decide)).mono ht) (Keeps.refl _ _)

/-- A command that writes a 32-bit register does what the register's write does. -/
theorem State.cmdWrite32_keeps {m m' : Nat} {s t : State} (r : Reg) (hr : r.desc.bytes = 4) (h : Keeps m s t) (req : Requester) (idx : List Nat)
    (v : Nat) (hw : ∀ u idx v, Keeps m' u (u.regWrite req r idx v none).2) (ht : r.ofCore = false ∨ m' ||| 256 = m') (hb : m' ||| 2 = m') (hm : m ||| m' = m) :
    Keeps m s (t.cmdWrite req r idx v) := by
  refine h.step ?_ hm
  unfold State.cmdWrite State.writeReg
  split
  · dsimp only
    rw [if_neg (by rw [hr]; decide)]
    unfold State.writeAt
    dsimp only
    have k := State.touch_keeps r ht t (r.place idx)
    repeat' first
      | exact Keeps.refl _ _
      | exact k
      | exact k.trans (hw _ _ _)
      | contradiction
      | split
  · exact (State.stray_bound_keeps _ _).mono hb

/-- A command that writes a 64-bit register does what the register's write does, and uses the word held for its lower half. -/
theorem State.cmdWrite64_keeps {m m' : Nat} {s t : State} (r : Reg) (h : Keeps m s t) (req : Requester) (idx : List Nat)
    (v : Nat) (hw : ∀ u idx v, Keeps m' u (u.regWrite req r idx v none).2) (ht : r.ofCore = false ∨ m' ||| 256 = m') (hb : m' ||| 10 = m') (hm : m ||| m' = m) :
    Keeps m s (t.cmdWrite req r idx v) := by
  refine h.step ?_ hm
  have ha : ∀ (u : State) a off v, Keeps m' u (u.writeAt req a r idx off v none).2 := by
    intro u a off v
    have hp : ∀ {u : State} k y, Keeps m' u { u with helds := mput u.helds k y } := fun k y =>
      ((Keeps.refl _ _).helds_p (m := 8) _ (fun h => mwf_mput h _ _) (by decide)).mono (by rw [← hb, Nat.or_assoc]; rfl)
    unfold State.writeAt
    dsimp only
    have k := State.touch_keeps r ht u a
    generalize u.regTouch r a = w at k ⊢
    split
    · exact Keeps.refl _ _
    · split
      · exact k
      · split
        · exact k.trans (hw _ _ _)
        · split
          · exact k.trans (hp _ _)
          · exact k.trans ((hp _ _).trans (hw _ _ _))
  unfold State.cmdWrite State.writeReg
  split
  · dsimp only
    split
    · exact (ha _ _ _ _).trans (ha _ _ _ _)
    · exact ha _ _ _ _
  · exact (State.stray_bound_keeps _ _).mono (by rw [← hb, Nat.or_assoc]; rfl)

theorem State.write_BK_OWN_keeps (req : Requester) (u : State) (idx : List Nat) (v : Nat) :
    Keeps 16386 u (u.regWrite req .BK_OWN idx v none).2 := by
  unfold State.regWrite State.coreRegWrite State.engineRegWrite State.memRegWrite
  dsimp only
  repeat' first
    | with_reducible exact Keeps.refl _ _
    | with_reducible apply State.bkOwnWrite_keeps
    | with_reducible apply Keeps.ite
    | decide

theorem State.cmdWrite_BK_OWN_keeps {m : Nat} {s t : State} (h : Keeps m s t) (req : Requester) (idx : List Nat) (v : Nat) (hm : m ||| 16386 = m) :
    Keeps m s (t.cmdWrite req .BK_OWN idx v) :=
  State.cmdWrite32_keeps .BK_OWN rfl h req idx v (State.write_BK_OWN_keeps req) (by decide) (by decide) hm

theorem State.write_BK_RET_keeps (req : Requester) (u : State) (idx : List Nat) (v : Nat) :
    Keeps 4294983682 u (u.regWrite req .BK_RET idx v none).2 := by
  unfold State.regWrite State.coreRegWrite State.engineRegWrite State.memRegWrite
  dsimp only
  repeat' first
    | with_reducible exact Keeps.refl _ _
    | with_reducible apply State.bkRetWrite_keeps
    | with_reducible apply Keeps.ite
    | decide

theorem State.cmdWrite_BK_RET_keeps {m : Nat} {s t : State} (h : Keeps m s t) (req : Requester) (idx : List Nat) (v : Nat) (hm : m ||| 4294983682 = m) :
    Keeps m s (t.cmdWrite req .BK_RET idx v) :=
  State.cmdWrite32_keeps .BK_RET rfl h req idx v (State.write_BK_RET_keeps req) (by decide) (by decide) hm

theorem State.write_BU_BIST_CTRL_keeps (req : Requester) (u : State) (idx : List Nat) (v : Nat) :
    Keeps 90211090434 u (u.regWrite req .BU_BIST_CTRL idx v none).2 := by
  unfold State.regWrite State.coreRegWrite State.engineRegWrite State.memRegWrite State.gateRegWrite State.powerRegWrite
  dsimp only
  repeat' first
    | with_reducible exact Keeps.refl _ _
    | with_reducible apply State.bistWrite_keeps
    | with_reducible apply Keeps.ite
    | decide

theorem State.cmdWrite_BU_BIST_CTRL_keeps {m : Nat} {s t : State} (h : Keeps m s t) (req : Requester) (idx : List Nat) (v : Nat) (hm : m ||| 90211090434 = m) :
    Keeps m s (t.cmdWrite req .BU_BIST_CTRL idx v) :=
  State.cmdWrite32_keeps .BU_BIST_CTRL rfl h req idx v (State.write_BU_BIST_CTRL_keeps req) (by decide) (by decide) hm

theorem State.write_BU_RST_keeps (req : Requester) (u : State) (idx : List Nat) (v : Nat) :
    Keeps 17592186044414 u (u.regWrite req .BU_RST idx v none).2 := by
  unfold State.regWrite State.coreRegWrite State.engineRegWrite State.memRegWrite State.gateRegWrite State.powerRegWrite
  dsimp only
  repeat' first
    | with_reducible exact Keeps.refl _ _
    | with_reducible apply State.rstWrite_keeps
    | with_reducible apply Keeps.ite
    | decide

theorem State.cmdWrite_BU_RST_keeps {m : Nat} {s t : State} (h : Keeps m s t) (req : Requester) (idx : List Nat) (v : Nat) (hm : m ||| 17592186044414 = m) :
    Keeps m s (t.cmdWrite req .BU_RST idx v) :=
  State.cmdWrite32_keeps .BU_RST rfl h req idx v (State.write_BU_RST_keeps req) (by decide) (by decide) hm

theorem State.write_CK_CORE_keeps (req : Requester) (u : State) (idx : List Nat) (v : Nat) :
    Keeps 21474836482 u (u.regWrite req .CK_CORE idx v none).2 := by
  unfold State.regWrite State.coreRegWrite State.engineRegWrite State.memRegWrite State.gateRegWrite State.powerRegWrite
  dsimp only
  repeat' first
    | with_reducible exact Keeps.refl _ _
    | with_reducible apply State.ckCoreWrite_keeps
    | with_reducible apply Keeps.ite
    | decide

theorem State.cmdWrite_CK_CORE_keeps {m : Nat} {s t : State} (h : Keeps m s t) (req : Requester) (idx : List Nat) (v : Nat) (hm : m ||| 21474836482 = m) :
    Keeps m s (t.cmdWrite req .CK_CORE idx v) :=
  State.cmdWrite32_keeps .CK_CORE rfl h req idx v (State.write_CK_CORE_keeps req) (by decide) (by decide) hm

theorem State.write_CK_FAB_keeps (req : Requester) (u : State) (idx : List Nat) (v : Nat) :
    Keeps 4362076162 u (u.regWrite req .CK_FAB idx v none).2 := by
  unfold State.regWrite State.coreRegWrite State.engineRegWrite State.memRegWrite State.gateRegWrite State.powerRegWrite
  dsimp only
  repeat' first
    | with_reducible exact Keeps.refl _ _
    | with_reducible apply State.ckFabWrite_keeps
    | with_reducible apply Keeps.ite
    | decide

theorem State.cmdWrite_CK_FAB_keeps {m : Nat} {s t : State} (h : Keeps m s t) (req : Requester) (idx : List Nat) (v : Nat) (hm : m ||| 4362076162 = m) :
    Keeps m s (t.cmdWrite req .CK_FAB idx v) :=
  State.cmdWrite32_keeps .CK_FAB rfl h req idx v (State.write_CK_FAB_keeps req) (by decide) (by decide) hm

theorem State.write_EF_CTRL_keeps (req : Requester) (u : State) (idx : List Nat) (v : Nat) :
    Keeps 33587202 u (u.regWrite req .EF_CTRL idx v none).2 := by
  unfold State.regWrite State.coreRegWrite State.engineRegWrite
  dsimp only
  repeat' first
    | with_reducible exact Keeps.refl _ _
    | with_reducible apply State.freset_keeps
    | with_reducible apply Keeps.ite
    | decide

theorem State.cmdWrite_EF_CTRL_keeps {m : Nat} {s t : State} (h : Keeps m s t) (req : Requester) (idx : List Nat) (v : Nat) (hm : m ||| 33587202 = m) :
    Keeps m s (t.cmdWrite req .EF_CTRL idx v) :=
  State.cmdWrite32_keeps .EF_CTRL rfl h req idx v (State.write_EF_CTRL_keeps req) (by decide) (by decide) hm

theorem State.write_EF_FENCE_keeps (req : Requester) (u : State) (idx : List Nat) (v : Nat) :
    Keeps 4307392274 u (u.regWrite req .EF_FENCE idx v none).2 := by
  unfold State.regWrite State.coreRegWrite State.engineRegWrite
  dsimp only
  repeat' first
    | with_reducible exact Keeps.refl _ _
    | with_reducible apply State.fenceWrite_keeps
    | with_reducible apply Keeps.ite
    | decide

theorem State.cmdWrite_EF_FENCE_keeps {m : Nat} {s t : State} (h : Keeps m s t) (req : Requester) (idx : List Nat) (v : Nat) (hm : m ||| 4307392274 = m) :
    Keeps m s (t.cmdWrite req .EF_FENCE idx v) :=
  State.cmdWrite32_keeps .EF_FENCE rfl h req idx v (State.write_EF_FENCE_keeps req) (by decide) (by decide) hm

theorem State.write_EF_REMAP_keeps (req : Requester) (u : State) (idx : List Nat) (v : Nat) :
    Keeps 8589934594 u (u.regWrite req .EF_REMAP idx v none).2 := by
  unfold State.regWrite State.coreRegWrite State.engineRegWrite
  dsimp only
  repeat' first
    | with_reducible exact Keeps.refl _ _
    | with_reducible apply State.setFld_keeps
    | (with_reducible apply State.unitWrite_keeps <;> try (intros; beta_reduce))
    | with_reducible apply Keeps.ite
    | decide

theorem State.cmdWrite_EF_REMAP_keeps {m : Nat} {s t : State} (h : Keeps m s t) (req : Requester) (idx : List Nat) (v : Nat) (hm : m ||| 8589934594 = m) :
    Keeps m s (t.cmdWrite req .EF_REMAP idx v) :=
  State.cmdWrite32_keeps .EF_REMAP rfl h req idx v (State.write_EF_REMAP_keeps req) (by decide) (by decide) hm

theorem State.write_GP_EVBIND_keeps (req : Requester) (u : State) (idx : List Nat) (v : Nat) :
    Keeps 8589934594 u (u.regWrite req .GP_EVBIND idx v none).2 := by
  unfold State.regWrite State.coreRegWrite State.engineRegWrite State.memRegWrite State.gateRegWrite
  dsimp only
  repeat' first
    | with_reducible exact Keeps.refl _ _
    | with_reducible apply State.bindWrite_keeps
    | with_reducible apply Keeps.ite
    | decide

theorem State.cmdWrite_GP_EVBIND_keeps {m : Nat} {s t : State} (h : Keeps m s t) (req : Requester) (idx : List Nat) (v : Nat) (hm : m ||| 8589934594 = m) :
    Keeps m s (t.cmdWrite req .GP_EVBIND idx v) :=
  State.cmdWrite32_keeps .GP_EVBIND rfl h req idx v (State.write_GP_EVBIND_keeps req) (by decide) (by decide) hm

theorem State.write_GP_EVSRC_keeps (req : Requester) (u : State) (idx : List Nat) (v : Nat) :
    Keeps 8589934594 u (u.regWrite req .GP_EVSRC idx v none).2 := by
  unfold State.regWrite State.coreRegWrite State.engineRegWrite State.memRegWrite State.gateRegWrite
  dsimp only
  repeat' first
    | with_reducible exact Keeps.refl _ _
    | with_reducible apply State.evsrcWrite_keeps
    | with_reducible apply Keeps.ite
    | decide

theorem State.cmdWrite_GP_EVSRC_keeps {m : Nat} {s t : State} (h : Keeps m s t) (req : Requester) (idx : List Nat) (v : Nat) (hm : m ||| 8589934594 = m) :
    Keeps m s (t.cmdWrite req .GP_EVSRC idx v) :=
  State.cmdWrite32_keeps .GP_EVSRC rfl h req idx v (State.write_GP_EVSRC_keeps req) (by decide) (by decide) hm

theorem State.write_GP_HC_CFG_keeps (req : Requester) (u : State) (idx : List Nat) (v : Nat) :
    Keeps 8593932306 u (u.regWrite req .GP_HC_CFG idx v none).2 := by
  unfold State.regWrite State.coreRegWrite State.engineRegWrite State.memRegWrite State.gateRegWrite
  dsimp only
  repeat' first
    | with_reducible exact Keeps.refl _ _
    | with_reducible apply State.tkStop_keeps
    | (with_reducible apply State.unitWrite_keeps <;> try (intros; beta_reduce))
    | with_reducible apply Keeps.ite
    | decide

theorem State.cmdWrite_GP_HC_CFG_keeps {m : Nat} {s t : State} (h : Keeps m s t) (req : Requester) (idx : List Nat) (v : Nat) (hm : m ||| 8593932306 = m) :
    Keeps m s (t.cmdWrite req .GP_HC_CFG idx v) :=
  State.cmdWrite32_keeps .GP_HC_CFG rfl h req idx v (State.write_GP_HC_CFG_keeps req) (by decide) (by decide) hm

theorem State.write_GP_MAP_keeps (req : Requester) (u : State) (idx : List Nat) (v : Nat) :
    Keeps 12888899730 u (u.regWrite req .GP_MAP idx v none).2 := by
  unfold State.regWrite State.coreRegWrite State.engineRegWrite State.memRegWrite State.gateRegWrite
  dsimp only
  repeat' first
    | with_reducible exact Keeps.refl _ _
    | with_reducible apply State.mapWrite_keeps
    | with_reducible apply Keeps.ite
    | decide

theorem State.cmdWrite_GP_MAP_keeps {m : Nat} {s t : State} (h : Keeps m s t) (req : Requester) (idx : List Nat) (v : Nat) (hm : m ||| 12888899730 = m) :
    Keeps m s (t.cmdWrite req .GP_MAP idx v) :=
  State.cmdWrite32_keeps .GP_MAP rfl h req idx v (State.write_GP_MAP_keeps req) (by decide) (by decide) hm

theorem State.write_GP_PART_CFG_keeps (req : Requester) (u : State) (idx : List Nat) (v : Nat) :
    Keeps 15078391698 u (u.regWrite req .GP_PART_CFG idx v none).2 := by
  unfold State.regWrite State.coreRegWrite State.engineRegWrite State.memRegWrite State.gateRegWrite
  dsimp only
  repeat' first
    | with_reducible exact Keeps.refl _ _
    | with_reducible apply State.partCfgWrite_keeps
    | with_reducible apply State.unitReason_keeps
    | with_reducible apply Keeps.ite
    | decide
    | split

theorem State.cmdWrite_GP_PART_CFG_keeps {m : Nat} {s t : State} (h : Keeps m s t) (req : Requester) (idx : List Nat) (v : Nat) (hm : m ||| 15078391698 = m) :
    Keeps m s (t.cmdWrite req .GP_PART_CFG idx v) :=
  State.cmdWrite32_keeps .GP_PART_CFG rfl h req idx v (State.write_GP_PART_CFG_keeps req) (by decide) (by decide) hm

theorem State.write_GP_PCFG_keeps (req : Requester) (u : State) (idx : List Nat) (v : Nat) :
    Keeps 6442450946 u (u.regWrite req .GP_PCFG idx v none).2 := by
  unfold State.regWrite State.coreRegWrite State.engineRegWrite State.memRegWrite State.gateRegWrite
  dsimp only
  repeat' first
    | with_reducible exact Keeps.refl _ _
    | with_reducible apply State.pcfgWrite_keeps
    | with_reducible apply Keeps.ite
    | decide

theorem State.cmdWrite_GP_PCFG_keeps {m : Nat} {s t : State} (h : Keeps m s t) (req : Requester) (idx : List Nat) (v : Nat) (hm : m ||| 6442450946 = m) :
    Keeps m s (t.cmdWrite req .GP_PCFG idx v) :=
  State.cmdWrite32_keeps .GP_PCFG rfl h req idx v (State.write_GP_PCFG_keeps req) (by decide) (by decide) hm

theorem State.write_GP_PCTRL_keeps (req : Requester) (u : State) (idx : List Nat) (v : Nat) :
    Keeps 4294967298 u (u.regWrite req .GP_PCTRL idx v none).2 := by
  unfold State.regWrite State.coreRegWrite State.engineRegWrite State.memRegWrite State.gateRegWrite
  dsimp only
  repeat' first
    | with_reducible exact Keeps.refl _ _
    | with_reducible apply State.gpRetry_keeps
    | with_reducible apply State.unitReason_keeps
    | with_reducible apply Keeps.ite
    | decide
    | split

theorem State.cmdWrite_GP_PCTRL_keeps {m : Nat} {s t : State} (h : Keeps m s t) (req : Requester) (idx : List Nat) (v : Nat) (hm : m ||| 4294967298 = m) :
    Keeps m s (t.cmdWrite req .GP_PCTRL idx v) :=
  State.cmdWrite32_keeps .GP_PCTRL rfl h req idx v (State.write_GP_PCTRL_keeps req) (by decide) (by decide) hm

theorem State.write_KS_CMD_keeps (req : Requester) (u : State) (idx : List Nat) (v : Nat) :
    Keeps 8589934594 u (u.regWrite req .KS_CMD idx v none).2 := by
  unfold State.regWrite State.coreRegWrite
  dsimp only
  repeat' first
    | with_reducible exact Keeps.refl _ _
    | with_reducible apply State.ksCmdWrite_keeps
    | with_reducible apply Keeps.ite
    | decide

theorem State.cmdWrite_KS_CMD_keeps {m : Nat} {s t : State} (h : Keeps m s t) (req : Requester) (idx : List Nat) (v : Nat) (hm : m ||| 8589934594 = m) :
    Keeps m s (t.cmdWrite req .KS_CMD idx v) :=
  State.cmdWrite32_keeps .KS_CMD rfl h req idx v (State.write_KS_CMD_keeps req) (by decide) (by decide) hm

theorem State.write_LR_SET_CFG_keeps (req : Requester) (u : State) (idx : List Nat) (v : Nat) :
    Keeps 8589938818 u (u.regWrite req .LR_SET_CFG idx v none).2 := by
  unfold State.regWrite State.coreRegWrite
  dsimp only
  repeat' first
    | with_reducible exact Keeps.refl _ _
    | with_reducible apply State.lsStop_keeps
    | (with_reducible apply State.unitWrite_keeps <;> try (intros; beta_reduce))
    | with_reducible apply Keeps.ite
    | decide

theorem State.cmdWrite_LR_SET_CFG_keeps {m : Nat} {s t : State} (h : Keeps m s t) (req : Requester) (idx : List Nat) (v : Nat) (hm : m ||| 8589938818 = m) :
    Keeps m s (t.cmdWrite req .LR_SET_CFG idx v) :=
  State.cmdWrite32_keeps .LR_SET_CFG rfl h req idx v (State.write_LR_SET_CFG_keeps req) (by decide) (by decide) hm

theorem State.write_LR_SET_CTRL_keeps (req : Requester) (u : State) (idx : List Nat) (v : Nat) :
    Keeps 8589934594 u (u.regWrite req .LR_SET_CTRL idx v none).2 := by
  unfold State.regWrite State.coreRegWrite
  dsimp only
  repeat' first
    | with_reducible exact Keeps.refl _ _
    | with_reducible apply State.ksCmdWrite_keeps
    | with_reducible apply Keeps.ite
    | decide

theorem State.cmdWrite_LR_SET_CTRL_keeps {m : Nat} {s t : State} (h : Keeps m s t) (req : Requester) (idx : List Nat) (v : Nat) (hm : m ||| 8589934594 = m) :
    Keeps m s (t.cmdWrite req .LR_SET_CTRL idx v) :=
  State.cmdWrite32_keeps .LR_SET_CTRL rfl h req idx v (State.write_LR_SET_CTRL_keeps req) (by decide) (by decide) hm

theorem State.write_LR_SET_WG_keeps (req : Requester) (u : State) (idx : List Nat) (v : Nat) :
    Keeps 8589934722 u (u.regWrite req .LR_SET_WG idx v none).2 := by
  unfold State.regWrite State.coreRegWrite
  dsimp only
  repeat' first
    | with_reducible exact Keeps.refl _ _
    | with_reducible apply State.lrSetWg_keeps
    | with_reducible apply Keeps.ite
    | decide

theorem State.cmdWrite_LR_SET_WG_keeps {m : Nat} {s t : State} (h : Keeps m s t) (req : Requester) (idx : List Nat) (v : Nat) (hm : m ||| 8589934722 = m) :
    Keeps m s (t.cmdWrite req .LR_SET_WG idx v) :=
  State.cmdWrite32_keeps .LR_SET_WG rfl h req idx v (State.write_LR_SET_WG_keeps req) (by decide) (by decide) hm

theorem State.write_MQ_CH_CFG_keeps (req : Requester) (u : State) (idx : List Nat) (v : Nat) :
    Keeps 8593932306 u (u.regWrite req .MQ_CH_CFG idx v none).2 := by
  unfold State.regWrite State.coreRegWrite State.engineRegWrite State.memRegWrite
  dsimp only
  repeat' first
    | with_reducible exact Keeps.refl _ _
    | with_reducible apply State.tkStop_keeps
    | (with_reducible apply State.unitWrite_keeps <;> try (intros; beta_reduce))
    | with_reducible apply Keeps.ite
    | decide

theorem State.cmdWrite_MQ_CH_CFG_keeps {m : Nat} {s t : State} (h : Keeps m s t) (req : Requester) (idx : List Nat) (v : Nat) (hm : m ||| 8593932306 = m) :
    Keeps m s (t.cmdWrite req .MQ_CH_CFG idx v) :=
  State.cmdWrite32_keeps .MQ_CH_CFG rfl h req idx v (State.write_MQ_CH_CFG_keeps req) (by decide) (by decide) hm

theorem State.write_MQ_Q_CFG_keeps (req : Requester) (u : State) (idx : List Nat) (v : Nat) :
    Keeps 8593932306 u (u.regWrite req .MQ_Q_CFG idx v none).2 := by
  unfold State.regWrite State.coreRegWrite State.engineRegWrite State.memRegWrite
  dsimp only
  repeat' first
    | with_reducible exact Keeps.refl _ _
    | with_reducible apply State.tkStop_keeps
    | (with_reducible apply State.unitWrite_keeps <;> try (intros; beta_reduce))
    | with_reducible apply Keeps.ite
    | decide

theorem State.cmdWrite_MQ_Q_CFG_keeps {m : Nat} {s t : State} (h : Keeps m s t) (req : Requester) (idx : List Nat) (v : Nat) (hm : m ||| 8593932306 = m) :
    Keeps m s (t.cmdWrite req .MQ_Q_CFG idx v) :=
  State.cmdWrite32_keeps .MQ_Q_CFG rfl h req idx v (State.write_MQ_Q_CFG_keeps req) (by decide) (by decide) hm

theorem State.write_MQ_SH_CFG_keeps (req : Requester) (u : State) (idx : List Nat) (v : Nat) :
    Keeps 8589934594 u (u.regWrite req .MQ_SH_CFG idx v none).2 := by
  unfold State.regWrite State.coreRegWrite State.engineRegWrite State.memRegWrite
  dsimp only
  repeat' first
    | with_reducible exact Keeps.refl _ _
    | with_reducible apply State.setFld_keeps
    | (with_reducible apply State.unitWrite_keeps <;> try (intros; beta_reduce))
    | with_reducible apply Keeps.ite
    | decide

theorem State.cmdWrite_MQ_SH_CFG_keeps {m : Nat} {s t : State} (h : Keeps m s t) (req : Requester) (idx : List Nat) (v : Nat) (hm : m ||| 8589934594 = m) :
    Keeps m s (t.cmdWrite req .MQ_SH_CFG idx v) :=
  State.cmdWrite32_keeps .MQ_SH_CFG rfl h req idx v (State.write_MQ_SH_CFG_keeps req) (by decide) (by decide) hm

theorem State.write_MX_BIND_keeps (req : Requester) (u : State) (idx : List Nat) (v : Nat) :
    Keeps 8589934594 u (u.regWrite req .MX_BIND idx v none).2 := by
  unfold State.regWrite State.coreRegWrite State.engineRegWrite
  dsimp only
  repeat' first
    | with_reducible exact Keeps.refl _ _
    | with_reducible apply State.bindWrite_keeps
    | with_reducible apply Keeps.ite
    | decide

theorem State.cmdWrite_MX_BIND_keeps {m : Nat} {s t : State} (h : Keeps m s t) (req : Requester) (idx : List Nat) (v : Nat) (hm : m ||| 8589934594 = m) :
    Keeps m s (t.cmdWrite req .MX_BIND idx v) :=
  State.cmdWrite32_keeps .MX_BIND rfl h req idx v (State.write_MX_BIND_keeps req) (by decide) (by decide) hm

theorem State.write_MX_DQ_TAIL_keeps (req : Requester) (u : State) (idx : List Nat) (v : Nat) :
    Keeps 16778242 u (u.regWrite req .MX_DQ_TAIL idx v none).2 := by
  unfold State.regWrite State.coreRegWrite State.engineRegWrite
  dsimp only
  repeat' first
    | with_reducible exact Keeps.refl _ _
    | with_reducible apply State.mxTail'_keeps
    | with_reducible apply Keeps.ite
    | decide

theorem State.cmdWrite_MX_DQ_TAIL_keeps {m : Nat} {s t : State} (h : Keeps m s t) (req : Requester) (idx : List Nat) (v : Nat) (hm : m ||| 16778242 = m) :
    Keeps m s (t.cmdWrite req .MX_DQ_TAIL idx v) :=
  State.cmdWrite32_keeps .MX_DQ_TAIL rfl h req idx v (State.write_MX_DQ_TAIL_keeps req) (by decide) (by decide) hm

theorem State.write_NC_CFG_keeps (req : Requester) (u : State) (idx : List Nat) (v : Nat) :
    Keeps 258 u (u.regWrite req .NC_CFG idx v none).2 := by
  unfold State.regWrite State.coreRegWrite
  dsimp only
  repeat' first
    | with_reducible exact Keeps.refl _ _
    | with_reducible apply State.ncCfgWrite_keeps
    | with_reducible apply Keeps.ite
    | decide

theorem State.cmdWrite_NC_CFG_keeps {m : Nat} {s t : State} (h : Keeps m s t) (req : Requester) (idx : List Nat) (v : Nat) (hm : m ||| 258 = m) :
    Keeps m s (t.cmdWrite req .NC_CFG idx v) :=
  State.cmdWrite32_keeps .NC_CFG rfl h req idx v (State.write_NC_CFG_keeps req) (by decide) (by decide) hm

theorem State.write_PC_RAKE_keeps (req : Requester) (u : State) (idx : List Nat) (v : Nat) :
    Keeps 1103806595074 u (u.regWrite req .PC_RAKE idx v none).2 := by
  unfold State.regWrite State.coreRegWrite State.engineRegWrite State.memRegWrite State.gateRegWrite State.powerRegWrite
  dsimp only
  repeat' first
    | with_reducible exact Keeps.refl _ _
    | with_reducible apply State.rakeWrite_keeps
    | with_reducible apply Keeps.ite
    | decide

theorem State.cmdWrite_PC_RAKE_keeps {m : Nat} {s t : State} (h : Keeps m s t) (req : Requester) (idx : List Nat) (v : Nat) (hm : m ||| 1103806595074 = m) :
    Keeps m s (t.cmdWrite req .PC_RAKE idx v) :=
  State.cmdWrite32_keeps .PC_RAKE rfl h req idx v (State.write_PC_RAKE_keeps req) (by decide) (by decide) hm

theorem State.write_PC_TRCFG_keeps (req : Requester) (u : State) (idx : List Nat) (v : Nat) :
    Keeps 8589934594 u (u.regWrite req .PC_TRCFG idx v none).2 := by
  unfold State.regWrite State.coreRegWrite State.engineRegWrite State.memRegWrite State.gateRegWrite State.powerRegWrite
  dsimp only
  repeat' first
    | with_reducible exact Keeps.refl _ _
    | with_reducible apply State.trcfgWrite_keeps
    | with_reducible apply Keeps.ite
    | decide

theorem State.cmdWrite_PC_TRCFG_keeps {m : Nat} {s t : State} (h : Keeps m s t) (req : Requester) (idx : List Nat) (v : Nat) (hm : m ||| 8589934594 = m) :
    Keeps m s (t.cmdWrite req .PC_TRCFG idx v) :=
  State.cmdWrite32_keeps .PC_TRCFG rfl h req idx v (State.write_PC_TRCFG_keeps req) (by decide) (by decide) hm

theorem State.write_PC_TRRING_keeps (req : Requester) (u : State) (idx : List Nat) (v : Nat) :
    Keeps 8589934594 u (u.regWrite req .PC_TRRING idx v none).2 := by
  unfold State.regWrite State.coreRegWrite State.engineRegWrite State.memRegWrite State.gateRegWrite State.powerRegWrite
  dsimp only
  repeat' first
    | with_reducible exact Keeps.refl _ _
    | with_reducible apply State.setFld_keeps
    | (with_reducible apply State.unitWrite_keeps <;> try (intros; beta_reduce))
    | with_reducible apply Keeps.ite
    | decide

theorem State.cmdWrite_PC_TRRING_keeps {m : Nat} {s t : State} (h : Keeps m s t) (req : Requester) (idx : List Nat) (v : Nat) (hm : m ||| 8589934594 = m) :
    Keeps m s (t.cmdWrite req .PC_TRRING idx v) :=
  State.cmdWrite32_keeps .PC_TRRING rfl h req idx v (State.write_PC_TRRING_keeps req) (by decide) (by decide) hm

theorem State.write_PC_WIN_keeps (req : Requester) (u : State) (idx : List Nat) (v : Nat) :
    Keeps 4294967298 u (u.regWrite req .PC_WIN idx v none).2 := by
  unfold State.regWrite State.coreRegWrite State.engineRegWrite State.memRegWrite State.gateRegWrite State.powerRegWrite
  dsimp only
  repeat' first
    | with_reducible exact Keeps.refl _ _
    | with_reducible apply State.pcWinWrite_keeps
    | with_reducible apply Keeps.ite
    | decide

theorem State.cmdWrite_PC_WIN_keeps {m : Nat} {s t : State} (h : Keeps m s t) (req : Requester) (idx : List Nat) (v : Nat) (hm : m ||| 4294967298 = m) :
    Keeps m s (t.cmdWrite req .PC_WIN idx v) :=
  State.cmdWrite32_keeps .PC_WIN rfl h req idx v (State.write_PC_WIN_keeps req) (by decide) (by decide) hm

theorem State.write_PW_REQ_keeps (req : Requester) (u : State) (idx : List Nat) (v : Nat) :
    Keeps 4324130962 u (u.regWrite req .PW_REQ idx v none).2 := by
  unfold State.regWrite State.coreRegWrite State.engineRegWrite State.memRegWrite State.gateRegWrite State.powerRegWrite
  dsimp only
  repeat' first
    | with_reducible exact Keeps.refl _ _
    | with_reducible apply State.pwReqWrite_keeps
    | with_reducible apply Keeps.ite
    | decide

theorem State.cmdWrite_PW_REQ_keeps {m : Nat} {s t : State} (h : Keeps m s t) (req : Requester) (idx : List Nat) (v : Nat) (hm : m ||| 4324130962 = m) :
    Keeps m s (t.cmdWrite req .PW_REQ idx v) :=
  State.cmdWrite32_keeps .PW_REQ rfl h req idx v (State.write_PW_REQ_keeps req) (by decide) (by decide) hm

theorem State.write_TB_CFG_keeps (req : Requester) (u : State) (idx : List Nat) (v : Nat) :
    Keeps 12884901890 u (u.regWrite req .TB_CFG idx v none).2 := by
  unfold State.regWrite
  dsimp only
  repeat' first
    | with_reducible exact Keeps.refl _ _
    | with_reducible apply State.tbStop_keeps
    | (with_reducible apply State.underPart_keeps <;> try (intros; beta_reduce))
    | (with_reducible apply State.unitWrite_keeps <;> try (intros; beta_reduce))
    | with_reducible apply Keeps.ite
    | decide

theorem State.cmdWrite_TB_CFG_keeps {m : Nat} {s t : State} (h : Keeps m s t) (req : Requester) (idx : List Nat) (v : Nat) (hm : m ||| 12884901890 = m) :
    Keeps m s (t.cmdWrite req .TB_CFG idx v) :=
  State.cmdWrite32_keeps .TB_CFG rfl h req idx v (State.write_TB_CFG_keeps req) (by decide) (by decide) hm

theorem State.write_TB_IN_CFG_keeps (req : Requester) (u : State) (idx : List Nat) (v : Nat) :
    Keeps 35184372088898 u (u.regWrite req .TB_IN_CFG idx v none).2 := by
  unfold State.regWrite
  dsimp only
  repeat' first
    | with_reducible exact Keeps.refl _ _
    | with_reducible apply State.tbInFree_keeps
    | with_reducible apply Keeps.ite
    | decide

theorem State.cmdWrite_TB_IN_CFG_keeps {m : Nat} {s t : State} (h : Keeps m s t) (req : Requester) (idx : List Nat) (v : Nat) (hm : m ||| 35184372088898 = m) :
    Keeps m s (t.cmdWrite req .TB_IN_CFG idx v) :=
  State.cmdWrite32_keeps .TB_IN_CFG rfl h req idx v (State.write_TB_IN_CFG_keeps req) (by decide) (by decide) hm

theorem State.write_TB_TARGET_keeps (req : Requester) (u : State) (idx : List Nat) (v : Nat) :
    Keeps 4294967306 u (u.regWrite req .TB_TARGET idx v none).2 := by
  unfold State.regWrite
  dsimp only
  repeat' first
    | with_reducible exact Keeps.refl _ _
    | with_reducible apply State.tbTargetWrite_keeps
    | (with_reducible apply State.underPart_keeps <;> try (intros; beta_reduce))
    | with_reducible apply Keeps.ite
    | decide

theorem State.cmdWrite_TB_TARGET_keeps {m : Nat} {s t : State} (h : Keeps m s t) (req : Requester) (idx : List Nat) (v : Nat) (hm : m ||| 4294967306 = m) :
    Keeps m s (t.cmdWrite req .TB_TARGET idx v) :=
  State.cmdWrite64_keeps .TB_TARGET h req idx v (State.write_TB_TARGET_keeps req) (by decide) (by decide) hm

theorem State.write_TL_SCFG_keeps (req : Requester) (u : State) (idx : List Nat) (v : Nat) :
    Keeps 12918456322 u (u.regWrite req .TL_SCFG idx v none).2 := by
  unfold State.regWrite State.coreRegWrite State.engineRegWrite
  dsimp only
  repeat' first
    | with_reducible exact Keeps.refl _ _
    | with_reducible apply State.schedWrite_keeps
    | (with_reducible apply State.underPart_keeps <;> try (intros; beta_reduce))
    | with_reducible apply Keeps.ite
    | decide

theorem State.cmdWrite_TL_SCFG_keeps {m : Nat} {s t : State} (h : Keeps m s t) (req : Requester) (idx : List Nat) (v : Nat) (hm : m ||| 12918456322 = m) :
    Keeps m s (t.cmdWrite req .TL_SCFG idx v) :=
  State.cmdWrite32_keeps .TL_SCFG rfl h req idx v (State.write_TL_SCFG_keeps req) (by decide) (by decide) hm

theorem State.write_VX_BIND_keeps (req : Requester) (u : State) (idx : List Nat) (v : Nat) :
    Keeps 8589934594 u (u.regWrite req .VX_BIND idx v none).2 := by
  unfold State.regWrite State.coreRegWrite State.engineRegWrite
  dsimp only
  repeat' first
    | with_reducible exact Keeps.refl _ _
    | with_reducible apply State.bindWrite_keeps
    | with_reducible apply Keeps.ite
    | decide

theorem State.cmdWrite_VX_BIND_keeps {m : Nat} {s t : State} (h : Keeps m s t) (req : Requester) (idx : List Nat) (v : Nat) (hm : m ||| 8589934594 = m) :
    Keeps m s (t.cmdWrite req .VX_BIND idx v) :=
  State.cmdWrite32_keeps .VX_BIND rfl h req idx v (State.write_VX_BIND_keeps req) (by decide) (by decide) hm

theorem State.write_VX_CFG_keeps (req : Requester) (u : State) (idx : List Nat) (v : Nat) :
    Keeps 2050 u (u.regWrite req .VX_CFG idx v none).2 := by
  unfold State.regWrite State.coreRegWrite State.engineRegWrite
  dsimp only
  repeat' first
    | with_reducible exact Keeps.refl _ _
    | with_reducible apply State.vxCfgWrite_keeps
    | with_reducible apply Keeps.ite
    | decide

theorem State.cmdWrite_VX_CFG_keeps {m : Nat} {s t : State} (h : Keeps m s t) (req : Requester) (idx : List Nat) (v : Nat) (hm : m ||| 2050 = m) :
    Keeps m s (t.cmdWrite req .VX_CFG idx v) :=
  State.cmdWrite32_keeps .VX_CFG rfl h req idx v (State.write_VX_CFG_keeps req) (by decide) (by decide) hm

theorem State.write_WG_CFG_keeps (req : Requester) (u : State) (idx : List Nat) (v : Nat) :
    Keeps 12884903042 u (u.regWrite req .WG_CFG idx v none).2 := by
  unfold State.regWrite
  dsimp only
  repeat' first
    | with_reducible exact Keeps.refl _ _
    | (with_reducible apply State.underPart_keeps <;> try (intros; beta_reduce))
    | with_reducible apply State.wgCfgWrite_keeps
    | with_reducible apply Keeps.ite
    | decide

theorem State.cmdWrite_WG_CFG_keeps {m : Nat} {s t : State} (h : Keeps m s t) (req : Requester) (idx : List Nat) (v : Nat) (hm : m ||| 12884903042 = m) :
    Keeps m s (t.cmdWrite req .WG_CFG idx v) :=
  State.cmdWrite32_keeps .WG_CFG rfl h req idx v (State.write_WG_CFG_keeps req) (by decide) (by decide) hm

theorem State.write_WG_CTRL_keeps (req : Requester) (u : State) (idx : List Nat) (v : Nat) :
    Keeps 4294967426 u (u.regWrite req .WG_CTRL idx v none).2 := by
  unfold State.regWrite
  dsimp only
  repeat' first
    | with_reducible exact Keeps.refl _ _
    | (with_reducible apply State.underPart_keeps <;> try (intros; beta_reduce))
    | with_reducible apply State.wgCtrlWrite_keeps
    | with_reducible apply Keeps.ite
    | decide

theorem State.cmdWrite_WG_CTRL_keeps {m : Nat} {s t : State} (h : Keeps m s t) (req : Requester) (idx : List Nat) (v : Nat) (hm : m ||| 4294967426 = m) :
    Keeps m s (t.cmdWrite req .WG_CTRL idx v) :=
  State.cmdWrite32_keeps .WG_CTRL rfl h req idx v (State.write_WG_CTRL_keeps req) (by decide) (by decide) hm

theorem State.write_WG_INSEQ_keeps (req : Requester) (u : State) (idx : List Nat) (v : Nat) :
    Keeps 4294967306 u (u.regWrite req .WG_INSEQ idx v none).2 := by
  unfold State.regWrite
  dsimp only
  repeat' first
    | with_reducible exact Keeps.refl _ _
    | with_reducible apply State.store_keeps
    | (with_reducible apply State.underPart_keeps <;> try (intros; beta_reduce))
    | with_reducible apply Keeps.ite
    | decide

theorem State.cmdWrite_WG_INSEQ_keeps {m : Nat} {s t : State} (h : Keeps m s t) (req : Requester) (idx : List Nat) (v : Nat) (hm : m ||| 4294967306 = m) :
    Keeps m s (t.cmdWrite req .WG_INSEQ idx v) :=
  State.cmdWrite64_keeps .WG_INSEQ h req idx v (State.write_WG_INSEQ_keeps req) (by decide) (by decide) hm

end Sys2Proof.Machine
end

