-- ==== Sys2Proof/Laws/State.lean ====
section
/-! SUPPORT. What each elementary update does to each field of the state, true by rfl: the field it changes, and every other field, which
it leaves. -/

namespace Sys2Proof.Machine

variable (s : State)

@[simp] theorem State.modTb_pending (n : Nat) (f : Tb → Tb) : (s.modTb n f).pending = s.pending := rfl
@[simp] theorem State.modTb_regs (n : Nat) (f : Tb → Tb) : (s.modTb n f).regs = s.regs := rfl
@[simp] theorem State.modTb_latches (n : Nat) (f : Tb → Tb) : (s.modTb n f).latches = s.latches := rfl
@[simp] theorem State.modTb_helds (n : Nat) (f : Tb → Tb) : (s.modTb n f).helds = s.helds := rfl
@[simp] theorem State.modTb_mem (n : Nat) (f : Tb → Tb) : (s.modTb n f).mem = s.mem := rfl
@[simp] theorem State.modTb_tb (n : Nat) (f : Tb → Tb) : (s.modTb n f).tb = mmod s.tb n f := rfl
@[simp] theorem State.modTb_tbi (n : Nat) (f : Tb → Tb) : (s.modTb n f).tbi = s.tbi := rfl
@[simp] theorem State.modTb_wg (n : Nat) (f : Tb → Tb) : (s.modTb n f).wg = s.wg := rfl
@[simp] theorem State.modTb_nc (n : Nat) (f : Tb → Tb) : (s.modTb n f).nc = s.nc := rfl
@[simp] theorem State.modTb_eng (n : Nat) (f : Tb → Tb) : (s.modTb n f).eng = s.eng := rfl
@[simp] theorem State.modTb_mx (n : Nat) (f : Tb → Tb) : (s.modTb n f).mx = s.mx := rfl
@[simp] theorem State.modTb_vx (n : Nat) (f : Tb → Tb) : (s.modTb n f).vx = s.vx := rfl
@[simp] theorem State.modTb_ls (n : Nat) (f : Tb → Tb) : (s.modTb n f).ls = s.ls := rfl
@[simp] theorem State.modTb_ks (n : Nat) (f : Tb → Tb) : (s.modTb n f).ks = s.ks := rfl
@[simp] theorem State.modTb_bk (n : Nat) (f : Tb → Tb) : (s.modTb n f).bk = s.bk := rfl
@[simp] theorem State.modTb_rt (n : Nat) (f : Tb → Tb) : (s.modTb n f).rt = s.rt := rfl
@[simp] theorem State.modTb_sdir (n : Nat) (f : Tb → Tb) : (s.modTb n f).sdir = s.sdir := rfl
@[simp] theorem State.modTb_lane (n : Nat) (f : Tb → Tb) : (s.modTb n f).lane = s.lane := rfl
@[simp] theorem State.modTb_xfer (n : Nat) (f : Tb → Tb) : (s.modTb n f).xfer = s.xfer := rfl
@[simp] theorem State.modTb_chan (n : Nat) (f : Tb → Tb) : (s.modTb n f).chan = s.chan := rfl
@[simp] theorem State.modTb_comp (n : Nat) (f : Tb → Tb) : (s.modTb n f).comp = s.comp := rfl
@[simp] theorem State.modTb_edges (n : Nat) (f : Tb → Tb) : (s.modTb n f).edges = s.edges := rfl
@[simp] theorem State.modTb_oldEdges (n : Nat) (f : Tb → Tb) : (s.modTb n f).oldEdges = s.oldEdges := rfl
@[simp] theorem State.modTb_arb (n : Nat) (f : Tb → Tb) : (s.modTb n f).arb = s.arb := rfl
@[simp] theorem State.modTb_dom (n : Nat) (f : Tb → Tb) : (s.modTb n f).dom = s.dom := rfl
@[simp] theorem State.modTb_sch (n : Nat) (f : Tb → Tb) : (s.modTb n f).sch = s.sch := rfl
@[simp] theorem State.modTb_half (n : Nat) (f : Tb → Tb) : (s.modTb n f).half = s.half := rfl
@[simp] theorem State.modTb_slotA (n : Nat) (f : Tb → Tb) : (s.modTb n f).slotA = s.slotA := rfl
@[simp] theorem State.modTb_slotB (n : Nat) (f : Tb → Tb) : (s.modTb n f).slotB = s.slotB := rfl
@[simp] theorem State.modTb_smapA (n : Nat) (f : Tb → Tb) : (s.modTb n f).smapA = s.smapA := rfl
@[simp] theorem State.modTb_smapB (n : Nat) (f : Tb → Tb) : (s.modTb n f).smapB = s.smapB := rfl
@[simp] theorem State.modTb_staging (n : Nat) (f : Tb → Tb) : (s.modTb n f).staging = s.staging := rfl
@[simp] theorem State.modTb_gp (n : Nat) (f : Tb → Tb) : (s.modTb n f).gp = s.gp := rfl
@[simp] theorem State.modTb_checks (n : Nat) (f : Tb → Tb) : (s.modTb n f).checks = s.checks := rfl
@[simp] theorem State.modTb_clk (n : Nat) (f : Tb → Tb) : (s.modTb n f).clk = s.clk := rfl
@[simp] theorem State.modTb_pw (n : Nat) (f : Tb → Tb) : (s.modTb n f).pw = s.pw := rfl
@[simp] theorem State.modTb_bist (n : Nat) (f : Tb → Tb) : (s.modTb n f).bist = s.bist := rfl
@[simp] theorem State.modTb_rsts (n : Nat) (f : Tb → Tb) : (s.modTb n f).rsts = s.rsts := rfl
@[simp] theorem State.modTb_boot (n : Nat) (f : Tb → Tb) : (s.modTb n f).boot = s.boot := rfl
@[simp] theorem State.modTb_sec (n : Nat) (f : Tb → Tb) : (s.modTb n f).sec = s.sec := rfl
@[simp] theorem State.modTb_pcs (n : Nat) (f : Tb → Tb) : (s.modTb n f).pcs = s.pcs := rfl
@[simp] theorem State.modTb_cn (n : Nat) (f : Tb → Tb) : (s.modTb n f).cn = s.cn := rfl
@[simp] theorem State.modTb_bc (n : Nat) (f : Tb → Tb) : (s.modTb n f).bc = s.bc := rfl
@[simp] theorem State.modTb_rdata (n : Nat) (f : Tb → Tb) : (s.modTb n f).rdata = s.rdata := rfl
@[simp] theorem State.modTb_flash (n : Nat) (f : Tb → Tb) : (s.modTb n f).flash = s.flash := rfl
@[simp] theorem State.modTb_fresh (n : Nat) (f : Tb → Tb) : (s.modTb n f).fresh = s.fresh := rfl

@[simp] theorem State.modWg_pending (g : Nat) (f : Wg → Wg) : (s.modWg g f).pending = s.pending := rfl
@[simp] theorem State.modWg_regs (g : Nat) (f : Wg → Wg) : (s.modWg g f).regs = s.regs := rfl
@[simp] theorem State.modWg_latches (g : Nat) (f : Wg → Wg) : (s.modWg g f).latches = s.latches := rfl
@[simp] theorem State.modWg_helds (g : Nat) (f : Wg → Wg) : (s.modWg g f).helds = s.helds := rfl
@[simp] theorem State.modWg_mem (g : Nat) (f : Wg → Wg) : (s.modWg g f).mem = s.mem := rfl
@[simp] theorem State.modWg_tb (g : Nat) (f : Wg → Wg) : (s.modWg g f).tb = s.tb := rfl
@[simp] theorem State.modWg_tbi (g : Nat) (f : Wg → Wg) : (s.modWg g f).tbi = s.tbi := rfl
@[simp] theorem State.modWg_wg (g : Nat) (f : Wg → Wg) : (s.modWg g f).wg = mmod s.wg g f := rfl
@[simp] theorem State.modWg_nc (g : Nat) (f : Wg → Wg) : (s.modWg g f).nc = s.nc := rfl
@[simp] theorem State.modWg_eng (g : Nat) (f : Wg → Wg) : (s.modWg g f).eng = s.eng := rfl
@[simp] theorem State.modWg_mx (g : Nat) (f : Wg → Wg) : (s.modWg g f).mx = s.mx := rfl
@[simp] theorem State.modWg_vx (g : Nat) (f : Wg → Wg) : (s.modWg g f).vx = s.vx := rfl
@[simp] theorem State.modWg_ls (g : Nat) (f : Wg → Wg) : (s.modWg g f).ls = s.ls := rfl
@[simp] theorem State.modWg_ks (g : Nat) (f : Wg → Wg) : (s.modWg g f).ks = s.ks := rfl
@[simp] theorem State.modWg_bk (g : Nat) (f : Wg → Wg) : (s.modWg g f).bk = s.bk := rfl
@[simp] theorem State.modWg_rt (g : Nat) (f : Wg → Wg) : (s.modWg g f).rt = s.rt := rfl
@[simp] theorem State.modWg_sdir (g : Nat) (f : Wg → Wg) : (s.modWg g f).sdir = s.sdir := rfl
@[simp] theorem State.modWg_lane (g : Nat) (f : Wg → Wg) : (s.modWg g f).lane = s.lane := rfl
@[simp] theorem State.modWg_xfer (g : Nat) (f : Wg → Wg) : (s.modWg g f).xfer = s.xfer := rfl
@[simp] theorem State.modWg_chan (g : Nat) (f : Wg → Wg) : (s.modWg g f).chan = s.chan := rfl
@[simp] theorem State.modWg_comp (g : Nat) (f : Wg → Wg) : (s.modWg g f).comp = s.comp := rfl
@[simp] theorem State.modWg_edges (g : Nat) (f : Wg → Wg) : (s.modWg g f).edges = s.edges := rfl
@[simp] theorem State.modWg_oldEdges (g : Nat) (f : Wg → Wg) : (s.modWg g f).oldEdges = s.oldEdges := rfl
@[simp] theorem State.modWg_arb (g : Nat) (f : Wg → Wg) : (s.modWg g f).arb = s.arb := rfl
@[simp] theorem State.modWg_dom (g : Nat) (f : Wg → Wg) : (s.modWg g f).dom = s.dom := rfl
@[simp] theorem State.modWg_sch (g : Nat) (f : Wg → Wg) : (s.modWg g f).sch = s.sch := rfl
@[simp] theorem State.modWg_half (g : Nat) (f : Wg → Wg) : (s.modWg g f).half = s.half := rfl
@[simp] theorem State.modWg_slotA (g : Nat) (f : Wg → Wg) : (s.modWg g f).slotA = s.slotA := rfl
@[simp] theorem State.modWg_slotB (g : Nat) (f : Wg → Wg) : (s.modWg g f).slotB = s.slotB := rfl
@[simp] theorem State.modWg_smapA (g : Nat) (f : Wg → Wg) : (s.modWg g f).smapA = s.smapA := rfl
@[simp] theorem State.modWg_smapB (g : Nat) (f : Wg → Wg) : (s.modWg g f).smapB = s.smapB := rfl
@[simp] theorem State.modWg_staging (g : Nat) (f : Wg → Wg) : (s.modWg g f).staging = s.staging := rfl
@[simp] theorem State.modWg_gp (g : Nat) (f : Wg → Wg) : (s.modWg g f).gp = s.gp := rfl
@[simp] theorem State.modWg_checks (g : Nat) (f : Wg → Wg) : (s.modWg g f).checks = s.checks := rfl
@[simp] theorem State.modWg_clk (g : Nat) (f : Wg → Wg) : (s.modWg g f).clk = s.clk := rfl
@[simp] theorem State.modWg_pw (g : Nat) (f : Wg → Wg) : (s.modWg g f).pw = s.pw := rfl
@[simp] theorem State.modWg_bist (g : Nat) (f : Wg → Wg) : (s.modWg g f).bist = s.bist := rfl
@[simp] theorem State.modWg_rsts (g : Nat) (f : Wg → Wg) : (s.modWg g f).rsts = s.rsts := rfl
@[simp] theorem State.modWg_boot (g : Nat) (f : Wg → Wg) : (s.modWg g f).boot = s.boot := rfl
@[simp] theorem State.modWg_sec (g : Nat) (f : Wg → Wg) : (s.modWg g f).sec = s.sec := rfl
@[simp] theorem State.modWg_pcs (g : Nat) (f : Wg → Wg) : (s.modWg g f).pcs = s.pcs := rfl
@[simp] theorem State.modWg_cn (g : Nat) (f : Wg → Wg) : (s.modWg g f).cn = s.cn := rfl
@[simp] theorem State.modWg_bc (g : Nat) (f : Wg → Wg) : (s.modWg g f).bc = s.bc := rfl
@[simp] theorem State.modWg_rdata (g : Nat) (f : Wg → Wg) : (s.modWg g f).rdata = s.rdata := rfl
@[simp] theorem State.modWg_flash (g : Nat) (f : Wg → Wg) : (s.modWg g f).flash = s.flash := rfl
@[simp] theorem State.modWg_fresh (g : Nat) (f : Wg → Wg) : (s.modWg g f).fresh = s.fresh := rfl

@[simp] theorem State.modNc_pending (c n : Nat) (f : Nc → Nc) : (s.modNc c n f).pending = s.pending := rfl
@[simp] theorem State.modNc_regs (c n : Nat) (f : Nc → Nc) : (s.modNc c n f).regs = s.regs := rfl
@[simp] theorem State.modNc_latches (c n : Nat) (f : Nc → Nc) : (s.modNc c n f).latches = s.latches := rfl
@[simp] theorem State.modNc_helds (c n : Nat) (f : Nc → Nc) : (s.modNc c n f).helds = s.helds := rfl
@[simp] theorem State.modNc_mem (c n : Nat) (f : Nc → Nc) : (s.modNc c n f).mem = s.mem := rfl
@[simp] theorem State.modNc_tb (c n : Nat) (f : Nc → Nc) : (s.modNc c n f).tb = s.tb := rfl
@[simp] theorem State.modNc_tbi (c n : Nat) (f : Nc → Nc) : (s.modNc c n f).tbi = s.tbi := rfl
@[simp] theorem State.modNc_wg (c n : Nat) (f : Nc → Nc) : (s.modNc c n f).wg = s.wg := rfl
@[simp] theorem State.modNc_nc (c n : Nat) (f : Nc → Nc) : (s.modNc c n f).nc = mmod s.nc (ncKey c n) f := rfl
@[simp] theorem State.modNc_eng (c n : Nat) (f : Nc → Nc) : (s.modNc c n f).eng = s.eng := rfl
@[simp] theorem State.modNc_mx (c n : Nat) (f : Nc → Nc) : (s.modNc c n f).mx = s.mx := rfl
@[simp] theorem State.modNc_vx (c n : Nat) (f : Nc → Nc) : (s.modNc c n f).vx = s.vx := rfl
@[simp] theorem State.modNc_ls (c n : Nat) (f : Nc → Nc) : (s.modNc c n f).ls = s.ls := rfl
@[simp] theorem State.modNc_ks (c n : Nat) (f : Nc → Nc) : (s.modNc c n f).ks = s.ks := rfl
@[simp] theorem State.modNc_bk (c n : Nat) (f : Nc → Nc) : (s.modNc c n f).bk = s.bk := rfl
@[simp] theorem State.modNc_rt (c n : Nat) (f : Nc → Nc) : (s.modNc c n f).rt = s.rt := rfl
@[simp] theorem State.modNc_sdir (c n : Nat) (f : Nc → Nc) : (s.modNc c n f).sdir = s.sdir := rfl
@[simp] theorem State.modNc_lane (c n : Nat) (f : Nc → Nc) : (s.modNc c n f).lane = s.lane := rfl
@[simp] theorem State.modNc_xfer (c n : Nat) (f : Nc → Nc) : (s.modNc c n f).xfer = s.xfer := rfl
@[simp] theorem State.modNc_chan (c n : Nat) (f : Nc → Nc) : (s.modNc c n f).chan = s.chan := rfl
@[simp] theorem State.modNc_comp (c n : Nat) (f : Nc → Nc) : (s.modNc c n f).comp = s.comp := rfl
@[simp] theorem State.modNc_edges (c n : Nat) (f : Nc → Nc) : (s.modNc c n f).edges = s.edges := rfl
@[simp] theorem State.modNc_oldEdges (c n : Nat) (f : Nc → Nc) : (s.modNc c n f).oldEdges = s.oldEdges := rfl
@[simp] theorem State.modNc_arb (c n : Nat) (f : Nc → Nc) : (s.modNc c n f).arb = s.arb := rfl
@[simp] theorem State.modNc_dom (c n : Nat) (f : Nc → Nc) : (s.modNc c n f).dom = s.dom := rfl
@[simp] theorem State.modNc_sch (c n : Nat) (f : Nc → Nc) : (s.modNc c n f).sch = s.sch := rfl
@[simp] theorem State.modNc_half (c n : Nat) (f : Nc → Nc) : (s.modNc c n f).half = s.half := rfl
@[simp] theorem State.modNc_slotA (c n : Nat) (f : Nc → Nc) : (s.modNc c n f).slotA = s.slotA := rfl
@[simp] theorem State.modNc_slotB (c n : Nat) (f : Nc → Nc) : (s.modNc c n f).slotB = s.slotB := rfl
@[simp] theorem State.modNc_smapA (c n : Nat) (f : Nc → Nc) : (s.modNc c n f).smapA = s.smapA := rfl
@[simp] theorem State.modNc_smapB (c n : Nat) (f : Nc → Nc) : (s.modNc c n f).smapB = s.smapB := rfl
@[simp] theorem State.modNc_staging (c n : Nat) (f : Nc → Nc) : (s.modNc c n f).staging = s.staging := rfl
@[simp] theorem State.modNc_gp (c n : Nat) (f : Nc → Nc) : (s.modNc c n f).gp = s.gp := rfl
@[simp] theorem State.modNc_checks (c n : Nat) (f : Nc → Nc) : (s.modNc c n f).checks = s.checks := rfl
@[simp] theorem State.modNc_clk (c n : Nat) (f : Nc → Nc) : (s.modNc c n f).clk = s.clk := rfl
@[simp] theorem State.modNc_pw (c n : Nat) (f : Nc → Nc) : (s.modNc c n f).pw = s.pw := rfl
@[simp] theorem State.modNc_bist (c n : Nat) (f : Nc → Nc) : (s.modNc c n f).bist = s.bist := rfl
@[simp] theorem State.modNc_rsts (c n : Nat) (f : Nc → Nc) : (s.modNc c n f).rsts = s.rsts := rfl
@[simp] theorem State.modNc_boot (c n : Nat) (f : Nc → Nc) : (s.modNc c n f).boot = s.boot := rfl
@[simp] theorem State.modNc_sec (c n : Nat) (f : Nc → Nc) : (s.modNc c n f).sec = s.sec := rfl
@[simp] theorem State.modNc_pcs (c n : Nat) (f : Nc → Nc) : (s.modNc c n f).pcs = s.pcs := rfl
@[simp] theorem State.modNc_cn (c n : Nat) (f : Nc → Nc) : (s.modNc c n f).cn = s.cn := rfl
@[simp] theorem State.modNc_bc (c n : Nat) (f : Nc → Nc) : (s.modNc c n f).bc = s.bc := rfl
@[simp] theorem State.modNc_rdata (c n : Nat) (f : Nc → Nc) : (s.modNc c n f).rdata = s.rdata := rfl
@[simp] theorem State.modNc_flash (c n : Nat) (f : Nc → Nc) : (s.modNc c n f).flash = s.flash := rfl
@[simp] theorem State.modNc_fresh (c n : Nat) (f : Nc → Nc) : (s.modNc c n f).fresh = s.fresh := rfl

@[simp] theorem State.modEng_pending (c e : Nat) (f : Eng → Eng) : (s.modEng c e f).pending = s.pending := rfl
@[simp] theorem State.modEng_regs (c e : Nat) (f : Eng → Eng) : (s.modEng c e f).regs = s.regs := rfl
@[simp] theorem State.modEng_latches (c e : Nat) (f : Eng → Eng) : (s.modEng c e f).latches = s.latches := rfl
@[simp] theorem State.modEng_helds (c e : Nat) (f : Eng → Eng) : (s.modEng c e f).helds = s.helds := rfl
@[simp] theorem State.modEng_mem (c e : Nat) (f : Eng → Eng) : (s.modEng c e f).mem = s.mem := rfl
@[simp] theorem State.modEng_tb (c e : Nat) (f : Eng → Eng) : (s.modEng c e f).tb = s.tb := rfl
@[simp] theorem State.modEng_tbi (c e : Nat) (f : Eng → Eng) : (s.modEng c e f).tbi = s.tbi := rfl
@[simp] theorem State.modEng_wg (c e : Nat) (f : Eng → Eng) : (s.modEng c e f).wg = s.wg := rfl
@[simp] theorem State.modEng_nc (c e : Nat) (f : Eng → Eng) : (s.modEng c e f).nc = s.nc := rfl
@[simp] theorem State.modEng_eng (c e : Nat) (f : Eng → Eng) : (s.modEng c e f).eng = mmod s.eng (engKey c e) f := rfl
@[simp] theorem State.modEng_mx (c e : Nat) (f : Eng → Eng) : (s.modEng c e f).mx = s.mx := rfl
@[simp] theorem State.modEng_vx (c e : Nat) (f : Eng → Eng) : (s.modEng c e f).vx = s.vx := rfl
@[simp] theorem State.modEng_ls (c e : Nat) (f : Eng → Eng) : (s.modEng c e f).ls = s.ls := rfl
@[simp] theorem State.modEng_ks (c e : Nat) (f : Eng → Eng) : (s.modEng c e f).ks = s.ks := rfl
@[simp] theorem State.modEng_bk (c e : Nat) (f : Eng → Eng) : (s.modEng c e f).bk = s.bk := rfl
@[simp] theorem State.modEng_rt (c e : Nat) (f : Eng → Eng) : (s.modEng c e f).rt = s.rt := rfl
@[simp] theorem State.modEng_sdir (c e : Nat) (f : Eng → Eng) : (s.modEng c e f).sdir = s.sdir := rfl
@[simp] theorem State.modEng_lane (c e : Nat) (f : Eng → Eng) : (s.modEng c e f).lane = s.lane := rfl
@[simp] theorem State.modEng_xfer (c e : Nat) (f : Eng → Eng) : (s.modEng c e f).xfer = s.xfer := rfl
@[simp] theorem State.modEng_chan (c e : Nat) (f : Eng → Eng) : (s.modEng c e f).chan = s.chan := rfl
@[simp] theorem State.modEng_comp (c e : Nat) (f : Eng → Eng) : (s.modEng c e f).comp = s.comp := rfl
@[simp] theorem State.modEng_edges (c e : Nat) (f : Eng → Eng) : (s.modEng c e f).edges = s.edges := rfl
@[simp] theorem State.modEng_oldEdges (c e : Nat) (f : Eng → Eng) : (s.modEng c e f).oldEdges = s.oldEdges := rfl
@[simp] theorem State.modEng_arb (c e : Nat) (f : Eng → Eng) : (s.modEng c e f).arb = s.arb := rfl
@[simp] theorem State.modEng_dom (c e : Nat) (f : Eng → Eng) : (s.modEng c e f).dom = s.dom := rfl
@[simp] theorem State.modEng_sch (c e : Nat) (f : Eng → Eng) : (s.modEng c e f).sch = s.sch := rfl
@[simp] theorem State.modEng_half (c e : Nat) (f : Eng → Eng) : (s.modEng c e f).half = s.half := rfl
@[simp] theorem State.modEng_slotA (c e : Nat) (f : Eng → Eng) : (s.modEng c e f).slotA = s.slotA := rfl
@[simp] theorem State.modEng_slotB (c e : Nat) (f : Eng → Eng) : (s.modEng c e f).slotB = s.slotB := rfl
@[simp] theorem State.modEng_smapA (c e : Nat) (f : Eng → Eng) : (s.modEng c e f).smapA = s.smapA := rfl
@[simp] theorem State.modEng_smapB (c e : Nat) (f : Eng → Eng) : (s.modEng c e f).smapB = s.smapB := rfl
@[simp] theorem State.modEng_staging (c e : Nat) (f : Eng → Eng) : (s.modEng c e f).staging = s.staging := rfl
@[simp] theorem State.modEng_gp (c e : Nat) (f : Eng → Eng) : (s.modEng c e f).gp = s.gp := rfl
@[simp] theorem State.modEng_checks (c e : Nat) (f : Eng → Eng) : (s.modEng c e f).checks = s.checks := rfl
@[simp] theorem State.modEng_clk (c e : Nat) (f : Eng → Eng) : (s.modEng c e f).clk = s.clk := rfl
@[simp] theorem State.modEng_pw (c e : Nat) (f : Eng → Eng) : (s.modEng c e f).pw = s.pw := rfl
@[simp] theorem State.modEng_bist (c e : Nat) (f : Eng → Eng) : (s.modEng c e f).bist = s.bist := rfl
@[simp] theorem State.modEng_rsts (c e : Nat) (f : Eng → Eng) : (s.modEng c e f).rsts = s.rsts := rfl
@[simp] theorem State.modEng_boot (c e : Nat) (f : Eng → Eng) : (s.modEng c e f).boot = s.boot := rfl
@[simp] theorem State.modEng_sec (c e : Nat) (f : Eng → Eng) : (s.modEng c e f).sec = s.sec := rfl
@[simp] theorem State.modEng_pcs (c e : Nat) (f : Eng → Eng) : (s.modEng c e f).pcs = s.pcs := rfl
@[simp] theorem State.modEng_cn (c e : Nat) (f : Eng → Eng) : (s.modEng c e f).cn = s.cn := rfl
@[simp] theorem State.modEng_bc (c e : Nat) (f : Eng → Eng) : (s.modEng c e f).bc = s.bc := rfl
@[simp] theorem State.modEng_rdata (c e : Nat) (f : Eng → Eng) : (s.modEng c e f).rdata = s.rdata := rfl
@[simp] theorem State.modEng_flash (c e : Nat) (f : Eng → Eng) : (s.modEng c e f).flash = s.flash := rfl
@[simp] theorem State.modEng_fresh (c e : Nat) (f : Eng → Eng) : (s.modEng c e f).fresh = s.fresh := rfl

@[simp] theorem State.modLs_pending (k : Nat) (f : Ls → Ls) : (s.modLs k f).pending = s.pending := rfl
@[simp] theorem State.modLs_regs (k : Nat) (f : Ls → Ls) : (s.modLs k f).regs = s.regs := rfl
@[simp] theorem State.modLs_latches (k : Nat) (f : Ls → Ls) : (s.modLs k f).latches = s.latches := rfl
@[simp] theorem State.modLs_helds (k : Nat) (f : Ls → Ls) : (s.modLs k f).helds = s.helds := rfl
@[simp] theorem State.modLs_mem (k : Nat) (f : Ls → Ls) : (s.modLs k f).mem = s.mem := rfl
@[simp] theorem State.modLs_tb (k : Nat) (f : Ls → Ls) : (s.modLs k f).tb = s.tb := rfl
@[simp] theorem State.modLs_tbi (k : Nat) (f : Ls → Ls) : (s.modLs k f).tbi = s.tbi := rfl
@[simp] theorem State.modLs_wg (k : Nat) (f : Ls → Ls) : (s.modLs k f).wg = s.wg := rfl
@[simp] theorem State.modLs_nc (k : Nat) (f : Ls → Ls) : (s.modLs k f).nc = s.nc := rfl
@[simp] theorem State.modLs_eng (k : Nat) (f : Ls → Ls) : (s.modLs k f).eng = s.eng := rfl
@[simp] theorem State.modLs_mx (k : Nat) (f : Ls → Ls) : (s.modLs k f).mx = s.mx := rfl
@[simp] theorem State.modLs_vx (k : Nat) (f : Ls → Ls) : (s.modLs k f).vx = s.vx := rfl
@[simp] theorem State.modLs_ls (k : Nat) (f : Ls → Ls) : (s.modLs k f).ls = mmod s.ls k f := rfl
@[simp] theorem State.modLs_ks (k : Nat) (f : Ls → Ls) : (s.modLs k f).ks = s.ks := rfl
@[simp] theorem State.modLs_bk (k : Nat) (f : Ls → Ls) : (s.modLs k f).bk = s.bk := rfl
@[simp] theorem State.modLs_rt (k : Nat) (f : Ls → Ls) : (s.modLs k f).rt = s.rt := rfl
@[simp] theorem State.modLs_sdir (k : Nat) (f : Ls → Ls) : (s.modLs k f).sdir = s.sdir := rfl
@[simp] theorem State.modLs_lane (k : Nat) (f : Ls → Ls) : (s.modLs k f).lane = s.lane := rfl
@[simp] theorem State.modLs_xfer (k : Nat) (f : Ls → Ls) : (s.modLs k f).xfer = s.xfer := rfl
@[simp] theorem State.modLs_chan (k : Nat) (f : Ls → Ls) : (s.modLs k f).chan = s.chan := rfl
@[simp] theorem State.modLs_comp (k : Nat) (f : Ls → Ls) : (s.modLs k f).comp = s.comp := rfl
@[simp] theorem State.modLs_edges (k : Nat) (f : Ls → Ls) : (s.modLs k f).edges = s.edges := rfl
@[simp] theorem State.modLs_oldEdges (k : Nat) (f : Ls → Ls) : (s.modLs k f).oldEdges = s.oldEdges := rfl
@[simp] theorem State.modLs_arb (k : Nat) (f : Ls → Ls) : (s.modLs k f).arb = s.arb := rfl
@[simp] theorem State.modLs_dom (k : Nat) (f : Ls → Ls) : (s.modLs k f).dom = s.dom := rfl
@[simp] theorem State.modLs_sch (k : Nat) (f : Ls → Ls) : (s.modLs k f).sch = s.sch := rfl
@[simp] theorem State.modLs_half (k : Nat) (f : Ls → Ls) : (s.modLs k f).half = s.half := rfl
@[simp] theorem State.modLs_slotA (k : Nat) (f : Ls → Ls) : (s.modLs k f).slotA = s.slotA := rfl
@[simp] theorem State.modLs_slotB (k : Nat) (f : Ls → Ls) : (s.modLs k f).slotB = s.slotB := rfl
@[simp] theorem State.modLs_smapA (k : Nat) (f : Ls → Ls) : (s.modLs k f).smapA = s.smapA := rfl
@[simp] theorem State.modLs_smapB (k : Nat) (f : Ls → Ls) : (s.modLs k f).smapB = s.smapB := rfl
@[simp] theorem State.modLs_staging (k : Nat) (f : Ls → Ls) : (s.modLs k f).staging = s.staging := rfl
@[simp] theorem State.modLs_gp (k : Nat) (f : Ls → Ls) : (s.modLs k f).gp = s.gp := rfl
@[simp] theorem State.modLs_checks (k : Nat) (f : Ls → Ls) : (s.modLs k f).checks = s.checks := rfl
@[simp] theorem State.modLs_clk (k : Nat) (f : Ls → Ls) : (s.modLs k f).clk = s.clk := rfl
@[simp] theorem State.modLs_pw (k : Nat) (f : Ls → Ls) : (s.modLs k f).pw = s.pw := rfl
@[simp] theorem State.modLs_bist (k : Nat) (f : Ls → Ls) : (s.modLs k f).bist = s.bist := rfl
@[simp] theorem State.modLs_rsts (k : Nat) (f : Ls → Ls) : (s.modLs k f).rsts = s.rsts := rfl
@[simp] theorem State.modLs_boot (k : Nat) (f : Ls → Ls) : (s.modLs k f).boot = s.boot := rfl
@[simp] theorem State.modLs_sec (k : Nat) (f : Ls → Ls) : (s.modLs k f).sec = s.sec := rfl
@[simp] theorem State.modLs_pcs (k : Nat) (f : Ls → Ls) : (s.modLs k f).pcs = s.pcs := rfl
@[simp] theorem State.modLs_cn (k : Nat) (f : Ls → Ls) : (s.modLs k f).cn = s.cn := rfl
@[simp] theorem State.modLs_bc (k : Nat) (f : Ls → Ls) : (s.modLs k f).bc = s.bc := rfl
@[simp] theorem State.modLs_rdata (k : Nat) (f : Ls → Ls) : (s.modLs k f).rdata = s.rdata := rfl
@[simp] theorem State.modLs_flash (k : Nat) (f : Ls → Ls) : (s.modLs k f).flash = s.flash := rfl
@[simp] theorem State.modLs_fresh (k : Nat) (f : Ls → Ls) : (s.modLs k f).fresh = s.fresh := rfl

@[simp] theorem State.modGp_pending (n : Nat) (f : Gp → Gp) : (s.modGp n f).pending = s.pending := rfl
@[simp] theorem State.modGp_regs (n : Nat) (f : Gp → Gp) : (s.modGp n f).regs = s.regs := rfl
@[simp] theorem State.modGp_latches (n : Nat) (f : Gp → Gp) : (s.modGp n f).latches = s.latches := rfl
@[simp] theorem State.modGp_helds (n : Nat) (f : Gp → Gp) : (s.modGp n f).helds = s.helds := rfl
@[simp] theorem State.modGp_mem (n : Nat) (f : Gp → Gp) : (s.modGp n f).mem = s.mem := rfl
@[simp] theorem State.modGp_tb (n : Nat) (f : Gp → Gp) : (s.modGp n f).tb = s.tb := rfl
@[simp] theorem State.modGp_tbi (n : Nat) (f : Gp → Gp) : (s.modGp n f).tbi = s.tbi := rfl
@[simp] theorem State.modGp_wg (n : Nat) (f : Gp → Gp) : (s.modGp n f).wg = s.wg := rfl
@[simp] theorem State.modGp_nc (n : Nat) (f : Gp → Gp) : (s.modGp n f).nc = s.nc := rfl
@[simp] theorem State.modGp_eng (n : Nat) (f : Gp → Gp) : (s.modGp n f).eng = s.eng := rfl
@[simp] theorem State.modGp_mx (n : Nat) (f : Gp → Gp) : (s.modGp n f).mx = s.mx := rfl
@[simp] theorem State.modGp_vx (n : Nat) (f : Gp → Gp) : (s.modGp n f).vx = s.vx := rfl
@[simp] theorem State.modGp_ls (n : Nat) (f : Gp → Gp) : (s.modGp n f).ls = s.ls := rfl
@[simp] theorem State.modGp_ks (n : Nat) (f : Gp → Gp) : (s.modGp n f).ks = s.ks := rfl
@[simp] theorem State.modGp_bk (n : Nat) (f : Gp → Gp) : (s.modGp n f).bk = s.bk := rfl
@[simp] theorem State.modGp_rt (n : Nat) (f : Gp → Gp) : (s.modGp n f).rt = s.rt := rfl
@[simp] theorem State.modGp_sdir (n : Nat) (f : Gp → Gp) : (s.modGp n f).sdir = s.sdir := rfl
@[simp] theorem State.modGp_lane (n : Nat) (f : Gp → Gp) : (s.modGp n f).lane = s.lane := rfl
@[simp] theorem State.modGp_xfer (n : Nat) (f : Gp → Gp) : (s.modGp n f).xfer = s.xfer := rfl
@[simp] theorem State.modGp_chan (n : Nat) (f : Gp → Gp) : (s.modGp n f).chan = s.chan := rfl
@[simp] theorem State.modGp_comp (n : Nat) (f : Gp → Gp) : (s.modGp n f).comp = s.comp := rfl
@[simp] theorem State.modGp_edges (n : Nat) (f : Gp → Gp) : (s.modGp n f).edges = s.edges := rfl
@[simp] theorem State.modGp_oldEdges (n : Nat) (f : Gp → Gp) : (s.modGp n f).oldEdges = s.oldEdges := rfl
@[simp] theorem State.modGp_arb (n : Nat) (f : Gp → Gp) : (s.modGp n f).arb = s.arb := rfl
@[simp] theorem State.modGp_dom (n : Nat) (f : Gp → Gp) : (s.modGp n f).dom = s.dom := rfl
@[simp] theorem State.modGp_sch (n : Nat) (f : Gp → Gp) : (s.modGp n f).sch = s.sch := rfl
@[simp] theorem State.modGp_half (n : Nat) (f : Gp → Gp) : (s.modGp n f).half = s.half := rfl
@[simp] theorem State.modGp_slotA (n : Nat) (f : Gp → Gp) : (s.modGp n f).slotA = s.slotA := rfl
@[simp] theorem State.modGp_slotB (n : Nat) (f : Gp → Gp) : (s.modGp n f).slotB = s.slotB := rfl
@[simp] theorem State.modGp_smapA (n : Nat) (f : Gp → Gp) : (s.modGp n f).smapA = s.smapA := rfl
@[simp] theorem State.modGp_smapB (n : Nat) (f : Gp → Gp) : (s.modGp n f).smapB = s.smapB := rfl
@[simp] theorem State.modGp_staging (n : Nat) (f : Gp → Gp) : (s.modGp n f).staging = s.staging := rfl
@[simp] theorem State.modGp_gp (n : Nat) (f : Gp → Gp) : (s.modGp n f).gp = mmod s.gp n f := rfl
@[simp] theorem State.modGp_checks (n : Nat) (f : Gp → Gp) : (s.modGp n f).checks = s.checks := rfl
@[simp] theorem State.modGp_clk (n : Nat) (f : Gp → Gp) : (s.modGp n f).clk = s.clk := rfl
@[simp] theorem State.modGp_pw (n : Nat) (f : Gp → Gp) : (s.modGp n f).pw = s.pw := rfl
@[simp] theorem State.modGp_bist (n : Nat) (f : Gp → Gp) : (s.modGp n f).bist = s.bist := rfl
@[simp] theorem State.modGp_rsts (n : Nat) (f : Gp → Gp) : (s.modGp n f).rsts = s.rsts := rfl
@[simp] theorem State.modGp_boot (n : Nat) (f : Gp → Gp) : (s.modGp n f).boot = s.boot := rfl
@[simp] theorem State.modGp_sec (n : Nat) (f : Gp → Gp) : (s.modGp n f).sec = s.sec := rfl
@[simp] theorem State.modGp_pcs (n : Nat) (f : Gp → Gp) : (s.modGp n f).pcs = s.pcs := rfl
@[simp] theorem State.modGp_cn (n : Nat) (f : Gp → Gp) : (s.modGp n f).cn = s.cn := rfl
@[simp] theorem State.modGp_bc (n : Nat) (f : Gp → Gp) : (s.modGp n f).bc = s.bc := rfl
@[simp] theorem State.modGp_rdata (n : Nat) (f : Gp → Gp) : (s.modGp n f).rdata = s.rdata := rfl
@[simp] theorem State.modGp_flash (n : Nat) (f : Gp → Gp) : (s.modGp n f).flash = s.flash := rfl
@[simp] theorem State.modGp_fresh (n : Nat) (f : Gp → Gp) : (s.modGp n f).fresh = s.fresh := rfl

@[simp] theorem State.modMx_pending (c : Nat) (f : Mx → Mx) : (s.modMx c f).pending = s.pending := rfl
@[simp] theorem State.modMx_regs (c : Nat) (f : Mx → Mx) : (s.modMx c f).regs = s.regs := rfl
@[simp] theorem State.modMx_latches (c : Nat) (f : Mx → Mx) : (s.modMx c f).latches = s.latches := rfl
@[simp] theorem State.modMx_helds (c : Nat) (f : Mx → Mx) : (s.modMx c f).helds = s.helds := rfl
@[simp] theorem State.modMx_mem (c : Nat) (f : Mx → Mx) : (s.modMx c f).mem = s.mem := rfl
@[simp] theorem State.modMx_tb (c : Nat) (f : Mx → Mx) : (s.modMx c f).tb = s.tb := rfl
@[simp] theorem State.modMx_tbi (c : Nat) (f : Mx → Mx) : (s.modMx c f).tbi = s.tbi := rfl
@[simp] theorem State.modMx_wg (c : Nat) (f : Mx → Mx) : (s.modMx c f).wg = s.wg := rfl
@[simp] theorem State.modMx_nc (c : Nat) (f : Mx → Mx) : (s.modMx c f).nc = s.nc := rfl
@[simp] theorem State.modMx_eng (c : Nat) (f : Mx → Mx) : (s.modMx c f).eng = s.eng := rfl
@[simp] theorem State.modMx_mx (c : Nat) (f : Mx → Mx) : (s.modMx c f).mx = mmod s.mx c f := rfl
@[simp] theorem State.modMx_vx (c : Nat) (f : Mx → Mx) : (s.modMx c f).vx = s.vx := rfl
@[simp] theorem State.modMx_ls (c : Nat) (f : Mx → Mx) : (s.modMx c f).ls = s.ls := rfl
@[simp] theorem State.modMx_ks (c : Nat) (f : Mx → Mx) : (s.modMx c f).ks = s.ks := rfl
@[simp] theorem State.modMx_bk (c : Nat) (f : Mx → Mx) : (s.modMx c f).bk = s.bk := rfl
@[simp] theorem State.modMx_rt (c : Nat) (f : Mx → Mx) : (s.modMx c f).rt = s.rt := rfl
@[simp] theorem State.modMx_sdir (c : Nat) (f : Mx → Mx) : (s.modMx c f).sdir = s.sdir := rfl
@[simp] theorem State.modMx_lane (c : Nat) (f : Mx → Mx) : (s.modMx c f).lane = s.lane := rfl
@[simp] theorem State.modMx_xfer (c : Nat) (f : Mx → Mx) : (s.modMx c f).xfer = s.xfer := rfl
@[simp] theorem State.modMx_chan (c : Nat) (f : Mx → Mx) : (s.modMx c f).chan = s.chan := rfl
@[simp] theorem State.modMx_comp (c : Nat) (f : Mx → Mx) : (s.modMx c f).comp = s.comp := rfl
@[simp] theorem State.modMx_edges (c : Nat) (f : Mx → Mx) : (s.modMx c f).edges = s.edges := rfl
@[simp] theorem State.modMx_oldEdges (c : Nat) (f : Mx → Mx) : (s.modMx c f).oldEdges = s.oldEdges := rfl
@[simp] theorem State.modMx_arb (c : Nat) (f : Mx → Mx) : (s.modMx c f).arb = s.arb := rfl
@[simp] theorem State.modMx_dom (c : Nat) (f : Mx → Mx) : (s.modMx c f).dom = s.dom := rfl
@[simp] theorem State.modMx_sch (c : Nat) (f : Mx → Mx) : (s.modMx c f).sch = s.sch := rfl
@[simp] theorem State.modMx_half (c : Nat) (f : Mx → Mx) : (s.modMx c f).half = s.half := rfl
@[simp] theorem State.modMx_slotA (c : Nat) (f : Mx → Mx) : (s.modMx c f).slotA = s.slotA := rfl
@[simp] theorem State.modMx_slotB (c : Nat) (f : Mx → Mx) : (s.modMx c f).slotB = s.slotB := rfl
@[simp] theorem State.modMx_smapA (c : Nat) (f : Mx → Mx) : (s.modMx c f).smapA = s.smapA := rfl
@[simp] theorem State.modMx_smapB (c : Nat) (f : Mx → Mx) : (s.modMx c f).smapB = s.smapB := rfl
@[simp] theorem State.modMx_staging (c : Nat) (f : Mx → Mx) : (s.modMx c f).staging = s.staging := rfl
@[simp] theorem State.modMx_gp (c : Nat) (f : Mx → Mx) : (s.modMx c f).gp = s.gp := rfl
@[simp] theorem State.modMx_checks (c : Nat) (f : Mx → Mx) : (s.modMx c f).checks = s.checks := rfl
@[simp] theorem State.modMx_clk (c : Nat) (f : Mx → Mx) : (s.modMx c f).clk = s.clk := rfl
@[simp] theorem State.modMx_pw (c : Nat) (f : Mx → Mx) : (s.modMx c f).pw = s.pw := rfl
@[simp] theorem State.modMx_bist (c : Nat) (f : Mx → Mx) : (s.modMx c f).bist = s.bist := rfl
@[simp] theorem State.modMx_rsts (c : Nat) (f : Mx → Mx) : (s.modMx c f).rsts = s.rsts := rfl
@[simp] theorem State.modMx_boot (c : Nat) (f : Mx → Mx) : (s.modMx c f).boot = s.boot := rfl
@[simp] theorem State.modMx_sec (c : Nat) (f : Mx → Mx) : (s.modMx c f).sec = s.sec := rfl
@[simp] theorem State.modMx_pcs (c : Nat) (f : Mx → Mx) : (s.modMx c f).pcs = s.pcs := rfl
@[simp] theorem State.modMx_cn (c : Nat) (f : Mx → Mx) : (s.modMx c f).cn = s.cn := rfl
@[simp] theorem State.modMx_bc (c : Nat) (f : Mx → Mx) : (s.modMx c f).bc = s.bc := rfl
@[simp] theorem State.modMx_rdata (c : Nat) (f : Mx → Mx) : (s.modMx c f).rdata = s.rdata := rfl
@[simp] theorem State.modMx_flash (c : Nat) (f : Mx → Mx) : (s.modMx c f).flash = s.flash := rfl
@[simp] theorem State.modMx_fresh (c : Nat) (f : Mx → Mx) : (s.modMx c f).fresh = s.fresh := rfl

@[simp] theorem State.modVx_pending (c v : Nat) (f : Vx → Vx) : (s.modVx c v f).pending = s.pending := rfl
@[simp] theorem State.modVx_regs (c v : Nat) (f : Vx → Vx) : (s.modVx c v f).regs = s.regs := rfl
@[simp] theorem State.modVx_latches (c v : Nat) (f : Vx → Vx) : (s.modVx c v f).latches = s.latches := rfl
@[simp] theorem State.modVx_helds (c v : Nat) (f : Vx → Vx) : (s.modVx c v f).helds = s.helds := rfl
@[simp] theorem State.modVx_mem (c v : Nat) (f : Vx → Vx) : (s.modVx c v f).mem = s.mem := rfl
@[simp] theorem State.modVx_tb (c v : Nat) (f : Vx → Vx) : (s.modVx c v f).tb = s.tb := rfl
@[simp] theorem State.modVx_tbi (c v : Nat) (f : Vx → Vx) : (s.modVx c v f).tbi = s.tbi := rfl
@[simp] theorem State.modVx_wg (c v : Nat) (f : Vx → Vx) : (s.modVx c v f).wg = s.wg := rfl
@[simp] theorem State.modVx_nc (c v : Nat) (f : Vx → Vx) : (s.modVx c v f).nc = s.nc := rfl
@[simp] theorem State.modVx_eng (c v : Nat) (f : Vx → Vx) : (s.modVx c v f).eng = s.eng := rfl
@[simp] theorem State.modVx_mx (c v : Nat) (f : Vx → Vx) : (s.modVx c v f).mx = s.mx := rfl
@[simp] theorem State.modVx_vx (c v : Nat) (f : Vx → Vx) : (s.modVx c v f).vx = mmod s.vx (c * 2 + v) f := rfl
@[simp] theorem State.modVx_ls (c v : Nat) (f : Vx → Vx) : (s.modVx c v f).ls = s.ls := rfl
@[simp] theorem State.modVx_ks (c v : Nat) (f : Vx → Vx) : (s.modVx c v f).ks = s.ks := rfl
@[simp] theorem State.modVx_bk (c v : Nat) (f : Vx → Vx) : (s.modVx c v f).bk = s.bk := rfl
@[simp] theorem State.modVx_rt (c v : Nat) (f : Vx → Vx) : (s.modVx c v f).rt = s.rt := rfl
@[simp] theorem State.modVx_sdir (c v : Nat) (f : Vx → Vx) : (s.modVx c v f).sdir = s.sdir := rfl
@[simp] theorem State.modVx_lane (c v : Nat) (f : Vx → Vx) : (s.modVx c v f).lane = s.lane := rfl
@[simp] theorem State.modVx_xfer (c v : Nat) (f : Vx → Vx) : (s.modVx c v f).xfer = s.xfer := rfl
@[simp] theorem State.modVx_chan (c v : Nat) (f : Vx → Vx) : (s.modVx c v f).chan = s.chan := rfl
@[simp] theorem State.modVx_comp (c v : Nat) (f : Vx → Vx) : (s.modVx c v f).comp = s.comp := rfl
@[simp] theorem State.modVx_edges (c v : Nat) (f : Vx → Vx) : (s.modVx c v f).edges = s.edges := rfl
@[simp] theorem State.modVx_oldEdges (c v : Nat) (f : Vx → Vx) : (s.modVx c v f).oldEdges = s.oldEdges := rfl
@[simp] theorem State.modVx_arb (c v : Nat) (f : Vx → Vx) : (s.modVx c v f).arb = s.arb := rfl
@[simp] theorem State.modVx_dom (c v : Nat) (f : Vx → Vx) : (s.modVx c v f).dom = s.dom := rfl
@[simp] theorem State.modVx_sch (c v : Nat) (f : Vx → Vx) : (s.modVx c v f).sch = s.sch := rfl
@[simp] theorem State.modVx_half (c v : Nat) (f : Vx → Vx) : (s.modVx c v f).half = s.half := rfl
@[simp] theorem State.modVx_slotA (c v : Nat) (f : Vx → Vx) : (s.modVx c v f).slotA = s.slotA := rfl
@[simp] theorem State.modVx_slotB (c v : Nat) (f : Vx → Vx) : (s.modVx c v f).slotB = s.slotB := rfl
@[simp] theorem State.modVx_smapA (c v : Nat) (f : Vx → Vx) : (s.modVx c v f).smapA = s.smapA := rfl
@[simp] theorem State.modVx_smapB (c v : Nat) (f : Vx → Vx) : (s.modVx c v f).smapB = s.smapB := rfl
@[simp] theorem State.modVx_staging (c v : Nat) (f : Vx → Vx) : (s.modVx c v f).staging = s.staging := rfl
@[simp] theorem State.modVx_gp (c v : Nat) (f : Vx → Vx) : (s.modVx c v f).gp = s.gp := rfl
@[simp] theorem State.modVx_checks (c v : Nat) (f : Vx → Vx) : (s.modVx c v f).checks = s.checks := rfl
@[simp] theorem State.modVx_clk (c v : Nat) (f : Vx → Vx) : (s.modVx c v f).clk = s.clk := rfl
@[simp] theorem State.modVx_pw (c v : Nat) (f : Vx → Vx) : (s.modVx c v f).pw = s.pw := rfl
@[simp] theorem State.modVx_bist (c v : Nat) (f : Vx → Vx) : (s.modVx c v f).bist = s.bist := rfl
@[simp] theorem State.modVx_rsts (c v : Nat) (f : Vx → Vx) : (s.modVx c v f).rsts = s.rsts := rfl
@[simp] theorem State.modVx_boot (c v : Nat) (f : Vx → Vx) : (s.modVx c v f).boot = s.boot := rfl
@[simp] theorem State.modVx_sec (c v : Nat) (f : Vx → Vx) : (s.modVx c v f).sec = s.sec := rfl
@[simp] theorem State.modVx_pcs (c v : Nat) (f : Vx → Vx) : (s.modVx c v f).pcs = s.pcs := rfl
@[simp] theorem State.modVx_cn (c v : Nat) (f : Vx → Vx) : (s.modVx c v f).cn = s.cn := rfl
@[simp] theorem State.modVx_bc (c v : Nat) (f : Vx → Vx) : (s.modVx c v f).bc = s.bc := rfl
@[simp] theorem State.modVx_rdata (c v : Nat) (f : Vx → Vx) : (s.modVx c v f).rdata = s.rdata := rfl
@[simp] theorem State.modVx_flash (c v : Nat) (f : Vx → Vx) : (s.modVx c v f).flash = s.flash := rfl
@[simp] theorem State.modVx_fresh (c v : Nat) (f : Vx → Vx) : (s.modVx c v f).fresh = s.fresh := rfl

@[simp] theorem State.modRt_pending (c : Nat) (f : Rt → Rt) : (s.modRt c f).pending = s.pending := rfl
@[simp] theorem State.modRt_regs (c : Nat) (f : Rt → Rt) : (s.modRt c f).regs = s.regs := rfl
@[simp] theorem State.modRt_latches (c : Nat) (f : Rt → Rt) : (s.modRt c f).latches = s.latches := rfl
@[simp] theorem State.modRt_helds (c : Nat) (f : Rt → Rt) : (s.modRt c f).helds = s.helds := rfl
@[simp] theorem State.modRt_mem (c : Nat) (f : Rt → Rt) : (s.modRt c f).mem = s.mem := rfl
@[simp] theorem State.modRt_tb (c : Nat) (f : Rt → Rt) : (s.modRt c f).tb = s.tb := rfl
@[simp] theorem State.modRt_tbi (c : Nat) (f : Rt → Rt) : (s.modRt c f).tbi = s.tbi := rfl
@[simp] theorem State.modRt_wg (c : Nat) (f : Rt → Rt) : (s.modRt c f).wg = s.wg := rfl
@[simp] theorem State.modRt_nc (c : Nat) (f : Rt → Rt) : (s.modRt c f).nc = s.nc := rfl
@[simp] theorem State.modRt_eng (c : Nat) (f : Rt → Rt) : (s.modRt c f).eng = s.eng := rfl
@[simp] theorem State.modRt_mx (c : Nat) (f : Rt → Rt) : (s.modRt c f).mx = s.mx := rfl
@[simp] theorem State.modRt_vx (c : Nat) (f : Rt → Rt) : (s.modRt c f).vx = s.vx := rfl
@[simp] theorem State.modRt_ls (c : Nat) (f : Rt → Rt) : (s.modRt c f).ls = s.ls := rfl
@[simp] theorem State.modRt_ks (c : Nat) (f : Rt → Rt) : (s.modRt c f).ks = s.ks := rfl
@[simp] theorem State.modRt_bk (c : Nat) (f : Rt → Rt) : (s.modRt c f).bk = s.bk := rfl
@[simp] theorem State.modRt_rt (c : Nat) (f : Rt → Rt) : (s.modRt c f).rt = mmod s.rt c f := rfl
@[simp] theorem State.modRt_sdir (c : Nat) (f : Rt → Rt) : (s.modRt c f).sdir = s.sdir := rfl
@[simp] theorem State.modRt_lane (c : Nat) (f : Rt → Rt) : (s.modRt c f).lane = s.lane := rfl
@[simp] theorem State.modRt_xfer (c : Nat) (f : Rt → Rt) : (s.modRt c f).xfer = s.xfer := rfl
@[simp] theorem State.modRt_chan (c : Nat) (f : Rt → Rt) : (s.modRt c f).chan = s.chan := rfl
@[simp] theorem State.modRt_comp (c : Nat) (f : Rt → Rt) : (s.modRt c f).comp = s.comp := rfl
@[simp] theorem State.modRt_edges (c : Nat) (f : Rt → Rt) : (s.modRt c f).edges = s.edges := rfl
@[simp] theorem State.modRt_oldEdges (c : Nat) (f : Rt → Rt) : (s.modRt c f).oldEdges = s.oldEdges := rfl
@[simp] theorem State.modRt_arb (c : Nat) (f : Rt → Rt) : (s.modRt c f).arb = s.arb := rfl
@[simp] theorem State.modRt_dom (c : Nat) (f : Rt → Rt) : (s.modRt c f).dom = s.dom := rfl
@[simp] theorem State.modRt_sch (c : Nat) (f : Rt → Rt) : (s.modRt c f).sch = s.sch := rfl
@[simp] theorem State.modRt_half (c : Nat) (f : Rt → Rt) : (s.modRt c f).half = s.half := rfl
@[simp] theorem State.modRt_slotA (c : Nat) (f : Rt → Rt) : (s.modRt c f).slotA = s.slotA := rfl
@[simp] theorem State.modRt_slotB (c : Nat) (f : Rt → Rt) : (s.modRt c f).slotB = s.slotB := rfl
@[simp] theorem State.modRt_smapA (c : Nat) (f : Rt → Rt) : (s.modRt c f).smapA = s.smapA := rfl
@[simp] theorem State.modRt_smapB (c : Nat) (f : Rt → Rt) : (s.modRt c f).smapB = s.smapB := rfl
@[simp] theorem State.modRt_staging (c : Nat) (f : Rt → Rt) : (s.modRt c f).staging = s.staging := rfl
@[simp] theorem State.modRt_gp (c : Nat) (f : Rt → Rt) : (s.modRt c f).gp = s.gp := rfl
@[simp] theorem State.modRt_checks (c : Nat) (f : Rt → Rt) : (s.modRt c f).checks = s.checks := rfl
@[simp] theorem State.modRt_clk (c : Nat) (f : Rt → Rt) : (s.modRt c f).clk = s.clk := rfl
@[simp] theorem State.modRt_pw (c : Nat) (f : Rt → Rt) : (s.modRt c f).pw = s.pw := rfl
@[simp] theorem State.modRt_bist (c : Nat) (f : Rt → Rt) : (s.modRt c f).bist = s.bist := rfl
@[simp] theorem State.modRt_rsts (c : Nat) (f : Rt → Rt) : (s.modRt c f).rsts = s.rsts := rfl
@[simp] theorem State.modRt_boot (c : Nat) (f : Rt → Rt) : (s.modRt c f).boot = s.boot := rfl
@[simp] theorem State.modRt_sec (c : Nat) (f : Rt → Rt) : (s.modRt c f).sec = s.sec := rfl
@[simp] theorem State.modRt_pcs (c : Nat) (f : Rt → Rt) : (s.modRt c f).pcs = s.pcs := rfl
@[simp] theorem State.modRt_cn (c : Nat) (f : Rt → Rt) : (s.modRt c f).cn = s.cn := rfl
@[simp] theorem State.modRt_bc (c : Nat) (f : Rt → Rt) : (s.modRt c f).bc = s.bc := rfl
@[simp] theorem State.modRt_rdata (c : Nat) (f : Rt → Rt) : (s.modRt c f).rdata = s.rdata := rfl
@[simp] theorem State.modRt_flash (c : Nat) (f : Rt → Rt) : (s.modRt c f).flash = s.flash := rfl
@[simp] theorem State.modRt_fresh (c : Nat) (f : Rt → Rt) : (s.modRt c f).fresh = s.fresh := rfl

@[simp] theorem State.modSdir_pending (d : Nat) (f : Sdir → Sdir) : (s.modSdir d f).pending = s.pending := rfl
@[simp] theorem State.modSdir_regs (d : Nat) (f : Sdir → Sdir) : (s.modSdir d f).regs = s.regs := rfl
@[simp] theorem State.modSdir_latches (d : Nat) (f : Sdir → Sdir) : (s.modSdir d f).latches = s.latches := rfl
@[simp] theorem State.modSdir_helds (d : Nat) (f : Sdir → Sdir) : (s.modSdir d f).helds = s.helds := rfl
@[simp] theorem State.modSdir_mem (d : Nat) (f : Sdir → Sdir) : (s.modSdir d f).mem = s.mem := rfl
@[simp] theorem State.modSdir_tb (d : Nat) (f : Sdir → Sdir) : (s.modSdir d f).tb = s.tb := rfl
@[simp] theorem State.modSdir_tbi (d : Nat) (f : Sdir → Sdir) : (s.modSdir d f).tbi = s.tbi := rfl
@[simp] theorem State.modSdir_wg (d : Nat) (f : Sdir → Sdir) : (s.modSdir d f).wg = s.wg := rfl
@[simp] theorem State.modSdir_nc (d : Nat) (f : Sdir → Sdir) : (s.modSdir d f).nc = s.nc := rfl
@[simp] theorem State.modSdir_eng (d : Nat) (f : Sdir → Sdir) : (s.modSdir d f).eng = s.eng := rfl
@[simp] theorem State.modSdir_mx (d : Nat) (f : Sdir → Sdir) : (s.modSdir d f).mx = s.mx := rfl
@[simp] theorem State.modSdir_vx (d : Nat) (f : Sdir → Sdir) : (s.modSdir d f).vx = s.vx := rfl
@[simp] theorem State.modSdir_ls (d : Nat) (f : Sdir → Sdir) : (s.modSdir d f).ls = s.ls := rfl
@[simp] theorem State.modSdir_ks (d : Nat) (f : Sdir → Sdir) : (s.modSdir d f).ks = s.ks := rfl
@[simp] theorem State.modSdir_bk (d : Nat) (f : Sdir → Sdir) : (s.modSdir d f).bk = s.bk := rfl
@[simp] theorem State.modSdir_rt (d : Nat) (f : Sdir → Sdir) : (s.modSdir d f).rt = s.rt := rfl
@[simp] theorem State.modSdir_sdir (d : Nat) (f : Sdir → Sdir) : (s.modSdir d f).sdir = mmod s.sdir d f := rfl
@[simp] theorem State.modSdir_lane (d : Nat) (f : Sdir → Sdir) : (s.modSdir d f).lane = s.lane := rfl
@[simp] theorem State.modSdir_xfer (d : Nat) (f : Sdir → Sdir) : (s.modSdir d f).xfer = s.xfer := rfl
@[simp] theorem State.modSdir_chan (d : Nat) (f : Sdir → Sdir) : (s.modSdir d f).chan = s.chan := rfl
@[simp] theorem State.modSdir_comp (d : Nat) (f : Sdir → Sdir) : (s.modSdir d f).comp = s.comp := rfl
@[simp] theorem State.modSdir_edges (d : Nat) (f : Sdir → Sdir) : (s.modSdir d f).edges = s.edges := rfl
@[simp] theorem State.modSdir_oldEdges (d : Nat) (f : Sdir → Sdir) : (s.modSdir d f).oldEdges = s.oldEdges := rfl
@[simp] theorem State.modSdir_arb (d : Nat) (f : Sdir → Sdir) : (s.modSdir d f).arb = s.arb := rfl
@[simp] theorem State.modSdir_dom (d : Nat) (f : Sdir → Sdir) : (s.modSdir d f).dom = s.dom := rfl
@[simp] theorem State.modSdir_sch (d : Nat) (f : Sdir → Sdir) : (s.modSdir d f).sch = s.sch := rfl
@[simp] theorem State.modSdir_half (d : Nat) (f : Sdir → Sdir) : (s.modSdir d f).half = s.half := rfl
@[simp] theorem State.modSdir_slotA (d : Nat) (f : Sdir → Sdir) : (s.modSdir d f).slotA = s.slotA := rfl
@[simp] theorem State.modSdir_slotB (d : Nat) (f : Sdir → Sdir) : (s.modSdir d f).slotB = s.slotB := rfl
@[simp] theorem State.modSdir_smapA (d : Nat) (f : Sdir → Sdir) : (s.modSdir d f).smapA = s.smapA := rfl
@[simp] theorem State.modSdir_smapB (d : Nat) (f : Sdir → Sdir) : (s.modSdir d f).smapB = s.smapB := rfl
@[simp] theorem State.modSdir_staging (d : Nat) (f : Sdir → Sdir) : (s.modSdir d f).staging = s.staging := rfl
@[simp] theorem State.modSdir_gp (d : Nat) (f : Sdir → Sdir) : (s.modSdir d f).gp = s.gp := rfl
@[simp] theorem State.modSdir_checks (d : Nat) (f : Sdir → Sdir) : (s.modSdir d f).checks = s.checks := rfl
@[simp] theorem State.modSdir_clk (d : Nat) (f : Sdir → Sdir) : (s.modSdir d f).clk = s.clk := rfl
@[simp] theorem State.modSdir_pw (d : Nat) (f : Sdir → Sdir) : (s.modSdir d f).pw = s.pw := rfl
@[simp] theorem State.modSdir_bist (d : Nat) (f : Sdir → Sdir) : (s.modSdir d f).bist = s.bist := rfl
@[simp] theorem State.modSdir_rsts (d : Nat) (f : Sdir → Sdir) : (s.modSdir d f).rsts = s.rsts := rfl
@[simp] theorem State.modSdir_boot (d : Nat) (f : Sdir → Sdir) : (s.modSdir d f).boot = s.boot := rfl
@[simp] theorem State.modSdir_sec (d : Nat) (f : Sdir → Sdir) : (s.modSdir d f).sec = s.sec := rfl
@[simp] theorem State.modSdir_pcs (d : Nat) (f : Sdir → Sdir) : (s.modSdir d f).pcs = s.pcs := rfl
@[simp] theorem State.modSdir_cn (d : Nat) (f : Sdir → Sdir) : (s.modSdir d f).cn = s.cn := rfl
@[simp] theorem State.modSdir_bc (d : Nat) (f : Sdir → Sdir) : (s.modSdir d f).bc = s.bc := rfl
@[simp] theorem State.modSdir_rdata (d : Nat) (f : Sdir → Sdir) : (s.modSdir d f).rdata = s.rdata := rfl
@[simp] theorem State.modSdir_flash (d : Nat) (f : Sdir → Sdir) : (s.modSdir d f).flash = s.flash := rfl
@[simp] theorem State.modSdir_fresh (d : Nat) (f : Sdir → Sdir) : (s.modSdir d f).fresh = s.fresh := rfl

@[simp] theorem State.modLane_pending (d l : Nat) (f : SLane → SLane) : (s.modLane d l f).pending = s.pending := rfl
@[simp] theorem State.modLane_regs (d l : Nat) (f : SLane → SLane) : (s.modLane d l f).regs = s.regs := rfl
@[simp] theorem State.modLane_latches (d l : Nat) (f : SLane → SLane) : (s.modLane d l f).latches = s.latches := rfl
@[simp] theorem State.modLane_helds (d l : Nat) (f : SLane → SLane) : (s.modLane d l f).helds = s.helds := rfl
@[simp] theorem State.modLane_mem (d l : Nat) (f : SLane → SLane) : (s.modLane d l f).mem = s.mem := rfl
@[simp] theorem State.modLane_tb (d l : Nat) (f : SLane → SLane) : (s.modLane d l f).tb = s.tb := rfl
@[simp] theorem State.modLane_tbi (d l : Nat) (f : SLane → SLane) : (s.modLane d l f).tbi = s.tbi := rfl
@[simp] theorem State.modLane_wg (d l : Nat) (f : SLane → SLane) : (s.modLane d l f).wg = s.wg := rfl
@[simp] theorem State.modLane_nc (d l : Nat) (f : SLane → SLane) : (s.modLane d l f).nc = s.nc := rfl
@[simp] theorem State.modLane_eng (d l : Nat) (f : SLane → SLane) : (s.modLane d l f).eng = s.eng := rfl
@[simp] theorem State.modLane_mx (d l : Nat) (f : SLane → SLane) : (s.modLane d l f).mx = s.mx := rfl
@[simp] theorem State.modLane_vx (d l : Nat) (f : SLane → SLane) : (s.modLane d l f).vx = s.vx := rfl
@[simp] theorem State.modLane_ls (d l : Nat) (f : SLane → SLane) : (s.modLane d l f).ls = s.ls := rfl
@[simp] theorem State.modLane_ks (d l : Nat) (f : SLane → SLane) : (s.modLane d l f).ks = s.ks := rfl
@[simp] theorem State.modLane_bk (d l : Nat) (f : SLane → SLane) : (s.modLane d l f).bk = s.bk := rfl
@[simp] theorem State.modLane_rt (d l : Nat) (f : SLane → SLane) : (s.modLane d l f).rt = s.rt := rfl
@[simp] theorem State.modLane_sdir (d l : Nat) (f : SLane → SLane) : (s.modLane d l f).sdir = s.sdir := rfl
@[simp] theorem State.modLane_lane (d l : Nat) (f : SLane → SLane) : (s.modLane d l f).lane = mmod s.lane (d * 4 + l) f := rfl
@[simp] theorem State.modLane_xfer (d l : Nat) (f : SLane → SLane) : (s.modLane d l f).xfer = s.xfer := rfl
@[simp] theorem State.modLane_chan (d l : Nat) (f : SLane → SLane) : (s.modLane d l f).chan = s.chan := rfl
@[simp] theorem State.modLane_comp (d l : Nat) (f : SLane → SLane) : (s.modLane d l f).comp = s.comp := rfl
@[simp] theorem State.modLane_edges (d l : Nat) (f : SLane → SLane) : (s.modLane d l f).edges = s.edges := rfl
@[simp] theorem State.modLane_oldEdges (d l : Nat) (f : SLane → SLane) : (s.modLane d l f).oldEdges = s.oldEdges := rfl
@[simp] theorem State.modLane_arb (d l : Nat) (f : SLane → SLane) : (s.modLane d l f).arb = s.arb := rfl
@[simp] theorem State.modLane_dom (d l : Nat) (f : SLane → SLane) : (s.modLane d l f).dom = s.dom := rfl
@[simp] theorem State.modLane_sch (d l : Nat) (f : SLane → SLane) : (s.modLane d l f).sch = s.sch := rfl
@[simp] theorem State.modLane_half (d l : Nat) (f : SLane → SLane) : (s.modLane d l f).half = s.half := rfl
@[simp] theorem State.modLane_slotA (d l : Nat) (f : SLane → SLane) : (s.modLane d l f).slotA = s.slotA := rfl
@[simp] theorem State.modLane_slotB (d l : Nat) (f : SLane → SLane) : (s.modLane d l f).slotB = s.slotB := rfl
@[simp] theorem State.modLane_smapA (d l : Nat) (f : SLane → SLane) : (s.modLane d l f).smapA = s.smapA := rfl
@[simp] theorem State.modLane_smapB (d l : Nat) (f : SLane → SLane) : (s.modLane d l f).smapB = s.smapB := rfl
@[simp] theorem State.modLane_staging (d l : Nat) (f : SLane → SLane) : (s.modLane d l f).staging = s.staging := rfl
@[simp] theorem State.modLane_gp (d l : Nat) (f : SLane → SLane) : (s.modLane d l f).gp = s.gp := rfl
@[simp] theorem State.modLane_checks (d l : Nat) (f : SLane → SLane) : (s.modLane d l f).checks = s.checks := rfl
@[simp] theorem State.modLane_clk (d l : Nat) (f : SLane → SLane) : (s.modLane d l f).clk = s.clk := rfl
@[simp] theorem State.modLane_pw (d l : Nat) (f : SLane → SLane) : (s.modLane d l f).pw = s.pw := rfl
@[simp] theorem State.modLane_bist (d l : Nat) (f : SLane → SLane) : (s.modLane d l f).bist = s.bist := rfl
@[simp] theorem State.modLane_rsts (d l : Nat) (f : SLane → SLane) : (s.modLane d l f).rsts = s.rsts := rfl
@[simp] theorem State.modLane_boot (d l : Nat) (f : SLane → SLane) : (s.modLane d l f).boot = s.boot := rfl
@[simp] theorem State.modLane_sec (d l : Nat) (f : SLane → SLane) : (s.modLane d l f).sec = s.sec := rfl
@[simp] theorem State.modLane_pcs (d l : Nat) (f : SLane → SLane) : (s.modLane d l f).pcs = s.pcs := rfl
@[simp] theorem State.modLane_cn (d l : Nat) (f : SLane → SLane) : (s.modLane d l f).cn = s.cn := rfl
@[simp] theorem State.modLane_bc (d l : Nat) (f : SLane → SLane) : (s.modLane d l f).bc = s.bc := rfl
@[simp] theorem State.modLane_rdata (d l : Nat) (f : SLane → SLane) : (s.modLane d l f).rdata = s.rdata := rfl
@[simp] theorem State.modLane_flash (d l : Nat) (f : SLane → SLane) : (s.modLane d l f).flash = s.flash := rfl
@[simp] theorem State.modLane_fresh (d l : Nat) (f : SLane → SLane) : (s.modLane d l f).fresh = s.fresh := rfl

@[simp] theorem State.modXfer_pending (k : Nat) (f : Xfer → Xfer) : (s.modXfer k f).pending = s.pending := rfl
@[simp] theorem State.modXfer_regs (k : Nat) (f : Xfer → Xfer) : (s.modXfer k f).regs = s.regs := rfl
@[simp] theorem State.modXfer_latches (k : Nat) (f : Xfer → Xfer) : (s.modXfer k f).latches = s.latches := rfl
@[simp] theorem State.modXfer_helds (k : Nat) (f : Xfer → Xfer) : (s.modXfer k f).helds = s.helds := rfl
@[simp] theorem State.modXfer_mem (k : Nat) (f : Xfer → Xfer) : (s.modXfer k f).mem = s.mem := rfl
@[simp] theorem State.modXfer_tb (k : Nat) (f : Xfer → Xfer) : (s.modXfer k f).tb = s.tb := rfl
@[simp] theorem State.modXfer_tbi (k : Nat) (f : Xfer → Xfer) : (s.modXfer k f).tbi = s.tbi := rfl
@[simp] theorem State.modXfer_wg (k : Nat) (f : Xfer → Xfer) : (s.modXfer k f).wg = s.wg := rfl
@[simp] theorem State.modXfer_nc (k : Nat) (f : Xfer → Xfer) : (s.modXfer k f).nc = s.nc := rfl
@[simp] theorem State.modXfer_eng (k : Nat) (f : Xfer → Xfer) : (s.modXfer k f).eng = s.eng := rfl
@[simp] theorem State.modXfer_mx (k : Nat) (f : Xfer → Xfer) : (s.modXfer k f).mx = s.mx := rfl
@[simp] theorem State.modXfer_vx (k : Nat) (f : Xfer → Xfer) : (s.modXfer k f).vx = s.vx := rfl
@[simp] theorem State.modXfer_ls (k : Nat) (f : Xfer → Xfer) : (s.modXfer k f).ls = s.ls := rfl
@[simp] theorem State.modXfer_ks (k : Nat) (f : Xfer → Xfer) : (s.modXfer k f).ks = s.ks := rfl
@[simp] theorem State.modXfer_bk (k : Nat) (f : Xfer → Xfer) : (s.modXfer k f).bk = s.bk := rfl
@[simp] theorem State.modXfer_rt (k : Nat) (f : Xfer → Xfer) : (s.modXfer k f).rt = s.rt := rfl
@[simp] theorem State.modXfer_sdir (k : Nat) (f : Xfer → Xfer) : (s.modXfer k f).sdir = s.sdir := rfl
@[simp] theorem State.modXfer_lane (k : Nat) (f : Xfer → Xfer) : (s.modXfer k f).lane = s.lane := rfl
@[simp] theorem State.modXfer_xfer (k : Nat) (f : Xfer → Xfer) : (s.modXfer k f).xfer = mmod s.xfer k f := rfl
@[simp] theorem State.modXfer_chan (k : Nat) (f : Xfer → Xfer) : (s.modXfer k f).chan = s.chan := rfl
@[simp] theorem State.modXfer_comp (k : Nat) (f : Xfer → Xfer) : (s.modXfer k f).comp = s.comp := rfl
@[simp] theorem State.modXfer_edges (k : Nat) (f : Xfer → Xfer) : (s.modXfer k f).edges = s.edges := rfl
@[simp] theorem State.modXfer_oldEdges (k : Nat) (f : Xfer → Xfer) : (s.modXfer k f).oldEdges = s.oldEdges := rfl
@[simp] theorem State.modXfer_arb (k : Nat) (f : Xfer → Xfer) : (s.modXfer k f).arb = s.arb := rfl
@[simp] theorem State.modXfer_dom (k : Nat) (f : Xfer → Xfer) : (s.modXfer k f).dom = s.dom := rfl
@[simp] theorem State.modXfer_sch (k : Nat) (f : Xfer → Xfer) : (s.modXfer k f).sch = s.sch := rfl
@[simp] theorem State.modXfer_half (k : Nat) (f : Xfer → Xfer) : (s.modXfer k f).half = s.half := rfl
@[simp] theorem State.modXfer_slotA (k : Nat) (f : Xfer → Xfer) : (s.modXfer k f).slotA = s.slotA := rfl
@[simp] theorem State.modXfer_slotB (k : Nat) (f : Xfer → Xfer) : (s.modXfer k f).slotB = s.slotB := rfl
@[simp] theorem State.modXfer_smapA (k : Nat) (f : Xfer → Xfer) : (s.modXfer k f).smapA = s.smapA := rfl
@[simp] theorem State.modXfer_smapB (k : Nat) (f : Xfer → Xfer) : (s.modXfer k f).smapB = s.smapB := rfl
@[simp] theorem State.modXfer_staging (k : Nat) (f : Xfer → Xfer) : (s.modXfer k f).staging = s.staging := rfl
@[simp] theorem State.modXfer_gp (k : Nat) (f : Xfer → Xfer) : (s.modXfer k f).gp = s.gp := rfl
@[simp] theorem State.modXfer_checks (k : Nat) (f : Xfer → Xfer) : (s.modXfer k f).checks = s.checks := rfl
@[simp] theorem State.modXfer_clk (k : Nat) (f : Xfer → Xfer) : (s.modXfer k f).clk = s.clk := rfl
@[simp] theorem State.modXfer_pw (k : Nat) (f : Xfer → Xfer) : (s.modXfer k f).pw = s.pw := rfl
@[simp] theorem State.modXfer_bist (k : Nat) (f : Xfer → Xfer) : (s.modXfer k f).bist = s.bist := rfl
@[simp] theorem State.modXfer_rsts (k : Nat) (f : Xfer → Xfer) : (s.modXfer k f).rsts = s.rsts := rfl
@[simp] theorem State.modXfer_boot (k : Nat) (f : Xfer → Xfer) : (s.modXfer k f).boot = s.boot := rfl
@[simp] theorem State.modXfer_sec (k : Nat) (f : Xfer → Xfer) : (s.modXfer k f).sec = s.sec := rfl
@[simp] theorem State.modXfer_pcs (k : Nat) (f : Xfer → Xfer) : (s.modXfer k f).pcs = s.pcs := rfl
@[simp] theorem State.modXfer_cn (k : Nat) (f : Xfer → Xfer) : (s.modXfer k f).cn = s.cn := rfl
@[simp] theorem State.modXfer_bc (k : Nat) (f : Xfer → Xfer) : (s.modXfer k f).bc = s.bc := rfl
@[simp] theorem State.modXfer_rdata (k : Nat) (f : Xfer → Xfer) : (s.modXfer k f).rdata = s.rdata := rfl
@[simp] theorem State.modXfer_flash (k : Nat) (f : Xfer → Xfer) : (s.modXfer k f).flash = s.flash := rfl
@[simp] theorem State.modXfer_fresh (k : Nat) (f : Xfer → Xfer) : (s.modXfer k f).fresh = s.fresh := rfl

@[simp] theorem State.modChan_pending (k : Nat) (f : Chan → Chan) : (s.modChan k f).pending = s.pending := rfl
@[simp] theorem State.modChan_regs (k : Nat) (f : Chan → Chan) : (s.modChan k f).regs = s.regs := rfl
@[simp] theorem State.modChan_latches (k : Nat) (f : Chan → Chan) : (s.modChan k f).latches = s.latches := rfl
@[simp] theorem State.modChan_helds (k : Nat) (f : Chan → Chan) : (s.modChan k f).helds = s.helds := rfl
@[simp] theorem State.modChan_mem (k : Nat) (f : Chan → Chan) : (s.modChan k f).mem = s.mem := rfl
@[simp] theorem State.modChan_tb (k : Nat) (f : Chan → Chan) : (s.modChan k f).tb = s.tb := rfl
@[simp] theorem State.modChan_tbi (k : Nat) (f : Chan → Chan) : (s.modChan k f).tbi = s.tbi := rfl
@[simp] theorem State.modChan_wg (k : Nat) (f : Chan → Chan) : (s.modChan k f).wg = s.wg := rfl
@[simp] theorem State.modChan_nc (k : Nat) (f : Chan → Chan) : (s.modChan k f).nc = s.nc := rfl
@[simp] theorem State.modChan_eng (k : Nat) (f : Chan → Chan) : (s.modChan k f).eng = s.eng := rfl
@[simp] theorem State.modChan_mx (k : Nat) (f : Chan → Chan) : (s.modChan k f).mx = s.mx := rfl
@[simp] theorem State.modChan_vx (k : Nat) (f : Chan → Chan) : (s.modChan k f).vx = s.vx := rfl
@[simp] theorem State.modChan_ls (k : Nat) (f : Chan → Chan) : (s.modChan k f).ls = s.ls := rfl
@[simp] theorem State.modChan_ks (k : Nat) (f : Chan → Chan) : (s.modChan k f).ks = s.ks := rfl
@[simp] theorem State.modChan_bk (k : Nat) (f : Chan → Chan) : (s.modChan k f).bk = s.bk := rfl
@[simp] theorem State.modChan_rt (k : Nat) (f : Chan → Chan) : (s.modChan k f).rt = s.rt := rfl
@[simp] theorem State.modChan_sdir (k : Nat) (f : Chan → Chan) : (s.modChan k f).sdir = s.sdir := rfl
@[simp] theorem State.modChan_lane (k : Nat) (f : Chan → Chan) : (s.modChan k f).lane = s.lane := rfl
@[simp] theorem State.modChan_xfer (k : Nat) (f : Chan → Chan) : (s.modChan k f).xfer = s.xfer := rfl
@[simp] theorem State.modChan_chan (k : Nat) (f : Chan → Chan) : (s.modChan k f).chan = mmod s.chan k f := rfl
@[simp] theorem State.modChan_comp (k : Nat) (f : Chan → Chan) : (s.modChan k f).comp = s.comp := rfl
@[simp] theorem State.modChan_edges (k : Nat) (f : Chan → Chan) : (s.modChan k f).edges = s.edges := rfl
@[simp] theorem State.modChan_oldEdges (k : Nat) (f : Chan → Chan) : (s.modChan k f).oldEdges = s.oldEdges := rfl
@[simp] theorem State.modChan_arb (k : Nat) (f : Chan → Chan) : (s.modChan k f).arb = s.arb := rfl
@[simp] theorem State.modChan_dom (k : Nat) (f : Chan → Chan) : (s.modChan k f).dom = s.dom := rfl
@[simp] theorem State.modChan_sch (k : Nat) (f : Chan → Chan) : (s.modChan k f).sch = s.sch := rfl
@[simp] theorem State.modChan_half (k : Nat) (f : Chan → Chan) : (s.modChan k f).half = s.half := rfl
@[simp] theorem State.modChan_slotA (k : Nat) (f : Chan → Chan) : (s.modChan k f).slotA = s.slotA := rfl
@[simp] theorem State.modChan_slotB (k : Nat) (f : Chan → Chan) : (s.modChan k f).slotB = s.slotB := rfl
@[simp] theorem State.modChan_smapA (k : Nat) (f : Chan → Chan) : (s.modChan k f).smapA = s.smapA := rfl
@[simp] theorem State.modChan_smapB (k : Nat) (f : Chan → Chan) : (s.modChan k f).smapB = s.smapB := rfl
@[simp] theorem State.modChan_staging (k : Nat) (f : Chan → Chan) : (s.modChan k f).staging = s.staging := rfl
@[simp] theorem State.modChan_gp (k : Nat) (f : Chan → Chan) : (s.modChan k f).gp = s.gp := rfl
@[simp] theorem State.modChan_checks (k : Nat) (f : Chan → Chan) : (s.modChan k f).checks = s.checks := rfl
@[simp] theorem State.modChan_clk (k : Nat) (f : Chan → Chan) : (s.modChan k f).clk = s.clk := rfl
@[simp] theorem State.modChan_pw (k : Nat) (f : Chan → Chan) : (s.modChan k f).pw = s.pw := rfl
@[simp] theorem State.modChan_bist (k : Nat) (f : Chan → Chan) : (s.modChan k f).bist = s.bist := rfl
@[simp] theorem State.modChan_rsts (k : Nat) (f : Chan → Chan) : (s.modChan k f).rsts = s.rsts := rfl
@[simp] theorem State.modChan_boot (k : Nat) (f : Chan → Chan) : (s.modChan k f).boot = s.boot := rfl
@[simp] theorem State.modChan_sec (k : Nat) (f : Chan → Chan) : (s.modChan k f).sec = s.sec := rfl
@[simp] theorem State.modChan_pcs (k : Nat) (f : Chan → Chan) : (s.modChan k f).pcs = s.pcs := rfl
@[simp] theorem State.modChan_cn (k : Nat) (f : Chan → Chan) : (s.modChan k f).cn = s.cn := rfl
@[simp] theorem State.modChan_bc (k : Nat) (f : Chan → Chan) : (s.modChan k f).bc = s.bc := rfl
@[simp] theorem State.modChan_rdata (k : Nat) (f : Chan → Chan) : (s.modChan k f).rdata = s.rdata := rfl
@[simp] theorem State.modChan_flash (k : Nat) (f : Chan → Chan) : (s.modChan k f).flash = s.flash := rfl
@[simp] theorem State.modChan_fresh (k : Nat) (f : Chan → Chan) : (s.modChan k f).fresh = s.fresh := rfl

@[simp] theorem State.modArb_pending (k : Nat) (f : Arb → Arb) : (s.modArb k f).pending = s.pending := rfl
@[simp] theorem State.modArb_regs (k : Nat) (f : Arb → Arb) : (s.modArb k f).regs = s.regs := rfl
@[simp] theorem State.modArb_latches (k : Nat) (f : Arb → Arb) : (s.modArb k f).latches = s.latches := rfl
@[simp] theorem State.modArb_helds (k : Nat) (f : Arb → Arb) : (s.modArb k f).helds = s.helds := rfl
@[simp] theorem State.modArb_mem (k : Nat) (f : Arb → Arb) : (s.modArb k f).mem = s.mem := rfl
@[simp] theorem State.modArb_tb (k : Nat) (f : Arb → Arb) : (s.modArb k f).tb = s.tb := rfl
@[simp] theorem State.modArb_tbi (k : Nat) (f : Arb → Arb) : (s.modArb k f).tbi = s.tbi := rfl
@[simp] theorem State.modArb_wg (k : Nat) (f : Arb → Arb) : (s.modArb k f).wg = s.wg := rfl
@[simp] theorem State.modArb_nc (k : Nat) (f : Arb → Arb) : (s.modArb k f).nc = s.nc := rfl
@[simp] theorem State.modArb_eng (k : Nat) (f : Arb → Arb) : (s.modArb k f).eng = s.eng := rfl
@[simp] theorem State.modArb_mx (k : Nat) (f : Arb → Arb) : (s.modArb k f).mx = s.mx := rfl
@[simp] theorem State.modArb_vx (k : Nat) (f : Arb → Arb) : (s.modArb k f).vx = s.vx := rfl
@[simp] theorem State.modArb_ls (k : Nat) (f : Arb → Arb) : (s.modArb k f).ls = s.ls := rfl
@[simp] theorem State.modArb_ks (k : Nat) (f : Arb → Arb) : (s.modArb k f).ks = s.ks := rfl
@[simp] theorem State.modArb_bk (k : Nat) (f : Arb → Arb) : (s.modArb k f).bk = s.bk := rfl
@[simp] theorem State.modArb_rt (k : Nat) (f : Arb → Arb) : (s.modArb k f).rt = s.rt := rfl
@[simp] theorem State.modArb_sdir (k : Nat) (f : Arb → Arb) : (s.modArb k f).sdir = s.sdir := rfl
@[simp] theorem State.modArb_lane (k : Nat) (f : Arb → Arb) : (s.modArb k f).lane = s.lane := rfl
@[simp] theorem State.modArb_xfer (k : Nat) (f : Arb → Arb) : (s.modArb k f).xfer = s.xfer := rfl
@[simp] theorem State.modArb_chan (k : Nat) (f : Arb → Arb) : (s.modArb k f).chan = s.chan := rfl
@[simp] theorem State.modArb_comp (k : Nat) (f : Arb → Arb) : (s.modArb k f).comp = s.comp := rfl
@[simp] theorem State.modArb_edges (k : Nat) (f : Arb → Arb) : (s.modArb k f).edges = s.edges := rfl
@[simp] theorem State.modArb_oldEdges (k : Nat) (f : Arb → Arb) : (s.modArb k f).oldEdges = s.oldEdges := rfl
@[simp] theorem State.modArb_arb (k : Nat) (f : Arb → Arb) : (s.modArb k f).arb = mmod s.arb k f := rfl
@[simp] theorem State.modArb_dom (k : Nat) (f : Arb → Arb) : (s.modArb k f).dom = s.dom := rfl
@[simp] theorem State.modArb_sch (k : Nat) (f : Arb → Arb) : (s.modArb k f).sch = s.sch := rfl
@[simp] theorem State.modArb_half (k : Nat) (f : Arb → Arb) : (s.modArb k f).half = s.half := rfl
@[simp] theorem State.modArb_slotA (k : Nat) (f : Arb → Arb) : (s.modArb k f).slotA = s.slotA := rfl
@[simp] theorem State.modArb_slotB (k : Nat) (f : Arb → Arb) : (s.modArb k f).slotB = s.slotB := rfl
@[simp] theorem State.modArb_smapA (k : Nat) (f : Arb → Arb) : (s.modArb k f).smapA = s.smapA := rfl
@[simp] theorem State.modArb_smapB (k : Nat) (f : Arb → Arb) : (s.modArb k f).smapB = s.smapB := rfl
@[simp] theorem State.modArb_staging (k : Nat) (f : Arb → Arb) : (s.modArb k f).staging = s.staging := rfl
@[simp] theorem State.modArb_gp (k : Nat) (f : Arb → Arb) : (s.modArb k f).gp = s.gp := rfl
@[simp] theorem State.modArb_checks (k : Nat) (f : Arb → Arb) : (s.modArb k f).checks = s.checks := rfl
@[simp] theorem State.modArb_clk (k : Nat) (f : Arb → Arb) : (s.modArb k f).clk = s.clk := rfl
@[simp] theorem State.modArb_pw (k : Nat) (f : Arb → Arb) : (s.modArb k f).pw = s.pw := rfl
@[simp] theorem State.modArb_bist (k : Nat) (f : Arb → Arb) : (s.modArb k f).bist = s.bist := rfl
@[simp] theorem State.modArb_rsts (k : Nat) (f : Arb → Arb) : (s.modArb k f).rsts = s.rsts := rfl
@[simp] theorem State.modArb_boot (k : Nat) (f : Arb → Arb) : (s.modArb k f).boot = s.boot := rfl
@[simp] theorem State.modArb_sec (k : Nat) (f : Arb → Arb) : (s.modArb k f).sec = s.sec := rfl
@[simp] theorem State.modArb_pcs (k : Nat) (f : Arb → Arb) : (s.modArb k f).pcs = s.pcs := rfl
@[simp] theorem State.modArb_cn (k : Nat) (f : Arb → Arb) : (s.modArb k f).cn = s.cn := rfl
@[simp] theorem State.modArb_bc (k : Nat) (f : Arb → Arb) : (s.modArb k f).bc = s.bc := rfl
@[simp] theorem State.modArb_rdata (k : Nat) (f : Arb → Arb) : (s.modArb k f).rdata = s.rdata := rfl
@[simp] theorem State.modArb_flash (k : Nat) (f : Arb → Arb) : (s.modArb k f).flash = s.flash := rfl
@[simp] theorem State.modArb_fresh (k : Nat) (f : Arb → Arb) : (s.modArb k f).fresh = s.fresh := rfl

@[simp] theorem State.modSch_pending (k : Nat) (f : Sch → Sch) : (s.modSch k f).pending = s.pending := rfl
@[simp] theorem State.modSch_regs (k : Nat) (f : Sch → Sch) : (s.modSch k f).regs = s.regs := rfl
@[simp] theorem State.modSch_latches (k : Nat) (f : Sch → Sch) : (s.modSch k f).latches = s.latches := rfl
@[simp] theorem State.modSch_helds (k : Nat) (f : Sch → Sch) : (s.modSch k f).helds = s.helds := rfl
@[simp] theorem State.modSch_mem (k : Nat) (f : Sch → Sch) : (s.modSch k f).mem = s.mem := rfl
@[simp] theorem State.modSch_tb (k : Nat) (f : Sch → Sch) : (s.modSch k f).tb = s.tb := rfl
@[simp] theorem State.modSch_tbi (k : Nat) (f : Sch → Sch) : (s.modSch k f).tbi = s.tbi := rfl
@[simp] theorem State.modSch_wg (k : Nat) (f : Sch → Sch) : (s.modSch k f).wg = s.wg := rfl
@[simp] theorem State.modSch_nc (k : Nat) (f : Sch → Sch) : (s.modSch k f).nc = s.nc := rfl
@[simp] theorem State.modSch_eng (k : Nat) (f : Sch → Sch) : (s.modSch k f).eng = s.eng := rfl
@[simp] theorem State.modSch_mx (k : Nat) (f : Sch → Sch) : (s.modSch k f).mx = s.mx := rfl
@[simp] theorem State.modSch_vx (k : Nat) (f : Sch → Sch) : (s.modSch k f).vx = s.vx := rfl
@[simp] theorem State.modSch_ls (k : Nat) (f : Sch → Sch) : (s.modSch k f).ls = s.ls := rfl
@[simp] theorem State.modSch_ks (k : Nat) (f : Sch → Sch) : (s.modSch k f).ks = s.ks := rfl
@[simp] theorem State.modSch_bk (k : Nat) (f : Sch → Sch) : (s.modSch k f).bk = s.bk := rfl
@[simp] theorem State.modSch_rt (k : Nat) (f : Sch → Sch) : (s.modSch k f).rt = s.rt := rfl
@[simp] theorem State.modSch_sdir (k : Nat) (f : Sch → Sch) : (s.modSch k f).sdir = s.sdir := rfl
@[simp] theorem State.modSch_lane (k : Nat) (f : Sch → Sch) : (s.modSch k f).lane = s.lane := rfl
@[simp] theorem State.modSch_xfer (k : Nat) (f : Sch → Sch) : (s.modSch k f).xfer = s.xfer := rfl
@[simp] theorem State.modSch_chan (k : Nat) (f : Sch → Sch) : (s.modSch k f).chan = s.chan := rfl
@[simp] theorem State.modSch_comp (k : Nat) (f : Sch → Sch) : (s.modSch k f).comp = s.comp := rfl
@[simp] theorem State.modSch_edges (k : Nat) (f : Sch → Sch) : (s.modSch k f).edges = s.edges := rfl
@[simp] theorem State.modSch_oldEdges (k : Nat) (f : Sch → Sch) : (s.modSch k f).oldEdges = s.oldEdges := rfl
@[simp] theorem State.modSch_arb (k : Nat) (f : Sch → Sch) : (s.modSch k f).arb = s.arb := rfl
@[simp] theorem State.modSch_dom (k : Nat) (f : Sch → Sch) : (s.modSch k f).dom = s.dom := rfl
@[simp] theorem State.modSch_sch (k : Nat) (f : Sch → Sch) : (s.modSch k f).sch = mmod s.sch k f := rfl
@[simp] theorem State.modSch_half (k : Nat) (f : Sch → Sch) : (s.modSch k f).half = s.half := rfl
@[simp] theorem State.modSch_slotA (k : Nat) (f : Sch → Sch) : (s.modSch k f).slotA = s.slotA := rfl
@[simp] theorem State.modSch_slotB (k : Nat) (f : Sch → Sch) : (s.modSch k f).slotB = s.slotB := rfl
@[simp] theorem State.modSch_smapA (k : Nat) (f : Sch → Sch) : (s.modSch k f).smapA = s.smapA := rfl
@[simp] theorem State.modSch_smapB (k : Nat) (f : Sch → Sch) : (s.modSch k f).smapB = s.smapB := rfl
@[simp] theorem State.modSch_staging (k : Nat) (f : Sch → Sch) : (s.modSch k f).staging = s.staging := rfl
@[simp] theorem State.modSch_gp (k : Nat) (f : Sch → Sch) : (s.modSch k f).gp = s.gp := rfl
@[simp] theorem State.modSch_checks (k : Nat) (f : Sch → Sch) : (s.modSch k f).checks = s.checks := rfl
@[simp] theorem State.modSch_clk (k : Nat) (f : Sch → Sch) : (s.modSch k f).clk = s.clk := rfl
@[simp] theorem State.modSch_pw (k : Nat) (f : Sch → Sch) : (s.modSch k f).pw = s.pw := rfl
@[simp] theorem State.modSch_bist (k : Nat) (f : Sch → Sch) : (s.modSch k f).bist = s.bist := rfl
@[simp] theorem State.modSch_rsts (k : Nat) (f : Sch → Sch) : (s.modSch k f).rsts = s.rsts := rfl
@[simp] theorem State.modSch_boot (k : Nat) (f : Sch → Sch) : (s.modSch k f).boot = s.boot := rfl
@[simp] theorem State.modSch_sec (k : Nat) (f : Sch → Sch) : (s.modSch k f).sec = s.sec := rfl
@[simp] theorem State.modSch_pcs (k : Nat) (f : Sch → Sch) : (s.modSch k f).pcs = s.pcs := rfl
@[simp] theorem State.modSch_cn (k : Nat) (f : Sch → Sch) : (s.modSch k f).cn = s.cn := rfl
@[simp] theorem State.modSch_bc (k : Nat) (f : Sch → Sch) : (s.modSch k f).bc = s.bc := rfl
@[simp] theorem State.modSch_rdata (k : Nat) (f : Sch → Sch) : (s.modSch k f).rdata = s.rdata := rfl
@[simp] theorem State.modSch_flash (k : Nat) (f : Sch → Sch) : (s.modSch k f).flash = s.flash := rfl
@[simp] theorem State.modSch_fresh (k : Nat) (f : Sch → Sch) : (s.modSch k f).fresh = s.fresh := rfl

@[simp] theorem State.modHf_pending (k : Nat) (f : Hf → Hf) : (s.modHf k f).pending = s.pending := rfl
@[simp] theorem State.modHf_regs (k : Nat) (f : Hf → Hf) : (s.modHf k f).regs = s.regs := rfl
@[simp] theorem State.modHf_latches (k : Nat) (f : Hf → Hf) : (s.modHf k f).latches = s.latches := rfl
@[simp] theorem State.modHf_helds (k : Nat) (f : Hf → Hf) : (s.modHf k f).helds = s.helds := rfl
@[simp] theorem State.modHf_mem (k : Nat) (f : Hf → Hf) : (s.modHf k f).mem = s.mem := rfl
@[simp] theorem State.modHf_tb (k : Nat) (f : Hf → Hf) : (s.modHf k f).tb = s.tb := rfl
@[simp] theorem State.modHf_tbi (k : Nat) (f : Hf → Hf) : (s.modHf k f).tbi = s.tbi := rfl
@[simp] theorem State.modHf_wg (k : Nat) (f : Hf → Hf) : (s.modHf k f).wg = s.wg := rfl
@[simp] theorem State.modHf_nc (k : Nat) (f : Hf → Hf) : (s.modHf k f).nc = s.nc := rfl
@[simp] theorem State.modHf_eng (k : Nat) (f : Hf → Hf) : (s.modHf k f).eng = s.eng := rfl
@[simp] theorem State.modHf_mx (k : Nat) (f : Hf → Hf) : (s.modHf k f).mx = s.mx := rfl
@[simp] theorem State.modHf_vx (k : Nat) (f : Hf → Hf) : (s.modHf k f).vx = s.vx := rfl
@[simp] theorem State.modHf_ls (k : Nat) (f : Hf → Hf) : (s.modHf k f).ls = s.ls := rfl
@[simp] theorem State.modHf_ks (k : Nat) (f : Hf → Hf) : (s.modHf k f).ks = s.ks := rfl
@[simp] theorem State.modHf_bk (k : Nat) (f : Hf → Hf) : (s.modHf k f).bk = s.bk := rfl
@[simp] theorem State.modHf_rt (k : Nat) (f : Hf → Hf) : (s.modHf k f).rt = s.rt := rfl
@[simp] theorem State.modHf_sdir (k : Nat) (f : Hf → Hf) : (s.modHf k f).sdir = s.sdir := rfl
@[simp] theorem State.modHf_lane (k : Nat) (f : Hf → Hf) : (s.modHf k f).lane = s.lane := rfl
@[simp] theorem State.modHf_xfer (k : Nat) (f : Hf → Hf) : (s.modHf k f).xfer = s.xfer := rfl
@[simp] theorem State.modHf_chan (k : Nat) (f : Hf → Hf) : (s.modHf k f).chan = s.chan := rfl
@[simp] theorem State.modHf_comp (k : Nat) (f : Hf → Hf) : (s.modHf k f).comp = s.comp := rfl
@[simp] theorem State.modHf_edges (k : Nat) (f : Hf → Hf) : (s.modHf k f).edges = s.edges := rfl
@[simp] theorem State.modHf_oldEdges (k : Nat) (f : Hf → Hf) : (s.modHf k f).oldEdges = s.oldEdges := rfl
@[simp] theorem State.modHf_arb (k : Nat) (f : Hf → Hf) : (s.modHf k f).arb = s.arb := rfl
@[simp] theorem State.modHf_dom (k : Nat) (f : Hf → Hf) : (s.modHf k f).dom = s.dom := rfl
@[simp] theorem State.modHf_sch (k : Nat) (f : Hf → Hf) : (s.modHf k f).sch = s.sch := rfl
@[simp] theorem State.modHf_half (k : Nat) (f : Hf → Hf) : (s.modHf k f).half = mmod s.half k f := rfl
@[simp] theorem State.modHf_slotA (k : Nat) (f : Hf → Hf) : (s.modHf k f).slotA = s.slotA := rfl
@[simp] theorem State.modHf_slotB (k : Nat) (f : Hf → Hf) : (s.modHf k f).slotB = s.slotB := rfl
@[simp] theorem State.modHf_smapA (k : Nat) (f : Hf → Hf) : (s.modHf k f).smapA = s.smapA := rfl
@[simp] theorem State.modHf_smapB (k : Nat) (f : Hf → Hf) : (s.modHf k f).smapB = s.smapB := rfl
@[simp] theorem State.modHf_staging (k : Nat) (f : Hf → Hf) : (s.modHf k f).staging = s.staging := rfl
@[simp] theorem State.modHf_gp (k : Nat) (f : Hf → Hf) : (s.modHf k f).gp = s.gp := rfl
@[simp] theorem State.modHf_checks (k : Nat) (f : Hf → Hf) : (s.modHf k f).checks = s.checks := rfl
@[simp] theorem State.modHf_clk (k : Nat) (f : Hf → Hf) : (s.modHf k f).clk = s.clk := rfl
@[simp] theorem State.modHf_pw (k : Nat) (f : Hf → Hf) : (s.modHf k f).pw = s.pw := rfl
@[simp] theorem State.modHf_bist (k : Nat) (f : Hf → Hf) : (s.modHf k f).bist = s.bist := rfl
@[simp] theorem State.modHf_rsts (k : Nat) (f : Hf → Hf) : (s.modHf k f).rsts = s.rsts := rfl
@[simp] theorem State.modHf_boot (k : Nat) (f : Hf → Hf) : (s.modHf k f).boot = s.boot := rfl
@[simp] theorem State.modHf_sec (k : Nat) (f : Hf → Hf) : (s.modHf k f).sec = s.sec := rfl
@[simp] theorem State.modHf_pcs (k : Nat) (f : Hf → Hf) : (s.modHf k f).pcs = s.pcs := rfl
@[simp] theorem State.modHf_cn (k : Nat) (f : Hf → Hf) : (s.modHf k f).cn = s.cn := rfl
@[simp] theorem State.modHf_bc (k : Nat) (f : Hf → Hf) : (s.modHf k f).bc = s.bc := rfl
@[simp] theorem State.modHf_rdata (k : Nat) (f : Hf → Hf) : (s.modHf k f).rdata = s.rdata := rfl
@[simp] theorem State.modHf_flash (k : Nat) (f : Hf → Hf) : (s.modHf k f).flash = s.flash := rfl
@[simp] theorem State.modHf_fresh (k : Nat) (f : Hf → Hf) : (s.modHf k f).fresh = s.fresh := rfl

@[simp] theorem State.modDom_pending (k : Nat) (f : Dom → Dom) : (s.modDom k f).pending = s.pending := rfl
@[simp] theorem State.modDom_regs (k : Nat) (f : Dom → Dom) : (s.modDom k f).regs = s.regs := rfl
@[simp] theorem State.modDom_latches (k : Nat) (f : Dom → Dom) : (s.modDom k f).latches = s.latches := rfl
@[simp] theorem State.modDom_helds (k : Nat) (f : Dom → Dom) : (s.modDom k f).helds = s.helds := rfl
@[simp] theorem State.modDom_mem (k : Nat) (f : Dom → Dom) : (s.modDom k f).mem = s.mem := rfl
@[simp] theorem State.modDom_tb (k : Nat) (f : Dom → Dom) : (s.modDom k f).tb = s.tb := rfl
@[simp] theorem State.modDom_tbi (k : Nat) (f : Dom → Dom) : (s.modDom k f).tbi = s.tbi := rfl
@[simp] theorem State.modDom_wg (k : Nat) (f : Dom → Dom) : (s.modDom k f).wg = s.wg := rfl
@[simp] theorem State.modDom_nc (k : Nat) (f : Dom → Dom) : (s.modDom k f).nc = s.nc := rfl
@[simp] theorem State.modDom_eng (k : Nat) (f : Dom → Dom) : (s.modDom k f).eng = s.eng := rfl
@[simp] theorem State.modDom_mx (k : Nat) (f : Dom → Dom) : (s.modDom k f).mx = s.mx := rfl
@[simp] theorem State.modDom_vx (k : Nat) (f : Dom → Dom) : (s.modDom k f).vx = s.vx := rfl
@[simp] theorem State.modDom_ls (k : Nat) (f : Dom → Dom) : (s.modDom k f).ls = s.ls := rfl
@[simp] theorem State.modDom_ks (k : Nat) (f : Dom → Dom) : (s.modDom k f).ks = s.ks := rfl
@[simp] theorem State.modDom_bk (k : Nat) (f : Dom → Dom) : (s.modDom k f).bk = s.bk := rfl
@[simp] theorem State.modDom_rt (k : Nat) (f : Dom → Dom) : (s.modDom k f).rt = s.rt := rfl
@[simp] theorem State.modDom_sdir (k : Nat) (f : Dom → Dom) : (s.modDom k f).sdir = s.sdir := rfl
@[simp] theorem State.modDom_lane (k : Nat) (f : Dom → Dom) : (s.modDom k f).lane = s.lane := rfl
@[simp] theorem State.modDom_xfer (k : Nat) (f : Dom → Dom) : (s.modDom k f).xfer = s.xfer := rfl
@[simp] theorem State.modDom_chan (k : Nat) (f : Dom → Dom) : (s.modDom k f).chan = s.chan := rfl
@[simp] theorem State.modDom_comp (k : Nat) (f : Dom → Dom) : (s.modDom k f).comp = s.comp := rfl
@[simp] theorem State.modDom_edges (k : Nat) (f : Dom → Dom) : (s.modDom k f).edges = s.edges := rfl
@[simp] theorem State.modDom_oldEdges (k : Nat) (f : Dom → Dom) : (s.modDom k f).oldEdges = s.oldEdges := rfl
@[simp] theorem State.modDom_arb (k : Nat) (f : Dom → Dom) : (s.modDom k f).arb = s.arb := rfl
@[simp] theorem State.modDom_dom (k : Nat) (f : Dom → Dom) : (s.modDom k f).dom = mmod s.dom k f := rfl
@[simp] theorem State.modDom_sch (k : Nat) (f : Dom → Dom) : (s.modDom k f).sch = s.sch := rfl
@[simp] theorem State.modDom_half (k : Nat) (f : Dom → Dom) : (s.modDom k f).half = s.half := rfl
@[simp] theorem State.modDom_slotA (k : Nat) (f : Dom → Dom) : (s.modDom k f).slotA = s.slotA := rfl
@[simp] theorem State.modDom_slotB (k : Nat) (f : Dom → Dom) : (s.modDom k f).slotB = s.slotB := rfl
@[simp] theorem State.modDom_smapA (k : Nat) (f : Dom → Dom) : (s.modDom k f).smapA = s.smapA := rfl
@[simp] theorem State.modDom_smapB (k : Nat) (f : Dom → Dom) : (s.modDom k f).smapB = s.smapB := rfl
@[simp] theorem State.modDom_staging (k : Nat) (f : Dom → Dom) : (s.modDom k f).staging = s.staging := rfl
@[simp] theorem State.modDom_gp (k : Nat) (f : Dom → Dom) : (s.modDom k f).gp = s.gp := rfl
@[simp] theorem State.modDom_checks (k : Nat) (f : Dom → Dom) : (s.modDom k f).checks = s.checks := rfl
@[simp] theorem State.modDom_clk (k : Nat) (f : Dom → Dom) : (s.modDom k f).clk = s.clk := rfl
@[simp] theorem State.modDom_pw (k : Nat) (f : Dom → Dom) : (s.modDom k f).pw = s.pw := rfl
@[simp] theorem State.modDom_bist (k : Nat) (f : Dom → Dom) : (s.modDom k f).bist = s.bist := rfl
@[simp] theorem State.modDom_rsts (k : Nat) (f : Dom → Dom) : (s.modDom k f).rsts = s.rsts := rfl
@[simp] theorem State.modDom_boot (k : Nat) (f : Dom → Dom) : (s.modDom k f).boot = s.boot := rfl
@[simp] theorem State.modDom_sec (k : Nat) (f : Dom → Dom) : (s.modDom k f).sec = s.sec := rfl
@[simp] theorem State.modDom_pcs (k : Nat) (f : Dom → Dom) : (s.modDom k f).pcs = s.pcs := rfl
@[simp] theorem State.modDom_cn (k : Nat) (f : Dom → Dom) : (s.modDom k f).cn = s.cn := rfl
@[simp] theorem State.modDom_bc (k : Nat) (f : Dom → Dom) : (s.modDom k f).bc = s.bc := rfl
@[simp] theorem State.modDom_rdata (k : Nat) (f : Dom → Dom) : (s.modDom k f).rdata = s.rdata := rfl
@[simp] theorem State.modDom_flash (k : Nat) (f : Dom → Dom) : (s.modDom k f).flash = s.flash := rfl
@[simp] theorem State.modDom_fresh (k : Nat) (f : Dom → Dom) : (s.modDom k f).fresh = s.fresh := rfl

@[simp] theorem State.modClk_pending (k : Nat) (f : Clk → Clk) : (s.modClk k f).pending = s.pending := rfl
@[simp] theorem State.modClk_regs (k : Nat) (f : Clk → Clk) : (s.modClk k f).regs = s.regs := rfl
@[simp] theorem State.modClk_latches (k : Nat) (f : Clk → Clk) : (s.modClk k f).latches = s.latches := rfl
@[simp] theorem State.modClk_helds (k : Nat) (f : Clk → Clk) : (s.modClk k f).helds = s.helds := rfl
@[simp] theorem State.modClk_mem (k : Nat) (f : Clk → Clk) : (s.modClk k f).mem = s.mem := rfl
@[simp] theorem State.modClk_tb (k : Nat) (f : Clk → Clk) : (s.modClk k f).tb = s.tb := rfl
@[simp] theorem State.modClk_tbi (k : Nat) (f : Clk → Clk) : (s.modClk k f).tbi = s.tbi := rfl
@[simp] theorem State.modClk_wg (k : Nat) (f : Clk → Clk) : (s.modClk k f).wg = s.wg := rfl
@[simp] theorem State.modClk_nc (k : Nat) (f : Clk → Clk) : (s.modClk k f).nc = s.nc := rfl
@[simp] theorem State.modClk_eng (k : Nat) (f : Clk → Clk) : (s.modClk k f).eng = s.eng := rfl
@[simp] theorem State.modClk_mx (k : Nat) (f : Clk → Clk) : (s.modClk k f).mx = s.mx := rfl
@[simp] theorem State.modClk_vx (k : Nat) (f : Clk → Clk) : (s.modClk k f).vx = s.vx := rfl
@[simp] theorem State.modClk_ls (k : Nat) (f : Clk → Clk) : (s.modClk k f).ls = s.ls := rfl
@[simp] theorem State.modClk_ks (k : Nat) (f : Clk → Clk) : (s.modClk k f).ks = s.ks := rfl
@[simp] theorem State.modClk_bk (k : Nat) (f : Clk → Clk) : (s.modClk k f).bk = s.bk := rfl
@[simp] theorem State.modClk_rt (k : Nat) (f : Clk → Clk) : (s.modClk k f).rt = s.rt := rfl
@[simp] theorem State.modClk_sdir (k : Nat) (f : Clk → Clk) : (s.modClk k f).sdir = s.sdir := rfl
@[simp] theorem State.modClk_lane (k : Nat) (f : Clk → Clk) : (s.modClk k f).lane = s.lane := rfl
@[simp] theorem State.modClk_xfer (k : Nat) (f : Clk → Clk) : (s.modClk k f).xfer = s.xfer := rfl
@[simp] theorem State.modClk_chan (k : Nat) (f : Clk → Clk) : (s.modClk k f).chan = s.chan := rfl
@[simp] theorem State.modClk_comp (k : Nat) (f : Clk → Clk) : (s.modClk k f).comp = s.comp := rfl
@[simp] theorem State.modClk_edges (k : Nat) (f : Clk → Clk) : (s.modClk k f).edges = s.edges := rfl
@[simp] theorem State.modClk_oldEdges (k : Nat) (f : Clk → Clk) : (s.modClk k f).oldEdges = s.oldEdges := rfl
@[simp] theorem State.modClk_arb (k : Nat) (f : Clk → Clk) : (s.modClk k f).arb = s.arb := rfl
@[simp] theorem State.modClk_dom (k : Nat) (f : Clk → Clk) : (s.modClk k f).dom = s.dom := rfl
@[simp] theorem State.modClk_sch (k : Nat) (f : Clk → Clk) : (s.modClk k f).sch = s.sch := rfl
@[simp] theorem State.modClk_half (k : Nat) (f : Clk → Clk) : (s.modClk k f).half = s.half := rfl
@[simp] theorem State.modClk_slotA (k : Nat) (f : Clk → Clk) : (s.modClk k f).slotA = s.slotA := rfl
@[simp] theorem State.modClk_slotB (k : Nat) (f : Clk → Clk) : (s.modClk k f).slotB = s.slotB := rfl
@[simp] theorem State.modClk_smapA (k : Nat) (f : Clk → Clk) : (s.modClk k f).smapA = s.smapA := rfl
@[simp] theorem State.modClk_smapB (k : Nat) (f : Clk → Clk) : (s.modClk k f).smapB = s.smapB := rfl
@[simp] theorem State.modClk_staging (k : Nat) (f : Clk → Clk) : (s.modClk k f).staging = s.staging := rfl
@[simp] theorem State.modClk_gp (k : Nat) (f : Clk → Clk) : (s.modClk k f).gp = s.gp := rfl
@[simp] theorem State.modClk_checks (k : Nat) (f : Clk → Clk) : (s.modClk k f).checks = s.checks := rfl
@[simp] theorem State.modClk_clk (k : Nat) (f : Clk → Clk) : (s.modClk k f).clk = mmod s.clk k f := rfl
@[simp] theorem State.modClk_pw (k : Nat) (f : Clk → Clk) : (s.modClk k f).pw = s.pw := rfl
@[simp] theorem State.modClk_bist (k : Nat) (f : Clk → Clk) : (s.modClk k f).bist = s.bist := rfl
@[simp] theorem State.modClk_rsts (k : Nat) (f : Clk → Clk) : (s.modClk k f).rsts = s.rsts := rfl
@[simp] theorem State.modClk_boot (k : Nat) (f : Clk → Clk) : (s.modClk k f).boot = s.boot := rfl
@[simp] theorem State.modClk_sec (k : Nat) (f : Clk → Clk) : (s.modClk k f).sec = s.sec := rfl
@[simp] theorem State.modClk_pcs (k : Nat) (f : Clk → Clk) : (s.modClk k f).pcs = s.pcs := rfl
@[simp] theorem State.modClk_cn (k : Nat) (f : Clk → Clk) : (s.modClk k f).cn = s.cn := rfl
@[simp] theorem State.modClk_bc (k : Nat) (f : Clk → Clk) : (s.modClk k f).bc = s.bc := rfl
@[simp] theorem State.modClk_rdata (k : Nat) (f : Clk → Clk) : (s.modClk k f).rdata = s.rdata := rfl
@[simp] theorem State.modClk_flash (k : Nat) (f : Clk → Clk) : (s.modClk k f).flash = s.flash := rfl
@[simp] theorem State.modClk_fresh (k : Nat) (f : Clk → Clk) : (s.modClk k f).fresh = s.fresh := rfl

@[simp] theorem State.modBist_pending (c : Nat) (f : Bist → Bist) : (s.modBist c f).pending = s.pending := rfl
@[simp] theorem State.modBist_regs (c : Nat) (f : Bist → Bist) : (s.modBist c f).regs = s.regs := rfl
@[simp] theorem State.modBist_latches (c : Nat) (f : Bist → Bist) : (s.modBist c f).latches = s.latches := rfl
@[simp] theorem State.modBist_helds (c : Nat) (f : Bist → Bist) : (s.modBist c f).helds = s.helds := rfl
@[simp] theorem State.modBist_mem (c : Nat) (f : Bist → Bist) : (s.modBist c f).mem = s.mem := rfl
@[simp] theorem State.modBist_tb (c : Nat) (f : Bist → Bist) : (s.modBist c f).tb = s.tb := rfl
@[simp] theorem State.modBist_tbi (c : Nat) (f : Bist → Bist) : (s.modBist c f).tbi = s.tbi := rfl
@[simp] theorem State.modBist_wg (c : Nat) (f : Bist → Bist) : (s.modBist c f).wg = s.wg := rfl
@[simp] theorem State.modBist_nc (c : Nat) (f : Bist → Bist) : (s.modBist c f).nc = s.nc := rfl
@[simp] theorem State.modBist_eng (c : Nat) (f : Bist → Bist) : (s.modBist c f).eng = s.eng := rfl
@[simp] theorem State.modBist_mx (c : Nat) (f : Bist → Bist) : (s.modBist c f).mx = s.mx := rfl
@[simp] theorem State.modBist_vx (c : Nat) (f : Bist → Bist) : (s.modBist c f).vx = s.vx := rfl
@[simp] theorem State.modBist_ls (c : Nat) (f : Bist → Bist) : (s.modBist c f).ls = s.ls := rfl
@[simp] theorem State.modBist_ks (c : Nat) (f : Bist → Bist) : (s.modBist c f).ks = s.ks := rfl
@[simp] theorem State.modBist_bk (c : Nat) (f : Bist → Bist) : (s.modBist c f).bk = s.bk := rfl
@[simp] theorem State.modBist_rt (c : Nat) (f : Bist → Bist) : (s.modBist c f).rt = s.rt := rfl
@[simp] theorem State.modBist_sdir (c : Nat) (f : Bist → Bist) : (s.modBist c f).sdir = s.sdir := rfl
@[simp] theorem State.modBist_lane (c : Nat) (f : Bist → Bist) : (s.modBist c f).lane = s.lane := rfl
@[simp] theorem State.modBist_xfer (c : Nat) (f : Bist → Bist) : (s.modBist c f).xfer = s.xfer := rfl
@[simp] theorem State.modBist_chan (c : Nat) (f : Bist → Bist) : (s.modBist c f).chan = s.chan := rfl
@[simp] theorem State.modBist_comp (c : Nat) (f : Bist → Bist) : (s.modBist c f).comp = s.comp := rfl
@[simp] theorem State.modBist_edges (c : Nat) (f : Bist → Bist) : (s.modBist c f).edges = s.edges := rfl
@[simp] theorem State.modBist_oldEdges (c : Nat) (f : Bist → Bist) : (s.modBist c f).oldEdges = s.oldEdges := rfl
@[simp] theorem State.modBist_arb (c : Nat) (f : Bist → Bist) : (s.modBist c f).arb = s.arb := rfl
@[simp] theorem State.modBist_dom (c : Nat) (f : Bist → Bist) : (s.modBist c f).dom = s.dom := rfl
@[simp] theorem State.modBist_sch (c : Nat) (f : Bist → Bist) : (s.modBist c f).sch = s.sch := rfl
@[simp] theorem State.modBist_half (c : Nat) (f : Bist → Bist) : (s.modBist c f).half = s.half := rfl
@[simp] theorem State.modBist_slotA (c : Nat) (f : Bist → Bist) : (s.modBist c f).slotA = s.slotA := rfl
@[simp] theorem State.modBist_slotB (c : Nat) (f : Bist → Bist) : (s.modBist c f).slotB = s.slotB := rfl
@[simp] theorem State.modBist_smapA (c : Nat) (f : Bist → Bist) : (s.modBist c f).smapA = s.smapA := rfl
@[simp] theorem State.modBist_smapB (c : Nat) (f : Bist → Bist) : (s.modBist c f).smapB = s.smapB := rfl
@[simp] theorem State.modBist_staging (c : Nat) (f : Bist → Bist) : (s.modBist c f).staging = s.staging := rfl
@[simp] theorem State.modBist_gp (c : Nat) (f : Bist → Bist) : (s.modBist c f).gp = s.gp := rfl
@[simp] theorem State.modBist_checks (c : Nat) (f : Bist → Bist) : (s.modBist c f).checks = s.checks := rfl
@[simp] theorem State.modBist_clk (c : Nat) (f : Bist → Bist) : (s.modBist c f).clk = s.clk := rfl
@[simp] theorem State.modBist_pw (c : Nat) (f : Bist → Bist) : (s.modBist c f).pw = s.pw := rfl
@[simp] theorem State.modBist_bist (c : Nat) (f : Bist → Bist) : (s.modBist c f).bist = mmod s.bist c f := rfl
@[simp] theorem State.modBist_rsts (c : Nat) (f : Bist → Bist) : (s.modBist c f).rsts = s.rsts := rfl
@[simp] theorem State.modBist_boot (c : Nat) (f : Bist → Bist) : (s.modBist c f).boot = s.boot := rfl
@[simp] theorem State.modBist_sec (c : Nat) (f : Bist → Bist) : (s.modBist c f).sec = s.sec := rfl
@[simp] theorem State.modBist_pcs (c : Nat) (f : Bist → Bist) : (s.modBist c f).pcs = s.pcs := rfl
@[simp] theorem State.modBist_cn (c : Nat) (f : Bist → Bist) : (s.modBist c f).cn = s.cn := rfl
@[simp] theorem State.modBist_bc (c : Nat) (f : Bist → Bist) : (s.modBist c f).bc = s.bc := rfl
@[simp] theorem State.modBist_rdata (c : Nat) (f : Bist → Bist) : (s.modBist c f).rdata = s.rdata := rfl
@[simp] theorem State.modBist_flash (c : Nat) (f : Bist → Bist) : (s.modBist c f).flash = s.flash := rfl
@[simp] theorem State.modBist_fresh (c : Nat) (f : Bist → Bist) : (s.modBist c f).fresh = s.fresh := rfl

@[simp] theorem State.modPw_pending (f : Pw → Pw) : (s.modPw f).pending = s.pending := rfl
@[simp] theorem State.modPw_regs (f : Pw → Pw) : (s.modPw f).regs = s.regs := rfl
@[simp] theorem State.modPw_latches (f : Pw → Pw) : (s.modPw f).latches = s.latches := rfl
@[simp] theorem State.modPw_helds (f : Pw → Pw) : (s.modPw f).helds = s.helds := rfl
@[simp] theorem State.modPw_mem (f : Pw → Pw) : (s.modPw f).mem = s.mem := rfl
@[simp] theorem State.modPw_tb (f : Pw → Pw) : (s.modPw f).tb = s.tb := rfl
@[simp] theorem State.modPw_tbi (f : Pw → Pw) : (s.modPw f).tbi = s.tbi := rfl
@[simp] theorem State.modPw_wg (f : Pw → Pw) : (s.modPw f).wg = s.wg := rfl
@[simp] theorem State.modPw_nc (f : Pw → Pw) : (s.modPw f).nc = s.nc := rfl
@[simp] theorem State.modPw_eng (f : Pw → Pw) : (s.modPw f).eng = s.eng := rfl
@[simp] theorem State.modPw_mx (f : Pw → Pw) : (s.modPw f).mx = s.mx := rfl
@[simp] theorem State.modPw_vx (f : Pw → Pw) : (s.modPw f).vx = s.vx := rfl
@[simp] theorem State.modPw_ls (f : Pw → Pw) : (s.modPw f).ls = s.ls := rfl
@[simp] theorem State.modPw_ks (f : Pw → Pw) : (s.modPw f).ks = s.ks := rfl
@[simp] theorem State.modPw_bk (f : Pw → Pw) : (s.modPw f).bk = s.bk := rfl
@[simp] theorem State.modPw_rt (f : Pw → Pw) : (s.modPw f).rt = s.rt := rfl
@[simp] theorem State.modPw_sdir (f : Pw → Pw) : (s.modPw f).sdir = s.sdir := rfl
@[simp] theorem State.modPw_lane (f : Pw → Pw) : (s.modPw f).lane = s.lane := rfl
@[simp] theorem State.modPw_xfer (f : Pw → Pw) : (s.modPw f).xfer = s.xfer := rfl
@[simp] theorem State.modPw_chan (f : Pw → Pw) : (s.modPw f).chan = s.chan := rfl
@[simp] theorem State.modPw_comp (f : Pw → Pw) : (s.modPw f).comp = s.comp := rfl
@[simp] theorem State.modPw_edges (f : Pw → Pw) : (s.modPw f).edges = s.edges := rfl
@[simp] theorem State.modPw_oldEdges (f : Pw → Pw) : (s.modPw f).oldEdges = s.oldEdges := rfl
@[simp] theorem State.modPw_arb (f : Pw → Pw) : (s.modPw f).arb = s.arb := rfl
@[simp] theorem State.modPw_dom (f : Pw → Pw) : (s.modPw f).dom = s.dom := rfl
@[simp] theorem State.modPw_sch (f : Pw → Pw) : (s.modPw f).sch = s.sch := rfl
@[simp] theorem State.modPw_half (f : Pw → Pw) : (s.modPw f).half = s.half := rfl
@[simp] theorem State.modPw_slotA (f : Pw → Pw) : (s.modPw f).slotA = s.slotA := rfl
@[simp] theorem State.modPw_slotB (f : Pw → Pw) : (s.modPw f).slotB = s.slotB := rfl
@[simp] theorem State.modPw_smapA (f : Pw → Pw) : (s.modPw f).smapA = s.smapA := rfl
@[simp] theorem State.modPw_smapB (f : Pw → Pw) : (s.modPw f).smapB = s.smapB := rfl
@[simp] theorem State.modPw_staging (f : Pw → Pw) : (s.modPw f).staging = s.staging := rfl
@[simp] theorem State.modPw_gp (f : Pw → Pw) : (s.modPw f).gp = s.gp := rfl
@[simp] theorem State.modPw_checks (f : Pw → Pw) : (s.modPw f).checks = s.checks := rfl
@[simp] theorem State.modPw_clk (f : Pw → Pw) : (s.modPw f).clk = s.clk := rfl
@[simp] theorem State.modPw_pw (f : Pw → Pw) : (s.modPw f).pw = f s.pw := rfl
@[simp] theorem State.modPw_bist (f : Pw → Pw) : (s.modPw f).bist = s.bist := rfl
@[simp] theorem State.modPw_rsts (f : Pw → Pw) : (s.modPw f).rsts = s.rsts := rfl
@[simp] theorem State.modPw_boot (f : Pw → Pw) : (s.modPw f).boot = s.boot := rfl
@[simp] theorem State.modPw_sec (f : Pw → Pw) : (s.modPw f).sec = s.sec := rfl
@[simp] theorem State.modPw_pcs (f : Pw → Pw) : (s.modPw f).pcs = s.pcs := rfl
@[simp] theorem State.modPw_cn (f : Pw → Pw) : (s.modPw f).cn = s.cn := rfl
@[simp] theorem State.modPw_bc (f : Pw → Pw) : (s.modPw f).bc = s.bc := rfl
@[simp] theorem State.modPw_rdata (f : Pw → Pw) : (s.modPw f).rdata = s.rdata := rfl
@[simp] theorem State.modPw_flash (f : Pw → Pw) : (s.modPw f).flash = s.flash := rfl
@[simp] theorem State.modPw_fresh (f : Pw → Pw) : (s.modPw f).fresh = s.fresh := rfl

@[simp] theorem State.modBoot_pending (f : Boot → Boot) : (s.modBoot f).pending = s.pending := rfl
@[simp] theorem State.modBoot_regs (f : Boot → Boot) : (s.modBoot f).regs = s.regs := rfl
@[simp] theorem State.modBoot_latches (f : Boot → Boot) : (s.modBoot f).latches = s.latches := rfl
@[simp] theorem State.modBoot_helds (f : Boot → Boot) : (s.modBoot f).helds = s.helds := rfl
@[simp] theorem State.modBoot_mem (f : Boot → Boot) : (s.modBoot f).mem = s.mem := rfl
@[simp] theorem State.modBoot_tb (f : Boot → Boot) : (s.modBoot f).tb = s.tb := rfl
@[simp] theorem State.modBoot_tbi (f : Boot → Boot) : (s.modBoot f).tbi = s.tbi := rfl
@[simp] theorem State.modBoot_wg (f : Boot → Boot) : (s.modBoot f).wg = s.wg := rfl
@[simp] theorem State.modBoot_nc (f : Boot → Boot) : (s.modBoot f).nc = s.nc := rfl
@[simp] theorem State.modBoot_eng (f : Boot → Boot) : (s.modBoot f).eng = s.eng := rfl
@[simp] theorem State.modBoot_mx (f : Boot → Boot) : (s.modBoot f).mx = s.mx := rfl
@[simp] theorem State.modBoot_vx (f : Boot → Boot) : (s.modBoot f).vx = s.vx := rfl
@[simp] theorem State.modBoot_ls (f : Boot → Boot) : (s.modBoot f).ls = s.ls := rfl
@[simp] theorem State.modBoot_ks (f : Boot → Boot) : (s.modBoot f).ks = s.ks := rfl
@[simp] theorem State.modBoot_bk (f : Boot → Boot) : (s.modBoot f).bk = s.bk := rfl
@[simp] theorem State.modBoot_rt (f : Boot → Boot) : (s.modBoot f).rt = s.rt := rfl
@[simp] theorem State.modBoot_sdir (f : Boot → Boot) : (s.modBoot f).sdir = s.sdir := rfl
@[simp] theorem State.modBoot_lane (f : Boot → Boot) : (s.modBoot f).lane = s.lane := rfl
@[simp] theorem State.modBoot_xfer (f : Boot → Boot) : (s.modBoot f).xfer = s.xfer := rfl
@[simp] theorem State.modBoot_chan (f : Boot → Boot) : (s.modBoot f).chan = s.chan := rfl
@[simp] theorem State.modBoot_comp (f : Boot → Boot) : (s.modBoot f).comp = s.comp := rfl
@[simp] theorem State.modBoot_edges (f : Boot → Boot) : (s.modBoot f).edges = s.edges := rfl
@[simp] theorem State.modBoot_oldEdges (f : Boot → Boot) : (s.modBoot f).oldEdges = s.oldEdges := rfl
@[simp] theorem State.modBoot_arb (f : Boot → Boot) : (s.modBoot f).arb = s.arb := rfl
@[simp] theorem State.modBoot_dom (f : Boot → Boot) : (s.modBoot f).dom = s.dom := rfl
@[simp] theorem State.modBoot_sch (f : Boot → Boot) : (s.modBoot f).sch = s.sch := rfl
@[simp] theorem State.modBoot_half (f : Boot → Boot) : (s.modBoot f).half = s.half := rfl
@[simp] theorem State.modBoot_slotA (f : Boot → Boot) : (s.modBoot f).slotA = s.slotA := rfl
@[simp] theorem State.modBoot_slotB (f : Boot → Boot) : (s.modBoot f).slotB = s.slotB := rfl
@[simp] theorem State.modBoot_smapA (f : Boot → Boot) : (s.modBoot f).smapA = s.smapA := rfl
@[simp] theorem State.modBoot_smapB (f : Boot → Boot) : (s.modBoot f).smapB = s.smapB := rfl
@[simp] theorem State.modBoot_staging (f : Boot → Boot) : (s.modBoot f).staging = s.staging := rfl
@[simp] theorem State.modBoot_gp (f : Boot → Boot) : (s.modBoot f).gp = s.gp := rfl
@[simp] theorem State.modBoot_checks (f : Boot → Boot) : (s.modBoot f).checks = s.checks := rfl
@[simp] theorem State.modBoot_clk (f : Boot → Boot) : (s.modBoot f).clk = s.clk := rfl
@[simp] theorem State.modBoot_pw (f : Boot → Boot) : (s.modBoot f).pw = s.pw := rfl
@[simp] theorem State.modBoot_bist (f : Boot → Boot) : (s.modBoot f).bist = s.bist := rfl
@[simp] theorem State.modBoot_rsts (f : Boot → Boot) : (s.modBoot f).rsts = s.rsts := rfl
@[simp] theorem State.modBoot_boot (f : Boot → Boot) : (s.modBoot f).boot = f s.boot := rfl
@[simp] theorem State.modBoot_sec (f : Boot → Boot) : (s.modBoot f).sec = s.sec := rfl
@[simp] theorem State.modBoot_pcs (f : Boot → Boot) : (s.modBoot f).pcs = s.pcs := rfl
@[simp] theorem State.modBoot_cn (f : Boot → Boot) : (s.modBoot f).cn = s.cn := rfl
@[simp] theorem State.modBoot_bc (f : Boot → Boot) : (s.modBoot f).bc = s.bc := rfl
@[simp] theorem State.modBoot_rdata (f : Boot → Boot) : (s.modBoot f).rdata = s.rdata := rfl
@[simp] theorem State.modBoot_flash (f : Boot → Boot) : (s.modBoot f).flash = s.flash := rfl
@[simp] theorem State.modBoot_fresh (f : Boot → Boot) : (s.modBoot f).fresh = s.fresh := rfl

@[simp] theorem State.modSec_pending (f : Sec → Sec) : (s.modSec f).pending = s.pending := rfl
@[simp] theorem State.modSec_regs (f : Sec → Sec) : (s.modSec f).regs = s.regs := rfl
@[simp] theorem State.modSec_latches (f : Sec → Sec) : (s.modSec f).latches = s.latches := rfl
@[simp] theorem State.modSec_helds (f : Sec → Sec) : (s.modSec f).helds = s.helds := rfl
@[simp] theorem State.modSec_mem (f : Sec → Sec) : (s.modSec f).mem = s.mem := rfl
@[simp] theorem State.modSec_tb (f : Sec → Sec) : (s.modSec f).tb = s.tb := rfl
@[simp] theorem State.modSec_tbi (f : Sec → Sec) : (s.modSec f).tbi = s.tbi := rfl
@[simp] theorem State.modSec_wg (f : Sec → Sec) : (s.modSec f).wg = s.wg := rfl
@[simp] theorem State.modSec_nc (f : Sec → Sec) : (s.modSec f).nc = s.nc := rfl
@[simp] theorem State.modSec_eng (f : Sec → Sec) : (s.modSec f).eng = s.eng := rfl
@[simp] theorem State.modSec_mx (f : Sec → Sec) : (s.modSec f).mx = s.mx := rfl
@[simp] theorem State.modSec_vx (f : Sec → Sec) : (s.modSec f).vx = s.vx := rfl
@[simp] theorem State.modSec_ls (f : Sec → Sec) : (s.modSec f).ls = s.ls := rfl
@[simp] theorem State.modSec_ks (f : Sec → Sec) : (s.modSec f).ks = s.ks := rfl
@[simp] theorem State.modSec_bk (f : Sec → Sec) : (s.modSec f).bk = s.bk := rfl
@[simp] theorem State.modSec_rt (f : Sec → Sec) : (s.modSec f).rt = s.rt := rfl
@[simp] theorem State.modSec_sdir (f : Sec → Sec) : (s.modSec f).sdir = s.sdir := rfl
@[simp] theorem State.modSec_lane (f : Sec → Sec) : (s.modSec f).lane = s.lane := rfl
@[simp] theorem State.modSec_xfer (f : Sec → Sec) : (s.modSec f).xfer = s.xfer := rfl
@[simp] theorem State.modSec_chan (f : Sec → Sec) : (s.modSec f).chan = s.chan := rfl
@[simp] theorem State.modSec_comp (f : Sec → Sec) : (s.modSec f).comp = s.comp := rfl
@[simp] theorem State.modSec_edges (f : Sec → Sec) : (s.modSec f).edges = s.edges := rfl
@[simp] theorem State.modSec_oldEdges (f : Sec → Sec) : (s.modSec f).oldEdges = s.oldEdges := rfl
@[simp] theorem State.modSec_arb (f : Sec → Sec) : (s.modSec f).arb = s.arb := rfl
@[simp] theorem State.modSec_dom (f : Sec → Sec) : (s.modSec f).dom = s.dom := rfl
@[simp] theorem State.modSec_sch (f : Sec → Sec) : (s.modSec f).sch = s.sch := rfl
@[simp] theorem State.modSec_half (f : Sec → Sec) : (s.modSec f).half = s.half := rfl
@[simp] theorem State.modSec_slotA (f : Sec → Sec) : (s.modSec f).slotA = s.slotA := rfl
@[simp] theorem State.modSec_slotB (f : Sec → Sec) : (s.modSec f).slotB = s.slotB := rfl
@[simp] theorem State.modSec_smapA (f : Sec → Sec) : (s.modSec f).smapA = s.smapA := rfl
@[simp] theorem State.modSec_smapB (f : Sec → Sec) : (s.modSec f).smapB = s.smapB := rfl
@[simp] theorem State.modSec_staging (f : Sec → Sec) : (s.modSec f).staging = s.staging := rfl
@[simp] theorem State.modSec_gp (f : Sec → Sec) : (s.modSec f).gp = s.gp := rfl
@[simp] theorem State.modSec_checks (f : Sec → Sec) : (s.modSec f).checks = s.checks := rfl
@[simp] theorem State.modSec_clk (f : Sec → Sec) : (s.modSec f).clk = s.clk := rfl
@[simp] theorem State.modSec_pw (f : Sec → Sec) : (s.modSec f).pw = s.pw := rfl
@[simp] theorem State.modSec_bist (f : Sec → Sec) : (s.modSec f).bist = s.bist := rfl
@[simp] theorem State.modSec_rsts (f : Sec → Sec) : (s.modSec f).rsts = s.rsts := rfl
@[simp] theorem State.modSec_boot (f : Sec → Sec) : (s.modSec f).boot = s.boot := rfl
@[simp] theorem State.modSec_sec (f : Sec → Sec) : (s.modSec f).sec = f s.sec := rfl
@[simp] theorem State.modSec_pcs (f : Sec → Sec) : (s.modSec f).pcs = s.pcs := rfl
@[simp] theorem State.modSec_cn (f : Sec → Sec) : (s.modSec f).cn = s.cn := rfl
@[simp] theorem State.modSec_bc (f : Sec → Sec) : (s.modSec f).bc = s.bc := rfl
@[simp] theorem State.modSec_rdata (f : Sec → Sec) : (s.modSec f).rdata = s.rdata := rfl
@[simp] theorem State.modSec_flash (f : Sec → Sec) : (s.modSec f).flash = s.flash := rfl
@[simp] theorem State.modSec_fresh (f : Sec → Sec) : (s.modSec f).fresh = s.fresh := rfl

@[simp] theorem State.modCn_pending (f : Cnet → Cnet) : (s.modCn f).pending = s.pending := rfl
@[simp] theorem State.modCn_regs (f : Cnet → Cnet) : (s.modCn f).regs = s.regs := rfl
@[simp] theorem State.modCn_latches (f : Cnet → Cnet) : (s.modCn f).latches = s.latches := rfl
@[simp] theorem State.modCn_helds (f : Cnet → Cnet) : (s.modCn f).helds = s.helds := rfl
@[simp] theorem State.modCn_mem (f : Cnet → Cnet) : (s.modCn f).mem = s.mem := rfl
@[simp] theorem State.modCn_tb (f : Cnet → Cnet) : (s.modCn f).tb = s.tb := rfl
@[simp] theorem State.modCn_tbi (f : Cnet → Cnet) : (s.modCn f).tbi = s.tbi := rfl
@[simp] theorem State.modCn_wg (f : Cnet → Cnet) : (s.modCn f).wg = s.wg := rfl
@[simp] theorem State.modCn_nc (f : Cnet → Cnet) : (s.modCn f).nc = s.nc := rfl
@[simp] theorem State.modCn_eng (f : Cnet → Cnet) : (s.modCn f).eng = s.eng := rfl
@[simp] theorem State.modCn_mx (f : Cnet → Cnet) : (s.modCn f).mx = s.mx := rfl
@[simp] theorem State.modCn_vx (f : Cnet → Cnet) : (s.modCn f).vx = s.vx := rfl
@[simp] theorem State.modCn_ls (f : Cnet → Cnet) : (s.modCn f).ls = s.ls := rfl
@[simp] theorem State.modCn_ks (f : Cnet → Cnet) : (s.modCn f).ks = s.ks := rfl
@[simp] theorem State.modCn_bk (f : Cnet → Cnet) : (s.modCn f).bk = s.bk := rfl
@[simp] theorem State.modCn_rt (f : Cnet → Cnet) : (s.modCn f).rt = s.rt := rfl
@[simp] theorem State.modCn_sdir (f : Cnet → Cnet) : (s.modCn f).sdir = s.sdir := rfl
@[simp] theorem State.modCn_lane (f : Cnet → Cnet) : (s.modCn f).lane = s.lane := rfl
@[simp] theorem State.modCn_xfer (f : Cnet → Cnet) : (s.modCn f).xfer = s.xfer := rfl
@[simp] theorem State.modCn_chan (f : Cnet → Cnet) : (s.modCn f).chan = s.chan := rfl
@[simp] theorem State.modCn_comp (f : Cnet → Cnet) : (s.modCn f).comp = s.comp := rfl
@[simp] theorem State.modCn_edges (f : Cnet → Cnet) : (s.modCn f).edges = s.edges := rfl
@[simp] theorem State.modCn_oldEdges (f : Cnet → Cnet) : (s.modCn f).oldEdges = s.oldEdges := rfl
@[simp] theorem State.modCn_arb (f : Cnet → Cnet) : (s.modCn f).arb = s.arb := rfl
@[simp] theorem State.modCn_dom (f : Cnet → Cnet) : (s.modCn f).dom = s.dom := rfl
@[simp] theorem State.modCn_sch (f : Cnet → Cnet) : (s.modCn f).sch = s.sch := rfl
@[simp] theorem State.modCn_half (f : Cnet → Cnet) : (s.modCn f).half = s.half := rfl
@[simp] theorem State.modCn_slotA (f : Cnet → Cnet) : (s.modCn f).slotA = s.slotA := rfl
@[simp] theorem State.modCn_slotB (f : Cnet → Cnet) : (s.modCn f).slotB = s.slotB := rfl
@[simp] theorem State.modCn_smapA (f : Cnet → Cnet) : (s.modCn f).smapA = s.smapA := rfl
@[simp] theorem State.modCn_smapB (f : Cnet → Cnet) : (s.modCn f).smapB = s.smapB := rfl
@[simp] theorem State.modCn_staging (f : Cnet → Cnet) : (s.modCn f).staging = s.staging := rfl
@[simp] theorem State.modCn_gp (f : Cnet → Cnet) : (s.modCn f).gp = s.gp := rfl
@[simp] theorem State.modCn_checks (f : Cnet → Cnet) : (s.modCn f).checks = s.checks := rfl
@[simp] theorem State.modCn_clk (f : Cnet → Cnet) : (s.modCn f).clk = s.clk := rfl
@[simp] theorem State.modCn_pw (f : Cnet → Cnet) : (s.modCn f).pw = s.pw := rfl
@[simp] theorem State.modCn_bist (f : Cnet → Cnet) : (s.modCn f).bist = s.bist := rfl
@[simp] theorem State.modCn_rsts (f : Cnet → Cnet) : (s.modCn f).rsts = s.rsts := rfl
@[simp] theorem State.modCn_boot (f : Cnet → Cnet) : (s.modCn f).boot = s.boot := rfl
@[simp] theorem State.modCn_sec (f : Cnet → Cnet) : (s.modCn f).sec = s.sec := rfl
@[simp] theorem State.modCn_pcs (f : Cnet → Cnet) : (s.modCn f).pcs = s.pcs := rfl
@[simp] theorem State.modCn_cn (f : Cnet → Cnet) : (s.modCn f).cn = f s.cn := rfl
@[simp] theorem State.modCn_bc (f : Cnet → Cnet) : (s.modCn f).bc = s.bc := rfl
@[simp] theorem State.modCn_rdata (f : Cnet → Cnet) : (s.modCn f).rdata = s.rdata := rfl
@[simp] theorem State.modCn_flash (f : Cnet → Cnet) : (s.modCn f).flash = s.flash := rfl
@[simp] theorem State.modCn_fresh (f : Cnet → Cnet) : (s.modCn f).fresh = s.fresh := rfl

@[simp] theorem State.modBc_pending (k : Nat) (f : Bc → Bc) : (s.modBc k f).pending = s.pending := rfl
@[simp] theorem State.modBc_regs (k : Nat) (f : Bc → Bc) : (s.modBc k f).regs = s.regs := rfl
@[simp] theorem State.modBc_latches (k : Nat) (f : Bc → Bc) : (s.modBc k f).latches = s.latches := rfl
@[simp] theorem State.modBc_helds (k : Nat) (f : Bc → Bc) : (s.modBc k f).helds = s.helds := rfl
@[simp] theorem State.modBc_mem (k : Nat) (f : Bc → Bc) : (s.modBc k f).mem = s.mem := rfl
@[simp] theorem State.modBc_tb (k : Nat) (f : Bc → Bc) : (s.modBc k f).tb = s.tb := rfl
@[simp] theorem State.modBc_tbi (k : Nat) (f : Bc → Bc) : (s.modBc k f).tbi = s.tbi := rfl
@[simp] theorem State.modBc_wg (k : Nat) (f : Bc → Bc) : (s.modBc k f).wg = s.wg := rfl
@[simp] theorem State.modBc_nc (k : Nat) (f : Bc → Bc) : (s.modBc k f).nc = s.nc := rfl
@[simp] theorem State.modBc_eng (k : Nat) (f : Bc → Bc) : (s.modBc k f).eng = s.eng := rfl
@[simp] theorem State.modBc_mx (k : Nat) (f : Bc → Bc) : (s.modBc k f).mx = s.mx := rfl
@[simp] theorem State.modBc_vx (k : Nat) (f : Bc → Bc) : (s.modBc k f).vx = s.vx := rfl
@[simp] theorem State.modBc_ls (k : Nat) (f : Bc → Bc) : (s.modBc k f).ls = s.ls := rfl
@[simp] theorem State.modBc_ks (k : Nat) (f : Bc → Bc) : (s.modBc k f).ks = s.ks := rfl
@[simp] theorem State.modBc_bk (k : Nat) (f : Bc → Bc) : (s.modBc k f).bk = s.bk := rfl
@[simp] theorem State.modBc_rt (k : Nat) (f : Bc → Bc) : (s.modBc k f).rt = s.rt := rfl
@[simp] theorem State.modBc_sdir (k : Nat) (f : Bc → Bc) : (s.modBc k f).sdir = s.sdir := rfl
@[simp] theorem State.modBc_lane (k : Nat) (f : Bc → Bc) : (s.modBc k f).lane = s.lane := rfl
@[simp] theorem State.modBc_xfer (k : Nat) (f : Bc → Bc) : (s.modBc k f).xfer = s.xfer := rfl
@[simp] theorem State.modBc_chan (k : Nat) (f : Bc → Bc) : (s.modBc k f).chan = s.chan := rfl
@[simp] theorem State.modBc_comp (k : Nat) (f : Bc → Bc) : (s.modBc k f).comp = s.comp := rfl
@[simp] theorem State.modBc_edges (k : Nat) (f : Bc → Bc) : (s.modBc k f).edges = s.edges := rfl
@[simp] theorem State.modBc_oldEdges (k : Nat) (f : Bc → Bc) : (s.modBc k f).oldEdges = s.oldEdges := rfl
@[simp] theorem State.modBc_arb (k : Nat) (f : Bc → Bc) : (s.modBc k f).arb = s.arb := rfl
@[simp] theorem State.modBc_dom (k : Nat) (f : Bc → Bc) : (s.modBc k f).dom = s.dom := rfl
@[simp] theorem State.modBc_sch (k : Nat) (f : Bc → Bc) : (s.modBc k f).sch = s.sch := rfl
@[simp] theorem State.modBc_half (k : Nat) (f : Bc → Bc) : (s.modBc k f).half = s.half := rfl
@[simp] theorem State.modBc_slotA (k : Nat) (f : Bc → Bc) : (s.modBc k f).slotA = s.slotA := rfl
@[simp] theorem State.modBc_slotB (k : Nat) (f : Bc → Bc) : (s.modBc k f).slotB = s.slotB := rfl
@[simp] theorem State.modBc_smapA (k : Nat) (f : Bc → Bc) : (s.modBc k f).smapA = s.smapA := rfl
@[simp] theorem State.modBc_smapB (k : Nat) (f : Bc → Bc) : (s.modBc k f).smapB = s.smapB := rfl
@[simp] theorem State.modBc_staging (k : Nat) (f : Bc → Bc) : (s.modBc k f).staging = s.staging := rfl
@[simp] theorem State.modBc_gp (k : Nat) (f : Bc → Bc) : (s.modBc k f).gp = s.gp := rfl
@[simp] theorem State.modBc_checks (k : Nat) (f : Bc → Bc) : (s.modBc k f).checks = s.checks := rfl
@[simp] theorem State.modBc_clk (k : Nat) (f : Bc → Bc) : (s.modBc k f).clk = s.clk := rfl
@[simp] theorem State.modBc_pw (k : Nat) (f : Bc → Bc) : (s.modBc k f).pw = s.pw := rfl
@[simp] theorem State.modBc_bist (k : Nat) (f : Bc → Bc) : (s.modBc k f).bist = s.bist := rfl
@[simp] theorem State.modBc_rsts (k : Nat) (f : Bc → Bc) : (s.modBc k f).rsts = s.rsts := rfl
@[simp] theorem State.modBc_boot (k : Nat) (f : Bc → Bc) : (s.modBc k f).boot = s.boot := rfl
@[simp] theorem State.modBc_sec (k : Nat) (f : Bc → Bc) : (s.modBc k f).sec = s.sec := rfl
@[simp] theorem State.modBc_pcs (k : Nat) (f : Bc → Bc) : (s.modBc k f).pcs = s.pcs := rfl
@[simp] theorem State.modBc_cn (k : Nat) (f : Bc → Bc) : (s.modBc k f).cn = s.cn := rfl
@[simp] theorem State.modBc_bc (k : Nat) (f : Bc → Bc) : (s.modBc k f).bc = mmod s.bc k f := rfl
@[simp] theorem State.modBc_rdata (k : Nat) (f : Bc → Bc) : (s.modBc k f).rdata = s.rdata := rfl
@[simp] theorem State.modBc_flash (k : Nat) (f : Bc → Bc) : (s.modBc k f).flash = s.flash := rfl
@[simp] theorem State.modBc_fresh (k : Nat) (f : Bc → Bc) : (s.modBc k f).fresh = s.fresh := rfl

@[simp] theorem State.modPcs_pending (f : Pcs → Pcs) : (s.modPcs f).pending = s.pending := rfl
@[simp] theorem State.modPcs_regs (f : Pcs → Pcs) : (s.modPcs f).regs = s.regs := rfl
@[simp] theorem State.modPcs_latches (f : Pcs → Pcs) : (s.modPcs f).latches = s.latches := rfl
@[simp] theorem State.modPcs_helds (f : Pcs → Pcs) : (s.modPcs f).helds = s.helds := rfl
@[simp] theorem State.modPcs_mem (f : Pcs → Pcs) : (s.modPcs f).mem = s.mem := rfl
@[simp] theorem State.modPcs_tb (f : Pcs → Pcs) : (s.modPcs f).tb = s.tb := rfl
@[simp] theorem State.modPcs_tbi (f : Pcs → Pcs) : (s.modPcs f).tbi = s.tbi := rfl
@[simp] theorem State.modPcs_wg (f : Pcs → Pcs) : (s.modPcs f).wg = s.wg := rfl
@[simp] theorem State.modPcs_nc (f : Pcs → Pcs) : (s.modPcs f).nc = s.nc := rfl
@[simp] theorem State.modPcs_eng (f : Pcs → Pcs) : (s.modPcs f).eng = s.eng := rfl
@[simp] theorem State.modPcs_mx (f : Pcs → Pcs) : (s.modPcs f).mx = s.mx := rfl
@[simp] theorem State.modPcs_vx (f : Pcs → Pcs) : (s.modPcs f).vx = s.vx := rfl
@[simp] theorem State.modPcs_ls (f : Pcs → Pcs) : (s.modPcs f).ls = s.ls := rfl
@[simp] theorem State.modPcs_ks (f : Pcs → Pcs) : (s.modPcs f).ks = s.ks := rfl
@[simp] theorem State.modPcs_bk (f : Pcs → Pcs) : (s.modPcs f).bk = s.bk := rfl
@[simp] theorem State.modPcs_rt (f : Pcs → Pcs) : (s.modPcs f).rt = s.rt := rfl
@[simp] theorem State.modPcs_sdir (f : Pcs → Pcs) : (s.modPcs f).sdir = s.sdir := rfl
@[simp] theorem State.modPcs_lane (f : Pcs → Pcs) : (s.modPcs f).lane = s.lane := rfl
@[simp] theorem State.modPcs_xfer (f : Pcs → Pcs) : (s.modPcs f).xfer = s.xfer := rfl
@[simp] theorem State.modPcs_chan (f : Pcs → Pcs) : (s.modPcs f).chan = s.chan := rfl
@[simp] theorem State.modPcs_comp (f : Pcs → Pcs) : (s.modPcs f).comp = s.comp := rfl
@[simp] theorem State.modPcs_edges (f : Pcs → Pcs) : (s.modPcs f).edges = s.edges := rfl
@[simp] theorem State.modPcs_oldEdges (f : Pcs → Pcs) : (s.modPcs f).oldEdges = s.oldEdges := rfl
@[simp] theorem State.modPcs_arb (f : Pcs → Pcs) : (s.modPcs f).arb = s.arb := rfl
@[simp] theorem State.modPcs_dom (f : Pcs → Pcs) : (s.modPcs f).dom = s.dom := rfl
@[simp] theorem State.modPcs_sch (f : Pcs → Pcs) : (s.modPcs f).sch = s.sch := rfl
@[simp] theorem State.modPcs_half (f : Pcs → Pcs) : (s.modPcs f).half = s.half := rfl
@[simp] theorem State.modPcs_slotA (f : Pcs → Pcs) : (s.modPcs f).slotA = s.slotA := rfl
@[simp] theorem State.modPcs_slotB (f : Pcs → Pcs) : (s.modPcs f).slotB = s.slotB := rfl
@[simp] theorem State.modPcs_smapA (f : Pcs → Pcs) : (s.modPcs f).smapA = s.smapA := rfl
@[simp] theorem State.modPcs_smapB (f : Pcs → Pcs) : (s.modPcs f).smapB = s.smapB := rfl
@[simp] theorem State.modPcs_staging (f : Pcs → Pcs) : (s.modPcs f).staging = s.staging := rfl
@[simp] theorem State.modPcs_gp (f : Pcs → Pcs) : (s.modPcs f).gp = s.gp := rfl
@[simp] theorem State.modPcs_checks (f : Pcs → Pcs) : (s.modPcs f).checks = s.checks := rfl
@[simp] theorem State.modPcs_clk (f : Pcs → Pcs) : (s.modPcs f).clk = s.clk := rfl
@[simp] theorem State.modPcs_pw (f : Pcs → Pcs) : (s.modPcs f).pw = s.pw := rfl
@[simp] theorem State.modPcs_bist (f : Pcs → Pcs) : (s.modPcs f).bist = s.bist := rfl
@[simp] theorem State.modPcs_rsts (f : Pcs → Pcs) : (s.modPcs f).rsts = s.rsts := rfl
@[simp] theorem State.modPcs_boot (f : Pcs → Pcs) : (s.modPcs f).boot = s.boot := rfl
@[simp] theorem State.modPcs_sec (f : Pcs → Pcs) : (s.modPcs f).sec = s.sec := rfl
@[simp] theorem State.modPcs_pcs (f : Pcs → Pcs) : (s.modPcs f).pcs = f s.pcs := rfl
@[simp] theorem State.modPcs_cn (f : Pcs → Pcs) : (s.modPcs f).cn = s.cn := rfl
@[simp] theorem State.modPcs_bc (f : Pcs → Pcs) : (s.modPcs f).bc = s.bc := rfl
@[simp] theorem State.modPcs_rdata (f : Pcs → Pcs) : (s.modPcs f).rdata = s.rdata := rfl
@[simp] theorem State.modPcs_flash (f : Pcs → Pcs) : (s.modPcs f).flash = s.flash := rfl
@[simp] theorem State.modPcs_fresh (f : Pcs → Pcs) : (s.modPcs f).fresh = s.fresh := rfl

@[simp] theorem State.modBk_pending (c b : Nat) (f : Bk → Bk) : (s.modBk c b f).pending = s.pending := rfl
@[simp] theorem State.modBk_regs (c b : Nat) (f : Bk → Bk) : (s.modBk c b f).regs = s.regs := rfl
@[simp] theorem State.modBk_latches (c b : Nat) (f : Bk → Bk) : (s.modBk c b f).latches = s.latches := rfl
@[simp] theorem State.modBk_helds (c b : Nat) (f : Bk → Bk) : (s.modBk c b f).helds = s.helds := rfl
@[simp] theorem State.modBk_mem (c b : Nat) (f : Bk → Bk) : (s.modBk c b f).mem = s.mem := rfl
@[simp] theorem State.modBk_tb (c b : Nat) (f : Bk → Bk) : (s.modBk c b f).tb = s.tb := rfl
@[simp] theorem State.modBk_tbi (c b : Nat) (f : Bk → Bk) : (s.modBk c b f).tbi = s.tbi := rfl
@[simp] theorem State.modBk_wg (c b : Nat) (f : Bk → Bk) : (s.modBk c b f).wg = s.wg := rfl
@[simp] theorem State.modBk_nc (c b : Nat) (f : Bk → Bk) : (s.modBk c b f).nc = s.nc := rfl
@[simp] theorem State.modBk_eng (c b : Nat) (f : Bk → Bk) : (s.modBk c b f).eng = s.eng := rfl
@[simp] theorem State.modBk_mx (c b : Nat) (f : Bk → Bk) : (s.modBk c b f).mx = s.mx := rfl
@[simp] theorem State.modBk_vx (c b : Nat) (f : Bk → Bk) : (s.modBk c b f).vx = s.vx := rfl
@[simp] theorem State.modBk_ls (c b : Nat) (f : Bk → Bk) : (s.modBk c b f).ls = s.ls := rfl
@[simp] theorem State.modBk_ks (c b : Nat) (f : Bk → Bk) : (s.modBk c b f).ks = s.ks := rfl
@[simp] theorem State.modBk_bk (c b : Nat) (f : Bk → Bk) : (s.modBk c b f).bk = mmod s.bk (c * 8 + b) f := rfl
@[simp] theorem State.modBk_rt (c b : Nat) (f : Bk → Bk) : (s.modBk c b f).rt = s.rt := rfl
@[simp] theorem State.modBk_sdir (c b : Nat) (f : Bk → Bk) : (s.modBk c b f).sdir = s.sdir := rfl
@[simp] theorem State.modBk_lane (c b : Nat) (f : Bk → Bk) : (s.modBk c b f).lane = s.lane := rfl
@[simp] theorem State.modBk_xfer (c b : Nat) (f : Bk → Bk) : (s.modBk c b f).xfer = s.xfer := rfl
@[simp] theorem State.modBk_chan (c b : Nat) (f : Bk → Bk) : (s.modBk c b f).chan = s.chan := rfl
@[simp] theorem State.modBk_comp (c b : Nat) (f : Bk → Bk) : (s.modBk c b f).comp = s.comp := rfl
@[simp] theorem State.modBk_edges (c b : Nat) (f : Bk → Bk) : (s.modBk c b f).edges = s.edges := rfl
@[simp] theorem State.modBk_oldEdges (c b : Nat) (f : Bk → Bk) : (s.modBk c b f).oldEdges = s.oldEdges := rfl
@[simp] theorem State.modBk_arb (c b : Nat) (f : Bk → Bk) : (s.modBk c b f).arb = s.arb := rfl
@[simp] theorem State.modBk_dom (c b : Nat) (f : Bk → Bk) : (s.modBk c b f).dom = s.dom := rfl
@[simp] theorem State.modBk_sch (c b : Nat) (f : Bk → Bk) : (s.modBk c b f).sch = s.sch := rfl
@[simp] theorem State.modBk_half (c b : Nat) (f : Bk → Bk) : (s.modBk c b f).half = s.half := rfl
@[simp] theorem State.modBk_slotA (c b : Nat) (f : Bk → Bk) : (s.modBk c b f).slotA = s.slotA := rfl
@[simp] theorem State.modBk_slotB (c b : Nat) (f : Bk → Bk) : (s.modBk c b f).slotB = s.slotB := rfl
@[simp] theorem State.modBk_smapA (c b : Nat) (f : Bk → Bk) : (s.modBk c b f).smapA = s.smapA := rfl
@[simp] theorem State.modBk_smapB (c b : Nat) (f : Bk → Bk) : (s.modBk c b f).smapB = s.smapB := rfl
@[simp] theorem State.modBk_staging (c b : Nat) (f : Bk → Bk) : (s.modBk c b f).staging = s.staging := rfl
@[simp] theorem State.modBk_gp (c b : Nat) (f : Bk → Bk) : (s.modBk c b f).gp = s.gp := rfl
@[simp] theorem State.modBk_checks (c b : Nat) (f : Bk → Bk) : (s.modBk c b f).checks = s.checks := rfl
@[simp] theorem State.modBk_clk (c b : Nat) (f : Bk → Bk) : (s.modBk c b f).clk = s.clk := rfl
@[simp] theorem State.modBk_pw (c b : Nat) (f : Bk → Bk) : (s.modBk c b f).pw = s.pw := rfl
@[simp] theorem State.modBk_bist (c b : Nat) (f : Bk → Bk) : (s.modBk c b f).bist = s.bist := rfl
@[simp] theorem State.modBk_rsts (c b : Nat) (f : Bk → Bk) : (s.modBk c b f).rsts = s.rsts := rfl
@[simp] theorem State.modBk_boot (c b : Nat) (f : Bk → Bk) : (s.modBk c b f).boot = s.boot := rfl
@[simp] theorem State.modBk_sec (c b : Nat) (f : Bk → Bk) : (s.modBk c b f).sec = s.sec := rfl
@[simp] theorem State.modBk_pcs (c b : Nat) (f : Bk → Bk) : (s.modBk c b f).pcs = s.pcs := rfl
@[simp] theorem State.modBk_cn (c b : Nat) (f : Bk → Bk) : (s.modBk c b f).cn = s.cn := rfl
@[simp] theorem State.modBk_bc (c b : Nat) (f : Bk → Bk) : (s.modBk c b f).bc = s.bc := rfl
@[simp] theorem State.modBk_rdata (c b : Nat) (f : Bk → Bk) : (s.modBk c b f).rdata = s.rdata := rfl
@[simp] theorem State.modBk_flash (c b : Nat) (f : Bk → Bk) : (s.modBk c b f).flash = s.flash := rfl
@[simp] theorem State.modBk_fresh (c b : Nat) (f : Bk → Bk) : (s.modBk c b f).fresh = s.fresh := rfl

@[simp] theorem State.wr_pending (r : Reg) (idx : List Nat) (v : DWord) : (s.wr r idx v).pending = s.pending := rfl
@[simp] theorem State.wr_regs (r : Reg) (idx : List Nat) (v : DWord) : (s.wr r idx v).regs = mput s.regs (r.addr idx) (v ^^^ r.reset) := rfl
@[simp] theorem State.wr_latches (r : Reg) (idx : List Nat) (v : DWord) : (s.wr r idx v).latches = s.latches := rfl
@[simp] theorem State.wr_helds (r : Reg) (idx : List Nat) (v : DWord) : (s.wr r idx v).helds = s.helds := rfl
@[simp] theorem State.wr_mem (r : Reg) (idx : List Nat) (v : DWord) : (s.wr r idx v).mem = s.mem := rfl
@[simp] theorem State.wr_tb (r : Reg) (idx : List Nat) (v : DWord) : (s.wr r idx v).tb = s.tb := rfl
@[simp] theorem State.wr_tbi (r : Reg) (idx : List Nat) (v : DWord) : (s.wr r idx v).tbi = s.tbi := rfl
@[simp] theorem State.wr_wg (r : Reg) (idx : List Nat) (v : DWord) : (s.wr r idx v).wg = s.wg := rfl
@[simp] theorem State.wr_nc (r : Reg) (idx : List Nat) (v : DWord) : (s.wr r idx v).nc = s.nc := rfl
@[simp] theorem State.wr_eng (r : Reg) (idx : List Nat) (v : DWord) : (s.wr r idx v).eng = s.eng := rfl
@[simp] theorem State.wr_mx (r : Reg) (idx : List Nat) (v : DWord) : (s.wr r idx v).mx = s.mx := rfl
@[simp] theorem State.wr_vx (r : Reg) (idx : List Nat) (v : DWord) : (s.wr r idx v).vx = s.vx := rfl
@[simp] theorem State.wr_ls (r : Reg) (idx : List Nat) (v : DWord) : (s.wr r idx v).ls = s.ls := rfl
@[simp] theorem State.wr_ks (r : Reg) (idx : List Nat) (v : DWord) : (s.wr r idx v).ks = s.ks := rfl
@[simp] theorem State.wr_bk (r : Reg) (idx : List Nat) (v : DWord) : (s.wr r idx v).bk = s.bk := rfl
@[simp] theorem State.wr_rt (r : Reg) (idx : List Nat) (v : DWord) : (s.wr r idx v).rt = s.rt := rfl
@[simp] theorem State.wr_sdir (r : Reg) (idx : List Nat) (v : DWord) : (s.wr r idx v).sdir = s.sdir := rfl
@[simp] theorem State.wr_lane (r : Reg) (idx : List Nat) (v : DWord) : (s.wr r idx v).lane = s.lane := rfl
@[simp] theorem State.wr_xfer (r : Reg) (idx : List Nat) (v : DWord) : (s.wr r idx v).xfer = s.xfer := rfl
@[simp] theorem State.wr_chan (r : Reg) (idx : List Nat) (v : DWord) : (s.wr r idx v).chan = s.chan := rfl
@[simp] theorem State.wr_comp (r : Reg) (idx : List Nat) (v : DWord) : (s.wr r idx v).comp = s.comp := rfl
@[simp] theorem State.wr_edges (r : Reg) (idx : List Nat) (v : DWord) : (s.wr r idx v).edges = s.edges := rfl
@[simp] theorem State.wr_oldEdges (r : Reg) (idx : List Nat) (v : DWord) : (s.wr r idx v).oldEdges = s.oldEdges := rfl
@[simp] theorem State.wr_arb (r : Reg) (idx : List Nat) (v : DWord) : (s.wr r idx v).arb = s.arb := rfl
@[simp] theorem State.wr_dom (r : Reg) (idx : List Nat) (v : DWord) : (s.wr r idx v).dom = s.dom := rfl
@[simp] theorem State.wr_sch (r : Reg) (idx : List Nat) (v : DWord) : (s.wr r idx v).sch = s.sch := rfl
@[simp] theorem State.wr_half (r : Reg) (idx : List Nat) (v : DWord) : (s.wr r idx v).half = s.half := rfl
@[simp] theorem State.wr_slotA (r : Reg) (idx : List Nat) (v : DWord) : (s.wr r idx v).slotA = s.slotA := rfl
@[simp] theorem State.wr_slotB (r : Reg) (idx : List Nat) (v : DWord) : (s.wr r idx v).slotB = s.slotB := rfl
@[simp] theorem State.wr_smapA (r : Reg) (idx : List Nat) (v : DWord) : (s.wr r idx v).smapA = s.smapA := rfl
@[simp] theorem State.wr_smapB (r : Reg) (idx : List Nat) (v : DWord) : (s.wr r idx v).smapB = s.smapB := rfl
@[simp] theorem State.wr_staging (r : Reg) (idx : List Nat) (v : DWord) : (s.wr r idx v).staging = s.staging := rfl
@[simp] theorem State.wr_gp (r : Reg) (idx : List Nat) (v : DWord) : (s.wr r idx v).gp = s.gp := rfl
@[simp] theorem State.wr_checks (r : Reg) (idx : List Nat) (v : DWord) : (s.wr r idx v).checks = s.checks := rfl
@[simp] theorem State.wr_clk (r : Reg) (idx : List Nat) (v : DWord) : (s.wr r idx v).clk = s.clk := rfl
@[simp] theorem State.wr_pw (r : Reg) (idx : List Nat) (v : DWord) : (s.wr r idx v).pw = s.pw := rfl
@[simp] theorem State.wr_bist (r : Reg) (idx : List Nat) (v : DWord) : (s.wr r idx v).bist = s.bist := rfl
@[simp] theorem State.wr_rsts (r : Reg) (idx : List Nat) (v : DWord) : (s.wr r idx v).rsts = s.rsts := rfl
@[simp] theorem State.wr_boot (r : Reg) (idx : List Nat) (v : DWord) : (s.wr r idx v).boot = s.boot := rfl
@[simp] theorem State.wr_sec (r : Reg) (idx : List Nat) (v : DWord) : (s.wr r idx v).sec = s.sec := rfl
@[simp] theorem State.wr_pcs (r : Reg) (idx : List Nat) (v : DWord) : (s.wr r idx v).pcs = s.pcs := rfl
@[simp] theorem State.wr_cn (r : Reg) (idx : List Nat) (v : DWord) : (s.wr r idx v).cn = s.cn := rfl
@[simp] theorem State.wr_bc (r : Reg) (idx : List Nat) (v : DWord) : (s.wr r idx v).bc = s.bc := rfl
@[simp] theorem State.wr_rdata (r : Reg) (idx : List Nat) (v : DWord) : (s.wr r idx v).rdata = s.rdata := rfl
@[simp] theorem State.wr_flash (r : Reg) (idx : List Nat) (v : DWord) : (s.wr r idx v).flash = s.flash := rfl
@[simp] theorem State.wr_fresh (r : Reg) (idx : List Nat) (v : DWord) : (s.wr r idx v).fresh = s.fresh := rfl

@[simp] theorem State.setFld_pending (r : Reg) (idx : List Nat) (f : Fld) (n : Nat) : (s.setFld r idx f n).pending = s.pending := rfl
@[simp] theorem State.setFld_latches (r : Reg) (idx : List Nat) (f : Fld) (n : Nat) : (s.setFld r idx f n).latches = s.latches := rfl
@[simp] theorem State.setFld_helds (r : Reg) (idx : List Nat) (f : Fld) (n : Nat) : (s.setFld r idx f n).helds = s.helds := rfl
@[simp] theorem State.setFld_mem (r : Reg) (idx : List Nat) (f : Fld) (n : Nat) : (s.setFld r idx f n).mem = s.mem := rfl
@[simp] theorem State.setFld_tb (r : Reg) (idx : List Nat) (f : Fld) (n : Nat) : (s.setFld r idx f n).tb = s.tb := rfl
@[simp] theorem State.setFld_tbi (r : Reg) (idx : List Nat) (f : Fld) (n : Nat) : (s.setFld r idx f n).tbi = s.tbi := rfl
@[simp] theorem State.setFld_wg (r : Reg) (idx : List Nat) (f : Fld) (n : Nat) : (s.setFld r idx f n).wg = s.wg := rfl
@[simp] theorem State.setFld_nc (r : Reg) (idx : List Nat) (f : Fld) (n : Nat) : (s.setFld r idx f n).nc = s.nc := rfl
@[simp] theorem State.setFld_eng (r : Reg) (idx : List Nat) (f : Fld) (n : Nat) : (s.setFld r idx f n).eng = s.eng := rfl
@[simp] theorem State.setFld_mx (r : Reg) (idx : List Nat) (f : Fld) (n : Nat) : (s.setFld r idx f n).mx = s.mx := rfl
@[simp] theorem State.setFld_vx (r : Reg) (idx : List Nat) (f : Fld) (n : Nat) : (s.setFld r idx f n).vx = s.vx := rfl
@[simp] theorem State.setFld_ls (r : Reg) (idx : List Nat) (f : Fld) (n : Nat) : (s.setFld r idx f n).ls = s.ls := rfl
@[simp] theorem State.setFld_ks (r : Reg) (idx : List Nat) (f : Fld) (n : Nat) : (s.setFld r idx f n).ks = s.ks := rfl
@[simp] theorem State.setFld_bk (r : Reg) (idx : List Nat) (f : Fld) (n : Nat) : (s.setFld r idx f n).bk = s.bk := rfl
@[simp] theorem State.setFld_rt (r : Reg) (idx : List Nat) (f : Fld) (n : Nat) : (s.setFld r idx f n).rt = s.rt := rfl
@[simp] theorem State.setFld_sdir (r : Reg) (idx : List Nat) (f : Fld) (n : Nat) : (s.setFld r idx f n).sdir = s.sdir := rfl
@[simp] theorem State.setFld_lane (r : Reg) (idx : List Nat) (f : Fld) (n : Nat) : (s.setFld r idx f n).lane = s.lane := rfl
@[simp] theorem State.setFld_xfer (r : Reg) (idx : List Nat) (f : Fld) (n : Nat) : (s.setFld r idx f n).xfer = s.xfer := rfl
@[simp] theorem State.setFld_chan (r : Reg) (idx : List Nat) (f : Fld) (n : Nat) : (s.setFld r idx f n).chan = s.chan := rfl
@[simp] theorem State.setFld_comp (r : Reg) (idx : List Nat) (f : Fld) (n : Nat) : (s.setFld r idx f n).comp = s.comp := rfl
@[simp] theorem State.setFld_edges (r : Reg) (idx : List Nat) (f : Fld) (n : Nat) : (s.setFld r idx f n).edges = s.edges := rfl
@[simp] theorem State.setFld_oldEdges (r : Reg) (idx : List Nat) (f : Fld) (n : Nat) : (s.setFld r idx f n).oldEdges = s.oldEdges := rfl
@[simp] theorem State.setFld_arb (r : Reg) (idx : List Nat) (f : Fld) (n : Nat) : (s.setFld r idx f n).arb = s.arb := rfl
@[simp] theorem State.setFld_dom (r : Reg) (idx : List Nat) (f : Fld) (n : Nat) : (s.setFld r idx f n).dom = s.dom := rfl
@[simp] theorem State.setFld_sch (r : Reg) (idx : List Nat) (f : Fld) (n : Nat) : (s.setFld r idx f n).sch = s.sch := rfl
@[simp] theorem State.setFld_half (r : Reg) (idx : List Nat) (f : Fld) (n : Nat) : (s.setFld r idx f n).half = s.half := rfl
@[simp] theorem State.setFld_slotA (r : Reg) (idx : List Nat) (f : Fld) (n : Nat) : (s.setFld r idx f n).slotA = s.slotA := rfl
@[simp] theorem State.setFld_slotB (r : Reg) (idx : List Nat) (f : Fld) (n : Nat) : (s.setFld r idx f n).slotB = s.slotB := rfl
@[simp] theorem State.setFld_smapA (r : Reg) (idx : List Nat) (f : Fld) (n : Nat) : (s.setFld r idx f n).smapA = s.smapA := rfl
@[simp] theorem State.setFld_smapB (r : Reg) (idx : List Nat) (f : Fld) (n : Nat) : (s.setFld r idx f n).smapB = s.smapB := rfl
@[simp] theorem State.setFld_staging (r : Reg) (idx : List Nat) (f : Fld) (n : Nat) : (s.setFld r idx f n).staging = s.staging := rfl
@[simp] theorem State.setFld_gp (r : Reg) (idx : List Nat) (f : Fld) (n : Nat) : (s.setFld r idx f n).gp = s.gp := rfl
@[simp] theorem State.setFld_checks (r : Reg) (idx : List Nat) (f : Fld) (n : Nat) : (s.setFld r idx f n).checks = s.checks := rfl
@[simp] theorem State.setFld_clk (r : Reg) (idx : List Nat) (f : Fld) (n : Nat) : (s.setFld r idx f n).clk = s.clk := rfl
@[simp] theorem State.setFld_pw (r : Reg) (idx : List Nat) (f : Fld) (n : Nat) : (s.setFld r idx f n).pw = s.pw := rfl
@[simp] theorem State.setFld_bist (r : Reg) (idx : List Nat) (f : Fld) (n : Nat) : (s.setFld r idx f n).bist = s.bist := rfl
@[simp] theorem State.setFld_rsts (r : Reg) (idx : List Nat) (f : Fld) (n : Nat) : (s.setFld r idx f n).rsts = s.rsts := rfl
@[simp] theorem State.setFld_boot (r : Reg) (idx : List Nat) (f : Fld) (n : Nat) : (s.setFld r idx f n).boot = s.boot := rfl
@[simp] theorem State.setFld_sec (r : Reg) (idx : List Nat) (f : Fld) (n : Nat) : (s.setFld r idx f n).sec = s.sec := rfl
@[simp] theorem State.setFld_pcs (r : Reg) (idx : List Nat) (f : Fld) (n : Nat) : (s.setFld r idx f n).pcs = s.pcs := rfl
@[simp] theorem State.setFld_cn (r : Reg) (idx : List Nat) (f : Fld) (n : Nat) : (s.setFld r idx f n).cn = s.cn := rfl
@[simp] theorem State.setFld_bc (r : Reg) (idx : List Nat) (f : Fld) (n : Nat) : (s.setFld r idx f n).bc = s.bc := rfl
@[simp] theorem State.setFld_rdata (r : Reg) (idx : List Nat) (f : Fld) (n : Nat) : (s.setFld r idx f n).rdata = s.rdata := rfl
@[simp] theorem State.setFld_flash (r : Reg) (idx : List Nat) (f : Fld) (n : Nat) : (s.setFld r idx f n).flash = s.flash := rfl
@[simp] theorem State.setFld_fresh (r : Reg) (idx : List Nat) (f : Fld) (n : Nat) : (s.setFld r idx f n).fresh = s.fresh := rfl

@[simp] theorem State.setVal_pending (r : Reg) (idx : List Nat) (n : Nat) : (s.setVal r idx n).pending = s.pending := rfl
@[simp] theorem State.setVal_latches (r : Reg) (idx : List Nat) (n : Nat) : (s.setVal r idx n).latches = s.latches := rfl
@[simp] theorem State.setVal_helds (r : Reg) (idx : List Nat) (n : Nat) : (s.setVal r idx n).helds = s.helds := rfl
@[simp] theorem State.setVal_mem (r : Reg) (idx : List Nat) (n : Nat) : (s.setVal r idx n).mem = s.mem := rfl
@[simp] theorem State.setVal_tb (r : Reg) (idx : List Nat) (n : Nat) : (s.setVal r idx n).tb = s.tb := rfl
@[simp] theorem State.setVal_tbi (r : Reg) (idx : List Nat) (n : Nat) : (s.setVal r idx n).tbi = s.tbi := rfl
@[simp] theorem State.setVal_wg (r : Reg) (idx : List Nat) (n : Nat) : (s.setVal r idx n).wg = s.wg := rfl
@[simp] theorem State.setVal_nc (r : Reg) (idx : List Nat) (n : Nat) : (s.setVal r idx n).nc = s.nc := rfl
@[simp] theorem State.setVal_eng (r : Reg) (idx : List Nat) (n : Nat) : (s.setVal r idx n).eng = s.eng := rfl
@[simp] theorem State.setVal_mx (r : Reg) (idx : List Nat) (n : Nat) : (s.setVal r idx n).mx = s.mx := rfl
@[simp] theorem State.setVal_vx (r : Reg) (idx : List Nat) (n : Nat) : (s.setVal r idx n).vx = s.vx := rfl
@[simp] theorem State.setVal_ls (r : Reg) (idx : List Nat) (n : Nat) : (s.setVal r idx n).ls = s.ls := rfl
@[simp] theorem State.setVal_ks (r : Reg) (idx : List Nat) (n : Nat) : (s.setVal r idx n).ks = s.ks := rfl
@[simp] theorem State.setVal_bk (r : Reg) (idx : List Nat) (n : Nat) : (s.setVal r idx n).bk = s.bk := rfl
@[simp] theorem State.setVal_rt (r : Reg) (idx : List Nat) (n : Nat) : (s.setVal r idx n).rt = s.rt := rfl
@[simp] theorem State.setVal_sdir (r : Reg) (idx : List Nat) (n : Nat) : (s.setVal r idx n).sdir = s.sdir := rfl
@[simp] theorem State.setVal_lane (r : Reg) (idx : List Nat) (n : Nat) : (s.setVal r idx n).lane = s.lane := rfl
@[simp] theorem State.setVal_xfer (r : Reg) (idx : List Nat) (n : Nat) : (s.setVal r idx n).xfer = s.xfer := rfl
@[simp] theorem State.setVal_chan (r : Reg) (idx : List Nat) (n : Nat) : (s.setVal r idx n).chan = s.chan := rfl
@[simp] theorem State.setVal_comp (r : Reg) (idx : List Nat) (n : Nat) : (s.setVal r idx n).comp = s.comp := rfl
@[simp] theorem State.setVal_edges (r : Reg) (idx : List Nat) (n : Nat) : (s.setVal r idx n).edges = s.edges := rfl
@[simp] theorem State.setVal_oldEdges (r : Reg) (idx : List Nat) (n : Nat) : (s.setVal r idx n).oldEdges = s.oldEdges := rfl
@[simp] theorem State.setVal_arb (r : Reg) (idx : List Nat) (n : Nat) : (s.setVal r idx n).arb = s.arb := rfl
@[simp] theorem State.setVal_dom (r : Reg) (idx : List Nat) (n : Nat) : (s.setVal r idx n).dom = s.dom := rfl
@[simp] theorem State.setVal_sch (r : Reg) (idx : List Nat) (n : Nat) : (s.setVal r idx n).sch = s.sch := rfl
@[simp] theorem State.setVal_half (r : Reg) (idx : List Nat) (n : Nat) : (s.setVal r idx n).half = s.half := rfl
@[simp] theorem State.setVal_slotA (r : Reg) (idx : List Nat) (n : Nat) : (s.setVal r idx n).slotA = s.slotA := rfl
@[simp] theorem State.setVal_slotB (r : Reg) (idx : List Nat) (n : Nat) : (s.setVal r idx n).slotB = s.slotB := rfl
@[simp] theorem State.setVal_smapA (r : Reg) (idx : List Nat) (n : Nat) : (s.setVal r idx n).smapA = s.smapA := rfl
@[simp] theorem State.setVal_smapB (r : Reg) (idx : List Nat) (n : Nat) : (s.setVal r idx n).smapB = s.smapB := rfl
@[simp] theorem State.setVal_staging (r : Reg) (idx : List Nat) (n : Nat) : (s.setVal r idx n).staging = s.staging := rfl
@[simp] theorem State.setVal_gp (r : Reg) (idx : List Nat) (n : Nat) : (s.setVal r idx n).gp = s.gp := rfl
@[simp] theorem State.setVal_checks (r : Reg) (idx : List Nat) (n : Nat) : (s.setVal r idx n).checks = s.checks := rfl
@[simp] theorem State.setVal_clk (r : Reg) (idx : List Nat) (n : Nat) : (s.setVal r idx n).clk = s.clk := rfl
@[simp] theorem State.setVal_pw (r : Reg) (idx : List Nat) (n : Nat) : (s.setVal r idx n).pw = s.pw := rfl
@[simp] theorem State.setVal_bist (r : Reg) (idx : List Nat) (n : Nat) : (s.setVal r idx n).bist = s.bist := rfl
@[simp] theorem State.setVal_rsts (r : Reg) (idx : List Nat) (n : Nat) : (s.setVal r idx n).rsts = s.rsts := rfl
@[simp] theorem State.setVal_boot (r : Reg) (idx : List Nat) (n : Nat) : (s.setVal r idx n).boot = s.boot := rfl
@[simp] theorem State.setVal_sec (r : Reg) (idx : List Nat) (n : Nat) : (s.setVal r idx n).sec = s.sec := rfl
@[simp] theorem State.setVal_pcs (r : Reg) (idx : List Nat) (n : Nat) : (s.setVal r idx n).pcs = s.pcs := rfl
@[simp] theorem State.setVal_cn (r : Reg) (idx : List Nat) (n : Nat) : (s.setVal r idx n).cn = s.cn := rfl
@[simp] theorem State.setVal_bc (r : Reg) (idx : List Nat) (n : Nat) : (s.setVal r idx n).bc = s.bc := rfl
@[simp] theorem State.setVal_rdata (r : Reg) (idx : List Nat) (n : Nat) : (s.setVal r idx n).rdata = s.rdata := rfl
@[simp] theorem State.setVal_flash (r : Reg) (idx : List Nat) (n : Nat) : (s.setVal r idx n).flash = s.flash := rfl
@[simp] theorem State.setVal_fresh (r : Reg) (idx : List Nat) (n : Nat) : (s.setVal r idx n).fresh = s.fresh := rfl

@[simp] theorem State.bump_pending (r : Reg) (idx : List Nat) (n : Nat) : (s.bump r idx n).pending = s.pending := rfl
@[simp] theorem State.bump_latches (r : Reg) (idx : List Nat) (n : Nat) : (s.bump r idx n).latches = s.latches := rfl
@[simp] theorem State.bump_helds (r : Reg) (idx : List Nat) (n : Nat) : (s.bump r idx n).helds = s.helds := rfl
@[simp] theorem State.bump_mem (r : Reg) (idx : List Nat) (n : Nat) : (s.bump r idx n).mem = s.mem := rfl
@[simp] theorem State.bump_tb (r : Reg) (idx : List Nat) (n : Nat) : (s.bump r idx n).tb = s.tb := rfl
@[simp] theorem State.bump_tbi (r : Reg) (idx : List Nat) (n : Nat) : (s.bump r idx n).tbi = s.tbi := rfl
@[simp] theorem State.bump_wg (r : Reg) (idx : List Nat) (n : Nat) : (s.bump r idx n).wg = s.wg := rfl
@[simp] theorem State.bump_nc (r : Reg) (idx : List Nat) (n : Nat) : (s.bump r idx n).nc = s.nc := rfl
@[simp] theorem State.bump_eng (r : Reg) (idx : List Nat) (n : Nat) : (s.bump r idx n).eng = s.eng := rfl
@[simp] theorem State.bump_mx (r : Reg) (idx : List Nat) (n : Nat) : (s.bump r idx n).mx = s.mx := rfl
@[simp] theorem State.bump_vx (r : Reg) (idx : List Nat) (n : Nat) : (s.bump r idx n).vx = s.vx := rfl
@[simp] theorem State.bump_ls (r : Reg) (idx : List Nat) (n : Nat) : (s.bump r idx n).ls = s.ls := rfl
@[simp] theorem State.bump_ks (r : Reg) (idx : List Nat) (n : Nat) : (s.bump r idx n).ks = s.ks := rfl
@[simp] theorem State.bump_bk (r : Reg) (idx : List Nat) (n : Nat) : (s.bump r idx n).bk = s.bk := rfl
@[simp] theorem State.bump_rt (r : Reg) (idx : List Nat) (n : Nat) : (s.bump r idx n).rt = s.rt := rfl
@[simp] theorem State.bump_sdir (r : Reg) (idx : List Nat) (n : Nat) : (s.bump r idx n).sdir = s.sdir := rfl
@[simp] theorem State.bump_lane (r : Reg) (idx : List Nat) (n : Nat) : (s.bump r idx n).lane = s.lane := rfl
@[simp] theorem State.bump_xfer (r : Reg) (idx : List Nat) (n : Nat) : (s.bump r idx n).xfer = s.xfer := rfl
@[simp] theorem State.bump_chan (r : Reg) (idx : List Nat) (n : Nat) : (s.bump r idx n).chan = s.chan := rfl
@[simp] theorem State.bump_comp (r : Reg) (idx : List Nat) (n : Nat) : (s.bump r idx n).comp = s.comp := rfl
@[simp] theorem State.bump_edges (r : Reg) (idx : List Nat) (n : Nat) : (s.bump r idx n).edges = s.edges := rfl
@[simp] theorem State.bump_oldEdges (r : Reg) (idx : List Nat) (n : Nat) : (s.bump r idx n).oldEdges = s.oldEdges := rfl
@[simp] theorem State.bump_arb (r : Reg) (idx : List Nat) (n : Nat) : (s.bump r idx n).arb = s.arb := rfl
@[simp] theorem State.bump_dom (r : Reg) (idx : List Nat) (n : Nat) : (s.bump r idx n).dom = s.dom := rfl
@[simp] theorem State.bump_sch (r : Reg) (idx : List Nat) (n : Nat) : (s.bump r idx n).sch = s.sch := rfl
@[simp] theorem State.bump_half (r : Reg) (idx : List Nat) (n : Nat) : (s.bump r idx n).half = s.half := rfl
@[simp] theorem State.bump_slotA (r : Reg) (idx : List Nat) (n : Nat) : (s.bump r idx n).slotA = s.slotA := rfl
@[simp] theorem State.bump_slotB (r : Reg) (idx : List Nat) (n : Nat) : (s.bump r idx n).slotB = s.slotB := rfl
@[simp] theorem State.bump_smapA (r : Reg) (idx : List Nat) (n : Nat) : (s.bump r idx n).smapA = s.smapA := rfl
@[simp] theorem State.bump_smapB (r : Reg) (idx : List Nat) (n : Nat) : (s.bump r idx n).smapB = s.smapB := rfl
@[simp] theorem State.bump_staging (r : Reg) (idx : List Nat) (n : Nat) : (s.bump r idx n).staging = s.staging := rfl
@[simp] theorem State.bump_gp (r : Reg) (idx : List Nat) (n : Nat) : (s.bump r idx n).gp = s.gp := rfl
@[simp] theorem State.bump_checks (r : Reg) (idx : List Nat) (n : Nat) : (s.bump r idx n).checks = s.checks := rfl
@[simp] theorem State.bump_clk (r : Reg) (idx : List Nat) (n : Nat) : (s.bump r idx n).clk = s.clk := rfl
@[simp] theorem State.bump_pw (r : Reg) (idx : List Nat) (n : Nat) : (s.bump r idx n).pw = s.pw := rfl
@[simp] theorem State.bump_bist (r : Reg) (idx : List Nat) (n : Nat) : (s.bump r idx n).bist = s.bist := rfl
@[simp] theorem State.bump_rsts (r : Reg) (idx : List Nat) (n : Nat) : (s.bump r idx n).rsts = s.rsts := rfl
@[simp] theorem State.bump_boot (r : Reg) (idx : List Nat) (n : Nat) : (s.bump r idx n).boot = s.boot := rfl
@[simp] theorem State.bump_sec (r : Reg) (idx : List Nat) (n : Nat) : (s.bump r idx n).sec = s.sec := rfl
@[simp] theorem State.bump_pcs (r : Reg) (idx : List Nat) (n : Nat) : (s.bump r idx n).pcs = s.pcs := rfl
@[simp] theorem State.bump_cn (r : Reg) (idx : List Nat) (n : Nat) : (s.bump r idx n).cn = s.cn := rfl
@[simp] theorem State.bump_bc (r : Reg) (idx : List Nat) (n : Nat) : (s.bump r idx n).bc = s.bc := rfl
@[simp] theorem State.bump_rdata (r : Reg) (idx : List Nat) (n : Nat) : (s.bump r idx n).rdata = s.rdata := rfl
@[simp] theorem State.bump_flash (r : Reg) (idx : List Nat) (n : Nat) : (s.bump r idx n).flash = s.flash := rfl
@[simp] theorem State.bump_fresh (r : Reg) (idx : List Nat) (n : Nat) : (s.bump r idx n).fresh = s.fresh := rfl

@[simp] theorem State.bumpFld_pending (r : Reg) (idx : List Nat) (f : Fld) (n : Nat) : (s.bumpFld r idx f n).pending = s.pending := rfl
@[simp] theorem State.bumpFld_latches (r : Reg) (idx : List Nat) (f : Fld) (n : Nat) : (s.bumpFld r idx f n).latches = s.latches := rfl
@[simp] theorem State.bumpFld_helds (r : Reg) (idx : List Nat) (f : Fld) (n : Nat) : (s.bumpFld r idx f n).helds = s.helds := rfl
@[simp] theorem State.bumpFld_mem (r : Reg) (idx : List Nat) (f : Fld) (n : Nat) : (s.bumpFld r idx f n).mem = s.mem := rfl
@[simp] theorem State.bumpFld_tb (r : Reg) (idx : List Nat) (f : Fld) (n : Nat) : (s.bumpFld r idx f n).tb = s.tb := rfl
@[simp] theorem State.bumpFld_tbi (r : Reg) (idx : List Nat) (f : Fld) (n : Nat) : (s.bumpFld r idx f n).tbi = s.tbi := rfl
@[simp] theorem State.bumpFld_wg (r : Reg) (idx : List Nat) (f : Fld) (n : Nat) : (s.bumpFld r idx f n).wg = s.wg := rfl
@[simp] theorem State.bumpFld_nc (r : Reg) (idx : List Nat) (f : Fld) (n : Nat) : (s.bumpFld r idx f n).nc = s.nc := rfl
@[simp] theorem State.bumpFld_eng (r : Reg) (idx : List Nat) (f : Fld) (n : Nat) : (s.bumpFld r idx f n).eng = s.eng := rfl
@[simp] theorem State.bumpFld_mx (r : Reg) (idx : List Nat) (f : Fld) (n : Nat) : (s.bumpFld r idx f n).mx = s.mx := rfl
@[simp] theorem State.bumpFld_vx (r : Reg) (idx : List Nat) (f : Fld) (n : Nat) : (s.bumpFld r idx f n).vx = s.vx := rfl
@[simp] theorem State.bumpFld_ls (r : Reg) (idx : List Nat) (f : Fld) (n : Nat) : (s.bumpFld r idx f n).ls = s.ls := rfl
@[simp] theorem State.bumpFld_ks (r : Reg) (idx : List Nat) (f : Fld) (n : Nat) : (s.bumpFld r idx f n).ks = s.ks := rfl
@[simp] theorem State.bumpFld_bk (r : Reg) (idx : List Nat) (f : Fld) (n : Nat) : (s.bumpFld r idx f n).bk = s.bk := rfl
@[simp] theorem State.bumpFld_rt (r : Reg) (idx : List Nat) (f : Fld) (n : Nat) : (s.bumpFld r idx f n).rt = s.rt := rfl
@[simp] theorem State.bumpFld_sdir (r : Reg) (idx : List Nat) (f : Fld) (n : Nat) : (s.bumpFld r idx f n).sdir = s.sdir := rfl
@[simp] theorem State.bumpFld_lane (r : Reg) (idx : List Nat) (f : Fld) (n : Nat) : (s.bumpFld r idx f n).lane = s.lane := rfl
@[simp] theorem State.bumpFld_xfer (r : Reg) (idx : List Nat) (f : Fld) (n : Nat) : (s.bumpFld r idx f n).xfer = s.xfer := rfl
@[simp] theorem State.bumpFld_chan (r : Reg) (idx : List Nat) (f : Fld) (n : Nat) : (s.bumpFld r idx f n).chan = s.chan := rfl
@[simp] theorem State.bumpFld_comp (r : Reg) (idx : List Nat) (f : Fld) (n : Nat) : (s.bumpFld r idx f n).comp = s.comp := rfl
@[simp] theorem State.bumpFld_edges (r : Reg) (idx : List Nat) (f : Fld) (n : Nat) : (s.bumpFld r idx f n).edges = s.edges := rfl
@[simp] theorem State.bumpFld_oldEdges (r : Reg) (idx : List Nat) (f : Fld) (n : Nat) : (s.bumpFld r idx f n).oldEdges = s.oldEdges := rfl
@[simp] theorem State.bumpFld_arb (r : Reg) (idx : List Nat) (f : Fld) (n : Nat) : (s.bumpFld r idx f n).arb = s.arb := rfl
@[simp] theorem State.bumpFld_dom (r : Reg) (idx : List Nat) (f : Fld) (n : Nat) : (s.bumpFld r idx f n).dom = s.dom := rfl
@[simp] theorem State.bumpFld_sch (r : Reg) (idx : List Nat) (f : Fld) (n : Nat) : (s.bumpFld r idx f n).sch = s.sch := rfl
@[simp] theorem State.bumpFld_half (r : Reg) (idx : List Nat) (f : Fld) (n : Nat) : (s.bumpFld r idx f n).half = s.half := rfl
@[simp] theorem State.bumpFld_slotA (r : Reg) (idx : List Nat) (f : Fld) (n : Nat) : (s.bumpFld r idx f n).slotA = s.slotA := rfl
@[simp] theorem State.bumpFld_slotB (r : Reg) (idx : List Nat) (f : Fld) (n : Nat) : (s.bumpFld r idx f n).slotB = s.slotB := rfl
@[simp] theorem State.bumpFld_smapA (r : Reg) (idx : List Nat) (f : Fld) (n : Nat) : (s.bumpFld r idx f n).smapA = s.smapA := rfl
@[simp] theorem State.bumpFld_smapB (r : Reg) (idx : List Nat) (f : Fld) (n : Nat) : (s.bumpFld r idx f n).smapB = s.smapB := rfl
@[simp] theorem State.bumpFld_staging (r : Reg) (idx : List Nat) (f : Fld) (n : Nat) : (s.bumpFld r idx f n).staging = s.staging := rfl
@[simp] theorem State.bumpFld_gp (r : Reg) (idx : List Nat) (f : Fld) (n : Nat) : (s.bumpFld r idx f n).gp = s.gp := rfl
@[simp] theorem State.bumpFld_checks (r : Reg) (idx : List Nat) (f : Fld) (n : Nat) : (s.bumpFld r idx f n).checks = s.checks := rfl
@[simp] theorem State.bumpFld_clk (r : Reg) (idx : List Nat) (f : Fld) (n : Nat) : (s.bumpFld r idx f n).clk = s.clk := rfl
@[simp] theorem State.bumpFld_pw (r : Reg) (idx : List Nat) (f : Fld) (n : Nat) : (s.bumpFld r idx f n).pw = s.pw := rfl
@[simp] theorem State.bumpFld_bist (r : Reg) (idx : List Nat) (f : Fld) (n : Nat) : (s.bumpFld r idx f n).bist = s.bist := rfl
@[simp] theorem State.bumpFld_rsts (r : Reg) (idx : List Nat) (f : Fld) (n : Nat) : (s.bumpFld r idx f n).rsts = s.rsts := rfl
@[simp] theorem State.bumpFld_boot (r : Reg) (idx : List Nat) (f : Fld) (n : Nat) : (s.bumpFld r idx f n).boot = s.boot := rfl
@[simp] theorem State.bumpFld_sec (r : Reg) (idx : List Nat) (f : Fld) (n : Nat) : (s.bumpFld r idx f n).sec = s.sec := rfl
@[simp] theorem State.bumpFld_pcs (r : Reg) (idx : List Nat) (f : Fld) (n : Nat) : (s.bumpFld r idx f n).pcs = s.pcs := rfl
@[simp] theorem State.bumpFld_cn (r : Reg) (idx : List Nat) (f : Fld) (n : Nat) : (s.bumpFld r idx f n).cn = s.cn := rfl
@[simp] theorem State.bumpFld_bc (r : Reg) (idx : List Nat) (f : Fld) (n : Nat) : (s.bumpFld r idx f n).bc = s.bc := rfl
@[simp] theorem State.bumpFld_rdata (r : Reg) (idx : List Nat) (f : Fld) (n : Nat) : (s.bumpFld r idx f n).rdata = s.rdata := rfl
@[simp] theorem State.bumpFld_flash (r : Reg) (idx : List Nat) (f : Fld) (n : Nat) : (s.bumpFld r idx f n).flash = s.flash := rfl
@[simp] theorem State.bumpFld_fresh (r : Reg) (idx : List Nat) (f : Fld) (n : Nat) : (s.bumpFld r idx f n).fresh = s.fresh := rfl

@[simp] theorem State.poke_pending (a : Nat) (bs : List Byte) : (s.poke a bs).pending = s.pending := rfl
@[simp] theorem State.poke_regs (a : Nat) (bs : List Byte) : (s.poke a bs).regs = s.regs := rfl
@[simp] theorem State.poke_latches (a : Nat) (bs : List Byte) : (s.poke a bs).latches = s.latches := rfl
@[simp] theorem State.poke_helds (a : Nat) (bs : List Byte) : (s.poke a bs).helds = s.helds := rfl
@[simp] theorem State.poke_mem (a : Nat) (bs : List Byte) : (s.poke a bs).mem = pokeMem s.mem a bs := rfl
@[simp] theorem State.poke_tb (a : Nat) (bs : List Byte) : (s.poke a bs).tb = s.tb := rfl
@[simp] theorem State.poke_tbi (a : Nat) (bs : List Byte) : (s.poke a bs).tbi = s.tbi := rfl
@[simp] theorem State.poke_wg (a : Nat) (bs : List Byte) : (s.poke a bs).wg = s.wg := rfl
@[simp] theorem State.poke_nc (a : Nat) (bs : List Byte) : (s.poke a bs).nc = s.nc := rfl
@[simp] theorem State.poke_eng (a : Nat) (bs : List Byte) : (s.poke a bs).eng = s.eng := rfl
@[simp] theorem State.poke_mx (a : Nat) (bs : List Byte) : (s.poke a bs).mx = s.mx := rfl
@[simp] theorem State.poke_vx (a : Nat) (bs : List Byte) : (s.poke a bs).vx = s.vx := rfl
@[simp] theorem State.poke_ls (a : Nat) (bs : List Byte) : (s.poke a bs).ls = s.ls := rfl
@[simp] theorem State.poke_ks (a : Nat) (bs : List Byte) : (s.poke a bs).ks = s.ks := rfl
@[simp] theorem State.poke_bk (a : Nat) (bs : List Byte) : (s.poke a bs).bk = s.bk := rfl
@[simp] theorem State.poke_rt (a : Nat) (bs : List Byte) : (s.poke a bs).rt = s.rt := rfl
@[simp] theorem State.poke_sdir (a : Nat) (bs : List Byte) : (s.poke a bs).sdir = s.sdir := rfl
@[simp] theorem State.poke_lane (a : Nat) (bs : List Byte) : (s.poke a bs).lane = s.lane := rfl
@[simp] theorem State.poke_xfer (a : Nat) (bs : List Byte) : (s.poke a bs).xfer = s.xfer := rfl
@[simp] theorem State.poke_chan (a : Nat) (bs : List Byte) : (s.poke a bs).chan = s.chan := rfl
@[simp] theorem State.poke_comp (a : Nat) (bs : List Byte) : (s.poke a bs).comp = s.comp := rfl
@[simp] theorem State.poke_edges (a : Nat) (bs : List Byte) : (s.poke a bs).edges = s.edges := rfl
@[simp] theorem State.poke_oldEdges (a : Nat) (bs : List Byte) : (s.poke a bs).oldEdges = s.oldEdges := rfl
@[simp] theorem State.poke_arb (a : Nat) (bs : List Byte) : (s.poke a bs).arb = s.arb := rfl
@[simp] theorem State.poke_dom (a : Nat) (bs : List Byte) : (s.poke a bs).dom = s.dom := rfl
@[simp] theorem State.poke_sch (a : Nat) (bs : List Byte) : (s.poke a bs).sch = s.sch := rfl
@[simp] theorem State.poke_half (a : Nat) (bs : List Byte) : (s.poke a bs).half = s.half := rfl
@[simp] theorem State.poke_slotA (a : Nat) (bs : List Byte) : (s.poke a bs).slotA = s.slotA := rfl
@[simp] theorem State.poke_slotB (a : Nat) (bs : List Byte) : (s.poke a bs).slotB = s.slotB := rfl
@[simp] theorem State.poke_smapA (a : Nat) (bs : List Byte) : (s.poke a bs).smapA = s.smapA := rfl
@[simp] theorem State.poke_smapB (a : Nat) (bs : List Byte) : (s.poke a bs).smapB = s.smapB := rfl
@[simp] theorem State.poke_staging (a : Nat) (bs : List Byte) : (s.poke a bs).staging = s.staging := rfl
@[simp] theorem State.poke_gp (a : Nat) (bs : List Byte) : (s.poke a bs).gp = s.gp := rfl
@[simp] theorem State.poke_checks (a : Nat) (bs : List Byte) : (s.poke a bs).checks = s.checks := rfl
@[simp] theorem State.poke_clk (a : Nat) (bs : List Byte) : (s.poke a bs).clk = s.clk := rfl
@[simp] theorem State.poke_pw (a : Nat) (bs : List Byte) : (s.poke a bs).pw = s.pw := rfl
@[simp] theorem State.poke_bist (a : Nat) (bs : List Byte) : (s.poke a bs).bist = s.bist := rfl
@[simp] theorem State.poke_rsts (a : Nat) (bs : List Byte) : (s.poke a bs).rsts = s.rsts := rfl
@[simp] theorem State.poke_boot (a : Nat) (bs : List Byte) : (s.poke a bs).boot = s.boot := rfl
@[simp] theorem State.poke_sec (a : Nat) (bs : List Byte) : (s.poke a bs).sec = s.sec := rfl
@[simp] theorem State.poke_pcs (a : Nat) (bs : List Byte) : (s.poke a bs).pcs = s.pcs := rfl
@[simp] theorem State.poke_cn (a : Nat) (bs : List Byte) : (s.poke a bs).cn = s.cn := rfl
@[simp] theorem State.poke_bc (a : Nat) (bs : List Byte) : (s.poke a bs).bc = s.bc := rfl
@[simp] theorem State.poke_rdata (a : Nat) (bs : List Byte) : (s.poke a bs).rdata = s.rdata := rfl
@[simp] theorem State.poke_flash (a : Nat) (bs : List Byte) : (s.poke a bs).flash = s.flash := rfl
@[simp] theorem State.poke_fresh (a : Nat) (bs : List Byte) : (s.poke a bs).fresh = s.fresh := rfl

@[simp] theorem State.pokeLE_pending (a n x : Nat) : (s.pokeLE a n x).pending = s.pending := rfl
@[simp] theorem State.pokeLE_regs (a n x : Nat) : (s.pokeLE a n x).regs = s.regs := rfl
@[simp] theorem State.pokeLE_latches (a n x : Nat) : (s.pokeLE a n x).latches = s.latches := rfl
@[simp] theorem State.pokeLE_helds (a n x : Nat) : (s.pokeLE a n x).helds = s.helds := rfl
@[simp] theorem State.pokeLE_mem (a n x : Nat) : (s.pokeLE a n x).mem = pokeMem s.mem a (leBytes n x) := rfl
@[simp] theorem State.pokeLE_tb (a n x : Nat) : (s.pokeLE a n x).tb = s.tb := rfl
@[simp] theorem State.pokeLE_tbi (a n x : Nat) : (s.pokeLE a n x).tbi = s.tbi := rfl
@[simp] theorem State.pokeLE_wg (a n x : Nat) : (s.pokeLE a n x).wg = s.wg := rfl
@[simp] theorem State.pokeLE_nc (a n x : Nat) : (s.pokeLE a n x).nc = s.nc := rfl
@[simp] theorem State.pokeLE_eng (a n x : Nat) : (s.pokeLE a n x).eng = s.eng := rfl
@[simp] theorem State.pokeLE_mx (a n x : Nat) : (s.pokeLE a n x).mx = s.mx := rfl
@[simp] theorem State.pokeLE_vx (a n x : Nat) : (s.pokeLE a n x).vx = s.vx := rfl
@[simp] theorem State.pokeLE_ls (a n x : Nat) : (s.pokeLE a n x).ls = s.ls := rfl
@[simp] theorem State.pokeLE_ks (a n x : Nat) : (s.pokeLE a n x).ks = s.ks := rfl
@[simp] theorem State.pokeLE_bk (a n x : Nat) : (s.pokeLE a n x).bk = s.bk := rfl
@[simp] theorem State.pokeLE_rt (a n x : Nat) : (s.pokeLE a n x).rt = s.rt := rfl
@[simp] theorem State.pokeLE_sdir (a n x : Nat) : (s.pokeLE a n x).sdir = s.sdir := rfl
@[simp] theorem State.pokeLE_lane (a n x : Nat) : (s.pokeLE a n x).lane = s.lane := rfl
@[simp] theorem State.pokeLE_xfer (a n x : Nat) : (s.pokeLE a n x).xfer = s.xfer := rfl
@[simp] theorem State.pokeLE_chan (a n x : Nat) : (s.pokeLE a n x).chan = s.chan := rfl
@[simp] theorem State.pokeLE_comp (a n x : Nat) : (s.pokeLE a n x).comp = s.comp := rfl
@[simp] theorem State.pokeLE_edges (a n x : Nat) : (s.pokeLE a n x).edges = s.edges := rfl
@[simp] theorem State.pokeLE_oldEdges (a n x : Nat) : (s.pokeLE a n x).oldEdges = s.oldEdges := rfl
@[simp] theorem State.pokeLE_arb (a n x : Nat) : (s.pokeLE a n x).arb = s.arb := rfl
@[simp] theorem State.pokeLE_dom (a n x : Nat) : (s.pokeLE a n x).dom = s.dom := rfl
@[simp] theorem State.pokeLE_sch (a n x : Nat) : (s.pokeLE a n x).sch = s.sch := rfl
@[simp] theorem State.pokeLE_half (a n x : Nat) : (s.pokeLE a n x).half = s.half := rfl
@[simp] theorem State.pokeLE_slotA (a n x : Nat) : (s.pokeLE a n x).slotA = s.slotA := rfl
@[simp] theorem State.pokeLE_slotB (a n x : Nat) : (s.pokeLE a n x).slotB = s.slotB := rfl
@[simp] theorem State.pokeLE_smapA (a n x : Nat) : (s.pokeLE a n x).smapA = s.smapA := rfl
@[simp] theorem State.pokeLE_smapB (a n x : Nat) : (s.pokeLE a n x).smapB = s.smapB := rfl
@[simp] theorem State.pokeLE_staging (a n x : Nat) : (s.pokeLE a n x).staging = s.staging := rfl
@[simp] theorem State.pokeLE_gp (a n x : Nat) : (s.pokeLE a n x).gp = s.gp := rfl
@[simp] theorem State.pokeLE_checks (a n x : Nat) : (s.pokeLE a n x).checks = s.checks := rfl
@[simp] theorem State.pokeLE_clk (a n x : Nat) : (s.pokeLE a n x).clk = s.clk := rfl
@[simp] theorem State.pokeLE_pw (a n x : Nat) : (s.pokeLE a n x).pw = s.pw := rfl
@[simp] theorem State.pokeLE_bist (a n x : Nat) : (s.pokeLE a n x).bist = s.bist := rfl
@[simp] theorem State.pokeLE_rsts (a n x : Nat) : (s.pokeLE a n x).rsts = s.rsts := rfl
@[simp] theorem State.pokeLE_boot (a n x : Nat) : (s.pokeLE a n x).boot = s.boot := rfl
@[simp] theorem State.pokeLE_sec (a n x : Nat) : (s.pokeLE a n x).sec = s.sec := rfl
@[simp] theorem State.pokeLE_pcs (a n x : Nat) : (s.pokeLE a n x).pcs = s.pcs := rfl
@[simp] theorem State.pokeLE_cn (a n x : Nat) : (s.pokeLE a n x).cn = s.cn := rfl
@[simp] theorem State.pokeLE_bc (a n x : Nat) : (s.pokeLE a n x).bc = s.bc := rfl
@[simp] theorem State.pokeLE_rdata (a n x : Nat) : (s.pokeLE a n x).rdata = s.rdata := rfl
@[simp] theorem State.pokeLE_flash (a n x : Nat) : (s.pokeLE a n x).flash = s.flash := rfl
@[simp] theorem State.pokeLE_fresh (a n x : Nat) : (s.pokeLE a n x).fresh = s.fresh := rfl

@[simp] theorem State.wipe_pending (a n : Nat) : (s.wipe a n).pending = s.pending := rfl
@[simp] theorem State.wipe_regs (a n : Nat) : (s.wipe a n).regs = s.regs := rfl
@[simp] theorem State.wipe_latches (a n : Nat) : (s.wipe a n).latches = s.latches := rfl
@[simp] theorem State.wipe_helds (a n : Nat) : (s.wipe a n).helds = s.helds := rfl
@[simp] theorem State.wipe_mem (a n : Nat) : (s.wipe a n).mem = mclear s.mem a n := rfl
@[simp] theorem State.wipe_tb (a n : Nat) : (s.wipe a n).tb = s.tb := rfl
@[simp] theorem State.wipe_tbi (a n : Nat) : (s.wipe a n).tbi = s.tbi := rfl
@[simp] theorem State.wipe_wg (a n : Nat) : (s.wipe a n).wg = s.wg := rfl
@[simp] theorem State.wipe_nc (a n : Nat) : (s.wipe a n).nc = s.nc := rfl
@[simp] theorem State.wipe_eng (a n : Nat) : (s.wipe a n).eng = s.eng := rfl
@[simp] theorem State.wipe_mx (a n : Nat) : (s.wipe a n).mx = s.mx := rfl
@[simp] theorem State.wipe_vx (a n : Nat) : (s.wipe a n).vx = s.vx := rfl
@[simp] theorem State.wipe_ls (a n : Nat) : (s.wipe a n).ls = s.ls := rfl
@[simp] theorem State.wipe_ks (a n : Nat) : (s.wipe a n).ks = s.ks := rfl
@[simp] theorem State.wipe_bk (a n : Nat) : (s.wipe a n).bk = s.bk := rfl
@[simp] theorem State.wipe_rt (a n : Nat) : (s.wipe a n).rt = s.rt := rfl
@[simp] theorem State.wipe_sdir (a n : Nat) : (s.wipe a n).sdir = s.sdir := rfl
@[simp] theorem State.wipe_lane (a n : Nat) : (s.wipe a n).lane = s.lane := rfl
@[simp] theorem State.wipe_xfer (a n : Nat) : (s.wipe a n).xfer = s.xfer := rfl
@[simp] theorem State.wipe_chan (a n : Nat) : (s.wipe a n).chan = s.chan := rfl
@[simp] theorem State.wipe_comp (a n : Nat) : (s.wipe a n).comp = s.comp := rfl
@[simp] theorem State.wipe_edges (a n : Nat) : (s.wipe a n).edges = s.edges := rfl
@[simp] theorem State.wipe_oldEdges (a n : Nat) : (s.wipe a n).oldEdges = s.oldEdges := rfl
@[simp] theorem State.wipe_arb (a n : Nat) : (s.wipe a n).arb = s.arb := rfl
@[simp] theorem State.wipe_dom (a n : Nat) : (s.wipe a n).dom = s.dom := rfl
@[simp] theorem State.wipe_sch (a n : Nat) : (s.wipe a n).sch = s.sch := rfl
@[simp] theorem State.wipe_half (a n : Nat) : (s.wipe a n).half = s.half := rfl
@[simp] theorem State.wipe_slotA (a n : Nat) : (s.wipe a n).slotA = s.slotA := rfl
@[simp] theorem State.wipe_slotB (a n : Nat) : (s.wipe a n).slotB = s.slotB := rfl
@[simp] theorem State.wipe_smapA (a n : Nat) : (s.wipe a n).smapA = s.smapA := rfl
@[simp] theorem State.wipe_smapB (a n : Nat) : (s.wipe a n).smapB = s.smapB := rfl
@[simp] theorem State.wipe_staging (a n : Nat) : (s.wipe a n).staging = s.staging := rfl
@[simp] theorem State.wipe_gp (a n : Nat) : (s.wipe a n).gp = s.gp := rfl
@[simp] theorem State.wipe_checks (a n : Nat) : (s.wipe a n).checks = s.checks := rfl
@[simp] theorem State.wipe_clk (a n : Nat) : (s.wipe a n).clk = s.clk := rfl
@[simp] theorem State.wipe_pw (a n : Nat) : (s.wipe a n).pw = s.pw := rfl
@[simp] theorem State.wipe_bist (a n : Nat) : (s.wipe a n).bist = s.bist := rfl
@[simp] theorem State.wipe_rsts (a n : Nat) : (s.wipe a n).rsts = s.rsts := rfl
@[simp] theorem State.wipe_boot (a n : Nat) : (s.wipe a n).boot = s.boot := rfl
@[simp] theorem State.wipe_sec (a n : Nat) : (s.wipe a n).sec = s.sec := rfl
@[simp] theorem State.wipe_pcs (a n : Nat) : (s.wipe a n).pcs = s.pcs := rfl
@[simp] theorem State.wipe_cn (a n : Nat) : (s.wipe a n).cn = s.cn := rfl
@[simp] theorem State.wipe_bc (a n : Nat) : (s.wipe a n).bc = s.bc := rfl
@[simp] theorem State.wipe_rdata (a n : Nat) : (s.wipe a n).rdata = s.rdata := rfl
@[simp] theorem State.wipe_flash (a n : Nat) : (s.wipe a n).flash = s.flash := rfl
@[simp] theorem State.wipe_fresh (a n : Nat) : (s.wipe a n).fresh = s.fresh := rfl

/-! ## Reads of what an update leaves -/

@[simp] theorem State.modTb_rd (n : Nat) (f : Tb → Tb) (r' : Reg) (i' : List Nat) : (s.modTb n f).rd r' i' = s.rd r' i' := rfl
@[simp] theorem State.modTb_peek (n : Nat) (f : Tb → Tb) (a' : Nat) : (s.modTb n f).peek a' = s.peek a' := rfl
@[simp] theorem State.modWg_rd (g : Nat) (f : Wg → Wg) (r' : Reg) (i' : List Nat) : (s.modWg g f).rd r' i' = s.rd r' i' := rfl
@[simp] theorem State.modWg_peek (g : Nat) (f : Wg → Wg) (a' : Nat) : (s.modWg g f).peek a' = s.peek a' := rfl
@[simp] theorem State.modNc_rd (c n : Nat) (f : Nc → Nc) (r' : Reg) (i' : List Nat) : (s.modNc c n f).rd r' i' = s.rd r' i' := rfl
@[simp] theorem State.modNc_peek (c n : Nat) (f : Nc → Nc) (a' : Nat) : (s.modNc c n f).peek a' = s.peek a' := rfl
@[simp] theorem State.modEng_rd (c e : Nat) (f : Eng → Eng) (r' : Reg) (i' : List Nat) : (s.modEng c e f).rd r' i' = s.rd r' i' := rfl
@[simp] theorem State.modEng_peek (c e : Nat) (f : Eng → Eng) (a' : Nat) : (s.modEng c e f).peek a' = s.peek a' := rfl
@[simp] theorem State.modLs_rd (k : Nat) (f : Ls → Ls) (r' : Reg) (i' : List Nat) : (s.modLs k f).rd r' i' = s.rd r' i' := rfl
@[simp] theorem State.modLs_peek (k : Nat) (f : Ls → Ls) (a' : Nat) : (s.modLs k f).peek a' = s.peek a' := rfl
@[simp] theorem State.modGp_rd (n : Nat) (f : Gp → Gp) (r' : Reg) (i' : List Nat) : (s.modGp n f).rd r' i' = s.rd r' i' := rfl
@[simp] theorem State.modGp_peek (n : Nat) (f : Gp → Gp) (a' : Nat) : (s.modGp n f).peek a' = s.peek a' := rfl
@[simp] theorem State.modMx_rd (c : Nat) (f : Mx → Mx) (r' : Reg) (i' : List Nat) : (s.modMx c f).rd r' i' = s.rd r' i' := rfl
@[simp] theorem State.modMx_peek (c : Nat) (f : Mx → Mx) (a' : Nat) : (s.modMx c f).peek a' = s.peek a' := rfl
@[simp] theorem State.modVx_rd (c v : Nat) (f : Vx → Vx) (r' : Reg) (i' : List Nat) : (s.modVx c v f).rd r' i' = s.rd r' i' := rfl
@[simp] theorem State.modVx_peek (c v : Nat) (f : Vx → Vx) (a' : Nat) : (s.modVx c v f).peek a' = s.peek a' := rfl
@[simp] theorem State.modRt_rd (c : Nat) (f : Rt → Rt) (r' : Reg) (i' : List Nat) : (s.modRt c f).rd r' i' = s.rd r' i' := rfl
@[simp] theorem State.modRt_peek (c : Nat) (f : Rt → Rt) (a' : Nat) : (s.modRt c f).peek a' = s.peek a' := rfl
@[simp] theorem State.modSdir_rd (d : Nat) (f : Sdir → Sdir) (r' : Reg) (i' : List Nat) : (s.modSdir d f).rd r' i' = s.rd r' i' := rfl
@[simp] theorem State.modSdir_peek (d : Nat) (f : Sdir → Sdir) (a' : Nat) : (s.modSdir d f).peek a' = s.peek a' := rfl
@[simp] theorem State.modLane_rd (d l : Nat) (f : SLane → SLane) (r' : Reg) (i' : List Nat) : (s.modLane d l f).rd r' i' = s.rd r' i' := rfl
@[simp] theorem State.modLane_peek (d l : Nat) (f : SLane → SLane) (a' : Nat) : (s.modLane d l f).peek a' = s.peek a' := rfl
@[simp] theorem State.modXfer_rd (k : Nat) (f : Xfer → Xfer) (r' : Reg) (i' : List Nat) : (s.modXfer k f).rd r' i' = s.rd r' i' := rfl
@[simp] theorem State.modXfer_peek (k : Nat) (f : Xfer → Xfer) (a' : Nat) : (s.modXfer k f).peek a' = s.peek a' := rfl
@[simp] theorem State.modChan_rd (k : Nat) (f : Chan → Chan) (r' : Reg) (i' : List Nat) : (s.modChan k f).rd r' i' = s.rd r' i' := rfl
@[simp] theorem State.modChan_peek (k : Nat) (f : Chan → Chan) (a' : Nat) : (s.modChan k f).peek a' = s.peek a' := rfl
@[simp] theorem State.modArb_rd (k : Nat) (f : Arb → Arb) (r' : Reg) (i' : List Nat) : (s.modArb k f).rd r' i' = s.rd r' i' := rfl
@[simp] theorem State.modArb_peek (k : Nat) (f : Arb → Arb) (a' : Nat) : (s.modArb k f).peek a' = s.peek a' := rfl
@[simp] theorem State.modSch_rd (k : Nat) (f : Sch → Sch) (r' : Reg) (i' : List Nat) : (s.modSch k f).rd r' i' = s.rd r' i' := rfl
@[simp] theorem State.modSch_peek (k : Nat) (f : Sch → Sch) (a' : Nat) : (s.modSch k f).peek a' = s.peek a' := rfl
@[simp] theorem State.modHf_rd (k : Nat) (f : Hf → Hf) (r' : Reg) (i' : List Nat) : (s.modHf k f).rd r' i' = s.rd r' i' := rfl
@[simp] theorem State.modHf_peek (k : Nat) (f : Hf → Hf) (a' : Nat) : (s.modHf k f).peek a' = s.peek a' := rfl
@[simp] theorem State.modDom_rd (k : Nat) (f : Dom → Dom) (r' : Reg) (i' : List Nat) : (s.modDom k f).rd r' i' = s.rd r' i' := rfl
@[simp] theorem State.modDom_peek (k : Nat) (f : Dom → Dom) (a' : Nat) : (s.modDom k f).peek a' = s.peek a' := rfl
@[simp] theorem State.modClk_rd (k : Nat) (f : Clk → Clk) (r' : Reg) (i' : List Nat) : (s.modClk k f).rd r' i' = s.rd r' i' := rfl
@[simp] theorem State.modClk_peek (k : Nat) (f : Clk → Clk) (a' : Nat) : (s.modClk k f).peek a' = s.peek a' := rfl
@[simp] theorem State.modBist_rd (c : Nat) (f : Bist → Bist) (r' : Reg) (i' : List Nat) : (s.modBist c f).rd r' i' = s.rd r' i' := rfl
@[simp] theorem State.modBist_peek (c : Nat) (f : Bist → Bist) (a' : Nat) : (s.modBist c f).peek a' = s.peek a' := rfl
@[simp] theorem State.modPw_rd (f : Pw → Pw) (r' : Reg) (i' : List Nat) : (s.modPw f).rd r' i' = s.rd r' i' := rfl
@[simp] theorem State.modPw_peek (f : Pw → Pw) (a' : Nat) : (s.modPw f).peek a' = s.peek a' := rfl
@[simp] theorem State.modBoot_rd (f : Boot → Boot) (r' : Reg) (i' : List Nat) : (s.modBoot f).rd r' i' = s.rd r' i' := rfl
@[simp] theorem State.modBoot_peek (f : Boot → Boot) (a' : Nat) : (s.modBoot f).peek a' = s.peek a' := rfl
@[simp] theorem State.modSec_rd (f : Sec → Sec) (r' : Reg) (i' : List Nat) : (s.modSec f).rd r' i' = s.rd r' i' := rfl
@[simp] theorem State.modSec_peek (f : Sec → Sec) (a' : Nat) : (s.modSec f).peek a' = s.peek a' := rfl
@[simp] theorem State.modCn_rd (f : Cnet → Cnet) (r' : Reg) (i' : List Nat) : (s.modCn f).rd r' i' = s.rd r' i' := rfl
@[simp] theorem State.modCn_peek (f : Cnet → Cnet) (a' : Nat) : (s.modCn f).peek a' = s.peek a' := rfl
@[simp] theorem State.modBc_rd (k : Nat) (f : Bc → Bc) (r' : Reg) (i' : List Nat) : (s.modBc k f).rd r' i' = s.rd r' i' := rfl
@[simp] theorem State.modBc_peek (k : Nat) (f : Bc → Bc) (a' : Nat) : (s.modBc k f).peek a' = s.peek a' := rfl
@[simp] theorem State.modPcs_rd (f : Pcs → Pcs) (r' : Reg) (i' : List Nat) : (s.modPcs f).rd r' i' = s.rd r' i' := rfl
@[simp] theorem State.modPcs_peek (f : Pcs → Pcs) (a' : Nat) : (s.modPcs f).peek a' = s.peek a' := rfl
@[simp] theorem State.modBk_rd (c b : Nat) (f : Bk → Bk) (r' : Reg) (i' : List Nat) : (s.modBk c b f).rd r' i' = s.rd r' i' := rfl
@[simp] theorem State.modBk_peek (c b : Nat) (f : Bk → Bk) (a' : Nat) : (s.modBk c b f).peek a' = s.peek a' := rfl
@[simp] theorem State.wr_peek (r : Reg) (idx : List Nat) (v : DWord) (a' : Nat) : (s.wr r idx v).peek a' = s.peek a' := rfl
@[simp] theorem State.setFld_peek (r : Reg) (idx : List Nat) (f : Fld) (n : Nat) (a' : Nat) : (s.setFld r idx f n).peek a' = s.peek a' := rfl
@[simp] theorem State.setVal_peek (r : Reg) (idx : List Nat) (n : Nat) (a' : Nat) : (s.setVal r idx n).peek a' = s.peek a' := rfl
@[simp] theorem State.bump_peek (r : Reg) (idx : List Nat) (n : Nat) (a' : Nat) : (s.bump r idx n).peek a' = s.peek a' := rfl
@[simp] theorem State.bumpFld_peek (r : Reg) (idx : List Nat) (f : Fld) (n : Nat) (a' : Nat) : (s.bumpFld r idx f n).peek a' = s.peek a' := rfl
@[simp] theorem State.poke_rd (a : Nat) (bs : List Byte) (r' : Reg) (i' : List Nat) : (s.poke a bs).rd r' i' = s.rd r' i' := rfl
@[simp] theorem State.pokeLE_rd (a n x : Nat) (r' : Reg) (i' : List Nat) : (s.pokeLE a n x).rd r' i' = s.rd r' i' := rfl
@[simp] theorem State.wipe_rd (a n : Nat) (r' : Reg) (i' : List Nat) : (s.wipe a n).rd r' i' = s.rd r' i' := rfl

end Sys2Proof.Machine
end

