-- ==== Sys2Proof/Tests/Slice0.lean ====
section
/-! SUPPORT. Tests: ill-formed commands, a few steps with values the spec gives, and for every statement with hypotheses a state and operands
that meet them, clause by clause. -/

namespace Sys2Proof.Tests

-- the many small kernel checks of one theorem run one after another, not each in a thread of its own
set_option Elab.async false
open Sys2Proof.Machine

/-! ## States of the tests -/

/-- One partition of the first 32 clusters is enabled. -/
def pt : State := (State.reset.setFld .GP_PART_CFG [0] GP_PART_CFG_EN 1).setVal .GP_PART_CL0 [0] 0xFFFFFFFF

/-- Context 0 of a vector core runs and finds one instruction word at address 0. -/
def ins (w : Nat) : State := (pt.setVxState 0 0 vxRunning).pokeLE (vcAddr 0 0 0) 4 w

/-- A world group of one world, in a step that no engine has begun, with one core that emulates it. -/
def gs : State :=
  ((((pt.setFld .WG_CFG [0] WG_CFG_EN 1).setWgState 0 wsStepping).setFld .NC_GMAP_A [0, 0, 0] NC_GMAP_A_EN 1).setNcState 0 0 ncIdle).setFld .SY_NET [0, 0, 0]
    SY_NET_EN 1

/-- A service schedule of partition 0 is active. -/
def svc (s : State) : State := (s.setFld .TL_SSTAT [0, 0] TL_SSTAT_STATE 2).setVal .TL_SCFG [0, 0] (setBits (setBits 0 0 1 1) 1 1 1)

/-- A learning set of one core, on and at a stage, whose core is served by vector core 0. -/
def setAt (stage : Nat) : State :=
  ((gs.modLs 0 fun x => { x with on := true }).setFld .LR_SET_STATUS [0, 0] LR_SET_STATUS_STAGE stage).setFld .LR_CORE_CFG [0, 0] LR_CORE_CFG_EN 1

/-- A matrix core that is on, with one descriptor in its ring and its first profile enabled. -/
def mxs (w : Nat) : State :=
  (((gs.setFld .MX_CFG [0] MX_CFG_EN 1).setVal .MX_DQ_TAIL [0] 1).setFld .QF_PCFG [0, 0] QF_PCFG_EN 1).pokeLE (descAddr 0 0) 64 w

/-- The words of a descriptor of one operation: one element, its operands in the core's own buffers. -/
def word (op wbase : Nat) : Nat :=
  setBits (setBits (setBits (setBits (setBits (setBits 0 28 4 op) 128 64 (mxAddr 0 0x50000)) 192 64 wbase) 256 64 (mxAddr 0 0x50000)) 320 64 (mxAddr 0 0x50000))
    7 1 (if op = 5 ∨ op = 6 then 1 else 0)

/-- The descriptor at the head of that ring. -/
def dsc (op wbase : Nat) : Desc := (mxs (word op wbase)).desc 0 0

/-- That descriptor running, its operands in. -/
def mxr (op wbase : Nat) : State := (mxs (word op wbase)).mxTake 0 (dsc op wbase)

/-- Its record, and its exact rows of A. -/
def runOf (op wbase : Nat) : MRun := (mxs (word op wbase)).mxRunOf 0 (dsc op wbase)
def rowsOf (op wbase : Nat) : List (List Machine.Num) := ((mxr op wbase).exactRows 0 (dsc op wbase) ((mxs (word op wbase)).prof 0 0)).getD []

/-- The same with a group in a step, to which the vector core is bound. -/
def insIn (w : Nat) : State := ((gs.setVxState 0 0 vxRunning).setFld .VX_BIND [0, 0, 0] VX_BIND_EN 1).pokeLE (vcAddr 0 0 0) 4 w

/-- A flit for a core, held at its source or at a router. -/
def flitTo (c slot : Nat) : MFlit := { f := BitVec.ofNat 128 (coordOf c slot <<< 100), rw := true }

/-- Circuits between a vector core's requester endpoint 3, its neighbour's endpoint 4 and a channel's endpoint 768, on an active schedule. -/
def ways (s : State) : State :=
  { s.setFld .TL_SSTAT [0, 0] TL_SSTAT_STATE 2 with
    slotA := [(0, 8 * 2 ^ 80 + 9 * 2 ^ 70)], smapA := [(3 * 1024, 2 ^ 15 + 4), (4 * 1024, 2 ^ 15 + 3), (768 * 1024, 2 ^ 15 + 3)] }

/-- A transfer of vector core 0 to the local store of vector core 1, with one piece or none. -/
def sends (s : State) (write : Bool) (ps : List Piece) : State :=
  s.modXfer 96 fun _ => { own := .vx 0 0 0, ep := 3, write := write, dev := vcAddr 0 1 0, len := 64, pieces := ps, issued := if ps = [] then 0 else 64 }

/-- The piece of that transfer, and where a beat of it has gone. -/
def part (st moved : Nat) (code : Nat := 0) : Piece := { a := vcAddr 0 1 0, n := 64, tgt := 4, st := st, moved := moved, sent := moved, code := code }
def wayTo (s : State) (src dst kind : Nat) : State := (s.carry none src dst 0 0 (mkBeat kind 0 []) 96 (vcAddr 0 1 0)).elim s (·.1)

/-- Partition 0 holds LPDDR behind channel 0. -/
def withRam (s : State) : State :=
  (((s.setVal .GP_PART_SIZE [0] 1).setVal .DM_CAPACITY [] (2 ^ 30)).setVal .DM_EBASE [] (2 ^ 30)).setFld .DM_CH_STATUS [0] DM_CH_STATUS_STATE 1

/-- A group that the consistency check finds good: a timebase, a core that emulates the group, its slot and its enabled parts. -/
def good : State :=
  let s := ((pt.setFld .TB_CFG [0] TB_CFG_EN 1).setFld .NC_CFG [0, 0] NC_CFG_EN 1).setFld .WG_LAGMAX [0] ⟨15, 0⟩ 1
  let s := (s.setFld .SY_NET [0, 0, 0] SY_NET_EN 1).setFld .NC_GMAP_A [0, 0, 0] NC_GMAP_A_EN 1
  let s := ((s.setVal .NC_SIZE [0, 0] 1).setVal .NC_REC_BASE [0, 0] 0x5000).setVal .NC_SLOT_BASE [0, 0] 0x6000
  let s := ((s.setVal .NC_TOUCH_BASE [0, 0] 0x8000).setVal .SY_FO_BASE [0, 0, 0] 0xA000).setVal .SY_FO_COUNT [0, 0, 0] 1
  ((s.setVal .SY_FI_BASE [0, 0, 0] 0xB000).setVal .SY_WPS_BASE [0, 0, 0] 0xC000).pokeLE (coreAddr 0 0 0) 4 1

/-- The block out of its resets, in a start phase. -/
def phase (n : Nat) : State := (State.reset.modBoot fun b => { b with porst := true }).setFld .BU_STATUS [] BU_STATUS_PHASE n

/-- A timebase counts its period, with that expiry at the front of the queue. -/
def ticks : State := ((State.reset.setFld .TB_CFG [0] TB_CFG_EN 1).setFld .TB_CFG [0] TB_CFG_SRC 1).setVal .TB_PERIOD [0] 5
theorem ticks_wf : ({ ticks with pending := [.tbPeriodExpiry 0] } : State).Wf := by constructor <;> decide +kernel

/-! ## What the spec states, on small states -/

/-- A WRITE carries its address and at most 14 words (R319, R320). -/
theorem test_write_of_fifteen_words_is_ill_formed :
    (Instr.cnWrite 0 0 (List.replicate 15 0) ⟨[], []⟩).wf = false ∧
    exec (.cnWrite 0 0 (List.replicate 15 0) ⟨[], []⟩) State.reset = .fault .illFormed := ⟨by decide, rfl⟩

/-- A REDUCE carries 1 to 15 words (R320, R321). -/
theorem test_reduce_of_no_or_sixteen_words_is_ill_formed :
    (Instr.cnReduce 0 0 0 [] []).wf = false ∧ (Instr.cnReduce 0 0 0 (List.replicate 16 0) []).wf = false ∧
    exec (.cnReduce 0 0 0 [] []) State.reset = .fault .illFormed := ⟨by decide, by decide, rfl⟩

/-- A BCAST segment is 14 words and their CRC (R502). -/
theorem test_broadcast_of_thirteen_words_is_ill_formed :
    (Instr.cnBcast 0 0 0 (List.replicate 13 0) 0 []).wf = false ∧
    exec (.cnBcast 0 0 0 (List.replicate 13 0) 0 []) State.reset = .fault .illFormed := ⟨by decide, rfl⟩

/-- A STATUS carries at most 15 words (R320). -/
theorem test_status_of_sixteen_words_is_ill_formed :
    (Instr.cnStatus 0 0 (List.replicate 16 0) []).wf = false ∧
    exec (.cnStatus 0 0 (List.replicate 16 0) []) State.reset = .fault .illFormed := ⟨by decide, rfl⟩

/-- No row of the table gives bits. -/
theorem test_no_word_spells_a_command : decodeTableWord 32 0 = none ∧ State.reset.withFetchWord 32 0 = State.reset := ⟨rfl, rfl⟩

/-- Commands run first in, first out; with none waiting the block idles. -/
theorem test_step_idles : step State.reset = .next State.reset := rfl
theorem test_step_takes_the_front :
    step { State.reset with pending := [.sysrstAssert, .porstAssert] } = exec .sysrstAssert { State.reset with pending := [.porstAssert] } := rfl

/-- One period of a timebase on SRC 1 adds one to its target (R56). -/
theorem test_period_counts : (ticks.tbExpire 0).val .TB_TARGET [0] = 1 := by decide +kernel

/-- In mode 1, A rising while B is low counts up, B rising while A is low counts down, and both changing at once is illegal (R53). -/
theorem test_quadrature :
    edgeCount 1 false false false true false = (1, false) ∧ edgeCount 1 false false false false true = (-1, false) ∧
    edgeCount 1 false false false true true = (0, true) := by decide

/-- SADD wraps; an instruction that names s0 as its destination changes no register (R223, R227). -/
theorem test_sadd_wraps :
    (((((ins 0x04611000).modCtx 0 0 0 fun u => { u with s := [(1, 0xFFFFFFFF), (2, 1)] }).vxStep [] 0 0 0 1 (State.doSadd 0 0)).vctx 0 0 0).sreg 3) = 0 := by
  decide +kernel
theorem test_s0_is_not_written :
    (((((ins 0x04011000).modCtx 0 0 0 fun u => { u with s := [(1, 5), (2, 1)] }).vxStep [] 0 0 0 1 (State.doSadd 0 0)).vctx 0 0 0).s) = [(1, 5), (2, 1)] := by
  decide +kernel

/-- T_0 = 2^15 squares to T_1 = 2^14 and T_2 = 2^12 (R95). -/
theorem test_power_table : powers 3 0x8000 = [0x8000, 0x4000, 0x1000] := by decide

/-- Bit 0 of a flit stands at code position 3, so it sets CHK bits 0, 1 and, with an odd number of bits set, 7 (R125). -/
theorem test_flit_check : sealFlit 1 = BitVec.ofNat 128 (0x83 * 2 ^ 120 + 1) := by decide +kernel

/-- The CRC-32C of the nine digits 1 to 9 (its published check value). -/
theorem test_crc32c : crc32c ([0x31, 0x32, 0x33, 0x34, 0x35, 0x36, 0x37, 0x38, 0x39] : List Byte) = 0xE3069283 := by decide +kernel

/-- A count of 2 is SERVICE, 3 RETURN, 31 DECOMMISSIONED (R533). -/
theorem test_life_cycle : Sec.state { lc := 3 } = 2 ∧ Sec.state { lc := 7 } = 3 ∧ Sec.state { lc := 2 ^ 31 - 1 } = 4 := by decide +kernel


/-- SHA3-512 of the empty message, and AES-256 of the example of FIPS 197: the published answers, as numbers with the first byte the highest. -/
theorem test_published_digest_and_cipher :
    leNat (sha3 []).reverse = 0xa69f73cca23a9ac5c8b567dc185a756e97c982164fe25859e0d1dcc1475c80a615b2123af1f5f94c11e3e9402c3ac558f500199d95b6d3e301758586281dcd26 ∧
    leNat (aesBlock (aesKeys ((List.range 32).map (BitVec.ofNat 8))) ((List.range 16).map fun i => BitVec.ofNat 8 (17 * i))).reverse =
      0x8ea2b7ca516745bfeafc49904b496089 := by decide +kernel
/-! A keep store that has programmed no page finds one to program (R187, R193). -/
theorem finds_page (s : State) (h : s.ks.pages = []) : s.freePage = some (s.freePage.getD 0) := by
  have step : ∀ (l : List Nat) (b : Option Nat), (b.isSome = true ∨ 64 ∈ l) → (l.foldl (fun best p =>
      let g := s.page p
      if rootPage p || g.used || g.retired then best
      else match best with
        | none => some p
        | some q => if g.progs < (s.page q).progs then some p else best) b).isSome = true := by
    intro l
    induction l with
    | nil => intro b hb; simpa using hb
    | cons a l ih =>
      intro b hb
      simp only [List.foldl_cons]
      apply ih
      rcases hb with hb | hb
      · left; split <;> [exact hb; (split <;> [rfl; (split <;> [rfl; exact hb])])]
      · rcases List.mem_cons.mp hb with rfl | hb
        · left
          have hp : s.page 64 = {} := by simp [State.page, h, mget]; rfl
          simp only [hp]
          rw [if_neg (by decide)]
          split <;> [rfl; (split <;> rfl)]
        · exact .inr hb
  have hs : s.freePage.isSome = true := by
    unfold State.freePage
    rw [if_neg (by simp [State.pagesFree, State.pagesBad, State.pagesSpare, State.pagesUsed, h])]
    exact step _ _ (.inr (by simp))
  cases hq : s.freePage with
  | none => simp [hq] at hs
  | some p => rfl

theorem puts_page (s : State) (h : s.ks.pages = []) (key gen lpn cnt : Nat) (bs : List Byte) :
    (s.putPage [] key gen lpn none bs { cnt := cnt }).2.pages = [s.freePage.getD 0] := by
  have ho : s.pageOps (none : Option Nat).toList = s := rfl
  simp only [State.putPage, Option.filter, ho]
  rw [show (49152 : Nat) = 49151 + 1 from rfl, State.programPage, finds_page s h]
  rfl

/-! ## States and operands that meet the hypotheses of the statements -/

theorem test_met_RegisterAccessesReadLatchHoldAndCommit :
    (∃ s : State, ∃ req : Requester, ∃ a : BitVec 48,
      let rds (w : Width) (c : Instr) : Prop := c = .reg64LowerRead req w a ∨ c = .regReadClear req w a
      ∃ w, ((w = .w8 ∨ w = .w16 ∨ w = .w32 ∧ a.toNat % 4 ≠ 0) ∧ s.regReach req a.toNat false = true) ∧ ∃ c, rds w c) ∧
    (∃ s : State, ∃ req : Requester, ∃ a : BitVec 48,
      let wrs (w : Width) (v : DWord) (c : Instr) : Prop := c = .registerWrite req w a v ∨ c = .reg64UpperWrite req w a v
      ∃ w, ∃ v, ((w = .w8 ∨ w = .w16 ∨ w = .w32 ∧ a.toNat % 4 ≠ 0) ∧ s.regReach req a.toNat true = true) ∧ ∃ c, wrs w v c) ∧
    (∃ s : State, ∃ req : Requester, ∃ a : BitVec 48,
      let rds (w : Width) (c : Instr) : Prop := c = .reg64LowerRead req w a ∨ c = .regReadClear req w a
      ∃ r : Reg, ∃ idx : List Nat, ∃ h : List Nat, ∃ off : Nat, (a.toNat % 4 = 0 ∧ producerLine a.toNat = false ∧ findReg a.toNat = some (r, idx,
        off) ∧ s.regUp a.toNat = true ∧ r.desc.bytes ≤ 8) ∧
      let t := s.regTouch r a.toNat
      let t' := t.regTouch r (a.toNat + 4)
      (t.homeIdx r idx = some h ∧ t'.homeIdx r idx = some h ∧ s.regReachReg req (some r) a.toNat false = true) ∧ ∃ c, rds .w32 c ∧ r.desc.bytes = 4) ∧
    (∃ s : State, ∃ req : Requester, ∃ a : BitVec 48,
      let rds (w : Width) (c : Instr) : Prop := c = .reg64LowerRead req w a ∨ c = .regReadClear req w a
      ∃ r : Reg, ∃ idx : List Nat, ∃ h : List Nat, ∃ off : Nat, (a.toNat % 4 = 0 ∧ producerLine a.toNat = false ∧ findReg a.toNat = some (r, idx,
        off) ∧ s.regUp a.toNat = true ∧ r.desc.bytes ≤ 8) ∧
      let t := s.regTouch r a.toNat
      let t' := t.regTouch r (a.toNat + 4)
      (t.homeIdx r idx = some h ∧ t'.homeIdx r idx = some h ∧ s.regReachReg req (some r) a.toNat false = true) ∧ ∃ c, rds .w32 c ∧ r.desc.bytes = 8
        ∧ off = 0) ∧
    (∃ s : State, ∃ req : Requester, ∃ a : BitVec 48,
      let rds (w : Width) (c : Instr) : Prop := c = .reg64LowerRead req w a ∨ c = .regReadClear req w a
      ∃ r : Reg, ∃ idx : List Nat, ∃ h : List Nat, ∃ off : Nat, (a.toNat % 4 = 0 ∧ producerLine a.toNat = false ∧ findReg a.toNat = some (r, idx,
        off) ∧ s.regUp a.toNat = true ∧ r.desc.bytes ≤ 8) ∧
      let t := s.regTouch r a.toNat
      let t' := t.regTouch r (a.toNat + 4)
      (t.homeIdx r idx = some h ∧ t'.homeIdx r idx = some h ∧ s.regReachReg req (some r) a.toNat false = true) ∧ ∃ c, rds .w32 c ∧ ∃ w, r.desc.bytes
        = 8 ∧ off = 4 ∧ mget t.latches (latchKey req (a.toNat - 4)) = some w) ∧
    (∃ s : State, ∃ req : Requester, ∃ a : BitVec 48,
      let rds (w : Width) (c : Instr) : Prop := c = .reg64LowerRead req w a ∨ c = .regReadClear req w a
      ∃ r : Reg, ∃ idx : List Nat, ∃ h : List Nat, ∃ off : Nat, (a.toNat % 4 = 0 ∧ producerLine a.toNat = false ∧ findReg a.toNat = some (r, idx,
        off) ∧ s.regUp a.toNat = true ∧ r.desc.bytes ≤ 8) ∧
      let t := s.regTouch r a.toNat
      let t' := t.regTouch r (a.toNat + 4)
      (t.homeIdx r idx = some h ∧ t'.homeIdx r idx = some h ∧ s.regReachReg req (some r) a.toNat false = true) ∧ ∃ c, rds .w32 c ∧ r.desc.bytes = 8
        ∧ off = 4 ∧ mget t.latches (latchKey req (a.toNat - 4)) = none) ∧
    (∃ s : State, ∃ req : Requester, ∃ a : BitVec 48,
      let rds (w : Width) (c : Instr) : Prop := c = .reg64LowerRead req w a ∨ c = .regReadClear req w a
      ∃ r : Reg, ∃ idx : List Nat, ∃ h : List Nat, ∃ off : Nat, (a.toNat % 4 = 0 ∧ producerLine a.toNat = false ∧ findReg a.toNat = some (r, idx,
        off) ∧ s.regUp a.toNat = true ∧ r.desc.bytes ≤ 8) ∧
      let t := s.regTouch r a.toNat
      let t' := t.regTouch r (a.toNat + 4)
      (t.homeIdx r idx = some h ∧ t'.homeIdx r idx = some h ∧ s.regReachReg req (some r) a.toNat false = true) ∧ ∃ c, rds .w64 c ∧ r.desc.bytes = 8
        ∧ off = 0 ∧ a.toNat % 8 = 0 ∧ findReg (a.toNat + 4) = some (r, idx, 4) ∧ producerLine (a.toNat + 4) = false ∧ s.regUp (a.toNat + 4) = true) ∧
    (∃ s : State, ∃ req : Requester, ∃ a : BitVec 48,
      let wrs (w : Width) (v : DWord) (c : Instr) : Prop := c = .registerWrite req w a v ∨ c = .reg64UpperWrite req w a v
      ∃ r : Reg, ∃ idx : List Nat, ∃ h : List Nat, ∃ off : Nat, (a.toNat % 4 = 0 ∧ producerLine a.toNat = false ∧ findReg a.toNat = some (r, idx,
        off) ∧ s.regUp a.toNat = true ∧ r.desc.bytes ≤ 8) ∧
      let t := s.regTouch r a.toNat
      let t' := t.regTouch r (a.toNat + 4)
      (t.homeIdx r idx = some h ∧ t'.homeIdx r idx = some h) ∧ ∃ v : DWord, s.regReachReg req (some r) a.toNat true = true ∧ ∃ c, wrs .w32 v c ∧
        r.desc.bytes = 4 ∧ t.regWrite req r h (v.toNat % 2 ^ 32) none = (0, t.store r h (v.toNat % 2 ^ 32))) ∧
    (∃ s : State, ∃ req : Requester, ∃ a : BitVec 48,
      let wrs (w : Width) (v : DWord) (c : Instr) : Prop := c = .registerWrite req w a v ∨ c = .reg64UpperWrite req w a v
      ∃ r : Reg, ∃ idx : List Nat, ∃ h : List Nat, ∃ off : Nat, (a.toNat % 4 = 0 ∧ producerLine a.toNat = false ∧ findReg a.toNat = some (r, idx,
        off) ∧ s.regUp a.toNat = true ∧ r.desc.bytes ≤ 8) ∧
      let t := s.regTouch r a.toNat
      let t' := t.regTouch r (a.toNat + 4)
      (t.homeIdx r idx = some h ∧ t'.homeIdx r idx = some h) ∧ ∃ v : DWord, s.regReachReg req (some r) a.toNat true = true ∧ ∃ c, wrs .w32 v c ∧
        r.desc.bytes = 8 ∧ off = 0) ∧
    (∃ s : State, ∃ req : Requester, ∃ a : BitVec 48,
      let wrs (w : Width) (v : DWord) (c : Instr) : Prop := c = .registerWrite req w a v ∨ c = .reg64UpperWrite req w a v
      ∃ r : Reg, ∃ idx : List Nat, ∃ h : List Nat, ∃ off : Nat, (a.toNat % 4 = 0 ∧ producerLine a.toNat = false ∧ findReg a.toNat = some (r, idx,
        off) ∧ s.regUp a.toNat = true ∧ r.desc.bytes ≤ 8) ∧
      let t := s.regTouch r a.toNat
      let t' := t.regTouch r (a.toNat + 4)
      (t.homeIdx r idx = some h ∧ t'.homeIdx r idx = some h) ∧ ∃ v : DWord, s.regReachReg req (some r) a.toNat true = true ∧ ∃ c, wrs .w32 v c ∧
        (r.desc.bytes = 8 ∧ off = 4) ∧
      let low := match mget t.helds (latchKey req (a.toNat - 4)) with | some w => w.toNat | none => t.val r h % 2 ^ 32
      let u := { t with helds := mput t.helds (latchKey req (a.toNat - 4)) none }
      let x := low + 2 ^ 32 * (v.toNat % 2 ^ 32)
      u.regWrite req r h x none = (0, u.store r h x)) ∧
    (∃ s : State, ∃ req : Requester, ∃ a : BitVec 48,
      let wrs (w : Width) (v : DWord) (c : Instr) : Prop := c = .registerWrite req w a v ∨ c = .reg64UpperWrite req w a v
      ∃ r : Reg, ∃ idx : List Nat, ∃ h : List Nat, ∃ off : Nat, (a.toNat % 4 = 0 ∧ producerLine a.toNat = false ∧ findReg a.toNat = some (r, idx,
        off) ∧ s.regUp a.toNat = true ∧ r.desc.bytes ≤ 8) ∧
      let t := s.regTouch r a.toNat
      let t' := t.regTouch r (a.toNat + 4)
      (t.homeIdx r idx = some h ∧ t'.homeIdx r idx = some h) ∧ ∃ v : DWord, s.regReachReg req (some r) a.toNat true = true ∧ ∃ c, wrs .w64 v c ∧
        r.desc.bytes = 8 ∧ off = 0 ∧ a.toNat % 8 = 0 ∧ findReg (a.toNat + 4) = some (r, idx, 4) ∧ s.regUp (a.toNat + 4) = true) :=
  ⟨⟨State.reset, .steward 0, 0, (.w8 : Width), by decide +kernel, Instr.reg64LowerRead (.steward 0) .w8 0, by decide⟩,
   ⟨State.reset, .steward 0, 0, (.w16 : Width), (0 : DWord), by decide +kernel, Instr.registerWrite (.steward 0) .w16 0 0, by decide⟩,
   ⟨State.reset, .steward 0, BitVec.ofNat 48 (Reg.TB_CFG.place [0]), .TB_CFG, [0], [0], 0, by decide +kernel, by decide +kernel,
     Instr.reg64LowerRead (.steward 0) .w32 (BitVec.ofNat 48 (Reg.TB_CFG.place [0])), by decide, by decide +kernel⟩,
   ⟨State.reset, .steward 0, BitVec.ofNat 48 (Reg.TB_TARGET.place [0]), .TB_TARGET, [0], [0], 0, by decide +kernel, by decide +kernel,
     Instr.reg64LowerRead (.steward 0) .w32 (BitVec.ofNat 48 (Reg.TB_TARGET.place [0])), by decide, by decide +kernel⟩,
   ⟨{ State.reset with latches := mput [] (latchKey (.steward 0) (Reg.TB_TARGET.place [0])) (some 5) }, .steward 0, BitVec.ofNat 48
     (Reg.TB_TARGET.place [0] + 4), .TB_TARGET, [0], [0], 4, by decide +kernel, by decide +kernel, Instr.reg64LowerRead (.steward 0) .w32
     (BitVec.ofNat 48 (Reg.TB_TARGET.place [0] + 4)), by decide, (5 : Word), by decide +kernel⟩,
   ⟨State.reset, .steward 0, BitVec.ofNat 48 (Reg.TB_TARGET.place [0] + 4), .TB_TARGET, [0], [0], 4, by decide +kernel, by decide +kernel,
     Instr.reg64LowerRead (.steward 0) .w32 (BitVec.ofNat 48 (Reg.TB_TARGET.place [0] + 4)), by decide, by decide +kernel⟩,
   ⟨State.reset, .steward 0, BitVec.ofNat 48 (Reg.TB_TARGET.place [0]), .TB_TARGET, [0], [0], 0, by decide +kernel, by decide +kernel,
     Instr.reg64LowerRead (.steward 0) .w64 (BitVec.ofNat 48 (Reg.TB_TARGET.place [0])), by decide, by decide +kernel⟩,
   ⟨State.reset, .steward 0, BitVec.ofNat 48 (Reg.TB_PERIOD.place [0]), .TB_PERIOD, [0], [0], 0, by decide +kernel, by decide +kernel, 0,
     by decide +kernel, Instr.registerWrite (.steward 0) .w32 (BitVec.ofNat 48 (Reg.TB_PERIOD.place [0])) 0, by decide, by decide +kernel⟩,
   ⟨State.reset, .steward 0, BitVec.ofNat 48 (Reg.TB_TARGET.place [0]), .TB_TARGET, [0], [0], 0, by decide +kernel, by decide +kernel, 0,
     by decide +kernel, Instr.registerWrite (.steward 0) .w32 (BitVec.ofNat 48 (Reg.TB_TARGET.place [0])) 0, by decide, by decide +kernel⟩,
   ⟨State.reset, .steward 0, BitVec.ofNat 48 (Reg.TB_TARGET.place [0] + 4), .TB_TARGET, [0], [0], 4, by decide +kernel, by decide +kernel, 0,
     by decide +kernel, Instr.registerWrite (.steward 0) .w32 (BitVec.ofNat 48 (Reg.TB_TARGET.place [0] + 4)) 0, by decide, by decide +kernel,
     by decide +kernel⟩,
   ⟨State.reset, .steward 0, BitVec.ofNat 48 (Reg.TB_TARGET.place [0]), .TB_TARGET, [0], [0], 0, by decide +kernel, by decide +kernel, 0,
     by decide +kernel, Instr.registerWrite (.steward 0) .w64 (BitVec.ofNat 48 (Reg.TB_TARGET.place [0])) 0, by decide, by decide +kernel⟩⟩

theorem test_met_AccessCodesDecideWhatAPlainWriteStores :
    (∃ r : Reg, ∃ f : Fld, ∃ acc : Acc, ∃ k : Nat, (f, acc, k) ∈ r.desc.fields) ∧
    (∃ r : Reg, ∃ idx : List Nat, ∃ f : Fld, ∃ acc : Acc, ∃ k : Nat, (f, acc, k) ∈ r.desc.fields ∧ ∃ r' : Reg, ∃ idx' : List Nat, r'.addr idx' ≠
        r.addr idx) :=
  ⟨⟨.TB_CFG, TB_CFG_EN, .rw, 0, by decide +kernel⟩,
   ⟨.TB_CFG, [0], TB_CFG_EN, .rw, 0, by decide +kernel, .TB_TARGET, [0], by decide +kernel⟩⟩

theorem test_met_BlocksThatAreOffReadZeroAndTakeNoWrite :
    (∃ s : State, ∃ req : Requester, ∃ w : Width, ∃ a : BitVec 48, ∃ r : Reg, ∃ idx : List Nat, ∃ off : Nat, ∃ n : Nat, findReg a.toNat = some (r,
        idx, off) ∧ (findReg (a.toNat - a.toNat % 4)).isSome = true ∧ regDomain a.toNat = some n ∧ s.domOn n = false ∧ s.regReachReg req (some r)
        a.toNat false = true ∧ w ≠ .w64) ∧
    (∃ s : State, ∃ req : Requester, ∃ w : Width, ∃ a : BitVec 48, ∃ r : Reg, ∃ idx : List Nat, ∃ off : Nat, ∃ n : Nat, findReg a.toNat = some (r,
        idx, off) ∧ (findReg (a.toNat - a.toNat % 4)).isSome = true ∧ regDomain a.toNat = some n ∧ s.domOn n = false ∧ s.regReachReg req (some r)
        a.toNat true = true ∧ w ≠ .w64) ∧
    (∃ s : State, ∃ req : Requester, ∃ w : Width, ∃ a : BitVec 48, ∃ r : Reg, ∃ idx : List Nat, ∃ off : Nat, ∃ n : Nat, findReg a.toNat = some (r,
        idx, off) ∧ (findReg (a.toNat - a.toNat % 4)).isSome = true ∧ regDomain a.toNat = some n ∧ s.domOn n = false ∧ w = .w64 ∧ r.desc.bytes = 8 ∧
        off = 0 ∧ a.toNat % 8 = 0 ∧ findReg (a.toNat + 4) = some (r, idx, 4) ∧ regDomain (a.toNat + 4) = some n ∧ s.regReachReg req (some r) a.toNat
        false = true) ∧
    (∃ s : State, ∃ req : Requester, ∃ w : Width, ∃ a : BitVec 48, ∃ r : Reg, ∃ idx : List Nat, ∃ off : Nat, ∃ n : Nat, findReg a.toNat = some (r,
        idx, off) ∧ (findReg (a.toNat - a.toNat % 4)).isSome = true ∧ regDomain a.toNat = some n ∧ s.domOn n = false ∧ w = .w64 ∧ r.desc.bytes = 8 ∧
        off = 0 ∧ a.toNat % 8 = 0 ∧ findReg (a.toNat + 4) = some (r, idx, 4) ∧ regDomain (a.toNat + 4) = some n ∧ s.regReachReg req (some r) a.toNat
        true = true) :=
  ⟨⟨State.reset.setFld .PW_STAT [228] PW_STAT_STATE 1, .steward 0, .w32, BitVec.ofNat 48 (Reg.TB_TARGET.place [0]), .TB_TARGET, [0], 0, 228,
      by decide +kernel⟩,
   ⟨State.reset.setFld .PW_STAT [228] PW_STAT_STATE 1, .steward 0, .w32, BitVec.ofNat 48 (Reg.TB_TARGET.place [0]), .TB_TARGET, [0], 0, 228,
     by decide +kernel⟩,
   ⟨State.reset.setFld .PW_STAT [228] PW_STAT_STATE 1, .steward 0, .w64, BitVec.ofNat 48 (Reg.TB_TARGET.place [0]), .TB_TARGET, [0], 0, 228,
     by decide +kernel⟩,
   ⟨State.reset.setFld .PW_STAT [228] PW_STAT_STATE 1, .steward 0, .w64, BitVec.ofNat 48 (Reg.TB_TARGET.place [0]), .TB_TARGET, [0], 0, 228,
     by decide +kernel⟩⟩

theorem test_met_TimebaseCommandsHaveTheirEffects :
    (∃ s : State, ∃ m : Fin 8, ∃ a : Bool, ∃ b : Bool,
      let pins := (mget s.tbi m.val).pins / 4 * 4 + (if b then 2 else 0) + (if a then 1 else 0)
      let old := s.tbiLevels m.val
      let new := s.tbiSeen m.val pins
      let r := edgeCount (s.fld .TB_IN_CFG [m.val] TB_IN_CFG_MODE) (s.bit .TB_IN_CFG [m.val] TB_IN_CFG_DIRSWAP) (old.testBit 0) (old.testBit 1)
        (new.testBit 0) (new.testBit 1)
      r = (0, false)) ∧
    (∃ s : State, ∃ m : Fin 8, ∃ a : Bool, ∃ b : Bool,
      let pins := (mget s.tbi m.val).pins / 4 * 4 + (if b then 2 else 0) + (if a then 1 else 0)
      let old := s.tbiLevels m.val
      let new := s.tbiSeen m.val pins
      let r := edgeCount (s.fld .TB_IN_CFG [m.val] TB_IN_CFG_MODE) (s.bit .TB_IN_CFG [m.val] TB_IN_CFG_DIRSWAP) (old.testBit 0) (old.testBit 1)
        (new.testBit 0) (new.testBit 1)
      r.1 ≠ 0 ∧ r.2 = false) ∧
    (∃ s : State, ∃ m : Fin 8, ∃ a : Bool, ∃ b : Bool,
      let pins := (mget s.tbi m.val).pins / 4 * 4 + (if b then 2 else 0) + (if a then 1 else 0)
      let old := s.tbiLevels m.val
      let new := s.tbiSeen m.val pins
      let r := edgeCount (s.fld .TB_IN_CFG [m.val] TB_IN_CFG_MODE) (s.bit .TB_IN_CFG [m.val] TB_IN_CFG_DIRSWAP) (old.testBit 0) (old.testBit 1)
        (new.testBit 0) (new.testBit 1)
      r.2 = true) ∧
    (∃ s : State, ∃ m : Fin 8, ∃ z : Bool,
      let pins := (mget s.tbi m.val).pins % 4 + (if z then 4 else 0)
      let old := s.tbiLevels m.val
      let new := s.tbiSeen m.val pins
      (old.testBit 2 = true ∨ new.testBit 2 = false)) ∧
    (∃ s : State, ∃ m : Fin 8, ∃ z : Bool,
      let pins := (mget s.tbi m.val).pins % 4 + (if z then 4 else 0)
      let old := s.tbiLevels m.val
      let new := s.tbiSeen m.val pins
      old.testBit 2 = false ∧ new.testBit 2 = true) ∧
    (∃ s : State, ∃ n : Fin 64, s.bit .TB_CFG [n.val] TB_CFG_EN = true ∧ s.fld .TB_CFG [n.val] TB_CFG_SRC = 1 ∧ s.val .TB_PERIOD [n.val] ≠ 0) ∧
    (∃ s : State, ∃ req : Requester, ∃ n : Fin 64, s.Reached req .TB_TARGET [n.val] ∧ s.deviceUnitCode req (s.bit .TB_CFG [n.val] TB_CFG_EN) (s.fld
        .TB_CFG [n.val] TB_CFG_PART) none = 0 ∧ s.bit .TB_CFG [n.val] TB_CFG_EN = true ∧ s.fld .TB_CFG [n.val] TB_CFG_SRC = 2) ∧
    (∃ s : State, ∃ req : Requester, ∃ n : Fin 64, ∃ v : Word, s.Reached req .TB_CFG [n.val] ∧ s.deviceUnitCode req false (s.fld .TB_CFG [n.val]
        TB_CFG_PART) (some (bitsOf (withEn v true) 8 3)) = 0 ∧ s.checking (.tb n.val) = false ∧ s.bit .TB_CFG [n.val] TB_CFG_EN = false) ∧
    (∃ s : State, ∃ req : Requester, ∃ n : Fin 64, ∃ v : Word, s.Reached req .TB_CFG [n.val] ∧ s.deviceUnitCode req true (s.fld .TB_CFG [n.val]
        TB_CFG_PART) (some (bitsOf (withEn v false) 8 3)) = 0 ∧ s.checking (.tb n.val) = false ∧ s.bit .TB_CFG [n.val] TB_CFG_EN = true) ∧
    (∃ s : State, ∃ req : Requester, ∃ m : Fin 8, s.Reached req .TB_IN_CFG [m.val] ∧ s.tbsOf m.val = []) :=
  ⟨⟨State.reset, 0, false, false, by decide +kernel⟩,
   ⟨State.reset.setFld .TB_IN_CFG [0] TB_IN_CFG_MODE 1, 0, true, false, by decide +kernel⟩,
   ⟨State.reset.setFld .TB_IN_CFG [0] TB_IN_CFG_MODE 1, 0, true, true, by decide +kernel⟩,
   ⟨State.reset, 0, false, by decide +kernel⟩,
   ⟨State.reset, 0, true, by decide +kernel⟩,
   ⟨((State.reset.setFld .TB_CFG [0] TB_CFG_EN 1).setFld .TB_CFG [0] TB_CFG_SRC 1).setVal .TB_PERIOD [0] 5, 0, by decide +kernel⟩,
   ⟨(State.reset.setFld .TB_CFG [0] TB_CFG_EN 1).setFld .TB_CFG [0] TB_CFG_SRC 2, .steward 0, 0, by unfold State.Reached; decide +kernel⟩,
   ⟨State.reset, .steward 0, 0, 0, by unfold State.Reached; decide +kernel⟩,
   ⟨State.reset.setFld .TB_CFG [0] TB_CFG_EN 1, .steward 0, 0, 0, by unfold State.Reached; decide +kernel⟩,
   ⟨State.reset, .steward 0, 0, by unfold State.Reached; decide +kernel⟩⟩

theorem test_met_WorldGroupCommandsHaveTheirEffects :
    (∃ s : State, ∃ req : Requester, ∃ g : Fin 256, ∃ v : Word, s.Reached req .WG_CFG [g.val] ∧ s.deviceUnitCode req false (s.wgPart g) (some
        (bitsOf (withEn v true) 7 3)) = 0 ∧ s.checking (.wg g.val) = false ∧ s.bit .WG_CFG [g.val] WG_CFG_EN = false ∧ s.wgState g.val = wsDisabled) ∧
    (∃ s : State, ∃ req : Requester, ∃ g : Fin 256, ∃ v : Word, s.Reached req .WG_CFG [g.val] ∧ s.deviceUnitCode req true (s.wgPart g) (some (bitsOf
        (withEn v false) 7 3)) = 0 ∧ s.checking (.wg g.val) = false ∧ s.bit .WG_CFG [g.val] WG_CFG_EN = true ∧ s.wgState g.val ≠ wsDisabled) ∧
    (∃ s : State, ∃ g : Fin 256, ∃ k : Nat, s.mayOpen g.val = true ∧ s.openGap g.val = k ∧ k ≠ 0 ∧ s.fenced g.val ((s.getWg g.val).last + k) = false
        ∧ ((s.getWg g.val).resumed = false ∨ s.overrun g.val = false) ∧ k ≤ (s.getWg g.val).skipCounted + 1) ∧
    (∃ s : State, ∃ req : Requester, ∃ g : Fin 256, s.Reached req .WG_INSEQ [g.val] ∧ s.deviceUnitCode req (s.wgOn g.val) (s.wgPart g.val) none = 0) ∧
    (∃ s : State, ∃ req : Requester, ∃ g : Fin 256, s.Reached req .WG_CTRL [g.val] ∧ s.deviceUnitCode req true (s.wgPart g.val) none = 0 ∧ s.wgOn
        g.val = true) ∧
    (∃ s : State, ∃ req : Requester, ∃ g : Fin 256, s.Reached req .WG_CTRL [g.val] ∧ s.deviceUnitCode req true (s.wgPart g.val) none = 0 ∧ s.wgState
        g.val = wsHalted) :=
  ⟨⟨State.reset, .steward 0, 0, 0, by unfold State.Reached; decide +kernel⟩,
   ⟨((State.reset.setFld .WG_CFG [0] WG_CFG_EN 1).setWgState 0 wsWaiting), .steward 0, 0, 0, by unfold State.Reached; decide +kernel⟩,
   ⟨(((State.reset.setFld .WG_CFG [0] WG_CFG_EN 1).setWgState 0 wsWaiting).setFld .TB_CFG [0] TB_CFG_EN 1).setVal .TB_TARGET [0] 1, 0, 1,
     by decide +kernel⟩,
   ⟨State.reset, .steward 0, 0, by unfold State.Reached; decide +kernel⟩,
   ⟨((State.reset.setFld .WG_CFG [0] WG_CFG_EN 1).setWgState 0 wsStepping), .steward 0, 0, by unfold State.Reached; decide +kernel⟩,
   ⟨((State.reset.setFld .WG_CFG [0] WG_CFG_EN 1).setWgState 0 wsHalted), .steward 0, 0, by unfold State.Reached; decide +kernel⟩⟩

theorem test_met_HarvestAndSwapCommandsHaveTheirEffects :
    (∃ s : State, ∃ g : Fin 256, (s.wgOpen g.val = true ∧ s.isSplit = false ∧ s.allDone g.val (s.enginesOf g.val) = true) ∧
      let sum := (s.getWg g.val).tallyW.sum + (s.getWg g.val).tallyE.sum
      sum ≠ 0) ∧
    (∃ s : State, ∃ g : Fin 256, (s.wgOpen g.val = true ∧ s.isSplit = false ∧ s.allDone g.val (s.enginesOf g.val) = true) ∧
      let sum := (s.getWg g.val).tallyW.sum + (s.getWg g.val).tallyE.sum
      let u := ((s.setWgState g.val wsHarvesting).modWg g.val fun w => { w with rounds := w.rounds + 1 }).setVal .WG_TALLY [g.val] sum.toNat
      let u1 := u.setFld .WG_HROUNDS [g.val] WG_HROUNDS_LAST (min (u.getWg g.val).rounds 0xFFFF)
      let u2 := u1.setFld .WG_HROUNDS [g.val] WG_HROUNDS_MOST (max (u1.fld .WG_HROUNDS [g.val] WG_HROUNDS_MOST) (min (u.getWg g.val).rounds 0xFFFF))
      let u3 := u2.modWg g.val fun w => { w with last := u2.val .WG_STEP [g.val], runs := w.runs + 1, opened := [], done := [] }
      sum = 0 ∧ (u.getWg g.val).disabling = false ∧ (u3.getWg g.val).haltCode = 0 ∧ u3.overrun g.val = false ∧ u3.writerSet g.val = none ∧ u3.bit
        .WG_CFG [g.val] WG_CFG_ROT = false ∧ (u3.getWg g.val).epWait = false) ∧
    (∃ s : State, ∃ g : Fin 256, (s.getWg g.val).swap = 1 ∧ s.swapRuns g.val (s.wgCohort g.val) = true ∧ s.homeReady g.val (s.wgCohort g.val) = true) ∧
    (∃ s : State, ∃ g : Fin 256, ∃ meets : LineFate, ((s.getWg g.val).swap = 2 ∧ s.swapRuns g.val (s.wgCohort g.val) = true ∧ s.homeReady g.val
        (s.wgCohort g.val) = true) ∧
      let base := s.homeBase g.val (s.wgCohort g.val)
      let v := (s.homeBeats g.val (s.wgCohort g.val) false).dmMeets base (s.homeBytes g.val) meets
      let u := v.swapIn g.val (v.wgCohort g.val)
      let w := State.adoptOpens (u.modWg g.val fun w => { w with swap := 0 }) g.val
      inRange base (s.homeBytes g.val) meets.bad = [] ∧ u.swapGood g.val = true ∧ (w.getWg g.val).disabling = false) ∧
    (∃ s : State, ∃ g : Fin 256, ∃ meets : LineFate, ((s.getWg g.val).swap = 2 ∧ s.swapRuns g.val (s.wgCohort g.val) = true ∧ s.homeReady g.val
        (s.wgCohort g.val) = true) ∧
      let base := s.homeBase g.val (s.wgCohort g.val)
      let v := (s.homeBeats g.val (s.wgCohort g.val) false).dmMeets base (s.homeBytes g.val) meets
      inRange base (s.homeBytes g.val) meets.bad ≠ [] ∧ (v.getWg g.val).disabling = false) :=
  ⟨⟨((gs.modWg 0 fun w => { w with opened := [0], done := [0] }).modWg 0 fun w => { w with tallyW := { inj := 1 } }), 0, by decide +kernel,
      by decide +kernel⟩,
   ⟨(gs.modWg 0 fun w => { w with opened := [0], done := [0] }), 0, by decide +kernel, by decide +kernel⟩,
   ⟨svc (gs.modWg 0 fun w => { w with swap := 1 }), 0, by decide +kernel⟩,
   ⟨(svc (gs.modWg 0 fun w => { w with swap := 2 })).modNc 0 0 fun u => { u with psetOk := 1 }, 0, {}, by decide +kernel, by decide +kernel⟩,
   ⟨svc (gs.modWg 0 fun w => { w with swap := 2 }), 0, { bad := [(svc (gs.modWg 0 fun w => { w with swap := 2 })).homeBase 0 0] },
     by decide +kernel, by decide +kernel⟩⟩

theorem test_met_NeuronCoreCommandsHaveTheirEffects :
    (∃ s : State, ∃ req : Requester, ∃ c : Fin 96, ∃ n : Fin 16, s.Reached req .NC_CFG [c.val, n.val] ∧ s.bit .NC_CFG [c.val, n.val] NC_CFG_EN =
        false) ∧
    (∃ s : State, ∃ c : Fin 96, ∃ n : Fin 16, s.ncState c.val n.val = ncFilling) ∧
    (∃ s₀ : State, ∃ s : State, ∃ g : Fin 256, ∃ c : Fin 96, ∃ slot : Fin 19, ∃ errs : List LinkErr, (s₀.cnPass c.val errs = some s ∧ s₀.farCluster
        c.val = false ∧ s.wgState g.val = wsStepping ∧ (s.getWg g.val).opened.contains (eidOf c.val slot.val) = false ∧ (s.enginesOf g.val).contains
        (eidOf c.val slot.val) = true ∧ s.engSilent (eidOf c.val slot.val) = false) ∧ ∃ e, slot.val < 16 ∧ s.gmapOf c.val slot.val g.val = some e ∧
        s.ncState c.val slot.val = ncIdle) ∧
    (∃ s₀ : State, ∃ s : State, ∃ g : Fin 256, ∃ c : Fin 96, ∃ slot : Fin 19, ∃ errs : List LinkErr, s₀.cnPass c.val errs = some s ∧ s₀.farCluster
        c.val = false ∧ s.wgState g.val = wsStepping ∧ (s.getWg g.val).opened.contains (eidOf c.val slot.val) = false ∧ (s.enginesOf g.val).contains
        (eidOf c.val slot.val) = true ∧ s.engSilent (eidOf c.val slot.val) = false ∧ slot.val = 18) ∧
    (∃ s₀ : State, ∃ s : State, ∃ g : Fin 256, ∃ c : Fin 96, ∃ slot : Fin 19, ∃ errs : List LinkErr, s₀.cnPass c.val errs = some s ∧ s₀.farCluster
        c.val = false ∧ s.wgState g.val = wsStepping ∧ (s.getWg g.val).opened.contains (eidOf c.val slot.val) = false ∧ (s.enginesOf g.val).contains
        (eidOf c.val slot.val) = true ∧ s.engSilent (eidOf c.val slot.val) = false ∧ 16 ≤ slot.val ∧ slot.val < 18) ∧
    (∃ s : State, ∃ c : Fin 96, s.farCluster c.val = true) ∧
    (∃ s : State, ∃ c : Fin 96, ∃ n : Fin 16, ∃ bad : List Nat, ∃ ev : Ev, ∃ rest : List Ev, ∃ k : Nat, ∃ ds : List Dest, (s.getNc c.val n.val).fan
        = ev :: rest ∧ (s.modNc c.val n.val fun u => { u with fan := rest }).slotOf c.val n.val ev.net = some k ∧ walkDir (s.cword c.val n.val) (fun
        a => badIn bad (4 * a) 4) coreWords (s.val .SY_FO_BASE [c.val, n.val, k] / 4 + ev.neuron) = (ds, .fin)) ∧
    (∃ s : State, ∃ g : Fin 256, ∃ e : EngineAt, s.wgState g.val = wsStepping ∧ (s.getWg g.val).done.contains (engineId e) = false ∧ (s.enginesOf
        g.val).contains (engineId e) = true ∧ s.engDone g.val (engineId e) = true) ∧
    (∃ s : State, ∃ c : Fin 96, ∃ n : Fin 16, ∃ m : MFlit, ∃ u : State, ∃ e : Nat, ∃ g : Nat, ∃ now : Bool, (s.takeDlv c.val (fun f => fDC f ==
        n.val && fKind f != 2) = some (m, u) ∧ s.fencedEng c.val n.val = false ∧ s.engineOff c.val n.val = false ∧ (s.getNc c.val n.val).inq.length
        < 64 ∧ fKind m.f ≠ 3) ∧
      let w := u.acceptWorld (fWorld m.f) (halfOf c.val)
      w.entryOf c.val n.val (fWorld m.f) = some (e, g) ∧ w.stampFate c.val n.val g m.f = some now) ∧
    (∃ s : State, ∃ c : Fin 96, ∃ n : Fin 16, ∃ bad : List Nat, ∃ f : Flit, ∃ rest : List Flit, ∃ e : Nat, ∃ g : Nat, ∃ k : Nat, s.ncState c.val
        n.val ≠ ncSleep ∧ (s.getNc c.val n.val).inq = f :: rest ∧ s.fate bad c.val n.val f = .now e g k) ∧
    (∃ s : State, ∃ c : Fin 96, ∃ n : Fin 16, ∃ m : MFlit, ∃ u : State, s.takeDlv c.val (fun f => fDC f == n.val && fKind f == 2) = some (m, u) ∧
        s.fencedEng c.val n.val = false ∧ s.engineOff c.val n.val = false) ∧
    (∃ s : State, ∃ c : Fin 96, ∃ n : Fin 16, s.bit .NC_CFG [c.val, n.val] NC_CFG_SLEEP = true ∧ s.ncState c.val n.val = ncIdle ∧ (s.getNc c.val
        n.val).inq = [] ∧ (s.getNc c.val n.val).fan = [] ∧ (s.getNc c.val n.val).outq = []) ∧
    (∃ s : State, ∃ c : Fin 96, ∃ n : Fin 16, ∃ src : Fin 16, s.ncState c.val n.val = ncSleep ∧ s.ncWakeDue c.val n.val src.val = true) :=
  ⟨⟨State.reset, .steward 0, 0, 0, by unfold State.Reached; decide +kernel⟩,
   ⟨State.reset.setNcState 0 0 ncFilling, 0, 0, by decide +kernel⟩,
   ⟨gs, (gs.cnPass 0 []).getD gs, 0, 0, 0, [], by decide +kernel, (0 : Nat), by decide +kernel⟩,
   ⟨gs.setFld .MX_BIND [0, 0] MX_BIND_EN 1, ((gs.setFld .MX_BIND [0, 0] MX_BIND_EN 1).cnPass 0 []).getD gs, 0, 0, 18, [], by decide +kernel⟩,
   ⟨gs.setFld .VX_BIND [0, 0, 0] VX_BIND_EN 1, ((gs.setFld .VX_BIND [0, 0, 0] VX_BIND_EN 1).cnPass 0 []).getD gs, 0, 0, 16, [], by decide +kernel⟩,
   ⟨State.reset, 48, by decide +kernel⟩,
   ⟨gs.modNc 0 0 fun u => { u with fan := [{}] }, 0, 0, [], {}, [], 0, [], by decide +kernel⟩,
   ⟨gs.modWg 0 fun w => { w with opened := [0] }, 0, .engine 0 0, by decide +kernel⟩,
   ⟨(gs.modRt 0 fun r => { r with dlv := [{ f := 0 }] }), 0, 0, { f := 0 }, ((gs.modRt 0 fun r => { r with dlv := [{ f := 0 }] }).takeDlv 0 (fun f
     => fDC f == 0 && fKind f != 2)).elim gs (·.2), 0, 0, true, by decide +kernel, by decide +kernel⟩,
   ⟨(gs.modNc 0 0 fun u => { u with inq := [0] }).setVal .SY_FI_COUNT [0, 0, 0] 1, 0, 0, [], 0, [], 0, 0, 0, by decide +kernel⟩,
   ⟨(gs.modRt 0 fun r => { r with dlv := [{ f := 2 <<< 118 }] }), 0, 0, { f := 2 <<< 118 }, ((gs.modRt 0 fun r =>
     { r with dlv := [{ f := 2 <<< 118 }] }).takeDlv 0 (fun f => fDC f == 0 && fKind f == 2)).elim gs (·.2), by decide +kernel⟩,
   ⟨gs.setFld .NC_CFG [0, 0] NC_CFG_SLEEP 1, 0, 0, by decide +kernel⟩,
   ⟨(gs.setNcState 0 0 ncSleep).modNc 0 0 fun u => { u with hit := true }, 0, 0, 3, by decide +kernel⟩⟩

theorem test_met_EventUnitsOfVectorAndMatrixCoresHaveTheirEffects :
    (∃ s : State, ∃ c : Fin 96, ∃ e : Fin 3, ∃ rec : DWord, ∃ rest : List DWord, (e.val ≠ 2 ∧ (s.getEng c.val e.val).emitq = rec :: rest) ∧
      let u := s.modEng c.val e.val fun x => { x with emitq := rest }
      u.emitDrops c.val e.val rec.toNat = true) ∧
    (∃ s : State, ∃ c : Fin 96, ∃ e : Fin 3, ∃ rec : DWord, ∃ rest : List DWord, (e.val ≠ 2 ∧ (s.getEng c.val e.val).emitq = rec :: rest) ∧
      let u := s.modEng c.val e.val fun x => { x with emitq := rest }
      ∃ g, u.emitDrops c.val e.val rec.toNat = false ∧ u.groupOf (bitsOf rec.toNat 41 14) = some g ∧ u.traced (u.wgPart g) g (bitsOf rec.toNat 41
        14) (bitsOf rec.toNat 17 16 % 2 ^ 15) (u.wgWStep g % 2 ^ 16) = false ∧ rec.toNat.testBit 61 = true) ∧
    (∃ s : State, ∃ c : Fin 96, ∃ e : Fin 3, ∃ meets : SinkMeet, ∃ m : MFlit, ∃ u : State, (s.takeDlv c.val (fun f => fDC f == engSlot e.val &&
        decide (fKind f < 2)) = some (m, u) ∧ s.fencedEng c.val (engSlot e.val) = false ∧ s.engineOff c.val (engSlot e.val) = false) ∧
      let f := m.f
      let w := u.acceptWorld (fWorld f) (halfOf c.val)
      ∃ o, w.sinkFate c.val e.val f = .add o ∧
      let k := bankArb c.val (bankOf o)
      let ep := endpointOf c.val (3 + e.val)
      let ask := w.arbAsk k (if meets.busy = true then 0 else 1) ep
      w.arbWaits k ep = false ∧ ask.1 = true ∧ badIn meets.bad (o / 64 * 64) 64 = false) ∧
    (∃ s : State, ∃ c : Fin 96, ∃ e : Fin 3, ∃ meets : SinkMeet, ∃ m : MFlit, ∃ u : State, (s.takeDlv c.val (fun f => fDC f == engSlot e.val &&
        decide (fKind f < 2)) = some (m, u) ∧ s.fencedEng c.val (engSlot e.val) = false ∧ s.engineOff c.val (engSlot e.val) = false) ∧
      let f := m.f
      let w := u.acceptWorld (fWorld f) (halfOf c.val)
      ∃ o, w.sinkFate c.val e.val f = .add o ∧
      let k := bankArb c.val (bankOf o)
      let ep := endpointOf c.val (3 + e.val)
      let ask := w.arbAsk k (if meets.busy = true then 0 else 1) ep
      w.arbWaits k ep = false ∧ ask.1 = false ∧ w.holdMode k ep = false) ∧
    (∃ s : State, ∃ c : Fin 96, ∃ e : Fin 3, ∃ m : MFlit, ∃ u : State, (s.takeDlv c.val (fun f => fDC f == engSlot e.val && decide (fKind f < 2)) =
        some (m, u) ∧ s.fencedEng c.val (engSlot e.val) = false ∧ s.engineOff c.val (engSlot e.val) = false) ∧
      let f := m.f
      let w := u.acceptWorld (fWorld f) (halfOf c.val)
      w.sinkFate c.val e.val f = .wait) ∧
    (∃ s : State, ∃ c : Fin 96, ∃ e : Fin 3, ∃ m : MFlit, ∃ u : State, (s.takeDlv c.val (fun f => fDC f == engSlot e.val && decide (fKind f < 2)) =
        some (m, u) ∧ s.fencedEng c.val (engSlot e.val) = false ∧ s.engineOff c.val (engSlot e.val) = false) ∧
      let f := m.f
      let w := u.acceptWorld (fWorld f) (halfOf c.val)
      w.sinkFate c.val e.val f = .absorb) ∧
    (∃ s : State, ∃ c : Fin 96, ∃ e : Fin 3, ∃ m : MFlit, ∃ u : State, s.takeDlv c.val (fun f => fDC f == engSlot e.val && decide (fKind f ≥ 2)) =
        some (m, u) ∧ s.fencedEng c.val (engSlot e.val) = false ∧ s.engineOff c.val (engSlot e.val) = false ∧ (s.getEng c.val e.val).ibq.length < 32) :=
  ⟨⟨pt.modEng 0 0 fun x => { x with emitq := [0] }, 0, 0, 0, [], by decide +kernel, by decide +kernel⟩,
   ⟨(gs.setFld .SY_EMIT_CFG [0, 0] SY_EMIT_CFG_EN 1).modEng 0 0 fun x => { x with emitq := [2 ^ 61] }, 0, 0, 2 ^ 61, [], by decide +kernel, (0 :
     Nat), by decide +kernel⟩,
   ⟨((((gs.setFld .SY_SINK_CFG [0, 0] SY_SINK_CFG_EN 1).setVal .BK_OWN [0, 0] (1 <<< 10 + 3)).setFld .VX_BIND [0, 0, 0] VX_BIND_EN 1).modRt 0 fun r
     => { r with dlv := [{ f := 16 <<< 100 }] }), 0, 0, ⟨[], false⟩, { f := 16 <<< 100 }, (((((gs.setFld .SY_SINK_CFG [0, 0] SY_SINK_CFG_EN
     1).setVal .BK_OWN [0, 0] (1 <<< 10 + 3)).setFld .VX_BIND [0, 0, 0] VX_BIND_EN 1).modRt 0 fun r =>
     { r with dlv := [{ f := 16 <<< 100 }] }).takeDlv 0 (fun f => fDC f == 16 && decide (fKind f < 2))).elim gs (·.2), by decide +kernel, (0 : Nat),
     by decide +kernel, by decide +kernel⟩,
   ⟨((((gs.setFld .SY_SINK_CFG [0, 0] SY_SINK_CFG_EN 1).setVal .BK_OWN [0, 0] (1 <<< 10 + 3)).setFld .VX_BIND [0, 0, 0] VX_BIND_EN 1).modRt 0 fun r
     => { r with dlv := [{ f := 16 <<< 100 }] }), 0, 0, { bad := [], busy := true }, { f := 16 <<< 100 }, (((((gs.setFld .SY_SINK_CFG [0, 0]
     SY_SINK_CFG_EN 1).setVal .BK_OWN [0, 0] (1 <<< 10 + 3)).setFld .VX_BIND [0, 0, 0] VX_BIND_EN 1).modRt 0 fun r =>
     { r with dlv := [{ f := 16 <<< 100 }] }).takeDlv 0 (fun f => fDC f == 16 && decide (fKind f < 2))).elim gs (·.2), by decide +kernel, (0 : Nat),
     by decide +kernel, by decide +kernel⟩,
   ⟨((((gs.setFld .SY_SINK_CFG [0, 0] SY_SINK_CFG_EN 1).setVal .BK_OWN [0, 0] (1 <<< 10 + 3)).setFld .VX_BIND [0, 0, 0] VX_BIND_EN 1).modRt 0 fun r
     => { r with dlv := [{ f := 16 <<< 100 ||| 1 <<< 48 }] }), 0, 0, { f := 16 <<< 100 ||| 1 <<< 48 }, (((((gs.setFld .SY_SINK_CFG [0, 0]
     SY_SINK_CFG_EN 1).setVal .BK_OWN [0, 0] (1 <<< 10 + 3)).setFld .VX_BIND [0, 0, 0] VX_BIND_EN 1).modRt 0 fun r =>
     { r with dlv := [{ f := 16 <<< 100 ||| 1 <<< 48 }] }).takeDlv 0 (fun f => fDC f == 16 && decide (fKind f < 2))).elim gs (·.2),
     by decide +kernel, by decide +kernel⟩,
   ⟨(pt.modRt 0 fun r => { r with dlv := [{ f := 16 <<< 100 }] }), 0, 0, { f := 16 <<< 100 }, ((pt.modRt 0 fun r =>
     { r with dlv := [{ f := 16 <<< 100 }] }).takeDlv 0 (fun f => fDC f == 16 && decide (fKind f < 2))).elim gs (·.2), by decide +kernel,
     by decide +kernel⟩,
   ⟨(pt.modRt 0 fun r => { r with dlv := [{ f := 16 <<< 100 ||| 2 <<< 118 }] }), 0, 0, { f := 16 <<< 100 ||| 2 <<< 118 }, ((pt.modRt 0 fun r =>
     { r with dlv := [{ f := 16 <<< 100 ||| 2 <<< 118 }] }).takeDlv 0 (fun f => fDC f == 16 && decide (fKind f ≥ 2))).elim gs (·.2),
     by decide +kernel⟩⟩

theorem test_met_LearningSetCommandsHaveTheirEffects :
    (∃ s : State, ∃ req : Requester, ∃ c : Fin 96, ∃ k : Fin 16, s.Reached req .LR_SET_CFG [c.val, k.val] ∧ s.checking (.set k.val c.val) = false ∧
        s.bit .LR_SET_CFG [c.val, k.val] LR_SET_CFG_EN = false) ∧
    (∃ s : State, ∃ req : Requester, ∃ c : Fin 96, ∃ k : Fin 16, ∃ j : Fin 8, s.Reached req .LR_SET_WG [c.val, k.val, j.val] ∧ s.inSet c.val k.val =
        false ∧ s.setLocked c.val k.val = false) ∧
    (∃ s : State, ∃ req : Requester, ∃ c : Fin 96, ∃ k : Fin 16, ∃ j : Fin 8, s.Reached req .LR_SET_WG [c.val, k.val, j.val] ∧ s.inSet c.val k.val =
        true) ∧
    (∃ s : State, ∃ req : Requester, ∃ c : Fin 96, ∃ k : Fin 16, s.Reached req .LR_SET_CTRL [c.val, k.val]) ∧
    (∃ s : State, ∃ k : Fin 16, (s.getLs k.val).on = true ∧ s.lsStage k.val = lsRunning ∧ s.writers k.val ≠ [] ∧ (∀ g ∈ s.writers k.val,
        s.holdsEpoch g = false) ∧ s.setSplit k.val = false) ∧
    (∃ s : State, ∃ c : Fin 96, ∃ v : Fin 2, ∃ k : Fin 16, ∃ stage : Nat, ((stage = 1 ∧ s.lsStage k.val = lsUpdate) ∨ (stage = 2 ∧ s.lsStage k.val =
        lsStructure)) ∧ s.vxServes c.val v.val k.val = true ∧ s.clusterOn c.val = true ∧ s.fencedEng c.val (16 + v.val) = false ∧ s.vxSvc c.val
        v.val = false) ∧
    (∃ s : State, ∃ c : Fin 96, ∃ v : Fin 2, ∃ k : Fin 16, ∃ stage : Nat, ((stage = 1 ∧ s.lsStage k.val = lsUpdate) ∨ (stage = 2 ∧ s.lsStage k.val =
        lsStructure)) ∧ s.vxServes c.val v.val k.val = true ∧ s.clusterOn c.val = true ∧ s.fencedEng c.val (16 + v.val) = false ∧ s.vxSvc c.val
        v.val = true ∧ s.bit .VX_CFG [c.val, v.val] VX_CFG_STDSVC = true ∧ (s.getVx c.val v.val).set = k.val ∧ (s.getVx c.val v.val).stage = stage) ∧
    (∃ s₀ : State, ∃ c : Fin 96, ∃ n : Fin 16, ∃ k : Nat, s₀.coreSet c.val n.val = some k ∧ s₀.farCluster c.val = true) ∧
    (∃ s₀ : State, ∃ s : State, ∃ c : Fin 96, ∃ n : Fin 16, ∃ errs : FlipErr, ∃ k : Nat, s₀.coreSet c.val n.val = some k ∧ s₀.farCluster c.val =
        false ∧ s₀.cnPass c.val errs.links = some s ∧ s.coreSet c.val n.val = some k ∧ s.lsStage k = lsFlip ∧ s.fencedEng c.val n.val = false ∧
        s.ncState c.val n.val ≠ ncSleep ∧ (s.getLs k).reports.contains (eidOf c.val n.val) = false) ∧
    (∃ s : State, ∃ k : Fin 16, s.lsStage k.val = lsFlip ∧ (∀ x ∈ s.setActive2 k.val, (s.getLs k.val).reports.contains (eidOf x.1 x.2) = true)) :=
  ⟨⟨State.reset, .steward 0, 0, 0, by unfold State.Reached; decide +kernel⟩,
   ⟨State.reset, .steward 0, 0, 0, 0, by unfold State.Reached; decide +kernel⟩,
   ⟨setAt 1, .steward 0, 0, 0, 0, by unfold State.Reached; decide +kernel⟩,
   ⟨State.reset, .steward 0, 0, 0, by unfold State.Reached; decide +kernel⟩,
   ⟨((setAt 1).setVal .LR_SET_WG [0, 0, 0] 1).modWg 0 fun w => { w with epWait := true }, 0, by decide +kernel⟩,
   ⟨setAt 2, 0, 0, 0, 1, by decide +kernel⟩,
   ⟨((setAt 2).setFld .VX_STATUS [0, 0] VX_STATUS_SVC 1).modVx 0 0 fun x => { x with set := 0, stage := 1 }, 0, 0, 0, 1, by decide +kernel⟩,
   ⟨(setAt 4).setFld .LR_CORE_CFG [48, 0] LR_CORE_CFG_EN 1, 48, 0, 0, by decide +kernel⟩,
   ⟨setAt 4, ((setAt 4).cnPass 0 []).getD gs, 0, 0, ⟨[], []⟩, 0, by decide +kernel⟩,
   ⟨(setAt 4).modLs 0 fun x => { x with reports := [0] }, 0, by decide +kernel⟩⟩

theorem test_met_KeepStoreCommandsHaveTheirEffects :
    (∃ s : State, ∃ req : Requester, ∃ c : Fin 96, s.Reached req .KS_CMD [c.val]) ∧
    (∃ s : State, ∃ x : Commit, ∃ rest : List Commit, s.ks.cur = none ∧ s.ks.queue = x :: rest ∧ s.captureReady x = true ∧ s.dmReady (s.val
        .KS_STAGE [x.part]) (s.imageLen x.set) = true) ∧
    (∃ s : State, ∃ x : Commit, s.ks.cur = some x ∧ x.phase = 1) ∧
    (∃ s : State, ∃ x : Commit, ∃ bad : List Nat, ∃ dir : Nat, (s.ks.cur = some x ∧ x.phase = 2 ∧ s.ks.stopped = false ∧ (mget s.ks.keys x.part ≠ 0
        ∨ s.sec.rngBad = false)) ∧
      let gen := (s.genNow x.part).gen + 1
      let kk := s.takeKey x.part
      let d := kk.1.programData bad x gen kk.2
      let t := d.1.programTables bad x gen kk.2 d.2.cnt d.2.pages
      let r := t.1.putPage bad kk.2 gen (2 ^ 25) none (fit 4096 (t.2.pages.flatMap t.1.ksEntry)) { cnt := t.2.cnt }
      (d.2.code = 0 ∧ t.2.code = 0) ∧ r.2.pages = [dir]) ∧
    (∃ s : State, ∃ x : Commit, s.ks.cur = some x ∧ x.phase = 3 ∧ s.ks.stopped = false) ∧
    (∃ s : State, ∃ x : Commit, s.ks.cur = some x ∧ x.phase = 4 ∧ s.ks.stopped = false) ∧
    (∃ s : State, ∃ p : Fin 8, ∃ x : Commit, s.ks.restores.find? (fun x => x.part == p.val) = some x ∧ s.serviceRuns p.val = true) :=
  ⟨⟨State.reset, .steward 0, 0, by unfold State.Reached; decide +kernel⟩,
   ⟨{ (svc pt) with ks := { queue := [{}] } }, {}, [], by decide +kernel⟩,
   ⟨{ (svc pt) with ks := { cur := some { phase := 1 } } }, { phase := 1 }, by decide +kernel⟩,
   ⟨{ (svc pt) with ks := { keys := [(0, 1)], cur := some { phase := 2 } } }, { phase := 2 }, [], _, by decide +kernel, by decide +kernel, puts_page
     _ rfl _ _ _ _ _⟩,
   ⟨{ (svc pt) with ks := { cur := some { phase := 3 } } }, { phase := 3 }, by decide +kernel⟩,
   ⟨{ (svc pt) with ks := { cur := some { phase := 4 } } }, { phase := 4 }, by decide +kernel⟩,
   ⟨{ (svc pt) with ks := { restores := [{ phase := 5 }] } }, 0, { phase := 5 }, by decide +kernel⟩⟩

theorem test_met_MatrixDescriptorsRunToTheirResults :
    (
      let kind (c : Fin 96) (stopped : Nat) (bad : List Nat) (op : Nat) (i : Instr) : Prop := (op = 0 ∧ i = .mxFence c bad) ∨ (op = 1 ∧ i =
        .mxMatmul c stopped bad) ∨ (op = 2 ∧ i = .mxConv c stopped bad) ∨ (op = 3 ∧ i = .mxEw c bad) ∨ (op = 4 ∧ i = .mxReduce c bad) ∨ (op = 5 ∧ i
        = .mxEncode c bad) ∨ (op = 6 ∧ i = .mxGather c bad)
      ∃ s : State, ∃ c : Fin 96, ∃ stopped : Nat, ∃ bad : List Nat, ∃ i : Instr, ∃ d : Desc, (s.mxReady c.val = some d ∧ kind c stopped bad d.op i ∧
        s.mxCancelled c.val (s.mxHead c.val) = false ∧ (s.getMx c.val).next = none ∧ s.mxCheck bad c.val d = 0) ∧
      let p := s.prof c.val d.prof
      let t := s.mxTake c.val d
      t.mxPast c.val d p = false) ∧
    (
      let kind (c : Fin 96) (stopped : Nat) (bad : List Nat) (op : Nat) (i : Instr) : Prop := (op = 0 ∧ i = .mxFence c bad) ∨ (op = 1 ∧ i =
        .mxMatmul c stopped bad) ∨ (op = 2 ∧ i = .mxConv c stopped bad) ∨ (op = 3 ∧ i = .mxEw c bad) ∨ (op = 4 ∧ i = .mxReduce c bad) ∨ (op = 5 ∧ i
        = .mxEncode c bad) ∨ (op = 6 ∧ i = .mxGather c bad)
      ∃ s : State, ∃ c : Fin 96, ∃ stopped : Nat, ∃ bad : List Nat, ∃ i : Instr, ∃ r : MRun, (s.getMx c.val).run = some r ∧ kind c stopped bad
        (descOf r.word).op i) ∧
    (∃ s : State, ∃ c : Nat, ∃ r : MRun, (s.getMx c).run = some r ∧ (r.ran = true ∨ s.mxMoving c r.n = true)) ∧
    (∃ s : State, ∃ c : Nat, ∃ bad : List Nat, ∃ r : MRun, (s.getMx c).run = some r ∧ r.ran = false ∧ s.mxMoving c r.n = false ∧ s.mxBadWord bad c
        (descOf r.word) (s.prof c (descOf r.word).prof) = true) ∧
    (∃ s : State, ∃ c : Nat, ∃ bad : List Nat, ∃ d : Desc, ∃ r : MRun, (s.getMx c).run = some r ∧ descOf r.word = d ∧ r.ran = false ∧ s.mxMoving c
        r.n = false ∧ d.op = 0 ∧ s.mxBadWord bad c d (s.prof c d.prof) = false) ∧
    (∃ s : State, ∃ c : Nat, ∃ bad : List Nat, ∃ d : Desc, ∃ r : MRun, (s.getMx c).run = some r ∧ descOf r.word = d ∧ r.ran = false ∧ s.mxMoving c
        r.n = false ∧ d.op = 1 ∧ s.mxBadWord bad c d (s.prof c d.prof) = false) ∧
    (∃ s : State, ∃ c : Nat, ∃ bad : List Nat, ∃ d : Desc, ∃ r : MRun, (s.getMx c).run = some r ∧ descOf r.word = d ∧ r.ran = false ∧ s.mxMoving c
        r.n = false ∧ d.op = 2 ∧ s.mxBadWord bad c d (s.prof c d.prof) = false) ∧
    (∃ s : State, ∃ c : Nat, ∃ bad : List Nat, ∃ d : Desc, ∃ r : MRun, ∃ rows : List (List Machine.Num), ((s.getMx c).run = some r ∧ descOf r.word =
        d ∧ r.ran = false ∧ s.mxMoving c r.n = false ∧ d.op = 3 ∧ s.mxBadWord bad c d (s.prof c d.prof) = false) ∧
      let p := s.prof c d.prof
      s.exactRows c d p = some rows) ∧
    (∃ s : State, ∃ c : Nat, ∃ bad : List Nat, ∃ d : Desc, ∃ r : MRun, ∃ rows : List (List Machine.Num), ((s.getMx c).run = some r ∧ descOf r.word =
        d ∧ r.ran = false ∧ s.mxMoving c r.n = false ∧ d.op = 4 ∧ s.mxBadWord bad c d (s.prof c d.prof) = false) ∧
      let p := s.prof c d.prof
      s.exactRows c d p = some rows) ∧
    (∃ s : State, ∃ c : Nat, ∃ bad : List Nat, ∃ d : Desc, ∃ r : MRun, ∃ exact : List (List Machine.Num), ((s.getMx c).run = some r ∧ descOf r.word
        = d ∧ r.ran = false ∧ s.mxMoving c r.n = false ∧ d.op = 5 ∧ s.mxBadWord bad c d (s.prof c d.prof) = false) ∧
      let p := s.prof c d.prof
      s.exactRows c d p = some exact) ∧
    (∃ s : State, ∃ c : Nat, ∃ bad : List Nat, ∃ d : Desc, ∃ r : MRun, ((s.getMx c).run = some r ∧ descOf r.word = d ∧ r.ran = false ∧ s.mxMoving c
        r.n = false ∧ d.op = 6 ∧ s.mxBadWord bad c d (s.prof c d.prof) = false) ∧
      let cores := ((List.range 16).filter fun n => (bitsOf d.wbase 0 16).testBit n).filterMap fun n => (s.gmapOf c n d.wg).map fun e => (n, e)
      (cores.map fun x => s.gmNpw c x.1 x.2).sum = d.n) ∧
    (∃ s : State, ∃ c : Nat, ∃ d : Desc, ∃ p : Prof, ∃ a : List (List Machine.Num), ((p.amode = 0 ∨ p.amode = 3) ∧ fmtD d.afmt ≠ .fp32 ∧ (List.range
        d.rows).mapM (s.aRow c d p) = some a) ∧
      let v := s.loadResident c d p
      v.wBad c d p = []) :=
  ⟨⟨mxs (word 1 (mxAddr 0 0x50000)), 0, 0, [], .mxMatmul 0 0 [], dsc 1 (mxAddr 0 0x50000), by decide +kernel, by decide +kernel⟩,
   ⟨mxr 1 (mxAddr 0 0x50000), 0, 0, [], .mxMatmul 0 0 [], runOf 1 (mxAddr 0 0x50000), by decide +kernel⟩,
   ⟨(mxr 1 (mxAddr 0 0x50000)).modMx 0 fun x => { x with run := some { runOf 1 (mxAddr 0 0x50000) with ran := true } }, 0,
     { runOf 1 (mxAddr 0 0x50000) with ran := true }, by decide +kernel⟩,
   ⟨mxr 1 (mxAddr 0 0x50000), 0, [(mxAddr 0 0x50000)], runOf 1 (mxAddr 0 0x50000), by decide +kernel⟩,
   ⟨mxr 0 0, 0, [], dsc 0 0, runOf 0 0, by decide +kernel⟩,
   ⟨mxr 1 (mxAddr 0 0x50000), 0, [], dsc 1 (mxAddr 0 0x50000), runOf 1 (mxAddr 0 0x50000), by decide +kernel⟩,
   ⟨mxr 2 (mxAddr 0 0x50000), 0, [], dsc 2 (mxAddr 0 0x50000), runOf 2 (mxAddr 0 0x50000), by decide +kernel⟩,
   ⟨mxr 3 (mxAddr 0 0x50000), 0, [], dsc 3 (mxAddr 0 0x50000), runOf 3 (mxAddr 0 0x50000), rowsOf 3 (mxAddr 0 0x50000), by decide +kernel,
     by decide +kernel⟩,
   ⟨mxr 4 (mxAddr 0 0x50000), 0, [], dsc 4 (mxAddr 0 0x50000), runOf 4 (mxAddr 0 0x50000), rowsOf 4 (mxAddr 0 0x50000), by decide +kernel,
     by decide +kernel⟩,
   ⟨mxr 5 0, 0, [], dsc 5 0, runOf 5 0, rowsOf 5 0, by decide +kernel, by decide +kernel⟩,
   ⟨mxr 6 1, 0, [], dsc 6 1, runOf 6 1, by decide +kernel, by decide +kernel⟩,
   ⟨mxr 1 (mxAddr 0 0x50000), 0, { dsc 1 (mxAddr 0 0x50000) with afmt := 1, wfmt := 1 }, (mxs (word 1 (mxAddr 0 0x50000))).prof 0 0, ((List.range
     1).mapM ((mxr 1 (mxAddr 0 0x50000)).aRow 0 { dsc 1 (mxAddr 0 0x50000) with afmt := 1, wfmt := 1 } ((mxs (word 1 (mxAddr 0 0x50000))).prof 0
     0))).getD [], by decide +kernel, by decide +kernel⟩⟩

theorem test_met_MatrixQueueCommandsHaveTheirEffects :
    (∃ s : State, ∃ req : Requester, ∃ c : Fin 96, s.Reached req .MX_DQ_TAIL [c.val]) ∧
    (∃ s : State, ∃ c : Fin 96, ∃ r : MRun, (s.getMx c.val).run = some r ∧ (s.getMx c.val).recs = [] ∧ r.ran = true ∧ s.mxMoving c.val r.n = false) ∧
    (∃ s : State, ∃ req : Requester, ∃ c : Fin 96, s.regReachReg req (some .MX_CTRL) (Reg.MX_CTRL.place [c.val]) true = true) :=
  ⟨⟨State.reset, .steward 0, 0, by unfold State.Reached; decide +kernel⟩,
   ⟨pt.modMx 0 fun x => { x with run := some { ran := true } }, 0, { ran := true }, by decide +kernel⟩,
   ⟨State.reset, .steward 0, 0, by decide +kernel⟩⟩

theorem test_met_VectorCoreStartStopAndTransfers :
    (∃ s : State, ∃ req : Requester, ∃ c : Fin 96, ∃ v : Fin 2, ∃ w : Word, (s.Reached req .VX_CFG [c.val, v.val] ∧ s.svcLocked c.val v.val = false)
        ∧
      let u := s.setFld .VX_CFG [c.val, v.val] VX_CFG_STDSVC (bitsOf (withEn w true) 1 1)
      u.bit .VX_CFG [c.val, v.val] VX_CFG_EN = false) ∧
    (∃ s : State, ∃ req : Requester, ∃ c : Fin 96, ∃ v : Fin 2, ∃ w : Word, (s.Reached req .VX_CFG [c.val, v.val] ∧ s.svcLocked c.val v.val = false)
        ∧
      let u := s.setFld .VX_CFG [c.val, v.val] VX_CFG_STDSVC (bitsOf (withEn w false) 1 1)
      u.bit .VX_CFG [c.val, v.val] VX_CFG_EN = true ∧ u.vxGroups c.val v.val = []) ∧
    (∃ s : State, ∃ x : XferAt, ∃ c : Nat, ∃ v : Nat, ∃ ctx : Nat, (s.getXfer (xferKey x)).own = .vx c v ctx ∧
      let y := s.getXfer (xferKey x)
      y.fin = 1) ∧
    (∃ s : State, ∃ x : XferAt, ∃ bad : List Nat, ∃ c : Nat, ∃ v : Nat, ∃ ctx : Nat, (s.getXfer (xferKey x)).own = .vx c v ctx ∧
      let y := s.getXfer (xferKey x)
      y.fin = 0 ∧ s.localXfer y = true ∧ s.reachRange (some y.part) y.ep y.dev y.len y.write = 0 ∧ y.write = true ∧ badIn bad (vcAddr c v y.loc)
        y.len = false) ∧
    (∃ s : State, ∃ x : XferAt, ∃ bad : List Nat, ∃ c : Nat, ∃ v : Nat, ∃ ctx : Nat, (s.getXfer (xferKey x)).own = .vx c v ctx ∧
      let y := s.getXfer (xferKey x)
      y.fin = 0 ∧ s.localXfer y = true ∧ s.reachRange (some y.part) y.ep y.dev y.len y.write = 0 ∧ y.write = false ∧ badIn bad y.dev y.len = false) :=
  ⟨⟨State.reset, .steward 0, 0, 0, 0, by unfold State.Reached; decide +kernel, by decide +kernel⟩,
   ⟨State.reset.setFld .VX_CFG [0, 0] VX_CFG_EN 1, .steward 0, 0, 0, 0, by unfold State.Reached; decide +kernel, by decide +kernel⟩,
   ⟨(pt.modXfer 0 fun _ => { own := .vx 0 0 0, fin := 1, write := false, len := 64, dev := winBase 0 }), ⟨0, 0⟩, 0, 0, 0, by decide +kernel,
     by decide +kernel⟩,
   ⟨(pt.modXfer 0 fun _ => { own := .vx 0 0 0, fin := 0, write := true, len := 64, dev := winBase 0 }), ⟨0, 0⟩, [], 0, 0, 0, by decide +kernel,
     by decide +kernel⟩,
   ⟨(pt.modXfer 0 fun _ => { own := .vx 0 0 0, fin := 0, write := false, len := 64, dev := winBase 0 }), ⟨0, 0⟩, [], 0, 0, 0, by decide +kernel,
     by decide +kernel⟩⟩

theorem test_met_ScalarInstructionsWriteTheirResults :
    (∃ s₀ : State, ∃ c : Fin 96, ∃ v : Fin 2, ∃ bad : List Nat, ∃ x : Nat, ∃ w : Nat, s₀.Issues bad c.val v.val x 0x01 w) ∧
    (∃ s₀ : State, ∃ c : Fin 96, ∃ v : Fin 2, ∃ bad : List Nat, ∃ x : Nat, ∃ w : Nat, s₀.Issues bad c.val v.val x 0x02 w) ∧
    (∃ s₀ : State, ∃ c : Fin 96, ∃ v : Fin 2, ∃ bad : List Nat, ∃ x : Nat, ∃ w : Nat, s₀.Issues bad c.val v.val x 0x03 w ∧ iF w % 4 = 0) ∧
    (∃ s₀ : State, ∃ c : Fin 96, ∃ v : Fin 2, ∃ bad : List Nat, ∃ x : Nat, ∃ w : Nat, s₀.Issues bad c.val v.val x 0x03 w ∧ iF w % 4 = 1) ∧
    (∃ s₀ : State, ∃ c : Fin 96, ∃ v : Fin 2, ∃ bad : List Nat, ∃ x : Nat, ∃ w : Nat, s₀.Issues bad c.val v.val x 0x03 w ∧ iF w % 4 = 2) ∧
    (∃ s₀ : State, ∃ c : Fin 96, ∃ v : Fin 2, ∃ bad : List Nat, ∃ x : Nat, ∃ w : Nat, s₀.Issues bad c.val v.val x 0x03 w ∧ iF w % 4 = 3) ∧
    (∃ s₀ : State, ∃ c : Fin 96, ∃ v : Fin 2, ∃ bad : List Nat, ∃ x : Nat, ∃ w : Nat, s₀.Issues bad c.val v.val x 0x04 w) ∧
    (∃ s₀ : State, ∃ c : Fin 96, ∃ v : Fin 2, ∃ took : Nat, ∃ bad : List Nat, ∃ x : Nat, ∃ w : Nat, ∃ n, s₀.Issues bad c.val v.val x 0x05 w ∧
      let s := s₀.vxTimed took c.val v.val x
      shift (iF w) ((s.vctx c.val v.val x).sreg (iA w)) (shiftBy (iF w) ((s.vctx c.val v.val x).sreg (iB w))) = some n) ∧
    (∃ s₀ : State, ∃ c : Fin 96, ∃ v : Fin 2, ∃ bad : List Nat, ∃ x : Nat, ∃ w : Nat, s₀.Issues bad c.val v.val x 0x05 w ∧ bitsOf (iF w) 5 2 = 3) ∧
    (∃ s₀ : State, ∃ c : Fin 96, ∃ v : Fin 2, ∃ took : Nat, ∃ bad : List Nat, ∃ x : Nat, ∃ w : Nat, ∃ b, s₀.Issues bad c.val v.val x 0x06 w ∧
      let s := s₀.vxTimed took c.val v.val x
      condition (iF w % 8) ((s.vctx c.val v.val x).sreg (iA w)) ((s.vctx c.val v.val x).sreg (iB w)) = some b) ∧
    (∃ s₀ : State, ∃ c : Fin 96, ∃ v : Fin 2, ∃ bad : List Nat, ∃ x : Nat, ∃ w : Nat, s₀.Issues bad c.val v.val x 0x06 w ∧ 6 ≤ iF w % 8) ∧
    (∃ s₀ : State, ∃ c : Fin 96, ∃ v : Fin 2, ∃ bad : List Nat, ∃ x : Nat, ∃ w : Nat, s₀.Issues bad c.val v.val x 0x07 w) ∧
    (∃ s₀ : State, ∃ c : Fin 96, ∃ v : Fin 2, ∃ bad : List Nat, ∃ x : Nat, ∃ w : Nat, s₀.Issues bad c.val v.val x 0x08 w) :=
  ⟨⟨ins 67108864, 0, 0, [], 0, 67108864, by unfold State.Issues; decide +kernel⟩,
   ⟨ins 134217728, 0, 0, [], 0, 134217728, by unfold State.Issues; decide +kernel⟩,
   ⟨ins 201326592, 0, 0, [], 0, 201326592, by unfold State.Issues; decide +kernel⟩,
   ⟨ins 201326593, 0, 0, [], 0, 201326593, by unfold State.Issues; decide +kernel⟩,
   ⟨ins 201326594, 0, 0, [], 0, 201326594, by unfold State.Issues; decide +kernel⟩,
   ⟨ins 201326595, 0, 0, [], 0, 201326595, by unfold State.Issues; decide +kernel⟩,
   ⟨ins 268435456, 0, 0, [], 0, 268435456, by unfold State.Issues; decide +kernel⟩,
   ⟨ins 335544320, 0, 0, 0, [], 0, 335544320, 0, by unfold State.Issues; decide +kernel, by decide +kernel⟩,
   ⟨ins 335544416, 0, 0, [], 0, 335544416, by unfold State.Issues; decide +kernel⟩,
   ⟨ins 402653184, 0, 0, 0, [], 0, 402653184, true, by unfold State.Issues; decide +kernel, by decide +kernel⟩,
   ⟨ins 402653190, 0, 0, [], 0, 402653190, by unfold State.Issues; decide +kernel⟩,
   ⟨ins 469762048, 0, 0, [], 0, 469762048, by unfold State.Issues; decide +kernel⟩,
   ⟨ins 536870912, 0, 0, [], 0, 536870912, by unfold State.Issues; decide +kernel⟩⟩

theorem test_met_ControlInstructionsMoveTheProgramCounter :
    (∃ s₀ : State, ∃ c : Fin 96, ∃ v : Fin 2, ∃ took : Nat, ∃ bad : List Nat, ∃ x : Nat, ∃ w : Nat, s₀.Issues bad c.val v.val x 0x10 w ∧
      let s := s₀.vxTimed took c.val v.val x
      condition (bitsOf w 13 3) ((s.vctx c.val v.val x).sreg (iD w)) ((s.vctx c.val v.val x).sreg (iA w)) = some true) ∧
    (∃ s₀ : State, ∃ c : Fin 96, ∃ v : Fin 2, ∃ took : Nat, ∃ bad : List Nat, ∃ x : Nat, ∃ w : Nat, s₀.Issues bad c.val v.val x 0x10 w ∧
      let s := s₀.vxTimed took c.val v.val x
      condition (bitsOf w 13 3) ((s.vctx c.val v.val x).sreg (iD w)) ((s.vctx c.val v.val x).sreg (iA w)) = some false) ∧
    (∃ s₀ : State, ∃ c : Fin 96, ∃ v : Fin 2, ∃ took : Nat, ∃ bad : List Nat, ∃ x : Nat, ∃ w : Nat, s₀.Issues bad c.val v.val x 0x10 w ∧
      let s := s₀.vxTimed took c.val v.val x
      condition (bitsOf w 13 3) ((s.vctx c.val v.val x).sreg (iD w)) ((s.vctx c.val v.val x).sreg (iA w)) = none) ∧
    (∃ s₀ : State, ∃ c : Fin 96, ∃ v : Fin 2, ∃ bad : List Nat, ∃ x : Nat, ∃ w : Nat, s₀.Issues bad c.val v.val x 0x11 w) ∧
    (∃ s₀ : State, ∃ c : Fin 96, ∃ v : Fin 2, ∃ bad : List Nat, ∃ x : Nat, ∃ w : Nat, s₀.Issues bad c.val v.val x 0x12 w) ∧
    (∃ s₀ : State, ∃ c : Fin 96, ∃ v : Fin 2, ∃ took : Nat, ∃ bad : List Nat, ∃ x : Nat, ∃ w : Nat, s₀.Issues bad c.val v.val x 0x13 w ∧
      let s := s₀.vxTimed took c.val v.val x
      (s.vctx c.val v.val x).sreg (iA w) = 0) ∧
    (∃ s₀ : State, ∃ c : Fin 96, ∃ v : Fin 2, ∃ took : Nat, ∃ bad : List Nat, ∃ x : Nat, ∃ w : Nat, s₀.Issues bad c.val v.val x 0x13 w ∧
      let s := s₀.vxTimed took c.val v.val x
      (s.vctx c.val v.val x).sreg (iA w) ≠ 0 ∧ iImm w ≠ 0 ∧ (s.vctx c.val v.val x).loops.length < 2) ∧
    (∃ s₀ : State, ∃ c : Fin 96, ∃ v : Fin 2, ∃ took : Nat, ∃ bad : List Nat, ∃ x : Nat, ∃ w : Nat, s₀.Issues bad c.val v.val x 0x13 w ∧
      let s := s₀.vxTimed took c.val v.val x
      (s.vctx c.val v.val x).sreg (iA w) ≠ 0 ∧ iImm w ≠ 0 ∧ 2 ≤ (s.vctx c.val v.val x).loops.length) ∧
    (∃ s₀ : State, ∃ c : Fin 96, ∃ v : Fin 2, ∃ bad : List Nat, ∃ x : Nat, ∃ w : Nat, s₀.Issues bad c.val v.val x 0x14 w ∧ iImm w = 0) ∧
    (∃ s₀ : State, ∃ c : Fin 96, ∃ v : Fin 2, ∃ took : Nat, ∃ bad : List Nat, ∃ x : Nat, ∃ w : Nat, s₀.Issues bad c.val v.val x 0x14 w ∧
      let s := s₀.vxTimed took c.val v.val x
      iImm w = 1 ∧ (s.getVx c.val v.val).out = [] ∧ (s.getEng c.val v.val).emitq = []) ∧
    (∃ s₀ : State, ∃ c : Fin 96, ∃ v : Fin 2, ∃ bad : List Nat, ∃ x : Nat, ∃ w : Nat, s₀.Issues bad c.val v.val x 0x14 w ∧ iImm w = 2) :=
  ⟨⟨ins 1073741824, 0, 0, 0, [], 0, 1073741824, by unfold State.Issues; decide +kernel, by decide +kernel⟩,
   ⟨ins 1073750016, 0, 0, 0, [], 0, 1073750016, by unfold State.Issues; decide +kernel, by decide +kernel⟩,
   ⟨ins 1073790976, 0, 0, 0, [], 0, 1073790976, by unfold State.Issues; decide +kernel, by decide +kernel⟩,
   ⟨ins 1140850688, 0, 0, [], 0, 1140850688, by unfold State.Issues; decide +kernel⟩,
   ⟨ins 1207959552, 0, 0, [], 0, 1207959552, by unfold State.Issues; decide +kernel⟩,
   ⟨ins 1275068416, 0, 0, 0, [], 0, 1275068416, by unfold State.Issues; decide +kernel, by decide +kernel⟩,
   ⟨(ins 1275133953).modCtx 0 0 0 fun u => { u with s := [(1, 1)] }, 0, 0, 0, [], 0, 1275133953, by unfold State.Issues; decide +kernel,
     by decide +kernel⟩,
   ⟨(ins 1275133953).modCtx 0 0 0 fun u => { u with s := [(1, 1)], loops := [(0, 8, 2), (0, 8, 2)] }, 0, 0, 0, [], 0, 1275133953,
     by unfold State.Issues; decide +kernel, by decide +kernel⟩,
   ⟨ins 1342177280, 0, 0, [], 0, 1342177280, by unfold State.Issues; decide +kernel⟩,
   ⟨ins 1342177281, 0, 0, 0, [], 0, 1342177281, by unfold State.Issues; decide +kernel, by decide +kernel⟩,
   ⟨ins 1342177282, 0, 0, [], 0, 1342177282, by unfold State.Issues; decide +kernel⟩⟩

theorem test_met_LocalStoreAndTransferInstructions :
    (∃ s₀ : State, ∃ c : Fin 96, ∃ v : Fin 2, ∃ bad : List Nat, ∃ x : Nat, ∃ w : Nat, s₀.Issues bad c.val v.val x 0x18 w) ∧
    (∃ s₀ : State, ∃ c : Fin 96, ∃ v : Fin 2, ∃ bad : List Nat, ∃ x : Nat, ∃ w : Nat, s₀.Issues bad c.val v.val x 0x19 w) ∧
    (∃ s₀ : State, ∃ c : Fin 96, ∃ v : Fin 2, ∃ bad : List Nat, ∃ x : Nat, ∃ w : Nat, s₀.Issues bad c.val v.val x 0x1A w) ∧
    (∃ s₀ : State, ∃ c : Fin 96, ∃ v : Fin 2, ∃ bad : List Nat, ∃ x : Nat, ∃ w : Nat, s₀.Issues bad c.val v.val x 0x1B w) ∧
    (∃ s₀ : State, ∃ c : Fin 96, ∃ v : Fin 2, ∃ took : Nat, ∃ bad : List Nat, ∃ x : Nat, ∃ w : Nat, ∃ dev : Nat, ∃ loc : Nat, ∃ n : Nat, ∃ code :
        Nat, ∃ key : Nat, ∃ t : State, s₀.Issues bad c.val v.val x 0x1C w ∧
      let s := s₀.vxTimed took c.val v.val x
      s.xferOps c.val v.val x w true = (dev, loc, n, code) ∧ code = 0 ∧ sendWindow c.val dev = none ∧ (s.getVx c.val v.val).out.length < 8 ∧
        s.xferStart (s.ofContext c.val v.val x { dev := dev, loc := loc, len := n }) = some (key, t)) ∧
    (∃ s₀ : State, ∃ c : Fin 96, ∃ v : Fin 2, ∃ took : Nat, ∃ bad : List Nat, ∃ x : Nat, ∃ w : Nat, ∃ dev : Nat, ∃ loc : Nat, ∃ n : Nat, ∃ code :
        Nat, s₀.Issues bad c.val v.val x 0x1C w ∧
      let s := s₀.vxTimed took c.val v.val x
      s.xferOps c.val v.val x w true = (dev, loc, n, code) ∧ code ≠ 0) ∧
    (∃ s₀ : State, ∃ c : Fin 96, ∃ v : Fin 2, ∃ took : Nat, ∃ bad : List Nat, ∃ x : Nat, ∃ w : Nat, ∃ dev : Nat, ∃ loc : Nat, ∃ n : Nat, ∃ code :
        Nat, s₀.Issues bad c.val v.val x 0x1C w ∧
      let s := s₀.vxTimed took c.val v.val x
      s.xferOps c.val v.val x w true = (dev, loc, n, code) ∧ code = 0 ∧ sendWindow c.val dev ≠ none) ∧
    (∃ s₀ : State, ∃ c : Fin 96, ∃ v : Fin 2, ∃ took : Nat, ∃ bad : List Nat, ∃ x : Nat, ∃ w : Nat, ∃ dev : Nat, ∃ loc : Nat, ∃ n : Nat, ∃ code :
        Nat, ∃ key : Nat, ∃ t : State, s₀.Issues bad c.val v.val x 0x1D w ∧
      let s := s₀.vxTimed took c.val v.val x
      s.xferOps c.val v.val x w false = (dev, loc, n, code) ∧ code = 0 ∧ sendWindow c.val dev = none ∧ (s.getVx c.val v.val).out.length < 8 ∧
        s.xferStart (s.ofContext c.val v.val x { write := true, dev := dev, loc := loc, len := n }) = some (key, t)) ∧
    (∃ s₀ : State, ∃ c : Fin 96, ∃ v : Fin 2, ∃ took : Nat, ∃ bad : List Nat, ∃ x : Nat, ∃ w : Nat, ∃ dev : Nat, ∃ loc : Nat, ∃ n : Nat, ∃ code :
        Nat, s₀.Issues bad c.val v.val x 0x1D w ∧
      let s := s₀.vxTimed took c.val v.val x
      s.xferOps c.val v.val x w false = (dev, loc, n, code) ∧ code ≠ 0) ∧
    (∃ s₀ : State, ∃ c : Fin 96, ∃ v : Fin 2, ∃ took : Nat, ∃ bad : List Nat, ∃ x : Nat, ∃ w : Nat, ∃ dev : Nat, ∃ loc : Nat, ∃ n : Nat, ∃ code :
        Nat, ∃ key : Nat, ∃ t : State, s₀.Issues bad c.val v.val x 0x1D w ∧
      let s := s₀.vxTimed took c.val v.val x
      s.xferOps c.val v.val x w false = (dev, loc, n, code) ∧ ∃ h, code = 0 ∧ sendWindow c.val dev = some h ∧ dev % 0x1000 = 0 ∧ s.bit .MQ_SH_CFG
        [c.val, h] MQ_SH_CFG_EN = true ∧ s.badSend (s.val .MQ_SH_ADDR [c.val, h]) n (s.peekN (vcAddr c.val v.val loc) 16) = false ∧ (s.getVx c.val
        v.val).out.length < 8 ∧ s.xferStart (s.ofContext c.val v.val x
        { write := true, dev := s.val .MQ_SH_ADDR [c.val, h], loc := loc, len := n, handle := c.val * 64 + h + 1, seq := s.sendOrder (c.val * 64 + h + 1) })
        = some (key, t)) ∧
    (∃ s₀ : State, ∃ c : Fin 96, ∃ v : Fin 2, ∃ took : Nat, ∃ bad : List Nat, ∃ x : Nat, ∃ w : Nat, s₀.Issues bad c.val v.val x 0x1E w ∧
      let s := s₀.vxTimed took c.val v.val x
      (s.getVx c.val v.val).out.length ≤ iImm w) :=
  ⟨⟨ins 1610612736, 0, 0, [], 0, 1610612736, by unfold State.Issues; decide +kernel⟩,
   ⟨ins 1677721600, 0, 0, [], 0, 1677721600, by unfold State.Issues; decide +kernel⟩,
   ⟨ins 1744830464, 0, 0, [], 0, 1744830464, by unfold State.Issues; decide +kernel⟩,
   ⟨ins 1811939328, 0, 0, [], 0, 1811939328, by unfold State.Issues; decide +kernel⟩,
   ⟨((ins 1887578112).modCtx 0 0 0 fun u => { u with s := [(5, 64)] }), 0, 0, 0, [], 0, 1887578112, 0, 0, 64, 0, 96, ((ins 1887578112).modCtx 0 0 0
     fun u => { u with s := [(5, 64)] }).modXfer 96 fun _ => ((ins 1887578112).modCtx 0 0 0 fun u => { u with s := [(5, 64)] }).ofContext 0 0 0
     { dev := 0, loc := 0, len := 64 }, by unfold State.Issues; decide +kernel, by decide +kernel⟩,
   ⟨ins 1887578112, 0, 0, 0, [], 0, 1887578112, 0, 0, 0, 0x0523, by unfold State.Issues; decide +kernel, by decide +kernel⟩,
   ⟨((ins 1887578112).modCtx 0 0 0 fun u =>
     { u with s := [(2, BitVec.ofNat 32 (winBase 0 + 0xF980000)), (3, BitVec.ofNat 32 ((winBase 0 + 0xF980000) / 2 ^ 32)), (5, 64)] }), 0, 0, 0, [],
     0, 1887578112, winBase 0 + 0xF980000, 0, 64, 0, by unfold State.Issues; decide +kernel, by decide +kernel⟩,
   ⟨((ins 1954686976).modCtx 0 0 0 fun u => { u with s := [(5, 64)] }), 0, 0, 0, [], 0, 1954686976, 0, 0, 64, 0, 96, ((ins 1954686976).modCtx 0 0 0
     fun u => { u with s := [(5, 64)] }).modXfer 96 fun _ => ((ins 1954686976).modCtx 0 0 0 fun u => { u with s := [(5, 64)] }).ofContext 0 0 0
     { write := true, dev := 0, loc := 0, len := 64 }, by unfold State.Issues; decide +kernel, by decide +kernel⟩,
   ⟨ins 1954686976, 0, 0, 0, [], 0, 1954686976, 0, 0, 0, 0x0523, by unfold State.Issues; decide +kernel, by decide +kernel⟩,
   ⟨((((ins 1954686976).modCtx 0 0 0 fun u =>
     { u with s := [(2, BitVec.ofNat 32 (winBase 0 + 0xF980000)), (3, BitVec.ofNat 32 ((winBase 0 + 0xF980000) / 2 ^ 32)), (5, 64), (4, 64)] }).setFld
     .MQ_SH_CFG [0, 0] MQ_SH_CFG_EN 1).pokeLE (vcAddr 0 0 64) 2 48), 0, 0, 0, [], 0, 1954686976, winBase 0 + 0xF980000, 64, 64, 0, 96, ((((ins
     1954686976).modCtx 0 0 0 fun u =>
     { u with s := [(2, BitVec.ofNat 32 (winBase 0 + 0xF980000)), (3, BitVec.ofNat 32 ((winBase 0 + 0xF980000) / 2 ^ 32)), (5, 64), (4, 64)] }).setFld
     .MQ_SH_CFG [0, 0] MQ_SH_CFG_EN 1).pokeLE (vcAddr 0 0 64) 2 48).modXfer 96 fun _ => ((((ins 1954686976).modCtx 0 0 0 fun u =>
     { u with s := [(2, BitVec.ofNat 32 (winBase 0 + 0xF980000)), (3, BitVec.ofNat 32 ((winBase 0 + 0xF980000) / 2 ^ 32)), (5, 64), (4, 64)] }).setFld
     .MQ_SH_CFG [0, 0] MQ_SH_CFG_EN 1).pokeLE (vcAddr 0 0 64) 2 48).ofContext 0 0 0
     { write := true, dev := 0, loc := 64, len := 64, handle := 1, seq := ((((ins 1954686976).modCtx 0 0 0 fun u => { u with s := [(2, BitVec.ofNat 32 (winBase 0 + 0xF980000)), (3, BitVec.ofNat 32 ((winBase 0 + 0xF980000) / 2 ^ 32)), (5, 64), (4, 64)] }).setFld .MQ_SH_CFG [0, 0] MQ_SH_CFG_EN 1).pokeLE (vcAddr 0 0 64) 2 48).sendOrder 1 },
     by unfold State.Issues; decide +kernel, by decide +kernel, (0 : Nat), by decide +kernel⟩,
   ⟨ins 2013265920, 0, 0, 0, [], 0, 2013265920, by unfold State.Issues; decide +kernel, by decide +kernel⟩⟩

theorem test_met_VectorArithmeticWritesUnderTheMask :
    (∃ s₀ : State, ∃ c : Fin 96, ∃ v : Fin 2, ∃ bad : List Nat, ∃ x : Nat, ∃ w : Nat, s₀.Issues bad c.val v.val x 0x20 w) ∧
    (∃ s₀ : State, ∃ c : Fin 96, ∃ v : Fin 2, ∃ bad : List Nat, ∃ x : Nat, ∃ w : Nat, s₀.Issues bad c.val v.val x 0x21 w) ∧
    (∃ s₀ : State, ∃ c : Fin 96, ∃ v : Fin 2, ∃ bad : List Nat, ∃ x : Nat, ∃ w : Nat, s₀.Issues bad c.val v.val x 0x22 w) ∧
    (∃ s₀ : State, ∃ c : Fin 96, ∃ v : Fin 2, ∃ bad : List Nat, ∃ x : Nat, ∃ w : Nat, s₀.Issues bad c.val v.val x 0x23 w) ∧
    (∃ s₀ : State, ∃ c : Fin 96, ∃ v : Fin 2, ∃ bad : List Nat, ∃ x : Nat, ∃ w : Nat, s₀.Issues bad c.val v.val x 0x24 w) ∧
    (∃ s₀ : State, ∃ c : Fin 96, ∃ v : Fin 2, ∃ bad : List Nat, ∃ x : Nat, ∃ w : Nat, s₀.Issues bad c.val v.val x 0x25 w) ∧
    (∃ s₀ : State, ∃ c : Fin 96, ∃ v : Fin 2, ∃ bad : List Nat, ∃ x : Nat, ∃ w : Nat, s₀.Issues bad c.val v.val x 0x26 w ∧ bitsOf w 5 2 ≠ 3) ∧
    (∃ s₀ : State, ∃ c : Fin 96, ∃ v : Fin 2, ∃ bad : List Nat, ∃ x : Nat, ∃ w : Nat, s₀.Issues bad c.val v.val x 0x26 w ∧ bitsOf w 5 2 = 3) ∧
    (∃ s₀ : State, ∃ c : Fin 96, ∃ v : Fin 2, ∃ bad : List Nat, ∃ x : Nat, ∃ w : Nat, s₀.Issues bad c.val v.val x 0x28 w) :=
  ⟨⟨ins 2147483648, 0, 0, [], 0, 2147483648, by unfold State.Issues; decide +kernel⟩,
   ⟨ins 2214592512, 0, 0, [], 0, 2214592512, by unfold State.Issues; decide +kernel⟩,
   ⟨ins 2281701376, 0, 0, [], 0, 2281701376, by unfold State.Issues; decide +kernel⟩,
   ⟨ins 2348810240, 0, 0, [], 0, 2348810240, by unfold State.Issues; decide +kernel⟩,
   ⟨ins 2415919104, 0, 0, [], 0, 2415919104, by unfold State.Issues; decide +kernel⟩,
   ⟨ins 2483027968, 0, 0, [], 0, 2483027968, by unfold State.Issues; decide +kernel⟩,
   ⟨ins 2550136832, 0, 0, [], 0, 2550136832, by unfold State.Issues; decide +kernel⟩,
   ⟨ins 2550136928, 0, 0, [], 0, 2550136928, by unfold State.Issues; decide +kernel⟩,
   ⟨ins 2684354560, 0, 0, [], 0, 2684354560, by unfold State.Issues; decide +kernel⟩⟩

theorem test_met_VectorComparisonConversionAndMoves :
    (∃ s₀ : State, ∃ c : Fin 96, ∃ v : Fin 2, ∃ bad : List Nat, ∃ x : Nat, ∃ w : Nat, s₀.Issues bad c.val v.val x 0x27 w ∧ iF w % 8 ≤ 5) ∧
    (∃ s₀ : State, ∃ c : Fin 96, ∃ v : Fin 2, ∃ bad : List Nat, ∃ x : Nat, ∃ w : Nat, s₀.Issues bad c.val v.val x 0x27 w ∧ 5 < iF w % 8) ∧
    (∃ s₀ : State, ∃ c : Fin 96, ∃ v : Fin 2, ∃ bad : List Nat, ∃ x : Nat, ∃ w : Nat, ∃ fs : Fmt, ∃ fd : Fmt, s₀.Issues bad c.val v.val x 0x29 w ∧
        bitsOf w 4 4 ≠ 11 ∧ bitsOf w 0 4 ≠ 11 ∧ Fmt.ofCode (bitsOf w 4 4) = some fs ∧ Fmt.ofCode (bitsOf w 0 4) = some fd ∧ iB w < 32 / min fs.width
        fd.width) ∧
    (∃ s₀ : State, ∃ c : Fin 96, ∃ v : Fin 2, ∃ bad : List Nat, ∃ x : Nat, ∃ w : Nat, s₀.Issues bad c.val v.val x 0x29 w ∧ (bitsOf w 4 4 = 11 ∨
        bitsOf w 0 4 = 11)) ∧
    (∃ s₀ : State, ∃ c : Fin 96, ∃ v : Fin 2, ∃ bad : List Nat, ∃ x : Nat, ∃ w : Nat, s₀.Issues bad c.val v.val x 0x2A w ∧ iF w % 4 = 0) ∧
    (∃ s₀ : State, ∃ c : Fin 96, ∃ v : Fin 2, ∃ took : Nat, ∃ bad : List Nat, ∃ x : Nat, ∃ w : Nat, s₀.Issues bad c.val v.val x 0x2A w ∧
      let s := s₀.vxTimed took c.val v.val x
      let u := s.vctx c.val v.val x
      let ls := (List.range 16).map fun k => if (u.mreg (iM w)).testBit k = true then some (vlane (u.vreg (iA w)) k) else none
      let best := pairTree (if iF w % 4 = 1 then typedMin (iT w) else typedMax (iT w)) 4 ls
      ∃ n, (iF w % 4 = 1 ∨ iF w % 4 = 2) ∧ best = some n) ∧
    (∃ s₀ : State, ∃ c : Fin 96, ∃ v : Fin 2, ∃ took : Nat, ∃ bad : List Nat, ∃ x : Nat, ∃ w : Nat, s₀.Issues bad c.val v.val x 0x2A w ∧
      let s := s₀.vxTimed took c.val v.val x
      let u := s.vctx c.val v.val x
      let ls := (List.range 16).map fun k => if (u.mreg (iM w)).testBit k = true then some (vlane (u.vreg (iA w)) k) else none
      let best := pairTree (if iF w % 4 = 1 then typedMin (iT w) else typedMax (iT w)) 4 ls
      (iF w % 4 = 1 ∨ iF w % 4 = 2) ∧ best = none) ∧
    (∃ s₀ : State, ∃ c : Fin 96, ∃ v : Fin 2, ∃ bad : List Nat, ∃ x : Nat, ∃ w : Nat, s₀.Issues bad c.val v.val x 0x2A w ∧ iF w % 4 = 3) ∧
    (∃ s₀ : State, ∃ c : Fin 96, ∃ v : Fin 2, ∃ bad : List Nat, ∃ x : Nat, ∃ w : Nat, s₀.Issues bad c.val v.val x 0x2B w ∧ iF w % 8 = 0) ∧
    (∃ s₀ : State, ∃ c : Fin 96, ∃ v : Fin 2, ∃ bad : List Nat, ∃ x : Nat, ∃ w : Nat, s₀.Issues bad c.val v.val x 0x2B w ∧ iF w % 8 = 1) ∧
    (∃ s₀ : State, ∃ c : Fin 96, ∃ v : Fin 2, ∃ bad : List Nat, ∃ x : Nat, ∃ w : Nat, s₀.Issues bad c.val v.val x 0x2B w ∧ iF w % 8 = 2 ∧ iB w ≤ 15) ∧
    (∃ s₀ : State, ∃ c : Fin 96, ∃ v : Fin 2, ∃ bad : List Nat, ∃ x : Nat, ∃ w : Nat, s₀.Issues bad c.val v.val x 0x2B w ∧ iF w % 8 = 3 ∧ iB w ≤ 15) ∧
    (∃ s₀ : State, ∃ c : Fin 96, ∃ v : Fin 2, ∃ bad : List Nat, ∃ x : Nat, ∃ w : Nat, s₀.Issues bad c.val v.val x 0x2B w ∧ iF w % 8 = 4) ∧
    (∃ s₀ : State, ∃ c : Fin 96, ∃ v : Fin 2, ∃ bad : List Nat, ∃ x : Nat, ∃ w : Nat, s₀.Issues bad c.val v.val x 0x2B w ∧ iF w % 8 = 5) ∧
    (∃ s₀ : State, ∃ c : Fin 96, ∃ v : Fin 2, ∃ bad : List Nat, ∃ x : Nat, ∃ w : Nat, s₀.Issues bad c.val v.val x 0x2B w ∧ iF w % 8 = 6) ∧
    (∃ s₀ : State, ∃ c : Fin 96, ∃ v : Fin 2, ∃ bad : List Nat, ∃ x : Nat, ∃ w : Nat, s₀.Issues bad c.val v.val x 0x2B w ∧ iF w % 8 = 7) ∧
    (∃ s₀ : State, ∃ c : Fin 96, ∃ v : Fin 2, ∃ bad : List Nat, ∃ x : Nat, ∃ w : Nat, s₀.Issues bad c.val v.val x 0x2B w ∧ ((iF w % 8 = 2 ∨ iF w % 8
        = 3) ∧ 15 < iB w)) :=
  ⟨⟨ins 2617245696, 0, 0, [], 0, 2617245696, by unfold State.Issues; decide +kernel⟩,
   ⟨ins 2617245702, 0, 0, [], 0, 2617245702, by unfold State.Issues; decide +kernel⟩,
   ⟨ins 2751463560, 0, 0, [], 0, 2751463560, .int8, .int8, by unfold State.Issues; decide +kernel⟩,
   ⟨ins 2751463600, 0, 0, [], 0, 2751463600, by unfold State.Issues; decide +kernel⟩,
   ⟨ins 2818572288, 0, 0, [], 0, 2818572288, by unfold State.Issues; decide +kernel⟩,
   ⟨ins 2818572289, 0, 0, 0, [], 0, 2818572289, by unfold State.Issues; decide +kernel, 0, by decide +kernel⟩,
   ⟨ins 2818572545, 0, 0, 0, [], 0, 2818572545, by unfold State.Issues; decide +kernel, by decide +kernel⟩,
   ⟨ins 2818572291, 0, 0, [], 0, 2818572291, by unfold State.Issues; decide +kernel⟩,
   ⟨ins 2885681152, 0, 0, [], 0, 2885681152, by unfold State.Issues; decide +kernel⟩,
   ⟨ins 2885681153, 0, 0, [], 0, 2885681153, by unfold State.Issues; decide +kernel⟩,
   ⟨ins 2885681154, 0, 0, [], 0, 2885681154, by unfold State.Issues; decide +kernel⟩,
   ⟨ins 2885681155, 0, 0, [], 0, 2885681155, by unfold State.Issues; decide +kernel⟩,
   ⟨ins 2885681156, 0, 0, [], 0, 2885681156, by unfold State.Issues; decide +kernel⟩,
   ⟨ins 2885681157, 0, 0, [], 0, 2885681157, by unfold State.Issues; decide +kernel⟩,
   ⟨ins 2885681158, 0, 0, [], 0, 2885681158, by unfold State.Issues; decide +kernel⟩,
   ⟨ins 2885681159, 0, 0, [], 0, 2885681159, by unfold State.Issues; decide +kernel⟩,
   ⟨ins 2885713922, 0, 0, [], 0, 2885713922, by unfold State.Issues; decide +kernel⟩⟩

theorem test_met_EventStepAndStateInstructions :
    (∃ s₀ : State, ∃ c : Fin 96, ∃ v : Fin 2, ∃ took : Nat, ∃ bad : List Nat, ∃ x : Nat, ∃ w : Nat, ∃ g, s₀.Issues bad c.val v.val x 0x30 w ∧
      let s := s₀.vxTimed took c.val v.val x
      (w.testBit 0 = false ∧ iA w % 2 = 0 ∧ (s.vctx c.val v.val x).emitted = 0) ∧
      let r := (s.vctx c.val v.val x).sreg (iA w + 1) * 2 ^ 32 + (s.vctx c.val v.val x).sreg (iA w)
      s.groupOf (bitsOf r 41 14) = some g ∧ s.vxBound c.val v.val g = true ∧ (s.vxOpen c.val v.val g = true → (s.getEng c.val v.val).sdone.contains
        g = false) ∧ (s.getEng c.val v.val).emitq.length < 16) ∧
    (∃ s₀ : State, ∃ c : Fin 96, ∃ v : Fin 2, ∃ took : Nat, ∃ bad : List Nat, ∃ x : Nat, ∃ w : Nat, s₀.Issues bad c.val v.val x 0x31 w ∧
      let s := s₀.vxTimed took c.val v.val x
      let q := (s.getEng c.val v.val).ibq
      (w.testBit 0 = false ∨ q ≠ [])) ∧
    (∃ s₀ : State, ∃ c : Fin 96, ∃ v : Fin 2, ∃ took : Nat, ∃ bad : List Nat, ∃ x : Nat, ∃ w : Nat, s₀.Issues bad c.val v.val x 0x32 w ∧
      let s := s₀.vxTimed took c.val v.val x
      let g := (s.vctx c.val v.val x).sreg (iA w)
      (g < 256 → s.wgState g ≠ wsHalted) ∧ w.testBit 0 = true ∧ ((s.getWg g).last + 2 ^ 32 - (s.vctx c.val v.val x).sreg (iD w)) % 2 ^ 32 < 2 ^ 31) ∧
    (∃ s₀ : State, ∃ c : Fin 96, ∃ v : Fin 2, ∃ took : Nat, ∃ bad : List Nat, ∃ x : Nat, ∃ w : Nat, s₀.Issues bad c.val v.val x 0x32 w ∧
      let s := s₀.vxTimed took c.val v.val x
      let g := (s.vctx c.val v.val x).sreg (iA w)
      let t := s.modVx c.val v.val fun y => { y with swg := g + 1 }
      let st := s.val .WG_STEP [g] % 2 ^ 32
      let d := (st + 2 ^ 32 - (s.vctx c.val v.val x).sreg (iD w)) % 2 ^ 32
      (g < 256 → s.wgState g ≠ wsHalted) ∧ w.testBit 0 = false ∧ g < 256 ∧ t.vxOpen c.val v.val g = true ∧ d ≠ 0 ∧ d < 2 ^ 31) ∧
    (∃ s₀ : State, ∃ c : Fin 96, ∃ v : Fin 2, ∃ bad : List Nat, ∃ x : Nat, ∃ w : Nat, s₀.Issues bad c.val v.val x 0x33 w) ∧
    (∃ s₀ : State, ∃ c : Fin 96, ∃ v : Fin 2, ∃ bad : List Nat, ∃ x : Nat, ∃ w : Nat, s₀.Issues bad c.val v.val x 0x34 w ∧ iF w % 8 ≤ 4) ∧
    (∃ s₀ : State, ∃ c : Fin 96, ∃ v : Fin 2, ∃ bad : List Nat, ∃ x : Nat, ∃ w : Nat, s₀.Issues bad c.val v.val x 0x34 w ∧ 4 < iF w % 8) ∧
    (∃ s₀ : State, ∃ c : Fin 96, ∃ v : Fin 2, ∃ bad : List Nat, ∃ x : Nat, ∃ w : Nat, s₀.Issues bad c.val v.val x 0x35 w) ∧
    (∃ s₀ : State, ∃ c : Fin 96, ∃ v : Fin 2, ∃ bad : List Nat, ∃ x : Nat, ∃ w : Nat, s₀.Issues bad c.val v.val x 0x36 w ∧ iImm w = 0) ∧
    (∃ s₀ : State, ∃ c : Fin 96, ∃ v : Fin 2, ∃ bad : List Nat, ∃ x : Nat, ∃ w : Nat, s₀.Issues bad c.val v.val x 0x36 w ∧ iImm w = 0x001) ∧
    (∃ s₀ : State, ∃ c : Fin 96, ∃ v : Fin 2, ∃ bad : List Nat, ∃ x : Nat, ∃ w : Nat, s₀.Issues bad c.val v.val x 0x36 w ∧ iImm w = 0x002) ∧
    (∃ s₀ : State, ∃ c : Fin 96, ∃ v : Fin 2, ∃ bad : List Nat, ∃ x : Nat, ∃ w : Nat, s₀.Issues bad c.val v.val x 0x36 w ∧ iImm w = 0x004) ∧
    (∃ s₀ : State, ∃ c : Fin 96, ∃ v : Fin 2, ∃ bad : List Nat, ∃ x : Nat, ∃ w : Nat, s₀.Issues bad c.val v.val x 0x36 w ∧ iImm w = 0x010) ∧
    (∃ s₀ : State, ∃ c : Fin 96, ∃ v : Fin 2, ∃ bad : List Nat, ∃ x : Nat, ∃ w : Nat, s₀.Issues bad c.val v.val x 0x36 w ∧ iImm w = 0x011) ∧
    (∃ s₀ : State, ∃ c : Fin 96, ∃ v : Fin 2, ∃ bad : List Nat, ∃ x : Nat, ∃ w : Nat, s₀.Issues bad c.val v.val x 0x36 w ∧ iImm w = 0x012) ∧
    (∃ s₀ : State, ∃ c : Fin 96, ∃ v : Fin 2, ∃ bad : List Nat, ∃ x : Nat, ∃ w : Nat, s₀.Issues bad c.val v.val x 0x36 w ∧ iImm w = 0x020) ∧
    (∃ s₀ : State, ∃ c : Fin 96, ∃ v : Fin 2, ∃ bad : List Nat, ∃ x : Nat, ∃ w : Nat, s₀.Issues bad c.val v.val x 0x37 w ∧ iImm w = 0x004) ∧
    (∃ s₀ : State, ∃ c : Fin 96, ∃ v : Fin 2, ∃ bad : List Nat, ∃ x : Nat, ∃ w : Nat, s₀.Issues bad c.val v.val x 0x37 w ∧ iImm w = 0x010) ∧
    (∃ s₀ : State, ∃ c : Fin 96, ∃ v : Fin 2, ∃ bad : List Nat, ∃ x : Nat, ∃ w : Nat, s₀.Issues bad c.val v.val x 0x37 w ∧ iImm w = 0x011) ∧
    (∃ s₀ : State, ∃ c : Fin 96, ∃ v : Fin 2, ∃ bad : List Nat, ∃ x : Nat, ∃ w : Nat, s₀.Issues bad c.val v.val x 0x37 w ∧ iImm w = 0x012) :=
  ⟨⟨insIn 3221225472, 0, 0, 0, [], 0, 3221225472, (0 : Nat), by unfold State.Issues; decide +kernel, by decide +kernel, by decide +kernel⟩,
   ⟨ins 3288334336, 0, 0, 0, [], 0, 3288334336, by unfold State.Issues; decide +kernel, by decide +kernel⟩,
   ⟨ins 3355443201, 0, 0, 0, [], 0, 3355443201, by unfold State.Issues; decide +kernel, by decide +kernel⟩,
   ⟨((insIn 3355443200).setVal .WG_STEP [0] 1).modWg 0 fun w => { w with opened := [16] }, 0, 0, 0, [], 0, 3355443200,
     by unfold State.Issues; decide +kernel, by decide +kernel⟩,
   ⟨ins 3422552064, 0, 0, [], 0, 3422552064, by unfold State.Issues; decide +kernel⟩,
   ⟨ins 3489660928, 0, 0, [], 0, 3489660928, by unfold State.Issues; decide +kernel⟩,
   ⟨ins 3489660933, 0, 0, [], 0, 3489660933, by unfold State.Issues; decide +kernel⟩,
   ⟨ins 3556769792, 0, 0, [], 0, 3556769792, by unfold State.Issues; decide +kernel⟩,
   ⟨ins 3623878656, 0, 0, [], 0, 3623878656, by unfold State.Issues; decide +kernel⟩,
   ⟨ins 3623878657, 0, 0, [], 0, 3623878657, by unfold State.Issues; decide +kernel⟩,
   ⟨ins 3623878658, 0, 0, [], 0, 3623878658, by unfold State.Issues; decide +kernel⟩,
   ⟨ins 3623878660, 0, 0, [], 0, 3623878660, by unfold State.Issues; decide +kernel⟩,
   ⟨ins 3623878672, 0, 0, [], 0, 3623878672, by unfold State.Issues; decide +kernel⟩,
   ⟨ins 3623878673, 0, 0, [], 0, 3623878673, by unfold State.Issues; decide +kernel⟩,
   ⟨ins 3623878674, 0, 0, [], 0, 3623878674, by unfold State.Issues; decide +kernel⟩,
   ⟨ins 3623878688, 0, 0, [], 0, 3623878688, by unfold State.Issues; decide +kernel⟩,
   ⟨ins 3690987524, 0, 0, [], 0, 3690987524, by unfold State.Issues; decide +kernel⟩,
   ⟨ins 3690987536, 0, 0, [], 0, 3690987536, by unfold State.Issues; decide +kernel⟩,
   ⟨ins 3690987537, 0, 0, [], 0, 3690987537, by unfold State.Issues; decide +kernel⟩,
   ⟨ins 3690987538, 0, 0, [], 0, 3690987538, by unfold State.Issues; decide +kernel⟩⟩

theorem test_met_VectorCoresFaultOnWhatTheyCannotIssue :
    (∃ s : State, ∃ c : Fin 96, ∃ v : Fin 2, ∃ took : Nat, ∃ bad : List Nat, ∃ x : Nat, ∃ i : Instr, ((i = .sadd c v took bad ∨ i = .bc c v took bad
        ∨ i = .vadd c v took bad) ∧ s.vxActive c.val v.val = some x) ∧
      let pc := (s.vctx c.val v.val x).pc
      (pc % 4 ≠ 0 ∨ 0x20000 ≤ pc)) ∧
    (∃ s : State, ∃ c : Fin 96, ∃ v : Fin 2, ∃ took : Nat, ∃ bad : List Nat, ∃ x : Nat, ∃ i : Instr, ((i = .sadd c v took bad ∨ i = .bc c v took bad
        ∨ i = .vadd c v took bad) ∧ s.vxActive c.val v.val = some x) ∧
      let pc := (s.vctx c.val v.val x).pc
      pc % 4 = 0 ∧ pc < 0x20000 ∧ badIn bad (vcAddr c.val v.val pc) 4 = true) ∧
    (∃ s : State, ∃ c : Fin 96, ∃ v : Fin 2, ∃ took : Nat, ∃ bad : List Nat, ∃ x : Nat, ∃ i : Instr, ((i = .sadd c v took bad ∨ i = .bc c v took bad
        ∨ i = .vadd c v took bad) ∧ s.vxActive c.val v.val = some x) ∧
      let pc := (s.vctx c.val v.val x).pc
      let w := s.peekLE (vcAddr c.val v.val pc) 4
      pc % 4 = 0 ∧ pc < 0x20000 ∧ badIn bad (vcAddr c.val v.val pc) 4 = false ∧ iOp w ∉ vxOps) :=
  ⟨⟨(ins 0).modCtx 0 0 0 fun u => { u with pc := 2 }, 0, 0, 0, [], 0, .sadd 0 0 0 [], by decide +kernel, by decide +kernel⟩,
   ⟨ins 0, 0, 0, 0, [vcAddr 0 0 0], 0, .bc 0 0 0 [vcAddr 0 0 0], by decide +kernel, by decide +kernel⟩,
   ⟨ins 4227858432, 0, 0, 0, [], 0, .vadd 0 0 0 [], by decide +kernel, by decide +kernel⟩⟩

theorem test_met_RouterCommandsHaveTheirEffects :
    (∃ s : State, ∃ c : Fin 96, ∃ m : MFlit, ∃ p : Nat, ((s.getRt c.val).injDone = false ∧ (∀ k, k < 20 → s.engineOut c.val k = []) ∧ s.isHole c.val
        = false ∧ (s.getRt c.val).injq = [m] ∧ (s.getRt c.val).spill = [] ∧ (s.getRt c.val).ovf = [] ∧ s.golden (halfOf c.val) ≠ some c.val ∧ fDY
        m.f < 6 ∧ m.rw = true ∧ atDest c.val m.f = false) ∧
      let u := (s.modRt c.val fun r => { r with injDone := true }).noteBusy c.val (productive c.val m.f)
      u.transitAbsorb c.val m.f = none ∧ (productive c.val m.f).find? (u.portOpen c.val) = some p) ∧
    (∃ s : State, ∃ c : Fin 96, ∃ m : MFlit, (s.transitAbsorb c.val m.f = none ∧ atDest c.val m.f = false) ∧
      let u := s.noteBusy c.val (productive c.val m.f)
      ∃ p, (productive c.val m.f).find? (u.portOpen c.val) = some p) ∧
    (∃ s : State, ∃ c : Fin 96, ∃ m : MFlit, (s.transitAbsorb c.val m.f = none ∧ atDest c.val m.f = false) ∧
      let u := s.noteBusy c.val (productive c.val m.f)
      ∃ q, (productive c.val m.f).find? (u.portOpen c.val) = none ∧ (List.range 4).find? (u.portOpen c.val) = some q) ∧
    (∃ s : State, ∃ c : Fin 96, ∃ m : MFlit, s.transitAbsorb c.val m.f = none ∧ atDest c.val m.f = true ∧ checkFlit m.f = ⟨m.f, false, false⟩ ∧
        (s.getRt c.val).ej < 2 ∧ s.ejectCheck c.val m = 0 ∧ s.queueRoom c.val m.f = true) ∧
    (∃ s : State, ∃ c : Fin 96, ∃ m : MFlit, ((s.getRt c.val).relDone = false ∧ (s.getRt c.val).spill = [m] ∧ atDest c.val m.f = true) ∧
      let u := s.modRt c.val fun r => { r with relDone := true }
      u.fencedEng c.val (fDC m.f) = false ∧ u.queueRoom c.val m.f = true) ∧
    (∃ s : State, ∃ h : Fin 2, (s.bit .EF_GOLD [0] EF_GOLD_EN = true ∧ s.isSplit = false ∧ s.golden h.val = none) ∧
      let v := (List.range 96).foldl (fun v c => v ||| (s.getRt c).old) 0
      nextGolden v (s.fld .EF_GOLDSTAT [0] EF_GOLDSTAT_ID) 0 96 = none) ∧
    (∃ s : State, ∃ h : Fin 2, (s.bit .EF_GOLD [0] EF_GOLD_EN = true ∧ s.isSplit = false ∧ s.golden h.val = none) ∧
      let v := (List.range 96).foldl (fun v c => v ||| (s.getRt c).old) 0
      ∃ g, nextGolden v (s.fld .EF_GOLDSTAT [0] EF_GOLDSTAT_ID) 0 96 = some g) ∧
    (∃ s : State, ∃ h : Fin 2, ∃ g : Nat, s.isSplit = false ∧ s.golden h.val = some g) :=
  ⟨⟨pt.modRt 0 fun r => { r with injq := [flitTo 1 0] }, 0, flitTo 1 0, 1, by decide +kernel, by decide +kernel⟩,
   ⟨State.reset, 0, flitTo 1 0, by decide +kernel, (1 : Nat), by decide +kernel⟩,
   ⟨pt.modRt 1 fun r => { r with hole := true }, 0, flitTo 2 0, by decide +kernel, (2 : Nat), by decide +kernel⟩,
   ⟨gs, 0, {}, by decide +kernel⟩,
   ⟨pt.modRt 0 fun r => { r with spill := [{}] }, 0, {}, by decide +kernel, by decide +kernel⟩,
   ⟨State.reset, 0, by decide +kernel, by decide +kernel⟩,
   ⟨pt.modRt 0 fun r => { r with old := 8 }, 0, by decide +kernel, (3 : Nat), by decide +kernel⟩,
   ⟨pt.modHf 0 fun x => { x with gold := 4 }, 0, 3, by decide +kernel⟩⟩

theorem test_met_FenceRemapAndFabricResetCommandsHaveTheirEffects :
    (∃ s : State, ∃ req : Requester, ∃ c : Fin 96, s.Reached req .EF_FENCE [c.val]) ∧
    (∃ s : State, ∃ req : Requester, ∃ n : Fin 16, s.Reached req .EF_REMAP [0, n.val] ∧ s.checking (.remap n.val) = false ∧ s.bit .EF_REMAP [0,
        n.val] EF_REMAP_EN = false) ∧
    (∃ s : State, ∃ req : Requester, ∃ n : Fin 16, s.Reached req .EF_REMAP [0, n.val] ∧ s.checking (.remap n.val) = false ∧ s.bit .EF_REMAP [0,
        n.val] EF_REMAP_EN = true) ∧
    (∃ s : State, ∃ c : Fin 96, ((s.getRt c.val).hole = false ∧ (s.getRt c.val).reset = 0) ∧ ∃ east, s.Reached (.steward east) .EF_CTRL [c.val]) ∧
    (∃ s : State, ∃ c : Fin 96, (s.getRt c.val).reset = 2 ∧ (∀ q, (s.getRt c.val).input q = none)) ∧
    (∃ s : State, ∃ c : Fin 96, (s.getRt c.val).reset = 3) ∧
    (∃ s : State, ∃ c : Fin 96, (s.getRt c.val).reset = 4) :=
  ⟨⟨State.reset, .steward 0, 0, by unfold State.Reached; decide +kernel⟩,
   ⟨State.reset, .steward 0, 0, by unfold State.Reached; decide +kernel⟩,
   ⟨State.reset.setFld .EF_REMAP [0, 0] EF_REMAP_EN 1, .steward 0, 0, by unfold State.Reached; decide +kernel⟩,
   ⟨State.reset, 0, by decide +kernel, false, by unfold State.Reached; decide +kernel⟩,
   ⟨pt.modRt 0 fun r => { r with reset := 2 }, 0, by decide +kernel, (fun q => by rcases q with _ | _ | _ | q <;> rfl)⟩,
   ⟨pt.modRt 0 fun r => { r with reset := 3 }, 0, by decide +kernel⟩,
   ⟨pt.modRt 0 fun r => { r with reset := 4 }, 0, by decide +kernel⟩⟩

theorem test_met_ScheduleCommandsHaveTheirEffects :
    (∃ s : State, ∃ req : Requester, ∃ n : Fin 64, ∃ v : Word, s.Reached req .TL_SCFG [0, n.val] ∧ s.deviceUnitCode req false (s.fld .TL_SCFG [0,
        n.val] TL_SCFG_PART) (some (bitsOf (withEn v true) 2 3)) = 0 ∧ s.schState n.val = 0 ∧ s.checking (.sched n.val) = false ∧ s.bit .TL_SCFG [0,
        n.val] TL_SCFG_EN = false) ∧
    (∃ s : State, ∃ req : Requester, ∃ n : Fin 64, ∃ v : Word, s.Reached req .TL_SCFG [0, n.val] ∧ s.deviceUnitCode req true (s.fld .TL_SCFG [0,
        n.val] TL_SCFG_PART) (some (bitsOf (withEn v false) 2 3)) = 0 ∧ s.schState n.val ≠ 0 ∧ s.schState n.val ≠ 4 ∧ s.checking (.sched n.val) =
        false ∧ s.bit .TL_SCFG [0, n.val] TL_SCFG_EN = true) ∧
    (∃ s : State, ∃ n : Fin 64, s.schState n.val = 4 ∧ (s.getSch n.val).mark = 3 ∧ s.loadBusy n.val = false ∧ s.seamHolds (s.getSch n.val).cross =
        false) ∧
    (∃ s : State, ∃ n : Fin 64, (s.schState n.val = 0 ∨ s.schState n.val = 5)) ∧
    (∃ s : State, ∃ n : Fin 64,
      let x := s.getSch n.val
      s.schState n.val = 1 ∧ x.mark ≠ 2 ∧ x.todo = []) ∧
    (∃ s : State, ∃ n : Fin 64,
      let x := s.getSch n.val
      s.schState n.val = 1 ∧ x.mark = 2) ∧
    (∃ s : State, ∃ h : Fin 2, ∃ n : Fin 64,
      let x := s.getSch n.val
      s.schState n.val = 2 ∧ x.susp.any (fun k => suspHalf k == h.val) = true) ∧
    (∃ s : State, ∃ n : Fin 64,
      let x := s.getSch n.val
      s.schState n.val = 3 ∧ x.susp = []) :=
  ⟨⟨State.reset, .steward 0, 0, 0, by unfold State.Reached; decide +kernel⟩,
   ⟨((State.reset.setFld .TL_SSTAT [0, 0] TL_SSTAT_STATE 2).setFld .TL_SCFG [0, 0] TL_SCFG_EN 1), .steward 0, 0, 0,
     by unfold State.Reached; decide +kernel⟩,
   ⟨(State.reset.setFld .TL_SSTAT [0, 0] TL_SSTAT_STATE 4).modSch 0 fun x => { x with mark := 3 }, 0, by decide +kernel⟩,
   ⟨State.reset, 0, by decide +kernel⟩,
   ⟨(State.reset.setFld .TL_SSTAT [0, 0] TL_SSTAT_STATE 1), 0, by decide +kernel⟩,
   ⟨(State.reset.setFld .TL_SSTAT [0, 0] TL_SSTAT_STATE 1).modSch 0 fun x => { x with mark := 2 }, 0, by decide +kernel⟩,
   ⟨(State.reset.setFld .TL_SSTAT [0, 0] TL_SSTAT_STATE 2).modSch 0 fun x => { x with susp := [0] }, 0, 0, by decide +kernel⟩,
   ⟨(State.reset.setFld .TL_SSTAT [0, 0] TL_SSTAT_STATE 3), 0, by decide +kernel⟩⟩

theorem test_met_TransferCommandsHaveTheirEffects :
    (∃ s : State, ∃ at' : XferAt, ∃ slot : Fin 1024,
      let key := xferKey at'
      let x := s.getXfer key
      let ts := s.nextTo x
      (s.mayIssue key = true ∧ x.handle = 0 ∧ ts ≠ [keepEnd]) ∧ ∃ t, s.circuitTo x.svc x.ep ts = 1 ∧ ts.find? (fun t => s.slotTo x.svc x.ep slot.val
        t && !s.dataOwed x.ep t) = some t ∧ x.ep ≠ keepEnd ∧ t ≠ keepEnd) ∧
    (∃ s : State, ∃ at' : XferAt,
      let key := xferKey at'
      let x := s.getXfer key
      let ts := s.nextTo x
      s.mayIssue key = true ∧ x.handle = 0 ∧ ts ≠ [keepEnd] ∧ s.circuitTo x.svc x.ep ts = 2) ∧
    (∃ s : State, ∃ at' : XferAt,
      let key := xferKey at'
      let x := s.getXfer key
      let ts := s.nextTo x
      s.mayIssue key = true ∧ x.handle = 0 ∧ ts ≠ [keepEnd] ∧ s.circuitTo x.svc x.ep ts = 0 ∧ s.isSplit = false) ∧
    (∃ s : State, ∃ at' : XferAt, ∃ k : Fin 8, ∃ p : Piece,
      let key := xferKey at'
      let x := s.getXfer key
      x.live = true ∧ x.pieces[k.val]? = some p ∧ p.st = 0 ∧ p.fly = 0 ∧ x.handle = 0 ∧ p.tgt ≠ keepEnd ∧ p.rv = false ∧ s.circuit x.svc p.tgt
        (answerEnd x.ep p.ret p.rv) = 0) ∧
    (∃ s : State, ∃ at' : XferAt, ∃ k : Fin 8, ∃ p : Piece,
      let key := xferKey at'
      let x := s.getXfer key
      x.live = true ∧ x.pieces[k.val]? = some p ∧ p.st = 0 ∧ p.fly = 0 ∧ x.handle = 0 ∧ p.tgt ≠ keepEnd ∧ p.rv = false ∧ s.circuit x.svc p.tgt
        (answerEnd x.ep p.ret p.rv) ≠ 0 ∧ s.pieceCode x p = 0 ∧ arbOf p.tgt = none) ∧
    (∃ s : State, ∃ at' : XferAt, ∃ k : Fin 8, ∃ p : Piece,
      let key := xferKey at'
      let x := s.getXfer key
      (x.live = true ∧ x.pieces[k.val]? = some p ∧ p.st = 0 ∧ p.fly = 0 ∧ x.handle = 0 ∧ p.tgt ≠ keepEnd ∧ p.rv = false ∧ s.circuit x.svc p.tgt
        (answerEnd x.ep p.ret p.rv) ≠ 0) ∧ ∃ ak, ∃ cap, s.pieceCode x p = 0 ∧ arbOf p.tgt = some (ak, cap) ∧ s.arbMarked x.ep = false ∧ (ak < 24 →
        s.chanOn ak = true) ∧ (s.getArb ak).wait = [] ∧ (s.getArb ak).resv = 0 ∧ (s.getArb ak).held.length < cap ∧ (s.getArb ak).held.contains x.ep
        = false) ∧
    (∃ s : State, ∃ at' : XferAt, ∃ k : Fin 8, ∃ p : Piece,
      let key := xferKey at'
      let x := s.getXfer key
      x.live = true ∧ x.pieces[k.val]? = some p ∧ p.st = 0 ∧ p.fly = 0 ∧ x.handle = 0 ∧ p.tgt ≠ keepEnd ∧ p.rv = false ∧ s.circuit x.svc p.tgt
        (answerEnd x.ep p.ret p.rv) ≠ 0 ∧ s.pieceCode x p ≠ 0) ∧
    (∃ s : State, ∃ w : State, ∃ at' : XferAt, ∃ k : Fin 8, ∃ slot : Fin 1024, ∃ p : Piece,
      let key := xferKey at'
      let x := s.getXfer key
      (x.live = true ∧ x.pieces[k.val]? = some p ∧ p.st = 1 ∧ p.fly ≠ 2 ∧ p.moved < p.n ∧ p.sent = p.moved ∧ x.handle = 0 ∧ s.targetServes p = true
        ∧ x.write = true) ∧
      let bs := s.locPeek x.own (x.loc + (p.a - x.dev) + p.sent) 64
      s.carry x.svc x.ep p.tgt slot.val 0 (mkBeat 0 (key % 32) bs) key p.a = some (w, 0)) ∧
    (∃ s : State, ∃ w : State, ∃ at' : XferAt, ∃ k : Fin 8, ∃ slot : Fin 1024, ∃ p : Piece,
      let key := xferKey at'
      let x := s.getXfer key
      (x.live = true ∧ x.pieces[k.val]? = some p ∧ p.st = 1 ∧ p.fly ≠ 2 ∧ p.moved < p.n ∧ p.sent = p.moved ∧ x.handle = 0 ∧ s.targetServes p = true
        ∧ x.write = false) ∧
      let bs := s.readBytes (p.a + p.sent) 64
      s.carry x.svc p.tgt (answerEnd x.ep p.ret p.rv) slot.val 0 (mkBeat (if p.n ≤ p.sent + 64 then 2 else 0) (key % 32) bs) key p.a = some (w, 0)) ∧
    (∃ s : State, ∃ at' : XferAt, ∃ k : Fin 8, ∃ p : Piece,
      let key := xferKey at'
      let x := s.getXfer key
      x.live = true ∧ x.pieces[k.val]? = some p ∧ p.st = 1 ∧ p.n ≤ p.moved ∧ x.handle = 0 ∧ x.write = false) ∧
    (∃ s : State, ∃ w : State, ∃ at' : XferAt, ∃ k : Fin 8, ∃ slot : Fin 1024, ∃ p : Piece,
      let key := xferKey at'
      let x := s.getXfer key
      x.live = true ∧ x.pieces[k.val]? = some p ∧ p.st = 1 ∧ p.n ≤ p.moved ∧ x.handle = 0 ∧ x.write = true ∧ s.carry x.svc p.tgt (answerEnd x.ep
        p.ret p.rv) slot.val p.fly (mkBeat 2 (key % 32) (List.replicate 64 0)) key p.a = some (w, 0)) ∧
    (∃ s : State, ∃ w : State, ∃ at' : XferAt, ∃ k : Fin 8, ∃ slot : Fin 1024, ∃ p : Piece,
      let key := xferKey at'
      let x := s.getXfer key
      x.live = true ∧ x.pieces[k.val]? = some p ∧ p.st = 2 ∧ s.carry x.svc p.tgt (answerEnd x.ep p.ret p.rv) slot.val p.fly (mkBeat 3 (key % 32)
        (refusalBytes p.code)) key p.a = some (w, 0) ∧ (p.code = 0x0B10 ∨ p.code = 0x0B11)) ∧
    (∃ s : State, ∃ w : State, ∃ at' : XferAt, ∃ k : Fin 8, ∃ slot : Fin 1024, ∃ p : Piece,
      let key := xferKey at'
      let x := s.getXfer key
      x.live = true ∧ x.pieces[k.val]? = some p ∧ p.st = 2 ∧ s.carry x.svc p.tgt (answerEnd x.ep p.ret p.rv) slot.val p.fly (mkBeat 3 (key % 32)
        (refusalBytes p.code)) key p.a = some (w, 0) ∧ p.code ≠ 0x0B10 ∧ p.code ≠ 0x0B11) :=
  ⟨⟨sends (ways pt) true [], ⟨3, 0⟩, 0, by decide +kernel, (4 : Nat), by decide +kernel⟩,
   ⟨sends ((ways pt).setFld .TL_SSTAT [0, 0] TL_SSTAT_STATE 0) true [], ⟨3, 0⟩, by decide +kernel⟩,
   ⟨sends pt true [], ⟨3, 0⟩, by decide +kernel⟩,
   ⟨sends pt true [part 0 0], ⟨3, 0⟩, 0, part 0 0, by decide +kernel⟩,
   ⟨sends (ways pt) true [part 0 0], ⟨3, 0⟩, 0, part 0 0, by decide +kernel⟩,
   ⟨sends (ways (withRam pt)) true [{ a := 0, n := 64, tgt := 768 }], ⟨3, 0⟩, 0, { a := 0, n := 64, tgt := 768 }, by decide +kernel, (0 : Nat), (64
     : Nat), by decide +kernel⟩,
   ⟨sends (ways pt) true [{ a := 0, n := 64, tgt := 4 }], ⟨3, 0⟩, 0, { a := 0, n := 64, tgt := 4 }, by decide +kernel⟩,
   ⟨sends (ways pt) true [part 1 0], wayTo (sends (ways pt) true [part 1 0]) 3 4 0, ⟨3, 0⟩, 0, 0, part 1 0, by decide +kernel, by decide +kernel⟩,
   ⟨sends (ways pt) false [part 1 0], wayTo (sends (ways pt) false [part 1 0]) 4 3 2, ⟨3, 0⟩, 0, 0, part 1 0, by decide +kernel, by decide +kernel⟩,
   ⟨sends (ways pt) false [part 1 64], ⟨3, 0⟩, 0, part 1 64, by decide +kernel⟩,
   ⟨sends (ways pt) true [part 1 64], wayTo (sends (ways pt) true [part 1 64]) 4 3 2, ⟨3, 0⟩, 0, 0, part 1 64, by decide +kernel⟩,
   ⟨sends (ways pt) true [part 2 0 0x0B10], wayTo (sends (ways pt) true [part 2 0 0x0B10]) 4 3 3, ⟨3, 0⟩, 0, 0, part 2 0 0x0B10, by decide +kernel⟩,
   ⟨sends (ways pt) true [part 2 0 0x0812], wayTo (sends (ways pt) true [part 2 0 0x0812]) 4 3 3, ⟨3, 0⟩, 0, 0, part 2 0 0x0812, by decide +kernel⟩⟩

theorem test_met_ControlNetworkCommandsHaveTheirEffects :
    (∃ s : State, ∃ c : Fin 96, s.linkUp (5 * c.val + 4) = true ∧ s.linkUp (480 + 6 * halfOf c.val + yOf c.val) = true) ∧
    (∃ e : LinkErr, e.n.val = 0) ∧
    (∃ e : LinkErr, 1 ≤ e.n.val ∧ e.n.val ≤ 8) ∧
    (∃ e : LinkErr, e.n.val = 9) ∧
    (∃ s : State, ∃ c : Nat, ∃ errs : List LinkErr, ∃ w, s.cnPass c errs = some w) ∧
    (∃ s : State, ∃ c : Nat, ∃ errs : List LinkErr, s.cnPass c errs = none) ∧
    (∃ dest : Nat, (dest < 48 ∨ dest = 96 ∨ dest = 126)) ∧
    (∃ dest : Nat, (48 ≤ dest ∧ dest < 96 ∨ dest = 97 ∨ dest = 125)) ∧
    (∃ dest : Nat, dest = 127) ∧
    (∃ dest : Nat, 98 ≤ dest ∧ dest < 125) ∧
    (∃ ws : List Word, ws.length ≤ 14) ∧
    (∃ s : State, ∃ a : Nat, ∃ c : Nat, ∃ o : Nat, locate a = .bank c o ∧ s.domOn c = true ∧ s.bankAwake c (bankOf o) = true) ∧
    (∃ s : State, ∃ a : Nat, ∃ c : Nat, ∃ o : Nat, ∃ bad : List Nat, locate a = .bank c o ∧ s.domOn c = true ∧ s.bankAwake c (bankOf o) = true ∧
        bad.contains a = false) ∧
    (∃ s : State, ∃ a : Nat, ∃ c : Nat, ∃ o : Nat, locate a = .bank c o ∧ s.domOn c = true ∧ s.bankAwake c (bankOf o) = false) ∧
    (∃ s : State, ∃ a : Nat, ∃ c : Nat, ∃ o : Nat, locate a = .bank c o ∧ s.domOn c = false) ∧
    (∃ s : State, ∃ u : State, ∃ w : State, ∃ c : Fin 96, ∃ r : Nat, ∃ ws : List Word, ∃ t : List (Nat × Nat × List Word), ∃ errs : List LinkErr,
        s.cn.resps = (c.val, r, ws) :: t ∧ (s.modCn fun x => { x with resps := t }).cnPass c.val errs = some u ∧ halfOf c.val = nodeHalf r ∧ (if r <
        96 then u.cnPass r errs else some u) = some w) ∧
    (∃ s : State, ∃ u : State, ∃ c : Fin 96, ∃ r : Nat, ∃ ws : List Word, ∃ t : List (Nat × Nat × List Word), ∃ errs : List LinkErr, s.cn.resps =
        (c.val, r, ws) :: t ∧ (s.modCn fun x => { x with resps := t }).cnPass c.val errs = some u ∧ halfOf c.val ≠ nodeHalf r ∧ u.isSplit = false) ∧
    (∃ s : State, ∃ w : State, ∃ g : Fin 256, ∃ e' : EngineAt, ∃ errs : List LinkErr,
      let e := engineId e'
      let c := if e ≥ 0x1000 then attachOf (e - 0x1000) else e / 32
      s.engDone g.val e = true ∧ s.cnPass c errs = some w ∧ w.farCluster c = true) ∧
    (∃ s : State, ∃ w : State, ∃ g : Fin 256, ∃ e' : EngineAt, ∃ errs : List LinkErr,
      let e := engineId e'
      let c := if e ≥ 0x1000 then attachOf (e - 0x1000) else e / 32
      s.engDone g.val e = true ∧ s.cnPass c errs = some w ∧ w.farCluster c = false ∧ w.wgState g.val = wsStepping ∧ (w.getWg g.val).done.contains e
        = false ∧ (w.enginesOf g.val).contains e = true ∧ w.engDone g.val e = true) ∧
    (∃ s : State, ∃ w : State, ∃ c : Fin 96, ∃ op : Fin 5, ∃ tag : BitVec 8, ∃ ws : List Word, ∃ errs : List LinkErr, (1 ≤ ws.length ∧ ws.length ≤
        15 ∧ (mget s.cn.from_ tag.toNat).contains c.val = false ∧ (mget s.cn.mask tag.toNat = [] ∨ (mget s.cn.mask tag.toNat).contains c.val = true)
        ∧ s.cnPass c.val errs = some w) ∧
      let row := tag.toNat * 16 + (halfOf c.val * 6 + yOf c.val)
      let u := (w.modCn fun x => { x with red := mput x.red row (redWords op.val (mget x.red row) ws) }).modCn fun x =>
        { x with from_ := mput x.from_ tag.toNat (mget x.from_ tag.toNat ++ [c.val]) }
      let waits := ((mget u.cn.mask tag.toNat).filter fun k => halfOf k * 6 + yOf k == halfOf c.val * 6 + yOf c.val).all (mget u.cn.from_
        tag.toNat).contains
      waits = false) ∧
    (∃ s : State, ∃ w : State, ∃ c : Fin 96, ∃ op : Fin 5, ∃ tag : BitVec 8, ∃ ws : List Word, ∃ errs : List LinkErr, (1 ≤ ws.length ∧ ws.length ≤
        15 ∧ (mget s.cn.from_ tag.toNat).contains c.val = false ∧ (mget s.cn.mask tag.toNat = [] ∨ (mget s.cn.mask tag.toNat).contains c.val = true)
        ∧ s.cnPass c.val errs = some w) ∧
      let row := tag.toNat * 16 + (halfOf c.val * 6 + yOf c.val)
      let u := (w.modCn fun x => { x with red := mput x.red row (redWords op.val (mget x.red row) ws) }).modCn fun x =>
        { x with from_ := mput x.from_ tag.toNat (mget x.from_ tag.toNat ++ [c.val]) }
      let waits := ((mget u.cn.mask tag.toNat).filter fun k => halfOf k * 6 + yOf k == halfOf c.val * 6 + yOf c.val).all (mget u.cn.from_
        tag.toNat).contains
      waits = true) ∧
    (∃ as : List Word, as = []) ∧
    (∃ as : List Word, ∃ bs : List Word, as.length = bs.length) ∧
    (∃ s : State, ∃ tag : BitVec 8, ∃ errs : List LinkErr,
      let root := tag.toNat * 16 + 12
      let ws := mget s.cn.red root
      let who := (mget s.cn.from_ tag.toNat).filter fun c => decide (c < 96) && halfOf c == 0
      let t := (s.modCn fun x =>
        { x with res := mput x.res root ws, red := mput x.red root [], from_ := mput x.from_ tag.toNat ((mget x.from_ tag.toNat).filter fun c => !who.contains c && c != 97) }).each
        who fun s c => s.cnTo c errs fun s => s.modCn fun x => { x with got := mput x.got c ws }
      s.isSplit = false ∧ s.redReady tag.toNat 0 = true ∧ s.redFrom tag.toNat 1 = [] ∧ t.isSplit = false) ∧
    (∃ ws : List Word, ws.length = 14) ∧
    (∃ seg : Nat, ∃ ws : List Word, ∃ crc : Word,
      let bs := ws.flatMap fun w => leBytes 4 w.toNat
      BitVec.ofNat 32 (crc32c (leBytes 4 seg ++ bs)) ≠ crc) ∧
    (∃ seg : Nat, ∃ ws : List Word, ∃ crc : Word,
      let bs := ws.flatMap fun w => leBytes 4 w.toNat
      BitVec.ofNat 32 (crc32c (leBytes 4 seg ++ bs)) = crc) ∧
    (∃ s : State, ∃ w : State, ∃ c : Fin 96, ∃ ws : List Word, ∃ errs : List LinkErr, ws.length ≤ 15 ∧ s.cnPass c.val errs = some w) ∧
    (∃ s : State, ∃ w : State, ∃ n : Fin 64, ∃ errs : List LinkErr, ∃ f : TField, ∃ t : List TField, s.farCluster (s.tloadAt n.val) = false ∧
        s.cnPass (s.tloadAt n.val) errs = some w ∧ w.schState n.val = 1 ∧ w.loadBusy n.val = false ∧ (w.getSch n.val).todo = f :: t) :=
  ⟨⟨State.reset, 0, by decide +kernel⟩,
   ⟨⟨0, 0⟩, by decide +kernel⟩,
   ⟨⟨0, 8⟩, by decide +kernel⟩,
   ⟨⟨0, 9⟩, by decide +kernel⟩,
   ⟨State.reset, 0, [], (State.reset.cnPass 0 []).getD State.reset, by decide +kernel⟩,
   ⟨(State.reset.modCn fun x => { x with failed := List.range 492 }), 0, [], by decide +kernel⟩,
   ⟨0, by decide +kernel⟩,
   ⟨48, by decide +kernel⟩,
   ⟨127, by decide +kernel⟩,
   ⟨98, by decide +kernel⟩,
   ⟨[], by decide +kernel⟩,
   ⟨State.reset, bankAddr 0 0, 0, 0, by decide +kernel⟩,
   ⟨State.reset, bankAddr 0 0, 0, 0, [], by decide +kernel⟩,
   ⟨State.reset.setFld .BK_STATUS [0] BK_STATUS_AWAKE 0, bankAddr 0 0, 0, 0, by decide +kernel⟩,
   ⟨State.reset.setFld .PW_STAT [0] PW_STAT_STATE 1, bankAddr 0 0, 0, 0, by decide +kernel⟩,
   ⟨(State.reset.modCn fun x => { x with resps := [(0, 0, [])] }), (State.reset.cnPass 0 []).getD State.reset, (((State.reset.cnPass 0 []).getD
     State.reset).cnPass 0 []).getD State.reset, 0, 0, [], [], [], by decide +kernel⟩,
   ⟨(State.reset.modCn fun x => { x with resps := [(0, 48, [])] }), (State.reset.cnPass 0 []).getD State.reset, 0, 48, [], [], [],
     by decide +kernel⟩,
   ⟨(gs.modWg 0 fun w => { w with opened := [48 * 32] }).setFld .NC_GMAP_A [48, 0, 0] NC_GMAP_A_EN 1, (((gs.modWg 0 fun w =>
     { w with opened := [48 * 32] }).setFld .NC_GMAP_A [48, 0, 0] NC_GMAP_A_EN 1).cnPass 48 []).getD gs, 0, .engine 48 0, [], by decide +kernel⟩,
   ⟨gs.modWg 0 fun w => { w with opened := [0] }, ((gs.modWg 0 fun w => { w with opened := [0] }).cnPass 0 []).getD gs, 0, .engine 0 0, [],
     by decide +kernel⟩,
   ⟨(State.reset.modCn fun x => { x with mask := [(0, [0, 1])] }), ((State.reset.modCn fun x => { x with mask := [(0, [0, 1])] }).cnPass 0 []).getD
     State.reset, 0, 0, 0, [0], [], by decide +kernel, by decide +kernel⟩,
   ⟨(State.reset.modCn fun x => { x with mask := [(0, [0])] }), ((State.reset.modCn fun x => { x with mask := [(0, [0])] }).cnPass 0 []).getD
     State.reset, 0, 0, 0, [0], [], by decide +kernel, by decide +kernel⟩,
   ⟨[], by decide +kernel⟩,
   ⟨[], [], by decide +kernel⟩,
   ⟨State.reset.modCn fun x => { x with mask := [(0, [0])], from_ := [(0, [0])] }, 0, [], by decide +kernel⟩,
   ⟨List.replicate 14 0, by decide +kernel⟩,
   ⟨0, [], 1, by decide +kernel⟩,
   ⟨0, List.replicate 14 0, BitVec.ofNat 32 (crc32c (leBytes 4 0 ++ List.replicate 56 0)), by decide +kernel⟩,
   ⟨State.reset, (State.reset.cnPass 0 []).getD State.reset, 0, [], [], by decide +kernel⟩,
   ⟨((State.reset.setFld .TL_SSTAT [0, 0] TL_SSTAT_STATE 1).modSch 0 fun x => { x with todo := [.map 0 0 0] }), ((((State.reset.setFld .TL_SSTAT [0,
     0] TL_SSTAT_STATE 1).modSch 0 fun x => { x with todo := [.map 0 0 0] }).tloadAt 0 |> fun c => ((State.reset.setFld .TL_SSTAT [0, 0]
     TL_SSTAT_STATE 1).modSch 0 fun x => { x with todo := [.map 0 0 0] }).cnPass c []).getD State.reset), 0, [], .map 0 0 0, [], by decide +kernel⟩⟩

theorem test_met_MessageCommandsHaveTheirEffects :
    (∃ s : State, ∃ req : Requester, ∃ c : Fin 96, ∃ n : Fin 40, n.val < 32 ∧ s.Reached req .MQ_CH_CFG [c.val, n.val] ∧ s.checking (.chan c.val
        n.val) = false ∧ s.bit .MQ_CH_CFG [c.val, n.val] MQ_CH_CFG_EN = false) ∧
    (∃ s : State, ∃ req : Requester, ∃ c : Fin 96, ∃ n : Fin 40, n.val < 32 ∧ s.Reached req .MQ_CH_CFG [c.val, n.val] ∧ s.checking (.chan c.val
        n.val) = false ∧ s.bit .MQ_CH_CFG [c.val, n.val] MQ_CH_CFG_EN = true) ∧
    (∃ s : State, ∃ req : Requester, ∃ c : Fin 96, ∃ n : Fin 40, 32 ≤ n.val ∧ s.Reached req .MQ_Q_CFG [c.val, n.val - 32] ∧ s.checking (.queue c.val
        (n.val - 32)) = false ∧ s.bit .MQ_Q_CFG [c.val, n.val - 32] MQ_Q_CFG_EN = false) ∧
    (∃ s : State, ∃ req : Requester, ∃ c : Fin 96, ∃ n : Fin 40, 32 ≤ n.val ∧ s.Reached req .MQ_Q_CFG [c.val, n.val - 32] ∧ s.checking (.queue c.val
        (n.val - 32)) = false ∧ s.bit .MQ_Q_CFG [c.val, n.val - 32] MQ_Q_CFG_EN = true) ∧
    (∃ s : State, ∃ req : Requester, ∃ c : Fin 96, ∃ n : Fin 64, s.Reached req .MQ_SH_CFG [c.val, n.val] ∧ s.checking (.send c.val n.val) = false ∧
        s.bit .MQ_SH_CFG [c.val, n.val] MQ_SH_CFG_EN = false) ∧
    (∃ s : State, ∃ at' : XferAt, ∃ p : Piece,
      let key := xferKey at'
      let x := s.getXfer key
      x.pieces = [p] ∧ x.handle ≠ 0 ∧ x.live = true ∧ p.st = 0 ∧ p.fly = 0 ∧ x.target = 0 ∧ s.circuit x.svc p.tgt x.ep = 0) ∧
    (∃ s : State, ∃ at' : XferAt, ∃ p : Piece,
      let key := xferKey at'
      let x := s.getXfer key
      x.pieces = [p] ∧ x.handle ≠ 0 ∧ x.live = true ∧ p.st = 0 ∧ p.fly = 0 ∧ x.target = 0 ∧ s.circuit x.svc p.tgt x.ep ≠ 0 ∧ s.tkAt x.dev = none) ∧
    (∃ s : State, ∃ at' : XferAt, ∃ p : Piece,
      let key := xferKey at'
      let x := s.getXfer key
      (x.pieces = [p] ∧ x.handle ≠ 0 ∧ x.live = true ∧ p.st = 0 ∧ p.fly = 0 ∧ x.target = 0) ∧ ∃ t, s.circuit x.svc p.tgt x.ep ≠ 0 ∧ s.tkAt x.dev =
        some t ∧ tkQueue t = false ∧ s.tkPart t = some x.part ∧ s.rcvDown t = false ∧ s.isSplit = false ∧ x.len ≤ s.tkSize t) ∧
    (∃ s : State, ∃ at' : XferAt, ∃ p : Piece,
      let key := xferKey at'
      let x := s.getXfer key
      (x.pieces = [p] ∧ x.handle ≠ 0 ∧ x.live = true ∧ p.st = 0 ∧ p.fly = 0 ∧ x.target = 0) ∧ ∃ t, s.circuit x.svc p.tgt x.ep ≠ 0 ∧ s.tkAt x.dev =
        some t ∧ tkQueue t = false ∧ s.tkPart t = some x.part ∧ s.rcvDown t = false ∧ s.isSplit = false ∧ s.tkSize t < x.len) ∧
    (∃ s : State, ∃ c : Fin 96, ∃ n : Fin 32, ∃ r : Req,
      let t := c.val * 64 + n.val
      let x := s.getChan t
      (s.tkOn t = true ∧ (x.reqs.find? fun r => r.st == 0) = some r) ∧
      let pos := x.wrp % s.tkSize t
      let tail := s.tkSize t - pos
      let used := (x.wrp + 2 ^ 32 - x.rd) % 2 ^ 32
      r.foot ≤ tail ∧ used + r.foot ≤ s.tkSize t) ∧
    (∃ s : State, ∃ c : Fin 96, ∃ n : Fin 32, ∃ r : Req,
      let t := c.val * 64 + n.val
      let x := s.getChan t
      (s.tkOn t = true ∧ (x.reqs.find? fun r => r.st == 0) = some r) ∧
      let pos := x.wrp % s.tkSize t
      let tail := s.tkSize t - pos
      let used := (x.wrp + 2 ^ 32 - x.rd) % 2 ^ 32
      tail < r.foot ∧ used + tail + r.foot ≤ s.tkSize t) ∧
    (∃ s : State, ∃ c : Fin 96, ∃ n : Fin 32, ∃ r : Req,
      let t := c.val * 64 + n.val
      let x := s.getChan t
      (s.tkOn t = true ∧ (x.reqs.find? fun r => r.st == 0) = some r) ∧
      let used := (x.wrp + 2 ^ 32 - x.rd) % 2 ^ 32
      s.tkSize t < used + r.foot) ∧
    (∃ s : State, ∃ at' : XferAt, ∃ t : Nat, ∃ r : Req,
      let key := xferKey at'
      let x := s.getXfer key
      x.target = t + 1 ∧ x.live = true ∧ ((s.getChan t).reqs.find? fun r => r.key == key) = some r ∧ r.foot ≤ r.data.length ∧ r.st = 2 ∧
        s.compReached t r.at_ = false) ∧
    (∃ s : State, ∃ at' : XferAt, ∃ t : Nat, ∃ r : Req,
      let key := xferKey at'
      let x := s.getXfer key
      x.target = t + 1 ∧ x.live = true ∧ ((s.getChan t).reqs.find? fun r => r.key == key) = some r ∧ r.foot ≤ r.data.length ∧ r.st = 2 ∧
        s.compReached t r.at_ = true ∧ tkQueue t = false) ∧
    (∃ s : State, ∃ at' : XferAt, ∃ t : Nat, ∃ r : Req,
      let key := xferKey at'
      let x := s.getXfer key
      x.target = t + 1 ∧ x.live = true ∧ ((s.getChan t).reqs.find? fun r => r.key == key) = some r ∧ r.foot ≤ r.data.length ∧ r.st = 1 ∧ tkQueue t =
        false) ∧
    (∃ s : State, ∃ at' : XferAt, ∃ t : Nat, ∃ r : Req,
      let key := xferKey at'
      let x := s.getXfer key
      x.target = t + 1 ∧ x.live = true ∧ ((s.getChan t).reqs.find? fun r => r.key == key) = some r ∧ r.foot ≤ r.data.length ∧ r.st = 3 ∧ tkQueue t =
        true) ∧
    (∃ s : State, ∃ c : Fin 96, ∃ n : Fin 32, ∃ v : Word,
      let t := c.val * 64 + n.val
      let d := (v.toNat + 2 ^ 32 - (s.getChan t).rd) % 2 ^ 32
      s.tkOn t = true ∧ s.domOn c.val = true ∧ s.unitAwake t (s.tkLine t + 64) = true ∧ s.unitAwake t (s.tkLine t + 68) = true ∧ d ≠ 0 ∧ v.toNat %
        64 = 0 ∧ d ≤ ((s.getChan t).wr + 2 ^ 32 - (s.getChan t).rd) % 2 ^ 32) ∧
    (∃ s : State, ∃ c : Fin 96, ∃ n : Fin 32, ∃ v : Word,
      let t := c.val * 64 + n.val
      let d := (v.toNat + 2 ^ 32 - (s.getChan t).rd) % 2 ^ 32
      s.tkOn t = true ∧ s.domOn c.val = true ∧ s.unitAwake t (s.tkLine t + 64) = true ∧ s.unitAwake t (s.tkLine t + 68) = true ∧ d ≠ 0 ∧ (v.toNat %
        64 ≠ 0 ∨ ((s.getChan t).wr + 2 ^ 32 - (s.getChan t).rd) % 2 ^ 32 < d)) ∧
    (∃ s : State, ∃ c : Fin 96, ∃ n : Fin 32, ∃ v : Word,
      let t := c.val * 64 + n.val
      let d := (v.toNat + 2 ^ 32 - (s.getChan t).rd) % 2 ^ 32
      s.tkOn t = true ∧ s.domOn c.val = true ∧ s.unitAwake t (s.tkLine t + 64) = true ∧ s.unitAwake t (s.tkLine t + 68) = true ∧ d = 0) ∧
    (∃ s : State, ∃ c : Fin 96, ∃ n : Fin 32, ∃ v : Word,
      let t := c.val * 64 + n.val
      let e := (v.toNat + 2 ^ 32 - (s.getChan t).cdone) % 2 ^ 32
      s.tkOn t = true ∧ s.domOn c.val = true ∧ s.unitAwake t (s.tkLine t + 64) = true ∧ s.unitAwake t (s.tkLine t + 68) = true ∧ e ≠ 0 ∧ e ≤
        (s.getChan t).comp.length) ∧
    (∃ s : State, ∃ c : Fin 96, ∃ n : Fin 32, ∃ v : Word,
      let t := c.val * 64 + n.val
      let e := (v.toNat + 2 ^ 32 - (s.getChan t).cdone) % 2 ^ 32
      s.tkOn t = true ∧ s.domOn c.val = true ∧ s.unitAwake t (s.tkLine t + 64) = true ∧ s.unitAwake t (s.tkLine t + 68) = true ∧ (s.getChan
        t).comp.length < e) ∧
    (∃ s : State, ∃ at' : XferAt, ∃ t : Nat, ∃ r : Req,
      let key := xferKey at'
      let x := s.getXfer key
      x.target = t + 1 ∧ x.live = true ∧ ((s.getChan t).reqs.find? fun r => r.key == key) = some r ∧ r.st = 0 ∧ r.edge = false) ∧
    (∃ s : State, ∃ h : Fin 2, s.isSplit = false ∧
      let now := s.edges.map fun e => { e with serial := (s.getChan e.target).serial }
      (∀ e, e ∈ now → (mget s.oldEdges h.val).contains e = false)) :=
  ⟨⟨State.reset, .steward 0, 0, 0, by unfold State.Reached; decide +kernel⟩,
   ⟨State.reset.setFld .MQ_CH_CFG [0, 0] MQ_CH_CFG_EN 1, .steward 0, 0, 0, by unfold State.Reached; decide +kernel⟩,
   ⟨State.reset, .steward 0, 0, 32, by unfold State.Reached; decide +kernel⟩,
   ⟨State.reset.setFld .MQ_Q_CFG [0, 0] MQ_Q_CFG_EN 1, .steward 0, 0, 32, by unfold State.Reached; decide +kernel⟩,
   ⟨State.reset, .steward 0, 0, 0, by unfold State.Reached; decide +kernel⟩,
   ⟨(pt.modXfer 96 fun _ => { own := .vx 0 0 0, ep := 3, write := true, handle := 1, dev := bankAddr 0 0, len := 64, pieces := [{ tgt := 4 }] }),
     ⟨3, 0⟩, { tgt := 4 }, by decide +kernel⟩,
   ⟨((ways pt).modXfer 96 fun _ =>
     { own := .vx 0 0 0, ep := 3, write := true, handle := 1, dev := bankAddr 0 0, len := 64, pieces := [{ tgt := 4 }] }), ⟨3, 0⟩, { tgt := 4 },
     by decide +kernel⟩,
   ⟨((ways ((pt.setFld .MQ_CH_CFG [0, 0] MQ_CH_CFG_EN 1).setVal .MQ_CH_CCB [0, 0] 0x2000000)).modXfer 96 fun _ =>
     { own := .vx 0 0 0, ep := 3, write := true, handle := 1, dev := bankAddr 0 0, len := 64, pieces := [{ tgt := 4 }] }), ⟨3, 0⟩, { tgt := 4 },
     by decide +kernel, (0 : Nat), by decide +kernel⟩,
   ⟨((ways (((pt.setFld .MQ_CH_CFG [0, 0] MQ_CH_CFG_EN 1).setVal .MQ_CH_CCB [0, 0] 0x2000000).setFld .MQ_CH_CFG [0, 0] MQ_CH_CFG_LOG2SIZE
     5)).modXfer 96 fun _ => { own := .vx 0 0 0, ep := 3, write := true, handle := 1, dev := bankAddr 0 0, len := 64, pieces := [{ tgt := 4 }] }),
     ⟨3, 0⟩, { tgt := 4 }, by decide +kernel, (0 : Nat), by decide +kernel⟩,
   ⟨((pt.setFld .MQ_CH_CFG [0, 0] MQ_CH_CFG_EN 1).modChan 0 fun x => { x with reqs := [{ foot := 64, key := 96 }] }), 0, 0,
     { foot := 64, key := 96 }, by decide +kernel, by decide +kernel⟩,
   ⟨((pt.setFld .MQ_CH_CFG [0, 0] MQ_CH_CFG_EN 1).modChan 0 fun x =>
     { x with wrp := 256 - 32, rd := 256 - 32, reqs := [{ foot := 64, key := 96 }] }), 0, 0, { foot := 64, key := 96 }, by decide +kernel,
     by decide +kernel⟩,
   ⟨((pt.setFld .MQ_CH_CFG [0, 0] MQ_CH_CFG_EN 1).modChan 0 fun x => { x with wrp := 256, reqs := [{ foot := 64, key := 96 }] }), 0, 0,
     { foot := 64, key := 96 }, by decide +kernel, by decide +kernel⟩,
   ⟨((withRam pt).modXfer 96 fun _ =>
     { own := .vx 0 0 0, ep := 3, write := true, handle := 1, dev := bankAddr 0 0, len := 64, pieces := [{}], target := 1 }).modChan 0 fun x =>
     { x with reqs := [{ foot := 64, key := 96, st := 2, data := List.replicate 64 0 }] }, ⟨3, 0⟩, 0,
     { foot := 64, key := 96, st := 2, data := List.replicate 64 0 }, by decide +kernel⟩,
   ⟨((svc pt).modXfer 96 fun _ =>
     { own := .vx 0 0 0, ep := 3, write := true, handle := 1, dev := bankAddr 0 0, len := 64, pieces := [{}], target := 1 }).modChan 0 fun x =>
     { x with reqs := [{ foot := 64, key := 96, st := 2, data := List.replicate 64 0 }] }, ⟨3, 0⟩, 0,
     { foot := 64, key := 96, st := 2, data := List.replicate 64 0 }, by decide +kernel⟩,
   ⟨(pt.modXfer 96 fun _ =>
     { own := .vx 0 0 0, ep := 3, write := true, handle := 1, dev := bankAddr 0 0, len := 64, pieces := [{}], target := 1 }).modChan 0 fun x =>
     { x with reqs := [{ foot := 64, key := 96, st := 1, data := List.replicate 64 0 }] }, ⟨3, 0⟩, 0,
     { foot := 64, key := 96, st := 1, data := List.replicate 64 0 }, by decide +kernel⟩,
   ⟨(pt.modXfer 96 fun _ =>
     { own := .vx 0 0 0, ep := 3, write := true, handle := 1, dev := bankAddr 0 0, len := 64, pieces := [{}], target := 33 }).modChan 32 fun x =>
     { x with reqs := [{ foot := 64, key := 96, st := 3, data := List.replicate 64 0 }] }, ⟨3, 0⟩, 32,
     { foot := 64, key := 96, st := 3, data := List.replicate 64 0 }, by decide +kernel⟩,
   ⟨((pt.setFld .MQ_CH_CFG [0, 0] MQ_CH_CFG_EN 1).modChan 0 fun x => { x with wr := 64 }), 0, 0, 64, by decide +kernel⟩,
   ⟨(pt.setFld .MQ_CH_CFG [0, 0] MQ_CH_CFG_EN 1), 0, 0, 1, by decide +kernel⟩,
   ⟨(pt.setFld .MQ_CH_CFG [0, 0] MQ_CH_CFG_EN 1), 0, 0, 0, by decide +kernel⟩,
   ⟨((pt.setFld .MQ_CH_CFG [0, 0] MQ_CH_CFG_EN 1).modChan 0 fun x => { x with comp := [(0, 64, 0)] }), 0, 0, 1, by decide +kernel⟩,
   ⟨(pt.setFld .MQ_CH_CFG [0, 0] MQ_CH_CFG_EN 1), 0, 0, 1, by decide +kernel⟩,
   ⟨(pt.modXfer 96 fun _ =>
     { own := .vx 0 0 0, ep := 3, write := true, handle := 1, dev := bankAddr 0 0, len := 64, pieces := [{}], target := 1 }).modChan 0 fun x =>
     { x with reqs := [{ foot := 64, key := 96 }] }, ⟨3, 0⟩, 0, { foot := 64, key := 96 }, by decide +kernel⟩,
   ⟨State.reset, 0, by decide +kernel, by decide +kernel⟩⟩

theorem test_met_CombiningQueueCommandsHaveTheirEffects :
    (∃ s : State, ∃ at' : XferAt, ∃ t : Nat, ∃ r : Req,
      let key := xferKey at'
      let x := s.getXfer key
      (x.target = t + 1 ∧ x.live = true ∧ tkQueue t = true ∧ ((s.getChan t).reqs.find? fun r => r.key == key) = some r ∧ r.foot ≤ r.data.length ∧
        r.st = 1) ∧
      let round := leNat ((r.data.drop 4).take 4)
      s.roundFate t round = 0) ∧
    (∃ s : State, ∃ t : Nat, ∃ x : Nat,
      let q := combineQ (s.fld .MQ_Q_CFG [tkCluster t, tkIndex t] MQ_Q_CFG_FRAC) (decodeIn (s.qIn t) x)
      q.2.1 = false ∧ q.2.2 = false) ∧
    (∃ s : State, ∃ t : Nat, ∃ x : Nat,
      let q := combineQ (s.fld .MQ_Q_CFG [tkCluster t, tkIndex t] MQ_Q_CFG_FRAC) (decodeIn (s.qIn t) x)
      q.2.1 = true ∧ q.2.2 = false) ∧
    (∃ s : State, ∃ t : Nat, ∃ x : Nat,
      let q := combineQ (s.fld .MQ_Q_CFG [tkCluster t, tkIndex t] MQ_Q_CFG_FRAC) (decodeIn (s.qIn t) x)
      q.2.1 = false ∧ q.2.2 = true) ∧
    (∃ s : State, ∃ c : Fin 96, ∃ n : Fin 8,
      let t := c.val * 64 + 32 + n.val
      s.domOn c.val = true ∧ s.unitAwake t (s.tkLine t + 64) = false) ∧
    (∃ s : State, ∃ c : Fin 96, ∃ n : Fin 8, ∃ v : Word,
      let t := c.val * 64 + 32 + n.val
      let d := (v.toNat + 2 ^ 32 - (s.getChan t).rd) % 2 ^ 32
      s.domOn c.val = true ∧ s.tkOn t = true ∧ s.unitAwake t (s.tkLine t + 64) = true ∧ d ≠ 0 ∧ d ≤ (s.getChan t).unreleased) ∧
    (∃ s : State, ∃ c : Fin 96, ∃ n : Fin 8, ∃ v : Word,
      let t := c.val * 64 + 32 + n.val
      let d := (v.toNat + 2 ^ 32 - (s.getChan t).rd) % 2 ^ 32
      s.domOn c.val = true ∧ s.tkOn t = true ∧ s.unitAwake t (s.tkLine t + 64) = true ∧ (s.getChan t).unreleased < d) ∧
    (∃ s : State, ∃ c : Fin 96, ∃ n : Fin 8, ∃ v : Word,
      let t := c.val * 64 + 32 + n.val
      let d := (v.toNat + 2 ^ 32 - (s.getChan t).rd) % 2 ^ 32
      s.domOn c.val = true ∧ s.tkOn t = true ∧ s.unitAwake t (s.tkLine t + 64) = true ∧ d = 0) ∧
    (∃ s : State, ∃ c : Fin 96, ∃ n : Fin 8, ∃ i : Nat, ∃ foot : Nat, ∃ sender : Nat,
      let t := c.val * 64 + 32 + n.val
      (s.getChan t).comp = [(i, foot, sender)] ∧ s.roundFate t (s.peekLE (s.slotAt t i + 68) 4) ≠ 1 ∧ s.compReached t i = false) ∧
    (∃ s : State, ∃ c : Fin 96, ∃ n : Fin 8, ∃ i : Nat, ∃ foot : Nat, ∃ sender : Nat, ∃ meets : LineFate,
      let t := c.val * 64 + 32 + n.val
      (s.getChan t).comp = [(i, foot, sender)] ∧ s.roundFate t (s.peekLE (s.slotAt t i + 68) 4) ≠ 1 ∧ s.compReached t i = true ∧ meets.badIn
        (s.slotAt t i) (64 + foot) = true) ∧
    (∃ s : State, ∃ c : Fin 96, ∃ n : Fin 8, ∃ i : Nat, ∃ foot : Nat, ∃ sender : Nat, ∃ meets : LineFate,
      let t := c.val * 64 + 32 + n.val
      (s.getChan t).comp = [(i, foot, sender)] ∧ s.roundFate t (s.peekLE (s.slotAt t i + 68) 4) ≠ 1 ∧ s.compReached t i = true ∧ meets.badIn
        (s.slotAt t i) (64 + foot) = false) :=
  ⟨⟨((pt.setFld .MQ_Q_EXPECT [0, 0] MQ_Q_EXPECT_EXPECT 1).modXfer 96 fun _ =>
      { own := .vx 0 0 0, ep := 3, write := true, handle := 1, dev := bankAddr 0 0, len := 64, pieces := [{}], target := 33 }).modChan 32 fun x =>
      { x with reqs := [{ foot := 64, key := 96, st := 1, data := List.replicate 64 0 }] }, ⟨3, 0⟩, 32,
      { foot := 64, key := 96, st := 1, data := List.replicate 64 0 }, by decide +kernel, by decide +kernel⟩,
   ⟨State.reset, 0, 0, by decide +kernel⟩,
   ⟨pt, 0, 0x7FC00000, by decide +kernel⟩,
   ⟨pt, 0, 0x7F800000, by decide +kernel⟩,
   ⟨(State.reset.setVal .MQ_Q_CCB [0, 0] 0x2000000).setFld .BK_STATUS [0] BK_STATUS_AWAKE 0, 0, 0, by decide +kernel⟩,
   ⟨((pt.setFld .MQ_Q_CFG [0, 0] MQ_Q_CFG_EN 1).modChan 32 fun x => { x with closed := 1 }), 0, 0, 1, by decide +kernel⟩,
   ⟨(pt.setFld .MQ_Q_CFG [0, 0] MQ_Q_CFG_EN 1), 0, 0, 1, by decide +kernel⟩,
   ⟨(pt.setFld .MQ_Q_CFG [0, 0] MQ_Q_CFG_EN 1), 0, 0, 0, by decide +kernel⟩,
   ⟨(((withRam pt).setFld .MQ_Q_CFG [0, 0] MQ_Q_CFG_EN 1).modChan 32 fun x => { x with comp := [(0, 64, 0)] }), 0, 0, 0, 64, 0, by decide +kernel⟩,
   ⟨(((svc pt).setFld .MQ_Q_CFG [0, 0] MQ_Q_CFG_EN 1).modChan 32 fun x => { x with comp := [(0, 64, 0)] }), 0, 0, 0, 64, 0, { bad := [0] },
     by decide +kernel⟩,
   ⟨(((svc pt).setFld .MQ_Q_CFG [0, 0] MQ_Q_CFG_EN 1).modChan 32 fun x => { x with comp := [(0, 64, 0)] }), 0, 0, 0, 64, 0, {}, by decide +kernel⟩⟩

theorem test_met_MemoryCommandsHaveTheirEffects :
    (∃ s : State, ∃ req : Requester, ∃ c : Fin 96, ∃ b : Fin 8, s.Reached req .BK_OWN [c.val, b.val] ∧ s.inHandover c.val b.val = false) ∧
    (∃ s : State, ∃ req : Requester, ∃ c : Fin 96, ∃ b : Fin 8, s.Reached req .BK_OWN [c.val, b.val] ∧ s.inHandover c.val b.val = true) ∧
    (∃ s : State, ∃ c : Fin 96, ∃ b : Fin 8, s.inHandover c.val b.val = true ∧ s.bankBusy c.val b.val = false) ∧
    (∃ s : State, ∃ req : Requester, ∃ c : Fin 96, ∃ b : Fin 8, ∃ v : Word, s.Reached req .BK_RET [c.val] ∧ (∀ k : Nat, k < 8 → k ≠ b.val →
        v.toNat.testBit k = (s.val .BK_RET [c.val]).testBit k) ∧ v.toNat.testBit b.val = true ∧ (s.val .BK_RET [c.val]).testBit b.val = false ∧
        s.bankHeld c.val b.val = false) ∧
    (∃ s : State, ∃ req : Requester, ∃ c : Fin 96, ∃ b : Fin 8, ∃ v : Word, s.Reached req .BK_RET [c.val] ∧ (∀ k : Nat, k < 8 → k ≠ b.val →
        v.toNat.testBit k = (s.val .BK_RET [c.val]).testBit k) ∧ v.toNat.testBit b.val = true ∧ (s.val .BK_RET [c.val]).testBit b.val = false ∧
        s.bankHeld c.val b.val = true) ∧
    (∃ s : State, ∃ req : Requester, ∃ c : Fin 96, ∃ b : Fin 8, ∃ v : Word, s.Reached req .BK_RET [c.val] ∧ (∀ k : Nat, k < 8 → k ≠ b.val →
        v.toNat.testBit k = (s.val .BK_RET [c.val]).testBit k) ∧ v.toNat.testBit b.val = false ∧ (s.val .BK_RET [c.val]).testBit b.val = true) ∧
    (∃ s : State, ∃ c : Fin 96, ∃ b : Fin 8, (s.getBk c.val b.val).waking = true) ∧
    (∃ s : State, ∃ lost : Nat, ∃ c : Fin 96,
      let u := s.bump .DM_KSLOSS [] lost
      (u.getArb (800 + c.val)).held ≠ []) ∧
    (∃ s : State, ∃ lost : Nat, ∃ c : Fin 96,
      let u := s.bump .DM_KSLOSS [] lost
      (u.getArb (800 + c.val)).held = [] ∧ (u.getArb (800 + c.val)).wait = [] ∧ u.arbTurn (800 + c.val) = false) ∧
    (∃ s : State, ∃ c : Fin 96, ∃ b : Fin 8, (s.getArb (bankArb c.val b.val)).held ≠ []) ∧
    (∃ s : State, ∃ c : Fin 96, ∃ b : Fin 8, ∃ e : Nat, (s.getArb (bankArb c.val b.val)).held = [] ∧ (s.getArb (bankArb c.val b.val)).wait = [(e,
        true)] ∧ (s.getArb (bankArb c.val b.val)).resv = 0) ∧
    (∃ s : State, ∃ c : Fin 96, ∃ b : Fin 8, ∃ e : Nat, (s.getArb (bankArb c.val b.val)).held = [] ∧ (s.getArb (bankArb c.val b.val)).wait = [(e,
        false)] ∧ (s.getArb (bankArb c.val b.val)).resv = 0 ∧ s.arbTurn (bankArb c.val b.val) = true) ∧
    (∃ s : State, ∃ n : Fin 24, ∃ e : Nat, ∃ key : Nat, ∃ i : Nat, (s.getArb n.val).held.length < 64 ∧ (s.getArb n.val).wait = [(e, true)] ∧
        (s.getArb n.val).resv = 0 ∧ (s.getArb n.val).held.contains e = false ∧ s.heldPiece e n.val = some (key, i)) ∧
    (∃ s : State, ∃ w : State, ∃ at' : XferAt, ∃ k : Fin 8, ∃ slot : Fin 1024, ∃ p : Piece, ∃ fly : Nat,
      let key := xferKey at'
      let x := s.getXfer key
      x.live = true ∧ x.pieces[k.val]? = some p ∧ p.st = 3 ∧ s.dataOwed x.ep p.tgt = false ∧ s.carry x.svc x.ep p.tgt slot.val 0 (s.requestBeat key
        x p) key p.a = some (w, fly)) ∧
    (∃ s : State, ∃ e : Fin 800, ∃ n : Fin 24, (s.getArb n.val).held.contains e.val = true ∧
      let u := (s.arbFree n.val e.val).bump .DM_REVOKE [n.val]
      u.holdMode n.val e.val = false) ∧
    (∃ s : State, ∃ e : Fin 800, ∃ n : Fin 24, (s.getArb n.val).held.contains e.val = true ∧
      let u := (s.arbFree n.val e.val).bump .DM_REVOKE [n.val]
      u.holdMode n.val e.val = true) :=
  ⟨⟨State.reset, .steward 0, 0, 0, by unfold State.Reached; decide +kernel⟩,
   ⟨(State.reset.setFld .BK_STATUS [0] BK_STATUS_HANDOVER 1), .steward 0, 0, 0, by unfold State.Reached; decide +kernel⟩,
   ⟨(State.reset.setFld .BK_STATUS [0] BK_STATUS_HANDOVER 1), 0, 0, by decide +kernel⟩,
   ⟨State.reset, .steward 0, 0, 0, 1, by unfold State.Reached; decide +kernel⟩,
   ⟨State.reset.setFld .PC_TRRING [0] PC_TRRING_EN 1, .steward 0, 0, 0, 1, by unfold State.Reached; decide +kernel⟩,
   ⟨State.reset.setVal .BK_RET [0] 1, .steward 0, 0, 0, 0, by unfold State.Reached; decide +kernel⟩,
   ⟨State.reset.modBk 0 0 fun x => { x with waking := true }, 0, 0, by decide +kernel⟩,
   ⟨State.reset.modArb 800 fun x => { x with held := [0] }, 0, 0, by decide +kernel⟩,
   ⟨State.reset, 0, 0, by decide +kernel⟩,
   ⟨State.reset.modArb 32 fun x => { x with held := [0] }, 0, 0, by decide +kernel⟩,
   ⟨State.reset.modArb 32 fun x => { x with wait := [(3, true)] }, 0, 0, 3, by decide +kernel⟩,
   ⟨State.reset.modArb 32 fun x => { x with grants := 15, wait := [(3, false)] }, 0, 0, 3, by decide +kernel⟩,
   ⟨(sends pt true [{ tgt := 768, st := 4 }]).modArb 0 fun x => { x with wait := [(3, true)] }, 0, 3, 96, 0, by decide +kernel⟩,
   ⟨sends (ways pt) true [part 3 0], wayTo (sends (ways pt) true [part 3 0]) 3 4 1, ⟨3, 0⟩, 0, 0, part 3 0, 0, by decide +kernel⟩,
   ⟨State.reset.modArb 0 fun x => { x with held := [0] }, 0, 0, by decide +kernel, by decide +kernel⟩,
   ⟨(State.reset.setVal .DM_HOLD [0] 1).modArb 0 fun x => { x with held := [0] }, 0, 0, by decide +kernel, by decide +kernel⟩⟩

theorem test_met_HostLinkCommandsHaveTheirEffects :
    (∃ s : State, ∃ n : Fin 8, ∃ off : BitVec 34, ∃ err : Fin 4, (s.portOn n.val = true ∧ s.link n.val = lnkService) ∧
      let o := off.toNat / 64 * 64
      err = 0 ∧ 0x10000 ≤ o ∧ o < 0x510000 ∧ (s.partOfPort n.val).isSome = true) ∧
    (∃ s : State, ∃ n : Fin 8, ∃ off : BitVec 34, ∃ err : Fin 4, (s.portOn n.val = true ∧ s.link n.val = lnkService) ∧
      let o := off.toNat / 64 * 64
      err = 0 ∧ 0x1000000 ≤ o) ∧
    (∃ s : State, ∃ n : Fin 8, ∃ err : Fin 4, s.portOn n.val = true ∧ s.link n.val = lnkService ∧ err = 2 ∧ s.bit .GP_PCFG [n.val] GP_PCFG_WCHK =
        true) ∧
    (∃ s : State, ∃ n : Fin 8, (s.portOn n.val = true ∧ s.link n.val = lnkService) ∧
      let g := s.getGp n.val
      let dist (v now : Nat) : Nat := (v + 2 ^ 32 - now) % 2 ^ 32
      ∃ t : Fin 16, ∃ v : Word, dist v.toNat (mget g.crd t.val) ≠ 0 ∧ dist v.toNat (mget g.crd t.val) < 2 ^ 31 ∧ dist v.toNat (mget g.crd t.val) ≤
        dist (mget g.done t.val) (mget g.crd t.val) ∧ v.toNat ≠ mget g.crd t.val) ∧
    (∃ s : State, ∃ n : Fin 8, (s.portOn n.val = true ∧ s.link n.val = lnkService) ∧
      let g := s.getGp n.val
      let dist (v now : Nat) : Nat := (v + 2 ^ 32 - now) % 2 ^ 32
      ∃ v : Word, v.toNat ≠ g.evWr ∧ dist v.toNat g.evWr ≠ 0 ∧ dist v.toNat g.evWr < 2 ^ 31 ∧ v.toNat % 16 = 0 ∧ dist v.toNat g.evRd ≤ 2 ^ 22) ∧
    (∃ s : State, ∃ n : Fin 8, (s.portOn n.val = true ∧ s.link n.val = lnkService) ∧
      let g := s.getGp n.val
      ∃ v : Word, v.toNat ≠ g.evWr ∧ v.toNat % 16 ≠ 0) ∧
    (∃ s : State, ∃ n : Fin 8, (s.portOn n.val = true ∧ s.link n.val = lnkService) ∧
      let dist (v now : Nat) : Nat := (v + 2 ^ 32 - now) % 2 ^ 32
      ∃ ch : Fin 16, ∃ v : Word,
      let t := 0x10000 + n.val * 16 + ch.val
      let x := s.getChan t
      s.tkOn t = true ∧ v.toNat ≠ x.rd ∧ dist v.toNat x.rd ≠ 0 ∧ dist v.toNat x.rd < 2 ^ 31 ∧ dist v.toNat x.rd ≤ dist x.wr x.rd ∧ v.toNat % 64 = 0) ∧
    (∃ s : State, ∃ n : Fin 8, (s.portOn n.val = true ∧ s.link n.val = lnkService) ∧
      let g := s.getGp n.val
      let dist (v now : Nat) : Nat := (v + 2 ^ 32 - now) % 2 ^ 32
      ∃ b : Fin 8, ∃ v : Word, v.toNat ≠ mget g.evDone b.val ∧ dist v.toNat (mget g.evDone b.val) ≠ 0 ∧ dist v.toNat (mget g.evDone b.val) < 2 ^ 31) ∧
    (∃ s : State, ∃ n : Fin 8, s.portOn n.val = true ∧ (s.link n.val = lnkWait ∨ s.link n.val = lnkTraining) ∧ ((s.getGp n.val).step = 0 ∨ (s.getGp
        n.val).failed = false)) ∧
    (∃ s : State, ∃ n : Fin 8, ∃ rate : Nat, s.portOn n.val = true ∧ s.link n.val = lnkTraining ∧ 1 ≤ rate ∧ rate ≤ 3 ∧ (s.getGp n.val).failed =
        false) ∧
    (∃ s : State, ∃ n : Fin 8, s.portOn n.val = true ∧ s.link n.val = lnkTraining) ∧
    (∃ s : State, ∃ n : Fin 8, s.portOn n.val = true ∧ (s.link n.val = lnkService ∨ s.link n.val = lnkWait ∨ s.link n.val = lnkTraining)) ∧
    (∃ s : State, ∃ n : Fin 8, s.portOn n.val = true ∧ s.link n.val = lnkSelf) ∧
    (∃ s : State, ∃ n : Fin 8, s.portOn n.val = true ∧ s.link n.val = lnkWait) ∧
    (∃ s : State, ∃ req : Requester, ∃ n : Fin 8, s.Reached req .GP_PCTRL [n.val] ∧ s.mapWriter req = true ∧ s.link n.val = lnkDisabled) :=
  ⟨⟨((pt.setFld .GP_MAP [0] GP_MAP_EN 1).setFld .GP_PSTATUS [0] GP_PSTATUS_STATE lnkService), 0, 0x10000, 0, by decide +kernel, by decide +kernel⟩,
   ⟨(pt.setFld .GP_PSTATUS [0] GP_PSTATUS_STATE lnkService), 0, 0x1000000, 0, by decide +kernel, by decide +kernel⟩,
   ⟨(pt.setFld .GP_PSTATUS [0] GP_PSTATUS_STATE lnkService).setFld .GP_PCFG [0] GP_PCFG_WCHK 1, 0, 2, by decide +kernel⟩,
   ⟨(pt.setFld .GP_PSTATUS [0] GP_PSTATUS_STATE lnkService).modGp 0 fun g => { g with done := [(0, 1)] }, 0, by decide +kernel, 0, 1,
     by decide +kernel⟩,
   ⟨(pt.setFld .GP_PSTATUS [0] GP_PSTATUS_STATE lnkService), 0, by decide +kernel, 16, by decide +kernel⟩,
   ⟨(pt.setFld .GP_PSTATUS [0] GP_PSTATUS_STATE lnkService), 0, by decide +kernel, 1, by decide +kernel⟩,
   ⟨((pt.setFld .GP_PSTATUS [0] GP_PSTATUS_STATE lnkService).setFld .GP_HC_CFG [0, 0] GP_HC_CFG_EN 1).modChan 0x10000 fun x => { x with wr := 64 },
     0, by decide +kernel, 0, 64, by decide +kernel⟩,
   ⟨(pt.setFld .GP_PSTATUS [0] GP_PSTATUS_STATE lnkService), 0, by decide +kernel, 0, 1, by decide +kernel⟩,
   ⟨(pt.setFld .GP_PSTATUS [0] GP_PSTATUS_STATE lnkWait), 0, by decide +kernel⟩,
   ⟨(pt.setFld .GP_PSTATUS [0] GP_PSTATUS_STATE lnkTraining), 0, 3, by decide +kernel⟩,
   ⟨(pt.setFld .GP_PSTATUS [0] GP_PSTATUS_STATE lnkTraining), 0, by decide +kernel⟩,
   ⟨(pt.setFld .GP_PSTATUS [0] GP_PSTATUS_STATE lnkService), 0, by decide +kernel⟩,
   ⟨(pt.setFld .GP_PSTATUS [0] GP_PSTATUS_STATE lnkSelf), 0, by decide +kernel⟩,
   ⟨(pt.setFld .GP_PSTATUS [0] GP_PSTATUS_STATE lnkWait), 0, by decide +kernel⟩,
   ⟨((pt.setFld .GP_PSTATUS [0] GP_PSTATUS_STATE lnkDisabled)).setFld .BU_STATUS [] BU_STATUS_PHASE 9, .resident, 0,
     by unfold State.Reached; decide +kernel⟩⟩

theorem test_met_TrayCommandsHaveTheirEffects :
    (∃ s : State, ∃ req : Requester, ∃ n : Fin 8, ∃ v : Word, ∃ t : Fin 16, s.Reached req .GP_PCFG [n.val] ∧ (∀ k : Nat, k < 16 → ((v.toNat / 2 ^
        16).testBit k && !(s.fld .GP_PCFG [n.val] GP_PCFG_TRAYEN).testBit k) = decide (k = t.val))) ∧
    (∃ s : State, ∃ n : Fin 8, ∃ use : LinkUse, s.portOn n.val = true ∧
      let u := ((s.linkUse n.val use).bump .GP_SCANS [n.val]).scanAdmin n.val
      ((u.partOfPort n.val).isNone = true ∨ u.devState = 3)) ∧
    (∃ s : State, ∃ n : Fin 8, ∃ use : LinkUse, s.portOn n.val = true ∧
      let u := ((s.linkUse n.val use).bump .GP_SCANS [n.val]).scanAdmin n.val
      (u.partOfPort n.val).isNone = false ∧ u.devState ≠ 3) ∧
    (∃ s : State, ∃ n : Fin 8, s.link n.val = lnkService) ∧
    (∃ o : Nat, bulkEnd ≤ o) ∧
    (∃ s : State, ∃ n : Nat, ∃ o : Nat, o < bulkEnd ∧ (s.partOfPort n).isSome = true) ∧
    (∃ s : State, ∃ n : Nat, ∃ t : Nat,
      let m := mget (s.getGp n).count t
      let bs := s.stagPeek n (trayBase t + 64 * (m % 1024)) 64
      slotFld bs 0 4 = m + 1 ∧ slotFld bs 4 2 ≠ slotCheck bs) ∧
    (∃ s : State, ∃ n : Nat, ∃ t : Nat,
      let m := mget (s.getGp n).count t
      let bs := s.stagPeek n (trayBase t + 64 * (m % 1024)) 64
      slotFld bs 0 4 = m + 1 ∧ slotFld bs 4 2 = slotCheck bs ∧ 32 ≤ (m + 2 ^ 32 - mget (s.getGp n).crd t) % 2 ^ 32) ∧
    (∃ s : State, ∃ n : Nat, ∃ t : Nat,
      let m := mget (s.getGp n).count t
      let bs := s.stagPeek n (trayBase t + 64 * (m % 1024)) 64
      slotFld bs 0 4 = m + 1 ∧ slotFld bs 4 2 = slotCheck bs ∧ (m + 2 ^ 32 - mget (s.getGp n).crd t) % 2 ^ 32 < 32 ∧ s.slotCode (cmdOf t m bs) bs =
        0) ∧
    (∃ s : State, ∃ n : Fin 8, ∃ t : Fin 17, ∃ x : Cmd, s.portOn n.val = true ∧ s.nextCmd n.val t.val = some x ∧ s.mayStart n.val x = true ∧ x.op =
        0) ∧
    (∃ s : State, ∃ n : Fin 8, ∃ t : Fin 17, ∃ x : Cmd, s.portOn n.val = true ∧ s.nextCmd n.val t.val = some x ∧ s.mayStart n.val x = true ∧ x.op =
        1 ∧ s.regCodes n.val x false = 0 ∧ x.flags.testBit 1 = false) ∧
    (∃ s : State, ∃ n : Fin 8, ∃ t : Fin 17, ∃ x : Cmd, s.portOn n.val = true ∧ s.nextCmd n.val t.val = some x ∧ s.mayStart n.val x = true ∧ x.op =
        1 ∧ s.regCodes n.val x false = 0 ∧ x.flags.testBit 1 = true) ∧
    (∃ s : State, ∃ n : Fin 8, ∃ t : Fin 17, ∃ x : Cmd, s.portOn n.val = true ∧ s.nextCmd n.val t.val = some x ∧ s.mayStart n.val x = true ∧ x.op =
        1 ∧ x.adr % 4 = 0 ∧ s.portReach n.val (x.tray == adminTray) x.adr false = false) ∧
    (∃ s : State, ∃ n : Fin 8, ∃ t : Fin 17, ∃ x : Cmd, (s.portOn n.val = true ∧ s.nextCmd n.val t.val = some x ∧ s.mayStart n.val x = true ∧ x.op =
        2 ∧ s.regCodes n.val x true = 0 ∧ x.flags.testBit 1 = false) ∧
      let r := (s.setCmd n.val x fun y => { y with st := 1 }).writeWord (.port n) x.adr (x.data % 2 ^ 32) (some (n.val, t.val))
      (r.1 ≠ 0 ∨ (∀ y, y ∈ r.2.checks → y.cmd ≠ some (n.val, t.val)))) ∧
    (∃ s : State, ∃ n : Fin 8, ∃ t : Fin 17, ∃ x : Cmd, s.portOn n.val = true ∧ s.nextCmd n.val t.val = some x ∧ s.mayStart n.val x = true ∧ x.op =
        3 ∧ s.rangeCode n.val x ≠ 0) ∧
    (∃ s : State, ∃ n : Fin 8, ∃ t : Fin 17, ∃ x : Cmd, (s.portOn n.val = true ∧ s.nextCmd n.val t.val = some x ∧ s.mayStart n.val x = true) ∧ ∃
        tag, x.op = 3 ∧ s.rangeCode n.val x = 0 ∧ s.freeTag (792 + n.val) = some tag) ∧
    (∃ s : State, ∃ n : Fin 8, ∃ t : Fin 17, ∃ x : Cmd, (s.portOn n.val = true ∧ s.nextCmd n.val t.val = some x ∧ s.mayStart n.val x = true) ∧ ∃
        tag, x.op = 4 ∧ s.rangeCode n.val x = 0 ∧ s.freeTag (792 + n.val) = some tag) ∧
    (∃ s : State, ∃ n : Fin 8, ∃ t : Fin 17, ∃ x : Cmd, s.portOn n.val = true ∧ s.nextCmd n.val t.val = some x ∧ s.mayStart n.val x = true ∧ x.op =
        5 ∧ s.rangeCode n.val x = 0 ∧ s.bit .GP_SH_ADDR [n.val, x.handle] GP_SH_ADDR_EN = false) ∧
    (∃ s : State, ∃ n : Fin 8, ∃ t : Fin 17, ∃ x : Cmd, (s.portOn n.val = true ∧ s.nextCmd n.val t.val = some x ∧ s.mayStart n.val x = true) ∧ ∃
        tag, (x.op = 5 ∧ s.rangeCode n.val x = 0 ∧ s.bit .GP_SH_ADDR [n.val, x.handle] GP_SH_ADDR_EN = true) ∧
      let dev := s.val .GP_SH_ADDR [n.val, x.handle] % 2 ^ 48 / 128 * 128
      s.badSend dev x.len (s.stagPeek n.val x.soff 16) = false ∧ s.freeTag (792 + n.val) = some tag) ∧
    (∃ s : State, ∃ n : Fin 8, ∃ t : Fin 17, ∃ x : Cmd, (s.portOn n.val = true ∧ s.nextCmd n.val t.val = some x ∧ s.mayStart n.val x = true) ∧ ∃ c,
        x.op = 6 ∧ coordCluster (x.data % 2 ^ 12) = some c ∧ coordSlot (x.data % 2 ^ 12) < 19 ∧ (s.partOfPort n.val).isSome = true ∧ s.partOfCluster
        c = s.partOfPort n.val ∧ s.isSplit = false ∧ s.fencedEng c (coordSlot (x.data % 2 ^ 12)) = false) ∧
    (∃ s : State, ∃ n : Fin 8, ∃ t : Fin 17, ∃ x : Cmd, s.portOn n.val = true ∧ t.val < 16 ∧ ((s.getGp n.val).cmds.findSome? fun x => if x.tray =
        t.val then s.ended x else none) = some x ∧ x.key = 0 ∧ x.tray = t.val ∧ x.code = 0) ∧
    (∃ s : State, ∃ n : Fin 8, (s.portOn n.val = true ∧ s.bit .GP_EVSRC [n.val] GP_EVSRC_EN = true ∧ (s.getGp n.val).evRd ≠ (s.getGp n.val).evWr ∧
        (s.getGp n.val).outq = []) ∧
      let r := s.evHead n.val
      let w := bitsOf r 70 14
      s.groupOf w = none) ∧
    (∃ s : State, ∃ n : Fin 8, (s.portOn n.val = true ∧ s.bit .GP_EVSRC [n.val] GP_EVSRC_EN = true ∧ (s.getGp n.val).evRd ≠ (s.getGp n.val).evWr ∧
        (s.getGp n.val).outq = []) ∧
      let r := s.evHead n.val
      let w := bitsOf r 70 14
      ∃ g, s.groupOf w = some g ∧ ((s.evBinds n.val).any fun e => e.2 == g) = true ∧ s.wgOpen g = true ∧ (s.getWg g).opened.contains (eidPort n.val)
        = true ∧ (s.getWg g).done.contains (eidPort n.val) = false) ∧
    (∃ s : State, ∃ n : Fin 8, ∃ ch : Fin 16, ∃ i : Nat, ∃ foot : Nat, ∃ sender : Nat, ∃ pos : Nat, ∃ rest : List (Nat × Nat × Nat),
      let t := 0x10000 + n.val * 16 + ch.val
      (s.getChan t).comp = (i, foot, sender) :: rest ∧ (s.getChan t).place (s.tkSize t) foot = some (pos, 0) ∧ s.compReached t i = false) ∧
    (∃ s : State, ∃ n : Fin 8, ∃ ch : Fin 16, ∃ meets : LineFate, ∃ i : Nat, ∃ foot : Nat, ∃ sender : Nat, ∃ pos : Nat, ∃ rest : List (Nat × Nat ×
        Nat),
      let t := 0x10000 + n.val * 16 + ch.val
      (s.getChan t).comp = (i, foot, sender) :: rest ∧ (s.getChan t).place (s.tkSize t) foot = some (pos, 0) ∧ s.compReached t i = true ∧
        meets.badIn (s.slotAt t i) (64 + foot) = true) ∧
    (∃ s : State, ∃ n : Fin 8, ∃ ch : Fin 16, ∃ meets : LineFate, ∃ i : Nat, ∃ foot : Nat, ∃ sender : Nat, ∃ pos : Nat, ∃ rest : List (Nat × Nat ×
        Nat),
      let t := 0x10000 + n.val * 16 + ch.val
      (s.getChan t).comp = (i, foot, sender) :: rest ∧ (s.getChan t).place (s.tkSize t) foot = some (pos, 0) ∧ s.compReached t i = true ∧
        meets.badIn (s.slotAt t i) (64 + foot) = false) :=
  ⟨⟨State.reset, .steward 0, 0, 0x10000, 0, by unfold State.Reached; decide +kernel⟩,
   ⟨State.reset, 0, ⟨[0], [], 2, 1⟩, by decide +kernel, by decide +kernel⟩,
   ⟨(pt.setFld .GP_MAP [0] GP_MAP_EN 1), 0, ⟨[0], [], 2, 1⟩, by decide +kernel, by decide +kernel⟩,
   ⟨(pt.setFld .GP_PSTATUS [0] GP_PSTATUS_STATE lnkService), 0, by decide +kernel⟩,
   ⟨bulkEnd, by decide +kernel⟩,
   ⟨(pt.setFld .GP_MAP [0] GP_MAP_EN 1), 0, 0, by decide +kernel⟩,
   ⟨{ State.reset with staging := pokeMem [] 0x10000 [1] }, 0, 0, by decide +kernel⟩,
   ⟨({ State.reset with staging := pokeMem [] 0x10000 ([1, 0, 0, 0] ++ leBytes 2 (slotCheck ([1, 0, 0, 0] ++ List.replicate 60 0)) ++ List.replicate 58 0) }).modGp
     0 fun g => { g with crd := [(0, 2 ^ 32 - 32)] }, 0, 0, by decide +kernel⟩,
   ⟨{ State.reset with staging := pokeMem [] 0x10000 ([1, 0, 0, 0] ++ leBytes 2 (slotCheck ([1, 0, 0, 0] ++ List.replicate 60 0)) ++ List.replicate 58 0) },
     0, 0, by decide +kernel⟩,
   ⟨pt.modGp 0 fun g => { g with cmds := [{}] }, 0, 0, {}, by decide +kernel⟩,
   ⟨pt.modGp 0 fun g => { g with cmds := [{ op := 1, adr := 0xFE08000000 }] }, 0, 0, { op := 1, adr := 0xFE08000000 }, by decide +kernel⟩,
   ⟨pt.modGp 0 fun g => { g with cmds := [{ op := 1, adr := 0xFE08000000, flags := 2 }] }, 0, 0, { op := 1, adr := 0xFE08000000, flags := 2 },
     by decide +kernel⟩,
   ⟨pt.modGp 0 fun g => { g with cmds := [{ op := 1, adr := 0xF000000000 }] }, 0, 0, { op := 1, adr := 0xF000000000 }, by decide +kernel⟩,
   ⟨pt.modGp 0 fun g => { g with cmds := [{ op := 2, adr := 0xFE08000000 }] }, 0, 0, { op := 2, adr := 0xFE08000000 }, by decide +kernel,
     by decide +kernel⟩,
   ⟨pt.modGp 0 fun g => { g with cmds := [{ op := 3 }] }, 0, 0, { op := 3 }, by decide +kernel⟩,
   ⟨pt.modGp 0 fun g => { g with cmds := [{ op := 3, soff := bulkBase, len := 64 }] }, 0, 0, { op := 3, soff := bulkBase, len := 64 },
     by decide +kernel, (0 : Nat), by decide +kernel⟩,
   ⟨pt.modGp 0 fun g => { g with cmds := [{ op := 4, soff := bulkBase, len := 64 }] }, 0, 0, { op := 4, soff := bulkBase, len := 64 },
     by decide +kernel, (0 : Nat), by decide +kernel⟩,
   ⟨pt.modGp 0 fun g => { g with cmds := [{ op := 5, soff := bulkBase, len := 64 }] }, 0, 0, { op := 5, soff := bulkBase, len := 64 },
     by decide +kernel⟩,
   ⟨{ (pt.setFld .GP_SH_ADDR [0, 0] GP_SH_ADDR_EN 1) with staging := pokeMem [] bulkBase [48] }.modGp 0 fun g =>
     { g with cmds := [{ op := 5, soff := bulkBase, len := 64 }] }, 0, 0, { op := 5, soff := bulkBase, len := 64 }, by decide +kernel, (0 : Nat),
     by decide +kernel, by decide +kernel⟩,
   ⟨(pt.setFld .GP_MAP [0] GP_MAP_EN 1).modGp 0 fun g => { g with cmds := [{ op := 6 }] }, 0, 0, { op := 6 }, by decide +kernel, (0 : Nat),
     by decide +kernel⟩,
   ⟨pt.modGp 0 fun g => { g with cmds := [{ st := 2 }] }, 0, 0, { st := 2 }, by decide +kernel⟩,
   ⟨(pt.setFld .GP_EVSRC [0] GP_EVSRC_EN 1).modGp 0 fun g => { g with evWr := 16 }, 0, by decide +kernel, by decide +kernel⟩,
   ⟨(((gs.setFld .GP_EVSRC [0] GP_EVSRC_EN 1).setFld .GP_EVBIND [0, 0] GP_EVBIND_EN 1).modWg 0 fun w => { w with opened := [0x1000] }).modGp 0 fun g
     => { g with evWr := 16 }, 0, by decide +kernel, (0 : Nat), by decide +kernel⟩,
   ⟨(withRam (pt.setFld .GP_MAP [0] GP_MAP_EN 1)).modChan 0x10000 fun x => { x with comp := [(0, 64, 0)] }, 0, 0, 0, 64, 0, 0, [],
     by decide +kernel⟩,
   ⟨(svc (pt.setFld .GP_MAP [0] GP_MAP_EN 1)).modChan 0x10000 fun x => { x with comp := [(0, 64, 0)] }, 0, 0, { bad := [0] }, 0, 64, 0, 0, [],
     by decide +kernel⟩,
   ⟨(svc (pt.setFld .GP_MAP [0] GP_MAP_EN 1)).modChan 0x10000 fun x => { x with comp := [(0, 64, 0)] }, 0, 0, {}, 0, 64, 0, 0, [],
     by decide +kernel⟩⟩

theorem test_met_PartitionAndCheckCommandsHaveTheirEffects :
    (∃ s : State, ∃ req : Requester, ∃ p : Fin 8, s.Reached req .GP_PART_CFG [p.val] ∧ s.mapWriter req = true ∧ s.fld .GP_PART_STATUS [p.val]
        GP_PART_STATUS_STATE = 0 ∧ s.checking (.part p.val) = false ∧ s.bit .GP_PART_CFG [p.val] GP_PART_CFG_EN = false) ∧
    (∃ s : State, ∃ req : Requester, ∃ p : Fin 8, s.Reached req .GP_PART_CFG [p.val] ∧ s.mapWriter req = true ∧ s.fld .GP_PART_STATUS [p.val]
        GP_PART_STATUS_STATE = 1 ∧ s.checking (.part p.val) = false ∧ s.bit .GP_PART_CFG [p.val] GP_PART_CFG_EN = true) ∧
    (∃ s : State, ∃ req : Requester, s.mapWriter req = false) ∧
    (∃ s : State, ∃ p : Fin 8, s.fld .GP_PART_STATUS [p.val] GP_PART_STATUS_STATE = 2) ∧
    (∃ s : State, ∃ req : Requester, ∃ n : Fin 8, s.Reached req .GP_MAP [n.val] ∧ s.mapWriter req = true ∧ s.checking (.map n.val) = false ∧ s.bit
        .GP_MAP [n.val] GP_MAP_EN = false) ∧
    (∃ s : State, ∃ req : Requester, ∃ n : Fin 8, s.Reached req .GP_MAP [n.val] ∧ s.mapWriter req = true ∧ s.checking (.map n.val) = false ∧ s.bit
        .GP_MAP [n.val] GP_MAP_EN = true ∧ s.lastPort n.val = false) ∧
    (∃ s : State, ∃ req : Requester, ∃ n : Fin 8, s.Reached req .GP_MAP [n.val] ∧ s.mapWriter req = true ∧ s.checking (.map n.val) = false ∧ s.bit
        .GP_MAP [n.val] GP_MAP_EN = true ∧ s.lastPort n.val = true) ∧
    (∃ s : State, ∃ req : Requester, ∃ n : Fin 8, s.Reached req .GP_EVSRC [n.val] ∧ s.checking (.evsrc n.val) = false ∧ s.checking (.map n.val) =
        false ∧ s.bit .GP_EVSRC [n.val] GP_EVSRC_EN = false ∧ s.bit .GP_MAP [n.val] GP_MAP_EN = false) ∧
    (∃ s : State, ∃ req : Requester, ∃ n : Fin 8, s.Reached req .GP_EVSRC [n.val] ∧ s.checking (.evsrc n.val) = false ∧ s.checking (.map n.val) =
        false ∧ s.bit .GP_EVSRC [n.val] GP_EVSRC_EN = false ∧ s.bit .GP_MAP [n.val] GP_MAP_EN = true) ∧
    (∃ s : State, ∃ req : Requester, ∃ c : Fin 96, ∃ n : Fin 8, s.Reached req .MX_BIND [c.val, n.val] ∧ s.checking (.mxbind c.val n.val) = false ∧
        s.bit .MX_BIND [c.val, n.val] MX_BIND_EN = false) ∧
    (∃ s : State, ∃ req : Requester, ∃ c : Fin 96, ∃ k : Fin 2, ∃ n : Fin 8, s.Reached req .VX_BIND [c.val, k.val, n.val] ∧ s.checking (.vxbind
        c.val k.val n.val) = false ∧ s.bit .VX_BIND [c.val, k.val, n.val] VX_BIND_EN = false) ∧
    (∃ s : State, ∃ req : Requester, ∃ n : Fin 8, ∃ b : Fin 8, s.Reached req .GP_EVBIND [n.val, b.val] ∧ s.checking (.evbind n.val b.val) = false ∧
        s.bit .GP_EVBIND [n.val, b.val] GP_EVBIND_EN = false) ∧
    (∃ s : State, ∃ req : Requester, ∃ n : Fin 8, ∃ ch : Fin 16, s.Reached req .GP_HC_CFG [n.val, ch.val] ∧ s.checking (.hchan n.val ch.val) = false
        ∧ s.bit .GP_HC_CFG [n.val, ch.val] GP_HC_CFG_EN = false) ∧
    (∃ s : State, ∃ x : Check, ∃ rest : List Check, (s.checks = x :: rest ∧ x.cmd = none) ∧
      let u : State := { s with checks := rest }
      u.checkCode x = 0) ∧
    (∃ s : State, ∃ x : Check, ∃ rest : List Check, (s.checks = x :: rest ∧ x.cmd = none) ∧
      let u : State := { s with checks := rest }
      u.checkCode x ≠ 0) ∧
    (∃ s : State, ∃ x : Check, ∃ rest : List Check, (s.checks = x :: rest ∧ x.cmd = none) ∧
      let u : State := { s with checks := rest }
      ∃ n, x.unit = .tb n ∧ u.isSplit = false ∧ u.tbCheck n = 0) ∧
    (∃ s : State, ∃ x : Check, ∃ rest : List Check, (s.checks = x :: rest ∧ x.cmd = none) ∧
      let u : State := { s with checks := rest }
      ∃ g, x.unit = .wg g ∧ u.isSplit = false ∧ u.wgCheck g = 0) ∧
    (∃ s : State, ∃ x : Check, ∃ rest : List Check, (s.checks = x :: rest ∧ x.cmd = none) ∧
      let u : State := { s with checks := rest }
      ∃ g, x.unit = .wg g ∧ u.isSplit = false ∧ u.wgCheck g ≠ 0) ∧
    (∃ s : State, ∃ x : Check, ∃ rest : List Check, (s.checks = x :: rest ∧ x.cmd = none) ∧
      let u : State := { s with checks := rest }
      ∃ n, x.unit = .map n ∧ u.isSplit = false ∧ u.mapCheck n (u.fld .GP_MAP [n] GP_MAP_PART) = 0) ∧
    (∃ s : State, ∃ x : Check, ∃ rest : List Check, (s.checks = x :: rest ∧ x.cmd = none) ∧
      let u : State := { s with checks := rest }
      ∃ n, x.unit = .evsrc n ∧ u.isSplit = false ∧ u.evsrcCheck n = 0) ∧
    (∃ s : State, ∃ x : Check, ∃ rest : List Check, (s.checks = x :: rest ∧ x.cmd = none) ∧
      let u : State := { s with checks := rest }
      ∃ c, ∃ h, x.unit = .send c h ∧ u.isSplit = false ∧ u.handleCheck (u.partOfCluster c) (u.val .MQ_SH_ADDR [c, h]) = 0) ∧
    (∃ s : State, ∃ x : Check, ∃ rest : List Check, (s.checks = x :: rest ∧ x.cmd = none) ∧
      let u : State := { s with checks := rest }
      ∃ n, x.unit = .remap n ∧ u.isSplit = false ∧ u.remapCheck n ≠ 0) :=
  ⟨⟨State.reset.setFld .BU_STATUS [] BU_STATUS_PHASE 9, .resident, 0, by unfold State.Reached; decide +kernel⟩,
   ⟨((State.reset.setFld .GP_PART_STATUS [0] GP_PART_STATUS_STATE 1).setFld .GP_PART_CFG [0] GP_PART_CFG_EN 1).setFld .BU_STATUS [] BU_STATUS_PHASE
     9, .resident, 0, by unfold State.Reached; decide +kernel⟩,
   ⟨State.reset, .engine 0 0, by decide +kernel⟩,
   ⟨State.reset.setFld .GP_PART_STATUS [0] GP_PART_STATUS_STATE 2, 0, by decide +kernel⟩,
   ⟨State.reset.setFld .BU_STATUS [] BU_STATUS_PHASE 9, .resident, 0, by unfold State.Reached; decide +kernel⟩,
   ⟨(State.reset.setFld .GP_MAP [0] GP_MAP_EN 1).setFld .BU_STATUS [] BU_STATUS_PHASE 9, .resident, 0, by unfold State.Reached; decide +kernel⟩,
   ⟨(pt.setFld .GP_MAP [0] GP_MAP_EN 1).setFld .BU_STATUS [] BU_STATUS_PHASE 9, .resident, 0, by unfold State.Reached; decide +kernel⟩,
   ⟨State.reset, .steward 0, 0, by unfold State.Reached; decide +kernel⟩,
   ⟨(pt.setFld .GP_MAP [0] GP_MAP_EN 1), .steward 0, 0, by unfold State.Reached; decide +kernel⟩,
   ⟨State.reset, .steward 0, 0, 0, by unfold State.Reached; decide +kernel⟩,
   ⟨State.reset, .steward 0, 0, 0, 0, by unfold State.Reached; decide +kernel⟩,
   ⟨State.reset, .steward 0, 0, 0, by unfold State.Reached; decide +kernel⟩,
   ⟨State.reset, .steward 0, 0, 0, by unfold State.Reached; decide +kernel⟩,
   ⟨{ (pt.setFld .TB_CFG [0] TB_CFG_SRC 2) with checks := [⟨.tb 0, 0, none⟩] }, ⟨.tb 0, 0, none⟩, [], by decide +kernel, by decide +kernel⟩,
   ⟨{ pt with checks := [⟨.wg 0, 0, none⟩] }, ⟨.wg 0, 0, none⟩, [], by decide +kernel, by decide +kernel⟩,
   ⟨{ (pt.setFld .TB_CFG [0] TB_CFG_SRC 2) with checks := [⟨.tb 0, 0, none⟩] }, ⟨.tb 0, 0, none⟩, [], by decide +kernel, (0 : Nat),
     by decide +kernel⟩,
   ⟨{ good with checks := [⟨.wg 0, 0, none⟩] }, ⟨.wg 0, 0, none⟩, [], by decide +kernel, (0 : Nat), by decide +kernel⟩,
   ⟨{ pt with checks := [⟨.wg 0, 0, none⟩] }, ⟨.wg 0, 0, none⟩, [], by decide +kernel, (0 : Nat), by decide +kernel⟩,
   ⟨{ pt with checks := [⟨.map 0, 0, none⟩] }, ⟨.map 0, 0, none⟩, [], by decide +kernel, (0 : Nat), by decide +kernel⟩,
   ⟨{ (pt.setFld .GP_MAP [0] GP_MAP_EN 1) with checks := [⟨.evsrc 0, 0, none⟩] }, ⟨.evsrc 0, 0, none⟩, [], by decide +kernel, (0 : Nat),
     by decide +kernel⟩,
   ⟨{ (((pt.setFld .MQ_CH_CFG [0, 0] MQ_CH_CFG_EN 1).setVal .MQ_CH_CCB [0, 0] 0x2000000).setVal .MQ_SH_ADDR [0, 0] (bankAddr 0 0)) with checks := [⟨.send 0 0, 0, none⟩] },
     ⟨.send 0 0, 0, none⟩, [], by decide +kernel, (0 : Nat), (0 : Nat), by decide +kernel⟩,
   ⟨{ pt with checks := [⟨.remap 0, 0, none⟩] }, ⟨.remap 0, 0, none⟩, [], by decide +kernel, (0 : Nat), by decide +kernel⟩⟩

theorem test_met_SeamCommandsHaveTheirEffects :
    (∃ s : State, ∃ d : Fin 2, ∃ l : Fin 4, ∃ vl : Fin 3, ∃ fate : CellFate, (s.inSvc l.val = true ∧ s.linkRate d.val l.val ≠ 0 ∧ s.isSplit = false)
        ∧ (∀ k : Nat, vl.val < k → k < 3 → s.cellWaits d.val l.val k = false) ∧
      let x := s.getLane d.val l.val
      ∃ c, (x.buf.find? fun b => b.1 == x.exp) = some (x.exp, c) ∧ fate.ahead = false ∧ fate.good = true) ∧
    (∃ s : State, ∃ d : Fin 2, ∃ l : Fin 4, ∃ vl : Fin 3, ∃ fate : CellFate, (s.inSvc l.val = true ∧ s.linkRate d.val l.val ≠ 0 ∧ s.isSplit = false)
        ∧ (∀ k : Nat, vl.val < k → k < 3 → s.cellWaits d.val l.val k = false) ∧
      let x := s.getLane d.val l.val
      ∃ c, (x.buf.find? fun b => b.1 == x.exp) = some (x.exp, c) ∧ fate.ahead = false ∧ fate.good = false ∧ x.fails < 15) ∧
    (∃ s : State, ∃ d : Fin 2, ∃ l : Fin 4, ∃ vl : Fin 3, ∃ fate : CellFate, (s.inSvc l.val = true ∧ s.linkRate d.val l.val ≠ 0 ∧ s.isSplit = false)
        ∧ (∀ k : Nat, vl.val < k → k < 3 → s.cellWaits d.val l.val k = false) ∧
      let x := s.getLane d.val l.val
      ∃ c, (x.buf.find? fun b => b.1 == x.exp) = some (x.exp, c) ∧ fate.ahead = false ∧ fate.good = false ∧ 15 ≤ x.fails) ∧
    (∃ s : State, ∃ d : Fin 2, ∃ l : Fin 4, ∃ vl : Fin 3, ∃ fate : CellFate, (s.inSvc l.val = true ∧ s.linkRate d.val l.val ≠ 0 ∧ s.isSplit = false)
        ∧ (∀ k : Nat, vl.val < k → k < 3 → s.cellWaits d.val l.val k = false) ∧
      let x := s.getLane d.val l.val
      ∃ c, (x.buf.find? fun b => b.1 == x.exp) = some (x.exp, c) ∧ ∃ w, fate.ahead = true ∧ fate.good = true ∧ s.newCell d.val l.val vl.val = some w) ∧
    (∃ s : State, ∃ d : Fin 2, ∃ l : Fin 4, ∃ vl : Fin 3, ∃ fate : CellFate, (s.inSvc l.val = true ∧ s.linkRate d.val l.val ≠ 0 ∧ s.isSplit = false)
        ∧ (∀ k : Nat, vl.val < k → k < 3 → s.cellWaits d.val l.val k = false) ∧
      let x := s.getLane d.val l.val
      ∃ b, vl.val = 1 ∧ (x.buf.find? fun b => b.1 == x.exp) = none ∧ x.buf.length < 256 ∧ (s.getSdir d.val).moved = [] ∧ ((s.getSdir d.val).tq.find?
        fun b => s.crossLink d.val b.cross == l.val) = some b ∧ fate.good = true) ∧
    (∃ s : State, ∃ b : SBeat, (s.getXfer b.key).own ≠ .none ∧ (s.getXfer b.key).fin = 0) ∧
    (∃ s : State, ∃ d : Fin 2, ∃ l : Fin 4, s.inSvc l.val = true ∧ s.isSplit = false ∧ (s.getLane d.val l.val).nak = true) ∧
    (∃ s : State, ∃ d : Fin 2, ∃ l : Fin 4, s.inSvc l.val = true ∧ s.isSplit = false ∧ (s.getLane d.val l.val).nak = false) ∧
    (∃ s : State, ∃ l : Fin 4, s.inSvc l.val = true ∧ s.isSplit = false) ∧
    (∃ s : State, ∃ d : Nat, ∃ l : Nat, (∀ b, b ∈ (s.getLane d l).buf → ∀ fs, b.2 ≠ .event fs)) ∧
    (∃ s : State, s.isSplit = false) ∧
    (∃ s : State, ∃ d : Fin 2, ∃ m : MFlit, ∃ rest : List MFlit, (s.getSdir d.val).recv = m :: rest ∧ ((s.getSdir d.val).recv.find? fun m =>
        s.isGolden (1 - d.val) m.f) = none ∧ fDY m.f < 6 ∧ s.edgeTakes d.val (fDY m.f) = true) ∧
    (∃ s : State, ∃ d : Fin 2, ∃ b : SBeat, ∃ t : List SBeat, (s.getSdir d.val).hold = b :: t ∧ (s.getSdir d.val).tUsed < 8192) ∧
    (∃ s : State, ∃ d : Fin 2, ∃ l : Fin 4, (s.inSvc l.val = true ∧ s.isSplit = false) ∧
      let r := s.val .SM_LREASON [l.val]
      let u := s.setVal .SM_LREASON [l.val] (if d.val = 0 then 0x0D24 * 2 ^ 16 + r % 2 ^ 16 else r / 2 ^ 16 * 2 ^ 16 + 0x0D24)
      let u := (u.post none 9 l.val 0xFFFF 0x0D24).setFld .SM_LINK [l.val] (if d.val = 0 then SM_LINK_STATEW else SM_LINK_STATEE) 3
      let u := u.setFld .SM_STATUS [] SM_STATUS_INSVC (setBits (u.fld .SM_STATUS [] SM_STATUS_INSVC) l.val 1 0)
      let u := ((u.setFld .SM_STATUS [] SM_STATUS_STATE 1).noteCtl.updateCaps).moveCross l.val
      u.dirAlive 0 = true ∧ u.dirAlive 1 = true) ∧
    (∃ s : State, ∃ d : Fin 2, ∃ l : Fin 4, (s.inSvc l.val = true ∧ s.isSplit = false) ∧
      let r := s.val .SM_LREASON [l.val]
      let u := s.setVal .SM_LREASON [l.val] (if d.val = 0 then 0x0D24 * 2 ^ 16 + r % 2 ^ 16 else r / 2 ^ 16 * 2 ^ 16 + 0x0D24)
      let u := (u.post none 9 l.val 0xFFFF 0x0D24).setFld .SM_LINK [l.val] (if d.val = 0 then SM_LINK_STATEW else SM_LINK_STATEE) 3
      let u := u.setFld .SM_STATUS [] SM_STATUS_INSVC (setBits (u.fld .SM_STATUS [] SM_STATUS_INSVC) l.val 1 0)
      let u := ((u.setFld .SM_STATUS [] SM_STATUS_STATE 1).noteCtl.updateCaps).moveCross l.val
      (u.dirAlive 0 = false ∨ u.dirAlive 1 = false)) ∧
    (∃ s : State, (s.getSdir 0).thr ≠ 1 ∧ (s.getSdir 1).thr ≠ 1) ∧
    (∃ s : State, (s.getSdir 0).thr = 1 ∧ (s.getSdir 1).thr ≠ 1) :=
  ⟨⟨(((State.reset.setFld .SM_STATUS [] SM_STATUS_INSVC 1).setFld .SM_LINK [0] SM_LINK_STATEW 2).modLane 0 0 fun x =>
      { x with buf := [(0, .event [])] }), 0, 0, 0, { good := true }, by decide +kernel,
      by intro k h1 h2; revert h1; revert h2; revert k; decide +kernel, Cargo.event [], by decide +kernel⟩,
   ⟨(((State.reset.setFld .SM_STATUS [] SM_STATUS_INSVC 1).setFld .SM_LINK [0] SM_LINK_STATEW 2).modLane 0 0 fun x =>
     { x with buf := [(0, .event [])] }), 0, 0, 0, { good := false }, by decide +kernel,
     by intro k h1 h2; revert h1; revert h2; revert k; decide +kernel, Cargo.event [], by decide +kernel⟩,
   ⟨(((State.reset.setFld .SM_STATUS [] SM_STATUS_INSVC 1).setFld .SM_LINK [0] SM_LINK_STATEW 2).modLane 0 0 fun x =>
     { x with fails := 15, buf := [(0, .event [])] }), 0, 0, 0, { good := false }, by decide +kernel,
     by intro k h1 h2; revert h1; revert h2; revert k; decide +kernel, Cargo.event [], by decide +kernel⟩,
   ⟨(((State.reset.setFld .SM_STATUS [] SM_STATUS_INSVC 1).setFld .SM_LINK [0] SM_LINK_STATEW 2).modLane 0 0 fun x =>
     { x with buf := [(0, .event [])] }).modSdir 0 fun x => { x with send := [(0, { f := 0 })] }, 0, 0, 0, { good := true, ahead := true },
     by decide +kernel, by intro k h1 h2; revert h1; revert h2; revert k; decide +kernel, Cargo.event [], by decide +kernel, ((State.newCell
     ((((State.reset.setFld .SM_STATUS [] SM_STATUS_INSVC 1).setFld .SM_LINK [0] SM_LINK_STATEW 2).modLane 0 0 fun x =>
     { x with buf := [(0, .event [])] }).modSdir 0 fun x => { x with send := [(0, { f := 0 })] }) 0 0 0).getD (.ctl [], State.reset)),
     by decide +kernel⟩,
   ⟨((State.reset.setFld .SM_STATUS [] SM_STATUS_INSVC 1).setFld .SM_LINK [0] SM_LINK_STATEW 2).modSdir 0 fun x => { x with tq := [{}] }, 0, 0, 1,
     { good := true }, by decide +kernel, by intro k h1 h2; revert h1; revert h2; revert k; decide +kernel, ({} : SBeat), by decide +kernel⟩,
   ⟨sends pt true [], { key := 96 }, by decide +kernel⟩,
   ⟨(((State.reset.setFld .SM_STATUS [] SM_STATUS_INSVC 1).setFld .SM_LINK [0] SM_LINK_STATEW 2).modLane 0 0 fun x => { x with nak := true }), 0, 0,
     by decide +kernel⟩,
   ⟨((State.reset.setFld .SM_STATUS [] SM_STATUS_INSVC 1).setFld .SM_LINK [0] SM_LINK_STATEW 2), 0, 0, by decide +kernel⟩,
   ⟨((State.reset.setFld .SM_STATUS [] SM_STATUS_INSVC 1).setFld .SM_LINK [0] SM_LINK_STATEW 2), 0, by decide +kernel⟩,
   ⟨State.reset, 0, 0, (fun _ (h : _ ∈ ([] : List (Nat × Cargo))) => nomatch h)⟩,
   ⟨State.reset, by decide +kernel⟩,
   ⟨State.reset.modSdir 0 fun x => { x with recv := [{}] }, 0, {}, [], by decide +kernel⟩,
   ⟨State.reset.modSdir 0 fun x => { x with hold := [{}] }, 0, {}, [], by decide +kernel⟩,
   ⟨((((State.reset.setFld .SM_STATUS [] SM_STATUS_INSVC 3).setFld .SM_LINK [0] SM_LINK_STATEW 2).setFld .SM_LINK [1] SM_LINK_STATEW 2).setFld
     .SM_LINK [1] SM_LINK_STATEE 2), 0, 0, by decide +kernel, by decide +kernel⟩,
   ⟨((State.reset.setFld .SM_STATUS [] SM_STATUS_INSVC 1).setFld .SM_LINK [0] SM_LINK_STATEW 2), 0, 0, by decide +kernel, by decide +kernel⟩,
   ⟨State.reset, by decide +kernel⟩,
   ⟨State.reset.modSdir 0 fun x => { x with thr := 1 }, by decide +kernel⟩⟩

theorem test_met_DomainCommandsHaveTheirEffects :
    (∃ s : State, ∃ req : Requester, ∃ n : Fin 229, ∃ v : Word, s.Reached req .PW_REQ [n.val] ∧ s.pw.tripped = false ∧ s.pwWriter req (if n.val < 96
        then some n.val else if n.val < 192 then some (n.val - 96) else none) = true ∧ v.toNat % 4 ≠ 3 ∧ s.pwForbidden n.val (v.toNat % 4) req =
        false) ∧
    (∃ s : State, ∃ n : Fin 229, s.pw.tripped = false ∧
      let st := s.fld .PW_STAT [n.val] PW_STAT_STATE
      let t := s.domWant n.val
      st ≠ 3 ∧ t = st) ∧
    (∃ s : State, ∃ n : Fin 229, s.pw.tripped = false ∧
      let st := s.fld .PW_STAT [n.val] PW_STAT_STATE
      let t := s.domWant n.val
      st ≠ 3 ∧ st < t ∧ s.holds n.val t ≠ 0) ∧
    (∃ s : State, ∃ n : Fin 229, s.pw.tripped = false ∧
      let st := s.fld .PW_STAT [n.val] PW_STAT_STATE
      let t := s.domWant n.val
      st ≠ 3 ∧ st = 0 ∧ st < t ∧ s.holds n.val t = 0 ∧ s.domAccepted n.val = true) ∧
    (∃ s : State, ∃ n : Fin 229, s.pw.tripped = false ∧
      let st := s.fld .PW_STAT [n.val] PW_STAT_STATE
      let t := s.domWant n.val
      st ≠ 3 ∧ (t < st ∨ st < t ∧ s.holds n.val t = 0) ∧ (st = 0 → s.domAccepted n.val = false)) ∧
    (∃ s : State, ∃ n : Fin 229, ∃ src : Fin 16, (s.pw.tripped = false ∧ (src.val = 3 ∧ 96 ≤ n.val ∧ n.val < 192 ∨ src.val = 4 ∧ 196 ≤ n.val ∧ n.val
        < 220 ∨ src.val = 5 ∨ src.val = 6 ∧ n.val < 192)) ∧
      let st := s.fld .PW_STAT [n.val] PW_STAT_STATE
      st ≠ 0 ∧ (s.getDom n.val).goal ≠ 1) ∧
    (∃ s : State, ∃ n : Fin 229, ∃ src : Fin 16, (s.pw.tripped = false ∧ (src.val = 3 ∧ 96 ≤ n.val ∧ n.val < 192 ∨ src.val = 4 ∧ 196 ≤ n.val ∧ n.val
        < 220 ∨ src.val = 5 ∨ src.val = 6 ∧ n.val < 192)) ∧
      let st := s.fld .PW_STAT [n.val] PW_STAT_STATE
      (st = 0 ∨ (s.getDom n.val).goal = 1)) ∧
    (∃ s : State, ∃ n : Fin 229, s.fld .PW_STAT [n.val] PW_STAT_STATE = 3 ∧ s.domDrains n.val = false ∧ 96 ≤ n.val) ∧
    (∃ s : State, ∃ n : Fin 229, s.fld .PW_STAT [n.val] PW_STAT_STATE = 3 ∧ s.domDrains n.val = false ∧ n.val < 96) :=
  ⟨⟨State.reset, .steward 0, 0, 0, by unfold State.Reached; decide +kernel⟩,
   ⟨State.reset, 0, by decide +kernel, by decide +kernel⟩,
   ⟨(gs.setFld .PW_REQ [0] PW_REQ_TARGET 2), 0, by decide +kernel, by decide +kernel⟩,
   ⟨(sends (ways pt) true [part 1 0]).setFld .PW_REQ [0] PW_REQ_TARGET 2, 0, by decide +kernel, by decide +kernel⟩,
   ⟨State.reset.setFld .PW_REQ [0] PW_REQ_TARGET 2, 0, by decide +kernel, by decide +kernel⟩,
   ⟨(State.reset.setFld .PW_STAT [0] PW_STAT_STATE 2), 0, 5, by decide +kernel, by decide +kernel⟩,
   ⟨State.reset, 0, 5, by decide +kernel, by decide +kernel⟩,
   ⟨(State.reset.setFld .PW_STAT [100] PW_STAT_STATE 3), 100, by decide +kernel⟩,
   ⟨(State.reset.setFld .PW_STAT [0] PW_STAT_STATE 3), 0, by decide +kernel⟩⟩

theorem test_met_ClockCommandsHaveTheirEffects :
    (∃ s : State, ∃ req : Requester, ∃ c : Fin 96, ∃ v : Word, s.Reached req .CK_CORE [c.val] ∧ s.pw.tripped = false ∧ s.pwWriter req (some c.val) =
        true ∧ 8 ≤ v.toNat % 32 ∧ v.toNat % 32 ≤ 22 ∧ (s.bankEnd c.val = false ∨ s.fabHigh (halfOf c.val) ≤ v.toNat % 32)) ∧
    (∃ s : State, ∃ c : Fin 96, (s.getClk c.val).goal ≠ 0 ∧ (s.getClk c.val).rail = false) ∧
    (∃ s : State, ∃ req : Requester, ∃ h : Fin 2, ∃ v : Word, s.Reached req .CK_FAB [h.val] ∧ s.pw.tripped = false ∧ s.pwWriter req none = true ∧ 8
        ≤ v.toNat % 32 ∧ v.toNat % 32 ≤ 16 ∧ s.bit .CK_FAB [h.val] CK_FAB_BUSY = false ∧ v.toNat % 32 ≠ s.fabEff h.val ∧ s.fabCheck h.val (v.toNat %
        32) = 0) ∧
    (∃ s : State, ∃ h : Fin 2, (s.getHf h.val).fab = 2 ∧ s.isQuiet h.val = true ∧ (s.getSdir h.val).hold = [] ∧ s.bankSlow h.val (s.getHf
        h.val).fabTo = true) ∧
    (∃ s : State, ∃ h : Fin 2, (s.getHf h.val).fab = 2 ∧ s.isQuiet h.val = true ∧ (s.getSdir h.val).hold = [] ∧ s.bankSlow h.val (s.getHf
        h.val).fabTo = false) :=
  ⟨⟨State.reset, .steward 0, 0, 16, by unfold State.Reached; decide +kernel⟩,
   ⟨State.reset.modClk 0 fun x => { x with goal := 16 }, 0, by decide +kernel⟩,
   ⟨State.reset, .steward 0, 0, 8, by unfold State.Reached; decide +kernel⟩,
   ⟨(((((State.reset.setFld .TL_SSTAT [0, 0] TL_SSTAT_STATE 2).setFld .CK_CORE [0] CK_CORE_EFF 8).modSch 0 fun x =>
     { x with paths := [(0, 0, [])] }).modHf 0 fun x => { x with fab := 2, fabTo := 16 }).setFld .TL_STATUS [0] TL_STATUS_QUIET 1), 0,
     by decide +kernel⟩,
   ⟨(State.reset.modHf 0 fun x => { x with fab := 2 }).setFld .TL_STATUS [0] TL_STATUS_QUIET 1, 0, by decide +kernel⟩⟩

theorem test_met_TemperatureAndPowerCommandsHaveTheirEffects :
    (∃ s : State, ∃ c : Fin 98, (s.getClk c.val).stretch = true ∧ c.val < 96) ∧
    (∃ v : Half, v.toInt < 440) ∧
    (∃ s : State, ∃ j : Fin 196, ∃ v : Half,
      let u := s.setVal .PW_TEMP [j.val] v.toNat
      let u := u.setFld .PW_STATUS [] PW_STATUS_TJMAX ((max (u.hottest 0) (u.hottest 1)) / 4).toNat
      440 ≤ v.toInt ∧ u.pw.hot.contains j.val = false) ∧
    (∃ s : State, ∃ j : Fin 196, ∃ v : Half,
      let u := s.setVal .PW_TEMP [j.val] v.toNat
      let u := u.setFld .PW_STATUS [] PW_STATUS_TJMAX ((max (u.hottest 0) (u.hottest 1)) / 4).toNat
      440 ≤ v.toInt ∧ u.pw.hot.contains j.val = true) ∧
    (∃ s : State, ∃ c : Fin 96, s.throt ≤ s.clusterTemp c.val) ∧
    (∃ s : State, ∃ c : Fin 96, s.clusterTemp c.val ≤ s.throt - 12 ∧ (s.getClk c.val).therm ≠ 0) ∧
    (∃ s : State, ∃ c : Fin 96, ∃ cooled : Bool, s.clusterTemp c.val < s.throt ∧ (cooled = false ∨ s.throt - 12 < s.clusterTemp c.val ∨ (s.getClk
        c.val).therm = 0)) ∧
    (∃ s : State, ∃ h : Fin 2, s.bit .CK_FAB [h.val] CK_FAB_BUSY = false ∧ 8 < s.fabEff h.val ∧ s.throt ≤ s.temp (192 + 2 * h.val)) ∧
    (∃ w : Nat, ∃ e : Nat, 720 < w + e) ∧
    (∃ w : Nat, ∃ e : Nat, w + e ≤ 720) ∧
    (∃ s : State, (s.isSplit = false ∧ s.pw.est ≠ []) ∧
      let sum := (s.pw.est.map fun e => e.1 + e.2).sum
      let cap := s.val .PW_PCAP []
      cap * s.pw.est.length < sum) ∧
    (∃ s : State, (s.isSplit = false ∧ s.pw.est ≠ []) ∧
      let sum := (s.pw.est.map fun e => e.1 + e.2).sum
      let cap := s.val .PW_PCAP []
      sum ≤ cap * s.pw.est.length) :=
  ⟨⟨State.reset.modClk 0 fun x => { x with stretch := true }, 0, by decide +kernel⟩,
   ⟨0, by decide +kernel⟩,
   ⟨State.reset, 0, 440, by decide +kernel⟩,
   ⟨State.reset.modPw fun x => { x with hot := [0] }, 0, 440, by decide +kernel⟩,
   ⟨((State.reset.setFld .PW_THERM [] PW_THERM_THROT 50).setVal .PW_TEMP [0] 400), 0, by decide +kernel⟩,
   ⟨State.reset.modClk 0 fun x => { x with therm := 1 }, 0, by decide +kernel⟩,
   ⟨State.reset, 0, false, by decide +kernel⟩,
   ⟨((State.reset.setFld .PW_THERM [] PW_THERM_THROT 50).setVal .PW_TEMP [192] 400), 0, by decide +kernel⟩,
   ⟨721, 0, by decide +kernel⟩,
   ⟨0, 0, by decide +kernel⟩,
   ⟨(State.reset.setVal .PW_PCAP [] 10).modPw fun x => { x with est := [(20, 0)] }, by decide +kernel, by decide +kernel⟩,
   ⟨(State.reset.setVal .PW_PCAP [] 10).modPw fun x => { x with est := [(10, 0)] }, by decide +kernel, by decide +kernel⟩⟩

theorem test_met_StartPhaseCommandsHaveTheirEffects :
    (∃ s : State, s.boot.porst = false ∧ s.boot.sysrstLow = false ∧ s.boot.aonFault = false) ∧
    (∃ s : State, s.boot.porst = true ∧ s.boot.aonFault = false ∧ s.boot.sysrstLow = true ∧ s.fld .BU_STATUS [] BU_STATUS_STATE = 0 ∧ s.fld
        .BU_STATUS [] BU_STATUS_PHASE = 0 ∧ s.fld .BU_STATUS [] BU_STATUS_REASON = 0) ∧
    (∃ s : State, s.resetHeld = false ∧
      let ph := s.fld .BU_STATUS [] BU_STATUS_PHASE
      ph = 1 ∧ s.boot.cold = true ∧ s.coolEnough = false) ∧
    (∃ s : State, s.resetHeld = false ∧
      let ph := s.fld .BU_STATUS [] BU_STATUS_PHASE
      ph = 1 ∧ s.coolEnough = true) ∧
    (∃ s : State, ∃ facts : List BootFact, s.resetHeld = false ∧
      let ph := s.fld .BU_STATUS [] BU_STATUS_PHASE
      ph = 2 ∧ facts.contains .flashBad = true) ∧
    (∃ s : State, ∃ us : Nat, ∃ facts : List BootFact, s.resetHeld = false ∧
      let ph := s.fld .BU_STATUS [] BU_STATUS_PHASE
      let u := s.modBoot fun b => { b with tboot := b.tboot + us }
      ph = 2 ∧ facts.contains .flashBad = false ∧ u.sec.state ≠ 4) ∧
    (∃ s : State, ∃ facts : List BootFact, s.resetHeld = false ∧
      let ph := s.fld .BU_STATUS [] BU_STATUS_PHASE
      ph = 3 ∧ facts.contains .fuseBad = true) ∧
    (∃ s : State, ∃ us : Nat, ∃ facts : List BootFact, s.resetHeld = false ∧
      let ph := s.fld .BU_STATUS [] BU_STATUS_PHASE
      let u := s.modBoot fun b => { b with tboot := b.tboot + us }
      ph = 3 ∧ facts.contains .fuseBad = false ∧ u.sec.huk ≠ []) ∧
    (∃ s : State, s.resetHeld = false ∧
      let ph := s.fld .BU_STATUS [] BU_STATUS_PHASE
      ph = 4) ∧
    (∃ s : State, ∃ facts : List BootFact, s.resetHeld = false ∧
      let ph := s.fld .BU_STATUS [] BU_STATUS_PHASE
      ph = 5 ∧ facts.contains .westBackbone = false) ∧
    (∃ s : State, s.resetHeld = false ∧
      let ph := s.fld .BU_STATUS [] BU_STATUS_PHASE
      ph = 6) ∧
    (∃ s : State, s.resetHeld = false ∧
      let ph := s.fld .BU_STATUS [] BU_STATUS_PHASE
      ph = 7) ∧
    (∃ s : State, s.resetHeld = false ∧
      let ph := s.fld .BU_STATUS [] BU_STATUS_PHASE
      ph = 8) ∧
    (∃ s : State, s.resetHeld = false ∧
      let ph := s.fld .BU_STATUS [] BU_STATUS_PHASE
      ph = 9) ∧
    (∃ s : State, ∃ c : Fin 96, ∃ k : Fin 19, s.fld .BU_STATUS [] BU_STATUS_PHASE = 7 ∧ s.fencedEng c.val k.val = false ∧ s.domOn c.val = true) :=
  ⟨⟨State.reset, by decide +kernel⟩,
   ⟨(phase 0).modBoot fun b => { b with sysrstLow := true }, by decide +kernel⟩,
   ⟨((phase 1).modBoot fun b => { b with cold := true }).setVal .PW_TEMP [0] 381, by decide +kernel, by decide +kernel⟩,
   ⟨(phase 1).modBoot fun b => { b with cold := true }, by decide +kernel, by decide +kernel⟩,
   ⟨phase 2, [.flashBad], by decide +kernel, by decide +kernel⟩,
   ⟨phase 2, 0, [], by decide +kernel, by decide +kernel⟩,
   ⟨phase 3, [.fuseBad], by decide +kernel, by decide +kernel⟩,
   ⟨(phase 3).modSec fun x => { x with huk := [0] }, 0, [], by decide +kernel, by decide +kernel⟩,
   ⟨phase 4, by decide +kernel, by decide +kernel⟩,
   ⟨phase 5, [], by decide +kernel, by decide +kernel⟩,
   ⟨phase 6, by decide +kernel, by decide +kernel⟩,
   ⟨phase 7, by decide +kernel, by decide +kernel⟩,
   ⟨phase 8, by decide +kernel, by decide +kernel⟩,
   ⟨phase 9, by decide +kernel, by decide +kernel⟩,
   ⟨phase 7, 0, 0, by decide +kernel⟩⟩

theorem test_met_ResetAndSelfTestCommandsHaveTheirEffects :
    (∃ s : State, ∃ req : Requester, ∃ v : Word, s.Reached req .BU_RST [] ∧
      let t := bitsOf v.toNat 12 12
      s.rsts ≠ [] ∧ rstReserved 0 t = false ∧ s.rstWriter 0 t req = true) ∧
    (∃ s : State, ∃ req : Requester, ∃ v : Word, s.Reached req .BU_RST [] ∧
      let t := bitsOf v.toNat 12 12
      s.rsts ≠ [] ∧ rstReserved 1 t = false ∧ s.rstWriter 1 t req = true) ∧
    (∃ s : State, ∃ req : Requester, ∃ v : Word, s.Reached req .BU_RST [] ∧
      let t := bitsOf v.toNat 12 12
      s.rsts ≠ [] ∧ rstReserved 2 t = false ∧ s.rstWriter 2 t req = true) ∧
    (∃ s : State, ∃ req : Requester, ∃ v : Word, s.Reached req .BU_RST [] ∧
      let t := bitsOf v.toNat 12 12
      s.rsts = [] ∧ rstReserved 0 t = false ∧ s.rstWriter 0 t req = true) ∧
    (∃ s : State, ∃ req : Requester, ∃ v : Word, s.Reached req .BU_RST [] ∧
      let t := bitsOf v.toNat 12 12
      s.rsts = [] ∧ rstReserved 1 t = false ∧ s.rstWriter 1 t req = true) ∧
    (∃ s : State, ∃ req : Requester, ∃ v : Word, s.Reached req .BU_RST [] ∧
      let t := bitsOf v.toNat 12 12
      s.rsts = [] ∧ rstReserved 2 t = false ∧ s.rstWriter 2 t req = true) ∧
    (∃ s : State, ∃ req : Requester, ∃ v : Word, s.Reached req .BU_RST [] ∧
      let t := bitsOf v.toNat 12 12
      rstReserved 1 t = false ∧ s.rstWriter 1 t req = false) ∧
    (∃ s : State, ∃ req : Requester, ∃ v : Word, s.Reached req .BU_RST [] ∧
      let t := bitsOf v.toNat 12 12
      t = 0 ∧ s.rstWriter 3 0 req = true) ∧
    (∃ s : State, s.resetHeld = false) ∧
    (∃ s : State, ∃ r : Rst, ∃ rest : List Rst, s.rsts = r :: rest ∧ (∀ n, n ∈ s.rstDomains r → s.domOn n = true)) ∧
    (∃ s : State, ∃ r : Rst, ∃ rest : List Rst, s.rsts = r :: rest ∧ ∃ n, n ∈ s.rstDomains r ∧ s.domOn n = false) ∧
    (∃ s : State, ∃ req : Requester, ∃ v : Word, s.Reached req .BU_BIST_CTRL [] ∧
      let c := v.toNat % 128
      c < 96 ∧ s.rstWriter 1 c req = true ∧ s.bistRuns c = false ∧ s.bistReady c = false) ∧
    (∃ s : State, ∃ req : Requester, ∃ v : Word, s.Reached req .BU_BIST_CTRL [] ∧
      let c := v.toNat % 128
      (c < 96 ∧ s.rstWriter 1 c req = true ∧ s.bistRuns c = false) ∧ ∃ p, s.bistReady c = true ∧ s.partOfCluster c = some p ∧ s.inRegion p (s.val
        .BU_BIST_SAVE [c]) 17825792 = true) ∧
    (∃ s : State, ∃ c : Fin 96, s.bistState c.val = 1 ∧ (s.getBist c.val).off = false) ∧
    (∃ s : State, ∃ c : Fin 96, s.bistState c.val = 1 ∧ s.bit .CK_VID [halfOf c.val] CK_VID_OK = true ∧ s.domOn c.val = true ∧ (s.getBist c.val).off
        = false ∧ (s.getBist c.val).held = false) ∧
    (∃ s : State, ∃ c : Fin 96, s.bistState c.val = 2) ∧
    (∃ s : State, ∃ c : Fin 96, s.bistState c.val = 3 ∧ (s.getBist c.val).off = false ∧ (s.getBist c.val).held = false) ∧
    (∃ s : State, ∃ c : Fin 96, s.bistState c.val = 4) :=
  ⟨⟨{ pt with rsts := [{}] }, .steward 0, 0, by unfold State.Reached; decide +kernel, by decide +kernel⟩,
   ⟨{ pt with rsts := [{}] }, .steward 0, 0, by unfold State.Reached; decide +kernel, by decide +kernel⟩,
   ⟨{ pt with rsts := [{}] }, .steward 0, 0, by unfold State.Reached; decide +kernel, by decide +kernel⟩,
   ⟨State.reset, .steward 0, 0, by unfold State.Reached; decide +kernel, by decide +kernel⟩,
   ⟨State.reset, .steward 0, 0, by unfold State.Reached; decide +kernel, by decide +kernel⟩,
   ⟨State.reset, .steward 0, 0, by unfold State.Reached; decide +kernel, by decide +kernel⟩,
   ⟨State.reset, .port 0, 0, by unfold State.Reached; decide +kernel, by decide +kernel⟩,
   ⟨State.reset, .steward 0, 0, by unfold State.Reached; decide +kernel, by decide +kernel⟩,
   ⟨phase 1, by decide +kernel⟩,
   ⟨{ State.reset with rsts := [{ scope := 2 }] }, { scope := 2 }, [], by decide +kernel⟩,
   ⟨{ (State.reset.setFld .PW_STAT [0] PW_STAT_STATE 1) with rsts := [{ scope := 1 }] }, { scope := 1 }, [], by decide +kernel, (0 : Nat),
     by decide +kernel⟩,
   ⟨gs, .steward 0, 0, by unfold State.Reached; decide +kernel, by decide +kernel⟩,
   ⟨withRam pt, .steward 0, 0, by unfold State.Reached; decide +kernel, by decide +kernel, (0 : Nat), by decide +kernel⟩,
   ⟨State.reset.setFld .BU_BISTSTAT [0] BU_BISTSTAT_STATE 1, 0, by decide +kernel⟩,
   ⟨State.reset.setFld .BU_BISTSTAT [0] BU_BISTSTAT_STATE 1, 0, by decide +kernel⟩,
   ⟨State.reset.setFld .BU_BISTSTAT [0] BU_BISTSTAT_STATE 2, 0, by decide +kernel⟩,
   ⟨State.reset.setFld .BU_BISTSTAT [0] BU_BISTSTAT_STATE 3, 0, by decide +kernel⟩,
   ⟨State.reset.setFld .BU_BISTSTAT [0] BU_BISTSTAT_STATE 4, 0, by decide +kernel⟩⟩

theorem test_met_RecoveryCommandsHaveTheirEffects :
    (∃ s : State, ∃ n : Fin 8, ∃ t : Fin 17, ∃ x : Cmd, s.nextCmd n.val t.val = some x ∧ s.mayStart n.val x = true ∧ s.portOn n.val = true ∧ x.op =
        0x20) ∧
    (∃ s : State, ∃ n : Fin 8, ∃ t : Fin 17, ∃ x : Cmd, (s.nextCmd n.val t.val = some x ∧ s.mayStart n.val x = true ∧ s.portOn n.val = true) ∧
      let good := x.soff % 64 = 0 ∧ x.len % 64 = 0 ∧ 64 ≤ x.len ∧ bulkBase ≤ x.soff ∧ x.soff + x.len ≤ bulkEnd
      x.op = 0x21 ∧ good ∧ x.adr + x.len ≤ 2 ^ 29) ∧
    (∃ s : State, ∃ n : Fin 8, ∃ t : Fin 17, ∃ x : Cmd, s.nextCmd n.val t.val = some x ∧ s.mayStart n.val x = true ∧ s.portOn n.val = true ∧ x.op =
        0x21 ∧ 2 ^ 29 < x.adr + x.len) ∧
    (∃ s : State, ∃ n : Fin 8, ∃ t : Fin 17, ∃ x : Cmd, s.nextCmd n.val t.val = some x ∧ s.mayStart n.val x = true ∧ s.portOn n.val = true ∧ x.op =
        0x22 ∧ s.boot.entry = 0x0F03) ∧
    (∃ s : State, ∃ n : Fin 8, ∃ t : Fin 17, ∃ x : Cmd, s.nextCmd n.val t.val = some x ∧ s.mayStart n.val x = true ∧ s.portOn n.val = true ∧ x.op =
        0x22 ∧ s.boot.entry ≠ 0x0F03) ∧
    (∃ s : State, ∃ n : Fin 8, ∃ t : Fin 17, ∃ x : Cmd, (s.nextCmd n.val t.val = some x ∧ s.mayStart n.val x = true ∧ s.portOn n.val = true) ∧
      let good := x.soff % 64 = 0 ∧ x.len % 64 = 0 ∧ 64 ≤ x.len ∧ bulkBase ≤ x.soff ∧ x.soff + x.len ≤ bulkEnd
      x.op = 0x23 ∧ good) ∧
    (∃ s : State, ∃ n : Fin 8, ∃ t : Fin 17, ∃ x : Cmd, s.nextCmd n.val t.val = some x ∧ s.mayStart n.val x = true ∧ s.portOn n.val = true ∧ x.op =
        0x24 ∧ x.len % 64 = 0 ∧ 64 ≤ x.len ∧ x.len ≤ 7274496) ∧
    (∃ s : State, ∃ n : Fin 8, ∃ t : Fin 17, ∃ x : Cmd, (s.nextCmd n.val t.val = some x ∧ s.mayStart n.val x = true ∧ s.portOn n.val = true) ∧
      let good := x.soff % 64 = 0 ∧ x.len % 64 = 0 ∧ 64 ≤ x.len ∧ bulkBase ≤ x.soff ∧ x.soff + x.len ≤ bulkEnd
      x.op = 0x25 ∧ good) ∧
    (∃ s : State, ∃ a : Nat, mget s.flash a = 0) :=
  ⟨⟨pt.modGp 0 fun g => { g with cmds := [{ op := 0x20 }] }, 0, 0, { op := 0x20 }, by decide +kernel⟩,
   ⟨pt.modGp 0 fun g => { g with cmds := [{ op := 0x21, soff := bulkBase, len := 64 }] }, 0, 0, { op := 0x21, soff := bulkBase, len := 64 },
     by decide +kernel, by decide +kernel⟩,
   ⟨pt.modGp 0 fun g => { g with cmds := [{ op := 0x21, adr := 2 ^ 29, len := 64 }] }, 0, 0, { op := 0x21, adr := 2 ^ 29, len := 64 },
     by decide +kernel⟩,
   ⟨(pt.modBoot fun b => { b with entry := 0x0F03 }).modGp 0 fun g => { g with cmds := [{ op := 0x22 }] }, 0, 0, { op := 0x22 }, by decide +kernel⟩,
   ⟨pt.modGp 0 fun g => { g with cmds := [{ op := 0x22 }] }, 0, 0, { op := 0x22 }, by decide +kernel⟩,
   ⟨pt.modGp 0 fun g => { g with cmds := [{ op := 0x23, soff := bulkBase, len := 64 }] }, 0, 0, { op := 0x23, soff := bulkBase, len := 64 },
     by decide +kernel, by decide +kernel⟩,
   ⟨pt.modGp 0 fun g => { g with cmds := [{ op := 0x24, len := 64 }] }, 0, 0, { op := 0x24, len := 64 }, by decide +kernel⟩,
   ⟨pt.modGp 0 fun g => { g with cmds := [{ op := 0x25, soff := bulkBase, len := 64 }] }, 0, 0, { op := 0x25, soff := bulkBase, len := 64 },
     by decide +kernel, by decide +kernel⟩,
   ⟨State.reset, 0, by decide +kernel⟩⟩

theorem test_met_SecurityCommandsHaveTheirEffects :
    (∃ s : State, ∃ n : Fin 8, ∃ t : Fin 17, ∃ x : Cmd, s.nextCmd n.val t.val = some x ∧ s.mayStart n.val x = true ∧ s.portOn n.val = true ∧
        s.scPermit n.val x.op = false ∧ x.op = 0x40) ∧
    (∃ s : State, ∃ n : Fin 8, ∃ t : Fin 17, ∃ x : Cmd, s.nextCmd n.val t.val = some x ∧ s.mayStart n.val x = true ∧ s.portOn n.val = true ∧
        s.scPermit n.val x.op = false ∧ x.op = 0x41) ∧
    (∃ s : State, ∃ n : Fin 8, ∃ t : Fin 17, ∃ x : Cmd, s.nextCmd n.val t.val = some x ∧ s.mayStart n.val x = true ∧ s.portOn n.val = true ∧
        s.scPermit n.val x.op = false ∧ x.op = 0x42) ∧
    (∃ s : State, ∃ n : Fin 8, ∃ t : Fin 17, ∃ x : Cmd, s.nextCmd n.val t.val = some x ∧ s.mayStart n.val x = true ∧ s.portOn n.val = true ∧
        s.scPermit n.val x.op = false ∧ x.op = 0x43) ∧
    (∃ s : State, ∃ n : Fin 8, ∃ t : Fin 17, ∃ x : Cmd, s.nextCmd n.val t.val = some x ∧ s.mayStart n.val x = true ∧ s.portOn n.val = true ∧
        s.scPermit n.val x.op = false ∧ x.op = 0x44) ∧
    (∃ s : State, ∃ n : Fin 8, ∃ t : Fin 17, ∃ x : Cmd, s.nextCmd n.val t.val = some x ∧ s.mayStart n.val x = true ∧ s.portOn n.val = true ∧
        s.scPermit n.val x.op = false ∧ x.op = 0x45) ∧
    (∃ s : State, ∃ n : Fin 8, ∃ t : Fin 17, ∃ x : Cmd, s.nextCmd n.val t.val = some x ∧ s.mayStart n.val x = true ∧ s.portOn n.val = true ∧
        s.scPermit n.val x.op = false ∧ x.op = 0x46) ∧
    (∃ s : State, ∃ n : Fin 8, ∃ t : Fin 17, ∃ x : Cmd, s.nextCmd n.val t.val = some x ∧ s.mayStart n.val x = true ∧ s.portOn n.val = true ∧
        s.scPermit n.val x.op = false ∧ x.op = 0x47) ∧
    (∃ s : State, ∃ n : Fin 8, ∃ t : Fin 17, ∃ x : Cmd, s.nextCmd n.val t.val = some x ∧ s.mayStart n.val x = true ∧ s.portOn n.val = true ∧
        s.scPermit n.val x.op = true ∧ x.op = 0x40) ∧
    (∃ s : State, ∃ n : Fin 8, ∃ t : Fin 17, ∃ x : Cmd, (s.nextCmd n.val t.val = some x ∧ s.mayStart n.val x = true ∧ s.portOn n.val = true) ∧
      let good := x.soff % 64 = 0 ∧ bulkBase ≤ x.soff ∧ x.soff + x.len ≤ bulkEnd
      s.scPermit n.val x.op = true ∧ x.op = 0x41 ∧ x.len = 2624 ∧ good) ∧
    (∃ s : State, ∃ n : Fin 8, ∃ t : Fin 17, ∃ x : Cmd, (s.nextCmd n.val t.val = some x ∧ s.mayStart n.val x = true ∧ s.portOn n.val = true) ∧
      let good := x.soff % 64 = 0 ∧ bulkBase ≤ x.soff ∧ x.soff + x.len ≤ bulkEnd
      s.scPermit n.val x.op = true ∧ x.op = 0x42 ∧ s.boot.chain ≠ [] ∧ fit 64 (sha3 s.boot.chain) = s.sec.certhash ∧ x.len % 64 = 0 ∧ 64 ≤ x.len ∧
        good ∧ (s.boot.chain.length + 63) / 64 * 64 ≤ x.len) ∧
    (∃ s : State, ∃ n : Fin 8, ∃ t : Fin 17, ∃ x : Cmd, s.nextCmd n.val t.val = some x ∧ s.mayStart n.val x = true ∧ s.portOn n.val = true ∧
        s.scPermit n.val x.op = true ∧ x.op = 0x42 ∧ fit 64 (sha3 s.boot.chain) ≠ s.sec.certhash) ∧
    (∃ s : State, ∃ n : Fin 8, ∃ t : Fin 17, ∃ x : Cmd, (s.nextCmd n.val t.val = some x ∧ s.mayStart n.val x = true ∧ s.portOn n.val = true) ∧
      let good := x.soff % 64 = 0 ∧ bulkBase ≤ x.soff ∧ x.soff + x.len ≤ bulkEnd
      s.scPermit n.val x.op = true ∧ x.op = 0x43 ∧ x.len = 4992 ∧ good ∧ s.sec.rngBad = false) ∧
    (∃ s : State, ∃ n : Fin 8, ∃ t : Fin 17, ∃ x : Cmd, (s.nextCmd n.val t.val = some x ∧ s.mayStart n.val x = true ∧ s.portOn n.val = true) ∧
      let good := x.soff % 64 = 0 ∧ bulkBase ≤ x.soff ∧ x.soff + x.len ≤ bulkEnd
      s.scPermit n.val x.op = true ∧ x.op = 0x43 ∧ x.len = 4992 ∧ good ∧ s.sec.rngBad = true) ∧
    (∃ s : State, ∃ n : Fin 8, ∃ t : Fin 17, ∃ x : Cmd, (s.nextCmd n.val t.val = some x ∧ s.mayStart n.val x = true ∧ s.portOn n.val = true) ∧
      let good := x.soff % 64 = 0 ∧ bulkBase ≤ x.soff ∧ x.soff + x.len ≤ bulkEnd
      s.scPermit n.val x.op = true ∧ x.op = 0x44 ∧ x.len = 64 ∧ good ∧ s.sec.rngBad = false) ∧
    (∃ s : State, ∃ n : Fin 8, ∃ t : Fin 17, ∃ x : Cmd, s.nextCmd n.val t.val = some x ∧ s.mayStart n.val x = true ∧ s.portOn n.val = true ∧
        s.scPermit n.val x.op = true ∧ x.op = 0x46 ∧ s.sec.floor < x.data % 256 ∧ x.data % 256 ≤ s.boot.version / 2 ^ 56) ∧
    (∃ s : State, ∃ n : Fin 8, ∃ t : Fin 17, ∃ x : Cmd, s.nextCmd n.val t.val = some x ∧ s.mayStart n.val x = true ∧ s.portOn n.val = true ∧
        s.scPermit n.val x.op = true ∧ x.op = 0x46 ∧ (x.data % 256 ≤ s.sec.floor ∨ s.boot.version / 2 ^ 56 < x.data % 256)) ∧
    (∃ s : State, ∃ n : Fin 8, ∃ t : Fin 17, ∃ x : Cmd, (s.nextCmd n.val t.val = some x ∧ s.mayStart n.val x = true ∧ s.portOn n.val = true) ∧
      let good := x.soff % 64 = 0 ∧ bulkBase ≤ x.soff ∧ x.soff + x.len ≤ bulkEnd
      s.scPermit n.val x.op = true ∧ x.op = 0x47 ∧ s.sec.seed = [] ∧ x.len = 2624 ∧ good ∧ s.sec.rngBad = false) ∧
    (∃ s : State, ∃ n : Fin 8, ∃ t : Fin 17, ∃ x : Cmd, s.nextCmd n.val t.val = some x ∧ s.mayStart n.val x = true ∧ s.portOn n.val = true ∧
        s.scPermit n.val x.op = true ∧ x.op = 0x47 ∧ s.sec.seed ≠ []) ∧
    (∃ s : State, ∃ n : Fin 8, ∃ t : Fin 17, ∃ x : Cmd, (s.nextCmd n.val t.val = some x ∧ s.mayStart n.val x = true ∧ s.portOn n.val = true) ∧
      let good := x.soff % 64 = 0 ∧ bulkBase ≤ x.soff ∧ x.soff + x.len ≤ bulkEnd
      s.scPermit n.val x.op = true ∧ x.op = 0x45 ∧ (x.len = 5184 ∨ x.len = 7808) ∧ good) ∧
    (∃ code : Nat, 0x1000 ≤ code) :=
  ⟨⟨pt.modGp 0 fun g => { g with cmds := [{ op := 0x40 }] }, 0, 0, { op := 0x40 }, by decide +kernel⟩,
   ⟨pt.modGp 0 fun g => { g with cmds := [{ op := 0x41 }] }, 0, 0, { op := 0x41 }, by decide +kernel⟩,
   ⟨pt.modGp 0 fun g => { g with cmds := [{ op := 0x42 }] }, 0, 0, { op := 0x42 }, by decide +kernel⟩,
   ⟨pt.modGp 0 fun g => { g with cmds := [{ op := 0x43 }] }, 0, 0, { op := 0x43 }, by decide +kernel⟩,
   ⟨pt.modGp 0 fun g => { g with cmds := [{ op := 0x44 }] }, 0, 0, { op := 0x44 }, by decide +kernel⟩,
   ⟨pt.modGp 0 fun g => { g with cmds := [{ op := 0x45 }] }, 0, 0, { op := 0x45 }, by decide +kernel⟩,
   ⟨pt.modGp 0 fun g => { g with cmds := [{ op := 0x46 }] }, 0, 0, { op := 0x46 }, by decide +kernel⟩,
   ⟨pt.modGp 0 fun g => { g with cmds := [{ op := 0x47 }] }, 0, 0, { op := 0x47 }, by decide +kernel⟩,
   ⟨(pt.setFld .GP_MAP [0] GP_MAP_EN 1).modGp 0 fun g => { g with cmds := [{ op := 0x40 }] }, 0, 0, { op := 0x40 }, by decide +kernel⟩,
   ⟨((pt.setFld .GP_MAP [0] GP_MAP_EN 1).modSec fun x => { x with seed := [0] }).modGp 0 fun g =>
     { g with cmds := [{ op := 0x41, soff := bulkBase, len := 2624 }] }, 0, 0, { op := 0x41, soff := bulkBase, len := 2624 }, by decide +kernel,
     by decide +kernel⟩,
   ⟨((((pt.setFld .GP_MAP [0] GP_MAP_EN 1).modSec fun x => { x with seed := [0] }).modSec fun x => { x with certhash := fit 64 (sha3 [0]) }).modBoot
     fun b => { b with chain := [0] }).modGp 0 fun g => { g with cmds := [{ op := 0x42, soff := bulkBase, len := 64 }] }, 0, 0,
     { op := 0x42, soff := bulkBase, len := 64 }, by decide +kernel, by decide +kernel⟩,
   ⟨((pt.setFld .GP_MAP [0] GP_MAP_EN 1).modSec fun x => { x with seed := [0] }).modGp 0 fun g => { g with cmds := [{ op := 0x42 }] }, 0, 0,
     { op := 0x42 }, by decide +kernel⟩,
   ⟨((pt.setFld .GP_MAP [0] GP_MAP_EN 1).modSec fun x => { x with seed := [0] }).modGp 0 fun g =>
     { g with cmds := [{ op := 0x43, soff := bulkBase, len := 4992 }] }, 0, 0, { op := 0x43, soff := bulkBase, len := 4992 }, by decide +kernel,
     by decide +kernel⟩,
   ⟨((pt.setFld .GP_MAP [0] GP_MAP_EN 1).modSec fun x => { x with seed := [0], rngBad := true }).modGp 0 fun g =>
     { g with cmds := [{ op := 0x43, soff := bulkBase, len := 4992 }] }, 0, 0, { op := 0x43, soff := bulkBase, len := 4992 }, by decide +kernel,
     by decide +kernel⟩,
   ⟨(pt.setVal .GP_ADMIN [] 1).modGp 0 fun g => { g with cmds := [{ op := 0x44, soff := bulkBase, len := 64 }] }, 0, 0,
     { op := 0x44, soff := bulkBase, len := 64 }, by decide +kernel, by decide +kernel⟩,
   ⟨((pt.setVal .GP_ADMIN [] 1).modBoot fun b => { b with version := 2 ^ 56 }).modGp 0 fun g => { g with cmds := [{ op := 0x46, data := 1 }] }, 0,
     0, { op := 0x46, data := 1 }, by decide +kernel⟩,
   ⟨(pt.setVal .GP_ADMIN [] 1).modGp 0 fun g => { g with cmds := [{ op := 0x46 }] }, 0, 0, { op := 0x46 }, by decide +kernel⟩,
   ⟨(pt.setVal .GP_ADMIN [] 1).modGp 0 fun g => { g with cmds := [{ op := 0x47, soff := bulkBase, len := 2624 }] }, 0, 0,
     { op := 0x47, soff := bulkBase, len := 2624 }, by decide +kernel, by decide +kernel⟩,
   ⟨((pt.setVal .GP_ADMIN [] 1).modSec fun x => { x with seed := [0] }).modGp 0 fun g => { g with cmds := [{ op := 0x47 }] }, 0, 0, { op := 0x47 },
     by decide +kernel⟩,
   ⟨(pt.setVal .GP_ADMIN [] 1).modGp 0 fun g => { g with cmds := [{ op := 0x45, soff := bulkBase, len := 5184 }] }, 0, 0,
     { op := 0x45, soff := bulkBase, len := 5184 }, by decide +kernel, by decide +kernel⟩,
   ⟨0x1001, by decide +kernel⟩⟩

theorem test_met_LifeCycleStateFollowsTheCount :
    (∃ x : Sec, x.lc.testBit 31 = true) ∧
    (∃ x : Sec, x.lc.testBit 31 = false ∧ x.count = 0) ∧
    (∃ x : Sec, x.lc.testBit 31 = false ∧ x.count = 1) ∧
    (∃ x : Sec, x.lc.testBit 31 = false ∧ 2 ≤ x.count ∧ x.count ≤ 30 ∧ x.count % 2 = 0) ∧
    (∃ x : Sec, x.lc.testBit 31 = false ∧ 3 ≤ x.count ∧ x.count ≤ 29 ∧ x.count % 2 = 1) ∧
    (∃ x : Sec, x.lc.testBit 31 = false ∧ 31 ≤ x.count) ∧
    (∃ x : Sec, ∃ i, i < x.count) ∧
    (∃ x : Sec, x.count < 32) ∧
    (∃ x : Sec, ∃ n : Nat, n ≤ 32 ∧ x.lc = 2 ^ n - 1) :=
  ⟨⟨{ lc := 2 ^ 31 }, by decide +kernel⟩,
   ⟨{ lc := 0 }, by decide +kernel⟩,
   ⟨{ lc := 1 }, by decide +kernel⟩,
   ⟨{ lc := 2 ^ 30 - 1 }, by decide +kernel⟩,
   ⟨{ lc := 2 ^ 29 - 1 }, by decide +kernel⟩,
   ⟨{ lc := 2 ^ 31 - 1 }, by decide +kernel⟩,
   ⟨{ lc := 1 }, (0 : Nat), by decide +kernel⟩,
   ⟨{}, by decide +kernel⟩,
   ⟨{ lc := 2 ^ 32 - 1 }, 32, by decide +kernel⟩⟩

theorem test_met_CounterAndTraceCommandsHaveTheirEffects :
    (∃ s : State,
      let us := if s.pcs.win = 0 then 1000 else s.pcs.win
      let k := s.val .PC_WINNO []
      let u := s.modPcs fun p => { p with prev := p.snap, snap := s.counters, win := s.fld .PC_WIN [] PC_WIN_WINUS }
      let u := u.each u.mirrorPorts fun s n => s.stagPoke n 0xF00040 (s.derivedAll n k us)
      u.pcs.busy = true) ∧
    (∃ s : State,
      let us := if s.pcs.win = 0 then 1000 else s.pcs.win
      let k := s.val .PC_WINNO []
      let u := s.modPcs fun p => { p with prev := p.snap, snap := s.counters, win := s.fld .PC_WIN [] PC_WIN_WINUS }
      let u := u.each u.mirrorPorts fun s n => s.stagPoke n 0xF00040 (s.derivedAll n k us)
      u.pcs.busy = false) ∧
    (∃ s : State, s.pcs.busy = true) ∧
    (∃ s : State, s.pcs.busy = false) ∧
    (∃ s : State, ∃ req : Requester, ∃ v : Word, s.Reached req .PC_WIN [] ∧ s.pwWriter req none = true ∧ 1 ≤ v.toNat % 2 ^ 20 ∧ v.toNat % 2 ^ 20 ≤
        1000000) ∧
    (∃ s : State, ∃ req : Requester, ∃ v : Word, s.Reached req .PC_WIN [] ∧ (s.pwWriter req none = false ∨ v.toNat % 2 ^ 20 = 0 ∨ 1000000 < v.toNat
        % 2 ^ 20)) ∧
    (∃ s : State, ∃ req : Requester, s.Reached req .PC_RAKE [] ∧ s.pwWriter req none = true ∧ s.pcs.rakes = []) ∧
    (∃ s : State, ∃ req : Requester, s.Reached req .PC_RAKE [] ∧ s.pwWriter req none = true ∧ s.pcs.rakes ≠ []) ∧
    (∃ s : State, ∃ cause : Nat, s.pcs.rakes = [(cause, 0)]) ∧
    (∃ s : State, ∃ req : Requester, ∃ p : Fin 8,
        s.Reached req .PC_TRCFG [p.val] ∧ (match req with | .port n => s.isAdmin n.val || s.partOfPort n.val == some p.val | .engine _ _ => false | _ => true) = true ∧ s.checking (.trcfg p.val) = false ∧ s.bit .PC_TRCFG [p.val] PC_TRCFG_EN = false) ∧
    (∃ s : State, ∃ req : Requester, ∃ p : Fin 8,
        s.Reached req .PC_TRCFG [p.val] ∧ (match req with | .port n => s.isAdmin n.val || s.partOfPort n.val == some p.val | .engine _ _ => false | _ => true) = true ∧ s.checking (.trcfg p.val) = false ∧ s.bit .PC_TRCFG [p.val] PC_TRCFG_EN = true) ∧
    (∃ s : State, ∃ req : Requester, ∃ c : Fin 96, s.Reached req .PC_TRRING [c.val] ∧ s.checking (.trring c.val) = false ∧ s.bit .PC_TRRING [c.val]
        PC_TRRING_EN = false) ∧
    (∃ s : State, ∃ k : ArbAt, ∃ a : Nat, ∃ l : List (Nat × Bool), ∃ r : List (Nat × Bool), ∃ e : Nat, s.getArb (arbKey k) =
        { s.getArb (arbKey k) with resv := a + 1, wait := l ++ (a, false) :: (e, false) :: r } ∧ (∀ w ∈ l, w.1 ≠ a)) :=
  ⟨⟨State.reset.modPcs fun p => { p with busy := true }, by decide +kernel⟩,
   ⟨State.reset, by decide +kernel⟩,
   ⟨State.reset.modPcs fun p => { p with busy := true }, by decide +kernel⟩,
   ⟨State.reset, by decide +kernel⟩,
   ⟨State.reset, .steward 0, 1, by unfold State.Reached; decide +kernel⟩,
   ⟨State.reset, .steward 0, 0, by unfold State.Reached; decide +kernel⟩,
   ⟨State.reset, .steward 0, by unfold State.Reached; decide +kernel⟩,
   ⟨State.reset.modPcs fun p => { p with rakes := [(0, 0)] }, .steward 0, by unfold State.Reached; decide +kernel⟩,
   ⟨State.reset.modPcs fun p => { p with rakes := [(0, 0)] }, 0, by decide +kernel⟩,
   ⟨State.reset, .steward 0, 0, by unfold State.Reached; decide +kernel⟩,
   ⟨State.reset.setFld .PC_TRCFG [0] PC_TRCFG_EN 1, .steward 0, 0, by unfold State.Reached; decide +kernel⟩,
   ⟨State.reset, .steward 0, 0, by unfold State.Reached; decide +kernel⟩,
   ⟨State.reset.modArb 0 fun x => { x with resv := 1, wait := [(0, false), (3, false)] }, .memory 0, 0, [], [], 3, by decide +kernel⟩⟩

theorem test_met_StepTakesTheCommandAtTheFront :
    (∃ s : State, s.pending = []) :=
  ⟨State.reset, by decide +kernel⟩

theorem test_met_CommandsLeaveTheQueueAsItWas :
    (∃ c : Instr, ∃ s : State, ∃ t : State, exec c s = .next t) ∧
    (∃ s : State, ∃ t : State, ∃ c : Instr, ∃ rest : List Instr, s.pending = c :: rest ∧ step s = .next t) :=
  ⟨⟨.tbPeriodExpiry 0, ticks, ticks.tbExpire 0, rfl⟩,
   ⟨{ ticks with pending := [.tbPeriodExpiry 0] }, ticks.tbExpire 0, .tbPeriodExpiry 0, [], by decide +kernel, rfl⟩⟩

theorem test_met_WellFormedCommandsAnswerANextState :
    (∃ c : Instr, c.wf = true) ∧
    (∃ c : Instr, c.wf = false) :=
  ⟨⟨.cnWrite 0 0 (List.replicate 14 0) ⟨[], []⟩, by decide +kernel⟩,
   ⟨.cnWrite 0 0 (List.replicate 15 0) ⟨[], []⟩, by decide +kernel⟩⟩

theorem test_met_CommandsChangeOnlyTheirParts :
    (∃ c : Instr, ∃ s : State, ∃ t : State, exec c s = .next t) :=
  ⟨.tbPeriodExpiry 0, ticks, ticks.tbExpire 0, rfl⟩

theorem test_met_EveryStepKeepsTheCanonicalForm :
    (∃ s : State, ∃ t : State, s.Wf ∧ step s = .next t) :=
  ⟨{ ticks with pending := [.tbPeriodExpiry 0] }, ticks.tbExpire 0, ticks_wf, rfl⟩

theorem test_met_BurnedFusesStayBurned :
    (∃ s : State, ∃ t : State, step s = .next t) :=
  ⟨{ ticks with pending := [.tbPeriodExpiry 0] }, ticks.tbExpire 0, rfl⟩

theorem test_met_ADecommissionedDeviceStaysSo :
    (∃ s : State, ∃ t : State, s.sec.state = 4 ∧ step s = .next t) :=
  ⟨({ ticks with pending := [.tbPeriodExpiry 0] } : State).modSec fun x => { x with lc := 2 ^ 31 }, (ticks.modSec fun x =>
      { x with lc := 2 ^ 31 }).tbExpire 0, by decide +kernel, rfl⟩

theorem test_met_FreeValuesAreNeverDrawnTwice :
    (∃ s : State, ∃ t : State, step s = .next t) :=
  ⟨{ ticks with pending := [.tbPeriodExpiry 0] }, ticks.tbExpire 0, rfl⟩

theorem test_met_OnlyFlashCommandsWriteTheFlash :
    (∃ c : Instr, ∃ s : State, ∃ t : State, (∀ n x, c ≠ .flashErase n x ∧ c ≠ .flashProgram n x) ∧ exec c s = .next t) :=
  ⟨.tbPeriodExpiry 0, ticks, ticks.tbExpire 0, (fun _ _ => ⟨nofun, nofun⟩), rfl⟩

theorem test_met_RegistersReadBackWhatWasWritten :
    (∃ r : Reg, ∃ idx : List Nat, ∃ r' : Reg, ∃ idx' : List Nat, r'.addr idx' ≠ r.addr idx) ∧
    (∃ s : State, mwf s.regs = true) ∧
    (∃ f : Fld, f.lo ≤ f.hi ∧ f.hi < 64) :=
  ⟨⟨.TB_CFG, [0], .TB_TARGET, [0], by decide +kernel⟩,
   ⟨ticks, by decide +kernel⟩,
   ⟨⟨63, 0⟩, by decide +kernel⟩⟩

theorem test_met_MemoryReadsBackWhatWasWritten :
    (∃ a : Nat, ∃ bs : List Byte, ∃ b, (b < a ∨ a + bs.length ≤ b)) ∧
    (∃ s : State, Memory.wf s.mem = true) ∧
    (∃ a : Nat, ∃ n : Nat, ∃ b, a ≤ b ∧ b < a + n) ∧
    (∃ a : Nat, ∃ n : Nat, ∃ b, (b < a ∨ a + n ≤ b)) :=
  ⟨⟨1, [7], (2 : Nat), by decide +kernel⟩,
   ⟨pt.pokeLE 0 1 5, by decide +kernel⟩,
   ⟨0, 1, (0 : Nat), by decide +kernel⟩,
   ⟨0, 1, (1 : Nat), by decide +kernel⟩⟩

theorem test_met_VectorStoresChangeOnlyTheirBytes :
    (∃ s₀ : State, ∃ c : Fin 96, ∃ v : Fin 2, ∃ bad : List Nat, ∃ x : Nat, ∃ w : Nat, s₀.Issues bad c.val v.val x 0x19 w) ∧
    (∃ s₀ : State, ∃ c : Fin 96, ∃ v : Fin 2, ∃ bad : List Nat, ∃ x : Nat, ∃ w : Nat, s₀.Issues bad c.val v.val x 0x1B w) :=
  ⟨⟨ins 1677721600, 0, 0, [], 0, 1677721600, by unfold State.Issues; decide +kernel⟩,
   ⟨ins 1811939328, 0, 0, [], 0, 1811939328, by unfold State.Issues; decide +kernel⟩⟩

theorem test_met_StrayAccessesReadZeroAndAreCounted :
    (∃ a : BitVec 48, producerLine a.toNat = false ∧ ∃ w : Width, (w = .w32 ∧ a.toNat % 4 = 0 ∨ w = .w64 ∧ a.toNat % 8 = 0) ∧ findReg a.toNat = none) ∧
    (∃ s : State, ∃ req : Requester, ∃ a : BitVec 48, producerLine a.toNat = false ∧ a.toNat % 4 ≠ 0 ∧ s.regReach req a.toNat false = true) ∧
    (∃ s : State, ∃ req : Requester, ∃ a : BitVec 48, producerLine a.toNat = false ∧ a.toNat % 4 ≠ 0 ∧ s.regReach req a.toNat true = true) ∧
    (∃ s : State, ∃ req : Requester, ∃ a : BitVec 48, producerLine a.toNat = false ∧ s.regReach req a.toNat false = false) ∧
    (∃ s : State, ∃ req : Requester, ∃ a : BitVec 48, producerLine a.toNat = false ∧ s.regReach req a.toNat true = false) ∧
    (∃ req : Requester, ∃ a : BitVec 48, producerLine a.toNat = false ∧ ∃ c, ∃ e, req = .engine c e) ∧
    (∃ req : Requester, ∃ a : BitVec 48, producerLine a.toNat = false ∧ ∃ n, req = .port n) :=
  ⟨⟨0xFE08FFFFF8, by decide +kernel, .w32, by decide +kernel⟩,
   ⟨State.reset, .steward 0, 1, by decide +kernel⟩,
   ⟨State.reset, .steward 0, 1, by decide +kernel⟩,
   ⟨State.reset, .engine 0 0, 0xFE08000001, by decide +kernel⟩,
   ⟨State.reset, .engine 0 0, 0xFE08000001, by decide +kernel⟩,
   ⟨.engine 0 0, 0xFE08FFFFF8, by decide +kernel, (0 : Fin 96), (0 : Fin 19), by decide +kernel⟩,
   ⟨.port 0, 0xFE08FFFFF8, by decide +kernel, (0 : Fin 8), by decide +kernel⟩⟩

theorem test_met_IllegalTransitionsCountNothing :
    (∃ s : State, ∃ m : Fin 8, ∃ a : Bool, ∃ b : Bool, s.fld .TB_IN_CFG [m.val] TB_IN_CFG_MODE = 1 ∧
      let old := s.tbiLevels m.val
      let new := s.tbiSeen m.val ((mget s.tbi m.val).pins / 4 * 4 + (if b then 2 else 0) + (if a then 1 else 0))
      old.testBit 0 ≠ new.testBit 0 ∧ old.testBit 1 ≠ new.testBit 1) :=
  ⟨State.reset.setFld .TB_IN_CFG [0] TB_IN_CFG_MODE 1, 0, true, true, by decide +kernel, by decide +kernel⟩

theorem test_met_HostTargetsOnlyRise :
    (∃ s : State, ∃ req : Requester, ∃ n : Fin 64, (s.Reached req .TB_TARGET [n.val] ∧ s.deviceUnitCode req (s.bit .TB_CFG [n.val] TB_CFG_EN) (s.fld
        .TB_CFG [n.val] TB_CFG_PART) none = 0 ∧ s.fld .TB_CFG [n.val] TB_CFG_SRC = 2) ∧ ∃ a : BitVec 48, a.toNat = Reg.TB_TARGET.place [n.val]) :=
  ⟨State.reset.setFld .TB_CFG [0] TB_CFG_SRC 2, .steward 0, 0, by unfold State.Reached; decide +kernel, BitVec.ofNat 48 (Reg.TB_TARGET.place [0]),
      by decide +kernel⟩

theorem test_met_HaltComesBeforeResume :
    (∃ v : Nat, v.testBit 0 = true ∧ v.testBit 1 = true) ∧
    (∃ s : State, ∃ req : Requester, ∃ g : Fin 256, s.Reached req .WG_CTRL [g.val] ∧ s.deviceUnitCode req (s.wgOn g.val) (s.wgPart g.val) none = 0 ∧
        s.wgState g.val ≠ wsHalted) :=
  ⟨⟨3, by decide +kernel⟩,
   ⟨State.reset, .steward 0, 0, by unfold State.Reached; decide +kernel⟩⟩

theorem test_met_AfterATripPowerAndClockWritesAreRefused :
    (∃ s : State, ∃ req : Requester, s.pw.tripped = true ∧ ∃ n : Fin 229, s.Reached req .PW_REQ [n.val]) ∧
    (∃ s : State, ∃ req : Requester, s.pw.tripped = true ∧ ∃ c : Fin 96, s.Reached req .CK_CORE [c.val]) ∧
    (∃ s : State, ∃ req : Requester, s.pw.tripped = true ∧ ∃ h : Fin 2, s.Reached req .CK_FAB [h.val]) ∧
    (∃ s : State, ∃ req : Requester, s.pw.tripped = true ∧ ∃ a : BitVec 48, s.Reached req .CK_DROOP [] ∧ a.toNat = Reg.CK_DROOP.place []) ∧
    (∃ s : State, s.pw.tripped = true) :=
  ⟨⟨State.reset.modPw fun x => { x with tripped := true }, .steward 0, by decide +kernel, 0, by unfold State.Reached; decide +kernel⟩,
   ⟨State.reset.modPw fun x => { x with tripped := true }, .steward 0, by decide +kernel, 0, by unfold State.Reached; decide +kernel⟩,
   ⟨State.reset.modPw fun x => { x with tripped := true }, .steward 0, by decide +kernel, 0, by unfold State.Reached; decide +kernel⟩,
   ⟨State.reset.modPw fun x => { x with tripped := true }, .steward 0, by decide +kernel, BitVec.ofNat 48 (Reg.CK_DROOP.place []),
     by unfold State.Reached; decide +kernel⟩,
   ⟨State.reset.modPw fun x => { x with tripped := true }, by decide +kernel⟩⟩

end Sys2Proof.Tests
end

section
/-! Facts about bit fields, register words, memory and little-endian numbers. -/

namespace Sys2Proof.Machine

/-! ## Bit fields -/

theorem Fld.get_lt (f : Fld) (w : DWord) : f.get w < 2 ^ (f.hi + 1 - f.lo) := Nat.mod_lt _ (Nat.two_pow_pos _)

@[simp] theorem Fld.get_mod (f : Fld) (w : DWord) : f.get w % 2 ^ (f.hi + 1 - f.lo) = f.get w := Nat.mod_eq_of_lt (f.get_lt w)

@[simp] theorem Fld.get_zero (f : Fld) : f.get 0#64 = 0 := by simp [Fld.get]

theorem Fld.get_testBit (f : Fld) (w : DWord) (i : Nat) :
    (f.get w).testBit i = (decide (i < f.hi + 1 - f.lo) && w.toNat.testBit (f.lo + i)) := by
  rw [Fld.get, Nat.testBit_mod_two_pow, Nat.testBit_shiftRight]

/-- The bits of a word after one of its fields is replaced. -/
theorem Fld.set_testBit (f : Fld) (w : DWord) (n : Nat) (hf : f.lo ≤ f.hi) {j : Nat} (hj : j < 64) :
    (f.set w n).toNat.testBit j = if f.lo ≤ j ∧ j ≤ f.hi then n.testBit (j - f.lo) else w.toNat.testBit j := by
  obtain ⟨k, hk⟩ : ∃ k, f.hi + 1 = f.lo + k := ⟨f.hi + 1 - f.lo, by omega⟩
  have hsum : w.toNat % 2 ^ f.lo + n % 2 ^ (f.hi + 1 - f.lo) * 2 ^ f.lo + (w.toNat >>> (f.hi + 1)) * 2 ^ (f.hi + 1)
      = 2 ^ f.lo * (2 ^ k * (w.toNat >>> (f.hi + 1)) + n % 2 ^ k) + w.toNat % 2 ^ f.lo := by
    rw [show f.hi + 1 - f.lo = k by omega, hk, pow_add]
    ring
  rw [Fld.set, BitVec.toNat_ofNat, Nat.testBit_mod_two_pow, hsum, Nat.testBit_two_pow_mul_add _ (Nat.mod_lt _ (Nat.two_pow_pos _)),
    Nat.testBit_two_pow_mul_add _ (Nat.mod_lt _ (Nat.two_pow_pos _)), Nat.testBit_mod_two_pow, Nat.testBit_mod_two_pow,
    Nat.testBit_shiftRight, decide_eq_true hj, Bool.true_and]
  by_cases hlo : j < f.lo
  · rw [if_pos hlo, if_neg (by omega), decide_eq_true hlo, Bool.true_and]
  · by_cases hhi : j ≤ f.hi
    · rw [if_neg hlo, if_pos (by omega), if_pos (by omega), decide_eq_true (by omega), Bool.true_and]
    · rw [if_neg hlo, if_neg (by omega), if_neg (by omega), show f.hi + 1 + (j - f.lo - k) = j by omega]

/-- A field reads as what it was set to, modulo its range. -/
theorem Fld.get_set_same (f : Fld) (w : DWord) (n : Nat) (hf : f.lo ≤ f.hi) (hh : f.hi < 64) :
    f.get (f.set w n) = n % 2 ^ (f.hi + 1 - f.lo) := by
  refine Nat.eq_of_testBit_eq fun i => ?_
  rw [Fld.get_testBit, Nat.testBit_mod_two_pow]
  by_cases hi : i < f.hi + 1 - f.lo
  · rw [Fld.set_testBit f w n hf (by omega), if_pos (by omega), Nat.add_sub_cancel_left]
  · simp [hi]

/-- Two fields share no bit. -/
def Fld.Apart (f g : Fld) : Prop := f.hi < g.lo ∨ g.hi < f.lo

theorem Fld.Apart.symm {f g : Fld} (h : f.Apart g) : g.Apart f := Or.symm h

/-- Setting a field leaves a field that shares no bit with it. -/
theorem Fld.get_set_apart {f g : Fld} (h : f.Apart g) (w : DWord) (n : Nat) (hf : f.lo ≤ f.hi) (hg : g.hi < 64) :
    g.get (f.set w n) = g.get w := by
  refine Nat.eq_of_testBit_eq fun i => ?_
  rw [Fld.get_testBit, Fld.get_testBit]
  by_cases hi : i < g.hi + 1 - g.lo
  · unfold Fld.Apart at h
    rw [Fld.set_testBit f w n hf (by omega), if_neg (by omega)]
  · simp [hi]

/-! ## Registers -/

@[simp] theorem State.rd_wr_same (s : State) (r : Reg) (idx : List Nat) (v : DWord) : (s.wr r idx v).rd r idx = v := by
  simp [State.rd, State.wr]

theorem State.rd_wr_ne (s : State) (r : Reg) (idx : List Nat) (v : DWord) {r' : Reg} {idx' : List Nat} (h : r'.addr idx' ≠ r.addr idx) :
    (s.wr r idx v).rd r' idx' = s.rd r' idx' := by
  unfold State.rd State.wr
  rw [mget_mput_ne _ _ h]

/-- Settles O53: a map reads back what was put in it, and a field what was set. -/
theorem registersReadBackWhatWasWritten : Obligations.RegistersReadBackWhatWasWritten := by
  refine ⟨fun s r idx v => ⟨s.rd_wr_same r idx v, fun r' idx' h => s.rd_wr_ne r idx v h, fun h => mwf_mput h _ _⟩, ?_⟩
  intro s r idx f n hf hh
  rw [State.fld, State.setFld, State.rd_wr_same, Fld.get_set_same f _ n hf hh]

/-! ## Lists of fields -/

/-- A word with some of its fields replaced, one after another. -/
def setFields (fs : List (Fld × Acc × Nat)) (upd : Fld × Acc × Nat → Option Nat) (w : DWord) : DWord :=
  fs.foldl (fun w e => (upd e).elim w (e.1.set w)) w

/-- The fields of a register lie within 64 bits and share none. -/
def FieldsApart (fs : List (Fld × Acc × Nat)) : Prop :=
  (∀ e ∈ fs, e.1.lo ≤ e.1.hi ∧ e.1.hi < 64) ∧ fs.Pairwise fun a b => a.1.Apart b.1

/-- The register map gives each register fields that share no bit (R9, R11). -/
theorem Reg.fieldsApart (r : Reg) : FieldsApart r.desc.fields := by
  unfold FieldsApart Fld.Apart
  cases r <;> decide

theorem setFields_get_apart {fs : List (Fld × Acc × Nat)} (hfs : ∀ e ∈ fs, e.1.lo ≤ e.1.hi) (upd : Fld × Acc × Nat → Option Nat)
    {g : Fld} (hg : g.hi < 64) (h : ∀ e ∈ fs, e.1.Apart g) (w : DWord) : g.get (setFields fs upd w) = g.get w := by
  induction fs generalizing w with
  | nil => rfl
  | cons e t ih =>
    rw [List.forall_mem_cons] at hfs h
    rw [setFields, List.foldl_cons, ← setFields, ih hfs.2 h.2]
    cases upd e with
    | none => rfl
    | some n => exact Fld.get_set_apart h.1 w n hfs.1 hg

/-- Each field reads as what it was replaced by, or as before where it was not. -/
theorem setFields_get {fs : List (Fld × Acc × Nat)} (hfs : FieldsApart fs) (upd : Fld × Acc × Nat → Option Nat) {e : Fld × Acc × Nat}
    (he : e ∈ fs) (w : DWord) : e.1.get (setFields fs upd w) = (upd e).elim (e.1.get w) (· % 2 ^ (e.1.hi + 1 - e.1.lo)) := by
  induction fs generalizing w with
  | nil => exact absurd he List.not_mem_nil
  | cons d t ih =>
    obtain ⟨hin, hap⟩ := hfs
    obtain ⟨⟨hlo, hhi⟩, hrest⟩ := List.forall_mem_cons.1 hin
    obtain ⟨hd, hpair⟩ := List.pairwise_cons.1 hap
    rw [setFields, List.foldl_cons, ← setFields]
    rcases List.mem_cons.1 he with rfl | he
    · rw [setFields_get_apart (fun a ha => (hrest a ha).1) upd hhi fun a ha => (hd a ha).symm]
      cases upd e with
      | none => rfl
      | some n => exact Fld.get_set_same e.1 w n hlo hhi
    · rw [ih ⟨hrest, hpair⟩ he]
      cases upd e with
      | some n => rfl
      | none =>
        cases upd d with
        | none => rfl
        | some n => exact Fld.get_set_apart (hd e he) w n hlo (hrest e he).2

/-- What a plain write sets a field to, by its access code (R9). -/
def plainWrite (old v : DWord) (e : Fld × Acc × Nat) : Option Nat :=
  match e.2.1 with
  | .rw => some (e.1.get v)
  | .w1s => some (e.1.get old ||| e.1.get v)
  | .w1c => some (e.1.get old ^^^ (e.1.get old &&& e.1.get v))
  | _ => none

theorem storeFields_eq_setFields (fs : List (Fld × Acc × Nat)) (old v : DWord) :
    storeFields fs old v = setFields fs (plainWrite old v) old := by
  unfold storeFields setFields
  congr 1
  funext w e
  obtain ⟨f, a, k⟩ := e
  cases a <;> rfl

theorem readMask_eq_setFields (r : Reg) (v : DWord) :
    readMask r v = setFields r.desc.fields (fun e => if e.2.1 = .wo then none else some (e.1.get v)) 0 := by
  unfold readMask setFields
  congr 1
  funext w e
  obtain ⟨f, a, k⟩ := e
  cases a <;> rfl

theorem rd_foldl_clear (fs : List (Fld × Acc × Nat)) (s : State) (r : Reg) (idx : List Nat) :
    (fs.foldl (fun s f => if f.2.1 = .rc then s.setFld r idx f.1 0 else s) s).rd r idx =
      setFields fs (fun e => if e.2.1 = .rc then some 0 else none) (s.rd r idx) := by
  induction fs generalizing s with
  | nil => rfl
  | cons e t ih =>
    rw [List.foldl_cons, ih, setFields, setFields, List.foldl_cons]
    by_cases h : e.2.1 = .rc
    · simp [h, State.setFld]
    · simp [h]

theorem State.rd_readClear (s : State) (r : Reg) (idx : List Nat) :
    (s.readClear r idx).rd r idx = setFields r.desc.fields (fun e => if e.2.1 = .rc then some 0 else none) (s.rd r idx) :=
  rd_foldl_clear _ s r idx

/-- Settles O2: the fields of a register share no bit, so each keeps what its own access code leaves in it. -/
theorem accessCodesDecideWhatAPlainWriteStores : Obligations.AccessCodesDecideWhatAPlainWriteStores := by
  intro s r idx v f acc k hf
  have hr := r.fieldsApart
  refine ⟨?_, fun w => ?_, fun r' idx' h => s.rd_wr_ne r idx _ h, ?_⟩
  · have hget := setFields_get hr (plainWrite (s.rd r idx) (BitVec.ofNat 64 v)) hf (s.rd r idx)
    have ho := f.get_lt (s.rd r idx)
    have hv := f.get_lt (BitVec.ofNat 64 v)
    rw [State.fld, State.store, State.rd_wr_same, storeFields_eq_setFields, hget]
    cases acc with
    | rw => exact f.get_mod _
    | w1s => exact Nat.mod_eq_of_lt (Nat.or_lt_two_pow ho hv)
    | w1c => exact Nat.mod_eq_of_lt (Nat.xor_lt_two_pow ho (Nat.and_lt_two_pow _ hv))
    | ro => rfl
    | wo => rfl
    | rc => rfl
  · rw [readMask_eq_setFields, setFields_get hr _ hf 0]
    by_cases h : acc = .wo <;> simp [h]
  · rw [State.fld, State.rd_readClear, setFields_get hr _ hf]
    by_cases h : acc = .rc <;> simp [h, State.fld]

/-! ## Memory -/

/-- The byte of a memory after a range was dropped. -/
theorem mget_mclear {α : Type} [Inhabited α] (m : List (Nat × α)) (lo n b : Nat) :
    mget (mclear m lo n) b = if lo ≤ b ∧ b < lo + n then default else mget m b := by
  induction m with
  | nil => simp [mclear, mget]
  | cons e t ih =>
    obtain ⟨k, v⟩ := e
    unfold mclear at ih ⊢
    rw [List.filter_cons]
    by_cases hk : lo ≤ k ∧ k < lo + n
    · rw [if_neg (by simp; omega), ih, mget]
      by_cases hb : b = k
      · rw [if_pos (by omega), if_pos (by omega)]
      · rw [if_neg hb]
    · rw [if_pos (by simp; omega), mget, mget, ih]
      by_cases hb : b = k
      · rw [if_pos hb, if_pos hb, if_neg (by omega)]
      · rw [if_neg hb, if_neg hb]

theorem State.peek_poke_in (s : State) (a : Nat) (bs : List Byte) {i : Nat} (h : i < bs.length) : (s.poke a bs).peek (a + i) = bs[i] :=
  mget_pokeMem_in s.mem a bs h

theorem State.peek_poke_out (s : State) (a : Nat) (bs : List Byte) {b : Nat} (h : b < a ∨ a + bs.length ≤ b) :
    (s.poke a bs).peek b = s.peek b := mget_pokeMem_out s.mem a bs h

theorem State.peek_wipe (s : State) (a n b : Nat) : (s.wipe a n).peek b = if a ≤ b ∧ b < a + n then 0 else s.peek b :=
  mget_mclear s.mem a n b

@[simp] theorem leBytes_length (n x : Nat) : (leBytes n x).length = n := by
  induction n generalizing x with
  | zero => rfl
  | succ n ih => simp [leBytes, ih]

theorem leNat_leBytes (n x : Nat) : leNat (leBytes n x) = x % 256 ^ n := by
  induction n generalizing x with
  | zero => simp [leBytes, leNat, Nat.mod_one]
  | succ n ih => rw [leBytes, leNat, ih, BitVec.toNat_ofNat, pow_succ' 256 n, Nat.mod_mul]

theorem State.peekN_poke (s : State) (a : Nat) (bs : List Byte) : (s.poke a bs).peekN a bs.length = bs := by
  refine List.ext_getElem (by simp [State.peekN]) fun i _ hi => ?_
  simp only [State.peekN, List.getElem_map, List.getElem_range]
  exact s.peek_poke_in a bs hi

@[simp] theorem State.peekLE_pokeLE (s : State) (a n x : Nat) : (s.pokeLE a n x).peekLE a n = x % 256 ^ n := by
  have h := s.peekN_poke a (leBytes n x)
  rw [leBytes_length] at h
  rw [State.peekLE, State.pokeLE, h, leNat_leBytes]

theorem State.peek_pokeLE_out (s : State) (a n x : Nat) {b : Nat} (h : b < a ∨ a + n ≤ b) : (s.pokeLE a n x).peek b = s.peek b :=
  s.peek_poke_out a _ (by rwa [leBytes_length])

/-- Settles O54: a memory is a map, in which a write lists its bytes and a wipe drops the keys of its range. -/
theorem memoryReadsBackWhatWasWritten : Obligations.MemoryReadsBackWhatWasWritten := by
  refine ⟨fun s a bs => ⟨fun i h => s.peek_poke_in a bs h, fun b h => s.peek_poke_out a bs h, fun h => mwf_pokeMem h a bs⟩,
    fun s a n => ⟨fun b ha hb => ?_, fun b h => ?_, fun h => mwf_mclear h a n⟩, fun s a n x => s.peekLE_pokeLE a n x⟩
  · rw [State.peek_wipe, if_pos ⟨ha, hb⟩]
  · rw [State.peek_wipe, if_neg (by omega)]

/-! ## Reset -/

/-- Settles O47: every map of the reset state is empty, and PORST_N is low. -/
theorem resetIsCanonical : Obligations.ResetIsCanonical := by
  refine ⟨?_, rfl, rfl⟩
  constructor <;> rfl

end Sys2Proof.Machine
end

section
/-! What one instruction of a vector core does to its local store, and which transfers it starts (R223 to R235, R337). -/

namespace Sys2Proof.Machine

/-! ## Issue -/

theorem State.vctx_congr {s t : State} (h : t.vx = s.vx) (c v x : Nat) : t.vctx c v x = s.vctx c v x := by
  unfold State.vctx State.getVx
  rw [h]

@[simp] theorem State.vxTimed_vx (s : State) (took c v x : Nat) : (s.vxTimed took c v x).vx = s.vx := by
  unfold State.vxTimed
  split <;> rfl

@[simp] theorem State.vxTimed_mem (s : State) (took c v x : Nat) : (s.vxTimed took c v x).mem = s.mem := by
  unfold State.vxTimed
  split <;> rfl

@[simp] theorem State.vxTimed_vctx (s : State) (took c v x : Nat) : (s.vxTimed took c v x).vctx c v x = s.vctx c v x :=
  State.vctx_congr (s.vxTimed_vx took c v x) c v x

/-- The state an instruction leaves, by how it ends (R227, R235, R238); s is the state it was fetched in. -/
def State.vxEnd (s : State) (took c v x : Nat) : VOut → State
  | .next t => t.flowTo c v x ((s.vctx c v x).pc + 4)
  | .skip t a => t.flowTo c v x (a % 2 ^ 32)
  | .jump t a => t.jumpTo c v x a
  | .wait t xfer => (t.vxShow c v x vxWaiting).bump .VX_XSTALL [c, v] (if xfer then took else 0)
  | .stop t => t.bump .VX_INSTR [c, v]
  | .fault code => (s.vxTimed took c v x).vxFault c v x code
  | .other => s

/-- The commanded instruction, where the issuing context points at it, runs on its word and ends as its outcome says. -/
theorem State.vxStep_issues {s : State} {bad : List Nat} {c v x op w : Nat} (h : s.Issues bad c v x op w)
    (hop : vxOps.contains op = true) (took : Nat) (run : State → Nat → Nat → VOut) :
    s.vxStep bad took c v op run = s.vxEnd took c v x (run (s.vxTimed took c v x) x w) := by
  obtain ⟨hact, halign, hin, hbad, hword, rfl⟩ := h
  have hpc : ¬((s.vctx c v x).pc % 4 ≠ 0 ∨ (s.vctx c v x).pc ≥ 0x20000) := by omega
  unfold State.vxStep
  simp only [hact, if_neg hpc, hbad, hword, hop, Bool.not_true, Bool.false_eq_true, if_false, ne_eq, not_true_eq_false]
  rw [← State.vxTimed]
  cases run (s.vxTimed took c v x) x w <;> rfl

theorem State.vxStep_next {s t : State} {bad : List Nat} {c v x op w took : Nat} {run : State → Nat → Nat → VOut}
    (h : s.Issues bad c v x op w) (hop : vxOps.contains op = true) (hr : run (s.vxTimed took c v x) x w = .next t) :
    s.vxStep bad took c v op run = t.flowTo c v x (((s.vxTimed took c v x).vctx c v x).pc + 4) := by
  rw [State.vxStep_issues h hop, hr, State.vxTimed_vctx, State.vxEnd]

theorem State.vxStep_fault {s : State} {bad : List Nat} {c v x op w took code : Nat} {run : State → Nat → Nat → VOut}
    (h : s.Issues bad c v x op w) (hop : vxOps.contains op = true) (hr : run (s.vxTimed took c v x) x w = .fault code) :
    s.vxStep bad took c v op run = (s.vxTimed took c v x).vxFault c v x code := by
  rw [State.vxStep_issues h hop, hr, State.vxEnd]

/-- An instruction that moves on where a code is 0 and faults with it elsewhere. -/
theorem State.vxStep_code {s t : State} {bad : List Nat} {c v x op w took k : Nat} {run : State → Nat → Nat → VOut}
    (h : s.Issues bad c v x op w) (hop : vxOps.contains op = true)
    (hr : run (s.vxTimed took c v x) x w = if k = 0 then .next t else .fault k) :
    s.vxStep bad took c v op run =
      if k = 0 then t.flowTo c v x (((s.vxTimed took c v x).vctx c v x).pc + 4) else (s.vxTimed took c v x).vxFault c v x k := by
  by_cases hk : k = 0
  · rw [if_pos hk] at hr ⊢
    exact State.vxStep_next h hop hr
  · rw [if_neg hk] at hr ⊢
    exact State.vxStep_fault h hop hr

/-! ## Loads and stores -/

/-- An access whose code is 0 has its outcome, and one with another code faults with it (R224, R227). -/
theorem match_code (k : Nat) (o : VOut) : (match k with | 0 => o | n => .fault n) = if k = 0 then o else .fault k := by
  cases k <;> rfl

theorem State.doSld_eq (bad : List Nat) (c v : Nat) (s : State) (x w : Nat) :
    let a := wrapInt 32 ((s.vctx c v x).sreg (iA w) + iSimm w)
    let k := s.localCode bad c v x a 4 false
    State.doSld bad c v s x w =
      if k = 0 then .next (s.modCtx c v x fun u => u.setS (iD w) (s.peekLE (vcAddr c v a) 4)) else .fault k :=
  match_code _ _

theorem State.doSst_eq (c v : Nat) (s : State) (x w : Nat) :
    let a := wrapInt 32 ((s.vctx c v x).sreg (iA w) + iSimm w)
    let k := s.localCode [] c v x a 4 true
    State.doSst c v s x w =
      if k = 0 then .next (s.pokeLE (vcAddr c v a) 4 ((s.vctx c v x).sreg (iD w))) else .fault k :=
  match_code _ _

theorem State.doVld_eq (bad : List Nat) (c v : Nat) (s : State) (x w : Nat) :
    let a := wrapInt 32 ((s.vctx c v x).sreg (iA w) + 64 * iSimm w)
    let k := s.localCode bad c v x a 64 false
    State.doVld bad c v s x w =
      if k = 0 then .next (s.modCtx c v x fun u => u.setV (iD w) (s.peekLE (vcAddr c v a) 64)) else .fault k :=
  match_code _ _

theorem State.doVst_eq (c v : Nat) (s : State) (x w : Nat) :
    let a := wrapInt 32 ((s.vctx c v x).sreg (iA w) + 64 * iSimm w)
    let k := s.localCode [] c v x a 64 true
    State.doVst c v s x w =
      if k = 0 then .next (s.pokeLE (vcAddr c v a) 64 ((s.vctx c v x).vreg (iD w))) else .fault k :=
  match_code _ _

/-! ## What a store leaves of the memory -/

@[simp] theorem State.flowTo_peek (s : State) (c v x pc b : Nat) : (s.flowTo c v x pc).peek b = s.peek b := by
  unfold State.flowTo State.vxShow
  split <;> rfl

@[simp] theorem State.flowTo_peekLE (s : State) (c v x pc a n : Nat) : (s.flowTo c v x pc).peekLE a n = s.peekLE a n := by
  simp [State.peekLE, State.peekN]

/-- A fault of a context changes registers, groups, the core's own record and the reason logs, but no memory. -/
@[simp] theorem State.vxFault_peek (s : State) (c v x code b : Nat) : (s.vxFault c v x code).peek b = s.peek b := by
  have hmem : (s.vxFault c v x code).mem = s.mem :=
    (State.vxFault_keeps (Keeps.refl 4294969474 s) c v x code (by decide)).same .mem (by decide)
  rw [State.peek, State.peek, hmem]

@[simp] theorem State.vxTimed_peek (s : State) (took c v x b : Nat) : (s.vxTimed took c v x).peek b = s.peek b := by
  rw [State.peek, State.peek, State.vxTimed_mem]

/-- What a store of n bytes that moves on where its code is 0 leaves of the memory, against the state u it was fetched in. -/
theorem State.stored_or_faulted {s u : State} (hu : ∀ b, s.peek b = u.peek b) (c v x pc k a n y : Nat) :
    let t := if k = 0 then (s.pokeLE a n y).flowTo c v x pc else s.vxFault c v x k
    (k = 0 → t.peekLE a n = y % 256 ^ n) ∧ ∀ b, ¬(k = 0 ∧ a ≤ b ∧ b < a + n) → t.peek b = u.peek b := by
  by_cases hk : k = 0
  · rw [if_pos hk]
    refine ⟨fun _ => by simp, fun b hb => ?_⟩
    rw [State.flowTo_peek, State.peek_pokeLE_out _ _ _ _ (by omega), hu]
  · rw [if_neg hk]
    exact ⟨fun h => absurd h hk, fun b _ => by rw [State.vxFault_peek, hu]⟩

/-! ## Transfers -/

/-- A transfer that finds a place among the eight outstanding and a free tag is outstanding. -/
theorem State.vxIssue_started {s t : State} {c v x key : Nat} {y : Xfer} (hlen : (s.getVx c v).out.length < 8)
    (hstart : s.xferStart (s.ofContext c v x y) = some (key, t)) :
    s.vxIssue c v x y = .next (t.modVx c v fun u => { u with out := u.out ++ [key] }) := by
  unfold State.vxIssue
  rw [if_neg (by omega), ← State.ofContext, hstart]

section
variable {s t : State} {c v x w dev loc n code key : Nat}

theorem State.doXld_refused (h : s.xferOps c v x w true = (dev, loc, n, code)) (hc : code ≠ 0) :
    State.doXld c v s x w = .fault code := by
  unfold State.doXld
  rw [h]
  exact if_pos hc

theorem State.doXld_window (h : s.xferOps c v x w true = (dev, loc, n, 0)) (hw : sendWindow c dev ≠ none) :
    State.doXld c v s x w = .fault 0x0523 := by
  simp [State.doXld, h, Option.isSome_iff_ne_none, hw]

theorem State.doXld_plain (h : s.xferOps c v x w true = (dev, loc, n, 0)) (hw : sendWindow c dev = none) :
    State.doXld c v s x w = s.vxIssue c v x { dev := dev, loc := loc, len := n } := by
  simp [State.doXld, h, hw]

theorem State.doXst_refused (h : s.xferOps c v x w false = (dev, loc, n, code)) (hc : code ≠ 0) :
    State.doXst c v s x w = .fault code := by
  unfold State.doXst
  rw [h]
  exact if_pos hc

theorem State.doXst_plain (h : s.xferOps c v x w false = (dev, loc, n, 0)) (hw : sendWindow c dev = none) :
    State.doXst c v s x w = s.vxIssue c v x { write := true, dev := dev, loc := loc, len := n } := by
  unfold State.doXst
  rw [h]
  refine (if_neg (not_not.2 rfl)).trans ?_
  rw [hw]

theorem State.doXst_window {i : Nat} (h : s.xferOps c v x w false = (dev, loc, n, 0)) (hw : sendWindow c dev = some i)
    (hdev : dev % 0x1000 = 0) (hen : s.bit .MQ_SH_CFG [c, i] MQ_SH_CFG_EN = true)
    (hgood : s.badSend (s.val .MQ_SH_ADDR [c, i]) n (s.peekN (vcAddr c v loc) 16) = false) :
    State.doXst c v s x w = s.vxIssue c v x { write := true, dev := s.val .MQ_SH_ADDR [c, i], loc := loc, len := n,
                                              handle := c * 64 + i + 1, seq := s.sendOrder (c * 64 + i + 1) } := by
  unfold State.doXst
  rw [h]
  refine (if_neg (not_not.2 rfl)).trans ?_
  rw [hw]
  exact if_neg (by simp [hdev, hen, hgood])

end

/-- Settles O16: each instruction's outcome, carried through the issue of the core. -/
theorem localStoreAndTransferInstructions : Obligations.LocalStoreAndTransferInstructions := by
  refine ⟨?_, ?_, ?_, ?_, ?_, ?_, ?_⟩
  · intro s₀ c v took bad x w hi
    exact congrArg Host.Outcome.next (State.vxStep_code hi (by decide) (State.doSld_eq bad c.val v.val _ x w))
  · intro s₀ c v took bad x w hi
    exact congrArg Host.Outcome.next (State.vxStep_code hi (by decide) (State.doSst_eq c.val v.val _ x w))
  · intro s₀ c v took bad x w hi
    exact congrArg Host.Outcome.next (State.vxStep_code hi (by decide) (State.doVld_eq bad c.val v.val _ x w))
  · intro s₀ c v took bad x w hi
    exact congrArg Host.Outcome.next (State.vxStep_code hi (by decide) (State.doVst_eq c.val v.val _ x w))
  · intro s₀ c v took bad x w dev loc n code key t hi s hops
    refine ⟨?_, fun hc => ?_, ?_⟩
    · rintro rfl hw hlen hstart
      exact congrArg Host.Outcome.next (State.vxStep_next hi (by decide) ((State.doXld_plain hops hw).trans (State.vxIssue_started hlen hstart)))
    · exact congrArg Host.Outcome.next (State.vxStep_fault hi (by decide) (State.doXld_refused hops hc))
    · rintro rfl hw
      exact congrArg Host.Outcome.next (State.vxStep_fault hi (by decide) (State.doXld_window hops hw))
  · intro s₀ c v took bad x w dev loc n code key t hi s hops
    refine ⟨?_, fun hc => ?_, ?_⟩
    · rintro rfl hw hlen hstart
      exact congrArg Host.Outcome.next (State.vxStep_next hi (by decide) ((State.doXst_plain hops hw).trans (State.vxIssue_started hlen hstart)))
    · exact congrArg Host.Outcome.next (State.vxStep_fault hi (by decide) (State.doXst_refused hops hc))
    · rintro i rfl hw hdev hen hgood hlen hstart
      exact congrArg Host.Outcome.next (State.vxStep_next hi (by decide)
        ((State.doXst_window hops hw hdev hen hgood).trans (State.vxIssue_started hlen hstart)))
  · intro s₀ c v took bad x w hi s hlen
    exact congrArg Host.Outcome.next (State.vxStep_next hi (by decide) (if_pos hlen))

/-- Settles O55: a store either writes its own bytes and moves on, or faults, which writes no memory. -/
theorem vectorStoresChangeOnlyTheirBytes : Obligations.VectorStoresChangeOnlyTheirBytes := by
  obtain ⟨-, hsst, -, hvst, -⟩ := localStoreAndTransferInstructions
  exact ⟨fun s₀ c v took bad x w h => ⟨_, hsst s₀ c v took bad x w h, State.stored_or_faulted (s₀.vxTimed_peek took c.val v.val x) ..⟩,
    fun s₀ c v took bad x w h => ⟨_, hvst s₀ c v took bad x w h, State.stored_or_faulted (s₀.vxTimed_peek took c.val v.val x) ..⟩⟩

end Sys2Proof.Machine
end

section
/-! What an access of a register does, by its width and address (R8, R9, R13, R15, R37, R39). -/

namespace Sys2Proof.Machine

/-! ## What an access looks at -/

theorem exec_read {req : Requester} {w : Width} {a : BitVec 48} {c : Instr} (s : State)
    (h : c = .reg64LowerRead req w a ∨ c = .regReadClear req w a) : exec c s = .next (s.accessRead req w a.toNat) := by
  rcases h with rfl | rfl <;> rfl

theorem exec_write {req : Requester} {w : Width} {a : BitVec 48} {v : DWord} {c : Instr} (s : State)
    (h : c = .registerWrite req w a v ∨ c = .reg64UpperWrite req w a v) : exec c s = .next (s.accessWrite req w a.toNat v.toNat) := by
  rcases h with rfl | rfl <;> rfl

theorem State.regUp_congr {s t : State} (h : t.regs = s.regs) (a : Nat) : t.regUp a = s.regUp a := by
  unfold State.regUp State.domOn State.fld State.rd
  rw [h]

/-- The neuron-core records once an access at an address is noted for its core (R114). -/
def State.coresNoted (s : State) (r : Reg) (a : Nat) : List (Nat × Nc) :=
  match r.ofCore, coreOfAddr a with
  | true, some (c, n) => if s.fld .NC_STATUS [c, n] NC_STATUS_STATE = 4 then mmod s.nc (ncKey c n) fun u => { u with hit := true } else s.nc
  | _, _ => s.nc

/-- Noting an access for a neuron core changes only the cores' records. -/
theorem State.regTouch_eq (s : State) (r : Reg) (a : Nat) : s.regTouch r a = { s with nc := s.coresNoted r a } := by
  unfold State.regTouch State.coreTouch State.coresNoted
  cases r.ofCore with
  | false => rfl
  | true =>
    cases coreOfAddr a with
    | none => rfl
    | some x => exact (apply_ite (fun n => { s with nc := n }) (s.fld .NC_STATUS [x.1, x.2] NC_STATUS_STATE = 4) _ _).symm

@[simp] theorem State.regTouch_regs (s : State) (r : Reg) (a : Nat) : (s.regTouch r a).regs = s.regs := by rw [State.regTouch_eq]
@[simp] theorem State.regTouch_latches (s : State) (r : Reg) (a : Nat) : (s.regTouch r a).latches = s.latches := by rw [State.regTouch_eq]
@[simp] theorem State.regTouch_helds (s : State) (r : Reg) (a : Nat) : (s.regTouch r a).helds = s.helds := by rw [State.regTouch_eq]

theorem State.regTouch_setLatches (s : State) (r : Reg) (a : Nat) (l : List (Nat × Option Word)) :
    State.regTouch { s with latches := l } r a = { s.regTouch r a with latches := l } := by
  rw [State.regTouch_eq, State.regTouch_eq]
  rfl

theorem State.regTouch_setHelds (s : State) (r : Reg) (a : Nat) (l : List (Nat × Option Word)) :
    State.regTouch { s with helds := l } r a = { s.regTouch r a with helds := l } := by
  rw [State.regTouch_eq, State.regTouch_eq]
  rfl

/-! ## Accesses that meet no register -/

/-- A narrow access, or a 32-bit one at no multiple of four (R8). -/
def Narrow (w : Width) (a : Nat) : Prop := w = .w8 ∨ w = .w16 ∨ w = .w32 ∧ a % 4 ≠ 0

theorem State.accessRead_narrow {s : State} {req : Requester} {w : Width} {a : Nat} (hw : Narrow w a)
    (hr : s.regReach req a false = true) : s.accessRead req w a = { s.ignored req a with rdata := 0 } := by
  unfold State.accessRead
  rw [if_pos hr]
  obtain rfl | rfl | ⟨rfl, ha⟩ := hw
  · rfl
  · rfl
  · dsimp only
    rw [State.readWord, if_pos ha]
    rfl

theorem State.accessWrite_narrow {s : State} {req : Requester} {w : Width} {a v : Nat} (hw : Narrow w a)
    (hr : s.regReach req a true = true) : s.accessWrite req w a v = s.ignored req a := by
  unfold State.accessWrite
  rw [if_pos hr]
  obtain rfl | rfl | ⟨rfl, ha⟩ := hw
  · rfl
  · rfl
  · dsimp only
    rw [State.writeWord, if_pos ha]

theorem State.ignored_register {s : State} {req : Requester} {a : Nat} (h : (findReg (a - a % 4)).isSome = true) :
    s.ignored req a = s := by
  simp [State.ignored, Option.isNone_eq_false_iff.2 h]

/-! ## A register whose block is off -/

theorem State.readWord_off {s : State} {req : Requester} {a : Nat} {x : Reg × List Nat × Nat} (hf : findReg a = some x)
    (ha : a % 4 = 0) (hu : s.regUp a = false) : s.readWord req a = (0, s) := by
  unfold State.readWord
  rw [if_neg (not_not.2 ha), hf]
  simp [hu]

theorem State.writeWord_off {s : State} {req : Requester} {a v : Nat} {cmd : Option (Nat × Nat)} {x : Reg × List Nat × Nat}
    (hf : findReg a = some x) (ha : a % 4 = 0) (hu : s.regUp a = false) : s.writeWord req a v cmd = (0, s) := by
  unfold State.writeWord State.writeAt
  rw [if_neg (not_not.2 ha), hf]
  simp [hu]

theorem isDouble_of_found {a : Nat} {r : Reg} {idx : List Nat} (ha : a % 8 = 0) (hf : findReg a = some (r, idx, 0))
    (hb : r.desc.bytes = 8) : isDouble a = true := by
  simp [isDouble, ha, hf, hb]

theorem State.accessRead_32 {s : State} {req : Requester} {a : Nat} (hr : s.regReach req a false = true) :
    s.accessRead req .w32 a = { (s.readWord req a).2 with rdata := BitVec.ofNat 64 (s.readWord req a).1 } := by
  unfold State.accessRead
  rw [if_pos hr]

theorem State.accessRead_64 {s : State} {req : Requester} {a : Nat} (hr : s.regReach req a false = true) (hd : isDouble a = true) :
    s.accessRead req .w64 a = { (s.readDouble req a).2 with rdata := BitVec.ofNat 64 (s.readDouble req a).1 } := by
  unfold State.accessRead State.wideRead
  rw [if_pos hr, hd]
  rfl

theorem State.accessWrite_32 {s : State} {req : Requester} {a : Nat} (v : Nat) (hr : s.regReach req a true = true) :
    s.accessWrite req .w32 a v = (s.writeWord req a (v % 2 ^ 32) none).2 := by
  unfold State.accessWrite
  rw [if_pos hr]

/-- A 64-bit write of a 64-bit register whose lower word meets no refusal. -/
theorem State.accessWrite_64 {s t : State} {req : Requester} {a v : Nat} (hr : s.regReach req a true = true) (hd : isDouble a = true)
    (hl : s.writeWord req a (v % 2 ^ 32) none = (0, t)) : s.accessWrite req .w64 a v = (t.writeWord req (a + 4) (v / 2 ^ 32) none).2 := by
  unfold State.accessWrite State.wideWrite
  rw [if_pos hr, if_pos hd, hl]
  rfl

theorem State.regReach_found {s : State} {req : Requester} {a : Nat} {write : Bool} {r : Reg} {x : List Nat × Nat}
    (hf : findReg a = some (r, x)) : s.regReach req a write = s.regReachReg req (some r) a write := by
  rw [State.regReach, hf]
  rfl

/-- An access of 32 bits at a multiple of four is one word; any other of at most 32 bits is ignored. -/
theorem narrow_or_word {w : Width} (a : Nat) (h : w ≠ .w64) : Narrow w a ∨ w = .w32 ∧ a % 4 = 0 := by
  unfold Narrow
  cases w with
  | w8 => exact .inl (.inl rfl)
  | w16 => exact .inl (.inr (.inl rfl))
  | w32 => exact (em (a % 4 = 0)).symm.imp (fun h => .inr (.inr ⟨rfl, h⟩)) (⟨rfl, ·⟩)
  | w64 => exact absurd rfl h

/-- Settles O3: each word of a register whose block is off reads zero and takes no write, and an ignored access counts nothing there. -/
theorem blocksThatAreOffReadZeroAndTakeNoWrite : Obligations.BlocksThatAreOffReadZeroAndTakeNoWrite := by
  intro s req w a r idx off n hf hal hdom hoff
  have hu : s.regUp a.toNat = false := by rw [State.regUp, hdom]; exact hoff
  have hread : ∀ {w c}, (c = .reg64LowerRead req w a ∨ c = .regReadClear req w a) → s.accessRead req w a.toNat = { s with rdata := 0 } →
      exec c s = .next { s with rdata := 0 } := fun hc h => (exec_read s hc).trans (congrArg _ h)
  have hwrite : ∀ {w v c}, (c = .registerWrite req w a v ∨ c = .reg64UpperWrite req w a v) → s.accessWrite req w a.toNat v.toNat = s →
      exec c s = .next s := fun hc h => (exec_write s hc).trans (congrArg _ h)
  refine ⟨fun hr hw => ?_, fun v hr hw => ?_, ?_⟩
  · have h : s.accessRead req w a.toNat = { s with rdata := 0 } := by
      rw [← State.regReach_found hf] at hr
      obtain hn | ⟨rfl, ha⟩ := narrow_or_word a.toNat hw
      · rw [State.accessRead_narrow hn hr, State.ignored_register hal]
      · rw [State.accessRead_32 hr, State.readWord_off hf ha hu]
        rfl
    exact ⟨hread (.inl rfl) h, hread (.inr rfl) h⟩
  · have h : s.accessWrite req w a.toNat v.toNat = s := by
      rw [← State.regReach_found hf] at hr
      obtain hn | ⟨rfl, ha⟩ := narrow_or_word a.toNat hw
      · rw [State.accessWrite_narrow hn hr, State.ignored_register hal]
      · rw [State.accessWrite_32 _ hr, State.writeWord_off hf ha hu]
    exact ⟨hwrite (.inl rfl) h, hwrite (.inr rfl) h⟩
  · rintro rfl hb rfl ha hf' hdom'
    have hu' : s.regUp (a.toNat + 4) = false := by rw [State.regUp, hdom']; exact hoff
    have hd := isDouble_of_found ha hf hb
    refine ⟨fun hr => ?_, fun v hr => ?_⟩
    · have h : s.accessRead req .w64 a.toNat = { s with rdata := 0 } := by
        rw [← State.regReach_found hf] at hr
        rw [State.accessRead_64 hr hd, State.readDouble, State.readWord_off hf (by omega) hu]
        dsimp only
        rw [State.readWord_off hf' (by omega) hu']
        rfl
      exact ⟨hread (.inl rfl) h, hread (.inr rfl) h⟩
    · have h : s.accessWrite req .w64 a.toNat v.toNat = s := by
        rw [← State.regReach_found hf] at hr
        rw [State.accessWrite_64 hr hd (State.writeWord_off hf (by omega) hu), State.writeWord_off hf' (by omega) hu']
      exact ⟨hwrite (.inl rfl) h, hwrite (.inr rfl) h⟩

/-! ## Words of a register that answers -/

/-- A word of a register of at most 64 bits, whose block answers, at its address; h are the indices its value is held under. -/
structure State.Answers (s : State) (r : Reg) (idx h : List Nat) (off a : Nat) : Prop where
  aligned : a % 4 = 0
  found : findReg a = some (r, idx, off)
  up : s.regUp a = true
  narrow : r.desc.bytes ≤ 8
  home : (s.regTouch r a).homeIdx r idx = some h

section
variable {s : State} {req : Requester} {r : Reg} {idx h : List Nat} {off a v : Nat} {cmd : Option (Nat × Nat)}

theorem State.readWord_word32 (ha : s.Answers r idx h off a) (hp : producerLine a = false) (hb : r.desc.bytes = 4) :
    s.readWord req a = ((readMask r ((s.regTouch r a).regView r h)).toNat % 2 ^ 32, (s.regTouch r a).readClear r h) := by
  obtain ⟨ha4, hf, hu, -, hh⟩ := ha
  unfold State.readWord
  rw [if_neg (not_not.2 ha4), hp, hf]
  simp only [hu, hb, hh, Bool.not_true, Bool.false_eq_true, if_false, if_true, Nat.not_lt.2 (by decide : 4 ≤ 8)]

theorem State.readWord_lower (ha : s.Answers r idx h 0 a) (hp : producerLine a = false) (hb : r.desc.bytes = 8) :
    s.readWord req a = ((readMask r ((s.regTouch r a).regView r h)).toNat % 2 ^ 32,
      { s.regTouch r a with
        latches := mput (s.regTouch r a).latches (latchKey req a)
          (some (BitVec.ofNat 32 ((readMask r ((s.regTouch r a).regView r h)).toNat / 2 ^ 32))) }) := by
  obtain ⟨ha4, hf, hu, -, hh⟩ := ha
  unfold State.readWord
  rw [if_neg (not_not.2 ha4), hp, hf]
  simp only [hu, hb, hh]
  rfl

theorem State.readWord_latched {w : Word} (ha : s.Answers r idx h 4 a) (hp : producerLine a = false) (hb : r.desc.bytes = 8)
    (hl : mget (s.regTouch r a).latches (latchKey req (a - 4)) = some w) :
    s.readWord req a = (w.toNat, { s.regTouch r a with latches := mput (s.regTouch r a).latches (latchKey req (a - 4)) none }) := by
  obtain ⟨ha4, hf, hu, -, hh⟩ := ha
  unfold State.readWord
  rw [if_neg (not_not.2 ha4), hp, hf]
  simp only [hu, hb, hh, hl]
  rfl

theorem State.readWord_upper (ha : s.Answers r idx h 4 a) (hp : producerLine a = false) (hb : r.desc.bytes = 8)
    (hl : mget (s.regTouch r a).latches (latchKey req (a - 4)) = none) :
    s.readWord req a = ((readMask r ((s.regTouch r a).regView r h)).toNat / 2 ^ 32, s.regTouch r a) := by
  obtain ⟨ha4, hf, hu, -, hh⟩ := ha
  unfold State.readWord
  rw [if_neg (not_not.2 ha4), hp, hf]
  simp only [hu, hb, hh, hl]
  rfl

theorem State.writeWord_word32 (ha : s.Answers r idx h off a) (hb : r.desc.bytes = 4) :
    s.writeWord req a v cmd = (s.regTouch r a).regWrite req r h (v % 2 ^ 32) cmd := by
  obtain ⟨ha4, hf, hu, -, hh⟩ := ha
  unfold State.writeWord State.writeAt
  rw [if_neg (not_not.2 ha4), hf]
  simp only [hu, hb, hh]
  rfl

theorem State.writeWord_lower (ha : s.Answers r idx h 0 a) (hb : r.desc.bytes = 8) :
    s.writeWord req a v cmd =
      (0, { s.regTouch r a with helds := mput (s.regTouch r a).helds (latchKey req a) (some (BitVec.ofNat 32 v)) }) := by
  obtain ⟨ha4, hf, hu, -, hh⟩ := ha
  unfold State.writeWord State.writeAt
  rw [if_neg (not_not.2 ha4), hf]
  simp only [hu, hb, hh]
  rfl

/-- The lower word that a write of the upper word commits: the held one, or the present one where none is held (R13). -/
def State.lowerWord (s : State) (req : Requester) (r : Reg) (h : List Nat) (a : Nat) : Nat :=
  (mget s.helds (latchKey req a)).elim (s.val r h % 2 ^ 32) BitVec.toNat

theorem State.writeWord_upper (ha : s.Answers r idx h 4 a) (hb : r.desc.bytes = 8) :
    s.writeWord req a v cmd =
      State.regWrite { s.regTouch r a with helds := mput (s.regTouch r a).helds (latchKey req (a - 4)) none } req r h
        ((s.regTouch r a).lowerWord req r h (a - 4) + 2 ^ 32 * (v % 2 ^ 32)) cmd := by
  obtain ⟨ha4, hf, hu, -, hh⟩ := ha
  unfold State.writeWord State.writeAt State.lowerWord
  rw [if_neg (not_not.2 ha4), hf]
  simp only [hu, hb, hh]
  cases mget (s.regTouch r a).helds (latchKey req (a - 4)) <;> rfl

/-! ## Both words of a 64-bit register -/

theorem State.Answers.upperWord {u : State} (ha : s.Answers r idx h 0 a) (hu : u.regs = s.regs) (hf : findReg (a + 4) = some (r, idx, 4))
    (hup : s.regUp (a + 4) = true) (hh : (u.regTouch r (a + 4)).homeIdx r idx = some h) : u.Answers r idx h 4 (a + 4) where
  aligned := by have := ha.aligned; omega
  found := hf
  up := (State.regUp_congr hu _).trans hup
  narrow := ha.narrow
  home := hh

theorem word_halves {n : Nat} (hn : n < 2 ^ 64) : n % 2 ^ 32 + 2 ^ 32 * (n / 2 ^ 32 % 2 ^ 32) = n := by omega

/-- A 64-bit read answers the whole register and leaves no word latched (R13). -/
theorem State.readDouble_register (ha : s.Answers r idx h 0 a) (hp : producerLine a = false) (hb : r.desc.bytes = 8)
    (hf : findReg (a + 4) = some (r, idx, 4)) (hp' : producerLine (a + 4) = false) (hup : s.regUp (a + 4) = true)
    (hh : ((s.regTouch r a).regTouch r (a + 4)).homeIdx r idx = some h) :
    s.readDouble req a = ((readMask r ((s.regTouch r a).regView r h)).toNat,
      { (s.regTouch r a).regTouch r (a + 4) with latches := mdel (s.regTouch r a).latches (latchKey req a) }) := by
  have hlow := State.readWord_lower (req := req) ha hp hb
  generalize hu : mput (s.regTouch r a).latches (latchKey req a) _ = l at hlow
  have hans : State.Answers { s.regTouch r a with latches := l } r idx h 4 (a + 4) :=
    ha.upperWord (s.regTouch_regs r a) hf hup (by rw [State.regTouch_setLatches]; exact hh)
  have hlatch : mget (State.regTouch { s.regTouch r a with latches := l } r (a + 4)).latches (latchKey req (a + 4 - 4)) =
      some (BitVec.ofNat 32 ((readMask r ((s.regTouch r a).regView r h)).toNat / 2 ^ 32)) := by
    rw [State.regTouch_latches, Nat.add_sub_cancel, ← hu, mget_mput_self]
  rw [State.readDouble, hlow]
  dsimp only
  rw [State.readWord_latched hans hp' hb hlatch, State.regTouch_setLatches (s.regTouch r a) r (a + 4) l,
    Nat.add_sub_cancel, ← hu, mput_mput_none, BitVec.toNat_ofNat, word_halves (BitVec.isLt _)]

theorem ofNat_word_mod (n : Nat) : BitVec.ofNat 32 (n % 2 ^ 32) = BitVec.ofNat 32 n := BitVec.eq_of_toNat_eq (by simp)

/-- A 64-bit write writes the register with both words and leaves no word held (R13). -/
theorem State.accessWrite_register64 (hr : s.regReach req a true = true) (ha : s.Answers r idx h 0 a) (ha8 : a % 8 = 0)
    (hb : r.desc.bytes = 8) (hf : findReg (a + 4) = some (r, idx, 4)) (hup : s.regUp (a + 4) = true)
    (hh : ((s.regTouch r a).regTouch r (a + 4)).homeIdx r idx = some h) (hv : v < 2 ^ 64) :
    s.accessWrite req .w64 a v = (State.regWrite { (s.regTouch r a).regTouch r (a + 4) with
      helds := mdel (s.regTouch r a).helds (latchKey req a) } req r h v none).2 := by
  have hlow := State.writeWord_lower (req := req) (v := v % 2 ^ 32) (cmd := none) ha hb
  generalize hu : mput (s.regTouch r a).helds (latchKey req a) _ = l at hlow
  have hans : State.Answers { s.regTouch r a with helds := l } r idx h 4 (a + 4) :=
    ha.upperWord (s.regTouch_regs r a) hf hup (by rw [State.regTouch_setHelds]; exact hh)
  have hheld : (State.regTouch { s.regTouch r a with helds := l } r (a + 4)).lowerWord req r h a = v % 2 ^ 32 := by
    rw [State.lowerWord, State.regTouch_helds, ← hu, mget_mput_self, ofNat_word_mod, Option.elim_some, BitVec.toNat_ofNat]
  rw [State.accessWrite_64 hr (isDouble_of_found ha8 ha.found hb) hlow, State.writeWord_upper hans hb, Nat.add_sub_cancel, hheld,
    State.regTouch_setHelds (s.regTouch r a) r (a + 4) l, ← hu, mput_mput_none, word_halves hv]

end

/-- Refutes O56: a misaligned access that reaches a place with no register is counted as well. Port 0 reads a word at 0xFE09FFFFFD, past
the last register of the timebases and groups, of the machine at reset; the stray counter of its attach cluster rises to 1. -/
theorem not_strayAccessesReadZeroAndAreCounted : ¬ Obligations.StrayAccessesReadZeroAndAreCounted := by
  intro h
  obtain ⟨-, hmis, -⟩ := h State.reset (.port 0) 0xFE09FFFFFD (by decide)
  have hsame := (hmis (by decide)).1 (by decide +kernel)
  have hcount : (State.reset.accessRead (.port 0) .w32 0xFE09FFFFFD).val .PC_STRAY [attachOf 0] = 1 := by decide +kernel
  have hnone : (State.val { State.reset with rdata := 0 } .PC_STRAY [attachOf 0]) = 0 := by decide +kernel
  rw [exec_read _ (.inl rfl)] at hsame
  have hval := congrArg (fun u => State.val u .PC_STRAY [attachOf 0]) (Host.Outcome.next.inj hsame)
  exact absurd (hcount.symm.trans (hval.trans hnone)) (by decide)

/-- Settles O1: an access is the ignored one, or one word of its register, or both, by its width and address. -/
theorem registerAccessesReadLatchHoldAndCommit : Obligations.RegisterAccessesReadLatchHoldAndCommit := by
  intro s req a rds wrs dropped
  refine ⟨fun w hw hr c hc => ?_, fun w v hw hr c hc => ?_, ?_⟩
  · rw [exec_read s hc, State.accessRead_narrow hw hr]
    rfl
  · rw [exec_write s hc, State.accessWrite_narrow hw hr]
    rfl
  intro r idx h off ha4 hp hf hu hb t t' hh hh'
  have ha : s.Answers r idx h off a.toNat := ⟨ha4, hf, hu, hb, hh⟩
  rw [← State.regReach_found hf]
  refine ⟨fun hr => ⟨fun c hc => ?_, fun c hc hb8 hoff ha8 hf' hp' hup => ?_⟩, fun v hr => ?_⟩
  · rw [exec_read s hc, State.accessRead_32 hr]
    refine ⟨fun hb4 => ?_, fun hb8 hoff => ?_, fun w hb8 hoff hl => ?_, fun hb8 hoff hl => ?_⟩
    · rw [State.readWord_word32 ha hp hb4]
    · subst hoff
      rw [State.readWord_lower ha hp hb8]
    · subst hoff
      rw [State.readWord_latched ha hp hb8 hl, BitVec.ofNat_toNat]
    · subst hoff
      rw [State.readWord_upper ha hp hb8 hl]
  · subst hoff
    rw [exec_read s hc, State.accessRead_64 hr (isDouble_of_found ha8 hf hb8), State.readDouble_register ha hp hb8 hf' hp' hup hh']
  rw [← State.regReach_found hf] at hr
  refine ⟨fun c hc => ?_, fun c hc hb8 hoff ha8 hf' hup => ?_⟩
  · rw [exec_write s hc, State.accessWrite_32 _ hr]
    refine ⟨fun hb4 => ?_, fun hb8 hoff => ?_, fun hb8 hoff => ?_⟩
    · rw [State.writeWord_word32 ha hb4, Nat.mod_mod]
      exact ⟨rfl, fun hst => by rw [hst]⟩
    · subst hoff
      rw [State.writeWord_lower ha hb8, ofNat_word_mod]
    · subst hoff
      intro low u x
      have hlow : t.lowerWord req r h (a.toNat - 4) = low := by
        dsimp only [State.lowerWord, low]
        cases mget t.helds (latchKey req (a.toNat - 4)) <;> rfl
      rw [State.writeWord_upper ha hb8, Nat.mod_mod, hlow]
      exact ⟨rfl, fun hst => by rw [hst]⟩
  · subst hoff
    rw [exec_write s hc, State.accessWrite_register64 hr ha ha8 hb8 hf' hup hh' v.isLt]

end Sys2Proof.Machine
end

section
/-! What every command keeps: the canonical forms, the fuses, the count of free values, and the parts of the state that are not its own. -/

namespace Sys2Proof.Machine

/-- The parts of a list as the bits of a mask, by Part's order (the masks of Keeps). -/
def Part.mask (ps : List Part) : Nat := ps.foldr (fun p m => 2 ^ p.ctorIdx ||| m) 0

theorem Part.ctorIdx_injective : Function.Injective Part.ctorIdx := fun p q h => by
  rw [← Part.ofNat_ctorIdx p, h, Part.ofNat_ctorIdx]

theorem Part.testBit_mask (ps : List Part) (p : Part) : (Part.mask ps).testBit p.ctorIdx = decide (p ∈ ps) := by
  induction ps with
  | nil => simp [Part.mask]
  | cons q t ih =>
    rw [Part.mask, List.foldr_cons, ← Part.mask, Nat.testBit_or, ih, Nat.testBit_two_pow, ← Bool.decide_or]
    simp only [List.mem_cons, Part.ctorIdx_injective.eq_iff, eq_comm]

/-- What is kept but for the parts of a list is framed by them. -/
theorem Keeps.frame {ps : List Part} {s t : State} (h : Keeps (Part.mask ps) s t) : Frame ps s t := fun p hp =>
  h.same p (by rw [Part.testBit_mask, decide_eq_false hp])

theorem Keeps.comp {m m' : Nat} {s t u : State} (h : Keeps m s t) (k : Keeps m' t u) : Keeps (m ||| m') s u :=
  (h.mono (by rw [Nat.or_right_comm, Nat.or_self])).step k (by rw [Nat.or_assoc, Nat.or_self])

/-- Keeps, of the state an outcome answers, but for the parts of a list. -/
def OutKeeps (ps : List Part) (s : State) : Host.Outcome State Fault Refusal → Prop
  | .next t => Keeps (Part.mask ps) s t
  | .fault _ => True
  | .refused _ => True

theorem OutKeeps.ite_fault {ps : List Part} {s t : State} {r : Fault} {c : Prop} [Decidable c] (h : Keeps (Part.mask ps) s t) :
    OutKeeps ps s (if c then .next t else .fault r) := by
  split
  · exact h
  · trivial

theorem OutKeeps.vxStep {ps : List Part} {s : State} {bad : List Nat} {took c v op : Nat} {run : State → Nat → Nat → VOut}
    (hf : ∀ u x w, VKeeps (Part.mask ps) u (run u x w)) (hm : Part.mask ps ||| 4294969474 = Part.mask ps := by decide) :
    OutKeeps ps s (.next (s.vxStep bad took c v op run)) := State.vxStep_keeps (.refl _ s) bad took c v op run hf hm

theorem OutKeeps.hostCtrl {ps : List Part} {s : State} {n : Nat} {f : State → State} (hf : ∀ u, Keeps (Part.mask ps) u (f u))
    (hm : Part.mask ps ||| 2 = Part.mask ps := by decide) : OutKeeps ps s (.next (s.hostCtrl n f)) :=
  State.hostCtrl_keeps (.refl _ s) n f hf hm

/-- Every command keeps what lies outside its parts: each operation's own law, held to the parts that touches lists for the command. -/
theorem exec_keeps (c : Instr) (s : State) : OutKeeps (touches c) s (exec c s) := by
  cases c with (dsimp only [touches])
  | registerWrite | reg64UpperWrite => exact State.accessWrite_keeps (.refl _ s) (hm := by decide) ..
  | reg64LowerRead | regReadClear => exact State.accessRead_keeps (.refl _ s) (hm := by decide) ..
  | tbiEdgeAccept => exact State.tbiEdge_keeps (.refl _ s) (hm := by decide) ..
  | tbiZEdgeAccept => exact State.tbiZEdge_keeps (.refl _ s) (hm := by decide) ..
  | tbPeriodExpiry => exact State.tbExpire_keeps (.refl _ s) (hm := by decide) ..
  | tbTargetWrite => exact State.cmdWrite_TB_TARGET_keeps (.refl _ s) (hm := by decide) ..
  | tbEnable | tbDisable => exact State.cmdWrite_TB_CFG_keeps (.refl _ s) (hm := by decide) ..
  | tbInCfgWrite => exact State.tbInWrite_keeps (.refl _ s) (hm := by decide) ..
  | wgEnable | wgDisable => exact State.cmdWrite_WG_CFG_keeps (.refl _ s) (hm := by decide) ..
  | wgStepOpen => exact State.tryOpen_keeps (.refl _ s) (hm := by decide) ..
  | wgInseqWrite => exact State.cmdWrite_WG_INSEQ_keeps (.refl _ s) (hm := by decide) ..
  | wgHalt | wgResume | wgResumeRealign => exact State.cmdWrite_WG_CTRL_keeps (.refl _ s) (hm := by decide) ..
  | harvestRound => exact State.harvestRound_keeps (.refl _ s) (hm := by decide) ..
  | swapWriteOutDone => exact State.swapWriteOutDone_keeps (.refl _ s) (hm := by decide) ..
  | cohortReadInDone => exact State.readInDone_keeps (.refl _ s) (hm := by decide) ..
  | ncEnable => exact State.cmdWrite_NC_CFG_keeps (.refl _ s) (hm := by decide) ..
  | powerTableFillDone => exact State.ncFillDone_keeps (.refl _ s) (hm := by decide) ..
  | cnOpen => exact State.cnOpenTo_keeps (.refl _ s) (hm := by decide) ..
  | fanoutWalk => exact State.fanoutWalk_keeps (.refl _ s) (hm := by decide) ..
  | engineEmitDone => exact State.emitDone_keeps (.refl _ s) (hm := by decide) ..
  | coreFlitEnqueue => exact State.coreFlit_keeps (.refl _ s) (hm := by decide) ..
  | laneDelivery => exact State.laneDelivery_keeps (.refl _ s) (hm := by decide) ..
  | modulatorFlit => exact State.modulatorFlit_keeps (.refl _ s) (hm := by decide) ..
  | coreSleep => exact State.ncSleepNow_keeps (.refl _ s) (hm := by decide) ..
  | coreWake => exact State.ncWakeNow_keeps (.refl _ s) (hm := by decide) ..
  | emitRecord => exact State.emitPort_keeps (.refl _ s) (hm := by decide) ..
  | sinkAdd => exact State.sinkFlit_keeps (.refl _ s) (hm := by decide) ..
  | inbandQueueEnter => exact State.inbandFlit_keeps (.refl _ s) (hm := by decide) ..
  | lrSetEnable => exact State.cmdWrite_LR_SET_CFG_keeps (.refl _ s) (hm := by decide) ..
  | lrSetWgWrite => exact State.cmdWrite_LR_SET_WG_keeps (.refl _ s) (hm := by decide) ..
  | lrSetCommit => exact State.cmdWrite_LR_SET_CTRL_keeps (.refl _ s) (hm := by decide) ..
  | epochEndStart => exact State.epochEnd_keeps (.refl _ s) (hm := by decide) ..
  | serviceStageSignal => exact State.serviceSignal_keeps (.refl _ s) (hm := by decide) ..
  | cnFlip => exact State.cnFlipTo_keeps (.refl _ s) (hm := by decide) ..
  | flipComplete => exact State.flipComplete_keeps (.refl _ s) (hm := by decide) ..
  | ksCmdNone | ksCommit | ksRestore => exact State.cmdWrite_KS_CMD_keeps (.refl _ s) (hm := by decide) ..
  | restoreComplete => exact State.restoreDone_keeps (.refl _ s) (hm := by decide) ..
  | commitPhaseDone => exact State.commitPhase_keeps (.refl _ s) (hm := by decide) ..
  | mxDqTailWrite => exact State.cmdWrite_MX_DQ_TAIL_keeps (.refl _ s) (hm := by decide) ..
  | mxFence => exact State.mxFence_keeps (.refl _ s) (hm := by decide) ..
  | mxMatmul | mxConv | mxEw | mxReduce | mxEncode | mxGather => exact State.mxStep_keeps (.refl _ s) (hm := by decide) ..
  | mxDescriptorComplete => exact State.mxComplete_keeps (.refl _ s) (hm := by decide) ..
  | mxAbort => exact State.abortWrite_keeps (.refl _ s) (hm := by decide) ..
  | vxEnable | vxDisable => exact State.cmdWrite_VX_CFG_keeps (.refl _ s) (hm := by decide) ..
  | sadd => exact .vxStep fun u _ _ => State.doSadd_keeps (.refl _ u) (hm := by decide) ..
  | ssub => exact .vxStep fun u _ _ => State.doSsub_keeps (.refl _ u) (hm := by decide) ..
  | smul => exact .vxStep fun u _ _ => State.doSmul_keeps (.refl _ u) (hm := by decide) ..
  | slog => exact .vxStep fun u _ _ => State.doSlog_keeps (.refl _ u) (hm := by decide) ..
  | sshf => exact .vxStep fun u _ _ => State.doSshf_keeps (.refl _ u) (hm := by decide) ..
  | scmp => exact .vxStep fun u _ _ => State.doScmp_keeps (.refl _ u) (hm := by decide) ..
  | saddi => exact .vxStep fun u _ _ => State.doSaddi_keeps (.refl _ u) (hm := by decide) ..
  | slui => exact .vxStep fun u _ _ => State.doSlui_keeps (.refl _ u) (hm := by decide) ..
  | bc => exact .vxStep fun u _ _ => State.doBc_keeps (.refl _ u) (hm := by decide) ..
  | jmp => exact .vxStep fun u _ _ => State.doJmp_keeps (.refl _ u) (hm := by decide) ..
  | jr => exact .vxStep fun u _ _ => State.doJr_keeps (.refl _ u) (hm := by decide) ..
  | loop => exact .vxStep fun u _ _ => State.doLoop_keeps (.refl _ u) (hm := by decide) ..
  | sysHalt => exact .vxStep fun u _ _ => State.doHalt_keeps (.refl _ u) (hm := by decide) ..
  | sysFence => exact .vxStep fun u _ _ => State.doFence_keeps (.refl _ u) (hm := by decide) ..
  | sysBreak => exact .vxStep fun u _ _ => State.doBreak_keeps (.refl _ u) (hm := by decide) ..
  | sld => exact .vxStep fun u _ _ => State.doSld_keeps (.refl _ u) (hm := by decide) ..
  | sst => exact .vxStep fun u _ _ => State.doSst_keeps (.refl _ u) (hm := by decide) ..
  | vld => exact .vxStep fun u _ _ => State.doVld_keeps (.refl _ u) (hm := by decide) ..
  | vst => exact .vxStep fun u _ _ => State.doVst_keeps (.refl _ u) (hm := by decide) ..
  | xld => exact .vxStep fun u _ _ => State.doXld_keeps (.refl _ u) (hm := by decide) ..
  | xst => exact .vxStep fun u _ _ => State.doXst_keeps (.refl _ u) (hm := by decide) ..
  | xwait => exact .vxStep fun u _ _ => State.doXwait_keeps (.refl _ u) (hm := by decide) ..
  | vxTransferComplete => exact State.vxTransferDone_keeps (.refl _ s) (hm := by decide) ..
  | vadd => exact .vxStep fun u _ _ => State.doVadd_keeps (.refl _ u) (hm := by decide) ..
  | vsub => exact .vxStep fun u _ _ => State.doVsub_keeps (.refl _ u) (hm := by decide) ..
  | vmul => exact .vxStep fun u _ _ => State.doVmul_keeps (.refl _ u) (hm := by decide) ..
  | vmac => exact .vxStep fun u _ _ => State.doVmac_keeps (.refl _ u) (hm := by decide) ..
  | vmnx => exact .vxStep fun u _ _ => State.doVmnx_keeps (.refl _ u) (hm := by decide) ..
  | vlog => exact .vxStep fun u _ _ => State.doVlog_keeps (.refl _ u) (hm := by decide) ..
  | vshf => exact .vxStep fun u _ _ => State.doVshf_keeps (.refl _ u) (hm := by decide) ..
  | vcmp => exact .vxStep fun u _ _ => State.doVcmp_keeps (.refl _ u) (hm := by decide) ..
  | vsel => exact .vxStep fun u _ _ => State.doVsel_keeps (.refl _ u) (hm := by decide) ..
  | vcvt => exact .vxStep fun u _ _ => State.doVcvt_keeps (.refl _ u) (hm := by decide) ..
  | vred => exact .vxStep fun u _ _ => State.doVred_keeps (.refl _ u) (hm := by decide) ..
  | vmov => exact .vxStep fun u _ _ => State.doVmov_keeps (.refl _ u) (hm := by decide) ..
  | emit => exact .vxStep fun u _ _ => State.doEmit_keeps (.refl _ u) (hm := by decide) ..
  | ibpop => exact .vxStep fun u _ _ => State.doIbpop_keeps (.refl _ u) (hm := by decide) ..
  | swait => exact .vxStep fun u _ _ => State.doSwait_keeps (.refl _ u) (hm := by decide) ..
  | sdone => exact .vxStep fun u _ _ => State.doSdone_keeps (.refl _ u) (hm := by decide) ..
  | wupd => exact .vxStep fun u _ _ => State.doWupd_keeps (.refl _ u) (hm := by decide) ..
  | vrand => exact .vxStep fun u _ _ => State.doVrand_keeps (.refl _ u) (hm := by decide) ..
  | csrr => exact .vxStep fun u _ _ => State.doCsrr_keeps (.refl _ u) (hm := by decide) ..
  | csrw => exact .vxStep fun u _ _ => State.doCsrw_keeps (.refl _ u) (hm := by decide) ..
  | flitInject => exact State.flitInject_keeps (.refl _ s) (hm := by decide) ..
  | flitRoute => exact State.flitRoute_keeps (.refl _ s) (hm := by decide) ..
  | spillRelease => exact State.spillRelease_keeps (.refl _ s) (hm := by decide) ..
  | goldenScan => exact State.goldenScan_keeps (.refl _ s) (hm := by decide) ..
  | goldenPeriodEnd => exact State.goldenEnd_keeps (.refl _ s) (hm := by decide) ..
  | efFenceWrite => exact State.cmdWrite_EF_FENCE_keeps (.refl _ s) (hm := by decide) ..
  | remapEnable | remapDisable => exact State.cmdWrite_EF_REMAP_keeps (.refl _ s) (hm := by decide) ..
  | freset => exact State.cmdWrite_EF_CTRL_keeps (.refl _ s) (hm := by decide) ..
  | routerTableEccError => exact State.freset_keeps (.refl _ s) (hm := by decide) ..
  | fabricResetDrainEnd => exact State.fresetDrained_keeps (.refl _ s) (hm := by decide) ..
  | fabricResetSelfcheckDone => exact State.selfCheckDone_keeps (.refl _ s) (hm := by decide) ..
  | holeClear => exact State.holeClear_keeps (.refl _ s) (hm := by decide) ..
  | frameBoundary => exact State.frameBoundary_keeps (.refl _ s) (hm := by decide) ..
  | scheduleEnable | scheduleDisable => exact State.cmdWrite_TL_SCFG_keeps (.refl _ s) (hm := by decide) ..
  | scheduleDrainComplete => exact State.schedDrained_keeps (.refl _ s) (hm := by decide) ..
  | quiesce => exact State.quiesce_keeps (.refl _ s) (hm := by decide) ..
  | resume => exact State.resumeHalf_keeps (.refl _ s) (hm := by decide) ..
  | trellisPieceIssue => exact State.pieceIssue_keeps (.refl _ s) (hm := by decide) ..
  | trellisRequest => exact State.pieceRequest_keeps (.refl _ s) (hm := by decide) ..
  | trellisDataBeat => exact State.dataBeat_keeps (.refl _ s) (hm := by decide) ..
  | trellisLast => exact State.pieceLast_keeps (.refl _ s) (hm := by decide) ..
  | trellisRefusal => exact State.pieceRefused_keeps (.refl _ s) (hm := by decide) ..
  | cnWrite => exact .ite_fault (State.cnWrite_keeps (.refl _ s) (hm := by decide) ..)
  | cnRead => exact State.cnRead_keeps (.refl _ s) (hm := by decide) ..
  | cnResp => exact State.cnResp_keeps (.refl _ s) (hm := by decide) ..
  | cnDone => exact State.cnDone_keeps (.refl _ s) (hm := by decide) ..
  | cnReduce => exact .ite_fault (State.cnReduce_keeps (.refl _ s) (hm := by decide) ..)
  | cnResult => exact State.cnResult_keeps (.refl _ s) (hm := by decide) ..
  | cnBcast => exact .ite_fault (State.cnBcast_keeps (.refl _ s) (hm := by decide) ..)
  | cnFence => exact State.cnFence_keeps (.refl _ s) (hm := by decide) ..
  | cnReset => exact State.cnReset_keeps (.refl _ s) (hm := by decide) ..
  | cnStatus => exact .ite_fault (State.cnStatus_keeps (.refl _ s) (hm := by decide) ..)
  | cnTload => exact State.cnTload_keeps (.refl _ s) (hm := by decide) ..
  | mqChannelEnable | mqChannelDisable =>
    exact .ite (State.cmdWrite_MQ_CH_CFG_keeps (.refl _ s) (hm := by decide) ..)
      (State.cmdWrite_MQ_Q_CFG_keeps (.refl _ s) (hm := by decide) ..)
  | mqHandleEnable => exact State.cmdWrite_MQ_SH_CFG_keeps (.refl _ s) (hm := by decide) ..
  | mqRequestReceive => exact State.requestReceive_keeps (.refl _ s) (hm := by decide) ..
  | mqPlacementGrant => exact State.placementGrant_keeps (.refl _ s) (hm := by decide) ..
  | mqPublish => exact State.publish_keeps (.refl _ s) (hm := by decide) ..
  | queueContributionAdd => exact State.contributionAdd_keeps (.refl _ s) (hm := by decide) ..
  | mqRdWrite => exact State.writeRd_keeps (.refl _ s) (hm := by decide) ..
  | mqCdoneWrite => exact State.writeCdone_keeps (.refl _ s) (hm := by decide) ..
  | mqReleasedWrite => exact State.writeReleased_keeps (.refl _ s) (hm := by decide) ..
  | queueCompostDrain => exact State.queueDrain_keeps (.refl _ s) (hm := by decide) ..
  | waitEdgeRegister => exact State.edgeRegister_keeps (.refl _ s) (hm := by decide) ..
  | waitCycleScan => exact State.waitScan_keeps (.refl _ s) (hm := by decide) ..
  | bkOwnWrite => exact State.cmdWrite_BK_OWN_keeps (.refl _ s) (hm := by decide) ..
  | bkHandoverEnd => exact State.bkHandoverEnd_keeps (.refl _ s) (hm := by decide) ..
  | bankRetentionEnter | bankWake => exact State.cmdWrite_BK_RET_keeps (.refl _ s) (hm := by decide) ..
  | bankWakeDone => exact State.bkWakeDone_keeps (.refl _ s) (hm := by decide) ..
  | arbiterGrant => exact State.arbGrant_keeps (.refl _ s) (hm := by decide) ..
  | backoffExpiry => exact State.backoffDone_keeps (.refl _ s) (hm := by decide) ..
  | grantRevoke => exact State.revoke_keeps (.refl _ s) (hm := by decide) ..
  | dmTrackingPause => exact State.trackingPause_keeps (.refl _ s) (hm := by decide) ..
  | dmRefresh => exact State.bump_keeps (.refl _ s) (hm := by decide) ..
  | hostLineWrite => exact State.hostLine_keeps (.refl _ s) (hm := by decide) ..
  | hcCrdWrite => exact .hostCtrl fun u => State.hcCrd_keeps (.refl _ u) (hm := by decide) ..
  | hcEvinWrWrite => exact .hostCtrl fun u => State.hcEvinWr_keeps (.refl _ u) (hm := by decide) ..
  | hcRdWrite => exact .hostCtrl fun u => State.hcRd_keeps (.refl _ u) (hm := by decide) ..
  | hcEvdoneWrite => exact .hostCtrl fun u => State.hcEvdone_keeps (.refl _ u) (hm := by decide) ..
  | hostTrainingStep => exact State.trainStep_keeps (.refl _ s) (hm := by decide) ..
  | hostModeRegisterWrite => exact State.modeWrite_keeps (.refl _ s) (hm := by decide) ..
  | hostSelfRefresh => exact State.selfRefresh_keeps (.refl _ s) (hm := by decide) ..
  | hostClockTimeout => exact State.clockTimeout_keeps (.refl _ s) (hm := by decide) ..
  | gpRetry => exact State.cmdWrite_GP_PCTRL_keeps (.refl _ s) (hm := by decide) ..
  | trayenWrite => exact State.cmdWrite_GP_PCFG_keeps (.refl _ s) (hm := by decide) ..
  | trayScan => exact State.trayScan_keeps (.refl _ s) (hm := by decide) ..
  | nop => exact State.cmdNop_keeps (.refl _ s) (hm := by decide) ..
  | regrd => exact State.cmdRegrd_keeps (.refl _ s) (hm := by decide) ..
  | regwr => exact State.cmdRegwr_keeps (.refl _ s) (hm := by decide) ..
  | copyIn => exact State.cmdCopyIn_keeps (.refl _ s) (hm := by decide) ..
  | copyOut => exact State.cmdCopyOut_keeps (.refl _ s) (hm := by decide) ..
  | send => exact State.cmdSend_keeps (.refl _ s) (hm := by decide) ..
  | fenceEng => exact State.cmdFence_keeps (.refl _ s) (hm := by decide) ..
  | commandComplete => exact State.cmdDone_keeps (.refl _ s) (hm := by decide) ..
  | eventInInject => exact State.eventIn_keeps (.refl _ s) (hm := by decide) ..
  | hostCompostDrain => exact State.hostDrain_keeps (.refl _ s) (hm := by decide) ..
  | mirrorUpdate => exact State.mirrorUpdate_keeps (.refl _ s) (hm := by decide) ..
  | partitionEnable | partitionRelease => exact State.cmdWrite_GP_PART_CFG_keeps (.refl _ s) (hm := by decide) ..
  | partitionReleaseComplete => exact State.partReleased_keeps (.refl _ s) (hm := by decide) ..
  | gpMapEnable | gpMapDisable => exact State.cmdWrite_GP_MAP_keeps (.refl _ s) (hm := by decide) ..
  | gpEvsrcEnable => exact State.cmdWrite_GP_EVSRC_keeps (.refl _ s) (hm := by decide) ..
  | bindEntryEnable _ place _ => cases place with
    | mx => exact State.cmdWrite_MX_BIND_keeps (.refl _ s) (hm := by decide) ..
    | vx => exact State.cmdWrite_VX_BIND_keeps (.refl _ s) (hm := by decide) ..
    | port => exact State.cmdWrite_GP_EVBIND_keeps (.refl _ s) (hm := by decide) ..
  | hostChannelEnable => exact State.cmdWrite_GP_HC_CFG_keeps (.refl _ s) (hm := by decide) ..
  | seamDataCell => exact State.seamArrive_keeps (.refl _ s) (hm := by decide) ..
  | seamCreditCell => exact State.seamCredits_keeps (.refl _ s) (hm := by decide) ..
  | seamReplayRequest => exact State.seamReplay_keeps (.refl _ s) (hm := by decide) ..
  | seamIdleCell => exact State.seamIdle_keeps (.refl _ s) (hm := by decide) ..
  | seamEventDeliver => exact State.seamDeliver_keeps (.refl _ s) (hm := by decide) ..
  | seamHoldRelease => exact State.seamHold_keeps (.refl _ s) (hm := by decide) ..
  | seamRxTimeout => exact State.linkFail_keeps (.refl _ s) (hm := by decide) ..
  | pwReqWrite => exact State.cmdWrite_PW_REQ_keeps (.refl _ s) (hm := by decide) ..
  | domainTransition => exact State.domStep_keeps (.refl _ s) (hm := by decide) ..
  | domainWake => exact State.domWake_keeps (.refl _ s) (hm := by decide) ..
  | ckCoreWrite => exact State.cmdWrite_CK_CORE_keeps (.refl _ s) (hm := by decide) ..
  | coreClockRelockDone => exact State.coreRelock_keeps (.refl _ s) (hm := by decide) ..
  | ckFabWrite => exact State.cmdWrite_CK_FAB_keeps (.refl _ s) (hm := by decide) ..
  | fabricClockRelockDone => exact State.fabRelock_keeps (.refl _ s) (hm := by decide) ..
  | vidRailCheck => exact State.railCheck_keeps (.refl _ s) (hm := by decide) ..
  | droopTrigger => exact State.droop_keeps (.refl _ s) (hm := by decide) ..
  | droopStretchEnd => exact State.droopEnd_keeps (.refl _ s) (hm := by decide) ..
  | sensorSample => exact State.sensorSample_keeps (.refl _ s) (hm := by decide) ..
  | thermalCapStep => exact State.thermStep_keeps (.refl _ s) (hm := by decide) ..
  | thermalFabricStep => exact State.thermFabric_keeps (.refl _ s) (hm := by decide) ..
  | powerEstimate => exact State.powerEstimate_keeps (.refl _ s) (hm := by decide) ..
  | powerCapStep => exact State.powerStep_keeps (.refl _ s) (hm := by decide) ..
  | i3cOffsetWrite => exact State.i3cOffset_keeps (.refl _ s) (hm := by decide) ..
  | i3cRead => exact State.i3cRead_keeps (.refl _ s) (hm := by decide) ..
  | porstRelease => exact State.porstHigh_keeps (.refl _ s) (hm := by decide) ..
  | bootPhaseDone => exact State.bootDone_keeps (.refl _ s) (hm := by decide) ..
  | knownAnswerResult => exact State.knownAnswer_keeps (.refl _ s) (hm := by decide) ..
  | resetCore | resetCluster | resetPartition | resetDevice => exact State.cmdWrite_BU_RST_keeps (.refl _ s) (hm := by decide) ..
  | runtimeBistRequest => exact State.cmdWrite_BU_BIST_CTRL_keeps (.refl _ s) (hm := by decide) ..
  | bistStepDone => exact State.bistStep_keeps (.refl _ s) (hm := by decide) ..
  | rcvInfo => exact State.rcvInfo_keeps (.refl _ s) (hm := by decide) ..
  | rcvStage => exact State.rcvStage_keeps (.refl _ s) (hm := by decide) ..
  | rcvBoot => exact State.rcvBoot_keeps (.refl _ s) (hm := by decide) ..
  | flashRead => exact State.flashRead_keeps (.refl _ s) (hm := by decide) ..
  | flashErase => exact State.flashErase_keeps (.refl _ s) (hm := by decide) ..
  | flashProgram => exact State.flashProgram_keeps (.refl _ s) (hm := by decide) ..
  | scInfo => exact State.scInfo_keeps (.refl _ s) (hm := by decide) ..
  | getPubkey => exact State.getPubkey_keeps (.refl _ s) (hm := by decide) ..
  | getCert => exact State.getCert_keeps (.refl _ s) (hm := by decide) ..
  | attest => exact State.attest_keeps (.refl _ s) (hm := by decide) ..
  | lcChallenge => exact State.lcChallenge_keeps (.refl _ s) (hm := by decide) ..
  | lcToken => exact State.lcToken_keeps (.refl _ s) (hm := by decide) ..
  | setFloor => exact State.setFloor_keeps (.refl _ s) (hm := by decide) ..
  | keygen => exact State.keygen_keeps (.refl _ s) (hm := by decide) ..
  | pcWinWrite => exact State.cmdWrite_PC_WIN_keeps (.refl _ s) (hm := by decide) ..
  | rakeGo => exact State.cmdWrite_PC_RAKE_keeps (.refl _ s) (hm := by decide) ..
  | rakePassDone => exact State.rakePass_keeps (.refl _ s) (hm := by decide) ..
  | traceEnable => exact State.cmdWrite_PC_TRCFG_keeps (.refl _ s) (hm := by decide) ..
  | traceRingEnable => exact State.cmdWrite_PC_TRRING_keeps (.refl _ s) (hm := by decide) ..
  | i3cDynamicAddress => exact State.i3cAddress_keeps (.refl _ s) (hm := by decide) ..
  | domainTransitionComplete => exact State.rstWakes_keeps (State.domDone_keeps (.refl _ s) (hm := by decide) ..) (by decide)
  | arbiterReservationExpiry => exact State.resvExpire_keeps (.refl _ s) (hm := by decide) ..
  | commitCaptureStart => exact State.captureStart_keeps (.refl _ s) (hm := by decide) ..
  | consistencyCheckComplete => exact State.checkEnd_keeps (.refl _ s) (hm := by decide) ..
  | seamThrottle => exact State.throttle_keeps (State.throttle_keeps (.refl _ s) (hm := by decide) ..) _ (by decide)
  | peakStretchEnd => exact State.peakEnd_keeps (.refl _ s) (hm := by decide) ..
  | porstAssert => exact State.porstLow_keeps (.refl _ s) (hm := by decide) ..
  | sysrstAssert => exact State.sysrstDown_keeps (.refl _ s) (hm := by decide) ..
  | stewardWatchdog => exact State.watchdog_keeps (.refl _ s) (hm := by decide) ..
  | aonSupplyFault => exact State.aonFault_keeps (.refl _ s) (hm := by decide) ..
  | keepSupplyDrop => exact State.keepDrop_keeps (.refl _ s) (hm := by decide) ..
  | keepSupplyReturn => exact State.keepReturn_keeps (.refl _ s) (hm := by decide) ..
  | resetComplete => exact State.rstDone_keeps (.refl _ s) (hm := by decide) ..
  | randomHealthFail => exact State.rngFail_keeps (.refl _ s) (hm := by decide) ..
  | windowEnd => exact State.windowEnd_keeps (.refl _ s) (hm := by decide) ..
  | counterMirrorWriteDone => exact State.mirrorDone_keeps (.refl _ s) (hm := by decide) ..
  | sysrstRelease => exact State.sysrstUp_keeps (.refl _ s) (hm := by decide) ..

theorem keeps_of_exec {c : Instr} {s t : State} (h : exec c s = .next t) : Keeps (Part.mask (touches c)) s t := by
  have k := exec_keeps c s
  rw [h] at k
  exact k

/-- A step takes the front of the queue and keeps what its command keeps; an idle one keeps everything. -/
theorem keeps_of_step {s t : State} (h : step s = .next t) : ∃ m, Keeps m s t := by
  unfold step at h
  split at h
  · cases h
    exact ⟨0, .refl _ s⟩
  · exact ⟨_, (Keeps.pending_ _).comp (keeps_of_exec h)⟩

/-- Settles O46: a step keeps every canonical form, as its command does. -/
theorem everyStepKeepsTheCanonicalForm : Obligations.EveryStepKeepsTheCanonicalForm := by
  intro s t hs h
  obtain ⟨m, hm⟩ := keeps_of_step h
  exact hm.wf hs

end Sys2Proof.Machine
end

section
/-! What requests, transitions and wakes of the switched domains do (R465 to R470): one equation for each case of an operation. -/

namespace Sys2Proof.Machine

section
variable {s : State} {n v src : Nat} {req : Requester}

/-- A write of PW_REQn that R467, R468, R483 and R492 allow. -/
theorem State.pwReqWrite_allowed (ht : s.pw.tripped = false) (hv : v % 4 ≠ 3) :
    s.pwWriter req (if n < 96 then some n else if n < 192 then some (n - 96) else none) = true → s.pwForbidden n (v % 4) req = false →
    (s.pwReqWrite n v req).2 =
      let u := s.setFld .PW_REQ [n] PW_REQ_TARGET (v % 4)
      let u := if u.domWant n = 0 ∧ u.fld .PW_STAT [n] PW_STAT_STATE ≠ 0 then
        u.setFld .PW_STAT [n] PW_STAT_WAKESRC (match req with | .port _ => 2 | _ => 1) else u
      let u := u.domStep n
      if u.bit .PW_STAT [n] PW_STAT_PEND = true then u.pwPost n 0x0E01 else u := by
  intro hw hf
  unfold State.pwReqWrite
  simp only [ht, hw, hv, hf, Bool.not_true, Bool.false_eq_true, ↓reduceIte]
  rw [apply_ite Prod.snd] <;> rfl

theorem State.domStep_standing (ht : s.pw.tripped = false) (hst : s.fld .PW_STAT [n] PW_STAT_STATE ≠ 3)
    (h : s.domWant n = s.fld .PW_STAT [n] PW_STAT_STATE) :
    s.domStep n = (s.setFld .PW_STAT [n] PW_STAT_PEND 0).setFld .PW_STAT [n] PW_STAT_HOLD 0 := by
  simp only [State.domStep, hst, ht, h, Bool.false_eq_true, or_self, ↓reduceIte]

theorem State.domStep_held (ht : s.pw.tripped = false) (hst : s.fld .PW_STAT [n] PW_STAT_STATE ≠ 3)
    (h : s.fld .PW_STAT [n] PW_STAT_STATE < s.domWant n) (hh : s.holds n (s.domWant n) ≠ 0) :
    s.domStep n = (s.setFld .PW_STAT [n] PW_STAT_PEND 1).setFld .PW_STAT [n] PW_STAT_HOLD (s.holds n (s.domWant n)) := by
  simp only [State.domStep, hst, ht, h, h.ne', hh, Bool.false_eq_true, or_self, ↓reduceIte]

/-- A domain that is to change, with no hold against it, waits for the accesses it has accepted, or begins (R466, log entry 177). -/
theorem State.domStep_free (ht : s.pw.tripped = false) (hst : s.fld .PW_STAT [n] PW_STAT_STATE ≠ 3)
    (h : s.domWant n < s.fld .PW_STAT [n] PW_STAT_STATE ∨
      s.fld .PW_STAT [n] PW_STAT_STATE < s.domWant n ∧ s.holds n (s.domWant n) = 0) :
    s.domStep n = if s.fld .PW_STAT [n] PW_STAT_STATE = 0 ∧ s.domAccepted n = true then s else s.domBegin n (s.domWant n) := by
  have hne : s.domWant n ≠ s.fld .PW_STAT [n] PW_STAT_STATE := by omega
  have hhold : (if s.domWant n > s.fld .PW_STAT [n] PW_STAT_STATE then s.holds n (s.domWant n) else 0) = 0 := by
    split <;> omega
  simp only [State.domStep, hst, ht, hne, hhold, Bool.false_eq_true, or_self, ↓reduceIte, Bool.and_eq_true, decide_eq_true_eq]

theorem State.domWake_allowed (ht : s.pw.tripped = false)
    (h : src = 3 ∧ 96 ≤ n ∧ n < 192 ∨ src = 4 ∧ 196 ≤ n ∧ n < 220 ∨ src = 5 ∨ src = 6 ∧ n < 192) :
    s.domWake n src = s.wakeDomain n src := by
  unfold State.domWake
  refine if_pos ?_
  simp only [ht, Bool.not_false, Bool.and_true, Bool.or_eq_true, Bool.and_eq_true, beq_iff_eq, decide_eq_true_eq]
  omega

theorem State.domDone_eq (hst : s.fld .PW_STAT [n] PW_STAT_STATE = 3) (hd : s.domDrains n = false) :
    s.domDone n =
      let dst := (s.getDom n).goal - 1
      let u := (s.modDom n fun d => { was := d.was, back := d.back && dst == 0 }).domArrive n dst
      if n < 96 then
        let m := 96 + n
        let w := if u.fld .PW_STAT [m] PW_STAT_STATE = u.domWant m then u
          else ((u.modDom m fun _ => { back := (s.getDom n).back }).setFld .PW_STAT [m] PW_STAT_WAKESRC
            (u.fld .PW_STAT [n] PW_STAT_WAKESRC)).domArrive m (u.domWant m)
        w.vidUpdate (halfOf n)
      else u := if_neg (by simp [hst, hd])

end

/-- Settles O33: each operation's case, under the conditions that lead to it. -/
theorem domainCommandsHaveTheirEffects : Obligations.DomainCommandsHaveTheirEffects := by
  refine ⟨?request, ?transition, ?wake, ?completion⟩
  case request =>
    intro s req n v hr ht hw hv hf
    refine congrArg Host.Outcome.next ((State.cmdWrite_reached32 hr rfl rfl rfl).trans ?_)
    rw [show v.toNat % 2 ^ 32 = v.toNat from word_mod v]
    exact State.pwReqWrite_allowed ht hv hw hf
  case transition =>
    intro s n ht st t hst
    refine ⟨fun h => ?_, fun h hh => ?_, fun h0 h hh ha => ?_, fun h ha => ?_⟩
    · exact congrArg Host.Outcome.next (State.domStep_standing ht hst h)
    · exact congrArg Host.Outcome.next (State.domStep_held ht hst h hh)
    · exact congrArg Host.Outcome.next ((State.domStep_free ht hst (.inr ⟨h, hh⟩)).trans (if_pos ⟨h0, ha⟩))
    · exact congrArg Host.Outcome.next ((State.domStep_free ht hst h).trans (if_neg fun hc => by simp [ha hc.1] at hc))
  case wake =>
    intro s n src ht hsrc st
    refine ⟨fun h0 hg => ?_, fun h => ?_⟩
    · exact congrArg Host.Outcome.next ((State.domWake_allowed ht hsrc).trans (if_neg (not_or.2 ⟨h0, hg⟩)))
    · exact congrArg Host.Outcome.next ((State.domWake_allowed ht hsrc).trans (if_pos h))
  case completion =>
    intro s n hst hd dst u
    refine ⟨fun hn => ?_, fun hn => ?_⟩
    · exact congrArg (fun w : State => Host.Outcome.next w.rstWakes) ((State.domDone_eq hst hd).trans (if_neg (Nat.not_lt.2 hn)))
    · exact congrArg (fun w : State => Host.Outcome.next w.rstWakes) ((State.domDone_eq hst hd).trans (if_pos hn))

end Sys2Proof.Machine
end

section
/-! What the timebases and their input channels do, and what a sample leaves as it was (R51 to R60, R426, R581): one equation for each
case of an operation. -/

namespace Sys2Proof.Machine

/-! ## Folds, and writes of units -/

theorem State.each_nil {α : Type} (s : State) (f : State → α → State) : s.each [] f = s := rfl

theorem State.each_cons {α : Type} (s : State) (x : α) (l : List α) (f : State → α → State) :
    s.each (x :: l) f = (f s x).each l f := rfl

/-- What every change of a fold leaves, the fold leaves. -/
theorem State.each_leaves {α β : Type} (g : State → β) {f : State → α → State} {l : List α} (h : ∀ u, ∀ x ∈ l, g (f u x) = g u)
    (s : State) : g (s.each l f) = g s := by
  induction l generalizing s with
  | nil => rfl
  | cons x t ih => exact (ih (fun u y hy => h u y (List.mem_cons_of_mem x hy)) (f s x)).trans (h s x List.mem_cons_self)

section
variable {s : State} {req : Requester} {u : UnitRef} {r : Reg} {idx : List Nat} {en : Fld} {v : Nat} {cmd : Option (Nat × Nat)}
  {stop : State → State}

theorem State.underPart_allowed {kind unit part : Nat} {enabled : Bool} {newPart : Option Nat} (f : State → State)
    (h : s.deviceUnitCode req enabled part newPart = 0) : s.underPart kind unit req enabled part newPart f = (0, f s) :=
  if_neg (not_not.2 h)

theorem State.unitWrite_enable (hc : s.checking u = false) (he : s.bit r idx en = false) (hv : v.testBit en.lo = true) :
    s.unitWrite u r idx en v cmd stop = ((s.store r idx v).setFld r idx en 0).askCheck u v cmd := by
  simp only [State.unitWrite, hc, he, hv, Bool.false_eq_true, if_false, if_true]

theorem State.unitWrite_disable (hc : s.checking u = false) (he : s.bit r idx en = true) (hv : v.testBit en.lo = false) :
    s.unitWrite u r idx en v cmd stop = stop s := by
  simp only [State.unitWrite, hc, he, hv, Bool.false_eq_true, if_false, if_true]

end

/-! ## Samples of an input channel -/

/-- The pins of a channel at a sample of A and B. -/
def State.abPins (s : State) (m : Nat) (a b : Bool) : Nat :=
  (mget s.tbi m).pins / 4 * 4 + (if b then 2 else 0) + (if a then 1 else 0)

/-- The state once the filtered levels of A and B are those of the sample. -/
def State.abTaken (s : State) (m : Nat) (a b : Bool) : State :=
  (s.tbiPins m (s.abPins m a b)).setLevels m (s.tbiLevels m / 4 * 4 + s.tbiSeen m (s.abPins m a b) % 4)

/-- What the sample counts under the channel's mode, and whether it is an illegal transition (R51, R53). -/
def State.abEdge (s : State) (m : Nat) (a b : Bool) : Int × Bool :=
  edgeCount (s.fld .TB_IN_CFG [m] TB_IN_CFG_MODE) (s.bit .TB_IN_CFG [m] TB_IN_CFG_DIRSWAP)
    ((s.tbiLevels m).testBit 0) ((s.tbiLevels m).testBit 1)
    ((s.tbiSeen m (s.abPins m a b)).testBit 0) ((s.tbiSeen m (s.abPins m a b)).testBit 1)

/-- The pins of a channel at a sample of Z. -/
def State.zPins (s : State) (m : Nat) (z : Bool) : Nat := (mget s.tbi m).pins % 4 + (if z then 4 else 0)

/-- The state once the filtered level of Z is that of the sample. -/
def State.zTaken (s : State) (m : Nat) (z : Bool) : State :=
  (s.tbiPins m (s.zPins m z)).setLevels m (s.tbiLevels m % 4 + s.tbiSeen m (s.zPins m z) / 4 % 2 * 4)

/-- What a rising Z edge does in one timebase, by its ZMODE (R56). -/
def State.zMark (s : State) (n : Nat) : State :=
  let p := s.val .TB_POS [n]
  if s.fld .TB_CFG [n] TB_CFG_ZMODE = 1 then s.setVal .TB_ZLATCH [n] p
  else if s.fld .TB_CFG [n] TB_CFG_ZMODE = 2 then
    let t := s.setVal .TB_ZLATCH [n] p
    let r := p - t.val .TB_TARGET [n] * (t.fld .TB_DIV [n] TB_DIV_DIV_M1 + 1)
    (t.setVal .TB_POS [n] (p - r)).modTb n fun t => { t with net := t.net - r }
  else s

section
variable {s : State} {m : Nat} {a b z : Bool}

theorem State.tbiEdge_eq : s.tbiEdge m a b =
    if (s.abEdge m a b).2 = true then
      ((s.abTaken m a b).bumpFld .TB_IN_STATUS [m] TB_IN_STATUS_ERRCNT).each ((s.abTaken m a b).tbsOf m)
        fun s n => s.setFld .TB_STATUS [n] TB_STATUS_INERR 1
    else if (s.abEdge m a b).1 = 0 then s.abTaken m a b
    else
      ((s.abTaken m a b).wr .TB_IN_COUNT [m] ((s.abTaken m a b).rd .TB_IN_COUNT [m] + BitVec.ofInt 64 (s.abEdge m a b).1)).each
        ((s.abTaken m a b).tbsOf m) fun u n => u.tbCount n (s.abEdge m a b).1 := rfl

theorem State.tbiEdge_counts_none (h : s.abEdge m a b = (0, false)) : s.tbiEdge m a b = s.abTaken m a b := by
  rw [State.tbiEdge_eq, h]
  exact (if_neg Bool.false_ne_true).trans (if_pos rfl)

theorem State.tbiEdge_counts (h : (s.abEdge m a b).1 ≠ 0) (hl : (s.abEdge m a b).2 = false) : s.tbiEdge m a b =
    ((s.abTaken m a b).wr .TB_IN_COUNT [m] ((s.abTaken m a b).rd .TB_IN_COUNT [m] + BitVec.ofInt 64 (s.abEdge m a b).1)).each
      ((s.abTaken m a b).tbsOf m) fun u n => u.tbCount n (s.abEdge m a b).1 := by
  rw [State.tbiEdge_eq, if_neg (by rw [hl]; exact Bool.false_ne_true), if_neg h]

theorem State.tbiEdge_illegal (h : (s.abEdge m a b).2 = true) : s.tbiEdge m a b =
    ((s.abTaken m a b).bumpFld .TB_IN_STATUS [m] TB_IN_STATUS_ERRCNT).each ((s.abTaken m a b).tbsOf m)
      fun s n => s.setFld .TB_STATUS [n] TB_STATUS_INERR 1 := by
  rw [State.tbiEdge_eq, if_pos h]

theorem State.tbiZEdge_eq : s.tbiZEdge m z =
    if (!(s.tbiLevels m).testBit 2 && (s.tbiSeen m (s.zPins m z)).testBit 2) = true then
      (s.zTaken m z).each ((s.zTaken m z).tbsOf m) State.zMark
    else s.zTaken m z := by
  refine if_congr Iff.rfl (congrArg (State.each _ _) (funext₂ fun u n => ?_)) rfl
  by_cases h1 : u.fld .TB_CFG [n] TB_CFG_ZMODE = 1
  · simp [State.zMark, h1]
  · by_cases h2 : u.fld .TB_CFG [n] TB_CFG_ZMODE = 2
    · simp [State.zMark, h2]
    · simp [State.zMark, h1, h2]

end

/-- The illegal transition of quadrature: both levels change at once (R53). -/
theorem edgeCount_illegal {a b a' b' : Bool} (swap : Bool) (ha : a ≠ a') (hb : b ≠ b') : edgeCount 1 swap a b a' b' = (0, true) :=
  if_pos (by simp [ha, hb])

/-! ## Timebases -/

section
variable {s : State} {req : Requester} {n v : Nat}

theorem State.cmdWrite_tbCfg (hr : s.Reached req .TB_CFG [n]) (hv : v % 2 ^ 32 = v)
    (h : s.deviceUnitCode req (s.bit .TB_CFG [n] TB_CFG_EN) (s.fld .TB_CFG [n] TB_CFG_PART) (some (bitsOf v 8 3)) = 0) :
    s.cmdWrite req .TB_CFG [n] v = s.unitWrite (.tb n) .TB_CFG [n] TB_CFG_EN v none fun s => s.tbStop n := by
  rw [State.cmdWrite_reached32 hr rfl rfl rfl, hv]
  exact congrArg Prod.snd (State.underPart_allowed _ h)

theorem State.cmdWrite_tbTarget (hr : s.Reached req .TB_TARGET [n])
    (h : s.deviceUnitCode req (s.bit .TB_CFG [n] TB_CFG_EN) (s.fld .TB_CFG [n] TB_CFG_PART) none = 0) (v : DWord) :
    s.cmdWrite req .TB_TARGET [n] v.toNat = (s.noHeld req .TB_TARGET [n]).tbTargetWrite n v.toNat := by
  rw [State.cmdWrite_reached64 hr rfl (fun _ => rfl) rfl, Nat.mod_eq_of_lt v.isLt]
  exact congrArg Prod.snd (State.underPart_allowed (s := s.noHeld req .TB_TARGET [n]) _ h)

theorem State.tbTargetWrite_enabled (he : s.bit .TB_CFG [n] TB_CFG_EN = true) (hs : s.fld .TB_CFG [n] TB_CFG_SRC = 2) :
    s.tbTargetWrite n v = if v > s.val .TB_TARGET [n] then s.setVal .TB_TARGET [n] v else s.bump .TB_TGTDROP [n] :=
  if_pos (by simp [he, hs])

theorem State.tbTargetWrite_disabled (he : s.bit .TB_CFG [n] TB_CFG_EN = false) : s.tbTargetWrite n v = s := if_neg (by simp [he])

theorem State.tbExpire_periodic (he : s.bit .TB_CFG [n] TB_CFG_EN = true) (hs : s.fld .TB_CFG [n] TB_CFG_SRC = 1)
    (hp : s.val .TB_PERIOD [n] ≠ 0) : s.tbExpire n = s.setVal .TB_TARGET [n] (s.val .TB_TARGET [n] + 1) :=
  if_pos (by simp [he, hs, hp])

/-- A write of TB_IN_CFG of a channel that no enabled timebase takes (R581). -/
theorem State.tbInCfgWrite_free {m : Nat} (h : s.tbsOf m = []) : s.tbInCfgWrite m v =
    let u := s.setVal .TB_IN_CFG [m] (v % 2 ^ 9)
    let w := u.setLevels m (u.tbiSeen m (mget s.tbi m).pins)
    if s.fld .TB_IN_CFG [m] TB_IN_CFG_MODE = 0 ∧ w.fld .TB_IN_CFG [m] TB_IN_CFG_MODE ≠ 0 then w.setVal .TB_IN_COUNT [m] 0 else w :=
  if_neg (not_not.2 h)

/-- The same as a command that sees the pins of the moment. -/
theorem State.tbInWrite_free {m pins : Nat} {v : Word} (hr : s.Reached req .TB_IN_CFG [m]) (hf : s.tbsOf m = []) :
    s.tbInWrite req m v.toNat pins =
      let u := (s.tbiPins m pins).setVal .TB_IN_CFG [m] (v.toNat % 2 ^ 9)
      let w := u.setLevels m (u.tbiSeen m pins)
      if s.fld .TB_IN_CFG [m] TB_IN_CFG_MODE = 0 ∧ w.fld .TB_IN_CFG [m] TB_IN_CFG_MODE ≠ 0 then w.setVal .TB_IN_COUNT [m] 0 else w := by
  obtain ⟨hreach, hup⟩ := hr
  have hpins : mget (s.tbiPins m pins).tbi m = { pins := pins } := mget_mmod_self s.tbi m fun t => { t with pins := pins }
  have hseen : s.tbInWrite req m v.toNat pins = (s.tbiPins m pins).tbInCfgWrite m (v.toNat % 2 ^ 32) :=
    if_pos (Bool.and_eq_true_iff.2 ⟨hreach, hup 0 (by decide)⟩)
  rw [hseen, Nat.mod_eq_of_lt v.isLt, State.tbInCfgWrite_free (s := s.tbiPins m pins) hf, hpins]
  rfl

end

/-- Settles O4: each operation's case, under the conditions that lead to it. -/
theorem timebaseCommandsHaveTheirEffects : Obligations.TimebaseCommandsHaveTheirEffects := by
  refine ⟨?edge, ?zEdge, ?expiry, ?target, ?enable, ?disable, ?inCfg⟩
  case edge =>
    intro s m a b pins old new u r
    exact ⟨fun h => congrArg Host.Outcome.next (State.tbiEdge_counts_none h),
      fun h hl => congrArg Host.Outcome.next (State.tbiEdge_counts h hl), fun h => congrArg Host.Outcome.next (State.tbiEdge_illegal h)⟩
  case zEdge =>
    intro s m z pins old new u
    refine ⟨fun h => congrArg Host.Outcome.next (State.tbiZEdge_eq.trans (if_neg ?_)),
      fun ho hn => congrArg Host.Outcome.next (State.tbiZEdge_eq.trans (if_pos ?_))⟩
    · change ¬(!old.testBit 2 && new.testBit 2) = true
      rcases h with h | h <;> simp [h]
    · change (!old.testBit 2 && new.testBit 2) = true
      simp [ho, hn]
  case expiry =>
    intro s n he hs hp
    exact congrArg Host.Outcome.next (State.tbExpire_periodic he hs hp)
  case target =>
    intro s req n v hr h he hs
    exact congrArg Host.Outcome.next ((State.cmdWrite_tbTarget hr h v).trans (State.tbTargetWrite_enabled he hs))
  case enable =>
    intro s req n v hr h hc he
    rw [← he] at h
    exact congrArg Host.Outcome.next ((State.cmdWrite_tbCfg hr (withEn_mod v true) h).trans
      (State.unitWrite_enable hc he (withEn_testBit_zero v true)))
  case disable =>
    intro s req n v hr h hc he
    rw [← he] at h
    exact congrArg Host.Outcome.next ((State.cmdWrite_tbCfg hr (withEn_mod v false) h).trans
      (State.unitWrite_disable hc he (withEn_testBit_zero v false)))
  case inCfg =>
    intro s req m pins v hr hf u w
    exact congrArg Host.Outcome.next (State.tbInWrite_free hr hf)

end Sys2Proof.Machine
end

section
/-! What a sample of an input channel leaves of the other registers (R53), and how the target of a host-target timebase moves (R59). -/

namespace Sys2Proof.Machine

/-! ## Places -/

theorem addr_TB_CFG (n : Nat) : Reg.addr .TB_CFG [n] = 0xFE08000000 + n * 0x40 := rfl
theorem addr_TB_STATUS (n : Nat) : Reg.addr .TB_STATUS [n] = 0xFE0800000C + n * 0x40 := rfl
theorem addr_TB_TARGET (n : Nat) : Reg.addr .TB_TARGET [n] = 0xFE08000010 + n * 0x40 := rfl
theorem addr_TB_POS (n : Nat) : Reg.addr .TB_POS [n] = 0xFE08000018 + n * 0x40 := rfl
theorem addr_TB_REVERSE (n : Nat) : Reg.addr .TB_REVERSE [n] = 0xFE08000028 + n * 0x40 := rfl
theorem addr_TB_IN_STATUS (m : Nat) : Reg.addr .TB_IN_STATUS [m] = 0xFE08002004 + m * 0x10 := rfl
theorem addr_TB_IN_COUNT (m : Nat) : Reg.addr .TB_IN_COUNT [m] = 0xFE08002008 + m * 0x10 := rfl

/-! ## Illegal transitions -/

section
variable {s : State} {m : Nat} {a b : Bool}

/-- A sample shows its levels in TB_IN_STATUS and changes no other register. -/
theorem State.rd_abTaken_ne {r : Reg} {idx : List Nat} (h : r.addr idx ≠ Reg.addr .TB_IN_STATUS [m]) :
    (s.abTaken m a b).rd r idx = s.rd r idx := by
  rw [State.abTaken, State.setLevels, State.setFld, State.rd_wr_ne _ _ _ _ h, State.setFld, State.rd_wr_ne _ _ _ _ h, State.setFld,
    State.rd_wr_ne _ _ _ _ h]
  rfl

theorem State.abTaken_tb : (s.abTaken m a b).tb = s.tb := by simp [State.abTaken, State.setLevels, State.tbiPins]

/-- The levels shown lie beside the count of illegal transitions (R85). -/
theorem State.errcnt_abTaken :
    (s.abTaken m a b).fld .TB_IN_STATUS [m] TB_IN_STATUS_ERRCNT = s.fld .TB_IN_STATUS [m] TB_IN_STATUS_ERRCNT := by
  unfold State.abTaken State.setLevels State.setFld State.fld
  simp only [State.rd_wr_same]
  rw [Fld.get_set_apart (.inl (by decide)) _ _ (by decide) (by decide), Fld.get_set_apart (.inl (by decide)) _ _ (by decide) (by decide),
    Fld.get_set_apart (.inl (by decide)) _ _ (by decide) (by decide)]
  rfl

theorem lt_of_mem_tbsOf {n : Nat} (h : n ∈ s.tbsOf m) : n < 64 := List.mem_range.1 (List.mem_filter.1 h).1

theorem State.tbsOf_abTaken (m' : Nat) : (s.abTaken m a b).tbsOf m' = s.tbsOf m' := by
  refine List.filter_congr fun n hn => ?_
  have hcfg : (s.abTaken m a b).rd .TB_CFG [n] = s.rd .TB_CFG [n] := State.rd_abTaken_ne (by
    rw [addr_TB_CFG, addr_TB_IN_STATUS]
    have := List.mem_range.1 hn
    omega)
  simp only [State.bit, State.fld, hcfg]

end

/-- INERR set in the timebases of a list. -/
def State.noteInerr (s : State) (l : List Nat) : State := s.each l fun s n => s.setFld .TB_STATUS [n] TB_STATUS_INERR 1

theorem State.rd_noteInerr_ne {l : List Nat} {r : Reg} {idx : List Nat} (h : ∀ n ∈ l, r.addr idx ≠ Reg.addr .TB_STATUS [n]) (s : State) :
    (s.noteInerr l).rd r idx = s.rd r idx :=
  State.each_leaves (fun u => u.rd r idx) (fun u n hn => u.rd_wr_ne .TB_STATUS [n] _ (h n hn)) s

theorem State.noteInerr_tb (s : State) (l : List Nat) : (s.noteInerr l).tb = s.tb := by
  unfold State.noteInerr
  exact State.each_leaves State.tb (fun u n _ => u.setFld_tb .TB_STATUS [n] TB_STATUS_INERR 1) s

theorem State.bit_noteInerr {l : List Nat} {n : Nat} (h : n ∈ l) (s : State) :
    (s.noteInerr l).bit .TB_STATUS [n] TB_STATUS_INERR = true := by
  induction l generalizing s with
  | nil => exact absurd h List.not_mem_nil
  | cons x t ih =>
    by_cases ht : n ∈ t
    · exact ih ht _
    · obtain rfl : n = x := (List.mem_cons.1 h).resolve_right ht
      have hne : ∀ k ∈ t, Reg.addr .TB_STATUS [n] ≠ Reg.addr .TB_STATUS [k] := fun k hk he => by
        rw [addr_TB_STATUS, addr_TB_STATUS] at he
        obtain rfl : n = k := by omega
        exact ht hk
      rw [State.noteInerr, State.each_cons, ← State.noteInerr, State.bit, State.fld, State.rd_noteInerr_ne hne,
        State.setFld, State.rd_wr_same, Fld.get_set_same _ _ _ (by decide) (by decide)]
      rfl

/-- Settles O57: the sample changes TB_IN_STATUS of its channel and TB_STATUS of the timebases of the channel, and no other register. -/
theorem illegalTransitionsCountNothing : Obligations.IllegalTransitionsCountNothing := by
  intro s m a b hmode old new ha hb
  have hedge : (s.abEdge m.val a b).2 = true := by
    rw [State.abEdge, hmode]
    exact congrArg Prod.snd (edgeCount_illegal _ ha hb)
  have hexec : exec (.tbiEdgeAccept m a b) s = .next (((s.abTaken m.val a b).bumpFld .TB_IN_STATUS [m.val]
      TB_IN_STATUS_ERRCNT).noteInerr (s.tbsOf m.val)) := by
    have ht := State.tbiEdge_illegal hedge
    rw [State.tbsOf_abTaken] at ht
    exact congrArg Host.Outcome.next ht
  have hkept : ∀ (r : Reg) (k : Nat), (∀ n ∈ s.tbsOf m.val, r.addr [k] ≠ Reg.addr .TB_STATUS [n]) →
      r.addr [k] ≠ Reg.addr .TB_IN_STATUS [m.val] →
      (((s.abTaken m.val a b).bumpFld .TB_IN_STATUS [m.val] TB_IN_STATUS_ERRCNT).noteInerr (s.tbsOf m.val)).val r [k] = s.val r [k] :=
    fun _ _ hst hin => congrArg BitVec.toNat
      ((State.rd_noteInerr_ne hst _).trans ((State.rd_wr_ne _ _ _ _ hin).trans (State.rd_abTaken_ne hin)))
  refine ⟨_, hexec, hkept _ _ (fun n hn => ?_) ?_, ?_, fun n => ⟨fun hn => State.bit_noteInerr hn _, hkept _ _ (fun k _ => ?_) ?_,
    hkept _ _ (fun k _ => ?_) ?_, ?_⟩⟩
  · have := lt_of_mem_tbsOf hn
    rw [addr_TB_IN_COUNT, addr_TB_STATUS]
    omega
  · rw [addr_TB_IN_COUNT, addr_TB_IN_STATUS]
    omega
  · rw [State.fld, State.rd_noteInerr_ne (fun n hn => by
      have := lt_of_mem_tbsOf hn
      rw [addr_TB_IN_STATUS, addr_TB_STATUS]
      omega), State.bumpFld, State.setFld, State.rd_wr_same, Fld.get_set_same _ _ _ (by decide) (by decide), State.errcnt_abTaken]
    have hwidth : 2 ^ (TB_IN_STATUS_ERRCNT.hi + 1 - TB_IN_STATUS_ERRCNT.lo) = 65536 := by decide
    rw [hwidth]
    omega
  · rw [addr_TB_TARGET, addr_TB_STATUS]
    omega
  · rw [addr_TB_TARGET, addr_TB_IN_STATUS]
    omega
  · rw [addr_TB_POS, addr_TB_STATUS]
    omega
  · rw [addr_TB_POS, addr_TB_IN_STATUS]
    omega
  · rw [State.getTb, State.noteInerr_tb, State.bumpFld_tb, State.abTaken_tb, State.getTb]

/-! ## Host targets -/

theorem findReg_TB_TARGET : ∀ n : Fin 64, findReg (Reg.place .TB_TARGET [n.val]) = some (.TB_TARGET, [n.val], 0) := by decide +kernel

/-- A write of the lower word of TB_TARGET is held (R13). -/
theorem State.accessWrite_tbTarget_low {s : State} {req : Requester} {n : Fin 64} (hr : s.Reached req .TB_TARGET [n.val]) (w : DWord) :
    s.accessWrite req .w32 (Reg.place .TB_TARGET [n.val]) w.toNat =
      { s with helds := mput s.helds (latchKey req (Reg.place .TB_TARGET [n.val])) (some (w.setWidth 32)) } := by
  have hf := findReg_TB_TARGET n
  have hans : s.Answers .TB_TARGET [n.val] [n.val] 0 (Reg.place .TB_TARGET [n.val]) :=
    { aligned := by
        have hplace : Reg.place .TB_TARGET [n.val] = 0xFE08000010 + n.val * 0x40 := rfl
        omega
      found := hf, up := hr.2 0 (by decide), narrow := by decide, home := rfl }
  rw [State.accessWrite_32 _ ((State.regReach_found hf).trans hr.1), State.writeWord_lower hans rfl, ofNat_word_mod]
  rfl

/-- The start of a timebase leaves its target at zero, which no later write of the start touches (R60). -/
theorem State.tbStart_target (s : State) (n : Nat) : (s.tbStart n).val .TB_TARGET [n] = 0 := by
  have hcfg : Reg.addr .TB_TARGET [n] ≠ Reg.addr .TB_CFG [n] := by rw [addr_TB_TARGET, addr_TB_CFG]; omega
  have hst : Reg.addr .TB_TARGET [n] ≠ Reg.addr .TB_STATUS [n] := by rw [addr_TB_TARGET, addr_TB_STATUS]; omega
  have hrev : Reg.addr .TB_TARGET [n] ≠ Reg.addr .TB_REVERSE [n] := by rw [addr_TB_TARGET, addr_TB_REVERSE]; omega
  have hpos : Reg.addr .TB_TARGET [n] ≠ Reg.addr .TB_POS [n] := by rw [addr_TB_TARGET, addr_TB_POS]; omega
  unfold State.tbStart State.val State.setFld State.setVal
  rw [State.rd_wr_ne _ _ _ _ hcfg, State.rd_wr_ne _ _ _ _ hst, State.rd_wr_ne _ _ _ _ hst, State.rd_wr_ne _ _ _ _ hrev,
    State.rd_wr_ne _ _ _ _ hpos, State.rd_wr_same]
  rfl

/-- Settles O58: the write of TB_TARGET by the state of its timebase, its lower word alone, and the start. -/
theorem hostTargetsOnlyRise : Obligations.HostTargetsOnlyRise := by
  intro s req n hr h hs
  refine ⟨fun v => ?_, fun a w ha => ?_, State.tbStart_target s n.val⟩
  · have hw := State.cmdWrite_tbTarget hr h v
    refine ⟨fun he hv => ?_, fun he hv => ?_, fun he => ?_⟩
    · exact congrArg Host.Outcome.next (hw.trans ((State.tbTargetWrite_enabled (s := s.noHeld req .TB_TARGET [n.val]) he hs).trans (if_pos hv)))
    · exact congrArg Host.Outcome.next (hw.trans ((State.tbTargetWrite_enabled (s := s.noHeld req .TB_TARGET [n.val]) he hs).trans (if_neg (Nat.not_lt.2 hv))))
    · exact congrArg Host.Outcome.next (hw.trans (State.tbTargetWrite_disabled (s := s.noHeld req .TB_TARGET [n.val]) he))
  · rw [exec_write s (.inl rfl), ha, State.accessWrite_tbTarget_low hr w]

end Sys2Proof.Machine
end

section
/-! What the commands of the world groups do (R49, R61, R71 to R73, R79 to R81, R87, R88): one equation for each case of an operation. -/

namespace Sys2Proof.Machine

section
variable {s : State} {req : Requester} {g k v : Nat} {cmd : Option (Nat × Nat)}

/-! ## WG_CFG -/

theorem State.wgOn_eq_false (h : s.wgState g = wsDisabled) : s.wgOn g = false := by simp [State.wgOn, h]

theorem State.wgOn_eq_true (h : s.wgState g ≠ wsDisabled) : s.wgOn g = true := by simp [State.wgOn, h]

theorem State.cmdWrite_wgCfg (hr : s.Reached req .WG_CFG [g]) (hv : v % 2 ^ 32 = v)
    (h : s.deviceUnitCode req (s.wgOn g) (s.wgPart g) (some (bitsOf v 7 3)) = 0) :
    s.cmdWrite req .WG_CFG [g] v = s.wgCfgWrite g v none := by
  rw [State.cmdWrite_reached32 hr rfl rfl rfl, hv]
  exact congrArg Prod.snd (State.underPart_allowed _ h)

theorem State.wgCfgWrite_enable (hc : s.checking (.wg g) = false) (he : s.bit .WG_CFG [g] WG_CFG_EN = false) (ho : s.wgOn g = false)
    (hv : v.testBit 0 = true) :
    s.wgCfgWrite g v cmd = ((s.store .WG_CFG [g] v).setFld .WG_CFG [g] WG_CFG_EN 0).askCheck (.wg g) v cmd := by
  simp only [State.wgCfgWrite, hc, he, ho, hv, Bool.false_eq_true, if_false, if_true]

theorem State.wgCfgWrite_disable (hc : s.checking (.wg g) = false) (he : s.bit .WG_CFG [g] WG_CFG_EN = true)
    (hv : v.testBit 0 = false) : s.wgCfgWrite g v cmd = s.wgStop g := by
  simp only [State.wgCfgWrite, hc, he, hv, Bool.false_eq_true, if_false, if_true]

/-! ## Opening a step -/

/-- A step opens where R61 holds, no resumed group is late (R81) and no skipped step is still to be counted (R72). -/
theorem State.tryOpen_opens (hm : s.mayOpen g = true) (hk : s.openGap g = k) (h0 : k ≠ 0) (hf : s.fenced g ((s.getWg g).last + k) = false)
    (hl : (s.getWg g).resumed = false ∨ s.overrun g = false) (hs : k ≤ (s.getWg g).skipCounted + 1) :
    s.tryOpen g = s.openStep g k := by
  have hlate : ((s.getWg g).resumed && s.overrun g) = false := by rcases hl with h | h <;> simp [h]
  have hbar : (s.getWg g).epWait = false := by
    simp only [State.mayOpen, Bool.and_eq_true, Bool.not_eq_true'] at hm
    exact hm.2
  have hskip : ¬k - 1 > (s.getWg g).skipCounted := by omega
  simp only [State.tryOpen, hm, hk, hf, hlate, hskip, hbar, h0, beq_iff_eq, Bool.not_true, Bool.false_and, Bool.or_false, Bool.false_or,
    Bool.false_eq_true, if_false]

/-! ## WG_CTRL -/

theorem State.regWrite_wgCtrl (h : s.deviceUnitCode req (s.wgOn g) (s.wgPart g) none = 0) :
    s.regWrite req .WG_CTRL [g] v cmd = (0, s.wgCtrlWrite g v) :=
  State.underPart_allowed (fun s => s.wgCtrlWrite g v) h

theorem State.cmdWrite_wgCtrl (hr : s.Reached req .WG_CTRL [g]) (hv : v % 2 ^ 32 = v)
    (h : s.deviceUnitCode req (s.wgOn g) (s.wgPart g) none = 0) : s.cmdWrite req .WG_CTRL [g] v = s.wgCtrlWrite g v := by
  rw [State.cmdWrite_reached32 hr rfl rfl rfl, hv, State.regWrite_wgCtrl h]

/-- HALT comes before RESUME (R88). -/
theorem State.wgCtrlWrite_halt (hv : v.testBit 0 = true) : s.wgCtrlWrite g v = s.wgHalt g := if_pos hv

theorem State.wgCtrlWrite_resume (h0 : v.testBit 0 = false) (h1 : v.testBit 1 = true) :
    s.wgCtrlWrite g v = s.wgResume g (v.testBit 2) := by
  rw [State.wgCtrlWrite, if_neg (by simp [h0]), if_pos h1]

theorem State.wgResume_notHalted (realign : Bool) (h : s.wgState g ≠ wsHalted) : s.wgResume g realign = s := if_pos (by simp [h])

theorem State.wgResume_halted (realign : Bool) (h : s.wgState g = wsHalted) : s.wgResume g realign =
    let u := s.setFld .WG_STATUS [g] WG_STATUS_REASON 0
    let u := u.modWg g fun w =>
      { w with resumed := !realign, realign := realign,
               skipL := if realign = true ∧ u.tbFree (u.wgTb g) = false ∧ 1 < (s.lag g).toNat then (s.lag g).toNat else 0 }
    if (u.getWg g).swap = 3 then (u.modWg g fun w => { w with swap := 2 }).setWgState g wsSwapping
    else if (u.getWg g).swapDue = true then u.swapStart g
    else u.settleState g := by
  simp only [State.wgResume, h, bne_self_eq_false, Bool.false_eq_true, if_false, Bool.and_eq_true, Bool.not_eq_true', decide_eq_true_eq,
    gt_iff_lt, and_assoc]

end

/-- Settles O5: each operation's case, under the conditions that lead to it. -/
theorem worldGroupCommandsHaveTheirEffects : Obligations.WorldGroupCommandsHaveTheirEffects := by
  refine ⟨?enable, ?disable, ?stepOpen, ?inseq, ?halt, ?resume⟩
  case enable =>
    intro s req g v hr h hc he hst
    have ho := State.wgOn_eq_false hst
    rw [← ho] at h
    exact congrArg Host.Outcome.next ((State.cmdWrite_wgCfg hr (withEn_mod v true) h).trans
      (State.wgCfgWrite_enable hc he ho (withEn_testBit_zero v true)))
  case disable =>
    intro s req g v hr h hc he hst
    rw [← State.wgOn_eq_true hst] at h
    exact congrArg Host.Outcome.next ((State.cmdWrite_wgCfg hr (withEn_mod v false) h).trans
      ((State.wgCfgWrite_disable hc he (withEn_testBit_zero v false)).trans (if_neg hst)))
  case stepOpen =>
    intro s g k hm hk h0 hf hl hs
    exact congrArg Host.Outcome.next (State.tryOpen_opens hm hk h0 hf hl hs)
  case inseq =>
    intro s req g v hr h
    have hw := State.cmdWrite_reached64 (h := [g.val]) (v := v.toNat) hr rfl (fun _ => rfl) rfl
    rw [Nat.mod_eq_of_lt v.isLt] at hw
    exact congrArg Host.Outcome.next (hw.trans
      (congrArg Prod.snd (State.underPart_allowed (s := s.noHeld req .WG_INSEQ [g.val]) _ h)))
  case halt =>
    intro s req g hr h ho
    rw [← ho] at h
    exact congrArg Host.Outcome.next ((State.cmdWrite_wgCtrl hr rfl h).trans ((State.wgCtrlWrite_halt rfl).trans (if_pos ho)))
  case resume =>
    intro s req g realign hr h hst
    have ho : s.wgOn g.val = true := State.wgOn_eq_true (by rw [hst]; decide)
    rw [← ho] at h
    cases realign with
    | false =>
      exact congrArg Host.Outcome.next ((State.cmdWrite_wgCtrl hr rfl h).trans
        ((State.wgCtrlWrite_resume rfl rfl).trans (State.wgResume_halted false hst)))
    | true =>
      exact congrArg Host.Outcome.next ((State.cmdWrite_wgCtrl hr rfl h).trans
        ((State.wgCtrlWrite_resume rfl rfl).trans (State.wgResume_halted true hst)))

/-- Settles O59: WG_CTRL looks at HALT first, and RESUME at the group's state. -/
theorem haltComesBeforeResume : Obligations.HaltComesBeforeResume := by
  refine ⟨fun s req g v cmd h0 _ => ?_, fun s req g hr h hst => ⟨?_, ?_⟩⟩
  · have hctrl : ∀ u : State, u.wgCtrlWrite g.val v = u.wgCtrlWrite g.val 1 := fun u =>
      (State.wgCtrlWrite_halt h0).trans (State.wgCtrlWrite_halt rfl).symm
    exact congrArg (s.underPart 1 g.val req (s.wgOn g.val) (s.wgPart g.val) none) (funext hctrl)
  · exact congrArg Host.Outcome.next ((State.cmdWrite_wgCtrl hr rfl h).trans
      ((State.wgCtrlWrite_resume rfl rfl).trans (State.wgResume_notHalted false hst)))
  · exact congrArg Host.Outcome.next ((State.cmdWrite_wgCtrl hr rfl h).trans
      ((State.wgCtrlWrite_resume rfl rfl).trans (State.wgResume_notHalted true hst)))

end Sys2Proof.Machine
end

section
/-! What harvest rounds and the two ends of a swap do (R64 to R68, R76, R79, R80, R82): one equation for each case of an operation. -/

namespace Sys2Proof.Machine

@[simp] theorem State.getWg_modWg (s : State) (g : Nat) (f : Wg → Wg) : (s.modWg g f).getWg g = f (s.getWg g) := mget_mmod_self s.wg g f

@[simp] theorem State.bit_modWg (s : State) (g : Nat) (f : Wg → Wg) (r : Reg) (idx : List Nat) (x : Fld) :
    (s.modWg g f).bit r idx x = s.bit r idx x := rfl

/-! ## Harvest rounds -/

/-- A round of a step, counted, with its sum in WG_TALLY (R66). -/
def State.roundCounted (s : State) (g : Nat) : State :=
  (s.setWgState g wsHarvesting).roundSum g ((s.getWg g).tallyW.sum + (s.getWg g).tallyE.sum)

/-- The counts of a step that closes (R61, R62, R82). -/
def State.stepCounted (s : State) (g : Nat) : State :=
  let u1 := s.setFld .WG_HROUNDS [g] WG_HROUNDS_LAST (min (s.getWg g).rounds 0xFFFF)
  let u2 := u1.setFld .WG_HROUNDS [g] WG_HROUNDS_MOST (max (u1.fld .WG_HROUNDS [g] WG_HROUNDS_MOST) (min (s.getWg g).rounds 0xFFFF))
  u2.modWg g fun w => { w with last := u2.val .WG_STEP [g], runs := w.runs + 1, opened := [], done := [] }

/-- The epoch position moved by a step that closes, and by a skip that it starts where no input fence may lengthen it (R72, R163). -/
def State.stepPositioned (s : State) (g : Nat) : State :=
  let skip := (s.getWg g).skipL
  let fence := s.bit .WG_CFG [g] WG_CFG_INFENCE
  let s := s.epochAdvance g (1 + (if fence then 0 else skip - 1))
  if fence then s else s.modWg g fun w => { w with skipCounted := skip - 1 }

/-- The state a group that does not finish goes to once its step has closed: HALTED, SWAPPING, EPOCH or WAITING (R61, R76). -/
def State.stepLeft (s : State) (g : Nat) : State :=
  let swap := s.bit .WG_CFG [g] WG_CFG_ROT && decide ((s.getWg g).runs ≥ s.fld .WG_ROT [g] WG_ROT_RUN)
  let code := (s.getWg g).haltCode
  if code ≠ 0 then (s.modWg g fun w => { w with haltCode := 0, swapDue := swap }).haltNow g code
  else if swap then s.swapStart g
  else s.settleState g

section
variable {s : State} {g : Nat}

/-- A round over both halves once every engine of the group has reported (R65, R66). -/
theorem State.harvestRound_whole (h : Nat) (ho : s.wgOpen g = true) (hs : s.isSplit = false) (hd : s.allDone g (s.enginesOf g) = true) :
    s.harvestRound g h =
      if (s.getWg g).tallyW.sum + (s.getWg g).tallyE.sum = 0 then (s.roundCounted g).closeStep g else s.roundCounted g := by
  simp only [State.harvestRound, ho, hs, hd, Bool.not_true, Bool.false_and, Bool.false_eq_true, if_false]
  rfl

theorem State.overrunPolicy_onTime (goes : Bool) (h : s.overrun g = false) : s.overrunPolicy g goes = s := if_pos (by simp [h])

theorem State.epochAdvance_noWriter (n : Nat) (h : s.writerSet g = none) : s.epochAdvance g n = s := by
  unfold State.epochAdvance
  rw [h]

theorem State.settleState_waiting (h : (s.getWg g).epWait = false) : s.settleState g = s.setWgState g wsWaiting := by
  rw [State.settleState, h]
  rfl

theorem State.closeStep_eq : s.closeStep g =
    let u := (s.stepCounted g).overrunPolicy g ((s.getWg g).haltCode == 0 && !(s.getWg g).disabling)
    if (s.getWg g).disabling = true then (u.epochAdvance g 1).enterDisabled g 0 else (u.stepPositioned g).stepLeft g := rfl

theorem State.stepPositioned_noWriter (hw : s.writerSet g = none) :
    s.stepPositioned g = if s.bit .WG_CFG [g] WG_CFG_INFENCE = true then s
      else s.modWg g fun w => { w with skipCounted := (s.getWg g).skipL - 1 } := by
  simp only [State.stepPositioned, State.epochAdvance_noWriter _ hw]

theorem State.stepLeft_waits (hh : (s.getWg g).haltCode = 0) (hr : s.bit .WG_CFG [g] WG_CFG_ROT = false)
    (he : (s.getWg g).epWait = false) : s.stepLeft g = s.setWgState g wsWaiting := by
  unfold State.stepLeft
  simp only [hh, hr, ne_eq, not_true_eq_false, Bool.false_and, Bool.false_eq_true, if_false]
  exact State.settleState_waiting he

/-- A step that closes on time, of a group that neither halts nor finishes nor rotates nor writes a learning set: it waits (R61). -/
theorem State.closeStep_waits (hd : (s.getWg g).disabling = false) (hh : ((s.stepCounted g).getWg g).haltCode = 0)
    (ho : (s.stepCounted g).overrun g = false) (hw : (s.stepCounted g).writerSet g = none)
    (hr : (s.stepCounted g).bit .WG_CFG [g] WG_CFG_ROT = false) (he : ((s.stepCounted g).getWg g).epWait = false) :
    s.closeStep g = if (s.stepCounted g).bit .WG_CFG [g] WG_CFG_INFENCE = true then (s.stepCounted g).setWgState g wsWaiting
      else ((s.stepCounted g).modWg g fun w => { w with skipCounted := ((s.stepCounted g).getWg g).skipL - 1 }).setWgState g wsWaiting := by
  rw [State.closeStep_eq, State.overrunPolicy_onTime _ ho]
  refine (if_neg (by simp [hd])).trans ?_
  rw [State.stepPositioned_noWriter hw]
  split
  · exact State.stepLeft_waits hh hr he
  · exact State.stepLeft_waits (by rw [State.getWg_modWg]; exact hh) (by rw [State.bit_modWg]; exact hr)
      (by rw [State.getWg_modWg]; exact he)

/-! ## Swaps -/

/-- The end of a write-out that runs (R76, R79). -/
theorem State.swapWriteOutDone_runs (h1 : (s.getWg g).swap = 1) (hr : s.swapRuns g (s.wgCohort g) = true)
    (hh : s.homeReady g (s.wgCohort g) = true) : s.swapWriteOutDone g =
      let u := (s.swapOut g (s.wgCohort g)).homeBeats g (s.wgCohort g) true
      let next := (u.wgCohort g + 1) % (u.wgCount g / u.wgResident g)
      let u := u.setVal .WG_COHORT [g] next
      (u.setVal .WG_WSTEP [g] (mget (u.getWg g).wsteps next)).modWg g fun w => { w with swap := 2 } := by
  simp only [State.swapWriteOutDone, h1, hr, hh, ne_eq, not_true_eq_false, Bool.not_true, Bool.false_eq_true, or_self, if_false]

/-- The state after the lines of a cohort's home have come in and been counted (R76, R392). -/
def State.homeRead (s : State) (g : Nat) (meets : LineFate) : State :=
  (s.homeBeats g (s.wgCohort g) false).dmMeets (s.homeBase g (s.wgCohort g)) (s.homeBytes g) meets

/-- The end of a read-in that runs: it fails on an unreadable word or a failing parameter set (R80, R105). -/
theorem State.readInDone_runs {meets : LineFate} (h2 : (s.getWg g).swap = 2) (hr : s.swapRuns g (s.wgCohort g) = true)
    (hh : s.homeReady g (s.wgCohort g) = true) : s.readInDone g meets =
      let v := s.homeRead g meets
      let u := v.swapIn g (v.wgCohort g)
      if meets.badIn (s.homeBase g (s.wgCohort g)) (s.homeBytes g) = true then v.swapFail g 0x0183
      else if (!u.swapGood g) = true then u.swapFail g 0x0281 else u.swapResident g := by
  unfold State.readInDone
  exact (if_neg (by simp [h2, hr])).trans (if_neg (by simp [hh]))

theorem State.swapResident_stays (h : (State.getWg (State.adoptOpens (s.modWg g fun w => { w with swap := 0 }) g) g).disabling = false) :
    s.swapResident g = State.settleState (State.adoptOpens (s.modWg g fun w => { w with swap := 0 }) g) g := if_neg (by simp [h])

theorem State.swapFail_halts (code : Nat) (h : (s.getWg g).disabling = false) :
    s.swapFail g code = (s.modWg g fun w => { w with swap := 3 }).haltNow g code := if_neg (by simp [h])

end

/-- Settles O6: each operation's case, under the conditions that lead to it. -/
theorem harvestAndSwapCommandsHaveTheirEffects : Obligations.HarvestAndSwapCommandsHaveTheirEffects := by
  refine ⟨?round, ?writeOut, ?readIn⟩
  case round =>
    intro s g h ho hs hd sum u u1 u2 u3
    have hround := State.harvestRound_whole h.val ho hs hd
    refine ⟨fun h0 => ?_, fun h0 hdis hhalt hover hwriter hrot hep => ?_⟩
    · exact congrArg Host.Outcome.next (hround.trans (if_neg h0))
    · exact congrArg Host.Outcome.next (hround.trans ((if_pos h0).trans (State.closeStep_waits hdis hhalt hover hwriter hrot hep)))
  case writeOut =>
    intro s g h1 hr hh
    exact congrArg Host.Outcome.next (State.swapWriteOutDone_runs h1 hr hh)
  case readIn =>
    intro s g meets h2 hr hh base v u w
    have hread := State.readInDone_runs (meets := meets) h2 hr hh
    refine ⟨fun hb hg hd => ?_, fun hb hd => ?_⟩
    · have hsound : ¬meets.badIn base (s.homeBytes g.val) = true := by simp [LineFate.badIn, hb]
      have hgood : ¬(!u.swapGood g.val) = true := by simp [hg]
      exact congrArg Host.Outcome.next
        (hread.trans ((if_neg hsound).trans ((if_neg hgood).trans (State.swapResident_stays hd))))
    · have hbad : meets.badIn base (s.homeBytes g.val) = true := bne_iff_ne.2 hb
      exact congrArg Host.Outcome.next (hread.trans ((if_pos hbad).trans (State.swapFail_halts 0x0183 hd)))

end Sys2Proof.Machine
end

section
/-! What the routers, the injection queues, the spill and the golden rotation of the event mesh do (R268 to R276, R278, R282): one equation
for each case of an operation. -/

namespace Sys2Proof.Machine

/-! ## A router's record after an update -/

section
variable {s : State} {c k : Nat} {f h : Rt → Rt}

@[simp] theorem State.getRt_modRt (s : State) (c : Nat) (f : Rt → Rt) : (s.modRt c f).getRt c = f (s.getRt c) := mget_mmod_self s.rt c f

theorem State.modRt_congr (hf : f (s.getRt c) = h (s.getRt c)) : s.modRt c f = s.modRt c h :=
  congrArg (fun x => { s with rt := mput s.rt c x }) hf

/-- What an update leaves of every router's record it leaves at each router. -/
theorem State.modRt_leaves {α : Type} (g : Rt → α) (hf : ∀ r, g (f r) = g r) (s : State) (c k : Nat) :
    g ((s.modRt c f).getRt k) = g (s.getRt k) := by
  by_cases hk : k = c
  · rw [hk, State.getRt_modRt, hf]
  · exact congrArg g (mget_mmod_ne s.rt f hk)

theorem State.getRt_congr {t : State} (h : t.rt = s.rt) (k : Nat) : t.getRt k = s.getRt k := by rw [State.getRt, State.getRt, h]

end

/-! ## What a flit that finds the seam port busy leaves -/

theorem State.noteBusy_cases (s : State) (c : Nat) (ports : List Nat) :
    s.noteBusy c ports = s ∨ s.noteBusy c ports = (s.modRt c fun r => { r with busy := true }).bump .EF_SEAMBUSY [c] := by
  unfold State.noteBusy
  split
  · exact .inr rfl
  · exact .inl rfl

theorem State.noteBusy_leaves {α : Type} (g : Rt → α) (hg : ∀ r : Rt, g { r with busy := true } = g r) (s : State) (c : Nat)
    (ports : List Nat) (k : Nat) : g ((s.noteBusy c ports).getRt k) = g (s.getRt k) := by
  rcases s.noteBusy_cases c ports with h | h
  · rw [h]
  · rw [h, State.getRt_congr (State.bump_rt _ _ _ _), State.modRt_leaves g hg]

theorem State.noteBusy_golden (s : State) (c : Nat) (ports : List Nat) (h : Nat) : (s.noteBusy c ports).golden h = s.golden h := by
  rcases s.noteBusy_cases c ports with e | e
  · rw [e]
  · rw [e, State.golden, State.getHf, State.bump_half, State.modRt_half, ← State.getHf, ← State.golden]

theorem State.noteBusy_isSplit (s : State) (c : Nat) (ports : List Nat) : (s.noteBusy c ports).isSplit = s.isSplit := by
  rcases s.noteBusy_cases c ports with e | e
  · rw [e]
  · have hne : Reg.addr .SM_STATUS [] ≠ Reg.addr .EF_SEAMBUSY [c] := by
      have hsm : Reg.addr .SM_STATUS [] = 0xFE01000000 := rfl
      have hef : Reg.addr .EF_SEAMBUSY [c] = 0xF00F700140 + (c * 0x10000000 + 0) := rfl
      omega
    rw [e, State.isSplit, State.fld, State.bump, State.setVal, State.rd_wr_ne _ _ _ _ hne, State.modRt_rd, ← State.fld, ← State.isSplit]

/-- A flit is absorbed in transit by the permanent holes beside its router and by the split alone. -/
theorem State.transitAbsorb_none_congr {s t : State} (hh : ∀ k, (t.getRt k).hole = (s.getRt k).hole) (hs : t.isSplit = s.isSplit)
    {c : Nat} {f : Flit} (h : t.transitAbsorb c f = none) : s.transitAbsorb c f = none := by
  unfold State.transitAbsorb at h ⊢
  simp only [hh, hs] at h
  split at h
  · cases h
  · rename_i hb
    split at h
    · cases h
    · rename_i hsp
      exact (if_neg hb).trans (if_neg hsp)

/-! ## One flit at a router -/

section
variable {s : State} {c p q : Nat} {m : MFlit}

theorem State.routeEject_passes (ht : s.transitAbsorb c m.f = none) (hd : atDest c m.f = false) :
    s.routeEject c [(p, m)] = (s, [{ port := p, m := m, fail := false }]) := by
  simp [State.routeEject, ht, hd]

theorem State.routeEject_ejects {t : State} (ht : s.transitAbsorb c m.f = none) (hd : atDest c m.f = true) (he : (s.getRt c).ej < 2)
    (hj : s.eject c m = some t) : s.routeEject c [(p, m)] = (t.modRt c fun r => { r with ej := r.ej + 1 }, []) := by
  simp [State.routeEject, ht, hd, Nat.not_le.2 he, hj]

/-- A flit in transit leaves by its first free productive port (R271 step 3). -/
theorem State.routeOne_forwards (ht : s.transitAbsorb c m.f = none) (hd : atDest c m.f = false)
    (hp : (productive c m.f).find? ((s.noteBusy c (productive c m.f)).portOpen c) = some q) :
    s.routeOne c [(p, m)] = (s.noteBusy c (productive c m.f)).sendProd c q m := by
  unfold State.routeOne
  simp only [sortDown, insertBy, List.foldr_cons, List.foldr_nil, State.routeEject_passes ht hd, State.routeForward, hp]
  rfl

/-- Without one it is deflected to the lowest free mesh port (R271 step 4). -/
theorem State.routeOne_deflects (ht : s.transitAbsorb c m.f = none) (hd : atDest c m.f = false)
    (hp : (productive c m.f).find? ((s.noteBusy c (productive c m.f)).portOpen c) = none)
    (hq : (List.range 4).find? ((s.noteBusy c (productive c m.f)).portOpen c) = some q) :
    s.routeOne c [(p, m)] =
      let u := s.noteBusy c (productive c m.f)
      let m' : MFlit := { m with f := Flit.put m.f 112 6 (min 63 (fAge m.f + 1)) }
      (((u.markOld c m.f).bump .EF_DEFL [c]).trace c m'.f 1 (coordOf c 0) (q + 4)).sendPort c q m' := by
  unfold State.routeOne
  simp only [sortDown, insertBy, List.foldr_cons, List.foldr_nil, State.routeEject_passes ht hd, State.routeForward, hp, State.each_cons,
    State.each_nil, State.routeDeflect, hq]

/-- A sound flit at its destination whose queue has room takes an ejection slot (R278). -/
theorem State.eject_delivers (hk : checkFlit m.f = ⟨m.f, false, false⟩) (he : s.ejectCheck c m = 0) (hr : s.queueRoom c m.f = true) :
    s.eject c m = some ((((s.setFld .EF_STATUS [c] EF_STATUS_AGEMAX
      (max (s.fld .EF_STATUS [c] EF_STATUS_AGEMAX) (fAge m.f))).trace c m.f 2 (coordOf c (fDC m.f)) 0).modRt c
        fun r => { r with dlv := r.dlv ++ [m] }).bump .EF_EJ [c]) := by
  simp only [State.eject, hk, he, hr, Bool.false_eq_true, if_false, if_true]

theorem State.routeOne_delivers (ht : s.transitAbsorb c m.f = none) (hd : atDest c m.f = true) (hj : (s.getRt c).ej < 2)
    (hk : checkFlit m.f = ⟨m.f, false, false⟩) (he : s.ejectCheck c m = 0) (hr : s.queueRoom c m.f = true) :
    s.routeOne c [(p, m)] = (((((s.setFld .EF_STATUS [c] EF_STATUS_AGEMAX
      (max (s.fld .EF_STATUS [c] EF_STATUS_AGEMAX) (fAge m.f))).trace c m.f 2 (coordOf c (fDC m.f)) 0).modRt c
        fun r => { r with dlv := r.dlv ++ [m] }).bump .EF_EJ [c]).modRt c fun r => { r with ej := r.ej + 1 }) := by
  unfold State.routeOne
  simp only [sortDown, insertBy, List.foldr_cons, List.foldr_nil, State.routeEject_ejects ht hd hj (State.eject_delivers hk he hr),
    State.routeForward]
  rfl

/-! ## The routers of a half -/

/-- In a fabric cycle every router of the half takes its inputs and, unless it is a hole or in reset, allocates its outputs (R271). -/
theorem State.flitRoute_eq (s : State) (h : Nat) (errs : List FlitErr) : s.flitRoute h errs =
    let work := (halfClusters' h).map fun c => (c, s.heads errs c)
    let u := s.each (halfClusters' h) fun s c => s.modRt c fun r =>
      { r with inN := none, inE := none, inS := none, inW := none, used := [], ej := 0, injDone := false, relDone := false, busy := false }
    u.each work fun s x => if (s.getRt x.1).hole = true ∨ 3 ≤ (s.getRt x.1).reset then s else s.routeOne x.1 x.2 := by
  refine congrArg (State.each _ _) (funext₂ fun u x => if_congr ?_ rfl rfl)
  rw [Bool.or_eq_true, decide_eq_true_eq]

/-! ## Injection -/

theorem State.fillInj_idle (h : ∀ k, k < 20 → s.engineOut c k = []) : s.fillInj c = s := by
  unfold State.fillInj State.each
  refine List.foldl_fixed' (fun i => ?_) (List.range 20)
  dsimp only
  rw [h _ (Nat.mod_lt _ (by decide))]
  exact ite_self _

theorem State.reenterAll_empty (hs : (s.getRt c).spill = []) (ho : (s.getRt c).ovf = []) : s.reenterAll c = s := by
  simp [State.reenterAll, State.each, hs, ho]

theorem State.goldHeld_otherGolden (h : s.golden (halfOf c) ≠ some c) : s.goldHeld c = false := by
  simp [State.goldHeld, h]

/-- An empty queue has nothing to inject. -/
theorem State.injectN_empty (h : (s.getRt c).injq = []) (n : Nat) : s.injectN c n = s := by
  cases n with
  | zero => rfl
  | succ n => simp [State.injectN, State.goldHeld, State.injectHead, h]

theorem State.injFlit_rewritten (h : m.rw = true) : s.injFlit m = m := by
  rw [State.injFlit, State.injRemap, if_pos h]

/-- The head of the queue, rewritten or of no remap, leaves on its first free productive port (R274). -/
theorem State.injectHead_sends {rest : List MFlit} (hi : (s.getRt c).injq = m :: rest) (hy : fDY m.f < 6) (hrw : m.rw = true)
    (ht : s.transitAbsorb c m.f = none) (hd : atDest c m.f = false) (hg : s.golden (halfOf c) ≠ some c)
    (hp : (productive c m.f).find? (s.portOpen c) = some p) :
    s.injectHead c = some ((((s.modRt c fun r => { r with injq := rest }).injected c m.f).bump .EF_INJ [c]).sendProd c p m) := by
  have hremap : s.injRemap m = none := if_pos hrw
  simp only [State.injectHead, hi, State.injFlit_rewritten hrw, hremap, ht, hd, hp, Nat.not_le.2 hy, beq_iff_eq, hg, Bool.false_eq_true,
    ge_iff_le, if_false]

/-! ## What a flit that leaves the injection queue leaves of it -/

theorem State.trace_rt (f : Flit) (stage whr data : Nat) : (s.trace c f stage whr data).rt = s.rt :=
  (State.trace_keeps (Keeps.refl 1572882 s) c f stage whr data (by decide)).same .rt (by decide)

theorem State.injected_rt (f : Flit) : (s.injected c f).rt = s.rt :=
  (State.injected_keeps (Keeps.refl 1573010 s) c f (by decide)).same .rt (by decide)

theorem Rt.setInput_injq (r : Rt) (p : Nat) (x : Option MFlit) : (r.setInput p x).injq = r.injq := by
  unfold Rt.setInput
  split <;> rfl

theorem State.markOld_injq (f : Flit) (k : Nat) : ((s.markOld c f).getRt k).injq = (s.getRt k).injq := by
  unfold State.markOld
  split
  · split
    · refine State.modRt_leaves Rt.injq ?_ s c k
      exact fun _ => rfl
    · rfl
  · rfl

theorem State.sendPort_injq (k : Nat) : ((s.sendPort c p m).getRt k).injq = (s.getRt k).injq := by
  have hused : ∀ u : State, u.rt = (s.modRt c fun r => { r with used := p :: r.used }).rt → (u.getRt k).injq = (s.getRt k).injq := by
    intro u hu
    rw [State.getRt_congr hu]
    refine State.modRt_leaves Rt.injq ?_ s c k
    exact fun _ => rfl
  unfold State.sendPort
  dsimp only
  split
  · refine (State.modRt_leaves Rt.injq ?_ _ _ k).trans (hused _ rfl)
    exact fun r => r.setInput_injq _ _
  · exact hused _ (State.modSdir_rt ..)

theorem State.sendProd_injq (k : Nat) : ((s.sendProd c p m).getRt k).injq = (s.getRt k).injq := by
  rw [State.sendProd, State.sendPort_injq, State.getRt_congr (State.trace_rt ..), State.getRt_congr (State.bump_rt ..), State.markOld_injq]

/-- One flit alone in the queue leaves it, and the second place of the cycle finds the queue empty (R274). -/
theorem State.injectN_one (hi : (s.getRt c).injq = [m]) (hy : fDY m.f < 6) (hrw : m.rw = true)
    (hd : atDest c m.f = false) (hg : s.golden (halfOf c) ≠ some c) :
    let u := s.noteBusy c (productive c m.f)
    u.transitAbsorb c m.f = none → (productive c m.f).find? (u.portOpen c) = some p →
    s.injectN c 2 = (((u.modRt c fun r => { r with injq := [] }).injected c m.f).bump .EF_INJ [c]).sendProd c p m := by
  intro u ht hp
  have hts : s.transitAbsorb c m.f = none :=
    State.transitAbsorb_none_congr (s.noteBusy_leaves Rt.hole (fun _ => rfl) c _) (s.noteBusy_isSplit c _) ht
  have hwant : s.noteWant c m.f = u := if_pos (by simp [State.meshBound, hy, hd, hts])
  have hhead := State.injectHead_sends ((s.noteBusy_leaves Rt.injq (fun _ => rfl) c _ c).trans hi) hy hrw ht hd
    (by rw [State.noteBusy_golden]; exact hg) hp
  rw [State.injectN, State.goldHeld_otherGolden hg, hi]
  simp only [Bool.false_eq_true, if_false, State.injFlit_rewritten hrw, hwant]
  rw [hhead]
  refine State.injectN_empty ?_ 1
  rw [State.sendProd_injq, State.getRt_congr (State.bump_rt ..), State.getRt_congr (State.injected_rt ..), State.getRt_modRt]

/-- A cycle's turn of the injection queue, where no engine has a flit to hand over and nothing re-enters (R274). -/
theorem State.flitInject_idle (hn : (s.getRt c).injDone = false) (ho : ∀ k, k < 20 → s.engineOut c k = []) (hh : s.isHole c = false)
    (hs : (s.getRt c).spill = []) (hv : (s.getRt c).ovf = []) :
    s.flitInject c = (s.modRt c fun r => { r with injDone := true }).injectN c 2 := by
  have hhole : (s.modRt c fun r => { r with injDone := true }).isHole c = false := by
    rw [State.isHole, State.getRt_modRt]
    exact hh
  unfold State.flitInject
  rw [if_neg (by simp [hn]), State.fillInj_idle ho]
  dsimp only
  rw [if_neg (by simp [hhole]), State.reenterAll_empty (by rw [State.getRt_modRt]; exact hs) (by rw [State.getRt_modRt]; exact hv)]

/-! ## The spill -/

/-- The flits of the spill leave it for the delivery stage of an engine that is not fenced and has room (R282). -/
theorem State.spillOne_delivers (hs : (s.getRt c).spill = [m]) (hd : atDest c m.f = true) (hf : s.fencedEng c (fDC m.f) = false)
    (hr : s.queueRoom c m.f = true) : s.spillOne c =
      some (((s.modRt c fun r => { r with spill := [] }).noteSpill c).modRt c fun r => { r with dlv := r.dlv ++ [m] }) := by
  have herase : (s.modRt c fun r => { r with spill := r.spill.erase m }) = s.modRt c fun r => { r with spill := [] } :=
    State.modRt_congr (by rw [hs, List.erase_cons_head])
  simp [State.spillOne, hs, hd, hf, hr, herase]

theorem State.spillOne_empty (hs : (s.getRt c).spill = []) : s.spillOne c = none := by simp [State.spillOne, hs]

/-- The one flit of the spill is released, and the second release of the cycle finds the spill empty (R282). -/
theorem State.spillRelease_one (hn : (s.getRt c).relDone = false) (hs : (s.getRt c).spill = [m]) (hd : atDest c m.f = true) :
    let u := s.modRt c fun r => { r with relDone := true }
    u.fencedEng c (fDC m.f) = false → u.queueRoom c m.f = true →
    s.spillRelease c =
      ((u.modRt c fun r => { r with spill := [] }).noteSpill c).modRt c fun r => { r with dlv := r.dlv ++ [m] } := by
  intro u hf hr
  have hus : (u.getRt c).spill = [m] := by rw [State.getRt_modRt]; exact hs
  unfold State.spillRelease
  rw [if_neg (by simp [hn])]
  simp only [State.spillOne_delivers hus hd hf hr, u]
  rw [State.spillOne_empty, Option.getD_none]
  rw [State.getRt_modRt, State.noteSpill, State.getRt_congr (State.setFld_rt ..), State.getRt_modRt]

end

/-! ## Golden rotation -/

theorem State.getHf_modHf (s : State) (k : Nat) (f : Hf → Hf) : (s.modHf k f).getHf k = f (s.getHf k) := mget_mmod_self s.half k f

theorem State.getHf_modHf_ne (s : State) {k h : Nat} (f : Hf → Hf) (hk : h ≠ k) : (s.modHf k f).getHf h = s.getHf h :=
  mget_mmod_ne s.half f hk

theorem State.golden_cleared {s : State} {h : Nat} (hg : (s.getHf h).gold = 0) : s.golden h = none := if_pos hg

/-- A scan outside a golden period, in a device that is not split (R275). -/
theorem State.goldenScan_whole {s : State} {h : Nat} (he : s.bit .EF_GOLD [0] EF_GOLD_EN = true) (hs : s.isSplit = false)
    (hg : s.golden h = none) : s.goldenScan h =
      let v := (List.range 96).foldl (fun v c => v ||| (s.getRt c).old) 0
      let u := s.each (List.range 96) fun s c => s.modRt c fun r => { r with old := 0 }
      (nextGolden v (s.fld .EF_GOLDSTAT [0] EF_GOLDSTAT_ID) 0 96).elim u fun g =>
        ((((u.modHf 0 fun x => { x with gold := g + 1 }).modHf 1 fun x => { x with gold := g + 1 }).setFld .EF_GOLDSTAT [0]
          EF_GOLDSTAT_ID g).setFld .EF_GOLDSTAT [0] EF_GOLDSTAT_ACTIVE 1).setFld .EF_STATUS [g] EF_STATUS_GOLDEN 1 := by
  have hclear : ∀ {α : Type} (x : State → α), (∀ u c, x (u.modRt c fun r => { r with old := 0 }) = x u) →
      x (s.each (List.range 96) fun s c => s.modRt c fun r => { r with old := 0 }) = x s := fun x hx =>
    State.each_leaves x (fun u c _ => hx u c) s
  have hsplit := hclear State.isSplit fun _ _ => rfl
  have hlast := hclear (fun u => u.fld .EF_GOLDSTAT [0] EF_GOLDSTAT_ID) fun _ _ => rfl
  simp only [State.goldenScan, he, hs, hg, hsplit, hlast, Option.isSome_none, Bool.not_true, Bool.not_false, Bool.true_or, Bool.or_self,
    Bool.false_eq_true, if_false, if_true]
  generalize (List.range 96).foldl (fun v c => v ||| (s.getRt c).old) 0 = v
  generalize nextGolden v (s.fld .EF_GOLDSTAT [0] EF_GOLDSTAT_ID) 0 96 = pick
  generalize (s.each (List.range 96) fun s c => s.modRt c fun r => { r with old := 0 }) = u
  cases pick with
  | none => rfl
  | some g => simp only [State.each_cons, State.each_nil, Option.elim_some]

/-- The end of a golden period, in a device that is not split (R275). -/
theorem State.goldenEnd_whole {s : State} {h g : Nat} (hs : s.isSplit = false) (hg : s.golden h = some g) : s.goldenEnd h =
    (((s.modHf 0 fun x => { x with gold := 0 }).modHf 1 fun x => { x with gold := 0 }).setFld .EF_GOLDSTAT [0] EF_GOLDSTAT_ACTIVE
      0).setFld .EF_STATUS [g] EF_STATUS_GOLDEN 0 := by
  have hwest := State.golden_cleared (s := (s.modHf 0 fun x => { x with gold := 0 }).modHf 1 fun x => { x with gold := 0 }) (h := 0)
    (by rw [State.getHf_modHf_ne _ _ (by decide), State.getHf_modHf])
  have heast := State.golden_cleared (s := (s.modHf 0 fun x => { x with gold := 0 }).modHf 1 fun x => { x with gold := 0 }) (h := 1)
    (by rw [State.getHf_modHf])
  simp only [State.goldenEnd, hg, hs, State.each_cons, State.each_nil, hwest, heast, Option.isSome_none, Bool.or_self,
    Bool.false_eq_true, if_false]

/-- Settles O21: each operation's case, under the conditions that lead to it. -/
theorem routerCommandsHaveTheirEffects : Obligations.RouterCommandsHaveTheirEffects := by
  refine ⟨?inject, ?route, ?flit, ?spill, ?scan, ?periodEnd⟩
  case inject =>
    intro s c m p hn ho hh hi hs hv hg hy hrw hd u v ht hp
    have hi' : ((s.modRt c.val fun r => { r with injDone := true }).getRt c.val).injq = [m] := by rw [State.getRt_modRt]; exact hi
    exact congrArg Host.Outcome.next ((State.flitInject_idle hn ho hh hs hv).trans (State.injectN_one hi' hy hrw hd hg ht hp))
  case route =>
    intro s h errs
    exact congrArg Host.Outcome.next (s.flitRoute_eq h.val errs)
  case flit =>
    intro s c port m ht
    exact ⟨fun hd => ⟨fun p hp => State.routeOne_forwards ht hd hp, fun q hp hq => State.routeOne_deflects ht hd hp hq⟩,
      fun hd hk hj he hr => State.routeOne_delivers ht hd hj hk he hr⟩
  case spill =>
    intro s c m hn hs hd u hf hr
    exact congrArg Host.Outcome.next (State.spillRelease_one hn hs hd hf hr)
  case scan =>
    intro s h he hs hg v u
    have hscan := State.goldenScan_whole he hs hg
    dsimp only at hscan
    refine ⟨fun hnext => congrArg Host.Outcome.next ?_, fun g hnext => congrArg Host.Outcome.next ?_⟩
    · rw [hnext, Option.elim_none] at hscan
      exact hscan
    · rw [hnext, Option.elim_some] at hscan
      exact hscan
  case periodEnd =>
    intro s h g hs hg
    exact congrArg Host.Outcome.next (State.goldenEnd_whole hs hg)

end Sys2Proof.Machine
end

section
/-! What the commands of the neuron cores do (R65, R95, R98, R102, R111, R113, R114, R131, R133, R167, R278): one equation for each case of an
operation. -/

namespace Sys2Proof.Machine

/-! ## The number of an engine and its parts -/

section
variable {c slot : Nat}

theorem eidCluster_eidOf (hn : slot < 32) : eidCluster (eidOf c slot) = c := by
  unfold eidCluster eidOf
  omega

theorem eidSlot_eidOf (hn : slot < 32) : eidSlot (eidOf c slot) = slot := by
  unfold eidSlot eidOf
  omega

theorem eidOf_not_port (hc : c < 96) (hn : slot < 32) : ¬eidOf c slot ≥ 0x1000 := by
  unfold eidOf
  omega

/-- The node that serves an engine is that of the engine's cluster. -/
theorem engNode_eidOf (hc : c < 96) (hn : slot < 32) : engNode (eidOf c slot) = c :=
  (if_neg (eidOf_not_port hc hn)).trans (eidCluster_eidOf hn)

end

/-! ## Enabling a core, and the fill of its power tables -/

section
variable {s : State} {c n : Nat}

theorem State.coreTouch_bit (s : State) (a : Nat) (r : Reg) (idx : List Nat) (f : Fld) : (s.coreTouch a).bit r idx f = s.bit r idx f := by
  have hregs : (s.coreTouch a).regs = s.regs := (State.coreTouch_keeps (Keeps.refl 256 s) a (by decide)).same .regs (by decide)
  rw [State.bit, State.fld, State.rd, hregs, ← State.rd, ← State.fld, ← State.bit]

theorem State.ncCfgWrite_enable {v : Nat} (he : s.bit .NC_CFG [c, n] NC_CFG_EN = false) (hv : v.testBit 0 = true) :
    s.ncCfgWrite c n v =
      let u := (s.setFld .NC_CFG [c, n] NC_CFG_DEPTH_M1 (bitsOf v 8 6)).setFld .NC_CFG [c, n] NC_CFG_SLEEP (bitsOf v 1 1)
      (u.setFld .NC_CFG [c, n] NC_CFG_EN 1).setNcState c n ncFilling := by
  simp only [State.ncCfgWrite, he, hv, Bool.false_eq_true, if_false, if_true]

theorem State.cmdWrite_ncCfg {req : Requester} {v : Nat} (hr : s.Reached req .NC_CFG [c, n]) (hv : v % 2 ^ 32 = v) :
    s.cmdWrite req .NC_CFG [c, n] v = (s.coreTouch (Reg.place .NC_CFG [c, n])).ncCfgWrite c n v := by
  rw [State.cmdWrite_reachedCore hr rfl (fun _ => rfl) rfl, hv]
  rfl

theorem State.ncFillDone_filling (h : s.ncState c n = ncFilling) : s.ncFillDone c n = (s.fillTables c n).setNcState c n ncIdle := if_pos h

end

/-! ## The OPEN of a step -/

section
variable {s s₀ : State} {bad : List Nat} {errs : List LinkErr} {g c slot : Nat}

theorem State.cnOpenTo_near (hc : c < 96) (hn : slot < 32) (hf : s₀.farCluster c = false) (hp : s₀.cnPass c errs = some s) :
    s₀.cnOpenTo g (eidOf c slot) bad errs = s.cnOpen bad g (eidOf c slot) := by
  rw [State.cnOpenTo, engNode_eidOf hc hn, State.cnDown, hf, State.cnTo, hp]
  rfl

theorem State.cnOpenTo_far (hc : c < 96) (hn : slot < 32) (hf : s.farCluster c = true) :
    s.cnOpenTo g (eidOf c slot) bad errs = s.seamSend 0 (cnHeader 3 c 2 g :: s.openWords g) := by
  rw [State.cnOpenTo, engNode_eidOf hc hn]
  exact if_pos hf

/-- An engine that the OPEN of a group's step finds: of the group, not yet opened in the step, and neither fenced nor in reset. -/
structure State.OpenDue (s : State) (g k : Nat) : Prop where
  stepping : s.wgState g = wsStepping
  fresh : (s.getWg g).opened.contains k = false
  member : (s.enginesOf g).contains k = true
  answers : s.engSilent k = false

/-- An engine takes note that it has the OPEN of a group's step. -/
def State.gotOpen (s : State) (g k : Nat) : State := s.modWg g fun w => { w with opened := w.opened ++ [k] }

section
variable (hd : s.OpenDue g (eidOf c slot)) (hc : c < 96)
include hd hc

/-- What the OPEN does at an engine, by the engine's kind: a neuron core, the matrix core, or a vector core (R102). -/
theorem State.cnOpen_due (hn : slot < 32) : s.cnOpen bad g (eidOf c slot) =
    if slot < 16 then (s.gmapOf c slot g).elim s fun e =>
      if s.ncState c slot = ncIdle then
        ((s.openCore bad c slot e g).integTraces c slot g (s.wgWStep g)).gotOpen g (eidOf c slot)
      else s
    else if slot = 18 then ((s.openEngine c 2 g).mxOpen c g).gotOpen g (eidOf c slot)
    else (s.openEngine c (slot - 16) g).gotOpen g (eidOf c slot) := by
  obtain ⟨hstep, hfresh, hmem, hans⟩ := hd
  simp only [State.cnOpen, hstep, hfresh, hmem, hans, eidOf_not_port hc hn, eidCluster_eidOf hn, eidSlot_eidOf hn, ne_eq,
    not_true_eq_false, Bool.not_true, Bool.false_eq_true, or_self, if_false]
  cases s.gmapOf c slot g <;> rfl

theorem State.cnOpen_core {e : Nat} (hn : slot < 16) (he : s.gmapOf c slot g = some e) (hi : s.ncState c slot = ncIdle) :
    s.cnOpen bad g (eidOf c slot) =
      ((s.openCore bad c slot e g).integTraces c slot g (s.wgWStep g)).gotOpen g (eidOf c slot) := by
  rw [State.cnOpen_due hd hc (by omega), if_pos hn, he, Option.elim_some, if_pos hi]

theorem State.cnOpen_matrix (hn : slot = 18) :
    s.cnOpen bad g (eidOf c slot) = ((s.openEngine c 2 g).mxOpen c g).gotOpen g (eidOf c slot) := by
  rw [State.cnOpen_due hd hc (by omega), if_neg (by omega), if_pos hn]

theorem State.cnOpen_vector (h16 : 16 ≤ slot) (h18 : slot < 18) :
    s.cnOpen bad g (eidOf c slot) = (s.openEngine c (slot - 16) g).gotOpen g (eidOf c slot) := by
  rw [State.cnOpen_due hd hc (by omega), if_neg (by omega), if_neg (by omega)]

end

/-! ## The report of a finished engine -/

theorem State.emitDone_reports {k : Nat} (hs : s.wgState g = wsStepping) (hd : (s.getWg g).done.contains k = false)
    (hm : (s.enginesOf g).contains k = true) (he : s.engDone g k = true) :
    s.emitDone g k =
      let u := s.modWg g fun w => { w with done := w.done ++ [k] }
      if u.allDone g (u.enginesOf g) = true then u.setWgState g wsHarvesting else u := by
  simp only [State.emitDone, hs, hd, hm, he, ne_eq, not_true_eq_false, Bool.not_true, Bool.false_eq_true, or_self, if_false]

end

/-! ## Flits at the delivery stage and in the input queue -/

section
variable {s u : State} {c n slot : Nat} {m : MFlit} {bad : List Nat}

/-- A flit of the delivery stage goes to an engine that is neither fenced nor off and has room for it (R278). -/
theorem State.deliverTo_gives {want room : Flit → Bool} {give : State → Flit → State} (ht : s.takeDlv c want = some (m, u))
    (hf : s.fencedEng c slot = false) (ho : s.engineOff c slot = false) (hr : room m.f = true) :
    s.deliverTo c slot want room give = give u m.f := by
  simp only [State.deliverTo, ht, hf, ho, hr, Bool.false_eq_true, if_false, if_true]

/-- A flit of an open group whose step is open, or the one after it, waits for the lanes (R98). -/
theorem State.coreEnqueue_waits {w : State} {f : Flit} {e g : Nat} {now : Bool} (hk : fKind f ≠ 3)
    (hw : s.acceptWorld (fWorld f) (halfOf c) = w) (he : w.entryOf c n (fWorld f) = some (e, g)) (hs : w.stampFate c n g f = some now) :
    s.coreEnqueue c n f = w.modNc c n fun x => { x with inq := x.inq ++ [f] } := by
  simp only [State.coreEnqueue, hk, hw, he, hs, if_false]

/-- The lane unit of a core that is awake delivers the head of its queue, and counts the cycles this took (R97, R99, R111). -/
theorem State.laneDelivery_delivers {f : Flit} {rest : List Flit} {e g k : Nat} (held conf aconf : Nat) (ha : s.ncState c n ≠ ncSleep)
    (hq : (s.getNc c n).inq = f :: rest) (hf : s.fate bad c n f = .now e g k) :
    s.laneDelivery bad c n held conf aconf =
      let u := ((s.bump .NC_HSTALL [c, n] held).bump .NC_LCONF [c, n] conf).bump .LR_ACONF [c, n] aconf
      let r := (u.modNc c n fun u => { u with inq := rest }).deliver bad c n e g k f
      r.1.traceDelivery c n g f r.2 := by
  simp only [State.laneDelivery, beq_iff_eq, ha, hq, hf, if_false]

/-! ## The fan-out of an event -/

/-- The fan-out unit hands on one flit for each destination of an uncut chain (R131, R133). -/
theorem State.fanoutWalk_uncut {ev : Ev} {rest : List Ev} {k : Nat} {ds : List Dest} (hq : (s.getNc c n).fan = ev :: rest)
    (hk : (s.modNc c n fun u => { u with fan := rest }).slotOf c n ev.net = some k)
    (hw : walkDir (s.cword c n) (fun a => badIn bad (4 * a) 4) coreWords (s.val .SY_FO_BASE [c, n, k] / 4 + ev.neuron) = (ds, .fin)) :
    s.fanoutWalk bad c n =
      let u := s.modNc c n fun u => { u with fan := rest }
      let fl := ds.map (destFlit ev.kind ev.payload ev.world ev.stamp (s.wgTb ev.wg) ev.trace (coordOf c n))
      (u.modNc c n fun u => { u with outq := u.outq ++ fl }).bump .SY_FLITS [c, n] fl.length := by
  have hwalk : walkDir ((s.modNc c n fun u => { u with fan := rest }).cword c n) (fun a => badIn bad (4 * a) 4) coreWords
      ((s.modNc c n fun u => { u with fan := rest }).val .SY_FO_BASE [c, n, k] / 4 + ev.neuron) = (ds, .fin) := hw
  simp only [State.fanoutWalk, hq, hk, hwalk]
  rfl

/-! ## Sleep -/

theorem State.ncSleepNow_idle (hp : s.bit .NC_CFG [c, n] NC_CFG_SLEEP = true) (hi : s.ncState c n = ncIdle)
    (hq : (s.getNc c n).inq = []) (hf : (s.getNc c n).fan = []) (ho : (s.getNc c n).outq = []) :
    s.ncSleepNow c n = (s.setNcState c n ncSleep).modNc c n fun u => { u with hit := false } :=
  if_pos (by simp [hp, hi, hq, hf, ho])

theorem State.ncWakeNow_due {src : Nat} (cycles : Nat) (hs : s.ncState c n = ncSleep) (hd : s.ncWakeDue c n src = true) :
    s.ncWakeNow c n src cycles =
      ((((s.setNcState c n ncIdle).setFld .NC_STATUS [c, n] NC_STATUS_WAKESRC src).bump .NC_WAKES [c, n]).bump
        .NC_SLEEPCYC [c, n] cycles).modNc c n fun u => { u with hit := false } := if_pos ⟨hs, hd⟩

end

/-- Settles O7: each operation's case, under the conditions that lead to it. -/
theorem neuronCoreCommandsHaveTheirEffects : Obligations.NeuronCoreCommandsHaveTheirEffects := by
  refine ⟨?enable, ?filled, ?opened, ?openedFar, ?fanout, ?emitDone, ?enqueue, ?lane, ?modulator, ?sleep, ?wake⟩
  case enable =>
    intro s req c n v hr he
    exact congrArg Host.Outcome.next ((State.cmdWrite_ncCfg hr (withEn_mod v true)).trans
      (State.ncCfgWrite_enable ((s.coreTouch_bit _ _ _ _).trans he) (withEn_testBit_zero v true)))
  case filled =>
    intro s c n h
    exact congrArg Host.Outcome.next (State.ncFillDone_filling h)
  case opened =>
    intro s₀ s g c slot bad errs hp hf hstep hfresh hmem hans got
    have hnear := State.cnOpenTo_near (g := g.val) (bad := bad) c.isLt (show slot.val < 32 by omega) hf hp
    have hdue : s.OpenDue g.val (eidOf c.val slot.val) := ⟨hstep, hfresh, hmem, hans⟩
    refine ⟨fun e hn he hi => ?_, fun hn => ?_, fun h16 h18 => ?_⟩
    · exact congrArg Host.Outcome.next (hnear.trans (State.cnOpen_core hdue c.isLt hn he hi))
    · exact congrArg Host.Outcome.next (hnear.trans (State.cnOpen_matrix hdue c.isLt hn))
    · exact congrArg Host.Outcome.next (hnear.trans (State.cnOpen_vector hdue c.isLt h16 h18))
  case openedFar =>
    intro s g c slot bad errs hf
    exact congrArg Host.Outcome.next (State.cnOpenTo_far c.isLt (show slot.val < 32 by omega) hf)
  case fanout =>
    intro s c n bad ev rest k ds hq hk hw
    exact congrArg Host.Outcome.next (State.fanoutWalk_uncut hq hk hw)
  case emitDone =>
    intro s g e hs hd hm he
    exact congrArg Host.Outcome.next (State.emitDone_reports hs hd hm he)
  case enqueue =>
    intro s c n m u e g now ht hf ho hroom hk w he hs
    exact congrArg Host.Outcome.next
      ((State.deliverTo_gives ht hf ho (decide_eq_true hroom)).trans (State.coreEnqueue_waits hk rfl he hs))
  case lane =>
    intro s c n bad f rest e g k held conf aconf ha hq hf
    exact congrArg Host.Outcome.next (State.laneDelivery_delivers held conf aconf ha hq hf)
  case modulator =>
    intro s c n m u ht hf ho
    exact congrArg Host.Outcome.next (State.deliverTo_gives ht hf ho rfl)
  case sleep =>
    intro s c n hp hi hq hf ho
    exact congrArg Host.Outcome.next (State.ncSleepNow_idle hp hi hq hf ho)
  case wake =>
    intro s c n src cycles hs hd
    exact congrArg Host.Outcome.next (State.ncWakeNow_due cycles hs hd)

end Sys2Proof.Machine
end

section
/-! What the event units of the vector and matrix cores do (R146 to R150, R278, R360, R384, R386): one equation for each case of an
operation. -/

namespace Sys2Proof.Machine

/-! ## The emit port -/

section
variable {s : State} {bad : List Nat} {c e : Nat} {rec : DWord} {rest : List DWord}

/-- The emit port of a vector core does no more than take its next record; the matrix core's is filled up again (R216). -/
theorem State.emitPort_vector (he : e ≠ 2) : s.emitPort bad c e = s.emitRecord bad c e := if_neg he

theorem State.emitRecord_dropped (hq : (s.getEng c e).emitq = rec :: rest)
    (hd : (s.modEng c e fun x => { x with emitq := rest }).emitDrops c e rec.toNat = true) :
    s.emitRecord bad c e = (s.modEng c e fun x => { x with emitq := rest }).bump .SY_EDROP [c, e] := by
  simp only [State.emitRecord, hq, hd, if_true]

/-- A record with DIRECT = 1 of an open group becomes one flit, stamped with the group's step (R146, R147). -/
theorem State.emitRecord_direct {g : Nat} (hq : (s.getEng c e).emitq = rec :: rest) :
    let u := s.modEng c e fun x => { x with emitq := rest }
    u.emitDrops c e rec.toNat = false → u.groupOf (bitsOf rec.toNat 41 14) = some g →
    u.traced (u.wgPart g) g (bitsOf rec.toNat 41 14) (bitsOf rec.toNat 17 16 % 2 ^ 15) (u.wgWStep g % 2 ^ 16) = false →
    rec.toNat.testBit 61 = true →
    s.emitRecord bad c e =
      let f := mkFlit (bitsOf rec.toNat 62 2) (bitsOf rec.toNat 5 12) (bitsOf rec.toNat 17 16) (bitsOf rec.toNat 41 14)
        (bitsOf rec.toNat 55 6) (u.wgWStep g) (bitsOf rec.toNat 33 8) (u.wgTb g) false (coordOf c (engSlot e))
      (u.modEng c e fun x => { x with outq := x.outq ++ [f] }).bump .SY_EFLITS [c, e] := by
  intro u hd hg ht hb
  simp only [State.emitRecord, hq, ← show u = s.modEng c e fun x => { x with emitq := rest } from rfl, hd, hg, ht, hb,
    Bool.false_eq_true, if_false, if_true]

end

/-! ## The sink -/

section
variable {s u : State} {m : MFlit} {meets : SinkMeet} {c e o : Nat} {f : Flit}

theorem State.takeDlv_any {want : Flit → Bool} (ht : s.takeDlv c want = some (m, u)) : ((s.getRt c).dlv.any fun m => want m.f) = true := by
  unfold State.takeDlv at ht
  split at ht
  next => cases ht
  next x hx => exact List.any_eq_true.2 ⟨x, List.mem_of_find?_eq_some hx, List.find?_some (p := fun m : MFlit => want m.f) hx⟩

/-- A flit of the delivery stage for a sink that is neither fenced nor off is taken; a waiting one is looked for only where there is none. -/
theorem State.sinkFlit_takes (ht : s.takeDlv c (fun f => fDC f == engSlot e && decide (fKind f < 2)) = some (m, u))
    (hf : s.fencedEng c (engSlot e) = false) (ho : s.engineOff c (engSlot e) = false) :
    s.sinkFlit meets c e = u.sinkTake meets c e m.f :=
  (if_pos (State.takeDlv_any ht)).trans (State.deliverTo_gives ht hf ho rfl)

/-- An addition to a sound line is one read and one write of it, seen by the message unit, and counted (R148, R330, R392). -/
theorem State.sinkAdd_sound {bad : List Nat} (hb : badIn bad (o / 64 * 64) 64 = false) :
    s.sinkAdd bad c e f o =
      let x := s.bump .BK_RD [c]
      let v := wrapInt 32 (sext 32 (x.peekLE (bankAddr c o) 4) + x.sinkValue c e f)
      ((((x.pokeLE (bankAddr c o) 4 v).bump .BK_WR [c]).observe (bankAddr c o)).bump .SY_SINKADD [c, e]).trace c f 7
        (coordOf c (engSlot e)) (fAxon f) := by
  simp only [State.sinkAdd, hb, Bool.false_eq_true, if_false]

section
variable (ha : (s.acceptWorld (fWorld f) (halfOf c)).sinkFate c e f = .add o)
  (hw : (s.acceptWorld (fWorld f) (halfOf c)).arbWaits (bankArb c (bankOf o)) (endpointOf c (3 + e)) = false)
include ha hw

/-- A flit of the open step asks for its addition, where none waits before it, and waits in the sink when it is refused (R148, R360). -/
theorem State.sinkTake_asks :
    s.sinkTake meets c e f =
      let r := (s.acceptWorld (fWorld f) (halfOf c)).sinkAsk meets c e f o
      if r.1 = true then r.2 else r.2.modEng c e fun y => { y with sinkq := y.sinkq ++ [f] } := by
  simp only [State.sinkTake, ha, hw, Bool.false_eq_true, if_false]

theorem State.sinkTake_granted :
    let w := s.acceptWorld (fWorld f) (halfOf c)
    let k := bankArb c (bankOf o)
    let ep := endpointOf c (3 + e)
    let ask := w.arbAsk k (if meets.busy = true then 0 else 1) ep
    ask.1 = true →
    s.sinkTake meets c e f = ((ask.2.arbFree k ep).modEng c e fun y => { y with back := 0 }).sinkAdd meets.bad c e f o := by
  intro w k ep ask hg
  have hask : w.sinkAsk meets c e f o =
      (true, ((ask.2.arbFree k ep).modEng c e fun y => { y with back := 0 }).sinkAdd meets.bad c e f o) := if_pos hg
  rw [State.sinkTake_asks ha hw, hask]
  exact if_pos rfl

/-- A refused sink that is not in hold mode backs off and keeps the flit (R384, R386). -/
theorem State.sinkTake_refused :
    let w := s.acceptWorld (fWorld f) (halfOf c)
    let k := bankArb c (bankOf o)
    let ep := endpointOf c (3 + e)
    let ask := w.arbAsk k (if meets.busy = true then 0 else 1) ep
    ask.1 = false → w.holdMode k ep = false →
    s.sinkTake meets c e f =
      (ask.2.modEng c e fun y => { y with back := nextBack y.back }).modEng c e fun y => { y with sinkq := y.sinkq ++ [f] } := by
  intro w k ep ask hr hh
  have hask : w.sinkAsk meets c e f o = (false, if w.holdMode k ep = true then ask.2 else
      ask.2.modEng c e fun y => { y with back := nextBack y.back }) := if_neg (by rw [hr]; decide)
  rw [State.sinkTake_asks ha hw, hask, hh]
  rfl

end

theorem State.sinkTake_waits (hw : (s.acceptWorld (fWorld f) (halfOf c)).sinkFate c e f = .wait) :
    s.sinkTake meets c e f =
      (s.acceptWorld (fWorld f) (halfOf c)).modEng c e fun x => { x with sinkq := x.sinkq ++ [f] } := by
  simp only [State.sinkTake, hw]

theorem State.sinkTake_absorbs (ha : (s.acceptWorld (fWorld f) (halfOf c)).sinkFate c e f = .absorb) :
    s.sinkTake meets c e f = (s.acceptWorld (fWorld f) (halfOf c)).bump .SY_SINKABS [c, e] := by
  simp only [State.sinkTake, ha]

end

/-- Settles O8: each unit's case, under the conditions that lead to it. -/
theorem eventUnitsOfVectorAndMatrixCoresHaveTheirEffects : Obligations.EventUnitsOfVectorAndMatrixCoresHaveTheirEffects := by
  refine ⟨?emit, ?sink, ?inband⟩
  case emit =>
    intro s c e bad rec rest he hq u
    refine ⟨fun hd => ?_, fun g hd hg ht hb => ?_⟩
    · exact congrArg Host.Outcome.next ((State.emitPort_vector he).trans (State.emitRecord_dropped hq hd))
    · exact congrArg Host.Outcome.next ((State.emitPort_vector he).trans (State.emitRecord_direct hq hd hg ht hb))
  case sink =>
    intro s c e meets m u ht hf ho f w
    have htake : s.sinkFlit meets c.val e.val = u.sinkTake meets c.val e.val f := State.sinkFlit_takes ht hf ho
    refine ⟨fun o ha => ?add, fun hw => ?wait, fun ha => ?absorb⟩
    case add =>
      intro k ep ask hw
      refine ⟨fun hg hb => ?_, fun hr hh => ?_⟩
      · exact congrArg Host.Outcome.next (htake.trans ((State.sinkTake_granted ha hw hg).trans (State.sinkAdd_sound hb)))
      · exact congrArg Host.Outcome.next (htake.trans (State.sinkTake_refused ha hw hr hh))
    case wait => exact congrArg Host.Outcome.next (htake.trans (State.sinkTake_waits hw))
    case absorb => exact congrArg Host.Outcome.next (htake.trans (State.sinkTake_absorbs ha))
  case inband =>
    intro s c e m u ht hf ho hroom
    exact congrArg Host.Outcome.next (State.deliverTo_gives ht hf ho (decide_eq_true hroom))

end Sys2Proof.Machine
end

section
/-! What the event, step, update and CSR instructions of a vector core do (R147, R150, R170, R176, R226, R227, R229, R230, R233, R234). -/

namespace Sys2Proof.Machine

section
variable {s : State} {c v x w : Nat}

/-! ## EMIT and IBPOP -/

/-- One record of a bound group that has not ended its step goes to the emit port, which has room for it (R233). -/
theorem State.emitAll_one {r g : Nat} (hg : s.groupOf (bitsOf r 41 14) = some g) (hb : s.vxBound c v g = true)
    (hd : s.vxOpen c v g = true → (s.getEng c v).sdone.contains g = false) (hroom : (s.getEng c v).emitq.length < 16) :
    State.emitAll c v [r] 0 s =
      (1, (s.modEng c v fun e => { e with emitq := e.emitq ++ [BitVec.ofNat 64 r] }).bump .VX_EMITS [c, v]) := by
  have hlate : (!s.vxBound c v g || (s.vxOpen c v g && (s.getEng c v).sdone.contains g)) = false := by
    cases ho : s.vxOpen c v g
    · simp [hb]
    · simp only [hb, hd ho, Bool.not_true, Bool.and_false, Bool.or_self]
  simp only [State.emitAll, hg, hlate, Bool.false_eq_true, if_false, ge_iff_le, Nat.not_le.2 hroom, Nat.zero_add]

theorem State.doEmit_scalar {g : Nat} (hform : w.testBit 0 = false) (heven : iA w % 2 = 0) (hfirst : (s.vctx c v x).emitted = 0) :
    let r := (s.vctx c v x).sreg (iA w + 1) * 2 ^ 32 + (s.vctx c v x).sreg (iA w)
    s.groupOf (bitsOf r 41 14) = some g → s.vxBound c v g = true →
    (s.vxOpen c v g = true → (s.getEng c v).sdone.contains g = false) → (s.getEng c v).emitq.length < 16 →
    State.doEmit c v s x w =
      .next (((s.modEng c v fun e => { e with emitq := e.emitq ++ [BitVec.ofNat 64 r] }).bump .VX_EMITS [c, v]).modCtx c v x
        fun y => { y with emitted := 0 }) := by
  intro r hg hb hd hroom
  simp only [State.doEmit, hform, heven, hfirst, List.drop_zero, Bool.false_eq_true, if_false]
  rw [State.emitAll_one hg hb hd hroom]
  rfl

/-- IBPOP moves on unless it is the waiting form and the queue is empty (R150, R227). -/
theorem State.doIbpop_pops (h : w.testBit 0 = false ∨ (s.getEng c v).ibq ≠ []) :
    let q := (s.getEng c v).ibq
    let n := min 4 q.length
    let t := (s.modEng c v fun e => { e with ibq := e.ibq.drop n }).setVal .SY_IBQ_STATUS [c, v] (q.length - n)
    let r := t.drawLanes (16 - 4 * n)
    State.doIbpop c v s x w =
      .next ((r.2.modCtx c v x fun u => u.setV (iD w) (masked (u.mreg (iM w)) (u.vreg (iD w)) fun k =>
        if k < 4 * n then bitsOf ((q.getD (k / 4) 0).toNat) (32 * (k % 4)) 32 else r.1.getD (k - 4 * n) 0)).modCtx c v x
          fun u => u.setS (iA w) n) := by
  intro q n t r
  have hgo : ¬(w.testBit 0 && n == 0) = true := by
    rcases h with h | h
    · simp [h]
    · have : 0 < q.length := List.length_pos_of_ne_nil h
      simp only [Bool.and_eq_true, beq_iff_eq, not_and]
      omega
  exact if_neg hgo

/-! ## SWAIT and SDONE -/

section
variable (hrun : (s.vctx c v x).sreg (iA w) < 256 → s.wgState ((s.vctx c v x).sreg (iA w)) ≠ wsHalted)
include hrun

/-- On a group that is not halted SWAIT looks for its harvested step or for its open one, by its form (R227). -/
theorem State.doSwait_running :
    let g := (s.vctx c v x).sreg (iA w)
    let t := s.modVx c v fun y => { y with swg := g + 1 }
    let st := s.val .WG_STEP [g] % 2 ^ 32
    let d := (st + 2 ^ 32 - (s.vctx c v x).sreg (iD w)) % 2 ^ 32
    State.doSwait c v s x w =
      if w.testBit 0 = true then
        if ((s.getWg g).last + 2 ^ 32 - (s.vctx c v x).sreg (iD w)) % 2 ^ 32 < 2 ^ 31 then .next t else .wait t false
      else if (g < 256 && t.vxOpen c v g && d != 0 && decide (d < 2 ^ 31)) = true then .next (t.modCtx c v x fun u => u.setS (iD w) st)
      else .wait t false := by
  intro g t st d
  have hgo : ¬(decide (g < 256) && t.wgState g == wsHalted) = true := by
    simp only [Bool.and_eq_true, decide_eq_true_eq, beq_iff_eq, not_and]
    exact hrun
  exact if_neg hgo

theorem State.doSwait_harvested (hform : w.testBit 0 = true)
    (hlast : ((s.getWg ((s.vctx c v x).sreg (iA w))).last + 2 ^ 32 - (s.vctx c v x).sreg (iD w)) % 2 ^ 32 < 2 ^ 31) :
    State.doSwait c v s x w = .next (s.modVx c v fun y => { y with swg := (s.vctx c v x).sreg (iA w) + 1 }) := by
  rw [State.doSwait_running hrun, if_pos hform, if_pos hlast]

theorem State.doSwait_opens (hform : w.testBit 0 = false) :
    let g := (s.vctx c v x).sreg (iA w)
    let t := s.modVx c v fun y => { y with swg := g + 1 }
    let st := s.val .WG_STEP [g] % 2 ^ 32
    let d := (st + 2 ^ 32 - (s.vctx c v x).sreg (iD w)) % 2 ^ 32
    g < 256 → t.vxOpen c v g = true → d ≠ 0 → d < 2 ^ 31 →
    State.doSwait c v s x w = .next (t.modCtx c v x fun u => u.setS (iD w) st) := by
  intro g t st d hg ho hd hlt
  have hopen : (decide (g < 256) && t.vxOpen c v g && d != 0 && decide (d < 2 ^ 31)) = true := by
    simpa [hg, ho, hd] using hlt
  rw [State.doSwait_running hrun, if_neg (by rw [hform]; decide)]
  exact if_pos hopen

end

theorem State.doSdone_eq :
    let g := (s.vctx c v x).sreg (iA w)
    State.doSdone c v s x w =
      .next (if s.vxBound c v g = true ∧ s.vxOpen c v g = true ∧ (s.getEng c v).sdone.contains g = false
        then (s.modEng c v fun e => { e with sdone := e.sdone ++ [g] }).modVx c v fun u =>
          { u with before := (u.before.filter fun y => y.1 != g) ++ u.out.map fun k => (g, k) }
        else s.bump .VX_ELATE [c, v]) := by
  intro g
  rw [apply_ite VOut.next]
  refine ite_congr ?_ (fun _ => rfl) (fun _ => rfl)
  simp [g, and_assoc]

/-! ## CSRs -/

/-- What a CSR other than the cycle count reads (R230). -/
def State.csrValue (s : State) (c v x k : Nat) : Nat :=
  let y := s.getVx c v
  match k with
  | 0x001 => y.cycleh.toNat
  | 0x002 => c * 2 ^ 7 + 16 + v
  | 0x003 => (s.partOfCluster c).getD 0
  | 0x004 => y.seed.toNat
  | 0x005 => if y.swg = 0 then 0 else s.val .WG_WSTEP [y.swg - 1] % 2 ^ 32
  | 0x010 => y.lrate.toNat
  | 0x011 => y.wbound.toNat
  | 0x012 => y.pth.toNat
  | 0x020 => if x = 1 then y.stage else 0
  | _ => 0

theorem State.doCsrr_value (cycles : Nat) (hk : iImm w ≠ 0) :
    State.doCsrr cycles c v s x w = .next (s.modCtx c v x fun u => u.setS (iD w) (s.csrValue c v x (iImm w))) := by
  unfold State.doCsrr State.csrValue
  split
  next h => exact absurd h hk
  all_goals simp only [State.vS, *]

theorem State.doCsrr_cycles (cycles : Nat) (h : iImm w = 0) :
    State.doCsrr cycles c v s x w =
      .next ((s.modVx c v fun u => { u with cycleh := BitVec.ofNat 32 (cycles / 2 ^ 32) }).modCtx c v x fun u => u.setS (iD w) cycles) := by
  simp only [State.doCsrr, h]
  rfl

theorem State.doCsrw_seed (h : iImm w = 0x004) :
    State.doCsrw c v s x w = .next (s.modVx c v fun y => { y with seed := BitVec.ofNat 32 ((s.vctx c v x).sreg (iA w)) }) := by
  simp only [State.doCsrw, h]

theorem State.doCsrw_lrate (h : iImm w = 0x010) :
    State.doCsrw c v s x w = .next (s.modVx c v fun y => { y with lrate := BitVec.ofNat 32 ((s.vctx c v x).sreg (iA w) % 2 ^ 21) }) := by
  simp only [State.doCsrw, h]

theorem State.doCsrw_wbound (h : iImm w = 0x011) :
    State.doCsrw c v s x w = .next (s.modVx c v fun y => { y with wbound := BitVec.ofNat 32 ((s.vctx c v x).sreg (iA w)) }) := by
  simp only [State.doCsrw, h]

theorem State.doCsrw_pth (h : iImm w = 0x012) :
    State.doCsrw c v s x w = .next (s.modVx c v fun y => { y with pth := BitVec.ofNat 32 ((s.vctx c v x).sreg (iA w) % 2 ^ 16) }) := by
  simp only [State.doCsrw, h]

end

/-- Settles O19: each instruction's outcome, carried through the issue of the core. -/
theorem eventStepAndStateInstructions : Obligations.EventStepAndStateInstructions := by
  refine ⟨?emit, ?ibpop, ?swait, ?sdone, ?wupd, ?vrand, ?csrr, ?csrw⟩
  case emit =>
    intro s₀ c v took bad x w g hi s hform heven hfirst r hg hb hd hroom
    exact congrArg Host.Outcome.next (State.vxStep_next hi (by decide) (State.doEmit_scalar hform heven hfirst hg hb hd hroom))
  case ibpop =>
    intro s₀ c v took bad x w hi s q n h t r
    exact congrArg Host.Outcome.next (State.vxStep_next hi (by decide) (State.doIbpop_pops h))
  case swait =>
    intro s₀ c v took bad x w hi s g t st d hrun
    refine ⟨fun hform hlast => ?_, fun hform hg ho hd hlt => ?_⟩
    · exact congrArg Host.Outcome.next (State.vxStep_next hi (by decide) (State.doSwait_harvested hrun hform hlast))
    · exact congrArg Host.Outcome.next (State.vxStep_next hi (by decide) (State.doSwait_opens hrun hform hg ho hd hlt))
  case sdone =>
    intro s₀ c v took bad x w hi s g
    exact congrArg Host.Outcome.next (State.vxStep_next hi (by decide) State.doSdone_eq)
  case wupd =>
    intro s₀ c v took bad x w hi s u y f code
    refine ⟨fun hf => ?_, fun hf => ?_⟩
    · exact congrArg Host.Outcome.next (State.vxStep_next hi (by decide) (if_neg (not_lt.2 hf)))
    · exact congrArg Host.Outcome.next (State.vxStep_fault hi (by decide) (if_pos hf))
  case vrand =>
    intro s₀ c v took bad x w hi s
    exact congrArg Host.Outcome.next (State.vxStep_next hi (by decide) rfl)
  case csrr =>
    intro s₀ c v took bad x w cycles hi s
    have hread : ∀ k, k ≠ 0 → iImm w = k → exec (.csrr c v took bad cycles) s₀ =
        .next ((s.modCtx c.val v.val x fun u => u.setS (iD w) (s.csrValue c.val v.val x k)).flowTo c.val v.val x
          ((s.vctx c.val v.val x).pc + 4)) := by
      rintro k hk rfl
      exact congrArg Host.Outcome.next (State.vxStep_next hi (by decide) (State.doCsrr_value cycles hk))
    exact ⟨fun h => congrArg Host.Outcome.next (State.vxStep_next hi (by decide) (State.doCsrr_cycles cycles h)),
      hread _ (by decide), hread _ (by decide), hread _ (by decide), hread _ (by decide), hread _ (by decide), hread _ (by decide),
      hread _ (by decide)⟩
  case csrw =>
    intro s₀ c v took bad x w hi s
    refine ⟨fun h => ?_, fun h => ?_, fun h => ?_, fun h => ?_⟩
    · exact congrArg Host.Outcome.next (State.vxStep_next hi (by decide) (State.doCsrw_seed h))
    · exact congrArg Host.Outcome.next (State.vxStep_next hi (by decide) (State.doCsrw_lrate h))
    · exact congrArg Host.Outcome.next (State.vxStep_next hi (by decide) (State.doCsrw_wbound h))
    · exact congrArg Host.Outcome.next (State.vxStep_next hi (by decide) (State.doCsrw_pth h))

end Sys2Proof.Machine
end

section
/-! What the commands of the learning sets do (R159, R163, R180, R186, R197, R225, R427): one equation for each case of an operation. -/

namespace Sys2Proof.Machine

section
variable {s : State} {req : Requester} {c k i v : Nat} {cmd : Option (Nat × Nat)}

/-! ## Writes of the registers of a set -/

theorem State.storeUnless_unlocked {lock : Bool} {r : Reg} {idx : List Nat} (h : lock = false) :
    s.storeUnless lock r idx v = s.store r idx v := if_neg (by simp [h])

theorem State.cmdWrite_lrSetCfg (hr : s.Reached req .LR_SET_CFG [c, k]) (hv : v % 2 ^ 32 = v) :
    s.cmdWrite req .LR_SET_CFG [c, k] v =
      s.unitWrite (.set k c) .LR_SET_CFG [c, k] LR_SET_CFG_EN v none fun s => s.lsStop k := by
  rw [State.cmdWrite_reached32 hr rfl rfl rfl, hv]
  rfl

theorem State.cmdWrite_lrSetWg (hr : s.Reached req .LR_SET_WG [c, k, i]) (hv : v % 2 ^ 32 = v) :
    s.cmdWrite req .LR_SET_WG [c, k, i] v = s.lrSetWg c k i v none := by
  rw [State.cmdWrite_reached32 hr rfl rfl rfl, hv]
  rfl

/-- A block that belongs to no enabled set stores its marks for itself (R197). -/
theorem State.lrSetWg_alone (hs : s.inSet c k = false) (hl : s.setLocked c k = false) :
    s.lrSetWg c k i v cmd = s.store .LR_SET_WG [c, k, i] v := by
  rw [State.lrSetWg, hs]
  exact State.storeUnless_unlocked hl

/-- The marks of an enabled set are those of every block: groups leave, the blocks take the word, and groups newly marked are checked
(R159, R197). -/
theorem State.lrSetWg_enabled (hs : s.inSet c k = true) :
    s.lrSetWg c k i v cmd =
      let old := s.val .LR_SET_WG [c, k, i]
      let u := s.each ((List.range 32).filter fun b => old.testBit b && !v.testBit b) fun s b => s.barrierLeave (32 * i + b)
      let u := u.each (u.setBlocks k) fun s b => s.setVal .LR_SET_WG [b, k, i] (v % 2 ^ 32)
      u.each ((List.range 32).filter fun b => v.testBit b && !old.testBit b && u.wgOn (32 * i + b)) fun s b =>
        s.askCheck (.setwg k c (32 * i + b)) v cmd := by
  rw [State.lrSetWg, hs]
  rfl

/-- A command of the keep store with an OP is checked before it does anything (R186, R199). -/
theorem State.ksCmdWrite_asks (hop : v % 16 ≠ 0) (hv : v % 2 ^ 32 = v) : s.ksCmdWrite c v cmd = s.askCheck (.kscmd c) v cmd := by
  rw [State.ksCmdWrite, if_neg hop, hv]

theorem State.cmdWrite_lrSetCtrl (hr : s.Reached req .LR_SET_CTRL [c, k]) :
    s.cmdWrite req .LR_SET_CTRL [c, k] 1 = s.ksCmdWrite c (1 + 16 * k) none := State.cmdWrite_reached32 hr rfl rfl rfl

/-! ## The epoch end -/

theorem State.epochEnd_starts (hon : (s.getLs k).on = true) (hst : s.lsStage k = lsRunning) (hw : s.writers k ≠ [])
    (hh : ∀ g ∈ s.writers k, s.holdsEpoch g = false) (hsplit : s.setSplit k = false) :
    s.epochEnd k =
      (((s.countFenced k).modLs k fun l => { l with reports := [], marks := [] }).setStage k lsUpdate).stagesPass k := by
  have hnone : (s.writers k).any s.holdsEpoch = false := by simpa only [List.any_eq_false, Bool.not_eq_true] using hh
  exact if_pos (by simp [hon, hst, hw, hnone, hsplit])

/-- What the end of a flip does to its set (R161, R164, R180, R186). -/
theorem State.flipComplete_reported (hst : s.lsStage k = lsFlip)
    (hall : ∀ x ∈ s.setActive2 k, (s.getLs k).reports.contains (eidOf x.1 x.2) = true) :
    s.flipComplete k =
      let u := s.bump .LR_SET_EPOCH [0, k]
      let u := u.each (u.writers k) fun s g => if (s.getWg g).epWait = true then s.bump .LR_SET_LOCKWAIT [0, k] (s.lockLost g) else s
      let u := ((u.releaseBarrier k).modLs k fun l => { l with reports := [], flips := l.flips + 1 }).setStage k lsRunning
      let u := u.modKs fun q => { q with queue := q.queue.map fun x => if x.set = k then { x with waitFlip := false } else x }
      u.autoCommit k :=
  if_pos (by rw [hst, List.all_eq_true.2 hall]; rfl)

end

/-! ## Stage signals -/

/-- A stage signal that a vector core answers: of a stage that runs, to a core that serves the set, powered and not fenced (R225). -/
structure State.SignalDue (s : State) (c v k stage : Nat) : Prop where
  runs : stage = 1 ∧ s.lsStage k = lsUpdate ∨ stage = 2 ∧ s.lsStage k = lsStructure
  serves : s.vxServes c v k = true
  powered : s.clusterOn c = true
  unfenced : s.fencedEng c (16 + v) = false

section
variable {s : State} {c v k stage : Nat} (bad : List Nat) (took : SvcTook) (hd : s.SignalDue c v k stage)
include hd

/-- The signal finds context 1 at work, and is then the standard program's run of the same stage, or starts it (log entry 97). -/
theorem State.serviceSignal_due : s.serviceSignal bad c v k took =
    if s.vxSvc c v = true then
      if (s.bit .VX_CFG [c, v] VX_CFG_STDSVC && (s.getVx c v).set == k && (s.getVx c v).stage == stage) = true then
        s.svcRun bad c v k took
      else s
    else (s.svcStart c v k stage (if s.bit .VX_CFG [c, v] VX_CFG_STDSVC = true then 0x1C000 else s.val .VX_SVC [c, v])).setFld
      .VX_STATUS [c, v] VX_STATUS_SVC 1 := by
  obtain ⟨hrun, hserves, hon, hfence⟩ := hd
  have hstage : (if s.lsStage k = lsUpdate then 1 else if s.lsStage k = lsStructure then 2 else 0) = stage := by
    obtain ⟨rfl, h⟩ | ⟨rfl, h⟩ := hrun <;> rw [h] <;> rfl
  have hsome : stage ≠ 0 := by omega
  simp only [State.serviceSignal, hstage, hsome, hserves, hon, hfence, decide_false, Bool.not_true, Bool.or_false, Bool.false_eq_true,
    if_false]

theorem State.serviceSignal_starts (hidle : s.vxSvc c v = false) : s.serviceSignal bad c v k took =
    (s.svcStart c v k stage (if s.bit .VX_CFG [c, v] VX_CFG_STDSVC = true then 0x1C000 else s.val .VX_SVC [c, v])).setFld
      .VX_STATUS [c, v] VX_STATUS_SVC 1 :=
  (State.serviceSignal_due bad took hd).trans (if_neg (by simp [hidle]))

theorem State.serviceSignal_runs (hbusy : s.vxSvc c v = true) (hstd : s.bit .VX_CFG [c, v] VX_CFG_STDSVC = true)
    (hset : (s.getVx c v).set = k) (hstage : (s.getVx c v).stage = stage) :
    s.serviceSignal bad c v k took = s.svcRun bad c v k took :=
  (State.serviceSignal_due bad took hd).trans ((if_pos hbusy).trans (if_pos (by simp [hstd, hset, hstage])))

end

/-! ## FLIP messages -/

section
variable {s s₀ : State} {c n k : Nat} {errs : FlipErr}

theorem State.cnFlipTo_far (hk : s.coreSet c n = some k) (hf : s.farCluster c = true) :
    s.cnFlipTo c n errs = s.seamSend 0 [cnHeader 10 c 0 k] := by
  rw [State.cnFlipTo, hk]
  exact if_pos hf

theorem State.cnFlipTo_near (hk : s₀.coreSet c n = some k) (hf : s₀.farCluster c = false) (hp : s₀.cnPass c errs.links = some s) :
    s₀.cnFlipTo c n errs = s.cnFlip errs.bad c n := by
  simp only [State.cnFlipTo, hk, State.cnDown, hf, State.cnTo, hp, Bool.false_eq_true, if_false]

/-- A core that is awake and has not reported flips, and reports (R180, R195). -/
theorem State.cnFlip_flips {bad : List Nat} (hk : s.coreSet c n = some k) (hst : s.lsStage k = lsFlip) (hf : s.fencedEng c n = false)
    (ha : s.ncState c n ≠ ncSleep) (hr : (s.getLs k).reports.contains (eidOf c n) = false) :
    s.cnFlip bad c n = (s.flipCore bad k c n).modLs k fun l => { l with reports := l.reports ++ [eidOf c n] } := by
  rw [State.cnFlip, hk]
  exact if_pos (by simp only [hst, hf, hr, bne_iff_ne.2 ha, BEq.rfl, Bool.not_false, Bool.and_self])

end

/-- Settles O9: each operation's case, under the conditions that lead to it. -/
theorem learningSetCommandsHaveTheirEffects : Obligations.LearningSetCommandsHaveTheirEffects := by
  refine ⟨?enable, ?mark, ?commit, ?epochEnd, ?signal, ?flip, ?complete⟩
  case enable =>
    intro s req c k v hr hc he
    exact congrArg Host.Outcome.next ((State.cmdWrite_lrSetCfg hr (withEn_mod v true)).trans
      (State.unitWrite_enable hc he (withEn_testBit_zero v true)))
  case mark =>
    intro s req c k j v hr
    have hw := State.cmdWrite_lrSetWg hr (word_mod v)
    refine ⟨fun hs hl => ?_, fun hs => ?_⟩
    · exact congrArg Host.Outcome.next (hw.trans (State.lrSetWg_alone hs hl))
    · have hset := State.lrSetWg_enabled (i := j.val) (v := v.toNat) (cmd := none) hs
      rw [show v.toNat % 2 ^ 32 = v.toNat from word_mod v] at hset
      exact congrArg Host.Outcome.next (hw.trans hset)
  case commit =>
    intro s req c k hr
    exact congrArg Host.Outcome.next ((State.cmdWrite_lrSetCtrl hr).trans (State.ksCmdWrite_asks (by omega) (by omega)))
  case epochEnd =>
    intro s k hon hst hw hh hsplit
    exact congrArg Host.Outcome.next (State.epochEnd_starts hon hst hw hh hsplit)
  case signal =>
    intro s c v k took bad stage hrun hserves hon hfence
    have hd : s.SignalDue c.val v.val k.val stage := ⟨hrun, hserves, hon, hfence⟩
    refine ⟨fun hidle => ?_, fun hbusy hstd hset hstage => ?_⟩
    · exact congrArg Host.Outcome.next (State.serviceSignal_starts bad took hd hidle)
    · exact congrArg Host.Outcome.next (State.serviceSignal_runs bad took hd hbusy hstd hset hstage)
  case flip =>
    intro s₀ s c n errs k hk
    refine ⟨fun hf => ?_, fun hf hp hk' hst hfence ha hr => ?_⟩
    · exact congrArg Host.Outcome.next (State.cnFlipTo_far hk hf)
    · exact congrArg Host.Outcome.next ((State.cnFlipTo_near hk hf hp).trans (State.cnFlip_flips hk' hst hfence ha hr))
  case complete =>
    intro s k hst hall
    exact congrArg Host.Outcome.next (State.flipComplete_reported hst hall)

end Sys2Proof.Machine
end

section
/-! What the commands of the keep store do (R186, R187, R189, R190, R192, R199): one equation for each phase of a commit, and the end of a
restore. -/

namespace Sys2Proof.Machine

section
variable {s : State} {req : Requester} {c v : Nat} {cmd : Option (Nat × Nat)}

/-! ## KS_CMD -/

theorem State.cmdWrite_ksCmd (hr : s.Reached req .KS_CMD [c]) (hv : v % 2 ^ 32 = v) :
    s.cmdWrite req .KS_CMD [c] v = s.ksCmdWrite c v none := by
  rw [State.cmdWrite_reached32 hr rfl rfl rfl, hv]
  rfl

theorem State.ksCmdWrite_none (hop : v % 16 = 0) : s.ksCmdWrite c v cmd = s := if_pos hop

end

section
variable {s : State} {x : Commit} {rest : List Commit} {bad : List Nat}

/-! ## Commits -/

/-- The commit at the front starts its capture once its circuits and the channels of its staging area serve (R187, R301, R378). -/
theorem State.captureStart_front (hcur : s.ks.cur = none) (hq : s.ks.queue = x :: rest) (hr : s.captureReady x = true)
    (hd : s.dmReady (s.val .KS_STAGE [x.part]) (s.imageLen x.set) = true) :
    s.captureStart =
      let u := s.captureBytes x.set (s.val .KS_STAGE [x.part]) (s.image x.set)
      let y := { x with phase := 1, len := (s.image x.set).length, stage := s.val .KS_STAGE [x.part],
                        epoch := u.val .LR_SET_EPOCH [0, x.set] }
      let u := u.modKs fun k => { k with queue := rest, cur := some y }
      let u := if u.lsStage x.set = lsFlip then u.setStage x.set lsSuspended else u
      (u.setFld .KS_STATUS [x.part] KS_STATUS_WAITING 0).ksShow x.part := by
  simp only [State.captureStart, hcur, hq, hr, hd, Bool.not_true, Bool.false_eq_true, if_false]

/-- The end of a capture: the set's flip goes on, and the image is compared (R187, R195). -/
theorem State.commitPhase_captured (hcur : s.ks.cur = some x) (hp : x.phase = 1) :
    s.commitPhase bad =
      let u := (s.captureErrs x.set bad).modKs fun k => { k with cur := some { x with phase := 2 } }
      State.ksShow (if u.lsStage x.set = lsSuspended then u.setStage x.set lsFlip else u) x.part := by
  simp only [State.commitPhase, hcur, hp, bne_self_eq_false, Bool.and_false, Bool.false_eq_true, if_false, if_true]

/-- The new generation is programmed: data pages, table pages and the directory page (R187). -/
theorem State.commitPhase_programmed {dir : Nat} (hcur : s.ks.cur = some x) (hp : x.phase = 2) (hs : s.ks.stopped = false)
    (hkey : mget s.ks.keys x.part ≠ 0 ∨ s.sec.rngBad = false) :
    let gen := (s.genNow x.part).gen + 1
    let kk := s.takeKey x.part
    let d := kk.1.programData bad x gen kk.2
    let t := d.1.programTables bad x gen kk.2 d.2.cnt d.2.pages
    let r := t.1.putPage bad kk.2 gen (2 ^ 25) none (fit 4096 (t.2.pages.flatMap t.1.ksEntry)) { cnt := t.2.cnt }
    d.2.code = 0 → t.2.code = 0 → r.2.pages = [dir] →
    s.commitPhase bad =
      ((r.1.modKs fun k => { k with cur := some { x with phase := 3, pages := d.2.pages, tables := t.2.pages, dir := dir } }).ksShow
        x.part).ksCounts := by
  intro gen kk d t r hd ht hr
  have hgo : ¬(s.ks.stopped && x.phase != 1) = true := by simp [hs]
  have hcan : ¬(mget s.ks.keys x.part = 0 ∧ s.sec.rngBad = true) := by
    rintro ⟨h0, hbad⟩
    exact hkey.elim (· h0) fun h => by simp [h] at hbad
  rw [State.commitPhase, hcur]
  dsimp only
  rw [if_neg hgo, if_neg (by omega), if_pos hp, if_neg hcan, if_neg (not_not.2 hd), if_neg (not_not.2 ht), hr]

/-- The west copy of the root is written (R187, R189). -/
theorem State.commitPhase_rootedWest (hcur : s.ks.cur = some x) (hp : x.phase = 3) (hs : s.ks.stopped = false) :
    s.commitPhase bad =
      ((s.writeRoot s.nextRoot (s.commitRoot x)).modKs fun k =>
        { k with cur := some { x with phase := 4, slot := s.nextRoot } }).ksCounts := by
  simp [State.commitPhase, hcur, hp, hs]

theorem State.commitPhase_rootedEast (hcur : s.ks.cur = some x) (hp : x.phase = 4) (hs : s.ks.stopped = false) :
    s.commitPhase bad = s.commitEast x := by
  simp [State.commitPhase, hcur, hp, hs]

/-! ## Restores -/

theorem State.restoreDone_finds {p : Nat} (hx : s.ks.restores.find? (fun x => x.part == p) = some x) (hr : s.serviceRuns p = true) :
    s.restoreDone p =
      let u := (s.pageOps (s.walkGen p).2).each (imageIndex (s.committed p) x.set) fun u d => u.restoreCore (s.committed p) d
      let u := u.setVal .LR_SET_EPOCH [0, x.set] (u.genNow p).epoch
      let u := u.modKs fun k => { k with restores := k.restores.erase x }
      (u.ksShow p).ksBump .KS_RESTORES := by
  simp only [State.restoreDone, hx, hr, Bool.not_true, Bool.false_eq_true, if_false]

end

/-- Settles O10: each phase's case, under the conditions that lead to it. -/
theorem keepStoreCommandsHaveTheirEffects : Obligations.KeepStoreCommandsHaveTheirEffects := by
  refine ⟨?command, ?capture, ?captured, ?programmed, ?west, ?east, ?restore⟩
  case command =>
    intro s req c k hr
    have hw : ∀ v, v < 512 → s.cmdWrite req .KS_CMD [c.val] v = s.ksCmdWrite c.val v none := fun v hv =>
      State.cmdWrite_ksCmd hr (Nat.mod_eq_of_lt (by omega))
    refine ⟨?_, ?_, ?_⟩
    · exact congrArg Host.Outcome.next ((hw _ (by omega)).trans (State.ksCmdWrite_none (by omega)))
    · exact congrArg Host.Outcome.next ((hw _ (by omega)).trans (State.ksCmdWrite_asks (by omega) (by omega)))
    · exact congrArg Host.Outcome.next ((hw _ (by omega)).trans (State.ksCmdWrite_asks (by omega) (by omega)))
  case capture =>
    intro s x rest hcur hq hr hd
    exact congrArg Host.Outcome.next (State.captureStart_front hcur hq hr hd)
  case captured =>
    intro s x bad hcur hp
    exact congrArg Host.Outcome.next (State.commitPhase_captured hcur hp)
  case programmed =>
    intro s x bad dir hcur hp hs hkey gen kk d t r hd ht hr
    exact congrArg Host.Outcome.next (State.commitPhase_programmed hcur hp hs hkey hd ht hr)
  case west =>
    intro s x bad hcur hp hs
    exact congrArg Host.Outcome.next (State.commitPhase_rootedWest hcur hp hs)
  case east =>
    intro s x bad hcur hp hs
    exact congrArg Host.Outcome.next (State.commitPhase_rootedEast hcur hp hs)
  case restore =>
    intro s p x hx hr
    exact congrArg Host.Outcome.next (State.restoreDone_finds hx hr)

end Sys2Proof.Machine
end

section
/-! What the scalar and control instructions of a vector core do, and when a core faults instead of issuing (R223, R225 to R227, R235). -/

namespace Sys2Proof.Machine

/-! ## How a command that issues ends -/

section
variable {i : Instr} {s t : State} {bad : List Nat} {c v x op w took : Nat} {run : State → Nat → Nat → VOut}

section
variable (he : exec i s = .next (s.vxStep bad took c v op run)) (h : s.Issues bad c v x op w)
include he h

/-- A command whose instruction issues and moves on answers the state after the next program counter. -/
theorem exec_issued_next (hr : run (s.vxTimed took c v x) x w = .next t) (hop : vxOps.contains op = true := by decide) :
    exec i s = .next (t.flowTo c v x (((s.vxTimed took c v x).vctx c v x).pc + 4)) := by
  rw [he, State.vxStep_next h hop hr]

theorem exec_issued_skip {a : Nat} (hr : run (s.vxTimed took c v x) x w = .skip t a) (hop : vxOps.contains op = true := by decide) :
    exec i s = .next (t.flowTo c v x (a % 2 ^ 32)) := by
  rw [he, State.vxStep_issues h hop, hr, State.vxEnd]

theorem exec_issued_jump {a : Nat} (hr : run (s.vxTimed took c v x) x w = .jump t a) (hop : vxOps.contains op = true := by decide) :
    exec i s = .next (t.jumpTo c v x a) := by
  rw [he, State.vxStep_issues h hop, hr, State.vxEnd]

theorem exec_issued_stop (hr : run (s.vxTimed took c v x) x w = .stop t) (hop : vxOps.contains op = true := by decide) :
    exec i s = .next (t.bump .VX_INSTR [c, v]) := by
  rw [he, State.vxStep_issues h hop, hr, State.vxEnd]

theorem exec_issued_fault {code : Nat} (hr : run (s.vxTimed took c v x) x w = .fault code)
    (hop : vxOps.contains op = true := by decide) : exec i s = .next ((s.vxTimed took c v x).vxFault c v x code) := by
  rw [he, State.vxStep_fault h hop hr]

end

/-! ## Faults of the fetch -/

/-- The fault of a program counter that names no word of the local store precedes the read of a word (R226, R227). -/
theorem State.vxStep_misplaced (ha : s.vxActive c v = some x) (hpc : (s.vctx c v x).pc % 4 ≠ 0 ∨ 0x20000 ≤ (s.vctx c v x).pc) :
    s.vxStep bad took c v op run = (s.vxTimed took c v x).vxFault c v x 0x0521 := by
  simp only [State.vxStep, ha]
  exact if_pos hpc

section
variable (ha : s.vxActive c v = some x) (halign : (s.vctx c v x).pc % 4 = 0) (hin : (s.vctx c v x).pc < 0x20000)
include ha halign hin

theorem State.vxStep_unreadable (hbad : badIn bad (vcAddr c v (s.vctx c v x).pc) 4 = true) :
    s.vxStep bad took c v op run = (s.vxTimed took c v x).vxFault c v x 0x0525 := by
  simp only [State.vxStep, ha]
  rw [if_neg (by omega), if_pos hbad]
  rfl

theorem State.vxStep_illegal (hbad : badIn bad (vcAddr c v (s.vctx c v x).pc) 4 = false)
    (hop : iOp (s.peekLE (vcAddr c v (s.vctx c v x).pc) 4) ∉ vxOps) :
    s.vxStep bad took c v op run = (s.vxTimed took c v x).vxFault c v x 0x0520 := by
  simp only [State.vxStep, ha]
  rw [if_neg (by omega), if_neg (by simp [hbad]), if_pos (by simpa using hop)]
  rfl

end

end

/-- Settles O20: the fetch faults before the commanded instruction is looked at. -/
theorem vectorCoresFaultOnWhatTheyCannotIssue : Obligations.VectorCoresFaultOnWhatTheyCannotIssue := by
  intro s c v took bad x i hi ha pc w
  obtain ⟨op, run, hexec⟩ : ∃ op run, exec i s = .next (s.vxStep bad took c.val v.val op run) := by
    obtain rfl | rfl | rfl := hi <;> exact ⟨_, _, rfl⟩
  rw [hexec]
  refine ⟨fun hpc => ?_, fun halign hin hbad => ?_, fun halign hin hbad hop => ?_, fun code => rfl⟩
  · exact congrArg _ (State.vxStep_misplaced ha hpc)
  · exact congrArg _ (State.vxStep_unreadable ha halign hin hbad)
  · exact congrArg _ (State.vxStep_illegal ha halign hin hbad hop)

/-! ## Scalar operations -/

section
variable {s : State} {c v x w : Nat}

theorem State.doSmul_low (h : iF w % 4 = 0) :
    State.doSmul c v s x w = s.vS c v x (iD w) ((s.vctx c v x).sreg (iA w) * (s.vctx c v x).sreg (iB w)) := by
  simp only [State.doSmul, h]

theorem State.doSmul_signedHigh (h : iF w % 4 = 1) :
    State.doSmul c v s x w =
      s.vS c v x (iD w) (wrapInt 32 (sext 32 ((s.vctx c v x).sreg (iA w)) * sext 32 ((s.vctx c v x).sreg (iB w)) / 2 ^ 32)) := by
  simp only [State.doSmul, h]

theorem State.doSmul_unsignedHigh (h : iF w % 4 = 2) :
    State.doSmul c v s x w = s.vS c v x (iD w) ((s.vctx c v x).sreg (iA w) * (s.vctx c v x).sreg (iB w) / 2 ^ 32) := by
  simp only [State.doSmul, h]

theorem State.doSmul_reserved (h : iF w % 4 = 3) : State.doSmul c v s x w = .fault 0x0520 := by
  simp only [State.doSmul, h]

theorem shift_reserved {f : Nat} (h : bitsOf f 5 2 = 3) (a n : Nat) : shift f a n = none := by
  simp only [shift, h]

theorem condition_reserved {k : Nat} (h : 6 ≤ k) (a b : Nat) : condition k a b = none := by
  obtain ⟨n, rfl⟩ := Nat.exists_eq_add_of_le' h
  rfl

theorem State.doSshf_some {n : Nat}
    (h : shift (iF w) ((s.vctx c v x).sreg (iA w)) (shiftBy (iF w) ((s.vctx c v x).sreg (iB w))) = some n) :
    State.doSshf c v s x w = s.vS c v x (iD w) n := by
  simp only [State.doSshf, h]

theorem State.doSshf_reserved (h : bitsOf (iF w) 5 2 = 3) : State.doSshf c v s x w = .fault 0x0520 := by
  simp only [State.doSshf, shift_reserved h]

theorem State.doScmp_some {b : Bool} (h : condition (iF w % 8) ((s.vctx c v x).sreg (iA w)) ((s.vctx c v x).sreg (iB w)) = some b) :
    State.doScmp c v s x w = s.vS c v x (iD w) (if b = true then 1 else 0) := by
  simp only [State.doScmp, h]

theorem State.doScmp_reserved (h : 6 ≤ iF w % 8) : State.doScmp c v s x w = .fault 0x0520 := by
  simp only [State.doScmp, condition_reserved h]

/-! ## Control -/

theorem State.doBc_taken (h : condition (bitsOf w 13 3) ((s.vctx c v x).sreg (iD w)) ((s.vctx c v x).sreg (iA w)) = some true) :
    State.doBc c v s x w = .jump s (wordsOff (s.vctx c v x).pc (sext 13 w)) := by
  simp only [State.doBc, h]

theorem State.doBc_untaken (h : condition (bitsOf w 13 3) ((s.vctx c v x).sreg (iD w)) ((s.vctx c v x).sreg (iA w)) = some false) :
    State.doBc c v s x w = .next s := by
  simp only [State.doBc, h]

theorem State.doBc_reserved (h : condition (bitsOf w 13 3) ((s.vctx c v x).sreg (iD w)) ((s.vctx c v x).sreg (iA w)) = none) :
    State.doBc c v s x w = .fault 0x0520 := by
  simp only [State.doBc, h]

theorem State.doLoop_skips (h : (s.vctx c v x).sreg (iA w) = 0) :
    State.doLoop c v s x w = .skip s ((s.vctx c v x).pc + 4 + 4 * iImm w) := if_pos h

section
variable (hcount : (s.vctx c v x).sreg (iA w) ≠ 0) (hbody : iImm w ≠ 0)
include hcount hbody

theorem State.doLoop_enters (hopen : (s.vctx c v x).loops.length < 2) :
    State.doLoop c v s x w = .next (s.modCtx c v x fun u =>
      { u with loops := (u.pc + 4, (s.vctx c v x).pc + 4 + 4 * iImm w, u.sreg (iA w)) :: u.loops }) :=
  (if_neg hcount).trans ((if_neg hbody).trans (if_neg (Nat.not_le.2 hopen)))

theorem State.doLoop_third (hopen : 2 ≤ (s.vctx c v x).loops.length) : State.doLoop c v s x w = .fault 0x0522 :=
  (if_neg hcount).trans ((if_neg hbody).trans (if_pos hopen))

end

theorem State.doHalt_zero (h : iImm w = 0) :
    State.doHalt c v s x w = .stop (if x = 1 then s.svcHalt c v else (s.setVxState c v vxHalted).vxStopped c v) := by
  rw [apply_ite VOut.stop]
  exact (if_neg (by omega)).trans (if_neg (not_not.2 h))

theorem State.doFence_passes (h : iImm w = 1) (hout : (s.getVx c v).out = []) (hq : (s.getEng c v).emitq = []) :
    State.doFence c v s x w = .next s :=
  (if_neg (by omega)).trans ((if_neg (not_not.2 h)).trans (if_pos ⟨hout, hq⟩))

theorem State.doBreak_two (h : iImm w = 2) : State.doBreak s x w = .fault 0x0524 :=
  (if_neg (by omega)).trans (if_neg (not_not.2 h))

end

/-- Settles O14: each instruction's result, carried through the issue of the core. -/
theorem scalarInstructionsWriteTheirResults : Obligations.ScalarInstructionsWriteTheirResults := by
  refine ⟨?sadd, ?ssub, ?smulLow, ?smulHigh, ?smulHighU, ?smulReserved, ?slog, ?sshf, ?sshfReserved, ?scmp, ?scmpReserved, ?saddi, ?slui⟩
  case sadd => exact fun s₀ c v took bad x w hi => exec_issued_next rfl hi rfl
  case ssub => exact fun s₀ c v took bad x w hi => exec_issued_next rfl hi rfl
  case smulLow => exact fun s₀ c v took bad x w hi h => exec_issued_next rfl hi (State.doSmul_low h)
  case smulHigh => exact fun s₀ c v took bad x w hi h => exec_issued_next rfl hi (State.doSmul_signedHigh h)
  case smulHighU => exact fun s₀ c v took bad x w hi h => exec_issued_next rfl hi (State.doSmul_unsignedHigh h)
  case smulReserved => exact fun s₀ c v took bad x w hi h => exec_issued_fault rfl hi (State.doSmul_reserved h)
  case slog => exact fun s₀ c v took bad x w hi => exec_issued_next rfl hi rfl
  case sshf => exact fun s₀ c v took bad x w n hi h => exec_issued_next rfl hi (State.doSshf_some h)
  case sshfReserved => exact fun s₀ c v took bad x w hi h => exec_issued_fault rfl hi (State.doSshf_reserved h)
  case scmp => exact fun s₀ c v took bad x w b hi h => exec_issued_next rfl hi (State.doScmp_some h)
  case scmpReserved => exact fun s₀ c v took bad x w hi h => exec_issued_fault rfl hi (State.doScmp_reserved h)
  case saddi => exact fun s₀ c v took bad x w hi => exec_issued_next rfl hi rfl
  case slui => exact fun s₀ c v took bad x w hi => exec_issued_next rfl hi rfl

/-- Settles O15: each instruction's way of ending, carried through the issue of the core. -/
theorem controlInstructionsMoveTheProgramCounter : Obligations.ControlInstructionsMoveTheProgramCounter := by
  refine ⟨?bc, ?jmp, ?jr, ?loop, ?halt, ?fence, ?breaks⟩
  case bc =>
    intro s₀ c v took bad x w hi s
    refine ⟨fun h => ?_, fun h => ?_, fun h => ?_⟩
    · exact exec_issued_jump rfl hi (State.doBc_taken h)
    · exact exec_issued_next rfl hi (State.doBc_untaken h)
    · exact exec_issued_fault rfl hi (State.doBc_reserved h)
  case jmp => exact fun s₀ c v took bad x w hi => exec_issued_jump rfl hi rfl
  case jr => exact fun s₀ c v took bad x w hi => exec_issued_jump rfl hi rfl
  case loop =>
    intro s₀ c v took bad x w hi s stop
    refine ⟨fun h => ?_, fun hcount hbody hopen => ?_, fun hcount hbody hopen => ?_⟩
    · exact exec_issued_skip rfl hi (State.doLoop_skips h)
    · exact exec_issued_next rfl hi (State.doLoop_enters hcount hbody hopen)
    · exact exec_issued_fault rfl hi (State.doLoop_third hcount hbody hopen)
  case halt => exact fun s₀ c v took bad x w hi h => exec_issued_stop rfl hi (State.doHalt_zero h)
  case fence => exact fun s₀ c v took bad x w hi h hout hq => exec_issued_next rfl hi (State.doFence_passes h hout hq)
  case breaks => exact fun s₀ c v took bad x w hi h => exec_issued_fault rfl hi (State.doBreak_two h)

end Sys2Proof.Machine
end

section
/-! What the vector instructions of a vector core write (R223, R226 to R228): lane-wise arithmetic, comparison, conversion, reduction and
moves. -/

namespace Sys2Proof.Machine

section
variable {s : State} {c v x w : Nat}

/-! ## Lane-wise arithmetic -/

theorem State.doVshf_shifts (h : bitsOf w 5 2 ≠ 3) :
    State.doVshf c v s x w = s.vV c v x w fun k =>
      (shift (iF w) (vlane ((s.vctx c v x).vreg (iA w)) k) (shiftBy (iF w) (vlane ((s.vctx c v x).vreg (iB w)) k))).getD 0 := if_neg h

theorem State.doVshf_reserved (h : bitsOf w 5 2 = 3) : State.doVshf c v s x w = .fault 0x0520 := if_pos h

/-! ## Comparison and conversion -/

/-- Only an unsigned condition of FP32 draws a free value (log entry 139). -/
theorem State.doVcmp_writes (hk : iF w % 8 ≤ 5) :
    let u := s.vctx c v x
    let free := decide (iT w = 2) && decide (4 ≤ iF w % 8)
    let fv : DWord := if free = true then Config.freeValue s.fresh else 0
    let t := if free = true then { s with fresh := s.fresh + 1 } else s
    State.doVcmp c v s x w = .next (t.modCtx c v x fun y => y.setM (iD w % 8) (bits16 fun k =>
      if (u.mreg (iM w)).testBit k = true
      then (typedCond (iT w) (iF w % 8) (vlane (u.vreg (iA w)) k) (vlane (u.vreg (iB w)) k) (fv.toNat.testBit k)).getD false
      else (u.mreg (iD w % 8)).testBit k)) := by
  intro u free fv t
  have hcode : ¬iF w % 8 > 5 := Nat.not_lt.2 hk
  by_cases hfree : iT w = 2 ∧ 4 ≤ iF w % 8
  · have hb : free = true := by simpa [free] using hfree
    simp only [State.doVcmp, if_neg hcode, fv, t, hb]
    rw [if_pos hfree]
    rfl
  · have hb : ¬free = true := by simpa [free] using hfree
    simp only [State.doVcmp, if_neg hcode, fv, t, hb]
    rw [if_neg hfree]
    rfl

theorem State.doVcmp_reserved (hk : 5 < iF w % 8) : State.doVcmp c v s x w = .fault 0x0520 := if_pos hk

theorem State.doVcvt_converts {fs fd : Fmt} (hsrc : bitsOf w 4 4 ≠ 11) (hdst : bitsOf w 0 4 ≠ 11) (hs : Fmt.ofCode (bitsOf w 4 4) = some fs)
    (hd : Fmt.ofCode (bitsOf w 0 4) = some fd) (hg : iB w < 32 / min fs.width fd.width) :
    let u := s.vctx c v x
    let gs := if fs.width ≤ fd.width then iB w else 0
    let gd := if fd.width ≤ fs.width then iB w else 0
    State.doVcvt c v s x w = .next (s.modCtx c v x fun y => y.setV (iD w) ((List.range 16).foldl (fun acc k =>
      if (u.mreg (iM w)).testBit k = true then setBits acc ((gd * 16 + k) * fd.width) fd.width
        (encodeFmt fd (decodeFmt fs (bitsOf (u.vreg (iA w)) ((gs * 16 + k) * fs.width) fs.width)))
      else acc) (u.vreg (iD w)))) := by
  intro u gs gd
  simp only [State.doVcvt, hs, hd]
  exact (if_neg (not_or.2 ⟨hsrc, hdst⟩)).trans (if_neg (Nat.not_le.2 hg))

theorem State.doVcvt_reserved (h : bitsOf w 4 4 = 11 ∨ bitsOf w 0 4 = 11) : State.doVcvt c v s x w = .fault 0x0520 := if_pos h

/-! ## Reduction -/

theorem State.doVred_sum (h : iF w % 4 = 0) :
    let u := s.vctx c v x
    State.doVred c v s x w = s.vS c v x (iD w) ((pairTree (fun a b => typedAdd (iT w) a b % 2 ^ 32) 4
      ((List.range 16).map fun k => if (u.mreg (iM w)).testBit k = true then some (vlane (u.vreg (iA w)) k) else none)).getD 0) := by
  simp only [State.doVred, h]

/-- The minimum or maximum of the lanes that take part, none where no lane does (R227). -/
def State.vredBest (s : State) (c v x w : Nat) : Option Nat :=
  let u := s.vctx c v x
  pairTree (if iF w % 4 = 1 then typedMin (iT w) else typedMax (iT w)) 4
    ((List.range 16).map fun k => if (u.mreg (iM w)).testBit k = true then some (vlane (u.vreg (iA w)) k) else none)

/-- Of no lane the result is a free value (log entry 140). -/
theorem State.doVred_extreme (h : iF w % 4 = 1 ∨ iF w % 4 = 2) :
    State.doVred c v s x w = (s.vredBest c v x w).elim (s.draw.2.vS c v x (iD w) s.draw.1.toNat) (s.vS c v x (iD w)) := by
  rcases h with h | h
  all_goals
    simp only [State.doVred, State.vredBest, h]
    generalize pairTree _ 4 _ = best
    cases best <;> rfl

theorem State.doVred_reserved (h : iF w % 4 = 3) : State.doVred c v s x w = .fault 0x0520 := by
  simp only [State.doVred, h]

/-! ## Moves -/

theorem State.doVmov_vector (h : iF w % 8 = 0) :
    State.doVmov c v s x w = s.vV c v x w fun k => vlane ((s.vctx c v x).vreg (iA w)) k := by
  simp only [State.doVmov, h]

theorem State.doVmov_broadcast (h : iF w % 8 = 1) : State.doVmov c v s x w = s.vV c v x w fun _ => (s.vctx c v x).sreg (iA w) := by
  simp only [State.doVmov, h]

theorem State.doVmov_extract (h : iF w % 8 = 2) (hk : iB w ≤ 15) :
    State.doVmov c v s x w = s.vS c v x (iD w) (vlane ((s.vctx c v x).vreg (iA w)) (iB w)) := by
  simp only [State.doVmov, h]
  exact if_neg (Nat.not_lt.2 hk)

theorem State.doVmov_insert (h : iF w % 8 = 3) (hk : iB w ≤ 15) :
    State.doVmov c v s x w = s.vV c v x w fun k =>
      if k = iB w then (s.vctx c v x).sreg (iA w) else vlane ((s.vctx c v x).vreg (iD w)) k := by
  simp only [State.doVmov, h]
  exact if_neg (Nat.not_lt.2 hk)

theorem State.doVmov_count (h : iF w % 8 = 4) : State.doVmov c v s x w = s.vV c v x w fun k => (s.vctx c v x).sreg (iA w) + k := by
  simp only [State.doVmov, h]

theorem State.doVmov_maskAnd (h : iF w % 8 = 5) :
    State.doVmov c v s x w =
      .next (s.modCtx c v x fun u => u.setM (iD w % 8) ((s.vctx c v x).mreg (iA w % 8) &&& (s.vctx c v x).mreg (iB w % 8))) := by
  simp only [State.doVmov, h]

theorem State.doVmov_maskNot (h : iF w % 8 = 6) :
    State.doVmov c v s x w = .next (s.modCtx c v x fun u => u.setM (iD w % 8) (0xFFFF - (s.vctx c v x).mreg (iA w % 8))) := by
  simp only [State.doVmov, h]

theorem State.doVmov_maskSet (h : iF w % 8 = 7) :
    State.doVmov c v s x w = .next (s.modCtx c v x fun u => u.setM (iD w % 8) ((s.vctx c v x).sreg (iA w))) := by
  simp only [State.doVmov, h]

theorem State.doVmov_noLane (h : iF w % 8 = 2 ∨ iF w % 8 = 3) (hk : 15 < iB w) : State.doVmov c v s x w = .fault 0x0520 := by
  rcases h with h | h <;> simp only [State.doVmov, h] <;> exact if_pos hk

end

/-- Settles O17: each instruction's lanes, carried through the issue of the core. -/
theorem vectorArithmeticWritesUnderTheMask : Obligations.VectorArithmeticWritesUnderTheMask := by
  refine ⟨?vadd, ?vsub, ?vmul, ?vmac, ?vmnx, ?vlog, ?vshf, ?vshfReserved, ?vsel⟩
  case vadd => exact fun s₀ c v took bad x w hi => exec_issued_next rfl hi rfl
  case vsub => exact fun s₀ c v took bad x w hi => exec_issued_next rfl hi rfl
  case vmul => exact fun s₀ c v took bad x w hi => exec_issued_next rfl hi rfl
  case vmac => exact fun s₀ c v took bad x w hi => exec_issued_next rfl hi rfl
  case vmnx => exact fun s₀ c v took bad x w hi => exec_issued_next rfl hi rfl
  case vlog => exact fun s₀ c v took bad x w hi => exec_issued_next rfl hi rfl
  case vshf => exact fun s₀ c v took bad x w hi h => exec_issued_next rfl hi (State.doVshf_shifts h)
  case vshfReserved => exact fun s₀ c v took bad x w hi h => exec_issued_fault rfl hi (State.doVshf_reserved h)
  case vsel => exact fun s₀ c v took bad x w hi => exec_issued_next rfl hi rfl

/-- Settles O18: each instruction's outcome, carried through the issue of the core. -/
theorem vectorComparisonConversionAndMoves : Obligations.VectorComparisonConversionAndMoves := by
  refine ⟨?vcmp, ?vcmpReserved, ?vcvt, ?vcvtReserved, ?vred, ?vector, ?broadcast, ?extract, ?insert, ?count, ?maskAnd, ?maskNot, ?maskSet,
    ?noLane⟩
  case vcmp => exact fun s₀ c v took bad x w hi hk => exec_issued_next rfl hi (State.doVcmp_writes hk)
  case vcmpReserved => exact fun s₀ c v took bad x w hi hk => exec_issued_fault rfl hi (State.doVcmp_reserved hk)
  case vcvt => exact fun s₀ c v took bad x w fs fd hi hsrc hdst hs hd hg => exec_issued_next rfl hi (State.doVcvt_converts hsrc hdst hs hd hg)
  case vcvtReserved => exact fun s₀ c v took bad x w hi h => exec_issued_fault rfl hi (State.doVcvt_reserved h)
  case vred =>
    intro s₀ c v took bad x w hi s u ls best
    refine ⟨fun h => ?_, fun n h hbest => ?_, fun h hbest => ?_, fun h => ?_⟩
    · exact exec_issued_next rfl hi (State.doVred_sum h)
    · exact exec_issued_next rfl hi ((State.doVred_extreme h).trans (congrArg (Option.elim · _ _) hbest))
    · exact exec_issued_next rfl hi ((State.doVred_extreme h).trans (congrArg (Option.elim · _ _) hbest))
    · exact exec_issued_fault rfl hi (State.doVred_reserved h)
  case vector => exact fun s₀ c v took bad x w hi h => exec_issued_next rfl hi (State.doVmov_vector h)
  case broadcast => exact fun s₀ c v took bad x w hi h => exec_issued_next rfl hi (State.doVmov_broadcast h)
  case extract => exact fun s₀ c v took bad x w hi h hk => exec_issued_next rfl hi (State.doVmov_extract h hk)
  case insert => exact fun s₀ c v took bad x w hi h hk => exec_issued_next rfl hi (State.doVmov_insert h hk)
  case count => exact fun s₀ c v took bad x w hi h => exec_issued_next rfl hi (State.doVmov_count h)
  case maskAnd => exact fun s₀ c v took bad x w hi h => exec_issued_next rfl hi (State.doVmov_maskAnd h)
  case maskNot => exact fun s₀ c v took bad x w hi h => exec_issued_next rfl hi (State.doVmov_maskNot h)
  case maskSet => exact fun s₀ c v took bad x w hi h => exec_issued_next rfl hi (State.doVmov_maskSet h)
  case noLane => exact fun s₀ c v took bad x w hi h => exec_issued_fault rfl hi (State.doVmov_noLane h.1 h.2)

end Sys2Proof.Machine
end

section
/-! What starting, loading and carrying out a descriptor of a matrix core does (R206, R209, R210, R213 to R217, R241, R254), one equation for
each case of an operation. -/

namespace Sys2Proof.Machine

/-! ## Starting and feeding -/

section
variable {s : State} {c stopped : Nat} {bad : List Nat} {d : Desc} {r : MRun} {p : Prof} {want : Nat → Bool}

/-- Two changes of a matrix core's record that agree on the present one do the same. -/
theorem State.modMx_congr {f g : Mx → Mx} (h : f (s.getMx c) = g (s.getMx c)) : s.modMx c f = s.modMx c g := by
  unfold State.modMx mmod
  rw [show f (mget s.mx c) = g (mget s.mx c) from h]

theorem State.mxReady_some (h : s.mxReady c = some d) : (s.getMx c).run = none ∧ s.mxDue c = some d := by
  unfold State.mxReady at h
  split at h
  next => cases h
  next hrun => exact ⟨by simpa using hrun, h⟩

/-- A head descriptor of the command's operation that is not cancelled and passes its checks begins, where nothing is loaded ahead (R210). -/
theorem State.mxStep_begins (hd : s.mxReady c = some d) (hw : want d.op = true) (hc : s.mxCancelled c (s.mxHead c) = false)
    (hn : (s.getMx c).next = none) (hk : s.mxCheck bad c d = 0) :
    s.mxStep bad c stopped want = s.mxBegin bad c stopped (s.mxHead c) d := by
  obtain ⟨hrun, hdue⟩ := State.mxReady_some hd
  have hlive : ∀ b, s.mxBindOf c (s.mxHead c) = some b → b.cancelled ≠ true := by
    intro b hb
    simpa [State.mxCancelled, hb] using hc
  simp only [State.mxStep, hrun, hdue, hw, hn, hk, Bool.not_true, Bool.false_eq_true, if_false, ne_eq, not_true_eq_false]
  split
  next hb => exact absurd rfl (hlive _ hb)
  next heq _ => cases heq
  next => rfl

theorem State.mxBegin_within {n : Nat} (hp : (s.mxTake c d).mxPast c d (s.prof c d.prof) = false) :
    s.mxBegin bad c stopped n d = ((s.mxTake c d).mxLoad c n d (s.prof c d.prof)).mxExec bad c stopped :=
  if_neg (by simp [hp])

theorem State.mxStep_feeds (hr : (s.getMx c).run = some r) (hw : want (descOf r.word).op = true) :
    s.mxStep bad c stopped want = (s.mxFeed c).mxExec bad c stopped := by
  simp only [State.mxStep, hr, hw, if_true]

/-- The commands of the operations are steps of the core, each for its own operation; only a multiply has runs that stop (R210). -/
theorem exec_mxStep {c : Fin 96} {op : Nat} {i : Instr}
    (h : (op = 0 ∧ i = .mxFence c bad) ∨ (op = 1 ∧ i = .mxMatmul c stopped bad) ∨ (op = 2 ∧ i = .mxConv c stopped bad) ∨
      (op = 3 ∧ i = .mxEw c bad) ∨ (op = 4 ∧ i = .mxReduce c bad) ∨ (op = 5 ∧ i = .mxEncode c bad) ∨ (op = 6 ∧ i = .mxGather c bad)) :
    ∃ want : Nat → Bool, want op = true ∧
      ∀ s, exec i s = .next (s.mxStep bad c.val (if op = 1 ∨ op = 2 then stopped else 0) want) := by
  obtain ⟨rfl, rfl⟩ | ⟨rfl, rfl⟩ | ⟨rfl, rfl⟩ | ⟨rfl, rfl⟩ | ⟨rfl, rfl⟩ | ⟨rfl, rfl⟩ | ⟨rfl, rfl⟩ := h
  · exact ⟨fun op => op == 0 || decide (op ≥ 7), rfl, fun _ => rfl⟩
  · exact ⟨(· == 1), rfl, fun _ => rfl⟩
  · exact ⟨(· == 2), rfl, fun _ => rfl⟩
  · exact ⟨(· == 3), rfl, fun _ => rfl⟩
  · exact ⟨(· == 4), rfl, fun _ => rfl⟩
  · exact ⟨(· == 5), rfl, fun _ => rfl⟩
  · exact ⟨(· == 6), rfl, fun _ => rfl⟩

/-! ## Carrying out -/

/-- A descriptor has been carried out: its results go out, and the next one may load ahead (R206, R209). -/
def State.mxCarried (s : State) (bad : List Nat) (c : Nat) : State :=
  ((s.modMx c fun x => { x with run := x.run.map fun r => { r with ran := true }, opnd := [] }).mxFeed c).mxAhead bad c

theorem State.mxExec_waits (hr : (s.getMx c).run = some r) (h : r.ran = true ∨ s.mxMoving c r.n = true) : s.mxExec bad c stopped = s := by
  simp only [State.mxExec, hr]
  exact if_pos (by simpa using h)

section
variable (hr : (s.getMx c).run = some r) (hran : r.ran = false) (hm : s.mxMoving c r.n = false)
include hr hran hm

theorem State.mxExec_carries :
    s.mxExec bad c stopped =
      (if s.mxBadWord bad c (descOf r.word) (s.prof c (descOf r.word).prof) = true then s.mxFail c 0x0514 0
        else s.mxOp c stopped (descOf r.word) (s.prof c (descOf r.word).prof)).mxCarried bad c := by
  simp only [State.mxExec, hr, hran, hm, Bool.or_self, Bool.false_eq_true, if_false]
  rfl

theorem State.mxExec_fails (hb : s.mxBadWord bad c (descOf r.word) (s.prof c (descOf r.word).prof) = true) :
    s.mxExec bad c stopped =
      (s.modMx c fun x => { x with run := some { r with status := 1, reason := 0x0514, rerun := 0 } }).mxCarried bad c := by
  rw [State.mxExec_carries hr hran hm, if_pos hb]
  exact congrArg (State.mxCarried · bad c) (State.modMx_congr (by rw [hr]; rfl))

/-- With its operands in and readable, a descriptor does its operation. -/
theorem State.mxExec_operates {t : State} (hd : descOf r.word = d) (hb : s.mxBadWord bad c d (s.prof c d.prof) = false)
    (ho : s.mxOp c stopped d (s.prof c d.prof) = t) : s.mxExec bad c stopped = t.mxCarried bad c := by
  subst hd ho
  rw [State.mxExec_carries hr hran hm, if_neg (by simp [hb])]

end

/-! ## Operations -/

theorem State.mxOp_fence (h : d.op = 0) : s.mxOp c stopped d p = s.mxOk c 0 := by
  simp only [State.mxOp, h]

theorem State.mxOp_multiply (h : d.op = 1 ∨ d.op = 2) : s.mxOp c stopped d p = s.mxMultiply c stopped d p := by
  rcases h with h | h <;> simp only [State.mxOp, h]

section
variable {rows : List (List Num)} (hrows : s.exactRows c d p = some rows)
include hrows

theorem State.mxOp_ew (h : d.op = 3) :
    s.mxOp c stopped d p = ((s.mxTiles c).writeOut c d p (s.ewRows c d rows)).mxOk c 0 := by
  simp only [State.mxOp, h, State.mxEw, hrows]

theorem State.mxOp_reduce (h : d.op = 4) :
    s.mxOp c stopped d p = ((s.mxTiles c).writeOut c d p (if d.sub.testBit 2 = true then
        [(List.range d.n).map fun j => reduceOne d.sub d.relu (rows.map fun r => r.getD j .nan)]
      else rows.map fun r => [reduceOne d.sub d.relu r])).mxOk c 0 := by
  simp only [State.mxOp, h, State.mxReduce, hrows]

/-- ENCODE's records join those the emit port has not taken, and DELTA's residues go back where they came from (R216). -/
theorem State.mxOp_encode (h : d.op = 5) :
    s.mxOp c stopped d p =
      let rows := rows.map fun r => r.map (encodeFmt .fp32)
      let w0 := bitsOf d.wbase 0 14
      let cells := rows.zipIdx.map fun r => r.1.zipIdx.map fun x =>
        let del := if d.sub = 3 then leNat (s.opBytes c (d.bbase + r.2 * d.wstr + 4 * x.2) 4) else 0
        let e := encodeOne d.sub (fmtD d.ofmt) d.param x.1 del (pairRand (s.val .MX_SEED [c]) (w0 + r.2) x.2 (s.wgWStep d.wg))
        (e.1.map fun k => emitRec k.1 (w0 + r.2) k.2 (bitsOf d.wbase 16 16 + x.2), e.2)
      let nan := if d.sub = 1 then (rows.flatten.filter fun x => losesNaN (fmtD d.ofmt) (decodeFmt .fp32 x)).length else 0
      let v := if d.sub = 3 then
          cells.zipIdx.foldl (fun u r => u.mxWrite c (d.bbase + r.2 * d.wstr) (r.1.flatMap fun x => leBytes 4 x.2)) s
        else s
      ((((v.mxTiles c).bump .QF_NAN [c] nan).modMx c fun x => { x with recs := x.recs ++ cells.flatten.filterMap (·.1) }).mxEmitFill
        c).mxOk c 0 := by
  simp only [State.mxOp, h, State.mxEncode, hrows]

end

/-- GATHER reads the spike counts where a row is as long as the cores' records of a world together (R217). -/
theorem State.mxOp_gather (h : d.op = 6) :
    let cores := ((List.range 16).filter fun n => (bitsOf d.wbase 0 16).testBit n).filterMap fun n =>
      (s.gmapOf c n d.wg).map fun e => (n, e)
    let inst (r : Nat) : List (Nat × Nat) := cores.flatMap fun x =>
      (List.range (s.gmNpw c x.1 x.2)).map fun j => (x.1, s.gmBase c x.1 x.2 + r * s.gmNpw c x.1 x.2 + j)
    (cores.map fun x => s.gmNpw c x.1 x.2).sum = d.n →
    s.mxOp c stopped d p =
      let v := s.writeOut c d p ((List.range d.m).map fun r => (inst r).map fun x => Num.ofInt (s.getRec c x.1 x.2).scnt)
      let v := if d.sub = 1 then
          (List.range d.m).foldl (fun t r => t.each (inst r) fun t x => t.putRec c x.1 x.2 { t.getRec c x.1 x.2 with scnt := 0 }) v
        else v
      (v.bump .MX_GREC [c] (d.m * d.n)).mxOk c 0 := by
  intro cores inst hn
  simp only [State.mxOp, h]
  exact if_neg (not_not.2 hn)

end

/-! ## The multiply of operands that are not converted -/

/-- What a function gives on every element of a list, where it gives something on each. -/
theorem map_of_mapM_eq_some {α β : Type} {f : α → Option β} {l : List α} {a : List β} (h : l.mapM f = some a) : l.map f = a.map some := by
  induction l generalizing a with
  | nil =>
    obtain rfl : [] = a := by simpa using h
    rfl
  | cons x t ih =>
    rw [List.mapM_cons] at h
    obtain ⟨y, hy, h⟩ := Option.bind_eq_some_iff.1 h
    obtain ⟨ys, hys, h⟩ := Option.bind_eq_some_iff.1 h
    obtain rfl : y :: ys = a := by simpa using h
    rw [List.map_cons, hy, ih hys, List.map_cons]

/-- Where every row can be read, the rows up to the first that cannot are all of them. -/
theorem takeWhile_isSome_of_mapM {α β : Type} {f : α → Option β} {l : List α} {a : List β} (h : l.mapM f = some a) :
    ((l.map f).takeWhile (·.isSome)).filterMap id = a := by
  rw [map_of_mapM_eq_some h, List.takeWhile_eq_self_iff.2 (by simp), List.filterMap_map]
  exact List.filterMap_some

theorem length_of_mapM {α β : Type} {f : α → Option β} {l : List α} {a : List β} (h : l.mapM f = some a) : a.length = l.length := by
  simpa using (congrArg List.length (map_of_mapM_eq_some h)).symm

section
variable {s : State} {c stopped : Nat} {d : Desc} {p : Prof} (hp : p.amode = 0 ∨ p.amode = 3)
include hp

theorem Desc.usesTable_unconverted : d.usesTable p = false := by
  rcases hp with hp | hp <;> simp [Desc.usesTable, hp]

/-- Without a conversion on load there is one run, in the format of A, and with sound headers it completes (R250, R257, R260). -/
theorem State.mxChain_unconverted {src : List (List Num)} (t : List Nat) (hlen : src.length = d.rows) (hw : s.wBad c d p = []) :
    s.mxChain c d p src t =
      { vals := some src, reason := 0, fmt := fmtD d.afmt, reruns := 0, counts := {}, fail := none, stops := [] } := by
  have hmode : ¬(p.amode = 1 ∨ p.amode = 2) := by omega
  unfold State.mxChain
  dsimp only
  rw [if_neg hmode, if_neg (by omega), hw]
  rfl

theorem State.mxMultiply_unconverted {a : List (List Num)} (hf : fmtD d.afmt ≠ .fp32) (ha : (List.range d.rows).mapM (s.aRow c d p) = some a) :
    let v := s.loadResident c d p
    let w := v.wCols c d p
    v.wBad c d p = [] →
    s.mxMultiply c stopped d p =
      let v := ((((v.countQf c {}).mxTiles c).bump .QF_RERUNS [c] 0).bump .MX_RERUN [c] 0).bump .QF_RRCYC [c] 0
      let acc := a.map fun r => w.map fun col => accumulate (accMode d p (fmtD d.afmt)) r col
      let v' := v.bump .QF_ACCSAT [c] ((acc.map fun r => (r.map (·.2)).sum).sum)
      let rows := acc.map fun r => v.finish c d (r.map (·.1))
      ((v'.writeOut c d p rows).bump .MX_MACS [c] (d.rows * d.depth * d.n)).mxOk c 0 := by
  intro v w hw
  have hlen : a.length = d.rows := (length_of_mapM ha).trans List.length_range
  have hchain := State.mxChain_unconverted (s := v) hp [] hlen hw
  unfold State.mxMultiply
  simp only [Desc.usesTable_unconverted hp, takeWhile_isSome_of_mapM ha, Bool.false_eq_true, if_false, Bool.false_and]
  simp only [← show v = s.loadResident c d p from rfl, hchain, State.mxRows, hf, if_false, if_true, State.mxFailRegs]
  rfl

end

/-- Settles O11: each operation's case, under the conditions that lead to it. -/
theorem matrixDescriptorsRunToTheirResults : Obligations.MatrixDescriptorsRunToTheirResults := by
  unfold Obligations.MatrixDescriptorsRunToTheirResults
  intro kind cycles out
  refine ⟨?starts, ?feeds, ?waits, ?badWord, ?fence, ?matmul, ?conv, ?ew, ?reduce, ?encode, ?gather, ?multiply⟩
  case starts =>
    intro s c stopped bad i d hd hk hc hn hcheck p n t hpast
    obtain ⟨want, hw, hexec⟩ := exec_mxStep hk
    rw [hexec, State.mxStep_begins hd hw hc hn hcheck, State.mxBegin_within hpast]
    rfl
  case feeds =>
    intro s c stopped bad i r hr hk
    obtain ⟨want, hw, hexec⟩ := exec_mxStep hk
    rw [hexec, State.mxStep_feeds hr hw]
  case waits => exact fun s c stopped bad r hr h => State.mxExec_waits hr h
  case badWord => exact fun s c stopped bad r hr hran hm hb => State.mxExec_fails hr hran hm hb
  case fence => exact fun s c stopped bad d r hr hd hran hm hop hb => State.mxExec_operates hr hran hm hd hb (State.mxOp_fence hop)
  case matmul =>
    exact fun s c stopped bad d r hr hd hran hm hop hb => State.mxExec_operates hr hran hm hd hb (State.mxOp_multiply (.inl hop))
  case conv =>
    exact fun s c stopped bad d r hr hd hran hm hop hb => State.mxExec_operates hr hran hm hd hb (State.mxOp_multiply (.inr hop))
  case ew =>
    exact fun s c stopped bad d r rows hr hd hran hm hop hb hrows => State.mxExec_operates hr hran hm hd hb (State.mxOp_ew hrows hop)
  case reduce =>
    exact fun s c stopped bad d r rows hr hd hran hm hop hb hrows => State.mxExec_operates hr hran hm hd hb (State.mxOp_reduce hrows hop)
  case encode =>
    exact fun s c stopped bad d r exact hr hd hran hm hop hb hrows => State.mxExec_operates hr hran hm hd hb (State.mxOp_encode hrows hop)
  case gather =>
    exact fun s c stopped bad d r hr hd hran hm hop hb hn => State.mxExec_operates hr hran hm hd hb (State.mxOp_gather hop hn)
  case multiply => exact fun s c stopped d p a hp hf ha hw => State.mxMultiply_unconverted hp hf ha hw

/-! ## The queue of a matrix core -/

section
variable {s : State} {req : Requester} {c v cycles : Nat} {r : MRun}

theorem State.cmdWrite_mxDqTail (hr : s.Reached req .MX_DQ_TAIL [c]) (hv : v % 2 ^ 32 = v) :
    s.cmdWrite req .MX_DQ_TAIL [c] v = s.mxTail' c v := by
  rw [State.cmdWrite_reached32 hr rfl rfl rfl, hv]
  rfl

/-- A descriptor that has been carried out and whose results and records have gone out completes (R213, R221, R237). -/
theorem State.mxComplete_ends (hr : (s.getMx c).run = some r) (hrecs : (s.getMx c).recs = []) (hran : r.ran = true)
    (hm : s.mxMoving c r.n = false) (busy wait : Nat) :
    s.mxComplete c cycles busy wait =
      let r := if s.mxCancelled c r.n = true then { r with status := 2, reason := 0 } else r
      let u := (s.mxRecord c r.n r.tag r.reason r.status r.rerun cycles).bump .MX_DONE [c]
      let u := (u.bump .MX_BUSY [c] busy).bump .MX_OPWAIT [c] wait
      let u := u.modMx c fun x => { x with run := none, outs := [], binds := x.binds.filter fun b => b.n != r.n }
      let u := if r.status = 1 then (u.bump .MX_DERR [c]).setFld .MX_STATUS [c] MX_STATUS_REASON r.reason else u
      if r.status = 1 ∧ r.wg ≠ 0 then u.haltAtHarvest (r.wg - 1) 0x0580 else u := by
  simp only [State.mxComplete, hr]
  exact if_neg (by simp [hrecs, hran, hm])

theorem State.abortWrite_reached (hr : s.regReachReg req (some .MX_CTRL) (Reg.MX_CTRL.place [c]) true = true) :
    s.abortWrite req c cycles = s.mxAbort c cycles := if_pos hr

end

/-- Settles O12: the write of TAIL, a completion that nothing holds back, and an abort within reach. -/
theorem matrixQueueCommandsHaveTheirEffects : Obligations.MatrixQueueCommandsHaveTheirEffects := by
  refine ⟨?tail, ?complete, ?abort⟩
  case tail =>
    intro s req c v hr
    exact congrArg Host.Outcome.next (State.cmdWrite_mxDqTail hr (word_mod v))
  case complete =>
    intro s c cycles busy wait r hr hrecs hran hm
    exact congrArg Host.Outcome.next (State.mxComplete_ends hr hrecs hran hm busy wait)
  case abort =>
    intro s req c cycles hr
    exact congrArg Host.Outcome.next (State.abortWrite_reached hr)

end Sys2Proof.Machine
end

section
/-! What enabling and disabling a vector core does, and the end of a transfer of one (R224, R231, R232, R239, R240). -/

namespace Sys2Proof.Machine

/-! ## VX_CFG -/

section
variable {s : State} {req : Requester} {c v w : Nat}

theorem State.cmdWrite_vxCfg (hr : s.Reached req .VX_CFG [c, v]) (hw : w % 2 ^ 32 = w) :
    s.cmdWrite req .VX_CFG [c, v] w = s.vxCfgWrite c v w := by
  rw [State.cmdWrite_reached32 hr rfl rfl rfl, hw]
  rfl

/-- While no enabled set uses the service program, a write of VX_CFG stores STDSVC and enables or disables the core (R224, R239). -/
theorem State.vxCfgWrite_unlocked (hl : s.svcLocked c v = false) :
    s.vxCfgWrite c v w =
      let u := s.setFld .VX_CFG [c, v] VX_CFG_STDSVC (bitsOf w 1 1)
      if w.testBit 0 = true then u.vxEnable c v else u.vxDisable c v := by
  simp only [State.vxCfgWrite, hl, Bool.false_eq_true, if_false]

theorem State.cmdWrite_vxCfg_unlocked {w : Word} {on : Bool} (hr : s.Reached req .VX_CFG [c, v]) (hl : s.svcLocked c v = false) :
    s.cmdWrite req .VX_CFG [c, v] (withEn w on) =
      let u := s.setFld .VX_CFG [c, v] VX_CFG_STDSVC (bitsOf (withEn w on) 1 1)
      if on = true then u.vxEnable c v else u.vxDisable c v := by
  rw [State.cmdWrite_vxCfg hr (withEn_mod w on), State.vxCfgWrite_unlocked hl, withEn_testBit_zero]

theorem State.vxEnable_disabled (he : s.bit .VX_CFG [c, v] VX_CFG_EN = false) :
    s.vxEnable c v =
      let u := (s.setFld .VX_CFG [c, v] VX_CFG_EN 1).setFld .VX_STATUS [c, v] VX_STATUS_STATE vxRunning
      u.modVx c v fun x =>
        { x with c0 := { x.c0 with pc := u.val .VX_PC0 [c, v], loops := [], emitted := 0 }, stopping := false } :=
  if_neg (by simp [he])

theorem State.vxDisable_unbound (he : s.bit .VX_CFG [c, v] VX_CFG_EN = true) (hg : s.vxGroups c v = []) :
    s.vxDisable c v = (s.setFld .VX_CFG [c, v] VX_CFG_EN 0).setFld .VX_STATUS [c, v] VX_STATUS_STATE vxDisabled :=
  if_neg (by simp [he, hg])

end

/-! ## The end of a transfer -/

/-- A transfer of a vector core that is over: its slot and its tag are free, and its bytes counted (R231, R232). -/
def State.vxOver (s : State) (c v key len : Nat) : State := ((s.vxFree c v key).modXfer key fun _ => {}).bump .VX_XBYTES [c, v] len

section
variable {s : State} {bad : List Nat} {key c v ctx : Nat} (ho : (s.getXfer key).own = .vx c v ctx)
include ho

theorem State.vxTransferDone_accepted (hf : (s.getXfer key).fin = 1) :
    s.vxTransferDone bad key = s.vxOver c v key (s.getXfer key).len := by
  simp only [State.vxTransferDone, ho, hf, if_true]
  rfl

section
variable (hf : (s.getXfer key).fin = 0) (hl : s.localXfer (s.getXfer key) = true)
  (hreach : s.reachRange (some (s.getXfer key).part) (s.getXfer key).ep (s.getXfer key).dev (s.getXfer key).len (s.getXfer key).write = 0)
include hf hl hreach

/-- A transfer with a core store of the same cluster moves its bytes line by line when it writes it (R231). -/
theorem State.vxTransferDone_writes (hw : (s.getXfer key).write = true)
    (hb : badIn bad (vcAddr c v (s.getXfer key).loc) (s.getXfer key).len = false) :
    s.vxTransferDone bad key =
      let y := s.getXfer key
      State.vxOver (s.each (List.range ((y.len + 63) / 64)) fun s i =>
        s.lineWrite c (y.dev + 64 * i) (s.peekN (vcAddr c v (y.loc + 64 * i)) (min 64 (y.len - 64 * i)))) c v key y.len := by
  rw [hw] at hreach
  simp [State.vxTransferDone, ho, hf, hl, hreach, hw, hb, State.vxOver]

theorem State.vxTransferDone_reads (hw : (s.getXfer key).write = false)
    (hb : badIn bad (s.getXfer key).dev (s.getXfer key).len = false) :
    s.vxTransferDone bad key =
      let y := s.getXfer key
      (s.poke (vcAddr c v y.loc) (s.readBytes y.dev y.len)).vxOver c v key y.len := by
  rw [hw] at hreach
  simp [State.vxTransferDone, ho, hf, hl, hreach, hw, hb, State.vxOver]

end

end

/-- Settles O13: each operation's case, under the conditions that lead to it. -/
theorem vectorCoreStartStopAndTransfers : Obligations.VectorCoreStartStopAndTransfers := by
  refine ⟨?enable, ?disable, ?transfer⟩
  case enable =>
    intro s req c v w hr hl u he
    exact congrArg Host.Outcome.next ((State.cmdWrite_vxCfg_unlocked hr hl).trans (State.vxEnable_disabled he))
  case disable =>
    intro s req c v w hr hl u he hg
    exact congrArg Host.Outcome.next ((State.cmdWrite_vxCfg_unlocked hr hl).trans (State.vxDisable_unbound he hg))
  case transfer =>
    intro s x bad c v ctx ho y free
    refine ⟨fun hf => ?_, fun hf hl hreach => ⟨fun hw hb => ?_, fun hw hb => ?_⟩⟩
    · exact congrArg Host.Outcome.next (State.vxTransferDone_accepted ho hf)
    · exact congrArg Host.Outcome.next (State.vxTransferDone_writes ho hf hl hreach hw hb)
    · exact congrArg Host.Outcome.next (State.vxTransferDone_reads ho hf hl hreach hw hb)

end Sys2Proof.Machine
end

section
/-! What partitions, maps, event sources, bind entries and host channels do at their enable bits, and what the end of a consistency check
leaves (R218, R418 to R420, R423 to R425, R427, R428, R430, R459). -/

namespace Sys2Proof.Machine

/-! ## Writes of the enable bits -/

section
variable {s : State} {req : Requester} {p n b c k v : Nat}

theorem State.cmdWrite_partCfg (hr : s.Reached req .GP_PART_CFG [p]) (hv : v % 2 ^ 32 = v) (hw : s.mapWriter req = true) :
    s.cmdWrite req .GP_PART_CFG [p] v = s.partCfgWrite p v none := by
  rw [State.cmdWrite_reached32 hr rfl rfl rfl, hv]
  exact congrArg Prod.snd (if_pos hw)

/-- A write of GP_PART_CFG of a partition that is not being released is a unit's write (R423, R425). -/
theorem State.partCfgWrite_settled {cmd : Option (Nat × Nat)} (hst : s.fld .GP_PART_STATUS [p] GP_PART_STATUS_STATE ≠ 2) :
    s.partCfgWrite p v cmd = s.unitWrite (.part p) .GP_PART_CFG [p] GP_PART_CFG_EN v cmd fun s => s.partRelease p := if_neg hst

theorem State.partRelease_active (hst : s.fld .GP_PART_STATUS [p] GP_PART_STATUS_STATE = 1) :
    s.partRelease p =
      let u := (s.unitsOff p 0x0185 false).ksRelease p
      let u := u.each ((List.range 8).filter fun n => u.partOfPort n == some p) fun s n => (s.unbindPort n).portWipe n
      ((u.partMemory p).setFld .GP_PART_CFG [p] GP_PART_CFG_EN 0).setFld .GP_PART_STATUS [p] GP_PART_STATUS_STATE 2 :=
  if_neg (not_not.2 hst)

theorem State.partReleased_releasing (hst : s.fld .GP_PART_STATUS [p] GP_PART_STATUS_STATE = 2) :
    s.partReleased p = s.setFld .GP_PART_STATUS [p] GP_PART_STATUS_STATE 0 := if_neg (not_not.2 hst)

/-- A partition's configuration is refused to a port that is not administrative (R423). -/
theorem State.regWrite_partCfg_refused {cmd : Option (Nat × Nat)} (hw : s.mapWriter req = false) :
    s.regWrite req .GP_PART_CFG [p] v cmd =
      (0x0C06, (s.setFld .GP_PART_STATUS [p] GP_PART_STATUS_REASON 0x0C06).post none 2 p 0xFFFF 0x0C06) := if_neg (by simp [hw])

theorem State.cmdWrite_gpMap (hr : s.Reached req .GP_MAP [n]) (hv : v % 2 ^ 32 = v) :
    s.cmdWrite req .GP_MAP [n] v = (s.mapWrite n v req none).2 := by
  rw [State.cmdWrite_reached32 hr rfl rfl rfl, hv]
  rfl

section
variable {cmd : Option (Nat × Nat)} (hw : s.mapWriter req = true)
include hw

/-- A write of GP_MAP that binds an unbound port, or unbinds one that is not its partition's last, is a unit's write (R424). -/
theorem State.mapWrite_allowed
    (h : s.bit .GP_MAP [n] GP_MAP_EN = true → v.testBit 0 = false ∧ s.lastPort n = false) :
    (s.mapWrite n v req cmd).2 = s.unitWrite (.map n) .GP_MAP [n] GP_MAP_EN v cmd fun s => s.unbindPort n := by
  refine congrArg Prod.snd ((if_neg (by simp [hw])).trans (if_neg ?_))
  cases he : s.bit .GP_MAP [n] GP_MAP_EN with
  | false => simp
  | true => simp [(h he).1, (h he).2]

/-- The last port bound to a partition stays bound (R424). -/
theorem State.mapWrite_lastPort (hc : s.checking (.map n) = false) (he : s.bit .GP_MAP [n] GP_MAP_EN = true) (hv : v.testBit 0 = false)
    (hlast : s.lastPort n = true) :
    (s.mapWrite n v req cmd).2 = s.post (s.partOfPort n) 8 n 0xFFFF 0x0C05 :=
  congrArg Prod.snd ((if_neg (by simp [hw])).trans (if_pos (by simp [hc, he, hv, hlast])))

end

theorem State.unbindPort_bound (he : s.bit .GP_MAP [n] GP_MAP_EN = true) :
    s.unbindPort n = (s.portLeaves n).setFld .GP_MAP [n] GP_MAP_EN 0 := if_neg (by simp [he])

theorem State.cmdWrite_evsrc (hr : s.Reached req .GP_EVSRC [n]) (hv : v % 2 ^ 32 = v) :
    s.cmdWrite req .GP_EVSRC [n] v = s.evsrcWrite n v none := by
  rw [State.cmdWrite_reached32 hr rfl rfl rfl, hv]
  rfl

theorem State.evsrcWrite_bound {cmd : Option (Nat × Nat)} (hm : s.bit .GP_MAP [n] GP_MAP_EN = true) : s.evsrcWrite n v cmd = s :=
  if_pos (by simp [hm])

/-- GP_EVSRC of a port that no map binds stores its source and is checked (R418, log entry 39). -/
theorem State.evsrcWrite_enable {cmd : Option (Nat × Nat)} (hm : s.bit .GP_MAP [n] GP_MAP_EN = false) (hc : s.checking (.evsrc n) = false)
    (hcm : s.checking (.map n) = false) (he : s.bit .GP_EVSRC [n] GP_EVSRC_EN = false) (hv : v.testBit 31 = true) :
    s.evsrcWrite n v cmd = (s.setFld .GP_EVSRC [n] GP_EVSRC_SRC v).askCheck (.evsrc n) v cmd := by
  simp only [State.evsrcWrite, hm, hc, hcm, he, hv, Bool.or_self, Bool.false_eq_true, if_false, if_true]

/-- A bind entry that is not enabled stores its fields and is checked (R218). -/
theorem State.bindWrite_enable {u : UnitRef} {r : Reg} {idx : List Nat} {wg : Fld} {cmd : Option (Nat × Nat)} (hc : s.checking u = false)
    (he : s.bit r idx ⟨0, 0⟩ = false) (hv : v.testBit 0 = true) :
    s.bindWrite u r idx wg v cmd = ((s.store r idx v).setFld r idx ⟨0, 0⟩ 0).askCheck u v cmd := by
  simp only [State.bindWrite, hc, he, hv, Bool.false_and, Bool.or_self, Bool.false_eq_true, if_false, if_true]

theorem State.cmdWrite_mxBind (hr : s.Reached req .MX_BIND [c, n]) (hv : v % 2 ^ 32 = v) :
    s.cmdWrite req .MX_BIND [c, n] v = s.bindWrite (.mxbind c n) .MX_BIND [c, n] MX_BIND_WG v none := by
  rw [State.cmdWrite_reached32 hr rfl rfl rfl, hv]
  rfl

theorem State.cmdWrite_vxBind (hr : s.Reached req .VX_BIND [c, k, n]) (hv : v % 2 ^ 32 = v) :
    s.cmdWrite req .VX_BIND [c, k, n] v = s.bindWrite (.vxbind c k n) .VX_BIND [c, k, n] VX_BIND_WG v none := by
  rw [State.cmdWrite_reached32 hr rfl rfl rfl, hv]
  rfl

theorem State.cmdWrite_evbind (hr : s.Reached req .GP_EVBIND [n, b]) (hv : v % 2 ^ 32 = v) :
    s.cmdWrite req .GP_EVBIND [n, b] v = s.bindWrite (.evbind n b) .GP_EVBIND [n, b] GP_EVBIND_WG v none := by
  rw [State.cmdWrite_reached32 hr rfl rfl rfl, hv]
  rfl

theorem State.cmdWrite_hcCfg (hr : s.Reached req .GP_HC_CFG [n, k]) (hv : v % 2 ^ 32 = v) :
    s.cmdWrite req .GP_HC_CFG [n, k] v =
      s.unitWrite (.hchan n k) .GP_HC_CFG [n, k] GP_HC_CFG_EN v none fun s => s.tkStop (0x10000 + n * 16 + k) := by
  rw [State.cmdWrite_reached32 hr rfl rfl rfl, hv]
  rfl

end

/-! ## The end of a check -/

section
variable {s u : State} {x : Check} {rest : List Check}

/-- The oldest check, of no REGWR, ends by its code (R427, R428). -/
theorem State.checkEnd_eq (hx : s.checks = x :: rest) (hc : x.cmd = none) :
    let u : State := { s with checks := rest }
    s.checkEnd = if u.checkCode x = 0 then u.checkAccept x else u.checkRefuse x (u.checkCode x) := by
  simp only [State.checkEnd, hx, State.checkOne, hc, State.cmdChecked]

section
variable (hx : s.checks = x :: rest) (hc : x.cmd = none)
include hx hc

theorem State.checkEnd_accepts (h : State.checkCode { s with checks := rest } x = 0) :
    s.checkEnd = State.checkAccept { s with checks := rest } x := (State.checkEnd_eq hx hc).trans (if_pos h)

theorem State.checkEnd_refuses (h : State.checkCode { s with checks := rest } x ≠ 0) :
    s.checkEnd = State.checkRefuse { s with checks := rest } x (State.checkCode { s with checks := rest } x) :=
  (State.checkEnd_eq hx hc).trans (if_neg h)

end

/-- Outside the split state a check's code is the one of its unit (R459). -/
theorem State.splitRefuses_whole (h : u.isSplit = false) (x : Check) : ¬u.splitRefuses x = true := by
  simp [State.splitRefuses, h]

end

/-- Settles O31: each operation's case, under the conditions that lead to it. -/
theorem partitionAndCheckCommandsHaveTheirEffects : Obligations.PartitionAndCheckCommandsHaveTheirEffects := by
  refine ⟨?partition, ?refused, ?released, ?map, ?evsrc, ?mxBind, ?vxBind, ?evbind, ?hostChannel, ?check⟩
  case partition =>
    intro s req p v hr
    refine ⟨fun hw hst hc he => ?_, fun hw hst hc he => ?_⟩
    · exact congrArg Host.Outcome.next ((State.cmdWrite_partCfg hr (withEn_mod v true) hw).trans
        ((State.partCfgWrite_settled (by omega)).trans (State.unitWrite_enable hc he (withEn_testBit_zero v true))))
    · exact congrArg Host.Outcome.next ((State.cmdWrite_partCfg hr (withEn_mod v false) hw).trans
        ((State.partCfgWrite_settled (by omega)).trans ((State.unitWrite_disable hc he (withEn_testBit_zero v false)).trans
          (State.partRelease_active hst))))
  case refused => exact fun s req p v hw => State.regWrite_partCfg_refused hw
  case released => exact fun s p hst => congrArg Host.Outcome.next (State.partReleased_releasing hst)
  case map =>
    intro s req n v hr hw hc
    refine ⟨fun he => ?_, fun he hlast => ?_, fun he hlast => ?_⟩
    · exact congrArg Host.Outcome.next ((State.cmdWrite_gpMap hr (withEn_mod v true)).trans
        ((State.mapWrite_allowed hw (by simp [he])).trans
          (State.unitWrite_enable hc he (withEn_testBit_zero v true))))
    · exact congrArg Host.Outcome.next ((State.cmdWrite_gpMap hr (withEn_mod v false)).trans
        ((State.mapWrite_allowed hw fun _ => ⟨withEn_testBit_zero v false, hlast⟩).trans
          ((State.unitWrite_disable hc he (withEn_testBit_zero v false)).trans (State.unbindPort_bound he))))
    · exact congrArg Host.Outcome.next ((State.cmdWrite_gpMap hr (withEn_mod v false)).trans
        (State.mapWrite_lastPort hw hc he (withEn_testBit_zero v false) hlast))
  case evsrc =>
    intro s req n v hr hc hcm he
    have hwrite := State.cmdWrite_evsrc hr (withTop_mod v true)
    refine ⟨fun hm => ?_, fun hm => ?_⟩
    · exact congrArg Host.Outcome.next (hwrite.trans (State.evsrcWrite_enable hm hc hcm he (withTop_testBit_top v true)))
    · exact congrArg Host.Outcome.next (hwrite.trans (State.evsrcWrite_bound hm))
  case mxBind =>
    intro s req c n v hr hc he
    exact congrArg Host.Outcome.next ((State.cmdWrite_mxBind hr (withEn_mod v true)).trans
      (State.bindWrite_enable hc he (withEn_testBit_zero v true)))
  case vxBind =>
    intro s req c k n v hr hc he
    exact congrArg Host.Outcome.next ((State.cmdWrite_vxBind hr (withEn_mod v true)).trans
      (State.bindWrite_enable hc he (withEn_testBit_zero v true)))
  case evbind =>
    intro s req n b v hr hc he
    exact congrArg Host.Outcome.next ((State.cmdWrite_evbind hr (withEn_mod v true)).trans
      (State.bindWrite_enable hc he (withEn_testBit_zero v true)))
  case hostChannel =>
    intro s req n ch v hr hc he
    exact congrArg Host.Outcome.next ((State.cmdWrite_hcCfg hr (withEn_mod v true)).trans
      (State.unitWrite_enable hc he (withEn_testBit_zero v true)))
  case check =>
    intro s x rest hx hcmd u
    obtain ⟨unit, value, cmd⟩ := x
    obtain rfl : cmd = none := hcmd
    refine ⟨fun h => ?accept, fun h => ?refuse, ?tb, ?wg, ?wgRefused, ?map, ?evsrc, ?send, ?remapRefused⟩
    case accept => exact congrArg Host.Outcome.next (State.checkEnd_accepts hx rfl h)
    case refuse => exact congrArg Host.Outcome.next (State.checkEnd_refuses hx rfl h)
    case tb =>
      rintro n rfl hs h
      exact congrArg Host.Outcome.next (State.checkEnd_accepts hx rfl ((if_neg (State.splitRefuses_whole hs _)).trans h))
    case wg =>
      rintro g rfl hs h
      exact congrArg Host.Outcome.next (State.checkEnd_accepts hx rfl ((if_neg (State.splitRefuses_whole hs _)).trans h))
    case wgRefused =>
      rintro g rfl hs h
      have hcode : u.checkCode ⟨.wg g, value, none⟩ = u.wgCheck g := if_neg (State.splitRefuses_whole hs _)
      rw [← hcode] at h ⊢
      exact congrArg Host.Outcome.next (State.checkEnd_refuses hx rfl h)
    case map =>
      rintro n rfl hs h
      exact congrArg Host.Outcome.next (State.checkEnd_accepts hx rfl ((if_neg (State.splitRefuses_whole hs _)).trans h))
    case evsrc =>
      rintro n rfl hs h
      exact congrArg Host.Outcome.next (State.checkEnd_accepts hx rfl ((if_neg (State.splitRefuses_whole hs _)).trans h))
    case send =>
      rintro c k rfl hs h
      exact congrArg Host.Outcome.next (State.checkEnd_accepts hx rfl ((if_neg (State.splitRefuses_whole hs _)).trans h))
    case remapRefused =>
      rintro n rfl hs h
      have hcode : u.checkCode ⟨.remap n, value, none⟩ = u.remapCheck n := if_neg (State.splitRefuses_whole hs _)
      rw [← hcode] at h ⊢
      exact congrArg Host.Outcome.next (State.checkEnd_refuses hx rfl h)

end Sys2Proof.Machine
end

section
/-! What a failed self-check leaves of a schedule that drains (R289, R315, R317). -/

namespace Sys2Proof.Machine

/-- A device whose cluster 0 runs the self-check of its fabric reset, while schedule 0, with a field at that node, drains. -/
def drainingAtSelfCheck : State :=
  ((State.reset.modRt 0 fun r => { r with reset := 3 }).modSch 0 fun x => { x with mine := [.out 0 0 0 0] }).setFld .TL_SSTAT [0, 0]
    TL_SSTAT_STATE 4

/-- Refutes O22: at a permanent hole a schedule that drains already goes on to DISABLED (log entry 169), where the statement breaks every
schedule with a field at the node. The self-check of cluster 0 fails while schedule 0 drains: its state stays 4, and the statement has 5. -/
theorem not_fenceRemapAndFabricResetCommandsHaveTheirEffects : ¬ Obligations.FenceRemapAndFabricResetCommandsHaveTheirEffects := by
  intro h
  obtain ⟨-, -, -, -, -, hcheck, -⟩ := h
  have hbroken := (hcheck drainingAtSelfCheck 0 (by decide +kernel)).2
  have hdrains : (drainingAtSelfCheck.selfCheckDone 0 false).fld .TL_SSTAT [0, 0] TL_SSTAT_STATE = 4 := by decide +kernel
  have hsame := congrArg (fun u => State.fld u .TL_SSTAT [0, 0] TL_SSTAT_STATE) (Host.Outcome.next.inj hbroken)
  exact absurd (hdrains.symm.trans hsame) (by decide +kernel)

end Sys2Proof.Machine
end

section
/-! What the messages of the control network do (R318 to R322, R450, R502, R509): their ways, what they do in the half they reach, and one
equation for each kind of message. -/

namespace Sys2Proof.Machine

/-! ## Links and ways -/

section
variable {s w : State} {c : Nat} {e : LinkErr} {errs : List LinkErr} {f : State → State}

/-- On an intact tree path a message meets its row node alone (R318). -/
theorem State.cnPass_treePath (h : s.treeUp c = true) : s.cnPass c [] = some (s.bump .TL_CNMSG [rowNode c]) := by
  have hway : s.cnWay c = some [c] := by simp [State.cnWay, State.wayFrom, h]
  simp only [State.cnPass, List.filter_nil, State.each_nil, hway]
  rfl

theorem State.treeUp_of_linkUp (hnode : s.linkUp (5 * c + 4) = true) (hrow : s.linkUp (480 + 6 * halfOf c + yOf c) = true) :
    s.treeUp c = true := by
  simp [State.treeUp, treeLinks, hnode, hrow]

theorem State.linkErr_corrects (h : e.n.val = 0) : s.linkErr e = s.bump .TL_CORR [linkHome e.link.val] := if_pos h

theorem State.linkErr_resends (h1 : 1 ≤ e.n.val) (h8 : e.n.val ≤ 8) :
    s.linkErr e = s.bump .TL_CNRETRY [linkHome e.link.val] e.n.val := by
  rw [State.linkErr, if_neg (by omega), if_neg (by omega), Nat.min_eq_left h8]

theorem State.linkErr_fails (h : e.n.val = 9) :
    s.linkErr e = (s.bump .TL_CNRETRY [linkHome e.link.val] 8).cnLinkFails e.link.val := by
  rw [State.linkErr, if_neg (by omega), if_pos h, h]
  rfl

theorem State.cnTo_arrives (hp : s.cnPass c errs = some w) : s.cnTo c errs f = f w := by
  rw [State.cnTo, hp]

theorem State.cnTo_lost (hp : s.cnPass c errs = none) :
    s.cnTo c errs f = s.each (errs.filter fun e => (s.cnLinks c).contains (linkNum e.link.val)) fun s e => s.linkErr e := by
  rw [State.cnTo, hp]

end

/-! ## Folds over numbered places -/

theorem filter_range_singleton {n t : Nat} {p : Nat → Bool} (ht : t < n) (h : ∀ k, k < n → p k = decide (k = t)) :
    (List.range n).filter p = [t] := by
  rw [List.filter_congr fun k hk => (h k (List.mem_range.1 hk)).trans (beq_eq_decide k t).symm, List.filter_beq,
    List.count_eq_one_of_mem List.nodup_range (List.mem_range.2 ht), List.replicate_one]

theorem State.each_congr {α : Type} {f g : State → α → State} {l : List α} (h : ∀ u, ∀ x ∈ l, f u x = g u x) (s : State) :
    s.each l f = s.each l g := by
  induction l generalizing s with
  | nil => rfl
  | cons x t ih => rw [State.each_cons, State.each_cons, h s x List.mem_cons_self, ih fun u y hy => h u y (List.mem_cons_of_mem x hy)]

/-! ## The half a message reaches -/

section
variable {dest h c : Nat}

theorem lt_of_mem_destIn (hc : c ∈ destIn dest h) : c < 96 := List.mem_range.1 (List.mem_of_mem_filter hc)

/-- A cluster's number names that cluster alone (R320). -/
theorem destIn_cluster (hc : c < 96) : destIn c h = if halfOf c = h then [c] else [] := by
  have hhits : ∀ k, destHits c k = decide (k = c) := fun k => by
    simp only [destHits, beq_eq_false_iff_ne.2 (show c ≠ 125 by omega), beq_eq_false_iff_ne.2 (show c ≠ 126 by omega),
      beq_eq_false_iff_ne.2 (show c ≠ 127 by omega), Bool.false_and, Bool.or_false, beq_eq_decide, eq_comm]
  have hone := filter_range_singleton hc fun k _ => hhits k
  simp only [destIn, ← List.filter_filter, hone]
  by_cases hh : halfOf c = h <;> simp [hh]

theorem destTouches_iff : destTouches dest h = true ↔ dest = 96 + h ∨ ∃ c, c < 96 ∧ halfOf c = h ∧ destHits dest c = true := by
  simp [destTouches, destIn, List.filter_eq_nil_iff]

theorem destHits_iff : destHits dest c = true ↔
    dest = c ∨ dest = 125 ∧ halfOf c = 1 ∨ dest = 126 ∧ halfOf c = 0 ∨ dest = 127 := by
  simp [destHits, or_assoc]

/-- What of R320's destinations lies in the west half. -/
theorem destTouches_west : destTouches dest 0 = true ↔ dest < 48 ∨ dest = 96 ∨ dest = 126 ∨ dest = 127 := by
  simp only [destTouches_iff, destHits_iff, halfOf]
  constructor
  · rintro (h | ⟨c, hc, hh, hd⟩) <;> omega
  · intro h
    by_cases hd : dest < 48
    · exact .inr ⟨dest, by omega, by omega, .inl rfl⟩
    · by_cases h96 : dest = 96
      · exact .inl h96
      · exact .inr ⟨0, by omega, by omega, by omega⟩

/-- What of R320's destinations lies in the east half. -/
theorem destTouches_east : destTouches dest 1 = true ↔ 48 ≤ dest ∧ dest < 96 ∨ dest = 97 ∨ dest = 125 ∨ dest = 127 := by
  simp only [destTouches_iff, destHits_iff, halfOf]
  constructor
  · rintro (h | ⟨c, hc, hh, hd⟩) <;> omega
  · intro h
    by_cases hd : dest < 96
    · exact .inr ⟨dest, by omega, by omega, .inl rfl⟩
    · by_cases h97 : dest = 97
      · exact .inl h97
      · exact .inr ⟨48, by omega, by omega, by omega⟩

end

section
variable {s : State} {dest : Nat} {m : List Word} {f : State → Nat → State}

theorem State.cnSend_west (hw : destTouches dest 0 = true) (he : ¬destTouches dest 1 = true) : s.cnSend dest m f = f s 0 := by
  simp only [State.cnSend, hw, Bool.eq_false_iff.2 he, if_true, Bool.not_false]

/-- In the east half a message acts at once in the split state, and crosses the seam otherwise (R318, R450). -/
theorem State.cnSend_east (hw : ¬destTouches dest 0 = true) (he : destTouches dest 1 = true) :
    s.cnSend dest m f = if s.isSplit = true then f s 1 else s.seamSend 0 m := by
  simp only [State.cnSend, Bool.eq_false_iff.2 hw, he, Bool.false_eq_true, if_false, Bool.not_true]

theorem State.cnSend_both (hw : destTouches dest 0 = true) (he : destTouches dest 1 = true) :
    s.cnSend dest m f = if (f s 0).isSplit = true then f (f s 0) 1 else (f s 0).seamSend 0 m := by
  simp only [State.cnSend, hw, he, Bool.false_eq_true, if_true, if_false, Bool.not_true]

theorem State.cnSend_nowhere (hw : ¬destTouches dest 0 = true) (he : ¬destTouches dest 1 = true) : s.cnSend dest m f = s := by
  simp only [State.cnSend, Bool.eq_false_iff.2 hw, Bool.eq_false_iff.2 he, Bool.false_eq_true, if_false, Bool.not_false, if_true]

end

/-! ## WRITE and READ -/

theorem cnAddr_cluster {c : Nat} (hc : c < 96) (w : Nat) : cnAddr c w = winBase c + 4 * w := by rw [cnAddr, if_pos hc]

theorem cnAddr_steward {dest h : Nat} (hd : dest = 96 + h) (w : Nat) : cnAddr dest w = 0xFE00000000 + 4 * w := by
  rw [cnAddr, if_neg (by omega)]

theorem State.cnWriteIn_eq (s : State) (dest addr : Nat) (ws : List Word) (meets : FlipErr) (h : Nat) :
    s.cnWriteIn dest addr ws meets h = if dest = 96 + h then s.cnPuts meets.bad dest (0xFE00000000 + 4 * addr) ws
      else s.each (destIn dest h) fun s c => s.cnTo c meets.links fun s => s.cnPuts meets.bad c (winBase c + 4 * addr) ws := by
  by_cases hd : dest = 96 + h
  · rw [State.cnWriteIn, if_pos hd, if_pos hd, cnAddr_steward hd]
  · rw [State.cnWriteIn, if_neg hd, if_neg hd]
    refine State.each_congr (fun u c hc => ?_) s
    rw [cnAddr_cluster (lt_of_mem_destIn hc)]

/-- What a node answers to a READ of the words from a device address on. -/
def State.readAnswer (bad : List Nat) (count r : Nat) (s : State) (node a : Nat) : State :=
  let x := s.cnGets bad node a count
  x.2.modCn fun y => { y with resps := y.resps ++ (chunks 15 x.1).map fun ws => (node, r, ws) }

theorem State.cnReadIn_eq (s : State) (bad : List Nat) (dest count r addr : Nat) (errs : List LinkErr) (h : Nat) :
    s.cnReadIn bad dest count r addr errs h =
      if dest = 96 + h then State.readAnswer bad count r s dest (0xFE00000000 + 4 * addr)
      else s.each (destIn dest h) fun s c => s.cnTo c errs fun s => State.readAnswer bad count r s c (winBase c + 4 * addr) := by
  by_cases hd : dest = 96 + h
  · rw [State.cnReadIn, if_pos hd, if_pos hd, State.cnReadAt, cnAddr_steward hd]
    rfl
  · rw [State.cnReadIn, if_neg hd, if_neg hd]
    refine State.each_congr (fun u c hc => congrArg _ (funext fun v => ?_)) s
    rw [State.cnReadAt, cnAddr_cluster (lt_of_mem_destIn hc)]
    rfl

theorem State.cnPuts_one (s : State) (bad : List Nat) (dest a : Nat) (w : Word) :
    s.cnPuts bad dest a [w] = s.cnPut bad dest a w.toNat := rfl

theorem State.cnGets_one {s u : State} {bad : List Nat} {dest a n : Nat} (h : s.cnGet bad dest a = (n, u)) :
    s.cnGets bad dest a 1 = ([BitVec.ofNat 32 n], u) := by
  simp only [State.cnGets, h]

section
variable {s : State} {bad : List Nat} {dest a c o v : Nat} (hl : locate a = .bank c o)
include hl

theorem State.memUp_bank : s.memUp a = s.domOn c := by rw [State.memUp, hl]

theorem State.bankSleeps_bank : s.bankSleeps a = !s.bankAwake c (bankOf o) := by rw [State.bankSleeps, bankAt, hl]

theorem State.bankOnce_bank : s.bankOnce a = s.modArb (bankArb c (bankOf o)) fun x => { x with grants := x.grants + 1 } := by
  rw [State.bankOnce, bankAt, hl]
  rfl

theorem State.aliasStays_bank : s.aliasStays bad a = none := by rw [State.aliasStays, hl]

/-- A word written in a bank is dropped and counted while the domain is off, and ignored in retention (R41, R367). -/
theorem State.cnPut_bank : s.cnPut bad dest a v =
    if s.domOn c = false then s.bump .PC_STRAY [dest]
    else if s.bankAwake c (bankOf o) = false then s
    else (((s.modArb (bankArb c (bankOf o)) fun x => { x with grants := x.grants + 1 }).coreTouch a).lineWrite dest a
      (leBytes 4 v)).observe (plainAddr a) := by
  simp only [State.cnPut, hl, State.memUp_bank hl, State.bankSleeps_bank hl, State.bankOnce_bank hl, State.aliasStays_bank hl,
    Bool.not_eq_true']

/-- A sound word of an awake bank reads as it stands (R370). -/
theorem State.cnGet_awake (hd : s.domOn c = true) (ha : s.bankAwake c (bankOf o) = true) (hb : bad.contains a = false) :
    s.cnGet bad dest a = (leNat (s.readBytes a 4),
      ((s.modArb (bankArb c (bankOf o)) fun x => { x with grants := x.grants + 1 }).countRead a).coreTouch a) := by
  simp only [State.cnGet, hl, State.memUp_bank hl, State.bankSleeps_bank hl, State.bankOnce_bank hl, hd, ha, hb, Bool.not_true,
    Bool.false_eq_true, if_false]

/-- One of a bank in retention reads 0 (log entry 175). -/
theorem State.cnGet_asleep (hd : s.domOn c = true) (ha : s.bankAwake c (bankOf o) = false) : s.cnGet bad dest a = (0, s) := by
  simp only [State.cnGet, hl, State.memUp_bank hl, State.bankSleeps_bank hl, hd, ha, Bool.not_true, Bool.not_false, Bool.false_eq_true,
    if_false, if_true]

/-- One of a cluster whose domain is off reads 0 and is counted (R41). -/
theorem State.cnGet_off (hd : s.domOn c = false) : s.cnGet bad dest a = (0, s.bump .PC_STRAY [dest]) := by
  simp only [State.cnGet, hl, State.memUp_bank hl, hd, Bool.not_false, if_true]

end

/-! ## RESP and DONE -/

section
variable {s u w : State} {c r : Nat} {ws : List Word} {t : List (Nat × Nat × List Word)} {errs : List LinkErr}

theorem nodeHalf_cluster (hc : c < 96) : nodeHalf c = halfOf c := if_pos hc

/-- The oldest response reaches its requester in its own half (R321). -/
theorem State.cnResp_near (hc : c < 96) (hq : s.cn.resps = (c, r, ws) :: t)
    (hp : (s.modCn fun x => { x with resps := t }).cnPass c errs = some u)
    (hh : halfOf c = nodeHalf r) (hr : (if r < 96 then u.cnPass r errs else some u) = some w) :
    s.cnResp errs = w.cnTake r ws := by
  simp only [State.cnResp, hq, if_pos hc, State.cnTo_arrives hp, nodeHalf_cluster hc, if_pos hh, State.cnGot]
  by_cases h96 : r < 96
  · rw [if_pos h96] at hr ⊢
    exact State.cnTo_arrives hr
  · rw [if_neg h96] at hr ⊢
    rw [Option.some.inj hr]

theorem State.cnResp_crosses (hc : c < 96) (hq : s.cn.resps = (c, r, ws) :: t)
    (hp : (s.modCn fun x => { x with resps := t }).cnPass c errs = some u) (hh : halfOf c ≠ nodeHalf r) (hs : u.isSplit = false) :
    s.cnResp errs = u.seamSend (halfOf c) (cnHeader 2 r ws.length 0 :: ws) := by
  simp only [State.cnResp, hq, if_pos hc, State.cnTo_arrives hp, nodeHalf_cluster hc, if_neg hh, hs, Bool.false_eq_true, if_false]

end

/-- A DONE reaches the west root at once, and from the east across the seam (R65, R321). -/
theorem State.cnDone_passes {s w : State} {g k : Nat} {errs : List LinkErr} (hd : s.engDone g k = true)
    (hp : s.cnPass (engNode k) errs = some w) : s.cnDone g k errs =
      if w.farCluster (engNode k) = true then w.seamSend 1 [cnHeader 4 96 1 g, BitVec.ofNat 32 k] else w.emitDone g k := by
  simp only [State.cnDone, hd, Bool.not_true, Bool.false_eq_true, if_false, State.cnUp, State.cnTo_arrives hp]

/-! ## Reductions -/

theorem redWords_nil (op : Nat) (bs : List Word) : redWords op [] bs = bs := by cases bs <;> rfl

/-- Operands of one length are combined word by word (R322). -/
theorem redWords_zip (op : Nat) {as bs : List Word} (h : as.length = bs.length) :
    redWords op as bs = (as.zip bs).map fun p => redOp op p.1 p.2 := by
  induction as generalizing bs with
  | nil =>
    obtain rfl := List.length_eq_zero_iff.1 h.symm
    rfl
  | cons a as ih =>
    cases bs with
    | nil => cases h
    | cons b bs => rw [redWords, ih (Nat.succ.inj h), List.zip_cons_cons, List.map_cons]

section
variable {s w : State} {c op tag : Nat} {ws : List Word} {errs : List LinkErr}

/-- A participant's operand at its row node, with the note that it has given it (R322). -/
def State.redTaken (s : State) (c op tag : Nat) (ws : List Word) : State :=
  (s.redAt tag op (rowOf c) ws).modCn fun x => { x with from_ := mput x.from_ tag (mget x.from_ tag ++ [c]) }

/-- The operand of a participant that has given none goes to its row node; the node hands on what it has once its participants have given
theirs (R322). -/
theorem State.cnReduce_takes (hf : (mget s.cn.from_ tag).contains c = false)
    (hm : mget s.cn.mask tag = [] ∨ (mget s.cn.mask tag).contains c = true) (hp : s.cnPass c errs = some w) :
    s.cnReduce c op tag ws errs =
      let u := w.redTaken c op tag ws
      if u.redHas tag (fun k => rowOf k == rowOf c) = false then u
      else
        let v := u.redPass tag (rowOf c) fun s ws => s.redAt tag op (12 + halfOf c) ws
        if halfOf c = 0 then v else v.redCross tag op := by
  have hmask : (mget s.cn.mask tag != [] && !(mget s.cn.mask tag).contains c) = false := by
    rcases hm with h | h
    · rw [h]; rfl
    · rw [h, Bool.not_true, Bool.and_false]
  simp only [State.cnReduce, hf, hmask, Bool.or_self, Bool.false_eq_true, if_false, State.cnTo_arrives hp, Bool.not_eq_true']
  rfl

/-- The west root sends its result down its tree once every operand is there, and none is from the east (R322). -/
theorem State.cnResult_west (hs : s.isSplit = false) (hr : s.redReady tag 0 = true) (he : s.redFrom tag 1 = [])
    (ht : (s.cnResultIn tag 0 (mget s.cn.red (redKey tag 12)) errs).isSplit = false) :
    s.cnResult tag errs = s.cnResultIn tag 0 (mget s.cn.red (redKey tag 12)) errs := by
  have heast : State.redReady (s.cnResultIn tag 0 (mget s.cn.red (redKey tag 12)) errs) tag 1 = false := by
    simp [State.redReady, ht]
  simp only [State.cnResult, State.each_cons, State.each_nil, hr, hs, he, bne_self_eq_false, Bool.and_false, Bool.not_true,
    Bool.false_eq_true, if_false, Nat.add_zero, heast, Bool.not_false, if_true]

end

/-! ## Image segments -/

section
variable {s : State} {dest kind seg h : Nat} {ws : List Word} {crc : Word} {reach : Nat → Bool}

theorem State.bcast_badCrc (hc : BitVec.ofNat 32 (crc32c (leBytes 4 seg ++ ws.flatMap fun w => leBytes 4 w.toNat)) ≠ crc) :
    s.bcast dest kind seg ws crc reach = s := if_pos hc

/-- A segment with a good CRC reaches every engine of its kind that is not fenced (R502). -/
theorem State.bcast_goodCrc (hc : BitVec.ofNat 32 (crc32c (leBytes 4 seg ++ ws.flatMap fun w => leBytes 4 w.toNat)) = crc) :
    s.bcast dest kind seg ws crc reach =
      s.each ((List.range 96).filter fun c => destHits dest c && s.domOn c && reach c) fun s c =>
        s.each ((List.range 19).filter fun k => kindOf k == kind && !s.fencedEng c k) fun s k =>
          s.takeSegment c k seg (ws.flatMap fun w => leBytes 4 w.toNat) := if_neg (not_not.2 hc)

end

/-! ## RESET -/

/-- The parts of a coordinate are the half, the column, the row and the slot it is made of. -/
theorem bitsOf_coord {h x y slot : Nat} (hh : h < 2) (hx : x < 8) (hy : y < 8) (hn : slot < 32) :
    let d := h * 2 ^ 11 + x * 2 ^ 8 + y * 2 ^ 5 + slot
    bitsOf d 11 1 = h ∧ bitsOf d 8 3 = x ∧ bitsOf d 5 3 = y := by
  simp only [bitsOf, Nat.shiftRight_eq_div_pow]
  omega

theorem coordCluster_coordOf {c slot : Nat} (hc : c < 96) (hn : slot < 32) : coordCluster (coordOf c slot) = some c := by
  have hh : halfOf c < 2 := by unfold halfOf; omega
  have hx : xOf c < 8 := Nat.mod_lt c (by decide)
  have hy : yOf c < 6 := by unfold yOf; omega
  obtain ⟨h1, h2, h3⟩ := bitsOf_coord hh hx (by omega : yOf c < 8) hn
  rw [coordCluster, coordOf, h1, h2, h3, if_pos hy, clusterOf, halfOf, xOf, yOf]
  exact congrArg some (by omega)

theorem coordSlot_coordOf {c slot : Nat} (hn : slot < 32) : coordSlot (coordOf c slot) = slot := by
  unfold coordSlot coordOf
  omega

theorem coordOf_lt {c slot : Nat} (hc : c < 96) (hn : slot < 32) : coordOf c slot < 2 ^ 12 := by
  unfold coordOf halfOf xOf yOf
  omega

section
variable {s : State} {scope t : Nat} {h : Bool}

theorem bitsOf_target (ht : t < 2 ^ 12) (hs : scope < 4) : bitsOf (scope + t * 2 ^ 12) 12 12 = t := by
  rw [bitsOf, Nat.shiftRight_eq_div_pow]
  omega

theorem State.rstWrite_steward (hs : scope < 4) (ht : t < 2 ^ 12) (hr : rstReserved scope t = false) :
    s.rstWrite (scope + t * 2 ^ 12) (.steward h) =
      if scope = 3 then (0, s.deviceReset ((scope + t * 2 ^ 12).testBit 2) 2)
      else (0, s.rstQueue { scope := scope, target := t }) := by
  simp only [State.rstWrite, bitsOf_target ht hs, show (scope + t * 2 ^ 12) % 4 = scope by omega, hr, State.rstWriter, Bool.not_true,
    Bool.false_eq_true, if_false]

theorem State.rstWrite_core {c slot : Nat} (hc : c < 96) (hn : slot < 19) :
    s.rstWrite (coordOf c slot * 2 ^ 12) (.steward h) = (0, s.rstQueue { scope := 0, target := coordOf c slot }) := by
  have hres : rstReserved 0 (coordOf c slot) = false := by
    simp [rstReserved, coordCluster_coordOf hc (show slot < 32 by omega), coordSlot_coordOf (show slot < 32 by omega), hn]
  rw [← Nat.zero_add (coordOf c slot * 2 ^ 12), State.rstWrite_steward (by decide) (coordOf_lt hc (by omega)) hres, if_neg (by decide)]

theorem State.rstWrite_cluster {c : Nat} (hc : c < 96) :
    s.rstWrite (1 + c * 2 ^ 12) (.steward h) = (0, s.rstQueue { scope := 1, target := c }) := by
  rw [State.rstWrite_steward (by decide) (by omega) (by simp [rstReserved, hc]), if_neg (by decide)]

theorem State.rstWrite_partition {p : Nat} (hp : p < 8) :
    s.rstWrite (2 + p * 2 ^ 12) (.steward h) = (0, s.rstQueue { scope := 2, target := p }) := by
  rw [State.rstWrite_steward (by decide) (by omega) (by simp [rstReserved, hp]), if_neg (by decide)]

theorem State.rstWrite_device : s.rstWrite (3 + 0 * 2 ^ 12) (.steward h) = (0, s.deviceReset false 2) :=
  (State.rstWrite_steward (by decide) (by decide) rfl).trans (if_pos rfl)

/-- A core of a cluster, the cluster, its partition or the device is reset, by the scope a RESET names (R509). -/
theorem State.cnResetAt_eq (s : State) (c slot : Nat) (scope : Fin 4) (errs : List LinkErr) :
    s.cnResetAt c scope.val slot errs = s.cnTo c errs fun s =>
      match scope with
      | 0 => (s.rstWrite (coordOf c slot * 2 ^ 12) (.steward (halfOf c == 1))).2
      | 1 => (s.rstWrite (1 + c * 2 ^ 12) (.steward (halfOf c == 1))).2
      | 2 => (match s.partOfCluster c with
        | some p => (s.rstWrite (2 + p * 2 ^ 12) (.steward (halfOf c == 1))).2
        | none => s)
      | 3 => s.deviceReset false 2 := by
  refine congrArg (s.cnTo c errs) (funext fun u => ?_)
  match scope with
  | 0 =>
    change (u.rstWrite (0 + coordOf c slot * 2 ^ 12) (.steward (halfOf c == 1))).2 = _
    rw [Nat.zero_add]
  | 1 => rfl
  | 2 => rfl
  | 3 => exact congrArg Prod.snd (State.rstWrite_device (s := u) (h := halfOf c == 1))

end

/-! ## TLOAD -/

section
variable {s w : State} {n : Nat} {errs : List LinkErr} {f : TField} {t : List TField}

theorem State.cnTload_near (hf : s.farCluster (s.tloadAt n) = false) (hp : s.cnPass (s.tloadAt n) errs = some w) :
    s.cnTload n errs = w.tload n := by
  rw [State.cnTload, State.cnDown, hf, State.cnTo_arrives hp]
  rfl

/-- A loading schedule writes its next field into the inactive copies, and copies the tables before its first (R313). -/
theorem State.tload_writes (hst : s.schState n = 1) (hb : s.loadBusy n = false) (ht : (s.getSch n).todo = f :: t) :
    s.tload n =
      let u := if (s.getSch n).todo = (s.getSch n).mine then s.copyTables (s.getSch n).clusters (s.getSch n).endpoints else s
      { u with slotB := writeSlot u.slotB n f, smapB := writeSmap u.smapB n f }.modSch n fun x => { x with todo := t } := by
  simp only [State.tload, hst, hb, ht, ne_eq, not_true_eq_false, Bool.false_eq_true, or_self, if_false]

end

/-! ## The messages -/

/-- Settles O25: each kind of message by what it does in a half, under the conditions that lead to it. -/
theorem controlNetworkCommandsHaveTheirEffects : Obligations.ControlNetworkCommandsHaveTheirEffects := by
  refine ⟨?treePath, ?linkErr, ?cnTo, ?cnSend, ?seamSend, ?destIn, ?write, ?bankWord, ?read, ?resp, ?done, ?reduce, ?operands, ?result,
    ?bcast, ?segment, ?fence, ?reset, ?resetScopes, ?status, ?tload⟩
  case treePath => exact fun s c hnode hrow => State.cnPass_treePath (State.treeUp_of_linkUp hnode hrow)
  case linkErr => exact fun s e => ⟨State.linkErr_corrects, State.linkErr_resends, State.linkErr_fails⟩
  case cnTo => exact fun s c errs f => ⟨fun w hp => State.cnTo_arrives hp, State.cnTo_lost⟩
  case cnSend =>
    intro s dest m f
    refine ⟨fun hd => ?west, fun hd => ?east, fun hd => ?both, fun h98 h125 => ?nowhere⟩
    case west => exact State.cnSend_west (destTouches_west.2 (by omega)) (mt destTouches_east.1 (by omega))
    case east => exact State.cnSend_east (mt destTouches_west.1 (by omega)) (destTouches_east.2 (by omega))
    case both => exact State.cnSend_both (destTouches_west.2 (by omega)) (destTouches_east.2 (by omega))
    case nowhere => exact State.cnSend_nowhere (mt destTouches_west.1 (by omega)) (mt destTouches_east.1 (by omega))
  case seamSend => exact fun s d m => rfl
  case destIn => exact fun c h => destIn_cluster c.isLt
  case write =>
    intro s dest addr ws meets hlen
    refine (if_pos (decide_eq_true hlen)).trans (congrArg Host.Outcome.next (congrArg (s.cnSend dest.val _) ?_))
    exact funext₂ fun u h => u.cnWriteIn_eq dest.val addr.toNat ws meets h
  case bankWord =>
    intro s dest a w c o bad hl
    rw [State.cnPuts_one, State.cnPut_bank hl]
    refine ⟨fun hd ha => ⟨?_, fun hb => ?_⟩, fun hd ha => ⟨?_, ?_⟩, fun hd => ⟨?_, ?_⟩⟩
    · simp [hd, ha]
    · exact State.cnGets_one (State.cnGet_awake hl hd ha hb)
    · simp [hd, ha]
    · exact State.cnGets_one (State.cnGet_asleep hl hd ha)
    · simp [hd]
    · exact State.cnGets_one (State.cnGet_off hl hd)
  case read =>
    intro s dest count r addr bad errs
    refine congrArg Host.Outcome.next (congrArg (s.cnSend dest.val _) ?_)
    exact funext₂ fun u h => u.cnReadIn_eq bad dest.val count.toNat r.val addr.toNat errs h
  case resp =>
    intro s u w c r ws t errs hq hp
    exact ⟨fun hh hr => congrArg Host.Outcome.next (State.cnResp_near c.isLt hq hp hh hr),
      fun hh hs => congrArg Host.Outcome.next (State.cnResp_crosses c.isLt hq hp hh hs)⟩
  case done =>
    intro s w g e' errs e c hd hp
    have hdone := State.cnDone_passes hd hp
    refine ⟨fun hf => congrArg Host.Outcome.next (hdone.trans (if_pos hf)), fun hf hst hnew hm hed => ?_⟩
    exact congrArg Host.Outcome.next ((hdone.trans (if_neg (Bool.eq_false_iff.1 hf))).trans (State.emitDone_reports hst hnew hm hed))
  case reduce =>
    intro s w c op tag ws errs h1 h15 hf hm hp row root u waits v
    have htakes : exec (.cnReduce c op tag ws errs) s = .next _ := (if_pos (by simp [Instr.wf, h1, h15])).trans
      (congrArg Host.Outcome.next (State.cnReduce_takes hf hm hp))
    exact ⟨fun hwait => htakes.trans (congrArg Host.Outcome.next (if_pos hwait)),
      fun hwait => htakes.trans (congrArg Host.Outcome.next (if_neg fun hw => absurd (hwait.symm.trans hw) (by decide)))⟩
  case operands =>
    intro op as bs
    refine ⟨fun ha => ha ▸ redWords_nil op.val bs, fun hl => (redWords_zip op.val hl).trans ?_⟩
    refine congrArg (List.map · (as.zip bs)) (funext fun p => ?_)
    match op with
    | 0 | 1 | 2 | 3 | 4 => rfl
  case result =>
    intro s tag errs root ws who t hs hr he ht
    exact congrArg Host.Outcome.next (State.cnResult_west hs hr he ht)
  case bcast =>
    intro s dest kind seg ws crc errs hlen
    exact if_pos (decide_eq_true hlen)
  case segment =>
    intro s₀ dest kind seg h ws crc errs bs s
    exact ⟨State.bcast_badCrc, State.bcast_goodCrc⟩
  case fence => exact fun s dest slot errs => rfl
  case reset =>
    intro s dest scope slot errs
    refine congrArg Host.Outcome.next (congrArg (s.cnSend dest.val _) (funext₂ fun u h => ?_))
    exact State.each_congr (fun v c _ => v.cnResetAt_eq c slot.val scope errs) u
  case resetScopes =>
    exact fun s c slot p h => ⟨State.rstWrite_core c.isLt slot.isLt, State.rstWrite_cluster c.isLt, State.rstWrite_partition p.isLt⟩
  case status =>
    intro s w c cause ws errs hlen hp
    exact (if_pos (decide_eq_true hlen)).trans (congrArg Host.Outcome.next (State.cnTo_arrives hp))
  case tload =>
    intro s w n errs f t hf hp hst hb ht
    exact congrArg Host.Outcome.next ((State.cnTload_near hf hp).trans (State.tload_writes hst hb ht))

end Sys2Proof.Machine
end

section
/-! What the tray scans, the commands of the trays and their completions, event-in, the host compost and the status mirror of a gate port do
(R402, R405 to R417, R421, R422): one equation for each case of an operation. -/

namespace Sys2Proof.Machine

/-! ## Opening a tray -/

section
variable {s : State} {req : Requester} {n t v : Nat}

theorem State.cmdWrite_gpPcfg (hr : s.Reached req .GP_PCFG [n]) (hv : v % 2 ^ 32 = v) :
    s.cmdWrite req .GP_PCFG [n] v = s.pcfgWrite n v := by
  rw [State.cmdWrite_reached32 hr rfl rfl rfl, hv]
  rfl

/-- A write of GP_PCFG that sets one TRAYEN bit opens its tray (R407). -/
theorem State.pcfgWrite_opens (ht : t < 16)
    (h : ∀ k, k < 16 → ((v / 2 ^ 16).testBit k && !(s.fld .GP_PCFG [n] GP_PCFG_TRAYEN).testBit k) = decide (k = t)) :
    s.pcfgWrite n v = (s.store .GP_PCFG [n] v).trayOpen n t := by
  simp only [State.pcfgWrite, filter_range_singleton ht h, State.each_cons, State.each_nil]

end

/-! ## Scans -/

section
variable {s : State} {n o : Nat}

theorem State.trayScan_on {use : LinkUse} (hon : s.portOn n = true) :
    s.trayScan n use =
      let u := ((s.linkUse n use).bump .GP_SCANS [n]).scanAdmin n
      if (u.partOfPort n).isNone = true ∨ u.devState = 3 then u
      else u.each ((List.range 16).filter (u.fld .GP_PCFG [n] GP_PCFG_TRAYEN).testBit) fun s t => s.scanTray n t 8 := if_neg (by simp [hon])

/-- Reads of a port in service: the last one's line stands on the link, and all of them are counted (R396, R401; log entry 123). -/
theorem State.linkUse_reads (hl : s.link n = lnkService) (rs : List (BitVec 34)) (o : BitVec 34) (refreshes errors : Nat) :
    s.linkUse n { reads := rs ++ [o], modes := [], refreshes := refreshes, errors := errors } =
      let bs := s.hostRead n o.toNat
      let u := (s.modGp n fun g => { g with hostData := bs, hostCheck := lineCheck bs }).bump .GP_HRD [n] (rs.length + 1)
      let u := u.bump .GP_OOR [n] (((rs ++ [o]).map BitVec.toNat).filter fun o => decide (bulkEnd ≤ o)).length
      (u.bump .GP_REFCMD [n] refreshes).bump .GP_LINKERR [n] errors := by
  have hlast : ((rs ++ [o]).map BitVec.toNat).getLast? = some o.toNat := by simp
  have hcount : ((rs ++ [o]).map BitVec.toNat).length = rs.length + 1 := by simp
  simp only [State.linkUse, if_pos hl, hlast, hcount, List.getLast?_nil]

theorem State.hostRead_outside (ho : bulkEnd ≤ o) : s.hostRead n o = List.replicate 64 0 := by
  have hline : bulkEnd ≤ o / 64 * 64 := by
    unfold bulkEnd at ho ⊢
    omega
  simp [State.hostRead, hline]

theorem State.hostRead_bound (ho : o < bulkEnd) (hb : (s.partOfPort n).isSome = true) :
    s.hostRead n o = s.stagPeek n (o / 64 * 64) 64 := by
  have hline : ¬bulkEnd ≤ o / 64 * 64 := by omega
  simp [State.hostRead, hline, Option.isSome_iff_ne_none.1 hb]

end

theorem State.takeCmd_sound {s : State} {n : Nat} {x : Cmd} {bs : List Byte} (h : s.slotCode x bs = 0) :
    s.takeCmd n x bs = s.modGp n fun g => { g with taken := g.taken + 1, cmds := g.cmds ++ [{ x with id := g.taken }] } := by
  simp only [State.takeCmd, h, if_true]

/-- The count of commands taken from a tray. -/
def State.trayCount (s : State) (n t : Nat) : Nat := mget (s.getGp n).count t

/-- The slot that a tray's count names (R408). -/
def State.traySlot (s : State) (n t : Nat) : List Byte := s.stagPeek n (trayBase t + 64 * (s.trayCount n t % 1024)) 64

section
variable {s : State} {n t k : Nat} (hseq : slotFld (s.traySlot n t) 0 4 = s.trayCount n t + 1)
include hseq

theorem State.scanTray_torn (hc : slotFld (s.traySlot n t) 4 2 ≠ slotCheck (s.traySlot n t)) :
    s.scanTray n t (k + 1) = s.bump .GP_TORN [n] := (if_neg (not_not.2 hseq)).trans (if_pos hc)

/-- At most 32 commands of a tray are taken and not released by the host (R408). -/
theorem State.scanTray_noCredit (hc : slotFld (s.traySlot n t) 4 2 = slotCheck (s.traySlot n t))
    (hd : 32 ≤ (s.trayCount n t + 2 ^ 32 - mget (s.getGp n).crd t) % 2 ^ 32) : s.scanTray n t (k + 1) = s :=
  (if_neg (not_not.2 hseq)).trans ((if_neg (not_not.2 hc)).trans (if_pos hd))

/-- A command that is not refused joins the commands of its port, and the tray's count passes it (R408, R411). -/
theorem State.scanTray_takes (hc : slotFld (s.traySlot n t) 4 2 = slotCheck (s.traySlot n t))
    (hd : (s.trayCount n t + 2 ^ 32 - mget (s.getGp n).crd t) % 2 ^ 32 < 32)
    (hcode : s.slotCode (cmdOf t (s.trayCount n t) (s.traySlot n t)) (s.traySlot n t) = 0) :
    s.scanTray n t (k + 1) =
      ((s.modGp n fun g =>
        { g with taken := g.taken + 1, cmds := g.cmds ++ [{ cmdOf t (s.trayCount n t) (s.traySlot n t) with id := g.taken }] }).modGp n
          fun g => { g with count := mput g.count t (nextCount (s.trayCount n t)) }).scanTray n t k := by
  refine (if_neg (not_not.2 hseq)).trans ((if_neg (not_not.2 hc)).trans ((if_neg (Nat.not_le.2 hd)).trans ?_))
  exact congrArg (fun u => (State.modGp u n _).scanTray n t k) (State.takeCmd_sound hcode)

end

/-! ## Commands of a tray -/

/-- The next command of a tray of a port that is on may start (R412). -/
structure State.Starts (s : State) (n t : Nat) (x : Cmd) : Prop where
  on : s.portOn n = true
  next : s.nextCmd n t = some x
  may : s.mayStart n x = true

theorem State.runCmd_starts {s : State} {n t op : Nat} {x : Cmd} {f : State → Cmd → State} (h : s.Starts n t x) (hop : x.op = op) :
    s.runCmd n t op f = f s x := by
  obtain ⟨hon, hnext, hmay⟩ := h
  simp only [State.runCmd, hnext, hop, hmay, hon, and_self, if_true]

/-- An address outside a port's reach is refused, whatever the access (R414). -/
theorem State.regCodes_unreached {s : State} {n : Nat} {x : Cmd} {write : Bool} (ha : x.adr % 4 = 0)
    (hr : s.portReach n (x.tray == adminTray) x.adr write = false) : s.regCodes n x write = 0x0C11 := by
  have hcode : s.regCode n (x.tray == adminTray) x.adr write = 0x0C11 := by simp [State.regCode, ha, hr]
  rw [State.regCodes, hcode]
  rfl

section
variable {s : State} {n : Fin 8} {t : Nat} {x : Cmd} (h : s.Starts n.val t x)
include h

theorem State.cmdRegrd_refused (hop : x.op = 1) (hk : s.regCodes n.val x false ≠ 0) :
    s.cmdRegrd n t = s.endCmd n.val x (s.regCodes n.val x false) 0 0 := by
  rw [State.cmdRegrd, State.runCmd_starts h hop]
  exact if_pos hk

theorem State.cmdRegrd_reads (hop : x.op = 1) (hk : s.regCodes n.val x false = 0) :
    s.cmdRegrd n t =
      let y := if x.flags.testBit 1 = true then s.wideRead (.port n) x.adr else s.readWord (.port n) x.adr
      y.2.endCmd n.val x 0 y.1 0 := by
  rw [State.cmdRegrd, State.runCmd_starts h hop]
  exact if_neg (not_not.2 hk)

/-- A REGWR of one word that waits for no check ends with its write's code (R430). -/
theorem State.cmdRegwr_word (hop : x.op = 2) (hk : s.regCodes n.val x true = 0) (hw : x.flags.testBit 1 = false) :
    let r := (s.setCmd n.val x fun y => { y with st := 1 }).writeWord (.port n) x.adr (x.data % 2 ^ 32) (some (n.val, t))
    (r.1 ≠ 0 ∨ ∀ y, y ∈ r.2.checks → y.cmd ≠ some (n.val, t)) → s.cmdRegwr n t = r.2.endCmd n.val x r.1 0 0 := by
  intro r hr
  have hends : ¬(r.1 = 0 ∧ (r.2.checks.any fun y => y.cmd == some (n.val, t)) = true) := by
    rintro ⟨h0, hany⟩
    obtain ⟨y, hy, hcmd⟩ := List.any_eq_true.1 hany
    rcases hr with h1 | hnone
    · exact h1 h0
    · exact hnone y hy (beq_iff_eq.1 hcmd)
  rw [State.cmdRegwr, State.runCmd_starts h hop]
  simp only [hk, hw, ne_eq, not_true_eq_false, Bool.false_eq_true, if_false]
  exact if_neg hends

end

section
variable {s : State} {n t tag c : Nat} {x : Cmd}

/-- A transfer of a command takes a free tag of the port's endpoint (R413). -/
theorem State.startXfer_free {y : Xfer} (ht : s.freeTag (792 + n) = some tag) :
    s.startXfer n x y = (s.modXfer ((792 + n) * 32 + tag) fun _ =>
      { y with own := .tray n x.tray, part := (s.partOfPort n).getD 8, ep := 792 + n, loc := x.soff, len := x.len }).setCmd n x fun c =>
        { c with st := 1, key := (792 + n) * 32 + tag + 1 } := by
  simp only [State.startXfer, State.xferStart, ht, Option.map_some]

section
variable (h : s.Starts n t x)
include h

theorem State.cmdCopyIn_refused (hop : x.op = 3) (hk : s.rangeCode n x ≠ 0) :
    s.cmdCopyIn n t = s.endCmd n x (s.rangeCode n x) 0 0 := (State.runCmd_starts h hop).trans (if_pos hk)

theorem State.cmdCopyIn_starts (hop : x.op = 3) (hk : s.rangeCode n x = 0) :
    s.cmdCopyIn n t = s.startXfer n x { write := true, dev := x.adr } := (State.runCmd_starts h hop).trans (if_neg (not_not.2 hk))

theorem State.cmdCopyOut_starts (hop : x.op = 4) (hk : s.rangeCode n x = 0) :
    s.cmdCopyOut n t = s.startXfer n x { write := false, dev := x.adr } := (State.runCmd_starts h hop).trans (if_neg (not_not.2 hk))

section
variable (hop : x.op = 5) (hk : s.rangeCode n x = 0)
include hop hk

theorem State.cmdSend_disabled (he : s.bit .GP_SH_ADDR [n, x.handle] GP_SH_ADDR_EN = false) :
    s.cmdSend n t = s.endCmd n x 0x0C12 0 0 :=
  (State.runCmd_starts h hop).trans ((if_neg (not_not.2 hk)).trans (if_pos (by simp [he])))

/-- A SEND of a sound message on an enabled handle starts its transfer, in the order of the handle's sends (R422). -/
theorem State.cmdSend_starts (he : s.bit .GP_SH_ADDR [n, x.handle] GP_SH_ADDR_EN = true)
    (hb : s.badSend (s.val .GP_SH_ADDR [n, x.handle] % 2 ^ 48 / 128 * 128) x.len (s.stagPeek n x.soff 16) = false) :
    s.cmdSend n t = s.startXfer n x { write := true, dev := s.val .GP_SH_ADDR [n, x.handle] % 2 ^ 48 / 128 * 128,
                                      handle := 0x10000 + n * 16 + x.handle + 1, seq := s.sendOrder (0x10000 + n * 16 + x.handle + 1) } :=
  (State.runCmd_starts h hop).trans ((if_neg (not_not.2 hk)).trans (if_neg (by rw [he, hb]; decide)))

end

/-- FENCE_ENG fences an engine of the port's partition that is not fenced (R283, R411). -/
theorem State.cmdFence_fences (hop : x.op = 6) (hc : coordCluster (x.data % 2 ^ 12) = some c) (hn : coordSlot (x.data % 2 ^ 12) < 19)
    (hb : (s.partOfPort n).isSome = true) (hp : s.partOfCluster c = s.partOfPort n) (hs : s.isSplit = false)
    (hf : s.fencedEng c (coordSlot (x.data % 2 ^ 12)) = false) :
    s.cmdFence n t = (s.fenceAt c (coordSlot (x.data % 2 ^ 12))).endCmd n x 0 0 0 := by
  have hbound : ((s.partOfPort n).isNone || s.partOfCluster c != s.partOfPort n) = false := by
    rw [hp, bne_self_eq_false, Bool.or_false, Option.isNone_eq_false_iff, hb]
  rw [State.cmdFence, State.runCmd_starts h hop]
  simp only [hc, ge_iff_le, Nat.not_le.2 hn, hbound, hs, hf, Bool.false_and, Bool.false_eq_true, if_false]

end

end

/-! ## Completions -/

section
variable {s : State} {n t : Nat} {x : Cmd}

theorem State.cmdDone_oldest (hon : s.portOn n = true)
    (hx : ((s.getGp n).cmds.findSome? fun x => if x.tray = t then s.ended x else none) = some x) : s.cmdDone n t = s.writeDone n x := by
  simp only [State.cmdDone, hx, hon, if_true]

/-- The record of a command of a tray that moved nothing and did not fail (R410). -/
theorem State.writeDone_plain (hk : x.key = 0) (ht : x.tray ≠ adminTray) (hc : x.code = 0) :
    s.writeDone n x = ((s.stagPoke n x.place x.record).bump .GP_CMDS [n]).modGp n fun g =>
      { g with cmds := g.cmds.filter fun y => y.id != x.id,
               done := if x.old = true then g.done else mput g.done x.tray (nextCount (mget g.done x.tray)) } := by
  simp only [State.writeDone, hk, hc, ht, failCode, State.when, bne_self_eq_false, Bool.false_and, Bool.false_eq_true, false_or, if_true,
    if_false]

end

/-! ## Event-in -/

/-- The head record of the event-in ring is passed. -/
def State.evTaken (s : State) (n : Nat) : State := s.modGp n fun g => { g with evRd := (g.evRd + 16) % 2 ^ 32 }

/-- A port's event source is on, and has a record and nothing on its way out. -/
structure State.EvReady (s : State) (n : Nat) : Prop where
  on : s.portOn n = true
  enabled : s.bit .GP_EVSRC [n] GP_EVSRC_EN = true
  waits : (s.getGp n).evRd ≠ (s.getGp n).evWr
  free : (s.getGp n).outq = []

section
variable {s : State} {n : Nat} (h : s.EvReady n)
include h

theorem State.eventIn_unknown (hg : s.groupOf (bitsOf (s.evHead n) 70 14) = none) :
    s.eventIn n = (s.evTaken n).bump .GP_EVDROP [n] := by
  obtain ⟨hon, hen, hwait, hfree⟩ := h
  simp only [State.eventIn, hon, hen, hfree, beq_eq_false_iff_ne.2 hwait, hg, bne_self_eq_false, Bool.not_true, Bool.or_self,
    Bool.false_eq_true, if_false]
  rfl

/-- The head record becomes a flit in the open step of a group that the port is bound to and still feeds (R417, R419). -/
theorem State.eventIn_injects {g : Nat} (hg : s.groupOf (bitsOf (s.evHead n) 70 14) = some g)
    (hb : ((s.evBinds n).any fun e => e.2 == g) = true) (ho : s.wgOpen g = true) (hop : (s.getWg g).opened.contains (eidPort n) = true)
    (hd : (s.getWg g).done.contains (eidPort n) = false) :
    s.eventIn n = ((s.evTaken n).modGp n fun p =>
      { p with outq := p.outq ++ [mkFlit (bitsOf (s.evHead n) 118 2) (bitsOf (s.evHead n) 100 12) (bitsOf (s.evHead n) 84 16)
        (bitsOf (s.evHead n) 70 14) (bitsOf (s.evHead n) 64 6) (s.wgWStep g % 2 ^ 16) (bitsOf (s.evHead n) 40 8) (s.wgTb g)
        ((s.evHead n).testBit 33) (s.fld .GP_EVSRC [n] GP_EVSRC_SRC)] }).bump .GP_EVINJ [n] := by
  obtain ⟨hon, hen, hwait, hfree⟩ := h
  simp only [State.eventIn, hon, hen, hfree, beq_eq_false_iff_ne.2 hwait, hg, hb, ho, hop, State.portDone, hd, bne_self_eq_false,
    Bool.not_true, Bool.or_self, Bool.false_eq_true, if_false]
  rfl

end

/-! ## Spilled messages -/

/-- What a spilled entry of a host channel meets: it is the oldest one and fits into the ring without a skip marker. -/
structure State.Drains (s : State) (t i foot pos : Nat) : Prop where
  host : tkHost t = true
  oldest : ∃ sender rest, (s.getChan t).comp = (i, foot, sender) :: rest
  fits : (s.getChan t).place (s.tkSize t) foot = some (pos, 0)

section
variable {s : State} {t i foot pos : Nat} {meets : LineFate} (h : s.Drains t i foot pos)
include h

theorem State.hostDrain_unreached (hr : s.compReached t i = false) : s.hostDrain t meets = s.dmWake (s.slotAt t i) 4160 := by
  obtain ⟨hhost, ⟨sender, rest, hc⟩, hfits⟩ := h
  simp only [State.hostDrain, hhost, hc, hfits, hr, Bool.not_true, Bool.not_false, Bool.false_eq_true, if_false, if_true]

theorem State.hostDrain_uncorrectable (hr : s.compReached t i = true) (hb : meets.badIn (s.slotAt t i) (64 + foot) = true) :
    s.hostDrain t meets = s.compRead t i (64 + foot) meets := by
  obtain ⟨hhost, ⟨sender, rest, hc⟩, hfits⟩ := h
  simp only [State.hostDrain, hhost, hc, hfits, hr, hb, Bool.not_true, Bool.false_eq_true, if_false, if_true]

/-- It moves into the ring, and is published once all before it is (R421). -/
theorem State.hostDrain_moves (hr : s.compReached t i = true) (hb : meets.badIn (s.slotAt t i) (64 + foot) = false) :
    s.hostDrain t meets =
      let u := (((s.compRead t i (64 + foot) meets).reserve t foot pos 0).ringPoke t pos (s.peekN (s.slotAt t i + 64) foot)).markDone t pos
      (u.dropComp t 1).publishFront t ((u.getChan t).resv.length) := by
  obtain ⟨hhost, ⟨sender, rest, hc⟩, hfits⟩ := h
  simp only [State.hostDrain, hhost, hc, hfits, hr, hb, Bool.not_true, Bool.false_eq_true, if_false]

end

theorem State.mirrorUpdate_on {s : State} {n : Nat} (hon : s.portOn n = true) :
    s.mirrorUpdate n = (s.flushLog n).each ((s.flushLog n).mirrorRecs n) fun s r => s.putMirror n r.1 r.2 := if_neg (by simp [hon])

/-- Settles O30: each operation's case, under the conditions that lead to it. -/
theorem trayCommandsHaveTheirEffects : Obligations.TrayCommandsHaveTheirEffects := by
  refine ⟨?trayen, ?scan, ?linkUse, ?hostRead, ?scanTray, ?commands, ?complete, ?eventIn, ?drain, ?mirror⟩
  case trayen =>
    intro s req n v t hr hbits
    exact congrArg Host.Outcome.next ((State.cmdWrite_gpPcfg hr (word_mod v)).trans (State.pcfgWrite_opens t.isLt hbits))
  case scan =>
    intro s n use hon u
    refine ⟨fun hstop => ?_, fun hbound hrec => ?_⟩
    · exact congrArg Host.Outcome.next ((State.trayScan_on hon).trans (if_pos hstop))
    · exact congrArg Host.Outcome.next ((State.trayScan_on hon).trans (if_neg (not_or.2 ⟨Bool.eq_false_iff.1 hbound, hrec⟩)))
  case linkUse => exact fun s n rs o refreshes errors hl => State.linkUse_reads hl rs o refreshes errors
  case hostRead => exact fun s n o => ⟨State.hostRead_outside, State.hostRead_bound⟩
  case scanTray =>
    intro s n t k m bs hseq
    exact ⟨State.scanTray_torn hseq, State.scanTray_noCredit hseq, State.scanTray_takes hseq⟩
  case commands =>
    intro s n t x hon hnext hmay fin start own
    have h : s.Starts n.val t.val x := ⟨hon, hnext, hmay⟩
    refine ⟨?nop, ?regrd, ?regrdWide, ?regrdUnreached, ?regwr, ?copyInRefused, ?copyIn, ?copyOut, ?sendDisabled, ?send, ?fence⟩
    case nop => exact fun hop => congrArg Host.Outcome.next (State.runCmd_starts h hop)
    case regrd =>
      intro hop hk hw
      exact congrArg Host.Outcome.next ((State.cmdRegrd_reads h hop hk).trans (by rw [hw]; rfl))
    case regrdWide =>
      intro hop hk hw
      exact congrArg Host.Outcome.next ((State.cmdRegrd_reads h hop hk).trans (by rw [hw]; rfl))
    case regrdUnreached =>
      intro hop ha hr
      have hk := State.regCodes_unreached ha hr
      exact congrArg Host.Outcome.next ((State.cmdRegrd_refused h hop (by rw [hk]; decide)).trans (by rw [hk]; rfl))
    case regwr =>
      intro hop hk hw r hr
      exact congrArg Host.Outcome.next (State.cmdRegwr_word h hop hk hw hr)
    case copyInRefused => exact fun hop hk => congrArg Host.Outcome.next (State.cmdCopyIn_refused h hop hk)
    case copyIn =>
      exact fun tag hop hk ht => congrArg Host.Outcome.next ((State.cmdCopyIn_starts h hop hk).trans (State.startXfer_free ht))
    case copyOut =>
      exact fun tag hop hk ht => congrArg Host.Outcome.next ((State.cmdCopyOut_starts h hop hk).trans (State.startXfer_free ht))
    case sendDisabled => exact fun hop hk he => congrArg Host.Outcome.next (State.cmdSend_disabled h hop hk he)
    case send =>
      intro tag hop hk he dev hd hb ht
      exact congrArg Host.Outcome.next ((State.cmdSend_starts h hop hk he hb).trans (State.startXfer_free ht))
    case fence =>
      exact fun c hop hc hn hb hp hs hf => congrArg Host.Outcome.next (State.cmdFence_fences h hop hc hn hb hp hs hf)
  case complete =>
    intro s n t x hon ht hx hk htray hc
    have hplain := State.writeDone_plain (s := s) (n := n.val) hk (by rw [htray]; exact Nat.ne_of_lt ht) hc
    rw [htray] at hplain
    exact congrArg Host.Outcome.next ((State.cmdDone_oldest hon hx).trans hplain)
  case eventIn =>
    intro s n hon hen hwait hfree r w u
    have h : s.EvReady n.val := ⟨hon, hen, hwait, hfree⟩
    exact ⟨fun hg => congrArg Host.Outcome.next (State.eventIn_unknown h hg),
      fun g hg hb ho hop hd => congrArg Host.Outcome.next (State.eventIn_injects h hg hb ho hop hd)⟩
  case drain =>
    intro s n ch meets i foot sender pos rest t u hc hfits
    have h : s.Drains t i foot pos := ⟨decide_eq_true (by omega), ⟨sender, rest, hc⟩, hfits⟩
    exact ⟨fun hr => congrArg Host.Outcome.next (State.hostDrain_unreached h hr),
      fun hr hb => congrArg Host.Outcome.next (State.hostDrain_uncorrectable h hr hb),
      fun hr hb => congrArg Host.Outcome.next (State.hostDrain_moves h hr hb)⟩
  case mirror => exact fun s n hon => congrArg Host.Outcome.next (State.mirrorUpdate_on hon)

end Sys2Proof.Machine
end

section
/-! What the commands of schedules, halves and frames do (R295, R313 to R316, R325, R326, R426, R427, R442, R453): one equation for each case
of an operation. -/

namespace Sys2Proof.Machine

section
variable {s : State} {req : Requester} {n h v : Nat} {cmd : Option (Nat × Nat)}

/-! ## TL_SCFG -/

theorem State.cmdWrite_tlScfg (hr : s.Reached req .TL_SCFG [0, n]) (hv : v % 2 ^ 32 = v)
    (hc : s.deviceUnitCode req (s.schState n != 0) (s.fld .TL_SCFG [0, n] TL_SCFG_PART) (some (bitsOf v 2 3)) = 0) :
    s.cmdWrite req .TL_SCFG [0, n] v = s.schedWrite n v none := by
  rw [State.cmdWrite_reached32 hr rfl rfl rfl, hv]
  exact congrArg Prod.snd (State.underPart_allowed _ hc)

/-- EN = 1 of a disabled schedule stores its fields and asks for the check (R313, R427). -/
theorem State.schedWrite_enable (hst : s.schState n = 0) (hc : s.checking (.sched n) = false)
    (he : s.bit .TL_SCFG [0, n] TL_SCFG_EN = false) (hv : v.testBit 0 = true) :
    s.schedWrite n v cmd = ((s.store .TL_SCFG [0, n] v).setFld .TL_SCFG [0, n] TL_SCFG_EN 0).askCheck (.sched n) v cmd := by
  rw [State.schedWrite, if_neg (Bool.eq_false_iff.1 hc), if_neg (fun h => h.2 hst)]
  exact State.unitWrite_enable hc he hv

/-- EN = 0 of an enabled schedule makes it drain (R315). -/
theorem State.schedWrite_disable (hc : s.checking (.sched n) = false) (he : s.bit .TL_SCFG [0, n] TL_SCFG_EN = true)
    (hv : v.testBit 0 = false) : s.schedWrite n v cmd = s.schedStop n := by
  rw [State.schedWrite, if_neg (Bool.eq_false_iff.1 hc), if_neg (by simp [hv])]
  exact State.unitWrite_disable hc he hv

theorem State.schedStop_drains (h0 : s.schState n ≠ 0) (h4 : s.schState n ≠ 4) :
    s.schedStop n = ((s.setFld .TL_SCFG [0, n] TL_SCFG_EN 0).setSch n 4).modSch n fun x =>
      { x with mark := 0, todo := [], swapW := s.schState n != 2, swapE := s.schState n != 2 } := if_neg (not_or.2 ⟨h0, h4⟩)

/-- The end of a drain (R314, R315, R442). -/
theorem State.schedDrained_drained (hst : s.schState n = 4) (hm : (s.getSch n).mark = 3) (hb : s.loadBusy n = false)
    (hs : s.seamHolds (s.getSch n).cross = false) :
    s.schedDrained n =
      let x := s.getSch n
      let u := s.copyTables x.clusters x.endpoints
      let u : State := { u with slotB := x.mine.foldl clearSlot u.slotB, smapB := x.mine.foldl clearSmap u.smapB }
      let u := u.swapTables x.clusters x.endpoints
      let u := u.each x.cross fun s y => s.setVal (loadReg y.dir) [] (s.val (loadReg y.dir) [] - y.count)
      let u := (u.modSch n fun _ => {}).setSch n 0
      u.each (u.xfer.filter fun y => y.2.live && (x.endpoints.contains y.2.ep || y.2.pieces.any fun p => x.endpoints.contains p.tgt)) fun s y =>
        if s.circuitGone y.2 then s.xferFail y.1 0x0811 y.2.failAt else s :=
  if_neg (by simp [hst, hm, hb, hs])

/-! ## One schedule at a frame boundary -/

/-- A disabled or broken schedule has no step at a boundary. -/
theorem State.schedFrame_idle (hst : s.schState n = 0 ∨ s.schState n = 5) : s.schedFrame h n = s := by
  rcases hst with hst | hst <;> simp only [State.schedFrame, hst]

/-- A schedule whose fields are all written swaps the copies of the half's nodes, once (R313). -/
theorem State.schedFrame_swaps (hst : s.schState n = 1) (hm : (s.getSch n).mark ≠ 2) (ht : (s.getSch n).todo = []) :
    s.schedFrame h n =
      let x := s.getSch n
      let y : Sch := if h = 0 then { x with swapW := true } else { x with swapE := true }
      (if (if h = 0 then x.swapW else x.swapE) = true then s
        else (s.swapTables (x.clusters.filter fun c => halfOf c == h) (x.endpoints.filter fun e => epHalf e == h)).remask).modSch n fun _ =>
        { y with mark := if y.swapW = true ∧ y.swapE = true then 2 else 1 } := by
  simp only [State.schedFrame, hst, hm, ht, if_true, if_false, Bool.and_eq_true]

theorem State.schedFrame_becomesActive (hst : s.schState n = 1) (hm : (s.getSch n).mark = 2) :
    s.schedFrame h n = (s.setSch n 2).modSch n fun x =>
      { x with susp := nodups (x.susp ++ (x.halves.filter s.isQuiet).map (1000 + ·)) } := by
  simp only [State.schedFrame, hst, hm, if_true]

theorem State.schedFrame_suspends (hst : s.schState n = 2) (hk : ((s.getSch n).susp.any fun k => suspHalf k == h) = true) :
    s.schedFrame h n = s.setSch n 3 := by
  simp only [State.schedFrame, hst, hk, if_true]

theorem State.schedFrame_resumes (hst : s.schState n = 3) (hk : (s.getSch n).susp = []) : s.schedFrame h n = s.setSch n 2 := by
  simp only [State.schedFrame, hst, hk, if_true]

/-- A draining schedule has its boundary in the half; with the boundaries of all its halves its drain can end (R315). -/
theorem State.schedFrame_drains (hst : s.schState n = 4) :
    s.schedFrame h n =
      let x := s.getSch n
      let y : Sch := if h = 0 then { x with swapW := true } else { x with swapE := true }
      s.modSch n fun _ => { y with mark := if x.halves.all (fun k => if k = 0 then y.swapW else y.swapE) = true then 3 else 0 } := by
  simp only [State.schedFrame, hst]

/-! ## The boundary of a half -/

/-- The nodes of a half at slot 32 after a boundary: QUIET as commanded (R316, R461), and the holes of fabric resets (log entry 80). -/
def State.nodesAtBoundary (s : State) (h : Nat) : State :=
  let mine := (List.range 48).map fun i => h * 48 + i
  let u := if (s.getHf h).quiesce = true then s.each mine fun s c => s.setFld .TL_STATUS [c] TL_STATUS_QUIET 1
    else if s.resumes h = true then s.each mine fun s c => s.setFld .TL_STATUS [c] TL_STATUS_QUIET 0 else s
  u.each mine fun s c => s.fresetMark c

theorem State.quietNodes_half (s : State) (l : List Nat) (x : Nat) :
    (s.each l fun s c => s.setFld .TL_STATUS [c] TL_STATUS_QUIET x).half = s.half :=
  State.each_leaves State.half (fun u c _ => u.setFld_half .TL_STATUS [c] TL_STATUS_QUIET x) s

theorem State.fresetMark_half (s : State) (c : Nat) : (s.fresetMark c).half = s.half :=
  (State.fresetMark_keeps (.refl 32770 s) c rfl).same .half (by decide)

/-- What is commanded for a half stands while its nodes take it. -/
theorem State.nodesAtBoundary_getHf (s : State) (h k : Nat) : (s.nodesAtBoundary h).getHf k = s.getHf k := by
  have hmarks (u : State) (l : List Nat) : (u.each l fun s c => s.fresetMark c).half = u.half :=
    State.each_leaves State.half (fun u c _ => u.fresetMark_half c) u
  have hhalf : (s.nodesAtBoundary h).half = s.half := by
    unfold State.nodesAtBoundary
    rw [hmarks]
    split
    · exact s.quietNodes_half _ 1
    · split
      · exact s.quietNodes_half _ 0
      · rfl
  rw [State.getHf, hhalf, State.getHf]

/-- A resume that finds the hold buffer filled waits for the next boundary (log entry 151). -/
theorem State.frameBoundary_eq (s : State) (h : Nat) :
    s.frameBoundary h =
      let u := ((s.bump .TL_FRAME [h * 48]).suspHalves h).each (List.range 64) fun s n => s.schedFrame h n
      let u := u.nodesAtBoundary h
      (u.modHf h fun x => { x with quiesce := false, resume := (u.getHf h).resume && !u.resumes h }).throttleFrame h := by
  simp only [State.nodesAtBoundary_getHf]
  rfl

end

/-- Settles O23: each operation's case, under the conditions that lead to it. -/
theorem scheduleCommandsHaveTheirEffects : Obligations.ScheduleCommandsHaveTheirEffects := by
  refine ⟨?enable, ?disable, ?drained, ?halves, ?resumes, ?boundary, ?schedule⟩
  case enable =>
    intro s req n v hr hcode hst hc he
    have hwrite := State.cmdWrite_tlScfg hr (withEn_mod v true) (by rw [hst]; exact hcode)
    exact congrArg Host.Outcome.next (hwrite.trans (State.schedWrite_enable hst hc he (withEn_testBit_zero v true)))
  case disable =>
    intro s req n v hr hcode h0 h4 hc he
    have hwrite := State.cmdWrite_tlScfg hr (withEn_mod v false) (by rw [bne_iff_ne.2 h0]; exact hcode)
    exact congrArg Host.Outcome.next (hwrite.trans
      ((State.schedWrite_disable hc he (withEn_testBit_zero v false)).trans (State.schedStop_drains h0 h4)))
  case drained => exact fun s n hst hm hb hs => congrArg Host.Outcome.next (State.schedDrained_drained hst hm hb hs)
  case halves => exact fun s h => ⟨rfl, rfl⟩
  case resumes => exact fun s h => rfl
  case boundary => exact fun s h => congrArg Host.Outcome.next (s.frameBoundary_eq h.val)
  case schedule =>
    intro s h n x here swapped y
    refine ⟨State.schedFrame_idle, ?_, ?_, ?_, ?_, ?_⟩
    · exact State.schedFrame_swaps
    · exact State.schedFrame_becomesActive
    · exact State.schedFrame_suspends
    · exact State.schedFrame_resumes
    · exact State.schedFrame_drains

end Sys2Proof.Machine
end

section
/-! What the pieces and beats of a trellis transfer do (R305 to R312, R364, R384 to R386, R389, R392): one equation for each case of an
operation. -/

namespace Sys2Proof.Machine

section
variable {s w : State} {svc : Option Nat} {src dst key piece slot k : Nat} {b : Beat} {x : Xfer} {p : Piece}

/-! ## Beats -/

/-- In a slot of its circuit a beat leaves its endpoint (R305). -/
theorem State.carry_launches (hs : src ≠ keepEnd) (hd : dst ≠ keepEnd) (hslot : s.slotTo svc src slot dst = true) :
    s.carry svc src dst slot 0 b key piece = some (s.launch src dst slot b key piece) := by
  rw [State.carry, if_neg (not_or.2 ⟨hs, hd⟩), if_neg (by decide), if_pos ⟨rfl, hslot⟩]

/-- The request of a plain access names a read or a write (R307). -/
theorem State.requestBeat_access (hh : x.handle = 0) :
    s.requestBeat key x p = mkBeat 1 (key % 32) (requestBytes p.a x.ep p.n (if x.write = true then 1 else 0) p.ret p.rv) := by
  rw [State.requestBeat, State.xferOp, if_pos hh]

/-- An answer beat without an error that arrives is taken (R311). -/
theorem State.answer_arrives {f : State → State}
    (hc : s.carry x.svc p.tgt (answerEnd x.ep p.ret p.rv) slot p.fly b key p.a = some (w, 0)) :
    s.answer key k slot x p b .ok f = f (w.setPiece key k fun p => { p with fly := 0 }) := by
  rw [State.answer, hc]
  rfl

/-! ## The next piece -/

section
variable (hx : s.getXfer key = x) (hi : s.mayIssue key = true) (hk : s.nextTo x ≠ [keepEnd])
include hx hi hk

/-- The next piece of an access goes out in a slot of a ready circuit (R307, R308). -/
theorem State.pieceIssue_launches {t : Nat} (hh : x.handle = 0) (hc : s.circuitTo x.svc x.ep (s.nextTo x) = 1)
    (ht : (s.nextTo x).find? (fun t => s.slotTo x.svc x.ep slot t && !s.dataOwed x.ep t) = some t) (hep : x.ep ≠ keepEnd)
    (htk : t ≠ keepEnd) :
    s.pieceIssue key slot =
      let p : Piece := { a := x.nextAt, n := pieceLen x.nextAt (x.len - x.issued), tgt := t, ret := x.ret.1, rv := x.ret.2 }
      let r := s.launch x.ep t slot
        (mkBeat 1 (key % 32) (requestBytes x.nextAt x.ep p.n (if x.write = true then 1 else 0) x.ret.1 x.ret.2)) key x.nextAt
      r.1.modXfer key fun y => { y with issued := y.issued + p.n, pieces := y.pieces ++ [{ p with fly := r.2 }] } := by
  have hfound := List.find?_some (p := fun t => s.slotTo x.svc x.ep slot t && !s.dataOwed x.ep t) ht
  have hslot : s.slotTo x.svc x.ep slot t = true := (Bool.and_eq_true_iff.1 hfound).1
  have hlen : x.nextLen = pieceLen x.nextAt (x.len - x.issued) := if_neg (not_not.2 hh)
  simp only [State.pieceIssue, hx, hi, hh, hk, hc, ht, hlen, State.carry_launches hep htk hslot, State.requestBeat_access hh, Bool.not_true,
    Bool.false_eq_true, ne_eq, not_true_eq_false, if_false]

theorem State.pieceIssue_waits (hc : s.circuitTo x.svc x.ep (s.nextTo x) = 2) : s.pieceIssue key slot = s := by
  simp only [State.pieceIssue, hx, hi, hk, hc, Bool.not_true, Bool.false_eq_true, if_false]

/-- Without a circuit the transfer fails: with 0x0812 where there is no target, else with 0x0811 (R308, R312). -/
theorem State.pieceIssue_fails (hc : s.circuitTo x.svc x.ep (s.nextTo x) = 0) (hs : s.isSplit = false) :
    s.pieceIssue key slot =
      let code := if s.nextTo x = [] then 0x0812 else 0x0811
      ((s.bump .TL_REFUSED [epHome x.ep]).countStray (some x.part) (epHome x.ep) x.nextAt code).xferFail key code x.nextAt := by
  have hcode : s.noCircuitCode x (s.nextTo x) = if s.nextTo x = [] then 0x0812 else 0x0811 := by
    simp only [State.noCircuitCode, hs, Bool.false_and, Bool.false_eq_true, if_false]
  have hcount : s.countRefused (epHome x.ep) (if s.nextTo x = [] then 0x0812 else 0x0811) = s.bump .TL_REFUSED [epHome x.ep] :=
    if_pos (by split <;> decide)
  simp only [State.pieceIssue, hx, hi, hk, hc, hcode, hcount, Bool.not_true, Bool.false_eq_true, if_false]

end

/-! ## Requests at their targets -/

theorem Xfer.tgtHome_endpoint (x : Xfer) (ht : p.tgt ≠ keepEnd) : x.tgtHome p = epHome p.tgt := by rw [Xfer.tgtHome, if_neg ht]

/-- A request that has arrived is at its target (R307). -/
theorem State.pieceRequest_arrived {err : BeatErr} (hx : s.getXfer key = x) (hl : x.live = true) (hp : x.pieces[k]? = some p)
    (hst : p.st = 0) (hf : p.fly = 0) (hh : x.handle = 0) : s.pieceRequest key k slot err = s.requestAt key k x p err := by
  simp [State.pieceRequest, hx, hp, hl, hst, hf, hh]

/-- What the target does with an error-free request: it discards one that it could not answer (log entry 105), and refuses one that
names a wrong RET or that is out of reach (R309, R312). -/
theorem State.requestAt_ok :
    s.requestAt key k x p .ok =
      if p.tgt ≠ keepEnd ∧ s.circuit x.svc p.tgt (answerEnd x.ep p.ret p.rv) = 0 then s.requestDiscarded key k x p
      else if (p.rv && !retValid x.ep p.ret) = true then s.requestRefused key k x p 0x0814
      else if s.pieceCode x p ≠ 0 then s.requestRefused key k x p (s.pieceCode x p) else s.requestTaken key k x p := by
  simp only [State.requestAt, reduceCtorEq, if_false]

theorem State.requestAt_discards (ht : p.tgt ≠ keepEnd) (hc : s.circuit x.svc p.tgt (answerEnd x.ep p.ret p.rv) = 0) :
    s.requestAt key k x p .ok =
      ((s.bump .TL_REFUSED [epHome p.tgt]).setVal .TL_LASTERR [epHome p.tgt] (0x0811 * 2 ^ 48 + p.a % 2 ^ 48)).setPiece key k fun q =>
        { q with fly := 2 } := by
  rw [← x.tgtHome_endpoint ht]
  exact State.requestAt_ok.trans (if_pos ⟨ht, hc⟩)

section
variable (hrv : p.rv = false) (hc : s.circuit x.svc p.tgt (answerEnd x.ep p.ret p.rv) ≠ 0)
include hrv hc

/-- A request that can be answered and names no RET meets the reach of its access. -/
theorem State.requestAt_answerable :
    s.requestAt key k x p .ok =
      if s.pieceCode x p ≠ 0 then s.requestRefused key k x p (s.pieceCode x p) else s.requestTaken key k x p :=
  State.requestAt_ok.trans ((if_neg fun h => hc h.2).trans (if_neg (by simp [hrv])))

theorem State.requestAt_takes (h0 : s.pieceCode x p = 0) : s.requestAt key k x p .ok = s.requestTaken key k x p :=
  (State.requestAt_answerable hrv hc).trans (if_neg (not_not.2 h0))

theorem State.requestAt_refuses (ht : p.tgt ≠ keepEnd) (h0 : s.pieceCode x p ≠ 0) :
    s.requestAt key k x p .ok =
      let code := s.pieceCode x p
      (((s.countRefused (epHome p.tgt) code).setPiece key k fun q => { q with st := 2, fly := 0, code := code }).countStray
        (some x.part) (epHome x.ep) p.a code).countDeny p.a code := by
  rw [← x.tgtHome_endpoint ht]
  exact (State.requestAt_answerable hrv hc).trans (if_pos h0)

end

/-- A target without an arbiter starts the piece; a core notes the access (R119, R364). -/
theorem State.requestTaken_starts (ht : p.tgt ≠ keepEnd) (ha : arbOf p.tgt = none) :
    s.requestTaken key k x p = (s.coreTouch p.a).setPiece key k fun q => { q with st := 1, gen := (s.coreTouch p.a).ownGen p.a } := by
  simp only [State.requestTaken, ha, ht, if_false]

/-- Two changes of an arbiter's record that agree on the present one do the same. -/
theorem State.modArb_congr {f g : Arb → Arb} (h : f (s.getArb k) = g (s.getArb k)) : s.modArb k f = s.modArb k g := by
  unfold State.modArb mmod
  rw [show f (mget s.arb k) = g (mget s.arb k) from h]

/-- An arbiter with a free entry, no waiter and no reservation grants (R384). -/
theorem State.arbAsk_grants {cap e : Nat} (hw : (s.getArb k).wait = []) (hr : (s.getArb k).resv = 0) (hn : (s.getArb k).held.length < cap)
    (hheld : (s.getArb k).held.contains e = false) :
    s.arbAsk k cap e = (true, s.modArb k fun a => { a with grants := a.grants + 1, held := a.held ++ [e], wait := [], resv := 0 }) := by
  have hout : e ∉ (s.getArb k).held := by simpa using hheld
  refine (if_pos ?_).trans (congrArg (Prod.mk true) (State.modArb_congr ?_))
  · simp [hw, hr, hn, hout]
  · simp [hw, hr]

/-- A granted request starts its piece (R384). -/
theorem State.requestTaken_granted {ak cap : Nat} (ha : arbOf p.tgt = some (ak, cap)) (hm : s.arbMarked x.ep = false)
    (hon : ak < 24 → s.chanOn ak = true) (hw : (s.getArb ak).wait = []) (hr : (s.getArb ak).resv = 0)
    (hn : (s.getArb ak).held.length < cap) (hheld : (s.getArb ak).held.contains x.ep = false) :
    s.requestTaken key k x p =
      (s.modArb ak fun a => { a with grants := a.grants + 1, held := a.held ++ [x.ep], wait := [], resv := 0 }).setPiece key k fun q =>
        { q with st := 1, back := 0 } := by
  have hawake : (decide (ak < 24) && !s.chanOn ak) = false := by
    by_cases h : ak < 24
    · simp [hon h]
    · simp [h]
  simp only [State.requestTaken, ha, State.requestArb, hm, hawake, State.arbAsk_grants hw hr hn hheld, Bool.false_eq_true, if_true, if_false]

/-! ## Data beats -/

theorem State.lineCorr_ok (s : State) (a : Nat) : s.lineCorr a .ok = s := by
  cases locate a <;> simp [State.lineCorr]

/-- The bytes of a beat without an error are stored at its end (R310). -/
theorem State.beatArrive_ok (hb : b.bad = false) : s.beatArrive key k x p .ok b = s.landBeat key k x p b.data := by
  simp [State.beatArrive, hb, State.lineCorr_ok]

theorem State.landBeat_writes {bs : List Byte} (hh : x.handle = 0) (hw : x.write = true) :
    s.landBeat key k x p bs =
      ((s.lineWrite (epHome x.ep) (p.a + p.moved) bs).observe (plainAddr (p.a + p.moved))).setPiece key k fun p =>
        { p with moved := p.moved + 64 } := by
  simp [State.landBeat, hh, hw]

theorem State.landBeat_reads {bs : List Byte} (hh : x.handle = 0) (hw : x.write = false) :
    s.landBeat key k x p bs =
      (s.locPoke x.own (x.loc + (p.a - x.dev) + p.moved) bs).setPiece key k fun p => { p with moved := p.moved + 64 } := by
  simp [State.landBeat, hh, hw]

/-- With none of its beats in the seam, a started piece sends its next one (R308). -/
theorem State.dataBeat_leaves {err : BeatErr} (hx : s.getXfer key = x) (hl : x.live = true) (hp : x.pieces[k]? = some p) (hst : p.st = 1)
    (hn : p.moved < p.n) (hsent : p.sent = p.moved) (hserves : s.targetServes p = true) :
    s.dataBeat key k slot err = s.beatLeave key k slot x p err := by
  simp [State.dataBeat, hx, hp, hl, hst, hn, hsent, hserves]

section
variable (hfly : p.fly ≠ 2) (hn : p.sent < p.n) (hh : x.handle = 0)
include hfly hn hh

/-- A beat of a write that reaches the target at once (R305, R308, R310). -/
theorem State.beatLeave_writes (hw : x.write = true)
    (hc : s.carry x.svc x.ep p.tgt slot 0 (mkBeat 0 (key % 32) (s.locPeek x.own (x.loc + (p.a - x.dev) + p.sent) 64)) key p.a =
      some (w, 0)) :
    s.beatLeave key k slot x p .ok =
      (((w.setPiece key k fun p => { p with sent := p.sent + 64 }).lineWrite (epHome x.ep) (p.a + p.moved)
        (s.locPeek x.own (x.loc + (p.a - x.dev) + p.sent) 64)).observe (plainAddr (p.a + p.moved))).setPiece key k fun p =>
          { p with moved := p.moved + 64 } := by
  have harrives : s.beatLeave key k slot x p .ok = (w.setPiece key k fun p => { p with sent := p.sent + 64 }).beatArrive key k x p .ok
      (mkBeat 0 (key % 32) (s.locPeek x.own (x.loc + (p.a - x.dev) + p.sent) 64)) := by
    rw [mkBeat] at hc
    simp [State.beatLeave, Xfer.dataKind, Xfer.dataFrom, Xfer.dataTo, State.beatBytes, mkBeat, hw, hh, hfly, hn, hc]
  exact harrives.trans ((State.beatArrive_ok rfl).trans (State.landBeat_writes hh hw))

/-- A beat of a read that reaches the requester at once; its line is counted as read (R305, R308, R310, R392). -/
theorem State.beatLeave_reads (hw : x.write = false)
    (hc : s.carry x.svc p.tgt (answerEnd x.ep p.ret p.rv) slot 0
      (mkBeat (if p.n ≤ p.sent + 64 then 2 else 0) (key % 32) (s.readBytes (p.a + p.sent) 64)) key p.a = some (w, 0)) :
    s.beatLeave key k slot x p .ok =
      (((w.countRead (p.a + p.sent)).setPiece key k fun p => { p with sent := p.sent + 64 }).locPoke x.own
        (x.loc + (p.a - x.dev) + p.moved) (s.readBytes (p.a + p.sent) 64)).setPiece key k fun p => { p with moved := p.moved + 64 } := by
  have harrives : s.beatLeave key k slot x p .ok =
      ((w.countRead (p.a + p.sent)).setPiece key k fun p => { p with sent := p.sent + 64 }).beatArrive key k x p .ok
        (mkBeat (if p.n ≤ p.sent + 64 then 2 else 0) (key % 32) (s.readBytes (p.a + p.sent) 64)) := by
    rw [mkBeat] at hc
    simp [State.beatLeave, Xfer.dataKind, Xfer.dataFrom, Xfer.dataTo, State.beatBytes, mkBeat, hw, hh, hfly, hn, hc, State.lineLeaves,
      State.lineCorr_ok, State.readStops]
  exact harrives.trans ((State.beatArrive_ok rfl).trans (State.landBeat_reads hh hw))

end

/-! ## The end of a piece -/

section
variable (hx : s.getXfer key = x) (hl : x.live = true) (hp : x.pieces[k]? = some p)
include hx hl hp

section
variable (hst : p.st = 1) (hn : p.n ≤ p.moved) (hh : x.handle = 0)
include hst hn hh

theorem State.pieceLast_read {err : BeatErr} (hw : x.write = false) : s.pieceLast key k slot err = s.pieceEnds key k x p := by
  simp [State.pieceLast, hx, hp, hl, hst, hn, hh, hw]

/-- A write ends with the acknowledgement of its target (R308). -/
theorem State.pieceLast_written (hw : x.write = true)
    (hc : s.carry x.svc p.tgt (answerEnd x.ep p.ret p.rv) slot p.fly (mkBeat 2 (key % 32) (List.replicate 64 0)) key p.a = some (w, 0)) :
    s.pieceLast key k slot .ok = (w.setPiece key k fun p => { p with fly := 0 }).pieceEnds key k x p := by
  have hall : ¬(p.st ≠ 1 ∨ p.moved < p.n) := by omega
  simp only [State.pieceLast, hx, hp, hl, hh, hw, hall, State.answer_arrives hc, Bool.not_true, Bool.false_eq_true, ne_eq,
    not_true_eq_false, if_true, if_false]

end

theorem State.pieceRefused_arrives (hst : p.st = 2)
    (hc : s.carry x.svc p.tgt (answerEnd x.ep p.ret p.rv) slot p.fly (mkBeat 3 (key % 32) (refusalBytes p.code)) key p.a = some (w, 0)) :
    s.pieceRefused key k slot .ok = (w.setPiece key k fun p => { p with fly := 0 }).refusalTaken key k p := by
  simp only [State.pieceRefused, hx, hp, hl, hst, State.answer_arrives hc, Bool.not_true, bne_self_eq_false, Bool.or_self,
    Bool.false_eq_true, if_false]

end

/-- An arbiter's refusal makes the piece back off, for twice as long each time (R386, R389). -/
theorem State.refusalTaken_backsOff (hc : p.code = 0x0B10 ∨ p.code = 0x0B11) :
    s.refusalTaken key k p = s.setPiece key k fun p => { p with st := 3, back := if p.back = 0 then 8 else min 1024 (2 * p.back) } :=
  if_pos hc

theorem State.refusalTaken_fails (h0 : p.code ≠ 0x0B10) (h1 : p.code ≠ 0x0B11) :
    s.refusalTaken key k p = s.xferFail key p.code p.a := if_neg (not_or.2 ⟨h0, h1⟩)

end

/-- Settles O24: each operation's case, under the conditions that lead to it. -/
theorem transferCommandsHaveTheirEffects : Obligations.TransferCommandsHaveTheirEffects := by
  refine ⟨?issue, ?request, ?data, ?last, ?refusal⟩
  case issue =>
    intro s at' slot key x a ts hi hh hk
    refine ⟨fun t hc ht hep htk => ?_, fun hc => ?_, fun hc hs => ?_⟩
    · exact congrArg Host.Outcome.next (State.pieceIssue_launches rfl hi hk hh hc ht hep htk)
    · exact congrArg Host.Outcome.next (State.pieceIssue_waits rfl hi hk hc)
    · exact congrArg Host.Outcome.next (State.pieceIssue_fails rfl hi hk hc hs)
  case request =>
    intro s at' k slot p key x hl hp hst hf hh ht hrv
    have hat : exec (.trellisRequest at' k slot .ok) s = .next (s.requestAt key k.val x p .ok) :=
      congrArg Host.Outcome.next (State.pieceRequest_arrived rfl hl hp hst hf hh)
    refine ⟨fun hc => ?discarded,
      fun hc => ⟨fun h0 ha => ?started, fun ak cap h0 ha hm hon hw hr hn hheld => ?granted, fun h0 => ?refused⟩⟩
    case discarded => exact hat.trans (congrArg Host.Outcome.next (State.requestAt_discards ht hc))
    case started =>
      exact hat.trans (congrArg Host.Outcome.next ((State.requestAt_takes hrv hc h0).trans (State.requestTaken_starts ht ha)))
    case granted =>
      exact hat.trans (congrArg Host.Outcome.next
        ((State.requestAt_takes hrv hc h0).trans (State.requestTaken_granted ha hm hon hw hr hn hheld)))
    case refused => exact hat.trans (congrArg Host.Outcome.next (State.requestAt_refuses hrv hc ht h0))
  case data =>
    intro s w at' k slot p key x hl hp hst hf hn hsent hh hserves
    have hleaves : exec (.trellisDataBeat at' k slot .ok) s = .next (s.beatLeave key k.val slot.val x p .ok) :=
      congrArg Host.Outcome.next (State.dataBeat_leaves rfl hl hp hst hn hsent hserves)
    have hmore : p.sent < p.n := hsent ▸ hn
    refine ⟨fun hw => ?_, fun hw => ?_⟩
    · intro bs hc
      exact hleaves.trans (congrArg Host.Outcome.next (State.beatLeave_writes hf hmore hh hw hc))
    · intro bs hc
      exact hleaves.trans (congrArg Host.Outcome.next (State.beatLeave_reads hf hmore hh hw hc))
  case last =>
    intro s w at' k slot p key x hl hp hst hn hh ends
    have hends (u : State) : u.pieceEnds key k.val x p = ends u := rfl
    refine ⟨fun hw => ?_, fun hw hc => ?_⟩
    · exact congrArg Host.Outcome.next ((State.pieceLast_read rfl hl hp hst hn hh hw).trans (hends _))
    · exact congrArg Host.Outcome.next ((State.pieceLast_written rfl hl hp hst hn hh hw hc).trans (hends _))
  case refusal =>
    intro s w at' k slot p key x hl hp hst hc u
    have htaken : exec (.trellisRefusal at' k slot .ok) s = .next (u.refusalTaken key k.val p) :=
      congrArg Host.Outcome.next (State.pieceRefused_arrives rfl hl hp hst hc)
    refine ⟨fun hcode => ?_, fun h0 h1 => ?_⟩
    · exact htaken.trans (congrArg Host.Outcome.next (State.refusalTaken_backsOff hcode))
    · exact htaken.trans (congrArg Host.Outcome.next (State.refusalTaken_fails h0 h1))

end Sys2Proof.Machine
end

section
/-! Which commands answer a next state: all but the control-network messages whose word lists have a length that no message has (R319, R321,
R322, R502). -/

namespace Sys2Proof.Machine

/-- An outcome is a next state where a command is well formed, and the fault that names an ill-formed one elsewhere. -/
def AnswersByForm (wf : Bool) (o : Host.Outcome State Fault Refusal) : Prop :=
  (wf = true → ∃ t, o = .next t) ∧ (wf = false → o = .fault .illFormed)

theorem AnswersByForm.next (t : State) : AnswersByForm true (.next t) := ⟨fun _ => ⟨t, rfl⟩, nofun⟩

theorem AnswersByForm.guarded (wf : Bool) (t : State) : AnswersByForm wf (if wf = true then .next t else .fault .illFormed) :=
  ⟨fun h => ⟨t, if_pos h⟩, fun h => if_neg (Bool.eq_false_iff.1 h)⟩

/-- Four messages are guarded by the lengths of their word lists; every other command is well formed and answers at once. -/
theorem exec_answersByForm (c : Instr) (s : State) : AnswersByForm c.wf (exec c s) := by
  cases c with
  | cnWrite | cnReduce | cnBcast | cnStatus => exact .guarded _ _
  | _ => exact .next _

/-- Settles O44: every command answers by its form. -/
theorem wellFormedCommandsAnswerANextState : Obligations.WellFormedCommandsAnswerANextState := exec_answersByForm

end Sys2Proof.Machine
end

section
/-! What the commands of channels, handles, messages and combining queues do (R328 to R357, R427): one equation for each case of an
operation. -/

namespace Sys2Proof.Machine

/-! ## The numbers of targets -/

section
variable {c n : Nat}

theorem tkHost_cluster (hc : c < 96) (hn : n < 64) : tkHost (c * 64 + n) = false := decide_eq_false (by omega)

theorem tkCluster_target (hn : n < 64) : tkCluster (c * 64 + n) = c := by
  unfold tkCluster
  omega

theorem tkQueue_channel (hn : n < 32) : tkQueue (c * 64 + n) = false := by
  unfold tkQueue
  rw [decide_eq_false (p := (c * 64 + n) % 64 ≥ 32) (by omega), Bool.and_false]

theorem tkIndex_channel (hc : c < 96) (hn : n < 32) : tkIndex (c * 64 + n) = n := by
  unfold tkIndex
  rw [if_neg (by omega), if_neg (by omega)]
  omega

theorem tkHost_queue (hc : c < 96) (hn : n < 8) : tkHost (c * 64 + 32 + n) = false := decide_eq_false (by omega)

theorem tkCluster_queue (hn : n < 8) : tkCluster (c * 64 + 32 + n) = c := by
  unfold tkCluster
  omega

theorem tkQueue_queue (hc : c < 96) (hn : n < 8) : tkQueue (c * 64 + 32 + n) = true := by
  unfold tkQueue
  rw [decide_eq_true (by omega), decide_eq_true (by omega), Bool.and_true]

theorem tkIndex_queue (hc : c < 96) (hn : n < 8) : tkIndex (c * 64 + 32 + n) = n := by
  unfold tkIndex
  rw [if_neg (by omega), if_pos (by omega)]
  omega

end

/-! ## Enabling and disabling -/

section
variable {s : State} {req : Requester} {c n v : Nat}

theorem State.cmdWrite_mqChCfg (hr : s.Reached req .MQ_CH_CFG [c, n]) (hv : v % 2 ^ 32 = v) :
    s.cmdWrite req .MQ_CH_CFG [c, n] v =
      s.unitWrite (.chan c n) .MQ_CH_CFG [c, n] MQ_CH_CFG_EN v none fun s => s.tkStop (c * 64 + n) := by
  rw [State.cmdWrite_reached32 hr rfl rfl rfl, hv]
  rfl

theorem State.cmdWrite_mqQCfg (hr : s.Reached req .MQ_Q_CFG [c, n]) (hv : v % 2 ^ 32 = v) :
    s.cmdWrite req .MQ_Q_CFG [c, n] v =
      s.unitWrite (.queue c n) .MQ_Q_CFG [c, n] MQ_Q_CFG_EN v none fun s => s.tkStop (c * 64 + 32 + n) := by
  rw [State.cmdWrite_reached32 hr rfl rfl rfl, hv]
  rfl

theorem State.cmdWrite_mqShCfg (hr : s.Reached req .MQ_SH_CFG [c, n]) (hv : v % 2 ^ 32 = v) :
    s.cmdWrite req .MQ_SH_CFG [c, n] v =
      s.unitWrite (.send c n) .MQ_SH_CFG [c, n] MQ_SH_CFG_EN v none fun s => s.setFld .MQ_SH_CFG [c, n] MQ_SH_CFG_EN 0 := by
  rw [State.cmdWrite_reached32 hr rfl rfl rfl, hv]
  rfl

/-- A target that stops refuses its pending requests and frees its compost slots (R353). -/
def State.tkEmptied (s : State) (t : Nat) : State :=
  let u := s.refuseReqs t 0x0911 fun _ => true
  u.dropComp t ((u.getChan t).comp.length)

theorem State.tkStop_channel (hc : c < 96) (hn : n < 32) (he : s.bit .MQ_CH_CFG [c, n] MQ_CH_CFG_EN = true) :
    s.tkStop (c * 64 + n) = ((s.tkEmptied (c * 64 + n)).setFld .MQ_CH_CFG [c, n] MQ_CH_CFG_EN 0).noteLine (c * 64 + n) := by
  simp only [State.tkStop, State.tkOn, tkHost_cluster hc (by omega : n < 64), tkQueue_channel hn, tkCluster_target (by omega : n < 64),
    tkIndex_channel hc hn, he, Bool.not_true, Bool.false_eq_true, if_false]
  rfl

theorem State.tkStop_queue (hc : c < 96) (hn : n < 8) (he : s.bit .MQ_Q_CFG [c, n] MQ_Q_CFG_EN = true) :
    s.tkStop (c * 64 + 32 + n) = ((s.tkEmptied (c * 64 + 32 + n)).setFld .MQ_Q_CFG [c, n] MQ_Q_CFG_EN 0).noteLine (c * 64 + 32 + n) := by
  simp only [State.tkStop, State.tkOn, tkHost_queue hc hn, tkQueue_queue hc hn, tkCluster_queue hn, tkIndex_queue hc hn, he,
    Bool.not_true, Bool.false_eq_true, if_false, if_true]
  rfl

end

/-! ## Requests at their targets -/

section
variable {s : State} {key : Nat} {x : Xfer} {p : Piece}

/-- A request that has arrived, of a send that no target holds yet, is at its target's unit (R335, R338). -/
theorem State.requestReceive_arrived {slot : Nat} {err : BeatErr} (hx : s.getXfer key = x) (hp : x.pieces = [p]) (hh : x.handle ≠ 0)
    (hl : x.live = true) (hst : p.st = 0) (hf : p.fly = 0) (ht : x.target = 0) :
    s.requestReceive key slot err = s.msgRequest key x p err := by
  simp only [State.requestReceive, hx, hp, hh, hl, hst, hf, ht, Bool.not_true, Bool.false_eq_true, ne_eq, not_true_eq_false, or_self,
    if_false, if_true]

theorem State.msgRequest_discards (hc : s.circuit x.svc p.tgt x.ep = 0) : s.msgRequest key x p .ok = s.requestDiscarded key 0 x p := by
  rw [State.msgRequest, if_neg nofun]
  exact if_pos hc

section
variable (hc : s.circuit x.svc p.tgt x.ep ≠ 0)
include hc

/-- A request to an address where no enabled target lies is refused with 0x0911, or 0x0812 of a unit that is down (R335, R353). -/
theorem State.msgRequest_untargeted (ht : s.tkAt x.dev = none) :
    s.msgRequest key x p .ok =
      let code := if s.unitDown p.tgt = true then 0x0812 else 0x0911
      (s.countRefused (x.tgtHome p) code).setRefused key 0 code := by
  rw [State.msgRequest, if_neg nofun]
  refine (if_neg hc).trans ?_
  simp only [if_neg (show BeatErr.ok ≠ .single from nofun), ht]

theorem State.msgRequest_refuses {t : Nat} (ht : s.tkAt x.dev = some t) (h0 : s.msgCode x t ≠ 0) :
    s.msgRequest key x p .ok =
      ((s.countRefused (x.tgtHome p) (s.msgCode x t)).setRefused key 0 (s.msgCode x t)).tkReason t (s.msgCode x t) := by
  rw [State.msgRequest, if_neg nofun]
  refine (if_neg hc).trans ?_
  simp only [if_neg (show BeatErr.ok ≠ .single from nofun), ht]
  exact if_pos h0

/-- A request that its target accepts joins the target's pending list (R338). -/
theorem State.msgRequest_holds {t : Nat} (ht : s.tkAt x.dev = some t) (h0 : s.msgCode x t = 0) :
    s.msgRequest key x p .ok = (s.modXfer key fun x => { x with target := t + 1 }).modTk t fun ch =>
      { ch with reqs := ch.reqs ++ [{ key := key, foot := x.len, sender := senderField x.own x.ep, coord := senderCoord x.own }] } := by
  rw [State.msgRequest, if_neg nofun]
  refine (if_neg hc).trans ?_
  simp only [if_neg (show BeatErr.ok ≠ .single from nofun), ht]
  exact if_neg (not_not.2 h0)

end

/-- A request at a channel of its own partition whose receiver is up, in a device that is not split, is refused for its length
alone (R338). -/
theorem State.msgCode_channel {t : Nat} (hq : tkQueue t = false) (hp : s.tkPart t = some x.part) (hr : s.rcvDown t = false)
    (hs : s.isSplit = false) : s.msgCode x t = if s.tkSize t < x.len then 0x0910 else 0 := by
  simp [State.msgCode, hq, hp, hr, hs]

end

/-! ## Placement -/

section
variable {x : Chan} {size f : Nat}

theorem Chan.place_fits (ht : f ≤ size - x.wrp % size) (hu : (x.wrp + 2 ^ 32 - x.rd) % 2 ^ 32 + f ≤ size) :
    x.place size f = some (x.wrp % size, 0) := if_pos ⟨ht, hu⟩

theorem Chan.place_skips (ht : size - x.wrp % size < f)
    (hu : (x.wrp + 2 ^ 32 - x.rd) % 2 ^ 32 + (size - x.wrp % size) + f ≤ size) :
    x.place size f = some (0, size - x.wrp % size) := (if_neg (by omega)).trans (if_pos ⟨ht, hu⟩)

theorem Chan.place_waits (hu : size < (x.wrp + 2 ^ 32 - x.rd) % 2 ^ 32 + f) : x.place size f = none :=
  (if_neg (by omega)).trans (if_neg (by omega))

end

theorem State.reserve_whole (s : State) (t f pos : Nat) :
    s.reserve t f pos 0 = s.modChan t fun x =>
      { x with wrp := (x.wrp + 0 + f) % 2 ^ 32, resv := x.resv ++ [{ pos := pos, len := f }] } := rfl

section
variable {s : State} {t : Nat} {r : Req} (hh : tkHost t = false) (hq : tkQueue t = false) (hon : s.tkOn t = true)
  (hr : ((s.getChan t).reqs.find? fun r => r.st == 0) = some r)
include hh hq hon hr

/-- No spilled entry comes before the requests of a channel, whose oldest one is granted where its footprint has a place (R333, R339). -/
theorem State.placementGrant_places {pos tail : Nat} (hp : (s.getChan t).place (s.tkSize t) r.foot = some (pos, tail)) :
    s.placementGrant t = (s.reserve t r.foot pos tail).grantReq t r.key 1 pos := by
  simp only [State.placementGrant, State.compFirst, hh, hq, hon, hr, hp, Bool.not_true, Bool.or_self, Bool.false_eq_true, if_false]

theorem State.placementGrant_waits (hp : (s.getChan t).place (s.tkSize t) r.foot = none) : s.placementGrant t = s := by
  simp only [State.placementGrant, State.compFirst, hh, hq, hon, hr, hp, Bool.not_true, Bool.or_self, Bool.false_eq_true, if_false]

end

/-! ## Messages written, contributions added, and wait edges -/

/-- A live transfer whose request a target holds. -/
structure State.Pends (s : State) (key t : Nat) (r : Req) : Prop where
  target : (s.getXfer key).target = t + 1
  live : (s.getXfer key).live = true
  found : ((s.getChan t).reqs.find? fun r => r.key == key) = some r

section
variable {s : State} {key t : Nat} {r : Req} (h : s.Pends key t r)
include h

/-- A request registers one wait edge while it waits for space (R346). -/
theorem State.edgeRegister_waits (hst : r.st = 0) (he : r.edge = false) :
    s.edgeRegister key =
      let u := s.setReq t key fun r => { r with edge := true }
      let u := { u with edges := u.edges ++ [{ key := key, src := r.coord, dst := u.tkCoord t, target := t }] }
      match (s.getXfer key).own with
      | .vx c _ _ => u.bump .MQ_WAITREG [c]
      | _ => u := by
  obtain ⟨ht, hl, hf⟩ := h
  simp only [State.edgeRegister, ht, Nat.add_sub_cancel, hl, hf, hst, he, Nat.add_one_ne_zero, Bool.not_true, Bool.false_eq_true, ne_eq,
    not_true_eq_false, or_self, if_false] <;> rfl

section
variable (hd : r.foot ≤ r.data.length)
include hd

/-- What becomes of a send whose data have all arrived, by its request's progress (R334, R338, R348). -/
theorem State.publish_arrived :
    s.publish key =
      if r.st = 2 then
        if s.compReached t r.at_ = false then s.dmWake (s.slotAt t r.at_) 4160 else
        let bs := if tkQueue t then r.data else stampHeader r.data true r.sender (s.getXfer key).seq
        ((s.writeSlotEntry t r.at_ r.foot r.sender bs).setReq t key fun r => { r with st := 4 }).ackReq key
      else if r.st = 1 ∧ tkQueue t = false then
        let u := (s.ringPoke t r.at_ (stampHeader r.data false r.sender (s.getXfer key).seq)).markDone t r.at_
        u.publishFront t ((u.getChan t).resv.length)
      else s := by
  obtain ⟨ht, hl, hf⟩ := h
  simp only [State.publish, ht, Nat.add_sub_cancel, hl, hf, Nat.not_lt.2 hd, Nat.add_one_ne_zero, Bool.not_true, Bool.false_eq_true,
    or_self, if_false, Bool.not_eq_true']

/-- What becomes of a contribution whose data have all arrived (R342, R343). -/
theorem State.contributionAdd_arrived (hq : tkQueue t = true) :
    s.contributionAdd key =
      if r.st = 1 then (s.contribute t r.data).ackReq key
      else if r.st = 3 then (s.bump .MQ_QLATE [tkCluster t]).ackReq key
      else s := by
  obtain ⟨ht, hl, hf⟩ := h
  simp only [State.contributionAdd, ht, Nat.add_sub_cancel, hl, hf, hq, Nat.not_lt.2 hd, Nat.add_one_ne_zero, Bool.not_true,
    Bool.false_eq_true, or_self, if_false]

end

end

/-! ## Receiver's writes -/

section
variable {s : State} {t c off v : Nat} {f : State → State}

section
variable (hcl : tkCluster t = c)
include hcl

/-- The unit looks at a field of its consumer line that the receiver has written, a write of the bank (R330, R392). -/
theorem State.consumerWrite_awake (hd : s.domOn c = true) (ha : s.unitAwake t (s.tkLine t + off) = true) (hon : s.tkOn t = true) :
    s.consumerWrite t off v f = f ((s.pokeLE (s.tkLine t + off) 4 v).bump .BK_WR [c]) := by
  simp only [State.consumerWrite, hcl, hd, ha, hon, State.when, Bool.not_true, Bool.false_eq_true, if_false, if_true]

/-- A write to a bank in retention is refused and counted (log entry 171). -/
theorem State.consumerWrite_asleep (hd : s.domOn c = true) (ha : s.unitAwake t (s.tkLine t + off) = false) :
    s.consumerWrite t off v f = s.bump .BK_DENY [c] := by
  simp only [State.consumerWrite, hcl, hd, ha, Bool.not_true, Bool.not_false, Bool.false_eq_true, if_false, if_true]

theorem State.badRd_cluster (hh : tkHost t = false) : s.badRd t = s.bump .MQ_BADRD [c] := by
  rw [← hcl]
  exact if_neg (by simp [hh])

end

theorem State.writeRd_channel (hh : tkHost t = false) (hq : tkQueue t = false) :
    s.writeRd t v = s.consumerWrite t 64 v fun s => s.takeRd t v := if_neg (by simp [hh, hq])

theorem State.writeCdone_channel (hh : tkHost t = false) (hq : tkQueue t = false) :
    s.writeCdone t v = s.consumerWrite t 68 v fun s => s.takeCdone t v := if_neg (by simp [hh, hq])

theorem State.writeReleased_queue (hq : tkQueue t = true) :
    s.writeReleased t v = s.consumerWrite t 64 v fun s => s.takeReleased t v := if_neg (by simp [hq])

section
variable {d : Nat} (hv : (v + 2 ^ 32 - (s.getChan t).rd) % 2 ^ 32 = d)
include hv

theorem State.takeRd_same (h0 : d = 0) : s.takeRd t v = s := if_pos (hv.trans h0)

theorem State.takeRd_rises (h0 : d ≠ 0) (h64 : v % 64 = 0) (hd : d ≤ ((s.getChan t).wr + 2 ^ 32 - (s.getChan t).rd) % 2 ^ 32) :
    s.takeRd t v = s.modChan t fun x => { x with rd := v, serial := x.serial + 1 } := by
  subst hv
  exact (if_neg h0).trans (if_neg (by omega))

theorem State.takeRd_ignores (h0 : d ≠ 0) (h : v % 64 ≠ 0 ∨ ((s.getChan t).wr + 2 ^ 32 - (s.getChan t).rd) % 2 ^ 32 < d) :
    s.takeRd t v = s.badRd t := by
  subst hv
  exact (if_neg h0).trans (if_pos h)

theorem State.takeReleased_same (h0 : d = 0) : s.takeReleased t v = s := if_pos (hv.trans h0)

theorem State.takeReleased_rises (h0 : d ≠ 0) (hd : d ≤ (s.getChan t).unreleased) :
    s.takeReleased t v =
      (s.each (List.range (min d 2)) fun u i => u.zeroAcc t ((s.getChan t).rd + i)).modChan t fun x =>
        { x with rd := v, serial := x.serial + 1 } := by
  subst hv
  exact (if_neg h0).trans (if_neg (Nat.not_lt.2 hd))

theorem State.takeReleased_ignores (hd : (s.getChan t).unreleased < d) : s.takeReleased t v = s.badRd t := by
  subst hv
  exact (if_neg (Nat.ne_zero_of_lt hd)).trans (if_pos hd)

end

section
variable {d : Nat} (hv : (v + 2 ^ 32 - (s.getChan t).cdone) % 2 ^ 32 = d)
include hv

theorem State.takeCdone_rises (h0 : d ≠ 0) (hd : d ≤ (s.getChan t).comp.length) :
    s.takeCdone t v = (s.modChan t fun x => { x with cdone := v }).dropComp t d := by
  subst hv
  exact (if_neg h0).trans (if_neg (Nat.not_lt.2 hd))

theorem State.takeCdone_ignores (hd : (s.getChan t).comp.length < d) : s.takeCdone t v = s.badRd t := by
  subst hv
  exact (if_neg (Nat.ne_zero_of_lt hd)).trans (if_pos hd)

end

end

/-! ## The scan of the wait graph -/

section
variable {s : State} {h : Nat}

/-- In a device that is not split a steward scans every edge (R347, R463). -/
theorem State.scanEdges_whole (hs : s.isSplit = false) :
    s.scanEdges h = s.edges.map fun e => { e with serial := (s.getChan e.target).serial } := by
  simp [State.scanEdges, hs]

/-- A scan in which no edge stands as before confirms no cycle (R347). -/
theorem State.waitScan_unstable (hn : ∀ e ∈ s.scanEdges h, (mget s.oldEdges h).contains e = false) :
    s.waitScan h = { s with oldEdges := mput s.oldEdges h (s.scanEdges h) } := by
  have hstable : ((s.scanEdges h).filter fun e => (mget s.oldEdges h).contains e) = [] :=
    List.filter_eq_nil_iff.2 fun e he => by simp only [hn e he, Bool.false_eq_true, not_false_eq_true]
  simp only [State.waitScan, hstable, State.each_nil]

end

/-- Settles O26: each operation's case, under the conditions that lead to it. -/
theorem messageCommandsHaveTheirEffects : Obligations.MessageCommandsHaveTheirEffects := by
  refine ⟨?target, ?handle, ?request, ?grant, ?publish, ?consumer, ?edge, ?scan⟩
  case target =>
    intro s req c n v
    refine ⟨fun hn hr hc => ⟨fun he => ?_, fun he => ?_⟩, fun hn hr hc => ⟨fun he => ?_, fun he => ?_⟩⟩
    · exact congrArg Host.Outcome.next ((if_pos hn).trans ((State.cmdWrite_mqChCfg hr (withEn_mod v true)).trans
        (State.unitWrite_enable hc he (withEn_testBit_zero v true))))
    · exact congrArg Host.Outcome.next ((if_pos hn).trans ((State.cmdWrite_mqChCfg hr (withEn_mod v false)).trans
        ((State.unitWrite_disable hc he (withEn_testBit_zero v false)).trans (State.tkStop_channel c.isLt hn he))))
    · exact congrArg Host.Outcome.next ((if_neg (Nat.not_lt.2 hn)).trans ((State.cmdWrite_mqQCfg hr (withEn_mod v true)).trans
        (State.unitWrite_enable hc he (withEn_testBit_zero v true))))
    · exact congrArg Host.Outcome.next ((if_neg (Nat.not_lt.2 hn)).trans ((State.cmdWrite_mqQCfg hr (withEn_mod v false)).trans
        ((State.unitWrite_disable hc he (withEn_testBit_zero v false)).trans (State.tkStop_queue c.isLt (by omega) he))))
  case handle =>
    intro s req c n v hr hc he
    exact congrArg Host.Outcome.next ((State.cmdWrite_mqShCfg hr (withEn_mod v true)).trans
      (State.unitWrite_enable hc he (withEn_testBit_zero v true)))
  case request =>
    intro s at' slot p key x hp hh hl hst hf ht
    have harrived : exec (.mqRequestReceive at' slot .ok) s = .next (s.msgRequest key x p .ok) :=
      congrArg Host.Outcome.next (State.requestReceive_arrived rfl hp hh hl hst hf ht)
    refine ⟨fun hc => ?discarded, fun hc htk => ?untargeted,
      fun t hc htk hq hpart hrcv hs => ⟨fun hlen => ?held, fun hlen => ?long⟩⟩
    case discarded => exact harrived.trans (congrArg Host.Outcome.next (State.msgRequest_discards hc))
    case untargeted => exact harrived.trans (congrArg Host.Outcome.next (State.msgRequest_untargeted hc htk))
    case held =>
      have hcode : s.msgCode x t = 0 := (State.msgCode_channel hq hpart hrcv hs).trans (if_neg (Nat.not_lt.2 hlen))
      exact harrived.trans (congrArg Host.Outcome.next (State.msgRequest_holds hc htk hcode))
    case long =>
      have hcode : s.msgCode x t = 0x0910 := (State.msgCode_channel hq hpart hrcv hs).trans (if_pos hlen)
      have hrefused := State.msgRequest_refuses (key := key) hc htk (by rw [hcode]; decide)
      exact harrived.trans (congrArg Host.Outcome.next (by rw [hrefused, hcode]))
  case grant =>
    intro s c n r t x hon hr pos tail used
    have hh : tkHost t = false := tkHost_cluster c.isLt (by omega)
    have hq : tkQueue t = false := tkQueue_channel n.isLt
    refine ⟨fun ht hu => ?fits, fun ht hu => ?skips, fun hu => ?waits⟩
    case fits =>
      have hplace : (s.getChan t).place (s.tkSize t) r.foot = some (pos, 0) := Chan.place_fits ht hu
      exact congrArg Host.Outcome.next ((State.placementGrant_places hh hq hon hr hplace).trans
        (congrArg (State.grantReq · t r.key 1 pos) (s.reserve_whole t r.foot pos)))
    case skips =>
      have hplace : (s.getChan t).place (s.tkSize t) r.foot = some (0, tail) := Chan.place_skips ht hu
      exact congrArg Host.Outcome.next (State.placementGrant_places hh hq hon hr hplace)
    case waits => exact congrArg Host.Outcome.next (State.placementGrant_waits hh hq hon hr (Chan.place_waits hu))
  case publish =>
    intro s at' t r key x ht hl hf hd
    have h : s.Pends key t r := ⟨ht, hl, hf⟩
    refine ⟨fun hst hc => ?wakes, fun hst hc hq => ?spills, fun hst hq => ?places, fun hst hq => ?late⟩
    case wakes => exact congrArg Host.Outcome.next ((State.publish_arrived h hd).trans ((if_pos hst).trans (if_pos hc)))
    case spills =>
      refine congrArg Host.Outcome.next ((State.publish_arrived h hd).trans ((if_pos hst).trans ((if_neg (by simp [hc])).trans ?_)))
      rw [hq]
      rfl
    case places =>
      exact congrArg Host.Outcome.next ((State.publish_arrived h hd).trans ((if_neg (by omega)).trans (if_pos ⟨hst, hq⟩)))
    case late =>
      exact congrArg Host.Outcome.next ((State.contributionAdd_arrived h hd hq).trans ((if_neg (by omega)).trans (if_pos hst)))
  case consumer =>
    intro s c n v t u w d e hon hdom hrd hcd
    have hh : tkHost t = false := tkHost_cluster c.isLt (by omega)
    have hq : tkQueue t = false := tkQueue_channel n.isLt
    have hcl : tkCluster t = c.val := tkCluster_target (by omega)
    have hwrd : exec (.mqRdWrite (.channel c n) v) s = .next (u.takeRd t v.toNat) :=
      congrArg Host.Outcome.next ((State.writeRd_channel hh hq).trans (State.consumerWrite_awake hcl hdom hrd hon))
    have hwcd : exec (.mqCdoneWrite (.channel c n) v) s = .next (w.takeCdone t v.toNat) :=
      congrArg Host.Outcome.next ((State.writeCdone_channel hh hq).trans (State.consumerWrite_awake hcl hdom hcd hon))
    refine ⟨fun h0 h64 hd => ?_, fun h0 hbad => ?_, fun h0 => ?_, fun h0 hd => ?_, fun hd => ?_⟩
    · exact hwrd.trans (congrArg Host.Outcome.next (State.takeRd_rises rfl h0 h64 hd))
    · exact hwrd.trans (congrArg Host.Outcome.next ((State.takeRd_ignores (s := u) rfl h0 hbad).trans (State.badRd_cluster hcl hh)))
    · exact hwrd.trans (congrArg Host.Outcome.next (State.takeRd_same rfl h0))
    · exact hwcd.trans (congrArg Host.Outcome.next (State.takeCdone_rises rfl h0 hd))
    · exact hwcd.trans (congrArg Host.Outcome.next ((State.takeCdone_ignores (s := w) rfl hd).trans (State.badRd_cluster hcl hh)))
  case edge =>
    intro s at' t r key x ht hl hf hst he u
    exact congrArg Host.Outcome.next (State.edgeRegister_waits ⟨ht, hl, hf⟩ hst he)
  case scan =>
    intro s h hs now hn
    have hnow : s.scanEdges h.val = now := State.scanEdges_whole hs
    exact congrArg Host.Outcome.next ((State.waitScan_unstable (by rw [hnow]; exact hn)).trans (by rw [hnow]))

end Sys2Proof.Machine
end

section
/-! What contributions, releases and drains of a combining queue do (R342 to R345, R351, R374): one equation for each case of an
operation. -/

namespace Sys2Proof.Machine

/-! ## Contributions -/

section
variable {s : State} {t : Nat}

/-- A contribution of a round that still takes some (R342) is added, and the EXPECT-th closes the round (R343, R344). -/
theorem State.contribute_adds {bs : List Byte} (h0 : s.roundFate t (leNat ((bs.drop 4).take 4)) = 0) :
    s.contribute t bs =
      let n := leNat (bs.take 2)
      let off := leNat ((bs.drop 2).take 2)
      let r := leNat ((bs.drop 4).take 4)
      let u := s.each (List.range n) fun u k => u.addElem t r (off + k) (leNat ((bs.drop (16 + k * s.qWidth t)).take (s.qWidth t)))
      let u := (u.unitReads t (u.qAccAt t r off) (8 * n)).unitWrites t (u.qAccAt t r off) (8 * n)
      let u := (u.bump .MQ_QCONTRIB [tkCluster t]).modChan t fun x => x.setCnt r (x.cnt r + 1)
      if (u.getChan t).cnt r = u.qExpect t then u.closeRound t r else u := if_neg (not_not.2 h0)

/-- An element's addition changes its accumulator, and counts a NaN and a clamped value (R343). -/
theorem State.addElem_eq (r j x : Nat) :
    s.addElem t r j x =
      let q := combineQ (s.fld .MQ_Q_CFG [tkCluster t, tkIndex t] MQ_Q_CFG_FRAC) (decodeIn (s.qIn t) x)
      let u := s.pokeLE (s.qAccAt t r j) 8 (wrapInt 64 ((s.peekLE (s.qAccAt t r j) 8 : Int) + q.1))
      let u := if q.2.1 = true then u.bump .MQ_QNAN [tkCluster t] else u
      if q.2.2 = true then u.bump .MQ_QSAT [tkCluster t] else u := rfl

end

/-! ## Releases -/

@[simp] theorem Chan.setCnt_rd (x : Chan) (r n : Nat) : (x.setCnt r n).rd = x.rd := by
  unfold Chan.setCnt
  split <;> rfl

@[simp] theorem State.unitWrites_chan (s : State) (t a n : Nat) : (s.unitWrites t a n).chan = s.chan := by
  unfold State.unitWrites
  split <;> rfl

/-- Zeroing a buffer leaves RELEASED. -/
theorem State.zeroAcc_rd (s : State) (t r : Nat) : ((s.zeroAcc t r).getChan t).rd = (s.getChan t).rd := by
  simp [State.zeroAcc, State.getChan]

/-- While buffers are zeroed RELEASED stands, so that each one may be found from it. -/
theorem State.each_zeroAcc_rd (t rd : Nat) (l : List Nat) (s : State) (h : (s.getChan t).rd = rd) :
    (s.each l fun u i => u.zeroAcc t (rd + i)) = s.each l fun u i => u.zeroAcc t ((u.getChan t).rd + i) := by
  induction l generalizing s with
  | nil => simp only [State.each_nil]
  | cons i l ih => simp only [State.each_cons, ih _ ((s.zeroAcc_rd t (rd + i)).trans h), h]

/-! ## Spilled contributions -/

theorem State.compRead_chan (s : State) (t i n : Nat) (meets : LineFate) : (s.compRead t i n meets).chan = s.chan :=
  (State.compRead_keeps (Keeps.refl 4303356034 s) t i n meets (by decide)).same .chan (by decide)

/-- The only entry of a chain leaves it without a link to write (R349). -/
theorem State.unlinkEntry_only {s : State} {t : Nat} {e : Nat × Nat × Nat} (hc : (s.getChan t).comp = [e]) :
    s.unlinkEntry t e = (s.freeSlot t e.1).modTk t fun x => { x with comp := x.comp.erase e } := by
  have hfirst : [e].takeWhile (· != e) = [] := by simp
  simp only [State.unlinkEntry, hc, hfirst, List.getLast?_nil]

section
variable {s : State} {t i foot sender : Nat} {meets : LineFate} (hq : tkQueue t = true) (hc : (s.getChan t).comp = [(i, foot, sender)])
  (hf : s.roundFate t (s.peekLE (s.slotAt t i + 68) 4) ≠ 1)
include hq hc hf

/-- The one spilled contribution of a queue, whose round no longer waits, drains where its slot is reached and reads sound (R351, R374). -/
theorem State.queueDrain_one :
    s.queueDrain t meets =
      if s.compReached t i = false then s.dmWake (s.slotAt t i) 4160
      else if meets.badIn (s.slotAt t i) (64 + foot) = true then s.compRead t i (64 + foot) meets
      else ((s.compRead t i (64 + foot) meets).unlinkEntry t (i, foot, sender)).contribute t (s.peekN (s.slotAt t i + 64) foot) := by
  have hfind : ((s.getChan t).comp.find? fun e => s.roundFate t (s.peekLE (s.slotAt t e.1 + 68) 4) != 1) = some (i, foot, sender) := by
    simp [hc, hf]
  simp only [State.queueDrain, hq, hfind, Bool.not_true, Bool.false_eq_true, if_false, Bool.not_eq_true']

theorem State.queueDrain_adds (hr : s.compReached t i = true) (hb : meets.badIn (s.slotAt t i) (64 + foot) = false) :
    s.queueDrain t meets =
      (((s.compRead t i (64 + foot) meets).freeSlot t i).modTk t fun x => { x with comp := x.comp.erase (i, foot, sender) }).contribute t
        (s.peekN (s.slotAt t i + 64) foot) := by
  have hread : ((s.compRead t i (64 + foot) meets).getChan t).comp = [(i, foot, sender)] := by
    rw [State.getChan, State.compRead_chan, ← State.getChan, hc]
  rw [State.queueDrain_one hq hc hf, if_neg (by simp [hr]), if_neg (by simp [hb]), State.unlinkEntry_only hread]

end

/-- Settles O27: each operation's case, under the conditions that lead to it. -/
theorem combiningQueueCommandsHaveTheirEffects : Obligations.CombiningQueueCommandsHaveTheirEffects := by
  refine ⟨?contribution, ?element, ?released, ?drain⟩
  case contribution =>
    intro s at' t r key x ht hl hq hf hd hst n off round w h0
    exact congrArg Host.Outcome.next ((State.contributionAdd_arrived ⟨ht, hl, hf⟩ hd hq).trans ((if_pos hst).trans
      (congrArg (State.ackReq · key) (State.contribute_adds h0))))
  case element =>
    intro s t round j x q u
    refine ⟨fun hnan hsat => ?_, fun hnan hsat => ?_, fun hnan hsat => ?_⟩
    · exact (State.addElem_eq round j x).trans ((if_neg (by simp [q, hsat])).trans (if_neg (by simp [q, hnan])))
    · exact (State.addElem_eq round j x).trans ((if_neg (Bool.eq_false_iff.1 hsat)).trans (if_pos hnan))
    · exact (State.addElem_eq round j x).trans ((if_pos hsat).trans
        (congrArg (State.bump · .MQ_QSAT [tkCluster t]) (if_neg (Bool.eq_false_iff.1 hnan))))
  case released =>
    intro s c n v t u d hdom
    have hh : tkHost t = false := tkHost_queue c.isLt n.isLt
    have hq : tkQueue t = true := tkQueue_queue c.isLt n.isLt
    have hcl : tkCluster t = c.val := tkCluster_queue n.isLt
    refine ⟨fun ha => ?asleep, fun hon ha => ?awake⟩
    case asleep =>
      exact congrArg Host.Outcome.next ((State.writeReleased_queue hq).trans
        (State.consumerWrite_asleep hcl hdom ha))
    case awake =>
      have hwr : exec (.mqReleasedWrite (.queue c n) v) s = .next (u.takeReleased t v.toNat) :=
        congrArg Host.Outcome.next ((State.writeReleased_queue hq).trans (State.consumerWrite_awake hcl hdom ha hon))
      refine ⟨fun h0 hd => ?_, fun hd => ?_, fun h0 => ?_⟩
      · refine hwr.trans (congrArg Host.Outcome.next ((State.takeReleased_rises (s := u) rfl h0 hd).trans ?_))
        exact congrArg (State.modChan · t _) (State.each_zeroAcc_rd t _ _ u rfl)
      · exact hwr.trans (congrArg Host.Outcome.next ((State.takeReleased_ignores (s := u) rfl hd).trans
          (State.badRd_cluster hcl hh)))
      · exact hwr.trans (congrArg Host.Outcome.next (State.takeReleased_same rfl h0))
  case drain =>
    intro s c n i foot sender meets t u hc hf
    have hq : tkQueue t = true := tkQueue_queue c.isLt n.isLt
    refine ⟨fun hr => ?_, fun hr hb => ?_, fun hr hb => ?_⟩
    · exact congrArg Host.Outcome.next ((State.queueDrain_one hq hc hf).trans (if_pos hr))
    · exact congrArg Host.Outcome.next ((State.queueDrain_one hq hc hf).trans ((if_neg (by simp [hr])).trans (if_pos hb)))
    · exact congrArg Host.Outcome.next (State.queueDrain_adds hq hc hf hr hb)

end Sys2Proof.Machine
end

section
/-! What host writes, control words and the link commands of a gate port do (R396 to R401, R403, R404, R419, R434): one equation for each
case of an operation. -/

namespace Sys2Proof.Machine

/-! ## What the count of host writes leaves -/

section
variable {s : State} {n : Nat}

/-- The count of a port's host writes leaves every register that lies below the ports' counters. -/
theorem State.rd_hostWrite {r : Reg} {idx : List Nat} (h : r.addr idx < 0xFE03004000) : (s.bump .GP_HWR [n]).rd r idx = s.rd r idx := by
  have haddr : Reg.addr .GP_HWR [n] = 0xFE03004008 + (n * 0x100 + 0) := rfl
  exact s.rd_wr_ne .GP_HWR [n] _ (by omega)

theorem State.partOfPort_hostWrite {k : Nat} (hk : k < 8) : (s.bump .GP_HWR [n]).partOfPort k = s.partOfPort k := by
  have haddr : Reg.addr .GP_MAP [k] = 0xFE03001000 + (k * 0x200 + 0) := rfl
  have hrd := State.rd_hostWrite (s := s) (n := n) (r := .GP_MAP) (idx := [k]) (by omega)
  have hen : (s.bump .GP_HWR [n]).bit .GP_MAP [k] GP_MAP_EN = s.bit .GP_MAP [k] GP_MAP_EN := congrArg (GP_MAP_EN.get · == 1) hrd
  have hpart : (s.bump .GP_HWR [n]).fld .GP_MAP [k] GP_MAP_PART = s.fld .GP_MAP [k] GP_MAP_PART := congrArg GP_MAP_PART.get hrd
  rw [State.partOfPort, hen, hpart, ← State.partOfPort]

theorem State.pcfg_hostWrite {k : Nat} (hk : k < 8) (f : Fld) : (s.bump .GP_HWR [n]).bit .GP_PCFG [k] f = s.bit .GP_PCFG [k] f := by
  have haddr : Reg.addr .GP_PCFG [k] = 0xFE03001004 + (k * 0x200 + 0) := rfl
  exact congrArg (f.get · == 1) (State.rd_hostWrite (by omega))

end

/-! ## Lines of the host -/

section
variable {s : State} {n o : Nat} {bs : List Byte}

/-- A line of the trays or rings of a bound port goes to its staging (R401). -/
theorem State.apertureWrite_stores (h1 : 0x10000 ≤ o) (h2 : o < 0x510000) (hb : (s.partOfPort n).isSome = true) :
    s.apertureWrite n o bs = s.stagPoke n o bs := by
  have hend : ¬o ≥ bulkEnd := by unfold bulkEnd; omega
  have hbulk : o < bulkBase := by unfold bulkBase; omega
  have hbelow (b : Bool) {k : Nat} (hk : o < k) : (b && decide (k ≤ o)) = false := by
    rw [decide_eq_false (Nat.not_le.2 hk), Bool.and_false]
  have hrings : (decide (0x510000 ≤ o) && decide (o < bulkBase)) = false := by rw [decide_eq_false (Nat.not_le.2 h2), Bool.false_and]
  simp only [State.apertureWrite, if_neg (Nat.not_lt.2 h1), if_neg hend, hbelow _ hbulk, hbelow _ (by omega : o < 0xF00000), hrings,
    Option.isNone_eq_false_iff.2 hb, Bool.or_self, Bool.false_eq_true, if_false]

theorem State.apertureWrite_outside (h : bulkEnd ≤ o) : s.apertureWrite n o bs = s.bump .GP_OOR [n] := by
  refine (if_neg ?_).trans (if_pos h)
  unfold bulkEnd at h
  omega

section
variable {err : Nat} (hon : s.portOn n = true) (hl : s.link n = lnkService)
include hon hl

theorem State.hostLine_sound (he : err = 0) : s.hostLine n o bs err = (s.bump .GP_HWR [n]).apertureWrite n (o / 64 * 64) bs := by
  simp [State.hostLine, hon, hl, he]

/-- A line with an uncorrectable error is dropped under WCHK (R398). -/
theorem State.hostLine_uncorrectable (he : err = 2) (hw : (s.bump .GP_HWR [n]).bit .GP_PCFG [n] GP_PCFG_WCHK = true) :
    s.hostLine n o bs err = (s.bump .GP_HWR [n]).bump .GP_WUNCORR [n] := by
  simp [State.hostLine, hon, hl, he, hw]

end

end

/-! ## Control words -/

/-- A value ahead of the present one by less than 2^31, within a limit (R404). -/
theorem ahead_within {v now lim : Nat} (h0 : (v + 2 ^ 32 - now) % 2 ^ 32 ≠ 0) (h1 : (v + 2 ^ 32 - now) % 2 ^ 32 < 2 ^ 31)
    (h2 : (v + 2 ^ 32 - now) % 2 ^ 32 ≤ lim) : ahead v now lim = true := by
  simp only [ahead, bne_iff_ne.2 h0, decide_eq_true h1, decide_eq_true h2, Bool.and_self]

section
variable {s : State} {n v : Nat}

/-- A control word of a port that is on and in service counts as a host write (R403). -/
theorem State.hostCtrl_serves (hon : s.portOn n = true) (hl : s.link n = lnkService) (f : State → State) :
    s.hostCtrl n f = f (s.bump .GP_HWR [n]) := if_pos (by simp [hon, hl])

theorem State.hcCrd_takes {t : Nat} (hv : v ≠ mget (s.getGp n).crd t)
    (ha : ahead v (mget (s.getGp n).crd t) ((mget (s.getGp n).done t + 2 ^ 32 - mget (s.getGp n).crd t) % 2 ^ 32) = true) :
    s.hcCrd n t v = s.modGp n fun g => { g with crd := mput g.crd t v } := (if_neg hv).trans (if_pos ha)

theorem State.hcEvinWr_takes (hv : v ≠ (s.getGp n).evWr) (ha : ahead v (s.getGp n).evWr (2 ^ 31) = true) (h16 : v % 16 = 0)
    (hd : (v + 2 ^ 32 - (s.getGp n).evRd) % 2 ^ 32 ≤ 2 ^ 22) : s.hcEvinWr n v = s.modGp n fun g => { g with evWr := v } :=
  (if_neg hv).trans (if_pos (by rw [ha, h16, decide_eq_true hd]; rfl))

theorem State.hcEvinWr_misaligned (hv : v ≠ (s.getGp n).evWr) (h16 : v % 16 ≠ 0) : s.hcEvinWr n v = s.badCw n :=
  (if_neg hv).trans (if_neg (by simp [h16]))

/-- HC_RD is a host channel's RD (R331, R404). -/
theorem State.hcRd_takes {ch : Nat} (hon : s.tkOn (0x10000 + n * 16 + ch) = true) (hv : v ≠ (s.getChan (0x10000 + n * 16 + ch)).rd)
    (ha : ahead v (s.getChan (0x10000 + n * 16 + ch)).rd
      (((s.getChan (0x10000 + n * 16 + ch)).wr + 2 ^ 32 - (s.getChan (0x10000 + n * 16 + ch)).rd) % 2 ^ 32) = true)
    (h64 : v % 64 = 0) : s.hcRd n ch v = s.takeRd (0x10000 + n * 16 + ch) v :=
  (if_neg hv).trans (if_pos (by rw [hon, ha, h64]; rfl))

theorem State.hcEvdone_takes {b : Nat} (hv : v ≠ mget (s.getGp n).evDone b) (ha : ahead v (mget (s.getGp n).evDone b) (2 ^ 31) = true) :
    s.hcEvdone n b v = s.modGp n fun g => { g with evDone := mput g.evDone b v, evSnap := mput g.evSnap b g.evWr } :=
  (if_neg hv).trans (if_pos ha)

/-- The count of host writes leaves the enable bits of the host channels. -/
theorem State.tkOn_hostWrite {ch : Nat} (hn : n < 8) (hch : ch < 16) :
    (s.bump .GP_HWR [n]).tkOn (0x10000 + n * 16 + ch) = s.tkOn (0x10000 + n * 16 + ch) := by
  have hh : tkHost (0x10000 + n * 16 + ch) = true := decide_eq_true (by omega)
  have hp : tkPort (0x10000 + n * 16 + ch) = n := by unfold tkPort; omega
  have hi : tkIndex (0x10000 + n * 16 + ch) = ch := by rw [tkIndex, if_pos (by omega)]; omega
  have haddr : Reg.addr .GP_HC_CFG [n, ch] = 0xFE03001080 + (n * 0x200 + (ch * 0x4 + 0)) := rfl
  simp only [State.tkOn, hh, hp, hi, if_true]
  exact congrArg (GP_HC_CFG_EN.get · == 1) (State.rd_hostWrite (by omega))

end

/-! ## The link -/

section
variable {s : State} {n : Nat}

/-- A link that waits or trains serves nothing that its disabling would end (R398, R400). -/
theorem State.linkDisable_unserved (h : s.link n = lnkWait ∨ s.link n = lnkTraining) (code : Nat) :
    s.linkDisable n code =
      let u := ((s.setFld .GP_PSTATUS [n] GP_PSTATUS_STATE lnkDisabled).setFld .GP_PSTATUS [n] GP_PSTATUS_REASON code).setFld
        .GP_PSTATUS [n] GP_PSTATUS_RATE 0
      (u.post (u.partOfPort n) 9 n 0xFFFF code).modGp n fun g => { g with step := 0, reps := 0, failed := false } := by
  refine if_neg ?_
  rcases h with h | h <;> simp [h, lnkWait, lnkTraining, lnkService, lnkSelf]

theorem State.gpRetry_disabled (hl : s.link n = lnkDisabled) :
    s.gpRetry n = (s.setFld .GP_PSTATUS [n] GP_PSTATUS_STATE lnkWait).setFld .GP_PSTATUS [n] GP_PSTATUS_REASON 0 := if_pos hl

theorem State.cmdWrite_gpRetry {req : Requester} (hr : s.Reached req .GP_PCTRL [n]) (hw : s.mapWriter req = true) :
    s.cmdWrite req .GP_PCTRL [n] 1 = s.gpRetry n := by
  rw [State.cmdWrite_reached32 hr rfl rfl rfl]
  exact congrArg Prod.snd (if_pos hw)

section
variable (hon : s.portOn n = true)
include hon

/-- A passing step after a passing result, or the first one, leaves the port TRAINING (R400). -/
theorem State.trainStep_passes {kind : Nat} (hl : s.link n = lnkWait ∨ s.link n = lnkTraining)
    (hf : (s.getGp n).step = 0 ∨ (s.getGp n).failed = false) :
    s.trainStep n kind true =
      ((s.modGp n fun g => { g with step := kind + 1, reps := 0, failed := false }).setFld .GP_PSTATUS [n] GP_PSTATUS_STATE
        lnkTraining).setFld .GP_PSTATUS [n] GP_PSTATUS_RATE 0 := by
  have hstep : ¬((s.getGp n).step ≠ 0 ∧ (s.getGp n).step ≠ kind + 1 ∧ (s.getGp n).failed = true) := by
    rcases hf with h | h <;> simp [h]
  rcases hl with hl | hl <;> simp [State.trainStep, State.setLink, hon, hl, hstep, lnkWait, lnkTraining, lnkService]

section
variable (hl : s.link n = lnkTraining)
include hl

/-- A trained port goes into SERVICE at the rate that the mode register names (R396, R399). -/
theorem State.modeWrite_serves {rate : Nat} (h1 : 1 ≤ rate) (h3 : rate ≤ 3) (hf : (s.getGp n).failed = false) :
    s.modeWrite n rate true true =
      ((s.modGp n fun g => { g with step := 0, reps := 0 }).setFld .GP_PSTATUS [n] GP_PSTATUS_STATE lnkService).setFld
        .GP_PSTATUS [n] GP_PSTATUS_RATE rate := by
  simp [State.modeWrite, State.setLink, hon, hl, hf, Nat.not_lt.2 h3, Nat.ne_zero_of_lt h1]

theorem State.modeWrite_unsupported (rate : Nat) (service : Bool) :
    s.modeWrite n rate false service = s.linkDisable n 0x0C23 := by
  simp [State.modeWrite, hon, hl]

end

theorem State.selfRefresh_enters (hl : s.link n = lnkService ∨ s.link n = lnkWait ∨ s.link n = lnkTraining) :
    s.selfRefresh n true = (s.setFld .GP_PSTATUS [n] GP_PSTATUS_STATE lnkSelf).modGp n fun g => { g with srFrom := s.link n } :=
  (if_neg (by simp [hon])).trans (if_pos (by simpa [or_assoc] using hl))

/-- Self refresh is left to the state it was entered from (log entry 154). -/
theorem State.selfRefresh_leaves (hl : s.link n = lnkSelf) :
    s.selfRefresh n false =
      (s.setFld .GP_PSTATUS [n] GP_PSTATUS_STATE (s.getGp n).srFrom).modGp n fun g => { g with srFrom := 0 } :=
  (if_neg (by simp [hon])).trans ((if_neg (by simp)).trans (if_pos (by simp [hl])))

theorem State.clockTimeout_waiting (hl : s.link n = lnkWait) : s.clockTimeout n = s.linkDisable n 0x0C20 := if_pos (by simp [hon, hl])

end

end

/-- Settles O29: each operation's case, under the conditions that lead to it. -/
theorem hostLinkCommandsHaveTheirEffects : Obligations.HostLinkCommandsHaveTheirEffects := by
  refine ⟨?line, ?control, ?training, ?mode, ?link, ?retry⟩
  case line =>
    intro s n off line err hon hl u o
    have hline : o / 64 * 64 = o := by omega
    have hsound (he : err = 0) : exec (.hostLineWrite n off line err) s = .next (u.apertureWrite n.val o (leBytes 64 line.toNat)) :=
      congrArg Host.Outcome.next ((State.hostLine_sound hon hl (congrArg Fin.val he)).trans (by rw [hline]))
    refine ⟨fun he h1 h2 hb => ?_, fun he ho => ?_, fun he hw => ?_⟩
    · exact (hsound he).trans
        (congrArg Host.Outcome.next (State.apertureWrite_stores h1 h2 ((congrArg _ (State.partOfPort_hostWrite n.isLt)).trans hb)))
    · exact (hsound he).trans (congrArg Host.Outcome.next (State.apertureWrite_outside ho))
    · exact congrArg Host.Outcome.next
        (State.hostLine_uncorrectable hon hl (congrArg Fin.val he) ((State.pcfg_hostWrite n.isLt _).trans hw))
  case control =>
    intro s n hon hl g q dist
    have hserves (f : State → State) : s.hostCtrl n.val f = f q := State.hostCtrl_serves hon hl f
    refine ⟨?crd, ?evinWr, ?evinWrBad, ?rd, ?evdone⟩
    case crd =>
      intro t v h0 h1 h2 hv
      exact congrArg Host.Outcome.next ((hserves _).trans (State.hcCrd_takes hv (ahead_within h0 h1 h2)))
    case evinWr =>
      intro v hv h0 h1 h16 hd
      exact congrArg Host.Outcome.next ((hserves _).trans (State.hcEvinWr_takes hv (ahead_within h0 h1 (Nat.le_of_lt h1)) h16 hd))
    case evinWrBad => exact fun v hv h16 => congrArg Host.Outcome.next ((hserves _).trans (State.hcEvinWr_misaligned hv h16))
    case rd =>
      intro ch v t x hon hv h0 h1 hd h64
      exact congrArg Host.Outcome.next ((hserves _).trans ((State.hcRd_takes ((State.tkOn_hostWrite n.isLt ch.isLt).trans hon) hv
        (ahead_within h0 h1 hd) h64).trans (State.takeRd_rises rfl h0 h64 hd)))
    case evdone =>
      intro b v hv h0 h1
      exact congrArg Host.Outcome.next ((hserves _).trans (State.hcEvdone_takes hv (ahead_within h0 h1 (Nat.le_of_lt h1))))
  case training => exact fun s n kind hon hl hf => congrArg Host.Outcome.next (State.trainStep_passes hon hl hf)
  case mode =>
    intro s n rate hon hl
    refine ⟨fun h1 h3 hf => ?_, fun service => ?_⟩
    · exact congrArg Host.Outcome.next (State.modeWrite_serves hon hl h1 h3 hf)
    · exact congrArg Host.Outcome.next ((State.modeWrite_unsupported hon hl rate service).trans
        (State.linkDisable_unserved (Or.inr hl) 0x0C23))
  case link =>
    intro s n hon
    refine ⟨fun hl => ?_, fun hl => ?_, fun hl => ?_⟩
    · exact congrArg Host.Outcome.next (State.selfRefresh_enters hon hl)
    · exact congrArg Host.Outcome.next (State.selfRefresh_leaves hon hl)
    · exact congrArg Host.Outcome.next ((State.clockTimeout_waiting hon hl).trans (State.linkDisable_unserved (Or.inl hl) 0x0C20))
  case retry =>
    intro s req n hr hw hl
    exact congrArg Host.Outcome.next ((State.cmdWrite_gpRetry hr hw).trans (State.gpRetry_disabled hl))

end Sys2Proof.Machine
end

section
/-! What the commands of the banks, the arbiters and the LPDDR channels do (R364, R367 to R369, R372, R377, R384 to R389): one equation for
each case of an operation. -/

namespace Sys2Proof.Machine

/-! ## Folds that one place changes -/

theorem State.each_fixed {α : Type} {f : State → α → State} {l : List α} {s : State} (h : ∀ x ∈ l, f s x = s) : s.each l f = s := by
  induction l with
  | nil => rfl
  | cons x t ih => rw [State.each_cons, h x List.mem_cons_self, ih fun y hy => h y (List.mem_cons_of_mem x hy)]

/-- A fold over distinct places of which one alone changes the state, before its change and after it. -/
theorem State.each_changesOne {α : Type} {f : State → α → State} {l : List α} {s : State} {a : α} (ha : a ∈ l) (hl : l.Nodup)
    (hs : ∀ x ∈ l, x ≠ a → f s x = s) (hf : ∀ x ∈ l, x ≠ a → f (f s a) x = f s a) : s.each l f = f s a := by
  induction l with
  | nil => exact absurd ha List.not_mem_nil
  | cons x t ih =>
    rw [List.nodup_cons] at hl
    rw [State.each_cons]
    by_cases hx : x = a
    · subst hx
      exact State.each_fixed fun y hy => hf y (List.mem_cons_of_mem x hy) fun e => hl.1 (e ▸ hy)
    · rw [hs x List.mem_cons_self hx]
      exact ih ((List.mem_cons.1 ha).resolve_left (Ne.symm hx)) hl.2 (fun y hy => hs y (List.mem_cons_of_mem x hy))
        fun y hy => hf y (List.mem_cons_of_mem x hy)

/-! ## Ownership -/

section
variable {s : State} {req : Requester} {c b v : Nat}

theorem State.cmdWrite_bkOwn (hr : s.Reached req .BK_OWN [c, b]) (hv : v % 2 ^ 32 = v) :
    s.cmdWrite req .BK_OWN [c, b] v = s.bkOwnWrite c b v := by
  rw [State.cmdWrite_reached32 hr rfl rfl rfl, hv]
  rfl

theorem State.bkOwnWrite_starts (hh : s.inHandover c b = false) :
    s.bkOwnWrite c b v = (((s.modBk c b fun k => { k with prev := s.val .BK_OWN [c, b] }).setBkBit c b BK_STATUS_HANDOVER true).modBk c b
      fun k => { k with gen := k.gen + 1 }).setVal .BK_OWN [c, b] (v % 2 ^ 12) := by
  simp only [State.bkOwnWrite, hh, Bool.false_eq_true, if_false]

/-- A write during a handover replaces the new setting; the setting before the handover stays kept (R365). -/
theorem State.bkOwnWrite_replaces (hh : s.inHandover c b = true) :
    s.bkOwnWrite c b v = (s.modBk c b fun k => { k with gen := k.gen + 1 }).setVal .BK_OWN [c, b] (v % 2 ^ 12) := by
  simp only [State.bkOwnWrite, hh, if_true]

theorem State.bkHandoverEnd_ends (hh : s.inHandover c b = true) (hb : s.bankBusy c b = false) :
    s.bkHandoverEnd c b = (s.setBkBit c b BK_STATUS_HANDOVER false).modBk c b fun k => { k with prev := 0 } := if_pos (by simp [hh, hb])

/-! ## Retention -/

theorem State.cmdWrite_bkRet (hr : s.Reached req .BK_RET [c]) (hv : v % 2 ^ 32 = v) :
    s.cmdWrite req .BK_RET [c] v = s.bkRetWrite c v := by
  rw [State.cmdWrite_reached32 hr rfl rfl rfl, hv]
  rfl

theorem State.bkRetBit_same {x : Bool} (hx : x = (s.val .BK_RET [c]).testBit b) : s.bkRetBit c b x = s := by
  simp [State.bkRetBit, ← hx]

theorem State.bkRetBit_enters (hw : (s.val .BK_RET [c]).testBit b = false) (hh : s.bankHeld c b = false) :
    s.bkRetBit c b true = ((s.setVal .BK_RET [c] (setBits (s.val .BK_RET [c]) b 1 1)).setBkBit c b BK_STATUS_AWAKE false).modBk c b
      fun k => { k with waking := false } := by
  simp [State.bkRetBit, hw, hh]

theorem State.bkRetBit_refused (hw : (s.val .BK_RET [c]).testBit b = false) (hh : s.bankHeld c b = true) :
    s.bkRetBit c b true = s.bkPost c 0x0A04 := by
  simp [State.bkRetBit, hw, hh]

theorem State.bkRetBit_wakes (hw : (s.val .BK_RET [c]).testBit b = true) :
    s.bkRetBit c b false = (s.setVal .BK_RET [c] (setBits (s.val .BK_RET [c]) b 1 0)).modBk c b fun k => { k with waking := true } := by
  simp [State.bkRetBit, hw]

/-- A bit replaced in the number a register reads is a field of that one bit set. -/
theorem State.setVal_setBits (s : State) (r : Reg) (idx : List Nat) (n : Nat) :
    s.setVal r idx (setBits (s.val r idx) b 1 n) = s.setFld r idx ⟨b, b⟩ n := by
  simp only [State.setVal, State.setFld, State.val, setBits, Fld.set, Nat.add_sub_cancel_left]

theorem State.val_setFld_bit (s : State) (r : Reg) (idx : List Nat) (n : Nat) {k : Nat} (hk : k ≠ b) (h64 : k < 64) :
    ((s.setFld r idx ⟨b, b⟩ n).val r idx).testBit k = (s.val r idx).testBit k := by
  rw [State.val, State.setFld, State.rd_wr_same, Fld.set_testBit _ _ _ (Nat.le_refl b) h64]
  exact if_neg (by simp only; omega)

/-- The bits of BK_STATUS lie in a register of their own. -/
theorem State.rd_bkRet_setStatus (s : State) (c n : Nat) (f : Fld) : (s.setFld .BK_STATUS [c] f n).rd .BK_RET [c] = s.rd .BK_RET [c] := by
  have hret : Reg.addr .BK_RET [c] = 0xF00FA00020 + (c * 0x10000000 + 0) := rfl
  have hstatus : Reg.addr .BK_STATUS [c] = 0xF00FA00024 + (c * 0x10000000 + 0) := rfl
  exact s.rd_wr_ne .BK_STATUS [c] _ (by omega)

theorem State.rd_post (s : State) (part : Option Nat) (kind unit cluster code : Nat) (r : Reg) (idx : List Nat) :
    (s.post part kind unit cluster code).rd r idx = s.rd r idx := by
  rw [State.rd, (State.post_keeps (.refl 4294967296 s) part kind unit cluster code rfl).same .regs (by decide), ← State.rd]

theorem State.rd_bkRet_bkPost (s : State) (c code : Nat) : (s.bkPost c code).rd .BK_RET [c] = s.rd .BK_RET [c] :=
  (State.rd_post ..).trans (s.rd_bkRet_setStatus c code _)

/-- What one bank's bit of a write does leaves the bits of the other banks. -/
theorem State.bkRetBit_others (s : State) (c : Nat) (x : Bool) {k : Nat} (hk : k ≠ b) (h64 : k < 64) :
    ((s.bkRetBit c b x).val .BK_RET [c]).testBit k = (s.val .BK_RET [c]).testBit k := by
  cases x <;> cases hw : (s.val .BK_RET [c]).testBit b
  case false.false => rw [State.bkRetBit_same hw.symm]
  case true.true => rw [State.bkRetBit_same hw.symm]
  case false.true =>
    rw [State.bkRetBit_wakes hw, State.setVal_setBits]
    exact s.val_setFld_bit _ _ _ hk h64
  case true.false =>
    cases hh : s.bankHeld c b
    · rw [State.bkRetBit_enters hw hh, State.setVal_setBits, State.val, State.modBk_rd, State.setBkBit, State.rd_bkRet_setStatus]
      exact s.val_setFld_bit _ _ _ hk h64
    · rw [State.bkRetBit_refused hw hh, State.val, State.rd_bkRet_bkPost, ← State.val]

/-- A write of BK_RET that changes the bit of one bank at the most does what it does for that bank. -/
theorem State.bkRetWrite_oneBank (hb : b < 8)
    (h : ∀ k, k < 8 → k ≠ b → v.testBit k = (s.val .BK_RET [c]).testBit k) : s.bkRetWrite c v = s.bkRetBit c b (v.testBit b) :=
  State.each_changesOne (f := fun s b => s.bkRetBit c b (v.testBit b)) (List.mem_range.2 hb) List.nodup_range
    (fun k hk hkb => State.bkRetBit_same (h k (List.mem_range.1 hk) hkb))
    fun k hk hkb => State.bkRetBit_same ((h k (List.mem_range.1 hk) hkb).trans
      (s.bkRetBit_others c _ hkb (Nat.lt_trans (List.mem_range.1 hk) (by decide))).symm)

theorem State.bkWakeDone_wakes (hw : (s.getBk c b).waking = true) :
    s.bkWakeDone c b = ((s.setBkBit c b BK_STATUS_AWAKE true).bump .BK_WAKES [c]).modBk c b fun k => { k with waking := false } := if_pos hw

end

/-! ## Grants -/

section
variable {s : State} {bad : List Nat} {lost k e c b n : Nat}

/-- A waiter in a hold slot is granted next where it is the only one and nothing keeps the entry for another (R387, R388). -/
theorem State.arbHeld_holdSlot (hw : (s.getArb k).wait = [(e, true)]) (hr : (s.getArb k).resv = 0)
    (hn : (s.getArb k).held.contains e = false) : s.arbHeld k = some e := by
  simp [State.arbHeld, hw, hr, -List.contains_eq_mem, hn]

/-- Requesters that back off are not granted: they ask again by themselves (R386). -/
theorem State.arbHeld_backsOff (hw : ∀ w ∈ (s.getArb k).wait, w.2 = false) : s.arbHeld k = none := by
  dsimp only [State.arbHeld]
  rw [List.filter_eq_nil_iff.2 fun w hwait => by simp [hw w hwait]]
  exact ite_self none

theorem State.arbGrant_memory (hk : n < 24) (hl : (s.getArb n).held.length < 64) (he : s.arbHeld n = some e) :
    s.arbGrant bad n lost = s.pieceGranted n e := by
  simp only [State.arbGrant, if_neg (show ¬ n ≥ 800 by omega), if_pos hk, if_neg (Nat.not_le.2 hl), he, if_pos (show n < 32 by omega)]

theorem State.pieceGranted_starts {key i : Nat} (hp : s.heldPiece e n = some (key, i)) :
    s.pieceGranted n e = (s.arbGrantHeld n e).setPiece key i fun p => { p with st := 1, back := 0 } := by
  simp only [State.pieceGranted, hp]

/-- The number of a bank's arbiter names its cluster and bank. -/
theorem bankArb_range (hc : c < 96) (hb : b < 8) :
    32 ≤ bankArb c b ∧ bankArb c b < 800 ∧ (bankArb c b - 32) / 8 = c ∧ (bankArb c b - 32) % 8 = b := by
  unfold bankArb
  omega

section
variable (hc : c < 96) (hb : b < 8)
include hc hb

/-- A bank has one entry. -/
theorem State.arbGrant_bank_taken (hh : (s.getArb (bankArb c b)).held ≠ []) : s.arbGrant bad (bankArb c b) lost = s := by
  obtain ⟨h32, h800, _, _⟩ := bankArb_range hc hb
  simp only [State.arbGrant, if_neg (Nat.not_le.2 h800), if_neg (show ¬ bankArb c b < 24 by omega), if_neg (Nat.not_lt.2 h32)]
  exact if_pos (List.length_pos_iff.2 hh)

theorem State.arbGrant_bank_held (hh : (s.getArb (bankArb c b)).held = []) (he : s.arbHeld (bankArb c b) = some e) :
    s.arbGrant bad (bankArb c b) lost = s.sinkGranted bad c b e := by
  obtain ⟨h32, h800, hcl, hbk⟩ := bankArb_range hc hb
  simp only [State.arbGrant, if_neg (Nat.not_le.2 h800), if_neg (show ¬ bankArb c b < 24 by omega), if_neg (Nat.not_lt.2 h32), hh, he,
    if_pos h800, hcl, hbk]
  exact if_neg (by decide)

theorem State.arbGrant_bank_none (hh : (s.getArb (bankArb c b)).held = []) (he : s.arbHeld (bankArb c b) = none) :
    s.arbGrant bad (bankArb c b) lost = s.arbReserve (bankArb c b) := by
  obtain ⟨h32, h800, _, _⟩ := bankArb_range hc hb
  simp only [State.arbGrant, if_neg (Nat.not_le.2 h800), if_neg (show ¬ bankArb c b < 24 by omega), if_neg (Nat.not_lt.2 h32), hh, he]
  exact if_neg (by decide)

end

/-- The refusals of a keep-store arbiter are counted whatever it grants (R392). -/
theorem State.arbGrant_keep (s : State) (bad : List Nat) (lost c : Nat) :
    s.arbGrant bad (800 + c) lost =
      let u := s.bump .DM_KSLOSS [] lost
      if (u.getArb (800 + c)).held ≠ [] ∨ (u.arbHeld (800 + c)).isSome = true then u else u.arbReserve (800 + c) := by
  have hloss : s.arbLoss (800 + c) lost = s.bump .DM_KSLOSS [] lost := by
    simp only [State.arbLoss, if_neg (show ¬ 800 + c < 24 by omega), if_neg (show ¬ 800 + c < 32 by omega),
      if_neg (show ¬ 800 + c < 800 by omega)]
  simp only [State.arbGrant, if_pos (show 800 + c ≥ 800 by omega), hloss, if_neg (show ¬ 800 + c < 24 by omega),
    if_neg (show ¬ 800 + c < 32 by omega), if_neg (show ¬ 800 + c < 800 by omega)]
  generalize s.bump .DM_KSLOSS [] lost = u
  cases (u.getArb (800 + c)).held <;> cases u.arbHeld (800 + c) <;> simp

theorem State.arbReserve_turn (ht : s.arbTurn k = true) :
    s.arbReserve k = s.modArb k fun a => match a.resv, a.wait.head? with
      | 0, some (e, false) => { a with resv := e + 1 }
      | _, _ => a := if_pos ht

theorem State.arbReserve_noTurn (ht : s.arbTurn k = false) : s.arbReserve k = s := if_neg (Bool.eq_false_iff.1 ht)

end

/-! ## Back-off and revocation -/

section
variable {s w : State} {key k slot n e : Nat} {p : Piece}

theorem State.backoffDone_sends {fly : Nat} (hl : (s.getXfer key).live = true) (hp : (s.getXfer key).pieces[k]? = some p) (hst : p.st = 3)
    (hd : s.dataOwed (s.getXfer key).ep p.tgt = false)
    (hc : s.carry (s.getXfer key).svc (s.getXfer key).ep p.tgt slot 0 (s.requestBeat key (s.getXfer key) p) key p.a = some (w, fly)) :
    s.backoffDone key k slot = w.setPiece key k fun p => { p with st := 0, fly := fly, code := 0 } := by
  simp [State.backoffDone, hl, hp, hst, hd, hc]

/-- No grant of a bank or keep-store arbiter is there to revoke (log entry 166). -/
theorem State.revoke_none (hk : 32 ≤ k) : s.revoke k e = s := if_neg fun h => absurd h.1 (Nat.not_lt.2 hk)

/-- A piece that has started goes back, as a whole, to a state before its start (R389). -/
def Piece.revoked (st : Nat) (p : Piece) : Piece :=
  if p.st = 1 then { p with st := st, fly := 0, code := 0x0B11, moved := 0, sent := 0 } else p

section
variable (hn : n < 24) (hg : (s.getArb n).held.contains e = true)
include hn hg

theorem State.revoke_backsOff (hh : ((s.arbFree n e).bump .DM_REVOKE [n]).holdMode n e = false) :
    s.revoke n e = ((s.arbFree n e).bump .DM_REVOKE [n]).restartPieces n e (Piece.revoked 2) := by
  simp only [State.revoke, if_pos (And.intro (show n < 32 by omega) hg), if_pos hn, hh, Bool.false_eq_true, if_false]
  rfl

theorem State.revoke_holds (hh : ((s.arbFree n e).bump .DM_REVOKE [n]).holdMode n e = true) :
    s.revoke n e = (((s.arbFree n e).bump .DM_REVOKE [n]).modArb n fun a => { a with wait := a.wait ++ [(e, true)] }).restartPieces n e
      (Piece.revoked 4) := by
  simp only [State.revoke, if_pos (And.intro (show n < 32 by omega) hg), if_pos hn, hh, if_true]
  rfl

end

end

/-! ## Tracking pauses -/

section
variable {s : State} {n : Nat}

/-- A tracking pause counted, with the failures in a row up to it (R377). -/
def State.pauseCounted (s : State) (n : Nat) (fail : Bool) : State :=
  (s.bump .DM_RETRAIN [n]).modArb n fun a => { a with track := if fail = true then a.track + 1 else 0 }

theorem State.trackingPause_eq (s : State) (n : Nat) (fail : Bool) :
    s.trackingPause n fail =
      if 3 ≤ ((s.pauseCounted n fail).getArb n).track then (s.pauseCounted n fail).chanFail n else s.pauseCounted n fail := rfl

theorem State.chanFail_trained (h : s.fld .DM_CH_STATUS [n] DM_CH_STATUS_STATE = 1) :
    s.chanFail n =
      let u := (s.setFld .DM_CH_STATUS [n] DM_CH_STATUS_STATE 3).setFld .DM_CH_STATUS [n] DM_CH_STATUS_REASON 0x0B27
      (u.post none 9 n 0xFFFF 0x0B27).each (List.range 256) fun s g =>
        if s.wgOn g && s.regionUses (s.wgPart g) n then s.haltAtHarvest g 0x0B80 else s := if_neg (not_not.2 h)

theorem State.chanFail_untrained (h : s.fld .DM_CH_STATUS [n] DM_CH_STATUS_STATE ≠ 1) : s.chanFail n = s := if_pos h

end

/-- Settles O28: each operation's case, under the conditions that lead to it. -/
theorem memoryCommandsHaveTheirEffects : Obligations.MemoryCommandsHaveTheirEffects := by
  refine ⟨?own, ?handover, ?retention, ?wakeDone, ?keepOrBank, ?channel, ?granted, ?backoff, ?revoked, ?lpddr⟩
  case own =>
    intro s req c b v hr
    have hw := State.cmdWrite_bkOwn hr (word_mod v)
    exact ⟨fun hh => congrArg Host.Outcome.next (hw.trans (State.bkOwnWrite_starts hh)),
      fun hh => congrArg Host.Outcome.next (hw.trans (State.bkOwnWrite_replaces hh))⟩
  case handover => exact fun s c b hh hb => congrArg Host.Outcome.next (State.bkHandoverEnd_ends hh hb)
  case retention =>
    intro s req c b v hr hothers
    have hw := (State.cmdWrite_bkRet hr (word_mod v)).trans (State.bkRetWrite_oneBank b.isLt hothers)
    refine ⟨fun hv hwas hh => ?_, fun hv hwas hh => ?_, fun hv hwas => ?_⟩ <;> rw [hv] at hw
    · exact congrArg Host.Outcome.next (hw.trans (State.bkRetBit_enters hwas hh))
    · exact congrArg Host.Outcome.next (hw.trans (State.bkRetBit_refused hwas hh))
    · exact congrArg Host.Outcome.next (hw.trans (State.bkRetBit_wakes hwas))
  case wakeDone => exact fun s c b hwaking => congrArg Host.Outcome.next (State.bkWakeDone_wakes hwaking)
  case keepOrBank =>
    intro s bad lost c
    refine ⟨⟨fun hh => ?_, fun hh hw ht => ?_⟩, fun b => ⟨fun hh => ?_, fun e hh hw hr => ?_, fun e hh hw hr ht => ?_⟩⟩
    · exact congrArg Host.Outcome.next ((s.arbGrant_keep bad lost c).trans (if_pos (.inl hh)))
    · have hnone := State.arbHeld_backsOff (s := s.bump .DM_KSLOSS [] lost) (k := 800 + c.val) (by simp [hw])
      exact congrArg Host.Outcome.next ((s.arbGrant_keep bad lost c).trans
        ((if_neg (by simp [hh, hnone])).trans (State.arbReserve_noTurn ht)))
    · exact congrArg Host.Outcome.next (State.arbGrant_bank_taken c.isLt b.isLt hh)
    · exact congrArg Host.Outcome.next
        (State.arbGrant_bank_held c.isLt b.isLt hh (State.arbHeld_holdSlot hw hr (by rw [hh]; rfl)))
    · exact congrArg Host.Outcome.next ((State.arbGrant_bank_none c.isLt b.isLt hh (State.arbHeld_backsOff (by simp [hw]))).trans
        (State.arbReserve_turn ht))
  case channel =>
    intro s bad lost n e key i hl hw hr hn hp
    exact congrArg Host.Outcome.next ((State.arbGrant_memory n.isLt hl (State.arbHeld_holdSlot hw hr hn)).trans
      (State.pieceGranted_starts hp))
  case granted => exact fun s k e => rfl
  case backoff =>
    exact fun s w at' k slot p fly hl hp hst hd hc => congrArg Host.Outcome.next (State.backoffDone_sends hl hp hst hd hc)
  case revoked =>
    intro s e
    refine ⟨fun c b => ?_, fun c => ?_, fun n hg => ⟨fun hh => ?_, fun hh => ?_⟩⟩
    · exact congrArg Host.Outcome.next (State.revoke_none (bankArb_range c.isLt b.isLt).1)
    · exact congrArg Host.Outcome.next (State.revoke_none (Nat.le_trans (by decide) (Nat.le_add_right 800 c.val)))
    · exact congrArg Host.Outcome.next (State.revoke_backsOff n.isLt hg hh)
    · exact congrArg Host.Outcome.next (State.revoke_holds n.isLt hg hh)
  case lpddr =>
    intro s n
    refine ⟨rfl, fun f => ⟨fun h => ?_, fun h hst => ?_, fun h hst => ?_⟩⟩
    · exact congrArg Host.Outcome.next ((s.trackingPause_eq n f).trans (if_neg (Nat.not_le.2 h)))
    · exact congrArg Host.Outcome.next ((s.trackingPause_eq n f).trans ((if_pos h).trans (State.chanFail_trained hst)))
    · exact congrArg Host.Outcome.next ((s.trackingPause_eq n f).trans ((if_pos h).trans (State.chanFail_untrained hst)))

end Sys2Proof.Machine
end

section
/-! What core clock, fabric clock and rail commands do (R362, R473 to R478): one equation for each case of an operation. -/

namespace Sys2Proof.Machine

/-! ## Core clocks -/

section
variable {s : State} {req : Requester} {c v : Nat}

theorem State.cmdWrite_ckCore (hr : s.Reached req .CK_CORE [c]) (hv : v % 2 ^ 32 = v) :
    s.cmdWrite req .CK_CORE [c] v = (s.ckCoreWrite c v req).2 := by
  rw [State.cmdWrite_reached32 hr rfl rfl rfl, hv]
  rfl

/-- A write of CK_COREc that R362, R473, R483 and R492 allow. -/
theorem State.ckCoreWrite_allowed (ht : s.pw.tripped = false) (hw : s.pwWriter req (some c) = true) (h8 : 8 ≤ v % 32) (h22 : v % 32 ≤ 22)
    (hb : s.bankEnd c = false ∨ s.fabHigh (halfOf c) ≤ v % 32) :
    (s.ckCoreWrite c v req).2 = (s.setFld .CK_CORE [c] CK_CORE_REQ (v % 32)).clkUpdate c := by
  have hrange : ¬ (v % 32 < 8 ∨ v % 32 > 22) := by omega
  have hfabric : ¬ (s.bankEnd c = true ∧ v % 32 < s.fabHigh (halfOf c)) := fun h =>
    hb.elim (fun hn => by simp [hn] at h) (Nat.not_le.2 h.2)
  simp only [State.ckCoreWrite, ht, hw, hrange, hfabric, Bool.not_true, Bool.false_eq_true, if_false]

/-- The clock follows REQ and the caps, a raise behind the voltage it needs (R473, R474). -/
theorem State.clkUpdate_eq (s : State) (c : Nat) :
    s.clkUpdate c =
      let u := s.setFld .CK_CORE [c] CK_CORE_CAPSRC (s.clkSrc c)
      if u.clkWant c = u.coreEff c then u.modClk c fun k => { k with goal := 0, rail := false }
      else
        let u' := u.modClk c fun k => { k with goal := u.clkWant c, rail := false }
        if u'.coreEff c < u.clkWant c ∧ u'.vid (halfOf c) < u'.vidNeed (halfOf c) then
          (u'.setFld .CK_VID [halfOf c] CK_VID_CODE (u'.vidNeed (halfOf c))).modClk c fun k => { k with rail := true }
        else u' := rfl

theorem State.coreRelock_relocks (hg : (s.getClk c).goal ≠ 0) (hr : (s.getClk c).rail = false) :
    s.coreRelock c =
      let u := (s.setFld .CK_CORE [c] CK_CORE_EFF (s.getClk c).goal).modClk c fun k => { k with goal := 0 }
      u.setFld .CK_VID [halfOf c] CK_VID_CODE (u.vidNeed (halfOf c)) := if_neg (by simp [hg, hr])

end

/-! ## Fabric clocks -/

section
variable {s : State} {req : Requester} {h v : Nat}

theorem State.cmdWrite_ckFab (hr : s.Reached req .CK_FAB [h]) (hv : v % 2 ^ 32 = v) :
    s.cmdWrite req .CK_FAB [h] v = (s.ckFabWrite h v req).2 := by
  rw [State.cmdWrite_reached32 hr rfl rfl rfl, hv]
  rfl

/-- A write of CK_FABh that passes R478 step 1 starts the change. -/
theorem State.ckFabWrite_allowed (ht : s.pw.tripped = false) (hw : s.pwWriter req none = true) (h8 : 8 ≤ v % 32) (h16 : v % 32 ≤ 16)
    (hb : s.bit .CK_FAB [h] CK_FAB_BUSY = false) (he : v % 32 ≠ s.fabEff h) (hc : s.fabCheck h (v % 32) = 0) :
    (s.ckFabWrite h v req).2 = (s.setFld .CK_FAB [h] CK_FAB_REQ (v % 32)).fabStart h (v % 32) := by
  have hrange : ¬ (v % 32 < 8 ∨ v % 32 > 16) := by omega
  simp only [State.ckFabWrite, ht, hw, hrange, hb, he, hc, Bool.not_true, Bool.false_eq_true, ne_eq, not_true_eq_false, if_false]

section
variable (hf : (s.getHf h).fab = 2) (hq : s.isQuiet h = true) (hh : (s.getSdir h).hold = [])
include hf hq hh

theorem State.fabRelock_abandons (hs : s.bankSlow h (s.getHf h).fabTo = true) : s.fabRelock h = s.fabAbandon h := by
  simp [State.fabRelock, hf, hq, hh, hs]

/-- The half runs at its new clock (R478 steps 4 to 6). -/
theorem State.fabRelock_resumes (hs : s.bankSlow h (s.getHf h).fabTo = false) :
    s.fabRelock h =
      let u := (s.setFld .CK_FAB [h] CK_FAB_EFF (s.getHf h).fabTo).setFld .CK_FAB [h] CK_FAB_BUSY 0
      let u := u.modHf h fun x => { x with fab := 0, fabTo := 0 }
      let u := if u.isSplit = true then u else u.updateCaps.remask
      ((u.resumeHalf h).vidUpdate h).noteThrot := by
  have hready : ((s.getHf h).fab ≠ 2 || !s.isQuiet h || (s.getSdir h).hold != []) = false := by simp [hf, hq, hh]
  simp only [State.fabRelock, hready, hs, Bool.false_eq_true, if_false]

end

/-- The rail is good: what waited for it goes on (R476). -/
theorem State.railCheck_good (s : State) (h : Nat) :
    s.railCheck h true =
      let u := (s.setFld .CK_VID [h] CK_VID_OK 1).each (halfClusters h) fun s c =>
        if (s.getClk c).rail = true then s.modClk c fun k => { k with rail := false } else s
      if (u.getHf h).fab = 1 then (u.modHf h fun x => { x with fab := 2 }).quiesce h else u := by
  simp only [State.railCheck, if_true]

/-- The rail is bad: what waited for it is abandoned (R476). -/
theorem State.railCheck_bad (s : State) (h : Nat) :
    s.railCheck h false =
      let u := ((s.setFld .CK_VID [h] CK_VID_OK 0).ckPost none h 0xFFFF 0x0E09).each (halfClusters h) fun s c =>
        if (s.getClk c).rail = true then s.modClk c fun k => { k with rail := false, goal := 0 } else s
      let u := if (u.getHf h).fab = 1
        then (u.modHf h fun x => { x with fab := 0, fabTo := 0 }).setFld .CK_FAB [h] CK_FAB_BUSY 0 else u
      u.vidUpdate h := rfl

end

/-- Settles O34: each operation's case, under the conditions that lead to it. -/
theorem clockCommandsHaveTheirEffects : Obligations.ClockCommandsHaveTheirEffects := by
  refine ⟨?coreWrite, ?coreRelock, ?fabricWrite, ?fabricRelock, ?rail⟩
  case coreWrite =>
    intro s req c v hr ht hw h8 h22 hb
    exact congrArg Host.Outcome.next ((State.cmdWrite_ckCore hr (word_mod v)).trans
      ((State.ckCoreWrite_allowed ht hw h8 h22 hb).trans (State.clkUpdate_eq _ c)))
  case coreRelock => exact fun s c hg hr => congrArg Host.Outcome.next (State.coreRelock_relocks hg hr)
  case fabricWrite =>
    intro s req h v hr ht hw h8 h16 hb he hc u
    exact congrArg Host.Outcome.next ((State.cmdWrite_ckFab hr (word_mod v)).trans (State.ckFabWrite_allowed ht hw h8 h16 hb he hc))
  case fabricRelock =>
    intro s h hf hq hh
    exact ⟨fun hs => congrArg Host.Outcome.next (State.fabRelock_abandons hf hq hh hs),
      fun hs => congrArg Host.Outcome.next (State.fabRelock_resumes hf hq hh hs)⟩
  case rail => exact fun s h => ⟨congrArg Host.Outcome.next (s.railCheck_good h), congrArg Host.Outcome.next (s.railCheck_bad h)⟩

end Sys2Proof.Machine
end

section
/-! What the window end, the counter mirror, the rake, tracing and reservations do (R388, R427, R546 to R549, R553, R554, R560, R561): one
equation for each case of an operation. -/

namespace Sys2Proof.Machine

/-! ## Windows and mirrors -/

section
variable {s : State} {req : Requester} {v : Nat}

/-- The state once a window's counters are latched and its derived records written (R547). -/
def State.windowLatched (s : State) : State :=
  let u := s.modPcs fun p => { p with prev := p.snap, snap := s.counters, win := s.fld .PC_WIN [] PC_WIN_WINUS }
  u.each u.mirrorPorts fun u n => u.stagPoke n 0xF00040 (u.derivedAll n (s.val .PC_WINNO []) s.winUs)

/-- A full write still runs at the window's end: this one is skipped (R549). -/
theorem State.windowEnd_skips (hb : s.windowLatched.pcs.busy = true) :
    s.windowEnd = ((s.windowLatched.bump .PC_SKIP []).setVal .PC_WINNO [] (s.val .PC_WINNO [] + 1)).bump .PC_TT [] (400 * s.winUs) :=
  congrArg (fun u : State => (u.setVal .PC_WINNO [] (s.val .PC_WINNO [] + 1)).bump .PC_TT [] (400 * s.winUs)) (if_pos hb)

theorem State.windowEnd_writes (hb : s.windowLatched.pcs.busy = false) :
    s.windowEnd = (((s.windowLatched.modPcs fun p =>
      { p with busy := true, mwin := s.val .PC_WINNO [], mus := s.winUs, mframe := s.windowLatched.val .TL_FRAME [0],
               msnap := p.snap }).setFld .PC_STATUS [] PC_STATUS_MIRBUSY 1).setVal .PC_WINNO []
      (s.val .PC_WINNO [] + 1)).bump .PC_TT [] (400 * s.winUs) :=
  congrArg (fun u : State => (u.setVal .PC_WINNO [] (s.val .PC_WINNO [] + 1)).bump .PC_TT [] (400 * s.winUs))
    (if_neg (Bool.eq_false_iff.1 hb))

theorem State.mirrorDone_busy (hb : s.pcs.busy = true) :
    s.mirrorDone = ((s.each s.mirrorPorts fun s n => s.mirrorPort n).modPcs fun p => { p with busy := false, msnap := [] }).setFld
      .PC_STATUS [] PC_STATUS_MIRBUSY 0 := if_neg (by simp [hb])

theorem State.mirrorDone_idle (hb : s.pcs.busy = false) : s.mirrorDone = s := if_pos (by simp [hb])

theorem State.cmdWrite_pcWin (hr : s.Reached req .PC_WIN []) (hv : v % 2 ^ 32 = v) :
    s.cmdWrite req .PC_WIN [] v = (s.pcWinWrite v req).2 := by
  rw [State.cmdWrite_reached32 hr rfl rfl rfl, hv]
  rfl

theorem State.pcWinWrite_takes (hw : s.pwWriter req none = true) (h1 : 1 ≤ v % 2 ^ 20) (hmax : v % 2 ^ 20 ≤ 1000000) :
    (s.pcWinWrite v req).2 = s.setFld .PC_WIN [] PC_WIN_WINUS (v % 2 ^ 20) :=
  congrArg Prod.snd (if_neg (by simp only [hw, Bool.not_true, Bool.false_or, Bool.or_eq_true, beq_iff_eq, decide_eq_true_eq]; omega))

theorem State.pcWinWrite_refuses (h : s.pwWriter req none = false ∨ v % 2 ^ 20 = 0 ∨ 1000000 < v % 2 ^ 20) :
    (s.pcWinWrite v req).2 = (s.setFld .PC_STATUS [] PC_STATUS_REASON 0x1101).post none 9 0 0xFFFF 0x1101 :=
  congrArg Prod.snd (if_pos (by simpa only [Bool.or_eq_true, Bool.not_eq_true', beq_iff_eq, decide_eq_true_eq, or_assoc] using h))

end

/-! ## The rake -/

section
variable {s : State} {req : Requester}

theorem State.cmdWrite_pcRake (hr : s.Reached req .PC_RAKE []) : s.cmdWrite req .PC_RAKE [] 1 = (s.rakeWrite 1 req).2 :=
  State.cmdWrite_reached32 hr rfl rfl rfl

theorem State.rakeWrite_starts (hw : s.pwWriter req none = true) (hn : s.pcs.rakes = []) : (s.rakeWrite 1 req).2 = s.rake 3 0 := by
  simp [State.rakeWrite, hw, hn]

theorem State.rakeWrite_running (hw : s.pwWriter req none = true) (hn : s.pcs.rakes ≠ []) : (s.rakeWrite 1 req).2 = s := by
  simp [State.rakeWrite, hw, hn]

/-- The only pass that runs, over all clusters, is done (R553, R554). -/
theorem State.rakeDone_wholePass {cause : Nat} (hr : s.pcs.rakes = [(cause, 0)]) (lost : List Nat) :
    s.rakeDone lost =
      let k := s.val .PC_RAKES []
      let u := s.poke rakeBase (s.ctrHeader s.winUs k (s.val .TL_FRAME [0]) cause)
      let u := u.each (List.range 96) fun s c => s.rakeCluster k lost c
      let u := u.poke (rakeBase + 0xD0000) (area k 0 0 k (deviceValues u.regs none))
      let u := u.each ((List.range 96).filter lost.contains) fun s c =>
        (s.setFld .PC_STATUS [] PC_STATUS_REASON 0x1105).post none 9 c c 0x1105
      ((u.modPcs fun p => { p with rakes := [] }).setFld .PC_STATUS [] PC_STATUS_RAKING 0).bump .PC_RAKES [] := by
  simp only [State.rakeDone, hr, if_true]

end

/-! ## Tracing -/

section
variable {s : State} {req : Requester} {p c v : Nat}

/-- May a requester write PC_TRCFGp (R561)? -/
def State.traceWriter (s : State) (req : Requester) (p : Nat) : Bool :=
  match req with
  | .port n => s.isAdmin n.val || s.partOfPort n.val == some p
  | .engine _ _ => false
  | _ => true

theorem State.cmdWrite_pcTrcfg (hr : s.Reached req .PC_TRCFG [p]) (hv : v % 2 ^ 32 = v) (hw : s.traceWriter req p = true) :
    s.cmdWrite req .PC_TRCFG [p] v =
      s.unitWrite (.trcfg p) .PC_TRCFG [p] PC_TRCFG_EN v none fun s => s.setFld .PC_TRCFG [p] PC_TRCFG_EN 0 := by
  rw [State.cmdWrite_reached32 hr rfl rfl rfl, hv]
  exact if_pos hw

theorem State.cmdWrite_pcTrring (hr : s.Reached req .PC_TRRING [c]) (hv : v % 2 ^ 32 = v) :
    s.cmdWrite req .PC_TRRING [c] v =
      s.unitWrite (.trring c) .PC_TRRING [c] PC_TRRING_EN v none fun s => s.setFld .PC_TRRING [c] PC_TRRING_EN 0 := by
  rw [State.cmdWrite_reached32 hr rfl rfl rfl, hv]
  rfl

/-- EN = 1 of an enabled unit changes nothing (R427). -/
theorem State.unitWrite_enabled {u : UnitRef} {r : Reg} {idx : List Nat} {en : Fld} {cmd : Option (Nat × Nat)} {stop : State → State}
    (hc : s.checking u = false) (he : s.bit r idx en = true) (hv : v.testBit en.lo = true) : s.unitWrite u r idx en v cmd stop = s := by
  simp only [State.unitWrite, hc, he, hv, Bool.false_eq_true, if_false, if_true]

end

/-! ## Reservations -/

/-- The waiter after a requester in the line of an arbiter. -/
theorem next_waiter {a e : Nat} {l r : List (Nat × Bool)} (hl : ∀ w ∈ l, w.1 ≠ a) :
    (((l ++ (a, false) :: (e, false) :: r).dropWhile fun w => w.1 + 1 != a + 1).drop 1).find? (fun w => !w.2) = some (e, false) := by
  have hpast : ∀ w ∈ l, (w.1 + 1 != a + 1) = true := fun w hw => by simpa using hl w hw
  rw [List.dropWhile_append_of_pos hpast]
  simp

theorem State.resvExpire_passes {s : State} {k a e : Nat} {l r : List (Nat × Bool)} (hr : (s.getArb k).resv = a + 1)
    (hw : (s.getArb k).wait = l ++ (a, false) :: (e, false) :: r) (hl : ∀ w ∈ l, w.1 ≠ a) :
    s.resvExpire k = s.modArb k fun a => { a with resv := e + 1 } := by
  refine State.modArb_congr ?_
  simp only [hr, hw, next_waiter hl, Nat.succ_ne_zero, if_false]

/-- Settles O41: each operation's case, under the conditions that lead to it. -/
theorem counterAndTraceCommandsHaveTheirEffects : Obligations.CounterAndTraceCommandsHaveTheirEffects := by
  refine ⟨?window, ?mirror, ?length, ?go, ?pass, ?trace, ?ring, ?reservation⟩
  case window =>
    intro s us k u₀ u
    exact ⟨fun hb => congrArg Host.Outcome.next (State.windowEnd_skips hb), fun hb => congrArg Host.Outcome.next (State.windowEnd_writes hb)⟩
  case mirror =>
    exact fun s => ⟨fun hb => congrArg Host.Outcome.next (State.mirrorDone_busy hb),
      fun hb => congrArg Host.Outcome.next (State.mirrorDone_idle hb)⟩
  case length =>
    intro s req v hr
    have hw := State.cmdWrite_pcWin hr (word_mod v)
    exact ⟨fun hp h1 hmax => congrArg Host.Outcome.next (hw.trans (State.pcWinWrite_takes hp h1 hmax)),
      fun h => congrArg Host.Outcome.next (hw.trans (State.pcWinWrite_refuses h))⟩
  case go =>
    intro s req hr hp
    have hw := State.cmdWrite_pcRake hr
    exact ⟨fun hn => congrArg Host.Outcome.next (hw.trans (State.rakeWrite_starts hp hn)),
      fun hn => congrArg Host.Outcome.next (hw.trans (State.rakeWrite_running hp hn))⟩
  case pass => exact fun s lost cause hr => congrArg Host.Outcome.next (State.rakeDone_wholePass hr _)
  case trace =>
    intro s req p v hr hp hc
    have hw := State.cmdWrite_pcTrcfg hr (withEn_mod v true) hp
    exact ⟨fun he => congrArg Host.Outcome.next (hw.trans (State.unitWrite_enable hc he (withEn_testBit_lo v true _ rfl))),
      fun he => congrArg Host.Outcome.next (hw.trans (State.unitWrite_enabled hc he (withEn_testBit_lo v true _ rfl)))⟩
  case ring =>
    intro s req c v hr hc he
    exact congrArg Host.Outcome.next ((State.cmdWrite_pcTrring hr (withEn_mod v true)).trans
      (State.unitWrite_enable hc he (withEn_testBit_lo v true _ rfl)))
  case reservation =>
    intro s k a l r e ha hl
    exact congrArg Host.Outcome.next (State.resvExpire_passes (congrArg Arb.resv ha) (congrArg Arb.wait ha) hl)

end Sys2Proof.Machine
end

section
/-! What every step keeps, read off the law of each command: its frame, the queue, the flash, the fuses, the life-cycle state and the count
of free values. -/

namespace Sys2Proof.Machine

/-! ## One step -/

/-- Settles O42: a step is the meaning of the command at the front, and an empty queue idles. -/
theorem stepTakesTheCommandAtTheFront : Obligations.StepTakesTheCommandAtTheFront := by
  refine ⟨fun s c rest => rfl, fun s hs => ?_⟩
  unfold step
  rw [hs]

theorem step_of_pending {s : State} {c : Instr} {rest : List Instr} (hs : s.pending = c :: rest) :
    step s = exec c { s with pending := rest } := by
  unfold step
  rw [hs]

/-! ## Frames -/

theorem pending_not_mem_touches (c : Instr) : Part.pending ∉ touches c := by
  cases c <;> exact of_decide_eq_true rfl

theorem flash_not_mem_touches {c : Instr} (hc : ∀ n x, c ≠ .flashErase n x ∧ c ≠ .flashProgram n x) : Part.flash ∉ touches c := by
  cases c with
  | flashErase n x => exact absurd rfl (hc n x).1
  | flashProgram n x => exact absurd rfl (hc n x).2
  | _ => exact of_decide_eq_true rfl

/-- Settles O45: every command keeps what is not among its parts. -/
theorem commandsChangeOnlyTheirParts : Obligations.CommandsChangeOnlyTheirParts := fun _ _ _ h => (keeps_of_exec h).frame

theorem exec_pending {c : Instr} {s t : State} (h : exec c s = .next t) : t.pending = s.pending :=
  commandsChangeOnlyTheirParts c s t h .pending (pending_not_mem_touches c)

/-- Settles O43: the queue is among no command's parts. -/
theorem commandsLeaveTheQueueAsItWas : Obligations.CommandsLeaveTheQueueAsItWas :=
  ⟨fun _ _ _ h => exec_pending h, fun _ _ _ _ hs h => exec_pending (step_of_pending hs ▸ h)⟩

/-- Settles O52: the flash is among the parts of FLASH_ERASE and FLASH_PROGRAM only. -/
theorem onlyFlashCommandsWriteTheFlash : Obligations.OnlyFlashCommandsWriteTheFlash := fun c s t hc h =>
  commandsChangeOnlyTheirParts c s t h .flash (flash_not_mem_touches hc)

/-! ## Fuses -/

/-- Settles O49: each operation keeps the fuses, and so does a step. -/
theorem burnedFusesStayBurned : Obligations.BurnedFusesStayBurned := fun _ _ h => (keeps_of_step h).elim fun _ k => k.fuses

/-- Settles O51: no step lowers the count, and each draw raises it by one. -/
theorem freeValuesAreNeverDrawnTwice : Obligations.FreeValuesAreNeverDrawnTwice :=
  ⟨fun _ _ h => (keeps_of_step h).elim fun _ k => k.fresh, fun _ => ⟨rfl, rfl⟩⟩

/-! ## The fused count (R533) -/

/-- The count is the length of the run of burned bits from bit 0 on. -/
theorem Sec.count_spec (x : Sec) :
    x.count ≤ 32 ∧ (∀ i, i < x.count → x.lc.testBit i = true) ∧ (x.count < 32 → x.lc.testBit x.count = false) := by
  unfold Sec.count
  cases h : (List.range 32).find? fun i => !x.lc.testBit i with
  | none => simpa using h
  | some n =>
    rw [List.find?_range_eq_some] at h
    obtain ⟨hn, hmem, hbelow⟩ := h
    simp only [List.mem_range] at hmem
    exact ⟨hmem.le, by simpa using hbelow, fun _ => by simpa using hn⟩

theorem Sec.count_eq_of_burned {x : Sec} {n : Nat} (hn : n ≤ 32) (hb : ∀ i, i < n → x.lc.testBit i = true)
    (hu : x.lc.testBit n = false) : x.count = n := by
  obtain ⟨hle, hbelow, hat⟩ := x.count_spec
  apply le_antisymm
  · by_contra h
    exact absurd (hbelow n (by omega)) (by simp [hu])
  · by_contra h
    exact absurd (hb x.count (by omega)) (by simp [hat (by omega)])

theorem Sec.count_le_of_kept {x y : Sec} (h : Sec.Kept x y) : x.count ≤ y.count := by
  obtain ⟨hle, hbelow, -⟩ := x.count_spec
  obtain ⟨-, -, hat⟩ := y.count_spec
  by_contra hlt
  exact absurd (h.lc y.count (by omega) (hbelow y.count (by omega))) (by simp [hat (by omega)])

theorem Sec.state_eq_four_iff (x : Sec) : x.state = 4 ↔ x.lc.testBit 31 = true ∨ 31 ≤ x.count := by
  simp only [Sec.state]
  split_ifs with h <;> simp_all

theorem Sec.state_of_count {x : Sec} (h : x.lc.testBit 31 = false) :
    x.state = if 31 ≤ x.count then 4 else if x.count = 0 then 0 else if x.count = 1 then 1 else if x.count % 2 = 0 then 2 else 3 := by
  simp only [Sec.state, h, Bool.false_eq_true, false_or, ge_iff_le]

/-- Settles O40: the state by the count, and the count by the burned bits. -/
theorem lifeCycleStateFollowsTheCount : Obligations.LifeCycleStateFollowsTheCount := by
  refine ⟨fun x => ⟨fun h => x.state_eq_four_iff.2 (.inl h), fun h => ?_⟩, Sec.count_spec, fun x n hn hx => ?_⟩
  · rw [Sec.state_of_count h]
    refine ⟨?zero, ?one, ?even, ?odd, ?last⟩ <;> intros <;> split_ifs <;> omega
  · refine Sec.count_eq_of_burned hn ?_ ?_ <;> simp [hx, Nat.testBit_two_pow_sub_one]

theorem Sec.state_eq_four_of_kept {x y : Sec} (h : Sec.Kept x y) (hx : x.state = 4) : y.state = 4 := by
  rw [Sec.state_eq_four_iff] at hx ⊢
  exact hx.imp (h.lc 31 (by decide)) fun hc => hc.trans (Sec.count_le_of_kept h)

/-- Settles O50: burned fuses stay burned, and DECOMMISSIONED is a matter of burned bits. -/
theorem aDecommissionedDeviceStaysSo : Obligations.ADecommissionedDeviceStaysSo := fun s t hs h =>
  Sec.state_eq_four_of_kept (burnedFusesStayBurned s t h) hs

end Sys2Proof.Machine
end

section
/-! What droops, sensors, thermal and power caps, power estimates and the telemetry page do, and what a trip refuses (R479 to R494, R575): one
equation for each case of an operation. -/

namespace Sys2Proof.Machine

/-! ## Droops -/

section
variable {s : State} {c cycles : Nat}

theorem State.droopEnd_ends (h : (s.getClk c).stretch = true) :
    s.droopEnd c cycles false = (s.bump .PW_DSTR [c] cycles).modClk c fun k => { k with stretch := false } := by
  simp [State.droopEnd, h]

/-- A cluster whose rail stays low hands its stretch over to its half (R479). -/
theorem State.droopEnd_passes (h : (s.getClk c).stretch = true) (hc : c < 96) :
    s.droopEnd c cycles true =
      ((s.bump .PW_DSTR [c] cycles).modClk c fun k => { k with stretch := false }).modClk (96 + halfOf c) fun k => { k with stretch := true } := by
  simp [State.droopEnd, h, hc]

end

/-! ## Sensors and the trip -/

section
variable {s : State} {i : Nat} {v : Half}

/-- The state once a sample and the hottest temperature are stored (R480). -/
def State.sampled (s : State) (i : Nat) (v : Half) : State :=
  let u := s.setVal .PW_TEMP [i] v.toNat
  u.setFld .PW_STATUS [] PW_STATUS_TJMAX ((max (u.hottest 0) (u.hottest 1)) / 4).toNat

theorem State.sensorSample_cool (h : v.toInt < 440) :
    s.sensorSample i v = (s.sampled i v).modPw fun p => { p with hot := p.hot.filter (· != i) } := if_neg (not_le.2 h)

theorem State.sensorSample_hot (h : 440 ≤ v.toInt) :
    s.sensorSample i v =
      if (s.sampled i v).pw.hot.contains i then (s.sampled i v).trip else (s.sampled i v).modPw fun p => { p with hot := p.hot ++ [i] } := if_pos h

/-- What a trip leaves of the parts it wipes (R483). -/
def State.switchedOff (s : State) : State :=
  let keep (a : Nat) : Bool :=
    decide (0xFE00000000 ≤ a) && decide (a < 0xFE01000000) || decide (0xFE04000000 ≤ a) && decide (a < 0xFE08000000)
  { s with
    regs := s.regs.filter fun e => keep e.1, mem := s.mem.filter fun e => keep e.1, staging := [], latches := [], helds := [],
    tb := [], tbi := [], wg := [], nc := [], eng := [], mx := [], vx := [], ls := [], bk := [], rt := [], sdir := [], lane := [],
    xfer := [], chan := [], comp := [], edges := [], oldEdges := [], arb := [], dom := [], sch := [], half := [], slotA := [],
    slotB := [], smapA := [], smapB := [], gp := [], checks := [], rsts := [], clk := [] }

/-- A part of the state that neither a register nor the records of the keep store, power and start hold is as the trip wipes it. -/
theorem State.trip_leaves {α : Type} (g : State → α) (hw : ∀ (u : State) r idx x, g (u.wr r idx x) = g u)
    (hm : ∀ (u : State) k p b, g (((u.modKs k).modPw p).modBoot b) = g u) : g s.trip = g s.switchedOff := by
  unfold State.trip
  rw [hm, State.each_leaves g (fun u c _ => ?_), State.setFld, hw, State.each_leaves g (fun u n _ => ?_)]
  · rfl
  · simp only [State.setFld, hw]
  · split
    · simp only [State.setFld, hw]
    · rfl

end

/-! ## Thermal caps -/

section
variable {s : State} {c : Nat} {cooled : Bool}

/-- A cluster at or above the throttle point gets a cap one step lower (R481). -/
theorem State.thermStep_lowers (h : s.throt ≤ s.clusterTemp c) :
    s.thermStep c cooled =
      let u := if (s.getClk c).therm = 0 then s.ckPost (s.partOfCluster c) c c 0x0E06 else s
      ((u.modClk c fun k => { k with therm := max (u.clkFloor c) ((if k.therm = 0 then u.coreEff c else k.therm) - 1) }).clkUpdate c).noteThrot :=
  if_pos h

theorem State.thermStep_raises (h : s.clusterTemp c ≤ s.throt - 12) (hk : (s.getClk c).therm ≠ 0) :
    s.thermStep c true =
      ((s.modClk c fun k => { k with therm := if k.therm = 0 ∨ k.therm + 1 ≥ s.fld .CK_CORE [c] CK_CORE_REQ then 0
        else k.therm + 1 }).clkUpdate c).noteThrot := by
  have hcap (cap req : Nat) : capUp cap req = if cap = 0 ∨ cap + 1 ≥ req then 0 else cap + 1 := by
    by_cases h0 : cap = 0 <;> simp [capUp, h0]
  have hbelow : ¬ s.clusterTemp c ≥ s.throt := by omega
  simp [State.thermStep, hbelow, h, hk, hcap]

theorem State.thermStep_stays (h : s.clusterTemp c < s.throt)
    (hk : cooled = false ∨ s.throt - 12 < s.clusterTemp c ∨ (s.getClk c).therm = 0) : s.thermStep c cooled = s := by
  refine (if_neg (not_le.2 h)).trans (if_neg ?_)
  simp only [Bool.and_eq_true, decide_eq_true_eq, bne_iff_ne]
  rintro ⟨⟨hc, ht⟩, hz⟩
  rcases hk with hf | hlt | h0
  · exact absurd hc (by simp [hf])
  · exact absurd ht (not_le.2 hlt)
  · exact hz h0

/-- A backbone sensor at the throttle point lowers an idle fabric clock (R482). -/
theorem State.thermFabric_lowers {h : Nat} {held : Bool} (hb : s.bit .CK_FAB [h] CK_FAB_BUSY = false) (he : 8 < s.fabEff h)
    (ht : s.throt ≤ s.temp (192 + 2 * h)) :
    s.thermFabric h held = ((s.ckPost none h 0xFFFF 0x0E08).fabStart h (s.fabEff h - 1)).noteThrot := by
  simp [State.thermFabric, hb, ht, Nat.not_le.2 he]

end

/-! ## Power -/

section
variable {s : State} {w e h : Nat} {rise : Bool}

/-- The state once an estimate is stored (R485). -/
def State.estimated (s : State) (w e : Nat) : State :=
  (s.modPw fun p => { p with est := ((w, e) :: p.est).take 100 }).setFld .PW_STATUS [] PW_STATUS_POWER (min (w + e) 1023)

theorem State.powerEstimate_peak (hp : 720 < w + e) :
    s.powerEstimate w e = ((((s.estimated w e).bump .PW_PKSTR []).setFld .PW_STATUS [] PW_STATUS_PKSTR 1).modPw fun p =>
      { p with peak := true }).ckPost none 0 0xFFFF 0x0E0A := if_pos hp

theorem State.powerEstimate_low (hp : w + e ≤ 720) :
    s.powerEstimate w e =
      (s.estimated w e).setFld .PW_STATUS [] PW_STATUS_PKSTR (if (s.estimated w e).pw.peak then 1 else 0) := if_neg (not_lt.2 hp)

/-- The mean above PW_PCAP lowers the cap of each cluster that is on (R486). -/
theorem State.powerStep_lowers (hs : s.isSplit = false) (he : s.pw.est ≠ [])
    (hsum : s.val .PW_PCAP [] * s.pw.est.length < (s.pw.est.map fun e => e.1 + e.2).sum) :
    s.powerStep h rise =
      let cs := (List.range 96).filter s.domOn
      let u := if cs.all fun c => (s.getClk c).pow == 0 then s.ckPost none h 0xFFFF 0x0E07 else s
      (u.each cs fun s c => (s.modClk c fun k => { k with
        pow := max (s.clkFloor c) ((if k.pow = 0 then s.coreEff c else k.pow) - 1) }).clkUpdate c).noteThrot := by
  have hover : s.pw.est.length ≠ 0 ∧ s.powerSum none > s.val .PW_PCAP [] * s.pw.est.length := ⟨mt List.length_eq_zero_iff.1 he, hsum⟩
  simp only [State.powerStep, hs, hover, capDown, and_self, Bool.false_eq_true, ne_eq, not_false_eq_true, if_true, if_false]

theorem State.powerStep_stays (hs : s.isSplit = false)
    (hsum : (s.pw.est.map fun e => e.1 + e.2).sum ≤ s.val .PW_PCAP [] * s.pw.est.length) : s.powerStep h false = s := by
  have hover : ¬ s.powerSum none > s.val .PW_PCAP [] * s.pw.est.length := not_lt.2 hsum
  simp only [State.powerStep, hs, hover, Bool.false_eq_true, and_false, false_and, if_false]

end

/-! ## The telemetry page -/

theorem State.telemetry_length (s : State) : s.telemetry.length = 64 := by
  simp [State.telemetry]

/-- Settles O35: each operation's case, under the conditions that lead to it. -/
theorem temperatureAndPowerCommandsHaveTheirEffects : Obligations.TemperatureAndPowerCommandsHaveTheirEffects := by
  refine ⟨?droop, ?sample, ?trip, ?cap, ?fabric, ?estimate, fun _ => rfl, ?power, fun s b n a => ⟨rfl, rfl, rfl, s.telemetry_length⟩⟩
  case droop =>
    refine fun s c => ⟨rfl, fun cycles h => ⟨?_, fun hc => ?_⟩⟩
    · exact congrArg Host.Outcome.next (State.droopEnd_ends h)
    · exact congrArg Host.Outcome.next (State.droopEnd_passes h hc)
  case sample =>
    intro s j v u
    refine ⟨fun h => ?_, fun h hj => ?_, fun h hj => ?_⟩
    · exact congrArg Host.Outcome.next (State.sensorSample_cool h)
    · exact congrArg Host.Outcome.next ((State.sensorSample_hot h).trans (if_neg (Bool.eq_false_iff.1 hj)))
    · exact congrArg Host.Outcome.next ((State.sensorSample_hot h).trans (if_pos hj))
  case trip =>
    refine fun s => ⟨rfl, ?_, ?_, ?_, ?_, ?_⟩
    · exact State.trip_leaves State.tb (fun _ _ _ _ => rfl) fun _ _ _ _ => rfl
    · exact State.trip_leaves State.wg (fun _ _ _ _ => rfl) fun _ _ _ _ => rfl
    · exact State.trip_leaves State.rt (fun _ _ _ _ => rfl) fun _ _ _ _ => rfl
    · exact State.trip_leaves State.xfer (fun _ _ _ _ => rfl) fun _ _ _ _ => rfl
    · exact State.trip_leaves State.staging (fun _ _ _ _ => rfl) fun _ _ _ _ => rfl
  case cap =>
    refine fun s c cooled => ⟨fun h => ?_, fun h hk => ?_, fun h hk => ?_⟩
    · exact congrArg Host.Outcome.next (State.thermStep_lowers h)
    · exact congrArg Host.Outcome.next (State.thermStep_raises h hk)
    · exact congrArg Host.Outcome.next (State.thermStep_stays h hk)
  case fabric => exact fun s h held hb he ht => congrArg Host.Outcome.next (State.thermFabric_lowers hb he ht)
  case estimate =>
    exact fun s w e => ⟨fun h => congrArg Host.Outcome.next (State.powerEstimate_peak h),
      fun h => congrArg Host.Outcome.next (State.powerEstimate_low h)⟩
  case power =>
    exact fun s h rise hs he => ⟨fun h => congrArg Host.Outcome.next (State.powerStep_lowers hs he h),
      fun h => congrArg Host.Outcome.next (State.powerStep_stays hs h)⟩

/-! ## After a trip -/

section
variable {s : State} {req : Requester} {n v : Nat} (ht : s.pw.tripped = true)
include ht

theorem State.pwReqWrite_tripped : s.pwReqWrite n v req = (0x0E05, s.pwPost n 0x0E05) := if_pos ht

theorem State.ckCoreWrite_tripped : s.ckCoreWrite n v req = (0x0E05, s.ckPost (s.partOfCluster n) n n 0x0E05) := if_pos ht

theorem State.ckFabWrite_tripped : s.ckFabWrite n v req = (0x0E05, s.ckPost none n 0xFFFF 0x0E05) := if_pos ht

theorem State.droopField_tripped {lo hi : Nat} : s.pwField .CK_DROOP lo hi v req = (0x0E05, s.ckPost none 0 0xFFFF 0x0E05) :=
  if_pos (by simp [ht])

theorem State.domStep_tripped : s.domStep n = s := if_pos (.inr ht)

end

theorem findReg_CK_DROOP : findReg (Reg.place .CK_DROOP []) = some (.CK_DROOP, [], 0) := by decide +kernel

/-- A 32-bit write of CK_DROOP is one of its field TH (R492). -/
theorem State.accessWrite_ckDroop {s : State} {req : Requester} {v : Nat} (hr : s.Reached req .CK_DROOP []) :
    s.accessWrite req .w32 (Reg.place .CK_DROOP []) v = (s.pwField .CK_DROOP 2 8 (v % 2 ^ 32 % 2 ^ 32 % 2 ^ 4) req).2 := by
  have hans : s.Answers .CK_DROOP [] [] 0 (Reg.place .CK_DROOP []) :=
    { aligned := rfl, found := findReg_CK_DROOP, up := hr.2 0 (by decide), narrow := by decide, home := rfl }
  rw [State.accessWrite_32 _ ((State.regReach_found findReg_CK_DROOP).trans hr.1), State.writeWord_word32 hans rfl]
  rfl

/-- Settles O60: each write is refused before anything else is looked at. -/
theorem afterATripPowerAndClockWritesAreRefused : Obligations.AfterATripPowerAndClockWritesAreRefused := by
  intro s req ht
  refine ⟨fun n v hr => ?_, fun c v hr => ?_, fun h v hr => ?_, fun a v hr ha => ?_, fun n => ?_⟩
  · refine congrArg Host.Outcome.next ((State.cmdWrite_reached32 hr rfl rfl rfl).trans ?_)
    exact congrArg Prod.snd (State.pwReqWrite_tripped ht)
  · exact congrArg Host.Outcome.next ((State.cmdWrite_ckCore hr (word_mod v)).trans (congrArg Prod.snd (State.ckCoreWrite_tripped ht)))
  · exact congrArg Host.Outcome.next ((State.cmdWrite_ckFab hr (word_mod v)).trans (congrArg Prod.snd (State.ckFabWrite_tripped ht)))
  · rw [exec_write s (.inl rfl), ha, State.accessWrite_ckDroop hr, State.droopField_tripped ht]
  · exact congrArg Host.Outcome.next (State.domStep_tripped ht)

end Sys2Proof.Machine
end

section
/-! What BU_RST, running resets, device resets and runtime BIST do (R470, R475, R508 to R515, R536): one equation for each case of an
operation. -/

namespace Sys2Proof.Machine

/-! ## Writes of BU_RST -/

/-- The partition that a requester writes for: a port's (R509). -/
def State.writerPart (s : State) (req : Requester) : Option Nat :=
  match req with
  | .port n => s.partOfPort n.val
  | _ => none

section
variable {s : State} {req : Requester} {v : Word} {k : Nat}

theorem withScope_scope (v : Word) (h : k < 4) : withScope v k % 4 = k := by
  unfold withScope
  omega

theorem withScope_target (v : Word) (h : k < 4) : bitsOf (withScope v k) 12 12 = bitsOf v.toNat 12 12 := by
  simp only [bitsOf, withScope, Nat.shiftRight_eq_div_pow]
  omega

theorem withScope_testBit_two (v : Word) (h : k < 4) : (withScope v k).testBit 2 = v.toNat.testBit 2 := by
  have hv : (v.toNat / 4 * 4 + k) / 2 ^ 2 = v.toNat / 2 ^ 2 := by omega
  simp only [withScope, Nat.testBit_eq_decide_div_mod_eq, hv]

theorem State.cmdWrite_buRst (hr : s.Reached req .BU_RST []) (hk : k < 4) :
    s.cmdWrite req .BU_RST [] (withScope v k) = (s.rstWrite (withScope v k) req).2 := by
  rw [State.cmdWrite_reached32 hr rfl rfl rfl, show withScope v k % 2 ^ 32 = withScope v k from withScope_mod v hk]
  rfl

theorem State.rstWrite_queues (hk : k < 3) (hres : rstReserved k (bitsOf v.toNat 12 12) = false)
    (hw : s.rstWriter k (bitsOf v.toNat 12 12) req = true) :
    (s.rstWrite (withScope v k) req).2 = s.rstQueue { scope := k, target := bitsOf v.toNat 12 12 } := by
  have hk4 : k < 4 := by omega
  simp [State.rstWrite, withScope_scope v hk4, withScope_target v hk4, hres, hw, show k ≠ 3 by omega]

theorem State.rstWrite_refuses (hk : k < 4) (hres : rstReserved k (bitsOf v.toNat 12 12) = false)
    (hw : s.rstWriter k (bitsOf v.toNat 12 12) req = false) :
    (s.rstWrite (withScope v k) req).2 = s.rstPost (s.writerPart req) k 0x0F01 := by
  simp only [State.rstWrite, withScope_scope v hk, withScope_target v hk, hres, hw, Bool.not_false, Bool.false_eq_true, if_true, if_false]
  rfl

theorem State.rstWrite_resetsDevice (ht : bitsOf v.toNat 12 12 = 0) (hw : s.rstWriter 3 0 req = true) :
    (s.rstWrite (withScope v 3) req).2 = s.deviceReset (v.toNat.testBit 2) 2 := by
  have h3 : 3 < 4 := by decide
  simp [State.rstWrite, withScope_scope v h3, withScope_target v h3, withScope_testBit_two v h3, ht, hw, rstReserved]

theorem State.rstQueue_running (r : Rst) (h : s.rsts ≠ []) : s.rstQueue r = { s with rsts := s.rsts ++ [r] } := by
  simp [State.rstQueue, h]

theorem State.rstQueue_idle (r : Rst) (h : s.rsts = []) : s.rstQueue r = ({ s with rsts := s.rsts ++ [r] } : State).rstStart r := by
  simp [State.rstQueue, h]

end

/-! ## Running resets -/

/-- The reset queued behind one that ends starts (R509). -/
def State.startNext (u : State) (rest : List Rst) : State :=
  match rest with
  | [] => u
  | q :: _ => u.rstStart q

section
variable {s : State} {r : Rst} {rest : List Rst} (hq : s.rsts = r :: rest)
include hq

/-- The running reset ends: its woken domains return, and the next reset starts (R470, R509). -/
theorem State.rstDone_ends (hon : ∀ n, n ∈ s.rstDomains r → s.domOn n = true) :
    s.rstDone =
      let u := ((s.setFld .BU_RSTSTAT [] BU_RSTSTAT_BUSY 0).setFld .BU_RSTSTAT [] BU_RSTSTAT_SCOPE r.scope).rstPost
        (s.rstPart r.scope r.target) r.scope 0x0F30
      let u : State := { u with rsts := rest }
      (u.each (s.rstDomains r).reverse fun s n => s.domReturn n).startNext rest := by
  have hall : (s.rstDomains r).all s.domOn = true := List.all_eq_true.2 hon
  unfold State.rstDone
  rw [hq]
  simp only [hall, Bool.not_true, Bool.false_eq_true, if_false]
  rfl

theorem State.rstDone_wakes {n : Nat} (hn : n ∈ s.rstDomains r) (hoff : s.domOn n = false) :
    s.rstDone = s.each (s.rstDomains r) fun s n => if s.fld .PW_STAT [n] PW_STAT_STATE = 3 then s else s.wakeDomain n 5 := by
  have hall : (s.rstDomains r).all s.domOn = false := List.all_eq_false.2 ⟨n, hn, by simp [hoff]⟩
  unfold State.rstDone State.rstWakes
  simp only [hq, hall, Bool.not_false, if_true]

end

/-! ## Device resets -/

/-- What phase 1 leaves as it is: all but the registers (R569). -/
theorem State.bootPhase1_leaves {α : Type} (g : State → α) (hg : ∀ (u : State) l, g { u with regs := l } = g u) (s : State) :
    g s.bootPhase1 = g s := by
  unfold State.bootPhase1
  split
  · rfl
  · exact hg s _

/-- A device reset leaves what a start keeps, with the record of the start written anew (R508, R510). -/
theorem State.deviceReset_leaves {α : Type} (g : State → α) (hg : ∀ (u : State) l, g { u with regs := l } = g u) (s : State)
    (cold : Bool) (cause : Nat) :
    g (s.deviceReset cold cause) = g (s.kept.modBoot fun b =>
      { b with cold := !(!cold && s.boot.aonGood && !(s.boot.tripped || s.pw.tripped)),
               cause := if s.boot.tripped || s.pw.tripped then 4 else cause, resets := b.resets + 1, tripped := false,
               aonGood := b.aonGood && !(s.boot.tripped || s.pw.tripped) }) := by
  unfold State.deviceReset
  rw [State.bootPhase1_leaves g hg]
  exact (hg _ _).trans (hg _ _)

/-! ## Runtime BIST -/

theorem addr_BU_BISTSTAT (c : Nat) : Reg.addr .BU_BISTSTAT [c] = 0xFE00000600 + c * 4 := rfl

/-- A write of a register below the partition registers leaves the partition of every cluster as it was. -/
theorem State.partOfCluster_wr {s : State} {r : Reg} {idx : List Nat} {v : DWord} (h : r.addr idx < 0xFE03000000) (c : Nat) :
    (s.wr r idx v).partOfCluster c = s.partOfCluster c := by
  have hrd (r' : Reg) (p : Nat) (hb : 0xFE03000000 ≤ r'.addr [p]) : (s.wr r idx v).rd r' [p] = s.rd r' [p] :=
    State.rd_wr_ne _ _ _ _ (by omega)
  have haddr (p : Nat) : 0xFE03000000 ≤ Reg.addr .GP_PART_CFG [p] ∧ 0xFE03000000 ≤ Reg.addr .GP_PART_STATUS [p] ∧
      0xFE03000000 ≤ Reg.addr .GP_PART_CL0 [p] ∧ 0xFE03000000 ≤ Reg.addr .GP_PART_CL1 [p] ∧ 0xFE03000000 ≤ Reg.addr .GP_PART_CL2 [p] :=
    ⟨Nat.le_add_right .., Nat.le_add_right_of_le (by decide), Nat.le_add_right_of_le (by decide), Nat.le_add_right_of_le (by decide),
      Nat.le_add_right_of_le (by decide)⟩
  unfold State.partOfCluster State.bit State.fld State.val
  congr 1
  funext p
  obtain ⟨h1, h2, h3, h4, h5⟩ := haddr p
  rw [hrd _ p h1, hrd _ p h2, hrd _ p h3, hrd _ p h4, hrd _ p h5]

section
variable {s : State} {req : Requester} {c : Nat} {v : Word}

theorem State.cmdWrite_buBistCtrl (hr : s.Reached req .BU_BIST_CTRL []) :
    s.cmdWrite req .BU_BIST_CTRL [] v.toNat = (s.bistWrite v.toNat req).2 := by
  rw [State.cmdWrite_reached32 hr rfl rfl rfl, show v.toNat % 2 ^ 32 = v.toNat from word_mod v]
  rfl

section
variable (hc : v.toNat % 128 < 96) (hw : s.rstWriter 1 (v.toNat % 128) req = true) (hn : s.bistRuns (v.toNat % 128) = false)
include hc hw hn

theorem State.bistWrite_unready (hr : s.bistReady (v.toNat % 128) = false) :
    (s.bistWrite v.toNat req).2 = s.bistPost (v.toNat % 128) 0x0F21 := by
  simp [State.bistWrite, Nat.not_le.2 hc, hw, hn, hr]

/-- A request that meets its preconditions: the cluster waits for its domains and its voltage (R513, R514). -/
theorem State.bistWrite_ready {p : Nat} (hr : s.bistReady (v.toNat % 128) = true) (hp : s.partOfCluster (v.toNat % 128) = some p)
    (hi : s.inRegion p (s.val .BU_BIST_SAVE [v.toNat % 128]) bistBytes = true) :
    (s.bistWrite v.toNat req).2 =
      let c := v.toNat % 128
      let u := ((s.setBist c 1).setFld .BU_BISTSTAT [c] BU_BISTSTAT_REASON 0).modBist c fun b =>
        { b with off := s.fld .PW_STAT [c] PW_STAT_STATE == 2, saved := [] }
      ((u.wakeDomain c 6).wakeDomain (96 + c) 6).bistCaps (halfOf c) := by
  simp [State.bistWrite, Nat.not_le.2 hc, hw, hn, hr, hp, hi]

end

/-- The rail or the domains do not come up in time: the request fails (R514). -/
theorem State.bistStep_timesOut (hc : c < 96) (h : s.bistState c = 1) :
    s.bistStep c false =
      ((((s.setBist c 0).setFld .BU_BISTSTAT [c] BU_BISTSTAT_REASON 0x0F23).post (s.partOfCluster c) 9 c c 0x0F23).bistCaps
        (halfOf c)).bistBack c := by
  have hpart : (s.setBist c 0).partOfCluster c = s.partOfCluster c := State.partOfCluster_wr (by rw [addr_BU_BISTSTAT]; omega) c
  simp only [State.bistStep, h, State.bistPost, hpart, Bool.not_false, if_true]

theorem State.bistStep_saves (h : s.bistState c = 1) (hv : s.bit .CK_VID [halfOf c] CK_VID_OK = true) (hd : s.domOn c = true)
    (ho : (s.getBist c).off = false) (hh : (s.getBist c).held = false) :
    s.bistStep c true = (((s.bump .BU_BISTRUN []).rake 1 (c + 1)).bistQueues c).setBist c 2 := by
  simp [State.bistStep, h, hv, hd, ho, hh]

theorem State.bistStep_saved {ok : Bool} (h : s.bistState c = 2) : s.bistStep c ok = (s.bistSave c).setBist c 3 := by
  simp [State.bistStep, h]

theorem State.bistStep_fails (h : s.bistState c = 3) : s.bistStep c false = s.bistFail c := by
  simp [State.bistStep, h]

theorem State.bistStep_tested (h : s.bistState c = 3) (ho : (s.getBist c).off = false) (hh : (s.getBist c).held = false) :
    s.bistStep c true = s.setBist c 4 := by
  simp [State.bistStep, h, ho, hh]

theorem State.bistStep_restored {ok : Bool} (h : s.bistState c = 4) : s.bistStep c ok = (s.bistRestore c).bistPass c := by
  simp [State.bistStep, h]

end

/-- Settles O37: each operation's case, under the conditions that lead to it. -/
theorem resetAndSelfTestCommandsHaveTheirEffects : Obligations.ResetAndSelfTestCommandsHaveTheirEffects := by
  refine ⟨?write, ?device, ?complete, ?request, ?step⟩
  case write =>
    intro s req v hr t r
    have hwrite {k : Nat} {u : State} (hk : k < 4) (h : (s.rstWrite (withScope v k) req).2 = u) :
        Host.Outcome.next (s.cmdWrite req .BU_RST [] (withScope v k)) = (Host.Outcome.next u : Host.Outcome State Fault Refusal) :=
      congrArg Host.Outcome.next ((State.cmdWrite_buRst hr hk).trans h)
    refine ⟨fun hn => ?_, fun hn => ?_, fun hres hw => ?_, fun ht hw => ?_⟩
    · have hq {k : Nat} (hk : k < 3) (hres : rstReserved k t = false) (hw : s.rstWriter k t req = true) :=
        hwrite (by omega) ((State.rstWrite_queues hk hres hw).trans (State.rstQueue_running _ hn))
      exact ⟨hq (by decide), hq (by decide), hq (by decide)⟩
    · have hq {k : Nat} (hk : k < 3) (hres : rstReserved k t = false) (hw : s.rstWriter k t req = true) :=
        hwrite (by omega) ((State.rstWrite_queues hk hres hw).trans (State.rstQueue_idle _ hn))
      exact ⟨hq (by decide), hq (by decide), hq (by decide)⟩
    · exact hwrite (by decide) (State.rstWrite_refuses (by decide) hres hw)
    · exact hwrite (by decide) (State.rstWrite_resetsDevice ht hw)
  case device =>
    intro s cold cause _ trip warm u
    have hu {α : Type} (g : State → α) (hg : ∀ (u : State) l, g { u with regs := l } = g u) := s.deviceReset_leaves g hg cold cause
    have hboot := hu State.boot fun _ _ => rfl
    exact ⟨congrArg Boot.cold hboot, congrArg Boot.cause hboot, congrArg Boot.resets hboot, hu State.flash fun _ _ => rfl,
      hu (·.ks.pages) fun _ _ => rfl, hu (·.ks.roots) fun _ _ => rfl, hu (·.sec.challenge) fun _ _ => rfl, hu (·.sec.lc) fun _ _ => rfl,
      hu State.mem fun _ _ => rfl, hu State.staging fun _ _ => rfl, hu State.xfer fun _ _ => rfl, hu State.tb fun _ _ => rfl,
      hu State.rsts fun _ _ => rfl, hu State.pending fun _ _ => rfl⟩
  case complete =>
    intro s r rest hq
    exact ⟨fun hon => congrArg Host.Outcome.next (State.rstDone_ends hq hon),
      fun n hn hoff => congrArg Host.Outcome.next (State.rstDone_wakes hq hn hoff)⟩
  case request =>
    intro s req v hr c hc hw hn
    have hwrite := State.cmdWrite_buBistCtrl (v := v) hr
    refine ⟨fun h => ?_, fun p h hp hi => ?_⟩
    · exact congrArg Host.Outcome.next (hwrite.trans (State.bistWrite_unready hc hw hn h))
    · exact congrArg Host.Outcome.next (hwrite.trans (State.bistWrite_ready hc hw hn h hp hi))
  case step =>
    refine fun s c => ⟨fun h _ => ?_, fun h hv hd ho hh => ?_, fun h ok => ?_, fun h => ?_, fun h ho hh => ?_, fun h ok => ?_⟩
    · exact congrArg Host.Outcome.next (State.bistStep_timesOut c.isLt h)
    · exact congrArg Host.Outcome.next (State.bistStep_saves h hv hd ho hh)
    · exact congrArg Host.Outcome.next (State.bistStep_saved h)
    · exact congrArg Host.Outcome.next (State.bistStep_fails h)
    · exact congrArg Host.Outcome.next (State.bistStep_tested h ho hh)
    · exact congrArg Host.Outcome.next (State.bistStep_restored h)

end Sys2Proof.Machine
end

section
/-! What the reset pins, the supplies and the phases of a start do (R484, R499 to R505, R508, R509, R569): one equation for each case of an
operation. -/

namespace Sys2Proof.Machine

/-! ## Pins -/

section
variable {s : State}

theorem State.bootPhase1_starts (h : s.resetHeld = false) : s.bootPhase1 = s.setFld .BU_STATUS [] BU_STATUS_PHASE 1 :=
  if_neg (Bool.eq_false_iff.1 h)

theorem State.porstHigh_high {straps : Nat} (h : s.boot.porst = true) : s.porstHigh straps = s := if_pos h

/-- The rise of PORST_N starts a cold start at phase 1 (R499). -/
theorem State.porstHigh_starts {straps : Nat} (hp : s.boot.porst = false) (hs : s.boot.sysrstLow = false) (ha : s.boot.aonFault = false) :
    s.porstHigh straps =
      let trip := s.boot.tripped || s.pw.tripped
      ((s.kept.modBoot fun b => { b with porst := true, cold := true, cause := if trip then 4 else 0, resets := 0, straps := straps,
                                         tripped := false, aonGood := false }).setFld .PW_STATUS [] PW_STATUS_TRIPLAST
        (if trip then 1 else 0)).setFld .BU_STATUS [] BU_STATUS_PHASE 1 := by
  refine (if_neg (Bool.eq_false_iff.1 hp)).trans (State.bootPhase1_starts ?_)
  change (!true || s.boot.sysrstLow || s.boot.aonFault) = false
  rw [hs, ha]
  rfl

theorem State.sysrstDown_resets (hp : s.boot.porst = true) (ha : s.boot.aonFault = false) :
    s.sysrstDown = (s.modBoot fun b => { b with sysrstLow := true }).deviceReset false 1 := if_neg (by simp [hp, ha])

theorem State.sysrstDown_held (hp : s.boot.porst = false) : s.sysrstDown = s.modBoot fun b => { b with sysrstLow := true } :=
  if_pos (by simp [hp])

/-- The rise of SYSRST_N lets a start that it held go on (R569). -/
theorem State.sysrstUp_starts (hp : s.boot.porst = true) (ha : s.boot.aonFault = false) (hl : s.boot.sysrstLow = true)
    (hw : s.fld .BU_STATUS [] BU_STATUS_STATE = 0 ∧ s.fld .BU_STATUS [] BU_STATUS_PHASE = 0 ∧ s.fld .BU_STATUS [] BU_STATUS_REASON = 0) :
    s.sysrstUp = (s.modBoot fun b => { b with sysrstLow := false }).setFld .BU_STATUS [] BU_STATUS_PHASE 1 := by
  refine (if_neg (by simp [hl])).trans ((if_pos hw).trans (State.bootPhase1_starts ?_))
  change (!s.boot.porst || false || s.boot.aonFault) = false
  rw [hp, ha]
  rfl

theorem State.watchdog_resets (h : s.resetHeld = false) : s.watchdog = s.deviceReset false 3 := if_neg (Bool.eq_false_iff.1 h)

end

/-! ## Phases of a start -/

/-- What the phase in progress does as it completes. -/
def State.endPhase (s : State) (ph us : Nat) (facts : List BootFact) : State :=
  match ph with
  | 1 => if s.boot.straps % 2 = 1 then s.enterRecovery 0x0F13 facts else s.setPhase 2
  | 2 => s.phaseBundle facts
  | 3 => s.phaseFuses facts
  | 4 => s.phaseClocks
  | 5 => s.phaseBist us facts
  | 6 => s.phaseTrain us facts
  | 7 => s.phaseWipe us facts
  | 8 => s.phaseData facts
  | _ => s.phaseReady facts

/-- The state with the time of a phase added to the time of the start (R507). -/
def State.phaseTimed (s : State) (us : Nat) : State := s.modBoot fun b => { b with tboot := b.tboot + us }

section
variable {s : State} {us : Nat} {facts : List BootFact}

theorem State.bootDone_hot (hp : s.fld .BU_STATUS [] BU_STATUS_PHASE = 1) (hc : s.boot.cold = true) (hh : s.coolEnough = false) :
    s.bootDone us facts = s := if_pos (by simp [hp, hc, hh])

/-- A phase completes: phase 1 once every sensor is cool enough, any other at once (R484). -/
theorem State.bootDone_phase {ph : Nat} (hr : s.resetHeld = false) (hp : s.fld .BU_STATUS [] BU_STATUS_PHASE = ph) (h0 : ph ≠ 0)
    (h1 : ph = 1 → s.coolEnough = true) : s.bootDone us facts = (s.phaseTimed us).endPhase ph us facts := by
  refine (if_neg ?_).trans (by rw [hp]; rfl)
  have hcool : ¬ (ph = 1 ∧ s.coolEnough = false) := fun h => by simp [h1 h.1] at h
  simp only [hr, hp, Bool.false_or, Bool.or_eq_true, Bool.and_eq_true, beq_iff_eq, Bool.not_eq_true']
  tauto

/-- Phase 2 with a flash that can be read, on a device that is not DECOMMISSIONED (R498, R501). -/
theorem State.phaseBundle_read (hf : facts.contains .flashBad = false) (hs : s.sec.state ≠ 4) :
    s.phaseBundle facts =
      let h := s.headCode s.source
      let k := sectsCode s.source [1, 5]
      if h.1 ≠ 0 then (s.verifyPost h).enterRecovery h.1 facts
      else if k ≠ 0 then (s.verifyPost (0x0F11, k)).enterRecovery 0x0F11 facts
      else (s.acceptBundle s.source).setFld .BU_STATUS [] BU_STATUS_PHASE 3 :=
  (if_neg (Bool.eq_false_iff.1 hf)).trans (if_neg hs)

theorem State.fuseMaps_sec (s : State) : s.fuseMaps.sec = s.sec := by
  unfold State.fuseMaps
  refine State.each_leaves State.sec ?_ s
  exact fun u h _ => u.setFld_sec ..

/-- Phase 3 with fuses that can be read and a HUK that is fused (R522). -/
theorem State.phaseFuses_read (hf : facts.contains .fuseBad = false) (hh : s.sec.huk ≠ []) :
    s.phaseFuses facts = s.fuseMaps.setPhase 4 := by
  have hhuk : ¬ (s.fuseMaps.sec.state = 0 ∧ s.fuseMaps.sec.huk = []) := by
    rw [State.fuseMaps_sec]
    exact fun h => hh h.2
  simp only [State.phaseFuses, hf, hhuk, Bool.false_eq_true, if_false]

/-- The clocks' start leaves the record of the start as it was. -/
theorem State.clocksStart_boot (s : State) : s.clocksStart.boot = s.boot := by
  unfold State.clocksStart
  refine (State.each_leaves State.boot ?_ _).trans (State.each_leaves State.boot ?_ s) <;> exact fun _ _ _ => rfl

theorem State.phaseClocks_eq (s : State) :
    s.phaseClocks =
      let w := (s.each (List.range 229) fun s n => s.setFld .PW_STAT [n] PW_STAT_STATE 0).clocksStart
      w.setFld .BU_STATUS [] BU_STATUS_PHASE (if w.boot.cold then 5 else 6) := by
  dsimp only
  rw [State.clocksStart_boot]
  rfl

theorem State.phaseBist_backbone (h : facts.contains .westBackbone = false) :
    s.phaseBist us facts =
      (((s.each facts State.bistFact).modBoot fun b => { b with tbist := us }).rake 0 0).setFld .BU_STATUS [] BU_STATUS_PHASE 6 :=
  congrArg (State.setPhase _) (if_neg (Bool.eq_false_iff.1 h))

/-- A known answer is compared in phase 7 at an engine that is not fenced, in a cluster that is on (R505). -/
theorem State.knownAnswer_compared {c k : Nat} {ok : Bool} (hp : s.fld .BU_STATUS [] BU_STATUS_PHASE = 7) (hf : s.fencedEng c k = false)
    (hd : s.domOn c = true) :
    s.knownAnswer c k ok = if ok then s.bump .BU_KATRUN [] else
      ((((s.bump .BU_KATRUN []).bump .BU_KATFAIL []).fenceAt c k).noteFence c 3).startPost k c 0x0F16 := if_neg (by simp [hp, hf, hd])

end

/-- Settles O36: each operation's case, under the conditions that lead to it. -/
theorem startPhaseCommandsHaveTheirEffects : Obligations.StartPhaseCommandsHaveTheirEffects := by
  refine ⟨fun _ => rfl, ?rise, ?pins, ?phases, ?answer⟩
  case rise =>
    exact fun s straps => ⟨fun h => congrArg Host.Outcome.next (State.porstHigh_high h),
      fun hp hs ha => congrArg Host.Outcome.next (State.porstHigh_starts hp hs ha)⟩
  case pins =>
    refine fun s => ⟨fun hp ha => ?_, fun hp => ?_, fun hp ha hl h1 h2 h3 => ?_, fun h => ?_, rfl, rfl, rfl⟩
    · exact congrArg Host.Outcome.next (State.sysrstDown_resets hp ha)
    · exact congrArg Host.Outcome.next (State.sysrstDown_held hp)
    · exact congrArg Host.Outcome.next (State.sysrstUp_starts hp ha hl ⟨h1, h2, h3⟩)
    · exact congrArg Host.Outcome.next (State.watchdog_resets h)
  case phases =>
    intro s us facts hr ph u
    have hdone {k : Nat} (hk : ph = k + 2) : exec (.bootPhaseDone us facts) s = .next (u.endPhase (k + 2) us facts) :=
      congrArg Host.Outcome.next (State.bootDone_phase hr hk (by omega) (by omega))
    refine ⟨fun h hc hh => ?_, fun h hh => ?_, fun h hf => ?_, fun h hf hs => ?_, fun h hf => ?_, fun h hf hs => ?_, fun h => ?_, fun h hf => ?_,
      hdone, hdone, hdone, hdone⟩
    · exact congrArg Host.Outcome.next (State.bootDone_hot h hc hh)
    · exact congrArg Host.Outcome.next (State.bootDone_phase hr h (by decide) fun _ => hh)
    · exact (hdone h).trans (congrArg Host.Outcome.next (if_pos hf))
    · exact (hdone h).trans (congrArg Host.Outcome.next (State.phaseBundle_read hf hs))
    · exact (hdone h).trans (congrArg Host.Outcome.next (if_pos hf))
    · exact (hdone h).trans (congrArg Host.Outcome.next (State.phaseFuses_read hf hs))
    · exact (hdone h).trans (congrArg Host.Outcome.next (State.phaseClocks_eq u))
    · exact (hdone h).trans (congrArg Host.Outcome.next (State.phaseBist_backbone hf))
  case answer =>
    exact fun s c k hp hf hd => ⟨congrArg Host.Outcome.next ((State.knownAnswer_compared hp hf hd).trans (if_pos rfl)),
      congrArg Host.Outcome.next ((State.knownAnswer_compared hp hf hd).trans (if_neg Bool.false_ne_true))⟩

end Sys2Proof.Machine
end

section
/-! What the commands of the recovery listener and the security commands of a tray do (R413, R498, R516, R525 to R543): one equation for
each case of an operation. -/

namespace Sys2Proof.Machine

/-! ## Ranges of a command -/

section
variable {x : Cmd} {granule : Nat}

theorem stagOk_iff : stagOk x = true ↔
    x.soff % 64 = 0 ∧ x.len % 64 = 0 ∧ 64 ≤ x.len ∧ bulkBase ≤ x.soff ∧ x.soff + x.len ≤ bulkEnd := by
  simp only [stagOk, Bool.and_eq_true, beq_iff_eq, decide_eq_true_eq, and_assoc]

theorem sofCode_ne_zero_iff : sofCode x ≠ 0 ↔ stagOk x = false := by
  unfold sofCode
  cases stagOk x <;> simp

theorem lenCode_ne_zero_iff : lenCode x ≠ 0 ↔ x.len % 64 ≠ 0 ∨ x.len < 64 ∨ x.len > 7274496 := by
  unfold lenCode
  split_ifs with h
  · exact iff_of_true (by decide) h
  · exact iff_of_false (by decide) h

theorem flashCode_ne_zero_iff : flashCode x granule ≠ 0 ↔
    ¬ (x.adr % granule = 0 ∧ x.len % granule = 0 ∧ x.adr + x.len ≤ Config.flashSize * 2 ^ 20) := by
  rw [not_and_or, not_and_or, not_le]
  unfold flashCode
  split_ifs with h
  · exact iff_of_true (by decide) h
  · exact iff_of_false (by decide) h

/-- A command whose staging range is sound does its work where its flash range is, and ends with 0x0C10 elsewhere. -/
theorem flashRange_ite {α : Type} {a b : α} (hs : stagOk x = true) :
    (if sofCode x ≠ 0 ∨ flashCode x granule ≠ 0 then b else a) =
      if x.adr % granule = 0 ∧ x.len % granule = 0 ∧ x.adr + x.len ≤ Config.flashSize * 2 ^ 20 then a else b := by
  simp only [sofCode_ne_zero_iff, flashCode_ne_zero_iff, hs, Bool.true_eq_false, false_or, ite_not]

end

/-! ## The recovery listener -/

section
variable {s : State} {n t : Nat} {x : Cmd} (h : s.Starts n t x)
include h

theorem State.rcvInfo_starts (hop : x.op = 0x20) :
    s.rcvInfo n t = s.endCmd n x 0 (s.boot.entry % 2 ^ 16 + Config.flashSize * 2 ^ 32) 0 := State.runCmd_starts h hop

theorem State.rcvStage_copies (hop : x.op = 0x21) (hs : stagOk x = true) (hb : x.adr + x.len ≤ recBuffer) :
    s.rcvStage n t = (s.poke x.adr (s.stagPeek n x.soff x.len)).endCmd n x 0 0 x.len :=
  (State.runCmd_starts h hop).trans (if_neg (by simp [sofCode_ne_zero_iff, hs, hb]))

theorem State.rcvStage_beyond (hop : x.op = 0x21) (hb : recBuffer < x.adr + x.len) :
    s.rcvStage n t = s.endCmd n x 0x0C10 0 0 := (State.runCmd_starts h hop).trans (if_pos (.inr hb))

theorem State.rcvBoot_noFuses (hop : x.op = 0x22) (he : s.boot.entry = 0x0F03) : s.rcvBoot n t = s.endCmd n x 0x0F03 0 0 :=
  (State.runCmd_starts h hop).trans (if_pos he)

/-- RCV_BOOT with sound fuses verifies the buffer, and a valid bundle restarts from it at phase 3 (R498, R516). -/
theorem State.rcvBoot_verifies (hop : x.op = 0x22) (he : s.boot.entry ≠ 0x0F03) :
    s.rcvBoot n t =
      let v := s.headCode s.peek
      let k := sectsCode s.peek [1, 2, 3, 4, 5, 6, 7, 8, 9]
      if v.1 ≠ 0 then (s.verifyPost v).endCmd n x v.1 0 0
      else if k ≠ 0 then (s.verifyPost (0x0F11, k)).endCmd n x 0x0F11 0 0
      else
        let w := s.writeDone n { x with st := 2 }
        let u := w.kept.modBoot fun y => { y with cold := true, cause := w.boot.cause, tboot := w.boot.tboot, tripped := false,
                                                  buf := w.mem.filter fun e => decide (e.1 < 2 ^ 29) }
        let u := (u.setFld .BU_STATUS [] BU_STATUS_PATH 2).setFld .BU_STATUS [] BU_STATUS_REASON (w.fld .BU_STATUS [] BU_STATUS_REASON)
        (u.acceptBundle u.source).setFld .BU_STATUS [] BU_STATUS_PHASE 3 := (State.runCmd_starts h hop).trans (if_neg he)

theorem State.flashRead_starts (hop : x.op = 0x23) (hs : stagOk x = true) :
    s.flashRead n t = if x.adr + x.len ≤ Config.flashSize * 2 ^ 20
      then (s.stagPoke n x.soff ((List.range x.len).map fun i => s.flashByte (x.adr + i))).endCmd n x 0 0 x.len
      else s.endCmd n x 0x0C10 0 0 := by
  refine (State.runCmd_starts h hop).trans ((flashRange_ite hs).trans ?_)
  simp only [Nat.mod_one, true_and]

theorem State.flashErase_starts (hop : x.op = 0x24) (h64 : x.len % 64 = 0) (hmin : 64 ≤ x.len) (hmax : x.len ≤ 7274496) :
    s.flashErase n t =
      if x.adr % Config.flashErase = 0 ∧ x.len % Config.flashErase = 0 ∧ x.adr + x.len ≤ Config.flashSize * 2 ^ 20
      then ({ s with flash := mclear s.flash x.adr x.len } : State).endCmd n x 0 0 0 else s.endCmd n x 0x0C10 0 0 := by
  have hlen : ¬ (x.len % 64 ≠ 0 ∨ x.len < 64 ∨ x.len > 7274496) := by omega
  refine (State.runCmd_starts h hop).trans ?_
  simp only [lenCode_ne_zero_iff, flashCode_ne_zero_iff, hlen, false_or, ite_not]

theorem State.flashProgram_starts (hop : x.op = 0x25) (hs : stagOk x = true) :
    s.flashProgram n t =
      if x.adr % Config.flashProgram = 0 ∧ x.len % Config.flashProgram = 0 ∧ x.adr + x.len ≤ Config.flashSize * 2 ^ 20
      then (s.each ((s.stagPeek n x.soff x.len).zip (List.range x.len)) fun s e => s.programByte (x.adr + e.2) e.1).endCmd n x 0 0 x.len
      else s.endCmd n x 0x0C10 0 0 := (State.runCmd_starts h hop).trans (flashRange_ite hs)

end

section
variable {s : State} {a : Nat} (b : Byte) (h : mget s.flash a = 0)
include h

theorem State.programByte_erased : s.programByte a b = { s with flash := mput s.flash a (b.toNat + 1) } := if_pos h

theorem State.flashByte_programByte : (s.programByte a b).flashByte a = b := by
  rw [State.programByte_erased b h]
  simp [State.flashByte]

end

/-- Settles O38: each operation's case, under the conditions that lead to it. -/
theorem recoveryCommandsHaveTheirEffects : Obligations.RecoveryCommandsHaveTheirEffects := by
  refine ⟨?commands, fun s a b h => ⟨State.programByte_erased b h, State.flashByte_programByte b h⟩⟩
  case commands =>
    intro s n t x hnext hmay hon fin good inFlash
    have h : s.Starts n.val t.val x := ⟨hon, hnext, hmay⟩
    have hstag (hg : good) : stagOk x = true := stagOk_iff.2 hg
    refine ⟨fun hop => ?info, fun hop hg hb => ?stage, fun hop hb => ?beyond, fun hop he => ?noFuses, fun hop he => ?boot,
      fun hop hg => ?read, fun hop h64 hmin hmax => ?erase, fun hop hg => ?program⟩
    case info => exact congrArg Host.Outcome.next (State.rcvInfo_starts h hop)
    case stage => exact congrArg Host.Outcome.next (State.rcvStage_copies h hop (hstag hg) hb)
    case beyond => exact congrArg Host.Outcome.next (State.rcvStage_beyond h hop hb)
    case noFuses => exact congrArg Host.Outcome.next (State.rcvBoot_noFuses h hop he)
    case boot => exact congrArg Host.Outcome.next (State.rcvBoot_verifies h hop he)
    case read => exact congrArg Host.Outcome.next (State.flashRead_starts h hop (hstag hg))
    case erase => exact congrArg Host.Outcome.next (State.flashErase_starts h hop h64 hmin hmax)
    case program => exact congrArg Host.Outcome.next (State.flashProgram_starts h hop (hstag hg))

/-! ## Security commands -/

section
variable {s : State} {n t op code : Nat} {x : Cmd}

theorem State.scEnd_posts (hc : 0x1000 ≤ code) (result moved : Nat) :
    s.scEnd n x code result moved = (s.scPost (s.partOfPort n) code).endCmd n x code result moved := by
  simp only [State.scEnd, hc, if_true]

theorem State.scEnd_done (result moved : Nat) : s.scEnd n x 0 result moved = s.endCmd n x 0 result moved := rfl

section
variable (h : s.Starts n t x) (hop : x.op = op)
include h hop

theorem State.scRun_refused {f : State → Cmd → State} (hp : s.scPermit n op = false) : s.scRun n t op f = s.scEnd n x 0x1001 0 0 :=
  (State.runCmd_starts h hop).trans (if_neg (Bool.eq_false_iff.1 hp))

theorem State.scRun_permitted {f : State → Cmd → State} (hp : s.scPermit n op = true) : s.scRun n t op f = f s x :=
  (State.runCmd_starts h hop).trans (if_pos hp)

end

section
variable (h : s.Starts n t x) (hp : s.scPermit n x.op = true)
include h hp

theorem State.scInfo_permitted (hop : x.op = 0x40) :
    s.scInfo n t = s.scEnd n x 0 (s.sec.state + s.sec.floor % 256 * 2 ^ 8 + s.sec.count * 2 ^ 16 + (if s.sec.seed = [] then 0 else 2 ^ 24)) 0 :=
  State.scRun_permitted h hop (hop ▸ hp)

theorem State.getPubkey_permitted (hop : x.op = 0x41) (hs : stagOk x = true) (hl : x.len = 2624) :
    s.getPubkey n t = (s.stagPoke n x.soff (mldsaPublic s.sec.seed)).scEnd n x 0 0 2592 :=
  (State.scRun_permitted h hop (hop ▸ hp)).trans (if_neg (by simp [hs, hl]))

/-- GET_CERT writes the chain that matches CERTHASH where its range holds it (R527). -/
theorem State.getCert_permitted (hop : x.op = 0x42) (hc : s.boot.chain ≠ []) (hh : fit 64 (sha3 s.boot.chain) = s.sec.certhash)
    (hs : stagOk x = true) (hl : (s.boot.chain.length + 63) / 64 * 64 ≤ x.len) :
    s.getCert n t = (s.stagPoke n x.soff s.boot.chain).scEnd n x 0 0 s.boot.chain.length :=
  (State.scRun_permitted h hop (hop ▸ hp)).trans ((if_neg (by simp [hc, hh])).trans (if_neg (by simp [hs, hl])))

theorem State.getCert_mismatch (hop : x.op = 0x42) (hh : fit 64 (sha3 s.boot.chain) ≠ s.sec.certhash) :
    s.getCert n t = s.scEnd n x 0x100B 0 0 := (State.scRun_permitted h hop (hop ▸ hp)).trans (if_pos (.inr hh))

theorem State.attest_range (hop : x.op = 0x43) (hs : stagOk x = true) (hl : x.len = 4992) :
    s.attest n t =
      if s.sec.rngBad then s.scEnd n x 0x1009 0 0
      else
        let body := s.reportBody n (s.stagPeek n x.soff 64)
        let sig := mldsaSign s.sec.seed (sha3 body) (s.freeBytes 32).1
        (((s.freeBytes 32).2.stagPoke n x.soff (body ++ sig ++ List.replicate 45 0)).bump .SC_ATTESTS []).scEnd n x 0 0 4992 :=
  (State.scRun_permitted h hop (hop ▸ hp)).trans (if_neg (by simp [hs, hl]))

theorem State.lcChallenge_range (hop : x.op = 0x44) (hs : stagOk x = true) (hl : x.len = 64) :
    s.lcChallenge n t =
      if s.sec.rngBad then s.scEnd n x 0x1009 0 0
      else (((s.freeBytes 64).2.modSec fun k => { k with challenge := some (s.freeBytes 64).1 }).stagPoke n x.soff
        (s.freeBytes 64).1).scEnd n x 0 0 64 := (State.scRun_permitted h hop (hop ▸ hp)).trans (if_neg (by simp [hs, hl]))

theorem State.setFloor_permitted (hop : x.op = 0x46) :
    s.setFloor n t =
      if s.sec.floor < x.data % 256 ∧ x.data % 256 ≤ s.boot.version / 2 ^ 56
      then (s.modSec fun k => { k with floor := x.data % 256 }).scEnd n x 0 0 0
      else s.scEnd n x 0x1008 0 0 := State.scRun_permitted h hop (hop ▸ hp)

theorem State.keygen_fused (hop : x.op = 0x47) (hk : s.sec.seed ≠ []) : s.keygen n t = s.scEnd n x 0x100A 0 0 :=
  (State.scRun_permitted h hop (hop ▸ hp)).trans (if_pos hk)

/-- KEYGEN fuses a seed where there is none (R526). -/
theorem State.keygen_fuses (hop : x.op = 0x47) (hk : s.sec.seed = []) (hs : stagOk x = true) (hl : x.len = 2624)
    (hr : s.sec.rngBad = false) :
    s.keygen n t = (((s.freeBytes 32).2.modSec fun k => { k with seed := (s.freeBytes 32).1 }).stagPoke n x.soff
      (mldsaPublic (s.freeBytes 32).1)).scEnd n x 0 0 2592 :=
  (State.scRun_permitted h hop (hop ▸ hp)).trans
    ((if_neg (not_not.2 hk)).trans ((if_neg (by simp [hs, hl])).trans (if_neg (Bool.eq_false_iff.1 hr))))

/-- LC_TOKEN discards the challenge; an accepted token programs the fuses and resets the device (R536, R537). -/
theorem State.lcToken_range (hop : x.op = 0x45) (hs : stagOk x = true) (hl : x.len = 5184 ∨ x.len = 7808) :
    s.lcToken n t =
      let u := s.modSec fun k => { k with challenge := none }
      let b := u.stagPeek n x.soff x.len
      let code := u.tokenCode b x.len s.sec.challenge
      if code = 0 then ((((u.bump .SC_TOKACC []).writeDone n { x with st := 2 }).ksErase).modSec fun k => k.program b).deviceReset true 5
      else
        let w := u.bump .SC_TOKREF []
        (if code = 0x1003 then w.bump .SC_SIGFAIL [] else w).scEnd n x code 0 0 := by
  have hrange : (!stagOk x || (x.len != 5184 && x.len != 7808)) = false := by rcases hl with hl | hl <;> simp [hs, hl]
  refine (State.scRun_permitted h hop (hop ▸ hp)).trans ((if_neg (Bool.eq_false_iff.1 hrange)).trans ((ite_not ..).trans ?_))
  simp only [State.when, beq_iff_eq]

end

end

/-- Settles O39: each operation's case, under the conditions that lead to it. -/
theorem securityCommandsHaveTheirEffects : Obligations.SecurityCommandsHaveTheirEffects := by
  refine ⟨?commands, fun s n code x hc => State.scEnd_posts hc 0 0, fun _ => rfl⟩
  case commands =>
    intro s n t x hnext hmay hon fin bad good
    have h : s.Starts n.val t.val x := ⟨hon, hnext, hmay⟩
    have hstag {k : Nat} (hl : x.len = k) (hk : k % 64 = 0 ∧ 64 ≤ k) (hg : good) : stagOk x = true :=
      stagOk_iff.2 ⟨hg.1, hl ▸ hk.1, hl ▸ hk.2, hg.2⟩
    refine ⟨fun hp => ?refused, fun hp => ?permitted⟩
    case refused =>
      have hbad {op : Nat} {f : State → Cmd → State} (hop : x.op = op) :
          Host.Outcome.next (s.scRun n.val t.val op f) = (Host.Outcome.next (bad s 0x1001) : Host.Outcome State Fault Refusal) :=
        congrArg Host.Outcome.next ((State.scRun_refused h hop (hop ▸ hp)).trans (State.scEnd_posts (by decide) 0 0))
      exact ⟨hbad, hbad, hbad, hbad, hbad, hbad, hbad, hbad⟩
    case permitted =>
      have hbad {u : State} {code : Nat} (hc : 0x1000 ≤ code) (hu : u = s.scEnd n.val x code 0 0) :
          Host.Outcome.next u = (Host.Outcome.next (bad s code) : Host.Outcome State Fault Refusal) :=
        congrArg Host.Outcome.next (hu.trans (State.scEnd_posts hc 0 0))
      refine ⟨fun hop => ?info, fun hop hl hg => ?pubkey, fun hop hc hh h64 hmin hg hl => ?cert, fun hop hh => ?mismatch,
        fun hop hl hg hr => ?attest, fun hop hl hg hr => ?attestBad, fun hop hl hg hr => ?challenge, fun hop hf hv => ?floor,
        fun hop hf => ?floorBad, fun hop hk hl hg hr => ?keygen, fun hop hk => ?keygenBad, fun hop hl hg => ?token⟩
      case info => exact congrArg Host.Outcome.next (State.scInfo_permitted h hp hop)
      case pubkey => exact congrArg Host.Outcome.next (State.getPubkey_permitted h hp hop (hstag hl (by decide) hg) hl)
      case cert => exact congrArg Host.Outcome.next (State.getCert_permitted h hp hop hc hh (hstag rfl ⟨h64, hmin⟩ hg) hl)
      case mismatch => exact hbad (by decide) (State.getCert_mismatch h hp hop hh)
      case attest =>
        exact congrArg Host.Outcome.next ((State.attest_range h hp hop (hstag hl (by decide) hg) hl).trans (if_neg (Bool.eq_false_iff.1 hr)))
      case attestBad => exact hbad (by decide) ((State.attest_range h hp hop (hstag hl (by decide) hg) hl).trans (if_pos hr))
      case challenge =>
        exact congrArg Host.Outcome.next ((State.lcChallenge_range h hp hop (hstag hl (by decide) hg) hl).trans
          (if_neg (Bool.eq_false_iff.1 hr)))
      case floor => exact congrArg Host.Outcome.next ((State.setFloor_permitted h hp hop).trans (if_pos ⟨hf, hv⟩))
      case floorBad => exact hbad (by decide) ((State.setFloor_permitted h hp hop).trans (if_neg (by omega)))
      case keygen => exact congrArg Host.Outcome.next (State.keygen_fuses h hp hop hk (hstag hl (by decide) hg) hl hr)
      case keygenBad => exact hbad (by decide) (State.keygen_fused h hp hop hk)
      case token =>
        have hs : stagOk x = true := hl.elim (fun hl => hstag hl (by decide) hg) fun hl => hstag hl (by decide) hg
        exact congrArg Host.Outcome.next (State.lcToken_range h hp hop hs hl)

end Sys2Proof.Machine
end

section
/-! What cells, credits, deliveries, failures and the throttle of the seam do (R436 to R454): one equation for each case of an operation. -/

namespace Sys2Proof.Machine

/-! ## Data cells -/

/-- The control messages that have crossed in a direction act, in their order (R450). -/
def State.gotActs (s : State) (d : Nat) (fate : CellFate) : State :=
  (s.modSdir d fun y => { y with got := [] }).each (s.getSdir d).got fun s m => s.cnLanded (1 - d) m { links := fate.links, bad := fate.bad }

/-- A lane's receiver accepts a cell with some contents, and the ACK it carries frees cells of the other direction (R438). -/
def State.cellAccept (s : State) (d l : Nat) (c : Cargo) : State :=
  (((s.bump .SM_CELLS [l]).modLane d l fun x => { x with exp := (x.exp + 1) % 1024, fails := 0, nak := false }).landCell d c).ackFree (1 - d) l

/-- A lane's receiver discards a resent cell with a bad CRC (R438). -/
def State.cellBadCrc (s : State) (d l : Nat) : State :=
  (((s.bump .SM_CELLS [l]).bump .SM_CRCERR [l]).cellDiscard d l).modLane d l fun x => { x with fails := x.fails + 1 }

/-- A cell of a virtual lane of a working link, with no cell of a lane before it waiting (R443). -/
structure State.CellGoes (s : State) (d l vl : Nat) : Prop where
  inService : s.inSvc l = true
  rated : s.linkRate d l ≠ 0
  whole : s.isSplit = false
  first : ∀ k, vl < k → k < 3 → s.cellWaits d l k = false

section
variable {s : State} {d l vl : Nat} {fate : CellFate} {c : Cargo} (h : s.CellGoes d l vl)

theorem State.cellBadCrc_fails : ((s.cellBadCrc d l).getLane d l).fails = (s.getLane d l).fails + 1 := by
  simp [State.cellBadCrc, State.cellDiscard, State.getLane]

include h

theorem State.CellGoes.unguarded :
    (!s.inSvc l || s.linkRate d l == 0 || s.isSplit || (decide (vl < 2) && s.cellWaits d l 2) ||
      (decide (vl < 1) && s.cellWaits d l 1)) = false := by
  obtain ⟨hin, hrate, hwhole, hfirst⟩ := h
  have h2 : (decide (vl < 2) && s.cellWaits d l 2) = false := by
    by_cases hv : vl < 2 <;> simp [hv, hfirst]
  have h1 : (decide (vl < 1) && s.cellWaits d l 1) = false := by
    by_cases hv : vl < 1 <;> simp [hv, hfirst]
  rw [hin, hwhole, h2, h1]
  simpa using hrate

/-- A cell that the receiver expects and takes with a correct CRC. -/
theorem State.seamCell_accepts {again : Bool} {u : State} (ha : (fate.ahead && s.cellLost d l) = false) (hg : fate.good = true)
    (hn : s.nextCell d l vl = some (c, again, u)) : s.seamCell d l vl fate = (u.cellAccept d l c, false) := by
  simp only [State.seamCell, h.unguarded, ha, hn, hg, Bool.false_eq_true, if_false, if_true, State.cellAccept]

theorem State.seamArrive_accepts {again : Bool} {u : State} (ha : (fate.ahead && s.cellLost d l) = false) (hg : fate.good = true)
    (hn : s.nextCell d l vl = some (c, again, u)) : s.seamArrive d l vl fate = (u.cellAccept d l c).gotActs d fate := by
  have hdata : s.seamDataCell d l vl fate = u.cellAccept d l c := by
    rw [State.seamDataCell, State.seamCell_accepts h ha hg hn]
    exact if_neg Bool.false_ne_true
  exact congrArg (State.gotActs · d fate) hdata

section
variable (hc : ((s.getLane d l).buf.find? fun b => b.1 == (s.getLane d l).exp) = some ((s.getLane d l).exp, c))
include hc

omit h in
theorem State.nextCell_again : s.nextCell d l vl = some (c, true, s) := by
  simp only [State.nextCell, hc]

/-- A resent cell with a bad CRC is discarded, and the 16th failed replay fails the link (R451). -/
theorem State.seamArrive_badCrc (ha : fate.ahead = false) (hg : fate.good = false) :
    s.seamArrive d l vl fate =
      (if 15 ≤ (s.getLane d l).fails then (s.cellBadCrc d l).linkFail d l 0x0D23 else s.cellBadCrc d l).gotActs d fate := by
  have hcell : s.seamCell d l vl fate = (s.cellBadCrc d l, decide (15 ≤ (s.getLane d l).fails)) := by
    simp only [State.seamCell, h.unguarded, ha, State.nextCell_again hc, hg, Bool.false_and, Bool.false_eq_true, if_false, if_true]
    refine Prod.ext rfl (decide_eq_decide.2 ?_)
    exact (State.cellBadCrc_fails (s := s) (d := d) (l := l)) ▸ ⟨Nat.le_of_succ_le_succ, Nat.succ_le_succ⟩
  have hdata : s.seamDataCell d l vl fate =
      if 15 ≤ (s.getLane d l).fails then (s.cellBadCrc d l).linkFail d l 0x0D23 else s.cellBadCrc d l := by
    rw [State.seamDataCell, hcell]
    simp only [decide_eq_true_eq]
  exact congrArg (State.gotActs · d fate) hdata

/-- A later cell that is sent while a lost one is expected is discarded (R438). -/
theorem State.seamArrive_ahead {w : Cargo × State} (ha : fate.ahead = true) (hg : fate.good = true) (hw : s.newCell d l vl = some w) :
    s.seamArrive d l vl fate = ((w.2.bump .SM_CELLS [l]).cellDiscard d l).gotActs d fate := by
  have hlost : s.cellLost d l = true := List.any_eq_true.2 ⟨_, List.mem_of_find?_eq_some hc, by simp⟩
  have hdata : s.seamDataCell d l vl fate = (w.2.bump .SM_CELLS [l]).cellDiscard d l := by
    simp only [State.seamDataCell, State.seamCell, h.unguarded, ha, hlost, hw, hg, State.when, Bool.and_self, Bool.not_true,
      Bool.false_eq_true, if_false, if_true]
  exact congrArg (State.gotActs · d fate) hdata

end

end

/-- A new trellis cell carries the oldest beat of the link's crossings (R446). -/
theorem State.nextCell_beat {s : State} {d l : Nat} {b : SBeat}
    (hnone : ((s.getLane d l).buf.find? fun b => b.1 == (s.getLane d l).exp) = none) (hroom : (s.getLane d l).buf.length < 256)
    (hmoved : (s.getSdir d).moved = []) (hb : ((s.getSdir d).tq.find? fun b => s.crossLink d b.cross == l) = some b) :
    s.nextCell d l 1 = some (.beat b, false, (s.modSdir d fun _ => { s.getSdir d with tq := (s.getSdir d).tq.erase b }).modLane d l fun x =>
      { x with next := (x.next + 1) % 1024, buf := x.buf ++ [(x.next, .beat b)] }) := by
  have hpack : s.pack d l 1 = some (.beat b, { s.getSdir d with tq := (s.getSdir d).tq.erase b }) := by
    simp only [State.pack, hmoved, List.find?_nil, hb]
  simp only [State.nextCell, hnone, State.newCell, ge_iff_le, Nat.not_le.2 hroom, if_false, hpack, Option.map_some]

/-! ## What cells bring and free -/

theorem State.landCell_live {s : State} {d : Nat} {b : SBeat} (ho : (s.getXfer b.key).own ≠ .none) (hf : (s.getXfer b.key).fin = 0) :
    s.landCell d (.beat b) = (s.modSdir d fun x => { x with fifo := x.fifo ++ [b] }).bump .SM_TBEATS [d] := by
  simp [State.landCell, ho, hf]

/-- Cells that carry no events are freed and counted in no group (R438, R456). -/
theorem State.ackFree_noEvents {s : State} {d l : Nat} (h : ∀ b, b ∈ (s.getLane d l).buf → ∀ fs, b.2 ≠ .event fs) :
    s.ackFree d l = s.modLane d l fun x => { x with buf := x.buf.filter fun b => !x.accepted b.1 } := by
  refine congrArg (State.modLane · d l _) (State.each_fixed fun b hb => ?_)
  split
  · next fs hev => exact absurd hev (h b (List.mem_filter.1 hb).1 fs)
  · rfl

section
variable {s : State} {d l : Nat} (hin : s.inSvc l = true) (hs : s.isSplit = false)
include hin hs

theorem State.seamReplay_owed (hn : (s.getLane d l).nak = true) :
    s.seamReplay d l = ((s.modLane d l fun x => { x with nak := false }).ackFree d l).bump .SM_REPLAY [l] := if_pos (by simp [hin, hs, hn])

omit hin hs in
theorem State.seamReplay_idle (hn : (s.getLane d l).nak = false) : s.seamReplay d l = s := if_neg (by simp [hn])

theorem State.seamIdle_acks : s.seamIdle d l = s.ackFree (1 - d) l := if_pos (by simp [hin, hs])

end

/-! ## Events and held beats -/

section
variable {s : State} {d : Nat}

theorem State.seamCredits_whole (hs : s.isSplit = false) :
    s.seamCredits d = s.modSdir d fun x => { x with evUsed := x.evUsed - x.evRet, evRet := 0, tUsed := x.tUsed - x.tRet, tRet := 0 } :=
  if_neg (Bool.eq_false_iff.1 hs)

/-- The first flit of the receive side, with no golden one behind it, enters the router of its row (R445). -/
theorem State.seamDeliver_first {m : MFlit} {rest : List MFlit} (hr : (s.getSdir d).recv = m :: rest)
    (hg : ((s.getSdir d).recv.find? fun m => s.isGolden (1 - d) m.f) = none) (hy : fDY m.f < 6) (ht : s.edgeTakes d (fDY m.f) = true) :
    s.seamDeliver d = (s.modSdir d fun x => { x with recv := x.recv.erase m, evRet := x.evRet + 1 }).modRt (edgeOf d (fDY m.f)) fun r =>
      r.setInput (edgeIn d) (some m) := by
  have hpick : (((s.getSdir d).recv.find? fun m => s.isGolden (1 - d) m.f).orElse fun _ => (s.getSdir d).recv.head?) = some m := by
    rw [hg, hr]
    rfl
  have hrow : ((fDY m.f :: (List.range 6).filter fun y => y != fDY m.f).find? fun y => decide (y < 6) && s.edgeTakes d y) =
      some (fDY m.f) := List.find?_cons_of_pos (by simp [hy, ht])
  simp only [State.seamDeliver, hpick, hrow]

theorem State.seamHold_releases {b : SBeat} {t : List SBeat} (hh : (s.getSdir d).hold = b :: t) (hu : (s.getSdir d).tUsed < 8192) :
    s.seamHold d = s.modSdir d fun x => { x with hold := t, tq := x.tq ++ [b], tUsed := x.tUsed + 1 } := by
  simp only [State.seamHold, hh, hu, if_true]

end

/-! ## Failures and the throttle -/

/-- The state once a link has left service and its crossings have moved (R451, R452). -/
def State.linkOut (s : State) (d l code : Nat) : State :=
  let r := s.val .SM_LREASON [l]
  let u := s.setVal .SM_LREASON [l] (if d = 0 then code * 2 ^ 16 + r % 2 ^ 16 else r / 2 ^ 16 * 2 ^ 16 + code)
  let u := (u.post none 9 l 0xFFFF code).setFld .SM_LINK [l] (if d = 0 then SM_LINK_STATEW else SM_LINK_STATEE) 3
  let u := u.setFld .SM_STATUS [] SM_STATUS_INSVC (setBits (u.fld .SM_STATUS [] SM_STATUS_INSVC) l 1 0)
  ((u.setFld .SM_STATUS [] SM_STATUS_STATE 1).noteCtl.updateCaps).moveCross l

section
variable {s : State} {d l code : Nat} (hin : s.inSvc l = true) (hs : s.isSplit = false)
include hin hs

theorem State.linkFail_eq :
    s.linkFail d l code =
      if (s.linkOut d l code).dirAlive 0 && (s.linkOut d l code).dirAlive 1 then
        (s.linkOut d l code).each [0, 1] fun s d =>
          let s := (s.moveCells d l).bump .SM_RESTRIPE [d]
          if s.throttledLoad d > s.fld (capReg d) [] SM_CAPW2E_TSLOTS then s.modSdir d fun x => { x with thr := 3 } else s
      else (s.linkOut d l code).enterSplit := if_neg (by simp [hin, hs])

end

section
variable {s : State} {d : Nat}

theorem State.throttle_none (h : (s.getSdir d).thr ≠ 1) : s.throttle d = s := if_pos h

/-- The reduced slots of a direction published with 0x0D06 (R453). -/
def State.throttleShown (u : State) (d : Nat) : State :=
  ((((u.each ((List.range 64).filter fun n => (u.getSch n).cross.any fun y => y.dir == d) fun s n => s.modSch n fun x =>
    { x with thr := (d, u.fld (capReg d) [] SM_CAPW2E_TSLOTS, u.val (loadReg d) []) :: x.thr.filter (·.1 != d) }).setFld
      .SM_STATUS [] SM_STATUS_THROTTLE 1).setFld .SM_STATUS [] SM_STATUS_REASON 0x0D06).post none 9 d 0xFFFF 0x0D06).remask

theorem State.throttle_due (h : (s.getSdir d).thr = 1) : s.throttle d = (s.modSdir d fun x => { x with thr := 0 }).throttleShown d :=
  if_neg (not_not.2 h)

/-- Publishing reduced slots changes registers, schedules, send maps and logs only. -/
theorem State.throttleShown_keeps (u : State) (d : Nat) : Keeps (Part.mask [.regs, .sch, .smapA, .gp]) u (u.throttleShown d) :=
  have hshown := (Keeps.refl _ u).each _ _ fun v n => State.modSch_keeps (.refl _ v) n _ (by decide)
  State.remask_keeps (State.post_keeps (State.setFld_keeps (State.setFld_keeps hshown _ _ _ _ (by decide)) _ _ _ _ (by decide))
    _ _ _ _ _ (by decide)) (by decide)

theorem State.throttleShown_sdir (u : State) (d : Nat) : (u.throttleShown d).sdir = u.sdir :=
  (u.throttleShown_keeps d).same .sdir (by decide)

/-- The throttle of a direction leaves the other one's record as it was. -/
theorem State.throttle_getSdir {e : Nat} (he : e ≠ d) : (s.throttle d).getSdir e = s.getSdir e := by
  by_cases h : (s.getSdir d).thr = 1
  · rw [State.throttle_due h]
    rw [State.getSdir, State.throttleShown_sdir, State.modSdir_sdir, mget_mmod_ne _ _ he]
    rfl
  · rw [State.throttle_none h]

end

/-- Settles O32: each operation's case, under the conditions that lead to it. -/
theorem seamCommandsHaveTheirEffects : Obligations.SeamCommandsHaveTheirEffects := by
  refine ⟨?cell, ?land, ?link, ?ack, ?credit, ?deliver, ?hold, ?failure, ?throttle⟩
  case cell =>
    intro s d l vl fate hin hrate hs hfirst x act take
    have h : s.CellGoes d.val l.val vl.val := ⟨hin, hrate, hs, hfirst⟩
    refine ⟨fun c hc => ?resent, fun b hv hnone hroom hmoved hb hg => ?beat⟩
    case resent =>
      intro u
      refine ⟨fun ha hg => ?_, fun ha hg hf => ?_, fun ha hg hf => ?_, fun w ha hg hw => ?_⟩
      · exact congrArg Host.Outcome.next (State.seamArrive_accepts h (by simp [ha]) hg (State.nextCell_again hc))
      · exact congrArg Host.Outcome.next ((State.seamArrive_badCrc h hc ha hg).trans (congrArg act (if_neg (Nat.not_le.2 hf))))
      · exact congrArg Host.Outcome.next ((State.seamArrive_badCrc h hc ha hg).trans (congrArg act (if_pos hf)))
      · exact congrArg Host.Outcome.next (State.seamArrive_ahead h hc ha hg hw)
    case beat =>
      have hlost : s.cellLost d.val l.val = false := List.any_eq_false.2 fun b hb => by simpa using List.find?_eq_none.1 hnone b hb
      refine congrArg Host.Outcome.next (State.seamArrive_accepts (again := false) h (by simp [hlost]) hg ?_)
      rw [hv]
      exact State.nextCell_beat hnone hroom hmoved hb
  case land => exact fun s d => ⟨fun b ho hf => State.landCell_live ho hf, fun _ => rfl, fun _ => rfl⟩
  case link =>
    exact fun s d l hin hs => ⟨fun hn => congrArg Host.Outcome.next (State.seamReplay_owed hin hs hn),
      fun hn => congrArg Host.Outcome.next (State.seamReplay_idle hn), congrArg Host.Outcome.next (State.seamIdle_acks hin hs)⟩
  case ack => exact fun s d l h => State.ackFree_noEvents h
  case credit => exact fun s d hs => congrArg Host.Outcome.next (State.seamCredits_whole hs)
  case deliver => exact fun s d m rest hr hg hy ht => congrArg Host.Outcome.next (State.seamDeliver_first hr hg hy ht)
  case hold => exact fun s d b t hh hu => congrArg Host.Outcome.next (State.seamHold_releases hh hu)
  case failure =>
    intro s d l hin hs r u₁ u₂ u
    have hfail := State.linkFail_eq (d := d.val) (code := 0x0D24) hin hs
    refine ⟨fun h0 h1 => ?_, fun h => ?_⟩
    · exact congrArg Host.Outcome.next (hfail.trans (if_pos (by rw [Bool.and_eq_true]; exact ⟨h0, h1⟩)))
    · refine congrArg Host.Outcome.next (hfail.trans (if_neg ?_))
      rw [Bool.and_eq_true]
      rintro ⟨h0, h1⟩
      rcases h with h | h
      · exact Bool.false_ne_true (h.symm.trans h0)
      · exact Bool.false_ne_true (h.symm.trans h1)
  case throttle =>
    refine fun s => ⟨fun h0 h1 => ?_, fun h0 h1 => ?_⟩
    · refine congrArg Host.Outcome.next ((congrArg (State.throttle · 1) (State.throttle_none h0)).trans (State.throttle_none h1))
    · refine congrArg Host.Outcome.next ((State.throttle_none ?_).trans (State.throttle_due h0))
      rw [State.throttle_getSdir (by decide)]
      exact h1

end Sys2Proof.Machine
end
